-- ==== Sys2Proof/Word.lean ====
section
/-! DEFINITION. The word types of the device and their plainest arithmetic: bytes, 64-bit registers,
64-byte lines, counters that saturate. Nothing here follows a rule of its own; the rules are cited
where these are used. -/

namespace Sys2Proof

/-- One byte. -/
abbrev Byte := BitVec 8

/-- One 64-bit register value (R498: every register occupies 8 bytes and reads as 64 bits). -/
abbrev Word := BitVec 64

/-- One 64-byte line of DRAM (R182: one burst of one sub-channel). Byte 0 is bits [7:0]. -/
abbrev Line := BitVec 512

/-- A 16-bit master ID (R13). -/
abbrev MasterId := BitVec 16

/-- One MiB in bytes (R5). -/
def mib : Nat := 1024 * 1024
/-- One GiB in bytes (R5). -/
def gib : Nat := 1024 * 1024 * 1024
/-- One page in bytes (R37: the page map tracks 4 KiB pages). -/
def pageBytes : Nat := 4096
/-- Lines of one page (R182: numbered 0 to 63). -/
def linesPerPage : Nat := 64

/-- One nanosecond count for a millisecond, a second, an hour, a day (R5, R28). -/
def nsPerMs : Nat := 1000000
/-- Nanoseconds of one second. -/
def nsPerS : Nat := 1000000000
/-- Nanoseconds of one hour. -/
def nsPerH : Nat := 3600 * nsPerS
/-- Nanoseconds of one day. -/
def nsPerDay : Nat := 24 * nsPerH

/-- Count one more, saturating at `top`: the rule of every counter the spec calls saturating. -/
def satInc (top n : Nat) : Nat := if n < top then n + 1 else top

/-- `n`, cut at `top`. -/
def sat (top n : Nat) : Nat := min top n

/-- The value with only bit `n` set. -/
def bit (n : Nat) : Nat := 2 ^ n

/-- 0 or 1. -/
def b2n (b : Bool) : Nat := if b then 1 else 0

/-- `ceil (a / b)`. -/
def ceilDiv (a b : Nat) : Nat := (a + b - 1) / b

end Sys2Proof
end

