-- ==== Sys2Proof/Syntax.lean ====
section
/-! DEFINITION. The commands of the block: one constructor of `Instr` for each row of
spec/opcode_table.json, in the table's order, and the types of their operands. The table gives the
rows no operand bits; the operands are those the row's rule names (an address, a value, a length),
and, where the row reports something physical (a read's decode result, a detector's reading), what
the detector saw. -/

namespace Sys2Proof

/-- The two crews (R12, regions 4 and 5; crew byte of R230: 0x00 Bow, 0x01 Stroke). -/
inductive Crew where
  | bow | stroke
  deriving DecidableEq, Repr

/-- The other crew. -/
def Crew.other : Crew → Crew
  | .bow => .stroke
  | .stroke => .bow

/-- The two battery strings (R304). -/
inductive Str where
  | a | b
  deriving DecidableEq, Repr

/-- The other string. -/
def Str.other : Str → Str
  | .a => .b
  | .b => .a

/-- The part (R2, R367 0x1001). -/
inductive Variant where
  | tk7264c | tk7264i | tk7232c
  deriving DecidableEq, Repr

/-- Fault classes with a code in a record (R255); chip fatal is no class of a record. -/
inductive FClass where
  | c | u | f
  deriving DecidableEq, Repr

/-- The triggers of a save (R132), with the encoding of TRIGGER in R157. -/
inductive Trigger where
  | pwrfail | vin | chipFatal | viral | rail | od
  deriving DecidableEq, Repr

/-- The path that carries a request and so its privilege (R353). `secured` is a secured SPDM
session: its number, whether it was authenticated with the owner certificate, whether its carrier is
the MGMT bus (privilege P otherwise H), and the mailbox head or endpoint that carries it. -/
inductive Path where
  | mailbox (head : Fin 2)
  | doe (head : Fin 2)
  | vdm (eid : Nat)
  | smbus (eid : Nat)
  | secured (id : Nat) (owner : Bool) (overSmbus : Bool) (carrier : Nat)
  deriving DecidableEq, Repr

/-- What the decode of one DRAM read gave (R184, R186): no error, an error the cell corrected
(`dev` the device of the corrected symbol), an uncorrectable decode whose repeat after 100 ns
decoded, or one whose repeat failed too. -/
inductive DramRead where
  | ok
  | corrected (dev : Fin 10)
  | repeatOk
  | uncorrectable (syndrome : BitVec 16)
  deriving DecidableEq, Repr

/-- Transfer rates of the link in GT/s (R31). -/
inductive LinkRate where
  | g2_5 | g5 | g8 | g16 | g32 | g64
  deriving DecidableEq, Repr

/-- Configuration-space registers of a head whose contents the spec gives (R31, R41, R50, R52, R60): the support bits,
BAR0, the Register Locator, the CXL DVSEC, the GPF DVSEC and the PTM capability. -/
inductive CfgReg where
  | features | bar0 | registerLocator | cxlDvsec | gpfDvsec | ptm | revision
  deriving DecidableEq, Repr

/-- Component and device registers of BAR0 whose contents the spec gives (R41, R50, R66, R272). -/
inductive DevReg where
  | mailboxCapabilities | memoryStatus | backgroundStatus | rasUncorrectable | rasCorrectable | rasHeader
  deriving DecidableEq, Repr

/-- A mailbox command that has no row of its own (R31, R58, R61): event records by log (0 informational, 1 warning, 2 failure,
3 fatal), the label storage area, the features not supported, and a vendor command whose payload is too short. -/
inductive MailboxCmd where
  | getEventRecords (log : Fin 4)
  | clearEventRecords (log : Fin 4) (count : Nat)
  | getLabels (off length : Nat)
  | setLabels (off : Nat) (data : List Byte)
  | transferFw | activateFw | setPartitionInfo | passphrase
  | short (opcode length : Nat)
  deriving DecidableEq, Repr

/-- Where a register access goes. `xbar` is a crossbar byte address of R498; `bar` an offset in BAR0
of a head (R41) with the access size in bytes; `hdm` programs one HDM decoder of a head (R37: the
layout is CXL 3.1's, so the access is given by its effect) and reads its control and status, `hdmRange` reads
its base or its size; `msix` masks one vector (R49); `config` is a configuration request (R34) and `dev` a component or
device register, each by name; `mailbox` is the doorbell with a command that has no row of its own (R31, R58); `doe` is a
CDAT request over DOE (R38), and `serial` an access of 1, 2, 4 or 8 bytes to the serial memory (R393, R434). -/
inductive RegTarget where
  | xbar (addr : Nat) (size : Nat)
  | bar (head : Fin 2) (off : Nat) (size : Nat)
  | hdm (head : Fin 2) (idx : Fin 4) (base size ways gran : Nat) (commit lock : Bool)
  | msix (head : Fin 2) (vec : Fin 8) (masked : Bool)
  | hdmRange (head : Fin 2) (idx : Fin 4) (sizeHalf : Bool)
  | config (head : Fin 2) (reg : CfgReg)
  | dev (head : Fin 2) (reg : DevReg)
  | mailbox (head : Fin 2) (cmd : MailboxCmd)
  | doe (head : Fin 2)
  | serial (off : Nat) (size : Nat)
  deriving DecidableEq, Repr

/-- Alert thresholds of Set Alert Configuration (R57); `none` leaves the alert off. -/
structure AlertCfg where
  lifeUsed : Option Nat
  temperature : Option Int
  corrected : Option Nat
  deriving DecidableEq, Repr

/-- An SPDM request as far as R395, R396 and R354 give it: a measurement block, the opening or end
of a secured session, or another SPDM 1.3 request by its code. -/
inductive SpdmReq where
  | measurement (index : Nat)
  | openSession (id : Nat) (ownerAuth : Bool)
  | endSession (id : Nat)
  | ideKey (cxlMem : Bool) (stream key : Nat)
  | other (code : Nat)
  deriving DecidableEq, Repr

/-- Page-map states (R86). -/
inductive PState where
  | clean | dirty | draining | lost
  deriving DecidableEq, Repr

/-- The landings (R231). -/
inductive Landing where
  | host | mem | fls | pwr | ldg
  deriving DecidableEq, Repr

/-- A stream of a landing (R230: bit [15] coxswain, bits [5:0] number). -/
structure Stream where
  cox : Bool
  num : Fin 64
  deriving DecidableEq, Repr

/-- Areas of the flash (R207). -/
inductive Area where
  | basin | pslc | tlc | logArea | spare
  deriving DecidableEq, Repr

/-- Operations of a flash oar (R208). Their class is `opClass` in Machine/Flash.lean. A checkpoint program writes one chunk of
the mapping table, or the chunk directory, from a unit of the TLC stream on (R104). -/
inductive FlashOp where
  | saveProgram (page : Nat)
  | saveMetaRead
  | demandFetch (page : Nat)
  | repair (line : Nat)
  | restoreRead (page : Nat)
  | restoreMetaRead
  | basinErase (block : Nat)
  | drain (tag : Nat) (seg unit : Nat) (sprint : Bool)
  | logProgram
  | relocate (page seg unit : Nat) (fold : Bool)
  | checkpointProgram (seg unit : Nat) (chunk : Option Nat)
  | erase (area : Area) (seg : Nat)
  | patrolRead (seg : Nat)
  deriving DecidableEq, Repr

/-- How a flash operation ended: programmed or read, program or erase failure, or a unit that
failed decode after `attempts` read attempts (R216, R218). -/
inductive FlashRes where
  | ok (attempts : Nat) (slots : Nat)
  | fail
  | undecodable
  deriving DecidableEq, Repr

/-- Why a DDR channel starts a block reset (R194). -/
inductive ResetCause where
  | commandTimeout | fourthFailure | phyLock | oarWatchdog | oarSram | queueSram
  deriving DecidableEq, Repr

/-- A DDR alert (R186): a write CRC error reported by a device, or a parity error of a command. -/
inductive AlertKind where
  | writeCrc (dev : Fin 10)
  | parity
  deriving DecidableEq, Repr

/-- String states (R307) and failure reasons (R308). -/
inductive StrState where
  | absent | unknown | counted | learning | failed
  deriving DecidableEq, Repr

/-- Failure reasons of a string (R308). -/
inductive StrReason where
  | none | sensor | temperature | descriptor | fault | depleted
  deriving DecidableEq, Repr

/-- One 1 ms sample of one string (R311, R326): millivolts, 0.1 mA units into the string,
0.1 degree units, thermistor resistance in ohm. -/
structure Sample where
  mv : Nat
  current : Int
  temp : Int
  ntcOhm : Nat
  deriving DecidableEq, Repr

/-- Contents of one Waterline record as a crew or the Power region sends it (R334, R337). -/
structure WlReq where
  code : BitVec 16
  severity : Fin 8
  source : MasterId
  arg : BitVec 32
  conseq : Bool
  deriving DecidableEq, Repr

/-- One commit landed on Ledger stream 0 that has no row of its own (R231): a bucket's open or
retirement (R153), a training record (R189), a plan (R428), a power counter set (R299), or other
firmware contents by type. -/
inductive OtherCommit where
  | bucketOpen (slot epoch : Nat)
  | bucketRetire (slot : Nat)
  | trainingRecord (channel : Fin 8)
  | plan
  | railCounters
  | gpfPhase2
  | channelRejoined (channel : Fin 8)
  | firmware (type : Nat) (contents : List Word)
  deriving DecidableEq, Repr

/-- A control command as it lies in a landing (R230, R231): the commands this spec describes, with
their operands, and every other firmware command by opcode and payload. -/
inductive Landed where
  | weirPublish (level : Nat)
  | weirLimits (capMiB floorMiB : Nat)
  | markDraining (pages : List Nat)
  | completeDrain (tag seg unit : Nat)
  | failDrain (tag : Nat)
  | mapWalk (slot : Fin 16) (st : PState)
  | dramOarReload (ch : Fin 8)
  | flashOp (ch : Fin 32) (die : Fin 8) (op : FlashOp) (reads : List (Nat × DramRead))
  | flashOarReload (ch : Fin 32)
  | powerDown
  | saveRelease
  | latchClear
  | chgCtrl (value : BitVec 32)
  | stringState (str : Str) (st : StrState) (reason : StrReason) (paused : Bool)
  | coreTarget (mv : Nat)
  | waterline (r : WlReq)
  | commit (c : OtherCommit)
  | settleCompletion
  | firmware (opcode : BitVec 16) (payload : List Byte)
  deriving DecidableEq, Repr

/-- The detectors that resets mask (R269), and every other one. -/
inductive Detector where
  /-- A crossbar request timeout or credit checker on a Memory port. -/
  | memPort (ch : Fin 8)
  /-- The read timer of a flash oar access, demand fetch or Lakebed repair over a line of DRAM. -/
  | dramRead (line : Nat)
  /-- A scrub or Scan Media timer of a DRAM channel. -/
  | scrubTimer (ch : Fin 8)
  /-- A pairing timer of a stream. -/
  | pairing (landing : Landing) (stream : Stream)
  /-- Flash landing stream `n`. -/
  | flashStream (n : Fin 33)
  /-- An LDPC or XTS slot timer of a flash channel. -/
  | slotTimer (ch : Fin 32)
  /-- A crossbar or request timeout of a flash oar. -/
  | flashOar (ch : Fin 32)
  /-- A Flash crossbar port, or any other detector of the Flash region. -/
  | flashOther
  /-- A crew's crossbar port. -/
  | crewPort (crew : Crew)
  /-- The Umpire's mirror-digest comparison for a crew. -/
  | mirrorDigest (crew : Crew)
  /-- A crossbar timeout of a head's port, or a write-buffer credit checker of the head. -/
  | headPort (head : Fin 2)
  /-- The request timeout of a requester that waits on a block of the Power region. -/
  | waitsOn (unit : MasterId)
  | other
  deriving DecidableEq, Repr

/-- A fault as a detector reports it to the collector (R256 to R260). `unit` is the charged unit,
`master` the requester (word 2), `persists` says that the condition is still present (R264). -/
structure FaultIn where
  unit : MasterId
  cls : FClass
  key : BitVec 8
  detail : BitVec 16
  typ : Fin 16
  master : MasterId
  addr : Word
  persists : Bool
  detector : Detector
  deriving DecidableEq, Repr

/-- One entry of an image's section table (R399): type, offset, length, and whether all its other bytes are 0. -/
structure Section where
  typ : Nat
  off : Nat
  len : Nat
  restZero : Bool
  deriving DecidableEq, Repr

/-- What verification reads of an image (R398, R399, R408): the header's fields, the number of the image-signing key it
names, whether the signature and the digest are right, the keys it revokes (R395), and whether its settings can be read. -/
structure VerifyIn where
  magic : Nat
  headerVersion : Nat
  length : Nat
  sections : List Section
  key : Nat
  revokes : List Nat
  signatureOk : Bool
  digestOk : Bool
  deviceCode : Nat
  securityVersion : Nat
  producedHandover : Nat
  lowestHandover : Nat
  highestHandover : Nat
  schema : BitVec 16
  version : List Byte
  settingsReadable : Bool
  deriving DecidableEq, Repr

/-- Flash patrol's findings on one segment (R216). -/
structure PatrolIn where
  seg : Nat
  worstAttempt : Nat
  thirdSlot : Bool
  failedUnits : List Nat
  deriving DecidableEq, Repr

/-- A rail condition (R281). -/
inductive RailFaultKind where
  | uvFault | ovFault | powerGoodLoss | overcurrent
  deriving DecidableEq, Repr

/-- The two two-wire ports (R370). -/
inductive Port where
  | mgmt | lcl
  deriving DecidableEq, Repr

/-- Bus errors of R378. -/
inductive BusErr where
  | misplaced | restartInAck | pec
  deriving DecidableEq, Repr

/-- Where a controller lost arbitration (R377). -/
inductive ArbLoss where
  | addressOwn | addressOther | data
  deriving DecidableEq, Repr

/-- One MCTP packet as a block write with command code 0x0F delivers it (R383): source bus address,
source and destination endpoint IDs, start and end of message, 2-bit sequence number, tag, payload
bytes, and whether the PEC matched. -/
structure MctpPkt where
  srcAddr : BitVec 7
  src : Nat
  dst : Nat
  som : Bool
  eom : Bool
  seq : Fin 4
  tag : Fin 8
  payload : List Byte
  pecOk : Bool
  deriving DecidableEq, Repr

/-- One Ergometer's two readings and its parity check (R421): ps of slack, ppm of drift. -/
structure ErgoIn where
  slack : Int
  drift : Int
  parityOk : Bool
  deriving DecidableEq, Repr

/-- What can bring a margin plan (R422); `kept` is what R422 held, 10 s after the period that held it. -/
inductive PlanTrig where
  | timer | temperature | start | kept
  deriving DecidableEq, Repr

/-- Why a start is a failed boot (R442). -/
inductive BootFail where
  | chipFatal | noMember | watchdog
  deriving DecidableEq, Repr

/-- What the restore finds when it reads its metadata (R161, R162). -/
structure MetaIn where
  rootsOk : Bool
  saveCommitsOk : Bool
  mapOk : Bool
  mappingOk : Bool
  deriving DecidableEq, Repr

/-- What the serial-memory reads at AUX entry found (R438, R444, R435, R439). -/
structure ProfileIn where
  valid : Bool
  copy : Fin 2
  bootcfg : Fin 3
  settings : Fin 3
  descriptorValid : Bool
  deriving DecidableEq, Repr

/-- What a link trained to (R31, R34): the head, its lanes and its rate. -/
structure LinkUp where
  head : Fin 2
  width : Nat
  rate : LinkRate
  deriving DecidableEq, Repr

/-- What a background scan found (R55): the head whose command it is, and the lines whose decode was not clean. -/
structure ScanReport where
  head : Fin 2
  found : List (Nat × DramRead)
  deriving DecidableEq, Repr

/-- A command to a flash oar (R208): its operation, and the lines whose read from DRAM for it met an error, with what the
decode gave (R185, R186). -/
structure OarOp where
  op : FlashOp
  reads : List (Nat × DramRead)
  deriving DecidableEq, Repr

/-- What a fill of DRAM met (R176, R186): pages whose unit failed decode, and lines of DRAM that met an error, with what the
decode gave. -/
structure FillErrors where
  pages : List Nat
  lines : List (Nat × DramRead)
  deriving DecidableEq, Repr

/-- How a demand fetch ended (R169, R176, R186): whether the page's unit decoded, and the lines of DRAM that met an error, with
what the decode gave. -/
structure FetchRes where
  ok : Bool
  lines : List (Nat × DramRead)
  deriving DecidableEq, Repr

/-- What the test of a failed ledger found (R339, R499): whether it passed, and the records whose CRC fails. -/
structure LedgerFound where
  pass : Bool
  corrupt : List Nat
  deriving DecidableEq, Repr

/-- A register read (R6): the register, and the unit that reads it. -/
structure RegRead where
  target : RegTarget
  master : MasterId
  deriving DecidableEq, Repr

/-- The commands of the block, one constructor for each row of spec/opcode_table.json, in its order but
for the last families, whose commands without operands stand at the end: compiled Lean tags no more than 244 constructors
that have operands. -/
inductive Instr where
  /-- HOST_READ (R74). A 64-byte CXL.mem read arrives and is served from the write buffer or DRAM, or returns poison while
  memory is not ready. -/
  | hostRead (head : Fin 2) (hpa id : Nat) (res : DramRead)
  /-- HOST_WRITE (R30). A CXL.mem write enters the write buffer, passes the dirty filter and the Weir test for a first-write,
  and is completed on admission. -/
  | hostWrite (head : Fin 2) (hpa id : Nat) (data : Line) (be : BitVec 64) (poison : Bool)
  /-- HELD_WRITE_ADMIT (R122). Room appears for a held first-write, which is admitted in arrival order and completed. -/
  | heldWriteAdmit
  /-- HOLD_LIMIT_EXPIRY (R122). A held first-write reaches 20 µs and is admitted as an overshoot; the hold-limit cause of
  Sprint is set. -/
  | holdLimitExpiry
  /-- HST_MARK (R43). A write to the Mark doorbell advances HST_EPOCH and closes the newest bucket, or sets MARK_REJECT. -/
  | hstMark (v : Word)
  /-- HST_SETTLE (R44). A write to the Settle doorbell completes at once, is rejected, or is accepted and recomputes
  SETTLE_COVER. -/
  | hstSettle (n : Word)
  /-- REGISTER_WRITE (R6). A write to a register that has no row of its own acts according to the access types of its fields.
  -/
  | registerWrite (tgt : RegTarget) (master : MasterId) (value : Word)
  /-- VIRAL (R32). A viral indication on either head is treated as a host save request: fence and save. -/
  | viral (head : Fin 2)
  /-- PERST_N_ASSERT (R35). PERST_N or H1_PERST_N asserts with power present and resets only the Host region or head. -/
  | perstNAssert (head : Fin 2)
  /-- PERST_N_DEASSERT (R34). PERST_N deasserts, and link training starts once LINK has been entered. -/
  | perstNDeassert (head : Fin 2)
  /-- LINK_RESET (R35). A link reset or hot reset resets the Host region head without touching persistence state. -/
  | linkReset (head : Fin 2)
  /-- FLR (R35). A function-level reset resets the head's HDM decoders, mailbox and update session. -/
  | flr (head : Fin 2)
  /-- CXL_RESET (R35). A CXL Reset resets the Host region only; memory clear is not supported. -/
  | cxlReset (head : Fin 2)
  /-- HOST_REGION_READY (R34). The Host region becomes ready, and configuration requests stop receiving Request Retry Status.
  -/
  | hostRegionReady (up : LinkUp)
  /-- GPF_PHASE1 (R52). A GPF Phase 1 request is acknowledged within 1 µs. -/
  | gpfPhase1 (head : Fin 2)
  /-- GPF_PHASE2 (R52). A GPF Phase 2 request starts the drain of every write received before it. -/
  | gpfPhase2 (head : Fin 2)
  /-- GPF_DRAIN_DONE (R52). The Phase 2 drain completes; the ledger records GPF_PHASE2 and Phase 2 is acknowledged. -/
  | gpfDrainDone
  /-- OD_READ (R350). Mailbox or MCTP opcode 0xC001 returns the bytes of an entry's value from a byte offset, fixing a view
  at a view point. -/
  | odRead (p : Path) (index : BitVec 16) (sub : BitVec 8) (off : Nat)
  /-- OD_WRITE (R351). Opcode 0xC002 writes an entry or a segment of an entry; RWS values are persisted before OK. -/
  | odWrite (p : Path) (index : BitVec 16) (sub : BitVec 8) (last : Bool) (off : Nat) (data : List Byte) (stored : Bool)
  /-- OD_ENUMERATE (R360). Opcode 0xC003 returns entry descriptors in index order. -/
  | odEnumerate (p : Path) (index : BitVec 16) (sub : BitVec 8) (maximum : Nat)
  /-- UPDATE_OPEN (R403). Opcode 0xC010 opens an update session, takes the lock and starts erasing the inactive slot. -/
  | updateOpen (p : Path) (length : Nat)
  /-- UPDATE_BLOCK (R405). Opcode 0xC011 programs and reads back one image block of the open session. -/
  | updateBlock (p : Path) (session off : Nat) (data : List Byte) (readBack : Bool)
  /-- UPDATE_COMMIT (R407). Opcode 0xC012 checks the session and starts verification as a background command. -/
  | updateCommit (p : Path) (session : Nat)
  /-- UPDATE_ABORT (R406). Opcode 0xC013 releases the update session before activation begins. -/
  | updateAbort (p : Path) (session : Nat)
  /-- WATERLINE_READ (R67). Opcode 0xC020 returns whole Waterline records from a sequence number in native or FB3 format. -/
  | waterlineRead (p : Path) (first maximum : Nat) (fb3 : Bool) (minSeverity : Fin 8)
  /-- GET_POISON_LIST (R54). Returns the poisoned ranges from the 4,096-entry list held in the ledger. -/
  | getPoisonList (head : Fin 2) (dpa length : Nat)
  /-- INJECT_POISON (R53). Writes the poison marker into a line. -/
  | injectPoison (head : Fin 2) (dpa : Nat)
  /-- CLEAR_POISON (R53). Clears a line's poison, acting as a first-write on a CLEAN or LOST page. -/
  | clearPoison (head : Fin 2) (dpa id : Nat) (data : Line)
  /-- SCAN_MEDIA (R55). Starts a background scan of a range through the patrol-scrub path. -/
  | scanMedia (head : Fin 2) (dpa length : Nat)
  /-- SCAN_MEDIA_DONE (R55). The background scan completes, and vector 0 is raised. -/
  | scanMediaDone (scan : ScanReport)
  /-- GET_SCAN_MEDIA_CAPABILITIES (R55). Returns the scan-time estimate at 32 GB/s. -/
  | getScanMediaCapabilities (head : Fin 2) (dpa length : Nat)
  /-- SET_SHUTDOWN_STATE (R56). Records the host's Shutdown State without changing the Dirty Shutdown Count. -/
  | setShutdownState (head : Fin 2) (dirty : Bool)
  /-- GET_SHUTDOWN_STATE (R56). Returns the recorded Shutdown State. -/
  | getShutdownState (head : Fin 2)
  /-- GET_HEALTH_INFO (R57). Returns Health Status, Media Status, Life Used and Device Temperature. -/
  | getHealthInfo (head : Fin 2)
  /-- SET_ALERT_CONFIGURATION (R57). Sets alert thresholds on Life Used, temperature and corrected-error counts. -/
  | setAlertConfiguration (head : Fin 2) (cfg : AlertCfg)
  /-- GET_ALERT_CONFIGURATION (R57). Returns the alert thresholds. -/
  | getAlertConfiguration (head : Fin 2)
  /-- IDENTIFY_MEMORY_DEVICE (R36). Reports the visible capacity as total and persistent-only capacity. -/
  | identifyMemoryDevice (head : Fin 2)
  /-- GET_FW_INFO (R420). Reports two slots, the active slot and the slot versions. -/
  | getFwInfo (head : Fin 2)
  /-- SANITIZE (R215). Runs a crypto erase: new media key, SANITIZED commit, page map and mapping reset. -/
  | sanitize (head : Fin 2)
  /-- SECURE_ERASE (R215). Runs the same crypto erase as Sanitize. -/
  | secureErase (head : Fin 2)
  /-- PTM_RESPONSE (R28). A PTM response aligns the time base by slewing or by one forward step. -/
  | ptmResponse (head : Fin 2) (hostTime : Word)
  /-- SPDM_REQUEST (R396). An SPDM 1.3 request over DOE or MCTP is answered by the seat holder's Coxswain firmware. -/
  | spdmRequest (p : Path) (req : SpdmReq)
  /-- SET_CERTIFICATE (R397). Installs, replaces or erases the owner certificate chain in slot 7. -/
  | setCertificate (p : Path) (slot : Fin 8) (chain : List Byte)
  /-- RESTORE_MODE_WRITE (R51). A write to OD 0x2030 stores the restore mode and can make a running restore's memory ready. -/
  | restoreModeWrite (p : Path) (v : Byte)
  /-- SAVE_REQUEST (R132). A write of 0x01 to OD 0x2040 starts a save on main power after posting OK. -/
  | saveRequest (p : Path) (v : Byte)
  /-- OFF_COMMAND (R292). A write of 0x00 to OD 0x3001 starts a clean shutdown, a power-down to AUX or sets HOLD_AUX. -/
  | offCommand (p : Path)
  /-- ON_COMMAND (R287). A write of 0x01 to OD 0x3001 clears HOLD_AUX or sets ON_PENDING. -/
  | onCommand (p : Path)
  /-- LATCH_CLEAR (R295). A write of 0x01 to OD 0x3002 with platform privilege clears the sequencer latch. -/
  | latchClear (p : Path) (v : Byte)
  /-- LEARNING_REQUEST (R318). A write to OD 0x4007 starts a capacity learn of the named string if the start conditions hold.
  -/
  | learningRequest (p : Path) (v : Byte)
  /-- PACK_CHANGE_DECLARATION (R324). A write to OD 0x4008 applies the pack-change reset to the named strings. -/
  | packChangeDeclaration (p : Path) (v : Byte)
  /-- OD_ACKNOWLEDGE (R263). A write to OD 0x5003 acknowledges a held capture by fault ID. -/
  | odAcknowledge (p : Path) (faultId : BitVec 32)
  /-- TRIAL_COMMIT (R415). A write of 0x01 to OD 0x7005 commits the trial image. -/
  | trialCommit (p : Path) (v : Byte)
  /-- PLAN_REQUEST (R422). A write of 0x01 to OD 0x8003 triggers a margin plan. -/
  | planRequest (p : Path) (v : Byte)
  /-- SEAT_REQUEST (R241). A write to OD 0x9005 moves the stroke seat to the named member crew. -/
  | seatRequest (p : Path) (v : Byte)
  /-- CREW_RESET_REQUEST (R254). A write to OD 0x9006 resets the named crew through switch-over and rejoin without a capture.
  -/
  | crewResetRequest (p : Path) (v : Byte)
  /-- FREEZE_ENTER_REQUEST (R458). A write of 0x01 to OD 0xB001 sets HOLD_OD. -/
  | freezeEnterRequest (p : Path)
  /-- FREEZE_RESUME_REQUEST (R458). A write of 0x00 to OD 0xB001 clears HOLD_OD. -/
  | freezeResumeRequest (p : Path)
  /-- SETTINGS_COMPACTION_DONE (R355). Background compaction of the settings copy ends, and writes are accepted again. -/
  | settingsCompactionDone
  /-- WEIR_RECOMPUTE (R117). Every 10 ms, or within 1 ms of an input event, both crews recompute the level and send
  WEIR_PUBLISH. -/
  | weirRecompute
  /-- WEIR_PUBLISH (R20). A landed publication sets MEM_WEIR_PUBLISHED, refreshes the enforced level and ends any decay. -/
  | weirPublish (crew : Crew) (level : Nat)
  /-- COXSWAIN_WEIR_RECOMPUTE (R118). Every 100 ms the Coxswain firmware recomputes its own level and writes CAP in
  MEM_WEIR_LIMITS. -/
  | coxswainWeirRecompute
  /-- WEIR_FLOOR_SET (R119). At boot, at a pack change or at a change in counted strings, the Coxswain firmware writes FLOOR.
  -/
  | weirFloorSet
  /-- WEIR_DECAY_START (R20). No refresh has landed for 100 ms, and the enforced level begins its linear decay to the floor. -/
  | weirDecayStart
  /-- WEIR_DECAY_FLOOR (R20). The decay reaches the floor after 1 s, and STATE reads DECAYED. -/
  | weirDecayFloor
  /-- MARK_DRAINING (R92). A landed map operation marks DIRTY pages DRAINING and allocates drain-table entries. -/
  | markDraining (pages : List Nat)
  /-- COMPLETE_DRAIN (R93). A landed map operation finishes a drain, moving the page to CLEAN or clearing PRIOR and lowering
  counts. -/
  | completeDrain (tag seg unit : Nat)
  /-- FAIL_DRAIN (R93). A landed map operation records a failed drain, returning the page to DIRTY and keeping any link. -/
  | failDrain (tag : Nat)
  /-- MAP_WALK_REQUEST (R94). A landed request starts the map walker returning batches of pages of a slot and state. -/
  | mapWalkRequest (slot : Fin 16) (st : PState)
  /-- MAP_WALK_BATCH (R94). The map walker returns a batch of matching pages to the crews. -/
  | mapWalkBatch
  /-- FLASH_OAR_COMMAND (R208). A landed command to a flash oar queues a drain, program, read or erase in its class. -/
  | flashOarCommand (ch : Fin 32) (die : Fin 8) (op : OarOp)
  /-- FLASH_OP_COMPLETE (R208). A flash program, read or erase finishes, and its completion reaches the crews as an input. -/
  | flashOpComplete (ch : Fin 32) (die : Fin 8) (res : FlashRes)
  /-- CHECKPOINT_TIMER (R104). The checkpoint interval expires, and the crews write changed chunks and the chunk directory. -/
  | checkpointTimer
  /-- MAP_LINE_REBUILD (R91). An uncorrectable map line is rebuilt with provisional counts, and a recount walk starts. -/
  | mapLineRebuild (line : Nat)
  /-- RECOUNT_DONE (R91). The recount walk ends, and its counts replace the provisional ones. -/
  | recountDone
  /-- MAPPING_ENTRY_ERROR (R105). An uncorrectable mapping-table entry makes the page re-drain from DRAM. -/
  | mappingEntryError (page : Nat)
  /-- DIRTY_LOG_CHUNK_MOVE (R155). A full 64 KiB chunk of the dirty-log tail is moved into the log area. -/
  | dirtyLogChunkMove
  /-- LOG_COMPACTION_DONE (R155). The compaction walk ends, and every chunk written before the walk is discarded. -/
  | logCompactionDone
  /-- PWRFAIL_N_ASSERT (R132). PWRFAIL_N held low for 10 ns starts a save and closes the battery path. -/
  | pwrfailNAssert (ns : Nat)
  /-- VIN_SENSE_FALL (R132). VIN_SENSE below its falling threshold for 100 ns starts a save and drives PWRFAIL_N low. -/
  | vinSenseFall
  /-- VIN_SENSE_RISE (R283). VIN_SENSE returns above threshold plus hysteresis, resuming rail evaluation and clearing
  HOLD_AUX. -/
  | vinSenseRise
  /-- SAVE_DRAIN_DONE (R138). The write buffer and dirty-filter lines are written back, and BATSW_N is asserted when needed. -/
  | saveDrainDone
  /-- SAVE_STARTED (R147). The ledger commits SAVE_STARTED with the trigger, epochs and bucket table. -/
  | saveStarted
  /-- MAP_SAVED (R147). The ledger commits MAP_SAVED after the page map, drain table and bucket table are in the Basin. -/
  | mapSaved
  /-- CURSOR (R146). Every 1 ms of residue writing, the crews commit the progress cursor. -/
  | cursor (openSeq page : Nat)
  /-- BUCKET_DONE (R144). A bucket pass ends, and the ledger commits BUCKET_DONE. -/
  | bucketDone
  /-- ROOTS_SAVED (R148). The roots are programmed to the Basin header, the ledger and serial memory. -/
  | rootsSaved
  /-- SAVED (R149). The ledger commits SAVED, and the crews send the power-down command. -/
  | saved
  /-- SAVE_TIME_LIMIT (R143). Residue writing stops at 1.1 × t_cap after the fence, and the save closes with the cursor where
  it stands. -/
  | saveTimeLimit
  /-- SAG_DETECT (R142). Every counted string falls below its sag level, and the flash oars halve the programming dies. -/
  | sagDetect (belowA belowB : Bool)
  /-- SAVE_CUTOFF (R142). Every counted string falls below cut-off at 8 dies, or for 1 ms, and the last gasp runs. -/
  | saveCutoff (belowA belowB forOneMs : Bool)
  /-- CREWS_SILENT_TIMEOUT (R150). No landed save command arrives for 2 ms during a save, and the last gasp runs. -/
  | crewsSilentTimeout
  /-- EMPTY_SET_SAVE_TIMEOUT (R249). No crew becomes a member within 2 s of the fence, and the last gasp runs. -/
  | emptySetSaveTimeout
  /-- LEDGER_HOLD_TIMEOUT (R284). 2.5 ms after a cut, the LEDGER_HOLD rail is disabled if LAST_GASP has not landed. -/
  | ledgerHoldTimeout
  /-- POWER_DOWN_COMMAND (R149). A landed power-down command on Power stream 0 starts the power-down to DARK or AUX. -/
  | powerDownCommand
  /-- SAVE_RELEASE (R394). A landed Coxswain command on Power stream C0 allows the power-down command during a save. -/
  | saveRelease
  /-- RESTORE_BEGIN (R159). After crew load and DRAM training, the restore chooses the generation and commits
  RESTORE_STARTED. -/
  | restoreBegin (tailOk : Bool)
  /-- RESTORE_STARTED (R179). The ledger commits RESTORE_STARTED with mode, attempt and previous-shutdown kind. -/
  | restoreStarted
  /-- RESTORE_METADATA_LOADED (R162). The roots and saved metadata are read, with fallbacks, into the reserved area. -/
  | restoreMetadataLoaded (found : MetaIn)
  /-- CONVERSION_DONE (R163). The conversion walk ends, setting the live map, bucket table, residue, epochs and HST_ELOST. -/
  | conversionDone
  /-- EARLY_OPEN_POINT (R167). The last stub is written; POINT is set and memory becomes ready if early-open is selected. -/
  | earlyOpenPoint
  /-- MEMORY_READY (R179). The ledger commits MEMORY_READY when memory is made ready in early-open. -/
  | memoryReady
  /-- LAKEBED_FILL_DONE (R165). The Lakebed fill of DRAM ends. -/
  | lakebedFillDone (failed : FillErrors)
  /-- BASIN_OVERLAY_DONE (R173). The Basin overlay ends, and the crews start a dirty-log compaction. -/
  | basinOverlayDone (failed : FillErrors)
  /-- RESTORED (R173). The ledger commits RESTORED; the generation is consumed and the Basin re-erase begins. -/
  | restored
  /-- RESTORE_INTERRUPTED (R175). The last gasp in the early-open window commits RESTORE_INTERRUPTED with the epoch at the
  fence. -/
  | restoreInterrupted
  /-- BASIN_ERASED (R174). The Basin re-erase ends, the ledger commits BASIN_ERASED and Outflow resumes after early-open. -/
  | basinErased
  /-- BLOCK_ERASE_DONE (R117). An erase of a Basin or other die-block completes, which is a Weir input event for the Basin. -/
  | blockEraseDone (die : Nat) (area : Area) (block : Nat) (ok : Bool)
  /-- DEMAND_FETCH_DONE (R169). The fetched page is written, RESTORED is set and waiting accesses are released in order. -/
  | demandFetchDone (page : Nat) (res : FetchRes) (us : Nat)
  /-- CHECKPOINT (R104). The ledger commits CHECKPOINT with the directory location and write sequence. -/
  | checkpoint
  /-- SETTLED (R107). The SETTLED commit lands; the settle completion is sent and HST_SETTLED_EPOCH advances. -/
  | settled
  /-- SHUTDOWN_CLEAN (R160). After the drain and checkpoint, the ledger commits SHUTDOWN_CLEAN and the device powers down to
  AUX. -/
  | shutdownClean
  /-- CLEAN_SHUTDOWN_DRAINED (R292). Outflow brings the residue to 0 during a clean shutdown, and a checkpoint is committed. -/
  | cleanShutdownDrained
  /-- SANITIZED (R215). The ledger commits SANITIZED with the new wrapped key, superseding earlier commits. -/
  | sanitized
  /-- CHANNEL_ISOLATED (R195). The ledger commits CHANNEL_ISOLATED with the channel number. -/
  | channelIsolated (ch : Fin 8)
  /-- BLOCK_RESET (R194). A qualified cause pauses a DDR channel, puts it into self-refresh and reloads its oar. -/
  | blockReset (ch : Fin 8) (cause : ResetCause)
  /-- BLOCK_RESET_DONE (R194). The reset replays unconfirmed writes, completes writes received since step 1 and resumes
  scheduling. -/
  | blockResetDone (ch : Fin 8) (us : Nat) (ok : Bool)
  /-- DRAM_OAR_RELOAD (R194). A landed coxswain command on Memory stream C1 reloads a DRAM oar's microcode. -/
  | dramOarReload (crew : Crew) (ch : Fin 8)
  /-- FLASH_OAR_RELOAD (R231). A landed coxswain command on Flash stream C0 reloads a flash oar's microcode. -/
  | flashOarReload (crew : Crew) (ch : Fin 32)
  /-- DDR_ALERT (R186). A write CRC or parity alert causes the reissue of the write or command, up to 3 times. -/
  | ddrAlert (ch : Fin 8) (sub : Fin 2) (kind : AlertKind) (failures : Nat)
  /-- LAKEBED_REPAIR_DONE (R187). The fetched unit rewrites the line without poison if the page is still CLEAN. -/
  | lakebedRepairDone (line : Nat) (ok : Bool)
  /-- REPAIR_READ_TIMEOUT (R187). 600 µs after arrival, a host read waiting for a repair returns poison. -/
  | repairReadTimeout (id : Nat)
  /-- REFRESH_TICK (R190). The refresh timer issues all-bank refresh every tREFI. -/
  | refreshTick (ch : Fin 8)
  /-- ZQ_CALIBRATION (R188). Every 128 ms the DRAM oar runs ZQ calibration. -/
  | zqCalibration (ch : Fin 8)
  /-- DQS_TRACKING (R188). Every 100 ms the DRAM oar tracks DQS interval oscillators. -/
  | dqsTracking (ch : Fin 8)
  /-- DRAM_TEMPERATURE_READ (R190). Every 32 ms the oar reads device temperatures and sets tREFI. -/
  | dramTemperatureRead (ch : Fin 8) (maxC : Int)
  /-- PATROL_SCRUB (R191). The DRAM oar reads and corrects lines across the scrub period. -/
  | patrolScrub (ch : Fin 8) (line : Nat) (res : DramRead)
  /-- TRAINING_DONE (R189). Stored or full training ends with its pattern test, deciding retraining or a channel out. -/
  | trainingDone (ch : Fin 8) (stored pass : Bool)
  /-- FLASH_CHANNEL_RESET (R224). A command timeout or PHY lock loss resets a flash channel and reissues its operations. -/
  | flashChannelReset (ch : Fin 32)
  /-- LDPC_ENGINE_FAULT (R224). An LDPC engine fault resets the engine; a second within 10 s withdraws its channels. -/
  | ldpcEngineFault (eng : Fin 8)
  /-- XTS_ENGINE_FAULT (R224). An XTS engine fault resets the engine; a second within 10 s leaves the other serving all
  channels. -/
  | xtsEngineFault (eng : Fin 2)
  /-- FLASH_PATROL (R216). The flash oars read every CLOSED segment once per patrol period as class 6. -/
  | flashPatrol (found : PatrolIn)
  /-- DIE_RETIRE (R219). A die unresponsive to LUN reset or failing repeatedly is retired and its pages re-drained. -/
  | dieRetire (die : Nat)
  /-- DIE_RETIRE_WALK_DONE (R219). The mapping-table walk for the retired die ends. -/
  | dieRetireWalkDone (die : Nat)
  /-- BASIN_EXCHANGE_TIMER (R220). Every 30 days without a save, under-worn Basin die-blocks are exchanged for pool
  die-blocks. -/
  | basinExchangeTimer
  /-- S_DIE_RECOMPUTE (R222). Each minute, t99.9 and s_die are recomputed from pSLC programs of the last 24 h. -/
  | sDieRecompute (t999 programs : Nat)
  /-- LANDING_COPY (R232). A command copy from a crew arrives at a landing and executes, is compared, waits or is discarded. -/
  | landingCopy (crew : Crew) (coxCore : Bool) (landing : Landing) (stream : Stream) (seq : BitVec 32) (digest : BitVec 32) (cmd : Landed)
  /-- PAIRING_TIMEOUT (R233). 1 ms after a first copy, a missing copy closes the slot with a U-class fault. -/
  | pairingTimeout (landing : Landing) (stream : Stream) (seq : BitVec 32)
  /-- TIMER_TICK (R228). Every 1 ms the input fan issues a timer-tick input; members send their mirror digests to the Umpire.
  -/
  | timerTick (bow stroke : BitVec 32)
  /-- SEAT_TOKEN_CORRUPT (R241). The Umpire finds an invalid seat token and grants the seat by health score. -/
  | seatTokenCorrupt (found : Byte)
  /-- HEALTH_SECOND (R240). Each full second as a member raises a crew's health score by 1. -/
  | healthSecond (crew : Crew)
  /-- CREW_REJOIN_TIMER (R243). 1 ms after a faulted crew enters OFF, it enters LOADING unless held. -/
  | crewRejoinTimer (crew : Crew)
  /-- CREW_LOAD_DONE (R243). A crew's load ends, and it becomes MEMBER, takes a handover into CATCHUP or waits. -/
  | crewLoadDone (crew : Crew) (verified : Bool)
  /-- CATCHUP_DONE (R243). The rejoining crew's backlog reaches 0, and it enters SHADOW or MEMBER. -/
  | catchupDone (crew : Crew)
  /-- SHADOW_CLEAN (R243). 100 ms and 1,000 compared copies without divergence make the shadow crew a member. -/
  | shadowClean (crew : Crew)
  /-- UPDATE_VERIFY_DONE (R408). Verification of the slot ends; failure releases the session and success starts activation
  after refusal checks. -/
  | updateVerifyDone (found : VerifyIn)
  /-- UPDATE_HANDOVER (R410). After Y's oar queues and landing slots empty, control moves to the STANDBY crew in one cycle. -/
  | updateHandover
  /-- UPDATE_SESSION_IDLE (R404). 60 s without a request naming the session releases it. -/
  | updateSessionIdle
  /-- TRIAL_EXPIRY (R415). 24 h of ONLINE time commits the trial automatically. -/
  | trialExpiry
  /-- FALLBACK_WAIT_TIMEOUT (R416). Two members do not exist within 10 s; the Repechage slot is made active for the next
  start. -/
  | fallbackWaitTimeout
  /-- TRIAL_TIME_WRITE (R435). Every hour in ONLINE the trial time is rewritten in the boot config. -/
  | trialTimeWrite
  /-- FAULT_REPORT (R260). A fault reaches the collector and takes, counts, escalates or replaces a capture. -/
  | faultReport (f : FaultIn)
  /-- GRACE_EXPIRY (R262). A U capture's grace timer expires, and it becomes F with ESCALATED set. -/
  | graceExpiry (unit : MasterId)
  /-- CHP_FAULT_ACK (R263). A write to CHP_FAULT_ACK acknowledges the named capture. -/
  | chpFaultAck (faultId : BitVec 32) (master : MasterId)
  /-- RAS_STATUS_CLEAR (R263). A W1C of CXL RAS Uncorrectable Error Status acknowledges every U capture that set it. -/
  | rasStatusClear (memory internal : Bool)
  /-- RESET_SHADOW_END (R268). 2 µs after a reset reports done, the detectors it masked are unmasked. -/
  | resetShadowEnd (unit : MasterId)
  /-- CONDITION_CLEAR (R264). A persistent fault condition clears, and PRESENT returns to 0. -/
  | conditionClear (unit : MasterId)
  /-- REFCLK_LOSS (R25). REFCLK disappears, and the Spring PLL switches glitch-free to the crystal. -/
  | refclkLoss
  /-- REFCLK_RETURN (R25). After 10 ms of stable REFCLK outside a save or restore, the Spring PLL returns to REFCLK. -/
  | refclkReturn
  /-- SPRING_PLL_LOCK_LOSS (R26). The Spring PLL loses lock, and the Umpire switches root domains to the backup within 1 µs. -/
  | springPllLockLoss
  /-- BACKUP_LOCK_LOSS (R26). The backup root loses lock, losing redundancy or switching back to the Spring PLL. -/
  | backupLockLoss
  /-- ROOT_RELOCK (R26). A root regains lock; with both roots lost, the save starts. -/
  | rootRelock (backup : Bool)
  /-- ROOTS_UNLOCKED_TIMEOUT (R26). Both roots have been unlocked for 5 ms, and the last gasp runs without a save. -/
  | rootsUnlockedTimeout
  /-- VDD_AON_VALID (R287). VDD_AON rises through 1.65 V; the Power region starts and DARK moves to AUX. -/
  | vddAonValid
  /-- VDD_AON_LOSS (R486). VDD_AON falls through 1.60 V, and the Power region is held in reset. -/
  | vddAonLoss
  /-- STRAP_SAMPLE (R431). 1 ms after VDD_AON valid at AUX entry from DARK, the straps are sampled. -/
  | strapSample (lane : BitVec 6) (headmode boathouseN testmodeN : Bool)
  /-- MINIMUM_DARK_TIME (R287). The minimum dark time passes, and the sequencer may enter AUX. -/
  | minimumDarkTime
  /-- BOARD_PROFILE_READ (R287). The board profile is read, and the AUX rails are enabled by their on-delays. -/
  | boardProfileRead (found : ProfileIn)
  /-- BOARD_PROFILE_RETRY (R444). With no valid board profile, the profile is reread every 1 s. -/
  | boardProfileRetry (found : ProfileIn)
  /-- AUX_READY (R286). The device becomes ready to leave AUX, and releases or pulses CATCH. -/
  | auxReady
  /-- CATCH_PULSE_END (R288). The 10 µs self-drive of CATCH ends, and the device releases it to make its own edge. -/
  | catchPulseEnd
  /-- MAIN_POWER_ABSENT_TIMEOUT (R288). Main power absent 100 ms after AUX completes, and the device releases CATCH. -/
  | mainPowerAbsentTimeout
  /-- CATCH_RISING_EDGE (R287). A qualified CATCH rising edge advances every device waiting to the next state. -/
  | catchRisingEdge
  /-- LANE_STAGGER_EXPIRY (R290). The lane stagger after the edge leaving AUX ends, and CORE starts. -/
  | laneStaggerExpiry
  /-- CATCH_RESYNC (R291). A CATCH low of more than 1 ms powers a climbing device down to DARK. -/
  | catchResync
  /-- CATCH_GLITCH (R291). A CATCH low pulse of 1 µs to 1 ms is counted and ignored. -/
  | catchGlitch
  /-- STEP_LIMIT_WAIT (R289). A device waits more than 10 s for an edge and records the wait. -/
  | stepLimitWait
  /-- RAIL_ON_DELAY (R279). A rail's on-delay from its state's power-up start expires, and RAIL_EN is driven high. -/
  | railOnDelay (n : Fin 16)
  /-- RAIL_OFF_DELAY (R293). A rail's off-delay from its state's power-down start expires, and the rail is disabled. -/
  | railOffDelay (n : Fin 16)
  /-- RAIL_RISEN (R280). A rail rises; when every masked rail of the state has risen, the state completes. -/
  | railRisen (n : Fin 16) (code : BitVec 12)
  /-- RAIL_FALLEN (R293). A rail falls; when every rail of the state has fallen, the next lower state starts. -/
  | railFallen (n : Fin 16) (code : BitVec 12)
  /-- RISE_TIMEOUT (R287). A rail fails to rise in time; all enabled rails are disabled in reverse order and the latch is
  set. -/
  | riseTimeout (n : Fin 16)
  /-- FALL_TIMEOUT (R281). A rail fails to fall in time, is counted, and the descent continues. -/
  | fallTimeout (n : Fin 16)
  /-- RAIL_WARNING (R282). A qualified UV or OV warning is logged; on a SAVE_CRITICAL rail it starts a save or a power-down
  to AUX. -/
  | railWarning (n : Fin 16) (ov : Bool) (code : BitVec 12)
  /-- RAIL_FAULT (R281). A qualified fault level, loss of power-good or overcurrent cuts the rails. -/
  | railFault (n : Fin 16) (kind : RailFaultKind) (code : BitVec 12)
  /-- RAIL_EVAL_RESUME (R283). 1 ms after BATSW_N asserts, UV and power-good evaluation resumes. -/
  | railEvalResume
  /-- RESET_STRETCH_END (R298). The stretch time after the release state completes expires, and MRST_N or FRST_N deasserts. -/
  | resetStretchEnd (flash : Bool)
  /-- JUNCTION_TEMPERATURE (R487). The hottest die sensor crosses 105, 115 or 120 °C, with logging, halving or a chip fatal. -/
  | junctionTemperature (celsius : Int)
  /-- GAUGE_SAMPLE (R312). Every 1 ms a sample updates the accumulators and the crews' state-of-charge estimate. -/
  | gaugeSample (a b : Sample)
  /-- REST_QUALIFIED (R312). Current stays below the rest threshold for the rest time, re-anchoring s and u from the OCV
  table. -/
  | restQualified (str : Str)
  /-- INSERTION_REST (R312). 60 s of rest after a pack change anchors the string and makes it COUNTED. -/
  | insertionRest (str : Str)
  /-- FULL_FLAG (R312). The string holds the charge voltage below termination current for 60 s; s is set to 100. -/
  | fullFlag (str : Str)
  /-- THERMISTOR_OPEN (R306). BATx_NTC above 500 kΩ on three samples makes the string ABSENT. -/
  | thermistorOpen (str : Str)
  /-- THERMISTOR_PRESENT (R309). A thermistor reads present again, and the string becomes UNKNOWN with a pack-change reset. -/
  | thermistorPresent (str : Str)
  /-- PACKID_READ (R305). Every 100 ms PACKID is read; three agreeing readings take a code. -/
  | packidRead (mv : Nat) (descriptorValid : Bool)
  /-- FORCED_REST_DUE (R313). The forced-rest interval passes without re-anchoring, and charging of the string is paused. -/
  | forcedRestDue (str : Str)
  /-- FORCED_REST_FAIL (R313). No rest qualifies within twice the rest time; charging resumes and a retry is set for 24 h. -/
  | forcedRestFail (str : Str)
  /-- LEARN_DUE (R317). The learning interval or first-learn delay expires, or the hourly retry, and a learn is attempted. -/
  | learnDue (str : Str) (entriesOk : Bool)
  /-- LEARN_NO_CURRENT (R319). The learner's discharge stays below the rest threshold for 10 min, aborting the learn. -/
  | learnNoCurrent (str : Str)
  /-- CHARGE_RESTART (R321). Charge falls by 3 % of C_nom or 30 days pass after the full flag, and charging restarts. -/
  | chargeRestart (str : Str)
  /-- RHO_DRIFT_DAY (R316). After 30 days with no current step, ρ rises by 1 % each day. -/
  | rhoDriftDay (str : Str)
  /-- GAUGE_RECORD_WRITE (R322). Every 6 h, or at a learn, pack change or SAVED, the gauge record is written to a slot and
  the ledger. -/
  | gaugeRecordWrite
  /-- PWR_CHG_CTRL_WRITE (R329). A landed write on Power stream 1 sets charger duty, reverse mode and pause. -/
  | pwrChgCtrlWrite (value : BitVec 32)
  /-- STRING_STATE_SETTING (R326). A landed command on Power stream 1 sets a string's STATE, REASON or PAUSED. -/
  | stringStateSetting (str : Str) (st : StrState) (reason : StrReason) (paused : Bool)
  /-- WATERLINE_RECORD (R332). A record landed on Ledger stream 1 takes a slot under the overwrite rule. -/
  | waterlineRecord (r : WlReq)
  /-- STAGED_RECORD (R332). With no member crew, the Power region writes a STAGED record into its fallback ring. -/
  | stagedRecord (r : WlReq)
  /-- LEDGER_COMMIT (R231). A commit landed on Ledger stream 0 with no row of its own is written to the ledger. -/
  | ledgerCommit (c : OtherCommit)
  /-- WATERLINE_EXPORT (R341). While the ledger is failed, every 1 s the ring is exported to serial memory. -/
  | waterlineExport (ok : Bool)
  /-- LEDGER_TEST (R499). At a start after a ledger failure, the Coxswain firmware tests the ledger and restores it or keeps
  the fallback. -/
  | ledgerTest (found : LedgerFound)
  /-- MCTP_PACKET (R383). A block write with command code 0x0F delivers an MCTP packet for assembly. -/
  | mctpPacket (pkt : MctpPkt)
  /-- MCTP_ASSEMBLY_GAP (R385). More than 100 ms between packets discards the message being assembled. -/
  | mctpAssemblyGap (src : Nat)
  /-- SET_ENDPOINT_ID (R384). Sets the device's MCTP endpoint ID. -/
  | setEndpointId (dst eid : Nat)
  /-- GET_ENDPOINT_ID (R384). Returns the device's MCTP endpoint ID. -/
  | getEndpointId (dst : Nat)
  /-- GET_ENDPOINT_UUID (R384). Returns the endpoint UUID. -/
  | getEndpointUuid (dst : Nat)
  /-- GET_MCTP_VERSION_SUPPORT (R384). Returns the supported MCTP versions. -/
  | getMctpVersionSupport (dst : Nat)
  /-- GET_MESSAGE_TYPE_SUPPORT (R384). Returns the supported message types. -/
  | getMessageTypeSupport (dst : Nat)
  /-- GET_VENDOR_DEFINED_MESSAGE_SUPPORT (R384). Reports type 0x7E with the vendor ID of 0x1018:01. -/
  | getVendorDefinedMessageSupport (dst : Nat)
  /-- STATUS_READ (R374). An SMBus Receive Byte returns the status byte and clears bits [2:0]. -/
  | statusRead
  /-- ALERT_RESPONSE (R381). An Alert Response Address read returns the device's address and deasserts ALERT_N. -/
  | alertResponse (won : Bool)
  /-- BUS_ERROR (R378). A misplaced START or STOP, repeated START in the ACK slot or PEC mismatch aborts the transaction. -/
  | busError (port : Port) (err : BusErr)
  /-- TARGET_TIMEOUT (R375). SCL low for 30 ms in SMBus mode resets the target logic. -/
  | targetTimeout
  /-- STRETCH_ABORT (R376). A target stretch reaches 25 ms, and the controller aborts and retries once. -/
  | stretchAbort (port : Port)
  /-- ARBITRATION_LOSS (R377). The device drives 1 and samples 0, and stops driving, becomes a target or monitors. -/
  | arbitrationLoss (port : Port) (at' : ArbLoss)
  /-- ARBITRATION_BACKOFF_END (R377). The 10 ms wait after 16 consecutive losses ends, and the transaction is retried. -/
  | arbitrationBackoffEnd (port : Port)
  /-- HANG_RECOVERY (R379). SDA low with SCL high for 35 ms before a START triggers clock pulses and a STOP. -/
  | hangRecovery (port : Port) (stopMade : Bool)
  /-- BUS_CALL (R380). ATTENTION goes from 0 to 1, and the device pulls SDA low for 5 µs on an idle bus. -/
  | busCall (sclFell : Bool)
  /-- BUS_CALL_SERVICE_TIMEOUT (R382). An unserviced call reaches the service time, and Host Notify is sent or the call
  repeated. -/
  | busCallServiceTimeout
  /-- LOCAL_TEMPERATURE_READ (R386). Every 1 s the LOCAL temperature sensors are read and checked against their limits. -/
  | localTemperatureRead (readings : List Int)
  /-- CHARGER_ENTRY_RETRY (R387). Every 10 s, failed reverse-off entries are retried while PAUSE_x is held. -/
  | chargerEntryRetry (str : Str) (entriesOk : Bool)
  /-- FAILED_BOOT (R442). A chip fatal, no member 2 s after CORE or a coxswain watchdog increments the count and powers down.
  -/
  | failedBoot (cause : BootFail)
  /-- BOATHOUSE_COMMIT (R418). A successful Commit in Boathouse mode makes the target slot active and powers down to AUX. -/
  | boathouseCommit (p : Path) (session : Nat) (found : VerifyIn) (slotAOk slotBOk : Bool)
  /-- ERGOMETER_MEASURE (R421). Every 10 ms each Ergometer measures slack and drift. -/
  | ergometerMeasure (readings : List ErgoIn)
  /-- PLAN_TRIGGER (R422). A 24 h timer, a 10 °C change for 60 s or the start delay triggers a margin plan. -/
  | planTrigger (trig : PlanTrig)
  /-- CORE_VOLTAGE_STEP (R424). Every 1 ms of a ramp, a 5 mV PMBus VOUT_COMMAND step is issued. -/
  | coreVoltageStep (ok : Bool)
  /-- RAMP_SLACK_CHECK (R424). 10 ms after the last step, slack is read and the next plan may be brought forward by 60 s. -/
  | rampSlackCheck (lowest : Int)
  /-- REGISTER_READ (R6). A register read whose field has an action of its own (RC clear, PWR_TIME high-word latch, a narrow
  persistence-page read returning 0 with a C-class capture) performs that action. -/
  | registerRead (r : RegRead)
  /-- OD_SESSION_IDLE (R356). An OD session sends no request for 10 s, and its segmented write and consistent view end. -/
  | odSessionIdle (p : Path)
  /-- HALVING_HOLD_OFF_END (R142). 5 ms after a halving, with sag or the 115 °C condition still present, the flash oars halve
  the programming dies again. -/
  | halvingHoldOffEnd (still : Bool)
  /-- FLASH_RESET_DONE (R268). A flash channel, LDPC or XTS engine, or Flash region reset completes; units are released,
  queued operations reissued and the reset is reported done. -/
  | flashResetDone (unit : MasterId)
  /-- FRZ_SELECT (R463). JTAG instruction 0x12 selects a freeze chain by region and number. -/
  | frzSelect (sel : BitVec 8)
  /-- FRZ_SCAN (R464). JTAG instruction 0x13 shifts the selected shadow chain. -/
  | frzScan (bits : Nat)
  /-- LEDGER_ACCESS_READ (R465). LEDGER_ACCESS with operation read returns a ledger word while frozen. -/
  | ledgerAccessRead (addr : BitVec 21)
  /-- LEDGER_ACCESS_WRITE (R465). LEDGER_ACCESS with operation write writes a ledger word while frozen with TESTMODE_N low. -/
  | ledgerAccessWrite (addr : BitVec 21) (data : Word)
  /-- JTAG_BYPASS (R463). JTAG instruction 0xFF, or any unlisted opcode, selects the 1-bit bypass register. -/
  | jtagBypass (opcode : Byte)
  /-- HOLDWATER_N_ASSERT (R458). HOLDWATER_N low for 1 µs sets HOLD_PIN. -/
  | holdwaterNAssert
  /-- HOLDWATER_N_DEASSERT (R458). HOLDWATER_N high for 1 µs clears HOLD_PIN. -/
  | holdwaterNDeassert
  /-- JTAG_EXTEST (R463). JTAG instruction 0x00 selects the boundary scan for external test. -/
  | jtagExtest
  /-- JTAG_IDCODE (R463). JTAG instruction 0x01 returns the 32-bit IDCODE. -/
  | jtagIdcode
  /-- JTAG_SAMPLE_PRELOAD (R463). JTAG instruction 0x02 samples or preloads the boundary scan. -/
  | jtagSamplePreload
  /-- JTAG_FREEZE (R458). JTAG instruction FREEZE sets HOLD_JTAG. -/
  | jtagFreeze
  /-- JTAG_RESUME (R458). JTAG instruction RESUME clears HOLD_JTAG and HOLD_OD. -/
  | jtagResume
  /-- JTAG_STATUS (R463). JTAG instruction 0x15 returns PWR_FREEZE_STATUS. -/
  | jtagStatus
  /-- TRST_N_ASSERT (R483). TRST_N asserts, holding the TAP in Test-Logic-Reset and clearing HOLD_JTAG. -/
  | trstNAssert
  /-- REFCLK_DETECT (R25). REFCLK becomes present at the Spring PLL input; REFCLK_PRESENT is set and the 10 ms return count
  starts. -/
  | refclkDetect
  /-- STATE_COMPLETE_NO_RAIL (R285). A sequencer state with no rail in the enable mask completes 10 µs after its start. -/
  | stateCompleteNoRail
  /-- SETTINGS_WORKING_COPY_WRITTEN (R413). The trial image's working settings copy finishes being written, and RWS writes
  stop returning BUSY. -/
  | settingsWorkingCopyWritten
  deriving DecidableEq, Repr

end Sys2Proof
end

