-- ==== Sys2Proof/Decode.lean ====
section
/-! DEFINITION. The words of the table. spec/opcode_table.json gives no row any bits (a command of
this block is a request, an event or a completion, not an encoded word), so no word spells one. -/

namespace Sys2Proof

/-- The command a word of the table's bits spells: none, because no row gives bits (log 7). -/
def decodeTableWord (_nbits _w : Nat) : Option Instr := none

end Sys2Proof
end

