-- ==== Sys2Proof/Config.lean ====
section
/-! DEFINITION. What one module fixes: the part, its DRAM and flash population, the RO values of its
board profile, its pack descriptor, its identity; and the free values, which the spec leaves open.
The reference module of 00_scope stands as `ModuleConfig.reference`. -/

namespace Sys2Proof

/-- Free value: `w` bits nothing constrains, the `n`-th such value of a run (log 1). It stands
where the spec names a value but not what it is: DRBG output (R395), on-die ids, measurement
hashes (R396). -/
opaque Config.freeBits (w n : Nat) : BitVec w

/-- Free value: a number nothing constrains (log 1). -/
opaque Config.freeNat (n : Nat) : Nat

/-- The bits of a freeze chain's shadow in the `copy`-th copy, chain and region as FRZ_SELECT names them (R463, R464):
lengths and bit maps are the development kit's, not the spec's (log 92). -/
opaque Config.shadowChain (copy : Nat) (chain : BitVec 8) : Nat

/-- Which 64-bit words of the ledger hold coxswain key records (R465): the spec gives no layout (log 1). -/
opaque Config.keyRecord (addr : Nat) : Bool

/-- Read-level offsets of step `k`, 1 to 6, of the dies' retry table in the board profile (R216): the spec gives no values
(log 99). -/
opaque Config.retryStep (k : Nat) : List Int

/-- AES-256-XTS over a data unit, by the number of the media key and the tweak (R213, R214); the keys are the DRBG's (log
99). -/
opaque Config.xts (key tweak : Nat) (data : List Byte) : List Byte

/-- The 488 bytes of LDPC parity over the 4,120 bytes before them (R205): the code's matrix is not the spec's (log 99). -/
opaque Config.ldpcParity (bytes : List Byte) : List Byte

/-- The crossbar windows, as (first byte, bytes), that its coxswain grants an oar, by master ID (R21): the spec says that
they are granted, not which (log 1). -/
opaque Config.oarWindows (oar : Nat) : List (Nat × Nat)

/-- Which of the 16 lines of its set the dirty filter evicts at the `n`-th eviction (R90): the spec names no choice (log 63).
-/
opaque Config.filterVictim (n : Nat) : Nat

/-- CRC-16 of a unit tag with this page number and sequence (R101): the spec names the code and not its parameters
(log 64). -/
opaque Config.tagCrc (page seq : Nat) : BitVec 16

/-- Place (first unit, units) that the save of a generation gives the `k`-th item of its metadata in meta_reserve (R147, R148):
0 the page map, 1 the drain table, 2 the bucket table, 3 the mapping table, 4 the header. The run-length code and the
allocation are not the spec's (log 65). -/
opaque Config.savePlace (gen k : Nat) : Nat × Nat

/-- Place (first unit, units) of the lost-range list written with a checkpoint (R160, R178), not the spec's (log 65). -/
opaque Config.lostListPlace (seq : Nat) : Nat × Nat

/-- The snapshot words that carry a ledger commit held in the fallback ring (R340): their layout is not the spec's (log 1). -/
opaque Config.commitWords (n : Nat) : List Word

/-- Version of the coxswain patch of an image, by the image's version string and security version: no field of the image holds
it (0x1005, R398; log 88). -/
opaque Config.patchVersion (version : List Byte) (security : Nat) : Nat

/-- SHA-384 of a coxswain patch, by its version and length (R436; log 88). -/
opaque Config.patchHash (version len : Nat) : BitVec 384

/-- ns from an Update Open to the end of the erase of a slot's 4 KiB sector: the serial memory's, not the spec's (R403, R405;
log 80). -/
opaque Config.sectorEraseNs (sector : Nat) : Nat

/-- The `n`th value of the coxswain's DRBG (R229, R395; log 79). -/
opaque Config.drbgValue (n : Nat) : BitVec 64

/-- Logical rank of a line in its channel: the mapping of a local page within the channel is internal (R182; log 1). -/
opaque Config.logicalRank (line : Nat) : Nat

/-- The MCTP endpoint UUID (R384): the spec gives no value (log 1). -/
opaque Config.endpointUuid : BitVec 128

/-- The value that a word of BAR0 which CXL 3.1 or PCIe defines and this spec does not value holds before anything is written
to it, by offset (R41, log 1). -/
opaque Config.barInit : Nat → BitVec 64

/-- A pack descriptor (R310). Temperatures in degrees, SOC in 0.01 %, voltages in mV,
resistances in 10 microohm, k_t in 1/10,000. -/
structure PackDescriptor where
  chemistry : Nat
  series : Nat
  cNom : Nat
  eNom : Nat
  chargeMv : Nat
  cutoffMv : Nat
  termMa : Nat
  maxChargeMa : Nat
  iLimMa : Nat
  chargeMinC : Int
  chargeMaxC : Int
  opMinC : Int
  opMaxC : Int
  r25 : Nat
  beta : Nat
  sp : Nat
  temps : List Int
  soc : List Nat
  ocv : List (List Nat)
  kt : List Nat
  rTyp : List Nat
  rMax : List Nat
  deriving DecidableEq, Repr

/-- The reference pack's OCV curve in mV per cell, at the points of `PackDescriptor.refSoc` (R310). -/
def PackDescriptor.refOcv : List Nat :=
  [3000, 3300, 3420, 3480, 3520, 3560, 3590, 3610, 3625, 3645, 3660, 3675, 3688, 3700, 3715, 3735,
   3760, 3790, 3825, 3860, 3895, 3935, 3975, 4020, 4045, 4075, 4095, 4120, 4150, 4175, 4185, 4200]

/-- The reference pack's SOC points in 0.01 % (R310). -/
def PackDescriptor.refSoc : List Nat :=
  [0, 125, 250, 375, 500, 750, 1000, 1250, 1500, 2000, 2500, 3000, 3500, 4000, 4500, 5000,
   5500, 6000, 6500, 7000, 7500, 8000, 8500, 9000, 9250, 9500, 9625, 9750, 9875, 9950, 9975, 10000]

/-- The reference pack (R310, right-hand column). One OCV curve in all eight temperature columns. -/
def PackDescriptor.reference : PackDescriptor where
  chemistry := 1
  series := 2
  cNom := 1100
  eNom := 28500
  chargeMv := 4200
  cutoffMv := 3000
  termMa := 55
  maxChargeMa := 550
  iLimMa := 15000
  chargeMinC := 0
  chargeMaxC := 45
  opMinC := -10
  opMaxC := 60
  r25 := 10000
  beta := 3435
  sp := 4000
  temps := [-20, -10, 0, 10, 25, 35, 45, 60]
  soc := PackDescriptor.refSoc
  ocv := PackDescriptor.refOcv.map fun v => List.replicate 8 v
  kt := [5500, 7000, 8000, 9000, 10000, 10000, 10000, 9800]
  rTyp := [30000, 18000, 12000, 8500, 6000, 5000, 4500, 4000]
  rMax := [45000, 27000, 18000, 12750, 9000, 7500, 6750, 6000]

/-- Numbers strictly ascend. -/
def ascends : List Int → Bool
  | a :: b :: t => decide (a < b) && ascends (b :: t)
  | _ => true

/-- The contents of a descriptor are valid (R310): 1 to 4 cells in series, temperature columns that ascend, SOC points that
ascend from 0 to 10,000. -/
def PackDescriptor.ok (d : PackDescriptor) : Bool :=
  decide (1 ≤ d.series ∧ d.series ≤ 4) && ascends d.temps && ascends (d.soc.map fun x : Nat => (x : Int))
    && decide (d.soc.head? = some 0) && decide (d.soc.getLast? = some 10000)

/-- The RO values of the board profile (R131, R158, R227, R438 board keys, 0xA004) and the
population keys. Rates in MB/s, powers in mW, the efficiency as a Q16.16 integer. -/
structure BoardProfile where
  etaQ16 : Nat := 0xE666
  eFixJ : Nat := 400
  pAuxMw : Nat := 1400
  slopeMw : Nat := 1250
  pFloorMw : Nat := 22000
  basinBytes : Nat := 1024 * gib
  fAllocPct : Nat := 1
  sDieMBs : Nat := 375
  vinThresholdMv : Nat := 600
  sharedPwrfail : Bool := true
  tlcRating : Nat := 3000
  pslcRating : Nat := 30000
  pslcSegments : Nat := 128
  logAreaBytes : Nat := 16 * gib
  tempLimits : List Int := [85, 85, 85, 85]
  dividerX10 : Nat := 100
  shuntUohm : Nat := 5000
  deriving DecidableEq, Repr

/-- One rail's configuration, OD 0x3100 + n (R279); defaults of the table. -/
structure RailCfg where
  state : Nat := 0
  onDelay : Nat := 0
  offDelay : Nat := 0
  nominal : Nat := 0
  uvWarn : Nat := 50
  uvFault : Nat := 100
  ovWarn : Nat := 50
  ovFault : Nat := 100
  riseTimeout : Nat := 1000
  fallTimeout : Nat := 5000
  flags : BitVec 8 := 0
  scaleQ16 : Nat := 65536
  deriving DecidableEq, Repr

/-- Flags of R279: SAVE_CRITICAL. -/
def RailCfg.saveCritical (r : RailCfg) : Bool := r.flags.getLsbD 0
/-- Flags of R279: PG_IS_OC. -/
def RailCfg.pgIsOc (r : RailCfg) : Bool := r.flags.getLsbD 1
/-- Flags of R279: LEDGER_HOLD. -/
def RailCfg.ledgerHold (r : RailCfg) : Bool := r.flags.getLsbD 2
/-- Flags of R279: TRACK. -/
def RailCfg.track (r : RailCfg) : Bool := r.flags.getLsbD 3

/-- The reference board profile's rails (R279), with the VMON scales of R481. -/
def RailCfg.reference : List RailCfg :=
  [ { state := 1, nominal := 3300, scaleQ16 := 4 * 65536 },
    { state := 2, offDelay := 100, nominal := 750, flags := 0x09 },
    { state := 2, onDelay := 50, offDelay := 50, nominal := 800, flags := 0x01 },
    { state := 2, onDelay := 50, offDelay := 50, nominal := 800, flags := 0x05 },
    { state := 2, onDelay := 100, nominal := 1800, flags := 0x01, scaleQ16 := 2 * 65536 },
    { state := 3, offDelay := 20, nominal := 1000, flags := 0x01 },
    { state := 3, offDelay := 20, nominal := 1800, flags := 0x01, scaleQ16 := 2 * 65536 },
    { state := 3, onDelay := 20, nominal := 1100, flags := 0x01 } ] ++
  [ { state := 3, onDelay := 20, nominal := 1100, flags := 0x01 },
    { state := 4, offDelay := 10, nominal := 2500, flags := 0x01, scaleQ16 := 2 * 65536 },
    { state := 4, offDelay := 10, nominal := 2500, flags := 0x01, scaleQ16 := 2 * 65536 },
    { state := 4, onDelay := 10, nominal := 1200, flags := 0x01 },
    { state := 5, offDelay := 10, nominal := 900 },
    { state := 5, onDelay := 10, nominal := 1200 },
    { state := 6, nominal := 3300, scaleQ16 := 4 * 65536 },
    { state := 0 } ]

/-- What a die's ONFI parameter page shows of the checks of R203, with the reference die's values. Sizes in bytes, times in
ns. -/
structure DieParams where
  pslcPerBlock : Bool := true
  planes : Nat := 4
  multiPlane : Bool := true
  pageBytes : Nat := 18432
  programSuspend : Bool := true
  eraseSuspend : Bool := true
  suspendNs : Nat := 25000
  readLevels : Bool := true
  tRNs : Nat := 70000
  pslcProgramNs : Nat := 250000
  /-- The die supports NV-LPDDR4 (R202). -/
  nvLpddr4 : Bool := true
  /-- Its highest bus rate in units of 25 MT/s (R202, R225). -/
  rate25 : Nat := 0x90
  deriving DecidableEq, Repr

/-- The die meets R203. -/
def DieParams.ok (d : DieParams) : Bool :=
  d.pslcPerBlock && decide (d.planes = 4) && d.multiPlane && decide (18432 ≤ d.pageBytes) && d.programSuspend
    && d.eraseSuspend && decide (d.suspendNs ≤ 25000) && d.readLevels && decide (d.tRNs ≤ 70000)
    && decide (d.pslcProgramNs ≤ 250000)

/-- What a DRAM channel's mode registers show of its population (R183): die density and stack as coded in R199, physical
ranks as coded there, and the highest rate in units of 200 MT/s. -/
structure DramPop where
  density : Nat
  stack : Nat
  pranks : Nat
  rate200 : Nat
  deriving DecidableEq, Repr

/-- What the hardware and its population fix for one module. -/
structure ModuleConfig where
  variant : Variant := .tk7264c
  installed : Nat := 2048 * gib
  rate200 : Nat := 0x20
  density : Nat := 2
  stack : Nat := 1
  pranks : Nat := 1
  diesPerChannel : Nat := 4
  tlcDieBlockMib : Nat := 48
  pslcDieBlockMib : Nat := 16
  goodBlocksPerDie : Nat := 2730
  basinBlocksPerDie : Nat := 512
  /-- Highest bus rate that the board profile allows, in units of 25 MT/s (R202). -/
  flashRate25 : Nat := 0x90
  /-- LUNs behind each chip enable: 1 or 2 (R202). -/
  lunsPerTarget : Nat := 1
  vendorId : BitVec 16 := 0
  jep106 : BitVec 11 := 0
  serial : List Byte := List.replicate 16 0x30
  imageVersion : List Byte := [0x31]
  imageSchema : BitVec 16 := 0x0100
  imageSecurityVersion : Nat := 0
  handover : Nat := 1
  handoverLow : Nat := 1
  handoverHigh : Nat := 1
  /-- Dies whose parameter page differs from the reference die's, by die number (R203, R206). -/
  dieParams : List (Nat × DieParams) := []
  /-- Die-blocks that the factory marks make bad, by die, beyond those the reference die's figure leaves out (R207, R217). -/
  factoryBad : List (Nat × Nat) := []
  /-- DRAM channels whose devices are not the declared population, with what they show (R183). -/
  dramFound : List (Nat × DramPop) := []
  /-- The devices' mode registers require refresh management (R190). -/
  refreshManagement : Bool := false
  packs : List (Nat × PackDescriptor) := [(0, PackDescriptor.reference)]
  board : BoardProfile := {}
  deriving DecidableEq, Repr

/-- The reference module of 00_scope: TK7264-C, 2 TiB, 128 dies of 1 Tbit. -/
def ModuleConfig.reference : ModuleConfig := {}

/-- The DRAM population that the board profile declares (R183). -/
def ModuleConfig.population (c : ModuleConfig) : DramPop :=
  { density := c.density, stack := c.stack, pranks := c.pranks, rate200 := c.rate200 }

/-- The population that a channel's mode registers show (R183). -/
def ModuleConfig.populationOf (c : ModuleConfig) (ch : Nat) : DramPop :=
  match c.dramFound.find? fun x => decide (x.1 = ch) with
  | some x => x.2
  | none => c.population

/-- DRAM channels of the variant (R2). -/
def ModuleConfig.dramChannels (c : ModuleConfig) : Nat :=
  match c.variant with
  | .tk7232c => 4
  | _ => 8

/-- Flash channels of the variant (R2). -/
def ModuleConfig.flashChannels (c : ModuleConfig) : Nat :=
  match c.variant with
  | .tk7232c => 16
  | _ => 32

/-- Dies of the population (R204). -/
def ModuleConfig.dies (c : ModuleConfig) : Nat := c.flashChannels * c.diesPerChannel

/-- The reserved area: installed / 512 (R36, R85). -/
def ModuleConfig.reserved (c : ModuleConfig) : Nat := c.installed / 512

/-- The page map: 16 bits per installed page (R85). -/
def ModuleConfig.mapBytes (c : ModuleConfig) : Nat := c.installed / 2048
/-- The Lakebed mapping table: 32 bits per installed page (R85). -/
def ModuleConfig.mappingBytes (c : ModuleConfig) : Nat := c.installed / 1024
/-- The control structures (R85). -/
def ModuleConfig.controlBytes (c : ModuleConfig) : Nat := c.installed / 2048

/-- The visible capacity (R36). -/
def ModuleConfig.visible (c : ModuleConfig) : Nat := c.installed - c.reserved

/-- Device physical address of a page's map entry: the reserved area starts at the visible capacity with the page map (R85,
R86). -/
def mapAddr (c : ModuleConfig) (page : Nat) : Nat := c.visible + 2 * page
/-- Device physical address of a page's mapping entry: the table follows the page map (R85, R100). -/
def mappingAddr (c : ModuleConfig) (page : Nat) : Nat := c.visible + c.mapBytes + 4 * page
/-- Where the control structures begin: 3 times the page map's size (R85). -/
def controlAddr (c : ModuleConfig) : Nat := c.visible + 3 * c.mapBytes

/-- Visible pages of 4 KiB. -/
def ModuleConfig.visiblePages (c : ModuleConfig) : Nat := c.visible / pageBytes

/-- Installed pages of 4 KiB. -/
def ModuleConfig.installedPages (c : ModuleConfig) : Nat := c.installed / pageBytes

/-- Units of 256 MiB of the visible capacity (R33, R36). -/
def ModuleConfig.units (c : ModuleConfig) : Nat := c.visible / (256 * mib)

/-- Device code (0x1000, R367; also bits [27:12] of IDCODE, R497). -/
def ModuleConfig.deviceCode (c : ModuleConfig) : Nat :=
  match c.variant with
  | .tk7232c => 0x7232
  | _ => 0x7264

/-- meta_reserve (R115): page map, mapping table, 64 MiB. -/
def ModuleConfig.metaReserve (c : ModuleConfig) : Nat :=
  c.installed / 2048 + c.installed / 1024 + 64 * mib

end Sys2Proof
end

