-- ==== Sys2Proof/Machine/State.lean ====
section
/-! DEFINITION. The state of the device, as plain data: every register, FIFO, buffer, counter, mode
and pin the spec gives it, and the queue of waiting commands. A field's docstring gives its width,
the rule that names it and its reset value; a register's packed view is `readReg` in
Machine/Registers.lean. Reset is the instant before VDD_AON first becomes valid on a module as
manufactured (R486: below 1.60 V the Power region is held in reset; log 4). -/

namespace Sys2Proof.Machine

/-- Why the machine stops with a fault. No command of this block raises one: device faults are
State (R255), and an operand that names no unit of the device cannot be written (log 6). -/
inductive Fault where
  /-- Raised by nobody; kept so that the outcome type is inhabited by a named reason. Safe. -/
  | unreachable
  deriving DecidableEq, Repr

/-- Why the machine refuses a command. -/
inductive Refusal where
  /-- A command without a meaning yet, by the mnemonic of its row. Safe: the machine stops. -/
  | notModelled (mnemonic : String)
  deriving DecidableEq, Repr

/-! ## Time and clocks -/

/-- The time base (R28). -/
structure TimeBase where
  /-- 64 bits. PWR_TIME in ns (R28). Reset 0. -/
  now : Nat := 0
  /-- 32 bits. High word latched by a read of the low word (R28). Reset: DESIGN CHOICE 0 (log 5). -/
  highLatch : BitVec 32 := 0
  /-- Device minus host, ns still to remove by slewing (R28). Reset 0: no offset known. -/
  slew : Int := 0
  /-- OD 0xB004: a PTM alignment has been made (R367). Reset 0. -/
  aligned : Bool := false
  /-- OD 0xB005: device minus host at the last alignment, ns, saturating (R367). Reset 0. -/
  lastOffset : Int := 0
  deriving DecidableEq, Repr

/-- The clock roots (R25, R26, R27). -/
structure Clocks where
  /-- 1 bit. XTAL_OK (R27). Reset 0. -/
  xtalOk : Bool := false
  /-- 1 bit. SPRING_LOCK (R27). Reset 0. -/
  springLock : Bool := false
  /-- 1 bit. REF_SEL: true is the crystal (R27). Reset 1. -/
  refCrystal : Bool := true
  /-- 1 bit. ROOT_SEL: true is the backup root (R27). Reset 0. -/
  onBackup : Bool := false
  /-- 1 bit. BACKUP_LOCK (R27). Reset 0. -/
  backupLock : Bool := false
  /-- 1 bit. REFCLK_PRESENT (R27). Reset 0. -/
  refclk : Bool := false
  /-- 8 bits. REF_SWITCHES, saturating (R27). Reset 0. -/
  refSwitches : Nat := 0
  /-- 16 bits. LOSS_COUNT, saturating (R27). Reset 0. -/
  lossCount : Nat := 0
  /-- The 10 ms count of R25 is running: REFCLK present and the Spring PLL locked. Reset 0. -/
  countRunning : Bool := false
  /-- A return to REFCLK fell due in a save or restore and waits for its end (R25). Reset 0. -/
  returnDue : Bool := false
  /-- The roots have been started in CORE (R24). Reset 0. -/
  rootsStarted : Bool := false
  deriving DecidableEq, Repr

/-! ## Host region -/

/-- One HDM decoder (R37). -/
structure Hdm where
  /-- Base HPA, aligned to 256 MiB (R37). Reset: DESIGN CHOICE 0 (log 5). -/
  base : Nat := 0
  /-- Size in bytes, aligned to 256 MiB (R37). Reset: DESIGN CHOICE 0 (log 5). -/
  size : Nat := 0
  /-- Interleave ways (R37). Reset: DESIGN CHOICE 1 (log 5). -/
  ways : Nat := 1
  /-- Interleave granularity in bytes (R37). Reset: DESIGN CHOICE 256 (log 5). -/
  gran : Nat := 256
  /-- Committed (R35: uncommitted after a head reset). Reset 0. -/
  committed : Bool := false
  /-- Locked (R37). Reset 0. -/
  locked : Bool := false
  /-- Error Not Committed status (R37). Reset 0. -/
  notCommitted : Bool := false
  deriving DecidableEq, Repr

/-- What a head's background command is (R55, R66). -/
inductive Background where
  | none
  | scan (dpa length : Nat)
  | commit
  deriving DecidableEq, Repr

/-- One link head (R33): pins, link, decoders, mailbox. -/
structure Head where
  /-- 1 bit. PERST_N (or H1_PERST_N) asserted; reset state Asserted (R475). -/
  perst : Bool := true
  /-- The link is trained (R34). Reset 0. -/
  link : Bool := false
  /-- The Host region is ready: no Request Retry Status (R34). Reset 0. -/
  ready : Bool := false
  /-- Trained width in lanes (R31, R33). Reset 0: not trained. -/
  width : Nat := 0
  /-- Trained rate (R31). Reset: DESIGN CHOICE 2.5 GT/s (log 5). -/
  rate : LinkRate := .g2_5
  /-- 64 bits. Base of BAR0, 128 KiB aligned (R41). Reset: DESIGN CHOICE 0 (log 5). -/
  bar0 : Nat := 0
  /-- 4 HDM decoders (R37). Reset: uncommitted. -/
  hdm : List Hdm := List.replicate 4 {}
  /-- The head's background command (R55, R66). Reset: none. -/
  bg : Background := .none
  /-- Vendor-specific extended status of the last background command (R66). Reset 0. -/
  bgStatus : Nat := 0
  /-- 8 bits. MSI-X mask, one bit per vector (R49). Reset: DESIGN CHOICE 0 (log 5). -/
  msixMask : BitVec 8 := 0
  /-- 8 bits. MSI-X pending-bit array (R41). Reset: DESIGN CHOICE 0 (log 5). -/
  msixPending : BitVec 8 := 0
  /-- CXL.mem credits are withheld by a freeze (R460). Reset 0. -/
  creditsHeld : Bool := false
  /-- A head reset by an F reaction is to answer configuration requests again by this PWR_TIME; with the fault ID of its cause
  (R265). Reset: none. -/
  retrainBy : Option (Nat × BitVec 32) := none
  /-- Words of BAR0 that have been written and that no other field holds, by offset: masks and controls of the capability
  structures, mailbox payload, message address and data of the MSI-X table (R41). Reset: none, each reads a free value
  (log 46). -/
  barMem : List (Nat × Word) := []
  deriving DecidableEq, Repr

/-- Which GPF stages have been seen (R52). -/
inductive Gpf where
  | none | phase2Draining | phase2Done
  deriving DecidableEq, Repr

/-- The Host region: heads, persistence page, fence (R33 to R49, R137). -/
structure HostRegion where
  /-- Head 0 (R33). -/
  head0 : Head := {}
  /-- Head 1 (R33), in use when HEADMODE = 1. -/
  head1 : Head := {}
  /-- 64 bits. HST_EPOCH (R42, R43). Reset: DESIGN CHOICE 0 (log 5). -/
  epoch : Nat := 0
  /-- 64 bits. HST_SETTLED_EPOCH (R42, R44). Reset: DESIGN CHOICE 0 (log 5). -/
  settled : Nat := 0
  /-- 64 bits. HST_SETTLE_TARGET (R42, R44). Reset: DESIGN CHOICE 0 (log 5). -/
  target : Nat := 0
  /-- 64 bits. HST_ELOST (R45). Reset all ones (R45: from AUX entry). -/
  elost : Nat := 2 ^ 64 - 1
  /-- 1 bit. UNPROTECTED (R47). Reset 0. -/
  unprotected : Bool := false
  /-- 1 bit. COARSENED (R47). Reset 0. -/
  coarsened : Bool := false
  /-- 1 bit, W1C. OVERSHOOT (R47). Reset 0. -/
  overshoot : Bool := false
  /-- 1 bit, W1C. SETTLE_REJECT (R47). Reset 0. -/
  settleReject : Bool := false
  /-- 1 bit, W1C. MARK_REJECT (R47). Reset 0. -/
  markReject : Bool := false
  /-- 32 bits. OVERSHOOTS, saturating (R48). Reset 0. -/
  overshoots : Nat := 0
  /-- 32 bits. HOLDS, saturating (R48). Reset 0. -/
  holds : Nat := 0
  /-- The fence is applied in full (R137). Reset 0. -/
  fence : Bool := false
  /-- Only the host side of the fence is applied, for a clean shutdown (R137, R292). Reset 0. -/
  hostFence : Bool := false
  /-- A viral indication has been received (R32). Reset 0. -/
  viral : Bool := false
  /-- GPF progress since the last restore (R52, R156). Reset: none. -/
  gpf : Gpf := .none
  /-- Ids of the writes GPF Phase 2 still waits for (R52). Reset: empty. -/
  gpfWaits : List Nat := []
  /-- Heads whose Phase 2 request is not acknowledged yet (R52). Reset: none. -/
  gpfHeads : List (Fin 2) := []
  /-- CLKREQ_N asserted (R475). Reset 0 (released). -/
  clkreq : Bool := false
  /-- RAS Uncorrectable Error Status, Memory Data ECC Error (R272). Reset 0. -/
  rasMemory : Bool := false
  /-- RAS Uncorrectable Error Status, Internal Error (R272). Reset 0. -/
  rasInternal : Bool := false
  /-- RAS Correctable Error Status, Memory Data ECC Error (R272). Reset 0. -/
  rasCorrectable : Bool := false
  /-- AER Correctable Internal Error (R272). Reset 0. -/
  aerCorrectable : Bool := false
  /-- AER Uncorrectable Internal Error (R272). Reset 0. -/
  aerUncorrectable : Bool := false
  /-- 64 bits. RAS header log (R272). Reset: DESIGN CHOICE 0 (log 5). -/
  rasHeader : Word := 0
  /-- 32 bits. Units of head 0 in force since the last start from DARK, 0x2060 (R33). Reset: the default, 4,088. -/
  headUnits : Nat := 4088
  deriving DecidableEq, Repr

/-- A Waterline record in native form (R337). -/
structure WlRec where
  time : Nat
  seq : Nat
  source : MasterId
  severity : Fin 8
  code : BitVec 16
  arg : BitVec 32
  staged : Bool := false
  partial' : Bool := false
  fallback : Bool := false
  conseq : Bool := false
  snapshot : List Word := []
  deriving DecidableEq, Repr

/-- The CXL event record types of R58. -/
inductive EventKind where
  | dram | generalMedia | memoryModule | vendor
  deriving DecidableEq, Repr

/-- One entry of a CXL event log (R58): its type, and the Waterline record it reports, which is a vendor-specific record's
payload. -/
structure EventRec where
  kind : EventKind
  record : WlRec
  deriving DecidableEq, Repr

/-- One CXL event log of 256 records (R58), with the records it could not take and the times of the first and the last of
them. -/
structure EventLog where
  recs : List EventRec := []
  overflow : Nat := 0
  firstOverflow : Nat := 0
  lastOverflow : Nat := 0
  deriving DecidableEq, Repr

/-- CXL memory-device state that is not per head (R53 to R58). -/
structure Cxl where
  /-- Get Poison List: entries (first line, lines), at most 4,096, held in the ledger (R54). -/
  poisonList : List (Nat × Nat) := []
  /-- Every run of poisoned lines, which the save and the ledger preserve (R53; log 73). Manufacture: none. -/
  poisonKept : List (Nat × Nat) := []
  /-- Overflow flag and its time (R54). Reset: none. -/
  poisonOverflow : Option Nat := none
  /-- 32 bits. Dirty Shutdown Count, kept in the ledger (R56). Manufacture: DESIGN CHOICE 0 (log 5). -/
  dirtyShutdowns : Nat := 0
  /-- Shutdown State: true is Dirty (R56). Manufacture: DESIGN CHOICE clean (log 5). -/
  shutdownDirty : Bool := false
  /-- Alert thresholds (R57). Manufacture: DESIGN CHOICE none (log 5). -/
  alerts : AlertCfg := { lifeUsed := none, temperature := none, corrected := none }
  /-- Event logs by CXL severity (R58): informational, warning, failure, fatal. Reset: empty. -/
  info : EventLog := {}
  warn : EventLog := {}
  failure : EventLog := {}
  fatal : EventLog := {}
  /-- Label storage area by offset, 256 KiB held in the ledger, canonical; unlisted bytes read 0 (R31). Manufacture:
  DESIGN CHOICE empty (log 5). -/
  labels : List Host.Cell := []
  /-- Device Temperature in degrees (R57). Reset: DESIGN CHOICE 25 (log 5). -/
  tempC : Int := 25
  deriving DecidableEq, Repr

/-! ## Write buffer and DRAM -/

/-- Where a write-buffer entry stands (R39, R122, R123, R168, R194). -/
inductive WPhase where
  /-- A first-write held on Weir pressure (R122). -/
  | heldWeir
  /-- A write that waits for its page's demand fetch (R168). -/
  | heldFetch
  /-- A write that waits behind a held write to its page (R123). -/
  | behind
  /-- A first-write whose map line lies in a channel in block reset: not tested before step 9 (R194). -/
  | mapWait
  /-- A write received while its channel is in block reset: not completed before replay (R194). -/
  | inReset
  /-- Admitted by the dirty filter and completed; not yet applied to DRAM (R30). -/
  | admitted
  deriving DecidableEq, Repr

/-- One entry of the write buffer (R39): one 64-byte write. -/
structure WEntry where
  id : Nat
  head : Fin 2
  line : Nat
  data : Line
  be : BitVec 64
  poison : Bool
  phase : WPhase
  expired : Bool := false
  arrived : Nat
  deriving DecidableEq, Repr

/-- Why a read waits (R168, R187, R194). -/
inductive RWait where
  | fetch | repair | reset
  deriving DecidableEq, Repr

/-- A read the device has not answered. -/
structure PendingRead where
  id : Nat
  head : Fin 2
  line : Nat
  why : RWait
  /-- The buffered writes to the line that had arrived before the read, in order (R74). -/
  earlier : List WEntry := []
  deriving DecidableEq, Repr

/-- The 2 MiB write buffer, oldest entry first (R39), and the waiting reads. -/
structure WriteBuffer where
  /-- Up to 32,768 entries of 64 bytes in arrival order (R39). Reset: empty. -/
  entries : List WEntry := []
  /-- Reads waiting for a fetch, a repair or a block reset, in arrival order. Reset: empty. -/
  reads : List PendingRead := []
  deriving DecidableEq, Repr

/-- States of a DRAM channel (R200). -/
inductive ChState where
  | notStarted | training | active | blockReset | selfRefresh | isolated
  deriving DecidableEq, Repr

/-- TRAINING of R199. -/
inductive Training where
  | none | stored | full | failed
  deriving DecidableEq, Repr

/-- One DDR channel block (R182 to R200). -/
structure DramChannel where
  /-- 3 bits. STATE (R200). Reset 0b000. -/
  state : ChState := .notStarted
  /-- 1 bit. HOT_REFRESH (R200). Reset 0. -/
  hot : Bool := false
  /-- 8 bits. RESETS, saturating (R200). Reset 0. -/
  resets : Nat := 0
  /-- 8 bits. LAST_RESET in us, saturating (R200). Reset 0. -/
  lastReset : Nat := 0
  /-- 16 bits. UE_COUNT, saturating (R200). Reset 0. -/
  ue : Nat := 0
  /-- 24 bits. CE_COUNT, saturating (R200). Reset 0. -/
  ce : Nat := 0
  /-- 2 bits. TRAINING (R199). Reset 0b00. -/
  training : Training := .none
  /-- Full trainings failed at this start (R189). Reset 0. -/
  fullFails : Nat := 0
  /-- Start times of the block resets of the last 10 s (R195). Reset: empty. -/
  resetTimes : List Nat := []
  /-- Fault ID of the capture whose reaction started the reset in progress (R195, R268). Reset 0. -/
  resetParent : BitVec 32 := 0
  /-- Times of the corrected errors of the last 24 h by device (R186), newest first. Reset: empty. -/
  ceTimes : List (Nat × List Nat) := []
  /-- The training record in the ledger is valid (R189). Manufacture: none. -/
  recordValid : Bool := false
  /-- The record is marked stale by the planner (R423). Manufacture 0. -/
  recordStale : Bool := false
  /-- The population the training record names (R189). Manufacture 0. -/
  recordPop : DramPop := { density := 0, stack := 0, pranks := 0, rate200 := 0 }
  /-- Die temperature of the training record (R189). Manufacture 0. -/
  recordTempC : Int := 0
  /-- VDDQ_DDR target of the record, mV (R189). Manufacture 0. -/
  recordVddq : Nat := 0
  /-- The device's age (log 98) when the record was written (R423). Manufacture 0. -/
  recordTime : Nat := 0
  /-- Memory-region drift when the record was written, ppm (R423). Manufacture 0. -/
  recordDrift : Int := 0
  /-- CHANNEL_ISOLATED names this channel in the ledger (R195, R197). Manufacture 0. -/
  named : Bool := false
  /-- The channel is out at this start (R197). Reset 0. -/
  out : Bool := false
  /-- Hottest device temperature last read, degrees (R190). Reset: DESIGN CHOICE 25 (log 5). -/
  devTempC : Int := 25
  /-- PWR_TIME of the last severity-5 hot record (R190: once an hour). Reset: none. -/
  hotRecord : Option Nat := none
  /-- Refreshes postponed behind bursts, at most 4 (R190). Reset 0. -/
  postponed : Nat := 0
  /-- All-bank refreshes issued. Reset 0 (model's count of R190's command). -/
  refreshes : Nat := 0
  /-- Refresh-management commands the oar has issued. Reset 0 (model's count of R190's command). -/
  managed : Nat := 0
  /-- PWR_TIME of the last ZQ calibration (R188). Reset 0. -/
  lastZq : Nat := 0
  /-- PWR_TIME of the last DQS tracking (R188). Reset 0. -/
  lastDqs : Nat := 0
  /-- Line the patrol scrub stands at (R191, R196). Reset 0. -/
  scrubLine : Nat := 0
  /-- The DRAM oar runs microcode of this slot (R23); none while held in reset. Reset: none. -/
  oarSlot : Option (Fin 2) := none
  /-- Crossbar windows (first byte, bytes) granted to the DRAM oar by its coxswain at its load (R21). Reset: none. -/
  windows : List (Nat × Nat) := []
  deriving DecidableEq, Repr

/-- DRAM behind the device and its eight channels. -/
structure Dram where
  /-- Bytes by device physical address, canonical (R182); unlisted bytes read 0 (log 2). -/
  bytes : List Host.Cell := []
  /-- Line numbers that carry the poison marker, strictly rising (R185). -/
  poison : List Nat := []
  /-- Device pages withdrawn in degraded operation (R198). Reset: empty. -/
  withdrawn : List Nat := []
  /-- Donor pages of the reserved area of the isolated channel in degraded operation, in the order of the reserved pages they
  take (R198). Reset: none. -/
  donors : List Nat := []
  /-- 8 channels (R182). -/
  channels : List DramChannel := List.replicate 8 {}
  deriving DecidableEq, Repr

/-! ## Page map, Outflow, Lakebed -/

/-- One page-map entry (R86). BUCKET and HOT_HOLD are kept in CLEAN and LOST as written 0. -/
structure PageEntry where
  /-- 2 bits. STATE. -/
  state : PState := .clean
  /-- 4 bits. BUCKET slot. -/
  bucket : Nat := 0
  /-- 4 bits. HOT_HOLD stamp. -/
  hot : Nat := 0
  /-- 1 bit. PRIOR. -/
  prior : Bool := false
  /-- 1 bit. CARRIED. -/
  carried : Bool := false
  deriving DecidableEq, Repr

/-- REASON of a lost range (R177). -/
inductive LostReason where
  | cursor | dirtyLog | media | window
  deriving DecidableEq, Repr

/-- One live bucket (R88): the slot table's occupied slots, kept in age order. -/
structure Bucket where
  slot : Nat
  epoch : Nat
  openSeq : Nat
  isOpen : Bool
  coarsened : Bool := false
  pages : Nat
  covered : Bool := false
  /-- R73: a Settle that named the current epoch closes this bucket as soon as a slot frees. -/
  closeWhenFree : Bool := false
  deriving DecidableEq, Repr

/-- A valid drain-table entry (R89). -/
structure DrainEntry where
  failed : Bool
  linked : Bool
  bucket : Nat
  gen : Nat
  page : Nat
  deriving DecidableEq, Repr

/-- The map walker's current request (R94). -/
structure Walk where
  slot : Nat
  state : PState
  next : Nat
  deriving DecidableEq, Repr

/-- A result of a map operation on one page or tag (R92). -/
inductive MapResult where
  | tag (page tag : Nat)
  | notDirty (page : Nat)
  | inFlight (page : Nat)
  | tableFull (page : Nat)
  | done (tag : Nat)
  | stale (tag : Nat)
  deriving DecidableEq, Repr

/-- Memory-region hardware for the page map and Outflow (R86 to R108). -/
structure PageMap where
  /-- Page-map entries by device page, canonical: unlisted pages are CLEAN with zero fields (R86). -/
  pages : List (Nat × PageEntry) := []
  /-- REASON of each LOST page, canonical; unlisted is "beyond the cursor" (R177). -/
  reasons : List (Nat × LostReason) := []
  /-- What has changed in the lost-range list since a checkpoint last wrote it, by page: newly LOST with its REASON, or drained
  after a rewrite. Kept in the ledger, so that a page stays LOST and a settled one does not become it (R77, R78, R178; log 95).
  Manufacture: none. -/
  lostSince : List (Nat × Option LostReason) := []
  /-- PWR_TIME of the lost list's last change (R177). Reset 0. -/
  lostTime : Nat := 0
  /-- Live buckets, oldest first (R88). Reset: none. -/
  buckets : List Bucket := []
  /-- 64 bits. Next open sequence number (R88). Reset: DESIGN CHOICE 1 (log 5). -/
  nextSeq : Nat := 1
  /-- 64 bits. Hardware residue counter in bytes (R88). Reset 0. -/
  residue : Nat := 0
  /-- Valid drain-table entries by index, canonical (R89). Reset: empty. -/
  drains : List (Nat × DrainEntry) := []
  /-- GENERATION of each entry index, canonical; unlisted is 0 (R89). Reset 0. -/
  drainGens : List (Nat × Nat) := []
  /-- 64 bits. Stale drain results, OD 0x2015:05, kept in the ledger (R99). Manufacture 0. -/
  stale : Nat := 0
  /-- Results returned to both crews by the last map operation batch (R92). Reset: empty. -/
  results : List MapResult := []
  /-- The map walker (R94). Reset: idle. -/
  walk : Option Walk := none
  /-- Pages of the last batch returned by the walker, at most 64 (R92, R94). Reset: empty. -/
  batch : List Nat := []
  /-- Outflow's work list in the control structures (R85): the pages it takes next, in the order of R94 and R95, at most
  64. Reset: empty. -/
  chosen : List Nat := []
  /-- Pages whose MARK_DRAINING waits until their writes have left the write buffer (R92). Reset: none. -/
  marks : List Nat := []
  /-- Map lines the dirty filter caches, canonical, each with its dirty flag: 65,536 lines, 16-way (R90). Reset: none. -/
  cache : List (Nat × Bool) := []
  /-- Lines the filter has evicted: the count its free victim is drawn with (log 63). Reset 0. -/
  evictions : Nat := 0
  /-- A recount walk is running (R91). Reset 0. -/
  recounting : Bool := false
  /-- Map lines whose rebuild waits for the end of a freeze (R267, R461). Reset: none. -/
  toRebuild : List Nat := []
  /-- Pages whose re-drain after a mapping-entry error waits for the end of a freeze (R105, R461). Reset: none. -/
  toRedrain : List Nat := []
  /-- 1 bit, W1C. FILTER_RECOVERED (R108). Reset 0. -/
  filterRecovered : Bool := false
  /-- 1 bit. OUTFLOW_RUN (R108). Reset 0. -/
  outflowRun : Bool := false
  /-- 1 bit. Sprint cause: Weir pressure (R97, R108). Reset 0. -/
  causeWeir : Bool := false
  /-- 1 bit. Sprint cause: hold limit (R97, R108). Reset 0. -/
  causeHold : Bool := false
  /-- 1 bit. Sprint cause: unprotected (R97). Reset 0. -/
  causeUnprot : Bool := false
  /-- 1 bit. SPRINT (R108). Reset 0. -/
  sprint : Bool := false
  /-- PWR_TIME the running Sprint started (R109 0x2015:04). Reset 0. -/
  sprintSince : Nat := 0
  /-- 64 bits. Sprint starts, 0x2015:03, kept in the ledger (R99). Manufacture 0. -/
  sprintStarts : Nat := 0
  /-- 64 bits. Sprint time in ns before the running Sprint, 0x2015:04 (R99). Manufacture 0. -/
  sprintNs : Nat := 0
  deriving DecidableEq, Repr

/-- Contents of one programmed 4 KiB unit (R101, R205): its tag, its bytes by offset (canonical,
unlisted 0), its poisoned lines, and the number of the media key it was written under (R213, R214). -/
structure FlashUnit where
  page : Nat
  seq : Nat
  cells : List Host.Cell
  poison : List Nat
  key : Nat
  bad : Bool := false
  /-- 128 bits. The XTS tweak the unit was encrypted under (R213). -/
  tweak : Nat := 0
  /-- 16 bits. CRC-16 of the tag (R101). -/
  crc : BitVec 16 := 0
  /-- The save generation in the tag of a Basin unit (R145); 0 in a Lakebed unit. -/
  gen : Nat := 0
  /-- Die of a Basin unit (R141, R206); 0 in a Lakebed unit, whose die its location gives. -/
  die : Nat := 0
  deriving DecidableEq, Repr

/-- The four streams, each with one OPEN segment at most (R101). -/
inductive LakeStream where
  | outflow | sprint | relocation | folding
  deriving DecidableEq, Repr

/-- States of a Lakebed segment (R101). -/
inductive SegState where
  | erased | open' | closed | gcSource | retired
  deriving DecidableEq, Repr

/-- One Lakebed segment (R101): its state and tier, its 64-bit sequence number, its counts of valid units and of units
programmed, the dies it spans, whether it is collected first (R216), the stream that writes it, the next unit in order, the
dies skipped after a failure (R218), and the summary of tags it closed with. `gcFirst` and the state GC_SOURCE are the
garbage-collection queues of the control structures (R85). `blank` are the dies on which its die-block is erased (R101,
R217), `bad` those on which it is retired, to be replaced once the segment is erased (R218). -/
structure Segment where
  state : SegState := .erased
  pslc : Bool := false
  seq : Nat := 0
  valid : Nat := 0
  programmed : Nat := 0
  dies : List Nat := []
  gcFirst : Bool := false
  stream : Option LakeStream := none
  next : Nat := 0
  skipped : List Nat := []
  summary : List (Nat × Nat) := []
  blank : List Nat := []
  bad : List Nat := []
  deriving DecidableEq, Repr

/-- A committed checkpoint (R104): the mapping table and the lost list with its REASONs as they stood (R178), the first
unit of the newest copy of every chunk, and of the directory. -/
structure CheckpointRec where
  seq : Nat
  lakeSeq : Nat
  mapping : List (Nat × (Nat × Nat))
  lost : List (Nat × LostReason)
  chunks : List (Nat × (Nat × Nat)) := []
  dir : Nat × Nat := (0, 0)
  deriving DecidableEq, Repr

/-- A checkpoint being written (R104): the write sequence at step 1, the chunks it takes in, their entries in the staging
buffers (R85), the changed ones left to write, the chunks written so far, and the directory once written. -/
structure ChunkWrite where
  lakeSeq : Nat
  taken : List Nat := []
  staging : List (Nat × (Nat × Nat)) := []
  todo : List Nat := []
  chunks : List (Nat × (Nat × Nat)) := []
  dir : Option (Nat × Nat) := none
  deriving DecidableEq, Repr

/-- A mapping change of a relocation or a fold (R103, R237): the page, the unit moved, and its copy. -/
structure MapDelta where
  page : Nat
  src : Nat × Nat
  dst : Nat × Nat
  deriving DecidableEq, Repr

/-- The Lakebed (R100 to R104). -/
structure Lakebed where
  /-- Mapping table: page to (segment, unit); listed means VALID (R100). Manufacture: empty. -/
  mapping : List (Nat × (Nat × Nat)) := []
  /-- Programmed units by (segment, unit), newest first (R101). Manufacture: empty. -/
  units : List ((Nat × Nat) × FlashUnit) := []
  /-- Segment table, canonical; unlisted is ERASED TLC (R101). Manufacture: empty. -/
  segments : List (Nat × Segment) := []
  /-- 48 bits. Lakebed write sequence (R101). Manufacture 0. -/
  writeSeq : Nat := 0
  /-- 64 bits. Next segment sequence (R101). Manufacture 0. -/
  segSeq : Nat := 0
  /-- The newest committed checkpoint (R104). Manufacture: none. -/
  checkpoint : Option CheckpointRec := none
  /-- The checkpoint before it (R104: kept from garbage collection). Manufacture: none. -/
  older : Option CheckpointRec := none
  /-- 64 bits. Sequence of the last committed checkpoint, 0x2016:05 (R109). Manufacture 0. -/
  checkpointSeq : Nat := 0
  /-- The checkpoint being written (R104). Reset: none. -/
  chunkWrite : Option ChunkWrite := none
  /-- The chunk bitmap of the control structures (R85): chunks of the mapping table changed since the last checkpoint (R104),
  strictly rising. Reset: empty. -/
  changed : List Nat := []
  /-- Segments of units whose mapping entry was lost: each valid count falls at the next checkpoint's rebuild (R105).
  Reset: empty. -/
  orphans : List Nat := []
  /-- Mapping deltas: changes of relocation and folding that the crews may still hold in their SRAM alone, oldest first, at
  most 65,536 (R237). Reset: none. -/
  deltas : List MapDelta := []
  /-- 1 bit. SPRINT_STARVED (R108). Reset 0. -/
  starved : Bool := false
  /-- 1 bit. GC_URGENT (R108). Reset 0. -/
  gcUrgent : Bool := false
  /-- Garbage collection is running (R102). Reset 0. -/
  gcRun : Bool := false
  /-- 64 bits. pSLC-tier bytes, 0x2015:01, kept in the ledger (R99). Manufacture 0. -/
  pslcBytes : Nat := 0
  /-- 64 bits. Folded bytes, 0x2015:02, kept in the ledger (R99). Manufacture 0. -/
  foldedBytes : Nat := 0
  /-- 64 bits. Relocated bytes, 0x2016:04 (R109). Reset 0. -/
  relocated : Nat := 0
  /-- TLC segments of the Lakebed, computed at each start (R207). Manufacture: the reference population's 896. -/
  tlcSegments : Nat := 896
  deriving DecidableEq, Repr

/-- The progress cursor (R146): everything before (open sequence, page) is programmed, or all is. -/
inductive Cursor where
  | upTo (openSeq page : Nat)
  | endOfResidue
  deriving DecidableEq, Repr

/-- The roots of a save (R148): the generation; the places (first unit, units) of the saved map, drain table, bucket table
and mapping table; the last committed checkpoint sequence; epoch, settled epoch and settle target at the fence (R46); the
final cursor; and the dirty-log position. -/
structure Roots where
  gen : Nat
  places : List (Nat × Nat)
  checkpoint : Nat
  epoch : Nat
  settled : Nat
  target : Nat
  cursor : Cursor
  logPos : Nat
  deriving DecidableEq, Repr

/-- The image a save wrote into the Basin (R144 to R148). -/
structure BasinImage where
  /-- Save generation (R147). -/
  gen : Nat := 0
  /-- The saved page map (R144). -/
  map : List (Nat × PageEntry) := []
  /-- The saved drain table (R144). -/
  drains : List (Nat × DrainEntry) := []
  /-- The saved bucket table (R144). -/
  buckets : List Bucket := []
  /-- REASONs of the pages LOST at the save. -/
  reasons : List (Nat × LostReason) := []
  /-- The saved Lakebed mapping table (R144 step 3), when written. -/
  mapping : Option (List (Nat × (Nat × Nat))) := none
  /-- Programmed residue units by page (R144, R145). -/
  units : List (Nat × FlashUnit) := []
  /-- Units that each die has been given and has not programmed yet: fewer than the 16 of one program (R210). -/
  held : List (Nat × FlashUnit) := []
  /-- Padding units each die was programmed at the ends of passes (R210), canonical, unlisted 0. -/
  padding : List (Nat × Nat) := []
  /-- Basin block summaries (R167): the pages of each die-block that the save has filled, by die and its block's place in the
  save, in unit order. -/
  summaries : List ((Nat × Nat) × List Nat) := []
  /-- Dies that take the page map, those free first ahead of the rest (R210). -/
  mapDies : List Nat := []
  /-- Pages programmed into each die's block that is not yet filled, in unit order, padding with them (R167). -/
  filled : List (Nat × List Nat) := []
  /-- Tweaks of the save-metadata units, the unit's index within its area in each (R213). -/
  metaTweaks : List Nat := []
  /-- The roots in the Basin header (R148), when written. -/
  roots : Option Roots := none
  /-- The two dies whose blocks hold the header (R148). -/
  headers : List Nat := []
  /-- The saved map was read whole: no line of it lay on an isolated channel (R195). -/
  mapWhole : Bool := true
  /-- The saved mapping table was read whole (R195). -/
  mappingWhole : Bool := true
  /-- Pages that lost a completed write with an isolated channel (R80). -/
  dropped : List Nat := []
  deriving DecidableEq, Repr

/-- The Basin (R98, R115, R144, R174). -/
structure Basin where
  /-- Erased die-blocks of each die, canonical, unlisted 0 (R115). Manufacture: none (R217). -/
  erasedBy : List (Nat × Nat) := []
  /-- The Basin allocation bitmap of the control structures (R85), by die, canonical, unlisted 0: bit n set, die-block n of
  the die is erased. Manufacture: none (R217). -/
  bitmap : List (Nat × Nat) := []
  /-- Die-blocks of each die whose erase ended after the fence: counted at the next start (R139). Reset: none. -/
  late : List (Nat × Nat) := []
  /-- Which die-blocks those are, as `bitmap` has them (R139). Reset: none. -/
  lateMap : List (Nat × Nat) := []
  /-- Erased blocks count in basin_erased: not from a start that finds a saved image or a Basin part erased, until RESTORED
  (R120, R170, R443). Manufacture 1. -/
  counted : Bool := true
  /-- Retired Basin die-blocks (R218). Manufacture 0. -/
  retired : Nat := 0
  /-- The saved image (R144). Manufacture: none. -/
  image : Option BasinImage := none
  /-- A generation's blocks may be erased: it is consumed, or never needed (R173). -/
  reErase : Bool := false
  /-- Units programmed into erased blocks by the save in progress. Reset 0. -/
  usedUnits : Nat := 0
  /-- Basin die-blocks of the f_alloc share that program failures of the save have used up (R151). Reset 0. -/
  allocUsed : Nat := 0
  deriving DecidableEq, Repr

/-! ## Flash back end -/

/-- STATE of a flash channel (R225). -/
inductive FlState where
  | notPresent | identifying | active | reset | withdrawn
  deriving DecidableEq, Repr

/-- One queued or running flash operation (R208). -/
structure FlashJob where
  die : Nat
  op : FlashOp
  data : Option FlashUnit := none
  started : Bool := false
  /-- Suspensions of a program or erase so far, at most 8 (R209). -/
  suspensions : Nat := 0
  /-- The program or erase is suspended: it resumes when no class-1 operation waits for the die (R209). -/
  suspended : Bool := false
  /-- Its read of a page in DRAM waits for the end of the channel's block reset (R196), with what that read is to meet. -/
  waits : Option (List (Nat × DramRead)) := none
  deriving DecidableEq, Repr

/-- One flash channel (R224, R225). -/
structure FlashChannel where
  /-- 3 bits. STATE (R225). Reset 0b000. -/
  state : FlState := .notPresent
  /-- 16 bits. RETRIES, saturating (R225). Reset 0. -/
  retries : Nat := 0
  /-- 8 bits. PROG_FAIL, saturating (R225). Reset 0. -/
  progFail : Nat := 0
  /-- 8 bits. ERASE_FAIL, saturating (R225). Reset 0. -/
  eraseFail : Nat := 0
  /-- 16 bits. UNCORR, saturating (R225). Reset 0. -/
  uncorr : Nat := 0
  /-- Command-slot queue of the oar, in order of issue (R208). Reset: empty. -/
  jobs : List FlashJob := []
  /-- Start times of the channel resets of the last 10 s (R224). Reset: empty. -/
  resetTimes : List Nat := []
  /-- The flash oar runs microcode of this slot (R23). Reset: none. -/
  oarSlot : Option (Fin 2) := none
  /-- Crossbar windows (first byte, bytes) granted to the flash oar by its coxswain at its load (R21). Reset: none. -/
  windows : List (Nat × Nat) := []
  /-- Dies on which Outflow into TLC started last and yields the next turn to a relocation, while garbage collection is urgent
  (R102, R208). Reset: none. -/
  yields : List Nat := []
  deriving DecidableEq, Repr

/-- One die (R206, R219). -/
structure Die where
  retired : Bool := false
  /-- Operations failed in a row after a channel reset (R219). -/
  fails : Nat := 0
  /-- Good die-blocks left in the die's spare pool (R219), counted when the areas are sized at start (R207). Manufacture: not
  yet counted, 0. -/
  spare : Nat := 0
  /-- The pool's die-blocks that are erased, by number, rising (R207). Manufacture: none (R217). -/
  poolErased : List Nat := []
  /-- Die-blocks retired (R218), and those marked bad beyond the reference die's (R217). -/
  badBlocks : Nat := 0
  /-- The place in an area that each retired die-block had, newest first, as the ledger records them (R218): the block itself
  is never erased again, and another one stands in its place. Manufacture: none. -/
  gone : List Nat := []
  /-- Die-blocks that the factory marks make bad, as read (R217). Manufacture: not read, 0. -/
  marked : Nat := 0
  /-- Read-level offsets set for the die's last read attempt: one set of 7, or three at attempt 8 (R216, R426). Reset: none. -/
  levels : List (List Int) := []
  deriving DecidableEq, Repr

/-- Flash region and its wear (R202 to R227). -/
structure Flash where
  /-- 32 channels (R225). -/
  channels : List FlashChannel := List.replicate 32 {}
  /-- Dies by number, canonical; unlisted is a good die (R206, R219). Manufacture: none listed. -/
  dies : List (Nat × Die) := []
  /-- Wear counts by (die × 65536 + die-block), 16 bits, saturating, kept in the ledger (R220). -/
  wear : List (Nat × Nat) := []
  /-- Fault times of each LDPC engine within 10 s (R224). Reset: empty. -/
  ldpcTimes : List (Nat × Nat) := []
  /-- Fault times of each XTS engine within 10 s (R224). Reset: empty. -/
  xtsTimes : List (Nat × Nat) := []
  /-- XTS engine withdrawn: the other serves all channels (R224). Reset 0. -/
  xtsOut : List Nat := []
  /-- 1 bit. BUDGET_OVER (R226). Reset 0. -/
  budgetOver : Bool := false
  /-- 10 bits. EXCHANGES, saturating (R226). Reset 0. -/
  exchanges : Nat := 0
  /-- 32 bits. Measured t99.9 in ns, 0x2082:05 (R222). Reset 0. -/
  t999 : Nat := 0
  /-- pSLC programs timed since the start from DARK (R112). Reset 0. -/
  programs : Nat := 0
  /-- 64 bits. Forced completions, 0x2082:06 (R209). Reset 0. -/
  forced : Nat := 0
  /-- Endurance consumed in percent, newest first, with the device's age from which it stood, back to 30 days ago (R221). -/
  consumedAt : List (Nat × Nat) := []
  /-- PWR_TIME of the spans of VDD_AON that have ended, summed in ns: with PWR_TIME, which restarts at 0 with VDD_AON (R28),
  the device's age (log 98). Manufacture 0. -/
  lived : Nat := 0
  /-- The board profile was rewritten: retired dies are taken up again at the next start (R219). Manufacture 0. -/
  profileNew : Bool := false
  /-- Number of the media key in both engines (R214). Manufacture: key 0. -/
  key : Nat := 0
  /-- The media key drawn by a crypto erase in progress (R215). Reset: none. -/
  newKey : Option Nat := none
  /-- The device's age at first start (R221). -/
  firstStart : Option Nat := none
  /-- Flash patrol: last segment read (R216). Reset 0. -/
  patrolSeg : Nat := 0
  /-- Read-level offsets, 8 classes of 7 (R426). Manufacture 0. -/
  offsets : List (List Int) := List.replicate 8 (List.replicate 7 0)
  /-- Reads and retried reads of each class since the last plan (R426). Reset 0. -/
  classReads : List (Nat × Nat) := List.replicate 8 (0, 0)
  /-- Reads of each class since the last plan that succeeded at each of the six retry steps (R216, R426). Reset 0. -/
  stepReads : List (List Nat) := List.replicate 8 (List.replicate 6 0)
  /-- Retirement walks of dies still running (R219). Reset: empty. -/
  walks : List Nat := []
  /-- FLS_WP_N asserted (R479). Reset: asserted. -/
  wpN : Bool := true
  deriving DecidableEq, Repr

/-! ## Dirty log -/

/-- KIND of a dirty-log entry (R153), with SLOT for DIRTY and TAG for MARK and COMPLETE. -/
inductive LogEntry where
  | reset (page : Nat)
  | dirty (slot page : Nat)
  | mark (tag page : Nat)
  | complete (tag page : Nat)
  deriving DecidableEq, Repr

/-- The dirty log (R153 to R155). -/
structure DirtyLog where
  /-- Entries in the 256 KiB tail, oldest first, at most 32,768 of 8 bytes (R155). Reset: empty. -/
  tail : List LogEntry := []
  /-- Entries in the 4 MiB ledger spill area, at most 524,288 (R155). Manufacture: empty. -/
  spill : List LogEntry := []
  /-- Entries in the log area, oldest first (R155). Manufacture: empty. -/
  area : List LogEntry := []
  /-- Units of the log area, oldest first: the tweak each was encrypted under, which holds its index within the area (R213),
  and the entries in it. Manufacture: none. -/
  units : List (Nat × Nat) := []
  /-- Index of the next unit in the log area's ring (R155, R213). Manufacture 0. -/
  nextUnit : Nat := 0
  /-- Die-blocks of the log area queued for erase since a crypto erase (R215). Manufacture 0. -/
  toErase : Nat := 0
  /-- A compaction is running; the number of area entries written before its walk (R155). -/
  compacting : Option Nat := none
  /-- 64 bits. Compactions since manufacture, 0x2044:02 (R158). -/
  compactions : Nat := 0
  /-- 64 bits. Tail spills, 0x2044:03 (R158). -/
  spills : Nat := 0
  /-- The spill area filled: the chip fatal of R155 follows. Reset 0. -/
  overflow : Bool := false
  /-- Pages of the entries logged since MEMORY_READY and not yet superseded by the compaction of RESTORED, each with the first
  host epoch of the bucket its entry names (R171, R173, R175). Manufacture: empty. -/
  window : List (Nat × Nat) := []
  /-- The tail was sealed in the ledger at SAVE_STARTED (R150). Reset 0. -/
  sealed' : Bool := false
  /-- The dirty-log position (R147, R153): entries appended since manufacture. Manufacture 0. -/
  pos : Nat := 0
  deriving DecidableEq, Repr

/-! ## The Weir -/

/-- The bound set of OD 0x2004 (R131). -/
structure Bounds where
  energy : Nat := 0
  power : Nat := 0
  time : Nat := 0
  basin : Nat := 0
  owner : Nat := 0
  level : Nat := 0
  rPlanMBs : Nat := 0
  /-- r_plan in GB/s, exactly: the plan of a save uses its whole part over s_die (R141). -/
  rPlan : Rat := 0
  binding : Nat := 0
  at' : Nat := 0
  weaker : Nat := 0
  deriving DecidableEq, Repr

/-- STATE of MEM_WEIR_ENFORCED (R129), but DISABLED, which follows UNPROTECTED. -/
inductive WeirState where
  | init | floor | published | decaying | decayed
  deriving DecidableEq, Repr

/-- An excess episode in progress (R125). -/
structure Episode where
  since : Nat
  severe : Bool
  overshoots : Nat
  maxExcess : Nat
  deriving DecidableEq, Repr

/-- The Weir (R110 to R130). -/
structure Weir where
  /-- 32 bits. CAP in MiB (R127). Reset 0. -/
  capMiB : Nat := 0
  /-- 32 bits. FLOOR in MiB (R127). Reset 0. -/
  floorMiB : Nat := 0
  /-- 48 bits. Published LEVEL in bytes (R128). Reset 0. -/
  published : Nat := 0
  /-- 1 bit. CREW of the last publication (R128): false Bow. Reset 0. -/
  pubStroke : Bool := false
  /-- PWR_TIME of the last landed publication (R128 AGE). Reset 0. -/
  pubTime : Nat := 0
  /-- A publication has landed since the crews were loaded (R120). Reset 0. -/
  hasPub : Bool := false
  /-- STATE (R129). Reset INIT. -/
  state : WeirState := .init
  /-- Level from which the running decay falls (R20). Reset 0. -/
  decayFrom : Nat := 0
  /-- PWR_TIME at which the decay began (R20). Reset 0. -/
  decayAt : Nat := 0
  /-- 32 bits, RC. EXCESS_MAX in bytes, reported in MiB (R130). Reset 0. -/
  excessMax : Nat := 0
  /-- 16 bits. EPISODES, saturating (R130). Reset 0. -/
  episodes : Nat := 0
  /-- 8 bits. DECAYS, saturating (R130). Reset 0. -/
  decays : Nat := 0
  /-- 8 bits. CLAMPS, saturating (R130). Reset 0. -/
  clamps : Nat := 0
  /-- The episode in progress (R125). Reset: none. -/
  episode : Option Episode := none
  /-- OD 0x2004, the last computation (R131). Reset: all zero. -/
  bounds : Bounds := {}
  /-- 0x2004:00 is 10, not 0 (R131). Reset 0. -/
  computed : Bool := false
  /-- A setting of the floor was written, and the Coxswain's recomputation that it triggers has not run (R117, R131). Reset
  0. -/
  floorDue : Bool := false
  deriving DecidableEq, Repr

/-! ## Save and restore -/

/-- PHASE of PWR_SAVE_STATUS (R157), in the order of its codes 0x0 to 0x8. -/
inductive SavePhase where
  | idle | fenced | drained | map | residue | mapping | saved | powerDown | lastGasp
  deriving DecidableEq, Repr

/-- OD 0x2042, the last save (R158). Every field is 0 before the first save. -/
structure LastSave where
  present : Bool := false
  gen : Nat := 0
  trigger : Nat := 0
  fenceTime : Nat := 0
  duration : Nat := 0
  written : Nat := 0
  halvings : Nat := 0
  outcome : Nat := 0
  gpf : Bool := false
  mapSaved : Bool := false
  deriving DecidableEq, Repr

/-- The save (R132 to R158, R394, R500). -/
structure Save where
  /-- 4 bits. PHASE (R157). Reset 0x0. -/
  phase : SavePhase := .idle
  /-- 4 bits. TRIGGER (R157). Reset 0x0, none. -/
  trigger : Option Trigger := none
  /-- 4 bits. HALVINGS, saturating (R157). Reset 0. -/
  halvings : Nat := 0
  /-- 1 bit. BATTERY: the battery path is closed (R157). Reset 0. -/
  battery : Bool := false
  /-- 9 bits. DIES programming now (R157). Reset 0. -/
  dies : Nat := 0
  /-- 4 bits. BUCKET: slot of the pass in progress (R157). Reset 0. -/
  bucket : Nat := 0
  /-- The landed cursor (R146, R157 CURSOR_PAGE). Reset: before everything. -/
  cursor : Cursor := .upTo 0 0
  /-- A save is running: from the fence until the sequencer reaches its target. Reset 0. -/
  running : Bool := false
  /-- PWR_TIME at the fence (R158). Reset 0. -/
  fenceTime : Nat := 0
  /-- GPF Phase 2 preceded the fence (R156). Reset 0. -/
  gpf : Bool := false
  /-- Generation of the save in progress (R147). Reset 0. -/
  gen : Nat := 0
  /-- Residue bytes programmed by the save in progress (R158). Reset 0. -/
  written : Nat := 0
  /-- Residue writing has stopped (R143, R500, R151). Reset 0. -/
  stopped : Bool := false
  /-- Pages that lost a completed write with an isolated channel (R80, R195). Reset: none. -/
  dropped : List Nat := []
  /-- Outcome code so far (R158 0x2042:07). Reset 0. -/
  outcome : Nat := 0
  /-- The save waits for a crew to become a member (R249). Reset 0. -/
  waitMember : Bool := false
  /-- MAP_SAVED reached by the save in progress (R147). Reset 0. -/
  mapSaved : Bool := false
  /-- Open sequences whose BUCKET_DONE landed (R146). Reset: none. -/
  done : List Nat := []
  /-- PWR_TIME of the last halving (R142: 5 ms hold-off). Reset: none. -/
  lastHalving : Option Nat := none
  /-- SAVE_RELEASE has landed (R394). Reset 0. -/
  released : Bool := false
  /-- PACKID code waiting for the end of the save (R325). Reset: none. -/
  packWaiting : Bool := false
  /-- 0x2042:09, PWRFAIL_N pulses shorter than 10 ns (R132). Reset 0. -/
  ignored : Nat := 0
  /-- 0x2042:01 to :0A (R158), kept across starts. Manufacture: 0. -/
  last : LastSave := {}
  deriving DecidableEq, Repr

/-- PHASE of MEM_RESTORE_STATUS (R180), in the order of its codes 0x0 to 0x9. -/
inductive RestPhase where
  | idle | roots | metadata | conversion | fill | overlay | compaction | restored | erased | failed
  deriving DecidableEq, Repr

/-- OD 0x2043, the last restore (R181). -/
structure LastRestore where
  present : Bool := false
  gen : Nat := 0
  prev : Nat := 0
  early : Bool := false
  readyMs : Nat := 0
  restoredMs : Nat := 0
  lost : Nat := 0
  carried : Nat := 0
  fetches : Nat := 0
  longest : Nat := 0
  media : Nat := 0
  attempt : Nat := 0
  deriving DecidableEq, Repr

/-- The restore (R159 to R181). -/
structure Restore where
  /-- 4 bits. PHASE (R180). Reset 0x0. -/
  phase : RestPhase := .idle
  /-- 1 bit. EARLY (R180). Reset 0. -/
  early : Bool := false
  /-- 1 bit. POINT (R180). Reset 0. -/
  point : Bool := false
  /-- 1 bit, W1C. MEDIA_LOSS (R180). Reset 0. -/
  mediaLoss : Bool := false
  /-- Pages with a demand fetch outstanding (R168; FETCHES of R180). Reset: none. -/
  fetching : List Nat := []
  /-- Pages whose RESTORED bit is set one by one, strictly rising (R165). Reset: none. -/
  restoredSet : List Nat := []
  /-- The Lakebed fill has set the bit of every page whose source is not the Basin (R165). Reset 0. -/
  fillDone : Bool := false
  /-- Every RESTORED bit is set (R165). Reset 0. -/
  allDone : Bool := false
  /-- Pages whose TOUCHED bit is set, strictly rising (R165, R171). Reset: none. -/
  touched : List Nat := []
  /-- Residue pages of the conversion: the pages whose source is the Basin (R163, R165), strictly rising. Reset: none. -/
  basinPages : List Nat := []
  /-- The runs of poisoned lines preserved at the restore's begin: they lie on pages that DRAM has lost (R53).
  Reset: none. -/
  heldPoison : List (Nat × Nat) := []
  /-- Generation restored (R161). Reset 0. -/
  gen : Nat := 0
  /-- Pages this restore has marked LOST with CARRIED 0, rewritten ones too (R56). Reset 0. -/
  marked : Nat := 0
  /-- The mode is early-open (R51, R159). Reset 0. -/
  modeEarly : Bool := false
  /-- Previous-shutdown code of 0x2043:02 (R181). Reset 0. -/
  prev : Nat := 0
  /-- Attempt number (R159). Reset 0. -/
  attempt : Nat := 0
  /-- PWR_TIME of restore begin (R181). Reset 0. -/
  begin : Nat := 0
  /-- What RESTORE_BEGIN found of the shutdown: 0 none, 1 clean, 2 image, 3 dirty log, 4 an image whose
  saved map was unreadable (R160, R162). Reset 0. -/
  source : Nat := 0
  /-- The generation's save ended in SAVED, so roots are sought (R161). Reset 0. -/
  roots : Bool := false
  /-- The restore repeats one whose early-open window was lost (R160). Reset 0. -/
  again : Bool := false
  /-- Memory is ready (R50). Reset 0. -/
  ready : Bool := false
  /-- RESTORED has been committed at this start (R173). Reset 0. -/
  committed : Bool := false
  /-- The restore has begun at this start. Reset 0. -/
  begun : Bool := false
  /-- Media Status is Disabled: failed restore or Sanitize (R176, R215). Reset 0. -/
  disabled : Bool := false
  /-- A Sanitize or Secure Erase runs; true is Sanitize (R215). Reset: none. -/
  sanitizing : Option Bool := none
  /-- The head whose mailbox waits for its completion (R35, R59). Reset: none. -/
  sanitizeHead : Option (Fin 2) := none
  /-- 0x2043 (R181), kept across starts. Manufacture: 0. -/
  last : LastRestore := {}
  deriving DecidableEq, Repr

/-! ## Ledger and Waterline -/

/-- HST_EPOCH, HST_SETTLED_EPOCH and HST_SETTLE_TARGET as a save records them at the fence (R46). -/
structure FenceEpochs where
  epoch : Nat
  settled : Nat
  target : Nat
  deriving DecidableEq, Repr

/-- One slot of the ledger's bucket table (R153): the bucket's first host epoch, and the dirty-log positions of its open
and, once it has retired, of its retirement. -/
structure LedgerBucket where
  epoch : Nat
  openPos : Nat := 0
  retirePos : Option Nat := none
  deriving DecidableEq, Repr

/-- A commit of the ledger (R44, R104, R107, R147, R153, R179, R189, R195, R215, R299, R428). -/
inductive Commit where
  | saveStarted (gen trig : Nat) (gpf : Bool) (at' : FenceEpochs) (buckets : List Bucket) (logPos : Nat) (fatal : Word)
  | mapSaved (gen : Nat) (places : List (Nat × Nat))
  | cursor (gen : Nat) (c : Cursor)
  | bucketDone (gen openSeq pages : Nat)
  | rootsSaved (gen : Nat) (header : Nat × Nat)
  | saved (gen : Nat) (c : Cursor) (ms halvings : Nat)
  | lastGasp (gen : Nat) (c : Cursor) (reason : Nat) (mapSaved : Bool) (at' : FenceEpochs)
  | restoreStarted (gen : Nat) (early : Bool) (attempt prev : Nat)
  | memoryReady (gen logPos : Nat)
  | restoreInterrupted (gen epoch : Nat) (window : List Nat) (logPos : Nat)
  | restored (gen elost lost carried logPos : Nat)
  | basinErased (gen erased : Nat)
  | checkpoint (seq : Nat) (dir : Nat × Nat) (lakeSeq : Nat)
  | settled (target : Nat)
  | shutdownClean (seq epoch settled : Nat) (lostList : Nat × Nat)
  | sanitized
  | channelIsolated (ch : Nat)
  | other (c : OtherCommit)
  deriving DecidableEq, Repr

/-- A commit with its PWR_TIME (R147, R179). -/
structure LedgerRec where
  time : Nat
  commit : Commit
  /-- Sequence number of the record that holds it in the fallback ring, while the ledger is failed (R340); none for a commit in
  the ledger or in the root area. -/
  held : Option Nat := none
  deriving DecidableEq, Repr

/-- A record of the commit ring in the root area of serial memory (R440): type, sequence number, PWR_TIME, generation, and
the commit it holds or the dirty-log entries of a tail. -/
structure RootRec where
  typ : Nat
  seq : Nat
  time : Nat
  gen : Nat
  commit : Option Commit := none
  words : List Word := []
  deriving DecidableEq, Repr

/-- The ledger (R12 region 7; R147, R153, R340, R465, R499). -/
structure Ledger where
  /-- Commits, newest first. Manufacture: none. -/
  commits : List LedgerRec := []
  /-- Bucket table by slot, canonical: the bucket last opened in it and, once retired, that too (R153). Manufacture: empty. -/
  buckets : List (Nat × LedgerBucket) := []
  /-- The roots committed to the ledger (R148). Manufacture: none. -/
  roots : Option Roots := none
  /-- The roots in the root area of serial memory (R148). Manufacture: none. -/
  rootArea : Option Roots := none
  /-- The commit ring in the root area, newest first (R440). Manufacture: empty. -/
  ring : List RootRec := []
  /-- 64-bit words by word address (R465: 2^21 of them) as LEDGER_ACCESS has read or written them in the
  present freeze; the layout of the ledger's contents is not the spec's (log 1). Reset: none. -/
  words : List (Nat × Word) := []
  /-- The ledger is failed (R340). Reset 0. -/
  failed : Bool := false
  /-- The failure is of an earlier start, so this start tests the ledger (R499). Reset 0. -/
  testDue : Bool := false
  /-- Health reports "metadata store degraded" (R57, R340, R499). Reset 0. -/
  degraded : Bool := false
  /-- Commits held in the fallback ring or the root area while failed (R340, R440). -/
  fallback : List LedgerRec := []
  /-- Minimum security version copy (R401). Manufacture 0. -/
  minSecurity : Nat := 0
  /-- The wrapped media key in its two ledger records, as the number of the key (R214). Manufacture: key 0. -/
  keyRecords : Nat × Nat := (0, 0)
  /-- The wrapped media key in the root area of serial memory (R214). Manufacture: key 0. -/
  keyCopy : Nat := 0
  /-- 64 bits. CHP_FATAL as committed before the present start, 0x5011 (R277). Manufacture 0. -/
  lastFatal : Word := 0
  deriving DecidableEq, Repr

/-- The Waterline (R332 to R347). -/
structure Waterline where
  /-- Ledger log, at most 52,428 slots, in sequence order (R339). Manufacture: empty. -/
  log : List WlRec := []
  /-- Fallback ring, at most 409 slots, in sequence order (R340). Reset: empty. -/
  ring : List WlRec := []
  /-- 64 bits. NEXT (R346). Reset 0. -/
  nextSeq : Nat := 0
  /-- One more than the last number reserved in serial memory (R333, R439). Manufacture 0. -/
  reserved : Nat := 0
  /-- Pages written to the latch sectors, which number them (R439). Manufacture 0. -/
  pageSeq : Nat := 0
  /-- PWR_TIME and sequence number of the newest reservation page (R439). Manufacture: none. -/
  reservePage : Option (Nat × Nat) := none
  /-- Drop counters by severity, 32 bits, saturating (R347). Manufacture 0. -/
  drops : List Nat := List.replicate 8 0
  /-- 64 bits. Records written (R347). Manufacture 0. -/
  written : Nat := 0
  /-- 8 bits. CORRUPT, saturating (R345). Reset 0. -/
  corrupt : Nat := 0
  /-- PWR_TIME of the last export (R345 EXPORT_AGE). Reset: none, which reads 0xFFFF. -/
  lastExport : Option Nat := none
  /-- First sequence number not yet exported (R341). Reset 0. -/
  exportFrom : Nat := 0
  /-- The export area's records (R341). Manufacture: empty. -/
  exported : List WlRec := []
  /-- The exports in the area: offset of the chunk header, first sequence number and record count (R341). Manufacture: none. -/
  chunks : List (Nat × Nat × Nat) := []
  /-- Offset in the export area of the next export (R341). Manufacture 0. -/
  exportOff : Nat := 0
  deriving DecidableEq, Repr

/-! ## Fault collector -/

/-- One capture record (R257). -/
structure Capture where
  addr : Word := 0
  time : Nat := 0
  parent : BitVec 32 := 0
  master : MasterId := 0
  typ : Fin 16 := 0
  cls : Option FClass := none
  sticky : Bool := false
  present : Bool := false
  conseq : Bool := false
  escalated : Bool := false
  grace : Bool := false
  capnum : Nat := 0
  count : Nat := 0
  overflow : Nat := 0
  key : BitVec 8 := 0
  detail : BitVec 16 := 0
  /-- Length in ns of the running grace timer, read when it started (R262, R271). -/
  graceNs : Nat := 0
  deriving DecidableEq, Repr

/-- A reset in its shadow (R268): the unit, the fault ID of the capture that started it, the PWR_TIME of its start, and whether
it was reported done, or past its bound (R265). -/
structure Shadow where
  unit : MasterId
  parent : BitVec 32
  since : Nat
  done : Bool := false
  deriving DecidableEq, Repr

/-- The fault collector (R255 to R277). -/
structure Faults where
  /-- Capture records by master ID, canonical; unlisted is the empty record (R256, R257). -/
  recs : List (Nat × Capture) := []
  /-- 1 bit. CHIP_FATAL (R273). Reset 0. -/
  chipFatal : Bool := false
  /-- 8 bits. GRACE_EXPIRIES, saturating (R273). Reset 0. -/
  graceExpiries : Nat := 0
  /-- 16 bits. ESCALATIONS, saturating (R273). Reset 0. -/
  escalations : Nat := 0
  /-- 16 bits. SOURCE of CHP_FAULT_SEL (R274). Reset 0. -/
  sel : BitVec 16 := 0
  /-- 4 bits. KIND of CHP_FATAL (R276). Reset 0. -/
  fatalKind : Nat := 0
  /-- 32 bits. CAUSE of CHP_FATAL (R276). Reset 0. -/
  fatalCause : BitVec 32 := 0
  /-- Fault IDs of the captures whose reaction was a chip fatal: they cannot be acknowledged (R263, R266). Reset: none. -/
  fatalIds : List (BitVec 32) := []
  /-- 64 bits. Consequential faults, 0x5012 (R277). Reset 0. -/
  consequential : Nat := 0
  /-- Resets in their shadow (R268). Reset: none. -/
  shadows : List Shadow := []
  /-- The JTAG access port is disabled until TRST_N asserts (R265). Reset 0. -/
  jtagOff : Bool := false
  /-- F reactions that wait for a resume or a running reset, by unit (R267, R271). Reset: none. -/
  waiting : List Nat := []
  deriving DecidableEq, Repr

/-! ## Crews, Umpire and landings -/

/-- Crew states in the order of their codes (R242, R252). -/
inductive CrewSt where
  | off | loading | catchup | shadow | member | faulted | standby
  deriving DecidableEq, Repr

/-- An input of the control plane (R228, R229): its 64-bit sequence number, the PWR_TIME of its arrival, and the DRBG value the
Coxswain firmware had sent by then. -/
structure Input where
  seq : Nat
  stamp : Nat
  entropy : BitVec 64
  deriving DecidableEq, Repr

/-- One crew (R242, R252). -/
structure CrewUnit where
  /-- 3 bits. STATE (R252). Reset OFF. -/
  st : CrewSt := .off
  /-- 1 bit. IMAGE (R252). Reset 0. -/
  image : Fin 2 := 0
  /-- 2 bits. LOAD_FAILS (R252). Reset 0. -/
  loadFails : Nat := 0
  /-- PWR_TIMEs of the F-class captures of the last hour (FAULTS_1H, R252). Reset: none. -/
  faultTimes : List Nat := []
  /-- 8 bits. REJOINS, saturating (R252). Reset 0. -/
  rejoins : Nat := 0
  /-- The input queue, oldest first, of the inputs not yet processed: a ring of 65,536 entries (R228, INPUT_LAG of R252). A
  member and a crew in SHADOW process an input as it comes, but for a member that hands its state over (R245). Reset: empty. -/
  queue : List Input := []
  /-- The handover point H: the first input that reached the queue of a rejoining crew (R245). Reset 0. -/
  handover : Nat := 0
  /-- PWR_TIME by which the survivor has written its mirrored state into this rejoining crew; none: no copy runs (R245).
  Reset: none. -/
  copyEnd : Option Nat := none
  /-- 16 bits. FAULT_SOURCE (R252). Reset 0. -/
  faultSource : MasterId := 0
  /-- 16 bits. REJOIN_TIME in ms, saturating (R252). Reset 0. -/
  rejoinTime : Nat := 0
  /-- PWR_TIME of the release of reset of the load in progress (R246). Reset 0. -/
  releaseAt : Nat := 0
  /-- PWR_TIME OFF was entered from FAULTED (R243). Reset: none. -/
  offSince : Option Nat := none
  /-- Held in OFF (R243). Reset 0. -/
  held : Bool := false
  /-- 8 bits. Health score (R240). Reset 0. -/
  score : Nat := 0
  /-- PWR_TIME from which full seconds as a member count (R240). Reset 0. -/
  scoreSince : Nat := 0
  /-- Compared copies while in SHADOW (R243). Reset 0. -/
  compared : Nat := 0
  /-- PWR_TIME SHADOW was entered (R243). Reset 0. -/
  shadowSince : Nat := 0
  /-- Loaded and waiting: for the other crew of a start, or, in STANDBY, for the handover (R243, R411). Reset 0. -/
  waiting : Bool := false
  /-- Mirror digest of the last timer tick (R238). Reset 0. -/
  digest : BitVec 32 := 0
  /-- Sequence number and stamp of the input the crew processes (R228, R229). Reset 0, before the first input. -/
  input : Nat := 0
  stamp : Nat := 0
  /-- 64 bits. The DRBG value that came as the crew's last such input (R229). Reset 0, before the first. -/
  entropy : BitVec 64 := 0
  deriving DecidableEq, Repr

/-- A slot of a landing window or its history (R232). -/
structure WSlot where
  seq : Nat
  crew : Crew
  digest : BitVec 32
  closed : Bool
  /-- The second copy has been compared with it. -/
  paired : Bool
  /-- The command its executed copy carried. -/
  cmd : Landed
  deriving DecidableEq, Repr

/-- One stream of a landing (R232): base B and the slots from B − 64 to B + 63 in use. -/
structure StreamSt where
  base : Nat := 0
  slots : List WSlot := []
  deriving DecidableEq, Repr

/-- A copy waiting at its sender's crossbar port (R232). -/
structure Copy where
  crew : Crew
  landing : Landing
  stream : Stream
  seq : BitVec 32
  digest : BitVec 32
  cmd : Landed
  /-- Sent by the crew's coxswain core, not by a crew core (R230). -/
  coxCore : Bool
  /-- Sent in SHADOW: it is compared and never executes (R236). -/
  shadow : Bool
  deriving DecidableEq, Repr

/-- One landing (R231, R253). -/
structure LandingSt where
  /-- 8 bits. DIVERGENCES, saturating (R253). Reset 0. -/
  divergences : Nat := 0
  /-- 8 bits. PAIR_TIMEOUTS, saturating (R253). Reset 0. -/
  pairTimeouts : Nat := 0
  /-- 16 bits. LATE_DISCARDS, saturating (R253). Reset 0. -/
  late : Nat := 0
  /-- 16 bits. STROKE_LATE, saturating (R253). Reset 0. -/
  strokeLate : Nat := 0
  /-- 8 bits. DUPLICATES, saturating (R253). Reset 0. -/
  duplicates : Nat := 0
  /-- Streams by number (a coxswain stream is 64 above its own), canonical (R232). Reset: base 0. -/
  streams : List (Nat × StreamSt) := []
  deriving DecidableEq, Repr

/-- The crews and the Umpire (R228 to R254). -/
structure Crews where
  bow : CrewUnit := {}
  stroke : CrewUnit := {}
  /-- 8 bits. SEAT (R251). Reset 0x00. -/
  seat : Byte := 0
  /-- 16 bits. SWITCHES, saturating (R251). Reset 0. -/
  switches : Nat := 0
  /-- 8 bits. ARBITRATIONS, saturating (R251). Reset 0. -/
  arbitrations : Nat := 0
  /-- 64 bits. Next input sequence number of the input fan (R228). Reset 0. -/
  inputSeq : Nat := 0
  /-- The landings (R231). Reset: counters 0, no stream used. -/
  host : LandingSt := {}
  mem : LandingSt := {}
  fls : LandingSt := {}
  pwr : LandingSt := {}
  ldg : LandingSt := {}
  /-- Copies waiting at a crossbar port (R232). Reset: none. -/
  waiting : List Copy := []
  /-- Copies in the lag buffer of the port of the member without the seat, in order, each with the PWR_TIME at which its
  pairing lag ends (R234). Reset: none. -/
  lagBuf : List (Nat × Copy) := []
  /-- Both crews load together at a start from DARK (R243). Reset 0. -/
  startLoad : Bool := false
  /-- The next seat request is that of the coxswain which lost the decision of this XCLK cycle (R241). Reset 0. -/
  rival : Bool := false
  deriving DecidableEq, Repr

/-! ## Sequencer, boot, freeze -/

/-- Sequencer states, by number (R285). -/
inductive SeqSt where
  | dark | aux | core | memory | flash | link | online
  deriving DecidableEq, Repr

/-- DIR of PWR_SEQ_STATUS (R300). -/
inductive SeqDir where
  | steady | up | down | cut
  deriving DecidableEq, Repr

/-- Phases of a rail (R280). -/
inductive RailPhase where
  | off | rising | on | falling
  deriving DecidableEq, Repr

/-- Six counters of a rail (R299): ups, UV warnings, OV warnings, faults, fail-to-rise, fail-to-fall. -/
structure RailCounts where
  ups : Nat := 0
  uv : Nat := 0
  ov : Nat := 0
  faults : Nat := 0
  noRise : Nat := 0
  noFall : Nat := 0
  deriving DecidableEq, Repr

/-- One rail (R278 to R281, R299, R302). -/
structure Rail where
  /-- Phase; RAIL_EN is high while RISING or ON (R278, R280). Reset OFF. -/
  phase : RailPhase := .off
  /-- 1 bit. PGOOD level (R301). Reset 0. -/
  pgood : Bool := false
  /-- 1 bit. WARN (R301). Reset 0. -/
  warn : Bool := false
  /-- 1 bit. FAULT (R301). Reset 0. -/
  fault : Bool := false
  /-- 16 bits. MV (R302). Reset 0. -/
  mv : Nat := 0
  /-- 12 bits. CODE (R302). Reset 0. -/
  code : BitVec 12 := 0
  /-- 16 bits, RC. MAX_MV (R302). Reset 0. -/
  maxMv : Nat := 0
  /-- 16 bits, RC. MIN_MV (R302). Reset 0xFFFF. -/
  minMv : Nat := 0xFFFF
  /-- Always-on counts (R299). Reset 0. -/
  counts : RailCounts := {}
  /-- Ledger copy (R299). Manufacture 0. -/
  ledger : RailCounts := {}
  deriving DecidableEq, Repr

/-- Progress of a clean shutdown (R292). -/
inductive Shutdown where
  | none | waiting | draining | checkpointed
  deriving DecidableEq, Repr

/-- A fault cut (R284, R297): its PWR_TIME, the rails that were not OFF just before, with 1 for those ON, and whether it set
the latch. -/
structure CutMark where
  time : Nat
  rails : List (Nat × Bool)
  latches : Bool
  deriving DecidableEq, Repr

/-- The sequencer (R278 to R303). -/
structure Seq where
  /-- 3 bits. STATE (R300). Reset DARK. -/
  st : SeqSt := .dark
  /-- 2 bits. DIR (R300). Reset steady. -/
  dir : SeqDir := .steady
  /-- 1 bit. LATCHED (R300). Reset 0. -/
  latched : Bool := false
  /-- 3 bits. LATCH_CAUSE (R300). Reset 0. -/
  latchCause : Nat := 0
  /-- 4 bits. LATCH_RAIL (R300). Reset 0. -/
  latchRail : Nat := 0
  /-- 1 bit. HOLD_AUX (R300). Reset 0. -/
  holdAux : Bool := false
  /-- VIN_SENSE has fallen since HOLD_AUX was set (R293). Reset 0. -/
  holdVinFell : Bool := false
  /-- 1 bit. ON_PENDING (R300). Reset 0. -/
  onPending : Bool := false
  /-- An on command is pending in AUX or DARK (R286). Reset 0. -/
  onCommand : Bool := false
  /-- 1 bit. MAIN_OK (R300). Reset 0. -/
  mainOk : Bool := false
  /-- PWR_TIME since which VIN_SENSE is above its threshold (R286, R449). Reset: none. -/
  mainSince : Option Nat := none
  /-- 1 bit. CATCH_IN (R300). Reset 0. -/
  catchIn : Bool := false
  /-- 1 bit. CATCH_DRIVE (R300). Reset 0. -/
  catchDrive : Bool := false
  /-- 8 bits. RESYNCS, saturating (R300). Reset 0. -/
  resyncs : Nat := 0
  /-- 8 bits. CATCH_GLITCHES, saturating (R300). Reset 0. -/
  glitches : Nat := 0
  /-- PWR_TIME the current state started (STATE_TIME, R300). Reset 0. -/
  stateStart : Nat := 0
  /-- The current state's power-up is complete (R285). Reset 0. -/
  complete : Bool := false
  /-- CORE waits for its lane stagger (R290). Reset 0. -/
  staggering : Bool := false
  /-- Target of the power-down in progress; DARK or AUX (R287). Reset DARK. -/
  target : SeqSt := .dark
  /-- 16 rails. Reset OFF. -/
  rails : List Rail := List.replicate 16 {}
  /-- Rail configuration in force since the last power-up from AUX (R279). -/
  railCfg : List RailCfg := RailCfg.reference
  /-- Rail enable mask in force (R303). Reset 0xFFFF. -/
  mask : BitVec 16 := 0xFFFF
  /-- Rails in the order they were enabled (R287 reverse order). Reset: none. -/
  enabled : List Nat := []
  /-- A failure to rise disables the rails one by one (R287). Reset 0. -/
  reversing : Bool := false
  /-- MRST_N asserted (R298). Reset 1. -/
  mrst : Bool := true
  /-- FRST_N asserted (R298). Reset 1. -/
  frst : Bool := true
  /-- The stretch of MRST_N runs (R298). Reset 0. -/
  mrstStretch : Bool := false
  /-- The stretch of FRST_N runs (R298). Reset 0. -/
  frstStretch : Bool := false
  /-- BATSW_N asserted (R140). Reset 0. -/
  batsw : Bool := false
  /-- The device drives PWRFAIL_N low (R133). Reset 0. -/
  pwrfailDrive : Bool := false
  /-- VDD_AON is valid (R486). Reset 0. -/
  vddAon : Bool := false
  /-- PWR_TIME DARK was entered (R287). Reset 0. -/
  darkSince : Nat := 0
  /-- Evaluation of undervoltage has resumed 1 ms after BATSW_N asserted (R283). Reset 0. -/
  evalOn : Bool := false
  /-- The last fault cut (R297). Reset: none. -/
  cutMark : Option CutMark := none
  /-- The LEDGER_HOLD rail still holds after a cut, for the last gasp (R150, R284). Reset 0. -/
  ledgerHold : Bool := false
  /-- Clean shutdown in progress (R292). Reset: none. -/
  shutdown : Shutdown := .none
  /-- CATCH is driven for the 10 us pulse of a device that became ready alone (R288). Reset 0. -/
  catchPulse : Bool := false
  /-- The 100 ms without main power in AUX have passed (R288). Reset 0. -/
  mainAbsent : Bool := false
  /-- The wait of R289 has been recorded in this state. Reset 0. -/
  waitRecorded : Bool := false
  deriving DecidableEq, Repr

/-- Start-up (R430 to R445). -/
structure Boot where
  /-- 6 bits. LANE as sampled (R432). Reset 0. -/
  lane : BitVec 6 := 0
  /-- 1 bit. HEADMODE as sampled (R432). Reset 0. -/
  headmode : Bool := false
  /-- 1 bit. BOATHOUSE as sampled (R432). Reset 0. -/
  boathouse : Bool := false
  /-- 1 bit. TESTMODE as sampled (R432). Reset 0. -/
  testmode : Bool := false
  /-- 1 bit. DIFFERS (R432). Reset 0. -/
  differs : Bool := false
  /-- The straps have been sampled at this entry to AUX (R431). Reset 0. -/
  sampled : Bool := false
  /-- 1 bit. PROFILE_OK (R445). Reset 0. -/
  profileOk : Bool := false
  /-- 1 bit. PROFILE_COPY (R445). Reset 0. -/
  profileCopy : Fin 2 := 0
  /-- 2 bits. BOOTCFG (R445). Reset 0. -/
  bootcfg : Nat := 0
  /-- 2 bits. SETTINGS (R445). Reset 0. -/
  settings : Nat := 0
  /-- 1 bit. LATCH_REC (R445). Reset 0. -/
  latchRec : Bool := false
  /-- 2 bits. FAILED_BOOTS as read (R445). Reset 0. -/
  failedRead : Nat := 0
  /-- 4 bits. STAGE (R445). Reset 0. -/
  stage : Nat := 0
  /-- 32 bits. CORE_TIME in us, saturating (R445). Reset 0. -/
  coreTime : Nat := 0
  /-- PWR_TIME of AUX entry (R445). Reset 0. -/
  auxEntry : Nat := 0
  /-- The device runs in Boathouse mode (R417). Reset 0. -/
  inBoathouse : Bool := false
  /-- Latch record in serial memory: set, cause, rail (R439). Manufacture: clear. -/
  latchSaved : Bool := false
  latchSavedCause : Nat := 0
  latchSavedRail : Nat := 0
  /-- PWR_TIME and sequence number of the page that holds it (R439). Manufacture: none. -/
  latchPage : Option (Nat × Nat) := none
  /-- Bytes of the serial memory that crew and coxswain cores wrote over the crossbar (R393, R434), canonical by offset.
  Manufacture: none. -/
  serial : List Host.Cell := []
  /-- Consecutive failed boots in the boot config, 0x7008 (R435). Manufacture 0. -/
  failedBoots : Nat := 0
  deriving DecidableEq, Repr

/-- Freeze and JTAG (R458 to R469). -/
structure Freeze where
  /-- 1 bit. HOLD_PIN (R469). Reset 0. -/
  pin : Bool := false
  /-- 1 bit. HOLD_OD (R469). Reset 0. -/
  od : Bool := false
  /-- 1 bit. HOLD_JTAG (R469). Reset 0. -/
  jtag : Bool := false
  /-- 1 bit, W1C. LOSS_HELD (R469). Reset 0. -/
  lossHeld : Bool := false
  /-- PHASE is frozen (R469); entering and resuming pass inside one command. Reset 0. -/
  frozen : Bool := false
  /-- A freeze waits for the end of a block reset (R459). Reset 0. -/
  waiting : Bool := false
  /-- 16 bits. FREEZES, saturating (R469). Reset 0. -/
  freezes : Nat := 0
  /-- PWR_TIME the freeze was entered (R469 FROZEN_TIME). Reset 0. -/
  since : Nat := 0
  /-- 32 bits. Duration of the last freeze in ms, saturating (R469). Reset 0. -/
  lastMs : Nat := 0
  /-- 8 bits. JTAG instruction register (R463). Reset: DESIGN CHOICE IDCODE 0x01 (log 5). -/
  ir : Byte := 1
  /-- 8 bits. Freeze chain selected (R463). Reset: DESIGN CHOICE 0 (log 5). -/
  chain : BitVec 8 := 0
  /-- The copy of the live state that the shadow chains hold, counted from the first freeze (R464; log 92). Reset 0. -/
  shadow : Nat := 0
  /-- 64 bits. Data of the last LEDGER_ACCESS read, shifted out at the next Capture-DR (R465). -/
  ledgerData : Word := 0
  /-- TRST_N holds the TAP in Test-Logic-Reset (R483). Reset 0. -/
  trst : Bool := false
  deriving DecidableEq, Repr

/-! ## Gauge -/

/-- Contents of one string's block of a gauge record (R322). -/
structure GaugeBlock where
  st : StrState := .absent
  learned : Bool := false
  s : Nat := 0
  u : Nat := 0
  learnedMah : Nat := 0
  rhoQ16 : Nat := 0
  charge : Int := 0
  anchor : Int := 0
  learn : Int := 0
  fitted : Int := 0
  deriving DecidableEq, Repr

/-- A gauge record (R322). -/
structure GaugeRec where
  packid : Nat := 0
  seq : Nat := 0
  time : Nat := 0
  a : GaugeBlock := {}
  b : GaugeBlock := {}
  deriving DecidableEq, Repr

/-- One battery string (R304 to R331). -/
structure BatString where
  /-- Latest sample (R326). Reset 0. -/
  sample : Sample := { mv := 0, current := 0, temp := 0, ntcOhm := 0 }
  /-- 1 bit. NTC_OPEN (R326). Reset 0. -/
  ntcOpen : Bool := false
  /-- 1 bit. NTC_SHORT (R326). Reset 0. -/
  ntcShort : Bool := false
  /-- Consecutive open samples, at most 3 (R306). Reset 0. -/
  openCount : Nat := 0
  /-- 3 bits. STATE (R327). Reset ABSENT. -/
  st : StrState := .absent
  /-- 3 bits. REASON (R327). Reset none. -/
  reason : StrReason := .none
  /-- Failure reasons that hold (R308). Reset: none. -/
  reasons : List StrReason := []
  /-- 1 bit, W1C. CHANGED (R327). Reset 0. -/
  changed : Bool := false
  /-- 1 bit. REST (R327). Reset 0. -/
  rest : Bool := false
  /-- 1 bit. CHARGING (R327); CHG_EN_x (R321, R329). Reset 0. -/
  charging : Bool := false
  /-- 1 bit. PAUSED (R327). Reset 0. -/
  paused : Bool := false
  /-- 1 bit. FULL (R327). Reset 0. -/
  full : Bool := false
  /-- 14 bits. REST_TIME in s, saturating (R327), kept in ns. Reset 0. -/
  restNs : Nat := 0
  /-- 16 bits. REST_V in mV (R327). Reset 0. -/
  restV : Nat := 0
  /-- 64 bits, signed. CHARGE in uC (R328), kept in 0.1 uC so that no sample is rounded. Reset 0. -/
  chargeTenth : Int := 0
  /-- State of charge s in percent (R312). Reset 0. -/
  s : Rat := 0
  /-- Uncertainty u in percent (R312). Reset: DESIGN CHOICE 100 (log 5). -/
  u : Rat := 100
  /-- s is known (R312). Reset 0. -/
  known : Bool := false
  /-- Learned capacity in mAh; none if not learned since fitting (R314). Reset: none. -/
  learned : Option Nat := none
  /-- Fade at the learn before the last, with its PWR_TIME (R427). Reset: none. -/
  prevLearn : Option (Nat × Int) := none
  /-- Fade rate in percent per day set by the planner (R427). Reset: none. -/
  fadeRate : Option Rat := none
  /-- Resistance ratio rho (R316). Reset: unset. -/
  rho : Option Rat := none
  /-- PWR_TIME of the last current step measured (R316). Reset 0. -/
  rhoTime : Int := 0
  /-- PWR_TIME of the last re-anchoring (R330). Reset 0. -/
  anchor : Int := 0
  /-- PWR_TIME of the last learn; none if none (R330). Reset: none. -/
  learn : Option Int := none
  /-- PWR_TIME of fitting (R322). Reset 0. -/
  fitted : Int := 0
  /-- What a learn's result replaced, until the full flag that ends the learn takes it: the learned capacity, the time of the
  last learn, the learn before and the fade rate (R309, R319). Reset: none. -/
  undo : Option (Option Nat × Option Int × Option (Nat × Int) × Option Rat) := none
  /-- Presence has been detected since VDD_AON power-on (R309, R323). Reset 0. -/
  detected : Bool := false
  /-- A pack change since VDD_AON power-on that no record carries yet (R323, R324). Reset 0. -/
  refit : Bool := false
  /-- The next rest is the insertion rest of a pack change (R312). Reset 1. -/
  insertion : Bool := true
  /-- PWR_TIME and accumulator of the last full flag (R318, R321). Reset: none. -/
  fullAt : Option (Int × Int) := none
  /-- The learner has reached its empty flag (R309). Reset 0. -/
  emptied : Bool := false
  /-- Reverse mode on: REVERSE_x (R329). Reset 0. -/
  reverse : Bool := false
  /-- 1 bit. PAUSE_x (R329). Reset 0. -/
  pause : Bool := false
  /-- 8 bits. ISET_x (R329). Reset 0. -/
  iset : Byte := 0
  /-- Reverse-off entries failed and are retried every 10 s (R387). Reset 0. -/
  offFailed : Bool := false
  /-- The temperature left the charge range and is not yet 2 degrees inside (R321). Reset 0. -/
  chargeTempOut : Bool := false
  /-- PWR_TIME before which no forced rest is tried again (R313). Reset 0. -/
  retryAt : Int := 0
  /-- PWR_TIME before which an aborted learn does not fall due again (R319). Reset 0. -/
  learnAt : Int := 0
  /-- Consecutive samples, in ms, whose thermistor reads within range, at most 1,000 (R308). Reset 0. -/
  ntcOkMs : Nat := 0
  /-- Accumulator in 0.1 uC, and PWR_TIME, of the crews' last estimate (R323, R325). Reset 0. -/
  estTenth : Int := 0
  estTime : Int := 0
  deriving DecidableEq, Repr

/-- The gauge (R304 to R331). -/
structure Gauge where
  a : BatString := {}
  b : BatString := {}
  /-- 4 bits. PACKID code in force; none while none is taken (R329). Reset: none, reads 0. -/
  packid : Option Nat := none
  /-- 1 bit. PACKID_OPEN (R329). Reset 0. -/
  packOpen : Bool := false
  /-- Last PACKID reading (code; 16 is open) and how many agree, at most 3 (R305). Reset: none. -/
  reading : Nat × Nat := (0, 0)
  /-- Descriptor in force (R310). Reset: none. -/
  desc : Option PackDescriptor := none
  /-- Gauge record slots 0 and 1 in serial memory (R322). Manufacture: erased. -/
  slot0 : Option GaugeRec := none
  slot1 : Option GaugeRec := none
  /-- Ledger copy of the record (R322). Manufacture: none. -/
  ledgerRec : Option GaugeRec := none
  /-- The crews have taken up the record at this start (R323). Reset 0. -/
  takenUp : Bool := false
  /-- VDD_AON has been present since the newest record was written (R323). Reset 0. -/
  sinceRecord : Bool := false
  deriving DecidableEq, Repr

/-! ## Object dictionary -/

/-- RWS entries of the settings area and the board profile, at their defaults (R355, R367). -/
structure Settings where
  ownerCapMiB : Nat := 2093056
  floorLimitMiB : Nat := 16384
  margin : Nat := 7
  hotHoldMs : Nat := 2000
  sprintPolicy : Nat := 0
  hotOverride : Nat := 12
  sprintStart : Nat := 90
  sprintStop : Nat := 75
  checkpointS : Nat := 10
  tCapS : Nat := 20
  sagMv : Nat := 200
  restoreMode : Nat := 0
  head0Units : Nat := 4088
  scrubH : Nat := 24
  designYears : Nat := 5
  patrolDays : Nat := 30
  darkMs : Nat := 100
  staggerMs : Nat := 2
  railMask : Nat := 0xFFFF
  autoOn : Nat := 1
  restMa : Nat := 5
  restMin : Nat := 30
  forcedRestH : Nat := 72
  learnDays : Nat := 30
  graceMs : Nat := 1
  snapshots : List (Nat × List Nat) := []
  mgmtProto : Nat := 0
  mgmtKhz : Nat := 100
  serviceMs : Nat := 2
  localKhz : Nat := 400
  ownerLock : Nat := 0
  label : Nat := 0
  members : Nat := 1
  freezePolicy : Nat := 0
  deriving DecidableEq, Repr

/-- The reference board profile's charger command list (R387), 36 bytes. -/
def chargerReference : List Byte :=
  [1, 0, 4, 0, 1, 0x6A, 2, 0x3C, 1, 0, 1, 0, 2, 0x6A, 2, 0x3C, 0, 0, 1, 0,
   3, 0x6B, 2, 0x3C, 1, 0, 1, 0, 4, 0x6B, 2, 0x3C, 0, 0, 1, 0]

/-- A segmented write in progress (R63). -/
structure SegWrite where
  index : Nat
  sub : Nat
  bytes : List Byte
  deriving DecidableEq, Repr

/-- A consistent view (R357): the view point's index and the bytes of each (index, subindex). -/
structure View where
  point : Nat
  values : List ((Nat × Nat) × List Byte)
  deriving DecidableEq, Repr

/-- An OD session with state (R356); `key` numbers its requester. -/
structure Session where
  key : Nat
  last : Nat
  seg : Option SegWrite := none
  view : Option View := none
  deriving DecidableEq, Repr

/-- A record of a settings or board-profile copy: index, subindex, type code, value (R437). -/
structure SettingRec where
  index : Nat
  sub : Nat
  typ : Nat
  value : List Byte
  deriving DecidableEq, Repr

/-- The object dictionary's own state (R348 to R369). -/
structure Od where
  /-- Settings in force (R355). Manufacture: the defaults of R367. -/
  set : Settings := {}
  /-- The frozen copy of a trial (R413). Manufacture: none. -/
  frozen : Option Settings := none
  /-- Rail configuration stored in the board profile (R279). Manufacture: the reference. -/
  railCfg : List RailCfg := RailCfg.reference
  /-- Reset outputs stored in the board profile, 0x3300 (R298). -/
  mrstState : Nat := 3
  mrstMs : Nat := 5
  frstState : Nat := 4
  frstMs : Nat := 5
  /-- Charger command list, 0x6006 (R387). Manufacture: the reference list. -/
  charger : List Byte := chargerReference
  /-- Sessions holding state, least recently used first, at most 8 (R356). Reset: none. -/
  sessions : List Session := []
  /-- State that ended: session number and the entry whose view or segmented write it was (R356). Reset: none. -/
  ended : List (Nat × Nat) := []
  /-- Bytes used in the active settings copy of 262,144 (R355). Manufacture 32, its header (R437). -/
  used : Nat := 32
  /-- Bytes used in the frozen copy of a trial (R413). Manufacture 32. -/
  frozenUsed : Nat := 32
  /-- Records of the settings copy in force, in order (R437). Manufacture: none. -/
  records : List SettingRec := []
  /-- Records of the frozen copy (R413, R437). Manufacture: none. -/
  frozenRecords : List SettingRec := []
  /-- Sequence number of the copy in force; copies 0 and 1 take turns (R437). Manufacture 0. -/
  copySeq : Nat := 0
  /-- Records that requests have appended to the board profile (R355, R438). Manufacture: none. -/
  boardRecords : List SettingRec := []
  /-- A compaction runs (R355). Reset 0. -/
  compacting : Bool := false
  /-- The trial image's working copy is being written: RWS writes return BUSY (R413). Reset 0. -/
  workingCopy : Bool := false
  /-- Snapshot lists superseded but still in force: class, list, PWR_TIME until which they apply, oldest first
  (R335). Reset: none. -/
  pendingLists : List (Nat × List Nat × Nat) := []
  deriving DecidableEq, Repr

/-! ## Two-wire ports -/

/-- STATE of a port (R391), in the order of its codes. -/
inductive PortSt where
  | idle | target | controller | busCall | hangRecovery | waiting | portReset
  deriving DecidableEq, Repr

/-- One two-wire port (R370 to R391). -/
structure BusPort where
  /-- 3 bits. STATE (R391). Reset idle. -/
  st : PortSt := .idle
  /-- 1 bit. MODE in force: true is I2C (R391). Reset 0. -/
  i2c : Bool := false
  /-- Controller clock in force, kHz (R372). Reset: 100 MGMT (0x6003), 400 LOCAL (0x6005). -/
  khz : Nat := 100
  /-- 8 bits. EID, with EID_VALID (R391). Reset: not valid. -/
  eid : Option Nat := none
  /-- 7 bits. PEER (R391). Reset 0. -/
  peer : BitVec 7 := 0
  /-- 4 bits. ATTENTION (R391). Reset 0. -/
  attention : BitVec 4 := 0
  /-- 1 bit. CALL_PENDING (R391). Reset 0. -/
  callPending : Bool := false
  /-- ALERT_N asserted (R381). Reset 0. -/
  alert : Bool := false
  /-- 4 bits. LAST_ERROR (R391). Reset 0. -/
  lastError : Nat := 0
  /-- 7 bits. ADDRESS (R391). Reset 0. -/
  address : BitVec 7 := 0
  /-- Counters of R389, 32 bits, saturating. Reset 0. -/
  errors : Nat := 0
  losses : Nat := 0
  hangs : Nat := 0
  aborts : Nat := 0
  calls : Nat := 0
  notifies : Nat := 0
  /-- Consecutive losses of the transaction in progress (R377). Reset 0. -/
  lossRun : Nat := 0
  /-- Failed hang recoveries in a row, at most 3 (R379). Reset 0. -/
  hangRun : Nat := 0
  /-- The transaction in progress has been retried (R376). Reset 0. -/
  retried : Bool := false
  /-- The pending call has been made (R380). Reset 0. -/
  called : Bool := false
  /-- Host Notify has been sent for the pending call, or its interval has passed once (R382). Reset 0. -/
  notified : Bool := false
  /-- Interval of the pending call in ns (R382). Reset 0. -/
  interval : Nat := 0
  deriving DecidableEq, Repr

/-- A message being assembled (R385). -/
structure Assembly where
  src : Nat
  last : Nat
  nextSeq : Fin 4
  bytes : List Byte
  deriving DecidableEq, Repr

/-- The last request executed for an endpoint (R362, R383): instance ID, source address and tag, opcode, and the
response sent; empty while the request runs. -/
structure McReq where
  src : Nat
  inst : Nat
  addr : BitVec 7
  tag : Fin 8
  opcode : Nat
  resp : List Byte
  deriving DecidableEq, Repr

/-- A whole message that waits while another request of its endpoint runs (R362). -/
structure McMsg where
  src : Nat
  addr : BitVec 7
  tag : Fin 8
  bytes : List Byte
  deriving DecidableEq, Repr

/-- The two-wire bus (R370 to R391). -/
structure Bus where
  mgmt : BusPort := {}
  lcl : BusPort := { khz := 400 }
  /-- Messages being assembled, by source endpoint (R385). Reset: none. -/
  assembly : List Assembly := []
  /-- What bits [2:1] of the status byte last followed: strings COUNTED, Health Status, Media Status (R374).
  Reset: none seen. -/
  seen : Option (Nat × Nat × Nat) := none
  /-- Last request of each endpoint and its response (R362). Reset: none. -/
  reqs : List McReq := []
  /-- Messages that wait while another request of their endpoint runs, one for each (R362). Reset: none. -/
  waiting : List McMsg := []
  deriving DecidableEq, Repr

/-! ## Update, planner, outputs -/

/-- A coxswain patch: its version, and its length in bytes (R399, R436). -/
structure Patch where
  version : Nat
  len : Nat
  deriving DecidableEq, Repr

/-- Header fields of an image in a slot (R398). -/
structure ImageInfo where
  version : List Byte
  security : Nat
  schema : BitVec 16
  handover : Nat
  low : Nat
  high : Nat
  verifies : Bool
  /-- Its coxswain patch; none of an image that runs the ROM alone (0x1005, R399). -/
  patch : Option Patch := none
  deriving DecidableEq, Repr

/-- The open update session (R403 to R405, 0x7001). -/
structure UpdSession where
  id : Nat
  transport : Nat
  endpoint : Nat
  length : Nat
  ranges : List (Nat × Nat)
  last : Nat
  /-- The secured session that carries it (R404). -/
  secured : Option Nat
  /-- PWR_TIME of the Open, when the erase of the slot began (R403). -/
  opened : Nat
  /-- The slot it writes (R401, R418). -/
  slot : Fin 2
  deriving DecidableEq, Repr

/-- Where an update or fall-back stands (R411, R416). -/
inductive UpdStage where
  | idle | verifying | loadingX | handedOver | waitMembers
  deriving DecidableEq, Repr

/-- Firmware, trust and update (R392 to R420). -/
structure Update where
  session : Option UpdSession := none
  /-- 16 bits. Last session ID given (R403). Reset 0. -/
  lastId : Nat := 0
  /-- Slots A and B (R401). Manufacture: A holds the running image, B is empty. -/
  slotA : Option ImageInfo := none
  slotB : Option ImageInfo := none
  /-- 0x7003, active slot (R401). Manufacture: DESIGN CHOICE A (log 5). -/
  active : Fin 2 := 0
  /-- 0x7004: 0 none, 1 trial running, 2 fell back (R367). Manufacture 0. -/
  trial : Nat := 0
  /-- Repechage slot (R401). Manufacture 0. -/
  repechage : Fin 2 := 0
  /-- Trial time in ONLINE, seconds (R435). Manufacture 0. -/
  trialS : Nat := 0
  /-- PWR_TIME from which trial time is not yet counted in it (R435). Reset 0. -/
  trialMark : Nat := 0
  /-- Sequence number of the boot-config copy in force; the copies are rewritten in turn (R401, R435). Manufacture 0. -/
  bootSeq : Nat := 0
  /-- The patch areas of slots A and B (R436). Manufacture: empty. -/
  patchA : Option Patch := none
  patchB : Option Patch := none
  /-- Minimum security version in the boot config (R401). Manufacture 0. -/
  minSecurity : Nat := 0
  /-- Requester of the Commit in progress (R66). Reset: none. -/
  committer : Option Path := none
  /-- Stage of an activation (R411). Reset idle. -/
  stage : UpdStage := .idle
  /-- Crew X of the activation (R411). Reset Bow. -/
  crewX : Crew := .bow
  /-- The activation is a fall-back (R416). Reset 0. -/
  fallback : Bool := false
  /-- Slot of the incoming image (R411). Reset 0. -/
  incoming : Fin 2 := 0
  /-- The trial has had a failed boot or a chip fatal (R402). Manufacture 0. -/
  trialFailed : Bool := false
  /-- Cause of the trial's last failure, as the record of a fall-back gives it (R414, R420). Reset 0. -/
  failCause : Nat := 0
  /-- Owner certificate chain of SPDM slot 7 (R397). Manufacture: empty. -/
  owner : List Byte := []
  /-- Open secured SPDM sessions: id and whether it carries O (R354). Reset: none. -/
  secured : List (Nat × Bool) := []
  /-- Coxswain key store (R395): the number of the device identity key. Manufacture: DESIGN CHOICE 0 (log 79). -/
  identityKey : Nat := 0
  /-- Coxswain key store (R395): the number of the device key that wraps the media key. Manufacture: DESIGN CHOICE 0
  (log 79). -/
  deviceKey : Nat := 0
  /-- Coxswain key store (R395): the SHA-384 hashes of up to 4 image-signing keys, by number, each with its revocation bit.
  Manufacture: DESIGN CHOICE key 0, not revoked (log 79). -/
  imageKeys : List (Nat × Bool) := [(0, false)]
  /-- DRBG state (R395): how many values it has given. Seeded at each coxswain start; DESIGN CHOICE 0 (log 79). -/
  drbg : Nat := 0
  /-- Numbers of the IDE keys in force by stream, for CXL.io and for CXL.mem (R31, R59). Reset: none. -/
  ideIo : List (Nat × Nat) := []
  ideMem : List (Nat × Nat) := []
  deriving DecidableEq, Repr

/-- The margin planner (R421 to R429). -/
structure Planner where
  /-- 1 bit. RUNNING (R429). Reset 0. -/
  running : Bool := false
  /-- 1 bit. RAMP (R429). Reset 0. -/
  ramp : Bool := false
  /-- 4 bits. PENDING: timer, temperature, request, start (R429). Reset 0. -/
  pending : BitVec 4 := 0
  /-- 8 bits. CLAMPS, saturating (R429). Reset 0. -/
  clamps : Nat := 0
  /-- 16 bits. PLANS, saturating (R429). Reset 0. -/
  plans : Nat := 0
  /-- 16 bits. TARGET_MV (R429). Reset 0x02EE. -/
  target : Nat := 750
  /-- Voltage last commanded (R424). Reset 750. -/
  voltage : Nat := 750
  /-- Where steps of at most 25 mV take the target (R425). Reset 750. -/
  goal : Nat := 750
  /-- The target before the one in force: the other end of its ramp (R424). Reset 750. -/
  old : Nat := 750
  /-- PWR_TIME of the last core-voltage step (R424). Reset: none. -/
  stepAt : Option Nat := none
  /-- The start trigger of this start has come (R422). Reset 0. -/
  startCame : Bool := false
  /-- 16 bits. DERATE (R429). Reset 0. -/
  derate : Nat := 0
  /-- Lowest slack of each Ergometer since the last plan, 0x8001 (R421). Reset: none read, which shows 0. -/
  slack : List (Option Int) := List.replicate 28 none
  /-- Latest drift of each Ergometer, 0x8002 (R421). Reset 0. -/
  drift : List Int := List.replicate 28 0
  /-- Ergometers that passed their parity check at the last measurement (R421). -/
  parity : List Bool := List.replicate 28 true
  /-- Words 0 to 11 of the plan that runs (R428). Reset: none. -/
  draft : List Word := []
  /-- 0x8004, words 0 to 11 of the last plan (R428). Manufacture: length 0. -/
  last : List Word := []
  /-- Plan sequence number (R428). Manufacture 0. -/
  seq : Nat := 0
  /-- Die temperature at the last plan (R422). Reset: DESIGN CHOICE 25 (log 5). -/
  tempC : Int := 25
  /-- PWR_TIME of the last plan (R422). Reset 0. -/
  time : Nat := 0
  /-- The device's age (log 98) at which the timer trigger falls due (R422, R424). Reset 0. -/
  dueAt : Nat := 0
  deriving DecidableEq, Repr

/-- Return codes of a CXL mailbox command (R31, R55, R61, R66). `refused` stands for the codes of CXL 3.1 that the spec does
not name (log 46). -/
inductive MboxCode where
  | success | started | busy | unsupported | invalidLength | refused
  deriving DecidableEq, Repr

/-- What the device sends out. -/
inductive Response where
  /-- Data of a CXL.mem read with its poison mark (R74). -/
  | read (head : Fin 2) (id : Nat) (data : Line) (poison : Bool)
  /-- Completion of a CXL.mem write (R30). -/
  | complete (head : Fin 2) (id : Nat)
  /-- Acknowledgement of a GPF phase (R52). -/
  | gpfAck (head : Fin 2) (phase : Nat)
  /-- Status byte and bytes of a vendor command (R61 to R67), to its requester. -/
  | od (p : Path) (status : Nat) (bytes : List Byte)
  /-- Return code and bytes of a CXL mailbox command. -/
  | mailbox (head : Fin 2) (code : MboxCode) (bytes : List Byte)
  /-- Request Retry Status, to a configuration request before the Host region is ready (R34). -/
  | configRetry (head : Fin 2)
  /-- A CDAT response over DOE (R38). -/
  | doe (head : Fin 2) (bytes : List Byte)
  /-- A vendor-defined MCTP response: address, endpoint and tag it goes to, and its bytes (R361, R383). -/
  | mctp (addr : BitVec 7) (dst : Nat) (tag : Fin 8) (bytes : List Byte)
  /-- Response to an MCTP control message (R384). -/
  | control (bytes : List Byte)
  /-- An SPDM response, or an SPDM error (R396, R397). -/
  | spdm (p : Path) (ok : Bool) (bytes : List Byte)
  /-- A register's value. -/
  | reg (value : Word)
  /-- Bits shifted out on TDO (R463). -/
  | jtag (width bits : Nat)
  /-- A byte returned on a two-wire port (R374, R381). -/
  | wire (port : Port) (b : Byte)
  /-- SMBus Host Notify: status byte and lane (R382). -/
  | notify (status lane : Nat)
  deriving DecidableEq, Repr

/-- Outputs of the device. -/
structure Out where
  /-- Responses sent, newest first. Reset: none. -/
  resp : List Response := []
  /-- MSI-X messages sent, newest first: head and vector (R49). Reset: none. -/
  msix : List (Nat × Nat) := []
  deriving DecidableEq, Repr

/-! ## The machine -/

/-- The state of the block. -/
structure State where
  /-- Waiting commands, first in, first out. Reset: empty. -/
  pending : List Instr := []
  /-- The MODEL'S OWN counter: which free value comes next (log 1). Reset: DESIGN CHOICE 0. -/
  free : Nat := 0
  /-- What this module fixes. Reset: the reference module of 00_scope. -/
  cfg : ModuleConfig := ModuleConfig.reference
  tb : TimeBase := {}
  clk : Clocks := {}
  host : HostRegion := {}
  cxl : Cxl := {}
  wb : WriteBuffer := {}
  dram : Dram := {}
  pm : PageMap := {}
  lake : Lakebed := {}
  basin : Basin := {}
  flash : Flash := {}
  log : DirtyLog := {}
  weir : Weir := {}
  save : Save := {}
  rst : Restore := {}
  ledger : Ledger := {}
  wl : Waterline := {}
  fault : Faults := {}
  crew : Crews := {}
  seq : Seq := {}
  boot : Boot := {}
  frz : Freeze := {}
  bat : Gauge := {}
  od : Od := {}
  bus : Bus := {}
  upd : Update := {}
  plan : Planner := {}
  out : Out := {}
  deriving DecidableEq, Repr

/-- The image the module runs as manufactured (R398): what slot A holds. -/
def factoryImage (c : ModuleConfig) : ImageInfo :=
  { version := c.imageVersion, security := c.imageSecurityVersion, schema := c.imageSchema,
    handover := c.handover, low := c.handoverLow, high := c.handoverHigh, verifies := true }

/-- The machine right after reset: the instant before VDD_AON first becomes valid, on the reference
module as manufactured (R486, log 4); slot A holds the factory image (R398). -/
def State.reset : State :=
  { upd := { slotA := some (factoryImage ModuleConfig.reference) } }

end Sys2Proof.Machine
end

