-- ==== Sys2Proof/Machine/Table.lean ====
section
/-! DEFINITION. Canonical tables and sets: how State holds sparse data (memory bytes, page-map
entries, registers by number). Keys rise strictly and no entry equals the default, so equal contents
are equal data. -/

namespace Sys2Proof.Machine

/-- What a table reads at `k`: the entry listed for it, or the default `d`. -/
def tabGet {α : Type} (d : α) (k : Nat) : List (Nat × α) → α
  | [] => d
  | (k', v) :: t => if k < k' then d else if k = k' then v else tabGet d k t

/-- The table with `v` at `k`; writing the default removes the entry. -/
def tabSet {α : Type} [DecidableEq α] (d : α) (k : Nat) (v : α) : List (Nat × α) → List (Nat × α)
  | [] => if v = d then [] else [(k, v)]
  | (k', v') :: t =>
    if k < k' then (if v = d then (k', v') :: t else (k, v) :: (k', v') :: t)
    else if k = k' then (if v = d then t else (k, v) :: t)
    else (k', v') :: tabSet d k v t

/-- `k` is below every key of the table. -/
def tabBelow {α : Type} (k : Nat) : List (Nat × α) → Bool
  | [] => true
  | (k', _) :: _ => decide (k < k')

/-- The canonical form: keys strictly rising, no entry equal to the default. -/
def tabWf {α : Type} [DecidableEq α] (d : α) : List (Nat × α) → Bool
  | [] => true
  | (k, v) :: t => decide (v ≠ d) && tabBelow k t && tabWf d t

/-- The entry listed for `k`, in a table whose unlisted keys hold nothing. -/
def tabFind {α : Type} (k : Nat) : List (Nat × α) → Option α
  | [] => none
  | (k', v) :: t => if k < k' then none else if k = k' then some v else tabFind k t

/-- The table with `v` listed for `k`. -/
def tabIns {α : Type} (k : Nat) (v : α) : List (Nat × α) → List (Nat × α)
  | [] => [(k, v)]
  | (k', v') :: t =>
    if k < k' then (k, v) :: (k', v') :: t
    else if k = k' then (k, v) :: t
    else (k', v') :: tabIns k v t

/-- The table with nothing listed for `k`. -/
def tabDel {α : Type} (k : Nat) : List (Nat × α) → List (Nat × α)
  | [] => []
  | (k', v') :: t => if k = k' then t else (k', v') :: tabDel k t

/-- The strictly rising list with `k` in it. -/
def setIns (k : Nat) : List Nat → List Nat
  | [] => [k]
  | k' :: t => if k < k' then k :: k' :: t else if k = k' then k' :: t else k' :: setIns k t

/-- The list without `k`. -/
def setDel (k : Nat) (l : List Nat) : List Nat := l.filter (· ≠ k)

/-- Strictly rising. -/
def setWf : List Nat → Bool
  | [] => true
  | [_] => true
  | a :: b :: t => decide (a < b) && setWf (b :: t)

/-- The list with its element `n` replaced by `f` of it; unchanged when `n` is out of range. -/
def listUpd {α : Type} (n : Nat) (f : α → α) : List α → List α
  | [] => []
  | a :: t => match n with
    | 0 => f a :: t
    | n + 1 => a :: listUpd n f t

end Sys2Proof.Machine
end

