-- ==== Sys2Proof/Machine/Ops.lean ====
section
/-! DEFINITION. The named operations over State that every meaning uses: one update per component,
responses and MSI-X, the bytes and lines of DRAM, address translation, and what the parts of the
state say about the device (memory ready, fenced, members, visible pages). -/

namespace Sys2Proof.Machine

/-- `s` with its component `tb` changed by `f`. -/
def State.onTb (f : TimeBase → TimeBase) (s : State) : State := { s with tb := f s.tb }
/-- `s` with its component `clk` changed by `f`. -/
def State.onClk (f : Clocks → Clocks) (s : State) : State := { s with clk := f s.clk }
/-- `s` with its component `host` changed by `f`. -/
def State.onHost (f : HostRegion → HostRegion) (s : State) : State := { s with host := f s.host }
/-- `s` with its component `cxl` changed by `f`. -/
def State.onCxl (f : Cxl → Cxl) (s : State) : State := { s with cxl := f s.cxl }
/-- `s` with its component `wb` changed by `f`. -/
def State.onWb (f : WriteBuffer → WriteBuffer) (s : State) : State := { s with wb := f s.wb }
/-- `s` with its component `dram` changed by `f`. -/
def State.onDram (f : Dram → Dram) (s : State) : State := { s with dram := f s.dram }
/-- `s` with its component `pm` changed by `f`. -/
def State.onPm (f : PageMap → PageMap) (s : State) : State := { s with pm := f s.pm }
/-- `s` with its component `lake` changed by `f`. -/
def State.onLake (f : Lakebed → Lakebed) (s : State) : State := { s with lake := f s.lake }
/-- `s` with its component `basin` changed by `f`. -/
def State.onBasin (f : Basin → Basin) (s : State) : State := { s with basin := f s.basin }
/-- `s` with its component `flash` changed by `f`. -/
def State.onFlash (f : Flash → Flash) (s : State) : State := { s with flash := f s.flash }
/-- `s` with its component `log` changed by `f`. -/
def State.onLog (f : DirtyLog → DirtyLog) (s : State) : State := { s with log := f s.log }
/-- `s` with its component `weir` changed by `f`. -/
def State.onWeir (f : Weir → Weir) (s : State) : State := { s with weir := f s.weir }
/-- `s` with its component `save` changed by `f`. -/
def State.onSave (f : Save → Save) (s : State) : State := { s with save := f s.save }
/-- `s` with its component `rst` changed by `f`. -/
def State.onRst (f : Restore → Restore) (s : State) : State := { s with rst := f s.rst }
/-- `s` with its component `ledger` changed by `f`. -/
def State.onLedger (f : Ledger → Ledger) (s : State) : State := { s with ledger := f s.ledger }
/-- `s` with its component `wl` changed by `f`. -/
def State.onWl (f : Waterline → Waterline) (s : State) : State := { s with wl := f s.wl }
/-- `s` with its component `fault` changed by `f`. -/
def State.onFault (f : Faults → Faults) (s : State) : State := { s with fault := f s.fault }
/-- `s` with its component `crew` changed by `f`. -/
def State.onCrew (f : Crews → Crews) (s : State) : State := { s with crew := f s.crew }
/-- `s` with its component `seq` changed by `f`. -/
def State.onSeq (f : Seq → Seq) (s : State) : State := { s with seq := f s.seq }
/-- `s` with its component `boot` changed by `f`. -/
def State.onBoot (f : Boot → Boot) (s : State) : State := { s with boot := f s.boot }
/-- `s` with its component `frz` changed by `f`. -/
def State.onFrz (f : Freeze → Freeze) (s : State) : State := { s with frz := f s.frz }
/-- `s` with its component `bat` changed by `f`. -/
def State.onBat (f : Gauge → Gauge) (s : State) : State := { s with bat := f s.bat }
/-- `s` with its component `od` changed by `f`. -/
def State.onOd (f : Od → Od) (s : State) : State := { s with od := f s.od }
/-- `s` with its component `bus` changed by `f`. -/
def State.onBus (f : Bus → Bus) (s : State) : State := { s with bus := f s.bus }
/-- `s` with its component `upd` changed by `f`. -/
def State.onUpd (f : Update → Update) (s : State) : State := { s with upd := f s.upd }
/-- `s` with its component `plan` changed by `f`. -/
def State.onPlan (f : Planner → Planner) (s : State) : State := { s with plan := f s.plan }
/-- `s` with its component `out` changed by `f`. -/
def State.onOut (f : Out → Out) (s : State) : State := { s with out := f s.out }

/-! ## Outputs -/

/-- Send a response. -/
def say (r : Response) (s : State) : State := s.onOut fun o => { o with resp := r :: o.resp }

/-- Head `h` (R33). -/
def headOf (s : State) (h : Fin 2) : Head := if h = 0 then s.host.head0 else s.host.head1

/-- Head `h` changed by `f`. -/
def onHead (h : Fin 2) (f : Head → Head) (s : State) : State :=
  s.onHost fun x => if h = 0 then { x with head0 := f x.head0 } else { x with head1 := f x.head1 }

/-- Head 1 is present: HEADMODE sampled 1 on a part that has two heads (R3, R33). -/
def twoHeads (s : State) : Bool :=
  s.boot.headmode && match s.cfg.variant with
    | .tk7232c => false
    | _ => true

/-- A head is present (R3, R33). -/
def headPresent (s : State) (h : Fin 2) : Bool := decide (h = 0) || twoHeads s

/-- One MSI-X vector on one head: a masked vector sets its pending bit instead (R49). -/
def vectorOn (h : Fin 2) (v : Fin 8) (s : State) : State :=
  if (headOf s h).msixMask.getLsbD v.val then
    onHead h (fun x => { x with msixPending := x.msixPending ||| BitVec.ofNat 8 (2 ^ v.val) }) s
  else s.onOut fun o => { o with msix := (h.val, v.val) :: o.msix }

/-- Raise a vector on every head present (R49). -/
def vector (v : Fin 8) (s : State) : State :=
  let s := vectorOn 0 v s
  if twoHeads s then vectorOn 1 v s else s

/-- `n` bytes of a number, the low byte first (R349). -/
def leBytes : Nat → Nat → List Byte
  | 0, _ => []
  | n + 1, v => BitVec.ofNat 8 v :: leBytes n (v / 256)

/-- A vendor-defined MCTP response (R361): message type 0x7E, the vendor ID of 0x1018:01 with its high byte first,
protocol version, instance ID, opcode, return code, payload. -/
def mctpFrame (s : State) (inst opcode code : Nat) (payload : List Byte) : List Byte :=
  [0x7E, BitVec.ofNat 8 (s.cfg.vendorId.toNat / 256), BitVec.ofNat 8 s.cfg.vendorId.toNat, 1, BitVec.ofNat 8 inst, 0]
    ++ leBytes 2 opcode ++ leBytes 2 code ++ payload

/-- The request of an endpoint that has no response yet (R362). -/
def unanswered (s : State) (e : Nat) : Option McReq :=
  s.bus.reqs.find? fun q => decide (q.src = e) && q.resp.isEmpty

/-- A chip fatal or a failed boot fails a trial by the start rules of R402 (R414, R416). -/
def trialStops (cause : Nat) (s : State) : State :=
  if s.upd.trial = 1 then s.onUpd fun u => { u with trialFailed := true, failCause := cause } else s

/-- The trial time up to now is in the boot config (R435). -/
def trialTime (s : State) : State :=
  if s.upd.trial = 1 ∧ s.upd.stage = .idle ∧ s.seq.st = .online then
    s.onUpd fun u => { u with trialS := u.trialS + (s.tb.now - u.trialMark) / nsPerS, trialMark := s.tb.now
                              bootSeq := u.bootSeq + 1 }
  else s

/-- The Coxswain firmware rewrites the older boot-config copy, which is in force from then on (R401). -/
def bootWrite (s : State) : State := s.onUpd fun u => { u with bootSeq := u.bootSeq + 1 }

/-- A STOP on a port: the mode and the clock that were written before it are in force (R372). -/
def busStop (p : Port) (s : State) : State :=
  s.onBus fun b => match p with
    | .mgmt => { b with mgmt := { b.mgmt with i2c := decide (s.od.set.mgmtProto = 1), khz := s.od.set.mgmtKhz } }
    | .lcl => { b with lcl := { b.lcl with khz := s.od.set.localKhz } }

/-- Send an endpoint's response, a transaction that ends in a STOP (R375, R383). -/
def mctpSend (q : McReq) (bytes : List Byte) (s : State) : State :=
  busStop .mgmt (say (.mctp q.addr q.src q.tag bytes) s)

/-- Send an endpoint's response and keep it for a retry (R362, R383). -/
def mctpAnswer (q : McReq) (code : Nat) (payload : List Byte) (s : State) : State :=
  let bytes := mctpFrame s q.inst q.opcode code payload
  mctpSend q bytes (s.onBus fun b =>
    { b with reqs := { q with resp := bytes } :: b.reqs.filter fun x => decide (x.src ≠ q.src) })

/-- Answer a vendor command (R61): on a mailbox its completion raises vector 0 (R49); a request that an MCTP message
brought in is answered by one (R361). -/
def reply (p : Path) (status : Nat) (bytes : List Byte) (s : State) : State :=
  match p with
  | .mailbox h => vectorOn h 0 (say (.od p status bytes) s)
  | .smbus e =>
    (match unanswered s e with
     | some q => mctpAnswer q 0 (BitVec.ofNat 8 status :: bytes) s
     | none => say (.od p status bytes) s)
  | _ => say (.od p status bytes) s

/-- Complete a mailbox command with its return code (R31, R49, R53 to R57). -/
def mbox (h : Fin 2) (code : MboxCode) (bytes : List Byte) (s : State) : State :=
  vectorOn h 0 (say (.mailbox h code bytes) s)

/-- OD session state ends (R356): what it was is remembered, so that a request that depends on it is refused. -/
def endSessions (p : Nat → Bool) (s : State) : State :=
  s.onOd fun o =>
    let gone := o.sessions.filter fun x => p x.key
    let marks := (gone.map fun x =>
      (match x.view with
       | some v => (v.values.map (·.1.1)).eraseDups.map fun i => (x.key, i)
       | none => []) ++
      (match x.seg with
       | some g => [(x.key, g.index)]
       | none => [])).flatten
    { o with sessions := o.sessions.filter (fun x => !p x.key), ended := o.ended ++ marks }

/-- The head split of 0x2060 comes into force with the settings that a start takes (R33). -/
def takeHeadUnits (s : State) : State := s.onHost fun h => { h with headUnits := s.od.set.head0Units }

/-! ## Questions about the state -/

/-- Memory is ready (R50): made so by the restore and not taken back. -/
def memReady (s : State) : Bool := s.rst.ready

/-- The early-open window: memory ready, RESTORED not committed (R168). -/
def inWindow (s : State) : Bool := s.rst.ready && !s.rst.committed

/-- Boathouse mode (R417). -/
def boathouse (s : State) : Bool := s.boot.inBoathouse

/-- CXL.mem admission is stopped: the full fence or its host side (R137). -/
def fenced (s : State) : Bool := s.host.fence || s.host.hostFence

/-- A save is running (R134). -/
def saving (s : State) : Bool := s.save.running

/-- One crew. -/
def crewOf (s : State) : Crew → CrewUnit
  | .bow => s.crew.bow
  | .stroke => s.crew.stroke

/-- One crew changed by `f`. -/
def onCrewUnit (c : Crew) (f : CrewUnit → CrewUnit) (s : State) : State :=
  s.onCrew fun x => match c with
    | .bow => { x with bow := f x.bow }
    | .stroke => { x with stroke := f x.stroke }

/-- A crew is in the sending set (R242). -/
def isMember (s : State) (c : Crew) : Bool := decide ((crewOf s c).st = .member)

/-- Crews in the sending set. -/
def memberCount (s : State) : Nat := b2n (isMember s .bow) + b2n (isMember s .stroke)

/-- The coxswain of a crew has come through its start from ROM and runs (R246, R248): the crew runs, or, in LOADING or
STANDBY, its 150 ms have passed since the release of reset. -/
def coxLives (s : State) (c : Crew) : Bool :=
  match (crewOf s c).st with
  | .member | .shadow | .catchup => true
  | .loading | .standby => decide ((crewOf s c).releaseAt + 150 * nsPerMs ≤ s.tb.now)
  | .off | .faulted => false

/-- A coxswain runs. -/
def anyCoxswain (s : State) : Bool := coxLives s .bow || coxLives s .stroke

/-- A crew is a member. -/
def anyMember (s : State) : Bool := isMember s .bow || isMember s .stroke

/-- The sending set is empty (R248). -/
def emptySet (s : State) : Bool := !anyMember s

/-- The number of a sequencer state (R285). -/
def SeqSt.num : SeqSt → Nat
  | .dark => 0
  | .aux => 1
  | .core => 2
  | .memory => 3
  | .flash => 4
  | .link => 5
  | .online => 6

/-- The state with number `n`; 6 and above is ONLINE. -/
def SeqSt.ofNum : Nat → SeqSt
  | 0 => .dark
  | 1 => .aux
  | 2 => .core
  | 3 => .memory
  | 4 => .flash
  | 5 => .link
  | _ => .online

/-- The sequencer is in DARK or AUX: the crews do not run (R296). -/
def darkOrAux (s : State) : Bool := decide (s.seq.st.num ≤ 1)

/-- Frozen by HOLDWATER (R458). -/
def frozen (s : State) : Bool := s.frz.frozen

/-- One string. -/
def strOf (s : State) : Str → BatString
  | .a => s.bat.a
  | .b => s.bat.b

/-- One string changed by `f`. -/
def onStr (x : Str) (f : BatString → BatString) (s : State) : State :=
  s.onBat fun g => match x with
    | .a => { g with a := f g.a }
    | .b => { g with b := f g.b }

/-- A string is counted by the Weir (R307). -/
def isCounted (s : State) (x : Str) : Bool := decide ((strOf s x).st = .counted)

/-- Some string is counted. -/
def anyCounted (s : State) : Bool := isCounted s .a || isCounted s .b

/-! ## Memory -/

/-- What an unlisted byte of DRAM reads as (log 2). -/
def unlisted : Byte := 0

/-- One byte of DRAM by device physical address (R182). -/
def readByte (s : State) (a : Nat) : Byte := tabGet unlisted a s.dram.bytes

/-- Write one byte of DRAM. -/
def writeByte (a : Nat) (b : Byte) (s : State) : State :=
  s.onDram fun d => { d with bytes := tabSet unlisted a b d.bytes }

/-- `n` bytes from `a`, byte 0 in the low bits. -/
def readBytes (s : State) (a : Nat) : Nat → List Byte
  | 0 => []
  | n + 1 => readByte s a :: readBytes s (a + 1) n

/-- Bytes as a number, the first in the low bits (R349: little-endian). -/
def leNat : List Byte → Nat
  | [] => 0
  | b :: t => b.toNat + 256 * leNat t

/-- Write bytes from `a` upward. -/
def writeBytes (a : Nat) : List Byte → State → State
  | [], s => s
  | b :: t, s => writeBytes (a + 1) t (writeByte a b s)

/-- One line of DRAM (R182: 64 bytes). -/
def readLine (s : State) (line : Nat) : Line := BitVec.ofNat 512 (leNat (readBytes s (64 * line) 64))

/-- Byte `k` of a line. -/
def lineByte (d : Line) (k : Nat) : Byte := d.extractLsb' (8 * k) 8

/-- The enabled bytes of `d`, from byte `k` on, `n` of them, over the line at byte address `a`. -/
def writeEnabled (a : Nat) (d : Line) (be : BitVec 64) : Nat → Nat → State → State
  | 0, _, s => s
  | n + 1, k, s =>
    writeEnabled a d be n (k + 1) (if be.getLsbD k then writeByte (a + k) (lineByte d k) s else s)

/-- A write's enabled bytes over one line (R38, R185). -/
def writeLine (line : Nat) (d : Line) (be : BitVec 64) (s : State) : State :=
  writeEnabled (64 * line) d be 64 0 s

/-- A line carries the poison marker (R185). -/
def linePoison (s : State) (line : Nat) : Bool := s.dram.poison.contains line

/-- Runs of consecutive lines of a strictly rising list: (first line, lines). -/
def poisonRuns : List Nat → List (Nat × Nat)
  | [] => []
  | l :: t =>
    match poisonRuns t with
    | [] => [(l, 1)]
    | (f, n) :: r => if f = l + 1 then (l, n + 1) :: r else (l, 1) :: (f, n) :: r

/-- Get Poison List after a change: up to 4,096 entries in the ledger, adjacent lines merged, with
the overflow flag and its time when there are more (R54). R54 says neither which entries a full list keeps nor whether a LOST
range merges with poisoned lines beside it: the list keeps the lowest addresses, a new lower one pushing out the highest, and
every adjacent line merges (DESIGN CHOICE, log 58). -/
def refreshPoison (s : State) : State :=
  let runs := poisonRuns s.dram.poison
  s.onCxl fun c =>
    { c with
      poisonList := runs.take 4096
      poisonKept := runs
      poisonOverflow := if runs.length ≤ 4096 then none else some (c.poisonOverflow.getD s.tb.now) }

/-- Set or clear a line's poison marker (R53, R185), and the poison list with it. -/
def setPoison (line : Nat) (on : Bool) (s : State) : State :=
  if linePoison s line = on then s
  else refreshPoison (s.onDram fun d =>
    { d with poison := if on then setIns line d.poison else setDel line d.poison })

/-- Page of a line (R182). -/
def pageOf (line : Nat) : Nat := line / linesPerPage

/-- Insert `n` numbers from `k` upward. -/
def setInsRange (k : Nat) : Nat → List Nat → List Nat
  | 0, l => l
  | n + 1, l => setIns k (setInsRange (k + 1) n l)

/-- Poison every line of a page (R77, R163). -/
def poisonPage (page : Nat) (s : State) : State :=
  refreshPoison (s.onDram fun d =>
    { d with poison := setInsRange (page * linesPerPage) linesPerPage d.poison })

end Sys2Proof.Machine
end

