-- ==== Sys2Proof/Machine/Flags.lean ====
section
/-! DEFINITION. What the status fields of the registers say, computed from State: each flag or count
once, cited by its rule, so that a register read, an object-dictionary entry and a meaning agree. -/

namespace Sys2Proof.Machine

/-! ## Addresses -/

/-- The DRAM channel of a device page (R182): the hash of the page's four low octal digits. -/
def channelOfPage (s : State) (page : Nat) : Nat :=
  let h := (page ^^^ (page / 8) ^^^ (page / 64) ^^^ (page / 512)) % 8
  h % s.cfg.dramChannels

/-- A visible device page (R36, R85). -/
def visiblePage (s : State) (page : Nat) : Bool := decide (page < s.cfg.visiblePages)

/-- Size in bytes of the first head's share (R33: 0x2060 as of the last start from DARK); with one head, all of it. -/
def head0Bytes (s : State) : Nat :=
  if twoHeads s then s.host.headUnits * (256 * mib) else s.cfg.visible

/-- What a head sees: first byte and size of its device physical addresses (R33). -/
def headSpan (s : State) (h : Fin 2) : Nat × Nat :=
  if h = 0 then (0, head0Bytes s) else (head0Bytes s, s.cfg.visible - head0Bytes s)

/-- The device offset one committed decoder gives a host address (R37, R454). The position in the
set is in the address: consecutive granules of the device lie `ways` granules apart. -/
def hdmOffset (d : Hdm) (hpa : Nat) : Option Nat :=
  if d.committed && decide (d.base ≤ hpa) && decide (hpa < d.base + d.size) && decide (0 < d.gran)
      && decide (0 < d.ways) then
    let o := hpa - d.base
    some (o / d.gran / d.ways * d.gran + o % d.gran)
  else none

/-- The first decoder that takes the address, with the space of the decoders before it (R37). -/
def hdmTranslate : List Hdm → Nat → Nat → Option Nat
  | [], _, _ => none
  | d :: t, skip, hpa =>
    match hdmOffset d hpa with
    | some o => some (skip + o)
    | none => hdmTranslate t (skip + (if d.committed then d.size / d.ways else 0)) hpa

/-- Device line of a host physical address on a head, if it decodes (R37, R85). -/
def lineOfHpa (s : State) (h : Fin 2) (hpa : Nat) : Option Nat :=
  match hdmTranslate (headOf s h).hdm 0 hpa with
  | none => none
  | some o =>
    let (base, size) := headSpan s h
    if o < size then some ((base + o) / 64) else none

/-- Device line of a device physical address a head names, if the head sees it. -/
def lineOfDpa (s : State) (h : Fin 2) (dpa : Nat) : Option Nat :=
  let (base, size) := headSpan s h
  if dpa < size then some ((base + dpa) / 64) else none

/-! ## Page map -/

/-- A page's entry (R86). -/
def pageEntry (s : State) (page : Nat) : PageEntry := tabGet {} page s.pm.pages

/-- A page's state (R86). -/
def pageState (s : State) (page : Nat) : PState := (pageEntry s page).state

/-- A page withdrawn in degraded operation (R198). -/
def withdrawn (s : State) (page : Nat) : Bool := s.dram.withdrawn.contains page

/-- One hot-hold tick in ns (R87). -/
def tickNs (s : State) : Nat := s.od.set.hotHoldMs * nsPerMs / 4

/-- The current hot-hold tick (R87). -/
def hotTick (s : State) : Nat := s.tb.now / tickNs s % 16

/-- The stamp of a page made DIRTY cold: 4 ticks before the current one (R91, R93, R163). -/
def coldTick (s : State) : Nat := (hotTick s + 12) % 16

/-- A page is hot (R87). -/
def isHot (s : State) (page : Nat) : Bool :=
  decide ((hotTick s + 16 - (pageEntry s page).hot) % 16 < 4)

/-- LIVE_BUCKETS (R47). -/
def liveBuckets (s : State) : Nat := s.pm.buckets.length

/-- The newest bucket (R69). -/
def newestBucket (s : State) : Option Bucket := s.pm.buckets.getLast?

/-- A bucket by slot. -/
def bucketAt (s : State) (slot : Nat) : Option Bucket := s.pm.buckets.find? fun b => b.slot = slot

/-- SETTLE_BUSY (R47). -/
def settleBusy (s : State) : Bool := decide (s.host.settled < s.host.target)

/-- HOLD_ACTIVE (R47): a first-write is held. -/
def holdActive (s : State) : Bool := s.wb.entries.any fun e => decide (e.phase = .heldWeir)

/-- HOT_OVERRIDE (R95). -/
def hotOverride (s : State) : Bool := decide (s.od.set.hotOverride ≤ liveBuckets s)

/-- Valid drain entries in a state (R108). -/
def drainCount (s : State) (failed : Bool) : Nat :=
  (s.pm.drains.filter fun d => d.2.failed = failed).length

/-- SETTLE_COVER (R108). -/
def settleCover (s : State) : Nat :=
  (s.pm.buckets.filter (·.covered)).foldl (fun n b => n + 2 ^ b.slot) 0

/-- The policy cause of Sprint (R97); ignored while BUDGET_OVER (R221). -/
def policyCause (s : State) : Bool := decide (s.od.set.sprintPolicy = 1) && !s.flash.budgetOver

/-- SPRINT_CAUSE (R108). -/
def sprintCause (s : State) : Nat :=
  b2n s.pm.causeWeir + 2 * b2n s.pm.causeHold + 4 * b2n (settleBusy s)
    + 8 * b2n (policyCause s || s.pm.causeUnprot)

/-! ## Weir -/

/-- The instant the Weir's timers stand at: they stop while frozen (R461). -/
def weirNow (s : State) : Nat := if frozen s then s.frz.since else s.tb.now

/-- CAP in bytes (R127). -/
def capBytes (s : State) : Nat := s.weir.capMiB * mib

/-- FLOOR in bytes (R127). -/
def floorBytes (s : State) : Nat := s.weir.floorMiB * mib

/-- Where a decay ends: the floor, unless the level already stands at or below it (R20). -/
def decayTarget (s : State) : Nat := min s.weir.decayFrom (floorBytes s)

/-- The level of a decay that has run for `t` ns: linear over 1 s to its target (R20). -/
def decayLevel (s : State) (t : Nat) : Nat :=
  s.weir.decayFrom - (s.weir.decayFrom - decayTarget s) * min t nsPerS / nsPerS

/-- The level before CAP (R20, R120, R128). -/
def levelBeforeCap (s : State) : Nat :=
  match s.weir.state with
  | .init => 0
  | .floor => floorBytes s
  | .published => s.weir.published
  | .decaying => decayLevel s (weirNow s - s.weir.decayAt)
  | .decayed => decayTarget s

/-- The enforced Weir level in bytes, a multiple of 4 KiB (R129): never above CAP. -/
def enforced (s : State) : Nat := min (capBytes s) (levelBeforeCap s) / pageBytes * pageBytes

/-- STATE of MEM_WEIR_ENFORCED (R129). -/
def weirStateCode (s : State) : Nat :=
  if s.host.unprotected then 5
  else match s.weir.state with
    | .init => 0
    | .floor => 1
    | .published => 2
    | .decaying => 3
    | .decayed => 4

/-- AGE of the last publication in ms; its reset value 0 while none has landed (R128). -/
def pubAge (s : State) : Nat :=
  if s.weir.hasPub then sat 0x7FFF ((weirNow s - s.weir.pubTime) / nsPerMs) else 0

/-- CAP_LIMITED (R129): the enforced level equals CAP; its reset value 0 while no floor is written. -/
def capLimited (s : State) : Bool := decide (s.weir.state ≠ .init) && decide (enforced s = capBytes s)

/-! ## Restore and host -/

/-- RESTORE_STATE (R47). -/
def restoreState (s : State) : Nat :=
  if s.rst.phase = .failed then 4
  else if s.rst.committed then 3
  else if s.rst.ready then 2
  else if s.rst.begun then 1
  else 0

/-- A restore is running: begun, neither committed nor failed. -/
def restoring (s : State) : Bool := s.rst.begun && !s.rst.committed && !decide (s.rst.phase = .failed)

/-- Media Status (R50): 0 Not Ready, 1 Ready, 2 Disabled. -/
def mediaStatus (s : State) : Nat :=
  if boathouse s || s.rst.disabled || decide (s.rst.phase = .failed) then 2
  else if memReady s then 1 else 0

/-- The page's content is in DRAM: its RESTORED bit is set (R165). -/
def pageRestored (s : State) (page : Nat) : Bool :=
  s.rst.committed || s.rst.allDone || s.rst.restoredSet.contains page ||
    (s.rst.fillDone && !s.rst.basinPages.contains page)

/-- Pages with RESTORED set (R180). -/
def restoredPages (s : State) : Nat :=
  if s.rst.allDone || s.rst.committed then s.cfg.visiblePages
  else if s.rst.fillDone then
    s.cfg.visiblePages - (s.rst.basinPages.filter fun p => !s.rst.restoredSet.contains p).length
  else s.rst.restoredSet.length

/-- A CXL.mem request is not served (R50, R159). -/
def notServed (s : State) : Bool := !memReady s || boathouse s || s.rst.disabled

/-- Outflow is enabled (R96): after the restore, not in Boathouse mode, not from the fence on, and
after an early-open restore only once the re-erase has ended or a clean shutdown drains. -/
def outflowEnabled (s : State) : Bool :=
  s.rst.committed && !boathouse s && !s.host.fence && s.rst.sanitizing.isNone &&
    (!s.rst.early || decide (s.rst.phase = .erased) || decide (s.seq.shutdown = .draining))

/-! ## Crews -/

/-- The crew that holds the seat (R239). -/
def seatHolder (s : State) : Option Crew :=
  if s.crew.seat = 0x5A then some .bow else if s.crew.seat = 0xA5 then some .stroke else none

/-- MODE of a landing (R253). -/
def landingMode (s : State) : Nat :=
  match memberCount s with
  | 0 => 0
  | 1 => if s.crew.bow.st = .shadow ∨ s.crew.stroke.st = .shadow then 3 else 1
  | _ => 2

/-- Code of a crew state (R252). -/
def CrewSt.code : CrewSt → Nat
  | .off => 0
  | .loading => 1
  | .catchup => 2
  | .shadow => 3
  | .member => 4
  | .faulted => 5
  | .standby => 6

/-- F-class captures of the last hour, saturating at 3 (R252). -/
def faults1h (s : State) (c : CrewUnit) : Nat :=
  sat 3 (c.faultTimes.filter fun t => s.tb.now < t + nsPerH).length

/-! ## Faults -/

/-- The unit numbers of R13 that this part has (R14, R256). -/
def unitExists (s : State) (m : MasterId) : Bool :=
  let n := m.toNat
  let region := n / 4096
  let block := n / 64 % 64
  let cell := n % 64
  let small := s.cfg.variant = .tk7232c
  match region with
  | 0 => decide (cell = 0 ∧ (block ≤ 2 ∨ block = 63))
  | 1 => decide (cell = 0 ∧ block ≤ 4 ∧ ¬(small ∧ block = 1))
  | 2 => decide ((block < s.cfg.dramChannels ∧ cell ≤ 2) ∨ (8 ≤ block ∧ block ≤ 10 ∧ cell = 0))
  | 3 => decide ((block < s.cfg.flashChannels ∧ cell ≤ 1) ∨
      (32 ≤ block ∧ block < 32 + s.cfg.flashChannels / 4 ∧ cell = 0) ∨
      (cell = 0 ∧ (block = 40 ∨ (block = 41 ∧ ¬small) ∨ block = 42)))
  | 4 => decide ((block = 0 ∧ cell ≤ 3) ∨ (cell = 0 ∧ (block = 1 ∨ block = 2)))
  | 5 => decide ((block = 0 ∧ cell ≤ 3) ∨ (cell = 0 ∧ (block = 1 ∨ block = 2)))
  | 6 => decide ((cell = 0 ∧ (block = 0 ∨ block = 3 ∨ block = 4)) ∨
      (cell ≤ 1 ∧ (block = 1 ∨ block = 2)))
  | 7 => decide (block = 0 ∧ cell = 0)
  | _ => false

/-- A unit's capture record (R257). -/
def capture (s : State) (m : MasterId) : Capture := tabGet {} m.toNat s.fault.recs

/-- Code of a fault class (R255). -/
def classCode : Option FClass → Nat
  | none => 0
  | some .c => 1
  | some .u => 2
  | some .f => 3

/-- Records with STICKY = 1 and a class (R273). -/
def heldCount (s : State) (k : FClass) : Nat :=
  (s.fault.recs.filter fun r => r.2.sticky && decide (r.2.cls = some k)).length

/-- REGIONS (R273): regions with a sticky record. -/
def heldRegions (s : State) : Nat :=
  (List.range 8).foldl (fun n r =>
    if s.fault.recs.any fun x => x.2.sticky && decide (x.1 / 4096 = r) then n + 2 ^ r else n) 0

/-- Fault ID of the capture held in a unit's record (R257). -/
def faultId (s : State) (m : MasterId) : BitVec 32 :=
  m ++ BitVec.ofNat 16 (capture s m).capnum

/-! ## Flash -/

/-- Class of an operation (R208). -/
def opClass : FlashOp → Nat
  | .saveProgram _ => 0
  | .saveMetaRead => 0
  | .demandFetch _ => 1
  | .repair _ => 1
  | .restoreRead _ => 2
  | .restoreMetaRead => 2
  | .basinErase _ => 3
  | .drain _ _ _ _ => 4
  | .logProgram => 4
  | .relocate _ _ _ _ => 5
  | .checkpointProgram _ _ _ => 5
  | .erase _ _ => 5
  | .patrolRead _ => 6

/-- The operation only reads. -/
def opReads : FlashOp → Bool
  | .saveMetaRead => true
  | .demandFetch _ => true
  | .repair _ => true
  | .restoreRead _ => true
  | .restoreMetaRead => true
  | .patrolRead _ => true
  | _ => false

/-- The operation reads a unit of flash, alone, as a check of its program, or to move it (R216, R225). -/
def readsFlash : FlashOp → Bool
  | .drain _ _ _ _ => true
  | .relocate _ _ _ _ => true
  | op => opReads op

/-- The fence does not discard the operation: it is of class 0 or 1 (R210). -/
def savesClass (op : FlashOp) : Bool := decide (opClass op ≤ 1)

/-- A job of the save (R139, R151). -/
def saveJob (j : FlashJob) : Bool :=
  match j.op with
  | .saveProgram _ => true
  | _ => false

/-- An operation's place in the order of service (R208): its class; where Outflow into TLC yields its turn to relocation, as
half of the TLC budget does while garbage collection is urgent, those two change places (R102). -/
def rank (yields : Bool) (op : FlashOp) : Nat :=
  match op with
  | .drain _ _ _ false => if yields then 5 else 4
  | .relocate _ _ _ _ => if yields then 4 else 5
  | op => opClass op

/-- Index of the queued job of a die that is served first, the oldest among equals (R208); one whose DRAM read waits for a
block reset is passed over (R196). -/
def bestJob (yields : Bool) (die : Nat) : List FlashJob → Nat → Option (Nat × FlashJob)
  | [], _ => none
  | j :: t, i =>
    let mine := decide (j.die = die) && j.waits.isNone
    match bestJob yields die t (i + 1) with
    | none => if mine then some (i, j) else none
    | some (k, b) => if mine && decide (rank yields j.op ≤ rank yields b.op) then some (i, j) else some (k, b)

/-- Index of the started job of a die. -/
def startedJob (die : Nat) : List FlashJob → Nat → Option (Nat × FlashJob)
  | [], _ => none
  | j :: t, i => if j.die = die && j.started then some (i, j) else startedJob die t (i + 1)

/-- The die's next turn of Outflow into TLC goes to a relocation (R102, R208). -/
def yieldsNow (urgent : Bool) (die : Nat) (c : FlashChannel) : Bool := urgent && c.yields.contains die

/-- Whose turn is next on a die after an operation has started there (R102). -/
def turnOf (die : Nat) (op : FlashOp) (c : FlashChannel) : FlashChannel :=
  match op with
  | .drain _ _ _ false => { c with yields := setIns die c.yields }
  | .relocate _ _ _ _ => { c with yields := setDel die c.yields }
  | _ => c

/-- Start the next operation of a die that runs none. -/
def startNext (urgent : Bool) (die : Nat) (c : FlashChannel) : FlashChannel :=
  match startedJob die c.jobs 0 with
  | some _ => c
  | none =>
    match bestJob (yieldsNow urgent die c) die c.jobs 0 with
    | some (i, j) => turnOf die j.op { c with jobs := listUpd i (fun x => { x with started := true }) c.jobs }
    | none => c

/-- Start the next operation of every die of a channel. -/
def startAll (urgent : Bool) (c : FlashChannel) : FlashChannel := (List.range 8).foldl (fun c d => startNext urgent d c) c

/-- A die (R219). -/
def dieAt (s : State) (d : Nat) : Die := tabGet {} d s.flash.dies

/-- Dies retired (R226). -/
def retiredDies (s : State) : Nat := (s.flash.dies.filter (·.2.retired)).length

/-- The device's age in ns: PWR_TIME with the spans of it that ended with VDD_AON (R221, log 98). -/
def age (s : State) : Nat := s.flash.lived + s.tb.now

/-- Good die-blocks of the population (R220). -/
def goodBlocks (s : State) : Nat :=
  s.cfg.dies * s.cfg.goodBlocksPerDie - s.flash.dies.foldl (fun n d => n + d.2.badBlocks) 0

/-- Endurance consumed in percent (R220). -/
def consumed (s : State) : Nat :=
  100 * s.flash.wear.foldl (fun n w => n + w.2) 0 / (goodBlocks s * s.cfg.board.pslcRating)

/-- Die-blocks in the spare pool (R226). -/
def spareBlocks (s : State) : Nat := s.flash.dies.foldl (fun n d => n + d.2.spare) 0

/-- Dies of the population that are not retired, ascending (R206). -/
def goodDies (s : State) : List Nat :=
  ((List.range s.cfg.flashChannels).map fun c => (List.range s.cfg.diesPerChannel).map fun k => 8 * c + k).flatten.filter
    fun d => !(dieAt s d).retired

/-- What a die's parameter page shows (R202, R203). -/
def dieParams (s : State) (d : Nat) : DieParams :=
  match s.cfg.dieParams.find? fun x => decide (x.1 = d) with
  | some x => x.2
  | none => {}

/-- Some die lacks NV-LPDDR4: the population runs NV-DDR3 (R202). -/
def nvDdr3 (s : State) : Bool := (goodDies s).any fun d => !(dieParams s d).nvLpddr4

/-- The one rate of all channels in units of 25 MT/s (R202): the highest that every die and the board profile allow, at most
1,600 MT/s in NV-DDR3. -/
def flashRate (s : State) : Nat :=
  (goodDies s).foldl (fun n d => min n (dieParams s d).rate25)
    (if nvDdr3 s then min 0x40 s.cfg.flashRate25 else s.cfg.flashRate25)

/-- Erased Basin die-blocks of a die (R115). -/
def erasedAt (s : State) (d : Nat) : Nat := tabGet 0 d s.basin.erasedBy

/-- Dies that hold erased Basin blocks (R114), ascending. -/
def erasedDies (s : State) : List Nat := (goodDies s).filter fun d => decide (erasedAt s d ≠ 0)

/-- Erased Basin die-blocks that count (R115, R120). -/
def basinBlocks (s : State) : Nat := if s.basin.counted then (erasedDies s).foldl (fun n d => n + erasedAt s d) 0 else 0

/-- Bytes of a Basin die-block (R206). -/
def basinBlockBytes (s : State) : Nat := s.cfg.pslcDieBlockMib * mib

/-- Erased Basin capacity in bytes (R115). -/
def basinErased (s : State) : Nat := basinBlocks s * basinBlockBytes s

/-- Basin die-blocks of a die whose erase has not ended (R174). -/
def toErase (s : State) (d : Nat) : Nat := s.cfg.basinBlocksPerDie - erasedAt s d - tabGet 0 d s.basin.late

/-- Basin die-blocks still to erase (R174). -/
def basinToErase (s : State) : Nat := (goodDies s).foldl (fun n d => n + toErase s d) 0

/-- ERASED_PCT: Basin erased, in percent (R180). -/
def erasedPct (s : State) : Nat := 100 * basinBlocks s / max 1 ((goodDies s).length * s.cfg.basinBlocksPerDie)

/-- Die-blocks that each die gives to the log area (R207). -/
def logBlocks (c : ModuleConfig) : Nat := ceilDiv c.board.logAreaBytes (c.dies * c.pslcDieBlockMib * mib)

/-- A segment's state; an unlisted segment is ERASED, of the tier its number gives (R98, R207). -/
def segmentAt (s : State) (n : Nat) : Segment :=
  tabGet {} n s.lake.segments

/-- A segment number is in the pSLC tier: the first segments are (DESIGN CHOICE, log 8). -/
def isPslc (s : State) (n : Nat) : Bool := decide (n < s.cfg.board.pslcSegments)

/-- Segments of the Lakebed (R207). -/
def segmentCount (s : State) : Nat := s.cfg.board.pslcSegments + s.lake.tlcSegments

/-- Erased segments of a tier (R102, R109). -/
def erasedSegments (s : State) (pslc : Bool) : Nat :=
  (if pslc then s.cfg.board.pslcSegments else s.lake.tlcSegments)
    - (s.lake.segments.filter fun x =>
        decide (isPslc s x.1 = pslc) && !decide (x.2.state = .erased)).length

/-! ## Sequencer -/

/-- A bit per rail. -/
def railBits (s : State) (p : Rail → Bool) : Nat :=
  ((List.range 16).zip s.seq.rails).foldl (fun n x => if p x.2 then n + 2 ^ x.1 else n) 0

/-- RAIL_EN is high (R278, R280). -/
def Rail.en (r : Rail) : Bool := decide (r.phase = .rising ∨ r.phase = .on)

/-- Rail `n`. -/
def railAt (s : State) (n : Nat) : Rail := s.seq.rails.getD n {}

/-- Configuration of rail `n` in force (R279). -/
def railCfgAt (s : State) (n : Nat) : RailCfg := s.seq.railCfg.getD n {}

/-- A rail belongs to state `k` and is in the enable mask (R285). -/
def railIn (s : State) (k n : Nat) : Bool :=
  decide ((railCfgAt s n).state = k) && s.seq.mask.getLsbD n

/-- The status byte of MGMT (R374). -/
def statusByte (s : State) : Byte :=
  let low := (s.bus.mgmt.attention &&& 7) ||| (if s.seq.latched then 8 else 0)
  BitVec.ofNat 8 (low.toNat + 16 * s.seq.st.num + (if low = 0 then 0 else 128))

/-- Lab policy in force (R462). -/
def labPolicy (s : State) : Bool := decide (s.od.set.freezePolicy = 1) && s.boot.testmode

/-- Some hold bit is set (R458). -/
def held (s : State) : Bool := s.frz.pin || s.frz.od || s.frz.jtag

end Sys2Proof.Machine
end

