-- ==== Sys2Proof/Machine/Time.lean ====
section
/-! DEFINITION. What passes when no command waits: one clock tick (R28, log 3) and the write buffer's
oldest admitted write reaching DRAM (R30, R39). -/

namespace Sys2Proof.Machine

/-- A read of a write-buffer entry's line that arrived before the write still waits, for a repair, a demand fetch or a block
reset: the write waits for the read's answer (R74, R168, R187). -/
def behindRead (s : State) (e : WEntry) : Bool :=
  s.wb.reads.any fun r => decide (r.line = e.line) && !r.earlier.any fun x => decide (x = e)

/-- The line of a write-buffer entry may be written now: its channel is active and not frozen, and no earlier read of it
waits. -/
def drainable (s : State) (e : WEntry) : Bool :=
  decide (e.phase = .admitted) && !frozen s && !behindRead s e &&
    (match s.dram.channels[channelOfPage s (pageOf e.line)]? with
     | some c => decide (c.state = .active)
     | none => false)

/-- Apply one entry to DRAM: its enabled bytes and its poison marker (R38, R53, R185). -/
def applyEntry (e : WEntry) (s : State) : State :=
  setPoison e.line (e.poison || (linePoison s e.line && decide (e.be ≠ BitVec.allOnes 64)))
    (writeLine e.line e.data e.be s)

/-- Take the first entry that satisfies `p` out of a list. -/
def takeFirst (p : WEntry → Bool) : List WEntry → Option (WEntry × List WEntry)
  | [] => none
  | e :: t => if p e then some (e, t) else (takeFirst p t).map fun r => (r.1, e :: r.2)

/-- Apply the oldest entry that may be written (R30, R39). -/
def drainOne (s : State) : State :=
  match takeFirst (drainable s) s.wb.entries with
  | none => s
  | some (e, rest) => applyEntry e (s.onWb fun w => { w with entries := rest })

/-- A root clock runs (R26, R28). -/
def rootsRun (s : State) : Bool := s.clk.rootsStarted && (s.clk.springLock || s.clk.backupLock)

/-- One tick of the time base in ns (R28): 10, or 9 or 11 while an offset is removed; 40 on
AONCLK while no root clock runs or the device is frozen; none without VDD_AON. -/
def tick (s : State) : State :=
  if !s.seq.vddAon then s
  else if frozen s || !rootsRun s then s.onTb fun t => { t with now := (t.now + 40) % 2 ^ 64 }
  else if s.tb.slew > 0 then
    s.onTb fun t => { t with now := (t.now + 9) % 2 ^ 64, slew := t.slew - 1 }
  else if s.tb.slew < 0 then
    s.onTb fun t => { t with now := (t.now + 11) % 2 ^ 64, slew := t.slew + 1 }
  else s.onTb fun t => { t with now := (t.now + 10) % 2 ^ 64 }

/-- What step does on an empty queue (log 3). -/
def idle (s : State) : State := drainOne (tick s)

end Sys2Proof.Machine
end

