-- ==== Sys2Proof/Machine/Crc.lean ====
section
/-! DEFINITION. CRC-32C, the checksum of the record layouts (R310, R322, R337, R435, R437, R439). The
spec names the code and not its parameters; the usual ones are taken (log 9). -/

namespace Sys2Proof.Machine

/-- One bit of the reflected CRC-32C division, `n` times. -/
def crcBits : Nat → BitVec 32 → BitVec 32
  | 0, c => c
  | n + 1, c => crcBits n (if c.getLsbD 0 then (c >>> 1) ^^^ 0x82F63B78#32 else c >>> 1)

/-- The running value over a list of bytes. -/
def crcRun (c : BitVec 32) : List Byte → BitVec 32
  | [] => c
  | b :: t => crcRun (crcBits 8 (c ^^^ b.zeroExtend 32)) t

/-- CRC-32C of a list of bytes. -/
def crc32c (bs : List Byte) : BitVec 32 := ~~~(crcRun 0xFFFFFFFF#32 bs)

end Sys2Proof.Machine
end

