-- ==== Sys2Proof/Machine/Registers.lean ====
section
/-! DEFINITION. The register file: every register of the address map (R498) packed from State, field
by field as its own rule lays it out, and its crossbar byte address. A register whose fields end
below bit 63 reads 0 above them; a reserved address and a write-only register read 0. -/

namespace Sys2Proof.Machine

/-- A field of `w` bits whose lowest bit is `lo`. -/
def fld (lo w v : Nat) : Nat := v % 2 ^ w * 2 ^ lo

/-- A signed value in `w` bits, two's complement. -/
def twos (w : Nat) (v : Int) : Nat := (v % (2 ^ w : Int)).toNat

/-- A register value. -/
def word (n : Nat) : Word := BitVec.ofNat 64 n

/-- CHP_CLK_STATUS (R27). -/
def regClk (s : State) : Word :=
  word (fld 16 16 s.clk.lossCount + fld 8 8 s.clk.refSwitches + fld 5 1 (b2n s.clk.refclk)
    + fld 4 1 (b2n s.clk.backupLock) + fld 3 1 (b2n s.clk.onBackup) + fld 2 1 (b2n s.clk.refCrystal)
    + fld 1 1 (b2n s.clk.springLock) + fld 0 1 (b2n s.clk.xtalOk))

/-- CHP_UMPIRE_STATUS (R251). -/
def regUmpire (s : State) : Word :=
  word (fld 48 16 s.crew.switches + fld 40 8 s.crew.arbitrations + fld 24 8 s.crew.stroke.score
    + fld 16 8 s.crew.bow.score + fld 13 1 (b2n (decide (s.crew.stroke.st = .shadow)))
    + fld 12 1 (b2n (decide (s.crew.bow.st = .shadow))) + fld 9 1 (b2n (isMember s .stroke))
    + fld 8 1 (b2n (isMember s .bow)) + fld 0 8 s.crew.seat.toNat)

/-- CHP_FAULT_SUMMARY (R273). -/
def regSummary (s : State) : Word :=
  word (fld 63 1 (b2n s.fault.chipFatal) + fld 48 8 s.fault.graceExpiries
    + fld 40 8 (heldCount s .f) + fld 32 8 (heldCount s .u) + fld 24 8 (heldCount s .c)
    + fld 16 8 (heldRegions s) + fld 0 16 s.fault.escalations)

/-- CHP_FAULT_SEL (R274). -/
def regSel (s : State) : Word :=
  word (fld 31 1 (b2n (!unitExists s s.fault.sel)) + fld 0 16 s.fault.sel.toNat)

/-- Word `n` of a capture record (R257). -/
def captureWord (c : Capture) : Nat → Word
  | 0 => c.addr
  | 1 => word c.time
  | 2 => word (fld 32 32 c.parent.toNat + fld 16 16 c.master.toNat + fld 12 4 c.typ.val
      + fld 10 2 (classCode c.cls) + fld 9 1 (b2n c.sticky) + fld 8 1 (b2n c.present)
      + fld 7 1 (b2n c.conseq) + fld 6 1 (b2n c.escalated) + fld 5 1 (b2n c.grace))
  | _ => word (fld 48 16 c.capnum + fld 32 16 c.count + fld 24 8 c.overflow
      + fld 16 8 c.key.toNat + fld 0 16 c.detail.toNat)

/-- CHP_FAULT_RECn (R274): the selected record, or 0 when SOURCE names no unit. -/
def regRec (s : State) (n : Nat) : Word :=
  if unitExists s s.fault.sel then captureWord (capture s s.fault.sel) n else 0

/-- CHP_FATAL (R276). -/
def regFatal (s : State) : Word :=
  word (fld 32 32 s.fault.fatalCause.toNat + fld 28 4 s.fault.fatalKind)

/-- CHP_PLAN_STATUS (R429). -/
def regPlan (s : State) : Word :=
  word (fld 63 1 (b2n s.plan.running) + fld 62 1 (b2n s.plan.ramp) + fld 58 4 s.plan.pending.toNat
    + fld 48 8 s.plan.clamps + fld 32 16 s.plan.plans + fld 16 16 s.plan.target
    + fld 0 16 s.plan.derate)

/-- HST_PERSIST_STATUS (R47). -/
def regPersist (s : State) : Word :=
  word (fld 16 5 (liveBuckets s) + fld 12 3 (restoreState s) + fld 9 1 (b2n (settleBusy s))
    + fld 8 1 (b2n (holdActive s)) + fld 7 1 (b2n s.host.unprotected)
    + fld 6 1 (b2n s.host.coarsened) + fld 2 1 (b2n s.host.overshoot)
    + fld 1 1 (b2n s.host.settleReject) + fld 0 1 (b2n s.host.markReject))

/-- HST_HOLD_STATS (R48). -/
def regHold (s : State) : Word := word (fld 32 32 s.host.overshoots + fld 0 32 s.host.holds)

/-- A landing's status register (R253). -/
def regLanding (s : State) (l : LandingSt) : Word :=
  word (fld 56 8 l.divergences + fld 48 8 l.pairTimeouts + fld 32 16 l.late
    + fld 16 16 l.strokeLate + fld 8 8 l.duplicates + fld 0 2 (landingMode s))

/-- MEM_OUTFLOW_STATUS (R108). 65,536 failed entries read as 0xFFFF, as R108 has it for those in flight; of the failed it says
nothing (DESIGN CHOICE, log 100). -/
def regOutflow (s : State) : Word :=
  word (fld 48 16 (sat 0xFFFF (drainCount s false)) + fld 32 16 (sat 0xFFFF (drainCount s true))
    + fld 16 16 (settleCover s) + fld 8 4 (sprintCause s) + fld 5 1 (b2n s.lake.starved)
    + fld 4 1 (b2n s.lake.gcUrgent) + fld 3 1 (b2n (hotOverride s)) + fld 2 1 (b2n s.pm.sprint)
    + fld 1 1 (b2n s.pm.outflowRun) + fld 0 1 (b2n s.pm.filterRecovered))

/-- MEM_WEIR_LIMITS (R127). -/
def regLimits (s : State) : Word := word (fld 32 32 s.weir.capMiB + fld 0 32 s.weir.floorMiB)

/-- MEM_WEIR_PUBLISHED (R128). -/
def regPublished (s : State) : Word :=
  word (fld 63 1 (b2n s.weir.pubStroke) + fld 48 15 (pubAge s) + fld 0 48 s.weir.published)

/-- MEM_WEIR_ENFORCED (R129). -/
def regEnforced (s : State) : Word :=
  word (fld 61 3 (weirStateCode s) + fld 60 1 (b2n (capLimited s))
    + fld 0 48 (enforced s))

/-- MEM_WEIR_STATS (R130). -/
def regStats (s : State) : Word :=
  word (fld 32 32 (sat 0xFFFFFFFF (s.weir.excessMax / mib)) + fld 16 16 s.weir.episodes
    + fld 8 8 s.weir.decays + fld 0 8 s.weir.clamps)

/-- PHASE code of the restore (R180). -/
def RestPhase.code : RestPhase → Nat
  | .idle => 0
  | .roots => 1
  | .metadata => 2
  | .conversion => 3
  | .fill => 4
  | .overlay => 5
  | .compaction => 6
  | .restored => 7
  | .erased => 8
  | .failed => 9

/-- MEM_RESTORE_STATUS (R180). -/
def regRestore (s : State) : Word :=
  word (fld 60 4 s.rst.phase.code + fld 59 1 (b2n s.rst.early) + fld 58 1 (b2n s.rst.point)
    + fld 57 1 (b2n s.rst.mediaLoss) + fld 48 8 (sat 0xFF s.rst.fetching.length)
    + fld 16 29 (restoredPages s) + fld 0 7 (erasedPct s))

/-- STATE code of a DRAM channel (R200). -/
def ChState.code : ChState → Nat
  | .notStarted => 0
  | .training => 1
  | .active => 2
  | .blockReset => 3
  | .selfRefresh => 4
  | .isolated => 5

/-- TRAINING code (R199). -/
def Training.code : Training → Nat
  | .none => 0
  | .stored => 1
  | .full => 2
  | .failed => 3

/-- MEM_DCH_CONFIG_n (R199): the trained population; 0 before training and on an absent channel. -/
def regDchConfig (s : State) (n : Nat) : Word :=
  match s.dram.channels[n]? with
  | none => 0
  | some c =>
    if s.cfg.dramChannels ≤ n ∨ c.training = .none then 0
    else word (fld 22 10 (s.cfg.installed / gib / s.cfg.dramChannels) + fld 16 6 s.cfg.rate200
      + fld 14 2 s.cfg.density + fld 12 2 s.cfg.stack + fld 10 2 s.cfg.pranks
      + fld 8 2 c.training.code)

/-- MEM_DCH_STATUS_n (R200). -/
def regDchStatus (s : State) (n : Nat) : Word :=
  match s.dram.channels[n]? with
  | none => 0
  | some c =>
    if s.cfg.dramChannels ≤ n then 0
    else word (fld 61 3 c.state.code + fld 59 1 (b2n c.hot) + fld 48 8 c.resets
      + fld 40 8 c.lastReset + fld 24 16 c.ue + fld 0 24 c.ce)

/-- FLS_WEAR (R226). -/
def regWear (s : State) : Word :=
  word (fld 56 8 (sat 0xFF (consumed s)) + fld 55 1 (b2n s.flash.budgetOver)
    + fld 46 9 (retiredDies s) + fld 30 16 (s.flash.wear.foldl (fun n w => max n w.2) 0)
    + fld 10 20 (sat 0xFFFFF (spareBlocks s)) + fld 0 10 s.flash.exchanges)

/-- STATE code of a flash channel (R225). -/
def FlState.code : FlState → Nat
  | .notPresent => 0
  | .identifying => 1
  | .active => 2
  | .reset => 3
  | .withdrawn => 4

/-- Dies of a channel that are not retired (R225). -/
def channelDies (s : State) (n : Nat) : Nat :=
  ((List.range s.cfg.diesPerChannel).filter fun k => !(dieAt s (8 * n + k)).retired).length

/-- FLS_CH_STATUS_n (R225). While a channel is identified it runs in SDR at 10 MT/s (R202), less than one unit of RATE. -/
def regFlsChannel (s : State) (n : Nat) : Word :=
  match s.flash.channels[n]? with
  | none => 0
  | some c =>
    if s.cfg.flashChannels ≤ n ∨ c.state = .notPresent then 0
    else word (fld 61 3 c.state.code + fld 60 1 (b2n (nvDdr3 s)) + fld 56 4 (channelDies s n)
      + fld 48 8 (if c.state = .identifying then 0 else flashRate s) + fld 32 16 c.retries + fld 24 8 c.progFail
      + fld 16 8 c.eraseFail + fld 0 16 c.uncorr)

/-- BOW_CREW_STATUS and STK_CREW_STATUS (R252). -/
def regCrew (s : State) (x : Crew) : Word :=
  let c := crewOf s x
  word (fld 61 3 c.st.code + fld 60 1 c.image.val + fld 58 2 c.loadFails
    + fld 56 2 (faults1h s c) + fld 48 8 c.rejoins + fld 32 16 (sat 0xFFFF c.queue.length)
    + fld 16 16 c.faultSource.toNat + fld 0 16 c.rejoinTime)

/-- PHASE code of the save (R157). -/
def SavePhase.code : SavePhase → Nat
  | .idle => 0
  | .fenced => 1
  | .drained => 2
  | .map => 3
  | .residue => 4
  | .mapping => 5
  | .saved => 6
  | .powerDown => 7
  | .lastGasp => 8

/-- Code of a trigger (R157). -/
def triggerCode : Option Trigger → Nat
  | none => 0
  | some .pwrfail => 1
  | some .vin => 2
  | some .chipFatal => 3
  | some .viral => 4
  | some .rail => 5
  | some .od => 6

/-- CURSOR_PAGE (R157): the page number of the landed cursor. -/
def cursorPage : Cursor → Nat
  | .upTo _ p => p
  | .endOfResidue => 0

/-- PWR_SAVE_STATUS (R157). -/
def regSave (s : State) : Word :=
  word (fld 60 4 s.save.phase.code + fld 56 4 (triggerCode s.save.trigger)
    + fld 52 4 s.save.halvings + fld 49 1 (b2n s.save.battery) + fld 40 9 s.save.dies
    + fld 32 4 s.save.bucket + fld 0 29 (cursorPage s.save.cursor))

/-- DIR code (R300). -/
def SeqDir.code : SeqDir → Nat
  | .steady => 0
  | .up => 1
  | .down => 2
  | .cut => 3

/-- PWR_SEQ_STATUS (R300). -/
def regSeq (s : State) : Word :=
  let q := s.seq
  word (fld 61 3 q.st.num + fld 59 2 q.dir.code + fld 58 1 (b2n q.latched)
    + fld 55 3 q.latchCause + fld 51 4 q.latchRail + fld 50 1 (b2n q.holdAux)
    + fld 49 1 (b2n q.onPending) + fld 48 1 (b2n q.mainOk) + fld 47 1 (b2n q.catchIn)
    + fld 46 1 (b2n q.catchDrive) + fld 40 6 s.boot.lane.toNat + fld 32 8 q.resyncs
    + fld 24 8 q.glitches + fld 0 24 (sat 0xFFFFFF ((s.tb.now - q.stateStart) / 10000)))

/-- PWR_RAIL_STATE (R301). -/
def regRails (s : State) : Word :=
  word (fld 48 16 (railBits s (·.fault)) + fld 32 16 (railBits s (·.warn))
    + fld 16 16 (railBits s (·.pgood)) + fld 0 16 (railBits s Rail.en))

/-- PWR_BAT_SAMPLE_x (R326). -/
def regSample (b : BatString) : Word :=
  word (fld 48 16 b.sample.mv + fld 24 24 (twos 24 b.sample.current)
    + fld 8 16 (twos 16 b.sample.temp) + fld 1 1 (b2n b.ntcOpen) + fld 0 1 (b2n b.ntcShort))

/-- STATE code of a string (R327). -/
def strStateCode : StrState → Nat
  | .absent => 0
  | .unknown => 1
  | .counted => 2
  | .learning => 3
  | .failed => 4

/-- REASON code (R327). -/
def strReasonCode : StrReason → Nat
  | .none => 0
  | .sensor => 1
  | .temperature => 2
  | .descriptor => 3
  | .fault => 4
  | .depleted => 5

/-- PWR_BAT_STATUS_x (R327). -/
def regBat (b : BatString) : Word :=
  word (fld 61 3 (strStateCode b.st) + fld 58 3 (strReasonCode b.reason) + fld 57 1 (b2n b.changed)
    + fld 56 1 (b2n b.rest) + fld 55 1 (b2n b.charging) + fld 54 1 (b2n b.paused)
    + fld 53 1 (b2n b.full) + fld 32 14 (sat 0x3FFF (b.restNs / nsPerS)) + fld 0 16 b.restV)

/-- PWR_BAT_CHARGE_x (R328): microcoulombs. -/
def regCharge (b : BatString) : Word := BitVec.ofInt 64 (b.chargeTenth / 10)

/-- PWR_CHG_CTRL (R329). -/
def regChg (s : State) : Word :=
  let g := s.bat
  word (fld 31 1 (b2n g.packOpen) + fld 24 4 (g.packid.getD 0) + fld 16 8 g.b.iset.toNat
    + fld 8 8 g.a.iset.toNat + fld 5 1 (b2n g.b.reverse) + fld 4 1 (b2n g.a.reverse)
    + fld 3 1 (b2n g.b.pause) + fld 2 1 (b2n g.a.pause) + fld 1 1 (b2n g.b.charging)
    + fld 0 1 (b2n g.a.charging))

/-- STATE code of a port (R391). -/
def PortSt.code : PortSt → Nat
  | .idle => 0
  | .target => 1
  | .controller => 2
  | .busCall => 3
  | .hangRecovery => 4
  | .waiting => 5
  | .portReset => 6

/-- PWR_MGMT_STATUS and PWR_LOCAL_STATUS (R391); ATTENTION shows bits [3:0] of the status byte. -/
def regPort (s : State) (mgmt : Bool) : Word :=
  let p := if mgmt then s.bus.mgmt else s.bus.lcl
  word (fld 61 3 p.st.code + fld 60 1 (b2n p.i2c) + fld 59 1 (b2n p.eid.isSome)
    + fld 48 8 (p.eid.getD 0) + fld 40 7 p.peer.toNat
    + fld 32 4 (if mgmt then (statusByte s).toNat % 16 else 0) + fld 31 1 (b2n p.callPending)
    + fld 24 4 p.lastError + fld 0 7 p.address.toNat)

/-- PWR_STRAPS (R432). -/
def regStraps (s : State) : Word :=
  word (fld 15 1 (b2n s.boot.differs) + fld 10 1 (b2n s.boot.testmode)
    + fld 9 1 (b2n s.boot.boathouse) + fld 8 1 (b2n s.boot.headmode) + fld 0 6 s.boot.lane.toNat)

/-- PWR_BOOT_STATUS (R445). -/
def regBoot (s : State) : Word :=
  let b := s.boot
  word (fld 63 1 (b2n b.profileOk) + fld 62 1 b.profileCopy.val + fld 60 2 b.bootcfg
    + fld 58 2 b.settings + fld 57 1 (b2n b.latchRec) + fld 54 2 (sat 3 b.failedRead)
    + fld 48 4 b.stage + fld 0 32 (sat 0xFFFFFFFF b.coreTime))

/-- PWR_FREEZE_STATUS (R469). -/
def regFreeze (s : State) : Word :=
  let f := s.frz
  let ms := if f.frozen then sat 0xFFFFFFFF ((s.tb.now - f.since) / nsPerMs) else f.lastMs
  word (fld 32 32 ms + fld 16 16 f.freezes + fld 8 2 (if f.frozen then 2 else if f.waiting then 1 else 0)
    + fld 5 1 (b2n f.lossHeld) + fld 4 1 (b2n (labPolicy s)) + fld 2 1 (b2n f.jtag)
    + fld 1 1 (b2n f.od) + fld 0 1 (b2n f.pin))

/-- PWR_VMON_n (R302). -/
def regVmon (s : State) (n : Nat) : Word :=
  let r := railAt s n
  word (fld 48 16 r.maxMv + fld 32 16 r.minMv + fld 16 16 r.mv + fld 0 12 r.code.toNat)

/-- LDG_WL_STATUS (R345). -/
def regWlStatus (s : State) : Word :=
  let n := if s.ledger.failed then s.wl.ring.length else s.wl.log.length
  let top := if s.ledger.failed then 409 else 52428
  let age := match s.wl.lastExport with
    | some t => sat 0xFFFF ((s.tb.now - t) / nsPerMs)
    | none => 0xFFFF
  word (fld 63 1 (b2n s.ledger.failed) + fld 62 1 (b2n (s.wl.ring.any (·.staged)))
    + fld 61 1 (b2n (decide (top ≤ n))) + fld 32 24 n + fld 24 8 s.wl.corrupt + fld 0 16 age)

/-- A register of the Chip region by offset (R498). -/
def regChip (s : State) (o : Nat) : Word :=
  if o = 0x000 then regClk s
  else if o = 0x008 then regUmpire s
  else if o = 0x010 then regSummary s
  else if o = 0x018 then regSel s
  else if o = 0x020 then regRec s 0
  else if o = 0x028 then regRec s 1
  else if o = 0x030 then regRec s 2
  else if o = 0x038 then regRec s 3
  else if o = 0x048 then regFatal s
  else if o = 0x050 then regPlan s
  else 0

/-- A register of the persistence page by offset (R42, R43 to R48). -/
def regPage (s : State) (o : Nat) : Word :=
  if o = 0x010 then word s.host.epoch
  else if o = 0x018 then word s.host.settled
  else if o = 0x020 then word s.host.target
  else if o = 0x028 then word s.host.elost
  else if o = 0x030 then regPersist s
  else if o = 0x038 then regHold s
  else if o = 0x040 then word s.pm.residue
  else if o = 0x048 then word (enforced s)
  else 0

/-- A register of the Memory region by offset (R498). -/
def regMem (s : State) (o : Nat) : Word :=
  if o = 0x000 then regOutflow s
  else if o = 0x008 then regLimits s
  else if o = 0x010 then regPublished s
  else if o = 0x018 then regEnforced s
  else if o = 0x020 then regStats s
  else if o = 0x028 then regRestore s
  else if o = 0x030 then regLanding s s.crew.mem
  else if 0x100 ≤ o ∧ o < 0x140 then regDchConfig s ((o - 0x100) / 8)
  else if 0x140 ≤ o ∧ o < 0x180 then regDchStatus s ((o - 0x140) / 8)
  else 0

/-- A register of the Flash region by offset (R498). -/
def regFls (s : State) (o : Nat) : Word :=
  if o = 0x000 then regWear s
  else if o = 0x008 then regLanding s s.crew.fls
  else if 0x100 ≤ o ∧ o < 0x200 then regFlsChannel s ((o - 0x100) / 8)
  else 0

/-- A register of the Power region by offset (R498). -/
def regPwr (s : State) (o : Nat) : Word :=
  if o = 0x000 then word s.tb.now
  else if o = 0x008 then regSave s
  else if o = 0x010 then regSeq s
  else if o = 0x018 then regRails s
  else if o = 0x020 then regSample s.bat.a
  else if o = 0x028 then regSample s.bat.b
  else if o = 0x030 then regBat s.bat.a
  else if o = 0x038 then regBat s.bat.b
  else if o = 0x040 then regCharge s.bat.a
  else if o = 0x048 then regCharge s.bat.b
  else if o = 0x050 then regChg s
  else if o = 0x058 then regLanding s s.crew.pwr
  else if o = 0x060 then regPort s true
  else if o = 0x068 then regPort s false
  else if o = 0x070 then regStraps s
  else if o = 0x078 then regBoot s
  else if o = 0x080 then regFreeze s
  else if 0x100 ≤ o ∧ o < 0x180 then regVmon s ((o - 0x100) / 8)
  else 0

/-- A register by its crossbar byte address (R498), without the action of a read. -/
def readReg (s : State) (a : Nat) : Word :=
  if a % 8 ≠ 0 then 0
  else
    let o := a % 0x100000
    let r := a / 0x100000
    if r = 0xF00 then regChip s o
    else if r = 0xF01 then (if o = 0x100 then regLanding s s.crew.host else regPage s o)
    else if r = 0xF02 then regMem s o
    else if r = 0xF03 then regFls s o
    else if r = 0xF04 then (if o = 0 then regCrew s .bow else 0)
    else if r = 0xF05 then (if o = 0 then regCrew s .stroke else 0)
    else if r = 0xF06 then regPwr s o
    else if r = 0xF07 then
      (if o = 0 then regWlStatus s else if o = 8 then word s.wl.nextSeq
       else if o = 0x10 then regLanding s s.crew.ldg else 0)
    else 0

/-- Address of a readable register of R498 (R335). -/
def readable (a : Nat) : Bool :=
  let o := a % 0x100000
  let r := a / 0x100000
  decide (a % 8 = 0) &&
    if r = 0xF00 then decide (o ≤ 0x050) && !decide (o = 0x040)
    else if r = 0xF01 then decide ((0x010 ≤ o ∧ o ≤ 0x048) ∨ o = 0x100)
    else if r = 0xF02 then decide (o ≤ 0x030 ∨ (0x100 ≤ o ∧ o < 0x180))
    else if r = 0xF03 then decide (o ≤ 0x008 ∨ (0x100 ≤ o ∧ o < 0x200))
    else if r = 0xF04 ∨ r = 0xF05 then decide (o = 0)
    else if r = 0xF06 then decide (o ≤ 0x080 ∨ (0x100 ≤ o ∧ o < 0x180))
    else if r = 0xF07 then decide (o ≤ 0x010)
    else false

/-- Address of a register held in the Power region (R336). -/
def inPowerRegion (a : Nat) : Bool := decide (a / 0x100000 = 0xF06)

end Sys2Proof.Machine
end

