-- ==== Sys2Proof/Machine/Waterline.lean ====
section
/-! DEFINITION. Writing a Waterline record (R332 to R346) with its snapshot, sequence number and
place under the overwrite rule, its feed to the CXL event logs (R58, R343) and to the MGMT status
byte (R374); and committing to the ledger (R147, R179, R340). -/

namespace Sys2Proof.Machine

/-! ## The MGMT status byte and calls -/

/-- ATTENTION has gone from 0 to 1: a call is raised and ALERT_N asserted (R380, R381). -/
def raiseCall (s : State) : State :=
  s.onBus fun b =>
    { b with mgmt := { b.mgmt with callPending := true, alert := true, called := false, notified := false, interval := 0 } }

/-- A reason of the status byte arises: bit `n` of ATTENTION (R374). -/
def attend (n : Nat) (s : State) : State :=
  let was := (statusByte s).getLsbD 7
  let s := s.onBus fun b => { b with mgmt := { b.mgmt with attention := b.mgmt.attention ||| BitVec.ofNat 4 (2 ^ n) } }
  if was then s else raiseCall s

/-! ## CXL event logs -/

/-- Records of a CXL event log (R58). -/
def eventLogSize : Nat := 256

/-- A CXL event log takes a record, or counts an overflow at the record's time (R58). -/
def pushEvent (e : EventRec) (l : EventLog) : EventLog :=
  if l.recs.length < eventLogSize then { l with recs := l.recs ++ [e] }
  else
    { l with overflow := l.overflow + 1, lastOverflow := e.record.time
             firstOverflow := if l.overflow = 0 then e.record.time else l.firstOverflow }

/-- The CXL record type of a Waterline record (R58): DRAM errors are the captures of DDR channels and the DRAM media events;
flash and media errors the captures of the Flash region, its media events and pages lost to media; battery, rail and
temperature events the Sequencer and Gauge classes, hot refresh and the readings of the module's sensors (R386); every other is
vendor-specific (DEDUCED, log 60). -/
def eventKind (r : WlRec) : EventKind :=
  let cls := r.code.toNat / 256
  let region := r.source.toNat / 4096
  if cls = 6 ∨ cls = 7 ∨ r.code = 0x0C01 ∨ (cls = 0xF ∧ r.source = 0x6081) then .memoryModule
  else if r.code = 0x0C00 ∨ r.code = 0x0C04 ∨ (cls ≤ 2 ∧ region = 2 ∧ r.source.toNat / 64 % 64 < 8) then .dram
  else if r.code = 0x0C02 ∨ r.code = 0x0C03 ∨ r.code = 0x0403 ∨ (cls ≤ 2 ∧ region = 3) then .generalMedia
  else .vendor

/-- The CXL event logs by number: informational, warning, failure, fatal (R58). -/
def eventLog (c : Cxl) (n : Nat) : EventLog :=
  if n = 0 then c.info else if n = 1 then c.warn else if n = 2 then c.failure else c.fatal

/-- CXL event log `n` changed by `f`. -/
def onEventLog (n : Nat) (f : EventLog → EventLog) (c : Cxl) : Cxl :=
  if n = 0 then { c with info := f c.info }
  else if n = 1 then { c with warn := f c.warn }
  else if n = 2 then { c with failure := f c.failure }
  else { c with fatal := f c.fatal }

/-- The log a severity goes to (R58). -/
def eventLogOf (sev : Nat) : Nat := if sev ≤ 2 then 0 else if sev ≤ 4 then 1 else if sev ≤ 6 then 2 else 3

/-- Feed a written record to its CXL log by severity (R58, R343), and raise the log's vector where it was added (R49).
Records with CONSEQ never reach a log. -/
def feedCxl (r : WlRec) (s : State) : State :=
  if r.conseq then s
  else
    let n := eventLogOf r.severity.val
    let full := decide (eventLogSize ≤ (eventLog s.cxl n).recs.length)
    let s := s.onCxl (onEventLog n (pushEvent { kind := eventKind r, record := r }))
    if full then s else vector (if n ≤ 1 then 1 else 2) s

/-! ## Snapshots -/

/-- Default snapshot lists (R336), by trigger class. -/
def defaultList (c : Nat) : List Nat :=
  if c = 2 then [0xF0000048, 0xF0000010, 0xF0000008, 0xF0600010, 0xF0600008, 0xF0200018, 0xF0100030]
  else if c = 3 then [0xF0600008, 0xF0600010, 0xF0600020, 0xF0600028, 0xF0600018, 0xF0200018]
  else if c = 6 then [0xF0600010, 0xF0600018, 0xF0600020, 0xF0600028]
  else if c = 8 then [0xF0000008, 0xF0400000, 0xF0500000, 0xF0200010]
  else []

/-- The snapshot list of a class as last written, or the default (R335, R336). -/
def writtenList (s : State) (c : Nat) : List Nat :=
  match tabFind c s.od.set.snapshots with
  | some l => l
  | none => defaultList c

/-- The snapshot list in force: a superseded list still applies for 10 ms (R335). -/
def snapshotList (s : State) (c : Nat) : List Nat :=
  match s.od.pendingLists.find? fun x => decide (x.1 = c ∧ s.tb.now < x.2.2) with
  | some (_, l, _) => l
  | none => writtenList s c

/-- The crew path's snapshot: every listed register (R336). -/
def snapshotFull (s : State) (c : Nat) : List Word := (snapshotList s c).map (readReg s)

/-- The staging path's snapshot: registers outside the Power region read 0 (R336). -/
def snapshotStaged (s : State) (c : Nat) : List Word :=
  (snapshotList s c).map fun a => if inPowerRegion a then readReg s a else 0

/-! ## Numbering and storage -/

/-- Issue the next sequence number, reserving the next block of 4,096 in serial memory before the
first number of a block and when half of it has been issued (R333). -/
def issueSeq (s : State) : State :=
  s.onWl fun w =>
    let res := if w.reserved ≤ w.nextSeq then w.nextSeq + 4096
      else if w.reserved - w.nextSeq = 2048 then w.reserved + 4096 else w.reserved
    let n := if res = w.reserved then w.pageSeq else w.pageSeq + 1
    { w with nextSeq := (w.nextSeq + 1) % 2 ^ 64, reserved := res, pageSeq := n
             reservePage := if res = w.reserved then w.reservePage else some (s.tb.now, n) }

/-- Remove the record with the lowest sequence number among those of severity `sev` or lower; the
list rises in sequence number (R339). -/
def evict (sev : Nat) : List WlRec → Option (List WlRec)
  | [] => none
  | r :: t => if r.severity.val ≤ sev then some t else (evict sev t).map (r :: ·)

/-- Store under the overwrite rule in `cap` slots: an empty slot, else over the lowest number of its
own severity or lower, else not at all (R339). -/
def storeRec (cap : Nat) (r : WlRec) (l : List WlRec) : Option (List WlRec) :=
  if l.length < cap then some (l ++ [r]) else (evict r.severity.val l).map (· ++ [r])

/-- Slots of the ledger log and of the fallback ring (R339, R340). -/
def logSlots : Nat := 52428
/-- Slots of the fallback ring (R340). -/
def ringSlots : Nat := 409

/-- A record dropped: its severity's counter (R339). -/
def dropRec (sev : Nat) (s : State) : State :=
  s.onWl fun w => { w with drops := listUpd sev (satInc 0xFFFFFFFF) w.drops }

/-- Records go by the crew path (R332): a crew is a member and the device is not frozen (R344). -/
def crewPath (s : State) : Bool := anyMember s && !frozen s

/-- Write a record that has its number: into the ledger log, or into the ring while the ledger is
failed or no crew is a member (R332, R340); then its feeds. -/
def storeWl (r : WlRec) (s : State) : State :=
  if crewPath s && !s.ledger.failed then
    match storeRec logSlots r s.wl.log with
    | none => dropRec r.severity.val s
    | some l => feedCxl r (s.onWl fun w => { w with log := l, written := satInc (2 ^ 64 - 1) w.written })
  else
    match storeRec ringSlots r s.wl.ring with
    | none => dropRec r.severity.val s
    | some l =>
      let s := s.onWl fun w => { w with ring := l, written := satInc (2 ^ 64 - 1) w.written }
      if r.staged then s else feedCxl r s

/-- Write a record with the given snapshot. A severity of 4 or more sets the EVENT reason (R374). -/
def recordWith (code : BitVec 16) (sev : Fin 8) (src : MasterId) (arg : Nat) (conseq partial' : Bool)
    (snap : List Word) (s : State) : State :=
  let r : WlRec :=
    { time := s.tb.now, seq := s.wl.nextSeq, source := src, severity := sev, code := code,
      arg := BitVec.ofNat 32 arg, staged := !crewPath s, partial' := partial',
      fallback := s.ledger.failed, conseq := conseq, snapshot := snap }
  let s := storeWl r (issueSeq s)
  if 4 ≤ sev.val then attend 0 s else s

/-- Write a record of the Waterline: "recorded in the Waterline with severity n" (R332, R334). While no crew is a member it
is staged, whatever its source (DEDUCED, log 113). -/
def record (code : BitVec 16) (sev : Fin 8) (src : MasterId) (arg : Nat) (s : State) : State :=
  let c := code.toNat / 256
  if crewPath s then recordWith code sev src arg false false (snapshotFull s c) s
  else
    recordWith code sev src arg false ((snapshotList s c).any fun a => !inPowerRegion a)
      (snapshotStaged s c) s

/-- A record whose severity a rule gives but whose event code none does: the code is a free value (log 1). -/
def recordFree (sev : Fin 8) (src : MasterId) (arg : Nat) (s : State) : State :=
  record (Config.freeBits 16 s.free) sev src arg { s with free := s.free + 1 }

/-- A severity saturated to its three bits. -/
def sevOf (n : Nat) : Fin 8 := ⟨min n 7, by omega⟩

/-- Move the STAGED records into the ledger log when a crew becomes a member, or clear their flags in
the ring while the ledger is failed; either feeds the CXL logs (R332, R343). -/
def moveStaged (s : State) : State :=
  let staged := s.wl.ring.filter (·.staged)
  if staged.isEmpty then s
  else if s.ledger.failed then
    let s := s.onWl fun w => { w with ring := w.ring.map fun r => { r with staged := false } }
    staged.foldl (fun s r => feedCxl r s) s
  else
    let s := s.onWl fun w => { w with ring := [] }
    let s := staged.foldl (fun s r =>
      let r := { r with staged := false }
      match storeRec logSlots r s.wl.log with
      | none => dropRec r.severity.val s
      | some l => feedCxl r (s.onWl fun w => { w with log := l })) s
    record 0x0E02 2 0x7000 staged.length s

/-! ## Ledger commits -/

/-- A commit held in the fallback ring (R340): a record of event code 0x0E10 at severity 6, whose snapshot carries it. -/
def holdCommit (c : Commit) (s : State) : State :=
  let r : LedgerRec := { time := s.tb.now, commit := c, held := some s.wl.nextSeq }
  let snap := (Config.commitWords s.free).take 16
  recordWith 0x0E10 6 0x7000 0 false false snap
    { s.onLedger fun l => { l with fallback := r :: l.fallback } with free := s.free + 1 }

/-- Records that the commit ring keeps: 504 KiB of 256 bytes, less the 16 KiB that stay erased (R440). -/
def rootRecords : Nat := 1952

/-- A record is programmed into the root area's commit ring (R440). -/
def rootWrite (typ gen : Nat) (c : Option Commit) (ws : List Word) (s : State) : State :=
  s.onLedger fun l =>
    let n := match l.ring with
      | r :: _ => r.seq + 1
      | [] => 1
    let r := { typ := typ, seq := n, time := s.tb.now, gen := gen, commit := c, words := ws }
    { l with ring := (r :: l.ring).take rootRecords }

/-- The generation a commit names, 0 for one that names none (R440; log 89). -/
def Commit.gen : Commit → Nat
  | .saveStarted g _ _ _ _ _ _ => g
  | .mapSaved g _ => g
  | .cursor g _ => g
  | .bucketDone g _ _ => g
  | .rootsSaved g _ => g
  | .saved g _ _ _ => g
  | .lastGasp g _ _ _ _ => g
  | .restoreStarted g _ _ _ => g
  | .memoryReady g _ => g
  | .restoreInterrupted g _ _ _ => g
  | .restored g _ _ _ _ => g
  | .basinErased g _ => g
  | .checkpoint _ _ _ => 0
  | .settled _ => 0
  | .shutdownClean _ _ _ _ => 0
  | .sanitized => 0
  | .channelIsolated _ => 0
  | .other _ => 0

/-- A CHECKPOINT commit, which the root area always takes (R440). -/
def Commit.isCheckpoint : Commit → Bool
  | .checkpoint _ _ _ => true
  | _ => false

/-- Commit to the ledger with PWR_TIME; while the ledger is failed the commit is held in the ring (R147, R179, R340). The
root area takes every CHECKPOINT, and while the ledger is failed every other commit too (R440). A write is one step, so that
no failure interrupts a record (DESIGN CHOICE, log 112). -/
def commit (c : Commit) (s : State) : State :=
  let s := if c.isCheckpoint then rootWrite 2 c.gen (some c) [] s
    else if s.ledger.failed then rootWrite 3 c.gen (some c) [] s else s
  if s.ledger.failed then holdCommit c s
  else s.onLedger fun l => { l with commits := { time := s.tb.now, commit := c } :: l.commits }

/-- The newest record of a type in the root area (R440), unless the held commits have it. -/
def rootCommit (l : Ledger) (typ : Nat) : List LedgerRec :=
  match l.ring.find? fun r => decide (r.typ = typ) with
  | some { commit := some c, time := t, .. } =>
    if l.fallback.any fun x => decide (x.commit = c ∧ x.time = t) then [] else [{ time := t, commit := c }]
  | _ => []

/-- What is held outside the ledger, newest first (R161, R340, R440): a commit of the root area that the exported ring lacks is
newer than the ring's, but a CHECKPOINT from before the failure is older. -/
def heldCommits (l : Ledger) : List LedgerRec := rootCommit l 5 ++ rootCommit l 3 ++ l.fallback ++ rootCommit l 2

/-- Every commit the restore reads, newest first (R161): the held ones before the ledger's; while the ledger is failed, only
those of the root area and the exported ring. -/
def allCommits (s : State) : List LedgerRec :=
  if s.ledger.failed then heldCommits s.ledger else s.ledger.fallback ++ s.ledger.commits

/-! ## Layouts -/

/-- Bytes of a native record before its CRC: header and snapshot (R337). -/
def wlHeader (r : WlRec) : List Byte :=
  leBytes 8 r.time ++ leBytes 8 r.seq ++ leBytes 2 r.source.toNat ++ leBytes 1 r.severity.val
    ++ leBytes 1 r.snapshot.length ++ leBytes 2 r.code.toNat
    ++ leBytes 1 (b2n r.staged + 2 * b2n r.partial' + 4 * b2n r.fallback + 8 * b2n r.conseq)
    ++ leBytes 1 0 ++ leBytes 4 r.arg.toNat

/-- Bytes of the snapshot values (R337). -/
def wlSnap (r : WlRec) : List Byte := (r.snapshot.map fun w => leBytes 8 w.toNat).flatten

/-- A record in native format (R337). -/
def wlNative (r : WlRec) : List Byte :=
  wlHeader r ++ leBytes 4 (crc32c (wlHeader r ++ wlSnap r)).toNat ++ wlSnap r

/-- Type byte of an FB3 record (R338). -/
def fb3Type (r : WlRec) : Nat :=
  let c := r.code.toNat / 256
  if c = 6 ∨ c = 7 then 0x20
  else if c = 3 ∨ c = 4 then 0x21
  else if r.severity.val ≤ 2 then 0x10
  else if r.severity.val ≤ 4 then 0x11
  else if r.severity.val ≤ 6 then 0x12
  else 0x13

/-- A record in FB3 format (R338). -/
def wlFb3 (r : WlRec) : List Byte :=
  leBytes 1 (fb3Type r) ++ leBytes 1 (17 + 8 * r.snapshot.length) ++ leBytes 8 r.time
    ++ leBytes 1 r.severity.val ++ leBytes 2 r.code.toNat ++ leBytes 4 r.arg.toNat
    ++ leBytes 2 r.source.toNat ++ wlSnap r

end Sys2Proof.Machine
end

