-- ==== Sys2Proof/Machine/Operands.lean ====
section
/-! DEFINITION. What the operands of the commands stand for: the privilege and requester of a path
(R353, R356), the gauge quantities of a string (R314, R315) and the interpolations of the pack
descriptor (R310). -/

namespace Sys2Proof.Machine

/-! ## Requesters -/

/-- The privilege a path carries (R353), as the bit of R64: H 0, P 1, O 2. -/
def privilege : Path → Nat
  | .mailbox _ => 0
  | .doe _ => 0
  | .vdm _ => 0
  | .smbus _ => 1
  | .secured _ owner overSmbus _ => if owner then 2 else if overSmbus then 1 else 0

/-- Number of a requester's session (R356): one per head, endpoint or secured session. -/
def sessionKey : Path → Nat
  | .mailbox h => h.val
  | .doe h => 2 + h.val
  | .vdm e => 4 + 4 * e
  | .smbus e => 5 + 4 * e
  | .secured i _ _ _ => 6 + 4 * i

/-- Holder transport of R64. -/
def transport : Path → Nat
  | .mailbox h => h.val
  | .doe h => h.val
  | .smbus _ => 2
  | .vdm _ => 3
  | .secured _ _ _ _ => 4

/-- Holder endpoint of R64: the MCTP endpoint ID, 0 for a mailbox. -/
def endpoint : Path → Nat
  | .vdm e => e
  | .smbus e => e
  | .secured _ _ true e => e
  | _ => 0

/-! ## Status codes (R364) -/

/-- The request was carried out (R364). -/
def stOk : Nat := 0
/-- A resource is held or unavailable (R364). -/
def stBusy : Nat := 1
/-- No such index or subindex (R364). -/
def stNoEntry : Nat := 2
/-- The access code or the privilege forbids it (R364). -/
def stAccess : Nat := 3
/-- The length or offset does not fit the type (R364). -/
def stType : Nat := 4
/-- A value, count or byte offset is outside its range (R364). -/
def stRange : Nat := 5
/-- A data length of 0 (R364). -/
def stLengthZero : Nat := 6
/-- The device's present state forbids it (R364). -/
def stState : Nat := 7
/-- The owner lock or the 0xF000 range (R364). -/
def stLocked : Nat := 8
/-- A signature or certificate check failed (R364). -/
def stAuth : Nat := 9
/-- Data failed its digest or CRC (R364). -/
def stIntegrity : Nat := 10
/-- A version was not accepted (R364). -/
def stVersion : Nat := 11
/-- No such session, or its state has ended (R364). -/
def stSession : Nat := 12
/-- An update block overlaps an accepted one (R364). -/
def stOverlap : Nat := 13
/-- Serial memory or the ledger failed (R364). -/
def stMedia : Nat := 14
/-- Firmware could not finish (R364). -/
def stInternal : Nat := 15

/-! ## Interpolation (R310) -/

/-- Linear interpolation between (x0, y0) and (x1, y1). -/
def lerp (x0 y0 x1 y1 x : Rat) : Rat :=
  if x1 = x0 then y0 else y0 + (y1 - y0) * (x - x0) / (x1 - x0)

/-- A value over ascending points, clamped to the end points (R310). -/
def interp (x : Rat) : List (Rat × Rat) → Rat
  | [] => 0
  | [(_, y)] => y
  | (x0, y0) :: (x1, y1) :: t =>
    if x ≤ x0 then y0 else if x ≤ x1 then lerp x0 y0 x1 y1 x else interp x ((x1, y1) :: t)

/-- A descriptor field indexed by temperature, at `t` degrees (R310). -/
def atTemp (d : PackDescriptor) (l : List Nat) (t : Rat) : Rat :=
  interp t ((d.temps.map (fun x : Int => (x : Rat))).zip (l.map (fun x : Nat => (x : Rat))))

/-- OCV per cell in mV at a state of charge in percent and a temperature (R310). -/
def ocvAt (d : PackDescriptor) (soc t : Rat) : Rat :=
  interp (soc * 100) ((d.soc.map (fun x : Nat => (x : Rat))).zip (d.ocv.map fun row => atTemp d row t))

/-- The state of charge whose OCV at `t` is `mv` per cell: the same table read the other way (R312). -/
def socAt (d : PackDescriptor) (mv t : Rat) : Rat :=
  interp mv ((d.ocv.map fun row => atTemp d row t).zip (d.soc.map fun x : Nat => (x : Rat) / 100))

/-- Slope of the OCV table in mV per percent where its value is `mv` (R312). -/
def ocvSlope (mv : Rat) : List (Rat × Rat) → Rat
  | (y0, x0) :: (y1, x1) :: t =>
    if mv ≤ y1 ∨ t.isEmpty then (if x1 = x0 then 0 else (y1 - y0) / (x1 - x0))
    else ocvSlope mv ((y1, x1) :: t)
  | _ => 0

/-! ## A string's quantities (R314, R315) -/

/-- String temperature in degrees. -/
def strTemp (b : BatString) : Rat := (b.sample.temp : Rat) / 10

/-- Days of PWR_TIME between two instants. -/
def daysBetween (a b : Int) : Rat := ((b - a : Int) : Rat) / (nsPerDay : Rat)

/-- C_lb in mAh (R314, R427). -/
def capacityLb (d : PackDescriptor) (b : BatString) (now : Nat) : Rat :=
  match b.learned with
  | none => (d.cNom : Rat) * 8 / 10
  | some q =>
    match b.fadeRate, b.learn with
    | some r, some t => (q : Rat) * (1 - r * daysBetween t now / 100)
    | _, _ => q

/-- s_lb in percent (R312). -/
def socLb (b : BatString) : Rat := if b.known then max 0 (b.s - b.u) else 0

/-- e_lb in J (R315). -/
def energyLb (d : PackDescriptor) (b : BatString) (now : Nat) : Rat :=
  (d.eNom : Rat) * (capacityLb d b now / d.cNom) * socLb b / 100

/-- v_oc in V (R315): no higher than at the power reference SOC. -/
def voc (d : PackDescriptor) (b : BatString) : Rat :=
  (d.series : Rat) * ocvAt d (min (socLb b) ((d.sp : Rat) / 100)) (strTemp b) / 1000

/-- res_ub in ohm (R315): r_max until rho is measured. Resistances are in units of 10 microohm. -/
def resUb (d : PackDescriptor) (b : BatString) : Rat :=
  match b.rho with
  | some r => (d.series : Rat) * atTemp d d.rTyp (strTemp b) * max 1 r / 100000
  | none => (d.series : Rat) * atTemp d d.rMax (strTemp b) / 100000

/-- k_t (R315). -/
def ktAt (d : PackDescriptor) (b : BatString) : Rat := atTemp d d.kt (strTemp b) / 10000

/-- v_cut in V (R315). -/
def vCut (d : PackDescriptor) : Rat := (d.series * d.cutoffMv : Nat) / (1000 : Rat)

/-- Fade of a string in percent of C_nom (R314, R427): 0 for a string not learned. -/
def fadePct (d : PackDescriptor) (b : BatString) : Rat :=
  match b.learned with
  | none => 0
  | some q => 100 * (1 - (q : Rat) / d.cNom)

end Sys2Proof.Machine
end

