-- ==== Sys2Proof/Machine/Weir.lean ====
section
/-! DEFINITION. The Weir: the formula of the level from its bounds (R110 to R119), exactly in
rationals and rounded down once, and what enforcement notices when the residue or the level changes:
excess episodes (R125) and the causes of Sprint (R97). -/

namespace Sys2Proof.Machine

/-! ## Rates (R113, R114) -/

/-- One gigabyte in bytes: rates are decimal (R5, R114). -/
def gb : Rat := 1000000000

/-- eta (R112, 0x2022:01), as stored in Q16.16. -/
def eta (s : State) : Rat := (s.cfg.board.etaQ16 : Rat) / 65536

/-- p_aux, p_floor and slope in W and W per GB/s (R112). -/
def pAux (s : State) : Rat := (s.cfg.board.pAuxMw : Rat) / 1000
/-- p_floor in W. -/
def pFloor (s : State) : Rat := (s.cfg.board.pFloorMw : Rat) / 1000
/-- slope in W per GB/s. -/
def slope (s : State) : Rat := (s.cfg.board.slopeMw : Rat) / 1000

/-- p_mod(r) in W (R113). -/
def pMod (s : State) (r : Rat) : Rat := max (pFloor s) (slope s * r) + pAux s

/-- s_die in GB/s: measured once 1,000 pSLC programs are timed since the start from DARK, else the
board profile's (R112, R222). -/
def sDie (s : State) : Rat :=
  if 1000 ≤ s.flash.programs ∧ s.flash.t999 ≠ 0 then 65536 / (s.flash.t999 : Rat)
  else (s.cfg.board.sDieMBs : Rat) / 1000

/-- The number of dies that hold erased Basin blocks, of those that count (R114, R120). -/
def basinDies (s : State) : Nat := if s.basin.counted then (erasedDies s).length else 0

/-- r_full in GB/s (R114). -/
def rFull (s : State) : Rat := (basinDies s : Rat) * sDie s * (1 - (s.plan.derate : Rat) / 10000)

/-- p_max in W of a string with open-circuit voltage `v` and resistance `r` (R114). -/
def pMax (d : PackDescriptor) (v r : Rat) : Rat :=
  if v ≤ vCut d then 0 else vCut d * min ((d.iLimMa : Rat) / 1000) ((v - vCut d) / r)

/-- r_p in GB/s (R114). -/
def rP (s : State) (p : Rat) : Rat :=
  if p * eta s < pFloor s + pAux s then 0 else (p * eta s - pAux s) / slope s

/-! ## Bounds (R115) -/

/-- t_cap in s (0x2020). -/
def tCap (s : State) : Rat := (s.od.set.tCapS : Rat)

/-- The energy bound in bytes for a usable energy and a planned rate (R115). -/
def energyBound (s : State) (e k rPlan : Rat) : Rat :=
  if rPlan = 0 then 0
  else max 0 (e * k * eta s - s.cfg.board.eFixJ) * rPlan / pMod s rPlan * gb

/-- The Basin bound in bytes (R115). -/
def basinBound (s : State) : Rat :=
  max 0 ((basinErased s : Rat) * (1 - (s.cfg.board.fAllocPct : Rat) / 100) - s.cfg.metaReserve)

/-- The owner cap in bytes (0x2003). -/
def ownerCap (s : State) : Nat := s.od.set.ownerCapMiB * mib

/-- A level: the minimum bound less a margin in percent, rounded down to 4 KiB (R110). -/
def levelOf (m : Rat) (marginPct : Nat) : Nat :=
  ((m * (1 - (marginPct : Rat) / 100)).floor.toNat) / pageBytes * pageBytes

/-- Energy, power and time bounds and r_plan of one string (R111, R115). -/
structure StrBounds where
  energy : Rat
  power : Rat
  time : Rat
  rPlan : Rat
  deriving DecidableEq, Repr

/-- The bounds one string gives (R113 to R115). -/
def strBounds (s : State) (d : PackDescriptor) (x : Str) : StrBounds :=
  let b := strOf s x
  let p := rP s (pMax d (voc d b) (resUb d b))
  let rp := min p (rFull s)
  { energy := energyBound s (energyLb d b s.tb.now) (ktAt d b) rp
    power := tCap s * p * gb
    time := tCap s * rFull s * gb
    rPlan := rp }

/-- The least of a string's bounds. -/
def StrBounds.least (b : StrBounds) : Rat := min b.energy (min b.power b.time)

/-- The weaker counted string and its bounds; string A when both give the same (R111). -/
def weaker (s : State) : Option (Str × StrBounds) :=
  match s.bat.desc with
  | none => none
  | some d =>
    if isCounted s .a then
      if isCounted s .b then
        let a := strBounds s d .a
        let b := strBounds s d .b
        if b.least < a.least then some (.b, b) else some (.a, a)
      else some (.a, strBounds s d .a)
    else if isCounted s .b then some (.b, strBounds s d .b)
    else none

/-- The level with a margin, computed from given string bounds (R110). -/
def levelFrom (s : State) (b : StrBounds) (marginPct : Nat) : Nat :=
  levelOf (min b.least (min (basinBound s) (ownerCap s))) marginPct

/-- The computed level with a margin; 0 with no counted string (R110, R111). -/
def computedLevel (s : State) (marginPct : Nat) : Nat :=
  match weaker s with
  | none => 0
  | some (_, b) => levelFrom s b marginPct

/-- The level one string alone would give (R318). -/
def levelAlone (s : State) (x : Str) : Nat :=
  match s.bat.desc with
  | none => 0
  | some d => levelFrom s (strBounds s d x) s.od.set.margin

/-- The binding bound (R116): the first, in order, that equals the minimum. -/
def binding (b : StrBounds) (basin owner : Rat) : Nat :=
  let m := min b.least (min basin owner)
  if b.energy = m then 1 else if b.power = m then 2 else if b.time = m then 3
  else if basin = m then 4 else 5

/-- 0x2004 of this moment (R131). -/
def boundsNow (s : State) : Bounds :=
  match weaker s with
  | none => { at' := s.tb.now }
  | some (x, b) =>
    { energy := b.energy.floor.toNat
      power := b.power.floor.toNat
      time := b.time.floor.toNat
      basin := (basinBound s).floor.toNat
      owner := ownerCap s
      level := levelFrom s b s.od.set.margin
      rPlanMBs := (b.rPlan * 1000).floor.toNat
      rPlan := b.rPlan
      binding := binding b (basinBound s) (ownerCap s)
      at' := s.tb.now
      weaker := match x with
        | .a => 0
        | .b => 1 }

/-- The worst-case level of the floor (R119), in bytes: r_full without derating, over the dies in force, which are those
of R114. -/
def worstLevel (s : State) (d : PackDescriptor) : Nat :=
  let t : Rat := d.opMinC
  let v := (d.series : Rat) * ocvAt d 100 t / 1000
  let r := (d.series : Rat) * atTemp d d.rMax t / 100000
  let p := rP s (pMax d v r)
  let full := (basinDies s : Rat) * sDie s
  let rp := min p full
  let e := energyBound s ((d.eNom : Rat) * 7 / 10) (atTemp d d.kt t / 10000) rp
  levelOf (min e (min (tCap s * p * gb) (tCap s * full * gb))) s.od.set.margin

/-- The floor in MiB (R119): the least of the limit, the owner cap and the worst case. -/
def floorMiB (s : State) : Nat :=
  match s.bat.desc with
  | none => 0
  | some d => min s.od.set.floorLimitMiB (min s.od.set.ownerCapMiB (worstLevel s d / mib))

/-! ## Sprint (R97) -/

/-- The residue has reached the start threshold of Weir pressure (R97). -/
def sprintStartAt (s : State) : Bool :=
  decide (s.od.set.sprintStart * enforced s ≤ s.pm.residue * 100)

/-- The residue is below the stop threshold (R97). -/
def sprintStopAt (s : State) : Bool :=
  decide (s.pm.residue * 100 < s.od.set.sprintStop * enforced s)

/-- Some Sprint cause holds (R97), or a clean shutdown drains (R292). -/
def sprintWanted (s : State) : Bool := decide (sprintCause s ≠ 0) || decide (s.seq.shutdown = .draining)

/-- SPRINT_STARVED (R98): set while Sprint finds no erased pSLC-tier segment, and until one is erased. -/
def starvedCheck (s : State) : State :=
  s.onLake fun l => { l with starved := (l.starved || s.pm.sprint) && decide (erasedSegments s true = 0) }

/-- Start or stop Sprint as its causes stand, counting starts and time (R97, R99). Sprint acts while
Outflow is enabled and a crew is a member (R96, R170, R248). -/
def sprintRun (s : State) : State :=
  let on := sprintWanted s && outflowEnabled s && anyMember s
  starvedCheck <| s.onPm fun p =>
    if on && !p.sprint then
      { p with sprint := true, sprintSince := s.tb.now, sprintStarts := p.sprintStarts + 1 }
    else if !on && p.sprint then
      { p with sprint := false, sprintNs := p.sprintNs + (s.tb.now - p.sprintSince) }
    else p

/-- Re-evaluate the causes of Sprint after the residue or the level changed (R97). -/
def sprintCheck (s : State) : State :=
  let start := sprintStartAt s
  let stop := sprintStopAt s
  sprintRun (s.onPm fun p =>
    { p with
      causeWeir := (p.causeWeir || start) && !stop
      causeHold := p.causeHold && !stop
      causeUnprot := s.host.unprotected || (p.causeUnprot && !stop)
      outflowRun := outflowEnabled s })

/-! ## Excess episodes (R125) -/

/-- Compare the residue with the enforced level after a change whose cause has this code (R125). The overshoot that R124
counts for a line rebuild has cause 4 here: it is no overshoot of R122, and neither counts in the episode's overshoots nor
brings record 0x0504 (DESIGN CHOICE, log 55). -/
def episodeCheck (cause : Nat) (s : State) : State :=
  let lvl := enforced s
  let r := s.pm.residue
  let s := s.onWeir fun w => { w with excessMax := max w.excessMax (r - lvl) }
  match s.weir.episode with
  | none =>
    if lvl < r then
      let ep : Episode := { since := s.tb.now, severe := decide (cause = 0),
                            overshoots := b2n (decide (cause = 0)), maxExcess := r - lvl }
      let s := s.onWeir fun w => { w with episodes := satInc 0xFFFF w.episodes, episode := some ep }
      record 0x0500 (if cause = 0 then 4 else 3) 0x2240 cause s
    else s
  | some e =>
    if r < lvl then
      let s := s.onWeir fun w => { w with episode := none }
      recordWith 0x0501 2 0x2240 (sat 0xFFFFFFFF ((s.tb.now - e.since) / nsPerMs)) false false
        [word e.overshoots, word e.maxExcess] s
    else
      let first := decide (cause = 0) && !e.severe
      let ep : Episode := { e with severe := e.severe || decide (cause = 0),
                                   overshoots := e.overshoots + b2n (decide (cause = 0)),
                                   maxExcess := max e.maxExcess (r - lvl) }
      let s := s.onWeir fun w => { w with episode := some ep }
      if first then record 0x0504 4 0x2240 (sat 0xFFFFFFFF ((s.tb.now - e.since) / nsPerMs)) s else s

/-- What follows every change of the residue or of the enforced level (R97, R125). -/
def weirCheck (cause : Nat) (s : State) : State := sprintCheck (episodeCheck cause s)

end Sys2Proof.Machine
end

