-- ==== Sys2Proof/Machine/PageMap.lean ====
section
/-! DEFINITION. The page map as the dirty filter keeps it (R86 to R93): buckets, the residue counter,
the drain table, the dirty log, the transitions of a page, and the admission of held writes (R121 to
R124). Every change of a page's state goes through one of these operations. -/

namespace Sys2Proof.Machine

/-! ## Dirty log (R153, R155) -/

/-- Entries of the 256 KiB tail and of the 4 MiB spill area, 8 bytes each (R155). -/
def tailEntries : Nat := 32768
/-- Entries of the spill area. -/
def spillEntries : Nat := 524288

/-- The 64 bits of an entry (R153): KIND, SLOT for DIRTY, TAG for MARK and COMPLETE, PAGE. -/
def LogEntry.encode : LogEntry → BitVec 64
  | .reset page => BitVec.ofNat 64 (page % 2 ^ 29)
  | .dirty slot page => BitVec.ofNat 64 (1 * 2 ^ 62 + slot % 16 * 2 ^ 58 + page % 2 ^ 29)
  | .mark tag page => BitVec.ofNat 64 (2 * 2 ^ 62 + tag % 2 ^ 24 * 2 ^ 34 + page % 2 ^ 29)
  | .complete tag page => BitVec.ofNat 64 (3 * 2 ^ 62 + tag % 2 ^ 24 * 2 ^ 34 + page % 2 ^ 29)

/-- Append one entry: to the tail, or, when the tail is full, to the ledger spill area; a full spill
area is chip fatal (R155), noted for `overflowCheck`. The dirty-log position rises by one entry (R153). -/
def logAppend (e : LogEntry) (s : State) : State :=
  s.onLog fun l =>
    let l := { l with pos := l.pos + 1 }
    if l.spill.isEmpty && decide (l.tail.length < tailEntries) then { l with tail := l.tail ++ [e] }
    else if l.spill.length < spillEntries then
      { l with spill := l.spill ++ [e], spills := l.spills + 1 }
    else { l with overflow := true }

/-- Every entry, oldest first: the log area, the tail, then the spilled entries. -/
def wholeLog (s : State) : List LogEntry := s.log.area ++ s.log.tail ++ s.log.spill

/-! ## Buckets (R69, R70, R88) -/

/-- The lowest free slot (R88). -/
def freeSlot (s : State) : Option Nat :=
  (List.range 16).find? fun n => (bucketAt s n).isNone

/-- The bucket in a slot changed by `f`. -/
def onBucket (slot : Nat) (f : Bucket → Bucket) (s : State) : State :=
  s.onPm fun p => { p with buckets := p.buckets.map fun b => if b.slot = slot then f b else b }

/-- Count one page more in a bucket (R88). -/
def countUp (slot : Nat) (s : State) : State := onBucket slot (fun b => { b with pages := b.pages + 1 }) s

/-- Count one page less in a bucket (R88). -/
def countDown (slot : Nat) (s : State) : State :=
  onBucket slot (fun b => { b with pages := b.pages - 1 }) s

/-- COARSENED changes, raising vector 4 (R49, R70). -/
def setCoarsened (on : Bool) (s : State) : State :=
  if s.host.coarsened = on then s else vector 4 (s.onHost fun h => { h with coarsened := on })

/-- The ledger's bucket table once only the slots that satisfy `live` hold a bucket: each other one records its retirement at
a log position (R153). -/
def ledgerRetire (live : Nat → Bool) (pos : Nat) (l : List (Nat × LedgerBucket)) : List (Nat × LedgerBucket) :=
  l.map fun x => if live x.1 || x.2.retirePos.isSome then x else (x.1, { x.2 with retirePos := some pos })

/-- Retire every bucket that holds no page and is not the newest (R69); a slot that frees closes a
bucket that waits for it (R73). The ledger's bucket table records what retires (R153). -/
def retireEmpty (s : State) : State :=
  match s.pm.buckets.getLast? with
  | none => s
  | some newest =>
    let keep := s.pm.buckets.filter fun b => decide (b.pages ≠ 0) || decide (b.openSeq = newest.openSeq)
    let keep := if keep.length < 16 then
        keep.map fun b => if b.closeWhenFree then { b with isOpen := false, closeWhenFree := false } else b
      else keep
    (s.onPm fun p => { p with buckets := keep }).onLedger fun l =>
      { l with buckets := ledgerRetire (fun slot => keep.any fun b => decide (b.slot = slot)) s.log.pos l.buckets }

/-- Open a bucket in a slot: its first host epoch is HST_EPOCH (R69), COARSENED clears (R70), and the
ledger's bucket table records it (R153). -/
def openBucket (slot : Nat) (s : State) : State :=
  let b : Bucket := { slot := slot, epoch := s.host.epoch, openSeq := s.pm.nextSeq, isOpen := true,
                      pages := 0 }
  let s := s.onPm fun p => { p with buckets := p.buckets ++ [b], nextSeq := p.nextSeq + 1 }
  setCoarsened false (s.onLedger fun l =>
    { l with buckets := tabIns slot { epoch := b.epoch, openPos := s.log.pos } l.buckets })

/-- A first-write joins a closed newest bucket while all 16 slots are in use (R70). A later epoch
coarsens the bucket, once. -/
def joinNewest (b : Bucket) (s : State) : State :=
  if b.epoch < s.host.epoch && !b.coarsened then
    let s := setCoarsened true (onBucket b.slot (fun x => { x with coarsened := true }) s)
    record 0x0502 3 0x2200 (b.epoch % 2 ^ 32) s
  else s

/-- The slot a page enters when a host write makes it DIRTY, and the state with that bucket open or
joined (R69, R70). -/
def enterNewest (s : State) : State × Nat :=
  match newestBucket s with
  | some b =>
    if b.isOpen then (s, b.slot)
    else match freeSlot s with
      | some n => (openBucket n s, n)
      | none => (joinNewest b s, b.slot)
  | none => (openBucket 0 s, 0)

/-- The slot a rebuilt or re-drained page enters: the oldest live bucket, or a new one (R69). -/
def enterOldest (s : State) : State × Nat :=
  match s.pm.buckets.head? with
  | some b => (s, b.slot)
  | none => (openBucket 0 s, 0)

/-! ## Entries and residue -/

/-- The filter holds a map line (R90): a line it lacks takes a free way of its set, or one it evicts. -/
def cacheTouch (line : Nat) (dirty : Bool) (p : PageMap) : PageMap :=
  match tabFind line p.cache with
  | some d => { p with cache := tabIns line (d || dirty) p.cache }
  | none =>
    let ways := p.cache.filter fun x => decide (x.1 % 4096 = line % 4096)
    if ways.length < 16 then { p with cache := tabIns line dirty p.cache }
    else
      let v := (ways.getD (Config.filterVictim p.evictions % 16) (0, false)).1
      { p with cache := tabIns line dirty (tabDel v p.cache), evictions := p.evictions + 1 }

/-- Map line of a page: 32 entries (R90). -/
def lineOfMap (page : Nat) : Nat := page / 32

/-- Write a page's entry (R86) through the dirty filter, whose line of it turns dirty (R90). -/
def setPage (page : Nat) (e : PageEntry) (s : State) : State :=
  s.onPm fun p => cacheTouch (lineOfMap page) true { p with pages := tabSet {} page e p.pages }

/-- Every dirty line of the filter is written back (R90, R138). -/
def writeBack (s : State) : State := s.onPm fun p => { p with cache := p.cache.map fun x => (x.1, false) }

/-- The residue counter rises by a page (R88). -/
def residueUp (s : State) : State := s.onPm fun p => { p with residue := p.residue + pageBytes }
/-- The residue counter falls by a page (R88). -/
def residueDown (s : State) : State := s.onPm fun p => { p with residue := p.residue - pageBytes }

/-- The lost-range list drops a page that was LOST (R178). -/
def dropLost (page : Nat) (s : State) : State :=
  s.onPm fun p => { p with reasons := tabSet .cursor page .cursor p.reasons, lostTime := s.tb.now }

/-- A page becomes LOST with poison on every line (R77, R163, R176). -/
def markLost (page : Nat) (why : LostReason) (carried : Bool) (s : State) : State :=
  let s := setPage page { state := .lost, carried := carried } s
  poisonPage page (s.onPm fun p =>
    { p with reasons := tabSet .cursor page why p.reasons, lostTime := s.tb.now
             lostSince := tabIns page (some why) p.lostSince })

/-- A page whose data is in the Lakebed is no page of a lost list that an earlier checkpoint wrote (R78, R178; log 95). -/
def lostNoMore (page : Nat) (s : State) : State := s.onPm fun p => { p with lostSince := tabIns page none p.lostSince }

/-- A CLEAN or LOST page becomes DIRTY by a host write (R93, rows 1 and 3). -/
def firstWrite (page : Nat) (s : State) : State :=
  let wasLost := decide (pageState s page = .lost)
  let (s, slot) := enterNewest s
  let s := setPage page { state := .dirty, bucket := slot, hot := hotTick s } s
  let s := if wasLost then dropLost page s else s
  logAppend (.dirty slot page) (retireEmpty (countUp slot (residueUp s)))

/-- A window entry of a page names the newest bucket, whose first host epoch the ledger's bucket table gives it (R171, R175).
-/
def windowEntry (page : Nat) (s : State) : State :=
  s.onLog fun l => { l with window := l.window ++ [(page, match newestBucket s with
    | some b => b.epoch
    | none => 0)] }

/-- A host write to a DIRTY page stamps HOT_HOLD (R93, row 4). The first write to a restored residue
page in the early-open window sets TOUCHED and writes a window entry (R171). -/
def dirtyWrite (page : Nat) (s : State) : State :=
  let s := setPage page { pageEntry s page with hot := hotTick s } s
  if inWindow s && !s.rst.touched.contains page then
    let s := s.onRst fun r => { r with touched := setIns page r.touched }
    let s := windowEntry page s
    match newestBucket s with
    | some b => logAppend (.dirty b.slot page) s
    | none => s
  else s

/-- Valid drain-table entry of a page (R89). -/
def drainOf (s : State) (page : Nat) : Option (Nat × DrainEntry) :=
  s.pm.drains.find? fun d => d.2.page = page

/-- A drain-table entry written (R89). -/
def setDrain (idx : Nat) (d : DrainEntry) (s : State) : State :=
  s.onPm fun p => { p with drains := tabIns idx d p.drains }

/-- A drain-table entry freed (R93). -/
def freeDrain (idx : Nat) (s : State) : State := s.onPm fun p => { p with drains := tabDel idx p.drains }

/-- The bucket that a page's BUCKET field alone counts it in, while it drains under an entry already LINKED (R88). -/
def leftBucket (s : State) (page : Nat) : Option Nat :=
  match drainOf s page with
  | some (_, d) => if d.linked then some (pageEntry s page).bucket else none
  | none => none

/-- A host write to a DRAINING page: DIRTY again in the newest bucket, PRIOR and LINKED (R71, R93). Where the entry was LINKED
already, its bucket is the older one it keeps, and the bucket that BUCKET leaves loses the page, since a count is what the
BUCKET fields and the linked entries name (R88); R93's row names only the new bucket's +1 (DEDUCED, log 66). -/
def drainingWrite (page : Nat) (s : State) : State :=
  let left := leftBucket s page
  let (s, slot) := enterNewest s
  let s := setPage page { state := .dirty, bucket := slot, hot := hotTick s, prior := true } s
  let s := match drainOf s page with
    | some (i, d) => setDrain i { d with linked := true } s
    | none => s
  let s := countUp slot s
  let s := match left with
    | some b => countDown b s
    | none => s
  logAppend (.dirty slot page) (retireEmpty s)

/-- What a host write does to its page's entry, by its state (R93). In the window a first-write also
counts as a window write (R171). -/
def pageWrite (page : Nat) (s : State) : State :=
  match pageState s page with
  | .dirty => dirtyWrite page s
  | .draining => drainingWrite page s
  | _ =>
    let s := firstWrite page s
    if inWindow s then
      windowEntry page (s.onRst fun r => { r with touched := setIns page r.touched })
    else s

/-- E_lost with one more bucket that lost a page (R79). -/
def lowerElost (e : Nat) (s : State) : State := s.onHost fun h => { h with elost := min h.elost e }

/-- A page becomes LOST by a media failure (R172, R176): E_lost falls to `e`. -/
def mediaLost (page e : Nat) (s : State) : State :=
  let x := pageEntry s page
  let s := if x.state = .dirty then retireEmpty (countDown x.bucket (residueDown s)) else s
  let s := lowerElost e (markLost page .media false s)
  let s := s.onRst fun r =>
    { r with mediaLoss := true, marked := if r.committed then r.marked else r.marked + 1
             last := { r.last with media := r.last.media + 1 } }
  record 0x0403 5 0x3A80 0 s

/-- A CLEAN page is drained again from DRAM after its Lakebed copy is found lost (R93, R105, R216,
R219); any other page is unchanged, and every page from the fence on (R93, R137). -/
def redrain (page : Nat) (s : State) : State :=
  if pageState s page = .clean && !s.host.fence then
    let (s, slot) := enterOldest s
    let s := setPage page { state := .dirty, bucket := slot, hot := coldTick s } s
    weirCheck 5 (logAppend (.dirty slot page) (countUp slot (residueUp s)))
  else s

/-- The place of a page's Lakebed copy is lost (R105): it is drained again, but a CLEAN page that the restore has not yet brought
back has no other copy and is LOST, as one whose unit fails decode (R176; DEDUCED, log 114). -/
def placeLost (page : Nat) (s : State) : State :=
  if restoring s && !pageRestored s page && !s.host.fence then
    if pageState s page = .clean then mediaLost page 0 s else s
  else redrain page s

/-! ## The write buffer (R30, R39, R122, R123) -/

/-- A page's channel is in block reset (R194). -/
def inBlockReset (s : State) (page : Nat) : Bool :=
  match s.dram.channels[channelOfPage s page]? with
  | some c => decide (c.state = .blockReset)
  | none => false

/-- Entry `i` of the write buffer changed by `f`. -/
def onEntry (i : Nat) (f : WEntry → WEntry) (s : State) : State :=
  s.onWb fun w => { w with entries := listUpd i f w.entries }

/-- Complete an admitted write: its completion is issued when it sits in the buffer and its page is
admitted (R30), unless its channel is in block reset (R194) or the fence is applied (R137). -/
def finishEntry (i : Nat) (e : WEntry) (s : State) : State :=
  if inBlockReset s (pageOf e.line) then onEntry i (fun e => { e with phase := .inReset }) s
  else
    let s := onEntry i (fun e => { e with phase := .admitted }) s
    if s.host.fence then s else say (.complete e.head e.id) s

/-- Admit entry `i`: its page takes the write, then the write completes (R30, R93). -/
def admitEntry (i : Nat) (e : WEntry) (s : State) : State :=
  finishEntry i e (pageWrite (pageOf e.line) s)

/-- Index of the first entry of a list that satisfies `p`. -/
def firstIdx (p : WEntry → Bool) : List WEntry → Nat → Option (Nat × WEntry)
  | [], _ => none
  | e :: t, i => if p e then some (i, e) else firstIdx p t (i + 1)

/-- Admit the writes that waited behind a held write to their page, in arrival order (R123). -/
def admitBehind (page : Nat) : Nat → State → State
  | 0, s => s
  | n + 1, s =>
    match firstIdx (fun e => decide (e.phase = .behind) && decide (pageOf e.line = page))
        s.wb.entries 0 with
    | none => s
    | some (i, e) => admitBehind page n (admitEntry i e s)

/-- Admit a held write and what waits behind it (R122, R123). -/
def admitHeldAt (i : Nat) (e : WEntry) (s : State) : State :=
  let s := admitEntry i e s
  admitBehind (pageOf e.line) s.wb.entries.length s

/-- Cause code of a change that is no overshoot and lowers no level (R125): an admission with room
cannot exceed the level, so it opens an episode only while UNPROTECTED holds the level at 0, which is
the lower publication of code 1 (log 23). -/
def ordinary : Nat := 1

/-- The test of R121: room is below the enforced level; never held while UNPROTECTED. -/
def roomFor (s : State) : Bool := s.host.unprotected || decide (s.pm.residue < enforced s)

/-- Retest held writes in arrival order while room lasts (R122, R123, R124). -/
def retestHeld : Nat → State → State
  | 0, s => s
  | n + 1, s =>
    match firstIdx (fun e => decide (e.phase = .heldWeir)) s.wb.entries 0 with
    | none => s
    | some (i, e) => if roomFor s then retestHeld n (weirCheck ordinary (admitHeldAt i e s)) else s

/-- Retest after a change of the residue or the enforced level (R122 step 2). -/
def retest (s : State) : State := retestHeld s.wb.entries.length s

/-- The Weir test on entry `i`, a write to a CLEAN or LOST page: admitted with room and no earlier
held write, else held (R121, R123). -/
def testEntry (i : Nat) (e : WEntry) (s : State) : State :=
  if roomFor s && !holdActive s then weirCheck ordinary (admitHeldAt i e s)
  else
    let s := onEntry i (fun e => { e with phase := .heldWeir }) s
    s.onHost fun h => { h with holds := satInc 0xFFFFFFFF h.holds }

/-- The page that holds a reserved page: itself, or in degraded operation, where its channel is out, its donor (R198). The
reserved pages of one channel are one of every 8, or of every 4 on a part of 4 channels (R182). -/
def reservedAt (s : State) (page : Nat) : Nat :=
  if s.dram.donors.isEmpty then page
  else if (s.dram.channels.getD (channelOfPage s page) {}).out then
    s.dram.donors.getD ((page - s.cfg.visiblePages) / s.cfg.dramChannels) page
  else page

/-- Channel that holds a page's map line (R86, R182, R198). -/
def mapChannel (s : State) (page : Nat) : Nat := channelOfPage s (reservedAt s (mapAddr s.cfg page / pageBytes))

/-- The page's map line misses in the filter, and the channel it lives in is in block reset: the fetch waits for step 9 (R90,
R194). A cached line is decided in the filter at once (DEDUCED, log 101). -/
def lineWaits (s : State) (page : Nat) : Bool :=
  (tabFind (lineOfMap page) s.pm.cache).isNone &&
    decide ((s.dram.channels.getD (mapChannel s page) {}).state = .blockReset)

/-- The filter holds the page's map line, fetched where it missed (R90). -/
def fetchLine (page : Nat) (s : State) : State := s.onPm (cacheTouch (lineOfMap page) false)

/-- The dirty filter decides a write by its page's state (R93): admitted into a DIRTY or DRAINING page, else tested; a write
whose map line misses waits while the line's channel is in block reset, whatever the state turns out to be (R90, R194). -/
def testOrWait (i : Nat) (e : WEntry) (s : State) : State :=
  if lineWaits s (pageOf e.line) then onEntry i (fun x => { x with phase := .mapWait }) s
  else
    let s := fetchLine (pageOf e.line) s
    match pageState s (pageOf e.line) with
    | .dirty => admitHeldAt i e s
    | .draining => admitHeldAt i e s
    | _ => testEntry i e s

/-- Admit entry `i` as an overshoot (R122 step 3): count, flag, vector 4 and Sprint's cause. -/
def overshootEntry (i : Nat) (e : WEntry) (s : State) : State :=
  let s := vector 4 (s.onHost fun h =>
    { h with overshoots := satInc 0xFFFFFFFF h.overshoots, overshoot := true })
  let s := s.onPm fun p => { p with causeHold := true }
  weirCheck 0 (admitHeldAt i e s)

/-- Apply every entry that satisfies `p` and may be written, in arrival order (R138, R92). -/
def flush (p : WEntry → Bool) (s : State) : State :=
  let go := s.wb.entries.filter fun e => drainable s e && p e
  let s' := s.onWb fun w => { w with entries := w.entries.filter fun e => !(drainable s e && p e) }
  go.foldl (fun s e => applyEntry e s) s'

/-! ## Map operations (R92, R93) -/

/-- Append the result of a map operation (R92). -/
def pushResult (r : MapResult) (s : State) : State :=
  s.onPm fun p => { p with results := p.results ++ [r] }

/-- A free drain-table index (R89: 65,536 entries). R89 does not say which one an allocation takes: the lowest (DESIGN
CHOICE, log 67). -/
def freeIndex (s : State) : Option Nat :=
  (List.range (min 65536 (s.pm.drains.length + 1))).find? fun i => (tabFind i s.pm.drains).isNone

/-- The next GENERATION of an entry (R89): it increments with each allocation. The value it starts from is not the spec's:
it is 0 at reset, so the first tag of an index has generation 1 (DESIGN CHOICE, log 67). -/
def bumpGen (idx : Nat) (s : State) : State × Nat :=
  let g := (tabGet 0 idx s.pm.drainGens + 1) % 256
  (s.onPm fun p => { p with drainGens := tabSet 0 idx g p.drainGens }, g)

/-- Drain tag of an entry (R89). -/
def tagOf (gen idx : Nat) : Nat := gen * 65536 + idx

/-- The page becomes DRAINING under entry `idx` (R93): the entry is in flight with a new generation
and keeps `linked` and `bucket`. -/
def startDrain (page idx : Nat) (linked : Bool) (bucket : Nat) (s : State) : State :=
  let (s, g) := bumpGen idx s
  let s := setDrain idx { failed := false, linked := linked, bucket := bucket, gen := g, page := page } s
  let s := setPage page { pageEntry s page with state := .draining, prior := false } s
  pushResult (.tag page (tagOf g idx)) (logAppend (.mark (tagOf g idx) page) s)

/-- The buffer still holds a write of the page (R92). -/
def buffered (s : State) (page : Nat) : Bool := s.wb.entries.any fun e => decide (pageOf e.line = page)

/-- The page becomes DRAINING once no write of it is left in the buffer; until then the operation waits (R92, log 22). -/
def drainWhenEmpty (page : Nat) (start : State → State) (s : State) : State :=
  let s := flush (fun e => decide (pageOf e.line = page)) s
  if buffered s page then s.onPm fun p => { p with marks := setIns page p.marks } else start s

/-- MARK_DRAINING on one page (R92, R93). The write buffer is searched first: the page's admitted
writes reach DRAM before it becomes DRAINING. -/
def markOne (page : Nat) (s : State) : State :=
  if pageState s page ≠ .dirty then pushResult (.notDirty page) s
  else
    match drainOf s page with
    | some (i, d) =>
      if d.failed then drainWhenEmpty page (startDrain page i d.linked d.bucket) s
      else pushResult (.inFlight page) s
    | none =>
      match freeIndex s with
      | none => pushResult (.tableFull page) s
      | some i => drainWhenEmpty page (startDrain page i false (pageEntry s page).bucket) s

/-- The waiting operations whose pages have no write left in the buffer act (R92), while Outflow runs (R96). -/
def settleMarks (s : State) : State :=
  if s.host.fence || frozen s || !outflowEnabled s then s
  else
    let go := s.pm.marks.filter fun p => !buffered s p
    go.foldl (fun s p => markOne p s) (s.onPm fun p => { p with marks := p.marks.filter fun x => !go.contains x })

/-- The entry a tag names, if it is valid and its generation matches (R89). -/
def tagged (s : State) (tag : Nat) : Option DrainEntry :=
  match tabFind (tag % 65536) s.pm.drains with
  | some d => if d.gen = tag / 65536 then some d else none
  | none => none

/-- A result whose tag matches no valid entry is ignored and counted (R89). -/
def staleTag (tag : Nat) (s : State) : State :=
  pushResult (.stale tag) (s.onPm fun p => { p with stale := p.stale + 1 })

/-- Chunk of the mapping table that holds a page's entry: 16,384 entries, 64 KiB (R104). -/
def chunkOf (page : Nat) : Nat := page / 16384

/-- A page's mapping entry set to a unit; the superseded unit's segment and the new unit's segment
change their counts of valid units (R101, R103). -/
def setMapping (page seg unit : Nat) (s : State) : State :=
  s.onLake fun l =>
    let l := { l with changed := setIns (chunkOf page) l.changed }
    let drop (segs : List (Nat × Segment)) : List (Nat × Segment) := match tabFind page l.mapping with
      | some (g, _) =>
        let x : Segment := tabGet ({ } : Segment) g segs
        tabSet ({ } : Segment) g { x with valid := x.valid - 1 } segs
      | none => segs
    let add (segs : List (Nat × Segment)) : List (Nat × Segment) :=
      let x : Segment := tabGet ({ } : Segment) seg segs
      tabSet ({ } : Segment) seg { x with valid := x.valid + 1 } segs
    { l with mapping := tabIns page (seg, unit) l.mapping, segments := add (drop l.segments) }

/-- A relocation or a fold moves a page's entry (R103, R237): the change is a delta of the crews until it is written to DRAM;
with 65,536 of them the crews have written them all. -/
def moveMapping (d : MapDelta) (s : State) : State :=
  (setMapping d.page d.dst.1 d.dst.2 s).onLake fun l =>
    { l with deltas := if 65536 ≤ l.deltas.length + 1 then [] else l.deltas ++ [d] }

/-- The deltas that were not written are lost with the crews that held them (R237): the old entries still point to valid units,
and the moves are redone. How many had been written is a free value (log 85). -/
def loseDeltas (s : State) : State :=
  let back (d : MapDelta) (s : State) : State :=
    if tabFind d.page s.lake.mapping = some d.dst then setMapping d.page d.src.1 d.src.2 s else s
  let lost := s.lake.deltas.drop (Config.freeNat s.free)
  (lost.foldr back { s with free := s.free + 1 }).onLake fun l => { l with deltas := [] }

/-- A page's mapping entry removed, as when its location is unknown: its old copy is counted invalid at the next
checkpoint's rebuild of the chunk (R105). -/
def dropMapping (page : Nat) (s : State) : State :=
  s.onLake fun l =>
    match tabFind page l.mapping with
    | some (g, _) =>
      { l with mapping := tabDel page l.mapping, orphans := l.orphans ++ [g]
               changed := setIns (chunkOf page) l.changed }
    | none => l

/-- The rebuild of the changed chunks counts each unit that no entry points to invalid in its segment (R105). -/
def countOrphans (s : State) : State :=
  s.onLake fun l =>
    { l with orphans := []
             segments := l.orphans.foldl (fun t g =>
               tabSet ({ } : Segment) g { tabGet ({ } : Segment) g t with valid := (tabGet ({ } : Segment) g t).valid - 1 } t)
               l.segments }

/-- COMPLETE_DRAIN (R93): the page becomes CLEAN, or loses PRIOR; the counts and the residue fall, then
held writes are retested (R124). -/
def completeOne (tag seg unit : Nat) (s : State) : State :=
  match tagged s tag with
  | none => staleTag tag s
  | some d =>
    let e := pageEntry s d.page
    let s := logAppend (.complete tag d.page) (freeDrain (tag % 65536) s)
    let s := lostNoMore d.page (setMapping d.page seg unit s)
    let s := if d.linked then countDown d.bucket s else s
    let s :=
      if e.state = .draining then residueDown (countDown e.bucket (setPage d.page {} s))
      else setPage d.page { e with prior := false } s
    pushResult (.done tag) (retest (weirCheck ordinary (retireEmpty s)))

/-- FAIL_DRAIN (R93). -/
def failOne (tag : Nat) (s : State) : State :=
  match tagged s tag with
  | none => staleTag tag s
  | some d =>
    let e := pageEntry s d.page
    let s :=
      if d.linked then
        setPage d.page { e with state := .dirty, prior := true }
          (setDrain (tag % 65536) { d with failed := true } s)
      else setPage d.page { e with state := .dirty } (freeDrain (tag % 65536) s)
    pushResult (.done tag) s

/-- A checkpoint under way is given up without its commit (R104): its chunks count as changed again. -/
def dropCheckpoint (s : State) : State :=
  s.onLake fun l => match l.chunkWrite with
    | some w => { l with chunkWrite := none, changed := w.taken.foldl (fun t c => setIns c t) l.changed }
    | none => l

/-! ## Settle (R106, R107) -/

/-- Mark the set a Settle covers: every live bucket whose first host epoch is the target or less (R106). -/
def coverSet (s : State) : State :=
  s.onPm fun p =>
    { p with buckets := p.buckets.map fun b => { b with covered := b.covered || decide (b.epoch ≤ s.host.target) } }

/-- Close the newest bucket to further first-writes (R69). -/
def closeNewest (s : State) : State :=
  match newestBucket s with
  | some b => onBucket b.slot (fun b => { b with isOpen := false }) s
  | none => s

/-- Close the newest bucket for a Settle of the current epoch: at once while a slot is free, else as
soon as one frees (R73). -/
def closeForSettle (s : State) : State :=
  match newestBucket s with
  | some b =>
    if b.isOpen then
      if liveBuckets s < 16 then closeNewest s
      else onBucket b.slot (fun b => { b with closeWhenFree := true }) s
    else s
  | none => s

/-- A pending Settle has its set empty and may be committed (R72, R107). -/
def settleReady (s : State) : Bool :=
  settleBusy s && !restoring s && !(s.pm.buckets.any fun b => b.covered && decide (b.pages ≠ 0))

/-! ## The rebuild of a map line (R91) -/

/-- Pages of a map line (R90: 32 entries). -/
def linePages (line : Nat) : List Nat := (List.range 32).map (line * 32 + ·)

/-- One page of a rebuilt line (R91): DIRTY in the oldest bucket with provisional counts, PRIOR and its
entry LINKED where a drain is unfinished. -/
def rebuildPage (page : Nat) (s : State) : State :=
  if pageState s page = .lost ∨ visiblePage s page = false then s
  else
    let (s, slot) := enterOldest s
    let d := drainOf s page
    let s := setPage page { state := .dirty, bucket := slot, hot := coldTick s, prior := d.isSome } s
    let s := match d with
      | some (i, e) => setDrain i { e with linked := true } s
      | none => s
    logAppend (.dirty slot page) (countUp slot (residueUp s))

/-- The rise of a rebuild is one overshoot (R91, R124). While UNPROTECTED none is counted: R81 says so of that state, and
R91 and R124 of the line (DEDUCED, log 68). -/
def rebuildOvershoot (s : State) : State :=
  if s.host.unprotected then s
  else vector 4 (s.onHost fun h =>
    { h with overshoots := satInc 0xFFFFFFFF h.overshoots, overshoot := true })

/-- The rebuild of a map line (R91): the recount starts, FILTER_RECOVERED is set, and the rise, where a page is made DIRTY,
is one overshoot (R124). -/
def rebuildLine (line : Nat) (s : State) : State :=
  let before := s.pm.residue
  let s := (linePages line).foldl (fun s p => rebuildPage p s) s
  let s := s.onPm fun p => { p with recounting := true, filterRecovered := true }
  weirCheck 4 (if s.pm.residue = before then s else rebuildOvershoot s)

/-- The rebuilds and re-drains that waited for the end of a freeze (R91, R105, R267, R461). -/
def rebuildWaiting (s : State) : State :=
  let lines := s.pm.toRebuild
  let pages := s.pm.toRedrain
  let s := lines.foldl (fun s l => rebuildLine l s) (s.onPm fun p => { p with toRebuild := [], toRedrain := [] })
  pages.foldl (fun s p => placeLost p s) s

/-! ## The unprotected state (R81) -/

/-- UNPROTECTED follows the gauge: set while no string is counted, raising vector 6 on a change; held
writes are admitted at once when it sets (R81, R111, R124). -/
def unprotectedCheck (s : State) : State :=
  let on := !anyCounted s
  if s.host.unprotected = on then s
  else
    let s := vector 6 (s.onHost fun h => { h with unprotected := on })
    retest (sprintCheck s)

end Sys2Proof.Machine
end

