-- ==== Sys2Proof/Machine/Strings.lean ====
section
/-! DEFINITION. The states of the battery strings as events outside the gauge's own chapter change
them (R307 to R309, R319, R321, R324): a failure reason arising or clearing, a learn aborted, a pack
change, and what holds CHG_EN_x high. -/

namespace Sys2Proof.Machine

/-- Master ID of a string's gauge (R13). -/
def gaugeId : Str → MasterId
  | .a => 0x6040
  | .b => 0x6041

/-- Number of a string in a record's argument (R334). -/
def strNum : Str → Nat
  | .a => 0
  | .b => 1

/-- A learn that ends before its full flag leaves no result (R309, R319): what stood before it stands again. -/
def dropResult (b : BatString) : BatString :=
  match b.undo with
  | none => b
  | some (c, t, p, r) => { b with learned := c, learn := t, prevLearn := p, fadeRate := r, undo := none }

/-- A failure reason arises (R308, R309): UNKNOWN, COUNTED and LEARNING become FAILED, with a record of
severity 5 and the learner's discharge stopped. -/
def failOnly (x : Str) (r : StrReason) (s : State) : State :=
  let b := strOf s x
  if b.reasons.contains r then s
  else
    let s := onStr x (fun b => { b with reasons := b.reasons ++ [r] }) s
    match b.st with
    | .absent => s
    | .failed => s
    | _ =>
      let s := onStr x (fun b => { dropResult b with st := .failed, reason := r, reverse := false, emptied := false }) s
      record 0x0700 5 (gaugeId x) (strNum x) s

/-- Abort a string's learn (R319): the discharge stops, the string is COUNTED, or FAILED with DEPLETED
when its lower bound is 0, and the learn falls due again after 24 h. -/
def abortLearn (x : Str) (s : State) : State :=
  if (strOf s x).st = .learning then
    let s := onStr x (fun b =>
      { dropResult b with
               st := .counted, reverse := false, emptied := false
               learnAt := ((s.tb.now + nsPerDay : Nat) : Int) }) s
    if socLb (strOf s x) = 0 then failOnly x .depleted s else s
  else s

/-- A failure reason arises and the other string's learn is aborted with it (R319, R325). -/
def failStr (x : Str) (r : StrReason) (s : State) : State :=
  unprotectedCheck (abortLearn x.other (failOnly x r s))

/-- A failure reason clears (R308, R309): with the last one a FAILED string is COUNTED when its state of
charge is known, else UNKNOWN. -/
def clearReason (x : Str) (r : StrReason) (s : State) : State :=
  let b := strOf s x
  if !b.reasons.contains r then s
  else
    let rest := b.reasons.filter (· ≠ r)
    let s := onStr x (fun b =>
      { b with
        reasons := rest
        reason := if b.st = .failed then rest.headD .none else b.reason
        st := if b.st = .failed && rest.isEmpty then (if b.known then .counted else .unknown) else b.st }) s
    unprotectedCheck s

/-- What is left of a string's failure reasons when its pack goes (R308, R309): a gauge FAULT alone, which is the device's
own. -/
def ownReasons (b : BatString) : List StrReason := b.reasons.filter (· = .fault)

/-- The pack-change reset of a present string (R309, R324): UNKNOWN, s unknown, learned values dropped, charging held
off until the insertion rest, CHANGED set (R306). A reason of the pack that still holds arises anew. -/
def packReset (x : Str) (s : State) : State :=
  let s := onStr x (fun b =>
    { b with
      st := if b.st = .absent then .absent else .unknown
      reason := .none, reasons := ownReasons b, undo := none, refit := true
      s := 0, u := 100, known := false, learned := none, prevLearn := none, fadeRate := none
      rho := none, fitted := s.tb.now, learn := none, insertion := true, full := false, fullAt := none
      charging := false, reverse := false, emptied := false, retryAt := 0, learnAt := 0
      changed := true }) s
  unprotectedCheck (abortLearn x.other s)

/-- A string is removed (R306, R309): ABSENT, CHANGED, record of severity 5. -/
def removeStr (x : Str) (s : State) : State :=
  if (strOf s x).st = .absent then s
  else
    let s := onStr x (fun b =>
      { dropResult b with
               st := .absent, reason := .none, reasons := ownReasons b, detected := true, changed := true, reverse := false, charging := false
               emptied := false, insertion := true, rest := false }) s
    let s := record 0x0700 5 (gaugeId x) (strNum x) s
    unprotectedCheck (abortLearn x.other s)

/-- Every condition of R321 for CHG_EN_x holds. Past the full flag it is high only for a learner's discharge, which a charger
with CHG_EN_x low would stop (R320; DEDUCED, log 87). -/
def chargeOk (s : State) (x : Str) : Bool :=
  let b := strOf s x
  s.seq.mainOk && !s.save.running && !b.pause && !b.chargeTempOut && (!b.full || b.reverse) && !b.insertion &&
    (match b.st with
     | .counted => true
     | .learning => true
     | .failed => decide (b.reasons = [.depleted])
     | _ => false) &&
    s.bat.desc.isSome

/-- CHG_EN_x follows the conditions of R321. -/
def chargeCheck (s : State) : State :=
  s.onBat fun g =>
    { g with a := { g.a with charging := chargeOk s .a }
             b := { g.b with charging := chargeOk s .b } }

end Sys2Proof.Machine
end

