-- ==== Sys2Proof/Machine/Power.lean ====
section
/-! DEFINITION. The rails and the descent of the sequencer (R278 to R298): enabling and disabling a
rail, the fault cut, the power-down state by state, what a region loses with its supply, and entry to
AUX and DARK. -/

namespace Sys2Proof.Machine

/-! ## What loses its contents with the rails -/

/-- The newest CHP_FATAL a SAVE_STARTED committed that is not 0 (R276, R277). -/
def committedFatal (s : State) : Word :=
  match s.ledger.commits.find? fun r => match r.commit with
      | .saveStarted _ _ _ _ _ _ f => decide (f ≠ 0)
      | _ => false with
  | some { commit := .saveStarted _ _ _ _ _ _ f, .. } => f
  | _ => s.ledger.lastFatal

/-- A DRAM channel without power: its ledger records and CHANNEL_ISOLATED stay (R189, R195). -/
def channelOff (c : DramChannel) : DramChannel :=
  { recordValid := c.recordValid, recordStale := c.recordStale, recordPop := c.recordPop, recordTempC := c.recordTempC,
    recordVddq := c.recordVddq, recordTime := c.recordTime, recordDrift := c.recordDrift,
    named := c.named, devTempC := c.devTempC }

/-- The Basin at the next start (R120, R139, R443): erases that ended after the fence are counted from then on; with a saved
image, or with a Basin that was erased only in part, no block counts before RESTORED. -/
def basinOff (s : State) : Basin :=
  let b := s.basin
  let e := if b.image.isSome then b.late
    else b.late.foldl (fun t x => tabSet 0 x.1 (tabGet 0 x.1 t + x.2) t) b.erasedBy
  let m := if b.image.isSome then b.lateMap
    else b.lateMap.foldl (fun t x => tabSet 0 x.1 (tabGet 0 x.1 t ||| x.2) t) b.bitmap
  { b with erasedBy := e, bitmap := m, late := [], lateMap := [], usedUnits := 0, allocUsed := 0
           image := b.image.map fun im => { im with held := [] }
           counted := b.image.isNone && decide (basinToErase s = 0) }

/-- The freeze is over (R466, R468): its length stands in FROZEN_TIME. -/
def freezeOver (f : Freeze) (now : Nat) : Freeze :=
  { f with frozen := false, waiting := false
           lastMs := if f.frozen then sat 0xFFFFFFFF ((now - f.since) / nsPerMs) else f.lastMs }

/-- Every region but Power and Ledger loses power (R285): registers, buffers, DRAM and the tables in the reserved area go to
their reset values; flash, serial memory and the ledger keep theirs, and so do the levels of pins. A freeze ends with the
power, and its holds stand (R458, R459, R468). A start out of AUX, where the power-down ended there, is a start from DARK to
the ledger's test and to everything else that such a start resets (R499; DESIGN CHOICE, log 107). -/
def regionsOff (s : State) : State :=
  { s with
    host := { head0 := { perst := s.host.head0.perst }, head1 := { perst := s.host.head1.perst }
              headUnits := s.host.headUnits }
    clk := {}
    wb := {}
    dram := { channels := s.dram.channels.map channelOff }
    pm := { lostSince := s.pm.lostSince, stale := s.pm.stale, sprintStarts := s.pm.sprintStarts, nextSeq := s.pm.nextSeq
            sprintNs := s.pm.sprintNs + (if s.pm.sprint then s.tb.now - s.pm.sprintSince else 0) }
    lake := { s.lake with mapping := [], chunkWrite := none, changed := [], orphans := [], starved := false
                          gcUrgent := false, gcRun := false, relocated := 0, deltas := [] }
    basin := basinOff s
    flash := { s.flash with
      channels := List.replicate 32 {}, ldpcTimes := [], xtsTimes := [], xtsOut := [],
      programs := 0, t999 := 0, newKey := none, walks := [], wpN := true, forced := 0, exchanges := 0
      dies := s.flash.dies.map fun x => (x.1, { x.2 with levels := [] }) }
    weir := {}
    rst := { last := s.rst.last }
    fault := {}
    crew := {}
    log := { s.log with compacting := none }
    ledger := { s.ledger with lastFatal := committedFatal s, testDue := s.ledger.failed, words := [] }
    frz := freezeOver s.frz s.tb.now
    bat := { s.bat with takenUp := false }
    od := { s.od with sessions := [], ended := [], compacting := false, workingCopy := false }
    upd := { s.upd with session := none, committer := none, stage := .idle, fallback := false, secured := [] }
    plan := { last := s.plan.last, seq := s.plan.seq, dueAt := s.plan.dueAt, tempC := s.plan.tempC, time := s.plan.time } }

/-- Add the always-on rail counts to the ledger copy (R299). -/
def flushCounts (s : State) : State :=
  s.onSeq fun q =>
    { q with rails := q.rails.map fun r =>
        let add (a b : Nat) := sat 0xFFFF (a + b)
        { r with
          counts := {}
          ledger := { ups := add r.ledger.ups r.counts.ups, uv := add r.ledger.uv r.counts.uv,
                      ov := add r.ledger.ov r.counts.ov, faults := add r.ledger.faults r.counts.faults,
                      noRise := add r.ledger.noRise r.counts.noRise,
                      noFall := add r.ledger.noFall r.counts.noFall } } }

/-! ## Rails -/

/-- Rail `n` changed by `f`. -/
def onRail (n : Nat) (f : Rail → Rail) (s : State) : State :=
  s.onSeq fun q => { q with rails := listUpd n f q.rails }

/-- Drive RAIL_EN[n] high (R278, R280). -/
def railEnable (n : Nat) (s : State) : State :=
  (onRail n (fun r => { r with phase := .rising }) s).onSeq fun q => { q with enabled := q.enabled ++ [n] }

/-- Drive RAIL_EN[n] low (R280): a rail that was enabled falls. -/
def railDisable (n : Nat) (s : State) : State :=
  (onRail n (fun r => if r.en then { r with phase := .falling } else r) s).onSeq fun q =>
    { q with enabled := setDel n q.enabled }

/-- The rails of the mask that belong to a state (R285). -/
def stateRails (s : State) (k : Nat) : List Nat := (List.range 16).filter fun n => railIn s k n

/-- A rail goes down with the current state (R293): one of its own, and in AUX also any other that is still on, as an AUX
rail that the configuration of this climb no longer has (R279). -/
def downRail (s : State) (n : Nat) : Bool :=
  railIn s s.seq.st.num n || (decide (s.seq.st = .aux) && decide ((railAt s n).phase ≠ .off))

/-- Every rail that goes down with the current state is off (R293). -/
def allFallen (s : State) : Bool :=
  (List.range 16).all fun n => !downRail s n || decide ((railAt s n).phase = .off)

/-- Every masked rail of the current state has risen (R285). -/
def allRisen (s : State) : Bool :=
  (stateRails s s.seq.st.num).all fun n => decide ((railAt s n).phase = .on)

/-- The rail with LEDGER_HOLD (R279). -/
def holdRail (s : State) : Option Nat := (List.range 16).find? fun n => (railCfgAt s n).ledgerHold

/-! ## States -/

/-- Start the power-down of the current state (R293): the reset outputs released in it assert (R298), with
FLS_WP_N (R479), an output whose stretch has not ended stays asserted, and a head's link goes down when LINK does. -/
def startStateDown (s : State) : State :=
  let k := s.seq.st.num
  let s := if k = 5 then s.onHost fun h =>
      { h with head0 := { h.head0 with link := false, ready := false }
               head1 := { h.head1 with link := false, ready := false } } else s
  let s := s.onFlash fun f => { f with wpN := f.wpN || decide (k ≤ s.od.frstState) }
  s.onSeq fun q =>
    { q with
      complete := false
      mrst := q.mrst || decide (k ≤ s.od.mrstState)
      frst := q.frst || decide (k ≤ s.od.frstState)
      mrstStretch := false, frstStretch := false }

/-- The sequencer reaches the end of a save's or command's power-down: nothing of the save runs any
more, PWRFAIL_N is released (R133) and the battery path is open (R149). -/
def saveOver (s : State) : State :=
  (s.onSave fun v => { v with running := false, battery := false, dies := 0, waitMember := false }).onSeq
    fun q => { q with batsw := false, evalOn := false, pwrfailDrive := false, shutdown := .none }

/-- Enter DARK (R285, R293). The minimum dark time counts from here (R287). The rail counts go to the ledger at the end of a
power-down and by the last gasp, not at a cut without one (R299). -/
def enterDark (s : State) : State :=
  let s := (saveOver (regionsOff s)).onBoot fun b => { b with sampled := false }
  s.onSeq fun q =>
    { q with
      st := .dark, dir := .steady, stateStart := s.tb.now, darkSince := s.tb.now, complete := false
      catchDrive := false, staggering := false, mrst := true, frst := true, mrstStretch := false
      frstStretch := false, reversing := false, catchPulse := false, waitRecorded := false }

/-- The device cannot become ready in AUX by itself and so releases CATCH (R288). -/
def cannotReady (s : State) : Bool :=
  s.seq.latched || s.seq.holdAux || decide (s.od.set.autoOn ≠ 1 ∧ s.seq.onCommand = false) || s.seq.mainAbsent

/-- A device in AUX that cannot become ready by itself any more releases CATCH (R288). -/
def releaseCatch (s : State) : State :=
  if s.seq.st = .aux ∧ cannotReady s then s.onSeq fun q => { q with catchDrive := false, catchPulse := false } else s

/-- Registers that reset at AUX entry (R157, R445), and AUX itself (R285, R288). -/
def enterAux (s : State) : State :=
  let s := s.onSave fun v => { last := v.last, packWaiting := v.packWaiting }
  let s := s.onBoot fun b =>
    { b with profileOk := false, profileCopy := 0, bootcfg := 0, settings := 0, latchRec := false
             failedRead := 0, stage := 0, coreTime := 0, auxEntry := s.tb.now, inBoathouse := false }
  let s := s.onSeq fun q =>
    { q with st := .aux, stateStart := s.tb.now, complete := false, mainAbsent := false
             staggering := false, mrst := true, frst := true, mrstStretch := false
             frstStretch := false, catchPulse := false, waitRecorded := false }
  s.onSeq fun q => { q with catchDrive := !cannotReady s, catchIn := cannotReady s && q.catchIn }

/-- End a power-down in AUX (R293): the AUX rails stay on and the board profile stays in force; every
such power-down sets HOLD_AUX but the one after a Boathouse Commit (R418), which has cleared it. -/
def endInAux (s : State) : State :=
  let b := s.boot
  let s := (enterAux (flushCounts (saveOver (regionsOff s)))).onSave fun v => { v with ignored := s.save.ignored }
  let s := s.onBoot fun x =>
    { x with profileOk := b.profileOk, profileCopy := b.profileCopy, bootcfg := b.bootcfg
             settings := b.settings, latchRec := b.latchRec, failedRead := sat 3 b.failedBoots }
  s.onSeq fun q => { q with dir := .steady, complete := true }

/-- Descend while the current state's rails have all fallen (R293); CLKREQ_N is released on leaving LINK
(R475). -/
def descend : Nat → State → State
  | 0, s => s
  | n + 1, s =>
    if !allFallen s then s
    else if s.seq.st.num ≤ 1 then enterDark (flushCounts s)
    else if s.seq.st.num = 2 ∧ s.seq.target = .aux then endInAux s
    else
      let s := if s.seq.st = .link then s.onHost fun h => { h with clkreq := false } else s
      descend n (startStateDown (s.onSeq fun q =>
        { q with st := SeqSt.ofNum (q.st.num - 1), stateStart := s.tb.now }))

/-- Start a power-down to DARK or AUX (R287, R293). The boot config takes the trial time (R435). Pending on-delays are
cancelled and CATCH is released (R288). An on request that came before it turns it to DARK (R297). -/
def powerDownTo (target : SeqSt) (hold : Bool) (s : State) : State :=
  let s := trialTime s
  let s := s.onSeq fun q =>
    { q with dir := .down, target := if q.onPending then .dark else target
             holdAux := q.holdAux || (hold && !q.onPending), catchDrive := false
             catchPulse := false, staggering := false, onCommand := false }
  descend 7 (startStateDown s)

/-- The device powers down because main power is gone before memory is ready, or because it must start
again (R287): to DARK, with `on` a pending power-up. -/
def powerDownDark (on : Bool) (s : State) : State :=
  powerDownTo .dark false (s.onSeq fun q => { q with onPending := q.onPending || on })

/-- The cut of R284: every RAIL_EN low but that of the LEDGER_HOLD rail, which holds for the last gasp
when `hold` says so; BATSW_N deasserted, the reset outputs asserted, the sequencer in DARK. -/
def cutRails (hold : Bool) (s : State) : State :=
  let keep := if hold then holdRail s else none
  let held := match keep with
    | some n => (railAt s n).en
    | none => false
  let s := (List.range 16).foldl (fun s n => if keep = some n then s else railDisable n s) s
  let s := enterDark s
  s.onSeq fun q => { q with dir := if held then .cut else .steady, ledgerHold := held }

/-- Disable the LEDGER_HOLD rail after a cut (R284). -/
def dropLedgerHold (s : State) : State :=
  let s := match holdRail s with
    | some n => railDisable n s
    | none => s
  s.onSeq fun q => { q with ledgerHold := false, dir := .steady }

/-- The latch as it now stands is written to the next page of the latch sectors (R439). -/
def latchRecord (s : State) : State :=
  let n := s.wl.pageSeq + 1
  (s.onWl fun w => { w with pageSeq := n }).onBoot fun b => { b with latchPage := some (s.tb.now, n) }

/-- Set the latch and write its record to serial memory (R294, R439): the first cause is kept. -/
def setLatch (cause rail : Nat) (s : State) : State :=
  let s := if s.seq.latched then s else latchRecord s
  let s := if (statusByte s).getLsbD 7 then s else raiseCall s
  let s := s.onSeq fun q =>
    if q.latched then q else { q with latched := true, latchCause := cause, latchRail := rail }
  s.onBoot fun b => { b with latchSaved := true, latchSavedCause := s.seq.latchCause,
                             latchSavedRail := s.seq.latchRail }

end Sys2Proof.Machine
end

