-- ==== Sys2Proof/Machine/Save.lean ====
section
/-! DEFINITION. The save and the last gasp (R132 to R158, R500): what a trigger does in each phase of the
device, the fence, the plan, the image in the Basin, the last gasp, and the chip fatal that leads to
them (R266). Leaving a freeze stands here too, because a trigger ends one (R462). -/

namespace Sys2Proof.Machine

/-! ## Leaving a freeze (R461, R462, R466) -/

/-- Resume: channels leave self-refresh with one all-bank refresh, credits return, the timers that
stopped go on from where they stood (R461), the members move the records staged in the freeze (R332, R344; DEDUCED, log 113),
and record 0x0F21 carries the frozen time (R466). -/
def thaw (s : State) : State :=
  let d := s.tb.now - s.frz.since
  let s := s.onFrz fun f => freezeOver f s.tb.now
  let s := (s.onWeir fun w => { w with pubTime := w.pubTime + d, decayAt := w.decayAt + d }).onLedger fun l =>
    { l with words := [] }
  let s := s.onDram fun m => { m with channels := m.channels.map fun c =>
    if c.state = .selfRefresh then { c with state := .active, refreshes := c.refreshes + 1, postponed := 0 }
    else c }
  let s := s.onHost fun h =>
    { h with head0 := { h.head0 with creditsHeld := false }, head1 := { h.head1 with creditsHeld := false } }
  let s := s.onFault fun f => { f with shadows := f.shadows.map fun x => { x with since := x.since + d } }
  let later (c : CrewUnit) : CrewUnit := { c with copyEnd := c.copyEnd.map (· + d) }
  let s := s.onCrew fun x =>
    { x with bow := later x.bow, stroke := later x.stroke, lagBuf := x.lagBuf.map fun k => (k.1 + d, k.2) }
  let s := rebuildWaiting s
  record 0x0F21 2 0x6000 (sat 0xFFFFFFFF (d / nsPerMs)) (if anyMember s then moveStaged s else s)

/-! ## The fence (R137) -/

/-- Apply the fence in full: no read completes any more, Outflow, Sprint, garbage collection, folding and checkpoints stop,
operations of classes 2 to 6 not yet started are discarded (R139, R210), a crew that is no member while the other is goes OFF
(R243), an activation is abandoned (R419), a learner's discharge stops with its learn aborted (R319), and no plan runs on and
no voltage step follows (R422, R425). -/
def applyFence (s : State) : State :=
  let s := (s.onHost fun h => { h with fence := true, hostFence := true }).onWb fun w => { w with reads := [] }
  let s := (dropCheckpoint s).onLake fun l => { l with gcRun := false, deltas := [] }
  let s := s.onPm fun p => { p with marks := [], chosen := [] }
  let s := s.onFlash fun f =>
    { f with channels := f.channels.map fun c => { c with jobs := c.jobs.filter fun j => j.started || savesClass j.op } }
  let s := unprotectedCheck (abortLearn .b (abortLearn .a s))
  let s := s.onBat fun g => { g with a := { g.a with charging := false }, b := { g.b with charging := false } }
  let down (other : CrewUnit) (c : CrewUnit) : CrewUnit :=
    if other.st = .member ∧ c.st ≠ .member then { c with st := .off, queue := [], copyEnd := none } else c
  let s := s.onCrew fun x => { x with bow := down x.stroke x.bow, stroke := down x.bow x.stroke }
  sprintCheck ((s.onUpd fun u =>
    { u with stage := if u.stage = .verifying then .verifying else .idle }).onPlan fun p =>
    { p with ramp := false, running := false, draft := [] })

/-! ## The plan (R135, R141) -/

/-- No string can carry a save (R135): none is counted, or r_plan is 0. -/
def noBattery (s : State) : Bool := !anyCounted s || decide (s.weir.bounds.rPlan = 0)

/-- Programming dies of a save on battery: the whole part of r_plan ÷ s_die of the last computation,
and no more than the dies that hold erased Basin blocks (R141). -/
def batteryDies (s : State) : Nat := min (s.weir.bounds.rPlan / sDie s).floor.toNat (basinDies s)

/-- Outcome of a last gasp that runs because no string can carry a save (R81, R150, R158): 3 when one is counted, else 7. -/
def gaspOutcome (s : State) : Nat := if anyCounted s then 3 else 7

/-! ## The image (R144 to R148) -/

/-- The slot of the pass that writes a page: its linked entry's bucket, else its own (R144). -/
def passSlot (map : List (Nat × PageEntry)) (drains : List (Nat × DrainEntry)) (page : Nat) : Option Nat :=
  let e := tabGet {} page map
  if e.state = .dirty ∨ e.state = .draining then
    match drains.find? fun d => decide (d.2.page = page) && d.2.linked with
    | some d => some d.2.bucket
    | none => some e.bucket
  else none

/-- Open sequence of a slot in a bucket table. -/
def seqOfSlot (bs : List Bucket) (slot : Nat) : Nat :=
  match bs.find? fun b => b.slot = slot with
  | some b => b.openSeq
  | none => 0

/-- A page of a pass lies before the cursor (R146). -/
def beforeCursor (c : Cursor) (openSeq page : Nat) : Bool :=
  match c with
  | .endOfResidue => true
  | .upTo o p => decide (openSeq < o) || (decide (openSeq = o) && decide (page < p))

/-- The pages a pass of the save writes, in ascending page number (R144). -/
def passPages (im : BasinImage) (b : Bucket) : List Nat :=
  (im.map.filter fun x => decide (passSlot im.map im.drains x.1 = some b.slot)).map (·.1)

/-- The pages of a saved map that R144 selects and a cursor has passed, in the order the save writes them. -/
def passedPages (im : BasinImage) (c : Cursor) : List Nat :=
  (im.buckets.map fun b => (passPages im b).filter fun p => beforeCursor c b.openSeq p).flatten

/-- A page's channel is isolated: every read of it returns uncorrectable (R195). -/
def onIsolated (s : State) (page : Nat) : Bool :=
  match s.dram.channels[channelOfPage s page]? with
  | some c => decide (c.state = .isolated)
  | none => false

/-- Page number in the tag of a padding unit, which restore passes over (R210). -/
def padPage : Nat := 0x1FFFFFFF

/-- The XTS tweak of a unit (R213): area code 0 Lakebed, 1 Basin, 2 log area, 3 save metadata, over the device page number or
the unit's index within its area. -/
def tweakOf (area index : Nat) : Nat := area % 16 * 2 ^ 60 + index % 2 ^ 29

/-- A page's 4 KiB as it stands in DRAM, for a flash unit of an area (R145, R205, R213); every line of an isolated channel's
page carries the marker (R195). -/
def unitOf (s : State) (page area gen : Nat) : FlashUnit :=
  let lo := page * pageBytes
  let u : FlashUnit := { page := page, seq := 0, cells := [], poison := List.range linesPerPage, key := s.flash.key
                         tweak := tweakOf area page, gen := gen }
  if onIsolated s page then u
  else
    { u with
      cells := (s.dram.bytes.filter fun c => lo ≤ c.1 && decide (c.1 < lo + pageBytes)).map fun c => (c.1 - lo, c.2)
      poison := (s.dram.poison.filter fun l => decide (pageOf l = page)).map fun l => l - page * linesPerPage }

/-- Units of residue the erased Basin can take beyond meta_reserve, less the blocks that program failures used up (R151,
R500). -/
def residueUnits (s : State) : Nat :=
  (basinErased s - s.cfg.metaReserve - s.basin.allocUsed * basinBlockBytes s) / pageBytes

/-- The codeword that a unit is stored as (R205): 4,096 encrypted data bytes, the 16-byte tag, the 8-byte poison vector, and
488 bytes of parity over them. Where the tag's fields lie in its 16 bytes is not the spec's: page, sequence, CRC, then zero
(log 99). -/
def FlashUnit.codeword (u : FlashUnit) : List Byte :=
  let bytes (n v : Nat) : List Byte := (List.range n).map fun k => BitVec.ofNat 8 (v / 256 ^ k)
  let data := ((List.range pageBytes).map fun k => tabGet 0 k u.cells)
  let tag := bytes 4 u.page ++ bytes 6 (u.seq + u.gen * 2 ^ 24) ++ bytes 2 u.crc.toNat ++ bytes 4 0
  let plain := Config.xts u.key u.tweak data ++ tag ++ bytes 8 (u.poison.foldl (fun n l => n + 2 ^ l) 0)
  plain ++ Config.ldpcParity plain

/-- Plane and quarter of the plane's page that unit `unit` of a segment or a save lies in (R205, R206): four codewords to a
page, four planes to a die. -/
def planePage (unit : Nat) : Nat × Nat := (unit / 4 % 4, unit % 4)

/-- The f_alloc share of the erased Basin is used up (R151). -/
def shareUsed (s : State) : Bool :=
  decide (basinErased s * s.cfg.board.fAllocPct < 100 * (s.basin.allocUsed * basinBlockBytes s))

/-- Residue writing ends with an outcome (R143, R151, R500): the programs of the save that no oar has started go. -/
def stopWriting (outcome : Nat) (s : State) : State :=
  if s.save.running && !s.save.stopped then
    let s := s.onSave fun v => { v with stopped := true, outcome := outcome }
    s.onFlash fun f =>
      { f with channels := f.channels.map fun c => { c with jobs := c.jobs.filter fun j => j.started || !saveJob j } }
  else s

/-- Residue writing ends because the Basin has no more to give (R151, R500). -/
def stopResidue (s : State) : State := stopWriting 2 s

/-- Padding units in the image (R210). -/
def padUnits (im : BasinImage) : Nat := im.padding.foldl (fun n x => n + x.2) 0

/-- Units of one Basin die-block (R206). -/
def blockUnits (s : State) : Nat := basinBlockBytes s / pageBytes

/-- A die-block that the save has filled is closed with its summary (R167): `n` units, in unit order. -/
def closeBlock (n die : Nat) (im : BasinImage) : BasinImage :=
  let pages := tabGet [] die im.filled
  if n = 0 ∨ pages.length < n then im
  else
    let k := (im.summaries.filter fun x => decide (x.1.1 = die)).length
    { im with summaries := im.summaries ++ [((die, k), pages.take n)], filled := tabSet [] die (pages.drop n) im.filled }

/-- The units a die holds and has not programmed, oldest first (R210). -/
def heldOf (im : BasinImage) (die : Nat) : List (Nat × FlashUnit) := im.held.filter fun x => decide (x.2.die = die)

/-- One program of a die: the units it holds, at most 16, with padding units of the padding page number for what is missing
(R206, R210). -/
def programHeld (die : Nat) (s : State) : State :=
  match s.basin.image with
  | none => s
  | some im =>
    let h := (heldOf im die).take 16
    let pad := 16 - h.length
    let im :=
      { im with
        held := im.held.filter fun x => !h.any fun y => decide (y.1 = x.1)
        units := h.foldl (fun t x => tabIns x.1 x.2 t) im.units
        padding := if pad = 0 then im.padding else tabSet 0 die (tabGet 0 die im.padding + pad) im.padding
        filled := tabSet [] die (tabGet [] die im.filled ++ h.map (·.1) ++ List.replicate pad padPage) im.filled }
    let s := s.onBasin fun b => { b with image := some (closeBlock (blockUnits s) die im), usedUnits := b.usedUnits + pad }
    let s := s.onFlash fun f => { f with programs := f.programs + 1 }
    s.onSave fun v => { v with written := v.written + pageBytes * h.length }

/-- A page left partly filled at the end of a pass is padded and programmed (R210). -/
def padDie (s : State) (die : Nat) : State :=
  match s.basin.image with
  | none => s
  | some im => if (heldOf im die).isEmpty then s else programHeld die s

/-- A bucket pass ends (R210): every die's partly filled page is padded. -/
def padPass (s : State) : State := (goodDies s).foldl padDie s

/-- The image has a page's unit, programmed or held by a die (R144, R210). -/
def imageHas (im : BasinImage) (page : Nat) : Bool := (tabFind page im.units).isSome || im.held.any fun x => decide (x.1 = page)

/-- A page's unit given to a die, which programs once it holds 16 (R144, R145, R210): the tag's sequence field holds the
generation and the unit's position in the save; the program is timed (R112). A page the image has already is skipped, and one
whose channel is in block reset waits (R196); without room residue writing ends. -/
def placeUnit (die page : Nat) (s : State) : State :=
  match s.basin.image with
  | none => s
  | some im =>
    if imageHas im page || inBlockReset s page || s.save.stopped then s
    else if residueUnits s ≤ s.basin.usedUnits then stopResidue s
    else
      let n := im.units.length + im.held.length + padUnits im
      let u := { unitOf s page 1 im.gen with seq := n, die := die, crc := Config.tagCrc page n }
      let im := { im with held := im.held ++ [(page, u)] }
      let s := s.onBasin fun b => { b with image := some im, usedUnits := b.usedUnits + 1 }
      if 16 ≤ (heldOf im die).length then programHeld die s else s

/-- The die whose turn it is (R141, R206): 16 units to each programming die that holds erased Basin blocks. -/
def turnDie (s : State) : Nat :=
  let dies := erasedDies s
  let n := max 1 (min (if s.save.dies = 0 then dies.length else s.save.dies) dies.length)
  dies.getD (s.basin.usedUnits / 16 % n) 0

/-- A program of a page is queued or running (R146). -/
def programBusy (s : State) (page : Nat) : Bool :=
  s.flash.channels.any fun c => c.jobs.any fun j => decide (j.op = .saveProgram page)

/-- Give the dies in turn the units of pages that the image does not have and no oar has in hand (R144, R145). -/
def programPages (pages : List Nat) (s : State) : State :=
  pages.foldl (fun s p => if programBusy s p then s else placeUnit (turnDie s) p s) s

/-- A die holds units that it has not programmed (R210). -/
def anyHeld (s : State) : Bool :=
  match s.basin.image with
  | some im => !im.held.isEmpty
  | none => false

/-- The pages of the pass of a slot, in ascending page number (R144). -/
def slotPages (s : State) (slot : Nat) : List Nat :=
  match s.basin.image, s.pm.buckets.find? fun b => decide (b.slot = slot) with
  | some im, some b => passPages im b
  | _, _ => []

/-- The pass goes on until no die holds a partly filled page, so that the units before the cursor are programmed (R146,
R210). -/
def fillHeld (pages : List Nat) (s : State) : State :=
  pages.foldl (fun s p => if anyHeld s then programPages [p] s else s) s

/-- The cursor that stands at the first of some pages that is not programmed, else where it was to go (R146). -/
def reached (im : BasinImage) (c : Cursor) : Cursor :=
  match (passedPages im c).find? fun p => (tabFind p im.units).isNone with
  | none => c
  | some p => .upTo (seqOfSlot im.buckets ((passSlot im.map im.drains p).getD 0)) p

/-- The cursor lands: the Power region keeps it (R146). It advances only over units whose programs have completed: the units
before it that no oar has in hand are given to the dies, with as many of the pass's next as the dies' programs take, and it
stands at the first that is unfinished. -/
def landCursor (c : Cursor) (s : State) : State :=
  match s.basin.image with
  | none => s.onSave fun v => { v with cursor := c }
  | some im =>
    let s := fillHeld (slotPages s s.save.bucket) (programPages (passedPages im c) s)
    s.onSave fun v => { v with cursor := reached (s.basin.image.getD im) c }

/-- GPF_PHASE2 is in the ledger since the last restore (R156). -/
def gpfNoted : List LedgerRec → Bool
  | [] => false
  | r :: t => match r.commit with
    | .other .gpfPhase2 => true
    | .restored _ _ _ _ _ => false
    | .sanitized => false
    | _ => gpfNoted t

/-- The epochs a save records (R46). -/
def fenceEpochs (s : State) : FenceEpochs :=
  { epoch := s.host.epoch, settled := s.host.settled, target := s.host.target }

/-- A new save generation: one more than the highest any SAVE_STARTED or LAST_GASP named (R147). -/
def newGen (s : State) : Nat :=
  1 + (allCommits s).foldl (fun m r => match r.commit with
    | .saveStarted g _ _ _ _ _ _ => max m g
    | .lastGasp g _ _ _ _ => max m g
    | _ => m) 0

/-! ## The end of a save -/

/-- 0x2042 after a save or a last gasp (R158). -/
def closeSave (outcome : Nat) (s : State) : State :=
  s.onSave fun v =>
    { v with outcome := outcome, last :=
      { present := true, gen := v.gen, trigger := triggerCode v.trigger, fenceTime := v.fenceTime
        duration := (s.tb.now - v.fenceTime) / nsPerMs, written := v.written, halvings := v.halvings
        outcome := outcome, gpf := v.gpf, mapSaved := v.mapSaved } }

/-- The dirty-log tail committed to the ledger (R150 step 3): it then survives without VDD_AON. -/
def sealTail (s : State) : State := s.onLog fun l => { l with sealed' := true }

/-- The tail in the root area (R150, R440): 224 bytes of entries in each record. -/
def rootTail (s : State) : State :=
  let ws := s.log.tail.map LogEntry.encode
  (List.range (ceilDiv ws.length 28)).foldl (fun s k => rootWrite 4 s.save.gen none ((ws.drop (28 * k)).take 28) s) s

/-- LAST_GASP programmed into the root area, with the tail before it (R150, R440). -/
def rootGasp (c : Commit) (s : State) : State :=
  let s := rootWrite 5 c.gen (some c) [] (rootTail s)
  s.onLedger fun l => { l with fallback := { time := s.tb.now, commit := c } :: l.fallback }

/-- The last gasp's commits (R150): the tail and LAST_GASP, with the generation of the save or a new
one (R147); while the ledger is failed, and when `viaRoot`, in the root area (R284). -/
def gaspCommit (outcome : Nat) (viaRoot : Bool) (s : State) : State :=
  let s := if s.save.running && decide (s.save.gen ≠ 0) then s
    else s.onSave fun v =>
      { v with gen := newGen s, fenceTime := if v.running then v.fenceTime else s.tb.now
               gpf := gpfNoted (allCommits s) }
  let c : Commit := .lastGasp s.save.gen s.save.cursor outcome s.save.mapSaved (fenceEpochs s)
  let s := sealTail s
  let s := if viaRoot || s.ledger.failed then rootGasp c s else commit c s
  let s := record 0x0304 2 0x6000 (triggerCode s.save.trigger) s
  (closeSave outcome s).onSave fun v => { v with phase := .lastGasp }

/-- The last gasp in the early-open window commits RESTORE_INTERRUPTED in place of LAST_GASP (R175), with its tail in the
root area while the ledger is failed, and when `viaRoot` all of it (R284). -/
def windowCommit (viaRoot : Bool) (s : State) : State :=
  let s := sealTail s
  let s := if viaRoot || s.ledger.failed then rootTail s else s
  let c : Commit := .restoreInterrupted s.rst.gen s.host.epoch (s.log.window.map (·.1)) s.log.pos
  let s := if viaRoot then (rootWrite 3 c.gen (some c) [] s).onLedger fun l =>
      { l with fallback := { time := s.tb.now, commit := c } :: l.fallback }
    else commit c s
  s.onSave fun v => { v with phase := .lastGasp }

/-- What the last gasp commits, by the phase of the device (R150, R175), with the rail counts (R299) unless its ledger has no
supply. -/
def gaspAny (outcome : Nat) (viaRoot : Bool) (s : State) : State :=
  let s := if viaRoot then s else flushCounts s
  if inWindow s then windowCommit viaRoot s else gaspCommit outcome viaRoot s

/-- The last gasp for a cause other than a rail fault (R150): commits, then the unlatched cut, whose
LEDGER_HOLD rail is disabled once LAST_GASP has landed. -/
def lastGasp (outcome : Nat) (s : State) : State :=
  dropLedgerHold (cutRails true (gaspAny outcome false s))

/-- Start the save's hardware part (R134, R137, R156, R157): the fence and what PWR_SAVE_STATUS shows. -/
def startSave (t : Trigger) (s : State) : State :=
  let s := s.onSave fun v =>
    { last := v.last, ignored := v.ignored, packWaiting := v.packWaiting
      phase := .fenced, trigger := some t, running := true, fenceTime := s.tb.now
      gpf := gpfNoted (allCommits s), waitMember := emptySet s }
  applyFence (s.onSeq fun q => { q with shutdown := .none })

/-- Every buffered write reaches DRAM and held first-writes are admitted without a test, counted in the
residue, no overshoot counted (R124, R138). A write whose channel cannot take it now stays. An excess they open has no code
in R125's table: it is a free one of those that are no overshoot (log 72). -/
def drainAll : Nat → State → State
  | 0, s => flush (fun _ => true) s
  | n + 1, s =>
    match firstIdx (fun e =>
        decide (e.phase = .heldWeir ∨ e.phase = .heldFetch ∨ e.phase = .behind ∨ e.phase = .mapWait))
        s.wb.entries 0 with
    | none => flush (fun _ => true) s
    | some (i, e) =>
      let s := episodeCheck (1 + Config.freeNat s.free % 6) (admitEntry i e s)
      drainAll n { s with free := s.free + 1 }

/-- A clean shutdown starts (R292): the host side of the fence, the write buffer drained, and Outflow until
the residue is 0. -/
def beginShutdown (s : State) : State :=
  let s := s.onHost fun h => { h with hostFence := true }
  let s := drainAll s.wb.entries.length s
  sprintCheck (s.onSeq fun q => { q with shutdown := .draining })

/-- The save may not write the Basin at all: less is erased than meta_reserve (R500). -/
def basinTooSmall (s : State) : Bool := decide (basinErased s < s.cfg.metaReserve)

/-- Main power is failing: the battery path may close (R135). -/
def mainLoss : Trigger → Bool
  | .pwrfail => true
  | .vin => true
  | _ => false

/-- Close the battery path of a save that runs (R135, R140, R141): the dies fall to the battery plan, or
the last gasp runs when no string can carry the save. -/
def closeBattery (s : State) : State :=
  if s.save.battery then s
  else if noBattery s then lastGasp (gaspOutcome s) s
  else
    let d := max 8 (batteryDies s)
    (s.onSave fun v => { v with battery := true, dies := if v.dies = 0 then 0 else min v.dies d }).onSeq
      fun q => { q with batsw := true }

/-- A save trigger on a running device with memory ready and RESTORED committed (R132, R135, R500). -/
def triggerRunning (t : Trigger) (s : State) : State :=
  if mainLoss t && noBattery s then
    lastGasp (gaspOutcome s)
      (applyFence (s.onSave fun v => { v with cursor := .upTo 0 0, mapSaved := false, trigger := some t }))
  else
    let s := startSave t s
    if basinTooSmall s then lastGasp 7 (drainAll s.wb.entries.length s) else s

/-- A save trigger in the early-open window (R175): the fence, then the last gasp of
RESTORE_INTERRUPTED. -/
def triggerWindow (t : Trigger) (s : State) : State :=
  (startSave t s).onSave fun v => { v with phase := .lastGasp }

/-- A save trigger while frozen under the lab policy (R462): the last gasp with outcome 7. -/
def triggerLab (t : Trigger) (s : State) : State :=
  let s := s.onFrz fun f => { f with lossHeld := true }
  let s := record 0x0F23 6 0x6000 (triggerCode (some t)) s
  let s := s.onSave fun v => { v with trigger := some t, mapSaved := false }
  if memReady s then lastGasp 7 s else dropLedgerHold (cutRails true s)

/-- A trigger that arrives while a save is running is recorded with severity 4 (R134). -/
def laterTrigger (t : Trigger) (s : State) : State := record 0x0302 4 0x6000 (triggerCode (some t)) s

/-- Every hold bit clears and a freeze not yet entered is given up (R462). -/
def dropHolds (s : State) : State :=
  s.onFrz fun f => { f with pin := false, od := false, jtag := false, waiting := false }

/-- A save trigger ends a freeze, or its entry while that still waits (R462; log 93). -/
def endFreeze (s : State) : State :=
  if frozen s then thaw (dropHolds s) else if s.frz.waiting then dropHolds s else s

/-- A save trigger (R132, R134, R136, R175, R462). -/
def trigger (t : Trigger) (s : State) : State :=
  if frozen s && labPolicy s then triggerLab t s
  else
    let s := endFreeze s
    if saving s then
      let s := laterTrigger t s
      if mainLoss t && decide (s.seq.dir ≠ .down) && decide (s.save.phase ≠ .lastGasp) then closeBattery s else s
    else if darkOrAux s || boathouse s || !memReady s then s
    else if inWindow s then triggerWindow t s
    else triggerRunning t s

/-! ## Chip fatal (R266) -/

/-- CHIP_FATAL, CHP_FATAL, the AER error and record 0x0201 (R266, R272, R276). A trial then fails
(R414). -/
def fatalFlags (kind : Nat) (cause : BitVec 32) (s : State) : State :=
  let s := s.onFault fun f => { f with chipFatal := true, fatalKind := kind, fatalCause := cause }
  let s := s.onHost fun h => { h with aerUncorrectable := true }
  let s := trialStops 2 s
  record 0x0201 7 0x0080 kind s

/-- The capture of a chip fatal can no longer be acknowledged (R266); kinds 4 and 5 name none. -/
def noteFatal (cause : BitVec 32) (s : State) : State :=
  if cause = 0 then s else s.onFault fun f => { f with fatalIds := cause :: f.fatalIds }

/-- A chip fatal (R266, R267): recorded only while a save runs; before memory is ready it powers the
device down without a save; otherwise it is a save trigger, also in a freeze (R462, log 105). A second one adds nothing but,
during a save, the record of a trigger (R134). -/
def chipFatal (kind : Nat) (cause : BitVec 32) (s : State) : State :=
  let s := noteFatal cause s
  if s.fault.chipFatal then (if saving s then laterTrigger .chipFatal s else s)
  else if saving s then record 0x0201 7 0x0080 kind (laterTrigger .chipFatal (trialStops 2 s))
  else
    let s := fatalFlags kind cause s
    if memReady s && !boathouse s then trigger .chipFatal s
    else if darkOrAux s then s
    else powerDownDark false s

end Sys2Proof.Machine
end

