-- ==== Sys2Proof/Machine/Crews.lean ====
section
/-! DEFINITION. The crews as the Umpire and the collector act on them (R239 to R249), and the course of
an update activation that depends on them (R410 to R416). -/

namespace Sys2Proof.Machine

/-! ## Seat and membership -/

/-- Token of a seat holder (R239). -/
def seatByte : Crew → Byte
  | .bow => 0x5A
  | .stroke => 0xA5

/-- Coxswain-core master ID of a crew (R13, R256). -/
def coxId : Crew → MasterId
  | .bow => 0x4040
  | .stroke => 0x5040

/-- Give the seat to a crew, or to none (R239). -/
def setSeat (c : Option Crew) (s : State) : State :=
  s.onCrew fun x => { x with seat := match c with
    | some k => seatByte k
    | none => 0 }

/-- The member with the higher score; Stroke on a tie (R241). -/
def higherScore (s : State) : Option Crew :=
  match isMember s .bow, isMember s .stroke with
  | true, true => if s.crew.stroke.score < s.crew.bow.score then some .bow else some .stroke
  | true, false => some .bow
  | false, true => some .stroke
  | false, false => none

/-! ## Update outcomes -/

/-- Complete an Update Commit (R66, R411): the background command of the mailbox that sent it, unless a head
reset has abandoned it (R35), or a response by the path that sent it. -/
def commitDone (status : Nat) (s : State) : State :=
  let s' := s.onUpd fun u => { u with committer := none }
  match s.upd.committer with
  | none => s
  | some (.mailbox h) =>
    if (headOf s h).bg = .commit then
      vectorOn h 0 (onHead h (fun x => { x with bg := .none, bgStatus := status }) s')
    else s'
  | some p => reply p status [0, 0, 0] s'

/-- Slot `k` in the state of the slots. -/
def putSlot (k : Fin 2) (i : Option ImageInfo) (s : State) : State :=
  s.onUpd fun u => if k = 0 then { u with slotA := i } else { u with slotB := i }

/-- The session is over: the slot it wrote is invalid and the lock is free (R404). -/
def dropSession (s : State) : State :=
  match s.upd.session with
  | none => s
  | some u => (putSlot u.slot none s).onUpd fun x => { x with session := none }

/-- Release the update session (R404, R420). -/
def releaseSession (s : State) : State :=
  match s.upd.session with
  | none => s
  | some u => record 0x0901 2 0x7000 u.id (dropSession s)

/-- The image of a slot (R401). -/
def slotOf (s : State) (k : Fin 2) : Option ImageInfo := if k = 0 then s.upd.slotA else s.upd.slotB

/-- The slot of the image that runs: that of the crew that holds the seat, else of the active slot (R396, 0x1004). -/
def runningSlot (s : State) : Fin 2 :=
  if darkOrAux s then s.upd.active
  else match seatHolder s with
    | some c => (crewOf s c).image
    | none => s.upd.active

/-- The image that runs; in DARK and AUX that of the active slot (0x1004, 0x7007). -/
def runningImage (s : State) : Option ImageInfo := slotOf s (runningSlot s)

/-- The other slot. -/
def otherSlot (k : Fin 2) : Fin 2 := if k = 0 then 1 else 0

/-- A slot's patch area holds the patch of its image (R411 step 3, R436): where the hash stored differs, the patch is copied
first. An image without a patch leaves the area as it is. -/
def fillPatchArea (k : Fin 2) (s : State) : State :=
  match (slotOf s k).bind (·.patch) with
  | none => s
  | some p => s.onUpd fun u => if k = 0 then { u with patchA := some p } else { u with patchB := some p }

/-- The copies that wait for crew `c`'s partner, or lag behind, go (R244). -/
def dropCopies (c : Crew) (s : State) : State :=
  s.onCrew fun x =>
    { x with
      waiting := x.waiting.filter fun k => decide (k.crew ≠ c)
      lagBuf := x.lagBuf.filter fun k => decide (k.2.crew ≠ c) }

/-- The frozen settings copy, where there is one, is in force again (R413, R416): what was written since is lost. -/
def thawSettings (s : State) : State :=
  s.onOd fun o =>
    match o.frozen with
    | none => o
    | some x =>
      { o with set := x, frozen := none, used := o.frozenUsed, records := o.frozenRecords, copySeq := o.copySeq - 1
               workingCopy := false }

/-- Begin an activation of a slot (R411 steps 1 and 2): X, the crew without the seat, leaves the sending set for STANDBY and is
held in reset. -/
def beginActivation (slot : Fin 2) (s : State) : State :=
  let x := match seatHolder s with
    | some y => y.other
    | none => .bow
  let s := dropCopies x (onCrewUnit x (fun c => { c with st := .standby, score := 0, releaseAt := s.tb.now }) s)
  let s := fillPatchArea slot (s.onUpd fun u => { u with stage := .loadingX, crewX := x, incoming := slot })
  record 0x0903 3 (coxId x) slot.val s

/-- A fall-back that waits for two members begins when they exist (R416). -/
def fallbackCheck (s : State) : State :=
  if s.upd.stage = .waitMembers ∧ memberCount s = 2 ∧ saving s = false then
    beginActivation s.upd.repechage s
  else s

/-- The trial image fails its trial while the device runs (R414, R416): a fall-back starts, or waits for
two members. -/
def trialFail (cause : Nat) (s : State) : State :=
  if s.upd.trial = 1 ∧ s.upd.stage = .idle then
    let s := record 0x0907 5 0x7000 cause (s.onUpd fun u =>
      { u with stage := .waitMembers, fallback := true, failCause := cause })
    fallbackCheck s
  else s

/-- An activation is aborted (R412, R420): Commit completes with the status, the session ends (R404), and
a fall-back waits for members again. -/
def abortActivation (status : Nat) (s : State) : State :=
  let s := record 0x0905 5 0x7000 status s
  if s.upd.fallback then s.onUpd fun u => { u with stage := .waitMembers }
  else
    let s := commitDone status s
    s.onUpd fun u => { u with stage := .idle, session := none }

/-- Y is a member on the incoming image (R411 steps 11 and 12, R416): the Commit completes with OK and the trial
begins, or the fall-back has ended. -/
def completeActivation (y : Crew) (s : State) : State :=
  let s := record 0x0904 3 (coxId y) s.upd.incoming.val s
  if s.upd.fallback then bootWrite (s.onUpd fun u => { u with stage := .idle, fallback := false, trial := 2 })
  else
    let s := commitDone stOk s
    s.onUpd fun u => { u with stage := .idle, session := none, trialMark := s.tb.now }

/-! ## Joining and leaving the sending set -/

/-- The reset of a FAULTED crew is applied, within 1 µs (R243): OFF. -/
def resetFaulted (s : State) : State :=
  let off (c : CrewUnit) : CrewUnit := if c.st = .faulted then { c with st := .off, offSince := some s.tb.now } else c
  s.onCrew fun x => { x with bow := off x.bow, stroke := off x.stroke }

/-- The survivor's state is lost while it is written into crew `c` (R250): the copy is abandoned, and `c` goes back to
LOADING for a rebuild with no survivor. -/
def abandonCopy (c : Crew) (s : State) : State :=
  onCrewUnit c (fun x =>
    if x.copyEnd.isSome then { x with st := .loading, copyEnd := none, queue := [], waiting := false } else x) s

/-- A crew becomes a member (R240 to R243): score 255, the seat if nobody holds it; staged records move
(R332), a waiting save goes on (R249) and the causes of Sprint act (R248). -/
def becomeMember (c : Crew) (s : State) : State :=
  let s := onCrewUnit c (fun x =>
    { x with st := .member, score := 255, scoreSince := s.tb.now, waiting := false
             compared := 0 }) s
  let s := if s.crew.seat = 0 then setSeat (some c) s else s
  let s := moveStaged (s.onSave fun v => { v with waitMember := false })
  fallbackCheck (sprintCheck (unprotectedCheck s))

/-- The seat after crew `c` stopped being a member (R241): the other member, the other crew in SHADOW
promoted, or nobody. -/
def passSeat (c : Crew) (s : State) : State :=
  let o := c.other
  if isMember s o then (if s.crew.seat = seatByte c then setSeat (some o) s else s)
  else if (crewOf s o).st = .shadow then becomeMember o (setSeat none s)
  else sprintCheck (setSeat none s)

/-- What an update activation does when its lone member has just faulted (R247, R412): the other crew abandons the incoming
image and is loaded from the old one; after the handover the settings of that image, which the frozen copy holds, are in
force again (DEDUCED, log 82). -/
def loneMemberFault (c : Crew) (s : State) : State :=
  let o := c.other
  let reload (k : Fin 2) (s : State) : State :=
    onCrewUnit o (fun x =>
      { x with st := .loading, image := k, loadFails := 0, releaseAt := s.tb.now, waiting := false }) s
  match s.upd.stage with
  | .loadingX => abortActivation stInternal (reload s.upd.active s)
  | .handedOver =>
    let prev := otherSlot s.upd.incoming
    let s := (thawSettings s).onUpd fun u =>
      { u with active := prev, trial := 0, repechage := if u.fallback then u.incoming else u.repechage
               bootSeq := u.bootSeq + 1 }
    abortActivation stInternal (reload prev (onCrewUnit c (fun x => { x with image := prev }) s))
  | _ => s

/-- A crew is taken out of service (R243, R244, R250): FAULTED, its port closed with its waiting copies gone and its input
queue stopped; a member leaves the sending set with a switch-over record, a handover from it is abandoned, and the seat
passes on. The lag leaves the survivor's port with the seat, and its lag buffer is released within 20 ns, at the next tick
(log 77). -/
def crewDown (c : Crew) (s : State) : State :=
  let was := isMember s c
  if !was && !decide ((crewOf s c).st = .shadow) then s
  else
    let s := onCrewUnit c (fun x =>
      { x with st := .faulted, score := 0, offSince := none, compared := 0, queue := [], copyEnd := none }) s
    let s := abandonCopy c.other (dropCopies c s)
    if was then
      let s := s.onCrew fun x => { x with switches := satInc 0xFFFF x.switches }
      let s := if memberCount s = 0 then loneMemberFault c s else s
      record 0x0800 4 0x0040 0 (passSeat c s)
    else s

/-- The F reaction of a crew unit (R243, R244, R252, R265): the capture counts in the crew's hour, the
trial fails (R414), the crew leaves, and the third capture within 1 h holds it out of service. -/
def crewFault (c : Crew) (src : MasterId) (s : State) : State :=
  let s := onCrewUnit c (fun x =>
    { x with faultTimes := s.tb.now :: x.faultTimes.filter (fun t => s.tb.now < t + nsPerH)
             faultSource := src }) s
  let s := trialFail 0 (crewDown c s)
  if 3 ≤ faults1h s (crewOf s c) ∧ ((crewOf s c).st = .off ∨ (crewOf s c).st = .faulted) ∧ (crewOf s c).held = false then
    record 0x0802 6 0x0040 0 (onCrewUnit c (fun x => { x with held := true }) s)
  else s

/-- The health score falls by `n`, held at 1 while a member (R240). -/
def scoreDown (c : Crew) (n : Nat) (s : State) : State :=
  onCrewUnit c (fun x => if x.st = .member then { x with score := max 1 (x.score - n) } else x) s

end Sys2Proof.Machine
end

