-- ==== Sys2Proof/Machine/Settings.lean ====
section
/-! DEFINITION. The settings area (R303, R331, R355, R367, R437): each RWS entry's place in `Settings`, its
range, its size, and how much of a settings copy the values in force take. -/

namespace Sys2Proof.Machine

/-- The RWS entries of the settings area that hold a number, with their size in bytes (R355, R367). -/
def settingSizes : List ((Nat × Nat) × Nat) :=
  [((0x2003, 0), 4), ((0x2005, 2), 4), ((0x2006, 0), 1), ((0x2011, 0), 4), ((0x2012, 0), 1), ((0x2013, 0), 1),
   ((0x2014, 1), 1), ((0x2014, 2), 1), ((0x2017, 0), 4), ((0x2020, 0), 2), ((0x2024, 0), 2), ((0x2030, 0), 1)] ++
  [((0x2060, 0), 4), ((0x2072, 0), 2), ((0x2082, 2), 1), ((0x2083, 0), 2), ((0x3003, 0), 2), ((0x3004, 0), 1),
   ((0x3005, 0), 2), ((0x3006, 0), 1), ((0x4003, 0), 2), ((0x4004, 0), 2), ((0x4005, 0), 2), ((0x4006, 0), 2)] ++
  [((0x5001, 0), 1), ((0x6002, 0), 1), ((0x6003, 0), 2), ((0x6004, 0), 2), ((0x6005, 0), 2), ((0x7002, 0), 1),
   ((0xA002, 0), 4), ((0xA003, 0), 1), ((0xB002, 0), 1)]

/-- Bytes a record of `n` value bytes takes in a copy (R437). -/
def settingRecord (n : Nat) : Nat := 8 + ceilDiv n 4 * 4 + 4

/-- Bytes of a copy that holds every value in force: what compaction leaves (R437). -/
def compactedSize (x : Settings) : Nat :=
  32 + (settingSizes.map fun e => settingRecord e.2).sum
    + ((List.range 16).map fun c => settingRecord (1 + 4 * ((tabFind c x.snapshots).getD []).length)).sum

/-- Bytes of a settings copy (R355). -/
def settingsCopy : Nat := 262144

/-- Type code of a setting of `n` bytes (R62, R367): 0x7002 is a BOOL, the others are unsigned. -/
def settingType (k : Nat × Nat) (n : Nat) : Nat :=
  if k = (0x7002, 0) then 1 else if n = 1 then 2 else if n = 2 then 3 else 4

/-- Every entry at its default (R131, R33, R367): the owner cap is the visible capacity, head 0 half the units. -/
def defaultSettings (c : ModuleConfig) : Settings :=
  { ownerCapMiB := c.visible / mib, head0Units := c.units / 2 }

/-- Value of the 0x2000 range's settings. -/
def getSetting2 (k : Nat × Nat) (x : Settings) : Nat :=
  if k = (0x2003, 0) then x.ownerCapMiB
  else if k = (0x2005, 2) then x.floorLimitMiB
  else if k = (0x2006, 0) then x.margin
  else if k = (0x2011, 0) then x.hotHoldMs
  else if k = (0x2012, 0) then x.sprintPolicy
  else if k = (0x2013, 0) then x.hotOverride
  else if k = (0x2014, 1) then x.sprintStart
  else if k = (0x2014, 2) then x.sprintStop
  else if k = (0x2017, 0) then x.checkpointS
  else if k = (0x2020, 0) then x.tCapS
  else if k = (0x2024, 0) then x.sagMv
  else if k = (0x2030, 0) then x.restoreMode
  else if k = (0x2060, 0) then x.head0Units
  else if k = (0x2072, 0) then x.scrubH
  else if k = (0x2082, 2) then x.designYears
  else x.patrolDays

/-- Value of a setting (R367). -/
def getSetting (k : Nat × Nat) (x : Settings) : Nat :=
  if k.1 < 0x3000 then getSetting2 k x
  else if k = (0x3003, 0) then x.darkMs
  else if k = (0x3004, 0) then x.staggerMs
  else if k = (0x3005, 0) then x.railMask
  else if k = (0x3006, 0) then x.autoOn
  else if k = (0x4003, 0) then x.restMa
  else if k = (0x4004, 0) then x.restMin
  else if k = (0x4005, 0) then x.forcedRestH
  else if k = (0x4006, 0) then x.learnDays
  else if k = (0x5001, 0) then x.graceMs
  else if k = (0x6002, 0) then x.mgmtProto
  else if k = (0x6003, 0) then x.mgmtKhz
  else if k = (0x6004, 0) then x.serviceMs
  else if k = (0x6005, 0) then x.localKhz
  else if k = (0x7002, 0) then x.ownerLock
  else if k = (0xA002, 0) then x.label
  else if k = (0xA003, 0) then x.members
  else x.freezePolicy

/-- The 0x2000 range's settings with one of them `v`. -/
def putSetting2 (k : Nat × Nat) (v : Nat) (x : Settings) : Settings :=
  if k = (0x2003, 0) then { x with ownerCapMiB := v }
  else if k = (0x2005, 2) then { x with floorLimitMiB := v }
  else if k = (0x2006, 0) then { x with margin := v }
  else if k = (0x2011, 0) then { x with hotHoldMs := v }
  else if k = (0x2012, 0) then { x with sprintPolicy := v }
  else if k = (0x2013, 0) then { x with hotOverride := v }
  else if k = (0x2014, 1) then { x with sprintStart := v }
  else if k = (0x2014, 2) then { x with sprintStop := v }
  else if k = (0x2017, 0) then { x with checkpointS := v }
  else if k = (0x2020, 0) then { x with tCapS := v }
  else if k = (0x2024, 0) then { x with sagMv := v }
  else if k = (0x2030, 0) then { x with restoreMode := v }
  else if k = (0x2060, 0) then { x with head0Units := v }
  else if k = (0x2072, 0) then { x with scrubH := v }
  else if k = (0x2082, 2) then { x with designYears := v }
  else { x with patrolDays := v }

/-- The settings with one of them `v` (R351: in force wholly). -/
def putSetting (k : Nat × Nat) (v : Nat) (x : Settings) : Settings :=
  if k.1 < 0x3000 then putSetting2 k v x
  else if k = (0x3003, 0) then { x with darkMs := v }
  else if k = (0x3004, 0) then { x with staggerMs := v }
  else if k = (0x3005, 0) then { x with railMask := v }
  else if k = (0x3006, 0) then { x with autoOn := v }
  else if k = (0x4003, 0) then { x with restMa := v }
  else if k = (0x4004, 0) then { x with restMin := v }
  else if k = (0x4005, 0) then { x with forcedRestH := v }
  else if k = (0x4006, 0) then { x with learnDays := v }
  else if k = (0x5001, 0) then { x with graceMs := v }
  else if k = (0x6002, 0) then { x with mgmtProto := v }
  else if k = (0x6003, 0) then { x with mgmtKhz := v }
  else if k = (0x6004, 0) then { x with serviceMs := v }
  else if k = (0x6005, 0) then { x with localKhz := v }
  else if k = (0x7002, 0) then { x with ownerLock := v }
  else if k = (0xA002, 0) then { x with label := v }
  else if k = (0xA003, 0) then { x with members := v }
  else { x with freezePolicy := v }

/-- A snapshot list as an array's value: its count and its elements (R335, R349). -/
def listValue (l : List Nat) : List Byte := leBytes 1 l.length ++ (l.map (leBytes 4)).flatten

/-- The records of a copy that holds every value in force: what compaction leaves (R437). -/
def compactedRecords (x : Settings) : List SettingRec :=
  (settingSizes.map fun e =>
      { index := e.1.1, sub := e.1.2, typ := settingType e.1 e.2, value := leBytes e.2 (getSetting e.1 x) }) ++
    (List.range 16).map fun c =>
      { index := 0x5110 + c, sub := 0, typ := 11, value := listValue ((tabFind c x.snapshots).getD []) }

/-- Lowest and highest value of a setting of the 0x2000 range (R131, R109, R158, R201, R227, R50, R33). -/
def settingRange2 (s : State) (k : Nat × Nat) : Nat × Nat :=
  if k = (0x2003, 0) then (1024, s.cfg.visible / mib)
  else if k = (0x2005, 2) then (1024, 65536)
  else if k = (0x2006, 0) then (7, 50)
  else if k = (0x2011, 0) then (250, 60000)
  else if k = (0x2012, 0) then (0, 1)
  else if k = (0x2013, 0) then (2, 16)
  else if k = (0x2014, 1) then (50, 99)
  else if k = (0x2014, 2) then (10, s.od.set.sprintStart - 1)
  else if k = (0x2017, 0) then (1, 300)
  else if k = (0x2020, 0) then (1, 60)
  else if k = (0x2024, 0) then (50, 1000)
  else if k = (0x2030, 0) then (0, 1)
  else if k = (0x2060, 0) then (1, s.cfg.units - 1)
  else if k = (0x2072, 0) then (1, 168)
  else if k = (0x2082, 2) then (1, 10)
  else (7, 90)

/-- Lowest and highest value of a setting (R367). -/
def settingRange (s : State) (k : Nat × Nat) : Nat × Nat :=
  if k.1 < 0x3000 then settingRange2 s k
  else if k = (0x3003, 0) then (10, 10000)
  else if k = (0x3004, 0) then (0, 10)
  else if k = (0x3005, 0) then (0, 0xFFFF)
  else if k = (0x4003, 0) then (1, 50)
  else if k = (0x4004, 0) then (5, 240)
  else if k = (0x4005, 0) then (24, 720)
  else if k = (0x4006, 0) then (7, 180)
  else if k = (0x5001, 0) then (0, 100)
  else if k = (0x6003, 0) ∨ k = (0x6005, 0) then (100, 1000)
  else if k = (0x6004, 0) then (1, 1000)
  else if k = (0xA002, 0) then (0, 0xFFFFFFFF)
  else if k = (0xA003, 0) then (1, 64)
  else (0, 1)

/-- A value is in its entry's range; the clocks take three values (R372). -/
def settingOk (s : State) (k : Nat × Nat) (v : Nat) : Bool :=
  decide ((settingRange s k).1 ≤ v ∧ v ≤ (settingRange s k).2) &&
    (if k = (0x6003, 0) ∨ k = (0x6005, 0) then decide (v = 100 ∨ v = 400 ∨ v = 1000) else true)

/-- The ports start with the settings read at AUX entry (R287, R372). -/
def applyPorts (s : State) : State := busStop .mgmt (busStop .lcl s)

end Sys2Proof.Machine
end

