-- ==== Sys2Proof/Machine/Boot.lean ====
section
/-! DEFINITION. What the coxswain ROMs do at the start of CORE (R402, R417, R436): the choice of the image, and
the requests a path brings in (R248, R296, R390). -/

namespace Sys2Proof.Machine

/-! ## The choice of the image (R402) -/

/-- The minimum security version in force: the higher of the boot config's and the ledger's (R401). -/
def minVersion (s : State) : Nat := max s.upd.minSecurity s.ledger.minSecurity

/-- An image verifies (R402). -/
def imageOk (s : State) (k : Fin 2) : Bool :=
  match slotOf s k with
  | some i => i.verifies && decide (minVersion s ≤ i.security)
  | none => false

/-- Boathouse mode is entered (R417, R420): cause 0 strap, 1 no valid image, 2 failed boots. -/
def enterBoathouse (cause : Nat) (s : State) : State :=
  record 0x0908 6 0x7000 cause (s.onBoot fun b => { b with inBoathouse := true, stage := 7 })

/-- The ROM runs the image's patch from its area (R436), and both crews start to load the image (R243, R246). -/
def startCrews (k : Fin 2) (s : State) : State :=
  let load (c : CrewUnit) : CrewUnit :=
    { c with st := .loading, image := k, loadFails := 0, releaseAt := s.tb.now, held := false }
  let s := s.onCrew fun x => { x with bow := load x.bow, stroke := load x.stroke, startLoad := true }
  fillPatchArea k (s.onBoot fun b => { b with stage := 1 })

/-- The Repechage image with its frozen settings (R402, R416); a trial image that no longer verifies counts as a failed boot
(log 88). -/
def startRepechage (s : State) : State :=
  let s := s.onUpd fun u =>
    { u with active := u.repechage, trial := 2, trialFailed := false, failCause := if u.trialFailed then u.failCause else 3 }
  let s := bootWrite (thawSettings s)
  let s := record 0x0907 5 0x7000 (if s.boot.settings = 0 then 4 else s.upd.failCause) s
  let s := takeHeadUnits s
  if imageOk s s.upd.active then startCrews s.upd.active s else enterBoathouse 1 s

/-- The coxswain ROM's choice (R402). A start without a trial, where a fall-back that found no two members had left the
frozen copy (R416), runs the Repechage image with its settings. -/
def chooseImage (s : State) : State :=
  let s := if s.upd.trial = 1 then s else thawSettings s
  if s.boot.boathouse then enterBoathouse 0 s
  else if 3 ≤ s.boot.failedBoots then enterBoathouse 2 s
  else if s.boot.bootcfg = 0 then enterBoathouse 1 s
  else if s.upd.trial = 1 then
    if imageOk s s.upd.active && decide (s.boot.settings ≠ 0) && !s.upd.trialFailed then startCrews s.upd.active s
    else startRepechage s
  else if imageOk s s.upd.active then startCrews s.upd.active s
  else
    let o := otherSlot s.upd.active
    if imageOk s o then
      startCrews o (record 0x090B 6 0x7000 o.val (bootWrite (s.onUpd fun u => { u with active := o })))
    else enterBoathouse 1 s

/-! ## Freeze (R458 to R461, R466) -/

/-- The hold bits of PWR_FREEZE_STATUS (R469). -/
def holdBits (s : State) : Nat := b2n s.frz.pin + 2 * b2n s.frz.od + 4 * b2n s.frz.jtag

/-- Enter the freeze (R460): credits withheld, queued writes applied, every channel in self-refresh, the
domains stopped; record 0x0F20 carries the hold bits. -/
def enterFreeze (s : State) : State :=
  let s := flush (fun _ => true) s
  let s := s.onDram fun d =>
    { d with channels := d.channels.map fun c => if c.state = .active then { c with state := .selfRefresh } else c }
  let s := s.onHost fun h =>
    { h with head0 := { h.head0 with creditsHeld := true }, head1 := { h.head1 with creditsHeld := true } }
  let s := s.onFrz fun f =>
    { f with frozen := true, waiting := false, since := s.tb.now, shadow := f.shadow + 1
             freezes := satInc 0xFFFF f.freezes }
  record 0x0F20 3 0x6000 (holdBits s) s

/-- The freeze is entered while a hold bit is set (R458): not in DARK or AUX, and not before the end of a block
reset (R459). -/
def tryFreeze (s : State) : State :=
  if !held s || frozen s || darkOrAux s then s
  else if s.dram.channels.any fun c => decide (c.state = .blockReset) then s.onFrz fun f => { f with waiting := true }
  else enterFreeze s

/-- A freeze request (R458, R459): ignored and recorded while a save runs. -/
def requestFreeze (set : Freeze → Freeze) (s : State) : State :=
  if saving s then record 0x0F22 3 0x6000 0 s else tryFreeze (s.onFrz set)

/-- The inputs since the last timer tick, and this tick, with the numbers the fan gives them (R228): how many there were and
when each arrived are free values (log 1). The tick's own stamp is the present. -/
def newInputs (s : State) : List Input :=
  let n := Config.freeNat s.free
  let seq (k : Nat) : Nat := (s.crew.inputSeq + k) % 2 ^ 64
  let rnd := Config.drbgValue s.upd.drbg
  ((List.range n).map fun k => { seq := seq k, stamp := min s.tb.now (Config.freeNat (s.free + 2 + k)), entropy := rnd })
    ++ [{ seq := seq n, stamp := s.tb.now, entropy := rnd }]

/-- A crew processes its inputs in their order (R229): a core that reads PWR_TIME reads the stamp of the last. -/
def process (l : List Input) (c : CrewUnit) : CrewUnit :=
  let last (f : Input → Nat) (d : Nat) : Nat := l.foldl (fun _ i => f i) d
  { c with
    input := last (·.seq) c.input, stamp := last (·.stamp) c.stamp
    entropy := l.foldl (fun _ i => i.entropy) c.entropy }

/-- A crew in CATCHUP or one that hands its state over has its inputs queued; `done` of them are then processed, and a backlog
above the ring's 65,536 entries faults the crew in CATCHUP (R228, R243). -/
def queueInputs (l : List Input) (done : Nat) (c : CrewUnit) : CrewUnit :=
  let q := c.queue ++ l
  let c : CrewUnit := { process (q.take done) c with queue := q.drop done }
  if c.st = .catchup ∧ 65536 < c.queue.length then { c with st := .faulted, queue := [], copyEnd := none } else c

/-- Inputs reach a crew (R228, R229, R243, R245): a member and a crew in SHADOW process them; a crew in CATCHUP queues them and
processes `done` of its queue, none before its copy of the mirrored state ends; a member whose state the other crew is taking
queues them too. -/
def takeInputs (l : List Input) (done : Nat) (other c : CrewUnit) : CrewUnit :=
  match c.st with
  | .member => if other.copyEnd.isSome then queueInputs l 0 c else { process (c.queue ++ l) c with queue := [] }
  | .shadow => process l c
  | .catchup => queueInputs l (if c.copyEnd.isSome then 0 else done) c
  | _ => c

/-- One timer tick of the input fan (R228, R229, R466): the tick and the inputs since the tick before it take their
sequence numbers, and reach both crews; how many inputs a crew in CATCHUP processes meanwhile is a free value (log 1). -/
def fanTick (s : State) : State :=
  let l := newInputs s
  let take := takeInputs l (Config.freeNat (s.free + 1))
  let n := Config.freeNat s.free
  let s := { s with free := s.free + 2 + n }.onUpd fun u => { u with drbg := u.drbg + 1 }
  s.onCrew fun x =>
    { x with
      inputSeq := (x.inputSeq + n + 1) % 2 ^ 64
      bow := take x.stroke x.bow, stroke := take x.bow x.stroke }

/-- CORE has started with the coxswains still in reset, held by a freeze (R459). -/
def coreHeld (s : State) : Bool :=
  s.clk.rootsStarted && decide (2 ≤ s.seq.st.num) && decide (s.boot.stage = 0) && decide (s.seq.dir ≠ .down)

/-- The coxswains that a freeze held in reset start once it has ended (R402, R459). -/
def startHeld (s : State) : State := if coreHeld s && !frozen s then chooseImage s else s

/-- A hold bit has cleared (R458, R466): with the last one the device resumes. -/
def releaseHold (clear : Freeze → Freeze) (s : State) : State :=
  let s := s.onFrz clear
  if held s then s
  else if frozen s then startHeld (fanTick (thaw s))
  else s.onFrz fun f => { f with waiting := false }

/-! ## Requests (R248, R296, R353, R365, R390) -/

/-- A head is present and up (R33, R34). -/
def headUp (s : State) (h : Fin 2) : Bool :=
  (headOf s h).link && (headOf s h).ready && (decide (h = 0) || twoHeads s)

/-- A request's path reaches the device: a head that is up with its clocks running, or MGMT with an endpoint ID
(R296, R384, R461); a secured session is open and as it was authenticated (R354). -/
def reaches (s : State) (p : Path) : Bool :=
  match p with
  | .mailbox h => headUp s h && !frozen s
  | .doe h => headUp s h && !frozen s
  | .vdm _ => s.host.head0.link && !frozen s
  | .smbus _ => s.seq.vddAon && s.bus.mgmt.eid.isSome && decide (s.bus.mgmt.st ≠ .portReset)
  | .secured id owner bus _ =>
    s.seq.vddAon && s.upd.secured.any (fun x => decide (x = (id, owner))) &&
      (if bus then s.bus.mgmt.eid.isSome && decide (s.bus.mgmt.st ≠ .portReset) else s.host.head0.link && !frozen s)

/-- A vendor command does not run: its path does not reach the device, or the path is a mailbox and the fence has fallen
(R137). -/
def turnedAway (s : State) (p : Path) : Bool :=
  !reaches s p || (match p with
    | .mailbox _ => s.host.fence
    | _ => false)

/-- The end of a command that does not run: Busy on a mailbox that is reached (R137), else nothing. -/
def turnAway (p : Path) (s : State) : State :=
  if !reaches s p then s
  else match p with
    | .mailbox h => mbox h .busy [] s
    | _ => s

/-- The ranges the Power region serves by itself (R296). -/
def powerRange (index : Nat) : Bool := decide (index / 0x1000 = 1 ∨ index / 0x1000 = 3)

/-- The status that answers a request before anything of it is evaluated (R365 item 1): STATE in DARK and AUX
(R296); BUSY while frozen, but for what the Power region serves on MGMT (R390, R458); BUSY while the sending
set is empty (R248), except in Boathouse mode, where the ROM answers (R417). -/
def gate (index : Nat) (p : Path) (s : State) : Option Nat :=
  if darkOrAux s then (if powerRange index then none else some stState)
  else if frozen s then
    (match p with
     | .smbus _ => if powerRange index || decide (index = 0xB001 ∨ index = 0xB003) then none else some stBusy
     | _ => some stBusy)
  else if emptySet s && !boathouse s then some stBusy
  else none

/-- The ROM of Boathouse mode serves requests (R417): not while frozen, when the Power region serves those that pass the gate
(R458, R461; DEDUCED, log 29). -/
def romServes (s : State) : Bool := boathouse s && !frozen s

/-- The ROM of Boathouse mode serves no write of the entry (R417); the off command is the sequencer's (R292). -/
def romOnly (index : Nat) (s : State) : Bool := romServes s && !decide (index = 0x7002 ∨ index = 0x3001)

/-- A request for entry `index` by a privilege of `privs`: its answer is what `act` gives, a status and a
state, unless the gate or the privilege (R353) refuses it. -/
def serve (p : Path) (index : Nat) (privs : List Nat) (act : Nat × State) (s : State) : State :=
  match gate index p s with
  | some st => reply p st [0, 0, 0] s
  | none =>
    if romOnly index s then reply p stState [0, 0, 0] s
    else if privs.contains (privilege p) then reply p act.1 [0, 0, 0] act.2 else reply p stAccess [0, 0, 0] s

/-- ROM of Boathouse mode serves no such request (R417). -/
def notInBoathouse (s : State) (act : Nat × State) : Nat × State := if romServes s then (stState, s) else act

end Sys2Proof.Machine
end

