-- ==== Sys2Proof/Machine/Blocks.lean ====
section
/-! DEFINITION. Resets of the blocks (R35, R194, R195, R219, R224, R265, R268): DDR channels, flash
channels and engines, the Flash region, a head, a two-wire port, and the ledger's failure (R340). -/

namespace Sys2Proof.Machine

/-- Ten seconds in ns: the window of R195 and R224. -/
def tenS : Nat := 10 * nsPerS

/-- Times of the last 10 s. -/
def recent (s : State) (l : List Nat) : List Nat := l.filter fun t => s.tb.now < t + tenS

/-- A reset starts: its detectors are masked under the fault ID that started it (R268). -/
def shadowOn (m : MasterId) (parent : BitVec 32) (s : State) : State :=
  s.onFault fun f => { f with shadows := { unit := m, parent := parent, since := s.tb.now } :: f.shadows.filter (·.unit ≠ m) }

/-- The reset of a unit is reported done; its shadow ends 2 µs later (R268). -/
def shadowDone (m : MasterId) (s : State) : State :=
  s.onFault fun f =>
    { f with shadows := f.shadows.map fun h => if h.unit = m then { h with done := true } else h }

/-! ## DDR channels -/

/-- Channel `n` changed by `f`. -/
def onCh (n : Nat) (f : DramChannel → DramChannel) (s : State) : State :=
  s.onDram fun d => { d with channels := listUpd n f d.channels }

/-- Channel `n`. -/
def chAt (s : State) (n : Nat) : DramChannel := s.dram.channels.getD n {}

/-- Master ID of cell `k` of DDR channel `n` (R13). -/
def ddrId (n k : Nat) : MasterId := BitVec.ofNat 16 (0x2000 + 64 * n + k)

/-- The charged unit's record shows the chip fatal of an isolation (R195). -/
def markEscalated (id : BitVec 32) (s : State) : State :=
  s.onFault fun f =>
    let m := id.toNat / 65536
    let c := tabGet {} m f.recs
    { f with recs := tabSet {} m { c with escalated := true } f.recs }

/-- Isolate a DDR channel (R195): a chip fatal of kind 1 whose cause is the capture that started the
reset. Its CHANNEL_ISOLATED commit is the command of that name. -/
def isolate (n : Nat) (cause : BitVec 32) (s : State) : State :=
  let s := onCh n (fun c => { c with state := .isolated }) s
  let s := record 0x0C04 2 (ddrId n 0) 0 (markEscalated cause s)
  chipFatal 1 cause s

/-- A cause on the channel now isolates it (R195, R196): a reset runs, or three others started within 10 s. -/
def isolatesNext (s : State) (n : Nat) : Bool :=
  let c := chAt s n
  decide (c.state = .blockReset) ||
    (decide (c.state = .active ∨ c.state = .selfRefresh) && decide (3 ≤ (recent s c.resetTimes).length))

/-- Start a block reset of a DDR channel (R194 steps 1 to 4), or isolate it on a second cause during a
reset (R196) or at a fourth reset within 10 s (R195). -/
def startBlockReset (n : Nat) (parent : BitVec 32) (s : State) : State :=
  let c := chAt s n
  if c.state = .blockReset then isolate n c.resetParent s
  else if c.state = .active ∨ c.state = .selfRefresh then
    let times := recent s c.resetTimes
    if 3 ≤ times.length then isolate n parent s
    else
      shadowOn (ddrId n 0) parent (onCh n (fun c =>
        { c with state := .blockReset, resets := satInc 0xFF c.resets, resetTimes := s.tb.now :: times
                 resetParent := parent, oarSlot := none }) s)
  else s

/-! ## Flash -/

/-- Flash channel `n` changed by `f`. -/
def onFl (n : Nat) (f : FlashChannel → FlashChannel) (s : State) : State :=
  s.onFlash fun x => { x with channels := listUpd n f x.channels }

/-- Flash channel `n`. -/
def flAt (s : State) (n : Nat) : FlashChannel := s.flash.channels.getD n {}

/-- Units of one program in a segment's mode (R206). -/
def unitsPerProgram (pslc : Bool) : Nat := if pslc then 16 else 48

/-- Chip enables of a channel, one for each target, of 1 or 2 LUNs (R202). -/
def targets (s : State) : Nat := ceilDiv s.cfg.diesPerChannel (max 1 s.cfg.lunsPerTarget)

/-- Target index of a die: its position counts the dies in chip-enable order and, within a target, in LUN order (R206). -/
def targetOfDie (s : State) (d : Nat) : Nat := d % 8 / max 1 s.cfg.lunsPerTarget

/-- Segment groups (R206): one where a TLC segment over every die that is not retired fits in 8 GiB, else the fewest equal
ones, split by target index, that fit. -/
def groupCount (s : State) : Nat :=
  ((List.range' 1 8).find? fun k => decide (targets s % k = 0 ∧
    ceilDiv (goodDies s).length k * max s.cfg.tlcDieBlockMib s.cfg.pslcDieBlockMib ≤ 8192)).getD (targets s)

/-- The dies of a segment that opens now, ascending (R206): those of its group. Which group a segment number belongs to is
not the spec's: the number's remainder (DESIGN CHOICE, log 8). -/
def groupDies (s : State) (seg : Nat) : List Nat :=
  let k := groupCount s
  (goodDies s).filter fun d => decide (targetOfDie s d * k / targets s = seg % k)

/-- The dies of a segment: those of its opening, or, while it is ERASED, of its group (R101, R206). -/
def segmentDies (s : State) (seg : Nat) : List Nat :=
  if (segmentAt s seg).state = .erased then groupDies s seg else (segmentAt s seg).dies

/-- Entry of a set of dies that unit `unit` lies on (R206). -/
def dieOfSet (s : State) (dies : List Nat) (seg unit : Nat) : Option Nat :=
  if dies.length = 0 then none else dies[unit / unitsPerProgram (isPslc s seg) % dies.length]?

/-- The die a unit of a segment lies on (R206). -/
def dieOfUnit (s : State) (seg unit : Nat) : Option Nat := dieOfSet s (segmentAt s seg).dies seg unit

/-- The unfinished units of a die that stops during a save go to the other dies that hold erased Basin blocks, in turn: those
its oar has in hand, and those the die holds and has not programmed (R151). -/
def moveSaveJobs (d : Nat) (s : State) : State :=
  let mine (j : FlashJob) := decide (j.die = d % 8) && saveJob j
  let js := (flAt s (d / 8)).jobs.filter mine
  match (erasedDies s).filter fun e => decide (e ≠ d) && decide ((flAt s (e / 8)).state = .active) with
  | [] => s
  | e :: t =>
    let dies := e :: t
    let next (k : Nat) : Nat := dies.getD (k % dies.length) e
    let s := onFl (d / 8) (fun c => { c with jobs := c.jobs.filter fun j => !mine j }) s
    let s := s.onBasin fun b => { b with image := b.image.map fun im => { im with
      held := (im.held.zip (List.range im.held.length)).map fun x =>
        if x.1.2.die = d then (x.1.1, { x.1.2 with die := next x.2 }) else x.1 } }
    (js.zip (List.range js.length)).foldl (fun s x => onFl (next x.2 / 8) (fun c =>
      startNext false (next x.2 % 8) { c with jobs := c.jobs ++
        [{ x.1 with die := next x.2 % 8, started := false, suspensions := 0, suspended := false }] }) s) s

/-- Every page whose Lakebed unit lies on a die is drained again from DRAM (R219), until the fence. A page that a restore has
not brought back yet is not in DRAM: it stays mapped, to be read or to fail decode (R176), until RESTORED (DEDUCED, log 114). -/
def redrainDie (d : Nat) (s : State) : State :=
  let pages := (s.lake.mapping.filter fun x =>
    decide (dieOfUnit s x.2.1 x.2.2 = some d) && pageRestored s x.1 && !s.host.fence).map (·.1)
  pages.foldl (fun s p => redrain p (dropMapping p s)) s

/-- The pages of every retired die that are still mapped are drained again (R219). -/
def redrainRetired (s : State) : State :=
  (s.flash.dies.filter (·.2.retired)).foldl (fun s x => redrainDie x.1 s) s

/-- Retire a die (R219): its pages are drained again from DRAM, record 0x0C02; its walk runs until DIE_RETIRE_WALK_DONE.
During a save R151 applies instead: its unfinished units go to the other dies, and parallelism falls by one, with no other
effect on the image. -/
def retireDie (d : Nat) (s : State) : State :=
  if (dieAt s d).retired then s
  else
    let s := s.onFlash fun f =>
      let x : Die := { (tabGet {} d f.dies : Die) with retired := true }
      { f with dies := tabSet {} d x f.dies, walks := f.walks ++ [d] }
    let s := if s.save.running then (moveSaveJobs d s).onSave fun v => { v with dies := v.dies - 1 } else redrainDie d s
    record 0x0C02 5 (BitVec.ofNat 16 (0x3000 + 64 * (d / 8))) 0 s

/-- Withdraw a flash channel and retire its dies (R224). -/
def withdrawChannel (n : Nat) (s : State) : State :=
  let s := onFl n (fun c => { c with state := .withdrawn }) s
  onFl n (fun c => { c with jobs := [] })
    ((List.range s.cfg.diesPerChannel).foldl (fun s k => retireDie (8 * n + k) s) s)

/-- Master ID of cell `k` of flash channel `n` (R13). -/
def flsId (n k : Nat) : MasterId := BitVec.ofNat 16 (0x3000 + 64 * n + k)

/-- Windows that the coxswain grants the DRAM oar of a channel (R21). -/
def dramWindows (ch : Nat) : List (Nat × Nat) := Config.oarWindows (ddrId ch 2).toNat

/-- Windows that the coxswain grants the flash oar of a channel (R21). -/
def flashWindows (ch : Nat) : List (Nat × Nat) := Config.oarWindows (flsId ch 1).toNat

/-- Reset a flash channel (R224): operations in progress are reissued; the third reset within 10 s
withdraws the channel. -/
def resetFlashChannel (n : Nat) (parent : BitVec 32) (s : State) : State :=
  let c := flAt s n
  if c.state ≠ .active then s
  else
    let times := recent s c.resetTimes
    if 2 ≤ times.length then withdrawChannel n s
    else
      shadowOn (flsId n 0) parent (onFl n (fun c =>
        { c with state := .reset, resetTimes := s.tb.now :: times, oarSlot := none
                 jobs := c.jobs.map fun j => { j with started := false, suspended := false } }) s)

/-- Reset an LDPC engine (R224); a second fault within 10 s withdraws its four channels. -/
def resetLdpc (k : Nat) (parent : BitVec 32) (s : State) : State :=
  let before := s.flash.ldpcTimes.filter fun t => decide (t.1 = k) && decide (s.tb.now < t.2 + tenS)
  let s := s.onFlash fun f =>
    { f with ldpcTimes := (k, s.tb.now) :: f.ldpcTimes.filter fun t => s.tb.now < t.2 + tenS }
  if before.isEmpty then
    shadowOn (flsId (32 + k) 0) parent
      ((List.range 4).foldl (fun s j => onFl (4 * k + j) (fun c =>
        { c with jobs := c.jobs.map fun j => { j with started := false } }) s) s)
  else (List.range 4).foldl (fun s j => withdrawChannel (4 * k + j) s) s

/-- Reset an XTS engine (R224); a second fault within 10 s leaves the other serving every channel. -/
def resetXts (k : Nat) (parent : BitVec 32) (s : State) : State :=
  let before := s.flash.xtsTimes.filter fun t => decide (t.1 = k) && decide (s.tb.now < t.2 + tenS)
  let s := s.onFlash fun f =>
    { f with xtsTimes := (k, s.tb.now) :: f.xtsTimes.filter fun t => s.tb.now < t.2 + tenS }
  if before.isEmpty then shadowOn (flsId (40 + k) 0) parent s
  else s.onFlash fun f => { f with xtsOut := setIns k f.xtsOut }

/-- Reset the Flash region (R265): every channel and engine together; drains in flight end as
FAIL_DRAIN; the landing windows restart from their bases. -/
def resetFlashRegion (parent : BitVec 32) (s : State) : State :=
  let s := (List.range 32).foldl (fun s n => onFl n (fun c =>
    if c.state = .active then { c with state := .reset, oarSlot := none, jobs := [] } else c) s) s
  let tags := (s.pm.drains.filter fun d => !d.2.failed).map fun d => tagOf d.2.gen d.1
  let s := tags.foldl (fun s t => failOne t s) s
  let s := s.onCrew fun x =>
    { x with fls := { x.fls with streams := x.fls.streams.map fun y => (y.1, { y.2 with slots := [] }) } }
  shadowOn 0x3A80 parent s

/-! ## Host heads (R35) -/

/-- Every reset of R35: the decoders go uncommitted, the head's mailbox command is abandoned, and an
update session opened through its mailbox is released. A reset of the link also takes it down until
it retrains (R34). -/
def resetHead (h : Fin 2) (linkToo : Bool) (s : State) : State :=
  let s := endSessions (fun k => decide (k = h.val ∨ k = 2 + h.val)) s
  let s := onHead h (fun x =>
    { x with hdm := List.replicate 4 {}, bg := .none, link := x.link && !linkToo, ready := x.ready && !linkToo }) s
  let s := s.onRst fun r => { r with sanitizeHead := if r.sanitizeHead = some h then none else r.sanitizeHead }
  match s.upd.session with
  | some u =>
    if u.transport = h.val ∧ (s.upd.stage = .idle ∨ s.upd.stage = .verifying) then
      (releaseSession s).onUpd fun u => { u with stage := .idle, committer := none }
    else s
  | none => s

/-! ## Two-wire ports -/

/-- Port `p` changed by `f`. -/
def onPort (p : Port) (f : BusPort → BusPort) (s : State) : State :=
  s.onBus fun b => match p with
    | .mgmt => { b with mgmt := f b.mgmt }
    | .lcl => { b with lcl := f b.lcl }

/-- A transaction on LOCAL failed on its retry too (R376): a NAK or a stretch abort, which LAST_ERROR tells apart (R391); the
command does not say which, so it is a free choice of the two (log 1). -/
def localFailed (s : State) : State :=
  busStop .lcl (onPort .lcl (fun b => { b with lastError := if Config.freeNat s.free % 2 = 0 then 4 else 7 })
    { s with free := s.free + 1 })

/-- Reset a two-wire port (R265): the transaction in progress is aborted as a bus error. -/
def resetPort (p : Port) (parent : BitVec 32) (s : State) : State :=
  let m : MasterId := match p with
    | .mgmt => 0x6080
    | .lcl => 0x6081
  shadowOn m parent (onPort p (fun b =>
    { b with st := .portReset, errors := satInc 0xFFFFFFFF b.errors, lossRun := 0, retried := false }) s)

/-! ## Ledger failure (R265, R340) -/

/-- The ledger is failed: the fallback ring takes over with its STAGED records kept, its first record is
the failure, and health reports the degraded metadata store. -/
def failLedger (s : State) : State :=
  if s.ledger.failed then s
  else
    let s := s.onLedger fun l => { l with failed := true, degraded := true }
    let s := s.onWl fun w =>
      let kept := w.ring.filter (·.staged)
      { w with ring := kept, lastExport := none
               exportFrom := match kept with
                 | r :: _ => r.seq
                 | [] => w.nextSeq }
    record 0x0E00 6 0x7000 0 s

end Sys2Proof.Machine
end

