-- ==== Sys2Proof/Machine/Fault.lean ====
section
/-! DEFINITION. The fault collector (R255 to R272): taking a capture, escalation, the grace timer,
acknowledgement, the F reactions by unit, and the reports on the CXL link and in the Waterline. -/

namespace Sys2Proof.Machine

/-! ## Records -/

/-- A unit's record written (R257). -/
def setCapture (m : MasterId) (c : Capture) (s : State) : State :=
  s.onFault fun f => { f with recs := tabSet {} m.toNat c f.recs }

/-- The crew of a unit of region 4 or 5 (R13). -/
def crewOfUnit (m : MasterId) : Option Crew :=
  if m.toNat / 4096 = 4 then some .bow else if m.toNat / 4096 = 5 then some .stroke else none

/-- The unit is a DDR sub-channel cell (R13). -/
def isDdrCell (m : MasterId) : Bool :=
  decide (m.toNat / 4096 = 2 ∧ m.toNat / 64 % 64 < 8 ∧ m.toNat % 64 < 2)

/-- The DDR channel of a cell or DRAM oar. -/
def ddrChannelOf (m : MasterId) : Option Nat :=
  if m.toNat / 4096 = 2 ∧ m.toNat / 64 % 64 < 8 then some (m.toNat / 64 % 64) else none

/-- The unit whose reset a fault of `m` runs in (R265, R268). -/
def resetUnit (m : MasterId) : MasterId :=
  let n := m.toNat
  if n / 4096 = 2 ∧ n / 64 % 64 < 8 then ddrId (n / 64 % 64) 0
  else if n / 4096 = 3 ∧ n / 64 % 64 < 32 then flsId (n / 64 % 64) 0
  else m

/-- A reset of the unit runs (R268): its shadow has not been reported done. -/
def resetRunning (s : State) (m : MasterId) : Bool :=
  s.fault.shadows.any fun h => decide (h.unit = resetUnit m) && !h.done

/-- The unit's F reaction is a chip fatal (R265). -/
def fatalUnit (m : MasterId) : Bool :=
  [0x0000, 0x0040, 0x0080, 0x1080, 0x10C0, 0x1100, 0x2200, 0x2240, 0x2280, 0x6000, 0x6100].contains m.toNat

/-! ## F reactions (R265) -/

/-- The F reaction of the Flash region's landing by the phase of the device (R265, R267): a region
reset; the last gasp in a save, with an outcome code the spec does not name (a free value, log 1); a
chip fatal in a restore. -/
def reactFlashRegion (id : BitVec 32) (s : State) : State :=
  if saving s then lastGasp (Config.freeNat s.free) { s with free := s.free + 1 }
  else if restoring s then chipFatal 1 id s
  else resetFlashRegion id s

/-- Write-buffer entries that fail their ECC carry the poison marker to DRAM (R265). Which do is not the spec's: a free bit
for each (log 1). -/
def failBuffer (s : State) : State :=
  let s' := { s with free := s.free + s.wb.entries.length }
  s'.onWb fun w => { w with entries := (w.entries.zip (List.range w.entries.length)).map fun x =>
    { x.1 with poison := x.1.poison || decide (Config.freeNat (s.free + x.2) % 2 = 1) } }

/-- The F reaction of a head port (R265): a head reset, with 100 ms until configuration requests are answered again. -/
def headReaction (h : Fin 2) (id : BitVec 32) (s : State) : State :=
  onHead h (fun x => { x with retrainBy := some (s.tb.now + 100 * nsPerMs, id) }) (resetHead h true s)

/-- The reaction of a unit, run now (R265). -/
def reactNow (m : MasterId) (s : State) : State :=
  let id := faultId s m
  let n := m.toNat
  let block := n / 64 % 64
  if fatalUnit m then chipFatal 1 id (if n = 0x10C0 then failBuffer s else s)
  else if n = 0x0FC0 then
    releaseHold (fun f => { f with jtag := false }) (s.onFault fun f => { f with jtagOff := true })
  else if n = 0x1000 then shadowOn m id (headReaction 0 id s)
  else if n = 0x1040 then shadowOn m id (headReaction 1 id s)
  else if n / 4096 = 2 then startBlockReset block id s
  else if n / 4096 = 3 then
    if block < 32 then resetFlashChannel block id s
    else if block < 40 then resetLdpc (block - 32) id s
    else if block < 42 then resetXts (block - 40) id s
    else reactFlashRegion id s
  else if n / 4096 = 4 then shadowDone m (crewFault .bow m (shadowOn m id s))
  else if n / 4096 = 5 then shadowDone m (crewFault .stroke m (shadowOn m id s))
  else if n = 0x6040 then failStr .a .fault s
  else if n = 0x6041 then failStr .b .fault s
  else if n = 0x6080 then resetPort .mgmt id s
  else if n = 0x6081 then resetPort .lcl id s
  else if n = 0x60C0 then shadowOn m id s
  else failLedger s

/-- The reaction of a unit: it waits while the device is frozen (R267), but for the JTAG port's (R468), and
while a reset of the same unit runs (R271), except that a second cause on a DDR channel in reset isolates
it (R196). -/
def react (m : MasterId) (s : State) : State :=
  if (frozen s && decide (m ≠ 0x0FC0)) || (resetRunning s m && (ddrChannelOf m).isNone) then
    s.onFault fun f => { f with waiting := f.waiting ++ [m.toNat] }
  else reactNow m s

/-- Run the reactions that may run now (R267, R271). -/
def runWaiting (s : State) : State :=
  s.fault.waiting.foldl (fun s n => react (BitVec.ofNat 16 n) s) (s.onFault fun f => { f with waiting := [] })

/-! ## Acting on a class (R261, R262, R272) -/

/-- A crew's health score falls by `n` for a capture against it (R240). -/
def scoreFor (m : MasterId) (n : Nat) (s : State) : State :=
  match crewOfUnit m with
  | some c => scoreDown c n s
  | none => s

/-- The report of a U or F capture on the CXL link (R272). -/
def reportU (m : MasterId) (s : State) : State :=
  if isDdrCell m then s.onHost fun h => { h with rasMemory := true, rasHeader := (capture s m).addr }
  else s.onHost fun h => { h with rasInternal := true, aerUncorrectable := true }

/-- A capture of class C acts (R272). -/
def actC (m : MasterId) (s : State) : State :=
  let s := if isDdrCell m then s.onHost fun h => { h with rasCorrectable := true }
    else s.onHost fun h => { h with aerCorrectable := true }
  record 0x0000 2 m (faultId s m).toNat (scoreFor m 1 s)

/-- The F reaction of the unit is a chip fatal, by its row of R265, or because it isolates a DDR channel (R195, R196) or
meets a restore at the Flash-region landing (R267). -/
def fatalNow (s : State) (m : MasterId) : Bool :=
  fatalUnit m || (decide (m.toNat = 0x3A80) && restoring s && !saving s) ||
    (match ddrChannelOf m with
     | some n => isolatesNext s n
     | none => false)

/-- A capture of class F acts (R265, R272). -/
def actF (m : MasterId) (s : State) : State :=
  if fatalNow s m then react m s
  else react m (record 0x0200 5 m (faultId s m).toNat (reportU m s))

/-- A grace timer expires (R262): the class becomes F with ESCALATED, and its reaction runs. -/
def expireGrace (m : MasterId) (s : State) : State :=
  let s := setCapture m { capture s m with cls := some .f, escalated := true, grace := false } s
  let s := s.onFault fun f => { f with graceExpiries := satInc 0xFF f.graceExpiries }
  actF m (record 0x0101 4 m (faultId s m).toNat s)

/-- A capture of class U acts (R262, R272): its grace timer starts; a length of 0 expires at once. -/
def actU (m : MasterId) (s : State) : State :=
  let g := s.od.set.graceMs * nsPerMs
  let s := setCapture m { capture s m with grace := true, graceNs := g } s
  let s := record 0x0100 4 m (faultId s m).toNat (scoreFor m 16 (reportU m s))
  if g = 0 then expireGrace m s else s

/-- The class of a unit's capture acts. -/
def act (m : MasterId) (k : FClass) (s : State) : State :=
  match k with
  | .c => actC m s
  | .u => actU m s
  | .f => actF m s

/-- Escalation of the held capture by one class (R261). -/
def escalate (m : MasterId) (s : State) : State :=
  let c := capture s m
  let s := s.onFault fun f => { f with escalations := satInc 0xFFFF f.escalations }
  match c.cls with
  | some .c => actU m (setCapture m { c with cls := some .u, escalated := true } s)
  | some .u => actF m (setCapture m { c with cls := some .f, escalated := true, grace := false } s)
  | some .f =>
    let s := setCapture m { c with escalated := true } s
    match ddrChannelOf m with
    | some n =>
      if (chAt s n).state = .blockReset then isolate n (chAt s n).resetParent s
      else chipFatal 2 (faultId s m) s
    | none => chipFatal 2 (faultId s m) s
  | none => s

/-! ## Taking a capture (R260) -/

/-- Order of the classes. -/
def classRank : FClass → Nat
  | .c => 1
  | .u => 2
  | .f => 3

/-- A new capture of a fault (R257, R260, row 1), consequential under a parent (R270); COUNT is kept. -/
def newCapture (parent : Option (BitVec 32)) (f : FaultIn) (s : State) : State :=
  let c := capture s f.unit
  setCapture f.unit
    { addr := f.addr, time := s.tb.now, parent := parent.getD 0, master := f.master, typ := f.typ
      cls := some f.cls, sticky := true, present := f.persists, conseq := parent.isSome
      capnum := (c.capnum + 1) % 65536, count := c.count, key := f.key, detail := f.detail } s

/-- A fault counted beside the held capture (R257 OVERFLOW). -/
def overflowUp (m : MasterId) (s : State) : State :=
  let c := capture s m
  setCapture m { c with overflow := satInc 0xFF c.overflow } s

/-- A lock loss at the Umpire (R26, R256): keys 1 and 2. -/
def isLockLoss (m : MasterId) (k : BitVec 8) : Bool := decide (m = 0x0040 ∧ (k = 1 ∨ k = 2))

/-- A consequential fault (R270): counted, captured only in a record that holds none, and reported to
the Waterline with severity 1. -/
def consequentialFault (parent : Option (BitVec 32)) (f : FaultIn) (s : State) : State :=
  let s := s.onFault fun x => { x with consequential := x.consequential + 1 }
  let s := if (capture s f.unit).sticky then overflowUp f.unit s else newCapture parent f s
  let code : BitVec 16 := match f.cls with
    | .c => 0x0000
    | .u => 0x0100
    | .f => 0x0200
  let k := code.toNat / 256
  let full := crewPath s
  recordWith code 1 f.unit (faultId s f.unit).toNat true
    (!full && (snapshotList s k).any fun a => !inPowerRegion a)
    (if full then snapshotFull s k else snapshotStaged s k) s

/-- A fault against a held capture that is not consequential (R260, rows 2 to 6); of a condition that has come back, PRESENT
is 1 again (R264). -/
def heldFault (f : FaultIn) (k : FClass) (s : State) : State :=
  let m := f.unit
  let c := capture s m
  if f.cls = k then
    let s := if f.persists then setCapture m { c with present := true } s else s
    if k ≠ .f ∧ f.key = c.key ∧ isLockLoss m f.key = false then s
    else escalate m (overflowUp m s)
  else if classRank k < classRank f.cls then
    let s := setCapture m
      { c with
        addr := f.addr, time := s.tb.now, master := f.master, typ := f.typ, cls := some f.cls
        key := f.key, detail := f.detail, escalated := false, grace := false, present := f.persists
        capnum := (c.capnum + 1) % 65536, overflow := satInc 0xFF c.overflow } s
    act m f.cls s
  else overflowUp m (if f.persists then setCapture m { c with present := true } s else s)

/-- A fault reaches the collector (R256, R260, R270), with the parent of the reset that masks its detector. A charged unit or
requester with a reserved master ID is chip fatal (R14). -/
def reportFault (parent : Option (BitVec 32)) (f : FaultIn) (s : State) : State :=
  if !unitExists s f.unit || !unitExists s f.master then chipFatal 5 0 s
  else
    let c := capture s f.unit
    let s := setCapture f.unit { c with count := satInc 0xFFFF c.count } s
    if parent.isSome then consequentialFault parent f s
    else if !c.sticky || c.conseq then act f.unit f.cls (newCapture none f s)
    else match c.cls with
      | none => act f.unit f.cls (newCapture none f s)
      | some k => heldFault f k s

/-- A fault a rule of the spec raises by itself: charged to `m`, requested by `req`. -/
def raise (m : MasterId) (cls : FClass) (key : BitVec 8) (typ : Fin 16) (req : MasterId) (addr : Nat)
    (detail : Nat) (s : State) : State :=
  reportFault none
    { unit := m, cls := cls, key := key, detail := BitVec.ofNat 16 detail, typ := typ, master := req
      addr := BitVec.ofNat 64 addr, persists := false, detector := .other } s

/-- A full spill area is chip fatal of kind 6 (R155, R276), on an F capture of the dirty filter, whose log it is (DESIGN
CHOICE, log 106). -/
def overflowCheck (s : State) : State :=
  if s.log.overflow then
    let c := capture s 0x2200
    let f : FaultIn := { unit := 0x2200, cls := .f, key := 0, detail := 0, typ := 0xF, master := 0x2200, addr := 0
                         persists := false, detector := .other }
    let s := newCapture none f (setCapture 0x2200 { c with count := satInc 0xFFFF c.count } s)
    chipFatal 6 (faultId s 0x2200) (s.onLog fun l => { l with overflow := false })
  else s

/-! ## Overruns (R265, R268) -/

/-- The bound of a unit's reset in ns (R265); of the others none runs here. -/
def resetBound (m : MasterId) : Nat :=
  let n := m.toNat
  if n / 4096 = 2 then 250000
  else if n / 4096 = 3 then (if n / 64 % 64 < 32 then nsPerMs else if n = 0x3A80 then 2 * nsPerMs else 100000)
  else if n = 0x6080 ∨ n = 0x6081 then nsPerMs
  else 100000

/-- A reset that runs past its bound (R265, R268): a head has its own (R265), and a crew's is over at once. -/
def overruns (s : State) (h : Shadow) : Bool :=
  !h.done && (crewOfUnit h.unit).isNone && decide (h.unit.toNat / 4096 ≠ 1)
    && decide (h.since + resetBound h.unit < s.tb.now)

/-- A reset past its bound is reported by its own sequencer and is chip fatal: a DRAM channel is isolated (R195), any other is
its unit's reaction that cannot finish (R265). -/
def overrunOf (h : Shadow) (s : State) : State :=
  let s := shadowDone h.unit s
  match ddrChannelOf h.unit with
  | some n => isolate n h.parent s
  | none => chipFatal 1 h.parent s

/-- A head that does not answer configuration requests within its bound (R265). -/
def headLate (h : Fin 2) (s : State) : State :=
  match (headOf s h).retrainBy with
  | some (t, id) => if t < s.tb.now then chipFatal 1 id (onHead h (fun x => { x with retrainBy := none }) s) else s
  | none => s

/-- What the reset sequencers see as time passes; their domains stand still in a freeze (R461). -/
def overrunStep (s : State) : State :=
  if frozen s || darkOrAux s then s
  else
    let s := match s.fault.shadows.find? (overruns s) with
      | some h => overrunOf h s
      | none => s
    headLate 0 (headLate 1 s)

/-! ## Masked detectors (R268, R269) -/

/-- XTS engine `k` serves the flash channel (R224): its own 16, and all 32 while the other engine is out. -/
def xtsServes (s : State) (k ch : Nat) : Bool :=
  !s.flash.xtsOut.contains k && (decide (k = ch / 16) || s.flash.xtsOut.contains (1 - k))

/-- A reset of the unit masks the detector (R269). A pairing timer stands for both crews' copies of its stream, so a crew's
reset masks it. -/
def masks (s : State) (unit : MasterId) (d : Detector) : Bool :=
  let n := unit.toNat
  let block := n / 64 % 64
  let serves (ch : Fin 32) : Bool :=
    decide (block = ch.val) || decide (block = 32 + ch.val / 4) || xtsServes s (block - 40) ch.val && decide (40 ≤ block)
  match d with
  | .memPort ch => isDdrCell unit && decide (block = ch.val)
  | .dramRead line => decide (n = 0x3A80) || (isDdrCell unit && decide (block = channelOfPage s (pageOf line)))
  | .scrubTimer ch => isDdrCell unit && decide (block = ch.val)
  | .pairing l x => (crewOfUnit unit).isSome || match l with
    | .mem => isDdrCell unit && decide (x = { cox := false, num := 2 } ∨ x = { cox := true, num := 1 })
    | .fls => decide (n = 0x3A80) || (decide (n / 4096 = 3 ∧ block < 32) && !x.cox && decide (x.num.val = block))
    | _ => false
  | .flashStream k => decide (n = 0x3A80) || decide (n / 4096 = 3 ∧ block < 32 ∧ block = k.val)
  | .slotTimer ch => decide (n = 0x3A80) || (decide (n / 4096 = 3) && serves ch)
  | .flashOar ch => decide (n = 0x3A80) || (decide (n / 4096 = 3) && serves ch)
  | .flashOther => decide (n = 0x3A80)
  | .crewPort c => decide (crewOfUnit unit = some c)
  | .mirrorDigest c => decide (crewOfUnit unit = some c)
  | .headPort h => decide (n = 0x1000 + 64 * h.val)
  | .waitsOn m => decide (n / 4096 = 6) && decide (unit = m)
  | .other => false

/-- The parent under which a detector's fault is consequential (R268): that of a running reset whose mask holds it. -/
def maskedBy (s : State) (d : Detector) : Option (BitVec 32) :=
  (s.fault.shadows.find? fun h => masks s h.unit d).map (·.parent)

/-! ## Acknowledgement (R263) -/

/-- The capture a fault ID names is held and unacknowledged. -/
def ackNames (s : State) (id : BitVec 32) : Bool :=
  let m : MasterId := id.extractLsb' 16 16
  let c := capture s m
  unitExists s m && c.sticky && decide (c.capnum = id.toNat % 65536)

/-- The reaction of the held capture was a chip fatal: it cannot be acknowledged (R263, R266). -/
def isFatalCapture (s : State) (id : BitVec 32) : Bool := s.fault.fatalIds.contains id

/-- Acknowledge a capture (R263): STICKY and GRACE clear. -/
def ack (id : BitVec 32) (s : State) : State :=
  let m : MasterId := id.extractLsb' 16 16
  if ackNames s id && !isFatalCapture s id then
    setCapture m { capture s m with sticky := false, grace := false } s
  else s

/-! ## The end of a command -/

/-! ## Health (R57) and the attention it draws (R374) -/

/-- Health Status (R57): bit 0 Maintenance Needed, bit 1 Performance Degraded, bit 2 Hardware Replacement Needed. -/
def healthStatus (s : State) : Nat :=
  let bad (b : BatString) : Bool := decide (b.st = .absent ∨ b.st = .failed)
  let maintenance := bad s.bat.a || bad s.bat.b || s.host.unprotected || s.ledger.failed || s.ledger.degraded
  let isolated := s.dram.channels.any fun c => decide (c.state = .isolated) || c.out
  let lost := decide (s.rst.phase = .failed)
  b2n maintenance + 2 * b2n isolated + 4 * b2n (isolated || lost)

/-- Media Status of Get Health Info (R57): 0 Normal, 1 Not Ready, 3 All Data Lost, 4 Write Persistency Loss in the
Event of Power Loss. -/
def healthMedia (s : State) : Nat :=
  if s.rst.phase = .failed then 3
  else if restoring s && !memReady s then 1
  else if s.host.unprotected then 4
  else 0

/-- Strings that are COUNTED, one bit each. -/
def countedBits (s : State) : Nat := b2n (isCounted s .a) + 2 * b2n (isCounted s .b)

/-- The reasons STRING and HEALTH of the status byte arise when what they report has changed (R374). -/
def notice (s : State) : State :=
  if !s.seq.vddAon then s
  else
    let now := (countedBits s, healthStatus s, healthMedia s)
    let t := s.onBus fun b => { b with seen := some now }
    match s.bus.seen with
    | none => t
    | some old =>
      let t := if old.1 = now.1 then t else attend 2 t
      if old.2 = now.2 then t else attend 1 t

/-- The end of a command that may have moved what other rules watch: a filled spill area (R155), a reaction that
waited (R271), a reason of the status byte (R374). -/
def finish (s : State) : Host.Outcome State Fault Refusal := .next (notice (runWaiting (overflowCheck s)))

end Sys2Proof.Machine
end

