-- ==== Sys2Proof/Machine/Lines.lean ====
section
/-! DEFINITION. Lines of DRAM as accesses meet them (R74, R184 to R187, R200): the data a read returns
with the write buffer merged in, corrected and uncorrectable decodes, demand fetches (R168, R169), and
the answer to one read. -/

namespace Sys2Proof.Machine

/-! ## The write buffer over a line (R39, R74) -/

/-- Bit mask of `n` byte enables from byte `k`. -/
def beMask (be : BitVec 64) : Nat → Nat → Nat
  | 0, _ => 0
  | n + 1, k => (if be.getLsbD k then 255 else 0) + 256 * beMask be n (k + 1)

/-- A line with a write's enabled bytes over it (R38). -/
def overlay (d : Line) (e : WEntry) : Line :=
  let m : Line := BitVec.ofNat 512 (beMask e.be 64 0)
  (d &&& ~~~m) ||| (e.data &&& m)

/-- Whether a write replaces the whole line, clearing its poison (R53). -/
def wholeLine (e : WEntry) : Bool := decide (e.be = BitVec.allOnes 64)

/-- A line and its poison after writes to it, in arrival order (R74). -/
def mergeOver (s : State) (line : Nat) (es : List WEntry) : Line × Bool :=
  es.foldl (fun p e => (overlay p.1 e, e.poison || (p.2 && !wholeLine e))) (readLine s line, linePoison s line)

/-- The line and its poison with the buffered writes to it over it (R74). -/
def merged (s : State) (line : Nat) : Line × Bool :=
  mergeOver s line (s.wb.entries.filter fun e => decide (e.line = line))

/-- A buffered write covers the whole line: DRAM is not read (R39). -/
def bufferHit (s : State) (line : Nat) : Bool :=
  s.wb.entries.any fun e => decide (e.line = line) && wholeLine e

/-! ## Decodes (R184, R186, R200) -/

/-- Master ID of the sub-channel cell of a line (R13, R182): A for an even line of its page, B for odd. -/
def cellOf (s : State) (line : Nat) : MasterId := ddrId (channelOfPage s (pageOf line)) (line % 2)

/-- A device of a channel (R183): its logical rank, which the internal mapping of R182 gives, its sub-channel and its number
of 10. -/
def deviceKey (line dev : Nat) : Nat := 20 * (Config.logicalRank line % 8) + 2 * dev + line % 2

/-- Count one corrected error against a device: the channel's CE_COUNT, and the device's count over the last 24 h, whose rise
above 1,000 is recorded (R186). -/
def countCorrected (s : State) (line dev : Nat) : State :=
  let n := channelOfPage s (pageOf line)
  let k := deviceKey line dev
  let old := (tabGet [] k (chAt s n).ceTimes).filter fun t => decide (s.tb.now < t + nsPerDay)
  let s := onCh n (fun c =>
    { c with ce := satInc 0xFFFFFF c.ce, ceTimes := tabSet [] k (s.tb.now :: old) c.ceTimes }) s
  if old.length = 1000 then record 0x0C00 4 (cellOf s line) 0 s else s

/-- A corrected error of a line (R186, R259, R272): counted, and captured as C with the decoder's syndrome, which no command
carries: a free value (log 1). -/
def corrected (line dev : Nat) (typ : Fin 16) (req : MasterId) (s : State) : State :=
  raise (cellOf s line) .c (BitVec.ofNat 8 dev) typ req (line * 64) (Config.freeBits 16 s.free).toNat
    (countCorrected { s with free := s.free + 1 } line dev)

/-- A corrected error whose device the rules do not name, as after a repeated read (R186): the KEY is a
free value (log 1). -/
def correctedFree (line : Nat) (typ : Fin 16) (req : MasterId) (s : State) : State :=
  let d := Config.freeNat s.free % 10
  corrected line d typ req { s with free := s.free + 1 }

/-- An uncorrectable line that nothing repairs (R185, R186, R259): the marker, UE_COUNT, a U capture. -/
def uncorrectable (line : Nat) (syn : BitVec 16) (typ : Fin 16) (req : MasterId) (s : State) : State :=
  let n := channelOfPage s (pageOf line)
  let s := onCh n (fun c => { c with ue := satInc 0xFFFF c.ue }) (setPoison line true s)
  raise (cellOf s line) .u 0xFE typ req (line * 64) syn.toNat s

/-- One line of DRAM as an oar's access to it met it (R185, R186): what the decode gave. A line that carries the marker already
stays as it is. -/
def dramLine (line : Nat) (res : DramRead) (typ : Fin 16) (req : MasterId) (s : State) : State :=
  if linePoison s line then s
  else match res with
    | .ok => s
    | .corrected d => corrected line d.val typ req s
    | .repeatOk => correctedFree line typ req s
    | .uncorrectable syn => uncorrectable line syn typ req s

/-- A CLEAN page with a VALID mapping entry can be repaired from the Lakebed (R187). -/
def repairable (s : State) (line : Nat) : Bool :=
  decide (pageState s (pageOf line) = .clean) && (tabFind (pageOf line) s.lake.mapping).isSome

/-- The die that holds a page's copy (R167, R169, R206): that of the Basin unit of a residue page not yet restored, else that
of its Lakebed unit; a zero-fill page has none. -/
def dieOfPage (s : State) (page : Nat) : Option Nat :=
  if s.rst.basinPages.contains page && !pageRestored s page then
    match s.basin.image with
    | some im => (tabFind page im.units).map (·.die)
    | none => none
  else match tabFind page s.lake.mapping with
    | some (seg, unit) => dieOfUnit s seg unit
    | none => none

/-- Queue a read of a page's copy at its die (R169, R187, R208); a page without one takes no queue slot. -/
def queueRead (page : Nat) (op : FlashOp) (s : State) : State :=
  match dieOfPage s page with
  | none => s
  | some d => onFl (d / 8) (fun c => { c with jobs := c.jobs ++ [{ die := d % 8, op := op }] }) s

/-- Start the repair of an uncorrectable line (R187): the line keeps its marker meanwhile. -/
def startRepair (line : Nat) (s : State) : State :=
  queueRead (pageOf line) (.repair line) (setPoison line true s)

/-- One line read through the patrol-scrub path of its channel's oar, with the decode `res` (R55, R187, R191): a poisoned
line is passed over. -/
def scrubLine (line : Nat) (res : DramRead) (s : State) : State :=
  let oar := ddrId (channelOfPage s (pageOf line)) 2
  if linePoison s line then s
  else
    match res with
    | .ok => s
    | .corrected d => corrected line d.val 8 oar s
    | .repeatOk => correctedFree line 8 oar s
    | .uncorrectable syn => if repairable s line then startRepair line s else uncorrectable line syn 8 oar s

/-! ## Demand fetches (R168, R169) -/

/-- An access to an unrestored page: one fetch per page (R168). -/
def startFetch (page : Nat) (s : State) : State :=
  if s.rst.fetching.contains page then s
  else queueRead page (.demandFetch page) (s.onRst fun r => { r with fetching := setIns page r.fetching })

/-- An access must wait for a demand fetch (R168). -/
def unrestored (s : State) (page : Nat) : Bool := inWindow s && !pageRestored s page

/-! ## Reads -/

/-- Head port of a head (R13). -/
def headPort (h : Fin 2) : MasterId := if h = 0 then 0x1000 else 0x1040

/-- Keep a read waiting. -/
def holdRead (h : Fin 2) (id line : Nat) (why : RWait) (s : State) : State :=
  let es := s.wb.entries.filter fun e => decide (e.line = line)
  s.onWb fun w => { w with reads := w.reads ++ [{ id := id, head := h, line := line, why := why, earlier := es }] }

/-- Answer a read with the line as it stands (R53, R74). -/
def answer (h : Fin 2) (id line : Nat) (s : State) : State :=
  let p := merged s line
  say (.read h id p.1 p.2) s

/-- Answer a read with poison (R50, R53): the data is a free value (log 1). -/
def answerPoison (h : Fin 2) (id : Nat) (s : State) : State :=
  say (.read h id (Config.freeBits 512 s.free) true) { s with free := s.free + 1 }

/-- Serve a read whose DRAM decode gives `res` (R74, R184 to R187). -/
def serveRead (h : Fin 2) (id line : Nat) (res : DramRead) (s : State) : State :=
  if bufferHit s line || linePoison s line then answer h id line s
  else
    let req := headPort h
    match res with
    | .ok => answer h id line s
    | .corrected d => answer h id line (corrected line d.val 0 req s)
    | .repeatOk => answer h id line (correctedFree line 0 req s)
    | .uncorrectable syn =>
      if repairable s line then startRepair line (holdRead h id line .repair s)
      else answer h id line (uncorrectable line syn 0 req s)

/-- Answer a read that waited: the line as it stands under the writes that arrived before the read (R74). The fence stops
read completions (R137). -/
def answerHeld (r : PendingRead) (s : State) : State :=
  let p := mergeOver s r.line r.earlier
  if s.host.fence then s else say (.read r.head r.id p.1 p.2) s

/-- Answer the waiting reads that `p` selects, in arrival order, and take them off the list. -/
def release (p : PendingRead → Bool) (s : State) : State :=
  let go := s.wb.reads.filter p
  let s := s.onWb fun w => { w with reads := w.reads.filter fun r => !p r }
  go.foldl (fun s r => answerHeld r s) s

/-- Mark a page's RESTORED bit (R165). -/
def setRestored (page : Nat) (s : State) : State :=
  s.onRst fun r => { r with restoredSet := setIns page r.restoredSet }

/-- After a page's fetch: its held writes are admitted, or tested when the page is CLEAN or LOST, in
arrival order; one past 20 µs without room is an overshoot (R122, R168). -/
def releaseWrites (page : Nat) : Nat → State → State
  | 0, s => s
  | n + 1, s =>
    match firstIdx (fun e => decide (e.phase = .heldFetch) && decide (pageOf e.line = page)) s.wb.entries 0 with
    | none => s
    | some (i, e) =>
      let st := pageState s page
      let later := decide (st ≠ .dirty ∧ st ≠ .draining)
      let s' :=
        if s.wb.entries.any fun x =>
            decide (x.phase = .heldWeir ∨ x.phase = .mapWait) && decide (pageOf x.line = page) then
          onEntry i (fun e => { e with phase := .behind }) s
        else if later && !roomFor s && (e.expired || decide (e.arrived + 20000 ≤ s.tb.now)) then overshootEntry i e s
        else testOrWait i e s
      releaseWrites page n s'

end Sys2Proof.Machine
end

