-- ==== Sys2Proof/WellFormed.lean ====
section
/-! DEFINITION. Which commands are well formed: the operands of `Instr` are numbers, and a field of the device or of a
message holds only so many bits, bytes or items. The meanings are total on every operand; these checks say which operands
a command can carry. -/

namespace Sys2Proof

/-- A 64-bit quantity: an address, a length, a sequence number. -/
def addrOk (n : Nat) : Bool := decide (n < 2 ^ 64)
/-- A field of four bytes (R61 to R65). -/
def u32 (n : Nat) : Bool := decide (n < 2 ^ 32)
/-- A field of two bytes (R63 to R66). -/
def u16 (n : Nat) : Bool := decide (n < 2 ^ 16)
/-- Bytes of a mailbox payload (R41). -/
def payloadMax : Nat := 8192
/-- Bytes of the fixed part of a vendor command's input payload (R61 to R66). -/
def vendorFixedPart (opcode : Nat) : Nat :=
  if opcode = 0xC001 then 8
  else if opcode = 0xC002 then 12
  else if opcode = 0xC003 then 6
  else if opcode = 0xC010 then 8
  else if opcode = 0xC011 then 12
  else if opcode = 0xC012 then 4
  else if opcode = 0xC013 then 4
  else if opcode = 0xC020 then 12
  else 0
/-- A device page number: 29 bits (R89, R157). -/
def pageOk (n : Nat) : Bool := decide (n < 2 ^ 29)
/-- A device line number: 64 lines of each page (R182). -/
def lineOk (n : Nat) : Bool := decide (n < 2 ^ 35)
/-- A drain tag: 8 bits of GENERATION over 16 bits of index (R89). -/
def tagOk (n : Nat) : Bool := decide (n < 2 ^ 24)
/-- A die number: 8 dies of each of 32 channels (R204). -/
def dieOk (n : Nat) : Bool := decide (n < 256)
/-- A Lakebed location: SEGMENT of 10 bits and UNIT of 21 (R100). -/
def placeOk (seg unit : Nat) : Bool := decide (seg < 1024) && decide (unit < 2097152)
/-- The operands of a flash operation (R89, R100, R104, R182, R206). -/
def opWf : FlashOp → Bool
  | .saveProgram page => pageOk page
  | .saveMetaRead => true
  | .demandFetch page => pageOk page
  | .repair line => lineOk line
  | .restoreRead page => pageOk page
  | .restoreMetaRead => true
  | .basinErase block => decide (block < 65536)
  | .drain tag seg unit _ => tagOk tag && placeOk seg unit
  | .logProgram => true
  | .relocate page seg unit _ => pageOk page && placeOk seg unit
  | .checkpointProgram seg unit chunk => placeOk seg unit && decide (chunk.getD 0 < 32768)
  | .erase _ seg => decide (seg < 1024)
  | .patrolRead seg => decide (seg < 1024)
/-- An MCTP endpoint ID: one byte (R383). -/
def eidByte (n : Nat) : Bool := decide (n < 256)
/-- The payload of a mailbox command fits the 8 KiB of the primary mailbox (R41). -/
def mailboxOk : MailboxCmd → Bool
  | .setLabels off data => u32 off && decide (data.length ≤ payloadMax)
  | .getLabels off length => u32 off && u32 length
  | .short opcode length => u16 opcode && decide (length < vendorFixedPart opcode ∨ vendorFixedPart opcode = 0 ∧ length ≤ payloadMax)
  | _ => true

/-- The operands of a command in a landing (R89, R92, R100, R182): those of the command itself. -/
def landedWf : Landed → Bool
  | .weirPublish level => decide (level < 2 ^ 48)
  | .markDraining pages => decide (pages.length ≤ 64) && pages.all pageOk
  | .completeDrain tag seg unit => tagOk tag && placeOk seg unit
  | .failDrain tag => tagOk tag
  | .flashOp _ _ op reads => opWf op && reads.all fun x => lineOk x.1
  | .firmware _ payload => decide (payload.length ≤ 4096)
  | _ => true

/-- A register access: 1, 2, 4 or 8 bytes, inside BAR0 for a head (R41, R498). -/
def targetOk : RegTarget → Bool
  | .xbar addr size => decide (addr < 2 ^ 32) && [1, 2, 4, 8].contains size
  | .bar _ off size => decide (off + size ≤ 0x20000) && [1, 2, 4, 8].contains size
  | .hdm _ _ base size _ _ _ _ => addrOk base && addrOk size
  | .msix _ _ _ => true
  | .hdmRange _ _ _ => true
  | .config _ _ => true
  | .dev _ _ => true
  | .mailbox _ cmd => mailboxOk cmd
  | .doe _ => true
  | .serial off size => decide (off + size ≤ 2 ^ 27) && [1, 2, 4, 8].contains size

/-- The command is well formed. -/
def Instr.wf : Instr → Bool
  | .hostRead _ hpa _ _ => addrOk hpa
  | .hostWrite _ hpa _ _ _ _ => addrOk hpa
  | .heldWriteAdmit => true
  | .holdLimitExpiry => true
  | .hstMark _ => true
  | .hstSettle _ => true
  | .registerWrite tgt _ _ => targetOk tgt
  | .viral _ => true
  | .perstNAssert _ => true
  | .perstNDeassert _ => true
  | .linkReset _ => true
  | .flr _ => true
  | .cxlReset _ => true
  | .hostRegionReady up => [1, 2, 4, 8, 16].contains up.width
  | .gpfPhase1 _ => true
  | .gpfPhase2 _ => true
  | .gpfDrainDone => true
  | .odRead _ _ _ off => u32 off
  | .odWrite _ _ _ _ off data _ => u32 off && decide (data.length ≤ payloadMax)
  | .odEnumerate _ _ _ maximum => u16 maximum
  | .updateOpen _ length => u32 length
  | .updateBlock _ session off data _ => u16 session && u32 off && decide (data.length ≤ payloadMax)
  | .updateCommit _ session => u16 session
  | .updateAbort _ session => u16 session
  | .waterlineRead _ first maximum _ _ => addrOk first && u16 maximum
  | .getPoisonList _ dpa length => addrOk dpa && addrOk length
  | .injectPoison _ dpa => addrOk dpa
  | .clearPoison _ dpa _ _ => addrOk dpa
  | .scanMedia _ dpa length => addrOk dpa && addrOk length
  | .scanMediaDone scan => scan.found.all fun x => lineOk x.1
  | .getScanMediaCapabilities _ dpa length => addrOk dpa && addrOk length
  | .setShutdownState _ _ => true
  | .getShutdownState _ => true
  | .getHealthInfo _ => true
  | .setAlertConfiguration _ _ => true
  | .getAlertConfiguration _ => true
  | .identifyMemoryDevice _ => true
  | .getFwInfo _ => true
  | .sanitize _ => true
  | .secureErase _ => true
  | .ptmResponse _ _ => true
  | .spdmRequest _ _ => true
  | .setCertificate _ _ chain => decide (chain.length ≤ payloadMax)
  | .restoreModeWrite _ _ => true
  | .saveRequest _ _ => true
  | .offCommand _ => true
  | .onCommand _ => true
  | .latchClear _ _ => true
  | .learningRequest _ _ => true
  | .packChangeDeclaration _ _ => true
  | .odAcknowledge _ _ => true
  | .trialCommit _ _ => true
  | .planRequest _ _ => true
  | .seatRequest _ _ => true
  | .crewResetRequest _ _ => true
  | .freezeEnterRequest _ => true
  | .freezeResumeRequest _ => true
  | .settingsCompactionDone => true
  | .weirRecompute => true
  | .weirPublish _ level => decide (level < 2 ^ 48)
  | .coxswainWeirRecompute => true
  | .weirFloorSet => true
  | .weirDecayStart => true
  | .weirDecayFloor => true
  | .markDraining pages => decide (pages.length ≤ 64) && pages.all pageOk
  | .completeDrain tag seg unit => tagOk tag && placeOk seg unit
  | .failDrain tag => tagOk tag
  | .mapWalkRequest _ _ => true
  | .mapWalkBatch => true
  | .flashOarCommand _ _ o => opWf o.op && o.reads.all fun x => lineOk x.1
  | .flashOpComplete _ _ _ => true
  | .checkpointTimer => true
  | .mapLineRebuild line => decide (line < 2 ^ 24)
  | .recountDone => true
  | .mappingEntryError page => pageOk page
  | .dirtyLogChunkMove => true
  | .logCompactionDone => true
  | .pwrfailNAssert _ => true
  | .vinSenseFall => true
  | .vinSenseRise => true
  | .saveDrainDone => true
  | .saveStarted => true
  | .mapSaved => true
  | .cursor _ page => pageOk page
  | .bucketDone => true
  | .rootsSaved => true
  | .saved => true
  | .saveTimeLimit => true
  | .sagDetect _ _ => true
  | .saveCutoff _ _ _ => true
  | .crewsSilentTimeout => true
  | .emptySetSaveTimeout => true
  | .ledgerHoldTimeout => true
  | .powerDownCommand => true
  | .saveRelease => true
  | .restoreBegin _ => true
  | .restoreStarted => true
  | .restoreMetadataLoaded _ => true
  | .conversionDone => true
  | .earlyOpenPoint => true
  | .memoryReady => true
  | .lakebedFillDone failed => failed.pages.all pageOk && failed.lines.all fun x => lineOk x.1
  | .basinOverlayDone failed => failed.pages.all pageOk && failed.lines.all fun x => lineOk x.1
  | .restored => true
  | .restoreInterrupted => true
  | .basinErased => true
  | .blockEraseDone die _ _ _ => dieOk die
  | .demandFetchDone page res _ => pageOk page && res.lines.all fun x => lineOk x.1
  | .checkpoint => true
  | .settled => true
  | .shutdownClean => true
  | .cleanShutdownDrained => true
  | .sanitized => true
  | .channelIsolated _ => true
  | .blockReset _ _ => true
  | .blockResetDone _ _ _ => true
  | .dramOarReload _ _ => true
  | .flashOarReload _ _ => true
  | .ddrAlert _ _ _ failures => decide (failures ≤ 4)
  | .lakebedRepairDone line _ => lineOk line
  | .repairReadTimeout _ => true
  | .refreshTick _ => true
  | .zqCalibration _ => true
  | .dqsTracking _ => true
  | .dramTemperatureRead _ _ => true
  | .patrolScrub _ line _ => lineOk line
  | .trainingDone _ _ _ => true
  | .flashChannelReset _ => true
  | .ldpcEngineFault _ => true
  | .xtsEngineFault _ => true
  | .flashPatrol _ => true
  | .dieRetire die => dieOk die
  | .dieRetireWalkDone die => dieOk die
  | .basinExchangeTimer => true
  | .sDieRecompute _ _ => true
  | .landingCopy _ _ _ _ _ _ cmd => landedWf cmd
  | .pairingTimeout _ _ _ => true
  | .timerTick _ _ => true
  | .seatTokenCorrupt _ => true
  | .healthSecond _ => true
  | .crewRejoinTimer _ => true
  | .crewLoadDone _ _ => true
  | .catchupDone _ => true
  | .shadowClean _ => true
  | .updateVerifyDone _ => true
  | .updateHandover => true
  | .updateSessionIdle => true
  | .trialExpiry => true
  | .fallbackWaitTimeout => true
  | .trialTimeWrite => true
  | .faultReport _ => true
  | .graceExpiry _ => true
  | .chpFaultAck _ _ => true
  | .rasStatusClear _ _ => true
  | .resetShadowEnd _ => true
  | .conditionClear _ => true
  | .refclkLoss => true
  | .refclkReturn => true
  | .springPllLockLoss => true
  | .backupLockLoss => true
  | .rootRelock _ => true
  | .rootsUnlockedTimeout => true
  | .vddAonValid => true
  | .vddAonLoss => true
  | .strapSample _ _ _ _ => true
  | .minimumDarkTime => true
  | .boardProfileRead _ => true
  | .boardProfileRetry _ => true
  | .auxReady => true
  | .catchPulseEnd => true
  | .mainPowerAbsentTimeout => true
  | .catchRisingEdge => true
  | .laneStaggerExpiry => true
  | .catchResync => true
  | .catchGlitch => true
  | .stepLimitWait => true
  | .railOnDelay _ => true
  | .railOffDelay _ => true
  | .railRisen _ _ => true
  | .railFallen _ _ => true
  | .riseTimeout _ => true
  | .fallTimeout _ => true
  | .railWarning _ _ _ => true
  | .railFault _ _ _ => true
  | .railEvalResume => true
  | .resetStretchEnd _ => true
  | .junctionTemperature _ => true
  | .gaugeSample _ _ => true
  | .restQualified _ => true
  | .insertionRest _ => true
  | .fullFlag _ => true
  | .thermistorOpen _ => true
  | .thermistorPresent _ => true
  | .packidRead _ _ => true
  | .forcedRestDue _ => true
  | .forcedRestFail _ => true
  | .learnDue _ _ => true
  | .learnNoCurrent _ => true
  | .chargeRestart _ => true
  | .rhoDriftDay _ => true
  | .gaugeRecordWrite => true
  | .pwrChgCtrlWrite _ => true
  | .stringStateSetting _ _ _ _ => true
  | .waterlineRecord _ => true
  | .stagedRecord _ => true
  | .ledgerCommit _ => true
  | .waterlineExport _ => true
  | .ledgerTest _ => true
  | .mctpPacket pkt => eidByte pkt.src && eidByte pkt.dst && decide (pkt.payload.length ≤ 250)
  | .mctpAssemblyGap src => eidByte src
  | .setEndpointId dst eid => eidByte dst && eidByte eid
  | .getEndpointId dst => eidByte dst
  | .getEndpointUuid dst => eidByte dst
  | .getMctpVersionSupport dst => eidByte dst
  | .getMessageTypeSupport dst => eidByte dst
  | .getVendorDefinedMessageSupport dst => eidByte dst
  | .statusRead => true
  | .alertResponse _ => true
  | .busError _ _ => true
  | .targetTimeout => true
  | .stretchAbort _ => true
  | .arbitrationLoss _ _ => true
  | .arbitrationBackoffEnd _ => true
  | .hangRecovery _ _ => true
  | .busCall _ => true
  | .busCallServiceTimeout => true
  | .localTemperatureRead readings => decide (readings.length ≤ 4)
  | .chargerEntryRetry _ _ => true
  | .failedBoot _ => true
  | .boathouseCommit _ session _ _ _ => u16 session
  | .ergometerMeasure readings => decide (readings.length = 28)
  | .planTrigger _ => true
  | .coreVoltageStep _ => true
  | .rampSlackCheck _ => true
  | .holdwaterNAssert => true
  | .holdwaterNDeassert => true
  | .jtagExtest => true
  | .jtagIdcode => true
  | .jtagSamplePreload => true
  | .jtagFreeze => true
  | .jtagResume => true
  | .frzSelect _ => true
  | .frzScan _ => true
  | .ledgerAccessRead _ => true
  | .ledgerAccessWrite _ _ => true
  | .jtagStatus => true
  | .jtagBypass _ => true
  | .trstNAssert => true
  | .registerRead r => targetOk r.target
  | .refclkDetect => true
  | .odSessionIdle _ => true
  | .stateCompleteNoRail => true
  | .halvingHoldOffEnd _ => true
  | .flashResetDone _ => true
  | .settingsWorkingCopyWritten => true

end Sys2Proof
end

