-- ==== Sys2Proof/Machine/Outflow.lean ====
section
/-! DEFINITION. Commands on the page map, the dirty log and the Lakebed's checkpoints: map operations
(R92, R93), the walker (R94, R95), rebuilds (R91, R105), the log's chunks and compaction (R155), the
checkpoint (R104) and the end of a Settle (R107). -/

namespace Sys2Proof.Machine

/-- Transitions of the page map are stopped: the full fence, or a freeze (R93, R461). -/
def mapStopped (s : State) : Bool := s.host.fence || frozen s

/-! ## What Outflow takes next (R94, R95) -/

/-- The bucket in a slot is covered by the pending Settle (R106). -/
def coveredSlot (s : State) (slot : Nat) : Bool :=
  settleBusy s && (match bucketAt s slot with
    | some b => b.covered
    | none => false)

/-- The page is covered by the pending Settle (R95, R106): in its own bucket, or in that of its linked entry. -/
def coveredPage (s : State) (page : Nat) : Bool :=
  coveredSlot s (pageEntry s page).bucket ||
    (match drainOf s page with
     | some (_, d) => d.linked && coveredSlot s d.bucket
     | none => false)

/-- HOT_HOLD is ignored for a page (R95): a pending Settle covers it, its bucket is the oldest while HOT_OVERRIDE applies, a
hold-limit Sprint runs, or a clean shutdown drains (R292). -/
def ignoresHot (s : State) (page : Nat) : Bool :=
  coveredPage s page ||
  (hotOverride s && (match s.pm.buckets.head? with
    | some b => decide (b.slot = (pageEntry s page).bucket)
    | none => false)) ||
  (s.pm.sprint && s.pm.causeHold) || decide (s.seq.shutdown = .draining)

/-- A page is left for a later pass because it is hot (R94, R95). -/
def skipped (s : State) (page : Nat) : Bool := isHot s page && !ignoresHot s page

/-- Pages whose drain failed, in the age order of their linked buckets (R94). -/
def failedFirst (s : State) : List Nat :=
  (s.pm.buckets.map fun b =>
    (s.pm.drains.filter fun d => d.2.failed && decide (d.2.bucket = b.slot)).map fun d => d.2.page).flatten

/-- DIRTY pages of a bucket that no drain holds and that are not skipped, in ascending page number (R94). -/
def coldOf (s : State) (slot : Nat) : List Nat :=
  (s.pm.pages.filter fun x => decide (x.2.state = .dirty ∧ x.2.bucket = slot) && (drainOf s x.1).isNone
    && !skipped s x.1).map (·.1)

/-- The pages Outflow takes next, at most 64 (R94): failed entries first, then the oldest bucket, then the next in age order
once the older ones have no cold page left. -/
def outflowNext (s : State) : List Nat :=
  (failedFirst s ++ (s.pm.buckets.map fun b => coldOf s b.slot).flatten).take 64

/-- The crews' work list follows the map (R85, R94); it is empty while Outflow is stopped (R96). -/
def choose (s : State) : State :=
  s.onPm fun p => { p with chosen := if outflowEnabled s then outflowNext s else [] }

/-- MARK_DRAINING on a batch of pages (R92). -/
def markBatch (pages : List Nat) (s : State) : State :=
  pages.foldl (fun s p => markOne p s) (s.onPm fun p => { p with results := [] })

/-- The crews send a page's MARK_DRAINING (R94): it is on Outflow's work list, or the operation returns that it cannot act. A
DIRTY page out of R94's turn is not sent (log 71). -/
def sendsMark (s : State) (page : Nat) : Bool :=
  s.pm.chosen.contains page || decide (pageState s page ≠ .dirty) ||
    (match drainOf s page with
     | some (_, d) => !d.failed
     | none => false)

/-- MARK_DRAINING landed (R92, R94, R96): a batch of at most 64 pages, sent only while Outflow runs, of pages that Outflow has
chosen. -/
def markDrainingOp (pages : List Nat) (s : State) : State :=
  if mapStopped s || !outflowEnabled s || decide (64 < pages.length) then s
  else
    let s := choose s
    choose (markBatch (pages.filter (sendsMark s)) s)

/-- MARK_DRAINING (R92, R93). -/
def execMarkDraining (pages : List Nat) (s : State) : Host.Outcome State Fault Refusal :=
  if mapStopped s || !outflowEnabled s then .next s else finish (markDrainingOp pages s)

/-- COMPLETE_DRAIN landed (R93), of a location that its fields hold (R100). -/
def completeDrainOp (tag seg unit : Nat) (s : State) : State :=
  if placeOk seg unit then completeOne tag seg unit (s.onPm fun p => { p with results := [] }) else s

/-- COMPLETE_DRAIN (R93, R107, R124). -/
def execCompleteDrain (tag seg unit : Nat) (s : State) : Host.Outcome State Fault Refusal :=
  if mapStopped s then .next s else finish (completeDrainOp tag seg unit s)

/-- FAIL_DRAIN landed (R93). -/
def failDrainOp (tag : Nat) (s : State) : State := failOne tag (s.onPm fun p => { p with results := [] })

/-- FAIL_DRAIN (R93). -/
def execFailDrain (tag : Nat) (s : State) : Host.Outcome State Fault Refusal :=
  if mapStopped s then .next s else finish (failDrainOp tag s)

/-! ## The map walker (R94, R95) -/

/-- The walker starts on a slot and a state, from page 0. -/
def walkOp (slot : Fin 16) (st : PState) (s : State) : State :=
  s.onPm fun p => { p with walk := some { slot := slot.val, state := st, next := 0 } }

/-- MAP_WALK_REQUEST (R94). -/
def execMapWalkRequest (slot : Fin 16) (st : PState) (s : State) : Host.Outcome State Fault Refusal :=
  if frozen s then .next s else .next (walkOp slot st s)

/-- Pages of a batch that are neither listed nor default: CLEAN pages from `p` on, `n` of them. -/
def cleanFrom (s : State) : Nat → Nat → List Nat
  | 0, _ => []
  | n + 1, p => if visiblePage s p then
      (if pageEntry s p = {} then [p] else []) ++ cleanFrom s n (p + 1) else []

/-- The pages the walker returns next: up to 64 of the slot and state, ascending, hot ones skipped where
R95 does not ignore HOT_HOLD. -/
def walkBatch (s : State) (w : Walk) : List Nat :=
  let ok (e : PageEntry) : Bool := decide (e.state = w.state ∧ e.bucket = w.slot)
  if w.state = .clean then
    (if w.slot = 0 then (cleanFrom s (64 + s.pm.pages.length) w.next).take 64 else [])
  else
    ((s.pm.pages.filter fun x => decide (w.next ≤ x.1) && ok x.2 &&
      (decide (w.state ≠ .dirty) || !skipped s x.1)).map (·.1)).take 64

/-- MAP_WALK_BATCH (R94): one batch to both crews; the walk ends with a batch that is not full. -/
def execMapWalkBatch (s : State) : Host.Outcome State Fault Refusal :=
  if frozen s then .next s
  else match s.pm.walk with
    | none => .next s
    | some w =>
      let b := walkBatch s w
      .next (choose (s.onPm fun p =>
        { p with
          batch := b
          walk := if b.length < 64 then none else some { w with next := b.getLast?.getD w.next + 1 } }))

/-! ## Rebuilds (R91, R105) -/

/-- What a line's uncorrectable error brings (R91): its rebuild; while frozen the rebuild waits, and from the fence on the map
stays as it is (R93, R137). -/
def lineError (line : Nat) (s : State) : State :=
  if s.host.fence then s
  else if frozen s then s.onPm fun p => { p with toRebuild := setIns line p.toRebuild }
  else rebuildLine line s

/-- MAP_LINE_REBUILD (R91, R256): a U-class fault of the dirty filter, KEY 0x00, for every line of the map, those of the
reserved area's own pages among them, whose entries stay CLEAN (R85). -/
def execMapLineRebuild (line : Nat) (s : State) : Host.Outcome State Fault Refusal :=
  if s.cfg.installedPages ≤ line * 32 then .next s
  else finish (raise 0x2200 .u 0 0xF 0x2200 (mapAddr s.cfg (line * 32)) 0 (lineError line s))

/-- Pages counted in a slot under R88. -/
def countIn (s : State) (slot : Nat) : Nat :=
  (s.pm.pages.filter fun x => decide ((x.2.state = .dirty ∨ x.2.state = .draining) ∧ x.2.bucket = slot)).length
    + (s.pm.drains.filter fun d => d.2.linked && decide (d.2.bucket = slot)).length

/-- DIRTY and DRAINING pages (R88). -/
def residuePages (s : State) : Nat :=
  (s.pm.pages.filter fun x => decide (x.2.state = .dirty ∨ x.2.state = .draining)).length

/-- The recount's values replace the provisional ones (R88, R91). -/
def recount (s : State) : State :=
  s.onPm fun p =>
    { p with
      residue := pageBytes * residuePages s
      buckets := p.buckets.map fun b => { b with pages := countIn s b.slot }
      recounting := false }

/-- RECOUNT_DONE (R91). -/
def execRecountDone (s : State) : Host.Outcome State Fault Refusal :=
  if !s.pm.recounting || mapStopped s then .next s
  else finish (retest (weirCheck ordinary (retireEmpty (recount s))))

/-- What an uncorrectable mapping entry brings (R105, R108): its location is unknown, FILTER_RECOVERED is set, and a CLEAN
page is drained again, while frozen after the freeze; from the fence on no page changes. -/
def entryError (page : Nat) (s : State) : State :=
  let s := dropMapping page (s.onPm fun p => { p with filterRecovered := true })
  if frozen s then s.onPm fun p => { p with toRedrain := setIns page p.toRedrain } else placeLost page s

/-- MAPPING_ENTRY_ERROR (R105, R256): a U-class fault of the dirty filter, KEY 0x01. -/
def execMappingEntryError (page : Nat) (s : State) : Host.Outcome State Fault Refusal :=
  if s.cfg.installedPages ≤ page then .next s
  else finish (raise 0x2200 .u 1 0xF 0x2200 (mappingAddr s.cfg page) 0 (entryError page s))

/-! ## The dirty log (R155) -/

/-- Entries of one 64 KiB chunk. -/
def chunkEntries : Nat := 8192

/-- Refill the tail from the spill area once a chunk has left. -/
def refillTail (l : DirtyLog) : DirtyLog :=
  let room := tailEntries - l.tail.length
  { l with tail := l.tail ++ l.spill.take room, spill := l.spill.drop room }

/-- The ring is half full (R155): a compaction starts. -/
def startCompaction (s : State) : State :=
  if s.log.compacting = none ∧ s.cfg.board.logAreaBytes ≤ 2 * (8 * s.log.area.length) then
    s.onLog fun l => { l with compacting := some l.area.length }
  else s

/-- 4 KiB units of the log area's ring (R155, R207). -/
def ringUnits (s : State) : Nat := max 1 (s.cfg.board.logAreaBytes / pageBytes)

/-- Entries written to the log area, 512 to a unit, each unit encrypted under the tweak of its index in the ring (R155,
R213). -/
def writeUnits (ring : Nat) : List LogEntry → Nat → DirtyLog → DirtyLog
  | _, 0, l => l
  | es, n + 1, l =>
    if es.isEmpty then l
    else
      let u := es.take 512
      writeUnits ring (es.drop 512) n
        { l with area := l.area ++ u, units := l.units ++ [(tweakOf 2 l.nextUnit, u.length)]
                 nextUnit := (l.nextUnit + 1) % ring }

/-- One full chunk leaves the tail for the log area (R155). -/
def moveChunk (ring : Nat) (l : DirtyLog) : DirtyLog :=
  refillTail (writeUnits ring (l.tail.take chunkEntries) 16 { l with tail := l.tail.drop chunkEntries })

/-- The units that hold the oldest `n` entries go (R155). -/
def dropUnits : Nat → List (Nat × Nat) → List (Nat × Nat)
  | n, (t, k) :: l => if k ≤ n ∧ 0 < n then dropUnits (n - k) l else (t, k) :: l
  | _, [] => []

/-- DIRTY_LOG_CHUNK_MOVE (R155, R248): a coxswain moves one full chunk, or, while the ledger is failed, whatever
the tail holds. -/
def execDirtyLogChunkMove (s : State) : Host.Outcome State Fault Refusal :=
  let n := s.log.tail.length
  if frozen s || !anyCoxswain s || s.host.fence then .next s
  else if s.ledger.failed ∨ chunkEntries ≤ n then .next (startCompaction (s.onLog (moveChunk (ringUnits s))))
  else .next s

/-- The entries a compaction walk emits for one page (R155): RESET, one DIRTY for each bucket in which the
page is counted, and the MARK of a drain in flight, in their true order. -/
def walkEntries (s : State) (page : Nat) (e : PageEntry) : List LogEntry :=
  let mark (i : Nat) (d : DrainEntry) : List LogEntry :=
    if d.failed then [] else [.mark (tagOf d.gen i) page]
  let old (d : DrainEntry) : List LogEntry := if d.linked then [.dirty d.bucket page] else []
  match e.state with
  | .clean => []
  | .lost => [.reset page]
  | .draining =>
    [.reset page] ++ (match drainOf s page with
      | some (i, d) => old d ++ [.dirty e.bucket page] ++ mark i d
      | none => [.dirty e.bucket page])
  | .dirty =>
    [.reset page] ++ (match drainOf s page with
      | some (i, d) => old d ++ mark i d ++ [.dirty e.bucket page]
      | none => [.dirty e.bucket page])

/-- One entry of a compaction walk (R155): a chunk it fills leaves the tail before the next is emitted. -/
def emitEntry (s : State) (e : LogEntry) : State :=
  let s := logAppend e s
  if chunkEntries ≤ s.log.tail.length then s.onLog (moveChunk (ringUnits s)) else s

/-- The end of a compaction walk (R155): the present condition of every page is in the log, and every
chunk written before the walk is discarded. At the end of a restore its last entries are moved to the log area too (R173). -/
def compact (n : Nat) (s : State) : State :=
  let es := (s.pm.pages.map fun x => walkEntries s x.1 x.2).flatten
  let s := es.foldl emitEntry s
  s.onLog fun l =>
    let l := { l with compacting := none, compactions := l.compactions + 1, area := l.area.drop n, units := dropUnits n l.units }
    if restoring s then
      let es := l.tail ++ l.spill
      writeUnits (ringUnits s) es es.length { l with tail := [], spill := [] }
    else l

/-- LOG_COMPACTION_DONE (R155). -/
def execLogCompactionDone (s : State) : Host.Outcome State Fault Refusal :=
  match s.log.compacting with
  | none => .next s
  | some n => if frozen s || s.host.fence then .next s else finish (compact n s)

/-! ## Checkpoints (R104) -/

/-- Chunks of the mapping table (R104): one per 16,384 installed pages. -/
def chunkCount (c : ModuleConfig) : Nat := ceilDiv c.installedPages 16384

/-- 4 KiB units of the chunk directory: 4 bytes per chunk (R104). -/
def dirUnits (c : ModuleConfig) : Nat := ceilDiv (4 * chunkCount c) pageBytes

/-- Step 1 of a checkpoint (R85, R104): the entries of every changed chunk stand in the staging buffers. -/
def stageChunks (l : Lakebed) : ChunkWrite :=
  { lakeSeq := l.writeSeq, taken := l.changed, todo := l.changed
    staging := l.mapping.filter fun x => l.changed.contains (chunkOf x.1) }

/-- CHECKPOINT_TIMER (R104): the crews take the chunks changed since the previous checkpoint, whose rebuild counts what no
entry points to invalid (R105), and begin to write them. -/
def execCheckpointTimer (s : State) : Host.Outcome State Fault Refusal :=
  if frozen s || emptySet s || s.host.fence || !s.rst.committed || s.lake.chunkWrite.isSome then .next s
  else
    let s := countOrphans s
    .next (s.onLake fun l =>
      { l with chunkWrite := some (stageChunks l), changed := [], deltas := [] })

/-- Pages LOST with their REASONs (R177). -/
def lostPages (s : State) : List (Nat × LostReason) :=
  (s.pm.pages.filter fun x => decide (x.2.state = .lost)).map fun x => (x.1, tabGet .cursor x.1 s.pm.reasons)

/-- The newest copy of every chunk: those written now over those of the checkpoint before (R104). -/
def newestChunks (w : ChunkWrite) (before : Option CheckpointRec) : List (Nat × (Nat × Nat)) :=
  w.chunks.foldl (fun t x => tabIns x.1 x.2 t) (match before with
    | some c => c.chunks
    | none => [])

/-- The mapping table that the chunks hold (R104): those staged now, over those of the checkpoint before. -/
def chunkTable (w : ChunkWrite) (before : Option CheckpointRec) : List (Nat × (Nat × Nat)) :=
  w.staging.foldl (fun t x => tabIns x.1 x.2 t) (match before with
    | some c => c.mapping.filter fun x => !w.taken.contains (chunkOf x.1)
    | none => [])

/-- The ledger commits CHECKPOINT (R104, R178): the mapping table of the chunks and the lost list as it stands, with the
directory's location. -/
def checkpointOp (w : ChunkWrite) (dir : Nat × Nat) (s : State) : State :=
  let n := s.lake.checkpointSeq + 1
  let s := s.onLake fun l =>
    { l with
      older := l.checkpoint
      checkpoint := some { seq := n, lakeSeq := w.lakeSeq, mapping := chunkTable w l.checkpoint, lost := lostPages s
                           chunks := newestChunks w l.checkpoint, dir := dir }
      checkpointSeq := n, chunkWrite := none }
  commit (.checkpoint n dir w.lakeSeq) (s.onPm fun p => { p with lostSince := [] })

/-- The chunks and the directory are written (R104). -/
def chunksWritten (w : ChunkWrite) : Option (Nat × Nat) := if w.todo.isEmpty then w.dir else none

/-- CHECKPOINT (R104): nothing is committed unless the chunks and the directory were written. -/
def execCheckpoint (s : State) : Host.Outcome State Fault Refusal :=
  match s.lake.chunkWrite with
  | none => .next s
  | some w =>
    match chunksWritten w with
    | none => .next s
    | some dir => if frozen s || s.host.fence then .next s else finish (checkpointOp w dir s)

/-! ## The end of a Settle (R107) -/

/-- The settle completion arrives (R44, R107): HST_SETTLED_EPOCH becomes the target, vector 3, and the
Settle cause of Sprint ends (R97). -/
def completeSettle (s : State) : State :=
  let s := vector 3 (s.onHost fun h => { h with settled := h.target })
  sprintCheck (s.onPm fun p => { p with buckets := p.buckets.map fun b => { b with covered := false } })

/-- The SETTLED commit and its completion (R107). -/
def settleOp (s : State) : State := completeSettle (commit (.settled s.host.target) s)

/-- SETTLED (R107). -/
def execSettled (s : State) : Host.Outcome State Fault Refusal :=
  if settleReady s && !mapStopped s && anyMember s then finish (settleOp s) else .next s

end Sys2Proof.Machine
end

