-- ==== Sys2Proof/Machine/Flash.lean ====
section
/-! DEFINITION. The flash back end: the oars' queues and classes (R208, R209), what a finished operation
does to the Lakebed and the Basin (R101 to R103, R174, R216, R218, R220), wear and its budget (R220,
R221), and the back end's own events (R216, R219, R222, R224). -/

namespace Sys2Proof.Machine

/-! ## The die's choice (R208, R209) -/

/-- The job that finishes next on a die (R209): a class-1 operation suspends a program or erase, at most 8
times, and displaces a read of a lower class; the flag says that a program or erase was completed first
because its suspensions were used up. -/
def finishing (urgent : Bool) (die : Nat) (c : FlashChannel) : Option (Nat × FlashJob × List FlashJob × Bool) :=
  match bestJob (yieldsNow urgent die c) die c.jobs 0 with
  | none => none
  | some (b, best) =>
    match startedJob die c.jobs 0 with
    | none => some (b, best, c.jobs, false)
    | some (i, j) =>
      if opClass best.op ≠ 1 ∨ opClass j.op ≤ 1 then some (i, j, c.jobs, false)
      else if opReads j.op then some (b, best, listUpd i (fun x => { x with started := false }) c.jobs, false)
      else if j.suspended then some (b, best, c.jobs, false)
      else if j.suspensions < 8 then
        some (b, best, listUpd i (fun x => { x with suspensions := x.suspensions + 1, suspended := true }) c.jobs, false)
      else some (i, j, c.jobs, true)

/-- A suspended program or erase of a die resumes when no class-1 operation waits for it (R209). -/
def resumeDie (die : Nat) (jobs : List FlashJob) : List FlashJob :=
  if jobs.any fun j => decide (j.die = die ∧ opClass j.op = 1) then jobs
  else jobs.map fun j => if j.die = die then { j with suspended := false } else j

/-! ## Wear and retirement (R218 to R221) -/

/-- Wear key of a die-block in an area: the areas' blocks are numbered one after another (R207). -/
def wearKey (die : Nat) (area : Area) (block : Nat) : Nat :=
  die * 65536 + (match area with
    | .basin => block
    | .pslc => 4096 + block
    | .tlc => 4096 + block
    | .logArea => 8192 + block
    | .spare => 12288 + block)

/-- Cycles one erase adds (R220): 1 in pSLC mode, the ratio of the ratings in TLC mode. -/
def eraseCost (s : State) (area : Area) : Nat :=
  match area with
  | .tlc => s.cfg.board.pslcRating / s.cfg.board.tlcRating
  | _ => 1

/-- Add an erase to a die-block's wear count (R220). -/
def addWear (key cost : Nat) (s : State) : State :=
  s.onFlash fun f => { f with wear := tabSet 0 key (sat 0xFFFF (tabGet 0 key f.wear + cost)) f.wear }

/-- Days of design life left since first start, by the device's age (R221). A year counts 365 days, and once the design life
has passed the life that remains is held at 1 day: the spec says neither (DESIGN CHOICE, log 98). -/
def lifeDays (s : State) : Rat :=
  max 1 ((s.od.set.designYears : Rat) * 365 - daysBetween ((s.flash.firstStart.getD (age s) : Nat) : Int) (age s))

/-- The endurance budget in percent per day (R221). -/
def budgetRate (s : State) : Rat := (100 - (consumed s : Rat)) / lifeDays s

/-- The entries back to the newest that stood at `t`. -/
def backTo (t : Nat) : List (Nat × Nat) → List (Nat × Nat)
  | [] => []
  | x :: l => if x.2 ≤ t then [x] else x :: backTo t l

/-- Note the endurance consumed as it stands, and forget what lies more than 30 days back (R221). -/
def noteConsumed (s : State) : State :=
  let c := consumed s
  s.onFlash fun f =>
    let l := if (f.consumedAt.head?.map (·.1)).getD 0 = c then f.consumedAt else (c, age s) :: f.consumedAt
    { f with consumedAt := backTo (age s - 30 * nsPerDay) l }

/-- The endurance consumed 30 days ago (R221): 0 before anything was. -/
def consumedBefore (s : State) : Nat :=
  match s.flash.consumedAt.getLast? with
  | some x => if x.2 + 30 * nsPerDay ≤ age s then x.1 else 0
  | none => 0

/-- Compare the endurance of the last 30 days with the budget (R221). -/
def budgetCheck (s : State) : State :=
  let s := noteConsumed s
  let used : Rat := (consumed s : Rat) - consumedBefore s
  let lim : Rat := 30 * budgetRate s
  if !s.flash.budgetOver && decide (lim < used) then
    sprintCheck (record 0x0C03 4 0x3A80 0 (s.onFlash fun f => { f with budgetOver := true }))
  else if s.flash.budgetOver && decide (used < lim * 9 / 10) then
    sprintCheck (s.onFlash fun f => { f with budgetOver := false })
  else s

/-- The pool die-block of a die that an area takes (R207, R220): of the erased ones the one with the lowest wear count; where
none is erased, of all of them (DEDUCED, log 84). -/
def leastWorn (s : State) (die : Nat) : Nat :=
  let x := dieAt s die
  let count (k : Nat) := tabGet 0 (wearKey die .spare k) s.flash.wear
  match (if x.poolErased.isEmpty then List.range x.spare else x.poolErased) with
  | [] => 0
  | b :: t => t.foldl (fun b k => if count k < count b then k else b) b

/-- The die-block that `leastWorn` gives leaves the pool, whose last one fills the gap, and its wear count stands at a place of
another area (R207, R218; DEDUCED, log 84). -/
def takeBlock (die : Nat) (area : Area) (block : Nat) (s : State) : State :=
  let k := leastWorn s die
  let x := dieAt s die
  let last := x.spare - 1
  let pool := if x.poolErased.contains last && decide (last ≠ k) then setIns k (setDel last x.poolErased)
    else setDel k x.poolErased
  s.onFlash fun f =>
    let w := tabSet 0 (wearKey die area block) (tabGet 0 (wearKey die .spare k) f.wear) f.wear
    { f with
      wear := tabSet 0 (wearKey die .spare last) 0 (tabSet 0 (wearKey die .spare k) (tabGet 0 (wearKey die .spare last) f.wear) w)
      dies := tabSet {} die { x with spare := last, poolErased := pool } f.dies }

/-- A retired die-block's place is taken by one of the pool (R218); a die with fewer than 8 good blocks left in its pool is
retired (R219). -/
def replaceBlock (die : Nat) (area : Area) (block : Nat) (s : State) : State :=
  let s := takeBlock die area block s
  if (dieAt s die).spare < 8 then retireDie die s else s

/-- A die-block is retired: the ledger records it (R218). -/
def noteRetired (die : Nat) (area : Area) (block : Nat) (s : State) : State :=
  s.onFlash fun f =>
    let x : Die := tabGet {} die f.dies
    { f with dies := tabSet {} die { x with badBlocks := x.badBlocks + 1, gone := wearKey die area block :: x.gone } f.dies }

/-- Segment `n` written (R101). -/
def setSegment (n : Nat) (g : Segment) (s : State) : State :=
  s.onLake fun l => { l with segments := tabSet {} n g l.segments }

/-- A die-block of a Lakebed segment is retired (R218): the segment is collected first, and once it is erased the block is
replaced. It is retired once. -/
def retireInSegment (die seg : Nat) (s : State) : State :=
  let g := segmentAt s seg
  if g.bad.contains die then s
  else noteRetired die (if isPslc s seg then .pslc else .tlc) seg
    (setSegment seg { g with gcFirst := true, bad := setIns die g.bad } s)

/-- Retire a die-block of a die (R218): in the Lakebed, or in another area, where one of the pool takes its place, in the
Basin one that is still to be erased. -/
def retireBlock (die : Nat) (area : Area) (block : Nat) (s : State) : State :=
  match area with
  | .pslc => retireInSegment die block s
  | .tlc => retireInSegment die block s
  | .basin => replaceBlock die .basin block (noteRetired die .basin block
      (s.onBasin fun b => { b with retired := b.retired + 1 }))
  | .logArea => replaceBlock die .logArea block (noteRetired die .logArea block s)
  | .spare => takeBlock die .spare block (noteRetired die .spare block s)

/-- An operation of a die failed or succeeded: three failures in a row after a channel reset retire it
(R219). -/
def dieResult (die : Nat) (ok : Bool) (s : State) : State :=
  let x := dieAt s die
  let reset := !(flAt s (die / 8)).resetTimes.isEmpty
  let n := if ok then 0 else if reset then x.fails + 1 else x.fails
  let s := s.onFlash fun f => { f with dies := tabSet {} die { x with fails := n } f.dies }
  if 3 ≤ n then retireDie die s else s

/-- Age class of a die-block by its wear count (R426). -/
def ageClass (s : State) (key : Nat) : Nat := min 7 (tabGet 0 key s.flash.wear * 8 / s.cfg.board.pslcRating)

/-- Reads of a die-block that the planner counts: how many, and how many needed a retry (R426). -/
def countReads (key reads retried : Nat) (s : State) : State :=
  s.onFlash fun f =>
    { f with classReads := listUpd (ageClass s key) (fun c => (c.1 + reads, c.2 + retried)) f.classReads }

/-- A read of a die-block that succeeded at a step of the retry table, or at none of them (R216, R426). -/
def countStep (key attempt : Nat) (s : State) : State :=
  if 2 ≤ attempt ∧ attempt ≤ 7 then
    s.onFlash fun f =>
      { f with stepReads := listUpd (ageClass s key) (fun l => listUpd (attempt - 2) (· + 1) l) f.stepReads }
  else s

/-- Read-level offsets of a read attempt of a die-block (R216, R426): its class's, a step of the retry table, or the class's
and one step to each side of them; in pSLC mode a class's are 0. -/
def readLevels (s : State) (key : Nat) (pslc : Bool) (attempt : Nat) : List (List Int) :=
  let own := if pslc then List.replicate 7 0 else s.flash.offsets.getD (ageClass s key) []
  if attempt ≤ 1 then [own]
  else if attempt ≤ 7 then [Config.retryStep (attempt - 1)]
  else [own, own.map (· + 1), own.map (· - 1)]

/-- The levels of a die's last read attempt stand in the die (R216). -/
def setLevels (die key : Nat) (pslc : Bool) (attempt : Nat) (s : State) : State :=
  let l := readLevels s key pslc attempt
  s.onFlash fun f =>
    let x : Die := tabGet {} die f.dies
    { f with dies := tabSet {} die { x with levels := l } f.dies }

/-- Area of a Lakebed segment's die-blocks (R207). -/
def segmentArea (s : State) (seg : Nat) : Area := if isPslc s seg then .pslc else .tlc

/-! ## Segments (R101, R102, R207) -/

/-- 4 KiB units of a set of dies in a segment's mode (R206). -/
def totalUnits (s : State) (dies : List Nat) (n : Nat) : Nat :=
  dies.length * ((if isPslc s n then s.cfg.pslcDieBlockMib else s.cfg.tlcDieBlockMib) * 256)

/-- Units of the summary of tags, 16 bytes a unit, that closes a segment (R101). -/
def summaryUnits (total : Nat) : Nat := ceilDiv (16 * total) pageBytes

/-- 4 KiB units a segment takes before its summary (R101, R206). -/
def segmentUnits (s : State) (n : Nat) : Nat :=
  let total := totalUnits s (segmentDies s n) n
  total - summaryUnits total

/-- The OPEN segment of a stream (R101). -/
def openOf (s : State) (st : LakeStream) : Option Nat :=
  (s.lake.segments.find? fun x => decide (x.2.state = .open' ∧ x.2.stream = some st)).map (·.1)

/-- A segment opens for a stream (R101, R206): die-blocks of it that were never erased are erased as it first needs them
(R217). -/
def openSegment (n : Nat) (st : LakeStream) (s : State) : State :=
  let dies := groupDies s n
  let s := (dies.filter fun d => !(segmentAt s n).blank.contains d).foldl (fun s d =>
    addWear (wearKey d (segmentArea s n) n) (eraseCost s (segmentArea s n)) s) s
  let s := setSegment n { state := .open', pslc := isPslc s n, seq := s.lake.segSeq, dies := dies, stream := some st } s
  s.onLake fun l => { l with segSeq := (l.segSeq + 1) % 2 ^ 64 }

/-- Flags of garbage collection by the erased segments left (R98, R102). -/
def gcCheck (s : State) : State :=
  let n := s.lake.tlcSegments
  let e := erasedSegments s false
  let run := decide (e * 100 < 3 * n) && !s.host.fence && s.rst.committed && !boathouse s && s.rst.sanitizing.isNone
  starvedCheck (s.onLake fun l => { l with gcRun := run, gcUrgent := decide (e * 100 < n) })

/-- Where a programming operation of the Lakebed goes: its stream, segment, first unit and units. -/
structure Target where
  stream : LakeStream
  seg : Nat
  unit : Nat
  count : Nat
  deriving DecidableEq, Repr

/-- The target of an operation, if it programs the Lakebed (R101): a chunk takes 16 units, the directory its own (R104). -/
def targetOf (s : State) : FlashOp → Option Target
  | .drain _ seg unit sprint => some ⟨if sprint && isPslc s seg then .sprint else .outflow, seg, unit, 1⟩
  | .relocate _ seg unit fold => some ⟨if fold then .folding else .relocation, seg, unit, 1⟩
  | .checkpointProgram seg unit chunk => some ⟨.outflow, seg, unit, if chunk.isSome then 16 else dirUnits s.cfg⟩
  | _ => none

/-- Some operation on a segment is queued or running (R208). -/
def segmentBusy (s : State) (seg : Nat) : Bool :=
  s.flash.channels.any fun c => c.jobs.any fun j => match targetOf s j.op with
    | some t => decide (t.seg = seg)
    | none => false

/-- Every unit from `a` up to `b` lies on a die that the segment skips (R218). -/
def skippedTo (s : State) (seg a b : Nat) : Bool :=
  (List.range' a (b - a)).all fun u => match dieOfUnit s seg u with
    | some d => (segmentAt s seg).skipped.contains d
    | none => true

/-- The tags of a segment's units in unit order (R101). -/
def tagsOf (s : State) (seg : Nat) : List (Nat × Nat) :=
  (List.range (segmentAt s seg).next).filterMap fun u =>
    (s.lake.units.find? fun x => decide (x.1 = (seg, u))).map fun x => (x.2.page, x.2.seq)

/-- A segment whose last unit is programmed, or skipped, closes with the summary of its tags (R101, R218). -/
def closeCheck (seg : Nat) (s : State) : State :=
  let g := segmentAt s seg
  if g.state = .open' ∧ segmentBusy s seg = false ∧ skippedTo s seg g.next (segmentUnits s seg) = true then
    setSegment seg { g with state := .closed, stream := none, summary := tagsOf s seg } s
  else s

/-- One program more is timed when the last unit of a pSLC program is in (R112, R206, R222). -/
def countProgram (last : Bool) (s : State) : State :=
  if last then s.onFlash fun f => { f with programs := f.programs + 1 } else s

/-- Program a unit into a segment (R101, R205): its tag carries the next write sequence and its CRC. -/
def programUnit (seg unit : Nat) (u : FlashUnit) (s : State) : State :=
  let s := s.onLake fun l =>
    { l with units := ((seg, unit), { u with seq := l.writeSeq, key := s.flash.key, crc := Config.tagCrc u.page l.writeSeq
                                             tweak := tweakOf 0 u.page }) ::
               l.units.filter fun x => decide (x.1 ≠ (seg, unit))
             writeSeq := (l.writeSeq + 1) % 2 ^ 48 }
  let g := segmentAt s seg
  let s := setSegment seg { g with programmed := g.programmed + 1 } s
  let s := countProgram (isPslc s seg && decide (unit % 16 = 15)) s
  gcCheck s

/-- The unit at a Lakebed location. -/
def unitAt (s : State) (seg unit : Nat) : Option FlashUnit :=
  (s.lake.units.find? fun x => decide (x.1 = (seg, unit))).map (·.2)

/-- The unit a page's mapping entry names. -/
def mappedUnit (s : State) (page : Nat) : Option FlashUnit :=
  match tabFind page s.lake.mapping with
  | some (g, u) => unitAt s g u
  | none => none

/-- Retired die-blocks of an erased segment are replaced from the pools of their dies (R218). -/
def replaceBad (seg : Nat) (s : State) : State :=
  let bad := (segmentAt s seg).bad
  let ready := bad.filter fun d => !(dieAt s d).poolErased.isEmpty
  let s := setSegment seg { segmentAt s seg with bad := [], blank := ready.foldl (fun l d => setIns d l) (segmentAt s seg).blank } s
  bad.foldl (fun s d => replaceBlock d (segmentArea s seg) seg s) s

/-- Dies of a segment whose die-block is still to be erased: none that is retired, nor one whose block is (R102, R218, R219).
-/
def leftToErase (s : State) (seg : Nat) : List Nat :=
  let g := segmentAt s seg
  (segmentDies s seg).filter fun d => !g.blank.contains d && !g.bad.contains d && !(dieAt s d).retired

/-- A segment whose every die-block is erased is ERASED, and its units are gone (R101, R102). -/
def erasedCheck (seg : Nat) (s : State) : State :=
  let g := segmentAt s seg
  if !(leftToErase s seg).isEmpty && decide (g.state ≠ .erased) then s
  else if g.state = .erased ∧ g.bad = [] then s
  else
    let s := s.onLake fun l => { l with units := l.units.filter fun x => decide (x.1.1 ≠ seg) }
    replaceBad seg (setSegment seg { blank := g.blank, bad := g.bad } s)

/-- One die of a segment is erased (R101, R102); the deltas of its units were written to DRAM before (R237). -/
def eraseSegmentDie (seg die : Nat) (s : State) : State :=
  let s := s.onLake fun l => { l with deltas := l.deltas.filter fun d => decide (d.src.1 ≠ seg) }
  erasedCheck seg (setSegment seg { segmentAt s seg with blank := setIns die (segmentAt s seg).blank } s)

/-! ## Erases (R117, R174, R218, R220) -/

/-- A Basin die-block of a die is erased: it counts in basin_erased, or, once the fence has fallen, from the next start on
(R139, R224), and once. No block of an image that a restore may still use is erased (R161, R173). -/
def basinEraseOk (die block : Nat) (s : State) : State :=
  let mark (m : List (Nat × Nat)) : List (Nat × Nat) := tabSet 0 die (tabGet 0 die m ||| 2 ^ block) m
  if toErase s die = 0 ∨ (tabGet 0 die s.basin.bitmap).testBit block ∨ (tabGet 0 die s.basin.lateMap).testBit block then s
  else if s.host.fence then
    s.onBasin fun b => { b with late := tabSet 0 die (tabGet 0 die b.late + 1) b.late, lateMap := mark b.lateMap }
  else if s.basin.image.isSome then s
  else s.onBasin fun b =>
    { b with erasedBy := tabSet 0 die (tabGet 0 die b.erasedBy + 1) b.erasedBy, bitmap := mark b.bitmap }

/-- Mean wear count of a die's good die-blocks (R220). -/
def meanWear (s : State) (die : Nat) : Nat :=
  (s.flash.wear.filter fun w => decide (w.1 / 65536 = die)).foldl (fun n w => n + w.2) 0
    / max 1 (s.cfg.goodBlocksPerDie - (dieAt s die).badBlocks)

/-- Exchange one under-worn Basin die-block with a die-block of the pool, which is erased first if it is not
(R220): basin_erased does not fall, and the block that leaves stands in the pool unerased. -/
def exchangeBlock (die block : Nat) (s : State) : State :=
  let k := leastWorn s die
  let x := dieAt s die
  let a := wearKey die .basin block
  let b := wearKey die .spare k
  let va := tabGet 0 a s.flash.wear
  let vb := tabGet 0 b s.flash.wear + (if x.poolErased.contains k then 0 else 1)
  let s := s.onFlash fun f =>
    { f with wear := tabSet 0 b va (tabSet 0 a (sat 0xFFFF vb) f.wear)
             dies := tabSet {} die { x with poolErased := setDel k x.poolErased } f.dies
             exchanges := satInc 0x3FF f.exchanges }
  budgetCheck s

/-- A Basin die-block is worn so little that it is exchanged (R220). -/
def underWorn (s : State) (die block : Nat) : Bool :=
  decide (tabGet 0 (wearKey die .basin block) s.flash.wear + 1000 < meanWear s die)

/-- An erase that succeeded is counted (R220); at the Basin's re-erase an under-worn die-block is exchanged first. -/
def countErase (die : Nat) (area : Area) (block : Nat) (s : State) : State :=
  if area = .basin ∧ underWorn s die block = true then exchangeBlock die block s
  else budgetCheck (addWear (wearKey die area block) (eraseCost s area) s)

/-! ## What may be erased (R102, R104, R207) -/

/-- A segment holds a chunk or the directory of the two newest committed checkpoints (R104). -/
def keptSegment (s : State) (seg : Nat) : Bool :=
  let holds : Option CheckpointRec → Bool
    | none => false
    | some c => decide (c.dir.1 = seg) || c.chunks.any fun x => decide (x.2.1 = seg)
  holds s.lake.checkpoint || holds s.lake.older

/-- A segment may be erased (R102, R104): no unit of it is valid and no checkpoint needs it. -/
def eraseAllowed (s : State) (area : Area) (seg : Nat) : Bool :=
  let tier (p : Bool) : Bool := decide (isPslc s seg = p) &&
    (match (segmentAt s seg).state with
     | .erased => true
     | .closed => decide ((segmentAt s seg).valid = 0) && !keptSegment s seg
     | .gcSource => decide ((segmentAt s seg).valid = 0) && !keptSegment s seg
     | _ => false)
  match area with
  | .pslc => tier true
  | .tlc => tier false
  | _ => true

/-- A die-block of a die stands in an area under this number (R207). -/
def blockIn (s : State) (die : Nat) (area : Area) (block : Nat) : Bool :=
  match area with
  | .basin => decide (block < s.cfg.basinBlocksPerDie)
  | .pslc => isPslc s block && decide (block < segmentCount s) && (segmentDies s block).contains die
  | .tlc => !isPslc s block && decide (block < segmentCount s) && (segmentDies s block).contains die
  | .logArea => decide (block < logBlocks s.cfg)
  | .spare => decide (block < (dieAt s die).spare)

/-- The erase of a die-block may have been commanded (R102, R104, R207, R218): the block is in the area, its segment may be
erased, and it is not retired. -/
def erasable (s : State) (die : Nat) (area : Area) (block : Nat) : Bool :=
  blockIn s die area block && eraseAllowed s area block &&
    (match area with
     | .pslc => !(segmentAt s block).bad.contains die
     | .tlc => !(segmentAt s block).bad.contains die
     | _ => true)

/-! ## The end of an erase (R117, R218, R220) -/

/-- An erase ended (R117, R218, R220): the wear count, the area's effect, or the retirement of the
die-block. A failed Basin block is replaced from the pool by one still to be erased. -/
def eraseDone (die : Nat) (area : Area) (block : Nat) (ok : Bool) (s : State) : State :=
  if !erasable s die area block then s
  else if ok then
    let s := countErase die area block (dieResult die true s)
    match area with
    | .basin => basinEraseOk die block s
    | .pslc => gcCheck (eraseSegmentDie block die s)
    | .tlc => gcCheck (eraseSegmentDie block die s)
    | .logArea => s.onLog fun l => { l with toErase := l.toErase - 1 }
    | .spare => s.onFlash fun f =>
        let x : Die := tabGet {} die f.dies
        { f with dies := tabSet {} die { x with poolErased := setIns block x.poolErased } f.dies }
  else
    let s := onFl (die / 8) (fun c => { c with eraseFail := satInc 0xFF c.eraseFail }) s
    let s := retireBlock die area block (dieResult die false s)
    match area with
    | .pslc => gcCheck (erasedCheck block s)
    | .tlc => gcCheck (erasedCheck block s)
    | _ => s

/-- BLOCK_ERASE_DONE (R117, R174, R218). -/
def execBlockEraseDone (die : Nat) (area : Area) (block : Nat) (ok : Bool) (s : State) :
    Host.Outcome State Fault Refusal :=
  if frozen s || (dieAt s die).retired then .next s else finish (eraseDone die area block ok s)

/-! ## Queueing (R208) -/

/-- The segment among the candidates with the least `key`, the lowest number among equals. -/
def leastSegment (key : Segment → Nat) : List (Nat × Segment) → Option (Nat × Segment)
  | [] => none
  | x :: t => match leastSegment key t with
    | none => some x
    | some y => if key y.2 < key x.2 then some y else some x

/-- The segment of a tier that garbage collection relocates (R102, R104, R216, R218): the one it has begun, else one that is
collected first, else, in TLC, the CLOSED one with the lowest valid count. The pSLC tier is folded by R98, the least recently
written CLOSED segment first, where R102 would take the lowest valid count there too (DEDUCED, log 70). -/
def victim (s : State) (pslc : Bool) : Option Nat :=
  let all := s.lake.segments.filter fun x => decide (isPslc s x.1 = pslc) && !keptSegment s x.1
  let closed := all.filter fun x => decide (x.2.state = .closed)
  let key : Segment → Nat := fun g => if pslc then g.seq else g.valid
  let begun := all.find? fun x => decide (x.2.state = SegState.gcSource ∧ x.2.valid ≠ 0)
  let first := leastSegment key (closed.filter (·.2.gcFirst))
  ((begun.or first).or (leastSegment key closed)).map (·.1)

/-- A unit of a stream's segment may be programmed now by a die (R101, R206): the segment is the stream's OPEN one, or ERASED
while the stream has none, of the stream's tier, and the unit is the next in order on that die. -/
def targetOk (s : State) (die : Nat) (t : Target) : Bool :=
  let g := segmentAt s t.seg
  decide (t.seg < segmentCount s) && decide (t.unit + t.count ≤ segmentUnits s t.seg) &&
    decide (isPslc s t.seg = decide (t.stream = .sprint)) &&
    decide (dieOfSet s (segmentDies s t.seg) t.seg t.unit = some die) &&
    (match g.state with
     | .erased => decide (t.unit = 0) && (openOf s t.stream).isNone
     | .open' => decide (g.stream = some t.stream) && decide (g.next ≤ t.unit) && skippedTo s t.seg g.next t.unit
     | _ => false)

/-- A drain may be programmed (R96, R97, R98, R102): its tag is in flight, Outflow runs, and its tier is Sprint's while Sprint
runs and the pSLC tier is not starved; into TLC without Sprint only while a TLC segment is erased. -/
def drainAllowed (s : State) (tag seg : Nat) (sprint : Bool) : Bool :=
  (match tagged s tag with
   | some d => !d.failed
   | none => false) &&
  outflowEnabled s && decide (sprint = s.pm.sprint) && decide (isPslc s seg = (sprint && !s.lake.starved)) &&
    (sprint || decide (erasedSegments s false ≠ 0))

/-- A relocation may run (R98, R102, R104, R215): its page lies in the segment chosen, no crypto erase runs, and a TLC
segment is collected only while garbage collection runs or it is collected first. -/
def relocateAllowed (s : State) (page : Nat) (fold : Bool) : Bool :=
  match tabFind page s.lake.mapping with
  | none => false
  | some (g, _) => decide (isPslc s g = fold) && decide (victim s fold = some g) && s.rst.committed && !boathouse s &&
      s.rst.sanitizing.isNone && (fold || s.lake.gcRun || (segmentAt s g).gcFirst)

/-- A program of the save may start (R143, R144, R146): residue writing runs, the page is one the pass selects, and every
lower page of the pass has been given to a die. -/
def saveAllowed (s : State) (page : Nat) : Bool :=
  saving s && decide (s.save.phase = .residue) && !s.save.stopped &&
    (match s.basin.image with
     | none => false
     | some im =>
       let given (p : Nat) : Bool := imageHas im p || programBusy s p
       (slotPages s s.save.bucket).contains page && !given page &&
         (slotPages s s.save.bucket).all fun p => decide (page ≤ p) || given p)

/-- The rules of the save, Outflow, garbage collection and checkpoints admit a command to an oar; the crews send no other
(log 71). -/
def opAllowed (s : State) (die : Nat) (op : FlashOp) : Bool :=
  (match targetOf s op with
   | some t => targetOk s die t
   | none => true) &&
  (match op with
   | .saveProgram page => saveAllowed s page
   | .drain tag seg _ sprint => drainAllowed s tag seg sprint
   | .relocate page _ _ fold => relocateAllowed s page fold
   | .erase area seg => erasable s die area seg
   | .basinErase block => erasable s die .basin block
   | .checkpointProgram _ _ chunk => match s.lake.chunkWrite, chunk with
     | some w, some c => w.todo.contains c
     | some w, none => w.todo.isEmpty
     | none, _ => false
   | _ => true)

/-- The units of a target are taken in order, the segment opening with its first (R101); a relocation's source is then under
collection (R102). -/
def issueOp (op : FlashOp) (s : State) : State :=
  match targetOf s op with
  | none => s
  | some t =>
    let s := if (segmentAt s t.seg).state = .erased then gcCheck (openSegment t.seg t.stream s) else s
    let s := setSegment t.seg { segmentAt s t.seg with next := t.unit + t.count } s
    match op with
    | .relocate page _ _ _ => match tabFind page s.lake.mapping with
      | some (g, _) => setSegment g { segmentAt s g with state := .gcSource } s
      | none => s
    | _ => s

/-- The page whose lines an operation reads from DRAM, and the TYPE of its reads (R208, R258). -/
def dramPage (s : State) : FlashOp → Option (Nat × Fin 16)
  | .drain tag _ _ _ => (tagged s tag).map fun d => (d.page, 5)
  | .saveProgram p => some (p, 6)
  | _ => none

/-- What an operation's read of its page met (R151, R185, R186): each line of the page that is listed, as its decode gave. -/
def readPage (ch : Nat) (op : FlashOp) (reads : List (Nat × DramRead)) (s : State) : State :=
  match dramPage s op with
  | none => s
  | some (page, typ) =>
    (reads.filter fun x => decide (pageOf x.1 = page)).foldl (fun s x => dramLine x.1 x.2 typ (flsId ch 1) s) s

/-- What an operation programs: a drain or save program reads its page from DRAM, a relocation its unit. -/
def jobData (s : State) : FlashOp → Option FlashUnit
  | .drain tag _ _ _ => (tagged s tag).map fun d => unitOf s d.page 0 0
  | .saveProgram p => some (unitOf s p 1 0)
  | .relocate p _ _ _ => mappedUnit s p
  | _ => none

/-- An operation's read of DRAM waits for the end of its channel's block reset (R196). -/
def dramWaits (s : State) (op : FlashOp) : Bool :=
  match dramPage s op with
  | some (page, _) => inBlockReset s page
  | none => false

/-- The job of a command, with what its read of DRAM meets; the read of a channel in block reset waits (R196). -/
def addJob (ch die : Nat) (op : FlashOp) (reads : List (Nat × DramRead)) (s : State) : State :=
  let j : FlashJob :=
    if dramWaits s op then { die := die, op := op, waits := some reads } else { die := die, op := op }
  let s := if j.waits.isSome then s else readPage ch op reads s
  let j := if j.waits.isSome then j else { j with data := jobData s op }
  onFl ch (fun c =>
    let c : FlashChannel := { c with jobs := c.jobs ++ [j] }
    if c.state = .active then startNext s.lake.gcUrgent die c else c) s

/-- At the end of a channel's block reset the operations that waited to read DRAM read it and are served (R196). -/
def wakeJobs (dch : Nat) (s : State) : State :=
  let mine (s : State) (j : FlashJob) : Bool := j.waits.isSome && (match dramPage s j.op with
    | some (page, _) => decide (channelOfPage s page = dch)
    | none => true)
  (List.range 32).foldl (fun s ch =>
    let s := ((flAt s ch).jobs.filter (mine s)).foldl (fun s j => readPage ch j.op (j.waits.getD []) s) s
    onFl ch (fun (c : FlashChannel) =>
      let c : FlashChannel := { c with jobs := c.jobs.map fun j => if mine s j then { j with waits := none, data := jobData s j.op } else j }
      if c.state = .active then startAll s.lake.gcUrgent c else c) s) s

/-- A die of the population that is not retired (R206, R219). -/
def dieLive (s : State) (ch die : Nat) : Bool :=
  decide (ch < s.cfg.flashChannels ∧ die < s.cfg.diesPerChannel) && !(dieAt s (8 * ch + die)).retired

/-- A command reaches a flash oar (R208): it is queued unless the channel is not in use or the die retired, the die's 8
slots are full, the fence discards its class (R139, R210), or no rule of the crews lets them send it. `reads` are the lines
whose read from DRAM met an error (R185, R186). -/
def queueOp (ch die : Nat) (op : FlashOp) (reads : List (Nat × DramRead)) (s : State) : State :=
  let c := flAt s ch
  if (c.state ≠ .active ∧ c.state ≠ .reset) ∨ 8 ≤ (c.jobs.filter fun j => decide (j.die = die)).length then s
  else if !dieLive s ch die then s
  else if s.host.fence && !savesClass op then s
  else if !opAllowed s (8 * ch + die) op then s
  else addJob ch die op reads (issueOp op s)

/-- FLASH_OAR_COMMAND (R208). -/
def execFlashOarCommand (ch : Fin 32) (die : Fin 8) (op : OarOp) (s : State) : Host.Outcome State Fault Refusal :=
  if frozen s then .next s else finish (queueOp ch.val die.val op.op op.reads s)

/-! ## Completion (R208, R216, R218, R500) -/

/-- A Lakebed unit failed decode on every attempt (R216, R218, R225): UNCORR counts it, and its die-block is retired when the
segment is no longer written. -/
def unitFailed (seg unit : Nat) (s : State) : State :=
  let g := segmentAt s seg
  match dieOfUnit s seg unit with
  | none => s
  | some d =>
    let s := onFl (d / 8) (fun c => { c with uncorr := satInc 0xFFFF c.uncorr }) s
    if g.state = .closed ∨ g.state = .gcSource then retireInSegment d seg s else s

/-- A unit of a segment failed decode (R216, R218): the segment is collected first, and its page is drained again from DRAM. -/
def badUnit (seg unit page : Nat) (s : State) : State :=
  let s := unitFailed seg unit s
  let s := setSegment seg { segmentAt s seg with gcFirst := true } s
  let s := s.onLake fun l =>
    { l with units := l.units.map fun x => if x.1 = (seg, unit) then (x.1, { x.2 with bad := true }) else x }
  if s.host.fence then s else redrain page s

/-- A chunk, or the directory, is programmed for the checkpoint under way (R104): its units carry the page number of units
that restore passes over (log 69). -/
def chunkDone (seg unit count : Nat) (chunk : Option Nat) (s : State) : State :=
  let s := (List.range count).foldl (fun s k =>
    programUnit seg (unit + k) { page := padPage, seq := 0, cells := [], poison := [], key := 0 } s) s
  s.onLake fun l =>
    { l with chunkWrite := l.chunkWrite.map fun w => match chunk with
        | some c => { w with todo := setDel c w.todo, chunks := tabIns c (seg, unit) w.chunks }
        | none => { w with dir := some (seg, unit) } }

/-- An operation that succeeded. -/
def opOk (die : Nat) (j : FlashJob) (s : State) : State :=
  match j.op with
  | .saveProgram p => placeUnit die p s
  | .logProgram => countProgram true s
  | .drain _ seg unit _ =>
    match j.data with
    | none => s
    | some u =>
      let s := programUnit seg unit u s
      let s := if isPslc s seg then s.onLake fun l => { l with pslcBytes := l.pslcBytes + pageBytes } else s
      closeCheck seg s
  | .relocate page seg unit fold =>
    match j.data with
    | none => s
    | some u =>
      let same := match mappedUnit s page with
        | some v => decide (v.seq = u.seq)
        | none => false
      let s := programUnit seg unit u s
      let s := s.onLake fun l =>
        { l with relocated := sat (2 ^ 64 - 1) (l.relocated + pageBytes)
                 foldedBytes := if fold then l.foldedBytes + pageBytes else l.foldedBytes }
      closeCheck seg (match same, tabFind page s.lake.mapping with
        | true, some p => moveMapping ⟨page, p, (seg, unit)⟩ s
        | _, _ => s)
  | .checkpointProgram seg unit chunk =>
    closeCheck seg (chunkDone seg unit (if chunk.isSome then 16 else dirUnits s.cfg) chunk s)
  | .basinErase block => eraseDone die .basin block true s
  | .erase area seg => eraseDone die area seg true s
  | _ => s

/-- A program failure in a segment (R218): the die's remaining units in it are skipped, and it is collected first. -/
def skipDie (die seg : Nat) (s : State) : State :=
  let g := segmentAt s seg
  closeCheck seg (setSegment seg { g with gcFirst := true, skipped := setIns die g.skipped } s)

/-- The Basin die-block of a die that the save programs now: its erased blocks are filled one after another (DESIGN CHOICE,
log 84). -/
def saveBlock (s : State) (die : Nat) : Nat :=
  match s.basin.image with
  | some im => (im.summaries.filter fun x => decide (x.1.1 = die)).length + s.basin.allocUsed
  | none => 0

/-- A failed program of the save is repeated on the die's next erased block, from the f_alloc share; with the share used up
residue writing ends (R151). -/
def retrySave (die : Nat) (j : FlashJob) (s : State) : State :=
  let s := noteRetired die .basin (saveBlock s die) (s.onBasin fun b =>
    { b with allocUsed := b.allocUsed + 1, retired := b.retired + 1 })
  if s.save.stopped then s
  else if shareUsed s then stopResidue s
  else onFl (die / 8) (fun c => startNext s.lake.gcUrgent (die % 8)
    { c with jobs := c.jobs ++ [{ j with started := false, suspensions := 0, suspended := false }] }) s

/-- An operation that failed (R218): counted, its die-block retired. A program of the save is tried again on the die's next
erased block, from the f_alloc share (R151). -/
def opFail (die : Nat) (j : FlashJob) (s : State) : State :=
  match j.op with
  | .basinErase block => eraseDone die .basin block false s
  | .erase area seg => eraseDone die area seg false s
  | op =>
    if opReads op then dieResult die false s
    else
      let s := dieResult die false (onFl (die / 8) (fun c => { c with progFail := satInc 0xFF c.progFail }) s)
      if saveJob j then retrySave die j s
      else match targetOf s op with
        | some t => skipDie die t.seg (retireInSegment die t.seg s)
        | none => retireBlock die .logArea (s.log.nextUnit / max 1 (blockUnits s * s.cfg.dies)) s

/-- Where the unit lies that an operation reads: the segment and the unit (R216). -/
def readFrom (s : State) : FlashOp → Option (Nat × Nat)
  | .drain _ seg unit _ => some (seg, unit)
  | .relocate page _ _ _ => tabFind page s.lake.mapping
  | .demandFetch page => if s.rst.basinPages.contains page then none else tabFind page s.lake.mapping
  | .restoreRead page => if s.rst.basinPages.contains page then none else tabFind page s.lake.mapping
  | .repair line => tabFind (pageOf line) s.lake.mapping
  | .patrolRead seg => some (seg, (segmentAt s seg).next)
  | _ => none

/-- A read of flash took `attempts` attempts (R216, R225, R426): RETRIES counts those after the first, the planner the read,
and the levels of the last stand in the die. Reads of the Basin are in pSLC mode. -/
def noteRead (die : Nat) (op : FlashOp) (attempts : Nat) (s : State) : State :=
  let s := onFl (die / 8) (fun c => { c with retries := sat 0xFFFF (c.retries + (attempts - 1)) }) s
  match readFrom s op with
  | some (seg, _) =>
    let key := wearKey die (segmentArea s seg) seg
    setLevels die key (isPslc s seg) attempts (match op with
      | .drain _ _ _ _ => countStep key attempts (countReads key 1 (min 1 (attempts - 1)) s)
      | .patrolRead _ => countStep key attempts (countReads key 1 (min 1 (attempts - 1)) s)
      | _ => s)
  | none => setLevels die (wearKey die .basin 0) true attempts s

/-- A unit that failed decode on all 8 attempts (R216). -/
def opUndecodable (die : Nat) (j : FlashJob) (s : State) : State :=
  let s := if readsFlash j.op then noteRead die j.op 8 s else s
  match j.op with
  | .drain tag seg unit _ =>
    closeCheck seg (match tagged s tag with
    | some d => badUnit seg unit d.page s
    | none => unitFailed seg unit s)
  | .relocate page _ _ _ =>
    match tabFind page s.lake.mapping with
    | some (g, u) => badUnit g u page (dropMapping page s)
    | none => s
  | _ => s

/-- A patrol read finds a segment that needed attempt 4 or later, or a third decode slot (R216): it is collected first. -/
def patrolLate (seg attempts slots : Nat) (s : State) : State :=
  if (4 ≤ attempts ∨ 3 ≤ slots) ∧ (segmentAt s seg).state = .closed then
    setSegment seg { segmentAt s seg with gcFirst := true } s
  else s

/-- A finished operation's effects. -/
def opDone (die : Nat) (j : FlashJob) (res : FlashRes) (s : State) : State :=
  match res with
  | .ok attempts slots =>
    let s := if readsFlash j.op then noteRead die j.op attempts s else s
    let s := match j.op with
      | .patrolRead seg => patrolLate seg attempts slots s
      | _ => s
    opOk die j (dieResult die true s)
  | .fail => opFail die j s
  | .undecodable => opUndecodable die j s

/-- FLASH_OP_COMPLETE (R208, R209): the operation the die was running finishes. -/
def execFlashOpComplete (ch : Fin 32) (die : Fin 8) (res : FlashRes) (s : State) :
    Host.Outcome State Fault Refusal :=
  let c := flAt s ch.val
  if frozen s ∨ c.state ≠ .active then .next s
  else match finishing s.lake.gcUrgent die.val c with
    | none => .next s
    | some (i, j, jobs, forced) =>
      let s := onFl ch.val (fun c =>
        startNext s.lake.gcUrgent die.val { c with jobs := resumeDie die.val (jobs.eraseIdx i) }) s
      let s := s.onFlash fun f => { f with forced := if forced then f.forced + 1 else f.forced }
      finish (opDone (8 * ch.val + die.val) j res s)

/-! ## Resets of channels and engines (R224, R268) -/

/-- FLASH_CHANNEL_RESET (R224, R256): an F-class fault of the channel as a whole, KEY 0xFF. -/
def execFlashChannelReset (ch : Fin 32) (s : State) : Host.Outcome State Fault Refusal :=
  finish (raise (flsId ch.val 0) .f 0xFF 0xF (flsId ch.val 0) 0 0 s)

/-- LDPC_ENGINE_FAULT (R224, R259): F-class; KEY is the channel in service, one of the engine's four, which
the rules leave open (log 1). -/
def execLdpcEngineFault (eng : Fin 8) (s : State) : Host.Outcome State Fault Refusal :=
  let k := 4 * eng.val + Config.freeNat s.free % 4
  finish (raise (flsId (32 + eng.val) 0) .f (BitVec.ofNat 8 k) 0xF (flsId (32 + eng.val) 0) 0 0
    { s with free := s.free + 1 })

/-- XTS_ENGINE_FAULT (R22, R224, R259): F-class; KEY is the channel in service, one of the engine's sixteen, or any while it
serves alone (log 1). -/
def execXtsEngineFault (eng : Fin 2) (s : State) : Host.Outcome State Fault Refusal :=
  let k := if s.flash.xtsOut.isEmpty then 16 * eng.val + Config.freeNat s.free % 16
    else Config.freeNat s.free % s.cfg.flashChannels
  finish (raise (flsId (40 + eng.val) 0) .f (BitVec.ofNat 8 k) 0xF (flsId (40 + eng.val) 0) 0 0
    { s with free := s.free + 1 })

/-- A channel leaves its reset: microcode reloaded, queued operations reissued in class order (R224). -/
def channelBack (urgent : Bool) (k : Fin 2) (x : FlashChannel × Nat) : FlashChannel :=
  if x.1.state = .reset then
    startAll urgent { x.1 with state := .active, oarSlot := some k, windows := flashWindows x.2 }
  else x.1

/-- FLASH_RESET_DONE (R268): a channel, an engine, or the region. -/
def execFlashResetDone (unit : MasterId) (s : State) : Host.Outcome State Fault Refusal :=
  let n := unit.toNat
  if n / 4096 ≠ 3 then .next s
  else
    let block := n / 64 % 64
    let s := if block < 32 then onFl block (fun c => channelBack s.lake.gcUrgent s.upd.active (c, block)) s
      else if block < 40 then
        (List.range 4).foldl (fun s j => onFl (4 * (block - 32) + j) (fun c =>
          if c.state = .active then startAll s.lake.gcUrgent c else c) s) s
      else if block = 42 then
        s.onFlash fun f => { f with channels := (f.channels.zip (List.range 32)).map (channelBack s.lake.gcUrgent s.upd.active) }
      else s
    finish (shadowDone (resetUnit unit) s)

/-- FLASH_OAR_RELOAD (R23, R231): a flash oar's microcode from the active image. -/
def oarReloadFlash (ch : Nat) (s : State) : State :=
  onFl ch (fun c => { c with oarSlot := some s.upd.active, windows := flashWindows ch }) s

/-- FLASH_OAR_RELOAD (R231): the first of the coxswains' commands acts; a second repeats it. -/
def execFlashOarReload (_crew : Crew) (ch : Fin 32) (s : State) : Host.Outcome State Fault Refusal :=
  if frozen s then .next s else .next (oarReloadFlash ch.val s)

/-! ## Patrol, retirement, exchange, timing (R216, R219, R220, R222) -/

/-- Reads of a patrolled segment by die, for the planner (R216, R426): with an attempt past the first, how many of a
die's units needed it is a free value (log 1). -/
def patrolReads (found : PatrolIn) (s : State) : State :=
  (segmentAt s found.seg).dies.foldl (fun s d =>
    let n := (s.lake.units.filter fun x => decide (x.1.1 = found.seg ∧ dieOfUnit s x.1.1 x.1.2 = some d)).length
    let k := if found.worstAttempt ≤ 1 then 0 else Config.freeNat s.free % (n + 1)
    countReads (wearKey d (segmentArea s found.seg) found.seg) n k { s with free := s.free + 1 }) s

/-- FLASH_PATROL (R216): a segment that needed a late attempt or a third slot is collected first; units that
failed decode are drained again. -/
def execFlashPatrol (found : PatrolIn) (s : State) : Host.Outcome State Fault Refusal :=
  if frozen s || s.host.fence || decide ((segmentAt s found.seg).state ≠ .closed) then .next s
  else
    let s := patrolReads found (s.onFlash fun f => { f with patrolSeg := found.seg })
    let g := segmentAt s found.seg
    let s := if 4 ≤ found.worstAttempt ∨ found.thirdSlot then setSegment found.seg { g with gcFirst := true } s
      else s
    finish (found.failedUnits.foldl (fun s u =>
      match unitAt s found.seg u with
      | some v => if tabFind v.page s.lake.mapping = some (found.seg, u) then badUnit found.seg u v.page s
          else unitFailed found.seg u s
      | none => s) s)

/-- DIE_RETIRE (R219). -/
def execDieRetire (die : Nat) (s : State) : Host.Outcome State Fault Refusal :=
  if (goodDies s).contains die then finish (retireDie die s) else .next s

/-- DIE_RETIRE_WALK_DONE (R219). -/
def execDieRetireWalkDone (die : Nat) (s : State) : Host.Outcome State Fault Refusal :=
  .next (s.onFlash fun f => { f with walks := f.walks.filter (· ≠ die) })

/-- BASIN_EXCHANGE_TIMER (R220). -/
def execBasinExchangeTimer (s : State) : Host.Outcome State Fault Refusal :=
  if frozen s || saving s || !s.rst.committed then .next s
  else
    let todo := (goodDies s).flatMap fun d =>
      ((List.range s.cfg.basinBlocksPerDie).filter (underWorn s d)).map fun k => (d, k)
    finish (todo.foldl (fun s x => exchangeBlock x.1 x.2 s) s)

/-- S_DIE_RECOMPUTE (R112, R222): the measured t99.9, 0 until 1,000 programs are timed. -/
def execSDieRecompute (t999 programs : Nat) (s : State) : Host.Outcome State Fault Refusal :=
  if frozen s then .next s
  else finish (budgetCheck (s.onFlash fun f =>
    { f with programs := max f.programs programs
             t999 := if 1000 ≤ max f.programs programs then t999 % 2 ^ 32 else 0 }))

end Sys2Proof.Machine
end

