-- ==== Sys2Proof/Machine/WeirCommands.lean ====
section
/-! DEFINITION. Commands of the Weir: the crews' and the Coxswain firmware's recomputations (R117 to R119),
the landed publication (R20, R128), and decay (R20). -/

namespace Sys2Proof.Machine

/-- The crews compute and publish: a crew is a member, the fence has not fallen, and the device is not
frozen (R117, R461). -/
def weirRuns (s : State) : Bool := anyMember s && !s.host.fence && !frozen s

/-- A learn's conditions fail (R319): a temperature, the other string, or its level alone. -/
def learnFails (s : State) (x : Str) : Bool :=
  let t (y : Str) := strTemp (strOf s y)
  decide ((strOf s x).st = .learning) &&
    (decide (t x < 10 ∨ 45 < t x ∨ t x.other < 10 ∨ 45 < t x.other) || !isCounted s x.other ||
      decide (levelAlone s x.other < s.pm.residue))

/-- Abort a learn whose conditions fail (R319). -/
def learnCheck (s : State) : State :=
  let s := if learnFails s .a then abortLearn .a s else s
  let s := if learnFails s .b then abortLearn .b s else s
  unprotectedCheck s

/-- One recomputation: 0x2004 of this moment (R117, R131). -/
def recompute (s : State) : State :=
  s.onWeir fun w => { w with bounds := boundsNow s, computed := (weaker s).isSome }

/-- A publication lands (R20, R128, R130): it refreshes the level and ends a decay; above CAP it is
clamped. -/
def publishOp (crew : Crew) (level : Nat) (s : State) : State :=
  let lvl := level % 2 ^ 48 / pageBytes * pageBytes
  let high := decide (capBytes s < lvl)
  let s := s.onWeir fun w =>
    { w with
      published := lvl, pubStroke := decide (crew = .stroke), pubTime := s.tb.now, hasPub := true
      state := .published, clamps := if high then satInc 0xFF w.clamps else w.clamps }
  retest (weirCheck 1 s)

/-- A publication of the crew may land: the crew is a member (R236, R248), and neither the fence nor a freeze has stopped the
publications (R117, R461). -/
def publishes (s : State) (crew : Crew) : Bool := isMember s crew && !s.host.fence && !frozen s

/-- WEIR_PUBLISH (R20). -/
def execWeirPublish (crew : Crew) (level : Nat) (s : State) : Host.Outcome State Fault Refusal :=
  if publishes s crew then finish (publishOp crew level s) else .next s

/-- The crew whose copy of a crew command executes (R128): the only member, or, of two, either (log 1). -/
def senderOf (s : State) : Crew :=
  if !isMember s .bow then .stroke
  else if !isMember s .stroke then .bow
  else if Config.freeBits 1 s.free = 0 then .bow else .stroke

/-- The publication that follows a recomputation (R117): the level just computed, through the Memory-region landing. -/
def publishComputed (s : State) : State :=
  publishOp (senderOf s) s.weir.bounds.level { s with free := s.free + 1 }

/-- WEIR_RECOMPUTE (R117, R319): every recomputation is followed by its publication. -/
def execWeirRecompute (s : State) : Host.Outcome State Fault Refusal :=
  if weirRuns s then finish (publishComputed (learnCheck (recompute s))) else .next s

/-- MEM_WEIR_LIMITS written by a coxswain core (R119, R120, R127); writing the floor in INIT makes STATE
FLOOR. -/
def limitsOp (capMiB floorMiB' : Nat) (s : State) : State :=
  let s := s.onWeir fun w =>
    { w with capMiB := capMiB % 2 ^ 32, floorMiB := floorMiB' % 2 ^ 32
             state := if w.state = .init then .floor else w.state }
  retest (weirCheck 2 s)

/-- The Coxswain level in MiB (R118): the margin reduced by 2 points, no more than the owner cap. -/
def coxCapMiB (s : State) : Nat := min s.od.set.ownerCapMiB (computedLevel s (s.od.set.margin - 2) / mib)

/-- The coxswains recompute: one runs, a member's or not (R118, R248), and neither the fence nor a freeze has stopped them. -/
def coxRuns (s : State) : Bool := anyCoxswain s && !s.host.fence && !frozen s

/-- FLOOR after a Coxswain recomputation: that of the settings where a write to one of them triggered it (R117, R131, log 33),
else as it was. -/
def dueFloorMiB (s : State) : Nat := if s.weir.floorDue then floorMiB s else s.weir.floorMiB

/-- COXSWAIN_WEIR_RECOMPUTE (R118, R131): CAP, and FLOOR where a setting was written. -/
def execCoxswainWeirRecompute (s : State) : Host.Outcome State Fault Refusal :=
  if coxRuns s then
    finish (retest (weirCheck 2 (s.onWeir fun w =>
      { w with capMiB := coxCapMiB s, floorMiB := dueFloorMiB s, floorDue := false })))
  else .next s

/-- WEIR_FLOOR_SET (R119, R120): FLOOR. -/
def execWeirFloorSet (s : State) : Host.Outcome State Fault Refusal :=
  if coxRuns s then finish (limitsOp s.weir.capMiB (floorMiB s) s) else .next s

/-- WEIR_DECAY_START (R20, R414): the level begins to fall. With a crew a member a trial fails, but not where the fence
has stopped the publications (R117). -/
def execWeirDecayStart (s : State) : Host.Outcome State Fault Refusal :=
  if s.weir.state ≠ .published ∨ frozen s = true then .next s
  else
    let s := s.onWeir fun w =>
      { w with state := .decaying, decayFrom := w.published, decayAt := s.tb.now, decays := satInc 0xFF w.decays }
    let s := weirCheck 3 (record 0x0503 2 0x2240 0 s)
    finish (if anyMember s && !s.host.fence then trialFail 1 s else s)

/-- WEIR_DECAY_FLOOR (R20). -/
def execWeirDecayFloor (s : State) : Host.Outcome State Fault Refusal :=
  if s.weir.state ≠ .decaying ∨ frozen s = true then .next s
  else finish (weirCheck 3 (s.onWeir fun w => { w with state := .decayed }))

end Sys2Proof.Machine
end

