-- ==== Sys2Proof/Machine/Gauge.lean ====
section
/-! DEFINITION. The Reservoir gauge (R304 to R331): the 1 ms sample, the estimator with its re-anchoring
events, failure reasons, forced rests, capacity learning with the charger's entries (R387), the
non-volatile records and pack changes. -/

namespace Sys2Proof.Machine

/-- The crews' estimator runs (chapter 13): a crew is a member, has taken up the record, and the device is
not frozen (R325). -/
def gaugeRuns (s : State) : Bool := anyMember s && s.bat.takenUp && !frozen s

/-- PWR_TIME as the gauge's signed times (R323). -/
def nowI (s : State) : Int := (s.tb.now : Int)

/-! ## Non-volatile records (R322, R323) -/

/-- Hundredths of a percent. -/
def centi (x : Rat) : Nat := (x * 100).floor.toNat

/-- A ratio in Q16.16 (R322, R330). -/
def q16 (x : Rat) : Nat := (x * 65536).floor.toNat

/-- One string's block of a record (R322). -/
def gaugeBlock (b : BatString) : GaugeBlock :=
  { st := b.st, learned := b.learned.isSome, s := centi b.s, u := centi b.u
    learnedMah := b.learned.getD 0
    rhoQ16 := match b.rho with
      | some r => q16 r
      | none => 0
    charge := b.chargeTenth / 10, anchor := b.anchor, learn := b.learn.getD 0, fitted := b.fitted }

/-- The newer of two records. -/
def newerRec (x y : Option GaugeRec) : Option GaugeRec :=
  match x, y with
  | some a, some b => if a.seq < b.seq then some b else some a
  | some a, none => some a
  | none, y => y

/-- The valid record with the highest sequence number, of the slots and the ledger copy (R323). -/
def newestRec (s : State) : Option GaugeRec := newerRec (newerRec s.bat.slot0 s.bat.slot1) s.bat.ledgerRec

/-- Write a gauge record (R322): into the erased slot, then its ledger copy, then the other slot is
erased. -/
def writeGaugeRec (s : State) : State :=
  let r : GaugeRec :=
    { packid := s.bat.packid.getD 0
      seq := match newestRec s with
        | some x => x.seq + 1
        | none => 1
      time := s.tb.now, a := gaugeBlock s.bat.a, b := gaugeBlock s.bat.b }
  s.onBat fun g =>
    { g with
      slot0 := if g.slot0.isNone then some r else none
      slot1 := if g.slot0.isNone then none else some r
      ledgerRec := if s.ledger.failed then g.ledgerRec else some r
      sinceRecord := true, a := { g.a with refit := false }, b := { g.b with refit := false } }

/-- GAUGE_RECORD_WRITE (R322). -/
def execGaugeRecordWrite (s : State) : Host.Outcome State Fault Refusal :=
  if gaugeRuns s then .next (writeGaugeRec s) else .next s

/-- One string's take-up when VDD_AON has been present since the record (R323): s and u go on from the
record; the accumulator difference and the elapsed time follow at the next sample. A pack change since
keeps its reset. -/
def carryBlock (t : Nat) (g : GaugeBlock) (b : BatString) : BatString :=
  if b.refit then b
  else
    { b with
      s := (g.s : Rat) / 100, u := (g.u : Rat) / 100
      learned := if g.learned then some g.learnedMah else none
      rho := if g.rhoQ16 = 0 then none else some ((g.rhoQ16 : Rat) / 65536)
      estTenth := 10 * g.charge, estTime := (t : Int), anchor := g.anchor, fitted := g.fitted
      learn := if g.learned then some g.learn else none }

/-- One string's take-up after a VDD_AON power-on, codes matching (R323): every field but s, u and the
accumulator, each time with the age it had at the write; a pack change since the power-on keeps its reset. -/
def restoreBlock (t : Nat) (g : GaugeBlock) (b : BatString) : BatString :=
  if b.refit then b
  else
  { b with
    learned := if g.learned then some g.learnedMah else none
    rho := if g.rhoQ16 = 0 then none else some ((g.rhoQ16 : Rat) / 65536)
    anchor := g.anchor - t, fitted := g.fitted - t
    learn := if g.learned then some (g.learn - t) else none }

/-- A string that counts as newly fitted (R323). -/
def newlyFitted (now : Int) (b : BatString) : BatString :=
  { b with learned := none, rho := none, learn := none, prevLearn := none, fadeRate := none, fitted := now }

/-- The crews take up the record when they start (R323). -/
def takeUp (s : State) : State :=
  if s.bat.takenUp then s
  else
    let now := nowI s
    let s := match newestRec s with
      | none => s.onBat fun g => { g with a := newlyFitted now g.a, b := newlyFitted now g.b }
      | some r =>
        if s.bat.sinceRecord then
          s.onBat fun g => { g with a := carryBlock r.time r.a g.a, b := carryBlock r.time r.b g.b }
        else if s.bat.packid = some r.packid then
          s.onBat fun g => { g with a := restoreBlock r.time r.a g.a, b := restoreBlock r.time r.b g.b }
        else s.onBat fun g => { g with a := newlyFitted now g.a, b := newlyFitted now g.b }
    let s := s.onBat fun g => { g with takenUp := true }
    unprotectedCheck (if s.bat.a.refit || s.bat.b.refit then writeGaugeRec s else s)

/-! ## Pack change (R324) -/

/-- After a pack change (R324): a record is written and the Coxswain firmware resets the Weir floor. -/
def afterPack (s : State) : State :=
  let s := if gaugeRuns s then writeGaugeRec s else s
  chargeCheck (if weirRuns s then limitsOp s.weir.capMiB (floorMiB s) s else s)

/-- A present string under the descriptor in force: without one it fails with DESCRIPTOR (R308, R310). -/
def descriptorCheck (x : Str) (s : State) : State :=
  if s.bat.desc.isNone then failStr x .descriptor s else s

/-- The pack-change reset of one string, under the descriptor now in force (R308, R310, R324). -/
def packChange (x : Str) (s : State) : State := descriptorCheck x (packReset x s)

/-- PACK_CHANGE_DECLARATION over a path (R324, R331): OD 0x4008. -/
def packDeclareOp (v : Nat) (s : State) : State :=
  let s := if v % 2 = 1 then packChange .a s else s
  let s := if 2 ≤ v then packChange .b s else s
  afterPack s

/-- Code of a PACKID voltage (R305); 16 is open. -/
def packCode (mv : Nat) : Nat := if 1600 < mv then 16 else min 15 (mv / 100)

/-- The descriptor at a PACKID code (R310): none whose version or CRC fails, or whose contents the rule rejects. -/
def descriptorAt (c : ModuleConfig) (code : Nat) (intact : Bool) : Option PackDescriptor :=
  if intact then (tabFind code c.packs).filter PackDescriptor.ok else none

/-- A code is taken (R305, R310, R324): the descriptor it selects, and a pack change on both strings unless
it is the first code since VDD_AON power-on. -/
def takeCode (code : Nat) (valid : Bool) (s : State) : State :=
  let first := s.bat.packid.isNone && !s.bat.packOpen
  let s := s.onBat fun g =>
    { g with
      packOpen := decide (code = 16)
      packid := if code = 16 then none else some code
      desc := if code ≠ 16 then descriptorAt s.cfg code valid else none }
  if first then
    let s := descriptorCheck .b (descriptorCheck .a s)
    if s.bat.desc.isSome then clearReason .b .descriptor (clearReason .a .descriptor s) else s
  else afterPack (packChange .b (packChange .a s))

/-- PACKID_READ (R305, R306, R325): three agreeing readings take a code; a change during a save waits for
its end. -/
def execPackidRead (mv : Nat) (descriptorValid : Bool) (s : State) : Host.Outcome State Fault Refusal :=
  if !s.seq.vddAon then .next s
  else
    let c := packCode mv
    let n := if s.bat.reading.1 = c then min 3 (s.bat.reading.2 + 1) else 1
    let s := s.onBat fun g => { g with reading := (c, n) }
    let inForce := if s.bat.packOpen then some 16 else s.bat.packid
    if n < 3 ∨ inForce = some c then .next s
    else if saving s then .next (s.onSave fun v => { v with packWaiting := true })
    else finish (takeCode c descriptorValid (s.onSave fun v => { v with packWaiting := false }))

/-- THERMISTOR_OPEN (R306, R309): three open samples in a row make the string ABSENT. -/
def execThermistorOpen (str : Str) (s : State) : Host.Outcome State Fault Refusal :=
  if (strOf s str).openCount < 3 then .next s
  else finish (chargeCheck (onStr str (fun b => { b with detected := true }) (removeStr str s)))

/-- THERMISTOR_PRESENT (R309, R323, R324): UNKNOWN with a pack-change reset; the first detection since VDD_AON power-on is
none, and its string becomes UNKNOWN with the insertion rest alone. -/
def execThermistorPresent (str : Str) (s : State) : Host.Outcome State Fault Refusal :=
  if (strOf s str).st ≠ .absent ∨ (strOf s str).ntcOpen then .next s
  else if !(strOf s str).detected then
    let s := onStr str (fun b => { b with st := .unknown, detected := true, insertion := true }) s
    finish (chargeCheck (if s.bat.packid.isSome || s.bat.packOpen then descriptorCheck str s else s))
  else finish (afterPack (packChange str (onStr str (fun b => { b with st := .unknown }) s)))

/-! ## Re-anchoring (R312) -/

/-- The magnitude of a string's current is below the rest threshold (R312): units of 0.1 mA. -/
def atRest (s : State) (x : Str) : Bool :=
  decide ((strOf s x).sample.current.natAbs < 10 * s.od.set.restMa)

/-- u after a rest (R312): 3 mV over the table's slope there, at most 20. -/
def restU (d : PackDescriptor) (mv t : Rat) : Rat :=
  let k := ocvSlope mv ((d.ocv.map fun row => atTemp d row t).zip (d.soc.map fun x : Nat => (x : Rat) / 100))
  if k ≤ 0 then 20 else min 20 (3 / k)

/-- Set s and u and the re-anchoring time (R312); the estimate goes on from here. -/
def anchorAt (x : Str) (soc u : Rat) (s : State) : State :=
  onStr x (fun b =>
    { b with s := soc, u := u, known := true, anchor := nowI s, estTenth := b.chargeTenth, estTime := nowI s }) s

/-- A rest anchors a present string (R309, R312): an insertion rest leaves u at 5 or more; UNKNOWN becomes
COUNTED, or, of a gauge that took a FAULT before its pack changed, FAILED (R308; DEDUCED, log 111). -/
def restAnchor (x : Str) (s : State) : State :=
  let b := strOf s x
  match s.bat.desc with
  | none => s
  | some d =>
    let mv := (b.sample.mv : Rat) / d.series
    let u := restU d mv (strTemp b)
    let s := anchorAt x (socAt d mv (strTemp b)) (if b.insertion then max 5 u else u) s
    let s := onStr x (fun b =>
      { b with
        insertion := false, reason := if b.st = .unknown then b.reasons.headD .none else b.reason
        st := if b.st ≠ .unknown then b.st else if b.reasons.isEmpty then .counted else .failed }) s
    chargeCheck (unprotectedCheck s)

/-- A forced rest ends (R313); a pause that failed reverse-off entries hold stays (R387). -/
def endForcedRest (x : Str) (s : State) : State := onStr x (fun b => { b with pause := b.offFailed, paused := false }) s

/-- REST_QUALIFIED (R312, R313, R327): REST and REST_V in hardware; the crews anchor the string. -/
def execRestQualified (str : Str) (s : State) : Host.Outcome State Fault Refusal :=
  if (strOf s str).st = .absent ∨ atRest s str = false ∨ s.seq.vddAon = false then .next s
  else
    let s := onStr str (fun b => { b with rest := true, restV := b.sample.mv }) s
    if gaugeRuns s then finish (restAnchor str (endForcedRest str s)) else finish s

/-- INSERTION_REST (R312): 60 s of rest after a pack change. -/
def execInsertionRest (str : Str) (s : State) : Host.Outcome State Fault Refusal :=
  let b := strOf s str
  if b.st = .absent ∨ b.insertion = false ∨ atRest s str = false ∨ gaugeRuns s = false then .next s
  else finish (restAnchor str s)

/-- The charger holds the string at the charge voltage with current below termination (R312). -/
def fullCondition (s : State) (x : Str) : Bool :=
  let b := strOf s x
  match s.bat.desc with
  | none => false
  | some d => b.known && b.charging && decide (d.series * d.chargeMv ≤ b.sample.mv + 25 * d.series) &&
      decide (b.sample.current < 10 * d.termMa)

/-- FULL_FLAG (R309, R312, R321): s is 100 and charging stops; a learner past its empty flag is COUNTED. -/
def execFullFlag (str : Str) (s : State) : Host.Outcome State Fault Refusal :=
  if !fullCondition s str || !gaugeRuns s then .next s
  else
    let s := anchorAt str 100 0 s
    let s := onStr str (fun b =>
      { b with
        full := true, fullAt := some (nowI s, b.chargeTenth)
        st := if b.st = .learning && b.emptied then .counted else b.st
        undo := none, emptied := false }) s
    finish (chargeCheck (unprotectedCheck s))

/-- CHARGE_RESTART (R321): 3 % of C_nom has gone, or 30 days have passed, since the full flag. -/
def execChargeRestart (str : Str) (s : State) : Host.Outcome State Fault Refusal :=
  let b := strOf s str
  match b.fullAt, s.bat.desc with
  | some (t, q), some d =>
    let gone := (q - b.chargeTenth) * 100 ≥ 3 * (d.cNom * 36000000 : Nat)
    if b.full ∧ (gone ∨ t + (30 * nsPerDay : Nat) ≤ nowI s) then
      .next (chargeCheck (onStr str (fun b => { b with full := false }) s))
    else .next s
  | _, _ => .next s

/-! ## Resistance (R316) -/

/-- rho after a step of `di` in 0.1 mA and `dv` in mV (R316): steps of at least 100 mA; the first measurement
sets it; one that is not positive is discarded. -/
def rhoStep (d : PackDescriptor) (dv di : Int) (b : BatString) : Option Rat :=
  let m : Rat := ((10 * dv : Int) : Rat) / (di : Rat) / ((d.series : Rat) * atTemp d d.rTyp (strTemp b) / 100000)
  if di.natAbs < 1000 ∨ m ≤ 0 then none
  else match b.rho with
    | none => some m
    | some r => some (r + (m - r) / 8)

/-- RHO_DRIFT_DAY (R316): 1 % a day after 30 days without a step, up to r_max over r_typ. -/
def execRhoDriftDay (str : Str) (s : State) : Host.Outcome State Fault Refusal :=
  let b := strOf s str
  match b.rho, s.bat.desc with
  | some r, some d =>
    if gaugeRuns s && decide (b.rhoTime + (30 * nsPerDay : Nat) ≤ nowI s) then
      let top := atTemp d d.rMax (strTemp b) / atTemp d d.rTyp (strTemp b)
      .next (onStr str (fun b => { b with rho := some (max r (min top (r * 101 / 100))) }) s)
    else .next s
  | _, _ => .next s

/-! ## Capacity learning (R317 to R319, R387) -/

/-- Actions listed in the charger command list (R387): bytes 4, 12, 20 ... of the list. -/
def listedActions (l : List Byte) : List Nat :=
  (List.range ((l.length - 4) / 8)).map fun k => (l.getD (4 + 8 * k) 0).toNat

/-- The list holds a reverse-on and a reverse-off entry for a string (R318, R387). -/
def reverseListed (s : State) (x : Str) : Bool :=
  let as := listedActions s.od.charger
  match x with
  | .a => as.contains 1 && as.contains 2
  | .b => as.contains 3 && as.contains 4

/-- Every start condition of a learn (R318). -/
def learnOk (s : State) (x : Str) : Bool :=
  let l := strOf s x
  let o := strOf s x.other
  let t (b : BatString) := strTemp b
  let lvl := levelAlone s x.other
  decide (l.st = .counted) && decide (o.st = .counted) && decide (o.u ≤ 5) &&
    (match l.fullAt with
     | some (at', _) => l.full && decide (nowI s ≤ at' + (nsPerH : Int))
     | none => false) &&
    decide (5 * s.pm.residue ≤ 4 * lvl) && decide (floorBytes s ≤ lvl) &&
    decide (10 ≤ t l ∧ t l ≤ 45 ∧ 10 ≤ t o ∧ t o ≤ 45) &&
    s.seq.mainOk && memReady s && !saving s && !restoring s && reverseListed s x

/-- Start a learn (R318, R387): a failed reverse-on entry starts none and is recorded (R388). -/
def startLearn (x : Str) (entriesOk : Bool) (s : State) : State :=
  if entriesOk then
    chargeCheck (unprotectedCheck (onStr x (fun b =>
      { b with st := .learning, reverse := true, emptied := false }) (busStop .lcl s)))
  else record 0x0D06 5 0x6081 1 (localFailed s)

/-- A learn is due (R317, R319): a string never learned since it was fitted 24 h after that, another the learning interval
after its last learn, and 24 h after one was aborted. -/
def learnDue (s : State) (x : Str) : Bool :=
  let b := strOf s x
  decide (b.learnAt ≤ nowI s) && (match b.learn with
    | none => decide (b.fitted + (nsPerDay : Nat) ≤ nowI s)
    | some t => decide (t + (s.od.set.learnDays * nsPerDay : Nat) ≤ nowI s))

/-- The other string's learn goes first (R317): it may start, and it was never learned, or longer ago. -/
def otherFirst (s : State) (x : Str) : Bool :=
  learnDue s x.other && learnOk s x.other && (match (strOf s x.other).learn, (strOf s x).learn with
    | none, some _ => true
    | some a, some b => decide (a < b)
    | _, none => false)

/-- LEARN_DUE (R317, R318, R325): never while a forced rest or the other string's learn runs. -/
def execLearnDue (str : Str) (entriesOk : Bool) (s : State) : Host.Outcome State Fault Refusal :=
  if gaugeRuns s && learnDue s str && learnOk s str && !otherFirst s str && !(strOf s str).paused
      && !(strOf s str.other).paused then finish (startLearn str entriesOk s)
  else .next s

/-- Abort a learn and leave reverse mode (R319, R387). -/
def stopLearn (x : Str) (s : State) : State := chargeCheck (unprotectedCheck (abortLearn x s))

/-- LEARN_NO_CURRENT (R319). -/
def execLearnNoCurrent (str : Str) (s : State) : Host.Outcome State Fault Refusal :=
  let b := strOf s str
  if b.st = .learning ∧ b.reverse ∧ gaugeRuns s ∧ -(10 * s.od.set.restMa : Nat) < b.sample.current then
    finish (stopLearn str s)
  else .next s

/-- CHARGER_ENTRY_RETRY (R387): the reverse-off entries of a string that is not discharging are run (again);
a failure holds PAUSE_x until they succeed. -/
def execChargerEntryRetry (str : Str) (entriesOk : Bool) (s : State) : Host.Outcome State Fault Refusal :=
  if (strOf s str).reverse then .next s
  else if !entriesOk then
    finish (record 0x0D06 5 0x6081 1
      (chargeCheck (onStr str (fun b => { b with offFailed := true, pause := true }) (localFailed s))))
  else if (strOf s str).offFailed then
    .next (chargeCheck (onStr str (fun b => { b with offFailed := false, pause := b.paused }) (busStop .lcl s)))
  else .next (busStop .lcl s)

/-- Charge counted in mAh from the full flag to now (R318). -/
def countedMah (b : BatString) : Nat :=
  match b.fullAt with
  | some (_, q) => ((q - b.chargeTenth) / 36000000).toNat
  | none => 0

/-- The empty flag (R312, R318): s and u are 0 and the result is taken between 30 and 110 % of C_nom. -/
def emptyFlag (d : PackDescriptor) (x : Str) (s : State) : State :=
  let q := countedMah (strOf s x)
  let s := anchorAt x 0 0 s
  let s := onStr x (fun b => { b with reverse := false, emptied := true, full := false }) s
  if 30 * d.cNom ≤ 100 * q ∧ 100 * q ≤ 110 * d.cNom then
    let prev := match (strOf s x).learned, (strOf s x).learn with
      | some p, some t => some (p, t)
      | _, _ => none
    let s := onStr x (fun b =>
      { b with
        undo := some (b.learned, b.learn, b.prevLearn, b.fadeRate)
        learned := some q, learn := some (nowI s), prevLearn := prev, fadeRate := none }) s
    writeGaugeRec (record 0x0701 2 (gaugeId x) (strNum x) s)
  else record 0x0702 5 (gaugeId x) (strNum x) s

/-! ## Forced rest (R313) -/

/-- A forced rest is due by the time since the last re-anchoring. -/
def restDue (s : State) (x : Str) : Bool :=
  let b := strOf s x
  decide (b.anchor + (s.od.set.forcedRestH * nsPerH : Nat) ≤ nowI s) && decide (b.retryAt ≤ nowI s)

/-- FORCED_REST_DUE (R313, R325): one string at a time, the larger u first, while the other is COUNTED. -/
def execForcedRestDue (str : Str) (s : State) : Host.Outcome State Fault Refusal :=
  let b := strOf s str
  let o := strOf s str.other
  if gaugeRuns s && decide (b.st = .counted) && decide (o.st = .counted) && restDue s str && !b.paused &&
      !o.paused && !(restDue s str.other && decide (b.u < o.u)) then
    .next (chargeCheck (onStr str (fun b => { b with pause := true, paused := true }) s))
  else .next s

/-- FORCED_REST_FAIL (R313). -/
def execForcedRestFail (str : Str) (s : State) : Host.Outcome State Fault Refusal :=
  if !(strOf s str).paused || !gaugeRuns s then .next s
  else
    let s := onStr str (fun b => { b with pause := b.offFailed, paused := false, retryAt := nowI s + (nsPerDay : Int) }) s
    finish (record 0x0703 4 (gaugeId str) (strNum str) (chargeCheck s))

/-! ## The sample (R308, R311, R312, R319, R321) -/

/-- Hardware's part of a sample (R306, R311, R321, R327). -/
def sampleHw (d : Option PackDescriptor) (restMa : Nat) (x : Sample) (b : BatString) : BatString :=
  let opn := decide (500000 < x.ntcOhm)
  let short := decide (x.ntcOhm < 100)
  let resting := decide (x.current.natAbs < 10 * restMa)
  let t : Rat := (x.temp : Rat) / 10
  { b with
    sample := x, ntcOpen := opn, ntcShort := short
    openCount := if opn then min 3 (b.openCount + 1) else 0
    ntcOkMs := if opn || short then 0 else min 1000 (b.ntcOkMs + 1)
    chargeTenth := b.chargeTenth + x.current
    restNs := if resting then b.restNs + nsPerMs else 0
    rest := b.rest && resting
    chargeTempOut := match d with
      | none => b.chargeTempOut
      | some d => if t < d.chargeMinC ∨ (d.chargeMaxC : Rat) < t then true
          else if (d.chargeMinC : Rat) + 2 ≤ t ∧ t ≤ (d.chargeMaxC : Rat) - 2 then false else b.chargeTempOut }

/-- The estimate moved on to now (R312): s by the charge counted, u by time and throughput. -/
def estimate (d : PackDescriptor) (now : Nat) (b : BatString) : BatString :=
  let c : Rat := capacityLb d b now * 36000000
  let dq : Rat := ((b.chargeTenth - b.estTenth : Int) : Rat)
  let dtH : Rat := (((now : Int) - b.estTime : Int) : Rat) / (nsPerH : Rat)
  if b.known then
    { b with
      s := min 100 (max 0 (b.s + 100 * dq / c))
      u := min 100 (b.u + dtH / 10 + |dq| / (2 * c))
      estTenth := b.chargeTenth, estTime := (now : Int) }
  else { b with estTenth := b.chargeTenth, estTime := (now : Int) }

/-- The crews' estimate of one string from the sample and the one before it (R312, R316). -/
def estimateStr (d : PackDescriptor) (old : Sample) (x : Str) (s : State) : State :=
  let b := strOf s x
  if b.st = .absent then s
  else
    let s := onStr x (estimate d s.tb.now) s
    match rhoStep d ((b.sample.mv : Int) - old.mv) (b.sample.current - old.current) b with
    | some r => onStr x (fun b => { b with rho := some r, rhoTime := nowI s }) s
    | none => s

/-- Failure reasons of one string as the sample shows them (R308). -/
def reasonsOf (d : PackDescriptor) (x : Str) (s : State) : State :=
  let b := strOf s x
  if b.st = .absent then s
  else
    let t := strTemp b
    let s := if b.ntcShort then failStr x .sensor s
      else if 1000 ≤ b.ntcOkMs then clearReason x .sensor s else s
    let s := if t < d.opMinC ∨ (d.opMaxC : Rat) < t then failStr x .temperature s
      else if (d.opMinC : Rat) + 2 ≤ t ∧ t ≤ (d.opMaxC : Rat) - 2 then clearReason x .temperature s else s
    if (strOf s x).st = .counted ∧ socLb (strOf s x) = 0 then failStr x .depleted s
    else if 5 < socLb (strOf s x) then clearReason x .depleted s else s

/-- The learning discharge has reached cut-off (R312). -/
def atEmpty (d : PackDescriptor) (s : State) (x : Str) : Bool :=
  let b := strOf s x
  decide (b.st = .learning) && b.reverse && !b.emptied && decide (b.sample.mv ≤ d.series * d.cutoffMv)

/-- The crews' work on a sample. -/
def crewsSample (d : PackDescriptor) (oldA oldB : Sample) (s : State) : State :=
  let s := estimateStr d oldB .b (estimateStr d oldA .a s)
  let s := if atEmpty d s .a then emptyFlag d .a s else s
  let s := if atEmpty d s .b then emptyFlag d .b s else s
  learnCheck (reasonsOf d .b (reasonsOf d .a s))

/-- GAUGE_SAMPLE (R311, R312, R325): hardware takes the sample whenever VDD_AON is valid; the crews'
estimate follows while they run. -/
def execGaugeSample (a b : Sample) (s : State) : Host.Outcome State Fault Refusal :=
  if !s.seq.vddAon then .next s
  else
    let oldA := s.bat.a.sample
    let oldB := s.bat.b.sample
    let s := s.onBat fun g =>
      { g with a := sampleHw g.desc s.od.set.restMa a g.a, b := sampleHw g.desc s.od.set.restMa b g.b }
    match s.bat.desc with
    | none => finish (chargeCheck s)
    | some d => finish (chargeCheck (if gaugeRuns s then crewsSample d oldA oldB s else s))

/-! ## Landed settings and requests (R326, R329, R331) -/

/-- PWR_CHG_CTRL written by a command landed on Power stream 1 (R329). -/
def chgCtrlOp (v : BitVec 32) (s : State) : State :=
  chargeCheck (s.onBat fun g =>
    { g with
      a := { g.a with iset := v.extractLsb' 8 8, reverse := v.getLsbD 4, pause := v.getLsbD 2 }
      b := { g.b with iset := v.extractLsb' 16 8, reverse := v.getLsbD 5, pause := v.getLsbD 3 } })

/-- PWR_CHG_CTRL_WRITE (R329). -/
def execPwrChgCtrlWrite (value : BitVec 32) (s : State) : Host.Outcome State Fault Refusal :=
  if darkOrAux s then .next s else .next (chgCtrlOp value s)

/-- STATE, REASON and PAUSED set by a command landed on Power stream 1 (R326); hardware alone sets ABSENT
and leaves it. -/
def stringStateOp (x : Str) (st : StrState) (reason : StrReason) (paused : Bool) (s : State) : State :=
  if st = .absent ∨ (strOf s x).st = .absent then s
  else
    chargeCheck (unprotectedCheck (onStr x (fun b =>
      { b with
        st := st, reason := reason, paused := paused
        reasons := if st = .failed then (if b.reasons.contains reason then b.reasons else b.reasons ++ [reason])
          else [] }) s))

/-- STRING_STATE_SETTING (R326). -/
def execStringStateSetting (str : Str) (st : StrState) (reason : StrReason) (paused : Bool) (s : State) :
    Host.Outcome State Fault Refusal :=
  if darkOrAux s then .next s else finish (stringStateOp str st reason paused s)

end Sys2Proof.Machine
end

