-- ==== Sys2Proof/Machine/Records.lean ====
section
/-! DEFINITION. Records and commits as commands: Waterline records by either path (R332), commits landed on
Ledger stream 0 (R231), the export (R341) and the test of a failed ledger (R499). -/

namespace Sys2Proof.Machine

/-- A record landed on Ledger stream 1 (R332): the staged records move first. -/
def waterlineOp (r : WlReq) (s : State) : State :=
  let s := moveStaged s
  recordWith r.code r.severity r.source r.arg.toNat r.conseq false (snapshotFull s (r.code.toNat / 256)) s

/-- WATERLINE_RECORD (R332, R344): the crew path, while a crew is a member and the device is not frozen. -/
def execWaterlineRecord (r : WlReq) (s : State) : Host.Outcome State Fault Refusal :=
  if crewPath s then .next (waterlineOp r s) else .next s

/-- STAGED_RECORD (R332, R336, R344): the Power region's path while no crew is a member or the device is
frozen. -/
def execStagedRecord (r : WlReq) (s : State) : Host.Outcome State Fault Refusal :=
  if crewPath s || !s.seq.vddAon then .next s
  else
    let c := r.code.toNat / 256
    .next (recordWith r.code r.severity r.source r.arg.toNat r.conseq
      ((snapshotList s c).any fun a => !inPowerRegion a) (snapshotStaged s c) s)

/-- Mean of a list of drifts, rounded toward zero (R421). -/
def meanDrift (l : List Int) : Int := if l.isEmpty then 0 else (l.foldl (· + ·) 0).tdiv l.length

/-- Drift of the Memory region's four Ergometers, numbers 8 to 11, without those that fail their parity check (R421, R423). -/
def memoryDrift (s : State) : Int :=
  meanDrift ((((s.plan.drift.zip s.plan.parity).drop 8).take 4).filterMap fun x => if x.2 then some x.1 else none)

/-- A commit that landed on Ledger stream 0 (R231) with what it says about the ledger's own tables: a
bucket's open or retirement (R153), a training record (R189), the power counters (R299), GPF_PHASE2
(R52), a channel that rejoins (R197). -/
def commitOp (c : OtherCommit) (s : State) : State :=
  let s := commit (.other c) s
  match c with
  | .bucketOpen slot epoch => s.onLedger fun l =>
      { l with buckets := tabIns slot { epoch := epoch, openPos := s.log.pos } l.buckets }
  | .bucketRetire slot => s.onLedger fun l =>
      { l with buckets := ledgerRetire (fun k => decide (k ≠ slot)) s.log.pos l.buckets }
  | .trainingRecord ch => onCh ch.val (fun c =>
      { c with recordValid := true, recordStale := false, recordPop := s.cfg.population
               recordTempC := s.cxl.tempC, recordTime := age s
               recordVddq := (railCfgAt s 8).nominal, recordDrift := memoryDrift s }) s
  | .plan => s
  | .railCounters => flushCounts s
  | .gpfPhase2 => s.onHost fun h => { h with gpf := .phase2Done }
  | .channelRejoined ch => onCh ch.val (fun c => { c with named := false }) s
  | .firmware _ _ => s

/-- LEDGER_COMMIT (R231, R340). -/
def execLedgerCommit (c : OtherCommit) (s : State) : Host.Outcome State Fault Refusal :=
  if crewPath s then .next (commitOp c s) else .next s

/-- Slot images that the export area of 8 MiB holds at most (R341). -/
def exportSlots : Nat := 8 * mib / 160

/-- The export area's chunks, newest first, as far as `room` bytes go (R341): a chunk is its header of 32 bytes and its
slots. -/
def chunksThatFit : Nat → List (Nat × Nat × Nat) → List (Nat × Nat × Nat)
  | _, [] => []
  | room, c :: t => if 32 + 160 * c.2.2 ≤ room then c :: chunksThatFit (room - (32 + 160 * c.2.2)) t else []

/-- Export the ring's records not exported yet (R341), as one chunk: the area is a ring, and the oldest of it go. -/
def exportOp (s : State) : State :=
  s.onWl fun w =>
    let new := w.ring.filter fun r => decide (w.exportFrom ≤ r.seq)
    let all := w.exported ++ new
    let chunk := (w.exportOff, (new.map (·.seq)).headD w.exportFrom, new.length)
    { w with
      exported := all.drop (all.length - exportSlots)
      chunks := chunksThatFit (8 * mib) (chunk :: w.chunks)
      exportOff := (w.exportOff + 32 + 160 * new.length) % (8 * mib)
      lastExport := some s.tb.now, exportFrom := w.nextSeq }

/-- WATERLINE_EXPORT (R341): while the ledger is failed; a failed export writes record 0x0E01. -/
def execWaterlineExport (ok : Bool) (s : State) : Host.Outcome State Fault Refusal :=
  if !s.ledger.failed || !s.seq.vddAon then .next s
  else if ok then .next (exportOp s) else .next (record 0x0E01 2 0x7000 0 s)

/-- Highest sequence number of a list of records, and one more. -/
def pastSeq (l : List WlRec) : Nat := l.foldl (fun n r => max n (r.seq + 1)) 0

/-- A sound ledger takes over again (R499): the held commits, the records newer than its own and the wrapped key in use (R214)
move in. -/
def restoreLedger (s : State) : State :=
  let s := s.onLedger fun l =>
    { l with commits := heldCommits l ++ l.commits, fallback := [], failed := false, degraded := false
             testDue := false, keyRecords := (l.keyCopy, l.keyCopy) }
  let fromSeq := pastSeq s.wl.log
  let old := s.wl.exported.filter fun r => decide (fromSeq ≤ r.seq)
  let new := s.wl.ring.filter fun r => decide (fromSeq ≤ r.seq) && !(old.any fun x => decide (x.seq = r.seq))
  let s := s.onWl fun w => { w with ring := [] }
  (old ++ new).foldl (fun s r =>
    match storeRec logSlots r s.wl.log with
    | none => dropRec r.severity.val s
    | some l => s.onWl fun w => { w with log := l }) s

/-- Slots of the log whose CRC fails are empty, and counted in CORRUPT (R339, R345). -/
def dropCorrupt (seqs : List Nat) (s : State) : State :=
  s.onWl fun w =>
    let good := w.log.filter fun r => !seqs.contains r.seq
    { w with log := good, corrupt := sat 0xFF (w.corrupt + (w.log.length - good.length)) }

/-- LEDGER_TEST (R499): at a start from DARK that follows a ledger failure, before the ledger is used. -/
def execLedgerTest (found : LedgerFound) (s : State) : Host.Outcome State Fault Refusal :=
  if !s.ledger.testDue || darkOrAux s || s.rst.begun then .next s
  else
  let s := dropCorrupt found.corrupt s
  if found.pass then .next (restoreLedger s)
  else .next (s.onLedger fun l => { l with testDue := false })

end Sys2Proof.Machine
end

