-- ==== Sys2Proof/Machine/SaveCommands.lean ====
section
/-! DEFINITION. The save as its commands advance it (R132 to R151, R249, R394, R500): the triggers of main
power, the phases and their commits, the battery's comparators, the limits, and the power-down. -/

namespace Sys2Proof.Machine

/-! ## Phases (R138 to R149) -/

/-- The save in phase `p` may go on: its fence has fallen, no freeze holds it, and a root clock runs (R26). -/
def inPhase (s : State) (p : SavePhase) : Bool := saving s && decide (s.save.phase = p) && !frozen s && rootsRun s

/-- The crews' save commands land: a crew is a member and the device does not power down (R249). -/
def crewsSave (s : State) (p : SavePhase) : Bool := inPhase s p && anyMember s && !s.save.waitMember

/-- BATSW_N at the drain's end (R135, R140, R141): on battery when main power fails, with the plan's dies, or the last gasp
when no string can carry the save any more; else every die with erased Basin blocks. -/
def powerPath (s : State) : State :=
  match s.save.trigger with
  | none => s
  | some t =>
    if s.save.battery || mainLoss t then
      if noBattery s then lastGasp (gaspOutcome s) s
      else
        (s.onSave fun v => { v with battery := true, dies := batteryDies s }).onSeq fun q => { q with batsw := true }
    else s.onSave fun v => { v with dies := basinDies s }

/-- A write whose channel is isolated is applied not at all (R138, R195). The pages of those that were completed are noted:
the recovery did not keep the promises for them (R80). -/
def dropIsolated (s : State) : State :=
  let lost := s.wb.entries.filter fun e => onIsolated s (pageOf e.line) && decide (e.phase = .admitted)
  (s.onWb fun w => { w with entries := w.entries.filter fun e => !onIsolated s (pageOf e.line) }).onSave fun v =>
    { v with dropped := lost.foldl (fun l e => setIns (pageOf e.line) l) v.dropped }

/-- SAVE_DRAIN_DONE (R138, R140): nothing of the buffer is left behind, and the filter's dirty lines are written back. -/
def execSaveDrainDone (s : State) : Host.Outcome State Fault Refusal :=
  if !inPhase s .fenced then .next s
  else
    let s := dropIsolated (drainAll s.wb.entries.length s)
    if s.wb.entries.isEmpty then finish (powerPath ((writeBack s).onSave fun v => { v with phase := .drained }))
    else finish s

/-- CHP_FATAL as SAVE_STARTED carries it (R276). -/
def fatalWord (s : State) : Word := if s.fault.chipFatal then regFatal s else 0

/-- SAVE_STARTED (R147, R150, R156): the tail is sealed and the generation assigned. -/
def startedOp (s : State) : State :=
  let g := newGen s
  let s := sealTail (s.onSave fun v => { v with gen := g, phase := .map })
  let s := commit (.saveStarted g (triggerCode s.save.trigger) s.save.gpf (fenceEpochs s) s.pm.buckets s.log.pos
    (fatalWord s)) s
  record 0x0300 2 0x6000 (triggerCode s.save.trigger) s

/-- SAVE_STARTED (R147). -/
def execSaveStarted (s : State) : Host.Outcome State Fault Refusal :=
  if crewsSave s .drained then finish (startedOp s) else .next s

/-- A channel was isolated since the start, so that reads of the map lines and mapping entries it holds are uncorrectable
(R195); one that was out at the start holds none (R198). -/
def anyIsolated (s : State) : Bool := s.dram.channels.any fun c => decide (c.state = .isolated) && !c.out

/-- Places of the saved metadata (R147, R148): `n` items from the page map on. -/
def places (gen n : Nat) : List (Nat × Nat) := (List.range n).map (Config.savePlace gen)

/-- Tweaks of the first `n` items' metadata units, each with the unit's index within the area (R213). -/
def metaTweaksOf (gen n : Nat) : List Nat :=
  ((places gen n).map fun p => (List.range p.2).map fun k => tweakOf 3 (p.1 + k)).flatten

/-- Dies that hold erased Basin blocks, those that run no operation ahead of the rest (R210). -/
def freeFirst (s : State) : List Nat :=
  let busy (d : Nat) : Bool := (startedJob (d % 8) (flAt s (d / 8)).jobs 0).isSome
  (erasedDies s).filter (fun d => !busy d) ++ (erasedDies s).filter busy

/-- The image of the map, drain table and bucket table (R144 step 1, R195, R210). -/
def mapImage (s : State) : BasinImage :=
  { gen := s.save.gen, map := s.pm.pages, drains := s.pm.drains, buckets := s.pm.buckets
    reasons := s.pm.reasons, mapWhole := !anyIsolated s, dropped := s.save.dropped
    mapDies := freeFirst s, metaTweaks := metaTweaksOf s.save.gen 3 }

/-- A channel is in block reset: the save reads none of its lines before step 9 (R196). -/
def anyReset (s : State) : Bool := s.dram.channels.any fun c => decide (c.state = .blockReset)

/-- The pass after the buckets done so far (R144 step 2): the oldest bucket left that selects a page. -/
def nextPass (s : State) : Option Bucket :=
  s.pm.buckets.find? fun b => decide (b.pages ≠ 0) && !s.save.done.contains b.openSeq

/-- The next pass starts, or the residue is complete and the mapping table follows (R144, R146). -/
def nextPhase (s : State) : State :=
  match nextPass s with
  | some b =>
    (landCursor (.upTo b.openSeq 0) s).onSave fun v => { v with phase := .residue, bucket := b.slot }
  | none => (landCursor .endOfResidue s).onSave fun v => { v with phase := .mapping }

/-- MAP_SAVED (R144, R147): the map's lines lie on every channel, so the save waits for the end of a block reset (R196). -/
def execMapSaved (s : State) : Host.Outcome State Fault Refusal :=
  if !crewsSave s .map || anyReset s then .next s
  else
    let im := mapImage s
    let s := s.onBasin fun b => { b with image := some im }
    let s := commit (.mapSaved s.save.gen (places s.save.gen 3)) (s.onSave fun v => { v with mapSaved := true })
    finish (nextPhase s)

/-- A cursor lies at or past another (R146): it only advances. -/
def cursorLe : Cursor → Cursor → Bool
  | _, .endOfResidue => true
  | .endOfResidue, .upTo _ _ => false
  | .upTo o p, .upTo o' p' => decide (o < o') || (decide (o = o') && decide (p ≤ p'))

/-- The cursor lands and is committed where it stands (R146). -/
def cursorOp (c : Cursor) (s : State) : State :=
  let s := landCursor c s
  commit (.cursor s.save.gen s.save.cursor) s

/-- CURSOR (R146, R151, R500): the units before it are programmed; the Basin may run out. -/
def execCursor (openSeq page : Nat) (s : State) : Host.Outcome State Fault Refusal :=
  let c : Cursor := .upTo openSeq page
  if !crewsSave s .residue || s.save.stopped || !cursorLe s.save.cursor c then .next s
  else finish (cursorOp c s)

/-- Pages written in a pass (R147). -/
def passCount (s : State) (b : Bucket) : Nat :=
  match s.basin.image with
  | some im => ((passPages im b).filter fun p => (tabFind p im.units).isSome).length
  | none => 0

/-- A program of the pass is still in an oar's hands, or a page of it on a channel in block reset, so that the pass has not
ended (R144, R146, R196). -/
def passBusy (s : State) (b : Bucket) : Bool :=
  match s.basin.image with
  | some im => (passPages im b).any fun p => programBusy s p || inBlockReset s p
  | none => false

/-- The pages of a pass that the image does not have yet are given to the dies, and the pass ends with padding (R144, R210). -/
def endPass (b : Bucket) (s : State) : State :=
  let s := programPages (slotPages s b.slot) s
  if s.save.stopped then s else padPass s

/-- The pass of the slot in progress ends, and the next begins (R144, R146, R147). -/
def passDone (b : Bucket) (s : State) : State :=
  let s := nextPhase (s.onSave fun v => { v with done := v.done ++ [b.openSeq] })
  commit (.cursor s.save.gen s.save.cursor) (commit (.bucketDone s.save.gen b.openSeq (passCount s b)) s)

/-- BUCKET_DONE (R144, R146, R147): no pass ends without room for its pages (R500); the cursor then stands before the first
that is missing. -/
def bucketDoneOp (b : Bucket) (s : State) : State :=
  let s := endPass b s
  if s.save.stopped then
    let s := landCursor (.upTo b.openSeq (2 ^ 29)) s
    commit (.cursor s.save.gen s.save.cursor) s
  else passDone b s

/-- BUCKET_DONE (R144, R147). -/
def execBucketDone (s : State) : Host.Outcome State Fault Refusal :=
  if !crewsSave s .residue || s.save.stopped then .next s
  else match bucketAt s s.save.bucket with
    | some b => if passBusy s b then .next s else finish (bucketDoneOp b s)
    | none => .next s

/-- The roots of the save (R46, R148). -/
def rootsNow (s : State) : Roots :=
  { gen := s.save.gen, places := places s.save.gen 4, checkpoint := s.lake.checkpointSeq, epoch := s.host.epoch
    settled := s.host.settled, target := s.host.target, cursor := s.save.cursor, logPos := s.log.pos }

/-- The mapping table and the roots (R144 steps 3 and 4, R148): two header blocks on different dies, the ledger, and the root
area of serial memory; DRAM enters self-refresh (R192). Which two dies is not the spec's: the first two (log 65). -/
def rootsOp (s : State) : State :=
  let r := rootsNow s
  let s := s.onBasin fun b =>
    { b with image := b.image.map fun im =>
        { im with mapping := some s.lake.mapping, mappingWhole := !anyIsolated s, roots := some r
                  headers := (goodDies s).take 2, metaTweaks := metaTweaksOf s.save.gen 5 } }
  let s := s.onLedger fun l => { l with roots := if l.failed then l.roots else some r, rootArea := some r }
  let s := rootWrite 1 r.gen none [] s
  let s := s.onDram fun d =>
    { d with channels := d.channels.map fun c => if c.state = .active then { c with state := .selfRefresh } else c }
  commit (.rootsSaved s.save.gen (Config.savePlace s.save.gen 4)) (s.onSave fun v => { v with phase := .mapping })

/-- ROOTS_SAVED (R148): after the last pass, or once residue writing has stopped (R143, R151, R500), and not in a block reset
(R196). -/
def execRootsSaved (s : State) : Host.Outcome State Fault Refusal :=
  if (crewsSave s .mapping || (crewsSave s .residue && s.save.stopped)) && !anyReset s then finish (rootsOp s) else .next s

/-- The roots of the save in progress are in the Basin header. -/
def rootsWritten (s : State) : Bool :=
  match s.basin.image with
  | some im => im.roots.isSome
  | none => false

/-- SAVED (R147, R149, R322, R341): the gauge record and, while the ledger is failed, the export. -/
def savedOp (s : State) : State :=
  let ms := (s.tb.now - s.save.fenceTime) / nsPerMs
  let s := commit (.saved s.save.gen s.save.cursor ms s.save.halvings) s
  let s := record 0x0303 2 0x6000 (triggerCode s.save.trigger) s
  let s := (closeSave s.save.outcome s).onSave fun v => { v with phase := .saved }
  let s := writeGaugeRec s
  if s.ledger.failed then exportOp s else s

/-- SAVED (R147, R149). -/
def execSaved (s : State) : Host.Outcome State Fault Refusal :=
  if crewsSave s .mapping && rootsWritten s then finish (savedOp s) else .next s

/-! ## Limits and comparators (R142, R143, R151) -/

/-- SAVE_TIME_LIMIT (R143): residue writing stops; the mapping table and the roots follow. -/
def execSaveTimeLimit (s : State) : Host.Outcome State Fault Refusal :=
  if inPhase s .residue then .next (stopWriting 1 s) else .next s

/-- Five milliseconds: the hold-off of R142. -/
def holdOff : Nat := 5 * nsPerMs

/-- Halve the programming dies, rounded up, never below 8 (R142): counted and recorded. -/
def halve (s : State) : State :=
  match s.save.lastHalving with
  | some t => if s.tb.now < t + holdOff then s else go s
  | none => go s
where
  /-- One halving. -/
  go (s : State) : State :=
    if s.save.dies ≤ 8 then s
    else
      let s := s.onSave fun v =>
        { v with dies := max 8 (ceilDiv v.dies 2), halvings := satInc 0xF v.halvings, lastHalving := some s.tb.now }
      record 0x0301 4 0x6000 (triggerCode s.save.trigger) s

/-- A condition on every counted string, or on every string present when none is counted (R142). -/
def everyString (s : State) (a b : Bool) : Bool :=
  if anyCounted s then (!isCounted s .a || a) && (!isCounted s .b || b)
  else (decide (s.bat.a.st = .absent) || a) && (decide (s.bat.b.st = .absent) || b)

/-- No string is present (R142). -/
def noString (s : State) : Bool := decide (s.bat.a.st = .absent) && decide (s.bat.b.st = .absent)

/-- The comparators act (R142): a save runs with the battery path closed. -/
def onBattery (s : State) : Bool := saving s && s.save.battery && decide (s.seq.dir ≠ .down)

/-- SAG_DETECT (R142). -/
def execSagDetect (belowA belowB : Bool) (s : State) : Host.Outcome State Fault Refusal :=
  if onBattery s && !noString s && everyString s belowA belowB then finish (halve s) else .next s

/-- HALVING_HOLD_OFF_END (R142): the sag, or the 115 °C condition (R151), is still there. -/
def execHalvingHoldOffEnd (still : Bool) (s : State) : Host.Outcome State Fault Refusal :=
  if saving s && still && s.save.lastHalving.isSome && (s.save.battery || decide (115 ≤ s.cxl.tempC)) then
    finish (halve s)
  else .next s

/-- SAVE_CUTOFF (R142): energy is exhausted; with no string present it is so at once. -/
def execSaveCutoff (belowA belowB forOneMs : Bool) (s : State) : Host.Outcome State Fault Refusal :=
  if onBattery s && (noString s || (everyString s belowA belowB && (forOneMs || decide (s.save.dies ≤ 8)))) then
    finish (lastGasp 3 s)
  else .next s

/-- The save waits for landed save commands: not before a member exists, not after SAVED. -/
def awaitsCrews (s : State) : Bool :=
  saving s && !s.save.waitMember && decide (s.seq.dir ≠ .down) &&
    (match s.save.phase with
     | .fenced => true
     | .drained => true
     | .map => true
     | .residue => true
     | .mapping => true
     | _ => false)

/-- CREWS_SILENT_TIMEOUT (R150, R151). -/
def execCrewsSilentTimeout (s : State) : Host.Outcome State Fault Refusal :=
  if awaitsCrews s && !frozen s then finish (lastGasp 6 s) else .next s

/-- EMPTY_SET_SAVE_TIMEOUT (R249). -/
def execEmptySetSaveTimeout (s : State) : Host.Outcome State Fault Refusal :=
  if saving s && s.save.waitMember then finish (lastGasp 6 s) else .next s

/-- LEDGER_HOLD_TIMEOUT (R284). -/
def execLedgerHoldTimeout (s : State) : Host.Outcome State Fault Refusal :=
  if s.seq.ledgerHold then .next (dropLedgerHold s) else .next s

/-! ## Power-down (R135, R149, R394) -/

/-- SAVE_RELEASE (R394): the Coxswain firmware has read SAVED or LAST_GASP back. -/
def releaseOp (s : State) : State :=
  if s.save.phase = .saved then s.onSave fun v => { v with released := true } else s

/-- SAVE_RELEASE (R394). -/
def execSaveRelease (s : State) : Host.Outcome State Fault Refusal :=
  if frozen s then .next s else .next (releaseOp s)

/-- The power-down command on Power stream 0 (R135, R149, R394): during a save only once released; to DARK
from battery, to AUX with HOLD_AUX from main power. -/
def powerDownOp (s : State) : State :=
  if saving s && s.save.released && decide (s.save.phase = .saved) && decide (s.seq.dir ≠ .down) then
    let s := s.onSave fun v => { v with phase := .powerDown }
    if s.save.battery then powerDownTo .dark false s else powerDownTo .aux true s
  else s

/-- POWER_DOWN_COMMAND (R149, R394). -/
def execPowerDownCommand (s : State) : Host.Outcome State Fault Refusal :=
  if frozen s then .next s else finish (powerDownOp s)

/-! ## Main power (R132, R133, R135, R283, R287, R293) -/

/-- PWRFAIL_N_ASSERT (R132): a pulse shorter than 10 ns is only counted. -/
def execPwrfailNAssert (ns : Nat) (s : State) : Host.Outcome State Fault Refusal :=
  if !s.seq.vddAon then .next s
  else if ns < 10 then .next (s.onSave fun v => { v with ignored := v.ignored + 1 })
  else finish (startHeld (trigger .pwrfail s))

/-- Main power is lost before memory is ready (R136, R287): a power-down to DARK. A device already on its
way down, in AUX or in DARK only notes it. -/
def noSaveDown (s : State) : State :=
  if darkOrAux s || saving s || decide (s.seq.dir = .down) then s
  else if memReady s && !boathouse s then s
  else powerDownDark false s

/-- VIN_SENSE has been above its threshold for 1 ms since AUX entry, so that a fall drives PWRFAIL_N in any state from AUX
onwards (R449). -/
def drivesPwrfail (s : State) : Bool :=
  match s.seq.mainSince with
  | some t => s.seq.mainOk && decide (s.seq.st ≠ .dark ∧ max t s.boot.auxEntry + nsPerMs ≤ s.tb.now)
  | none => false

/-- VIN_SENSE_FALL (R132, R133, R283, R287, R293, R449): PWRFAIL_N is driven low, evaluation of undervoltage stops
while the battery path is open, and the trigger acts. -/
def execVinSenseFall (s : State) : Host.Outcome State Fault Refusal :=
  if !s.seq.vddAon then .next s
  else
    let s := s.onSeq fun q =>
      { q with
        mainOk := false, mainSince := none, holdVinFell := q.holdVinFell || q.holdAux
        pwrfailDrive := q.pwrfailDrive || drivesPwrfail s }
    let s := chargeCheck s
    if memReady s && !boathouse s then finish (trigger .vin s) else finish (noSaveDown s)

/-- VIN_SENSE_RISE (R134, R283, R286, R287, R293, R321): evaluation resumes, HOLD_AUX clears after a fall, and main power
returning during a power-down turns it to DARK with a power-up pending, as it does, once the save is complete, when it
returns during a save (R134). In AUX the device's own drive of PWRFAIL_N ends (log 91). -/
def execVinSenseRise (s : State) : Host.Outcome State Fault Refusal :=
  if !s.seq.vddAon || s.seq.mainOk then .next s
  else
    let down := decide (s.seq.dir = .down)
    let back := (down || saving s) && decide (s.od.set.autoOn = 1)
    let s := s.onSeq fun q =>
      { q with
        mainOk := true, mainSince := some s.tb.now, evalOn := false
        pwrfailDrive := q.pwrfailDrive && !(decide (q.st = .aux) && decide (q.dir ≠ .down))
        holdAux := q.holdAux && !q.holdVinFell, holdVinFell := false
        onPending := q.onPending || back, target := if back && down then .dark else q.target }
    finish (chargeCheck s)

end Sys2Proof.Machine
end

