-- ==== Sys2Proof/Machine/Sequencer.lean ====
section
/-! DEFINITION. The sequencer's commands (R278 to R303): start-up from VDD_AON and the serial memory (R431,
R438, R444, R486), CATCH, the climb, supervision, the fault cut, and the choice of the image (R402). -/

namespace Sys2Proof.Machine

/-! ## Start of a state (R285, R402, R417, R436) -/

/-- A start from DARK clears the FAULT of a string's gauge (R308). -/
def clearGaugeFaults (s : State) : State := clearReason .b .fault (clearReason .a .fault s)

/-- CORE starts (R24, R25, R285): the root clocks start, and the coxswains boot, unless a freeze holds them in
reset (R459). -/
def startCore (s : State) : State :=
  let s := clearGaugeFaults s
  let s := s.onSeq fun q => { q with onCommand := false, onPending := false, railCfg := s.od.railCfg
                                     mask := BitVec.ofNat 16 s.od.set.railMask }
  let s := s.onClk fun _ => { xtalOk := true, springLock := true, backupLock := true, rootsStarted := true }
  let s := s.onBoot fun b => { b with coreTime := sat 0xFFFFFFFF ((s.tb.now - b.auxEntry) / 1000) }
  let s := s.onFlash fun f => { f with firstStart := some (f.firstStart.getD (age s)) }
  let s := s.onWl fun w => { w with corrupt := 0 }
  if held s then enterFreeze s else chooseImage s

/-- LINK starts (R34, R475): CLKREQ_N asserts and every head out of PERST trains. -/
def startLink (s : State) : State :=
  s.onHost fun h =>
    { h with clkreq := true, head0 := { h.head0 with link := !h.head0.perst }
             head1 := { h.head1 with link := !h.head1.perst && twoHeads s } }

/-- A state's power-up starts (R285, R287, R288): CATCH is driven low in CORE to LINK; at ONLINE the rail counts go to the
ledger (R299). -/
def startState (k : SeqSt) (s : State) : State :=
  let drive := decide (2 ≤ k.num ∧ k.num ≤ 5)
  let s := s.onSeq fun q =>
    { q with st := k, dir := .up, stateStart := s.tb.now, complete := false, staggering := false
             waitRecorded := false, catchDrive := drive, catchIn := !drive && q.catchIn }
  match k with
  | .core => startCore s
  | .link => startLink s
  | .online => flushCounts (s.onUpd fun u => { u with trialMark := s.tb.now })
  | _ => s

/-- A die fails the check of its parameter page and the board profile (R203). -/
def failsCheck (s : State) (d : Nat) : Bool := !(dieParams s d).ok

/-- A channel that waits to be identified is in use, its oar loaded (R21, R23). -/
def identified (slot : Fin 2) (x : FlashChannel × Nat) : FlashChannel :=
  if x.1.state = .identifying then { x.1 with state := .active, oarSlot := some slot, windows := flashWindows x.2 } else x.1

/-- The coxswains load the media key into both XTS engines (R214), while the ledger is failed from the serial-memory copy. -/
def loadKey (s : State) : State :=
  s.onFlash fun f => { f with key := if s.ledger.failed then s.ledger.keyCopy else s.ledger.keyRecords.1 }

/-- The oars read a die's factory marks (R217): a die-block with a marked plane block enters no area. A second reading finds
the same. -/
def readMarks (d : Nat) (s : State) : State :=
  let n := tabGet 0 d s.cfg.factoryBad
  s.onFlash fun f =>
    let x : Die := tabGet {} d f.dies
    { f with dies := tabSet {} d { x with badBlocks := x.badBlocks + n - x.marked, marked := n } f.dies }

/-- TLC segments that a segment group supplies (R207): the fewest good die-blocks of its dies, less those of the Basin, the
pSLC tier and the log area, and 64. -/
def groupSegments (s : State) (g : Nat) : Nat :=
  match groupDies s g with
  | [] => 0
  | d :: t =>
    let good (d : Nat) := s.cfg.goodBlocksPerDie - (dieAt s d).badBlocks
    t.foldl (fun m d => min m (good d)) (good d) - s.cfg.basinBlocksPerDie
      - ceilDiv s.cfg.board.pslcSegments (groupCount s) - logBlocks s.cfg - 64

/-- Good die-blocks of a die outside every area: its spare pool (R207). The groups share the Lakebed's segments evenly, as
their numbers do (log 8). -/
def poolSize (s : State) (d : Nat) : Nat :=
  let k := groupCount s
  s.cfg.goodBlocksPerDie - (dieAt s d).badBlocks - s.cfg.basinBlocksPerDie - ceilDiv s.cfg.board.pslcSegments k
    - logBlocks s.cfg - ceilDiv s.lake.tlcSegments k

/-- The pool of every die is counted (R207): what stands in it erased still is. -/
def sizePools (s : State) : State :=
  s.onFlash fun f =>
    { f with dies := (goodDies s).foldl (fun t d =>
        let x : Die := tabGet {} d t
        let n := poolSize s d
        tabSet {} d { x with spare := n, poolErased := x.poolErased.filter (· < n) } t) f.dies }

/-- Dies retired before the board profile was rewritten are taken up again (R219). -/
def reviveDies (s : State) : State :=
  if s.flash.profileNew then
    s.onFlash fun f =>
      { f with profileNew := false, dies := f.dies.map fun x => (x.1, { x.2 with retired := false, fails := 0 }) }
  else s

/-- The Lakebed's TLC area is sized at start (R207), at most 1,024 segments less the pSLC tier's (R100). One below 1.25 times
the visible capacity is recorded with severity 5; no event code is given for that record: a free one of class 0x0C (log 83). -/
def sizeLakebed (s : State) : State :=
  let k := groupCount s
  let n := (List.range k).foldl (fun n g => n + groupSegments s g) 0
  let s := s.onLake fun l => { l with tlcSegments := min n (1024 - s.cfg.board.pslcSegments) }
  if 4 * (s.lake.tlcSegments * ((goodDies s).length * s.cfg.tlcDieBlockMib * mib)) < 5 * s.cfg.visible * k then
    record (0x0C00 + BitVec.ofNat 16 (Config.freeNat s.free % 256)) 5 0x3A80 0 { s with free := s.free + 1 }
  else s

/-- The crews identify the flash population (R23, R204, R225): every channel that waits for it is in use, its
oar's microcode loaded. The oars check every die; one that fails is retired from the start (R203). They read the factory marks
(R217), and the Lakebed and the spare pools are sized (R207). -/
def identifyFlash (s : State) : State :=
  let waits := s.flash.channels.any fun c => decide (c.state = .identifying)
  let s := s.onFlash fun f =>
    { f with
      wpN := f.wpN && !waits
      channels := (f.channels.zip (List.range 32)).map (identified s.upd.active) }
  if !waits then s
  else
  let s := reviveDies (loadKey s)
  let s := ((goodDies s).filter (failsCheck s)).foldl (fun s d => retireDie d s) s
  sizePools (sizeLakebed ((goodDies s).foldl (fun s d => readMarks d s) s))

/-- A state's power-up completes (R285, R288, R298, R299): CATCH is released and the stretch of a reset
output released in it begins. In MEMORY and FLASH the population may be trained and identified. -/
def completeState (s : State) : State :=
  let k := s.seq.st.num
  let s := s.onSeq fun q =>
    { q with
      complete := true, catchDrive := if k = 1 then q.catchDrive else false
      dir := if k = 6 ∨ k = 1 then .steady else q.dir
      mrstStretch := q.mrstStretch || decide (k = s.od.mrstState)
      frstStretch := q.frstStretch || decide (k = s.od.frstState) }
  if boathouse s then s
  else if k = 3 then
    s.onDram fun d => { d with channels := (d.channels.zip (List.range 8)).map fun c =>
      if c.2 < s.cfg.dramChannels then { c.1 with state := .training } else c.1 }
  else if k = 4 then
    let s := s.onFlash fun f => { f with channels := (f.channels.zip (List.range 32)).map fun c =>
      if c.2 < s.cfg.flashChannels then { c.1 with state := .identifying } else c.1 }
    if anyMember s then identifyFlash s else s
  else s

/-- A rail may be handled as part of the current state's power-up. -/
def climbing (s : State) : Bool :=
  (decide (s.seq.dir = .up) || decide (s.seq.st = .aux ∧ s.seq.dir = .steady)) && !s.seq.complete &&
    !s.seq.reversing && !s.seq.staggering && (decide (s.seq.st ≠ .aux) || s.boot.profileOk)

/-- RAIL_ON_DELAY (R279). -/
def execRailOnDelay (n : Fin 16) (s : State) : Host.Outcome State Fault Refusal :=
  if climbing s && railIn s s.seq.st.num n.val && decide ((railAt s n.val).phase = .off) then
    .next (railEnable n.val s)
  else .next s

/-- Millivolts of a converter code (R280, R481): 1.6 V over 4,096 steps, times the rail's scale. -/
def vmonMv (s : State) (n : Nat) (code : BitVec 12) : Nat :=
  sat 0xFFFF (code.toNat * 1600 * (railCfgAt s n).scaleQ16 / (4096 * 65536))

/-- Both targets of a ramp count: while it runs, and for 1 ms after its last step (R424). -/
def bothTargets (s : State) : Bool :=
  s.plan.ramp || (match s.plan.stepAt with
    | some t => decide (s.tb.now < t + nsPerMs)
    | none => false)

/-- The voltage from which a rail's UV levels are computed (R279, R424): of a tracked rail the planner's target, the lower of
the old and the new while both count. -/
def nominalUv (s : State) (n : Nat) : Nat :=
  if (railCfgAt s n).track then (if bothTargets s then min s.plan.old s.plan.target else s.plan.target)
  else (railCfgAt s n).nominal

/-- The voltage from which a rail's OV levels are computed (R279, R424): the higher target while both count. -/
def nominalOv (s : State) (n : Nat) : Nat :=
  if (railCfgAt s n).track then (if bothTargets s then max s.plan.old s.plan.target else s.plan.target)
  else (railCfgAt s n).nominal

/-- A sample lies below a level of `uv` units of 0.1 % under the nominal, evaluated only while the rail is ON, or above one of
`ov` units over it, not evaluated only while the rail is OFF (R279, R281; log 86). -/
def beyond (s : State) (n mv uv ov : Nat) (r : Rail) : Bool :=
  (decide (r.phase = .on) && decide (mv * 1000 < nominalUv s n * (1000 - uv))) ||
    (decide (r.phase ≠ .off) && decide (nominalOv s n * (1000 + ov) < mv * 1000))

/-- A rail's latest sample (R301, R302): MIN_MV only while ON. -/
def vmonSample (n : Nat) (code : BitVec 12) (s : State) : State :=
  let mv := vmonMv s n code
  let c := railCfgAt s n
  onRail n (fun r =>
    { r with code := code, mv := mv, maxMv := max r.maxMv mv
             minMv := if r.phase = .on then min r.minMv mv else r.minMv
             warn := beyond s n mv c.uvWarn c.ovWarn r, fault := beyond s n mv c.uvFault c.ovFault r }) s

/-- Every VMON input is sampled (R280): the voltages that stand there are free values (log 110). -/
def sampleRails (s : State) : State :=
  (List.range 16).foldl (fun s n => vmonSample n (Config.freeBits 12 s.free) { s with free := s.free + 1 }) s

/-- The level of CATCH (R300): low while the device drives it; else that of a line other devices share, a free value (log
110). -/
def sampleCatch (s : State) : State :=
  { s with free := s.free + 1 }.onSeq fun q =>
    { q with catchIn := !q.catchDrive && decide (Config.freeBits 1 s.free = 1) }

/-- What the sequencer's inputs show every 4 µs of PWR_TIME (R280), where the time has passed from `before`. -/
def sampleStep (before : Nat) (s : State) : State :=
  if s.seq.vddAon && decide (before / 4000 ≠ s.tb.now / 4000) then sampleCatch (sampleRails s) else s

/-- RAIL_RISEN (R280, R285, R299): the rail is ON; with the last masked rail the state completes. -/
def execRailRisen (n : Fin 16) (code : BitVec 12) (s : State) : Host.Outcome State Fault Refusal :=
  if (railAt s n.val).phase ≠ .rising then .next s
  else
    let s := vmonSample n.val code (onRail n.val (fun r =>
      { r with phase := .on, pgood := true, counts := { r.counts with ups := satInc 0xFFFF r.counts.ups } }) s)
    if climbing s && allRisen s then finish (completeState s) else finish s

/-- STATE_COMPLETE_NO_RAIL (R285): no rail of the state is in the enable mask. -/
def execStateCompleteNoRail (s : State) : Host.Outcome State Fault Refusal :=
  if climbing s && (stateRails s s.seq.st.num).isEmpty && decide (s.seq.st ≠ .dark) then finish (completeState s)
  else .next s

/-- RESET_STRETCH_END (R298, R479): FLS_WP_N deasserts with FRST_N. -/
def execResetStretchEnd (flash : Bool) (s : State) : Host.Outcome State Fault Refusal :=
  if flash then
    .next (if s.seq.frstStretch then
      (s.onSeq fun q => { q with frst := false, frstStretch := false }).onFlash fun f => { f with wpN := false } else s)
  else .next (if s.seq.mrstStretch then s.onSeq fun q => { q with mrst := false, mrstStretch := false } else s)

/-! ## VDD_AON, straps, serial memory (R287, R323, R431, R438, R439, R444, R486) -/

/-- The latch's rail belongs to AUX, so a latched device holds in DARK (R287). -/
def auxLatch (s : State) : Bool :=
  s.seq.latched && decide ((s.od.railCfg.getD s.seq.latchRail {}).state = 1)

/-- DARK is left for AUX (R287): ON_PENDING becomes the on command of this climb. -/
def toAux (s : State) : State :=
  let s := clearGaugeFaults s
  let s := s.onSeq fun q => { q with onCommand := q.onCommand || q.onPending, onPending := false }
  (enterAux s).onSeq fun q => { q with dir := .up }

/-- VDD_AON_VALID (R28, R287, R323, R333, R439, R486): the Power region starts from its reset values, the
latch and the reservation come from serial memory, and DARK moves to AUX. -/
def execVddAonValid (s : State) : Host.Outcome State Fault Refusal :=
  if s.seq.vddAon then .next s
  else
    let s := s.onSeq fun q =>
      { q with
        vddAon := true, latched := s.boot.latchSaved
        latchCause := if s.boot.latchSaved then s.boot.latchSavedCause else 0
        latchRail := if s.boot.latchSaved then s.boot.latchSavedRail else 0 }
    let s := s.onWl fun w =>
      { w with nextSeq := max (max (pastSeq w.log) (pastSeq w.exported)) w.reserved }
    let s := if s.seq.latched then raiseCall s else s
    if auxLatch s then .next s else .next ((toAux s).onBoot fun b => { b with latchRec := s.boot.latchSaved })

/-- A string without VDD_AON: the Power region's hardware restarts (R323, R327). -/
def stringOff (_ : BatString) : BatString := {}

/-- VDD_AON_LOSS (R155, R323, R486): the Power region is held in reset; what serial memory, the ledger and flash keep stays.
Commits held in the fallback ring go unless they were exported (R161, R341), and the dirty-log tail unless it was sealed in
the ledger. -/
def execVddAonLoss (s : State) : Host.Outcome State Fault Refusal :=
  if !s.seq.vddAon then .next s
  else
    let lived := s.tb.now
    let s := regionsOff s
    .next
      { s with
        tb := {}
        flash := { s.flash with lived := s.flash.lived + lived }
        save := { last := s.save.last }
        seq := { rails := s.seq.rails.map fun r => { ledger := r.ledger } }
        boot := { latchSaved := s.boot.latchSaved, latchSavedCause := s.boot.latchSavedCause
                  latchSavedRail := s.boot.latchSavedRail, latchPage := s.boot.latchPage
                  failedBoots := s.boot.failedBoots, serial := s.boot.serial }
        frz := {}
        bat := { a := stringOff s.bat.a, b := stringOff s.bat.b, slot0 := s.bat.slot0, slot1 := s.bat.slot1
                 ledgerRec := s.bat.ledgerRec }
        bus := {}
        ledger := { s.ledger with fallback := s.ledger.fallback.filter fun r => match r.held with
          | some n => s.wl.exported.any fun x => decide (x.seq = n)
          | none => true }
        log := if s.log.sealed' then s.log else { s.log with tail := [] }
        wl := { s.wl with ring := [], nextSeq := 0, lastExport := none, exportFrom := 0, corrupt := 0 } }

/-- STRAP_SAMPLE (R371, R431, R432): once at each entry to AUX from DARK; later it only shows DIFFERS. -/
def execStrapSample (lane : BitVec 6) (headmode boathouseN testmodeN : Bool) (s : State) :
    Host.Outcome State Fault Refusal :=
  if !s.seq.vddAon then .next s
  else if s.boot.sampled then
    .next (s.onBoot fun b =>
      { b with differs := decide (lane ≠ b.lane) || decide (headmode ≠ b.headmode) ||
          decide (boathouseN = b.boathouse) || decide (testmodeN = b.testmode) })
  else if s.seq.st ≠ .aux then .next s
  else
    let s := s.onBoot fun b =>
      { b with lane := lane, headmode := headmode, boathouse := !boathouseN, testmode := !testmodeN
               differs := false, sampled := true }
    .next (s.onBus fun b => { b with mgmt := { b.mgmt with address := BitVec.ofNat 7 (0x20 + lane.toNat) } })

/-- MINIMUM_DARK_TIME (R287). -/
def execMinimumDarkTime (s : State) : Host.Outcome State Fault Refusal :=
  if s.seq.st = .dark ∧ s.seq.vddAon ∧ s.seq.dir ≠ .cut ∧ auxLatch s = false then .next (toAux s) else .next s

/-- The descriptor of the code in force is read at AUX entry (R308, R310): while it is invalid both strings fail with
DESCRIPTOR; a valid one after an invalid one is a pack change. Before any code is known nothing is read. -/
def readDescriptor (intact : Bool) (s : State) : State :=
  match s.bat.packid with
  | none => s.onBat fun g => { g with desc := none }
  | some k =>
    let had := s.bat.desc.isSome
    let s := s.onBat fun g => { g with desc := descriptorAt s.cfg k intact }
    if s.bat.desc.isSome && !had then afterPack (packChange .b (packChange .a s))
    else descriptorCheck .b (descriptorCheck .a s)

/-- What AUX entry reads from serial memory (R437, R438, R444, R445): the copies in force, the rails'
configuration, the descriptor. Without a valid profile no rail is enabled and CATCH is released. -/
def profileOp (found : ProfileIn) (s : State) : State :=
  let s := s.onBoot fun b =>
    { b with
      profileOk := found.valid, profileCopy := found.copy, bootcfg := found.bootcfg.val
      settings := found.settings.val, failedRead := sat 3 b.failedBoots }
  if !found.valid then recordFree 6 0x6000 0 (s.onSeq fun q => { q with catchDrive := false })
  else
    let s := s.onSeq fun q => { q with railCfg := s.od.railCfg, mask := BitVec.ofNat 16 s.od.set.railMask }
    let s := readDescriptor found.descriptorValid s
    takeHeadUnits (if found.settings = 0 ∧ s.upd.trial ≠ 1 then
      recordFree 5 0x7000 0 (s.onOd fun o => { o with set := defaultSettings s.cfg }) else s)

/-- BOARD_PROFILE_READ (R287, R438). -/
def execBoardProfileRead (found : ProfileIn) (s : State) : Host.Outcome State Fault Refusal :=
  if s.seq.st = .aux ∧ s.boot.profileOk = false then .next (applyPorts (profileOp found s)) else .next s

/-- BOARD_PROFILE_RETRY (R444): the profile is read again every second; a failure is staged once, at the
first read. -/
def execBoardProfileRetry (found : ProfileIn) (s : State) : Host.Outcome State Fault Refusal :=
  if s.seq.st = .aux ∧ s.boot.profileOk = false ∧ found.valid then .next (applyPorts (profileOp found s)) else .next s

/-! ## CATCH (R286 to R291) -/

/-- VIN_SENSE has been above its threshold for 1 ms (R286). -/
def mainStable (s : State) : Bool :=
  match s.seq.mainSince with
  | some t => s.seq.mainOk && decide (t + nsPerMs ≤ s.tb.now)
  | none => false

/-- Ready to leave AUX (R286). -/
def readyAux (s : State) : Bool :=
  decide (s.seq.st = .aux) && s.boot.profileOk && s.seq.complete && mainStable s && !s.seq.latched &&
    !s.seq.holdAux && (decide (s.od.set.autoOn = 1) || s.seq.onCommand)

/-- AUX_READY (R286, R288): the device releases CATCH, or, with CATCH high, pulses it low for 10 µs. -/
def execAuxReady (s : State) : Host.Outcome State Fault Refusal :=
  if !readyAux s || s.seq.staggering then .next s
  else if s.seq.catchDrive then .next (s.onSeq fun q => { q with catchDrive := false })
  else if s.seq.catchIn then
    .next (s.onSeq fun q => { q with catchDrive := true, catchPulse := true, catchIn := false })
  else .next s

/-- CATCH_PULSE_END (R288). -/
def execCatchPulseEnd (s : State) : Host.Outcome State Fault Refusal :=
  if s.seq.catchPulse then .next (s.onSeq fun q => { q with catchDrive := false, catchPulse := false }) else .next s

/-- MAIN_POWER_ABSENT_TIMEOUT (R288). -/
def execMainPowerAbsentTimeout (s : State) : Host.Outcome State Fault Refusal :=
  if s.seq.st = .aux ∧ s.seq.complete ∧ s.seq.mainOk = false then
    .next (s.onSeq fun q => { q with mainAbsent := true, catchDrive := false })
  else .next s

/-- The state after one of the climb. -/
def nextState : SeqSt → SeqSt
  | .dark => .aux
  | .aux => .core
  | .core => .memory
  | .memory => .flash
  | .flash => .link
  | _ => .online

/-- CATCH_RISING_EDGE (R287, R288, R290): a device that waits moves on; leaving AUX, after its stagger. -/
def execCatchRisingEdge (s : State) : Host.Outcome State Fault Refusal :=
  let s := s.onSeq fun q => { q with catchIn := true }
  if readyAux s && !s.seq.staggering then
    if s.boot.lane.toNat * s.od.set.staggerMs = 0 then finish (startState .core s)
    else .next (s.onSeq fun q => { q with staggering := true, dir := .up })
  else if s.seq.complete && decide (s.seq.dir = .up) && decide (2 ≤ s.seq.st.num ∧ s.seq.st.num ≤ 5) then
    finish (startState (nextState s.seq.st) s)
  else .next s

/-- LANE_STAGGER_EXPIRY (R290): a hold that came in the stagger has ended it (R297). -/
def execLaneStaggerExpiry (s : State) : Host.Outcome State Fault Refusal :=
  if s.seq.staggering && !s.seq.holdAux && !s.seq.latched then finish (startState .core s) else .next s

/-- CATCH_RESYNC (R291): a climbing device powers down to DARK and climbs again; one that waits in AUX is not affected, but for
the level of CATCH; everything else counts it. -/
def execCatchResync (s : State) : Host.Outcome State Fault Refusal :=
  if !s.seq.vddAon then .next s
  else if s.seq.st = .aux ∧ s.seq.dir ≠ .down ∧ s.seq.latched = false then .next (s.onSeq fun q => { q with catchIn := false })
  else
    let s := s.onSeq fun q => { q with resyncs := satInc 0xFF q.resyncs, catchIn := false }
    if decide (2 ≤ s.seq.st.num ∧ s.seq.st.num ≤ 5) && decide (s.seq.dir = .up) && !saving s && !s.seq.latched then
      finish (record 0x0605 2 0x6000 0xFF (powerDownDark true s))
    else .next s

/-- CATCH_GLITCH (R291). -/
def execCatchGlitch (s : State) : Host.Outcome State Fault Refusal :=
  if s.seq.vddAon then .next (s.onSeq fun q => { q with glitches := satInc 0xFF q.glitches }) else .next s

/-- The device waits for a rising edge (R288). -/
def waitsEdge (s : State) : Bool :=
  readyAux s || (s.seq.complete && decide (s.seq.dir = .up) && decide (2 ≤ s.seq.st.num ∧ s.seq.st.num ≤ 5))

/-- STEP_LIMIT_WAIT (R289): recorded once in a state; nothing moves. -/
def execStepLimitWait (s : State) : Host.Outcome State Fault Refusal :=
  if waitsEdge s && !s.seq.waitRecorded then
    .next (record 0x0604 4 0x6000 0xFF (s.onSeq fun q => { q with waitRecorded := true }))
  else .next s

/-! ## Descent (R281, R287, R293) -/

/-- RAIL_OFF_DELAY (R293). -/
def execRailOffDelay (n : Fin 16) (s : State) : Host.Outcome State Fault Refusal :=
  if s.seq.dir = .down ∧ s.seq.reversing = false ∧ (downRail s n.val || decide ((railCfgAt s n.val).state = s.seq.st.num)) = true
      ∧ (railAt s n.val).en then
    .next (railDisable n.val s)
  else .next s

/-- The reset outputs released in state `k` or above it assert as its rails go (R298), with FLS_WP_N (R479). -/
def assertResets (k : Nat) (s : State) : State :=
  (s.onFlash fun f => { f with wpN := f.wpN || decide (k ≤ s.od.frstState) }).onSeq fun q =>
    { q with mrst := q.mrst || decide (k ≤ s.od.mrstState), frst := q.frst || decide (k ≤ s.od.frstState) }

/-- After a failure to rise, the next rail in reverse order is disabled once none is falling (R287); after
the last one the device is in DARK. -/
def reverseNext (s : State) : State :=
  if s.seq.rails.any fun r => decide (r.phase = .falling) then s
  else match s.seq.enabled.getLast? with
    | some n => railDisable n (assertResets (railCfgAt s n).state s)
    | none => enterDark (flushCounts s)

/-- A rail is off: the descent goes on (R287, R293). -/
def railGone (n : Nat) (s : State) : State :=
  let s := onRail n (fun r => { r with phase := .off, warn := false, fault := false }) s
  if s.seq.reversing then reverseNext s
  else if s.seq.dir = .down then descend 7 s
  else s

/-- RAIL_FALLEN (R280, R293). -/
def execRailFallen (n : Fin 16) (code : BitVec 12) (s : State) : Host.Outcome State Fault Refusal :=
  if (railAt s n.val).phase ≠ .falling then .next s
  else finish (railGone n.val (vmonSample n.val code (onRail n.val (fun r => { r with pgood := false }) s)))

/-- FALL_TIMEOUT (R281, R284): counted, and the descent goes on; not evaluated after a cut. The level of PGOOD then is a free
value (R301, log 1). -/
def execFallTimeout (n : Fin 16) (s : State) : Host.Outcome State Fault Refusal :=
  if (railAt s n.val).phase ≠ .falling ∨ s.seq.dir ≠ .down then .next s
  else
    let s := onRail n.val (fun r =>
      { r with pgood := decide (Config.freeBits 1 s.free = 1)
               counts := { r.counts with noFall := satInc 0xFFFF r.counts.noFall } }) { s with free := s.free + 1 }
    finish (railGone n.val (record 0x0603 4 0x6000 n.val s))

/-- RISE_TIMEOUT (R281, R287, R294): latched; every enabled rail is disabled in reverse order. -/
def execRiseTimeout (n : Fin 16) (s : State) : Host.Outcome State Fault Refusal :=
  if (railAt s n.val).phase ≠ .rising ∨ s.seq.dir = .down then .next s
  else
    let s := onRail n.val (fun r =>
      { r with counts := { r.counts with noRise := satInc 0xFFFF r.counts.noRise } }) s
    let s := setLatch 2 n.val (record 0x0602 6 0x6000 n.val s)
    let s := s.onSeq fun q =>
      { q with dir := .down, target := .dark, reversing := true, catchDrive := false, catchPulse := false
               staggering := false, onCommand := false, complete := false
               mrstStretch := false, frstStretch := false }
    finish (reverseNext s)

/-! ## Supervision (R280 to R284, R297) -/

/-- Undervoltage and power-good are not evaluated (R283): VIN_SENSE is below its threshold, and neither has it come back nor
did BATSW_N assert 1 ms ago. -/
def evalOff (s : State) : Bool := !s.seq.mainOk && !s.seq.evalOn

/-- Rail `n` is supervised: used and in the mask (R303). -/
def supervised (s : State) (n : Nat) : Bool :=
  decide ((railCfgAt s n).state ≠ 0) && s.seq.mask.getLsbD n && s.seq.vddAon

/-- HOLD_AUX sets in AUX (R288, R290, R297): CATCH is released, and a stagger that runs leads nowhere. -/
def holdInAux (s : State) : State :=
  s.onSeq fun q =>
    { q with holdAux := true, catchDrive := false, catchPulse := false, staggering := false
             dir := if q.staggering then .steady else q.dir }

/-- What a warning on a SAVE_CRITICAL rail does (R282). -/
def criticalWarning (s : State) : State :=
  if saving s || decide (s.seq.dir = .down) then s
  else if memReady s && !boathouse s then trigger .rail s
  else if darkOrAux s then holdInAux s
  else powerDownTo .aux true s

/-- RAIL_WARNING (R281, R282, R283). -/
def execRailWarning (n : Fin 16) (ov : Bool) (code : BitVec 12) (s : State) : Host.Outcome State Fault Refusal :=
  let r := railAt s n.val
  let seen := supervised s n.val && (if ov then decide (r.phase ≠ .off) else decide (r.phase = .on) && !evalOff s)
  if !seen then .next (if supervised s n.val then vmonSample n.val code s else s)
  else
    let crit := (railCfgAt s n.val).saveCritical
    let s := vmonSample n.val code (onRail n.val (fun r =>
      { r with
        counts := if ov then { r.counts with ov := satInc 0xFFFF r.counts.ov }
          else { r.counts with uv := satInc 0xFFFF r.counts.uv } }) s)
    let s := record 0x0600 (if crit then 5 else 3) 0x6000 n.val s
    finish (if crit && decide (r.phase = .on) then criticalWarning s else s)

/-- The rails that a fault in the same cycle as this cut would name (R297). -/
def markCut (n : Nat) (s : State) : State :=
  let live := ((List.range 16).filter fun k => decide (k ≠ n) && decide ((railAt s k).phase ≠ .off)).map fun k =>
    (k, decide ((railAt s k).phase = .on))
  s.onSeq fun q => { q with cutMark := some { time := s.tb.now, rails := live, latches := !q.latched } }

/-- A fault of rail `n` in the cycle of the cut (R297): it is counted, and LATCH_RAIL names the lower-numbered rail. -/
def secondFault (n : Nat) (m : CutMark) (s : State) : State :=
  let s := onRail n (fun r => { r with counts := { r.counts with faults := satInc 0xFFFF r.counts.faults } }) s
  let s := s.onSeq fun q =>
    { q with cutMark := some { m with rails := m.rails.filter fun x => decide (x.1 ≠ n) }
             latchRail := if m.latches then min n q.latchRail else q.latchRail }
  s.onBoot fun b => { b with latchSavedRail := if m.latches then min n b.latchSavedRail else b.latchSavedRail }

/-- The fault cut of this cycle in which rail `n` was live (R297). -/
def cutNow (n : Nat) (soft : Bool) (s : State) : Option CutMark :=
  s.seq.cutMark.filter fun m =>
    decide (m.time = s.tb.now) && m.rails.any fun x => decide (x.1 = n) && (!soft || (x.2 && !evalOff s))

/-- The fault cut (R150, R284, R294): the latch, the last gasp when memory is ready or a save runs, and the
cut. A fault on the LEDGER_HOLD rail itself leaves none on, and the last gasp writes to the root area. -/
def faultCut (n : Nat) (s : State) : State :=
  let own := decide (holdRail s = some n)
  let s := markCut n s
  let s := setLatch 1 n s
  if (memReady s && !boathouse s) || saving s then
    dropLedgerHold (cutRails (!own) (gaspAny 4 own s))
  else cutRails (!own) s

/-- RAIL_FAULT (R280, R281, R283, R284). -/
def execRailFault (n : Fin 16) (kind : RailFaultKind) (code : BitVec 12) (s : State) :
    Host.Outcome State Fault Refusal :=
  let r := railAt s n.val
  let hard := match kind with
    | .ovFault => true
    | .overcurrent => (railCfgAt s n.val).pgIsOc
    | _ => false
  let soft := match kind with
    | .uvFault => true
    | .powerGoodLoss => !(railCfgAt s n.val).pgIsOc
    | _ => false
  let seen := supervised s n.val &&
    ((hard && decide (r.phase ≠ .off)) || (soft && decide (r.phase = .on) && !evalOff s))
  let low := decide (kind = .powerGoodLoss) || decide (kind = .overcurrent)
  let s := if supervised s n.val then vmonSample n.val code (onRail n.val (fun r => { r with pgood := r.pgood && !low }) s) else s
  match cutNow n.val soft s, hard || soft, seen with
  | some m, true, _ => finish (secondFault n.val m s)
  | _, _, false => .next s
  | _, _, true =>
    let s := onRail n.val (fun r => { r with counts := { r.counts with faults := satInc 0xFFFF r.counts.faults } }) s
    let s := record 0x0601 6 0x6000 n.val s
    if r.phase = .falling then finish (cutRails false (setLatch 3 n.val s)) else finish (faultCut n.val s)

/-- RAIL_EVAL_RESUME (R283). -/
def execRailEvalResume (s : State) : Host.Outcome State Fault Refusal :=
  if s.seq.batsw then .next (s.onSeq fun q => { q with evalOn := true }) else .next s

/-- JUNCTION_TEMPERATURE (R57, R151, R487): the hottest sensor. -/
def execJunctionTemperature (celsius : Int) (s : State) : Host.Outcome State Fault Refusal :=
  if darkOrAux s then .next s
  else
    let s := s.onCxl fun c => { c with tempC := celsius }
    let s := if saving s && decide (115 ≤ celsius) then halve s else s
    if 120 ≤ celsius then finish (raise 0x6000 .f 0x10 0xF 0x6000 0 0 s)
    else if saving s then finish s
    else if 115 ≤ celsius then finish (recordFree 5 0x6000 0 s)
    else if 105 ≤ celsius then finish (recordFree 4 0x6000 0 s)
    else .next s

/-! ## On, off, latch clear (R292, R293, R295, R297) -/

/-- The off command by the rows of R292, in order: its status and the state. -/
def offOp (s : State) : Nat × State :=
  if s.seq.dir = .cut then (stState, s)
  else if s.seq.st = .dark ∨ s.seq.st = .aux then (stOk, holdInAux s)
  else if saving s ∨ s.seq.shutdown = .draining ∨ s.seq.shutdown = .checkpointed ∨ s.seq.dir = .down then (stState, s)
  else if s.seq.st = .online ∧ memReady s ∧ s.rst.committed ∧ s.seq.mainOk then (stOk, beginShutdown s)
  else if s.seq.mainOk = false then (stState, s)
  else if inWindow s then (stOk, s.onSeq fun q => { q with shutdown := .waiting })
  else if memReady s = false ∨ boathouse s then (stOk, powerDownTo .aux true s)
  else (stState, s)

/-- OFF_COMMAND (R292). -/
def execOffCommand (p : Path) (s : State) : Host.Outcome State Fault Refusal :=
  if turnedAway s p then .next (turnAway p s) else finish (serve p 0x3001 [0, 1, 2] (offOp s) s)

/-- The on command (R287, R293, R297, R303): its status and the state. -/
def onOp (s : State) : Nat × State :=
  if s.seq.latched ∨ saving s ∨ s.seq.dir = .cut ∨ s.seq.st = .aux ∧ s.seq.dir ≠ .down ∧ s.seq.mainOk = false then (stState, s)
  else if s.seq.st = .aux ∧ s.seq.dir ≠ .down ∨ s.seq.st = .dark then
    (stOk, s.onSeq fun q => { q with holdAux := false, holdVinFell := false, onCommand := true })
  else if s.seq.dir = .down then
    (stOk, s.onSeq fun q => { q with holdAux := false, onPending := true, target := .dark })
  else if s.seq.shutdown ≠ .none then (stOk, s.onSeq fun q => { q with onPending := true })
  else (stOk, s)

/-- ON_COMMAND (R287, R303). -/
def execOnCommand (p : Path) (s : State) : Host.Outcome State Fault Refusal :=
  if turnedAway s p then .next (turnAway p s) else finish (serve p 0x3001 [0, 1, 2] (notInBoathouse s (onOp s)) s)

/-- The latch is cleared, in serial memory too (R295, R439), and ALERT_N with the last reason of ATTENTION (R374, R381); a device held in DARK whose dark time has
passed goes to AUX (R287). -/
def latchClearOp (s : State) : State :=
  let s := s.onSeq fun q => { q with latched := false, latchCause := 0, latchRail := 0 }
  let s := onPort .mgmt (fun b => { b with alert := b.alert && (statusByte s).getLsbD 7 }) s
  let s := latchRecord (s.onBoot fun b => { b with latchSaved := false, latchSavedCause := 0, latchSavedRail := 0 })
  if s.seq.st = .dark ∧ s.seq.dir ≠ .cut ∧ s.seq.darkSince + s.od.set.darkMs * nsPerMs ≤ s.tb.now then toAux s else s

/-- A write to 0x3002 (R295, R303). -/
def latchWrite (v : Byte) (s : State) : Nat × State :=
  if v ≠ 1 then (stRange, s) else if !s.seq.latched then (stState, s) else (stOk, latchClearOp s)

/-- LATCH_CLEAR (R295, R303): platform privilege only. -/
def execLatchClear (p : Path) (v : Byte) (s : State) : Host.Outcome State Fault Refusal :=
  if turnedAway s p then .next (turnAway p s) else finish (serve p 0x3002 [1] (notInBoathouse s (latchWrite v s)) s)

/-! ## Clean shutdown and failed boots (R160, R178, R292, R442) -/

/-- The checkpoint under way, with its directory's place, once all of it is written (R104). -/
def checkpointReady (s : State) : Option (ChunkWrite × (Nat × Nat)) :=
  s.lake.chunkWrite.bind fun w => (chunksWritten w).map fun dir => (w, dir)

/-- CLEAN_SHUTDOWN_DRAINED (R104, R178, R292): the residue is 0 and the checkpoint, whose chunks and directory are written,
is committed. -/
def execCleanShutdownDrained (s : State) : Host.Outcome State Fault Refusal :=
  if s.seq.shutdown = .draining ∧ s.pm.residue = 0 ∧ frozen s = false ∧ anyMember s then
    match checkpointReady s with
    | some w => finish ((checkpointOp w.1 w.2 s).onSeq fun q => { q with shutdown := .checkpointed })
    | none => .next s
  else .next s

/-- SHUTDOWN_CLEAN (R160, R292): the commit, then the power-down to AUX with HOLD_AUX. -/
def execShutdownClean (s : State) : Host.Outcome State Fault Refusal :=
  if s.seq.shutdown = .checkpointed ∧ frozen s = false ∧ anyMember s then
    let s := commit (.shutdownClean s.lake.checkpointSeq s.host.epoch s.host.settled
      (Config.lostListPlace s.lake.checkpointSeq)) s
    finish (powerDownTo .aux true s)
  else .next s

/-- What makes a boot fail can be (R442): no crew is a member, or a coxswain's watchdog expired, once CORE was entered; a
chip fatal may have brought the device down already. -/
def failCauseHolds (s : State) : BootFail → Bool
  | .chipFatal => true
  | .noMember => !darkOrAux s && !anyMember s
  | .watchdog => !darkOrAux s

/-- FAILED_BOOT (R414, R442): before RESTORED; counted, recorded, and the device powers down to DARK, from where it starts
again. -/
def execFailedBoot (cause : BootFail) (s : State) : Host.Outcome State Fault Refusal :=
  if s.rst.committed || boathouse s || !s.seq.vddAon || !failCauseHolds s cause then .next s
  else
    let s := s.onBoot fun b => { b with failedBoots := satInc 0xFF b.failedBoots }
    let s := bootWrite (trialStops 3 s)
    let s := recordFree 6 0x7000 0 s
    finish (if darkOrAux s || decide (s.seq.dir = .down) then s else powerDownDark true s)

end Sys2Proof.Machine
end

