-- ==== Sys2Proof/Machine/Dram.lean ====
section
/-! DEFINITION. Commands of the DRAM side (R185 to R198): block resets and their end, alerts, repairs, the oar's
duties, training, and a channel named by CHANNEL_ISOLATED. -/

namespace Sys2Proof.Machine

/-! ## Block resets (R194 to R196) -/

/-- A fault that needs a running oar or scheduler of the channel can be found in it. -/
def channelLive (s : State) (ch : Nat) : Bool :=
  decide ((chAt s ch).state = .active ∨ (chAt s ch).state = .selfRefresh ∨ (chAt s ch).state = .blockReset)

/-- The F-class fault of a cause (R194, R256, R259): the oar's own faults are charged to the oar, with its
program counter in DETAIL, which the rules leave open (log 1); the rest to cell 0 with KEY 0xFF. -/
def resetFault (ch : Nat) (cause : ResetCause) (s : State) : State :=
  let oar (key : BitVec 8) : State :=
    raise (ddrId ch 2) .f key 0x9 (ddrId ch 2) 0 (Config.freeBits 16 s.free).toNat { s with free := s.free + 1 }
  match cause with
  | .oarWatchdog => oar 0
  | .oarSram => oar 1
  | _ => raise (ddrId ch 0) .f 0xFF 0xF (ddrId ch 0) 0 0 s

/-- BLOCK_RESET (R194 to R196): the capture's reaction starts the reset, or isolates the channel. -/
def execBlockReset (ch : Fin 8) (cause : ResetCause) (s : State) : Host.Outcome State Fault Refusal :=
  if channelLive s ch.val then finish (resetFault ch.val cause s) else .next s

/-- The DRAM oar is loaded from the active image, and its coxswain grants it its windows (R21, R23, R194). -/
def oarReloadDram (ch : Nat) (s : State) : State :=
  onCh ch (fun c => { c with oarSlot := some s.upd.active, windows := dramWindows ch }) s

/-- DRAM_OAR_RELOAD (R194 step 5, R196): from either coxswain; the other's copy repeats it. -/
def execDramOarReload (_crew : Crew) (ch : Fin 8) (s : State) : Host.Outcome State Fault Refusal :=
  if frozen s || !channelLive s ch.val then .next s else .next (oarReloadDram ch.val s)

/-- Step 9 for the writes received since step 1 (R194): admitted, and completed unless the fence has fallen. -/
def admitReset (ch : Nat) (s : State) : State :=
  let mine (e : WEntry) : Bool := decide (e.phase = .inReset ∧ channelOfPage s (pageOf e.line) = ch)
  let go := s.wb.entries.filter mine
  let s := s.onWb fun w =>
    { w with entries := w.entries.map fun e => if mine e then { e with phase := .admitted } else e }
  if s.host.fence then s else go.foldl (fun s e => say (.complete e.head e.id) s) s

/-- The writes that waited for their map lines in the channel are decided, in arrival order (R90, R194). -/
def testWaiting (ch : Nat) : Nat → State → State
  | 0, s => s
  | n + 1, s =>
    match firstIdx (fun e => decide (e.phase = .mapWait) && decide (mapChannel s (pageOf e.line) = ch)) s.wb.entries 0 with
    | none => s
    | some (i, e) => testWaiting ch n (testOrWait i e s)

/-- Steps 7 to 9 of a block reset (R194): one all-bank refresh, the re-queued reads, the replay of the channel's
writes in arrival order, the completions, and the end of the reset's shadow (R268). -/
def endBlockReset (ch us : Nat) (s : State) : State :=
  let s := onCh ch (fun c =>
    { c with
      state := .active, lastReset := sat 0xFF us, refreshes := c.refreshes + 1, postponed := 0
      oarSlot := some (c.oarSlot.getD s.upd.active), windows := dramWindows ch }) s
  let s := release (fun r => decide (r.why = .reset) && decide (channelOfPage s (pageOf r.line) = ch)) s
  let s := admitReset ch s
  let s := flush (fun e => decide (channelOfPage s (pageOf e.line) = ch)) s
  let s := if s.host.fence then s else testWaiting ch s.wb.entries.length s
  let s := shadowDone (ddrId ch 0) (wakeJobs ch s)
  if s.frz.waiting then tryFreeze s else s

/-- BLOCK_RESET_DONE (R194, R195): a refused self-refresh entry, or a step past its bound, isolates the channel;
the whole reset is bounded by 250 µs. -/
def execBlockResetDone (ch : Fin 8) (us : Nat) (ok : Bool) (s : State) : Host.Outcome State Fault Refusal :=
  if (chAt s ch.val).state ≠ .blockReset then .next s
  else if !ok || decide (250 < us) then finish (isolate ch.val (chAt s ch.val).resetParent s)
  else finish (endBlockReset ch.val us s)

/-- CHANNEL_ISOLATED (R195, R197): the commit names the channel. -/
def execChannelIsolated (ch : Fin 8) (s : State) : Host.Outcome State Fault Refusal :=
  let c := chAt s ch.val
  if (c.state = .isolated ∨ c.out = true) ∧ c.named = false then
    finish (commit (.channelIsolated ch.val) (onCh ch.val (fun c => { c with named := true }) s))
  else .next s

/-- DDR_ALERT (R186): up to three failures are only reissued; the fourth starts a block reset. A write CRC
failure is charged to the cell of the device that reported it, with the write's address and syndrome free
(log 1); a parity failure to the channel as a whole (R256, R259). -/
def execDdrAlert (ch : Fin 8) (sub : Fin 2) (kind : AlertKind) (failures : Nat) (s : State) :
    Host.Outcome State Fault Refusal :=
  if !channelLive s ch.val || decide (failures < 4) then .next s
  else match kind with
    | .parity => finish (resetFault ch.val .fourthFailure s)
    | .writeCrc dev =>
      let m := ddrId ch.val sub.val
      finish (raise m .f (BitVec.ofNat 8 dev.val) 0x1 m (Config.freeNat s.free)
        (Config.freeBits 16 (s.free + 1)).toNat { s with free := s.free + 2 })

/-! ## Repairs (R187) -/

/-- The unit a page's mapping entry names. -/
def repairUnit (s : State) (line : Nat) : Option FlashUnit := mappedUnit s (pageOf line)

/-- The line's bytes in a unit. -/
def unitLine (u : FlashUnit) (line : Nat) : List Byte :=
  (List.range 64).map fun k => tabGet 0 (line % linesPerPage * 64 + k) u.cells

/-- Who met the error of a line under repair: the first host read that waits, else the channel's oar in
scrub (R258). -/
def repairAccess (s : State) (line : Nat) : Fin 16 × MasterId :=
  match s.wb.reads.find? fun r => decide (r.why = .repair ∧ r.line = line) with
  | some r => (0, headPort r.head)
  | none => (8, ddrId (channelOfPage s (pageOf line)) 2)

/-- The line is rewritten without poison and counts as correctable (R187, R200). The decoder names no device, so
KEY is 0xFE, and its syndrome is a free value (R259, log 1). -/
def repairLine (line : Nat) (u : FlashUnit) (s : State) : State :=
  let a := repairAccess s line
  let s := writeBytes (line * 64) (unitLine u line) (setPoison line (u.poison.contains (line % linesPerPage)) s)
  let s := onCh (channelOfPage s (pageOf line)) (fun c => { c with ce := satInc 0xFFFFFF c.ce }) s
  raise (cellOf s line) .c 0xFE a.1 a.2 (line * 64) (Config.freeBits 16 s.free).toNat { s with free := s.free + 1 }

/-- The repair fails, or its data is discarded because the page is CLEAN no longer (R187): the line keeps its
marker. A failed repair leaves an uncorrectable line, whose syndrome is free (log 1). -/
def repairFails (line : Nat) (ok : Bool) (s : State) : State :=
  if ok || !linePoison s line then s
  else
    let a := repairAccess s line
    uncorrectable line (Config.freeBits 16 s.free) a.1 a.2 { s with free := s.free + 1 }

/-- LAKEBED_REPAIR_DONE (R187): then the reads that waited are answered. -/
def execLakebedRepairDone (line : Nat) (ok : Bool) (s : State) : Host.Outcome State Fault Refusal :=
  if frozen s || inBlockReset s (pageOf line) then .next s
  else
    let s' := match repairUnit s line with
      | some u => if ok && repairable s line && linePoison s line then repairLine line u s else repairFails line ok s
      | none => repairFails line ok s
    finish (release (fun r => decide (r.why = .repair ∧ r.line = line)) s')

/-- REPAIR_READ_TIMEOUT (R187): the read returns poison; the repair goes on. -/
def execRepairReadTimeout (id : Nat) (s : State) : Host.Outcome State Fault Refusal :=
  if frozen s then .next s
  else match s.wb.reads.find? fun r => decide (r.why = .repair ∧ r.id = id) with
    | none => .next s
    | some r =>
      finish (answerPoison r.head id (s.onWb fun w => { w with reads := w.reads.filter (· ≠ r) }))

/-! ## Duties of the channel (R188, R190, R191) -/

/-- The oar runs: its channel is active, its microcode is loaded, and no clock is stopped. -/
def oarRuns (s : State) (ch : Nat) : Bool :=
  decide ((chAt s ch).state = .active) && (chAt s ch).oarSlot.isSome && !frozen s

/-- A burst is scheduled on the channel. -/
def burstsOn (s : State) (ch : Nat) : Bool :=
  s.wb.entries.any fun e => decide (channelOfPage s (pageOf e.line) = ch)

/-- Refresh-management commands that a running oar has issued since the tick before (R188, R190): as many as the devices'
thresholds asked for, where their mode registers require them; a free number (log 76). -/
def managedNow (s : State) (ch : Nat) : Nat :=
  if s.cfg.refreshManagement && oarRuns s ch then Config.freeNat (s.free + 1) else 0

/-- REFRESH_TICK (R188, R190): hardwired, so with the oar held too. Whether a refresh is postponed behind
scheduled bursts, at most 4 times, is a free value (log 1). -/
def execRefreshTick (ch : Fin 8) (s : State) : Host.Outcome State Fault Refusal :=
  if (chAt s ch.val).state ≠ .active ∨ frozen s = true then .next s
  else
    let wait := burstsOn s ch.val && decide ((chAt s ch.val).postponed < 4) && decide (Config.freeNat s.free % 2 = 1)
    .next (onCh ch.val (fun c =>
      let c := { c with managed := c.managed + managedNow s ch.val }
      if wait then { c with postponed := c.postponed + 1 }
      else { c with refreshes := c.refreshes + c.postponed + 1, postponed := 0 }) { s with free := s.free + 2 })

/-- ZQ_CALIBRATION (R188). -/
def execZqCalibration (ch : Fin 8) (s : State) : Host.Outcome State Fault Refusal :=
  if oarRuns s ch.val then .next (onCh ch.val (fun c => { c with lastZq := s.tb.now }) s) else .next s

/-- DQS_TRACKING (R188). -/
def execDqsTracking (ch : Fin 8) (s : State) : Host.Outcome State Fault Refusal :=
  if oarRuns s ch.val then .next (onCh ch.val (fun c => { c with lastDqs := s.tb.now }) s) else .next s

/-- A severity-5 record of a hot channel is due: none in the last hour (R190). -/
def hotDue (s : State) (ch : Nat) : Bool :=
  match (chAt s ch).hotRecord with
  | none => true
  | some t => decide (t + nsPerH ≤ s.tb.now)

/-- DRAM_TEMPERATURE_READ (R190): tREFI halves above 85 degrees; above 95 a record once an hour. -/
def execDramTemperatureRead (ch : Fin 8) (maxC : Int) (s : State) : Host.Outcome State Fault Refusal :=
  if !oarRuns s ch.val then .next s
  else
    let due := decide (95 < maxC) && hotDue s ch.val
    let s := onCh ch.val (fun c =>
      { c with devTempC := maxC, hot := decide (85 < maxC)
               hotRecord := if due then some s.tb.now else c.hotRecord }) s
    if due then finish (record 0x0C01 5 (ddrId ch.val 0) 0 s) else .next s

/-- PATROL_SCRUB (R185 to R187, R191): one line of the channel, the reserved area included. -/
def execPatrolScrub (ch : Fin 8) (line : Nat) (res : DramRead) (s : State) : Host.Outcome State Fault Refusal :=
  if !oarRuns s ch.val || decide (channelOfPage s (pageOf line) ≠ ch.val) ||
      decide (s.cfg.installedPages ≤ pageOf line) then .next s
  else
    finish (scrubLine line res (onCh ch.val (fun c => { c with scrubLine := line }) s))

/-! ## Training (R189, R197) -/

/-- Training may use the stored values (R189, R197): the record is in the ledger, where no record of a failed ledger passes
its CRC, it names the declared population, its conditions hold, the channel is not named, and the stored values have not
failed at this start. -/
def usesStored (s : State) (c : DramChannel) : Bool :=
  c.recordValid && !s.ledger.failed && decide (c.recordPop = s.cfg.population) && !c.recordStale && decide ((s.cxl.tempC - c.recordTempC).natAbs ≤ 15) &&
    decide (c.recordVddq = (railCfgAt s 8).nominal) && !c.named && decide (c.training = .none)

/-- The channel serves memory (R189, R23). -/
def trainedWith (t : Training) (c : DramChannel) (slot : Fin 2) (windows : List (Nat × Nat)) : DramChannel :=
  { c with state := .active, training := t, oarSlot := some slot, windows := windows }

/-- A pattern test passed after full training (R189, R197): a new record; a named channel rejoins. -/
def fullPass (ch : Nat) (s : State) : State :=
  let named := (chAt s ch).named
  let s := onCh ch (fun c => trainedWith .full c s.upd.active (dramWindows ch)) s
  let s := commitOp (.trainingRecord (Fin.ofNat 8 ch)) s
  if named then commitOp (.channelRejoined (Fin.ofNat 8 ch)) s else s

/-- A pattern test failed after full training (R189, R197): repeated once, then the channel is out. -/
def fullFail (ch : Nat) (s : State) : State :=
  onCh ch (fun c =>
    if c.fullFails = 0 then { c with fullFails := 1, training := .failed }
    else { c with fullFails := 2, training := .failed, out := true, state := .isolated }) s

/-- TRAINING_DONE (R189, R197). Full training where the stored values could have been used otherwise is that of a record
which fails its CRC. Training checks the declared population against the channel's mode registers (R183): no training of a
channel that shows another passes (DEDUCED, log 75). -/
def execTrainingDone (ch : Fin 8) (stored pass : Bool) (s : State) : Host.Outcome State Fault Refusal :=
  let c := chAt s ch.val
  let pass := pass && decide (s.cfg.populationOf ch.val = s.cfg.population)
  if c.state ≠ .training ∨ frozen s = true ∨ (stored && !usesStored s c) = true then .next s
  else if stored then
    .next (onCh ch.val (fun c =>
      if pass then trainedWith .stored c s.upd.active (dramWindows ch.val) else { c with training := .failed }) s)
  else finish (if pass then fullPass ch.val s else fullFail ch.val s)

end Sys2Proof.Machine
end

