-- ==== Sys2Proof/Machine/Faults.lean ====
section
/-! DEFINITION. Commands of the fault collector (R256 to R277): a report, the grace timer's expiry, the
acknowledgements by their paths, the end of a reset's shadow, and a condition that clears. -/

namespace Sys2Proof.Machine

/-- The fault is that of a condition the unit's record shows as present (R264): it was raised on entry, and no new one is
raised until the condition clears. -/
def standsAlready (s : State) (f : FaultIn) : Bool :=
  let c := capture s f.unit
  f.persists && c.present && decide (c.key = f.key)

/-- FAULT_REPORT (R256, R260, R264, R268): the collector is without supply in DARK and AUX. -/
def execFaultReport (f : FaultIn) (s : State) : Host.Outcome State Fault Refusal :=
  if darkOrAux s || standsAlready s f then .next s else finish (reportFault (maskedBy s f.detector) f s)

/-- GRACE_EXPIRY (R262): of a timer that runs; it stands still while the device is frozen (R461). -/
def execGraceExpiry (unit : MasterId) (s : State) : Host.Outcome State Fault Refusal :=
  if (capture s unit).grace && (capture s unit).sticky && !frozen s then finish (expireGrace unit s) else .next s

/-- A master that may write CHP_FAULT_ACK (R263): a core of a member crew, or JTAG unless its port is disabled (R265). -/
def mayAck (s : State) (m : MasterId) : Bool :=
  (decide (m = 0x0FC0) && !s.fault.jtagOff) ||
    (match crewOfUnit m with
     | some c => unitExists s m && decide (m.toNat / 64 % 64 ≤ 1) && isMember s c
     | none => false)

/-- CHP_FAULT_ACK (R263, R275). -/
def execChpFaultAck (faultId : BitVec 32) (master : MasterId) (s : State) : Host.Outcome State Fault Refusal :=
  if mayAck s master then finish (ack faultId s) else .next s

/-- Acknowledge every U capture that `p` selects (R263, R272). -/
def ackU (p : MasterId → Bool) (s : State) : State :=
  let ids : List Nat := (s.fault.recs.filter fun r =>
    r.2.sticky && decide (r.2.cls = some .u) && !r.2.conseq && p (BitVec.ofNat 16 r.1)).map fun r => r.1
  ids.foldl (fun s n => ack (faultId s (BitVec.ofNat 16 n)) s) s

/-- RAS_STATUS_CLEAR (R263, R272): each status bit that is cleared acknowledges the U captures that set it. -/
def execRasStatusClear (memory internal : Bool) (s : State) : Host.Outcome State Fault Refusal :=
  let mem := memory && s.host.rasMemory
  let int := internal && s.host.rasInternal
  let s := if mem then ackU isDdrCell (s.onHost fun h => { h with rasMemory := false }) else s
  let s := if int then ackU (fun m => !isDdrCell m) (s.onHost fun h => { h with rasInternal := false }) else s
  finish s

/-- A unit whose reset has no row of its own for its end (R265, R268): a two-wire port, the serial-memory controller, or a
head port, whose reset is done when its link layer is released to retrain. No xSPI transaction outlasts the command that
makes it, so a reset of the controller finds none to repeat (log 108). -/
def powerBlock (m : MasterId) : Bool := decide (m = 0x6080 ∨ m = 0x6081 ∨ m = 0x60C0 ∨ m = 0x1000 ∨ m = 0x1040)

/-- A port that leaves its reset is idle (R391). -/
def portBack (m : MasterId) (s : State) : State :=
  let idle (b : BusPort) : BusPort := if b.st = .portReset then { b with st := .idle } else b
  if m = 0x6080 then onPort .mgmt idle s else if m = 0x6081 then onPort .lcl idle s else s

/-- RESET_SHADOW_END (R268): the detectors of a reset that is done are unmasked; of a port, the serial-memory
controller or a head, this command is the end of the reset as well. -/
def execResetShadowEnd (unit : MasterId) (s : State) : Host.Outcome State Fault Refusal :=
  if s.fault.shadows.any fun h => decide (h.unit = unit) && (h.done || powerBlock unit) then
    finish (portBack unit (s.onFault fun f => { f with shadows := f.shadows.filter fun h => decide (h.unit ≠ unit) }))
  else .next s

/-- CONDITION_CLEAR (R264): PRESENT returns to 0; the capture stays. -/
def execConditionClear (unit : MasterId) (s : State) : Host.Outcome State Fault Refusal :=
  if (capture s unit).present then .next (setCapture unit { capture s unit with present := false } s) else .next s

/-- A write to 0x5003 (R263, R266, R277): STATE if the named capture is not held, or is a chip fatal's. -/
def ackWrite (faultId : BitVec 32) (s : State) : Nat × State :=
  if ackNames s faultId && !isFatalCapture s faultId then (stOk, ack faultId s) else (stState, s)

/-- OD_ACKNOWLEDGE (R263, R277). -/
def execOdAcknowledge (p : Path) (faultId : BitVec 32) (s : State) : Host.Outcome State Fault Refusal :=
  if turnedAway s p then .next (turnAway p s) else finish (serve p 0x5003 [0, 1, 2] (notInBoathouse s (ackWrite faultId s)) s)

end Sys2Proof.Machine
end

