-- ==== Sys2Proof/Machine/Planner.lean ====
section
/-! DEFINITION. The margin planner (R421 to R429): the Ergometers, what brings a plan, what it sets, the ramp of
the core voltage, and the plan's record. -/

namespace Sys2Proof.Machine

/-! ## Ergometers (R421) -/

/-- The lower of two slacks. -/
def minSlack (old : Option Int) (x : Int) : Option Int :=
  match old with
  | some y => some (min y x)
  | none => some x

/-- One Ergometer's readings: the lowest slack since the last plan, and the latest drift. -/
def ergoTake (n : Nat) (e : ErgoIn) (s : State) : State :=
  if e.parityOk then
    s.onPlan fun p =>
      { p with slack := listUpd n (fun x => minSlack x e.slack) p.slack, drift := listUpd n (fun _ => e.drift) p.drift
               parity := listUpd n (fun _ => true) p.parity }
  else
    raise 0x0080 .c (BitVec.ofNat 8 (n + 1)) 0xF 0x0080 0 0
      (s.onPlan fun p => { p with parity := listUpd n (fun _ => false) p.parity })

/-- ERGOMETER_MEASURE (R421, R461): 28 readings; none without supply or with the regions' clocks stopped. -/
def execErgometerMeasure (readings : List ErgoIn) (s : State) : Host.Outcome State Fault Refusal :=
  if darkOrAux s || frozen s then .next s
  else finish (((List.range 28).zip readings).foldl (fun s x => ergoTake x.1 x.2 s) s)

/-! ## The target (R424, R425) -/

/-- A value within limits. -/
def clampNat (lo hi x : Nat) : Nat := max lo (min hi x)

/-- A target lands on Power stream 1 (R424): clamped to 700 to 850 mV and to 25 mV from the value in force. -/
def setTarget (mv : Nat) (s : State) : State :=
  let t := clampNat (s.plan.target - 25) (s.plan.target + 25) (clampNat 700 850 mv)
  s.onPlan fun p =>
    { p with
      old := p.target, target := t, ramp := decide (p.voltage ≠ t)
      clamps := if t ≠ mv then satInc 0xFF p.clamps else p.clamps }

/-- The next move of at most 25 mV toward the goal (R425). -/
def moveToGoal (s : State) : State :=
  setTarget (clampNat (s.plan.target - 25) (s.plan.target + 25) s.plan.goal) s

/-- The crews restore the target committed with the last plan (R425); with no plan there is none. -/
def restoreTarget (s : State) : State :=
  match s.plan.last[4]? with
  | some w => moveToGoal (s.onPlan fun p => { p with goal := w.toNat / 65536 % 65536 })
  | none => s

/-- A step succeeded: 5 mV nearer; at the target, the next move or the end of the ramp. -/
def stepDone (s : State) : State :=
  let s := s.onPlan fun p =>
    { p with
      voltage := if p.voltage < p.target then min p.target (p.voltage + 5) else max p.target (p.voltage - 5)
      stepAt := some s.tb.now
      draft := listUpd 11 (fun _ => word s.tb.now) p.draft }
  if s.plan.voltage ≠ s.plan.target then s
  else if s.plan.target ≠ s.plan.goal then moveToGoal s
  else s.onPlan fun p => { p with ramp := false }

/-- A step failed on its retry too (R376, R424): the ramp stops at the last value that succeeded; the event within class 0x0D
and its severity are free values (log 1). -/
def stepFailed (s : State) : State :=
  let s := localFailed (s.onPlan fun p =>
    { p with ramp := false, old := p.target, target := p.voltage, goal := p.voltage, stepAt := some s.tb.now })
  record ((0x0D : BitVec 8) ++ Config.freeBits 8 s.free) (sevOf (Config.freeNat (s.free + 1) % 8)) 0x6081 1
    { s with free := s.free + 2 }

/-- CORE_VOLTAGE_STEP (R424, R425): none while frozen or after the fence. -/
def execCoreVoltageStep (ok : Bool) (s : State) : Host.Outcome State Fault Refusal :=
  if !s.plan.ramp || frozen s || s.host.fence then .next s
  else finish (if ok then busStop .lcl (stepDone s) else stepFailed s)

/-! ## What a plan reads -/

/-- The slacks of a list of Ergometers that count: read, and with their parity good (R421). -/
def slacks (l : List (Option Int × Bool)) : List Int :=
  l.filterMap fun x => if x.2 then x.1 else none

/-- Every Ergometer's slack and parity. -/
def ergos (s : State) : List (Option Int × Bool) := s.plan.slack.zip s.plan.parity

/-- The lowest of a list. -/
def lowestOf : List Int → Option Int
  | [] => none
  | x :: t => match lowestOf t with
    | some y => some (min x y)
    | none => some x

/-- The lowest slack over all Ergometers. -/
def lowest (s : State) : Option Int := lowestOf (slacks (ergos s))

/-- `⌈d ÷ 10⌉` of a positive d. -/
def tens (d : Int) : Nat := ((d + 9) / 10).toNat

/-- The new core voltage target (R423). With no slack read the spec gives no rule, and the target stays. -/
def newTarget (s : State) : Nat :=
  let t := s.plan.target
  match lowest s with
  | none => t
  | some l =>
    if l < 40 then min 850 (t + min 25 (10 * tens (40 - l)))
    else if 80 ≤ l then max 700 (t - 5) else t

/-- The new save-rate derating, in 0.01 % (R423). -/
def newDerate (s : State) : Nat :=
  match lowest s with
  | none => s.plan.derate
  | some l => if l < 40 ∧ newTarget s = 850 then min 5000 (500 * tens (40 - l)) else 0

/-- A channel's training record goes stale (R423). -/
def goesStale (s : State) (c : DramChannel) : Bool :=
  c.recordValid && (decide (2000 < (memoryDrift s - c.recordDrift).natAbs) ||
    decide (c.recordTime + 180 * nsPerDay < age s))

/-- One read-level offset of a class (R426): toward the retry step that most often succeeded, or toward 0. -/
def newOffset (steps : Nat) (toward o : Int) : Int :=
  if o < toward then min toward (o + steps) else max toward (o - steps)

/-- The steps of a class (R426): 2 or 1 toward the successful retry step, 1 toward 0, or none. -/
def offsetRule (c : Nat × Nat) : Nat × Bool :=
  if c.1 < 1000 then (0, false)
  else if 20 * c.1 ≤ 100 * c.2 then (2, true)
  else if 5 * c.1 ≤ 100 * c.2 then (1, true)
  else if 1000 * c.2 < c.1 then (1, false)
  else (0, false)

/-- The retry step that succeeded most often in a class, the lowest among equals, 1 where none did (R216, R426). -/
def bestStep (l : List Nat) : Nat :=
  let m := l.foldl max 0
  1 + (l.findIdx? fun n => decide (n = m)).getD 0

/-- One class's offsets after a plan (R426), each within ±15 as R423 bounds them: its reads, its successes by retry
step, and its offsets before. -/
def newOffsets (reads : Nat × Nat) (steps : List Nat) (l : List Int) : List Int :=
  let r := offsetRule reads
  let goal := Config.retryStep (bestStep steps)
  ((List.range 7).zip l).map fun x => max (-15) (min 15 (newOffset r.1 (if r.2 then goal.getD x.1 0 else 0) x.2))

/-- The offset table after a plan. -/
def newTable (s : State) : List (List Int) :=
  (s.flash.classReads.zip (s.flash.stepReads.zip s.flash.offsets)).map fun x => newOffsets x.1 x.2.1 x.2.2

/-- Classes whose offsets changed, one bit each. -/
def changedClasses (s : State) : Nat :=
  ((List.range 8).zip (s.flash.offsets.zip (newTable s))).foldl (fun n x =>
    if x.2.1 = x.2.2 then n else n + 2 ^ x.1) 0

/-- The projected fade rate of a string, percent per day (R427): none for a string not learned since fitting. -/
def newFade (d : PackDescriptor) (b : BatString) : Option Rat :=
  match b.learned, b.learn with
  | some q, some t =>
    let fade (m : Nat) : Rat := 100 * (1 - (m : Rat) / d.cNom)
    let r := match b.prevLearn with
      | some (p, u) => (fade q - fade p) / daysBetween t u
      | none => fade q / daysBetween t b.fitted
    some (max (1 / 100) (min (1 / 5) r))
  | _, _ => none

/-- A string's projection after a plan; without a descriptor there is none. -/
def fadeOf (s : State) (b : BatString) : Option Rat :=
  match s.bat.desc with
  | some d => newFade d b
  | none => none

/-! ## The plan record (R428) -/

/-- A slack clamped to ±127, in one byte. -/
def slackByte (l : List (Option Int × Bool)) : Nat := twos 8 (max (-127) (min 127 ((lowestOf (slacks l)).getD 0)))

/-- Word 2: the lowest slack of regions 0 to 6, and the die temperature. -/
def slackWord (s : State) : Nat :=
  (List.range 7).foldl (fun n r => n + slackByte (((ergos s).drop (4 * r)).take 4) * 256 ^ r) 0
    + twos 8 s.cxl.tempC * 256 ^ 7

/-- Word 3: drift and subindex of the worst Ergometer, the slowest. -/
def driftWord (s : State) : Nat :=
  let m := (s.plan.drift.zip s.plan.parity).filterMap fun x => if x.2 then some x.1 else none
  match lowestOf m with
  | none => 0
  | some d =>
    let k := ((List.range 28).zip (s.plan.drift.zip s.plan.parity)).find? fun x => x.2.2 && decide (x.2.1 = d)
    twos 32 d * 2 ^ 32 + (match k with
      | some x => x.1 + 1
      | none => 0)

/-- Thousandths of a percent per day. -/
def milliRate (r : Option Rat) : Nat := ((r.getD 0) * 1000).floor.toNat

/-- Words 0 to 11 of a plan that begins now (R428); the budget stands as the plan recomputed it. -/
def planWords (trig : Nat) (s0 s : State) : List Word :=
  [ word (s0.plan.seq + 1), word trig, word (slackWord s0), word (driftWord s0)
  , word (fld 32 16 s0.plan.target + fld 16 16 s.plan.target + fld 0 16 s.plan.clamps)
  , word (((List.range 8).zip s.dram.channels).foldl (fun n x => if x.2.recordStale then n + 2 ^ x.1 else n) 0)
  , word (fld 16 16 s0.plan.derate + fld 0 16 s.plan.derate)
  , word (fld 32 32 (milliRate s.bat.b.fadeRate) + fld 0 32 (milliRate s.bat.a.fadeRate))
  , word (fld 8 8 (sat 0xFF (consumed s)) + b2n s.flash.budgetOver)
  , word (fld 32 32 (milliRate (some (budgetRate s))) + fld 0 8 (changedClasses s0))
  , word s0.tb.now, 0 ]

/-- What a plan sets but the voltage (R423, R426, R427). -/
def planSets (s : State) : State :=
  let d := newDerate s
  let table := newTable s
  let s := s.onDram fun m => { m with channels := m.channels.map fun c =>
    if (goesStale s c) = true then { c with recordStale := true } else c }
  let s := s.onFlash fun f =>
    { f with offsets := table, classReads := List.replicate 8 (0, 0), stepReads := List.replicate 8 (List.replicate 6 0) }
  let s := s.onBat fun g =>
    { g with a := { g.a with fadeRate := fadeOf s g.a }, b := { g.b with fadeRate := fadeOf s g.b } }
  budgetCheck (s.onPlan fun p => { p with derate := d })

/-- A plan ends: committed, recorded, and the next one due in 24 h (R422, R428). -/
def endPlan (s : State) : State :=
  let ws := s.plan.draft
  let s := commitOp .plan s
  let s := recordWith 0x0A00 2 0x0000 0 false false ws s
  s.onPlan fun p =>
    { p with
      running := false, draft := [], last := ws, seq := p.seq + 1, plans := satInc 0xFFFF p.plans
      tempC := s.cxl.tempC, time := s.tb.now, dueAt := age s + nsPerDay
      slack := List.replicate 28 none }

/-- A plan begins (R422, R423): with no change of voltage it ends within this command. -/
def startPlan (trig : Nat) (s : State) : State :=
  let t := newTarget s
  let s1 := planSets s
  let s1 := if t = s.plan.target then s1 else setTarget t (s1.onPlan fun p => { p with goal := t })
  let s2 := s1.onPlan fun p => { p with running := true, draft := planWords trig s s1 }
  if s2.plan.ramp then s2 else endPlan s2

/-! ## Triggers (R422, R425) -/

/-- Number of a trigger in PENDING and in word 1. -/
def planTrigNum : PlanTrig → Nat
  | .timer => 0
  | .temperature => 1
  | .start => 3
  | .kept => 0

/-- No plan runs: from the fence until RESTORED, or while the sending set is empty (R422). -/
def planBlocked (s : State) : Bool := s.host.fence || !s.rst.committed || emptySet s

/-- A trigger is kept (R422). -/
def keepTrigger (n : Nat) (s : State) : State :=
  s.onPlan fun p => { p with pending := p.pending ||| BitVec.ofNat 4 (2 ^ n) }

/-- A trigger merges into the plan that runs (R422, R428 word 1). -/
def mergeTrigger (n : Nat) (s : State) : State :=
  s.onPlan fun p => { p with draft := listUpd 1 (fun w => w ||| word (2 ^ (8 + n))) p.draft }

/-- A trigger arrives (R422, R425): kept while no plan may run or a ramp must finish first; merged into a plan
that runs; else it starts one. -/
def planTrigger (n : Nat) (s : State) : State :=
  if planBlocked s || (s.plan.ramp && (!s.plan.running || decide (n = 1))) then keepTrigger n s
  else if s.plan.running then mergeTrigger n s
  else startPlan n s

/-- The kept triggers act as one plan (R422): the first of them names it, the others are merged. -/
def keptPlan (s : State) : State :=
  match (List.range 4).find? fun n => s.plan.pending.getLsbD n with
  | none => s
  | some n =>
    let others := s.plan.pending.toNat - 2 ^ n
    startPlan (n + 256 * others) (s.onPlan fun p => { p with pending := 0 })

/-- The condition of a trigger holds (R422). -/
def trigHolds (s : State) : PlanTrig → Bool
  | .timer => decide (s.plan.seq ≠ 0 ∧ s.plan.dueAt ≤ age s)
  | .temperature => decide (10 ≤ (s.cxl.tempC - s.plan.tempC).natAbs)
  | .start => memReady s && !s.plan.startCame
  | .kept => decide (s.plan.pending ≠ 0) && !planBlocked s && !s.plan.running && !s.plan.ramp

/-- PLAN_TRIGGER (R422). -/
def execPlanTrigger (trig : PlanTrig) (s : State) : Host.Outcome State Fault Refusal :=
  if darkOrAux s || frozen s || boathouse s || !trigHolds s trig then .next s
  else match trig with
    | .kept => finish (keptPlan s)
    | .start => finish (planTrigger 3 (s.onPlan fun p => { p with startCame := true }))
    | t => finish (planTrigger (planTrigNum t) s)

/-- A write to 0x8003 (R422). -/
def planWrite (v : Byte) (s : State) : Nat × State :=
  if v ≠ 1 then (stRange, s) else if s.plan.running then (stState, s) else (stOk, planTrigger 2 s)

/-- PLAN_REQUEST (R422). -/
def execPlanRequest (p : Path) (v : Byte) (s : State) : Host.Outcome State Fault Refusal :=
  if turnedAway s p then .next (turnAway p s) else finish (serve p 0x8003 [1, 2] (notInBoathouse s (planWrite v s)) s)

/-- RAMP_SLACK_CHECK (R424, R425, R428): the plan is committed; a lowest slack still below 40 ps brings the next
one forward to 60 s from now; a temperature trigger that waited for the ramp runs its plan. -/
def execRampSlackCheck (lowest : Int) (s : State) : Host.Outcome State Fault Refusal :=
  if !s.plan.running || s.plan.ramp || frozen s then .next s
  else
    let s := endPlan s
    let s := if lowest < 40 then s.onPlan fun p => { p with dueAt := age s + 60 * nsPerS } else s
    finish (if s.plan.pending.getLsbD 1 && !planBlocked s then keptPlan s else s)

end Sys2Proof.Machine
end

