-- ==== Sys2Proof/Machine/Restore.lean ====
section
/-! DEFINITION. The restore (R159 to R181): the choice of the generation from the ledger, the metadata and
its fallbacks, the conversion of the saved map, the fill, demand fetches, the end, and the failures. -/

namespace Sys2Proof.Machine

/-! ## What the ledger shows (R160, R161) -/

/-- What a restore works from. -/
structure Found where
  source : Nat
  prev : Nat
  roots : Bool := false
  again : Bool := false
  fails : Bool := false
  deriving DecidableEq, Repr

/-- A commit of a save that no SAVED or LAST_GASP followed: nothing older of its generation counts, and what stood at
manufacture or after a Sanitize no longer does (R160: row 1 needs that no save commit is newer; row 5 otherwise). -/
def afterSave (f : Found) : Found := if f.source = 0 then { f with source := 3, prev := 4 } else f

/-- The commits read newest first until one decides (R160). A RESTORE_STARTED or an interrupted window points to the
generation before it; a MEMORY_READY without either needs the log tail. A LAST_GASP with MAP_SAVED whose cursor is already at
end-of-residue has no row of its own in R160: it is taken as saved with loss, code 3, though its lost set is empty (DEDUCED,
log 96). -/
def classify (tailOk : Bool) : List LedgerRec → Found
  | [] => { source := 0, prev := 0 }
  | r :: t =>
    match r.commit with
    | .sanitized => { source := 0, prev := 0 }
    | .shutdownClean _ _ _ _ => { source := 1, prev := 1 }
    | .saveStarted _ _ _ _ _ _ _ => afterSave (classify tailOk t)
    | .mapSaved _ _ => afterSave (classify tailOk t)
    | .saved _ c _ _ => { source := 2, prev := if c = .endOfResidue then 2 else 3, roots := true }
    | .lastGasp _ _ _ true _ => { source := 2, prev := 3 }
    | .lastGasp _ _ _ false _ => { source := 3, prev := 4 }
    | .restored _ _ _ _ _ => { source := 3, prev := 4 }
    | .restoreStarted _ _ _ _ => { classify tailOk t with prev := 5 }
    | .restoreInterrupted _ _ _ _ => { classify tailOk t with prev := 6, again := true }
    | .memoryReady _ _ =>
      if tailOk then { classify tailOk t with prev := 6, again := true }
      else { source := 3, prev := 7, fails := true }
    | _ => classify tailOk t

/-- A RESTORE_INTERRUPTED newer than a MEMORY_READY decides for it (R160): the MEMORY_READY of the same
restore is then skipped. -/
def afterInterrupted : List LedgerRec → List LedgerRec
  | [] => []
  | r :: t => match r.commit with
    | .restoreInterrupted _ _ _ _ =>
      r :: t.filter fun x => match x.commit with
        | .memoryReady _ _ => false
        | _ => true
    | .restored _ _ _ _ _ => r :: t
    | .memoryReady _ _ => r :: t
    | .saved _ _ _ _ => r :: t
    | .lastGasp _ _ _ _ _ => r :: t
    | .sanitized => r :: t
    | .shutdownClean _ _ _ _ => r :: t
    | _ => r :: afterInterrupted t

/-- What this start finds (R160). -/
def found (s : State) (tailOk : Bool) : Found := classify tailOk (afterInterrupted (allCommits s))

/-- The newest generation a SAVED, LAST_GASP or RESTORE_INTERRUPTED names (R161); 0 with none. -/
def newestGen : List LedgerRec → Nat
  | [] => 0
  | r :: t => match r.commit with
    | .saved g _ _ _ => g
    | .lastGasp g _ _ _ _ => g
    | .restoreInterrupted g _ _ _ => g
    | _ => newestGen t

/-- Earlier RESTORE_STARTED commits of a generation (R159). -/
def earlierAttempts (s : State) (g : Nat) : Nat :=
  ((allCommits s).filter fun r => match r.commit with
    | .restoreStarted h _ _ _ => decide (h = g)
    | _ => false).length

/-! ## REFCLK (R25) -/

/-- A return to REFCLK that waited for the end of a restore is made (R25). -/
def refReturn (s : State) : State :=
  if s.clk.returnDue && s.clk.refclk then
    s.onClk fun c =>
      { c with returnDue := false, refCrystal := false, countRunning := false, refSwitches := satInc 0xFF c.refSwitches }
  else s

/-! ## Failure (R176) -/

/-- The restore fails: RESTORE_STATE 0b100, Media Status Disabled, the Dirty Shutdown Count rises. -/
def failRestore (s : State) : State :=
  let s := s.onRst fun r => { r with phase := .failed, disabled := true, begun := true, prev := 7 }
  let s := s.onCxl fun c => { c with dirtyShutdowns := c.dirtyShutdowns + 1 }
  let s := s.onRst fun r => { r with last := { r.last with present := true, prev := 7 } }
  refReturn (record 0x0404 2 0x2200 0 (vector 5 s))

/-- Channels of the variant that are out at this start (R197). -/
def channelsOut (s : State) : Nat :=
  ((s.dram.channels.take s.cfg.dramChannels).filter (·.out)).length

/-- Every channel of the variant has finished its training (R197). -/
def trained (s : State) : Bool :=
  (s.dram.channels.take s.cfg.dramChannels).all fun c => decide (c.state = .active ∨ c.out = true)

/-- The restore can begin (R159): crews loaded, channels trained, FLASH entered, normal start. -/
def canBegin (s : State) : Bool :=
  anyMember s && trained s && decide (4 ≤ s.seq.st.num) && !s.rst.begun && !boathouse s && !frozen s &&
    decide (s.seq.dir ≠ .down) && !s.host.fence

/-- RESTORE_BEGIN (R159, R160, R197): the generation, mode and attempt; or the failure of a start that
cannot be bounded or has two channels out. -/
def execRestoreBegin (tailOk : Bool) (s : State) : Host.Outcome State Fault Refusal :=
  if !canBegin s then .next s
  else
    let f := found s tailOk
    let g := newestGen (allCommits s)
    let n := earlierAttempts s g + 1
    let early := decide (s.od.set.restoreMode = 1)
    let s := s.onRst fun r =>
      { r with
        source := f.source, prev := f.prev, roots := f.roots, again := f.again, gen := g, attempt := n
        modeEarly := early, begin := s.tb.now, heldPoison := s.cxl.poisonKept
        last := { present := true, gen := g, prev := f.prev, early := early, attempt := n } }
    if f.fails ∨ 2 ≤ channelsOut s then finish (failRestore s)
    else finish (vector 5 ((s.onRst fun r => { r with phase := .roots, begun := true }).onBoot fun b => { b with stage := 4 }))

/-- RESTORE_STARTED (R159, R179). -/
def execRestoreStarted (s : State) : Host.Outcome State Fault Refusal :=
  if s.rst.phase ≠ .roots ∨ frozen s = true then .next s
  else
    let s := s.onRst fun r => { r with phase := .metadata }
    let s := commit (.restoreStarted s.rst.gen s.rst.modeEarly s.rst.attempt s.rst.prev) s
    finish (record 0x0400 2 0x2200 0 s)

/-! ## Metadata (R104, R161, R162) -/

/-- A unit of a checkpoint decodes. -/
def unitGood (s : State) (at' : Nat × Nat) : Bool :=
  match unitAt s at'.1 at'.2 with
  | some u => !u.bad
  | none => true

/-- The committed checkpoint in force (R104, R216): the newest, or, when a chunk of it or its directory fails decode, the one
before. -/
def inForce (s : State) : Option CheckpointRec :=
  match s.lake.checkpoint with
  | none => none
  | some c => if unitGood s c.dir && c.chunks.all fun x => unitGood s x.2 then some c else s.lake.older

/-- The mapping table rebuilt from the last committed checkpoint with tag replay (R104). Units under a
superseded media key cannot be decrypted (R215). -/
def rebuiltMapping (s : State) : List (Nat × (Nat × Nat)) :=
  let base := match inForce s with
    | some c => c.mapping
    | none => []
  let seq0 := match inForce s with
    | some c => c.lakeSeq
    | none => 0
  (s.lake.units.filter fun u => decide (seq0 ≤ u.2.seq) && decide (u.2.key = s.flash.key) &&
      decide (u.2.page ≠ padPage)).foldr
    (fun u m => tabIns u.2.page u.1 m) base

/-- The mapping table this restore uses (R160 to R162). -/
def restoredMapping (s : State) (mappingOk : Bool) : List (Nat × (Nat × Nat)) :=
  match s.rst.source with
  | 0 => []
  | 1 => match inForce s with
    | some c => c.mapping
    | none => []
  | 2 =>
    match s.basin.image with
    | some im => match im.mapping with
      | some m => if s.rst.roots && mappingOk && im.mappingWhole then m else rebuiltMapping s
      | none => rebuiltMapping s
    | none => rebuiltMapping s
  | _ => rebuiltMapping s

/-- Chunks of a mapping table that differ from a checkpoint's (R104), strictly rising. -/
def changedSince (c : Option CheckpointRec) (m : List (Nat × (Nat × Nat))) : List Nat :=
  let old := match c with
    | some c => c.mapping
    | none => []
  let new := m.filter fun x => !old.contains x
  let gone := old.filter fun x => !m.contains x
  (new ++ gone).foldl (fun t x => setIns (chunkOf x.1) t) []

/-- RESTORE_METADATA_LOADED (R161, R162). -/
def execRestoreMetadataLoaded (found : MetaIn) (s : State) : Host.Outcome State Fault Refusal :=
  if s.rst.phase ≠ .metadata ∨ frozen s = true then .next s
  else if s.rst.source = 2 ∧ (s.rst.roots = true ∧ found.rootsOk = false ∨
      s.rst.roots = false ∧ found.saveCommitsOk = false ∨ s.basin.image.isNone) then
    finish (failRestore s)
  else
    let m := restoredMapping s found.mappingOk
    let whole := match s.basin.image with
      | some im => im.mapWhole
      | none => true
    let s := s.onLake fun l => { l with mapping := m, changed := changedSince (inForce s) m }
    finish (s.onRst fun r =>
      { r with phase := .conversion, source := if r.source = 2 && !(found.mapOk && whole) then 4 else r.source })

/-! ## The dirty log's outstanding dirtyings (R152, R154) -/

/-- One dirtying that no COMPLETE has followed: page, slot and the tags of the MARKs that follow it. -/
structure Outstanding where
  page : Nat
  slot : Nat
  tags : List Nat
  deriving DecidableEq, Repr

/-- One entry read (R153, R154). -/
def readEntry (l : List Outstanding) : LogEntry → List Outstanding
  | .reset p => l.filter fun o => decide (o.page ≠ p)
  | .dirty sl p => l ++ [{ page := p, slot := sl, tags := [] }]
  | .mark t p => l.map fun o => if o.page = p then { o with tags := t :: o.tags } else o
  | .complete t p => l.filter fun o => !(decide (o.page = p) && o.tags.contains t)

/-- Every outstanding dirtying, oldest first (R154). -/
def outstanding (s : State) : List Outstanding := (wholeLog s).foldl readEntry []

/-- First host epoch of a slot in the ledger's bucket table (R153). -/
def ledgerEpoch (s : State) (slot : Nat) : Nat :=
  match tabFind slot s.ledger.buckets with
  | some b => b.epoch
  | none => 0

/-- Pages with an outstanding dirtying, each with its oldest (R152). -/
def oldestOutstanding : List Outstanding → List Outstanding
  | [] => []
  | o :: t => o :: (oldestOutstanding t).filter fun x => decide (x.page ≠ o.page)

/-! ## Conversion (R163, R164, R198) -/

/-- Slot in the image's bucket table, its first host epoch. -/
def imageEpoch (im : BasinImage) (slot : Nat) : Nat :=
  match im.buckets.find? fun b => b.slot = slot with
  | some b => b.epoch
  | none => 0

/-- The cursor with which the generation's save ended (R146, R160). -/
def endCursor (s : State) : Cursor :=
  match (allCommits s).find? fun r => match r.commit with
      | .saved g _ _ _ => decide (g = s.rst.gen)
      | .lastGasp g _ _ _ _ => decide (g = s.rst.gen)
      | _ => false with
  | some { commit := .saved _ c _ _, .. } => c
  | some { commit := .lastGasp _ c _ _ _, .. } => c
  | _ => .upTo 0 0

/-- A residue page of the image that restore cannot take (R79, R163). A page that lost a completed write with its channel is
reported lost (R80), which gives it no REASON: that of an isolated channel (R198; DEDUCED, log 74). -/
def loseResidue (im : BasinImage) (page slot : Nat) (why : LostReason) (s : State) : State :=
  lowerElost (imageEpoch im slot) (markLost page (if im.dropped.contains page then .media else why) false s)

/-- One saved entry (R163). -/
def convertEntry (im : BasinImage) (c : Cursor) (s : State) (x : Nat × PageEntry) : State :=
  match passSlot im.map im.drains x.1 with
  | some sl =>
    if beforeCursor c (seqOfSlot im.buckets sl) x.1 && !im.dropped.contains x.1 then
      setPage x.1 { state := .dirty, bucket := sl, hot := coldTick s } s
    else loseResidue im x.1 sl .cursor s
  | none =>
    if x.2.state = .lost then markLost x.1 (tabGet .cursor x.1 im.reasons) true s else s

/-- The saved map read once (R163). -/
def convertImage (s : State) : State :=
  match s.basin.image with
  | none => s
  | some im => im.map.foldl (convertEntry im (endCursor s)) s

/-- The lost-range list as the last checkpoint wrote it, brought up to what has changed since: a page that became LOST later
stays LOST (R77), and one rewritten and drained since is settled (R78). R163 names the checkpoint's list alone (DEDUCED, log
95). -/
def keptLost (s : State) : List (Nat × LostReason) :=
  s.pm.lostSince.foldl (fun l x => match x.2 with
    | some w => tabIns x.1 w l
    | none => tabDel x.1 l) (match inForce s with
    | some c => c.lost
    | none => [])

/-- The pages of the lost-range list are LOST with CARRIED, each with its REASON (R163, R178). -/
def carryLost (s : State) : State := (keptLost s).foldl (fun s x => markLost x.1 x.2 true s) s

/-- The saved map unreadable (R162): the residue set comes from the dirty log; pages found in the Basin below
the cursor are restored, the rest are lost. -/
def convertFromLog (s : State) : State :=
  match s.basin.image with
  | none => s
  | some im =>
    let s := carryLost s
    (oldestOutstanding (outstanding s)).foldl (fun s o =>
      if pageState s o.page = .dirty then s
      else if (tabFind o.page im.units).isSome && !im.dropped.contains o.page &&
          beforeCursor (endCursor s) (seqOfSlot im.buckets o.slot) o.page then
        setPage o.page { state := .dirty, bucket := o.slot, hot := coldTick s } s
      else loseResidue im o.page o.slot .dirtyLog s) s

/-- No usable save (R152, R163): every outstanding dirtying is lost; the checkpoint's lost pages are
carried. -/
def convertNoSave (s : State) : State :=
  let s := carryLost s
  (oldestOutstanding (outstanding s)).foldl (fun s o => lowerElost (ledgerEpoch s o.slot) (markLost o.page .dirtyLog false s)) s

/-- Pages of the lost windows (R160, R175): each is LOST, under the bucket its entry names. -/
def convertWindow (s : State) : State :=
  if s.rst.again then s.log.window.foldl (fun s x => lowerElost x.2 (markLost x.1 .window false s)) s else s

/-- Buckets after the conversion (R164): those of the image that still count a page, closed. -/
def convertBuckets (s : State) : State :=
  match s.basin.image with
  | none => s
  | some im =>
    if s.rst.source = 2 ∨ s.rst.source = 4 then
      let bs := (im.buckets.map fun b =>
        { b with pages := countIn s b.slot, isOpen := false, covered := false, closeWhenFree := false }).filter
          fun b => decide (b.pages ≠ 0)
      let next := im.buckets.foldl (fun n b => max n (b.openSeq + 1)) s.pm.nextSeq
      s.onPm fun p => { p with buckets := bs, nextSeq := next }
    else s

/-- The ledger's bucket table after the conversion (R153, R164): every bucket that is not live has retired. -/
def retireLedger (s : State) : State :=
  s.onLedger fun l =>
    { l with buckets := ledgerRetire (fun slot => s.pm.buckets.any fun b => decide (b.slot = slot)) s.log.pos l.buckets }

/-- The buckets in the ledger's table that have not retired (R153). -/
def ledgerLive (s : State) : List (Nat × LedgerBucket) := s.ledger.buckets.filter fun b => b.2.retirePos.isNone

/-- Commits newer than the last RESTORED, clean shutdown or Sanitize (R160, R161). -/
def sinceRestored : List LedgerRec → List LedgerRec
  | [] => []
  | r :: t => match r.commit with
    | .restored _ _ _ _ _ => []
    | .sanitized => []
    | .shutdownClean _ _ _ _ => []
    | _ => r :: sinceRestored t

/-- Target of the last SETTLED commit (R161). -/
def lastSettled : List LedgerRec → Nat
  | [] => 0
  | r :: t => match r.commit with
    | .settled n => n
    | .sanitized => 0
    | _ => lastSettled t

/-- Highest first host epoch of any bucket in the ledger's bucket table (R161). -/
def highestEpoch (s : State) : Nat := s.ledger.buckets.foldl (fun n b => max n b.2.epoch) 0

/-- The copy of a generation's roots that a restore takes (R148, R161): of the ledger, of the Basin headers, or of the root
area; one that is of another generation does not pass. -/
def rootsFound (s : State) : Option Roots :=
  [(if s.ledger.failed then none else s.ledger.roots), s.basin.image.bind (·.roots), s.ledger.rootArea].findSome? fun r =>
    r.filter fun r => decide (r.gen = s.rst.gen)

/-- Epoch and settled epoch at the fence, as this restore finds them (R46, R161). -/
def epochsFound (s : State) : Nat × Nat :=
  let cs := allCommits s
  match s.rst.source with
  | 0 => (0, 0)
  | 1 => match cs.find? fun r => match r.commit with
        | .shutdownClean _ _ _ _ => true
        | _ => false with
    | some { commit := .shutdownClean _ e t _, .. } => (e, t)
    | _ => (0, 0)
  | _ =>
    match if s.rst.roots then rootsFound s else none with
    | some r => (r.epoch, r.settled)
    | none =>
    match (sinceRestored cs).find? fun r => match r.commit with
        | .saveStarted _ _ _ _ _ _ _ => true
        | .lastGasp _ _ _ _ _ => true
        | _ => false with
    | some { commit := .saveStarted _ _ _ x _ _ _, .. } => (x.epoch, x.settled)
    | some { commit := .lastGasp _ _ _ _ x, .. } => (x.epoch, x.settled)
    | _ => (max (lastSettled cs) (highestEpoch s), lastSettled cs)

/-- Epoch of the lost windows of a generation (R175): the greatest that a RESTORE_INTERRUPTED carries, and the highest first
host epoch of any bucket opened in a window, which is one that the ledger's bucket table opens at or after the log position
of a MEMORY_READY. -/
def windowEpoch (s : State) : Nat :=
  if s.rst.again then
    (sinceRestored (allCommits s)).foldl (fun n r => match r.commit with
      | .restoreInterrupted _ e _ _ => max n e
      | .memoryReady _ pos =>
        (s.ledger.buckets.filter fun b => decide (pos ≤ b.2.openPos)).foldl (fun n b => max n b.2.epoch) n
      | _ => n) 0
  else 0

/-- The channel out at a degraded start (R197). -/
def outChannel (s : State) : Option Nat := (List.range s.cfg.dramChannels).find? fun n => (chAt s n).out

/-- Donor pages of the isolated channel's reserved area (R198): the highest visible pages of the other
channels, descending. -/
def donors (s : State) (ch : Nat) : Nat → Nat → List Nat
  | 0, _ => []
  | _, 0 => []
  | fuel + 1, n + 1 =>
    if channelOfPage s fuel = ch then donors s ch fuel (n + 1) else fuel :: donors s ch fuel n

/-- Degraded operation (R198): the withdrawn pages are LOST with REASON media and have no mapping; an
E_lost of 0 when one of them was not LOST already. One that was keeps its CARRIED. The reserved pages of the channel move to
the donors. -/
def degrade (s : State) : State :=
  match outChannel s with
  | none => s
  | some ch =>
    let own := (List.range s.cfg.visiblePages).filter fun p => decide (channelOfPage s p = ch)
    let reserved := s.cfg.reserved / pageBytes / s.cfg.dramChannels
    let all := own ++ donors s ch s.cfg.visiblePages reserved
    let s := if all.any fun p => pageState s p ≠ .lost then lowerElost 0 s else s
    let s := all.foldl (fun s p => dropMapping p (markLost p .media (pageEntry s p).carried s)) s
    s.onDram fun d => { d with withdrawn := all, donors := donors s ch s.cfg.visiblePages reserved }

/-- Poisoned lines of CLEAN pages take their marker again (R53): the save writes no CLEAN page, and what is preserved of the
poison names them, beyond the entries of Get Poison List too (log 73). -/
def heldMarkers (s : State) : State :=
  let lines := (s.rst.heldPoison.map fun r => List.range' r.1 r.2).flatten
  (lines.filter fun l => decide (pageState s (pageOf l) = .clean)).foldl (fun s l => setPoison l true s) s

/-- The conversion walk (R163, R164, R198). -/
def convert (s : State) : State :=
  let es := epochsFound s
  let we := windowEpoch s
  let s := s.onHost fun h => { h with elost := 2 ^ 64 - 1, epoch := max es.1 we, settled := es.2, target := es.2 }
  let s := s.onPm fun p =>
    { p with pages := [], reasons := [], buckets := [], drains := [], drainGens := [], residue := 0 }
  let s := match s.rst.source with
    | 0 => s
    | 1 => carryLost s
    | 2 => convertImage s
    | 4 => convertFromLog s
    | _ => convertNoSave s
  let s := degrade (convertWindow s)
  let s := heldMarkers (retireLedger (convertBuckets s))
  s.onPm fun p => { p with residue := pageBytes * residuePages s, lostTime := s.tb.now }

/-- Pages LOST by CARRIED (R177). -/
def lostCount (s : State) (carried : Bool) : Nat :=
  (s.pm.pages.filter fun x => decide (x.2.state = .lost) && decide (x.2.carried = carried)).length

/-- DIRTY pages, ascending (R86). -/
def dirtyPages (s : State) : List Nat := (s.pm.pages.filter fun x => decide (x.2.state = .dirty)).map (·.1)

/-- The conversion ends and the fill begins with every RESTORED and TOUCHED bit 0 (R163, R165). -/
def convertOp (s : State) : State :=
  let s := convert s
  s.onRst fun r =>
    { r with phase := .fill, marked := lostCount s false, restoredSet := [], touched := [], fetching := [], fillDone := false, basinPages := dirtyPages s }

/-- CONVERSION_DONE (R163, R164): the residue set at restore may exceed the level in force (R125 code 6). -/
def execConversionDone (s : State) : Host.Outcome State Fault Refusal :=
  if s.rst.phase ≠ .conversion ∨ frozen s = true then .next s
  else finish (weirCheck 6 (convertOp s))

/-! ## Memory ready (R50, R51, R167) -/

/-- Memory becomes ready (R50): RESTORE_STATE changes and vector 5 is raised. -/
def makeReady (early : Bool) (s : State) : State :=
  if s.rst.ready then s
  else
    let ms := (s.tb.now - s.rst.begin) / nsPerMs
    let s := s.onBoot fun b => { b with stage := 5 }
    vector 5 (s.onRst fun r =>
      { r with ready := true, early := early, last := { r.last with readyMs := ms, early := early } })

/-- ONLINE has completed its power-up: memory is not made ready before (R287). -/
def onlineDone (s : State) : Bool := decide (s.seq.st = .online) && s.seq.complete

/-- The restore has passed its conversion and runs (R167). -/
def filling (s : State) : Bool :=
  decide (s.rst.phase = .fill ∨ s.rst.phase = .overlay ∨ s.rst.phase = .compaction)

/-- The die-block of the Basin whose summary lists a page: its die and its place in the save (R167). -/
def summaryOf (im : BasinImage) (page : Nat) : Option (Nat × Nat) :=
  (im.summaries.find? fun x => x.2.contains page).map (·.1)

/-- The Basin unit of a residue page, as the block summaries locate it, or, in a die-block left open, the unit tags that are
read there: those of this save's generation whose CRC holds (R101, R145, R167). -/
def basinUnit (s : State) (page : Nat) : Option FlashUnit :=
  match s.basin.image with
  | none => none
  | some im =>
    let u := tabFind page im.units
    if (summaryOf im page).isSome then u
    else u.filter fun u => decide (u.gen = im.gen ∧ u.crc = Config.tagCrc page u.seq)

/-- The stubs (R167): the Basin unit address of each residue page not yet restored, in the page's own first 8 bytes. R167 gives
the address no form: it is the unit's position in the save, 8 bytes, low byte first (DESIGN CHOICE, log 97). -/
def writeStubs (s : State) : State :=
  (s.rst.basinPages.filter fun p => !pageRestored s p).foldl (fun s p => match basinUnit s p with
    | some u => writeBytes (p * pageBytes) (leBytes 8 u.seq) s
    | none => s) s

/-- The Basin unit a stub names (R167, R169). -/
def stubUnit (s : State) (page : Nat) : Option FlashUnit :=
  let a := leNat (readBytes s (page * pageBytes) 8)
  match s.basin.image with
  | some im => (im.units.find? fun x => decide (x.2.seq = a)).map (·.2)
  | none => none

/-- EARLY_OPEN_POINT (R51, R167): the last stub is written. -/
def execEarlyOpenPoint (s : State) : Host.Outcome State Fault Refusal :=
  if !filling s || s.rst.point || frozen s || !onlineDone s then .next s
  else
    let s := writeStubs (s.onRst fun r => { r with point := true })
    finish (if s.rst.modeEarly then makeReady true s else s)

/-- The MEMORY_READY of this restore is in the ledger. -/
def readyCommitted : List LedgerRec → Bool
  | [] => false
  | r :: t => match r.commit with
    | .memoryReady _ _ => true
    | .restoreStarted _ _ _ _ => false
    | _ => readyCommitted t

/-- MEMORY_READY (R179): committed once, when memory was made ready in early-open; the window's log entries
count from here. -/
def execMemoryReady (s : State) : Host.Outcome State Fault Refusal :=
  if !(inWindow s && s.rst.early) || readyCommitted (allCommits s) || frozen s then .next s
  else finish (record 0x0401 2 0x2200 0 (commit (.memoryReady s.rst.gen s.log.pos) s))

/-! ## Filling (R165) -/

/-- A page's 4 KiB written from a flash unit, poison markers included (R53, R165). -/
def loadUnit (page : Nat) (u : FlashUnit) (s : State) : State :=
  let lo := page * pageBytes
  let s := s.onDram fun d => { d with bytes := d.bytes.filter fun c => !(lo ≤ c.1 && decide (c.1 < lo + pageBytes)) }
  let s := u.cells.foldl (fun s c => writeByte (lo + c.1) c.2 s) s
  u.poison.foldl (fun s l => setPoison (page * linesPerPage + l) true s) s

/-- First host epoch of a live bucket. -/
def bucketEpoch (s : State) (slot : Nat) : Nat :=
  match bucketAt s slot with
  | some b => b.epoch
  | none => 0

/-- A unit decrypts to a page's data (R213, R215): it was written under the media key in force and the page's own tweak. -/
def decrypts (s : State) (area page : Nat) (u : FlashUnit) : Bool :=
  !u.bad && decide (u.key = s.flash.key) && decide (u.tweak = tweakOf area page)

/-- The source of an unrestored page (R163, R167, R169): its Basin unit, found by the stub once the early-open point is
reached, its Lakebed unit, or zero fill. -/
def sourceUnit (s : State) (page : Nat) : Option (Option FlashUnit) :=
  if s.rst.basinPages.contains page then
    some ((if s.rst.point then stubUnit s page else basinUnit s page).filter (decrypts s 1 page))
  else match tabFind page s.lake.mapping with
    | some (g, u) => some ((unitAt s g u).filter (decrypts s 0 page))
    | none => none

/-- E_lost after the loss of a page to media (R79, R176): its bucket's epoch for a residue page, else 0. -/
def mediaEpoch (s : State) (page : Nat) : Nat :=
  let x := pageEntry s page
  if x.state = .dirty then bucketEpoch s x.bucket else 0

/-- A Basin unit failed decode (R176, R218, R225): UNCORR counts it, and its die-block is retired if the save closed it. -/
def basinFailed (page : Nat) (u : FlashUnit) (s : State) : State :=
  let s := onFl (u.die / 8) (fun c => { c with uncorr := satInc 0xFFFF c.uncorr }) s
  match s.basin.image with
  | none => s
  | some im => match summaryOf im page with
    | some (d, k) => retireBlock d .basin k s
    | none => s

/-- The unit of an unrestored page failed decode (R218, R225). -/
def sourceFailed (page : Nat) (s : State) : State :=
  if s.rst.basinPages.contains page then
    match basinUnit s page with
    | some u => basinFailed page u s
    | none => s
  else match tabFind page s.lake.mapping with
    | some (g, u) => unitFailed g u s
    | none => s

/-- One page restored from its source (R165, R176); a write for a page whose RESTORED bit is set is discarded. -/
def fillPage (fails : List Nat) (page : Nat) (s : State) : State :=
  if pageRestored s page = true ∨ pageState s page = .lost then s
  else
    let lose (s : State) : State := mediaLost page (mediaEpoch s page) (sourceFailed page s)
    match sourceUnit s page with
    | none => s
    | some none => lose s
    | some (some u) => if fails.contains page then lose s else loadUnit page u s

/-- What lines of DRAM met while pages were written (R176, R186): one that is uncorrectable takes the marker, and its page is
not LOST. -/
def writeErrors (pages : List Nat) (lines : List (Nat × DramRead)) (s : State) : State :=
  (lines.filter fun x => pages.contains (pageOf x.1)).foldl (fun s x => dramLine x.1 x.2 7 0x2200 s) s

/-- LAKEBED_FILL_DONE (R165, R176): every page whose source is not the Basin is in DRAM, but those whose
unit failed decode; a line that DRAM could not take, in a zero-filled page too, is poisoned. -/
def execLakebedFillDone (failed : FillErrors) (s : State) : Host.Outcome State Fault Refusal :=
  if s.rst.phase ≠ .fill ∨ frozen s = true then .next s
  else
    let pages := (s.lake.mapping.map (·.1)).filter fun p => !s.rst.basinPages.contains p && !pageRestored s p
    let filled := (failed.lines.map fun x => pageOf x.1).filter fun p => visiblePage s p && !s.rst.basinPages.contains p && !pageRestored s p
    let s := writeErrors filled failed.lines (pages.foldl (fun s p => fillPage failed.pages p s) s)
    finish (s.onRst fun r => { r with phase := .overlay, fillDone := true })

/-- BASIN_OVERLAY_DONE (R165, R173, R176): every residue page is in DRAM; the crews start a compaction of
the dirty log. -/
def execBasinOverlayDone (failed : FillErrors) (s : State) : Host.Outcome State Fault Refusal :=
  if s.rst.phase ≠ .overlay ∨ frozen s = true then .next s
  else
    let pages := s.rst.basinPages.filter fun p => !pageRestored s p
    let s := writeErrors pages failed.lines (pages.foldl (fun s p => fillPage failed.pages p s) s)
    let s := s.onRst fun r => { r with phase := .compaction, allDone := true }
    finish (s.onLog fun l => { l with compacting := some l.area.length })

/-! ## Demand fetches (R169) -/

/-- A page's queued fetch leaves the oars' queues. -/
def dropFetchJobs (page : Nat) (s : State) : State :=
  s.onFlash fun f =>
    { f with channels := f.channels.map fun c =>
        startAll s.lake.gcUrgent { c with jobs := c.jobs.filter fun j => decide (j.op ≠ .demandFetch page) } }

/-- DEMAND_FETCH_DONE (R168, R169): the page is written, RESTORED set, and waiting accesses are released in
arrival order; a unit that fails decode loses the page. -/
def execDemandFetchDone (page : Nat) (res : FetchRes) (us : Nat) (s : State) : Host.Outcome State Fault Refusal :=
  if !s.rst.fetching.contains page || frozen s || inBlockReset s page then .next s
  else
    let s := dropFetchJobs page s
    let s := if pageRestored s page then s
      else writeErrors [page] res.lines (fillPage (if res.ok then [] else [page]) page s)
    let s := s.onRst fun r =>
      { r with
        fetching := setDel page r.fetching
        last := { r.last with fetches := r.last.fetches + 1, longest := max r.last.longest us } }
    let s := release (fun r => decide (r.why = .fetch) && decide (pageOf r.line = page)) (setRestored page s)
    finish (releaseWrites page s.wb.entries.length s)

/-! ## The end (R173, R174) -/

/-- With no page DIRTY or DRAINING no bucket is live (R69): those that the restore has emptied retire. -/
def retireIdle (s : State) : State :=
  if s.pm.buckets.all fun b => decide (b.pages = 0) then retireLedger (s.onPm fun p => { p with buckets := [] }) else s

/-- RESTORED (R56, R173, R179, R219, R442): the generation is consumed, the Basin re-erase begins, pages restored from a retired die
are drained again, and the count
of failed boots returns to 0. -/
def restoredOp (s : State) : State :=
  let lost := lostCount s false
  let carried := lostCount s true
  let s := commit (.restored s.rst.gen s.host.elost lost carried s.log.pos) s
  let s := record 0x0402 2 0x2200 0 s
  let s := if s.rst.marked ≠ 0 then
      record 0x0405 5 0x2200 (sat 0xFFFFFFFF s.rst.marked) (s.onCxl fun c => { c with dirtyShutdowns := c.dirtyShutdowns + 1 })
    else s
  let s := if s.rst.ready then vector 5 s else makeReady false s
  let ms := (s.tb.now - s.rst.begin) / nsPerMs
  let s := s.onRst fun r =>
    { r with
      committed := true, phase := .restored
      last := { r.last with restoredMs := ms, lost := lost, carried := carried } }
  let s := s.onBasin fun b => { b with image := none, reErase := true, counted := true }
  let s := if s.boot.failedBoots = 0 then s else bootWrite s
  let s := s.onBoot fun b => { b with stage := 6, failedBoots := 0 }
  let s := (s.onLog fun l => { l with window := [], sealed' := false }).onHost fun h => { h with gpf := .none }
  let s := gcCheck (redrainRetired (retireIdle s))
  refReturn (if s.seq.shutdown = .waiting then beginShutdown s else sprintCheck s)

/-- RESTORED (R173): once the compaction's walk has ended. -/
def execRestored (s : State) : Host.Outcome State Fault Refusal :=
  if s.rst.phase ≠ .compaction ∨ s.log.compacting ≠ none ∨ s.host.fence = true ∨ frozen s = true
      ∨ anyMember s = false ∨ onlineDone s = false then .next s
  else finish (restoredOp s)

/-- BASIN_ERASED (R174): no Basin die-block is left to erase; Outflow resumes after an early-open restore
(R96). -/
def execBasinErased (s : State) : Host.Outcome State Fault Refusal :=
  if s.rst.phase ≠ .restored ∨ basinToErase s ≠ 0 ∨ s.host.fence = true ∨ frozen s = true then .next s
  else
    let s := commit (.basinErased s.rst.gen (basinErased s)) s
    let s := s.onBasin fun b => { b with reErase := false }
    finish (sprintCheck (s.onRst fun r => { r with phase := .erased }))

/-- RESTORE_INTERRUPTED (R175): the last gasp in the early-open window commits the log tail and the epoch at
the fence, then cuts the rails. -/
def execRestoreInterrupted (s : State) : Host.Outcome State Fault Refusal :=
  if !inWindow s || decide (s.save.phase ≠ .lastGasp) || !s.host.fence then .next s
  else
    finish (dropLedgerHold (cutRails true (windowCommit false (flushCounts s))))

/-- A write of the restore mode acts on a restore already running (R51). -/
def restoreModeOp (v : Nat) (s : State) : State :=
  let s := s.onOd fun o => { o with set := { o.set with restoreMode := v } }
  if v = 1 && s.rst.begun && !s.rst.committed && decide (s.rst.phase ≠ .failed) then
    let s := s.onRst fun r => { r with modeEarly := true }
    if s.rst.point then makeReady true s else s
  else s

end Sys2Proof.Machine
end

