-- ==== Sys2Proof/Machine/Landings.lean ====
section
/-! DEFINITION. The landings (R230 to R236): the window of a stream, the comparison of copies, divergence, the
pairing limit, and what a landed command does. -/

namespace Sys2Proof.Machine

/-! ## Landings and streams (R231) -/

/-- One landing. -/
def landingOf (s : State) : Landing → LandingSt
  | .host => s.crew.host
  | .mem => s.crew.mem
  | .fls => s.crew.fls
  | .pwr => s.crew.pwr
  | .ldg => s.crew.ldg

/-- One landing changed by `f`. -/
def onLanding (l : Landing) (f : LandingSt → LandingSt) (s : State) : State :=
  s.onCrew fun x => match l with
    | .host => { x with host := f x.host }
    | .mem => { x with mem := f x.mem }
    | .fls => { x with fls := f x.fls }
    | .pwr => { x with pwr := f x.pwr }
    | .ldg => { x with ldg := f x.ldg }

/-- Master ID of a landing (R231). -/
def landingId : Landing → Nat
  | .host => 0x1100
  | .mem => 0x2280
  | .fls => 0x3A80
  | .pwr => 0x6100
  | .ldg => 0x7000

/-- The landing has the stream (R231). -/
def hasStream (l : Landing) (x : Stream) : Bool :=
  let n := x.num.val
  match l, x.cox with
  | .host, false => decide (n ≤ 2)
  | .mem, false => decide (n ≤ 3)
  | .fls, false => decide (n ≤ 32)
  | .pwr, false => decide (n ≤ 1)
  | .ldg, false => decide (n ≤ 1)
  | .mem, true => decide (n ≤ 1)
  | _, true => decide (n = 0)

/-- A value stream (R231). -/
def valueStream (l : Landing) (x : Stream) : Bool :=
  match l with
  | .mem => decide (x.num.val = 0)
  | .pwr => !x.cox && decide (x.num.val = 1)
  | _ => false

/-- The stream carries the command (R231). A command of another stream has no effect there (log 24). The commands without a
constructor of their own (responses, the control of DRAM oars, of the LDPC and XTS engines, of save and restore, of the
sequencer, key and boot records) are the firmware's on any stream: what they bring about are commands of the table (log 104).
-/
def carries (l : Landing) (x : Stream) : Landed → Bool
  | .weirPublish _ => decide (l = .mem ∧ x = { cox := false, num := 0 })
  | .weirLimits _ _ => decide (l = .mem ∧ x = { cox := true, num := 0 })
  | .markDraining _ => decide (l = .mem ∧ x = { cox := false, num := 1 })
  | .completeDrain _ _ _ => decide (l = .mem ∧ x = { cox := false, num := 1 })
  | .failDrain _ => decide (l = .mem ∧ x = { cox := false, num := 1 })
  | .mapWalk _ _ => decide (l = .mem ∧ x = { cox := false, num := 1 })
  | .dramOarReload _ => decide (l = .mem ∧ x = { cox := true, num := 1 })
  | .flashOp ch _ _ _ => decide (l = .fls ∧ x.cox = false ∧ x.num.val = ch.val)
  | .flashOarReload _ => decide (l = .fls ∧ x = { cox := true, num := 0 })
  | .powerDown => decide (l = .pwr ∧ x = { cox := false, num := 0 })
  | .saveRelease => decide (l = .pwr ∧ x = { cox := true, num := 0 })
  | .latchClear => decide (l = .pwr ∧ x = { cox := true, num := 0 })
  | .chgCtrl _ => decide (l = .pwr ∧ x = { cox := false, num := 1 })
  | .stringState _ _ _ _ => decide (l = .pwr ∧ x = { cox := false, num := 1 })
  | .coreTarget _ => decide (l = .pwr ∧ x = { cox := false, num := 1 })
  | .waterline _ => decide (l = .ldg ∧ x = { cox := false, num := 1 })
  | .commit _ => decide (l = .ldg ∧ x = { cox := false, num := 0 })
  | .settleCompletion => decide (l = .host ∧ x = { cox := false, num := 2 })
  | .firmware _ _ => hasStream l x

/-! ## What a landed command does -/

/-- The SETTLED commit of the present target is in the ledger (R107). -/
def settledLanded (s : State) : Bool :=
  settleBusy s && (allCommits s).any fun r => decide (r.commit = .settled s.host.target)

/-- A target that lands by itself is also where the ramp ends (R424). -/
def targetOp (mv : Nat) (s : State) : State :=
  let s := setTarget mv s
  s.onPlan fun p => { p with goal := p.target }

/-- The core that sent a copy (R13, R230): the coxswain core, or a crew core, whose number of 4 is a free value (log 1). -/
def senderId (s : State) (k : Copy) : MasterId :=
  if k.coxCore then coxId k.crew else coxId k.crew - 0x40 + BitVec.ofNat 16 (Config.freeNat s.free % 4)

/-- MEM_WEIR_LIMITS written on another stream than the coxswain's (R127): dropped, and a C fault of the core that sent it, with
R259's KEY for a stream-rule violation. -/
def limitsRefused (k : Copy) (s : State) : State :=
  raise (senderId s k) .c 5 1 (senderId s k) 0xF0200008 (landingId .mem) { s with free := s.free + 1 }

/-- The command writes MEM_WEIR_LIMITS. -/
def isLimits : Landed → Bool
  | .weirLimits _ _ => true
  | _ => false

/-- A landed command executes (R231). -/
def execLanded (crew : Crew) (c : Landed) (s : State) : State :=
  match c with
  | .weirPublish level => if publishes s crew then publishOp crew level s else s
  | .weirLimits cap floor => limitsOp cap floor s
  | .markDraining pages => markDrainingOp pages s
  | .completeDrain tag seg unit => if mapStopped s then s else completeDrainOp tag seg unit s
  | .failDrain tag => if mapStopped s then s else failDrainOp tag s
  | .mapWalk slot st => walkOp slot st s
  | .dramOarReload ch => if channelLive s ch.val then oarReloadDram ch.val s else s
  | .flashOp ch die op bad => queueOp ch.val die.val op bad s
  | .flashOarReload ch => oarReloadFlash ch.val s
  | .powerDown => powerDownOp s
  | .saveRelease => releaseOp s
  | .latchClear => if s.seq.latched then latchClearOp s else s
  | .chgCtrl v => chgCtrlOp v s
  | .stringState x st r p => stringStateOp x st r p s
  | .coreTarget mv => targetOp mv s
  | .waterline r => waterlineOp r s
  | .commit c => commitOp c s
  | .settleCompletion => if settledLanded s then completeSettle s else s
  | .firmware _ _ => s

/-- A copy executes at its landing (R127, R231). -/
def executeCopy (k : Copy) (s : State) : State :=
  if carries k.landing k.stream k.cmd then execLanded k.crew k.cmd s
  else if decide (k.landing = .mem) && isLimits k.cmd then limitsRefused k s
  else s

/-! ## The window (R232, R233) -/

/-- Sequence numbers compare modulo 2³² (R232). -/
def seqMod : Nat := 2 ^ 32

/-- How far a sequence number lies past the base. -/
def ahead (base seq : Nat) : Nat := (seq + seqMod - base % seqMod) % seqMod

/-- Number of a stream at its landing. -/
def streamKey (x : Stream) : Nat := x.num.val + (if x.cox then 64 else 0)

/-- A stream of a landing. -/
def streamOf (s : State) (l : Landing) (x : Stream) : StreamSt := tabGet {} (streamKey x) (landingOf s l).streams

/-- A stream written. -/
def setStream (l : Landing) (x : Stream) (st : StreamSt) (s : State) : State :=
  onLanding l (fun y => { y with streams := tabSet {} (streamKey x) st y.streams }) s

/-- The slot or history entry of a sequence number. -/
def slotOfSeq (st : StreamSt) (seq : Nat) : Option WSlot := st.slots.find? fun w => decide (w.seq = seq)

/-- A slot replaced, or added. -/
def putWSlot (w : WSlot) (st : StreamSt) : StreamSt :=
  { st with slots := w :: st.slots.filter fun v => decide (v.seq ≠ w.seq) }

/-- B advances past every closed slot (R232). -/
def advance : Nat → StreamSt → StreamSt
  | 0, st => st
  | n + 1, st =>
    match slotOfSeq st st.base with
    | some w => if w.closed then advance n { st with base := (st.base + 1) % seqMod } else st
    | none => st

/-- The base advanced, and the history cut to the 64 numbers below it. -/
def settleStream (st : StreamSt) : StreamSt :=
  let st := advance 64 st
  { st with slots := st.slots.filter fun w => decide (ahead st.base w.seq < 64) || decide (ahead w.seq st.base ≤ 64) }

/-- With one member, the slots it has executed are closed (R233, R244 step 4). -/
def closeAlone (s : State) (st : StreamSt) : StreamSt :=
  if memberCount s = 1 then
    settleStream { st with slots := st.slots.map fun w => if isMember s w.crew then { w with closed := true } else w }
  else st

/-! ## Faults judged at a landing (R232 to R236, R256, R259) -/

/-- The parent of a fault of a crew inside the shadow of its own reset (R250, R268, R270). -/
def crewShadow (s : State) (c : Crew) : Option (BitVec 32) :=
  (s.fault.shadows.find? fun h => decide (crewOfUnit h.unit = some c)).map (·.parent)

/-- A fault that the unit `by'` judges against a crew, charged to its coxswain core (R256, R257, R259); one inside the shadow
of the crew's reset is consequential (R250, R270). -/
def crewCapture (c : Crew) (cls : FClass) (key : BitVec 8) (by' : Nat) (parent : Option (BitVec 32)) (s : State) :
    State :=
  let m := coxId c
  reportFault ((crewShadow s c).orElse fun _ => parent)
    { unit := m, cls := cls, key := key, detail := BitVec.ofNat 16 by', typ := 0xF, master := BitVec.ofNat 16 by', addr := 0
      persists := false, detector := .other } s

/-- A copy that breaks the rules of its stream (R230, R256): a C fault of the core that sent it, in its own access. -/
def streamBreak (k : Copy) (s : State) : State :=
  raise (senderId s k) .c 5 1 (senderId s k) 0 (landingId k.landing) { s with free := s.free + 1 }

/-- A duplicate copy (R232). -/
def duplicate (k : Copy) (s : State) : State :=
  let s := onLanding k.landing (fun y => { y with duplicates := satInc 0xFF y.duplicates }) s
  crewCapture k.crew .c 5 (landingId k.landing) none s

/-- Unequal digests (R235, R236). -/
def diverge (k : Copy) (w : WSlot) (s : State) : State :=
  let id := landingId k.landing
  let s := onLanding k.landing (fun y => { y with divergences := satInc 0xFF y.divergences }) s
  if isMember s k.crew = false then crewCapture k.crew .f 2 id none s
  else if seatHolder s = some w.crew then crewCapture k.crew .f 2 id none s
  else if valueStream k.landing k.stream then crewCapture w.crew .f 2 id none (executeCopy k s)
  else
    let s := record 0x0803 7 (BitVec.ofNat 16 id) 0 s
    let s := crewCapture w.crew .f 2 id none s
    chipFatal 3 (faultId s (coxId w.crew)) s

/-- One more compared copy of the crew in SHADOW (R243). -/
def countCompared (s : State) : State :=
  let up (c : CrewUnit) : CrewUnit := if c.st = .shadow then { c with compared := c.compared + 1 } else c
  s.onCrew fun x => { x with bow := up x.bow, stroke := up x.stroke }

/-- The second copy is compared with the executed one (R235). -/
def compareCopy (k : Copy) (w : WSlot) (s : State) : State :=
  if k.digest = w.digest then countCompared s else diverge k w s

/-- A copy of an empty slot executes (R232); one from the crew without the seat is counted (R253). -/
def firstCopy (k : Copy) (s : State) : State :=
  let alone := decide (memberCount s = 1)
  let w : WSlot := { seq := k.seq.toNat, crew := k.crew, digest := k.digest, closed := alone, paired := false, cmd := k.cmd }
  let s := setStream k.landing k.stream (settleStream (putWSlot w (streamOf s k.landing k.stream))) s
  let s := if seatHolder s = some k.crew then s
    else onLanding k.landing (fun y => { y with strokeLate := satInc 0xFFFF y.strokeLate }) s
  executeCopy k s

/-- The second copy of a slot or of the history (R232): the slot closes, then the digests are compared. -/
def secondCopy (k : Copy) (w : WSlot) (s : State) : State :=
  let s := setStream k.landing k.stream
    (settleStream (putWSlot { w with closed := true, paired := true } (streamOf s k.landing k.stream))) s
  compareCopy k w s

/-- A copy waits at its sender's crossbar port (R232). -/
def waitCopy (k : Copy) (s : State) : State := s.onCrew fun x => { x with waiting := x.waiting ++ [k] }

/-- A copy at its landing, by its sequence number (R232, R236). A copy sent in SHADOW for a slot that is empty waits at its
sender's port until the slot is filled, and never executes; numbers that lie ahead of the base by less than 2³¹ wait, the
others are late (DESIGN CHOICE, log 102). -/
def placeCopy (k : Copy) (s : State) : State :=
  let st := closeAlone s (streamOf s k.landing k.stream)
  let s := setStream k.landing k.stream st s
  let n := k.seq.toNat
  let d := ahead st.base n
  if d < 64 then
    match slotOfSeq st n with
    | none => if k.shadow then waitCopy k s else firstCopy k s
    | some w => if w.crew = k.crew then duplicate k s else if w.paired then duplicate k s else secondCopy k w s
  else if d < seqMod / 2 then waitCopy k s
  else if ahead n st.base ≤ 64 then
    match slotOfSeq st n with
    | none => duplicate k s
    | some w => if w.crew = k.crew ∨ w.paired then duplicate k s else secondCopy k w s
  else onLanding k.landing (fun y => { y with late := satInc 0xFFFF y.late }) s

/-- A waiting copy may go on: its number is in the window, or, of a copy sent in SHADOW, its slot is filled (log 102). -/
def mayGo (s : State) (k : Copy) : Bool :=
  let st := streamOf s k.landing k.stream
  let d := ahead st.base k.seq.toNat
  if !k.shadow then decide (d < 64) || decide (seqMod / 2 ≤ d)
  else (slotOfSeq st k.seq.toNat).isSome || decide (seqMod / 2 ≤ d)

/-- Let the waiting copies go on, in their order. -/
def retryCopies : Nat → State → State
  | 0, s => s
  | n + 1, s =>
    match s.crew.waiting.find? (mayGo s) with
    | none => s
    | some k => retryCopies n (placeCopy k (s.onCrew fun x => { x with waiting := x.waiting.erase k }))

/-- A copy arrives (R230, R232, R236): from a crew that sends nothing it is discarded; one that breaks the rules
of its stream is dropped and captured. -/
def arrive (k : Copy) (s : State) : State :=
  let sends := isMember s k.crew || decide ((crewOf s k.crew).st = .shadow)
  if !sends then s
  else if !hasStream k.landing k.stream || (k.stream.cox && !k.coxCore) then
    if isLimits k.cmd then limitsRefused k s else streamBreak k s
  else
    let s := placeCopy k s
    retryCopies s.crew.waiting.length s

/-! ## The pairing lag (R234) -/

/-- The crew's crossbar port carries the pairing lag: it is one of two members, and the other holds the seat. -/
def lagOn (s : State) (c : Crew) : Bool :=
  decide (memberCount s = 2) && isMember s c && decide (seatHolder s ≠ some c)

/-- The pairing lag of 1 µs. -/
def pairingLag : Nat := 1000

/-- A copy may leave the lag buffer: its lag has passed, or its port carries none any more. -/
def lagOver (s : State) (x : Nat × Copy) : Bool := decide (x.1 ≤ s.tb.now) || !lagOn s x.2.crew

/-- The copies at the head of the lag buffer whose lag is over arrive, in order. -/
def releaseLag : Nat → State → State
  | 0, s => s
  | n + 1, s =>
    match s.crew.lagBuf with
    | [] => s
    | x :: t => if lagOver s x then releaseLag n (arrive x.2 (s.onCrew fun c => { c with lagBuf := t })) else s

/-- Every copy whose lag is over arrives. -/
def releaseLagged (s : State) : State := releaseLag s.crew.lagBuf.length s

/-- The digest of a copy (R230): CRC-32C over header bytes 0 to 9 and the payload, for a command whose opcode and payload it
carries; the spec gives the other commands no encoding, so theirs is the operand (log 20). -/
def copyDigest (stream : Stream) (seq digest : BitVec 32) : Landed → BitVec 32
  | .firmware opcode payload =>
    let sid := stream.num.val + (if stream.cox then 0x8000 else 0)
    crc32c (leBytes 4 seq.toNat ++ leBytes 2 sid ++ leBytes 2 opcode.toNat ++ leBytes 2 payload.length ++ payload)
  | _ => digest

/-- LANDING_COPY (R232, R234): the copy of a port with the lag arrives 1 µs later; the copies whose lag is over have arrived
before it (log 77). -/
def execLandingCopy (crew : Crew) (coxCore : Bool) (landing : Landing) (stream : Stream) (seq : BitVec 32)
    (digest : BitVec 32) (cmd : Landed) (s : State) : Host.Outcome State Fault Refusal :=
  if darkOrAux s || frozen s then .next s
  else
    let k : Copy := { crew := crew, landing := landing, stream := stream, seq := seq
                      digest := copyDigest stream seq digest cmd, cmd := cmd, coxCore := coxCore
                      shadow := decide ((crewOf s crew).st = .shadow) }
    let s := releaseLagged s
    if lagOn s crew then finish (s.onCrew fun c => { c with lagBuf := c.lagBuf ++ [(s.tb.now + pairingLag, k)] })
    else finish (arrive k s)

/-! ## The pairing limit (R233, R269) -/

/-- A slot's pairing limit is over: it closes, and the crew whose copy is missing takes a U-class fault. -/
def pairingOver (l : Landing) (x : Stream) (w : WSlot) (s : State) : State :=
  let s := setStream l x (settleStream (putWSlot { w with closed := true } (streamOf s l x))) s
  let s := onLanding l (fun y => { y with pairTimeouts := satInc 0xFF y.pairTimeouts }) s
  let s := crewCapture w.crew.other .u 3 (landingId l) (maskedBy s (.pairing l x)) s
  retryCopies s.crew.waiting.length s

/-- PAIRING_TIMEOUT (R233): only while two crews are members. -/
def execPairingTimeout (landing : Landing) (stream : Stream) (seq : BitVec 32) (s : State) :
    Host.Outcome State Fault Refusal :=
  if frozen s || decide (memberCount s ≠ 2) then .next s
  else match slotOfSeq (streamOf s landing stream) seq.toNat with
    | some w => if w.closed then .next s else finish (pairingOver landing stream w s)
    | none => .next s

end Sys2Proof.Machine
end

