-- ==== Sys2Proof/Machine/CrewCommands.lean ====
section
/-! DEFINITION. Commands of the crews and the Umpire (R228 to R254, R411): timer ticks, the seat, health, rejoins
and loads, and the requests that move the seat or reset a crew. -/

namespace Sys2Proof.Machine

/-- The Umpire and the crews run: CORE has started and no freeze stops them (R24, R461). -/
def umpireRuns (s : State) : Bool := !darkOrAux s && !frozen s

/-! ## Ticks, seat, health (R228, R238 to R241) -/

/-- The mirror digests of a tick differ (R238): an F-class fault against the crew without the seat. -/
def digestFault (s : State) : State :=
  match seatHolder s with
  | some c => crewCapture c.other .f 4 0x0040 none s
  | none => s

/-- TIMER_TICK (R228, R238): members send their digests. -/
def execTimerTick (bow stroke : BitVec 32) (s : State) : Host.Outcome State Fault Refusal :=
  if !umpireRuns s then .next s
  else
    let s := fanTick (resetFaulted s)
    let s := if isMember s .bow then onCrewUnit .bow (fun c => { c with digest := bow }) s else s
    let s := if isMember s .stroke then onCrewUnit .stroke (fun c => { c with digest := stroke }) s else s
    finish (if memberCount s = 2 ∧ bow ≠ stroke then digestFault s else s)

/-- The token is one R239 gives. -/
def validToken (b : Byte) : Bool := decide (b = 0x5A ∨ b = 0xA5 ∨ b = 0)

/-- The Umpire decides by health score (R241). -/
def arbitrate (s : State) : State :=
  let s := setSeat (higherScore s) s
  let s := s.onCrew fun x => { x with arbitrations := satInc 0xFF x.arbitrations }
  raise 0x0040 .c 0 0xF 0x0040 0 0 (record 0x0804 4 0x0040 0 s)

/-- SEAT_TOKEN_CORRUPT (R239, R241). -/
def execSeatTokenCorrupt (found : Byte) (s : State) : Host.Outcome State Fault Refusal :=
  if umpireRuns s && !validToken found then finish (releaseLagged (arbitrate s)) else .next s

/-- HEALTH_SECOND (R240). -/
def execHealthSecond (crew : Crew) (s : State) : Host.Outcome State Fault Refusal :=
  if isMember s crew && !frozen s then
    .next (onCrewUnit crew (fun c => { c with score := min 255 (c.score + 1), scoreSince := s.tb.now }) s)
  else .next s

/-! ## Loads (R243, R246) -/

/-- A crew starts to load the image that runs: that of the crew with the seat, with none its own of before. A change of the
active slot that acts from the next start on (R416) leaves it. -/
def startLoading (c : Crew) (s : State) : State :=
  let k := match seatHolder s with
    | some y => (crewOf s y).image
    | none => (crewOf s c).image
  onCrewUnit c (fun x =>
    { x with st := .loading, image := k, loadFails := 0, releaseAt := s.tb.now, held := false
             waiting := false, offSince := none }) s

/-- CREW_REJOIN_TIMER (R243, R151). -/
def execCrewRejoinTimer (crew : Crew) (s : State) : Host.Outcome State Fault Refusal :=
  let s' := resetFaulted s
  let c := crewOf s' crew
  if c.st = .off ∧ c.offSince.isSome ∧ c.held = false ∧ faults1h s c < 3 ∧ saving s = false ∧ umpireRuns s then
    .next (startLoading crew s')
  else .next s

/-- What the first member of a start brings (R23, R225, R323, R425, R445): the flash population is identified, the
gauge record taken up, the core voltage target restored. A rebuild while the device runs restores no target. -/
def firstMember (s : State) : State :=
  let start := decide (s.boot.stage ≤ 1)
  let s := identifyFlash s
  let s := s.onBoot fun b => { b with stage := if b.stage ≤ 1 then (if s.seq.st = .core then 2 else 3) else b.stage }
  if start then restoreTarget (takeUp s) else takeUp s

/-- A crew becomes a member with the work of a first member done. -/
def joinAlone (c : Crew) (s : State) : State := firstMember (becomeMember c s)

/-- Both crews have loaded at a start from DARK (R241, R243): the seat goes to Stroke. -/
def joinBoth (s : State) : State :=
  let s := s.onCrew fun x => { x with startLoad := false, inputSeq := 0 }
  firstMember (becomeMember .bow (becomeMember .stroke s))

/-- The oars run microcode of an image, with the windows granted at this load (R21, R411 step 6, R412). -/
def reloadOars (k : Fin 2) (s : State) : State :=
  let s := s.onDram fun d => { d with channels := (d.channels.zip (List.range 8)).map fun x =>
    if x.1.oarSlot.isSome then { x.1 with oarSlot := some k, windows := dramWindows x.2 } else x.1 }
  s.onFlash fun f => { f with channels := (f.channels.zip (List.range 32)).map fun x =>
    if x.1.oarSlot.isSome then { x.1 with oarSlot := some k, windows := flashWindows x.2 } else x.1 }

/-- A crew rebuilds with no survivor (R237): windows start from their bases, sessions are abandoned, the update lock is free,
the Weir's bounds are computed from the inputs of the moment, and the mapping deltas that were not in DRAM are lost. The oars
run its image, which after an aborted update is the previous one (R412). The first publication is the next WEIR_RECOMPUTE's.
-/
def rebuild (c : Crew) (s : State) : State :=
  let clear (l : LandingSt) : LandingSt := { l with streams := l.streams.map fun y => (y.1, { y.2 with slots := [] }) }
  let s := s.onCrew fun x =>
    { x with startLoad := false, waiting := [], lagBuf := [], host := clear x.host, mem := clear x.mem, fls := clear x.fls
             pwr := clear x.pwr, ldg := clear x.ldg }
  let s := releaseSession (endSessions (fun _ => true) s)
  recompute (joinAlone c (loseDeltas (reloadOars (crewOf s c).image s)))

/-- The time within which the survivor writes its mirrored state into a rejoining crew (R245). -/
def copyNs : Nat := 20000

/-- A crew that loaded takes the survivor's handover (R245): H is the next input, from which on the fan queues inputs for this
crew; the survivor stops taking inputs while it writes its state, within 20 µs. -/
def enterCatchup (c : Crew) (s : State) : State :=
  onCrewUnit c (fun x =>
    { x with st := .catchup, waiting := false, handover := s.crew.inputSeq, queue := []
             copyEnd := some (s.tb.now + copyNs) }) s

/-- The survivor has written its state (R237, R245): the rejoining crew stands where the survivor stood, at input H − 1, and
the survivor resumes with the inputs that came meanwhile. -/
def endCopy (c : Crew) (s : State) : State :=
  let o := crewOf s c.other
  let s := onCrewUnit c (fun x =>
    { x with copyEnd := none, input := o.input, stamp := o.stamp, entropy := o.entropy }) s
  onCrewUnit c.other (fun x => { process x.queue x with queue := [] }) s

/-- The copy of a crew whose 20 µs are over has ended (R245). -/
def copyStep (s : State) : State :=
  let ended (c : Crew) (s : State) : State :=
    match (crewOf s c).copyEnd with
    | some t => if t ≤ s.tb.now then endCopy c s else s
    | none => s
  ended .bow (ended .stroke s)

/-- What time does to the crews between commands: a faulted crew is reset within 1 µs (R243), a handover copy ends (R245). -/
def crewStep (s : State) : State := if darkOrAux s || frozen s then s else copyStep (resetFaulted s)

/-- The other crew has loaded and waits for this one (R243): at a start, or behind a rebuild. -/
def otherWaits (c : Crew) (s : State) : Bool :=
  let o := crewOf s c.other
  decide (o.st = .loading) && o.waiting

/-- A load ended well (R243). -/
def loadOk (c : Crew) (s : State) : State :=
  let o := crewOf s c.other
  if o.st = .member then enterCatchup c s
  else if s.crew.startLoad then
    if otherWaits c s then joinBoth s
    else if o.st = .loading then onCrewUnit c (fun x => { x with waiting := true }) s
    else rebuild c s
  else rebuild c s

/-- An image failed verification (R243): retried up to 3 times, then OFF and held. A crew of the start that waited
for this one goes on alone. -/
def loadBad (c : Crew) (s : State) : State :=
  let x := crewOf s c
  if x.loadFails < 3 then onCrewUnit c (fun x => { x with loadFails := x.loadFails + 1, releaseAt := s.tb.now }) s
  else
    let s := onCrewUnit c (fun x => { x with st := .off, held := true, waiting := false, offSince := none }) s
    let s := record 0x0802 6 0x0040 0 s
    if s.crew.startLoad && otherWaits c s then rebuild c.other s else s

/-- X has loaded the incoming image, or failed to (R411 step 4, R412): then it is loaded from the running one. -/
def standbyLoaded (x : Crew) (verified : Bool) (s : State) : State :=
  if verified then onCrewUnit x (fun c => { c with waiting := true, image := s.upd.incoming }) s
  else startLoading x (abortActivation stInternal s)

/-- The load in progress of a crew is that of an activation's X, of its Y after the handover, or its own. -/
def loadDone (c : Crew) (verified : Bool) (s : State) : State :=
  if (crewOf s c).st = .standby then
    if s.upd.stage = .loadingX then standbyLoaded c verified s
    else if verified then enterCatchup c s
    else loadBad c s
  else if verified then loadOk c s
  else loadBad c s

/-- CREW_LOAD_DONE (R243, R246, R411). -/
def execCrewLoadDone (crew : Crew) (verified : Bool) (s : State) : Host.Outcome State Fault Refusal :=
  let c := crewOf s crew
  if (c.st = .loading ∨ c.st = .standby) ∧ c.waiting = false ∧ umpireRuns s ∧ boathouse s = false then
    finish (loadDone crew verified s)
  else .next s

/-! ## Catching up and shadow (R243) -/

/-- The backlog of a crew has reached 0 (R245): the copy that started it is over, and every queued input is processed. -/
def emptyQueue (c : Crew) (s : State) : State :=
  let s := if (crewOf s c).copyEnd.isSome then endCopy c s else s
  onCrewUnit c (fun x => { process x.queue x with queue := [] }) s

/-- CATCHUP_DONE (R243): with the other crew a member, SHADOW; with none, MEMBER without comparison. -/
def execCatchupDone (crew : Crew) (s : State) : Host.Outcome State Fault Refusal :=
  if (crewOf s crew).st ≠ .catchup ∨ frozen s = true then .next s
  else
    let s := emptyQueue crew s
    if isMember s crew.other then
      .next (onCrewUnit crew (fun c => { c with st := .shadow, compared := 0, shadowSince := s.tb.now }) s)
    else finish (joinAlone crew s)

/-- The shadow has been clean for 100 ms and 1,000 compared copies (R243). -/
def shadowReady (s : State) (c : Crew) : Bool :=
  let x := crewOf s c
  decide (x.st = .shadow) && decide (1000 ≤ x.compared) && decide (x.shadowSince + 100 * nsPerMs ≤ s.tb.now)

/-- A crew has rejoined (R243, R246, R252). -/
def rejoined (c : Crew) (s : State) : State :=
  let ms := (s.tb.now - (crewOf s c).releaseAt) / nsPerMs
  let s := becomeMember c s
  let s := onCrewUnit c (fun x => { x with rejoins := satInc 0xFF x.rejoins, rejoinTime := sat 0xFFFF ms }) s
  let s := record 0x0801 2 (coxId c) 0 s
  if s.upd.stage = .handedOver then completeActivation c s else s

/-- SHADOW_CLEAN (R243, R411). -/
def execShadowClean (crew : Crew) (s : State) : Host.Outcome State Fault Refusal :=
  if shadowReady s crew && !frozen s then finish (rejoined crew s) else .next s

/-! ## Requests (R241, R254) -/

/-- A save, a restore or an update forbids the requests of R254. -/
def crewBusy (s : State) : Bool := saving s || restoring s || decide (s.upd.stage ≠ .idle)

/-- The crew a value names. -/
def crewNamed (v : Byte) : Crew := if v = 0 then .bow else .stroke

/-- Two seat requests that name different members wait one behind the other: whether both came in one XCLK cycle is a free
value (R241; DESIGN CHOICE, log 103). -/
def dualRequest (v : Byte) (s : State) : Bool :=
  match s.pending with
  | .seatRequest _ w :: _ => decide (w.toNat ≤ 1) && decide (w ≠ v) && decide (memberCount s = 2)
  | _ => false

/-- The Umpire's decision on two requests of one cycle (R241): the member with the higher score gets the seat and its request
OK; the other request returns STATE, be it this one or the next. -/
def dualDecide (v : Byte) (s : State) : Nat × State :=
  let won := decide (higherScore s = some (crewNamed v))
  let s := releaseLagged (setSeat (higherScore s) s)
  (if won then stOk else stState,
    s.onCrew fun x => { x with arbitrations := satInc 0xFF x.arbitrations, rival := won })

/-- A write to 0x9005 (R241). -/
def seatWrite (v : Byte) (s : State) : Nat × State :=
  let lost := s.crew.rival
  let s := s.onCrew fun x => { x with rival := false }
  if 1 < v.toNat then (stRange, s)
  else if !isMember s (crewNamed v) || crewBusy s || lost then (stState, s)
  else if dualRequest v s && decide (Config.freeBits 1 s.free = 1) then dualDecide v { s with free := s.free + 1 }
  else (stOk, releaseLagged (setSeat (some (crewNamed v)) s))

/-- SEAT_REQUEST (R241, R254). -/
def execSeatRequest (p : Path) (v : Byte) (s : State) : Host.Outcome State Fault Refusal :=
  if turnedAway s p then .next (turnAway p s) else finish (serve p 0x9005 [1, 2] (notInBoathouse s (seatWrite v s)) s)

/-- The named crew is reset without a capture (R244, R254): a member leaves with a switch-over; one held OFF starts
to load; one on its way back begins again. -/
def resetCrew (c : Crew) (s : State) : State :=
  let s := resetFaulted s
  match (crewOf s c).st with
  | .member => crewDown c s
  | .off => if (crewOf s c).held then record 0x0800 4 0x0040 0 (startLoading c s) else record 0x0800 4 0x0040 0 s
  | _ =>
    record 0x0800 4 0x0040 0 (dropCopies c
      (onCrewUnit c (fun x =>
        { x with st := .off, offSince := some s.tb.now, compared := 0, queue := [], copyEnd := none, waiting := false }) s))

/-- A write to 0x9006 (R254). -/
def crewResetWrite (v : Byte) (s : State) : Nat × State :=
  if 1 < v.toNat then (stRange, s)
  else if !isMember s (crewNamed v).other || crewBusy s then (stState, s)
  else (stOk, resetCrew (crewNamed v) s)

/-- CREW_RESET_REQUEST (R254). -/
def execCrewResetRequest (p : Path) (v : Byte) (s : State) : Host.Outcome State Fault Refusal :=
  if turnedAway s p then .next (turnAway p s) else finish (serve p 0x9006 [1, 2] (notInBoathouse s (crewResetWrite v s)) s)

end Sys2Proof.Machine
end

