-- ==== Sys2Proof/Machine/Updates.lean ====
section
/-! DEFINITION. Firmware update (R398 to R420): the session, the blocks, Commit and its verification, the handover,
the trial, the fall-back, and Boathouse mode's Commit. -/

namespace Sys2Proof.Machine

/-! ## Vendor commands of the update (R61, R64 to R66, R365) -/

/-- A vendor command by any privilege: its answer is what `act` gives, unless the gate refuses it. -/
def serveAny (p : Path) (act : (Nat × List Byte) × State) (s : State) : State :=
  match gate 0xC000 p s with
  | some st => reply p st (List.replicate act.1.2.length 0) s
  | none => reply p act.1.1 act.1.2 act.2

/-- A status with the three reserved bytes that follow it. -/
def plain (r : Nat × State) : (Nat × List Byte) × State := ((r.1, [0, 0, 0]), r.2)

/-- The slot an update writes: not the active one; in Boathouse mode the one that does not verify, if there is one
(R401, R418). -/
def targetSlot (s : State) : Fin 2 :=
  let o := otherSlot s.upd.active
  if boathouse s && imageOk s o && !imageOk s s.upd.active then s.upd.active else o

/-- Sixty seconds: the idle limit of a session (R404). -/
def sessionIdle : Nat := 60 * nsPerS

/-- The request names the open session: its idle timer starts again (R404). -/
def touchSession (id : Nat) (s : State) : State :=
  s.onUpd fun u => { u with session := u.session.map fun x => if x.id = id then { x with last := s.tb.now } else x }

/-! ## Update Open (R64, R403) -/

/-- A fall-back is in progress or waits (R403, R419). -/
def fallingBack (s : State) : Bool := s.upd.fallback || decide (s.upd.stage = .waitMembers)

/-- Output of Update Open after its status (R64). -/
def openOut (id transport endpoint secs : Nat) : List Byte :=
  [0] ++ leBytes 2 id ++ leBytes 1 transport ++ leBytes 1 endpoint ++ leBytes 2 secs

/-- A new session (R403): its number, and the slot whose header sector is erased. -/
def openSession (p : Path) (length : Nat) (s : State) : State :=
  let id := s.upd.lastId % 0xFFFF + 1
  let k := targetSlot s
  let s := putSlot k none s
  let s := s.onUpd fun u =>
    { u with
      lastId := id
      session := some { id := id, transport := transport p, endpoint := endpoint p, length := length, ranges := []
                        last := s.tb.now, opened := s.tb.now, slot := k
                        secured := match p with
                          | .secured i _ _ _ => some i
                          | _ => none } }
  record 0x0900 2 0x7000 id s

/-- Update Open by the rows of R403, in the order of R365. -/
def openOp (p : Path) (length : Nat) (s : State) : (Nat × List Byte) × State :=
  if s.od.set.ownerLock ≠ 0 then ((stLocked, openOut 0 0 0 0), s)
  else if length < 4096 ∨ 33554432 < length then ((stRange, openOut 0 0 0 0), s)
  else if s.upd.trial = 1 ∨ fallingBack s then ((stState, openOut 0 0 0 0), s)
  else match s.upd.session with
    | some u =>
      ((stBusy, openOut 0 u.transport u.endpoint ((sessionIdle - (s.tb.now - u.last)) / nsPerS)), s)
    | none =>
      let t := openSession p length s
      ((stOk, openOut t.upd.lastId 0 0 0), t)

/-- UPDATE_OPEN (R403). -/
def execUpdateOpen (p : Path) (length : Nat) (s : State) : Host.Outcome State Fault Refusal :=
  if turnedAway s p then .next (turnAway p s) else finish (serveAny p (openOp p length s) s)

/-! ## Update Block and Abort (R65, R405, R406) -/

/-- A range overlaps an accepted one. -/
def overlaps (off n : Nat) (l : List (Nat × Nat)) : Bool := l.any fun r => decide (off < r.1 + r.2 ∧ r.1 < off + n)

/-- Every 4 KiB sector of a range has been erased since the Open (R403, R405): how long a sector takes is a free value
(log 80). -/
def rangeErased (s : State) (u : UpdSession) (off n : Nat) : Bool :=
  (List.range' (off / 4096) ((off + n - 1) / 4096 - off / 4096 + 1)).all fun k =>
    decide (u.opened + Config.sectorEraseNs k ≤ s.tb.now)

/-- Update Block by R65 and R405, in the order of R365. -/
def blockOp (id off : Nat) (data : List Byte) (readBack : Bool) (s : State) : Nat × State :=
  match s.upd.session with
  | none => (stSession, s)
  | some u =>
    let n := data.length
    let s := touchSession id s
    if u.id ≠ id then (stSession, s)
    else if n = 0 then (stLengthZero, s)
    else if 4096 < n ∨ u.length < off + n then (stRange, s)
    else if !rangeErased s u off n then (stBusy, s)
    else if overlaps off n u.ranges then (stOverlap, s)
    else if !readBack then (stMedia, s)
    else (stOk, s.onUpd fun x => { x with session := x.session.map fun y => { y with ranges := y.ranges ++ [(off, n)] } })

/-- UPDATE_BLOCK (R405). -/
def execUpdateBlock (p : Path) (session off : Nat) (data : List Byte) (readBack : Bool) (s : State) :
    Host.Outcome State Fault Refusal :=
  if turnedAway s p then .next (turnAway p s) else finish (serveAny p (plain (blockOp session off data readBack s)) s)

/-- Update Abort (R406): until activation begins; a Commit whose verification runs ends with it. -/
def abortOp (id : Nat) (s : State) : Nat × State :=
  match s.upd.session with
  | none => (stSession, s)
  | some u =>
    if u.id ≠ id then (stSession, s)
    else if s.upd.stage = .idle then (stOk, releaseSession s)
    else if s.upd.stage = .verifying then
      (stOk, (releaseSession (commitDone stSession s)).onUpd fun u => { u with stage := .idle })
    else (stState, s)

/-- UPDATE_ABORT (R406). -/
def execUpdateAbort (p : Path) (session : Nat) (s : State) : Host.Outcome State Fault Refusal :=
  if turnedAway s p then .next (turnAway p s) else finish (serveAny p (plain (abortOp session s)) s)

/-- UPDATE_SESSION_IDLE (R404). -/
def execUpdateSessionIdle (s : State) : Host.Outcome State Fault Refusal :=
  match s.upd.session with
  | some u => if s.upd.stage = .idle ∧ u.last + sessionIdle ≤ s.tb.now then finish (releaseSession s) else .next s
  | none => .next s

/-! ## Update Commit (R66, R407) -/

/-- Bytes accepted in a session (R405: 0x7001). -/
def bytesAccepted (u : UpdSession) : Nat := u.ranges.foldl (fun n r => n + r.2) 0

/-- The checks of R407 in their order. -/
def commitCheck (id : Nat) (s : State) : Nat :=
  match s.upd.session with
  | none => stSession
  | some u =>
    if u.id ≠ id then stSession
    else if s.od.set.ownerLock ≠ 0 then stLocked
    else if bytesAccepted u ≠ u.length then stState
    else stOk

/-- Verification starts as the mailbox's background command, or for a response by the path (R66). -/
def startVerify (p : Path) (id : Nat) (s : State) : State :=
  let s := (touchSession id s).onUpd fun u => { u with stage := .verifying, committer := some p }
  match p with
  | .mailbox h => mbox h .started [] (onHead h (fun x => { x with bg := .commit }) s)
  | _ => s

/-- A head's background command runs (R66). -/
def bgBusy (s : State) (p : Path) : Bool :=
  match p with
  | .mailbox h => decide ((headOf s h).bg ≠ .none)
  | _ => false

/-- A Commit that a check ends (R66, R407): on a mailbox the background command starts and ends with the status; by another
path the status answers it. -/
def commitFails (p : Path) (st : Nat) (s : State) : State :=
  match p with
  | .mailbox h => vectorOn h 0 (onHead h (fun x => { x with bgStatus := st }) (mbox h .started [] s))
  | _ => reply p st [0, 0, 0] s

/-- Update Commit (R66, R407): Busy while the mailbox's background command runs; one Commit at a time. -/
def commitStart (p : Path) (id : Nat) (s : State) : State :=
  if bgBusy s p then
    (match p with
     | .mailbox h => mbox h .busy [] s
     | _ => s)
  else match gate 0xC000 p s with
  | some st => commitFails p st s
  | none =>
    if commitCheck id s ≠ stOk then commitFails p (commitCheck id s) (touchSession id s)
    else if s.upd.stage ≠ .idle then commitFails p stBusy (touchSession id s)
    else startVerify p id s

/-- UPDATE_COMMIT (R407). -/
def execUpdateCommit (p : Path) (session : Nat) (s : State) : Host.Outcome State Fault Refusal :=
  if turnedAway s p then .next (turnAway p s) else finish (commitStart p session s)

/-! ## Verification and refusal (R400, R408, R409) -/

/-- Handover compatibility with the running image (R400). -/
def handoverOk (s : State) (f : VerifyIn) : Bool :=
  match runningImage s with
  | some r =>
    decide (f.lowestHandover ≤ r.handover ∧ r.handover ≤ f.highestHandover) &&
      decide (r.low ≤ f.producedHandover ∧ f.producedHandover ≤ r.high)
  | none => true

/-- Longest section of a type in bytes (R399). -/
def sectionMax (typ : Nat) : Nat :=
  if typ = 1 ∨ typ = 3 ∨ typ = 4 then 65536
  else if typ = 2 then 2097152
  else if typ = 5 then 262144
  else 0

/-- An entry of the section table is one that R399 allows: an unused one has length 0; a section lies at or above 0x200 and
within the image. -/
def sectionOk (length : Nat) (x : Section) : Bool :=
  x.restZero && decide (x.typ ≤ 5) &&
    (if x.typ = 0 then decide (x.len = 0)
     else decide (1 ≤ x.len ∧ x.len ≤ sectionMax x.typ ∧ 0x200 ≤ x.off ∧ x.off + x.len ≤ length))

/-- Two sections share no byte; an unused entry, of length 0, overlaps nothing. -/
def apart (x y : Section) : Bool := decide (x.len = 0 ∨ y.len = 0 ∨ x.off + x.len ≤ y.off ∨ y.off + y.len ≤ x.off)

/-- No two sections of a table overlap. -/
def allApart : List Section → Bool
  | [] => true
  | x :: t => t.all (apart x) && allApart t

/-- Entries of a type. -/
def ofType (l : List Section) (typ : Nat) : Nat := (l.filter fun x => decide (x.typ = typ)).length

/-- The section table meets R399: 8 entries, each allowed, none overlapping, types 2 to 5 once each and type 1 at most once. -/
def sectionsOk (length : Nat) (l : List Section) : Bool :=
  decide (l.length = 8) && l.all (sectionOk length) && allApart l &&
    [2, 3, 4, 5].all (fun n => decide (ofType l n = 1)) && decide (ofType l 1 ≤ 1)

/-- Check 1 of R408: magic, header version, the length of the Open, the section table. -/
def formOk (s : State) (f : VerifyIn) : Bool :=
  decide (f.magic = 0x544B494D ∧ f.headerVersion = 1 ∧ s.upd.session.map (·.length) = some f.length) &&
    sectionsOk f.length f.sections

/-- The key's hash is one of the coxswain key store's and is not revoked (R395, R408). -/
def keyTrusted (s : State) (key : Nat) : Bool := s.upd.imageKeys.any fun x => decide (x.1 = key) && !x.2

/-- The checks of R408 in their order; in Boathouse mode no image runs to be compatible with. -/
def verifyCheck (s : State) (f : VerifyIn) : Nat :=
  if !formOk s f then stIntegrity
  else if !keyTrusted s f.key || !f.signatureOk then stAuth
  else if !f.digestOk then stIntegrity
  else if f.deviceCode ≠ s.cfg.deviceCode then stVersion
  else if f.securityVersion < minVersion s then stVersion
  else if !boathouse s && !handoverOk s f then stVersion
  else stOk

/-- The image that verified. -/
def imageOf (f : VerifyIn) : ImageInfo :=
  { version := f.version, security := f.securityVersion, schema := f.schema, handover := f.producedHandover
    low := f.lowestHandover, high := f.highestHandover, verifies := true
    patch := (f.sections.find? fun x => decide (x.typ = 1)).map fun x =>
      { version := Config.patchVersion f.version f.securityVersion, len := x.len } }

/-- r_plan of the last computation in GB/s (R409). -/
def rPlanLast (s : State) : Rat := s.weir.bounds.rPlan

/-- The save need in J (R409). -/
def saveNeed (s : State) : Rat :=
  (s.cfg.board.eFixJ : Rat) + (s.pm.residue : Rat) / gb / rPlanLast s * pMod s (rPlanLast s)

/-- Usable energy of the weaker counted string in J (R409); 0 with none. -/
def usableEnergy (s : State) : Rat :=
  match weaker s, s.bat.desc with
  | some (x, _), some d => energyLb d (strOf s x) s.tb.now * ktAt d (strOf s x) * eta s
  | _, _ => 0

/-- The battery could not save through the update (R409); with r_plan 0 no energy meets the need. -/
def energyShort (s : State) : Bool := decide (rPlanLast s = 0) || decide (usableEnergy s < 5 / 4 * saveNeed s)

/-- The refusals of R409. -/
def updateRefused (s : State) : Bool :=
  saving s || !s.rst.committed || s.pm.sprint || settleBusy s || decide (s.seq.st ≠ .online) || !s.seq.catchIn ||
    decide (memberCount s < 2) || energyShort s

/-- A Commit that ends without an activation: its status, the stage idle. -/
def endCommit (status : Nat) (s : State) : State := commitDone status (s.onUpd fun u => { u with stage := .idle })

/-- Verification failed (R404, R408): recorded, and the session released. -/
def verifyFailed (status : Nat) (s : State) : State :=
  dropSession (endCommit status (record 0x0902 4 0x7000 status s))

/-- Activation of slot `k` (R411, R413): X's settings are read at step 4; when they cannot be, the update is aborted and X
rejoins on the running image. -/
def activate (k : Fin 2) (readable : Bool) (s : State) : State :=
  let s := beginActivation k s
  if readable then s else startLoading s.upd.crewX (abortActivation stVersion s)

/-- A successful Commit in Boathouse mode (R418): the slot written is active, the count is 0, and the sequencer goes
down to AUX, from where it may climb again. -/
def boathouseDone (k : Fin 2) (s : State) : State :=
  let s := s.onUpd fun u => { u with active := k, trial := 0, session := none }
  let s := bootWrite (endCommit stOk (s.onBoot fun b => { b with failedBoots := 0 }))
  powerDownTo .aux false s

/-- A signed image revokes image keys (R395). -/
def revokeKeys (f : VerifyIn) (s : State) : State :=
  s.onUpd fun u => { u with imageKeys := u.imageKeys.map fun x => (x.1, x.2 || f.revokes.contains x.1) }

/-- Verification ended (R408, R409, R418). -/
def verifyDone (f : VerifyIn) (s : State) : State :=
  let st := verifyCheck s f
  if st ≠ stOk then verifyFailed st s
  else
    let k := (s.upd.session.map (·.slot)).getD (targetSlot s)
    let s := revokeKeys f (putSlot k (some (imageOf f)) s)
    if boathouse s then boathouseDone k s
    else if updateRefused s then endCommit stState s
    else activate k f.settingsReadable s

/-- UPDATE_VERIFY_DONE (R408). -/
def execUpdateVerifyDone (found : VerifyIn) (s : State) : Host.Outcome State Fault Refusal :=
  if s.upd.stage = .verifying ∧ frozen s = false ∧ darkOrAux s = false then finish (verifyDone found s) else .next s

/-- Slot A or B verifies as the ROM finds it (R418). -/
def romFinds (k : Fin 2) (ok : Bool) (s : State) : State :=
  putSlot k ((slotOf s k).map fun i => { i with verifies := ok }) s

/-- BOATHOUSE_COMMIT (R418): Commit and its verification in one, by the ROM. -/
def execBoathouseCommit (p : Path) (session : Nat) (found : VerifyIn) (slotAOk slotBOk : Bool) (s : State) :
    Host.Outcome State Fault Refusal :=
  if !reaches s p || !boathouse s || darkOrAux s then .next s
  else
    let s := romFinds 1 slotBOk (romFinds 0 slotAOk s)
    let t := commitStart p session s
    if t.upd.stage = .verifying ∧ s.upd.stage = .idle then finish (verifyDone found t) else finish t

/-! ## The handover (R410, R411, R413, R416) -/

/-- Settings of a working copy (R413): a new major schema starts from the defaults, except what is not in the
settings area. -/
def workingSettings (same : Bool) (d x : Settings) : Settings :=
  if same then x else d

/-- Major schema version of a slot's image. -/
def majorOf (s : State) (k : Fin 2) : Nat :=
  match slotOf s k with
  | some i => i.schema.toNat / 256
  | none => 0

/-- Settings at step 5 (R413, R416): the copy in force becomes the frozen copy and the working copy is begun; a
fall-back brings the frozen copy back. -/
def handSettings (s : State) : State :=
  let same := decide (majorOf s s.upd.active = majorOf s s.upd.incoming)
  if s.upd.fallback then thawSettings s
  else
    s.onOd fun o =>
      let w := workingSettings same (defaultSettings s.cfg) o.set
      { o with frozen := some o.set, frozenUsed := o.used, frozenRecords := o.records, set := w, used := compactedSize w
               records := compactedRecords w, copySeq := o.copySeq + 1, workingCopy := true, compacting := false }

/-- The handover from Y to X and the boot config after it (R410, R411 steps 5 to 8). -/
def handOver (s : State) : State :=
  let x := s.upd.crewX
  let k := s.upd.incoming
  let s := reloadOars k (handSettings s)
  let s := onCrewUnit x.other (fun c =>
    { c with st := .standby, score := 0, image := k, loadFails := 0, releaseAt := s.tb.now, waiting := false }) s
  let s := s.onUpd fun u =>
    { u with active := k, repechage := u.active, trial := if u.fallback then 0 else 1, trialS := 0, trialFailed := false
             stage := .handedOver }
  becomeMember x (setSeat (some x) (bootWrite s))

/-- Every oar queue is empty (R410). -/
def oarsIdle (s : State) : Bool := s.flash.channels.all fun c => c.jobs.isEmpty

/-- Every slot of a landing that a copy opened has closed. -/
def landingClosed (l : LandingSt) : Bool := l.streams.all fun x => x.2.slots.all (·.closed)

/-- Every landing slot has closed, and no copy is on its way to one (R410). -/
def slotsClosed (s : State) : Bool :=
  s.crew.waiting.isEmpty && s.crew.lagBuf.isEmpty &&
    [s.crew.host, s.crew.mem, s.crew.fls, s.crew.pwr, s.crew.ldg].all landingClosed

/-- X waits in STANDBY with the incoming image loaded, and Y is the member (R410). -/
def handReady (s : State) : Bool :=
  let x := s.upd.crewX
  decide (s.upd.stage = .loadingX) && decide ((crewOf s x).st = .standby) && (crewOf s x).waiting &&
    isMember s x.other && oarsIdle s && slotsClosed s && !frozen s && !saving s

/-- UPDATE_HANDOVER (R410). -/
def execUpdateHandover (s : State) : Host.Outcome State Fault Refusal :=
  if handReady s then finish (handOver s) else .next s

/-- SETTINGS_WORKING_COPY_WRITTEN (R413). -/
def execSettingsWorkingCopyWritten (s : State) : Host.Outcome State Fault Refusal :=
  if frozen s then .next s else .next (s.onOd fun o => { o with workingCopy := false })

/-! ## Trial and fall-back (R414 to R416, R435) -/

/-- The trial is committed (R415). -/
def commitTrial (s : State) : State :=
  let v := match slotOf s s.upd.active with
    | some i => i.security
    | none => 0
  let m := max (minVersion s) v
  let s := s.onUpd fun u =>
    { u with minSecurity := m, trial := 0, trialS := 0, trialFailed := false, bootSeq := u.bootSeq + 1 }
  let s := s.onLedger fun l => { l with minSecurity := m }
  record 0x0906 3 0x7000 v (s.onOd fun o => { o with frozen := none })

/-- A trial may be committed: it runs, and neither an activation nor a fall-back does (R415, R419). -/
def trialRuns (s : State) : Bool := decide (s.upd.trial = 1) && decide (s.upd.stage = .idle)

/-- A write to 0x7005 (R415). -/
def trialWrite (v : Byte) (s : State) : Nat × State :=
  if v ≠ 1 then (stRange, s) else if trialRuns s then (stOk, commitTrial s) else (stState, s)

/-- TRIAL_COMMIT (R415): owner privilege. -/
def execTrialCommit (p : Path) (v : Byte) (s : State) : Host.Outcome State Fault Refusal :=
  if turnedAway s p then .next (turnAway p s) else finish (serve p 0x7005 [2] (notInBoathouse s (trialWrite v s)) s)

/-- The crews keep the trial's time: in ONLINE, with a member (R414, R435). -/
def trialCounts (s : State) : Bool := trialRuns s && decide (s.seq.st = .online) && anyMember s && !frozen s

/-- TRIAL_EXPIRY (R415): 24 h of time in ONLINE, of which every whole hour but the last has been written (R435). -/
def execTrialExpiry (s : State) : Host.Outcome State Fault Refusal :=
  if trialCounts s && decide (23 * 3600 ≤ s.upd.trialS) then finish (commitTrial s) else .next s

/-- TRIAL_TIME_WRITE (R435): one more hour in ONLINE. -/
def execTrialTimeWrite (s : State) : Host.Outcome State Fault Refusal :=
  if trialCounts s then .next (bootWrite (s.onUpd fun u => { u with trialS := u.trialS + 3600, trialMark := s.tb.now }))
  else .next s

/-- FALLBACK_WAIT_TIMEOUT (R416): the Repechage slot is active, without a trial, from the next start on. -/
def execFallbackWaitTimeout (s : State) : Host.Outcome State Fault Refusal :=
  if s.upd.stage ≠ .waitMembers ∨ frozen s = true then .next s
  else
    finish (record 0x0907 5 0x7000 s.upd.failCause (s.onUpd fun u =>
      { u with stage := .idle, fallback := false, active := u.repechage, trial := 0, bootSeq := u.bootSeq + 1 }))

end Sys2Proof.Machine
end

