-- ==== Sys2Proof/Machine/Entries.lean ====
section
/-! DEFINITION. The index map of the object dictionary (R348 to R353, R367): the shape of every entry, and the
value each one reads, packed from State as its own rule lays it out. -/

namespace Sys2Proof.Machine

/-- Types of R349. -/
inductive OdType where
  | bool | u8 | u16 | u32 | u64 | i16 | i32 | q16 | str | domain | arr
  deriving DecidableEq, Repr

/-- Access codes of R352. -/
inductive OdAccess where
  | ro | rw | wo | rws | const
  deriving DecidableEq, Repr

/-- Type, access code and write privileges of a value: bit 0 H, bit 1 P, bit 2 O, bit 3 T (R64). -/
structure OdField where
  typ : OdType
  acc : OdAccess
  wr : Nat
  deriving DecidableEq, Repr

/-- Shapes of R348. A record gives its subindex 0 and its fields from subindex 1 on. -/
inductive OdShape where
  | scalar (f : OdField)
  | array (elem : OdField)
  | record (count : OdField) (fields : List OdField)
  deriving DecidableEq, Repr

/-- Type code of R62. -/
def odCode : OdType → Nat
  | .bool => 1
  | .u8 => 2
  | .u16 => 3
  | .u32 => 4
  | .u64 => 5
  | .i16 => 6
  | .i32 => 7
  | .q16 => 8
  | .str => 9
  | .domain => 10
  | .arr => 11

/-- Size in bytes of a fixed-size type; an array's subindex 0 reads as its count (R348, R349). -/
def odSize : OdType → Nat
  | .bool => 1
  | .u8 => 1
  | .u16 => 2
  | .u32 => 4
  | .u64 => 8
  | .i16 => 2
  | .i32 => 4
  | .q16 => 4
  | .arr => 1
  | .str => 0
  | .domain => 0

/-- Access code in a descriptor (R64). -/
def odAccessCode : OdAccess → Nat
  | .ro => 0
  | .rw => 1
  | .wo => 2
  | .rws => 3
  | .const => 4

/-- Privileges that may read: H, P and O of every entry but the write-only ones (R352, R367). -/
def readNibble (f : OdField) : Nat := if f.acc = .wo then 0 else 7

/-- A read-only value. -/
def fRo (t : OdType) : OdField := { typ := t, acc := .ro, wr := 0 }
/-- A read-only value that Coxswain firmware changes (R353). -/
def fRoT (t : OdType) : OdField := { typ := t, acc := .ro, wr := 8 }
/-- A value fixed at manufacture. -/
def fConst (t : OdType) : OdField := { typ := t, acc := .const, wr := 0 }
/-- A persisted value. -/
def fRws (t : OdType) (wr : Nat) : OdField := { typ := t, acc := .rws, wr := wr }
/-- An action. -/
def fWo (t : OdType) (wr : Nat) : OdField := { typ := t, acc := .wo, wr := wr }

/-- A read-only record of `n` U64 (R367). -/
def recU64 (n : Nat) : OdShape := .record (fRo .u8) (List.replicate n (fRo .u64))

/-! ## The index map (R367) -/

/-- 0x1000: identity. -/
def odMap1 : List (Nat × OdShape) :=
  [(0x1000, .scalar (fConst .u32)), (0x1001, .scalar (fConst .u8)), (0x1002, .scalar (fConst .u16)),
   (0x1003, .scalar (fConst .str)), (0x1004, .scalar (fRo .str)), (0x1005, .scalar (fRo .u32)),
   (0x1006, .scalar (fRo .u64)), (0x1007, .scalar (fRo .u64)), (0x1008, .scalar (fRo .u8)),
   (0x1009, .scalar (fConst .u16)), (0x1018, .record (fConst .u8) [fConst .u16, fConst .domain])]

/-- 0x2000: persistence, to 0x2030. -/
def odMap2a : List (Nat × OdShape) :=
  [(0x2001, .scalar (fRo .u64)), (0x2002, .scalar (fRo .u64)), (0x2003, .scalar (fRws .u32 4)), (0x2004, recU64 10),
   (0x2005, .record (fRo .u8) [fRoT .u32, fRws .u32 4]), (0x2006, .scalar (fRws .u8 6)),
   (0x2010, .scalar (fRo .u64)), (0x2011, .scalar (fRws .u32 6)), (0x2012, .scalar (fRws .u8 7)),
   (0x2013, .scalar (fRws .u8 6)), (0x2014, .record (fRo .u8) [fRws .u8 6, fRws .u8 6]), (0x2015, recU64 5)] ++
  [(0x2016, .record (fRo .u8) [fRo .u32, fRo .u32, fRo .u32, fRo .u64, fRo .u64]), (0x2017, .scalar (fRws .u32 6)),
   (0x2020, .scalar (fRws .u16 6)),
   (0x2022, .record (fRo .u8) [fRo .q16, fRo .u32, fRo .u32, fRo .u32, fRo .u32, fRo .u64, fRo .u8, fRo .u32]),
   (0x2023, .scalar (fRo .u16)), (0x2024, .scalar (fRws .u16 6)), (0x2030, .scalar (fRws .u8 1))]

/-- 0x2000: persistence, from 0x2040. -/
def odMap2b : List (Nat × OdShape) :=
  [(0x2040, .scalar (fWo .u8 7)), (0x2041, .scalar (fRo .domain)), (0x2042, recU64 10), (0x2043, recU64 11),
   (0x2044, recU64 3), (0x2050, .array (fRo .u64)), (0x2051, .array (fRo .u32)), (0x2060, .scalar (fRws .u32 6)),
   (0x2070, .array (fRo .u32)), (0x2071, .array (fRo .u64)), (0x2072, .scalar (fRws .u16 6)),
   (0x2080, .record (fRo .u8) (List.replicate 4 (fRo .u32)))] ++
  [(0x2081, .array (fRo .u64)),
   (0x2082, .record (fRo .u8) [fRo .u64, fRws .u8 6, fRo .u32, fRo .u32, fRo .u32, fRo .u64]),
   (0x2083, .scalar (fRws .u16 6))]

/-- A rail's configuration record (R279). -/
def railShape : OdShape :=
  .record (fRws .u8 2)
    [fRws .u8 2, fRws .u16 2, fRws .u16 2, fRws .u16 2, fRws .u16 2, fRws .u16 2, fRws .u16 2, fRws .u16 2,
     fRws .u16 2, fRws .u16 2, fRws .u8 2, fRws .q16 2]

/-- 0x3000: sequencer. -/
def odMap3 : List (Nat × OdShape) :=
  [(0x3000, .scalar (fRo .u64)), (0x3001, .scalar (fWo .u8 7)), (0x3002, .scalar (fWo .u8 2)),
   (0x3003, .scalar (fRws .u16 2)), (0x3004, .scalar (fRws .u8 2)), (0x3005, .scalar (fRws .u16 2)),
   (0x3006, .scalar (fRws .u8 2)), (0x3007, .scalar (fRo .u64))] ++
  (List.range 16).map (fun n => (0x3100 + n, railShape)) ++
  (List.range 16).map (fun n => (0x3200 + n, OdShape.array (fRo .u16))) ++
  [(0x3300, .record (fRws .u8 2) (List.replicate 4 (fRws .u8 2)))]

/-- A string's record (R330). -/
def stringShape : OdShape :=
  .record (fRo .u8)
    [fRo .u8, fRo .u8, fRo .u16, fRo .u16, fRo .u32, fRo .u32, fRo .u16, fRo .u32, fRo .u32, fRo .u32, fRo .q16,
     fRo .u64, fRo .u64, fRo .q16]

/-- 0x4000: gauge, and 0x5000: faults and Waterline. -/
def odMap45 : List (Nat × OdShape) :=
  [(0x4001, stringShape), (0x4002, stringShape), (0x4003, .scalar (fRws .u16 6)), (0x4004, .scalar (fRws .u16 6)),
   (0x4005, .scalar (fRws .u16 6)), (0x4006, .scalar (fRws .u16 6)), (0x4007, .scalar (fWo .u8 6)),
   (0x4008, .scalar (fWo .u8 2)), (0x4009, .scalar (fRo .domain)), (0x400A, .scalar (fRo .u32))] ++
  [(0x5001, .scalar (fRws .u8 6)), (0x5002, .scalar (fRo .u64)), (0x5003, .scalar (fWo .u32 7)),
   (0x5010, .scalar (fRo .domain)), (0x5011, .scalar (fRo .u64)), (0x5012, .scalar (fRo .u64)),
   (0x5100, .scalar (fRo .u64)), (0x5101, .scalar (fRo .u64))] ++
  (List.range 16).map (fun c => (0x5110 + c, OdShape.array (fRws .u32 6))) ++
  [(0x5120, .array (fRo .u32)), (0x5121, .scalar (fRo .u64))]

/-- 0x6000: management bus, and 0x7000: update. -/
def odMap67 : List (Nat × OdShape) :=
  [(0x6001, .scalar (fRo .u8)), (0x6002, .scalar (fRws .u8 2)), (0x6003, .scalar (fRws .u16 2)),
   (0x6004, .scalar (fRws .u16 2)), (0x6005, .scalar (fRws .u16 2)), (0x6006, .scalar (fRws .domain 2)),
   (0x6010, .array (fRo .u32)), (0x6011, .array (fRo .u32))] ++
  [(0x7001, .scalar (fRo .u64)), (0x7002, .scalar (fRws .bool 4)), (0x7003, .scalar (fRoT .u8)),
   (0x7004, .scalar (fRoT .u8)), (0x7005, .scalar (fWo .u8 4)), (0x7006, .record (fRo .u8) [fRo .str, fRo .str]),
   (0x7007, .scalar (fRo .u16)), (0x7008, .scalar (fRo .u8))]

/-- 0x8000: ageing; 0x9000: crews; 0xA000: regatta; 0xB000: time and freeze. -/
def odMap8B : List (Nat × OdShape) :=
  [(0x8001, .array (fRo .i32)), (0x8002, .array (fRo .i32)), (0x8003, .scalar (fWo .u8 6)),
   (0x8004, .scalar (fRo .domain)), (0x8005, .scalar (fRo .u16)), (0x8006, .scalar (fRo .u16)),
   (0x9001, .scalar (fRo .u8)), (0x9002, recU64 2), (0x9003, .scalar (fRo .u64)), (0x9004, recU64 5),
   (0x9005, .scalar (fWo .u8 6)), (0x9006, .scalar (fWo .u8 6))] ++
  [(0xA001, .scalar (fRo .u8)), (0xA002, .scalar (fRws .u32 2)), (0xA003, .scalar (fRws .u8 2)),
   (0xA004, .scalar (fRo .u8)), (0xB001, .scalar (fWo .u8 6)), (0xB002, .scalar (fRws .u8 4)),
   (0xB003, .scalar (fRo .u64)), (0xB004, .scalar (fRo .u8)), (0xB005, .scalar (fRo .i32))]

/-- Every entry, in index order (R367, R368). -/
def odMap : List (Nat × OdShape) := odMap1 ++ odMap2a ++ odMap2b ++ odMap3 ++ odMap45 ++ odMap67 ++ odMap8B

/-- The shape of an index. -/
def odShape (index : Nat) : Option OdShape := tabFind index odMap

/-! ## Numbers -/

/-- Identity (R367); installed and visible capacity read 0 in DARK and AUX. 0x1008 gives HEADMODE by R33 and R367, which a
TK7232-C ignores by R3: it reads 0 there, the one head that runs (DESIGN CHOICE, log 81). -/
def odNum1 (s : State) (i k : Nat) : Nat :=
  if i = 0x1000 then s.cfg.deviceCode
  else if i = 0x1001 then
    (match s.cfg.variant with
     | .tk7264c => 1
     | .tk7264i => 2
     | .tk7232c => 3)
  else if i = 0x1002 then 0x00B0
  else if i = 0x1005 then (if boathouse s && !darkOrAux s then 0 else (((runningImage s).bind (·.patch)).map (·.version)).getD 0)
  else if i = 0x1006 then (if darkOrAux s then 0 else s.cfg.installed)
  else if i = 0x1007 then (if darkOrAux s then 0 else s.cfg.visible)
  else if i = 0x1008 then b2n (twoHeads s)
  else if i = 0x1009 then 1
  else if i = 0x1018 ∧ k = 1 then s.cfg.vendorId.toNat
  else 0

/-- Field `k` of 0x2004 (R131). -/
def boundNum (b : Bounds) (k : Nat) : Nat :=
  [b.energy, b.power, b.time, b.basin, b.owner, b.level, b.rPlanMBs, b.binding, b.at', b.weaker].getD (k - 1) 0

/-- Time with SPRINT = 1 in ms, the running Sprint included (R109). -/
def sprintMs (s : State) : Nat :=
  (s.pm.sprintNs + (if s.pm.sprint then s.tb.now - s.pm.sprintSince else 0)) / nsPerMs

/-- Field `k` of 0x2022 (R131). -/
def modelNum (b : BoardProfile) (k : Nat) : Nat :=
  [b.etaQ16, b.eFixJ, b.pAuxMw, b.slopeMw, b.pFloorMw, b.basinBytes, b.fAllocPct, b.sDieMBs].getD (k - 1) 0

/-- Field `k` of 0x2042 (R158). -/
def lastSaveNum (s : State) (k : Nat) : Nat :=
  let l := s.save.last
  [l.gen, l.trigger, l.fenceTime, l.duration, l.written, l.halvings, l.outcome, b2n l.gpf, s.save.ignored,
   b2n l.mapSaved].getD (k - 1) 0

/-- Field `k` of 0x2043 (R181). -/
def lastRestoreNum (l : LastRestore) (k : Nat) : Nat :=
  [l.gen, l.prev, b2n l.early, l.readyMs, l.restoredMs, l.lost, l.carried, l.fetches, l.longest, l.media,
   l.attempt].getD (k - 1) 0

/-- Persistence, to 0x2017 (R109, R119, R131). -/
def odNum2a (s : State) (i k : Nat) : Nat :=
  if i = 0x2001 then s.pm.residue
  else if i = 0x2002 then enforced s
  else if i = 0x2004 then boundNum s.weir.bounds k
  else if i = 0x2005 ∧ k = 1 then s.weir.floorMiB
  else if i = 0x2010 then (regOutflow s).toNat
  else if i = 0x2015 then
    [s.lake.pslcBytes, s.lake.foldedBytes, s.pm.sprintStarts, sprintMs s, s.pm.stale].getD (k - 1) 0
  else if i = 0x2016 then
    [segmentCount s, erasedSegments s false, erasedSegments s true, sat (2 ^ 64 - 1) s.lake.relocated,
     s.lake.checkpointSeq].getD (k - 1) 0
  else getSetting (i, k) s.od.set

/-- Persistence, from 0x2020 (R109, R131, R158, R181, R201, R227). -/
def odNum2b (s : State) (i k : Nat) : Nat :=
  if i = 0x2022 then modelNum s.cfg.board k
  else if i = 0x2023 then s.cfg.board.vinThresholdMv
  else if i = 0x2042 then lastSaveNum s k
  else if i = 0x2043 then lastRestoreNum s.rst.last k
  else if i = 0x2044 then [8 * s.log.area.length, s.log.compactions, s.log.spills].getD (k - 1) 0
  else if i = 0x2050 then (s.pm.buckets.map (·.epoch)).getD (k - 1) 0
  else if i = 0x2051 then (s.pm.buckets.map (·.pages)).getD (k - 1) 0
  else if i = 0x2070 then (regDchConfig s (k - 1)).toNat
  else if i = 0x2071 then (regDchStatus s (k - 1)).toNat
  else if i = 0x2080 then [s.cfg.dies, ceilDiv (goodDies s).length (groupCount s), s.cfg.tlcDieBlockMib, s.cfg.pslcDieBlockMib].getD (k - 1) 0
  else if i = 0x2081 then (regFlsChannel s (k - 1)).toNat
  else if i = 0x2082 ∧ k ≠ 2 then
    [(regWear s).toNat, 0, s.cfg.board.tlcRating, s.cfg.board.pslcRating, s.flash.t999, s.flash.forced].getD (k - 1) 0
  else getSetting (i, k) s.od.set

/-- Field `k` of a rail's configuration (R279). -/
def railNum (r : RailCfg) (k : Nat) : Nat :=
  [r.state, r.onDelay, r.offDelay, r.nominal, r.uvWarn, r.uvFault, r.ovWarn, r.ovFault, r.riseTimeout, r.fallTimeout,
   r.flags.toNat, r.scaleQ16].getD (k - 1) 0

/-- Counter `k` of a rail: the ledger copy plus the always-on count (R299). -/
def railCount (r : Rail) (k : Nat) : Nat :=
  let f (c : RailCounts) := [c.ups, c.uv, c.ov, c.faults, c.noRise, c.noFall].getD (k - 1) 0
  sat 0xFFFF (f r.ledger + f r.counts)

/-- Sequencer (R279, R298, R299, R303). -/
def odNum3 (s : State) (i k : Nat) : Nat :=
  if i = 0x3000 then (regSeq s).toNat
  else if i = 0x3007 then (regRails s).toNat
  else if i = 0x3300 then [s.od.mrstState, s.od.mrstMs, s.od.frstState, s.od.frstMs].getD (k - 1) 0
  else if 0x3100 ≤ i ∧ i < 0x3110 then railNum (s.od.railCfg.getD (i - 0x3100) {}) k
  else if 0x3200 ≤ i ∧ i < 0x3210 then railCount (railAt s (i - 0x3200)) k
  else getSetting (i, k) s.od.set

/-- A non-negative rational, rounded down. -/
def whole (x : Rat) : Nat := x.floor.toNat

/-- Field `k` of a string's record (R330); without a descriptor the quantities that need one are free values. -/
def strField (s : State) (x : Str) (k : Nat) : Nat :=
  let b := strOf s x
  let wd (f : PackDescriptor → Rat) : Nat :=
    match s.bat.desc with
    | some d => whole (f d)
    | none => Config.freeNat (s.free + k)
  [strStateCode b.st, strReasonCode b.reason, (if b.known then whole (b.s * 100) else 0), whole (b.u * 100),
   wd fun d => capacityLb d b s.tb.now, b.learned.getD 0, wd fun d => fadePct d b * 100,
   wd fun d => energyLb d b s.tb.now, wd fun d => voc d b * 1000, wd fun d => resUb d b * 1000000,
   wd fun d => ktAt d b * 65536, twos 64 b.anchor, twos 64 (b.learn.getD 0),
   whole ((b.rho.getD 0) * 65536)].getD (k - 1) 0

/-- Sequence number of the newest valid gauge record (R331). -/
def newestRecord (g : Gauge) : Nat :=
  max ((g.slot0.map (·.seq)).getD 0) (max ((g.slot1.map (·.seq)).getD 0) ((g.ledgerRec.map (·.seq)).getD 0))

/-- Gauge, faults and Waterline (R277, R330, R331, R347). -/
def odNum45 (s : State) (i k : Nat) : Nat :=
  if i = 0x4001 then strField s .a k
  else if i = 0x4002 then strField s .b k
  else if i = 0x400A then newestRecord s.bat
  else if i = 0x5002 then (regSummary s).toNat
  else if i = 0x5011 then s.ledger.lastFatal.toNat
  else if i = 0x5012 then s.fault.consequential
  else if i = 0x5100 then (regWlStatus s).toNat
  else if i = 0x5101 then s.wl.nextSeq
  else if i = 0x5120 then s.wl.drops.getD (k - 1) 0
  else if i = 0x5121 then s.wl.written
  else if 0x5110 ≤ i ∧ i < 0x5120 then (writtenList s (i - 0x5110)).getD (k - 1) 0
  else getSetting (i, k) s.od.set

/-- Counter `k` of a port (R389). -/
def portCount (p : BusPort) (k : Nat) : Nat :=
  [p.errors, p.losses, p.hangs, p.aborts, p.calls, p.notifies].getD (k - 1) 0

/-- 0x7001 (R367): bytes accepted, holder endpoint and transport, session ID. -/
def sessionNum (s : State) : Nat :=
  match s.upd.session with
  | none => 0
  | some u => fld 32 32 (bytesAccepted u) + fld 24 8 u.endpoint + fld 16 8 u.transport + fld 0 16 u.id

/-- Management bus and update (R367, R389). -/
def odNum67 (s : State) (i k : Nat) : Nat :=
  if i = 0x6001 then 0x20 + s.boot.lane.toNat
  else if i = 0x6010 then portCount s.bus.mgmt k
  else if i = 0x6011 then portCount s.bus.lcl k
  else if i = 0x7001 then sessionNum s
  else if i = 0x7003 then s.upd.active.val
  else if i = 0x7004 then s.upd.trial
  else if i = 0x7007 then ((runningImage s).map fun i => i.schema.toNat).getD 0
  else if i = 0x7008 then s.boot.failedBoots
  else getSetting (i, k) s.od.set

/-- 0x9001 (R254). -/
def seatNum (s : State) : Nat :=
  match seatHolder s with
  | some .bow => 0
  | some .stroke => 1
  | none => 0xFF

/-- Ageing, crews, regatta, time (R254, R367). -/
def odNum8B (s : State) (i k : Nat) : Nat :=
  if i = 0x8001 then twos 32 ((s.plan.slack.getD (k - 1) none).getD 0)
  else if i = 0x8002 then twos 32 (s.plan.drift.getD (k - 1) 0)
  else if i = 0x8005 then s.plan.target
  else if i = 0x8006 then s.plan.derate
  else if i = 0x9001 then seatNum s
  else if i = 0x9002 then (regCrew s (if k = 1 then .bow else .stroke)).toNat
  else if i = 0x9003 then (regUmpire s).toNat
  else if i = 0x9004 then
    ([s.crew.host, s.crew.mem, s.crew.fls, s.crew.pwr, s.crew.ldg].map fun l => (regLanding s l).toNat).getD (k - 1) 0
  else if i = 0xA001 then s.boot.lane.toNat
  else if i = 0xA004 then b2n s.cfg.board.sharedPwrfail
  else if i = 0xB003 then s.tb.now
  else if i = 0xB004 then b2n s.tb.aligned
  else if i = 0xB005 then twos 32 s.tb.lastOffset
  else getSetting (i, k) s.od.set

/-- The number an entry of a fixed-size type holds; `k` is its subindex. -/
def odNum (s : State) (i k : Nat) : Nat :=
  if i < 0x2000 then odNum1 s i k
  else if i < 0x2020 ∧ i ≠ 0x2017 then odNum2a s i k
  else if i < 0x3000 then odNum2b s i k
  else if i < 0x4000 then odNum3 s i k
  else if i < 0x6000 then odNum45 s i k
  else if i < 0x8000 then odNum67 s i k
  else odNum8B s i k

/-! ## Strings and domains -/

/-- The version string of a slot (R367): one 0x00 byte for an empty slot. -/
def versionOf (i : Option ImageInfo) : List Byte :=
  match i with
  | some i => i.version.takeWhile (· ≠ 0)
  | none => [0]

/-- Ranges of LOST pages with the same CARRIED and REASON: first page, count, CARRIED, REASON (R177). -/
def lostRuns (s : State) : List (Nat × PageEntry) → List (Nat × Nat × Bool × LostReason)
  | [] => []
  | (p, e) :: t =>
    let r := lostRuns s t
    if e.state ≠ .lost then r
    else
      let why := tabGet .cursor p s.pm.reasons
      match r with
      | (p', n, c, w) :: r' => if p' = p + 1 ∧ c = e.carried ∧ w = why then (p, n + 1, c, w) :: r' else (p, 1, e.carried, why) :: r
      | [] => [(p, 1, e.carried, why)]

/-- REASON code (R177). -/
def reasonCode : LostReason → Nat
  | .cursor => 0
  | .dirtyLog => 1
  | .media => 2
  | .window => 3

/-- OD 0x2041 (R177). -/
def lostDomain (s : State) : List Byte :=
  let runs := lostRuns s s.pm.pages
  leBytes 2 1 ++ leBytes 2 0 ++ leBytes 4 runs.length ++ leBytes 8 s.rst.last.gen ++ leBytes 8 s.host.elost
    ++ leBytes 8 s.pm.lostTime
    ++ (runs.map fun r =>
        leBytes 8 (fld 63 1 (b2n r.2.2.1) + fld 60 3 (reasonCode r.2.2.2) + fld 29 29 r.2.1 + fld 0 29 r.1)).flatten

/-- OD 0x5010 (R277): the held captures in master-ID order. -/
def heldDomain (s : State) : List Byte :=
  let held := s.fault.recs.filter fun r => r.2.sticky
  leBytes 2 1 ++ leBytes 2 0 ++ leBytes 4 held.length
    ++ (held.map fun r => ((List.range 4).map fun n => leBytes 8 (captureWord r.2 n).toNat).flatten).flatten

/-- A signed byte. -/
def sByte (x : Int) : List Byte := leBytes 1 (twos 8 x)

/-- Bytes 0 to 671 of a descriptor (R310). -/
def descBody (d : PackDescriptor) : List Byte :=
  leBytes 2 1 ++ leBytes 2 676 ++ leBytes 1 d.chemistry ++ leBytes 1 d.series ++ leBytes 2 0 ++ leBytes 4 d.cNom
    ++ leBytes 4 d.eNom ++ leBytes 2 d.chargeMv ++ leBytes 2 d.cutoffMv ++ leBytes 2 d.termMa ++ leBytes 2 d.maxChargeMa
    ++ leBytes 4 d.iLimMa ++ sByte d.chargeMinC ++ sByte d.chargeMaxC ++ sByte d.opMinC ++ sByte d.opMaxC
    ++ leBytes 4 d.r25 ++ leBytes 2 d.beta ++ leBytes 2 d.sp ++ (d.temps.map sByte).flatten
    ++ (d.soc.map (leBytes 2)).flatten ++ (d.ocv.flatten.map (leBytes 2)).flatten ++ (d.kt.map (leBytes 2)).flatten
    ++ (d.rTyp.map (leBytes 2)).flatten ++ (d.rMax.map (leBytes 2)).flatten

/-- OD 0x4009 (R310, R331). -/
def descDomain (s : State) : List Byte :=
  match s.bat.desc with
  | none => []
  | some d => descBody d ++ leBytes 4 (crc32c (descBody d)).toNat

/-- OD 0x8004 (R428): the words of the last plan, then the offset table. -/
def planDomain (s : State) : List Byte :=
  if s.plan.last.isEmpty then []
  else (s.plan.last.map fun w => leBytes 8 w.toNat).flatten
    ++ (s.flash.offsets.map fun l => (l.map sByte).flatten ++ [0]).flatten

/-- The 16 bytes of the event record UUID (R367). -/
def eventUuid : List Byte :=
  [0x7A, 0x3F, 0x51, 0xC2, 0x9E, 0x04, 0x4B, 0x8D, 0xA6, 0xD1, 0x2C, 0x58, 0xE9, 0x0B, 0x4F, 0x17]

/-- The bytes of a string or a domain. -/
def odBlob (s : State) (i k : Nat) : List Byte :=
  if i = 0x1003 then s.cfg.serial
  else if i = 0x1004 then versionOf (runningImage s)
  else if i = 0x1018 then eventUuid
  else if i = 0x2041 then lostDomain s
  else if i = 0x4009 then descDomain s
  else if i = 0x5010 then heldDomain s
  else if i = 0x6006 then s.od.charger
  else if i = 0x7006 then versionOf (if k = 1 then s.upd.slotA else s.upd.slotB)
  else if i = 0x8004 then planDomain s
  else []

/-! ## Entries -/

/-- Elements of an array (R348, R367). -/
def arrCount (s : State) (i : Nat) : Nat :=
  if i = 0x2050 ∨ i = 0x2051 then liveBuckets s
  else if i = 0x2070 ∨ i = 0x2071 ∨ i = 0x5120 then 8
  else if i = 0x2081 then 32
  else if i = 0x8001 ∨ i = 0x8002 then 28
  else if 0x5110 ≤ i ∧ i < 0x5120 then (writtenList s (i - 0x5110)).length
  else 6

/-- Subindex 0 of a record: the count of its subindices (R348). That of 0x2004, 0x2042 and 0x2043 is 0 before the
first computation, save or restore (R131, R158, R181). -/
def recCount (s : State) (i n : Nat) : Nat :=
  if i = 0x2004 ∧ (s.weir.computed = false ∨ s.host.unprotected = true) then 0
  else if i = 0x2042 ∧ s.save.last.present = false then 0
  else if i = 0x2043 ∧ s.rst.last.present = false then 0
  else n

/-- How far the subindices of a record reach: the bounds of 0x2004 are empty with a count of 0 (R131). -/
def recReach (s : State) (i n : Nat) : Nat := if i = 0x2004 then recCount s i n else n

/-- Type, access and privileges that the shape of an index gives a subindex, whatever the present count (R348). -/
def shapeField (i k : Nat) : Option OdField :=
  match odShape i with
  | none => none
  | some (.scalar f) => if k = 0 then some f else none
  | some (.array e) => if k = 0 then some { e with typ := .arr } else some e
  | some (.record c fs) => if k = 0 then some c else fs[k - 1]?

/-- Type, access and privileges of an entry, if it exists (R348, R368). -/
def odField (s : State) (i k : Nat) : Option OdField :=
  match odShape i with
  | none => none
  | some (.scalar f) => if k = 0 then some f else none
  | some (.array e) =>
    if k = 0 then some { e with typ := .arr } else if k ≤ arrCount s i then some e else none
  | some (.record c fs) => if k = 0 then some c else if k ≤ recReach s i fs.length then fs[k - 1]? else none

/-- The subindices an index has now. -/
def odSubs (s : State) (i : Nat) : List Nat :=
  match odShape i with
  | none => []
  | some (.scalar _) => [0]
  | some (.array _) => List.range (arrCount s i + 1)
  | some (.record _ fs) => List.range (recReach s i fs.length + 1)

/-- The count at subindex 0, or the number. -/
def odInt (s : State) (i k : Nat) : Nat :=
  match odShape i, k with
  | some (.array _), 0 => arrCount s i
  | some (.record _ fs), 0 => recCount s i fs.length
  | _, k => odNum s i k

/-- The bytes of an entry's value now (R349, R350). -/
def odBytes (s : State) (i k : Nat) (t : OdType) : List Byte :=
  if odSize t = 0 then odBlob s i k else leBytes (odSize t) (odInt s i k)

/-- The bytes of an entry's value, for an entry that exists. -/
def odValue (s : State) (i k : Nat) : List Byte :=
  match odField s i k with
  | some f => odBytes s i k f.typ
  | none => []

end Sys2Proof.Machine
end

