-- ==== Sys2Proof/Machine/Freeze.lean ====
section
/-! DEFINITION. HOLDWATER and JTAG (R458 to R469, R483, R497): the holds of a freeze, the instructions of the
port, and the ledger as the port reaches it. -/

namespace Sys2Proof.Machine

/-! ## Holds (R458) -/

/-- HOLDWATER_N_ASSERT (R458, R459). -/
def execHoldwaterNAssert (s : State) : Host.Outcome State Fault Refusal :=
  if s.seq.vddAon then finish (requestFreeze (fun f => { f with pin := true }) s) else .next s

/-- HOLDWATER_N_DEASSERT (R458, R466). -/
def execHoldwaterNDeassert (s : State) : Host.Outcome State Fault Refusal :=
  if s.seq.vddAon then finish (releaseHold (fun f => { f with pin := false }) s) else .next s

/-- An update activation runs (R411, R419). -/
def activating (s : State) : Bool := decide (s.upd.stage = .loadingX ∨ s.upd.stage = .handedOver)

/-- A write to 0xB001 (R367, R419, R458): 1 enters, 0 resumes. -/
def freezeWrite (v : Byte) (s : State) : Nat × State :=
  if 1 < v.toNat then (stRange, s)
  else if activating s then (stState, s)
  else if v = 1 then (stOk, requestFreeze (fun f => { f with od := true }) s)
  else (stOk, releaseHold (fun f => { f with od := false }) s)

/-- FREEZE_ENTER_REQUEST (R458). -/
def execFreezeEnterRequest (p : Path) (s : State) : Host.Outcome State Fault Refusal :=
  if turnedAway s p then .next (turnAway p s) else finish (serve p 0xB001 [1, 2] (notInBoathouse s (freezeWrite 1 s)) s)

/-- FREEZE_RESUME_REQUEST (R458). -/
def execFreezeResumeRequest (p : Path) (s : State) : Host.Outcome State Fault Refusal :=
  if turnedAway s p then .next (turnAway p s) else finish (serve p 0xB001 [1, 2] (notInBoathouse s (freezeWrite 0 s)) s)

/-! ## The JTAG port (R463) -/

/-- The port takes instructions: the Power region is supplied and no F reaction has disabled the port (R265). -/
def jtagUp (s : State) : Bool := s.seq.vddAon && !s.fault.jtagOff

/-- An instruction is loaded; TRST_N has been released before (R483). -/
def loadIr (op : Byte) (s : State) : State := s.onFrz fun f => { f with ir := op, trst := false }

/-- Shift out `w` bits of a data register. -/
def shiftOut (w v : Nat) (s : State) : State := say (.jtag w v) s

/-- JTAG_EXTEST: the boundary scan is selected. -/
def execJtagExtest (s : State) : Host.Outcome State Fault Refusal :=
  if jtagUp s then .next (loadIr 0x00 s) else .next s

/-- IDCODE (R497): version 2 in bits [31:28], part number in [27:12], JEP106 code in [11:1], 1 in [0]. -/
def idcode (s : State) : Nat := 2 * 2 ^ 28 + s.cfg.deviceCode * 2 ^ 12 + s.cfg.jep106.toNat * 2 + 1

/-- JTAG_IDCODE. -/
def execJtagIdcode (s : State) : Host.Outcome State Fault Refusal :=
  if jtagUp s then .next (shiftOut 32 (idcode s) (loadIr 0x01 s)) else .next s

/-- JTAG_SAMPLE_PRELOAD: the boundary scan is selected. -/
def execJtagSamplePreload (s : State) : Host.Outcome State Fault Refusal :=
  if jtagUp s then .next (loadIr 0x02 s) else .next s

/-- JTAG_FREEZE (R458). -/
def execJtagFreeze (s : State) : Host.Outcome State Fault Refusal :=
  if jtagUp s then finish (requestFreeze (fun f => { f with jtag := true }) (loadIr 0x10 s)) else .next s

/-- JTAG_RESUME (R458): HOLD_JTAG and HOLD_OD clear. -/
def execJtagResume (s : State) : Host.Outcome State Fault Refusal :=
  if jtagUp s then finish (releaseHold (fun f => { f with jtag := false, od := false }) (loadIr 0x11 s)) else .next s

/-- FRZ_SELECT (R463). -/
def execFrzSelect (sel : BitVec 8) (s : State) : Host.Outcome State Fault Refusal :=
  if jtagUp s then .next ((loadIr 0x12 s).onFrz fun f => { f with chain := sel }) else .next s

/-- FRZ_SCAN (R464): zeros outside a freeze; inside one the bits of the selected chain's shadow, taken at entry, which
nothing changes until the next freeze (log 92). -/
def execFrzScan (bits : Nat) (s : State) : Host.Outcome State Fault Refusal :=
  if !jtagUp s then .next s
  else if frozen s then .next (shiftOut bits (Config.shadowChain s.frz.shadow s.frz.chain % 2 ^ bits) (loadIr 0x13 s))
  else .next (shiftOut bits 0 (loadIr 0x13 s))

/-- The word a read finds (R465): 0 in a coxswain key record; else what this freeze has read or written there,
or a free value (log 1), which stands for the rest of the freeze. -/
def ledgerWord (addr : Nat) (s : State) : Word × State :=
  if Config.keyRecord addr then (0, s)
  else match tabFind addr s.ledger.words with
    | some w => (w, s)
    | none =>
      let w := Config.freeBits 64 s.free
      (w, { s with free := s.free + 1 }.onLedger fun l => { l with words := tabIns addr w l.words })

/-- The 87 bits of the register at Capture-DR (R465): no operation and no address, and the data last read; zero outside a
freeze. -/
def ledgerCapture (s : State) : State :=
  shiftOut 87 (if frozen s then s.frz.ledgerData.toNat else 0) (loadIr 0x14 s)

/-- LEDGER_ACCESS_READ (R465): zero outside a freeze. -/
def execLedgerAccessRead (addr : BitVec 21) (s : State) : Host.Outcome State Fault Refusal :=
  if !jtagUp s then .next s
  else
    let s := ledgerCapture s
    if !frozen s then .next (s.onFrz fun f => { f with ledgerData := 0 })
    else
      let (w, s) := ledgerWord addr.toNat s
      .next (s.onFrz fun f => { f with ledgerData := w })

/-- LEDGER_ACCESS_WRITE (R465): only while frozen with TESTMODE_N sampled low, never a coxswain key record. -/
def execLedgerAccessWrite (addr : BitVec 21) (data : Word) (s : State) : Host.Outcome State Fault Refusal :=
  if !jtagUp s then .next s
  else
    let s := ledgerCapture s
    let s := if frozen s then s else s.onFrz fun f => { f with ledgerData := 0 }
    if frozen s && s.boot.testmode && !Config.keyRecord addr.toNat then
      .next (s.onLedger fun l => { l with words := tabIns addr.toNat data l.words })
    else .next s

/-- JTAG_STATUS: PWR_FREEZE_STATUS. -/
def execJtagStatus (s : State) : Host.Outcome State Fault Refusal :=
  if jtagUp s then .next (shiftOut 64 (regFreeze s).toNat (loadIr 0x15 s)) else .next s

/-- The opcode is one R463 lists with a data register of its own. -/
def listedOpcode (op : Byte) : Bool :=
  [0x00, 0x01, 0x02, 0x10, 0x11, 0x12, 0x13, 0x14, 0x15].contains op.toNat

/-- JTAG_BYPASS: opcode 0xFF or any unlisted one selects the 1-bit bypass register, which captures 0 (IEEE
1149.1). -/
def execJtagBypass (opcode : Byte) (s : State) : Host.Outcome State Fault Refusal :=
  if jtagUp s && !listedOpcode opcode then .next (shiftOut 1 0 (loadIr opcode s)) else .next s

/-- TRST_N_ASSERT (R265, R468, R483): Test-Logic-Reset, which selects IDCODE; HOLD_JTAG clears and a disabled
port is enabled. -/
def execTrstNAssert (s : State) : Host.Outcome State Fault Refusal :=
  if !s.seq.vddAon then .next s
  else
    let s := (s.onFault fun f => { f with jtagOff := false }).onFrz fun f => { f with ir := 0x01, trst := true }
    finish (releaseHold (fun f => { f with jtag := false }) s)

end Sys2Proof.Machine
end

