-- ==== Sys2Proof/Machine/Dictionary.lean ====
section
/-! DEFINITION. The requests of the object dictionary and the Waterline (R61 to R67, R348 to R369, R342): read, write,
enumerate, sessions and views, the order of the status codes, and the entries whose write is an action. -/

namespace Sys2Proof.Machine

/-! ## What is served where (R248, R296, R365, R369, R417) -/

/-- The ROM serves reads of an index in Boathouse mode (R417). -/
def romRange (index : Nat) : Bool := decide (index / 0x1000 = 1 ∨ index / 0x1000 = 7)

/-- The status of a read that nothing evaluates. -/
def readGate (index : Nat) (p : Path) (s : State) : Option Nat :=
  match gate index p s with
  | some st => some st
  | none => if romServes s && !darkOrAux s && !romRange index then some stState else none

/-- The factory range is unlocked for a request (R369). -/
def factoryOpen (p : Path) (s : State) : Bool := s.boot.testmode && decide (privilege p = 2)

/-- An entry by a request, or why there is none (R348, R368, R369). -/
def findEntry (p : Path) (index sub : Nat) (s : State) : Nat ⊕ OdField :=
  if 0xF000 ≤ index then .inl (if factoryOpen p s then stNoEntry else stLocked)
  else match odField s index sub with
    | none => .inl stNoEntry
    | some f => .inr f

/-! ## Sessions (R356) -/

/-- Ten seconds: an OD session's idle limit (R356). -/
def odIdle : Nat := 10 * nsPerS

/-- The session of a requester, if it holds state. -/
def sessionOf (s : State) (key : Nat) : Option Session := s.od.sessions.find? fun x => decide (x.key = key)

/-- A request of a session: one idle for 10 s has ended first; the session becomes the most recently used. -/
def touch (key : Nat) (s : State) : State :=
  match sessionOf s key with
  | none => s
  | some x =>
    if x.last + odIdle ≤ s.tb.now then endSessions (fun k => decide (k = key)) s
    else s.onOd fun o =>
      { o with sessions := o.sessions.filter (fun y => decide (y.key ≠ key)) ++ [{ x with last := s.tb.now }] }

/-- The session's state is of this entry. -/
def holdsEntry (x : Session) (index : Nat) : Bool :=
  (x.view.any fun v => v.values.any fun w => decide (w.1.1 = index)) || x.seg.any fun g => decide (g.index = index)

/-- The session holds this state from now on, or none: a ninth session with state evicts the least recently used
(R356). -/
def hold (x : Session) (s : State) : State :=
  let others := s.od.sessions.filter fun y => decide (y.key ≠ x.key)
  if x.seg = none ∧ x.view = none then s.onOd fun o => { o with sessions := others }
  else
    let s := match others with
      | y :: _ => if 8 ≤ others.length then endSessions (fun k => decide (k = y.key)) s else s
      | [] => s
    s.onOd fun o =>
      { o with sessions := o.sessions.filter (fun y => decide (y.key ≠ x.key)) ++ [x]
               ended := o.ended.filter fun e => !(decide (e.1 = x.key) && holdsEntry x e.2) }

/-- OD_SESSION_IDLE (R356): the segmented write and the view end. -/
def execOdSessionIdle (p : Path) (s : State) : Host.Outcome State Fault Refusal :=
  match sessionOf s (sessionKey p) with
  | some x =>
    if x.last + odIdle ≤ s.tb.now then .next (endSessions (fun k => decide (k = sessionKey p)) s) else .next s
  | none => .next s

/-! ## Read (R61, R350, R357) -/

/-- The entries a view point covers (R357); empty for an entry that is none. -/
def viewCover (index sub off : Nat) : List Nat :=
  if sub ≠ 0 then []
  else if index = 0x2004 ∨ index = 0x2042 ∨ index = 0x2043 then [index]
  else if index = 0x2050 then [0x2050, 0x2051]
  else if (index = 0x2041 ∨ index = 0x5010) ∧ off = 0 then [index]
  else []

/-- The values of the entries a view covers, as they are now. -/
def snapView (s : State) (cover : List Nat) : List ((Nat × Nat) × List Byte) :=
  (cover.map fun i => (odSubs s i).map fun k => ((i, k), odValue s i k)).flatten

/-- What a session's view says of an entry (R357): nothing where it does not cover the index, else whether the entry was
there. -/
def viewHas (s : State) (key index sub : Nat) : Option Bool :=
  match (sessionOf s key).bind (·.view) with
  | none => none
  | some v =>
    if v.values.any fun w => decide (w.1.1 = index) then some (v.values.any fun w => decide (w.1 = (index, sub))) else none

/-- An entry as a read finds it (R357, R368): by the session's view where that covers the index, unless the read is a view
point, which takes a new view of what is there now. -/
def findRead (p : Path) (index sub off : Nat) (s : State) : Nat ⊕ OdField :=
  match findEntry p index sub s, viewHas s (sessionKey p) index sub with
  | f, none => f
  | f, some there =>
    if !(viewCover index sub off).isEmpty then f
    else match shapeField index sub with
      | some g => if there then .inr g else .inl stNoEntry
      | none => f

/-- The value a session's view fixes for an entry, if the view covers it (R357). -/
def viewed (s : State) (key index sub : Nat) : Option (List Byte) :=
  match sessionOf s key with
  | some x =>
    (match x.view with
     | some v =>
       if v.values.any (fun w => decide (w.1.1 = index)) then
         (match v.values.find? fun w => decide (w.1 = (index, sub)) with
          | some w => some w.2
          | none => some [])
       else none
     | none => none)
  | none => none

/-- Output of OD Read after the status (R61). -/
def readOut (code total : Nat) (bytes : List Byte) : List Byte :=
  leBytes 1 code ++ leBytes 2 0 ++ leBytes 4 total ++ leBytes 4 bytes.length ++ bytes

/-- The slice an OD Read returns (R61, R350): a fixed-size value whole, others from the offset, at most 8,180 bytes. -/
def slice (t : OdType) (off : Nat) (v : List Byte) : List Byte :=
  if odSize t ≠ 0 ∧ off < v.length then v else (v.drop off).take 8180

/-- The session's view, when the read is a view point: a new snapshot (R357). -/
def takeView (key index sub off : Nat) (s : State) : State :=
  match viewCover index sub off with
  | [] => s
  | c :: cs =>
    let seg := (sessionOf s key).bind (·.seg)
    hold { key := key, last := s.tb.now, seg := seg, view := some { point := index, values := snapView s (c :: cs) } } s

/-- OD Read of an entry that may be read: status, bytes, and the state with the view it fixes. -/
def readEntryOp (key index sub off : Nat) (f : OdField) (s : State) : (Nat × List Byte) × State :=
  if (viewCover index sub off).isEmpty && s.od.ended.contains (key, index) then ((stSession, readOut 0 0 []), s)
  else
    let s := takeView key index sub off s
    let v := (viewed s key index sub).getD (odBytes s index sub f.typ)
    if v.length < off then ((stRange, readOut 0 0 []), s)
    else ((stOk, readOut (odCode f.typ) v.length (slice f.typ off v)), { s with free := s.free + 16 })

/-- OD Read in the order of R365. -/
def readOp (p : Path) (index sub off : Nat) (s : State) : (Nat × List Byte) × State :=
  match readGate index p s with
  | some st => ((st, readOut 0 0 []), s)
  | none =>
    let s := touch (sessionKey p) s
    match findRead p index sub off s with
    | .inl st => ((st, readOut 0 0 []), s)
    | .inr f =>
      if (readNibble f).testBit (privilege p) then readEntryOp (sessionKey p) index sub off f s
      else ((stAccess, readOut 0 0 []), s)

/-- OD_READ (R61, R350). -/
def execOdRead (p : Path) (index : BitVec 16) (sub : BitVec 8) (off : Nat) (s : State) :
    Host.Outcome State Fault Refusal :=
  if turnedAway s p then .next (turnAway p s)
  else
    let r := readOp p index.toNat sub.toNat off s
    .next (reply p r.1.1 r.1.2 r.2)

/-! ## Enumerate (R360) -/

/-- A descriptor (R64). -/
def descriptor (i k : Nat) (f : OdField) : List Byte :=
  leBytes 2 i ++ leBytes 1 k ++ leBytes 1 (odCode f.typ) ++ leBytes 1 (odAccessCode f.acc)
    ++ leBytes 1 (16 * readNibble f + f.wr) ++ leBytes 2 0

/-- Every entry that is served to the path, in index and subindex order; the factory range holds none (R368, R369). -/
def listing (p : Path) (s : State) : List (Nat × Nat × OdField) :=
  (odMap.map fun x =>
    if (readGate x.1 p s).isNone then
      (odSubs s x.1).filterMap fun k => (odField s x.1 k).map fun f => (x.1, k, f)
    else []).flatten

/-- OD Enumerate (R360): status and bytes. -/
def enumerateOp (p : Path) (index sub maximum : Nat) (s : State) : Nat × List Byte :=
  match gate 0x1000 p s with
  | some st => (st, List.replicate 7 0)
  | none =>
    if maximum = 0 ∨ 1022 < maximum then (stRange, List.replicate 7 0)
    else
      let l := (listing p s).filter fun e => decide (index < e.1 ∨ index = e.1 ∧ sub ≤ e.2.1)
      let now := l.take maximum
      let next := (l.drop maximum).head?
      (stOk, leBytes 1 (b2n next.isSome) ++ leBytes 2 now.length
        ++ leBytes 2 ((next.map (·.1)).getD 0) ++ leBytes 1 ((next.map (·.2.1)).getD 0) ++ leBytes 1 0
        ++ (now.map fun e => descriptor e.1 e.2.1 e.2.2).flatten)

/-- OD_ENUMERATE (R63, R360). -/
def execOdEnumerate (p : Path) (index : BitVec 16) (sub : BitVec 8) (maximum : Nat) (s : State) :
    Host.Outcome State Fault Refusal :=
  if turnedAway s p then .next (turnAway p s)
  else
    let s := touch (sessionKey p) s
    let r := enumerateOp p index.toNat sub.toNat maximum s
    .next (reply p r.1 r.2 s)

/-! ## Actions: the write-only entries -/

/-- A write to 0x2040 (R132, R158): OK, then the save. -/
def saveWrite (v : Nat) (s : State) : Nat × State :=
  if v ≠ 1 then (stRange, s)
  else if restoring s || boathouse s || saving s then (stState, s)
  else (stOk, trigger .od s)

/-- SAVE_REQUEST (R132). -/
def execSaveRequest (p : Path) (v : Byte) (s : State) : Host.Outcome State Fault Refusal :=
  if turnedAway s p then .next (turnAway p s) else finish (serve p 0x2040 [0, 1, 2] (saveWrite v.toNat s) s)

/-- A write to 0x4007 (R318, R325, R331): the reverse-on entries of a requested learn run without a failure. -/
def learnWrite (v : Nat) (s : State) : Nat × State :=
  if v ≠ 1 ∧ v ≠ 2 then (stRange, s)
  else
    let x : Str := if v = 1 then .a else .b
    if learnOk s x && !(strOf s x).paused && !(strOf s x.other).paused then (stOk, startLearn x true s) else (stState, s)

/-- LEARNING_REQUEST (R318). -/
def execLearningRequest (p : Path) (v : Byte) (s : State) : Host.Outcome State Fault Refusal :=
  if turnedAway s p then .next (turnAway p s) else finish (serve p 0x4007 [1, 2] (learnWrite v.toNat s) s)

/-- A write to 0x4008 (R324, R331). -/
def packWrite (v : Nat) (s : State) : Nat × State :=
  if v = 0 ∨ 3 < v then (stRange, s) else (stOk, packDeclareOp v s)

/-- PACK_CHANGE_DECLARATION (R324): platform privilege. -/
def execPackChangeDeclaration (p : Path) (v : Byte) (s : State) : Host.Outcome State Fault Refusal :=
  if turnedAway s p then .next (turnAway p s) else finish (serve p 0x4008 [1] (packWrite v.toNat s) s)

/-- A write to 0x3001 (R292, R303): 0 is the off command, 1 the on command. -/
def onOffWrite (v : Nat) (s : State) : Nat × State :=
  if v = 0 then offOp s else if v = 1 then notInBoathouse s (onOp s) else (stRange, s)

/-- The action of a write-only entry: its status and state (R352). -/
def actionWrite (index v : Nat) (s : State) : Nat × State :=
  let b : Byte := BitVec.ofNat 8 v
  if index = 0x2040 then saveWrite v s
  else if index = 0x3001 then onOffWrite v s
  else if index = 0x3002 then latchWrite b s
  else if index = 0x4007 then learnWrite v s
  else if index = 0x4008 then packWrite v s
  else if index = 0x5003 then ackWrite (BitVec.ofNat 32 v) s
  else if index = 0x7005 then trialWrite b s
  else if index = 0x8003 then planWrite b s
  else if index = 0x9005 then seatWrite b s
  else if index = 0x9006 then crewResetWrite b s
  else freezeWrite b s

/-! ## Write (R62, R63, R351, R355) -/

/-- The entry is stored in the board profile (R355). -/
def inBoard (index : Nat) : Bool :=
  decide ((0x3100 ≤ index ∧ index < 0x3110) ∨ index = 0x3300 ∨ index = 0x6006)

/-- A rail's configuration with field `k` written (R279). -/
def railPut (k v : Nat) (r : RailCfg) : RailCfg :=
  if k = 1 then { r with state := v }
  else if k = 2 then { r with onDelay := v }
  else if k = 3 then { r with offDelay := v }
  else if k = 4 then { r with nominal := v }
  else if k = 5 then { r with uvWarn := v }
  else if k = 6 then { r with uvFault := v }
  else if k = 7 then { r with ovWarn := v }
  else if k = 8 then { r with ovFault := v }
  else if k = 9 then { r with riseTimeout := v }
  else if k = 10 then { r with fallTimeout := v }
  else if k = 11 then { r with flags := BitVec.ofNat 8 (v % 16) }
  else { r with scaleQ16 := v }

/-- Lowest and highest value of a field of a rail's configuration (R279). -/
def railRange (r : RailCfg) (k : Nat) : Nat × Nat :=
  if k = 1 then (0, 6)
  else if k = 2 ∨ k = 3 then (0, 65535)
  else if k = 4 then (1, 20000)
  else if k = 5 ∨ k = 7 then (1, 500)
  else if k = 6 then (r.uvWarn + 1, 500)
  else if k = 8 then (r.ovWarn + 1, 500)
  else if k = 9 ∨ k = 10 then (1, 65535)
  else if k = 11 then (0, 0xFF)
  else (65536, 16 * 65536)

/-- LEDGER_HOLD stands on at most one rail, and on none whose state is AUX (R279). -/
def holdsOk (l : List RailCfg) : Bool :=
  decide ((l.filter (·.ledgerHold)).length ≤ 1) && l.all fun r => !(r.ledgerHold && decide (r.state = 1))

/-- A write to a rail's configuration (R279): the new configuration, or none outside the range. -/
def railWrite (n k v : Nat) (l : List RailCfg) : Option (List RailCfg) :=
  let r := l.getD n {}
  if k = 0 then (if v = 12 then some l else none)
  else if (railRange r k).1 ≤ v ∧ v ≤ (railRange r k).2 then
    let l' := listUpd n (railPut k v) l
    if holdsOk l' then some l' else none
  else none

/-- A write to the reset outputs (R298). -/
def resetWrite (k v : Nat) (o : Od) : Option Od :=
  if k = 0 then (if v = 4 then some o else none)
  else if k = 1 then (if 1 ≤ v ∧ v ≤ 6 then some { o with mrstState := v } else none)
  else if k = 2 then (if 1 ≤ v ∧ v ≤ 255 then some { o with mrstMs := v } else none)
  else if k = 3 then (if 1 ≤ v ∧ v ≤ 6 then some { o with frstState := v } else none)
  else (if 1 ≤ v ∧ v ≤ 255 then some { o with frstMs := v } else none)

/-- A charger command list is well formed (R387). -/
def chargerOk (b : List Byte) : Bool :=
  decide (leNat (b.take 2) = 1) && decide (b.length = 4 + 8 * leNat ((b.drop 2).take 2)) && decide (b.length ≤ 1024)

/-- Elements of a written array: its count and its numbers, if the length fits (R351). -/
def arrayOf (b : List Byte) : Option (List Nat) :=
  match b with
  | [] => none
  | n :: t =>
    if t.length = 4 * n.toNat then some ((List.range n.toNat).map fun i => leNat ((t.drop (4 * i)).take 4)) else none

/-- A snapshot list takes its place; the list it supersedes applies for 10 ms more (R335). -/
def putList (c : Nat) (l : List Nat) (s : State) : State :=
  let old := writtenList s c
  s.onOd fun o =>
    { o with
      set := { o.set with snapshots := tabIns c l o.set.snapshots }
      pendingLists := (o.pendingLists.filter fun x => decide (s.tb.now < x.2.2)) ++ [(c, old, s.tb.now + 10 * nsPerMs)] }

/-- What a setting moves once it is in force: the Weir's recomputation (R117, R131), Sprint (R97, R109), the restore in
progress (R51), the record of the owner lock (R420). A port takes its settings at its next STOP (R372). -/
def settingActs (index v : Nat) (s0 s : State) : State :=
  if index = 0x2003 ∨ index = 0x2005 ∨ index = 0x2006 ∨ index = 0x2020 then s.onWeir fun w => { w with floorDue := true }
  else if index = 0x2012 ∨ index = 0x2014 then sprintCheck s
  else if index = 0x2030 then restoreModeOp v s
  else if index = 0x3006 then releaseCatch s
  else if index = 0x7002 then (if s0.od.set.ownerLock = v then s else bootWrite (record 0x090A 3 0x7000 v s))
  else s

/-- Compaction starts when the copy is 75 % full, but not during a trial (R355, R413). -/
def compactCheck (s : State) : State :=
  if 3 * settingsCopy ≤ 4 * s.od.used ∧ s.upd.trial ≠ 1 then s.onOd fun o => { o with compacting := true } else s

/-- The record of a written value (R437). -/
def recordOf (index sub : Nat) (value : List Byte) : SettingRec :=
  { index := index, sub := sub, typ := ((shapeField index sub).map fun f => odCode f.typ).getD 0, value := value }

/-- A record is appended to the settings copy in force (R355). -/
def appendSetting (r : SettingRec) (s : State) : State :=
  s.onOd fun o => { o with records := o.records ++ [r], used := o.used + settingRecord r.value.length }

/-- A record is appended to the board profile in force (R355, R438): it is rewritten, as R219 has it for retired dies. -/
def appendBoard (r : SettingRec) (s : State) : State :=
  (s.onOd fun o => { o with boardRecords := o.boardRecords ++ [r] }).onFlash fun f => { f with profileNew := true }

/-- A persisted value (R355, R413, R417): BUSY while the working copy is written or the active copy is full, MEDIA when
serial memory does not store it, else its record appended and the value in force. In Boathouse mode the boot-config mirror
alone takes it. -/
def persist (r : SettingRec) (stored : Bool) (put : State → State) (s : State) : Nat × State :=
  if s.od.workingCopy then (stBusy, s)
  else if inBoard r.index then (if stored then (stOk, put (appendBoard r s)) else (stMedia, s))
  else if boathouse s then (if stored then (stOk, put s) else (stMedia, s))
  else if settingsCopy < s.od.used + settingRecord r.value.length then (stBusy, s)
  else if !stored then (stMedia, s)
  else (stOk, compactCheck (put (appendSetting r s)))

/-- A write of a fixed-size persisted value. -/
def rwsWrite (index sub v n : Nat) (stored : Bool) (s : State) : Nat × State :=
  if 0x3100 ≤ index ∧ index < 0x3110 then
    match railWrite (index - 0x3100) sub v s.od.railCfg with
    | none => (stRange, s)
    | some l => persist (recordOf index sub (leBytes n v)) stored (fun s => s.onOd fun o => { o with railCfg := l }) s
  else if index = 0x3300 then
    match resetWrite sub v s.od with
    | none => (stRange, s)
    | some o =>
      persist (recordOf index sub (leBytes n v)) stored (fun s => s.onOd fun d =>
        { d with mrstState := o.mrstState, mrstMs := o.mrstMs, frstState := o.frstState, frstMs := o.frstMs }) s
  else if !settingOk s (index, sub) v then (stRange, s)
  else persist (recordOf index sub (leBytes n v)) stored (fun t =>
    settingActs index v s (t.onOd fun o => { o with set := putSetting (index, sub) v o.set })) s

/-- RESTORE_MODE_WRITE (R50, R51): host privilege; a setting like the others, with its effect on a running restore. -/
def execRestoreModeWrite (p : Path) (v : Byte) (s : State) : Host.Outcome State Fault Refusal :=
  if turnedAway s p then .next (turnAway p s) else finish (serve p 0x2030 [0] (rwsWrite 0x2030 0 v.toNat 1 true s) s)

/-- A write of a whole array: the snapshot lists (R335, R351). -/
def arrayWrite (index : Nat) (data : List Byte) (stored : Bool) (s : State) : Nat × State :=
  match arrayOf data with
  | none => (stType, s)
  | some l =>
    if 16 < l.length ∨ (l.all readable) = false then (stRange, s)
    else persist (recordOf index 0 data) stored (putList (index - 0x5110) l) s

/-- A segment of the charger command list (R63, R387). A segment at an offset that is not 0 with no unfinished value before it
depends on session state that is not there: SESSION, as after an eviction (R356); R63 does not name the case (DEDUCED,
log 82). -/
def segmentWrite (key index off : Nat) (last : Bool) (data : List Byte) (stored : Bool) (s : State) : Nat × State :=
  let x : Session := (sessionOf s key).getD { key := key, last := s.tb.now }
  if x.seg = none ∧ off ≠ 0 then (stSession, s)
  else if data.isEmpty then (stLengthZero, s)
  else if 1024 < off + data.length then (stRange, s)
  else
    let had := match x.seg with
      | none => some []
      | some g => if g.index = index ∧ off = g.bytes.length then some g.bytes else none
    match had with
    | none => (stState, hold { x with seg := none } s)
    | some b =>
      if last then
        let s := hold { x with seg := none } s
        if chargerOk (b ++ data) then
          persist (recordOf index 0 (b ++ data)) stored (fun s => s.onOd fun o => { o with charger := b ++ data }) s
        else (stRange, s)
      else (stOk, hold { x with seg := some { index := index, sub := 0, bytes := b ++ data } } s)

/-- A write of a value to an entry that may be written: the checks of R365 from SESSION on. R63 gives LAST a meaning for values
longer than a payload; a write of any other entry acts at once, whatever LAST is, and leaves the requester's unfinished
segments of another entry as they stand (DESIGN CHOICE, log 82). -/
def writeEntry (key index sub : Nat) (last : Bool) (off : Nat) (data : List Byte) (stored : Bool) (f : OdField)
    (s : State) : Nat × State :=
  if f.typ = .domain then segmentWrite key index off last data stored s
  else if data.isEmpty then (stLengthZero, s)
  else if f.typ = .arr then (if off ≠ 0 then (stType, s) else arrayWrite index data stored s)
  else if off ≠ 0 ∨ data.length ≠ odSize f.typ then (stType, s)
  else if f.acc = .wo then actionWrite index (leNat data) s
  else rwsWrite index sub (leNat data) data.length stored s

/-- The status of a write that nothing evaluates: as for a read; the ROM takes only the owner lock (R417). -/
def writeGate (index : Nat) (p : Path) (s : State) : Option Nat :=
  match gate index p s with
  | some st => some st
  | none => if romOnly index s && !darkOrAux s then some stState else none

/-- An element of an array cannot be written alone (R351). -/
def isElement (index sub : Nat) : Bool :=
  match odShape index with
  | some (.array _) => decide (sub ≠ 0)
  | _ => false

/-- OD Write in the order of R365. -/
def writeOp (p : Path) (index sub : Nat) (last : Bool) (off : Nat) (data : List Byte) (stored : Bool) (s : State) :
    Nat × State :=
  match writeGate index p s with
  | some st => (st, s)
  | none =>
    let s := touch (sessionKey p) s
    match findEntry p index sub s with
    | .inl st => (st, s)
    | .inr f =>
      if (f.acc = .rws ∨ f.acc = .wo) ∧ f.wr.testBit (privilege p) ∧ isElement index sub = false then
        writeEntry (sessionKey p) index sub last off data stored f s
      else (stAccess, s)

/-- OD_WRITE (R62, R351). -/
def execOdWrite (p : Path) (index : BitVec 16) (sub : BitVec 8) (last : Bool) (off : Nat) (data : List Byte)
    (stored : Bool) (s : State) : Host.Outcome State Fault Refusal :=
  if turnedAway s p then .next (turnAway p s)
  else
    let r := writeOp p index.toNat sub.toNat last off data stored s
    finish (reply p r.1 [0, 0, 0] r.2)

/-- SETTINGS_COMPACTION_DONE (R355, R437): the other copy holds the values in force. -/
def execSettingsCompactionDone (s : State) : Host.Outcome State Fault Refusal :=
  if s.od.compacting && anyMember s && !frozen s then
    .next (s.onOd fun o =>
      { o with compacting := false, used := compactedSize o.set, records := compactedRecords o.set
               copySeq := o.copySeq + 1 })
  else .next s

/-! ## Waterline Read (R67, R342) -/

/-- The records that may be read: the ring in DARK, AUX and Boathouse mode and while the ledger is failed, else the
log (R342, R417). -/
def readableRecs (s : State) : List WlRec :=
  if darkOrAux s || boathouse s || s.ledger.failed then s.wl.ring else s.wl.log

/-- The first records that fit, whole, in `room` bytes. -/
def fitting (fb3 : Bool) : Nat → Nat → List WlRec → List WlRec
  | _, _, [] => []
  | 0, _, _ => []
  | n + 1, room, r :: t =>
    let size := (if fb3 then wlFb3 r else wlNative r).length
    if size ≤ room then r :: fitting fb3 n (room - size) t else []

/-- Status of a Waterline Read that nothing serves (R248, R342, R390). -/
def wlGate (p : Path) (s : State) : Option Nat := if darkOrAux s then none else gate 0xC000 p s

/-- Waterline Read (R66, R67): status and bytes. -/
def wlReadOp (first maximum : Nat) (fb3 : Bool) (minSeverity : Fin 8) (s : State) : List Byte :=
  let l := (readableRecs s).filter fun r => decide (first ≤ r.seq ∧ minSeverity.val ≤ r.severity.val)
  let out := fitting fb3 maximum (if fb3 then 8174 else 8176) l
  let bytes := (out.map fun r => if fb3 then wlFb3 r else wlNative r).flatten ++ (if fb3 then [0, 0] else [])
  let next := match out.getLast? with
    | some r => r.seq + 1
    | none => first
  leBytes 1 (b2n fb3) ++ leBytes 2 out.length ++ leBytes 8 next ++ leBytes 4 bytes.length ++ bytes

/-- WATERLINE_READ (R67). -/
def execWaterlineRead (p : Path) (first maximum : Nat) (fb3 : Bool) (minSeverity : Fin 8) (s : State) :
    Host.Outcome State Fault Refusal :=
  if turnedAway s p then .next (turnAway p s)
  else match wlGate p s with
    | some st => .next (reply p st (List.replicate 15 0) s)
    | none => .next (reply p stOk (wlReadOp first maximum fb3 minSeverity s) s)

end Sys2Proof.Machine
end

