-- ==== Sys2Proof/Machine/Bus.lean ====
section
/-! DEFINITION. The two-wire ports (R370 to R391): bus events and their counters, the attention call, MCTP control
messages, and the assembly and execution of MCTP vendor messages (R361, R362, R383 to R385). -/

namespace Sys2Proof.Machine

/-! ## Ports -/

/-- Port `p`. -/
def portOf (s : State) (p : Port) : BusPort :=
  match p with
  | .mgmt => s.bus.mgmt
  | .lcl => s.bus.lcl

/-- Argument of a port's records (R388). -/
def portArg : Port → Nat
  | .mgmt => 0
  | .lcl => 1

/-- Master ID of a port (R13). -/
def portId : Port → MasterId
  | .mgmt => 0x6080
  | .lcl => 0x6081

/-- A port works: VDD_AON is present and it is not in its reset (R265, R370). -/
def portOn (s : State) (p : Port) : Bool := s.seq.vddAon && decide ((portOf s p).st ≠ .portReset)

/-- The port runs without SMBus timeouts (R372): LOCAL always runs in SMBus mode. -/
def i2cMode (s : State) (p : Port) : Bool := decide (p = .mgmt) && s.bus.mgmt.i2c

/-- The device is no longer a target: the port is idle again. -/
def targetReset (p : Port) (s : State) : State :=
  onPort p (fun b => { b with st := if b.st = .target then .idle else b.st }) s

/-- A transaction of the device as a target has ended in a STOP (R372). -/
def targetDone (p : Port) (s : State) : State := busStop p (targetReset p s)

/-- A record of class 0x0D (R388). -/
def busRecord (p : Port) (event : Nat) (sev : Fin 8) (s : State) : State :=
  record (BitVec.ofNat 16 (0x0D00 + event)) sev (portId p) (portArg p) s

/-- Top of the counters of R389. -/
def busTop : Nat := 0xFFFFFFFF

/-- A bus error with its cause (R378, R388, R389, R391). -/
def busErrorOp (p : Port) (cause : Nat) (s : State) : State :=
  busRecord p 0 2 (targetReset p (onPort p (fun b => { b with errors := satInc busTop b.errors, lastError := cause }) s))

/-- LAST_ERROR of a bus error of R378 (R391). -/
def errCode : BusErr → Nat
  | .misplaced => 1
  | .restartInAck => 2
  | .pec => 3

/-- BUS_ERROR (R378): a PEC mismatch is MGMT's alone. -/
def execBusError (port : Port) (err : BusErr) (s : State) : Host.Outcome State Fault Refusal :=
  if portOn s port && !(decide (port = .lcl) && decide (err = .pec)) then finish (busErrorOp port (errCode err) s)
  else .next s

/-- TARGET_TIMEOUT (R375): in I2C mode the device waits. -/
def execTargetTimeout (s : State) : Host.Outcome State Fault Refusal :=
  if portOn s .mgmt && !i2cMode s .mgmt then finish (busErrorOp .mgmt 5 s) else .next s

/-- A stretch abort (R376): the device makes a STOP; the transaction is retried once, then failed to its requester. -/
def stretchOp (p : Port) (s : State) : State :=
  busRecord p 3 3 (busStop p (onPort p (fun b =>
    { b with aborts := satInc busTop b.aborts, lastError := 4, retried := !b.retried }) s))

/-- STRETCH_ABORT (R376): in I2C mode the device waits. -/
def execStretchAbort (port : Port) (s : State) : Host.Outcome State Fault Refusal :=
  if portOn s port && !i2cMode s port then finish (stretchOp port s) else .next s

/-- An arbitration loss on MGMT (R377): the sixteenth in a row waits 10 ms; a loss to its own address makes the device
a target, else it monitors until the STOP. -/
def lossOp (a : ArbLoss) (s : State) : State :=
  let n := s.bus.mgmt.lossRun + 1
  let s := onPort .mgmt (fun b =>
    { b with
      losses := satInc busTop b.losses, lossRun := n
      st := if n = 16 then .waiting else if a = .addressOwn then .target else .idle }) s
  let s := if a = .addressOwn then s else busStop .mgmt s
  if n = 16 then busRecord .mgmt 5 3 s else s

/-- ARBITRATION_LOSS (R377): on LOCAL, where the device is alone, it is a bus error as well. -/
def execArbitrationLoss (port : Port) (at' : ArbLoss) (s : State) : Host.Outcome State Fault Refusal :=
  if !portOn s port then .next s
  else match port with
    | .mgmt => finish (lossOp at' s)
    | .lcl => finish (busErrorOp .lcl 9 (onPort .lcl (fun b => { b with losses := satInc busTop b.losses }) s))

/-- ARBITRATION_BACKOFF_END (R377). -/
def execArbitrationBackoffEnd (port : Port) (s : State) : Host.Outcome State Fault Refusal :=
  if (portOf s port).st = .waiting then .next (onPort port (fun b => { b with st := .idle, lossRun := 0 }) s)
  else .next s

/-- Hang recovery (R379): it ends with a STOP, or is repeated after 1 s, at most three times. -/
def hangOp (p : Port) (stopMade : Bool) (s : State) : State :=
  if stopMade then
    busRecord p 1 3 (busStop p (onPort p (fun b =>
      { b with hangs := satInc busTop b.hangs, hangRun := 0, st := .idle }) s))
  else if 2 ≤ (portOf s p).hangRun then
    busRecord p 2 5 (onPort p (fun b => { b with lastError := 6, hangRun := 0, st := .idle }) s)
  else onPort p (fun b => { b with hangRun := b.hangRun + 1, st := .hangRecovery }) s

/-- HANG_RECOVERY (R379). -/
def execHangRecovery (port : Port) (stopMade : Bool) (s : State) : Host.Outcome State Fault Refusal :=
  if portOn s port then finish (hangOp port stopMade s) else .next s

/-! ## Attention (R373, R374, R380 to R382) -/

/-- The pending call is serviced (R380). -/
def serviced (s : State) : State :=
  onPort .mgmt (fun b => { b with callPending := false, called := false, notified := false, interval := 0 }) s

/-- A status read (R374): the byte, then bits [2:0] clear; ALERT_N is asserted only while ATTENTION is 1 (R381). -/
def statusReadOp (s : State) : State :=
  let s := say (.wire .mgmt (statusByte s)) s
  let s := onPort .mgmt (fun b => { b with attention := b.attention &&& 8 }) (serviced (targetDone .mgmt s))
  onPort .mgmt (fun b => { b with alert := b.alert && (statusByte s).getLsbD 7 }) s

/-- STATUS_READ (R374). -/
def execStatusRead (s : State) : Host.Outcome State Fault Refusal :=
  if portOn s .mgmt then .next (statusReadOp s) else .next s

/-- An alert response (R381): the device's address in bits [7:1]; bit 0 is a free value (log 1). -/
def alertOp (s : State) : State :=
  let b : Byte := s.bus.mgmt.address ++ Config.freeBits 1 s.free
  let s := say (.wire .mgmt b) { s with free := s.free + 1 }
  serviced (onPort .mgmt (fun b => { b with alert := false }) (targetDone .mgmt s))

/-- ALERT_RESPONSE (R381): while ALERT_N is asserted; `won` when no lower address answered first. -/
def execAlertResponse (won : Bool) (s : State) : Host.Outcome State Fault Refusal :=
  if portOn s .mgmt && s.bus.mgmt.alert && won then .next (alertOp s) else .next s

/-- One second in ns: the longest interval of R382. -/
def callCap : Nat := nsPerS

/-- BUS_CALL (R380): a call not made yet is made, a START and a STOP with no byte, unless another controller's START cut it
short. -/
def execBusCall (sclFell : Bool) (s : State) : Host.Outcome State Fault Refusal :=
  if portOn s .mgmt && s.bus.mgmt.callPending && !s.bus.mgmt.called && !sclFell then
    .next (busStop .mgmt (onPort .mgmt (fun b =>
      { b with calls := satInc busTop b.calls, called := true, interval := s.od.set.serviceMs * nsPerMs }) s))
  else .next s

/-- Host Notify (R382): status byte and lane. -/
def hostNotify (s : State) : State :=
  let s := onPort .mgmt (fun b => { b with notifies := satInc busTop b.notifies }) s
  busRecord .mgmt 4 2 (busStop .mgmt (say (.notify (statusByte s).toNat s.boot.lane.toNat) s))

/-- The call is repeated (R382). -/
def repeatCall (s : State) : State := busStop .mgmt (onPort .mgmt (fun b => { b with calls := satInc busTop b.calls }) s)

/-- A call is not serviced within its interval (R382): Host Notify, later the call and Host Notify; in I2C mode the
call alone. The interval doubles up to 1 s. -/
def callTimeout (s : State) : State :=
  let again := s.bus.mgmt.notified
  let t := if i2cMode s .mgmt then repeatCall s else if again then hostNotify (repeatCall s) else hostNotify s
  onPort .mgmt (fun b => { b with notified := true, interval := min (2 * b.interval) callCap }) t

/-- BUS_CALL_SERVICE_TIMEOUT (R382). -/
def execBusCallServiceTimeout (s : State) : Host.Outcome State Fault Refusal :=
  if portOn s .mgmt && s.bus.mgmt.callPending && s.bus.mgmt.called then finish (callTimeout s) else .next s

/-! ## LOCAL (R371, R386) -/

/-- LOCAL issues transactions: the AUX state has completed (R371). -/
def localOn (s : State) : Bool :=
  portOn s .lcl && (decide (2 ≤ s.seq.st.num) || (decide (s.seq.st = .aux) && s.seq.complete))

/-- Readings beyond their limits (R386). -/
def tooHot (s : State) (readings : List Int) : List Nat :=
  (((List.range 4).zip (readings.zip s.cfg.board.tempLimits)).filter fun x => decide (x.2.2 < x.2.1)).map (·.1)

/-- A reading beyond its limit (R386): R334 has no class for it, so its record is of the class Other (DEDUCED, log 60), its
event a free value (log 1). -/
def tempRecord (n : Nat) (s : State) : State :=
  record ((0x0F : BitVec 8) ++ Config.freeBits 8 s.free) 2 0x6081 n { s with free := s.free + 1 }

/-- LOCAL_TEMPERATURE_READ (R386): up to four sensors; each reading beyond its limit is reported. -/
def execLocalTemperatureRead (readings : List Int) (s : State) : Host.Outcome State Fault Refusal :=
  if localOn s then finish ((tooHot s readings).foldl (fun s n => tempRecord n s) (busStop .lcl s)) else .next s

/-! ## MCTP control messages (R384) -/

/-- A message to this endpoint is the device's (R384): before an endpoint ID is set, control messages to the null
endpoint alone. -/
def forUs (s : State) (control : Bool) (dst : Nat) : Bool :=
  portOn s .mgmt &&
    (match s.bus.mgmt.eid with
     | none => control && decide (dst = 0)
     | some e => decide (dst = 0 ∨ dst = e))

/-- A control message that is the device's is answered by these bytes: the completion code first. -/
def controlCmd (dst : Nat) (bytes : State → List Byte) (s : State) : Host.Outcome State Fault Refusal :=
  if forUs s true dst then .next (say (.control (0 :: bytes s)) s) else .next s

/-- An endpoint ID that can be set: not the null nor the broadcast ID. -/
def eidOk (eid : Nat) : Bool := decide (0 < eid ∧ eid < 255)

/-- SET_ENDPOINT_ID (R384). -/
def execSetEndpointId (dst eid : Nat) (s : State) : Host.Outcome State Fault Refusal :=
  if !forUs s true dst then .next s
  else if eidOk eid then
    .next (say (.control ([0, 0] ++ leBytes 1 eid ++ [0])) (onPort .mgmt (fun b => { b with eid := some eid }) s))
  else .next (say (.control [2]) s)

/-- GET_ENDPOINT_ID (R384). -/
def execGetEndpointId (dst : Nat) (s : State) : Host.Outcome State Fault Refusal :=
  controlCmd dst (fun s => leBytes 1 (s.bus.mgmt.eid.getD 0)) s

/-- GET_ENDPOINT_UUID (R384). -/
def execGetEndpointUuid (dst : Nat) (s : State) : Host.Outcome State Fault Refusal :=
  controlCmd dst (fun _ => leBytes 16 Config.endpointUuid.toNat) s

/-- GET_MCTP_VERSION_SUPPORT (R383, R384): base protocol version 1.3. -/
def execGetMctpVersionSupport (dst : Nat) (s : State) : Host.Outcome State Fault Refusal :=
  controlCmd dst (fun _ => [1, 0xF1, 0xF3, 0xFF, 0]) s

/-- GET_MESSAGE_TYPE_SUPPORT (R59, R361, R384): SPDM, secured messages, and the vendor-defined type 0x7E. -/
def execGetMessageTypeSupport (dst : Nat) (s : State) : Host.Outcome State Fault Refusal :=
  controlCmd dst (fun _ => [3, 0x05, 0x06, 0x7E]) s

/-- GET_VENDOR_DEFINED_MESSAGE_SUPPORT (R384): type 0x7E with the vendor ID of 0x1018:01. -/
def execGetVendorDefinedMessageSupport (dst : Nat) (s : State) : Host.Outcome State Fault Refusal :=
  controlCmd dst (fun s =>
    [0x7E, BitVec.ofNat 8 (s.cfg.vendorId.toNat / 256), BitVec.ofNat 8 s.cfg.vendorId.toNat]) s

/-! ## Vendor messages (R361, R362) -/

/-- Return codes of the CXL mailbox (log 46). -/
def rcUnsupported : Nat := 3
/-- Busy. -/
def rcBusy : Nat := 6
/-- Invalid Payload Length. -/
def rcLength : Nat := 0x16

/-- The state an outcome leaves, or `s`. -/
def after (s : State) (o : Host.Outcome State Fault Refusal) : State :=
  match o with
  | .next t => t
  | _ => s

/-- `n` bytes of `b` from `k` as a number. -/
def at' (b : List Byte) (k n : Nat) : Nat := leNat ((b.drop k).take n)

/-- The vendor opcodes and the fixed part of each input (R61 to R66, R361). -/
def vendorOps : List (Nat × Nat) :=
  [(0xC001, 8), (0xC002, 12), (0xC003, 6), (0xC010, 8), (0xC011, 12), (0xC012, 4), (0xC013, 4), (0xC020, 12)]

/-- The data of a write or block: the length its field gives, if the payload holds it. -/
def dataOf (b : List Byte) : Option (List Byte) :=
  let n := at' b 8 4
  if (b.drop 12).length < n then none else some ((b.drop 12).take n)

/-- A Length beyond the payload: R62 and R65 give no status for it, and it is RANGE, as every other Length outside its range
(DEDUCED, log 41). -/
def shortData (p : Path) (s : State) : Host.Outcome State Fault Refusal :=
  finish (serveAny p (plain (stRange, s)) s)

/-- A vendor command as an MCTP message brings it in (R61 to R67): serial memory stores and returns what it must. -/
def runOp (p : Path) (opcode : Nat) (b : List Byte) (s : State) : Host.Outcome State Fault Refusal :=
  let index : BitVec 16 := BitVec.ofNat 16 (at' b 0 2)
  let sub : BitVec 8 := BitVec.ofNat 8 (at' b 2 1)
  if opcode = 0xC001 then execOdRead p index sub (at' b 4 4) s
  else if opcode = 0xC002 then
    (match dataOf b with
     | some d => execOdWrite p index sub ((at' b 3 1) % 2 = 1) (at' b 4 4) d true s
     | none => shortData p s)
  else if opcode = 0xC003 then execOdEnumerate p index sub (at' b 4 2) s
  else if opcode = 0xC010 then execUpdateOpen p (at' b 0 4) s
  else if opcode = 0xC011 then
    (match dataOf b with
     | some d => execUpdateBlock p (at' b 0 2) (at' b 4 4) d true s
     | none => shortData p s)
  else if opcode = 0xC012 then execUpdateCommit p (at' b 0 2) s
  else if opcode = 0xC013 then execUpdateAbort p (at' b 0 2) s
  else execWaterlineRead p (at' b 0 8) (at' b 8 2) (decide (at' b 10 1 = 1)) (sevOf (at' b 11 1)) s

/-- Execute a request of an endpoint (R362): protocol version, opcode and length first. -/
def runRequest (q : McReq) (version : Nat) (payload : List Byte) (s : State) : State :=
  let s := s.onBus fun b => { b with reqs := q :: b.reqs.filter fun x => decide (x.src ≠ q.src) }
  match vendorOps.find? fun o => decide (o.1 = q.opcode) with
  | none => mctpAnswer q rcUnsupported [] s
  | some o =>
    if version ≠ 1 then mctpAnswer q rcUnsupported [] s
    else if payload.length < o.2 then mctpAnswer q rcLength [] s
    else after s (runOp (.smbus q.src) q.opcode payload s)

/-- A request of the endpoint runs: its Commit verifies or activates (R66). -/
def endpointBusy (s : State) (e : Nat) : Bool := decide (s.upd.committer = some (.smbus e))

/-- The request a message spells (R361), if it is a vendor-defined request of the device's vendor ID with IC = 0. -/
def parse (s : State) (m : McMsg) : Option McReq :=
  let b := m.bytes
  if b.length < 8 ∨ at' b 0 1 ≠ 0x7E ∨ at' b 1 1 * 256 + at' b 2 1 ≠ s.cfg.vendorId.toNat ∨ at' b 4 1 / 128 = 0 then none
  else some { src := m.src, inst := at' b 4 1 % 32, addr := m.addr, tag := m.tag, opcode := at' b 6 2, resp := [] }

/-- A request that is no retry: it runs, waits behind the endpoint's running request, or is answered Busy (R362). -/
def takeRequest (q : McReq) (m : McMsg) (s : State) : State :=
  if !endpointBusy s q.src then runRequest q (at' m.bytes 3 1) (m.bytes.drop 8) s
  else if s.bus.waiting.any fun x => decide (x.src = q.src) then
    mctpSend q (mctpFrame s q.inst q.opcode rcBusy []) s
  else s.onBus fun b => { b with waiting := b.waiting ++ [m] }

/-- A whole message is executed, or its last response sent again (R362). -/
def takeMessage (m : McMsg) (s : State) : State :=
  match parse s m with
  | none => s
  | some q =>
    let s := onPort .mgmt (fun b => { b with peer := m.addr, lossRun := 0 }) s
    match s.bus.reqs.find? fun x => decide (x.src = q.src ∧ x.inst = q.inst) with
    | some old => if old.resp.isEmpty then s else mctpSend q old.resp s
    | none => takeRequest q m s

/-- A message that waited runs once its endpoint's request has ended (R362, log 3). -/
def serveWaiting (s : State) : State :=
  match s.bus.waiting.find? fun m => !endpointBusy s m.src with
  | none => s
  | some m =>
    let s := s.onBus fun b => { b with waiting := b.waiting.filter fun x => decide (x.src ≠ m.src) }
    match parse s m with
    | none => s
    | some q => runRequest q (at' m.bytes 3 1) (m.bytes.drop 8) s

/-- A decaying level falls as time passes: what follows from it (R20, R97, R125). -/
def decayStep (s : State) : State :=
  if decide (s.weir.state = .decaying) && !frozen s then weirCheck 3 s else s

/-- The copies whose pairing lag has passed arrive (R234), while the landings run. -/
def lagStep (s : State) : State := if darkOrAux s || frozen s then s else releaseLagged s

/-- What step does on an empty queue (log 3): one tick, the write buffer's drain with the map operations that waited for it,
the reset of a faulted crew and the end of a handover copy, the copies whose lag has passed, the level's decay, a reset that
overruns its bound, and a message that waited. -/
def idleStep (s : State) : State :=
  serveWaiting (overrunStep (decayStep (lagStep (crewStep (sampleStep s.tb.now (settleMarks (idle s)))))))

/-! ## Packets (R383, R385) -/

/-- Longest message (R361, R385). -/
def messageBytes : Nat := 10 + 8192

/-- One hundred ms: the longest gap between packets (R385). -/
def packetGap : Nat := 100 * nsPerMs

/-- The message of an endpoint that is being assembled. -/
def assemblyOf (s : State) (src : Nat) : Option Assembly := s.bus.assembly.find? fun a => decide (a.src = src)

/-- Nothing is being assembled for an endpoint. -/
def noAssembly (src : Nat) (s : State) : State :=
  s.onBus fun b => { b with assembly := b.assembly.filter fun a => decide (a.src ≠ src) }

/-- The message being assembled is discarded: a bus error, cause assembly (R385). -/
def discard (src : Nat) (s : State) : State := busErrorOp .mgmt 8 (noAssembly src s)

/-- A packet's payload joins its message (R385); its last packet ends it. -/
def joinPacket (pkt : MctpPkt) (before : List Byte) (s : State) : State :=
  let bytes := before ++ pkt.payload
  if messageBytes < bytes.length then discard pkt.src s
  else if pkt.eom then
    takeMessage { src := pkt.src, addr := pkt.srcAddr, tag := pkt.tag, bytes := bytes } (noAssembly pkt.src s)
  else
    (noAssembly pkt.src s).onBus fun b =>
      { b with assembly := b.assembly ++ [{ src := pkt.src, last := s.tb.now, nextSeq := pkt.seq + 1, bytes := bytes }] }

/-- A packet that passed its checks (R385): the start of a message replaces one being assembled; one out of order, or
after a gap, discards it. -/
def takePacket (pkt : MctpPkt) (s : State) : State :=
  if pkt.som then joinPacket pkt [] s
  else match assemblyOf s pkt.src with
    | none => s
    | some a =>
      if a.nextSeq ≠ pkt.seq ∨ a.last + packetGap < s.tb.now then discard pkt.src s else joinPacket pkt a.bytes s

/-- LAST_ERROR of a packet longer than 64 bytes, which R391 does not name: a free value (log 1). -/
def longPacket (s : State) : State := busErrorOp .mgmt (Config.freeNat s.free % 16) { s with free := s.free + 1 }

/-- MCTP_PACKET (R373, R383). -/
def execMctpPacket (pkt : MctpPkt) (s : State) : Host.Outcome State Fault Refusal :=
  if !portOn s .mgmt then .next s
  else if 64 < pkt.payload.length then finish (longPacket s)
  else if !pkt.pecOk then finish (busErrorOp .mgmt 3 s)
  else
    let s := targetDone .mgmt s
    if forUs s false pkt.dst then finish (takePacket pkt s) else .next s

/-- MCTP_ASSEMBLY_GAP (R385). -/
def execMctpAssemblyGap (src : Nat) (s : State) : Host.Outcome State Fault Refusal :=
  if portOn s .mgmt && (assemblyOf s src).isSome then finish (discard src s) else .next s

end Sys2Proof.Machine
end

