-- ==== Sys2Proof/Machine/Clocks.lean ====
section
/-! DEFINITION. The clock roots and the time base's alignment (R25, R26, R28). -/

namespace Sys2Proof.Machine

/-! ## REFCLK (R25) -/

/-- REFCLK_DETECT (R25): the detector runs from the start of CORE; the 10 ms count starts if the Spring PLL is
locked. -/
def execRefclkDetect (s : State) : Host.Outcome State Fault Refusal :=
  if !s.clk.rootsStarted || s.clk.refclk then .next s
  else .next (s.onClk fun c => { c with refclk := true, countRunning := c.springLock })

/-- REFCLK_RETURN (R25): the count of 10 ms has ended; in a save or a restore the return waits for its end. Only an
absence of REFCLK restarts the count: a lock loss of the Spring PLL does not (DEDUCED, log 56). -/
def execRefclkReturn (s : State) : Host.Outcome State Fault Refusal :=
  if !s.clk.countRunning || !s.clk.refclk then .next s
  else if saving s || restoring s then .next (s.onClk fun c => { c with countRunning := false, returnDue := true })
  else
    .next (s.onClk fun c =>
      { c with
        countRunning := false, refCrystal := false
        refSwitches := if c.refCrystal then satInc 0xFF c.refSwitches else c.refSwitches })

/-- REFCLK_LOSS (R25): the Spring PLL goes to the crystal; logged, and no fault. -/
def execRefclkLoss (s : State) : Host.Outcome State Fault Refusal :=
  if !s.clk.rootsStarted || !s.clk.refclk then .next s
  else
    let s := s.onClk fun c =>
      { c with
        refclk := false, countRunning := false, returnDue := false, refCrystal := true
        refSwitches := if c.refCrystal then c.refSwitches else satInc 0xFF c.refSwitches }
    finish (record 0x0B00 2 0x0040 0 s)

/-! ## Roots (R26) -/

/-- The capture of a lock loss (R26, R256): it persists until the root relocks (R264). -/
def lockFault (cls : FClass) (key : BitVec 8) (s : State) : State :=
  reportFault none
    { unit := 0x0040, cls := cls, key := key, detail := 0, typ := 0xF, master := 0x0040, addr := 0
      persists := true, detector := .other } s

/-- What a lock loss leaves (R26): with no root locked, a chip fatal of kind 4. -/
def lockLost (key : BitVec 8) (s : State) : State :=
  let s := s.onClk fun c => { c with lossCount := satInc 0xFFFF c.lossCount }
  if s.clk.springLock || s.clk.backupLock then lockFault .c key s
  else lockFault .f key (chipFatal 4 0 s)

/-- SPRING_PLL_LOCK_LOSS (R26): the backup root takes over. -/
def execSpringPllLockLoss (s : State) : Host.Outcome State Fault Refusal :=
  if !s.clk.springLock then .next s
  else
    let s := s.onClk fun c => { c with springLock := false }
    let s := if s.clk.backupLock && !s.clk.onBackup then
        record 0x0B01 2 0x0040 0 (s.onClk fun c => { c with onBackup := true })
      else s
    finish (lockLost 1 s)

/-- BACKUP_LOCK_LOSS (R26): on standby redundancy is lost; as the active root, back to a locked Spring PLL. -/
def execBackupLockLoss (s : State) : Host.Outcome State Fault Refusal :=
  if !s.clk.backupLock then .next s
  else
    finish (lockLost 2 (s.onClk fun c =>
      { c with backupLock := false, onBackup := c.onBackup && !c.springLock }))

/-- ROOT_RELOCK (R25, R26, R264): the root is locked; after both were lost it carries the device and the save goes on. A
Spring PLL that relocks on the crystal starts the count of R25 where REFCLK is present and no count runs or is complete (log
56). -/
def execRootRelock (backup : Bool) (s : State) : Host.Outcome State Fault Refusal :=
  if !s.clk.rootsStarted || (if backup then s.clk.backupLock else s.clk.springLock) then .next s
  else
    let dead := !s.clk.springLock && !s.clk.backupLock
    let s := s.onClk fun c =>
      { c with
        springLock := c.springLock || !backup, backupLock := c.backupLock || backup
        onBackup := if dead then backup else c.onBackup
        countRunning := c.countRunning || (!backup && c.refclk && c.refCrystal && !c.returnDue) }
    if s.clk.springLock && s.clk.backupLock then
      finish (setCapture 0x0040 { capture s 0x0040 with present := false } s)
    else finish s

/-- ROOTS_UNLOCKED_TIMEOUT (R26, R150): no save can run; the residue is lost. -/
def execRootsUnlockedTimeout (s : State) : Host.Outcome State Fault Refusal :=
  if !s.clk.rootsStarted || rootsRun s then .next s
  else if (memReady s && !boathouse s) || saving s then finish (lastGasp 5 s)
  else .next s

/-! ## Alignment (R28, R367) -/

/-- One millisecond: the offset up to which the time base slews in either direction. -/
def slewLimit : Int := (nsPerMs : Nat)

/-- A value in a signed 32-bit range, saturating (0xB005). -/
def satI32 (x : Int) : Int := max (-2147483648) (min 2147483647 x)

/-- PTM_RESPONSE (R28): device time behind by more than 1 ms is stepped forward; anything else is slewed. -/
def execPtmResponse (head : Fin 2) (hostTime : Word) (s : State) : Host.Outcome State Fault Refusal :=
  if head ≠ 0 ∨ s.host.head0.link = false ∨ frozen s = true then .next s
  else
    let off : Int := (s.tb.now : Int) - hostTime.toNat
    .next (s.onTb fun t =>
      { t with
        now := if off < -slewLimit then hostTime.toNat else t.now
        slew := if off < -slewLimit then 0 else off
        aligned := true, lastOffset := satI32 off })

end Sys2Proof.Machine
end

