-- ==== Sys2Proof/Machine/Host.lean ====
section
/-! DEFINITION. Commands of the host link: CXL.mem reads and writes (R30, R39, R74, R121 to R124, R168),
the doorbells (R43, R44), viral (R32), the resets of a head (R35), bring-up (R34) and GPF (R52). -/

namespace Sys2Proof.Machine

/-- A CXL.mem request reaches the device on this head: the link is up, the head is ready, the fence has
not fallen, and no freeze withholds the credits (R34, R137, R460). -/
def memRequest (s : State) (h : Fin 2) : Bool :=
  (headOf s h).link && (headOf s h).ready && !fenced s && !frozen s && (decide (h = 0) || twoHeads s)

/-- The C-class fault of a request that is not served (R159, R256). -/
def notServedFault (h : Fin 2) (typ : Fin 16) (hpa : Nat) (s : State) : State :=
  raise (headPort h) .c 1 typ (headPort h) ((lineOfHpa s h hpa).getD 0 * 64) 0 s

/-- A read's line is found: withdrawn page, unrestored page, channel in reset, or served. -/
def readAt (h : Fin 2) (id line : Nat) (res : DramRead) (s : State) : State :=
  let page := pageOf line
  if withdrawn s page then answerPoison h id s
  else if unrestored s page then
    if pageState s page = .lost then answerPoison h id s
    else startFetch page (holdRead h id line .fetch s)
  else if inBlockReset s page && !bufferHit s line then holdRead h id line .reset s
  else serveRead h id line res s

/-- HOST_READ (R74, R50, R168, R194). -/
def execHostRead (head : Fin 2) (hpa id : Nat) (res : DramRead) (s : State) : Host.Outcome State Fault Refusal :=
  if !memRequest s head then .next s
  else if notServed s then finish (answerPoison head id (notServedFault head 0 hpa s))
  else match lineOfHpa s head hpa with
    | none => .next s
    | some line => finish (readAt head id line res s)

/-- A write enters the write buffer as its newest entry; its index is returned. -/
def enterBuffer (e : WEntry) (s : State) : State × Nat :=
  (s.onWb fun w => { w with entries := w.entries ++ [e] }, s.wb.entries.length)

/-- Entries the write buffer holds (R39: 2 MiB of 64-byte entries). -/
def bufferEntries : Nat := 32768

/-- Entry `i` reaches the dirty filter, which gives it its phase (R30, R121, R123, R168): behind a write that waits for its
page's fetch it waits too, so that the page's writes keep their order (OP1). -/
def filterEntry (i : Nat) (e : WEntry) (s : State) : State :=
  let page := pageOf e.line
  let same := s.wb.entries.any fun x =>
    decide (pageOf x.line = page) && decide (x.phase = .heldWeir ∨ x.phase = .behind ∨ x.phase = .mapWait)
  let waits := s.wb.entries.any fun x => decide (pageOf x.line = page) && decide (x.phase = .heldFetch)
  if waits then onEntry i (fun x => { x with phase := .heldFetch }) s
  else if unrestored s page && !decide (pageState s page = .lost) then
    startFetch page (onEntry i (fun x => { x with phase := .heldFetch }) s)
  else
    let s := if unrestored s page then setRestored page s else s
    if same then onEntry i (fun x => { x with phase := .behind }) s
    else testOrWait i e s

/-- A write to a line: withdrawn pages complete and discard it (R198); a full buffer returns no credit
(R39); else it enters the buffer and the dirty filter. -/
def writeAt (h : Fin 2) (id line : Nat) (data : Line) (be : BitVec 64) (poison : Bool) (s : State) : State :=
  if withdrawn s (pageOf line) then say (.complete h id) s
  else if bufferEntries ≤ s.wb.entries.length then s
  else
    let e : WEntry := { id := id, head := h, line := line, data := data, be := be, poison := poison
                        phase := .admitted, arrived := s.tb.now }
    let (s, i) := enterBuffer e s
    filterEntry i e s

/-- HOST_WRITE (R30, R39, R50, R121, R168). -/
def execHostWrite (head : Fin 2) (hpa id : Nat) (data : Line) (be : BitVec 64) (poison : Bool) (s : State) :
    Host.Outcome State Fault Refusal :=
  if !memRequest s head then .next s
  else if notServed s then finish (notServedFault head 1 hpa s)
  else match lineOfHpa s head hpa with
    | none => .next s
    | some line => finish (writeAt head id line data be poison s)

/-- HELD_WRITE_ADMIT (R122, R123, R124): while room lasts, held first-writes are admitted in arrival order. -/
def execHeldWriteAdmit (s : State) : Host.Outcome State Fault Refusal :=
  if frozen s || s.host.fence then .next s else finish (retest s)

/-- HOLD_LIMIT_EXPIRY (R122): the oldest held first-write is at 20 µs: admitted normally if room appears
at that moment (R124), else as an overshoot. A write still waiting for its fetch passes the limit (R122). -/
def execHoldLimitExpiry (s : State) : Host.Outcome State Fault Refusal :=
  if frozen s || s.host.fence then .next s
  else match firstIdx (fun e => decide (e.phase = .heldWeir)) s.wb.entries 0 with
    | some (i, e) => if roomFor s then finish (retest s) else finish (overshootEntry i e s)
    | none =>
      match firstIdx (fun e => decide (e.phase = .heldFetch) && !e.expired) s.wb.entries 0 with
      | some (i, _) => .next (onEntry i (fun e => { e with expired := true }) s)
      | none => .next s

/-! ## Doorbells -/

/-- A Mark is ignored (R43, R49). -/
def rejectMark (s : State) : State := vector 7 (s.onHost fun h => { h with markReject := true })

/-- A Settle is ignored (R44, R49). -/
def rejectSettle (s : State) : State := vector 7 (s.onHost fun h => { h with settleReject := true })

/-- A Mark takes effect: the epoch advances and the newest bucket closes (R43, R69). -/
def acceptMark (v : Nat) (s : State) : State := closeNewest (s.onHost fun h => { h with epoch := v })

/-- HST_MARK (R43, R46, R159). -/
def execHstMark (v : Word) (s : State) : Host.Outcome State Fault Refusal :=
  if fenced s || frozen s then .next s
  else if notServed s || decide (v.toNat ≤ s.host.epoch) then .next (rejectMark s)
  else .next (acceptMark v.toNat s)

/-- A Settle is accepted (R44, R73, R106). -/
def acceptSettle (n : Nat) (s : State) : State :=
  let s := s.onHost fun h => { h with target := max h.target n }
  let s := if n = s.host.epoch then closeForSettle s else s
  sprintCheck (coverSet s)

/-- HST_SETTLE (R44, R46, R159). -/
def execHstSettle (n : Word) (s : State) : Host.Outcome State Fault Refusal :=
  if fenced s || frozen s then .next s
  else if notServed s then .next (rejectSettle s)
  else if n.toNat ≤ s.host.settled then .next (vector 3 s)
  else if s.host.epoch < n.toNat then .next (rejectSettle s)
  else .next (acceptSettle n.toNat s)

/-! ## Viral, resets, bring-up -/

/-- VIRAL (R32): a host request for save. A head that is not present receives nothing (R3). -/
def execViral (head : Fin 2) (s : State) : Host.Outcome State Fault Refusal :=
  if !headPresent s head then .next s
  else finish (trigger .viral (s.onHost fun h => { h with viral := true }))

/-- The sequencer has entered LINK (R34). -/
def linkEntered (s : State) : Bool := decide (5 ≤ s.seq.st.num)

/-- PERST_N_ASSERT (R35): with power present the head is reset; the pin level is kept in any state. -/
def execPerstNAssert (head : Fin 2) (s : State) : Host.Outcome State Fault Refusal :=
  let s := onHead head (fun h => { h with perst := true }) s
  if darkOrAux s || !headPresent s head then .next s else finish (resetHead head true s)

/-- PERST_N_DEASSERT (R34): training starts once LINK has been entered. -/
def execPerstNDeassert (head : Fin 2) (s : State) : Host.Outcome State Fault Refusal :=
  let s := onHead head (fun h => { h with perst := false }) s
  .next (if linkEntered s && headPresent s head then onHead head (fun h => { h with link := true }) s else s)

/-- LINK_RESET (R35): the head is reset and the link retrains. -/
def execLinkReset (head : Fin 2) (s : State) : Host.Outcome State Fault Refusal :=
  if linkEntered s && headPresent s head then finish (resetHead head true s) else .next s

/-- FLR (R35). -/
def execFlr (head : Fin 2) (s : State) : Host.Outcome State Fault Refusal :=
  if linkEntered s && headPresent s head then finish (resetHead head false s) else .next s

/-- CXL_RESET (R35). -/
def execCxlReset (head : Fin 2) (s : State) : Host.Outcome State Fault Refusal :=
  if linkEntered s && headPresent s head then finish (resetHead head false s) else .next s

/-- Lanes of a head at most (R31, R33): 16 with one head of a TK7264, else 8. -/
def headLanes (s : State) : Nat :=
  match s.cfg.variant with
  | .tk7232c => 8
  | _ => if twoHeads s then 8 else 16

/-- HOST_REGION_READY (R34): the link is up at a width and a rate, and configuration requests are answered. A head reset
that was running has long been done (R268), and its bound is kept (R265). -/
def execHostRegionReady (up : LinkUp) (s : State) : Host.Outcome State Fault Refusal :=
  if linkEntered s && !(headOf s up.head).perst && headPresent s up.head then
    finish (shadowDone (headPort up.head) (onHead up.head (fun h =>
      { h with link := true, ready := true, retrainBy := none, width := min up.width (headLanes s), rate := up.rate }) s))
  else .next s

/-! ## GPF (R52) -/

/-- GPF_PHASE1: acknowledged at once; the device holds no CXL.cache state. -/
def execGpfPhase1 (head : Fin 2) (s : State) : Host.Outcome State Fault Refusal :=
  if (headOf s head).link && headPresent s head && !frozen s then .next (say (.gpfAck head 1) s) else .next s

/-- The drain of Phase 2 does not wait for this entry: its channel is in block reset (R52). -/
def gpfExempt (s : State) (e : WEntry) : Bool := inBlockReset s (pageOf e.line)

/-- GPF_PHASE2: at once after the fence and before memory is ready (R52, R175); otherwise every write
received before it is waited for. -/
def execGpfPhase2 (head : Fin 2) (s : State) : Host.Outcome State Fault Refusal :=
  if !(headOf s head).link || !headPresent s head || frozen s then .next s
  else if fenced s || !memReady s then .next (say (.gpfAck head 2) s)
  else
    let ids := (s.wb.entries.filter fun e => !gpfExempt s e).map (·.id)
    .next (s.onHost fun h => { h with gpf := .phase2Draining, gpfWaits := ids, gpfHeads := h.gpfHeads ++ [head] })

/-- GPF_DRAIN_DONE: the writes waited for are applied; GPF_PHASE2 is recorded and Phase 2 acknowledged.
While one of them is still held on Weir pressure the drain is not done. -/
def execGpfDrainDone (s : State) : Host.Outcome State Fault Refusal :=
  if s.host.gpf ≠ .phase2Draining then .next s
  else
    let ids := s.host.gpfWaits
    let s := flush (fun e => ids.contains e.id) s
    if s.wb.entries.any fun e => ids.contains e.id && !gpfExempt s e then finish s
    else
      let heads := s.host.gpfHeads
      let s := s.onHost fun h => { h with gpf := .phase2Done, gpfWaits := [], gpfHeads := [] }
      let s := commit (.other .gpfPhase2) s
      finish (heads.foldl (fun s h => say (.gpfAck h 2) s) s)

end Sys2Proof.Machine
end

