-- ==== Sys2Proof/Machine/Mailbox.lean ====
section
/-! DEFINITION. The standard commands of a head's mailbox (R36, R53 to R59, R215, R420): poison, Scan Media, shutdown
state, health, alerts, capacity, firmware information, Sanitize; and SANITIZED, the commit of a crypto erase. Each is
answered once by its return code and its values; the places of the values in a payload are CXL 3.1's (log 46). -/

namespace Sys2Proof.Machine

/-- A standard command that reaches the mailbox of a head that is up: Busy from the fence on (R137); the ROM of Boathouse
mode serves none (R417). -/
def mailboxCmd (h : Fin 2) (s : State) (act : State → State) : Host.Outcome State Fault Refusal :=
  if !reaches s (.mailbox h) then .next s
  else if s.host.fence then .next (mbox h .busy [] s)
  else if boathouse s then .next (mbox h .refused [] s)
  else finish (act s)

/-! ## Poison (R53, R54) -/

/-- The part of a run of lines that lies in the lines from `lo` to before `hi`: its first line and its lines. -/
def clip (lo hi : Nat) (r : Nat × Nat) : Option (Nat × Nat) :=
  let a := max lo r.1
  let b := min hi (r.1 + r.2)
  if a < b then some (a, b - a) else none

/-- The listed poison in a range of a head's device addresses: first address as the head names it, and 64-byte units. -/
def poisonIn (s : State) (h : Fin 2) (dpa length : Nat) : List (Nat × Nat) :=
  let first := (headSpan s h).1
  let top := min (dpa + length) (headSpan s h).2
  (s.cxl.poisonList.filterMap (clip ((first + dpa) / 64) (ceilDiv (first + top) 64))).map fun r =>
    (r.1 * 64 - first, r.2)

/-- Bytes of Get Poison List: flags with the overflow flag, its time, the count, the records (R54). -/
def poisonBytes (s : State) (h : Fin 2) (dpa length : Nat) : List Byte :=
  let l := poisonIn s h dpa length
  leBytes 1 (2 * b2n s.cxl.poisonOverflow.isSome) ++ leBytes 8 (s.cxl.poisonOverflow.getD 0) ++ leBytes 2 l.length
    ++ (l.map fun r => leBytes 8 r.1 ++ leBytes 4 r.2).flatten

/-- GET_POISON_LIST (R54). -/
def execGetPoisonList (head : Fin 2) (dpa length : Nat) (s : State) : Host.Outcome State Fault Refusal :=
  mailboxCmd head s fun s => mbox head .success (poisonBytes s head dpa length) s

/-- Inject Poison on a line (R53): the writes admitted before it reach DRAM first. -/
def injectOp (h : Fin 2) (line : Nat) (s : State) : State :=
  mbox h .success [] (setPoison line true (flush (fun e => decide (e.line = line)) s))

/-- INJECT_POISON (R53): refused while memory is not served or where the head sees no such line. -/
def execInjectPoison (head : Fin 2) (dpa : Nat) (s : State) : Host.Outcome State Fault Refusal :=
  mailboxCmd head s fun s =>
    match lineOfDpa s head dpa with
    | some line => if notServed s || fenced s then mbox head .refused [] s else injectOp head line s
    | none => mbox head .refused [] s

/-- CLEAR_POISON (R53): a full write of the line, a first-write where the page is CLEAN or LOST; `id` names its
completion. -/
def execClearPoison (head : Fin 2) (dpa id : Nat) (data : Line) (s : State) : Host.Outcome State Fault Refusal :=
  mailboxCmd head s fun s =>
    match lineOfDpa s head dpa with
    | some line =>
      if notServed s || fenced s || decide (bufferEntries ≤ s.wb.entries.length) then mbox head .refused [] s
      else mbox head .success [] (writeAt head id line data (BitVec.allOnes 64) false s)
    | none => mbox head .refused [] s

/-! ## Scan Media (R55) -/

/-- A range the head sees. -/
def inSpan (s : State) (h : Fin 2) (dpa length : Nat) : Bool := decide (dpa + length ≤ (headSpan s h).2)

/-- SCAN_MEDIA (R55): the head's background command; Busy while another runs. -/
def execScanMedia (head : Fin 2) (dpa length : Nat) (s : State) : Host.Outcome State Fault Refusal :=
  mailboxCmd head s fun s =>
    if (headOf s head).bg ≠ .none then mbox head .busy [] s
    else if inSpan s head dpa length = false then mbox head .refused [] s
    else mbox head .started [] (onHead head (fun x => { x with bg := .scan dpa length }) s)

/-- A head's scan runs. -/
def scanning (s : State) (h : Fin 2) : Bool :=
  match (headOf s h).bg with
  | .scan _ _ => true
  | _ => false

/-- The line is in the range that the head's scan reads. -/
def scanned (s : State) (h : Fin 2) (line : Nat) : Bool :=
  match (headOf s h).bg with
  | .scan dpa length =>
    decide ((headSpan s h).1 + dpa ≤ 64 * line ∧ 64 * line < (headSpan s h).1 + dpa + length)
  | _ => false

/-- SCAN_MEDIA_DONE (R49, R55): the range has been read through the patrol-scrub path. Vector 0. -/
def execScanMediaDone (scan : ScanReport) (s : State) : Host.Outcome State Fault Refusal :=
  let h := scan.head
  if scanning s h && !frozen s then
    let s := (scan.found.filter fun x => scanned s h x.1).foldl (fun s x => scrubLine x.1 x.2 s) s
    finish (vectorOn h 0 (onHead h (fun x => { x with bg := .none, bgStatus := 0 }) s))
  else .next s

/-- The estimate of a scan in ms at 4 GB/s for each DRAM channel, 32 GB/s on eight (R2, R55, R191). -/
def scanMs (s : State) (length : Nat) : Nat := ceilDiv length (4000000 * s.cfg.dramChannels)

/-- GET_SCAN_MEDIA_CAPABILITIES (R55). -/
def execGetScanMediaCapabilities (head : Fin 2) (dpa length : Nat) (s : State) : Host.Outcome State Fault Refusal :=
  mailboxCmd head s fun s =>
    if inSpan s head dpa length then mbox head .success (leBytes 4 (scanMs s length)) s else mbox head .refused [] s

/-! ## Shutdown state, health, alerts, capacity, firmware (R36, R56, R57, R420) -/

/-- SET_SHUTDOWN_STATE (R56). -/
def execSetShutdownState (head : Fin 2) (dirty : Bool) (s : State) : Host.Outcome State Fault Refusal :=
  mailboxCmd head s fun s => mbox head .success [] (s.onCxl fun c => { c with shutdownDirty := dirty })

/-- GET_SHUTDOWN_STATE (R56). -/
def execGetShutdownState (head : Fin 2) (s : State) : Host.Outcome State Fault Refusal :=
  mailboxCmd head s fun s => mbox head .success (leBytes 1 (b2n s.cxl.shutdownDirty)) s

/-- Battery fade of the weaker string, in percent of the 30 % fade of the end of life (R57). -/
def batteryLife (s : State) : Nat :=
  match s.bat.desc with
  | none => 0
  | some d => (Rat.floor (max (fadePct d s.bat.a) (fadePct d s.bat.b) / 30 * 100)).toNat

/-- Life Used (R57). -/
def lifeUsed (s : State) : Nat := max (consumed s) (batteryLife s)

/-- Bytes of Get Health Info (R56, R57): Health Status, Media Status, Life Used, Device Temperature, Dirty Shutdown
Count. -/
def healthBytes (s : State) : List Byte :=
  leBytes 1 (healthStatus s) ++ leBytes 1 (healthMedia s) ++ leBytes 1 (sat 0xFF (lifeUsed s))
    ++ leBytes 2 (twos 16 s.cxl.tempC) ++ leBytes 4 s.cxl.dirtyShutdowns

/-- GET_HEALTH_INFO (R57). -/
def execGetHealthInfo (head : Fin 2) (s : State) : Host.Outcome State Fault Refusal :=
  mailboxCmd head s fun s => mbox head .success (healthBytes s) s

/-- SET_ALERT_CONFIGURATION (R57). -/
def execSetAlertConfiguration (head : Fin 2) (cfg : AlertCfg) (s : State) : Host.Outcome State Fault Refusal :=
  mailboxCmd head s fun s => mbox head .success [] (s.onCxl fun c => { c with alerts := cfg })

/-- Bytes of Get Alert Configuration: which thresholds are on, then the three thresholds (R57). -/
def alertBytes (a : AlertCfg) : List Byte :=
  leBytes 1 (b2n a.lifeUsed.isSome + 2 * b2n a.temperature.isSome + 4 * b2n a.corrected.isSome)
    ++ leBytes 1 (a.lifeUsed.getD 0) ++ leBytes 2 (twos 16 (a.temperature.getD 0)) ++ leBytes 2 (a.corrected.getD 0)

/-- GET_ALERT_CONFIGURATION (R57). -/
def execGetAlertConfiguration (head : Fin 2) (s : State) : Host.Outcome State Fault Refusal :=
  mailboxCmd head s fun s => mbox head .success (alertBytes s.cxl.alerts) s

/-- Bytes of Identify Memory Device (R36): Total, Volatile Only and Persistent Only Capacity and Partition Alignment,
in units of 256 MiB. With two heads each reports its own share of the visible capacity, which R36 does not say (DESIGN CHOICE,
log 59). -/
def identifyBytes (s : State) (h : Fin 2) : List Byte :=
  let n := (headSpan s h).2 / (256 * mib)
  leBytes 8 n ++ leBytes 8 0 ++ leBytes 8 n ++ leBytes 8 0

/-- IDENTIFY_MEMORY_DEVICE (R36). -/
def execIdentifyMemoryDevice (head : Fin 2) (s : State) : Host.Outcome State Fault Refusal :=
  mailboxCmd head s fun s => mbox head .success (identifyBytes s head) s

/-- A version string in 16 bytes. -/
def version16 (i : Option ImageInfo) : List Byte :=
  ((versionOf i).take 16 ++ List.replicate 16 0).take 16

/-- Bytes of Get FW Info (R420): two slots, the active slot with no staged slot, the versions of 0x7006. -/
def fwBytes (s : State) : List Byte :=
  leBytes 1 2 ++ leBytes 1 (s.upd.active.val + 1) ++ version16 s.upd.slotA ++ version16 s.upd.slotB

/-- GET_FW_INFO (R420). -/
def execGetFwInfo (head : Fin 2) (s : State) : Host.Outcome State Fault Refusal :=
  mailboxCmd head s fun s => mbox head .success (fwBytes s) s

/-! ## Crypto erase (R59, R215) -/

/-- A save, the restore, Sprint or a Settle runs (R59), or a crypto erase does. The restore runs until its RESTORED
commit or its failure. -/
def eraseBusy (s : State) : Bool :=
  saving s || (!s.rst.committed && !decide (s.rst.phase = .failed)) || s.pm.sprint || settleBusy s ||
    s.rst.sanitizing.isSome

/-- Steps 1 and 2 of a crypto erase (R215): Outflow, garbage collection and folding stop; a new media key is drawn. -/
def startErase (whole : Bool) (h : Fin 2) (s : State) : State :=
  let s := s.onRst fun r => { r with sanitizing := some whole, sanitizeHead := some h }
  let s := s.onLake fun l => { l with gcRun := false }
  sprintCheck ((s.onUpd fun u => { u with drbg := u.drbg + 1 }).onFlash fun f => { f with newKey := some (f.key + 1) })

/-- Sanitize or Secure Erase (R59, R215). -/
def eraseCmd (whole : Bool) (h : Fin 2) (s : State) : Host.Outcome State Fault Refusal :=
  mailboxCmd h s fun s => if eraseBusy s then mbox h .busy [] s else startErase whole h s

/-- SANITIZE (R215). -/
def execSanitize (head : Fin 2) (s : State) : Host.Outcome State Fault Refusal := eraseCmd true head s

/-- SECURE_ERASE (R215). -/
def execSecureErase (head : Fin 2) (s : State) : Host.Outcome State Fault Refusal := eraseCmd false head s

/-- Segments after step 6 (R215): no unit is valid, and each is queued for erase. -/
def emptySegments (l : List (Nat × Segment)) : List (Nat × Segment) :=
  l.map fun x => if x.2.state = .retired then x else (x.1, { x.2 with state := .gcSource, valid := 0 })

/-- Step 6 of a crypto erase in the page map and the Lakebed (R86, R88, R215). -/
def eraseMaps (s : State) : State :=
  let s := s.onPm fun p =>
    { p with pages := [], reasons := [], buckets := [], drains := [], residue := 0, lostTime := s.tb.now, walk := none
             batch := [], recounting := false, marks := [], chosen := [], toRebuild := [], toRedrain := [], lostSince := [], cache := [] }
  let s := (setCoarsened false s).onLedger fun l =>
    { l with buckets := ledgerRetire (fun _ => false) s.log.pos l.buckets }
  let s := s.onLake fun l =>
    { l with mapping := [], checkpoint := none, older := none, chunkWrite := none, changed := [], orphans := [], segments := emptySegments l.segments }
  s.onLog fun l => { l with area := [], units := [], tail := [], spill := [], window := [], compacting := none
                            toErase := (goodDies s).length * logBlocks s.cfg }

/-- The Basin's die-blocks are queued for erase: none counts as erased until its erase completes (R215). -/
def eraseBasin (s : State) : State :=
  s.onBasin fun b =>
    { b with image := none, reErase := true, erasedBy := [], bitmap := [], late := [], lateMap := [], counted := true, usedUnits := 0, allocUsed := 0 }

/-- SANITIZED carries the new wrapped key into both key records of a ledger that works, and then replaces the copy in serial
memory (R214, R215). -/
def storeKey (key : Nat) (s : State) : State :=
  s.onLedger fun l => { l with keyRecords := if l.failed then l.keyRecords else (key, key), keyCopy := key }

/-- Steps 3 to 6 of a crypto erase (R215). -/
def sanitizedOp (key : Nat) (s : State) : State :=
  let h := s.rst.sanitizeHead
  let s := storeKey key (commit .sanitized s)
  let s := s.onFlash fun f => { f with key := key, newKey := none }
  let s := eraseBasin (eraseMaps s)
  let s := s.onRst fun r => { r with sanitizing := none, sanitizeHead := none }
  let s := retest (weirCheck ordinary s)
  match h with
  | some h => mbox h .success [] s
  | none => s

/-- SANITIZED (R215): of a crypto erase that runs, by a crew that is a member, before any fence. -/
def execSanitized (s : State) : Host.Outcome State Fault Refusal :=
  match s.flash.newKey with
  | some key =>
    if s.rst.sanitizing.isSome && anyMember s && !frozen s && !s.host.fence then finish (sanitizedOp key s) else .next s
  | none => .next s

end Sys2Proof.Machine
end

