-- ==== Sys2Proof/Machine/Serial.lean ====
section
/-! DEFINITION. What the serial memory holds of the device's own records (R310, R322, R341, R434 to R440): the bytes of each
layout and where they stand. A byte that a layout leaves out of its fields is 0 there (DESIGN CHOICE, log 90). -/

namespace Sys2Proof.Machine

/-- A list of bytes of length `n`: padded with 0, cut off beyond. -/
def padTo (n : Nat) (l : List Byte) : List Byte := (l ++ List.replicate (n - l.length) 0).take n

/-- Bytes with the CRC-32C over them behind. -/
def withCrc (l : List Byte) : List Byte := l ++ leBytes 4 (crc32c l).toNat

/-! ## Boot config and patch areas (R435, R436) -/

/-- The boot-config copy in force (R435). -/
def bootConfigBytes (s : State) : List Byte :=
  withCrc (leBytes 2 1 ++ leBytes 2 0 ++ leBytes 4 s.upd.bootSeq ++ leBytes 1 s.upd.active.val ++ leBytes 1 s.upd.trial
    ++ leBytes 1 s.upd.repechage.val ++ leBytes 1 s.od.set.ownerLock ++ leBytes 1 s.boot.failedBoots ++ leBytes 3 0
    ++ leBytes 4 s.upd.minSecurity ++ leBytes 4 s.upd.trialS ++ leBytes 2 s.upd.owner.length ++ leBytes 38 0
    ++ padTo 4028 s.upd.owner)

/-- The header of a patch area (R436): length and SHA-384 of the patch. -/
def patchHeader (p : Patch) : List Byte :=
  leBytes 4 p.len ++ leBytes 12 0 ++ leBytes 48 (Config.patchHash p.version p.len).toNat

/-! ## Settings copies (R437) -/

/-- The header of a copy (R437). -/
def copyHeader (st seq schema : Nat) : List Byte :=
  withCrc (leBytes 2 1 ++ leBytes 1 st ++ leBytes 1 0 ++ leBytes 4 seq ++ leBytes 2 schema ++ leBytes 18 0)

/-- A record of a copy (R437). -/
def settingBytes (r : SettingRec) : List Byte :=
  withCrc (leBytes 2 r.index ++ leBytes 1 r.sub ++ leBytes 1 r.typ ++ leBytes 2 r.value.length ++ leBytes 2 0
    ++ padTo (ceilDiv r.value.length 4 * 4) r.value)

/-- A copy up to its last record (R437). -/
def copyBytes (st seq schema : Nat) (l : List SettingRec) : List Byte :=
  copyHeader st seq schema ++ (l.map settingBytes).flatten

/-- Settings schema of the image that runs. -/
def schemaNow (s : State) : Nat := ((runningImage s).map fun i => i.schema.toNat).getD 0

/-- Settings copy `n` (R413, R437): the one in force, of a trial the frozen one beside it, else erased. -/
def settingsCopyBytes (s : State) (n : Nat) : List Byte :=
  if n = s.od.copySeq % 2 then copyBytes (if s.upd.trial = 1 then 3 else 1) s.od.copySeq (schemaNow s) s.od.records
  else if s.od.frozen.isSome then copyBytes 2 (s.od.copySeq - 1) (schemaNow s) s.od.frozenRecords
  else []

/-! ## Gauge record (R322) -/

/-- One string's block (R322). -/
def gaugeBlockBytes (b : GaugeBlock) : List Byte :=
  leBytes 1 (strStateCode b.st) ++ leBytes 1 (b2n b.learned) ++ leBytes 2 b.s ++ leBytes 2 b.u ++ leBytes 2 0
    ++ leBytes 4 b.learnedMah ++ leBytes 4 b.rhoQ16 ++ leBytes 8 (twos 64 b.charge) ++ leBytes 8 (twos 64 b.anchor)
    ++ leBytes 8 (twos 64 b.learn) ++ leBytes 8 (twos 64 b.fitted) ++ leBytes 16 0

/-- A gauge record (R322). -/
def gaugeBytes (g : GaugeRec) : List Byte :=
  withCrc (leBytes 2 1 ++ leBytes 1 g.packid ++ leBytes 1 0 ++ leBytes 4 g.seq ++ leBytes 8 g.time ++ gaugeBlockBytes g.a
    ++ gaugeBlockBytes g.b ++ leBytes 108 0)

/-! ## Latch sectors (R439) -/

/-- A page of the latch sectors (R439). -/
def latchPageBytes (kind cause rail time seq last : Nat) : List Byte :=
  withCrc (leBytes 2 1 ++ leBytes 1 kind ++ leBytes 1 cause ++ leBytes 1 rail ++ leBytes 3 0 ++ leBytes 8 time ++ leBytes 4 seq
    ++ leBytes 4 0 ++ leBytes 8 last ++ leBytes 220 0)

/-- The newest latch record: set, or cleared (R439). -/
def latchBytes (s : State) (time seq : Nat) : List Byte :=
  latchPageBytes (if s.boot.latchSaved then 1 else 2) s.boot.latchSavedCause s.boot.latchSavedRail time seq 0

/-- The newest sequence reservation (R333, R439). -/
def reserveBytes (s : State) (time seq : Nat) : List Byte := latchPageBytes 3 0 0 time seq (s.wl.reserved - 1)

/-- Place of a page in the two sectors of 16 pages, written in turn (R439). -/
def latchPlace (seq : Nat) : Nat := (seq - 1) % 32

/-- Page `n` of the two sectors, as far as the device's state tells it. -/
def latchSector (s : State) (n : Nat) : Option (List Byte) :=
  match s.boot.latchPage, s.wl.reservePage with
  | some (t, k), r =>
    if latchPlace k = n then some (latchBytes s t k)
    else (match r with
      | some (u, j) => if latchPlace j = n then some (reserveBytes s u j) else none
      | none => none)
  | none, some (u, j) => if latchPlace j = n then some (reserveBytes s u j) else none
  | none, none => none

/-! ## The commit ring (R440) -/

/-- What a record of the ring holds in bytes 24 to 251 (R440): a tail its entries; of the others the spec gives no layout, and
the bytes are free values (log 89). -/
def rootContents (r : RootRec) : List Byte :=
  padTo 228 (((if r.typ = 4 then r.words else Config.commitWords r.seq).map fun w => leBytes 8 w.toNat).flatten)

/-- A record of the ring (R440). -/
def rootBytes (r : RootRec) : List Byte :=
  withCrc (leBytes 2 r.typ ++ leBytes 2 1 ++ leBytes 4 r.seq ++ leBytes 8 r.time ++ leBytes 8 r.gen ++ rootContents r)

/-- The record in place `n` of the ring's 2,016 (R440). -/
def rootAt (s : State) (n : Nat) : Option RootRec := s.ledger.ring.find? fun r => decide ((r.seq - 1) % 2016 = n)

/-! ## Waterline export (R341) -/

/-- A slot image: a native record in 160 bytes (R339). -/
def slotImage (r : WlRec) : List Byte := padTo 160 (wlNative r)

/-- An export: its chunk header and the slot images (R341); the CRC goes over the chunk without its own field (log 90). -/
def chunkBytes (s : State) (first count : Nat) : List Byte :=
  let slots := (((s.wl.exported.filter fun r => decide (first ≤ r.seq)).take count).map slotImage).flatten
  let head := leBytes 2 1 ++ leBytes 2 0 ++ leBytes 4 count ++ leBytes 8 first ++ leBytes 12 0
  head ++ leBytes 4 (crc32c (head ++ slots)).toNat ++ slots

/-- A byte of the export area. -/
def exportByte (s : State) (off : Nat) : Option Byte :=
  let area := 8 * mib
  (s.wl.chunks.find? fun c => decide ((off + area - c.1) % area < 32 + 160 * c.2.2)).map fun c =>
    (chunkBytes s c.2.1 c.2.2).getD ((off + area - c.1) % area) 0

/-! ## The layout (R434) -/

/-- A byte that nothing has programmed. -/
def erasedByte : Byte := 0xFF

/-- A byte below the settings copies (R434 to R436). -/
def bootByte (s : State) (off : Nat) : Option Byte :=
  if off < 0x2000 then (if off / 0x1000 = s.upd.bootSeq % 2 then (bootConfigBytes s)[off % 0x1000]? else none)
  else if off < 0x42000 then
    let n := off - 0x2000
    match (if n / 0x20000 = 0 then s.upd.patchA else s.upd.patchB) with
    | some p => (patchHeader p)[n % 0x20000]?
    | none => some erasedByte
  else if off < 0x100000 then some erasedByte
  else none

/-- A byte of the settings copies, descriptors, gauge records, latch sectors and the commit ring (R434). -/
def recordByte (s : State) (off : Nat) : Option Byte :=
  if off < 0x4180000 then
    some ((settingsCopyBytes s ((off - 0x4100000) / 0x40000)).getD ((off - 0x4100000) % 0x40000) erasedByte)
  else if off < 0x41C0000 then none
  else if off < 0x4200000 then
    (tabFind ((off - 0x41C0000) / 0x4000) s.cfg.packs).bind fun d => (withCrc (descBody d))[(off - 0x41C0000) % 0x4000]?
  else if off < 0x4202000 then
    match (if off < 0x4201000 then s.bat.slot0 else s.bat.slot1) with
    | some g => some ((gaugeBytes g).getD (off % 0x1000) erasedByte)
    | none => some erasedByte
  else if off < 0x4204000 then (latchSector s ((off - 0x4202000) / 256)).bind fun l => l[off % 256]?
  else if off < 0x4280000 then some erasedByte
  else if off < 0x4282000 then none
  else if off < 0x4300000 then (rootAt s ((off - 0x4282000) / 256)).bind fun r => (rootBytes r)[off % 256]?
  else none

/-- A byte of the serial memory as far as the device's state tells it (R434). -/
def serialByte (s : State) (off : Nat) : Option Byte :=
  if off < 0x4100000 then bootByte s off
  else if off < 0x4300000 then recordByte s off
  else if 0x4400000 ≤ off ∧ off < 0x4C00000 then exportByte s (off - 0x4400000)
  else none

end Sys2Proof.Machine
end

