-- ==== Sys2Proof/Machine/RegCommands.lean ====
section
/-! DEFINITION. Reads and writes of registers (R6, R7, R37, R41, R42, R49, R498): the crossbar addresses, BAR0 of a
head, its HDM decoders and its MSI-X masks. A read of a field with an action performs it; a write acts by the access
types of the fields it covers. -/

namespace Sys2Proof.Machine

/-! ## Crossbar reads -/

/-- A register's region answers (R285, R461): the Power region with VDD_AON, the others while they have power and are
not frozen. -/
def regionUp (s : State) (a : Nat) : Bool :=
  if inPowerRegion a then s.seq.vddAon else !darkOrAux s && !frozen s

/-- The part of a 64-bit value an access of `size` bytes at byte `off` takes. -/
def lanes (off size : Nat) (v : Word) : Word := (v >>> (8 * off)) &&& BitVec.ofNat 64 (2 ^ (8 * size) - 1)

/-- The bits a write of `size` bytes at byte `off` covers. -/
def written (off size : Nat) : Word := BitVec.ofNat 64 (2 ^ (8 * size) - 1) <<< (8 * off)

/-- The value a write of `size` bytes at byte `off` lays over a register, zero elsewhere. -/
def spread (off size : Nat) (v : Word) : Word := (v <<< (8 * off)) &&& written off size

/-- An access of `size` bytes at byte `off` covers part of bits [hi:lo]. -/
def covers (hi lo off size : Nat) : Bool := decide (8 * off ≤ hi ∧ lo < 8 * (off + size))

/-- Register address of MEM_WEIR_STATS (R130, R498). -/
def statsAddr : Nat := 0xF0200020

/-- Register address of PWR_TIME (R28, R498). -/
def timeAddr : Nat := 0xF0600000

/-- The rail of a PWR_VMON register (R302, R498). -/
def vmonOf (a : Nat) : Option Nat := if 0xF0600100 ≤ a ∧ a < 0xF0600180 then some ((a - 0xF0600100) / 8) else none

/-- The action of a read (R6, R28, R130, R302): an RC field the access covers any part of is cleared, which is to its
reset value (DESIGN CHOICE, log 57: R6 does not say to what, and MIN_MV resets to 0xFFFF); the low word of PWR_TIME
latches the high word. -/
def readAction (a off size : Nat) (s : State) : State :=
  if a = timeAddr ∧ off = 0 ∧ 0 < size then
    s.onTb fun t => { t with highLatch := BitVec.ofNat 32 (t.now / 2 ^ 32) }
  else if a = statsAddr then
    s.onWeir fun w => { w with excessMax := if covers 63 32 off size then 0 else w.excessMax }
  else match vmonOf a with
    | some n =>
      onRail n (fun r =>
        { r with maxMv := if covers 63 48 off size then 0 else r.maxMv
                 minMv := if covers 47 32 off size then 0xFFFF else r.minMv }) s
    | none => s

/-- Value of a read (R6, R28): the high word of PWR_TIME, read by itself, is the latched one. -/
def readValue (s : State) (a off size : Nat) : Word :=
  if a = timeAddr ∧ off = 4 then lanes 0 size (BitVec.ofNat 64 s.tb.highLatch.toNat) else lanes off size (readReg s a)

/-- A core of a crew (R13). -/
def isCore (m : MasterId) : Bool := (crewOfUnit m).isSome && decide (m.toNat / 64 % 64 ≤ 1)

/-- A crew core (R13): it processes inputs one by one and has no other source of time (R229). -/
def isCrewCore (m : MasterId) : Bool := (crewOfUnit m).isSome && decide (m.toNat / 64 % 64 = 0)

/-- A DRAM or flash oar (R13). -/
def isOar (m : MasterId) : Bool :=
  let block := m.toNat / 64 % 64
  decide ((m.toNat / 4096 = 2 ∧ block < 8 ∧ m.toNat % 64 = 2) ∨ (m.toNat / 4096 = 3 ∧ block < 32 ∧ m.toNat % 64 = 1))

/-- The windows the coxswain has granted an oar (R21). -/
def windowsOf (s : State) (m : MasterId) : List (Nat × Nat) :=
  let n := m.toNat / 64 % 64
  if m.toNat / 4096 = 2 then (s.dram.channels.getD n {}).windows else (s.flash.channels.getD n {}).windows

/-- An oar's access lies outside every window it is granted (R21). -/
def outOfWindow (s : State) (m : MasterId) (addr size : Nat) : Bool :=
  isOar m && !(windowsOf s m).any fun w => decide (w.1 ≤ addr ∧ addr + size ≤ w.1 + w.2)

/-- A window violation (R21, R259): the access does nothing, and is a C fault charged to the oar; its program counter is a
free value (log 1). -/
def windowFault (m : MasterId) (typ : Fin 16) (addr : Nat) (s : State) : State :=
  raise m .c 2 typ m addr (Config.freeNat s.free % 65536) { s with free := s.free + 1 }

/-- A read of the crossbar address `addr` by a master (R498): a crew core that reads PWR_TIME receives the stamp of the
input it processes, and leaves the running count and its latch alone (R229). -/
def xbarRead (addr size : Nat) (m : MasterId) (s : State) : State :=
  let off := addr % 8
  let a := addr - off
  if !regionUp s a || !decide (off + size ≤ 8) then s
  else if outOfWindow s m addr size then windowFault m 0 addr (say (.reg 0) s)
  else
    match crewOfUnit m with
    | some c =>
      if isCrewCore m && decide (a = timeAddr) then say (.reg (lanes off size (word (crewOf s c).stamp))) s
      else readAction a off size (say (.reg (readValue s a off size)) s)
    | none => readAction a off size (say (.reg (readValue s a off size)) s)

/-! ## BAR0 reads (R41, R42) -/

/-- A bad access to the persistence page is captured (R42, R256). -/
def pageFault (h : Fin 2) (typ : Fin 16) (off : Nat) (s : State) : State :=
  raise (headPort h) .c 2 typ (headPort h) (0xF0100000 + (off - 0x18000)) 0 s

/-- An aligned access of 8 bytes (R42). -/
def wholeAccess (off size : Nat) : Bool := decide (off % 8 = 0 ∧ size = 8)

/-- CXL's code of interleave ways: 1, 2, 4, 8, 16 are 0 to 4; 3, 6, 12 are 8 to 10 (log 46). -/
def waysCode (n : Nat) : Nat := if n % 3 = 0 then 8 + Nat.log2 (n / 3) else Nat.log2 n

/-- Control and status of an HDM decoder (R37, log 46): granularity, ways, lock, committed, Error Not Committed. -/
def hdmStatus (d : Hdm) : Word :=
  word (fld 0 4 (Nat.log2 d.gran - 8) + fld 4 4 (waysCode d.ways) + fld 8 1 (b2n d.locked) + fld 10 1 (b2n d.committed)
    + fld 11 1 (b2n d.notCommitted))

/-! ## Configuration space and the registers of BAR0 by name (R31, R34, R38, R41, R50, R52, R60, R66, R272) -/

/-- The support bits of a head, one for each row of R31's table from the top: a feature not supported reads absent. PTM is
head 0's (R60); two heads need a TK7264 with HEADMODE 1 (R33). The order of the bits is the model's (log 46). -/
def featureBits (s : State) (h : Fin 2) : Nat :=
  let rows : List Bool :=
    [true, true, false, false, true, true, true, true, true, twoHeads s, false, false, true, true, true, true,
     true, true, true, false, true, false, false, true, true, true, true, false, true, true, decide (h = 0)]
  ((List.range rows.length).zip rows).foldl (fun n x => if x.2 then n + bit x.1 else n) 0

/-- A configuration register (R31, R41, R50, R52, R60): BAR0's low bits say a 64-bit, non-prefetchable memory BAR; the
Register Locator gives the component and the device registers' offsets in BAR0; Memory_Active stands in bit 0 of the CXL DVSEC
above its timeout in s; the GPF DVSEC gives Phase 2's 20 µs and 55,000 mW. Where CXL 3.1 puts each value is not the spec's
(log 46). -/
def cfgValue (s : State) (h : Fin 2) : CfgReg → Word
  | .features => word (featureBits s h)
  | .bar0 => word (((headOf s h).bar0 / 0x20000) * 0x20000 + 4)
  | .registerLocator => word (fld 0 32 0x00000 + fld 32 32 0x10000)
  | .cxlDvsec => word (fld 0 1 (b2n (decide (mediaStatus s = 1))) + fld 8 8 64)
  | .gpfDvsec => word (fld 0 16 20 + fld 16 32 55000)
  | .ptm => word (b2n (decide (h = 0)))
  | .revision => 0xB0

/-- Media Status as the memory device status register codes it (R50, log 46): 0 Not Ready, 1 Ready, 3 Disabled. -/
def mediaCode (s : State) : Nat := if mediaStatus s = 2 then 3 else mediaStatus s

/-- A register of BAR0 by name (R41, R50, R66, R272). The background command status register holds the object-dictionary
status in its vendor-specific extended status field. -/
def devValue (s : State) (h : Fin 2) : DevReg → Word
  | .mailboxCapabilities => word 13
  | .memoryStatus => word (fld 2 2 (mediaCode s) + fld 4 1 1)
  | .backgroundStatus => word (fld 48 16 (headOf s h).bgStatus + fld 16 7 (if (headOf s h).bg = .none then 100 else 0))
  | .rasUncorrectable => word (fld 0 1 (b2n s.host.rasMemory) + fld 1 1 (b2n s.host.rasInternal))
  | .rasCorrectable => word (fld 0 1 (b2n s.host.rasCorrectable))
  | .rasHeader => s.host.rasHeader

/-- A word of BAR0 that the spec does not value: what was last written to it, else its free initial value (R41, log 46). -/
def barHeld (s : State) (h : Fin 2) (a : Nat) : Word := (tabFind a (headOf s h).barMem).getD (Config.barInit a)

/-- `v` in the low half of a word whose high half is held, and the other way round. -/
def lowOf (v held : Word) : Word := (v &&& 0xFFFFFFFF) ||| (held &&& 0xFFFFFFFF00000000)
def highOf (v held : Word) : Word := (v <<< 32) ||| (held &&& 0xFFFFFFFF)

/-- The HDM decoder of a word of BAR0 and which of its words it is: base, size, control (log 46). -/
def barHdm (a : Nat) : Option (Fin 4 × Nat) :=
  let n := (a - 0x1310) / 32
  if h : 0x1310 ≤ a ∧ n < 4 then some (⟨n, h.2⟩, (a - 0x1310) % 32 / 8) else none

/-- The word at `a`, a multiple of 8, of a head's component and device registers (R41). R41 gives the areas and what each
holds; that the structures stand in them as CXL 3.1 lays them out, each at the offset its capability header names here, is
PRESUMED (log 46). -/
def barWord (s : State) (h : Fin 2) (a : Nat) : Word :=
  let held := barHeld s h a
  match barHdm a with
  | some (n, k) =>
    let d := (headOf s h).hdm.getD n.val {}
    if k = 0 then word d.base else if k = 1 then word d.size else if k = 2 then lowOf (hdmStatus d) held else held
  | none =>
    if a = 0x1000 then word (fld 0 16 1 + fld 16 4 1 + fld 20 4 1 + fld 24 8 4 + fld 32 16 2 + fld 48 4 2 + fld 52 12 0x100)
    else if a = 0x1008 then word (fld 0 16 4 + fld 16 4 2 + fld 20 12 0x200 + fld 32 16 5 + fld 48 4 1 + fld 52 12 0x300)
    else if a = 0x1010 then word (fld 0 16 7 + fld 16 4 1 + fld 20 12 0x400)
    else if a = 0x1100 then lowOf (devValue s h .rasUncorrectable) held
    else if a = 0x1108 then highOf (devValue s h .rasCorrectable) held
    else if a = 0x1118 then devValue s h .rasHeader
    else if a = 0x1300 then lowOf 2 held
    else if a = 0x10000 then word (fld 16 8 1 + fld 24 4 1 + fld 32 16 3)
    else if a = 0x10010 then word (fld 0 16 1 + fld 16 8 1 + fld 32 32 0x80)
    else if a = 0x10018 then 8
    else if a = 0x10020 then word (fld 0 16 2 + fld 16 8 1 + fld 32 32 0x100)
    else if a = 0x10028 then 0x2020
    else if a = 0x10030 then word (fld 0 16 0x4000 + fld 16 8 1 + fld 32 32 0x2200)
    else if a = 0x10038 then 8
    else if a = 0x10080 then
      word ((List.range 4).foldl (fun n k => if (eventLog s.cxl k).recs.isEmpty then n else n + bit k) 0)
    else if a = 0x10100 then lowOf (devValue s h .mailboxCapabilities) held
    else if a = 0x10110 then word (b2n (decide ((headOf s h).bg ≠ .none)))
    else if a = 0x10118 then devValue s h .backgroundStatus
    else if a = 0x12200 then devValue s h .memoryStatus
    else held

/-- The word at `a` of the MSI-X table (R41, R49): an entry is message address, then message data with the vector's mask in
bit 32. -/
def msixWord (s : State) (h : Fin 2) (a : Nat) : Word :=
  if a % 16 = 8 ∧ a < 0x1C080 then highOf (word (b2n ((headOf s h).msixMask.getLsbD ((a - 0x1C000) / 16)))) (barHeld s h a)
  else if a < 0x1C080 then barHeld s h a
  else 0

/-- A read of BAR0 (R41). Outside the persistence page an access that crosses a word of 8 bytes reads its part in the first. -/
def barRead (h : Fin 2) (off size : Nat) (s : State) : State :=
  let a := off - off % 8
  let part := fun v : Word => say (.reg (lanes (off % 8) size v)) s
  if off < 0x14000 then part (barWord s h a)
  else if off < 0x18000 then say (.reg 0) s
  else if off < 0x19000 then
    if wholeAccess off size then say (.reg (regPage s (off - 0x18000))) s
    else pageFault h 0 off (say (.reg 0) s)
  else if off < 0x1C000 then say (.reg 0) s
  else if off < 0x1D000 then part (msixWord s h a)
  else if off < 0x1E000 then part (if a = 0x1D000 then BitVec.ofNat 64 (headOf s h).msixPending.toNat else 0)
  else say (.reg 0) s

/-- Gigatransfers per second of a rate, in tenths (R31). -/
def rateTenths : LinkRate → Nat
  | .g2_5 => 25
  | .g5 => 50
  | .g8 => 80
  | .g16 => 160
  | .g32 => 320
  | .g64 => 640

/-- A sustained figure given for ×16 at 64 GT/s, in MB/s, at the trained width and rate (R38): it halves at 32 GT/s and
scales with the lanes; below 32 GT/s it goes on with the rate (DEDUCED, log 61). -/
def sustained (s : State) (h : Fin 2) (full : Nat) : Nat :=
  full * (headOf s h).width * rateTenths (headOf s h).rate / (16 * 640)

/-- The CDAT of a head for its memory range (R38): read and write latency in ns, read and write bandwidth in MB/s, 4 bytes
each (log 46). -/
def cdatBytes (s : State) (h : Fin 2) : List Byte :=
  leBytes 4 120 ++ leBytes 4 100 ++ leBytes 4 (sustained s h 96000) ++ leBytes 4 (sustained s h 90000)

/-- Base and size of an HDM decoder (R37). -/
def hdmHalf (d : Hdm) (sizeHalf : Bool) : Word := word (if sizeHalf then d.size else d.base)

/-- A read of a head's registers. -/
def headRead (s : State) : RegTarget → State
  | .bar h off size => barRead h off size s
  | .hdmRange h idx half => say (.reg (hdmHalf ((headOf s h).hdm.getD idx.val {}) half)) s
  | .config h reg => say (.reg (cfgValue s h reg)) s
  | .dev h reg => say (.reg (devValue s h reg)) s
  | .mailbox _ _ => say (.reg 0) s
  | .doe h => say (.doe h (cdatBytes s h)) s
  | .hdm h idx _ _ _ _ _ _ => say (.reg (hdmStatus ((headOf s h).hdm.getD idx.val {}))) s
  | .msix h v _ => say (.reg (BitVec.ofNat 64 (b2n ((headOf s h).msixMask.getLsbD v.val)))) s
  | .xbar _ _ => s
  | .serial _ _ => s

/-- A head's registers answer (R34, R461). -/
def headRegs (s : State) (h : Fin 2) : Bool := headUp s h && !frozen s

/-- A byte of the serial memory (R434): one written over the crossbar, else the device's own record of it, else a free value
(log 78). -/
def serialAt (s : State) (off : Nat) : Byte :=
  match tabFind off s.boot.serial with
  | some b => b
  | none => (serialByte s off).getD (Config.freeBits 8 (s.free + off))

/-- A read of the serial memory (R434) by a master. An oar's windows are crossbar addresses and R498 gives the serial memory
none, so no oar reaches it: its read is a window violation (R21; DEDUCED, log 78). -/
def serialRead (off size : Nat) (m : MasterId) (s : State) : State :=
  if isOar m then windowFault m 0 off (say (.reg 0) s)
  else
    say (.reg (word (leNat ((List.range size).map fun k => serialAt s (off + k))))) { s with free := s.free + off + size }

/-- The head of a target, if it is a head's. -/
def targetHead : RegTarget → Option (Fin 2)
  | .bar h _ _ => some h
  | .hdm h _ _ _ _ _ _ _ => some h
  | .msix h _ _ => some h
  | .hdmRange h _ _ => some h
  | .config h _ => some h
  | .dev h _ => some h
  | .mailbox h _ => some h
  | .doe h => some h
  | .xbar _ _ => none
  | .serial _ _ => none

/-- A configuration request that arrives before the Host region is ready (R34). -/
def configRetry (t : RegTarget) (h : Fin 2) (s : State) : State :=
  match t with
  | .config _ _ =>
    if (headOf s h).link && headPresent s h && !frozen s && !(headOf s h).ready then say (.configRetry h) s else s
  | _ => s

/-- REGISTER_READ (R6). -/
def execRegisterRead (r : RegRead) (s : State) : Host.Outcome State Fault Refusal :=
  match r.target with
  | .xbar addr size => finish (xbarRead addr size r.master s)
  | .serial off size => if s.seq.vddAon then finish (serialRead off size r.master s) else .next s
  | t =>
    match targetHead t with
    | some h => if headRegs s h then finish (headRead s t) else .next (configRetry t h s)
    | none => .next s

/-! ## Crossbar writes -/

/-- The unit that drops a write of a master that may not write its register (R127, R329): the landing through which alone the
write is accepted (DEDUCED, log 109); of the serial memory its controller. -/
def dropUnit (addr : Nat) : Nat :=
  if addr = 0xF0200008 then 0x2280 else if addr = 0xF0600050 then 0x6100 else 0x60C0

/-- A write from a master that may not write the register (R127, R256, R259, R329): dropped, and captured as a C fault charged
to the master. DETAIL is the detecting unit of a core, and of an oar its program counter, a free value (log 1). -/
def badWriter (m : MasterId) (addr : Nat) (s : State) : State :=
  let key : BitVec 8 := if isCore m then 5 else if isOar m then 2 else 0
  let detail := if isCore m then dropUnit addr else if isOar m then Config.freeNat s.free % 65536 else 0
  raise m .c key 1 m addr detail { s with free := s.free + 1 }

/-- Who may write a byte of the serial memory (R393): coxswain cores the boot region and the slots, crew and coxswain cores
the settings, profiles, records and exports; nobody the factory calibration, nor the space that R393 does not list. -/
def serialWriter (m : MasterId) (off : Nat) : Bool :=
  if off < 0x4100000 then isCore m && !isCrewCore m
  else if off < 0x4300000 then isCore m
  else decide (0x4400000 ≤ off ∧ off < 0x4C00000) && isCore m

/-- A write to the serial memory (R393): one that its region does not accept from the master is dropped and captured. -/
def serialWrite (off size : Nat) (m : MasterId) (v : Word) (s : State) : State :=
  if (List.range size).all fun k => serialWriter m (off + k) then
    s.onBoot fun b =>
      { b with serial := (List.range size).foldl (fun t k => tabIns (off + k) ((lanes k 1 v).setWidth 8) t) b.serial }
  else badWriter m off s

/-- W1C bits of HST_PERSIST_STATUS (R47). -/
def clearPersist (v : Word) (s : State) : State :=
  s.onHost fun h =>
    { h with
      overshoot := h.overshoot && !v.getLsbD 2, settleReject := h.settleReject && !v.getLsbD 1
      markReject := h.markReject && !v.getLsbD 0 }

/-- The W1C and RW fields of a register as a write of `v` over bytes `off` to `off + size − 1` leaves them (R6); a register
with neither is unchanged. -/
def writeFields (a off size : Nat) (v : Word) (s : State) : State :=
  if a = 0xF0100030 then clearPersist v s
  else if a = 0xF0200000 then s.onPm fun p => { p with filterRecovered := p.filterRecovered && !v.getLsbD 0 }
  else if a = 0xF0200028 then s.onRst fun r => { r with mediaLoss := r.mediaLoss && !v.getLsbD 57 }
  else if a = 0xF0600030 then onStr .a (fun b => { b with changed := b.changed && !v.getLsbD 57 }) s
  else if a = 0xF0600038 then onStr .b (fun b => { b with changed := b.changed && !v.getLsbD 57 }) s
  else if a = 0xF0600080 then s.onFrz fun f => { f with lossHeld := f.lossHeld && !v.getLsbD 5 }
  else if a = 0xF0000018 then
    s.onFault fun f => { f with sel := (f.sel &&& ~~~(written off size).setWidth 16) ||| v.setWidth 16 }
  else s

/-- A write to the crossbar address `addr` (R42, R498): a doorbell, an acknowledgement, a register only a landing may
write, or fields by their access types. A write that covers a part of the WO field FAULT_ID alone does nothing (DESIGN CHOICE,
log 57: R6 does not say what a partial access to a WO field performs). -/
def xbarWrite (addr size : Nat) (m : MasterId) (v : Word) (s : State) : Host.Outcome State Fault Refusal :=
  let off := addr % 8
  let a := addr - off
  if !regionUp s a || !decide (off + size ≤ 8) then .next s
  else if outOfWindow s m addr size then finish (windowFault m 1 addr s)
  else if a = 0xF0100000 ∧ size = 8 then execHstMark v s
  else if a = 0xF0100008 ∧ size = 8 then execHstSettle v s
  else if a = 0xF0000040 then (if off = 0 ∧ 4 ≤ size then execChpFaultAck (v.setWidth 32) m s else .next s)
  else if a = 0xF0200008 ∨ a = 0xF0600050 then finish (badWriter m a s)
  else finish (writeFields a off size (spread off size v) s)

/-! ## BAR0 writes (R41, R42, R49) -/

/-- A vector is masked or unmasked; one unmasked while pending is sent (R49). -/
def maskVector (h : Fin 2) (v : Fin 8) (masked : Bool) (s : State) : State :=
  let one : BitVec 8 := BitVec.ofNat 8 (2 ^ v.val)
  if masked then onHead h (fun x => { x with msixMask := x.msixMask ||| one }) s
  else
    let was := (headOf s h).msixPending.getLsbD v.val
    let s := onHead h (fun x => { x with msixMask := x.msixMask &&& ~~~one, msixPending := x.msixPending &&& ~~~one }) s
    if was then vectorOn h v s else s

/-- A write to the persistence page (R42). -/
def pageWriteReg (h : Fin 2) (off size : Nat) (v : Word) (s : State) : Host.Outcome State Fault Refusal :=
  if !wholeAccess off size then finish (pageFault h 1 off s)
  else if off = 0x18000 then execHstMark v s
  else if off = 0x18008 then execHstSettle v s
  else if off = 0x18030 then finish (clearPersist v s)
  else .next s

/-! ## HDM decoders (R37) -/

/-- Bases and sizes are multiples of 256 MiB (R37). -/
def hdmUnit : Nat := 256 * mib

/-- The decoder's fields are among those it accepts (R37). -/
def hdmAccepts (base size ways gran : Nat) : Bool :=
  decide (base % hdmUnit = 0 ∧ size % hdmUnit = 0 ∧ 0 < size) && [1, 2, 3, 4, 6, 8, 12, 16].contains ways &&
    [256, 512, 1024, 2048, 4096, 8192, 16384].contains gran

/-- Device bytes the head's other committed decoders take. -/
def hdmOthers (s : State) (h : Fin 2) (idx : Fin 4) : Nat :=
  ((List.range 4).zip (headOf s h).hdm).foldl (fun n x =>
    if x.2.committed && decide (x.1 ≠ idx.val) then n + x.2.size / x.2.ways else n) 0

/-- Decoder `idx` may commit over [base, base + size) among the head's decoders (R37, as CXL 3.1 defines; PRESUMED, log 62):
every lower one is committed and ends at or below the base, and no higher one is committed. -/
def hdmOrder (s : State) (h : Fin 2) (idx : Fin 4) (base : Nat) : Bool :=
  ((List.range 4).zip (headOf s h).hdm).all fun x =>
    if x.1 < idx.val then x.2.committed && decide (x.2.base + x.2.size ≤ base)
    else decide (x.1 = idx.val) || !x.2.committed

/-- The decoder as programmed: it commits unless its fields are not accepted, its range exceeds the head's visible
capacity, or CXL 3.1's order of the decoders forbids it (R37). -/
def hdmNew (s : State) (h : Fin 2) (idx : Fin 4) (base size ways gran : Nat) (commit lock : Bool) : Hdm :=
  let fits := hdmAccepts base size ways gran && hdmOrder s h idx base &&
    decide (hdmOthers s h idx + size / ways ≤ (headSpan s h).2)
  { base := base, size := size, ways := ways, gran := gran, committed := commit && fits
    locked := commit && fits && lock, notCommitted := commit && !fits }

/-- Program a decoder (R37): a locked one keeps everything, a committed one only uncommits. -/
def hdmWrite (h : Fin 2) (idx : Fin 4) (base size ways gran : Nat) (commit lock : Bool) (s : State) : State :=
  let d := (headOf s h).hdm.getD idx.val {}
  if d.locked || (d.committed && commit) then s
  else
    onHead h (fun x => { x with hdm := listUpd idx.val (fun _ => hdmNew s h idx base size ways gran commit lock) x.hdm }) s

/-- Interleave ways of a code of CXL's (log 46); 0, which no decoder accepts, for a code it does not have. -/
def waysOf (code : Nat) : Nat := if code ≤ 4 then 2 ^ code else if 8 ≤ code ∧ code ≤ 10 then 3 * 2 ^ (code - 8) else 0

/-- A write to a word of an HDM decoder through BAR0 (R37, log 46): base and size while it is neither committed nor locked, and
with the control its granularity, ways, lock and commit. -/
def hdmBarWrite (h : Fin 2) (n : Fin 4) (k off size : Nat) (v : Word) (s : State) : State :=
  let d := (headOf s h).hdm.getD n.val {}
  let laid := fun x : Nat => ((word x &&& ~~~(written off size)) ||| spread off size v).toNat
  if k = 2 then
    (if off = 0 ∧ 2 ≤ size then
      hdmWrite h n d.base d.size (waysOf (v.toNat / 16 % 16)) (2 ^ (8 + v.toNat % 16)) (v.getLsbD 9) (v.getLsbD 8) s
    else s)
  else if d.committed || d.locked || decide (1 < k) then s
  else onHead h (fun x => { x with hdm := listUpd n.val (fun d =>
    if k = 0 then { d with base := laid d.base } else { d with size := laid d.size }) x.hdm }) s

/-- A word of BAR0 that the spec does not value takes the bytes written (R41). -/
def barStore (h : Fin 2) (a off size : Nat) (v : Word) (s : State) : State :=
  onHead h (fun x =>
    { x with barMem := tabIns a ((((tabFind a x.barMem).getD (Config.barInit a)) &&& ~~~(written off size)) ||| spread off size v)
               x.barMem }) s

/-- A write to a component or device register (R41): a decoder's word, the RAS status bits that 1 clears, or a word that is
held; what the device alone sets stays. -/
def barRegWrite (h : Fin 2) (a off size : Nat) (v : Word) (s : State) : Host.Outcome State Fault Refusal :=
  match barHdm a with
  | some (n, k) => .next (hdmBarWrite h n k off size v s)
  | none =>
    if a = 0x1100 ∧ off = 0 then
      execRasStatusClear (v.getLsbD 0) (v.getLsbD 1) (barStore h a off size v s)
    else if a = 0x1108 ∧ 8 ≤ off + size then
      .next ((barStore h a off size v s).onHost fun x =>
        { x with rasCorrectable := x.rasCorrectable && !(spread off size v).getLsbD 32 })
    else .next (barStore h a off size v s)

/-- A write to BAR0 (R41). -/
def barWrite (h : Fin 2) (off size : Nat) (v : Word) (s : State) : Host.Outcome State Fault Refusal :=
  let a := off - off % 8
  if off < 0x14000 then barRegWrite h a (off % 8) size v s
  else if 0x18000 ≤ off ∧ off < 0x19000 then pageWriteReg h off size v s
  else if 0x1C000 ≤ off ∧ off < 0x1C080 then
    let s := barStore h a (off % 8) size v s
    if hv : (a - 0x1C000) / 16 < 8 ∧ a % 16 = 8 ∧ 4 < off % 8 + size ∧ off % 8 ≤ 4 then
      .next (maskVector h ⟨(a - 0x1C000) / 16, hv.1⟩ ((spread (off % 8) size v).getLsbD 32) s)
    else .next s
  else .next s

/-! ## Mailbox commands without a row (R31, R58, R61) -/

/-- Bytes of the label storage area (R31). -/
def labelBytes : Nat := 262144

/-- Bytes of Get Event Records (R58, log 46): the overflow count with the times of the first and the last, the count, and
for each record its type, the UUID selector of a vendor record and its native Waterline form. -/
def eventBytes (l : EventLog) : List Byte :=
  let kind : EventKind → Nat
    | .dram => 0
    | .generalMedia => 1
    | .memoryModule => 2
    | .vendor => 3
  leBytes 4 l.overflow ++ leBytes 8 l.firstOverflow ++ leBytes 8 l.lastOverflow ++ leBytes 2 l.recs.length ++
    (l.recs.map fun e => leBytes 1 (kind e.kind) ++ wlNative e.record).flatten

/-- A mailbox command that has no row of its own (R31, R58, R61). A feature not supported answers Unsupported; clearing
event records takes the oldest of a log and ends its overflow (log 46). A vendor command whose payload is as long as its
fixed part is well formed, so it answers Success; it comes with its payload as a row of its own, and `Instr.wf` keeps it out
here, where its status is a free value. -/
def mailboxOp (h : Fin 2) (s : State) : MailboxCmd → State
  | .getEventRecords n => mbox h .success (eventBytes (eventLog s.cxl n.val)) s
  | .clearEventRecords n count =>
    mbox h .success [] (s.onCxl (onEventLog n.val fun l =>
      { l with recs := l.recs.drop count, overflow := 0, firstOverflow := 0, lastOverflow := 0 }))
  | .getLabels off length =>
    if off + length ≤ labelBytes then
      mbox h .success ((List.range length).map fun k => tabGet 0 (off + k) s.cxl.labels) s
    else mbox h .refused [] s
  | .setLabels off data =>
    if off + data.length ≤ labelBytes then
      mbox h .success [] (s.onCxl fun c =>
        { c with labels := ((List.range data.length).zip data).foldl (fun l x => tabSet 0 (off + x.1) x.2 l) c.labels })
    else mbox h .refused [] s
  | .transferFw => mbox h .unsupported [] s
  | .activateFw => mbox h .unsupported [] s
  | .setPartitionInfo => mbox h .unsupported [] s
  | .passphrase => mbox h .unsupported [] s
  | .short opcode length =>
    if length < vendorFixedPart opcode then mbox h .invalidLength [] s
    else if 0 < vendorFixedPart opcode then
      mbox h .success [Config.freeBits 8 s.free] { s with free := s.free + 1 }
    else mbox h .unsupported [] s

/-- A write to a head's registers. -/
def headWrite (t : RegTarget) (v : Word) (s : State) : Host.Outcome State Fault Refusal :=
  match t with
  | .bar h off size => barWrite h off size v s
  | .hdm h idx base size ways gran commit lock => .next (hdmWrite h idx base size ways gran commit lock s)
  | .msix h vec masked => .next (maskVector h vec masked s)
  | .config h .bar0 => .next (onHead h (fun x => { x with bar0 := v.toNat / 0x20000 * 0x20000 }) s)
  | .mailbox h cmd => mailboxCmd h s (fun s => mailboxOp h s cmd)
  | .config _ _ => .next s
  | .dev _ _ => .next s
  | .hdmRange _ _ _ => .next s
  | .doe _ => .next s
  | .xbar _ _ => .next s
  | .serial _ _ => .next s

/-- REGISTER_WRITE (R6). -/
def execRegisterWrite (tgt : RegTarget) (master : MasterId) (value : Word) (s : State) :
    Host.Outcome State Fault Refusal :=
  match tgt with
  | .xbar addr size => xbarWrite addr size master value s
  | .serial off size => if s.seq.vddAon then finish (serialWrite off size master value s) else .next s
  | t =>
    match targetHead t with
    | some h => if headRegs s h then headWrite t value s else .next (configRetry t h s)
    | none => .next s

end Sys2Proof.Machine
end

