-- ==== Sys2Proof/Machine/Spdm.lean ====
section
/-! DEFINITION. SPDM as far as the spec gives it (R354, R395 to R397, R404, R417): measurement blocks, the opening and
the end of a secured session, and the owner certificate of slot 7. Certificates and signatures are the requester's
business: an operand says whether the authentication succeeded. -/

namespace Sys2Proof.Machine

/-- An SPDM response, or an SPDM error. -/
def spdm (p : Path) (ok : Bool) (bytes : List Byte) (s : State) : State := say (.spdm p ok bytes) s

/-- Who answers SPDM (R396, R417): the coxswain of the crew that holds the seat, or the ROM of Boathouse mode. -/
def spdmServed (s : State) : Bool := !darkOrAux s && !frozen s && (boathouse s || (seatHolder s).isSome)

/-- A digest of the device's contents (R396): a free value (log 1). -/
def digestBytes (s : State) : List Byte := leBytes 48 (Config.freeBits 384 s.free).toNat

/-- Measurement 6 (R396): security version of the image and the minimum security version. -/
def versionBytes (s : State) : List Byte :=
  let v := ((runningImage s).map (·.security)).getD 0
  leBytes 4 v ++ leBytes 4 (minVersion s)

/-- Measurement 1 (R396, R497): the ROM version with revision field B0, then the digest of the ROM (log 94). -/
def romBytes (s : State) : List Byte := leBytes 2 0x00B0 ++ digestBytes s

/-- Measurement 2 (R396, R436): the digest of the patch that runs; of an image without one, the spec gives none. -/
def patchBytes (s : State) : List Byte :=
  match (runningImage s).bind (·.patch) with
  | some p => leBytes 48 (Config.patchHash p.version p.len).toNat
  | none => digestBytes s

/-- A measurement block (R396); the ROM serves 1 and 6 (R417). -/
def measureOp (p : Path) (index : Nat) (s : State) : State :=
  if boathouse s && !decide (index = 1 ∨ index = 6) then spdm p false [] s
  else if index = 6 then spdm p true (versionBytes s) s
  else if index = 1 then spdm p true (romBytes s) { s with free := s.free + 1 }
  else if index = 2 then spdm p true (patchBytes s) { s with free := s.free + 1 }
  else if 3 ≤ index ∧ index ≤ 5 then spdm p true (digestBytes s) { s with free := s.free + 1 }
  else spdm p false [] s

/-- A secured session opens (R354): it carries O after mutual authentication against the owner certificate. -/
def openSecured (p : Path) (id : Nat) (owner : Bool) (s : State) : State :=
  if s.upd.secured.any fun x => decide (x.1 = id) then spdm p false [] s
  else spdm p true [] (s.onUpd fun u => { u with secured := u.secured ++ [(id, owner && !u.owner.isEmpty)] })

/-- A secured session ends (R354, R356, R404): its OD state ends, and an update session it carries is released. -/
def endSecured (id : Nat) (s : State) : State :=
  let s := endSessions (fun k => decide (k = 6 + 4 * id)) s
  let s := s.onUpd fun u => { u with secured := u.secured.filter fun x => decide (x.1 ≠ id) }
  match s.upd.session with
  | some u =>
    if u.secured = some id ∧ (s.upd.stage = .idle ∨ s.upd.stage = .verifying) then
      (releaseSession s).onUpd fun u => { u with stage := .idle, committer := none }
    else s
  | none => s

/-- IDE_KM within a secured session (R59): the key of a stream is set, of CXL.io or of CXL.mem in containment mode. -/
def ideKeyOp (p : Path) (cxlMem : Bool) (stream key : Nat) (s : State) : State :=
  match p with
  | .secured _ _ _ _ =>
    spdm p true [] (s.onUpd fun u =>
      if cxlMem then { u with ideMem := tabIns stream key u.ideMem } else { u with ideIo := tabIns stream key u.ideIo })
  | _ => spdm p false [] s

/-- What an SPDM request does (R354, R396); of the requests SPDM 1.3 alone defines the answer's bytes are left out
(log 47). -/
def spdmOp (p : Path) (req : SpdmReq) (s : State) : State :=
  match req with
  | .measurement i => measureOp p i s
  | .openSession id owner => openSecured p id owner s
  | .endSession id => spdm p true [] (endSecured id s)
  | .ideKey cxlMem stream key => ideKeyOp p cxlMem stream key s
  | .other _ => spdm p true [] s

/-- SPDM_REQUEST (R396). -/
def execSpdmRequest (p : Path) (req : SpdmReq) (s : State) : Host.Outcome State Fault Refusal :=
  if !reaches s p then .next s
  else if spdmServed s then finish (spdmOp p req s)
  else .next (spdm p false [] s)

/-- The request may write slot 7 (R397): while it is empty in a secured session over SMBus, then by owner privilege. -/
def mayCertify (s : State) (p : Path) : Bool :=
  if s.upd.owner.isEmpty then
    match p with
    | .secured _ _ bus _ => bus
    | _ => false
  else decide (privilege p = 2)

/-- Argument of the record of a changed owner certificate (R420): 0 installed, 1 replaced, 2 erased. -/
def certArg (s : State) (chain : List Byte) : Nat :=
  if chain.isEmpty then 2 else if s.upd.owner.isEmpty then 0 else 1

/-- Slot 7 changes (R354, R397): without an owner certificate no session carries O. -/
def certifyOp (chain : List Byte) (s : State) : State :=
  let n := certArg s chain
  let s := s.onUpd fun u =>
    { u with owner := chain
             secured := if chain.isEmpty then u.secured.map fun x => (x.1, false) else u.secured }
  record 0x0909 4 0x7000 n (bootWrite s)

/-- Longest chain the boot config holds (R435). -/
def chainBytes : Nat := 4028

/-- SET_CERTIFICATE (R397): slot 7 alone can be written; erasing an empty slot is refused. -/
def execSetCertificate (p : Path) (slot : Fin 8) (chain : List Byte) (s : State) : Host.Outcome State Fault Refusal :=
  if !reaches s p then .next s
  else if spdmServed s && !boathouse s && decide (slot = 7 ∧ chain.length ≤ chainBytes) && mayCertify s p &&
      !(chain.isEmpty && s.upd.owner.isEmpty) then
    finish (spdm p true [] (certifyOp chain s))
  else .next (spdm p false [] s)

end Sys2Proof.Machine
end

