-- ==== Sys2Proof/Machine/Dispatch.lean ====
section
/-! DEFINITION. The meaning of each command: one arm per constructor of Instr, each one direct call. -/

namespace Sys2Proof.Machine

def exec (i : Instr) (s : State) : Host.Outcome State Fault Refusal :=
  match i with
  | .hostRead head hpa id res => Sys2Proof.Machine.execHostRead head hpa id res s
  | .hostWrite head hpa id data be poison => Sys2Proof.Machine.execHostWrite head hpa id data be poison s
  | .heldWriteAdmit => Sys2Proof.Machine.execHeldWriteAdmit s
  | .holdLimitExpiry => Sys2Proof.Machine.execHoldLimitExpiry s
  | .hstMark v => Sys2Proof.Machine.execHstMark v s
  | .hstSettle n => Sys2Proof.Machine.execHstSettle n s
  | .registerWrite tgt master value => Sys2Proof.Machine.execRegisterWrite tgt master value s
  | .viral head => Sys2Proof.Machine.execViral head s
  | .perstNAssert head => Sys2Proof.Machine.execPerstNAssert head s
  | .perstNDeassert head => Sys2Proof.Machine.execPerstNDeassert head s
  | .linkReset head => Sys2Proof.Machine.execLinkReset head s
  | .flr head => Sys2Proof.Machine.execFlr head s
  | .cxlReset head => Sys2Proof.Machine.execCxlReset head s
  | .hostRegionReady up => Sys2Proof.Machine.execHostRegionReady up s
  | .gpfPhase1 head => Sys2Proof.Machine.execGpfPhase1 head s
  | .gpfPhase2 head => Sys2Proof.Machine.execGpfPhase2 head s
  | .gpfDrainDone => Sys2Proof.Machine.execGpfDrainDone s
  | .odRead p index sub off => Sys2Proof.Machine.execOdRead p index sub off s
  | .odWrite p index sub last off data stored => Sys2Proof.Machine.execOdWrite p index sub last off data stored s
  | .odEnumerate p index sub maximum => Sys2Proof.Machine.execOdEnumerate p index sub maximum s
  | .updateOpen p length => Sys2Proof.Machine.execUpdateOpen p length s
  | .updateBlock p session off data readBack => Sys2Proof.Machine.execUpdateBlock p session off data readBack s
  | .updateCommit p session => Sys2Proof.Machine.execUpdateCommit p session s
  | .updateAbort p session => Sys2Proof.Machine.execUpdateAbort p session s
  | .waterlineRead p first maximum fb3 minSeverity => Sys2Proof.Machine.execWaterlineRead p first maximum fb3 minSeverity s
  | .getPoisonList head dpa length => Sys2Proof.Machine.execGetPoisonList head dpa length s
  | .injectPoison head dpa => Sys2Proof.Machine.execInjectPoison head dpa s
  | .clearPoison head dpa id data => Sys2Proof.Machine.execClearPoison head dpa id data s
  | .scanMedia head dpa length => Sys2Proof.Machine.execScanMedia head dpa length s
  | .scanMediaDone scan => Sys2Proof.Machine.execScanMediaDone scan s
  | .getScanMediaCapabilities head dpa length => Sys2Proof.Machine.execGetScanMediaCapabilities head dpa length s
  | .setShutdownState head dirty => Sys2Proof.Machine.execSetShutdownState head dirty s
  | .getShutdownState head => Sys2Proof.Machine.execGetShutdownState head s
  | .getHealthInfo head => Sys2Proof.Machine.execGetHealthInfo head s
  | .setAlertConfiguration head cfg => Sys2Proof.Machine.execSetAlertConfiguration head cfg s
  | .getAlertConfiguration head => Sys2Proof.Machine.execGetAlertConfiguration head s
  | .identifyMemoryDevice head => Sys2Proof.Machine.execIdentifyMemoryDevice head s
  | .getFwInfo head => Sys2Proof.Machine.execGetFwInfo head s
  | .sanitize head => Sys2Proof.Machine.execSanitize head s
  | .secureErase head => Sys2Proof.Machine.execSecureErase head s
  | .ptmResponse head hostTime => Sys2Proof.Machine.execPtmResponse head hostTime s
  | .spdmRequest p req => Sys2Proof.Machine.execSpdmRequest p req s
  | .setCertificate p slot chain => Sys2Proof.Machine.execSetCertificate p slot chain s
  | .restoreModeWrite p v => Sys2Proof.Machine.execRestoreModeWrite p v s
  | .saveRequest p v => Sys2Proof.Machine.execSaveRequest p v s
  | .offCommand p => Sys2Proof.Machine.execOffCommand p s
  | .onCommand p => Sys2Proof.Machine.execOnCommand p s
  | .latchClear p v => Sys2Proof.Machine.execLatchClear p v s
  | .learningRequest p v => Sys2Proof.Machine.execLearningRequest p v s
  | .packChangeDeclaration p v => Sys2Proof.Machine.execPackChangeDeclaration p v s
  | .odAcknowledge p faultId => Sys2Proof.Machine.execOdAcknowledge p faultId s
  | .trialCommit p v => Sys2Proof.Machine.execTrialCommit p v s
  | .planRequest p v => Sys2Proof.Machine.execPlanRequest p v s
  | .seatRequest p v => Sys2Proof.Machine.execSeatRequest p v s
  | .crewResetRequest p v => Sys2Proof.Machine.execCrewResetRequest p v s
  | .freezeEnterRequest p => Sys2Proof.Machine.execFreezeEnterRequest p s
  | .freezeResumeRequest p => Sys2Proof.Machine.execFreezeResumeRequest p s
  | .settingsCompactionDone => Sys2Proof.Machine.execSettingsCompactionDone s
  | .weirRecompute => Sys2Proof.Machine.execWeirRecompute s
  | .weirPublish crew level => Sys2Proof.Machine.execWeirPublish crew level s
  | .coxswainWeirRecompute => Sys2Proof.Machine.execCoxswainWeirRecompute s
  | .weirFloorSet => Sys2Proof.Machine.execWeirFloorSet s
  | .weirDecayStart => Sys2Proof.Machine.execWeirDecayStart s
  | .weirDecayFloor => Sys2Proof.Machine.execWeirDecayFloor s
  | .markDraining pages => Sys2Proof.Machine.execMarkDraining pages s
  | .completeDrain tag seg unit => Sys2Proof.Machine.execCompleteDrain tag seg unit s
  | .failDrain tag => Sys2Proof.Machine.execFailDrain tag s
  | .mapWalkRequest slot st => Sys2Proof.Machine.execMapWalkRequest slot st s
  | .mapWalkBatch => Sys2Proof.Machine.execMapWalkBatch s
  | .flashOarCommand ch die op => Sys2Proof.Machine.execFlashOarCommand ch die op s
  | .flashOpComplete ch die res => Sys2Proof.Machine.execFlashOpComplete ch die res s
  | .checkpointTimer => Sys2Proof.Machine.execCheckpointTimer s
  | .mapLineRebuild line => Sys2Proof.Machine.execMapLineRebuild line s
  | .recountDone => Sys2Proof.Machine.execRecountDone s
  | .mappingEntryError page => Sys2Proof.Machine.execMappingEntryError page s
  | .dirtyLogChunkMove => Sys2Proof.Machine.execDirtyLogChunkMove s
  | .logCompactionDone => Sys2Proof.Machine.execLogCompactionDone s
  | .pwrfailNAssert ns => Sys2Proof.Machine.execPwrfailNAssert ns s
  | .vinSenseFall => Sys2Proof.Machine.execVinSenseFall s
  | .vinSenseRise => Sys2Proof.Machine.execVinSenseRise s
  | .saveDrainDone => Sys2Proof.Machine.execSaveDrainDone s
  | .saveStarted => Sys2Proof.Machine.execSaveStarted s
  | .mapSaved => Sys2Proof.Machine.execMapSaved s
  | .cursor openSeq page => Sys2Proof.Machine.execCursor openSeq page s
  | .bucketDone => Sys2Proof.Machine.execBucketDone s
  | .rootsSaved => Sys2Proof.Machine.execRootsSaved s
  | .saved => Sys2Proof.Machine.execSaved s
  | .saveTimeLimit => Sys2Proof.Machine.execSaveTimeLimit s
  | .sagDetect belowA belowB => Sys2Proof.Machine.execSagDetect belowA belowB s
  | .saveCutoff belowA belowB forOneMs => Sys2Proof.Machine.execSaveCutoff belowA belowB forOneMs s
  | .crewsSilentTimeout => Sys2Proof.Machine.execCrewsSilentTimeout s
  | .emptySetSaveTimeout => Sys2Proof.Machine.execEmptySetSaveTimeout s
  | .ledgerHoldTimeout => Sys2Proof.Machine.execLedgerHoldTimeout s
  | .powerDownCommand => Sys2Proof.Machine.execPowerDownCommand s
  | .saveRelease => Sys2Proof.Machine.execSaveRelease s
  | .restoreBegin tailOk => Sys2Proof.Machine.execRestoreBegin tailOk s
  | .restoreStarted => Sys2Proof.Machine.execRestoreStarted s
  | .restoreMetadataLoaded found => Sys2Proof.Machine.execRestoreMetadataLoaded found s
  | .conversionDone => Sys2Proof.Machine.execConversionDone s
  | .earlyOpenPoint => Sys2Proof.Machine.execEarlyOpenPoint s
  | .memoryReady => Sys2Proof.Machine.execMemoryReady s
  | .lakebedFillDone failed => Sys2Proof.Machine.execLakebedFillDone failed s
  | .basinOverlayDone failed => Sys2Proof.Machine.execBasinOverlayDone failed s
  | .restored => Sys2Proof.Machine.execRestored s
  | .restoreInterrupted => Sys2Proof.Machine.execRestoreInterrupted s
  | .basinErased => Sys2Proof.Machine.execBasinErased s
  | .blockEraseDone die area block ok => Sys2Proof.Machine.execBlockEraseDone die area block ok s
  | .demandFetchDone page res us => Sys2Proof.Machine.execDemandFetchDone page res us s
  | .checkpoint => Sys2Proof.Machine.execCheckpoint s
  | .settled => Sys2Proof.Machine.execSettled s
  | .shutdownClean => Sys2Proof.Machine.execShutdownClean s
  | .cleanShutdownDrained => Sys2Proof.Machine.execCleanShutdownDrained s
  | .sanitized => Sys2Proof.Machine.execSanitized s
  | .channelIsolated ch => Sys2Proof.Machine.execChannelIsolated ch s
  | .blockReset ch cause => Sys2Proof.Machine.execBlockReset ch cause s
  | .blockResetDone ch us ok => Sys2Proof.Machine.execBlockResetDone ch us ok s
  | .dramOarReload crew ch => Sys2Proof.Machine.execDramOarReload crew ch s
  | .flashOarReload crew ch => Sys2Proof.Machine.execFlashOarReload crew ch s
  | .ddrAlert ch sub kind failures => Sys2Proof.Machine.execDdrAlert ch sub kind failures s
  | .lakebedRepairDone line ok => Sys2Proof.Machine.execLakebedRepairDone line ok s
  | .repairReadTimeout id => Sys2Proof.Machine.execRepairReadTimeout id s
  | .refreshTick ch => Sys2Proof.Machine.execRefreshTick ch s
  | .zqCalibration ch => Sys2Proof.Machine.execZqCalibration ch s
  | .dqsTracking ch => Sys2Proof.Machine.execDqsTracking ch s
  | .dramTemperatureRead ch maxC => Sys2Proof.Machine.execDramTemperatureRead ch maxC s
  | .patrolScrub ch line res => Sys2Proof.Machine.execPatrolScrub ch line res s
  | .trainingDone ch stored pass => Sys2Proof.Machine.execTrainingDone ch stored pass s
  | .flashChannelReset ch => Sys2Proof.Machine.execFlashChannelReset ch s
  | .ldpcEngineFault eng => Sys2Proof.Machine.execLdpcEngineFault eng s
  | .xtsEngineFault eng => Sys2Proof.Machine.execXtsEngineFault eng s
  | .flashPatrol found => Sys2Proof.Machine.execFlashPatrol found s
  | .dieRetire die => Sys2Proof.Machine.execDieRetire die s
  | .dieRetireWalkDone die => Sys2Proof.Machine.execDieRetireWalkDone die s
  | .basinExchangeTimer => Sys2Proof.Machine.execBasinExchangeTimer s
  | .sDieRecompute t999 programs => Sys2Proof.Machine.execSDieRecompute t999 programs s
  | .landingCopy crew coxCore landing stream seq digest cmd => Sys2Proof.Machine.execLandingCopy crew coxCore landing stream seq digest cmd s
  | .pairingTimeout landing stream seq => Sys2Proof.Machine.execPairingTimeout landing stream seq s
  | .timerTick bow stroke => Sys2Proof.Machine.execTimerTick bow stroke s
  | .seatTokenCorrupt found => Sys2Proof.Machine.execSeatTokenCorrupt found s
  | .healthSecond crew => Sys2Proof.Machine.execHealthSecond crew s
  | .crewRejoinTimer crew => Sys2Proof.Machine.execCrewRejoinTimer crew s
  | .crewLoadDone crew verified => Sys2Proof.Machine.execCrewLoadDone crew verified s
  | .catchupDone crew => Sys2Proof.Machine.execCatchupDone crew s
  | .shadowClean crew => Sys2Proof.Machine.execShadowClean crew s
  | .updateVerifyDone found => Sys2Proof.Machine.execUpdateVerifyDone found s
  | .updateHandover => Sys2Proof.Machine.execUpdateHandover s
  | .updateSessionIdle => Sys2Proof.Machine.execUpdateSessionIdle s
  | .trialExpiry => Sys2Proof.Machine.execTrialExpiry s
  | .fallbackWaitTimeout => Sys2Proof.Machine.execFallbackWaitTimeout s
  | .trialTimeWrite => Sys2Proof.Machine.execTrialTimeWrite s
  | .faultReport f => Sys2Proof.Machine.execFaultReport f s
  | .graceExpiry unit => Sys2Proof.Machine.execGraceExpiry unit s
  | .chpFaultAck faultId master => Sys2Proof.Machine.execChpFaultAck faultId master s
  | .rasStatusClear memory internal => Sys2Proof.Machine.execRasStatusClear memory internal s
  | .resetShadowEnd unit => Sys2Proof.Machine.execResetShadowEnd unit s
  | .conditionClear unit => Sys2Proof.Machine.execConditionClear unit s
  | .refclkLoss => Sys2Proof.Machine.execRefclkLoss s
  | .refclkReturn => Sys2Proof.Machine.execRefclkReturn s
  | .springPllLockLoss => Sys2Proof.Machine.execSpringPllLockLoss s
  | .backupLockLoss => Sys2Proof.Machine.execBackupLockLoss s
  | .rootRelock backup => Sys2Proof.Machine.execRootRelock backup s
  | .rootsUnlockedTimeout => Sys2Proof.Machine.execRootsUnlockedTimeout s
  | .vddAonValid => Sys2Proof.Machine.execVddAonValid s
  | .vddAonLoss => Sys2Proof.Machine.execVddAonLoss s
  | .strapSample lane headmode boathouseN testmodeN => Sys2Proof.Machine.execStrapSample lane headmode boathouseN testmodeN s
  | .minimumDarkTime => Sys2Proof.Machine.execMinimumDarkTime s
  | .boardProfileRead found => Sys2Proof.Machine.execBoardProfileRead found s
  | .boardProfileRetry found => Sys2Proof.Machine.execBoardProfileRetry found s
  | .auxReady => Sys2Proof.Machine.execAuxReady s
  | .catchPulseEnd => Sys2Proof.Machine.execCatchPulseEnd s
  | .mainPowerAbsentTimeout => Sys2Proof.Machine.execMainPowerAbsentTimeout s
  | .catchRisingEdge => Sys2Proof.Machine.execCatchRisingEdge s
  | .laneStaggerExpiry => Sys2Proof.Machine.execLaneStaggerExpiry s
  | .catchResync => Sys2Proof.Machine.execCatchResync s
  | .catchGlitch => Sys2Proof.Machine.execCatchGlitch s
  | .stepLimitWait => Sys2Proof.Machine.execStepLimitWait s
  | .railOnDelay n => Sys2Proof.Machine.execRailOnDelay n s
  | .railOffDelay n => Sys2Proof.Machine.execRailOffDelay n s
  | .railRisen n code => Sys2Proof.Machine.execRailRisen n code s
  | .railFallen n code => Sys2Proof.Machine.execRailFallen n code s
  | .riseTimeout n => Sys2Proof.Machine.execRiseTimeout n s
  | .fallTimeout n => Sys2Proof.Machine.execFallTimeout n s
  | .railWarning n ov code => Sys2Proof.Machine.execRailWarning n ov code s
  | .railFault n kind code => Sys2Proof.Machine.execRailFault n kind code s
  | .railEvalResume => Sys2Proof.Machine.execRailEvalResume s
  | .resetStretchEnd flash => Sys2Proof.Machine.execResetStretchEnd flash s
  | .junctionTemperature celsius => Sys2Proof.Machine.execJunctionTemperature celsius s
  | .gaugeSample a b => Sys2Proof.Machine.execGaugeSample a b s
  | .restQualified str => Sys2Proof.Machine.execRestQualified str s
  | .insertionRest str => Sys2Proof.Machine.execInsertionRest str s
  | .fullFlag str => Sys2Proof.Machine.execFullFlag str s
  | .thermistorOpen str => Sys2Proof.Machine.execThermistorOpen str s
  | .thermistorPresent str => Sys2Proof.Machine.execThermistorPresent str s
  | .packidRead mv descriptorValid => Sys2Proof.Machine.execPackidRead mv descriptorValid s
  | .forcedRestDue str => Sys2Proof.Machine.execForcedRestDue str s
  | .forcedRestFail str => Sys2Proof.Machine.execForcedRestFail str s
  | .learnDue str entriesOk => Sys2Proof.Machine.execLearnDue str entriesOk s
  | .learnNoCurrent str => Sys2Proof.Machine.execLearnNoCurrent str s
  | .chargeRestart str => Sys2Proof.Machine.execChargeRestart str s
  | .rhoDriftDay str => Sys2Proof.Machine.execRhoDriftDay str s
  | .gaugeRecordWrite => Sys2Proof.Machine.execGaugeRecordWrite s
  | .pwrChgCtrlWrite value => Sys2Proof.Machine.execPwrChgCtrlWrite value s
  | .stringStateSetting str st reason paused => Sys2Proof.Machine.execStringStateSetting str st reason paused s
  | .waterlineRecord r => Sys2Proof.Machine.execWaterlineRecord r s
  | .stagedRecord r => Sys2Proof.Machine.execStagedRecord r s
  | .ledgerCommit c => Sys2Proof.Machine.execLedgerCommit c s
  | .waterlineExport ok => Sys2Proof.Machine.execWaterlineExport ok s
  | .ledgerTest found => Sys2Proof.Machine.execLedgerTest found s
  | .mctpPacket pkt => Sys2Proof.Machine.execMctpPacket pkt s
  | .mctpAssemblyGap src => Sys2Proof.Machine.execMctpAssemblyGap src s
  | .setEndpointId dst eid => Sys2Proof.Machine.execSetEndpointId dst eid s
  | .getEndpointId dst => Sys2Proof.Machine.execGetEndpointId dst s
  | .getEndpointUuid dst => Sys2Proof.Machine.execGetEndpointUuid dst s
  | .getMctpVersionSupport dst => Sys2Proof.Machine.execGetMctpVersionSupport dst s
  | .getMessageTypeSupport dst => Sys2Proof.Machine.execGetMessageTypeSupport dst s
  | .getVendorDefinedMessageSupport dst => Sys2Proof.Machine.execGetVendorDefinedMessageSupport dst s
  | .statusRead => Sys2Proof.Machine.execStatusRead s
  | .alertResponse won => Sys2Proof.Machine.execAlertResponse won s
  | .busError port err => Sys2Proof.Machine.execBusError port err s
  | .targetTimeout => Sys2Proof.Machine.execTargetTimeout s
  | .stretchAbort port => Sys2Proof.Machine.execStretchAbort port s
  | .arbitrationLoss port at' => Sys2Proof.Machine.execArbitrationLoss port at' s
  | .arbitrationBackoffEnd port => Sys2Proof.Machine.execArbitrationBackoffEnd port s
  | .hangRecovery port stopMade => Sys2Proof.Machine.execHangRecovery port stopMade s
  | .busCall sclFell => Sys2Proof.Machine.execBusCall sclFell s
  | .busCallServiceTimeout => Sys2Proof.Machine.execBusCallServiceTimeout s
  | .localTemperatureRead readings => Sys2Proof.Machine.execLocalTemperatureRead readings s
  | .chargerEntryRetry str entriesOk => Sys2Proof.Machine.execChargerEntryRetry str entriesOk s
  | .failedBoot cause => Sys2Proof.Machine.execFailedBoot cause s
  | .boathouseCommit p session found slotAOk slotBOk => Sys2Proof.Machine.execBoathouseCommit p session found slotAOk slotBOk s
  | .ergometerMeasure readings => Sys2Proof.Machine.execErgometerMeasure readings s
  | .planTrigger trig => Sys2Proof.Machine.execPlanTrigger trig s
  | .coreVoltageStep ok => Sys2Proof.Machine.execCoreVoltageStep ok s
  | .rampSlackCheck lowest => Sys2Proof.Machine.execRampSlackCheck lowest s
  | .holdwaterNAssert => Sys2Proof.Machine.execHoldwaterNAssert s
  | .holdwaterNDeassert => Sys2Proof.Machine.execHoldwaterNDeassert s
  | .jtagExtest => Sys2Proof.Machine.execJtagExtest s
  | .jtagIdcode => Sys2Proof.Machine.execJtagIdcode s
  | .jtagSamplePreload => Sys2Proof.Machine.execJtagSamplePreload s
  | .jtagFreeze => Sys2Proof.Machine.execJtagFreeze s
  | .jtagResume => Sys2Proof.Machine.execJtagResume s
  | .frzSelect sel => Sys2Proof.Machine.execFrzSelect sel s
  | .frzScan bits => Sys2Proof.Machine.execFrzScan bits s
  | .ledgerAccessRead addr => Sys2Proof.Machine.execLedgerAccessRead addr s
  | .ledgerAccessWrite addr data => Sys2Proof.Machine.execLedgerAccessWrite addr data s
  | .jtagStatus => Sys2Proof.Machine.execJtagStatus s
  | .jtagBypass opcode => Sys2Proof.Machine.execJtagBypass opcode s
  | .trstNAssert => Sys2Proof.Machine.execTrstNAssert s
  | .registerRead r => Sys2Proof.Machine.execRegisterRead r s
  | .refclkDetect => Sys2Proof.Machine.execRefclkDetect s
  | .odSessionIdle p => Sys2Proof.Machine.execOdSessionIdle p s
  | .stateCompleteNoRail => Sys2Proof.Machine.execStateCompleteNoRail s
  | .halvingHoldOffEnd still => Sys2Proof.Machine.execHalvingHoldOffEnd still s
  | .flashResetDone unit => Sys2Proof.Machine.execFlashResetDone unit s
  | .settingsWorkingCopyWritten => Sys2Proof.Machine.execSettingsWorkingCopyWritten s

end Sys2Proof.Machine
end

