-- ==== Sys2Proof/Safety.lean ====
section
/-! DEFINITION. What counts as a good state of the device, in the terms the statements use: the canonical form of every
sparse table (log 2), the lists whose length the hardware fixes, and the machine stopping on nothing. -/

namespace Sys2Proof

open Sys2Proof.Machine

/-- The memory of a state is in canonical form: addresses strictly rising, none that reads as an unlisted one does. -/
def Memory.wf (s : State) : Bool := tabWf unlisted s.dram.bytes

/-- The lines marked with poison are listed once each, rising (R185). -/
def poisonWf (s : State) : Bool := setWf s.dram.poison

/-- The page map is in canonical form (R86). -/
def mapWf (s : State) : Bool := tabWf {} s.pm.pages

/-- The capture records are in canonical form (R257). -/
def recordsWf (s : State) : Bool := tabWf {} s.fault.recs

/-- The tables of a state are canonical and its Waterline logs hold no more than their slots. -/
structure Tables (s : State) : Prop where
  bytes : tabWf unlisted s.dram.bytes = true
  poison : setWf s.dram.poison = true
  pages : tabWf {} s.pm.pages = true
  recs : tabWf {} s.fault.recs = true
  log : s.wl.log.length ≤ logSlots
  ring : s.wl.ring.length ≤ ringSlots

/-- A command ends in a next state: the block never stops on one (log 6). -/
def Completes (i : Instr) (s : State) : Prop := ∃ t, exec i s = .next t

/-! ## What a command leaves as it was

A frame is said with the parts of State: `OnlyChanges cs s t` says that `t` is `s` in every part that `cs` does not name.
What a record of the Waterline may move (`Reported`), and what the end of a command alone may move (`Noticed`), is said
field by field. -/

/-- The parts of State, one a field. -/
inductive Part where
  | free
  | pending
  | cfg
  | tb
  | clk
  | host
  | cxl
  | wb
  | dram
  | pm
  | lake
  | basin
  | flash
  | log
  | weir
  | save
  | rst
  | ledger
  | wl
  | fault
  | crew
  | seq
  | boot
  | frz
  | bat
  | od
  | bus
  | upd
  | plan
  | out
  deriving DecidableEq, Repr

/-- Two states agree in one part. -/
def Part.same : Part → State → State → Prop
  | .free, s, t => t.free = s.free
  | .pending, s, t => t.pending = s.pending
  | .cfg, s, t => t.cfg = s.cfg
  | .tb, s, t => t.tb = s.tb
  | .clk, s, t => t.clk = s.clk
  | .host, s, t => t.host = s.host
  | .cxl, s, t => t.cxl = s.cxl
  | .wb, s, t => t.wb = s.wb
  | .dram, s, t => t.dram = s.dram
  | .pm, s, t => t.pm = s.pm
  | .lake, s, t => t.lake = s.lake
  | .basin, s, t => t.basin = s.basin
  | .flash, s, t => t.flash = s.flash
  | .log, s, t => t.log = s.log
  | .weir, s, t => t.weir = s.weir
  | .save, s, t => t.save = s.save
  | .rst, s, t => t.rst = s.rst
  | .ledger, s, t => t.ledger = s.ledger
  | .wl, s, t => t.wl = s.wl
  | .fault, s, t => t.fault = s.fault
  | .crew, s, t => t.crew = s.crew
  | .seq, s, t => t.seq = s.seq
  | .boot, s, t => t.boot = s.boot
  | .frz, s, t => t.frz = s.frz
  | .bat, s, t => t.bat = s.bat
  | .od, s, t => t.od = s.od
  | .bus, s, t => t.bus = s.bus
  | .upd, s, t => t.upd = s.upd
  | .plan, s, t => t.plan = s.plan
  | .out, s, t => t.out = s.out

/-- `t` is `s` but for the parts that `cs` names. -/
def OnlyChanges (cs : List Part) (s t : State) : Prop := ∀ p, p ∉ cs → p.same s t

/-- `s` with what the end of a command may move taken from `t`: what MGMT last reported of the strings and of health, and
the ATTENTION reasons and the call they raise (R374, R380). -/
def withNotice (t s : State) : State :=
  { s with bus := { s.bus with
      seen := t.bus.seen
      mgmt := { s.bus.mgmt with
        attention := t.bus.mgmt.attention, callPending := t.bus.mgmt.callPending, alert := t.bus.mgmt.alert
        called := t.bus.mgmt.called, notified := t.bus.mgmt.notified, interval := t.bus.mgmt.interval } } }

/-- `s` with what a record of the Waterline moves taken from `t` as well: the log, the ring, the numbers, their reservation
pages and the counters of the Waterline (R332, R333, R339, R439), the four CXL event logs (R343), and the MSI-X vectors they
raise or leave pending (R49). The model's own counter of free values goes with it. -/
def withReports (t s : State) : State :=
  withNotice t { s with
    free := t.free
    wl := { s.wl with log := t.wl.log, ring := t.wl.ring, nextSeq := t.wl.nextSeq, reserved := t.wl.reserved,
                      drops := t.wl.drops, written := t.wl.written, pageSeq := t.wl.pageSeq,
                      reservePage := t.wl.reservePage }
    cxl := { s.cxl with info := t.cxl.info, warn := t.cxl.warn, failure := t.cxl.failure, fatal := t.cxl.fatal }
    host := { s.host with head0 := { s.host.head0 with msixPending := t.host.head0.msixPending }
                          head1 := { s.host.head1 with msixPending := t.host.head1.msixPending } }
    out := { s.out with msix := t.out.msix } }

/-- `t` is `s` but for what the end of a command may move. -/
def Noticed (s t : State) : Prop := t = withNotice t s

/-- `t` is `s` but for what records of the Waterline and the end of a command may move. -/
def Reported (s t : State) : Prop := t = withReports t s

/-- Nothing else waits to happen at the end of a command: no log entry found its spill area full (R155), and no reaction
waits for a reset or a freeze to end (R267, R271). -/
def Calm (s : State) : Prop := s.log.overflow = false ∧ s.fault.waiting = []

/-- Running `i` on `s` ends in a next state, and `P` holds of it. -/
def Gives (i : Instr) (s : State) (P : State → Prop) : Prop := ∃ t, exec i s = .next t ∧ P t

end Sys2Proof
end

