-- ==== Sys2Proof/Certificates/Slice0/Obligations.lean ====
section
/-! DEFINITION. The statements for the provers, by chapter of the specification. A statement of what a command does says that
exec answers a next state, what that state holds, and what it leaves as it was. `Calm` in a premise says that nothing else
waits to happen at the end of the command; a premise on the fault records says that the command's fault is the first at its
unit. -/

open Sys2Proof Sys2Proof.Machine

/-! ## Words of the statements -/

/-- Unit `m` holds in `t` the capture of a fault of class `c` with KEY `k` that `req` caused at the time of `s` (R257,
R260); every other unit's record is as it was. -/
def Captured (s t : State) (m : MasterId) (c : FClass) (k : BitVec 8) (req : MasterId) : Prop :=
  (capture t m).sticky = true ∧ (capture t m).cls = some c ∧ (capture t m).key = k ∧ (capture t m).master = req ∧
    (capture t m).time = s.tb.now ∧ (capture t m).capnum = ((capture s m).capnum + 1) % 65536 ∧
    (capture t m).count = satInc 0xFFFF (capture s m).count ∧ ∀ x, x ≠ m → capture t x = capture s x

/-! ## The step and the tick -/

/-- A step of a block whose queue holds a command runs that command, as exec does, on the state whose queue is the rest. -/
def Obligations.StepRunsFrontCommand : Prop :=
  ∀ (s : State) (c : Instr) (rest : List Instr), s.pending = c :: rest → step s = exec c { s with pending := rest }

/-- R28, and the model's choice of log 3: on an empty queue one tick passes. PWR_TIME rises by 10 ns, by 9 or 11 while an
offset is removed, and by 40 while no root runs or the device is frozen; without VDD_AON it stands. Where no map operation
and no copy waits, no level decays, no reset runs and no crew is FAULTED or hands its state over, the write buffer may drain,
the sequencer's inputs are sampled where 4 µs have passed (R280), and nothing else changes. A FAULTED crew is OFF (R243). (A
message that waits at a two-wire port runs as well, as MctpControlAndPackets says.) -/
def Obligations.EmptyQueueCountsOneTick : Prop :=
  ∀ s : State, s.pending = [] → s.bus.waiting = [] →
    ∃ t, step s = .next t ∧
      (s.seq.vddAon = false → t.tb = s.tb) ∧
      (s.seq.vddAon = true → frozen s = true ∨ rootsRun s = false →
        t.tb = { s.tb with now := (s.tb.now + 40) % 2 ^ 64 }) ∧
      (s.seq.vddAon = true → frozen s = false → rootsRun s = true →
        (s.tb.slew = 0 → t.tb = { s.tb with now := (s.tb.now + 10) % 2 ^ 64 }) ∧
        (0 < s.tb.slew → t.tb = { s.tb with now := (s.tb.now + 9) % 2 ^ 64, slew := s.tb.slew - 1 }) ∧
        (s.tb.slew < 0 → t.tb = { s.tb with now := (s.tb.now + 11) % 2 ^ 64, slew := s.tb.slew + 1 })) ∧
      (s.pm.marks = [] → s.crew.lagBuf = [] → s.weir.state ≠ .decaying → s.fault.shadows = [] →
        (∀ h, (headOf s h).retrainBy = none) → (∀ c, (crewOf s c).st ≠ .faulted ∧ (crewOf s c).copyEnd = none) →
        OnlyChanges [.tb, .wb, .dram, .cxl, .seq, .free] s t ∧
        (s.tb.now / 4000 = t.tb.now / 4000 → t.seq = s.seq ∧ t.free = s.free)) ∧
      (s.weir.state ≠ .decaying → darkOrAux s = false → frozen s = false → s.pm.marks = [] → s.crew.lagBuf = [] →
        ∀ c, (crewOf s c).st = .faulted → (crewOf t c).st = .off ∧ (crewOf t c).offSince = some t.tb.now)

/-! ## Reset -/

/-- What R25, R26, R43, R44, R285 and R486 say holds before VDD_AON is first valid: the sequencer in DARK with nothing enabled,
PWR_TIME, HST_EPOCH and HST_SETTLED at 0, no write buffered, no page of residue, no fault captured, no record written. -/
def Obligations.ResetLeaves : Prop :=
  State.reset.seq.st = .dark ∧ State.reset.seq.enabled = [] ∧ State.reset.tb.now = 0 ∧ State.reset.host.epoch = 0 ∧
    State.reset.host.settled = 0 ∧ State.reset.wb.entries = [] ∧ State.reset.pm.residue = 0 ∧
    State.reset.pm.buckets = [] ∧ (∀ m, (capture State.reset m).sticky = false) ∧ State.reset.wl.nextSeq = 0 ∧
    State.reset.pending = [] ∧ Tables State.reset

/-! ## The host link: reads and writes of memory -/

/-- A request of `head` for the line `line` is served from DRAM: the head's link is up and ready, memory is ready, the
address decodes, its page is neither withdrawn nor unrestored, and its channel is in no reset. -/
def ReadServed (s : State) (head : Fin 2) (hpa line : Nat) : Prop :=
  memRequest s head = true ∧ notServed s = false ∧ lineOfHpa s head hpa = some line ∧
    withdrawn s (pageOf line) = false ∧ unrestored s (pageOf line) = false ∧ inBlockReset s (pageOf line) = false

/-- HOST_READ (R74): a read that decodes without an error returns the newest content of its line, buffered writes over it in
arrival order, and its poison marker; nothing else changes. -/
def HostReadReturnsMergedLine : Prop :=
  ∀ (s : State) (head : Fin 2) (hpa id line : Nat), ReadServed s head hpa line → Calm s →
    Gives (.hostRead head hpa id .ok) s
      (Noticed (say (.read head id (merged s line).1 (merged s line).2) s))

/-- HOST_READ while memory is not ready (R50, R159), of a line whose decode gives any result: the read returns poison and the
request is a fault of class C at the head port, whose record then holds KEY 1; memory and the write buffer stay. -/
def HostReadNotServedReturnsPoison : Prop :=
  ∀ (s : State) (head : Fin 2) (hpa id : Nat) (res : DramRead), memRequest s head = true → notServed s = true →
    (capture s (headPort head)).sticky = false → Calm s →
    Gives (.hostRead head hpa id res) s fun t =>
      (∃ d, t.out.resp = .read head id d true :: s.out.resp) ∧
      Captured s t (headPort head) .c 1 (headPort head) ∧ t.host.aerCorrectable = true ∧
      OnlyChanges [.free, .wl, .cxl, .host, .out, .bus, .fault] s t

/-- HOST_READ of a line that DRAM does not serve (R165, R168, R194, R198): a withdrawn page, and a LOST page not yet
restored, give poison; a read of another page not yet restored, or of a line whose channel is in a block reset and that no
buffered write covers whole, waits; an address that no decoder holds, and a head that takes no requests, move nothing. -/
def HostReadElsewhere : Prop :=
  ∀ (s : State) (head : Fin 2) (hpa id : Nat) (res : DramRead),
    (memRequest s head = false → exec (.hostRead head hpa id res) s = .next s) ∧
    (memRequest s head = true → notServed s = false →
      (lineOfHpa s head hpa = none → exec (.hostRead head hpa id res) s = .next s) ∧
      (∀ line, lineOfHpa s head hpa = some line → Calm s →
        (withdrawn s (pageOf line) = true ∨
            unrestored s (pageOf line) = true ∧ pageState s (pageOf line) = .lost →
          Gives (.hostRead head hpa id res) s (Noticed (say (.read head id (Config.freeBits 512 s.free) true)
            { s with free := s.free + 1 }))) ∧
        (withdrawn s (pageOf line) = false → unrestored s (pageOf line) = true → pageState s (pageOf line) ≠ .lost →
          Gives (.hostRead head hpa id res) s fun t =>
            t.wb = (holdRead head id line .fetch s).wb ∧ pageOf line ∈ t.rst.fetching ∧ t.out.resp = s.out.resp ∧
            OnlyChanges [.wb, .rst, .flash, .bus] s t) ∧
        (withdrawn s (pageOf line) = false → unrestored s (pageOf line) = false → inBlockReset s (pageOf line) = true →
          bufferHit s line = false →
          Gives (.hostRead head hpa id res) s (Noticed (holdRead head id line .reset s)))))

/-- The write buffer takes a write to `line`: a read of the line would be served, the write buffer has room, no earlier write
to the page waits, and the channel that holds the page's map line is in no reset. -/
def WriteTaken (s : State) (head : Fin 2) (hpa line : Nat) : Prop :=
  ReadServed s head hpa line ∧ s.wb.entries.length < bufferEntries ∧
    (∀ x ∈ s.wb.entries, pageOf x.line = pageOf line → x.phase = .admitted ∨ x.phase = .inReset) ∧
    inBlockReset s (mapAddr s.cfg (pageOf line) / pageBytes) = false

/-- The write-buffer entry of a host write that was admitted. -/
def admittedEntry (s : State) (head : Fin 2) (id line : Nat) (data : Line) (be : BitVec 64) (poison : Bool) : WEntry :=
  { id := id, head := head, line := line, data := data, be := be, poison := poison, phase := .admitted,
    arrived := s.tb.now }

/-- HOST_WRITE to a DIRTY page (R30, R93, R121): the write enters the buffer and completes without a test, the page's
HOT_HOLD takes the current tick in the dirty filter (R90), and nothing else changes: no byte of DRAM does yet. -/
def HostWriteToDirtyPageCompletes : Prop :=
  ∀ (s : State) (head : Fin 2) (hpa id line : Nat) (data : Line) (be : BitVec 64) (poison : Bool),
    WriteTaken s head hpa line → pageState s (pageOf line) = .dirty → inWindow s = false → Calm s →
    Gives (.hostWrite head hpa id data be poison) s
      (Noticed { s with
        wb := { s.wb with entries := s.wb.entries ++ [admittedEntry s head id line data be poison] }
        pm := cacheTouch (lineOfMap (pageOf line)) true { s.pm with pages :=
          (tabSet {} (pageOf line) ({ pageEntry s (pageOf line) with hot := hotTick s }) s.pm.pages) }
        out := { s.out with resp := .complete head id :: s.out.resp } })

/-- The parts that the admission of a first-write moves. -/
def admissionParts : List Part := [.free, .wl, .cxl, .host, .out, .bus, .wb, .pm, .lake, .log, .ledger, .weir]

/-- HOST_WRITE to a CLEAN or LOST page with room below the Weir level (R86, R88, R93, R121): the page becomes DIRTY in the
newest bucket with the current hot tick, the residue grows by one page, the write completes, and no byte of DRAM changes yet.
-/
def FirstWriteMakesPageDirty : Prop :=
  ∀ (s : State) (head : Fin 2) (hpa id line : Nat) (data : Line) (be : BitVec 64) (poison : Bool) (b : Bucket),
    WriteTaken s head hpa line → pageState s (pageOf line) = .clean ∨ pageState s (pageOf line) = .lost →
    inWindow s = false → Calm s → newestBucket s = some b → b.isOpen = true → roomFor s = true → holdActive s = false →
    s.log.spill = [] → s.log.tail.length < tailEntries →
    Gives (.hostWrite head hpa id data be poison) s fun t =>
      pageEntry t (pageOf line) = { state := .dirty, bucket := b.slot, hot := hotTick s } ∧
      t.pm.residue = s.pm.residue + 4096 ∧
      t.log = { s.log with tail := s.log.tail ++ [.dirty b.slot (pageOf line)], pos := s.log.pos + 1 } ∧
      t.wb.entries = s.wb.entries ++ [admittedEntry s head id line data be poison] ∧
      t.out.resp = .complete head id :: s.out.resp ∧
      (∀ p, p ≠ pageOf line → pageEntry t p = pageEntry s p) ∧
      OnlyChanges admissionParts s t

/-- HOST_WRITE to a CLEAN or LOST page without room (R90, R122): the write is held, counted, and not completed; the dirty
filter holds the page's map line, and the page map, the residue and DRAM stay as they were. -/
def FirstWriteWithoutRoomIsHeld : Prop :=
  ∀ (s : State) (head : Fin 2) (hpa id line : Nat) (data : Line) (be : BitVec 64) (poison : Bool),
    WriteTaken s head hpa line → pageState s (pageOf line) = .clean ∨ pageState s (pageOf line) = .lost →
    inWindow s = false → Calm s → roomFor s = false →
    Gives (.hostWrite head hpa id data be poison) s
      (Noticed { s with
        wb := { s.wb with entries := s.wb.entries ++
          [{ admittedEntry s head id line data be poison with phase := .heldWeir }] }
        pm := cacheTouch (lineOfMap (pageOf line)) false s.pm
        host := { s.host with holds := satInc 0xFFFFFFFF s.host.holds } })

/-- HOST_WRITE that the buffer does not take (R39, R50, R159, R198): before memory is ready it is dropped without a
completion, a fault of class C at the head port; a withdrawn page completes and discards it; a full buffer, an address that
no decoder holds, and a head that takes no requests take nothing. -/
def HostWriteElsewhere : Prop :=
  ∀ (s : State) (head : Fin 2) (hpa id : Nat) (data : Line) (be : BitVec 64) (poison : Bool),
    (memRequest s head = false → exec (.hostWrite head hpa id data be poison) s = .next s) ∧
    (memRequest s head = true → notServed s = true → (capture s (headPort head)).sticky = false → Calm s →
      Gives (.hostWrite head hpa id data be poison) s fun t =>
        Captured s t (headPort head) .c 1 (headPort head) ∧ t.out.resp = s.out.resp ∧
        OnlyChanges [.free, .wl, .cxl, .host, .out, .bus, .fault] s t) ∧
    (memRequest s head = true → notServed s = false →
      (lineOfHpa s head hpa = none → exec (.hostWrite head hpa id data be poison) s = .next s) ∧
      (∀ line, lineOfHpa s head hpa = some line → Calm s →
        (withdrawn s (pageOf line) = true →
          Gives (.hostWrite head hpa id data be poison) s (Noticed (say (.complete head id) s))) ∧
        (withdrawn s (pageOf line) = false → bufferEntries ≤ s.wb.entries.length →
          Gives (.hostWrite head hpa id data be poison) s (Noticed s))))

/-- Entry `i` is the one write held on the Weir, to a CLEAN page that no reset stops, outside a freeze and a fence, with a
bucket open. -/
def HeldAlone (s : State) (i : Nat) (e : WEntry) (b : Bucket) : Prop :=
  s.wb.entries[i]? = some e ∧ e.phase = .heldWeir ∧
    (∀ j x, s.wb.entries[j]? = some x → j ≠ i → x.phase = .admitted) ∧
    pageState s (pageOf e.line) = .clean ∧ inBlockReset s (pageOf e.line) = false ∧ inWindow s = false ∧
    frozen s = false ∧ s.host.fence = false ∧ newestBucket s = some b ∧ b.isOpen = true ∧
    s.log.spill = [] ∧ s.log.tail.length < tailEntries ∧ Calm s

/-- What the admission of a held first-write leaves (R93, R122): its entry admitted and completed, its page DIRTY in the newest
bucket, the residue one page up, DRAM as it was. -/
def HeldAdmitted (s : State) (i : Nat) (e : WEntry) (b : Bucket) (t : State) : Prop :=
  t.wb.entries = listUpd i (fun x => { x with phase := .admitted }) s.wb.entries ∧
    t.out.resp = .complete e.head e.id :: s.out.resp ∧
    pageEntry t (pageOf e.line) = { state := .dirty, bucket := b.slot, hot := hotTick s } ∧
    t.pm.residue = s.pm.residue + 4096 ∧ OnlyChanges admissionParts s t

/-- HELD_WRITE_ADMIT (R122, R124): while room lasts the held first-write is admitted, no overshoot counted. HOLD_LIMIT_EXPIRY
(R122, R124): without room at 20 µs it is admitted as an overshoot, which is counted and flagged. -/
def Obligations.HeldFirstWriteIsAdmitted : Prop :=
  (∀ (s : State) (i : Nat) (e : WEntry) (b : Bucket), HeldAlone s i e b → roomFor s = true →
    Gives .heldWriteAdmit s fun t => HeldAdmitted s i e b t ∧ t.host.overshoots = s.host.overshoots) ∧
  (∀ (s : State) (i : Nat) (e : WEntry) (b : Bucket), HeldAlone s i e b → roomFor s = false →
    Gives .holdLimitExpiry s fun t => HeldAdmitted s i e b t ∧
      t.host.overshoots = satInc 0xFFFFFFFF s.host.overshoots ∧ t.host.overshoot = true)

/-! ## Doorbells -/

/-- HST_MARK (R43, R69): a Mark whose value exceeds HST_EPOCH makes it the epoch and closes the newest bucket; any other is
ignored, MARK_REJECT set and vector 7 raised. -/
def MarkAdvancesEpoch : Prop :=
  (∀ (s : State) (v : Word), fenced s = false → frozen s = false → notServed s = false → s.host.epoch < v.toNat →
    exec (.hstMark v) s = .next (closeNewest { s with host := { s.host with epoch := v.toNat } })) ∧
  (∀ (s : State) (v : Word), fenced s = false → frozen s = false → v.toNat ≤ s.host.epoch →
    exec (.hstMark v) s = .next (vector 7 { s with host := { s.host with markReject := true } })) ∧
  (∀ (s : State) (b : Bucket), newestBucket s = some b → (∀ x ∈ s.pm.buckets, x.slot = b.slot → x = b) →
    newestBucket (closeNewest s) = some { b with isOpen := false } ∧
    OnlyChanges [.pm] s (closeNewest s))

/-- HST_SETTLE (R44): a Settle at or below HST_SETTLED completes at once, raising vector 3; one above HST_EPOCH is ignored,
SETTLE_REJECT set and vector 7 raised; one between them raises the target, and every live bucket whose first host epoch is
the target or less is covered (R106). -/
def SettleRaisesTarget : Prop :=
  (∀ (s : State) (n : Word), fenced s = false → frozen s = false → notServed s = false → n.toNat ≤ s.host.settled →
    exec (.hstSettle n) s = .next (vector 3 s)) ∧
  (∀ (s : State) (n : Word), fenced s = false → frozen s = false → notServed s = false → s.host.settled < n.toNat →
    s.host.epoch < n.toNat →
    exec (.hstSettle n) s = .next (vector 7 { s with host := { s.host with settleReject := true } })) ∧
  (∀ (s : State) (n : Word), fenced s = false → frozen s = false → notServed s = false → s.host.settled < n.toNat →
    n.toNat ≤ s.host.epoch →
    Gives (.hstSettle n) s fun t =>
      t.host = { s.host with target := max s.host.target n.toNat } ∧
      (∀ x ∈ t.pm.buckets, x.epoch ≤ t.host.target → x.covered = true) ∧
      t.pm.pages = s.pm.pages ∧ t.pm.residue = s.pm.residue ∧
      OnlyChanges [.host, .pm, .lake] s t)

/-- HST_MARK and HST_SETTLE after the fence and in a freeze are discarded (R46, R460); before memory is ready they are rejected
(R159). -/
def DoorbellsNotTaken : Prop :=
  ∀ (s : State) (v : Word),
    (fenced s = true ∨ frozen s = true → exec (.hstMark v) s = .next s ∧ exec (.hstSettle v) s = .next s) ∧
    (fenced s = false → frozen s = false → notServed s = true →
      exec (.hstMark v) s = .next (vector 7 { s with host := { s.host with markReject := true } }) ∧
      exec (.hstSettle v) s = .next (vector 7 { s with host := { s.host with settleReject := true } }))

/-- HOST_READ (R50, R74, R159, R165, R168, R194, R198): the merged line where the read is served, poison where memory is not
ready, and what comes of the read elsewhere. A decode that DRAM corrects or cannot correct is LinesAreRepairedOrMarked's. -/
def Obligations.HostReadsReturnLineOrPoison : Prop :=
  HostReadReturnsMergedLine ∧ HostReadNotServedReturnsPoison ∧ HostReadElsewhere

/-- HOST_WRITE (R30, R39, R50, R86, R88, R93, R121, R122, R159, R198): to a DIRTY page, to a CLEAN or LOST page with room, to
one without, and where the buffer does not take it. A write to a DRAINING page is DrainsCleanPages's. -/
def Obligations.HostWritesEnterTheBuffer : Prop :=
  HostWriteToDirtyPageCompletes ∧ FirstWriteMakesPageDirty ∧ FirstWriteWithoutRoomIsHeld ∧ HostWriteElsewhere

/-- HST_MARK and HST_SETTLE (R43, R44, R46, R69, R106, R159). -/
def Obligations.DoorbellsMoveTheEpochs : Prop :=
  MarkAdvancesEpoch ∧ SettleRaisesTarget ∧ DoorbellsNotTaken


/-! ## The host region: resets, viral, GPF -/

/-- Head `head` after a reset of the Host region on it (R35): no decoder committed, no background command. -/
def clearedHead (x : Head) (linkToo : Bool) : Head :=
  { x with hdm := List.replicate 4 {}, bg := .none, link := x.link && !linkToo, ready := x.ready && !linkToo }

/-- What a reset of `head` leaves where no update session is open (R35): the head cleared, no OD session of its mailbox, no
erase of its own waiting to be answered; every other session, and every other part of the device, as it was. -/
def HeadReset (s : State) (head : Fin 2) (linkToo perst : Bool) (t : State) : Prop :=
  t.host = (onHead head (fun x => { clearedHead x linkToo with perst := perst }) s).host ∧
    t.od = { s.od with sessions := t.od.sessions, ended := t.od.ended } ∧
    (∀ x, x ∈ t.od.sessions ↔ x ∈ s.od.sessions ∧ x.key ≠ head.val ∧ x.key ≠ 2 + head.val) ∧
    t.rst = { s.rst with sanitizeHead := t.rst.sanitizeHead } ∧ t.rst.sanitizeHead ≠ some head ∧
    OnlyChanges [.host, .od, .rst, .bus] s t

/-- PERST_N_ASSERT, LINK_RESET, FLR and CXL_RESET (R35): each resets only the Host region, on its head; PERST_N and a link
reset take the link down as well. With the device dark, or the link region not entered, only the pin's level is kept; so too
on a head that the part does not run (R3). -/
def HeadResetsTouchOneHead : Prop :=
  (∀ (s : State) (head : Fin 2), darkOrAux s = false → headPresent s head = true → s.upd.session = none → Calm s →
    Gives (.perstNAssert head) s (HeadReset s head true true)) ∧
  (∀ (s : State) (head : Fin 2), darkOrAux s = true ∨ headPresent s head = false →
    exec (.perstNAssert head) s = .next (onHead head (fun x => { x with perst := true }) s)) ∧
  (∀ (s : State) (head : Fin 2) (i : Instr) (linkToo : Bool), linkEntered s = true → headPresent s head = true →
    s.upd.session = none → Calm s →
    i = .linkReset head ∧ linkToo = true ∨ (i = .flr head ∨ i = .cxlReset head) ∧ linkToo = false →
    Gives i s (HeadReset s head linkToo (headOf s head).perst)) ∧
  (∀ (s : State) (head : Fin 2) (i : Instr), linkEntered s = false ∨ headPresent s head = false →
    i = .linkReset head ∨ i = .flr head ∨ i = .cxlReset head → exec i s = .next s)

/-- PERST_N_DEASSERT (R34): training starts once LINK has been entered. HOST_REGION_READY (R34): with PERST_N deasserted and
LINK entered the head's link is up and ready, at the rate it trained and no wider than the head's lanes. Nothing else
changes, where no reset of the port was running; a head that the part does not run stays down (R3). -/
def LinkTrainsAfterPerst : Prop :=
  (∀ (s : State) (head : Fin 2),
    exec (.perstNDeassert head) s =
      .next (onHead head (fun x =>
        { x with perst := false, link := x.link || (linkEntered s && headPresent s head) }) s)) ∧
  (∀ (s : State) (head : Fin 2) (width : Nat) (rate : LinkRate), linkEntered s = true → (headOf s head).perst = false →
    headPresent s head = true → s.fault.shadows = [] → Calm s →
    Gives (.hostRegionReady ⟨head, width, rate⟩) s (Noticed (onHead head (fun x =>
      { x with link := true, ready := true, retrainBy := none, width := min width (headLanes s), rate := rate }) s))) ∧
  (∀ (s : State) (head : Fin 2) (width : Nat) (rate : LinkRate),
    linkEntered s = false ∨ (headOf s head).perst = true ∨ headPresent s head = false →
    exec (.hostRegionReady ⟨head, width, rate⟩) s = .next s)

/-- GPF_PHASE1 and GPF_PHASE2 (R52): Phase 1 is acknowledged at once; Phase 2 is acknowledged at once after the fence or
before memory is ready, and otherwise waits for every buffered write of a channel that is in no reset. Neither fences. -/
def GpfWaitsForBufferedWrites : Prop :=
  (∀ (s : State) (head : Fin 2), (headOf s head).link = true → headPresent s head = true → frozen s = false →
    exec (.gpfPhase1 head) s = .next (say (.gpfAck head 1) s)) ∧
  (∀ (s : State) (head : Fin 2), (headOf s head).link = true → headPresent s head = true → frozen s = false →
    fenced s = true ∨ memReady s = false → exec (.gpfPhase2 head) s = .next (say (.gpfAck head 2) s)) ∧
  (∀ (s : State) (head : Fin 2), (headOf s head).link = true → headPresent s head = true → frozen s = false →
    fenced s = false → memReady s = true →
    ∃ ids, (∀ n, n ∈ ids ↔ ∃ e ∈ s.wb.entries, inBlockReset s (pageOf e.line) = false ∧ e.id = n) ∧
      exec (.gpfPhase2 head) s = .next { s with
        host := { s.host with gpf := .phase2Draining, gpfWaits := ids, gpfHeads := s.host.gpfHeads ++ [head] } })

/-- The writes that Phase 2 waits for and that can be applied now, applied in arrival order and out of the buffer. -/
def gpfFlushed (s : State) : State :=
  (s.wb.entries.filter fun e => drainable s e && s.host.gpfWaits.contains e.id).foldl (fun x e => applyEntry e x)
    { s with wb := { s.wb with
      entries := s.wb.entries.filter fun e => !(drainable s e && s.host.gpfWaits.contains e.id) } }

/-- GPF_DRAIN_DONE (R52): once no write waited for, other than one whose channel is in block reset, is still held, every such
write has been applied, GPF_PHASE2 is in the ledger with PWR_TIME, and Phase 2 is acknowledged on each head that asked. -/
def GpfDrainRecordsAndAcknowledges : Prop :=
  ∀ (s : State), s.host.gpf = .phase2Draining → s.ledger.failed = false → Calm s →
    (∀ e ∈ s.wb.entries, e.id ∈ s.host.gpfWaits → inBlockReset s (pageOf e.line) = false → drainable s e = true) →
    Gives .gpfDrainDone s (Noticed { gpfFlushed s with
      host := { s.host with gpf := .phase2Done, gpfWaits := [], gpfHeads := [] }
      ledger := { s.ledger with commits := { time := s.tb.now, commit := .other .gpfPhase2 } :: s.ledger.commits }
      out := { s.out with resp := (s.host.gpfHeads.map fun h => Response.gpfAck h 2).reverse ++ s.out.resp } })

/-- The resets of a head and its way back to a ready link (R34, R35). -/
def Obligations.HeadsResetAndTrain : Prop :=
  HeadResetsTouchOneHead ∧ LinkTrainsAfterPerst

/-- Global Persistent Flush, from its phases to the end of its drain (R52). -/
def Obligations.GpfDrainsTheWriteBuffer : Prop :=
  GpfWaitsForBufferedWrites ∧ GpfDrainRecordsAndAcknowledges


/-! ## Clock roots and the time base -/

/-- REFCLK_DETECT, REFCLK_RETURN and REFCLK_LOSS (R25): detection starts the count of 10 ms if the Spring PLL is locked; its
end returns the PLL to REFCLK and counts a reference switch, but in a save or a restore it only falls due; a loss puts the
PLL on the crystal and is logged, no fault. -/
def ReferenceFollowsRefclk : Prop :=
  (∀ s : State, s.clk.rootsStarted = true → s.clk.refclk = false →
    exec .refclkDetect s = .next { s with clk := { s.clk with refclk := true, countRunning := s.clk.springLock } }) ∧
  (∀ s : State, s.clk.countRunning = true → s.clk.refclk = true → s.clk.springLock = true →
    (saving s = false → restoring s = false →
      exec .refclkReturn s = .next { s with clk := { s.clk with
        countRunning := false, refCrystal := false
        refSwitches := if s.clk.refCrystal then satInc 0xFF s.clk.refSwitches else s.clk.refSwitches } }) ∧
    (saving s = true ∨ restoring s = true →
      exec .refclkReturn s = .next { s with clk := { s.clk with countRunning := false, returnDue := true } })) ∧
  (∀ s : State, s.clk.rootsStarted = true → s.clk.refclk = true → Calm s →
    Gives .refclkLoss s (Reported { s with clk := { s.clk with
      refclk := false, countRunning := false, returnDue := false, refCrystal := true
      refSwitches := if s.clk.refCrystal then s.clk.refSwitches else satInc 0xFF s.clk.refSwitches } })) ∧
  (∀ s : State, s.clk.rootsStarted = false ∨ s.clk.refclk = false → exec .refclkLoss s = .next s)

/-- The parts that a capture of class C moves, beside the fault records themselves. -/
def reportParts : List Part := [.free, .wl, .cxl, .host, .out, .bus, .fault]

/-- SPRING_PLL_LOCK_LOSS and BACKUP_LOCK_LOSS (R26), with the other root locked and no capture held at the Umpire: each is
counted and captured with class C, KEY 1 for the Spring PLL and 2 for the backup; the other root carries the device. A count of
REFCLK that ran or was complete stands (log 56). -/
def OneLostRootIsCaptured : Prop :=
  (∀ s : State, s.clk.springLock = true → s.clk.backupLock = true → (capture s 0x0040).sticky = false → Calm s →
    Gives .springPllLockLoss s fun t => Captured s t 0x0040 .c 1 0x0040 ∧ (capture t 0x0040).present = true ∧
      t.clk = { s.clk with
        springLock := false, onBackup := true
        lossCount := satInc 0xFFFF s.clk.lossCount } ∧
      OnlyChanges (.clk :: reportParts) s t) ∧
  (∀ s : State, s.clk.springLock = true → s.clk.backupLock = true → (capture s 0x0040).sticky = false → Calm s →
    Gives .backupLockLoss s fun t => Captured s t 0x0040 .c 2 0x0040 ∧ (capture t 0x0040).present = true ∧
      t.clk = { s.clk with
        backupLock := false, onBackup := false, lossCount := satInc 0xFFFF s.clk.lossCount } ∧
      OnlyChanges (.clk :: reportParts) s t)

/-- ROOT_RELOCK (R25, R26, R264): the root is locked. A Spring PLL that relocks on the crystal stays on standby and starts
the count of 10 ms if REFCLK is there and none runs or is complete (log 56); the root that comes first after both were lost
carries the device; with both locked the Umpire's condition is no longer present. -/
def RootRelocks : Prop :=
  ∀ (s : State) (backup : Bool), s.clk.rootsStarted = true →
    (if backup then s.clk.backupLock else s.clk.springLock) = false → Calm s →
    Gives (.rootRelock backup) s fun t =>
      t.clk = { s.clk with
        springLock := s.clk.springLock || !backup, backupLock := s.clk.backupLock || backup
        onBackup := if s.clk.springLock || s.clk.backupLock then s.clk.onBackup else backup
        countRunning := s.clk.countRunning ||
          (!backup && s.clk.refclk && s.clk.refCrystal && !s.clk.returnDue) } ∧
      capture t 0x0040 =
        (if s.clk.springLock || s.clk.backupLock then { capture s 0x0040 with present := false } else capture s 0x0040) ∧
      (∀ m, m ≠ 0x0040 → capture t m = capture s m) ∧
      OnlyChanges [.clk, .fault, .bus] s t

/-- PTM_RESPONSE (R28, R60): device time more than 1 ms behind host time is stepped forward to it; every other offset is left
to be slewed. The alignment and the offset are kept, the offset as a signed 32-bit value. Head 1, a link that is down and a
frozen device align nothing. -/
def PtmStepsForwardOrSlews : Prop :=
  (∀ (s : State) (head : Fin 2) (hostTime : Word), head ≠ 0 ∨ s.host.head0.link = false ∨ frozen s = true →
    exec (.ptmResponse head hostTime) s = .next s) ∧
  ∀ (s : State) (hostTime : Word), s.host.head0.link = true → frozen s = false →
    (s.tb.now + 1000000 < hostTime.toNat →
      exec (.ptmResponse 0 hostTime) s = .next { s with tb := { s.tb with
        now := hostTime.toNat, slew := 0, aligned := true
        lastOffset := satI32 ((s.tb.now : Int) - hostTime.toNat) } }) ∧
    (hostTime.toNat ≤ s.tb.now + 1000000 →
      exec (.ptmResponse 0 hostTime) s = .next { s with tb := { s.tb with
        slew := (s.tb.now : Int) - hostTime.toNat, aligned := true
        lastOffset := satI32 ((s.tb.now : Int) - hostTime.toNat) } })

/-- The commands of the clocks that find nothing to do (R25, R26): a detection or a relock before CORE or of what is there, the
loss of what is lost, a return with no count or no REFCLK. -/
def ClocksLeftAlone : Prop :=
  ∀ s : State,
    (s.clk.rootsStarted = false ∨ s.clk.refclk = true → exec .refclkDetect s = .next s) ∧
    (s.clk.countRunning = false ∨ s.clk.refclk = false → exec .refclkReturn s = .next s) ∧
    (s.clk.springLock = false → exec .springPllLockLoss s = .next s) ∧
    (s.clk.backupLock = false → exec .backupLockLoss s = .next s) ∧
    (∀ backup : Bool, s.clk.rootsStarted = false ∨ (if backup then s.clk.backupLock else s.clk.springLock) = true →
      exec (.rootRelock backup) s = .next s)

/-- The clock roots, the Spring PLL reference and the alignment of PWR_TIME (R25, R26, R28, R60, R264). The loss of the last
root is TriggersStartOneSave's. -/
def Obligations.RootsAndReferenceSwitch : Prop :=
  ReferenceFollowsRefclk ∧ OneLostRootIsCaptured ∧ RootRelocks ∧ ClocksLeftAlone ∧ PtmStepsForwardOrSlews


/-! ## The Weir -/

/-- The least of the five bounds that the formula of the level takes for the string `b` (R110, R115). -/
def leastBound (s : State) (b : StrBounds) : Rat := min b.least (min (basinBound s) (ownerCap s))

/-- R110, R111: a computed level is a multiple of 4 KiB, no more than the least bound of the weaker counted string less the
margin, and less than 4 KiB below it. Without a counted string the level is 0. -/
def Obligations.LevelIsLeastBoundLessMargin : Prop :=
  (∀ (s : State) (x : Str) (b : StrBounds), weaker s = some (x, b) → 0 ≤ leastBound s b → s.od.set.margin ≤ 100 →
    (boundsNow s).level % 4096 = 0 ∧
      ((boundsNow s).level : Rat) ≤ leastBound s b * (1 - (s.od.set.margin : Rat) / 100) ∧
      leastBound s b * (1 - (s.od.set.margin : Rat) / 100) < ((boundsNow s).level : Rat) + 4096) ∧
  (∀ (s : State) (x : Str) (b : StrBounds), weaker s = some (x, b) →
    isCounted s x = true ∧ ∀ y d, isCounted s y = true → s.bat.desc = some d → b.least ≤ (strBounds s d y).least) ∧
  (∀ s : State, anyCounted s = false → (boundsNow s).level = 0)

/-- Neither the fence nor a freeze has stopped the computations, no string is learning, UNPROTECTED follows the strings, and
no write is held. -/
def WeirQuiet (s : State) : Prop :=
  s.host.fence = false ∧ frozen s = false ∧ s.bat.a.st ≠ .learning ∧ s.bat.b.st ≠ .learning ∧
    s.host.unprotected = !anyCounted s ∧ (∀ e ∈ s.wb.entries, e.phase = .admitted) ∧ Calm s

/-- What a change of the Weir's registers leaves beside them: what enforcement notices (R97, R125) may open or close an
episode, start or stop Sprint and write a record; no page, no residue, no buffered write and no byte changes. -/
def WeirMoves (s t : State) : Prop :=
  t.pm.pages = s.pm.pages ∧ t.pm.residue = s.pm.residue ∧ t.pm.buckets = s.pm.buckets ∧ t.host.unprotected = s.host.unprotected ∧
    OnlyChanges [.weir, .pm, .lake, .free, .wl, .cxl, .host, .out, .bus] s t

/-- WEIR_RECOMPUTE, COXSWAIN_WEIR_RECOMPUTE and WEIR_FLOOR_SET (R117 to R120, R131): the crews' computation is what 0x2004
then shows, and its level is published at once; CAP takes the lower of the owner cap and the level computed with 2 points
less margin, and FLOOR the floor where a write of its settings is due; at WEIR_FLOOR_SET FLOOR takes the floor, and in INIT
the state becomes FLOOR. The coxswains compute without a member too (R248). -/
def WeirRecomputesCapAndFloor : Prop :=
  (∀ s : State, WeirQuiet s → anyMember s = true →
    Gives .weirRecompute s (fun t => WeirMoves s t ∧
      t.weir.bounds = boundsNow s ∧ t.weir.computed = (weaker s).isSome ∧
      t.weir.published = (boundsNow s).level % 2 ^ 48 / 4096 * 4096 ∧ t.weir.pubTime = s.tb.now ∧
      t.weir.state = .published ∧ t.weir.capMiB = s.weir.capMiB ∧ t.weir.floorMiB = s.weir.floorMiB)) ∧
  (∀ s : State, WeirQuiet s → anyCoxswain s = true →
    Gives .coxswainWeirRecompute s (fun t => WeirMoves s t ∧
      t.weir.capMiB = min s.od.set.ownerCapMiB (computedLevel s (s.od.set.margin - 2) / 1048576) ∧
      t.weir.floorMiB = (if s.weir.floorDue then floorMiB s else s.weir.floorMiB) ∧ t.weir.floorDue = false ∧ t.weir.published = s.weir.published ∧ t.weir.state = s.weir.state) ∧
    Gives .weirFloorSet s (fun t => WeirMoves s t ∧ t.weir.floorMiB = floorMiB s % 2 ^ 32 ∧
      t.weir.capMiB = s.weir.capMiB % 2 ^ 32 ∧ t.weir.published = s.weir.published ∧
      t.weir.state = (if s.weir.state = .init then .floor else s.weir.state))) ∧
  (∀ s : State, s.host.fence = true ∨ frozen s = true →
    exec .weirRecompute s = .next s ∧ exec .coxswainWeirRecompute s = .next s ∧ exec .weirFloorSet s = .next s) ∧
  (∀ s : State, anyMember s = false → exec .weirRecompute s = .next s)

/-- WEIR_PUBLISH (R20, R117, R120, R128, R130, R236): a landed publication of a member, a multiple of 4 KiB, becomes the
level at once, ends a decay, and is counted in CLAMPS when it stands above CAP; the enforced level is then the lower of it
and CAP. A crew that is no member publishes nothing, and nothing is published after the fence. -/
def PublicationIsEnforcedUnderCap : Prop :=
  (∀ (s : State) (crew : Crew) (level : Nat), isMember s crew = false ∨ s.host.fence = true ∨ frozen s = true →
    exec (.weirPublish crew level) s = .next s) ∧
  ∀ (s : State) (crew : Crew) (level : Nat), isMember s crew = true → s.host.fence = false → frozen s = false →
    (∀ e ∈ s.wb.entries, e.phase = .admitted) → Calm s → level < 2 ^ 48 →
    Gives (.weirPublish crew level) s fun t => WeirMoves s t ∧
      t.weir.published = level / 4096 * 4096 ∧ t.weir.pubTime = s.tb.now ∧ t.weir.state = .published ∧
      (t.weir.pubStroke = true ↔ crew = .stroke) ∧
      t.weir.clamps =
        (if s.weir.capMiB * 1048576 < level / 4096 * 4096 then satInc 0xFF s.weir.clamps else s.weir.clamps) ∧
      t.weir.capMiB = s.weir.capMiB ∧ t.weir.floorMiB = s.weir.floorMiB ∧
      enforced t = min (s.weir.capMiB * 1048576) (level / 4096 * 4096)

/-- WEIR_DECAY_START and WEIR_DECAY_FLOOR (R20): without publications the level falls from what was published, each start
counted; at the floor the state is DECAYED and the enforced level is what CAP leaves of the floor or of a lower publication. -/
def WeirDecaysToFloor : Prop :=
  (∀ s : State, s.weir.state = .published → frozen s = false → s.upd.trial ≠ 1 → Calm s →
    Gives .weirDecayStart s fun t => WeirMoves s t ∧ t.weir.state = .decaying ∧ t.weir.decayFrom = s.weir.published ∧
      t.weir.decayAt = s.tb.now ∧ t.weir.decays = satInc 0xFF s.weir.decays ∧ t.weir.published = s.weir.published) ∧
  (∀ s : State, s.weir.state = .decaying → frozen s = false → Calm s →
    Gives .weirDecayFloor s fun t => WeirMoves s t ∧ t.weir.state = .decayed ∧
      enforced t = min (capBytes s) (decayTarget s) / 4096 * 4096) ∧
  (∀ (s : State) (n : Nat),
    decayTarget s ≤ decayLevel s n ∧ decayLevel s n ≤ s.weir.decayFrom ∧ (1000000000 ≤ n → decayLevel s n = decayTarget s))

/-- The Weir level, its CAP and FLOOR, and its decay (R20, R117 to R120, R128, R130, R131). -/
def Obligations.WeirFollowsPublications : Prop :=
  WeirRecomputesCapAndFloor ∧ PublicationIsEnforcedUnderCap ∧ WeirDecaysToFloor


/-! ## The page map and Outflow -/

/-- The page map may change, every buffered write is admitted and complete, the log has room, and nothing else waits. -/
def MapRuns (s : State) : Prop :=
  mapStopped s = false ∧ (∀ e ∈ s.wb.entries, e.phase = .admitted) ∧ s.log.spill = [] ∧
    s.log.tail.length < tailEntries ∧ Calm s

/-- The tag that MARK_DRAINING gives to a page that takes entry `i` (R89). -/
def newTag (s : State) (i : Nat) : Nat := (tabGet 0 i s.pm.drainGens + 1) % 256 * 65536 + i

/-- MARK_DRAINING (R89, R92, R93, R94, R96): while Outflow runs, a DIRTY page that R94 takes next, without a drain and
without a buffered write, becomes DRAINING under a free entry (the lowest: log 67) with a new generation, and its tag is the
result; the residue stays. Every page that is not DIRTY has the result NOT_DIRTY and stays as it is. A DIRTY page with a
write that cannot drain yet waits for it; one whose drain is in flight has the result IN_FLIGHT, one whose drain failed takes
its entry again, and one that finds no entry free has TABLE_FULL. A DIRTY page out of R94's turn is not sent, nor is a batch
of more than 64 pages (log 71). The crews' list of what to drain next follows. -/
def MarkDrainingStartsDrain : Prop :=
  (∀ (s : State) (page i : Nat), MapRuns s → outflowEnabled s = true → pageState s page = .dirty →
    page ∈ outflowNext s → drainOf s page = none → freeIndex s = some i → (∀ e ∈ s.wb.entries, pageOf e.line ≠ page) →
    Gives (.markDraining [page]) s fun t => t.pm.chosen = outflowNext t ∧ Noticed { s with
      pm := cacheTouch (lineOfMap page) true { s.pm with
        pages := (tabSet {} page ({ pageEntry s page with state := .draining, prior := false }) s.pm.pages)
        drains := tabIns i ({ failed := false, linked := false, bucket := (pageEntry s page).bucket,
                              gen := (tabGet 0 i s.pm.drainGens + 1) % 256, page := page }) s.pm.drains
        drainGens := tabSet 0 i ((tabGet 0 i s.pm.drainGens + 1) % 256) s.pm.drainGens
        results := [.tag page (newTag s i)], chosen := t.pm.chosen }
      log := { s.log with tail := s.log.tail ++ [.mark (newTag s i) page], pos := s.log.pos + 1 } } t) ∧
  (∀ (s : State) (pages : List Nat), MapRuns s → outflowEnabled s = true → (∀ p ∈ pages, pageState s p ≠ .dirty) →
    pages.length ≤ 64 →
    Gives (.markDraining pages) s fun t => t.pm.chosen = outflowNext t ∧
      Noticed { s with pm := { s.pm with results := pages.map MapResult.notDirty, chosen := t.pm.chosen } } t) ∧
  (∀ (s : State) (page i : Nat), MapRuns s → outflowEnabled s = true → pageState s page = .dirty →
    page ∈ outflowNext s → drainOf s page = none → freeIndex s = some i →
    (∃ e ∈ s.wb.entries, pageOf e.line = page) → (∀ e ∈ s.wb.entries, pageOf e.line = page → drainable s e = false) →
    Gives (.markDraining [page]) s fun t => t.pm.chosen = outflowNext t ∧
      Noticed { s with pm := { s.pm with marks := setIns page s.pm.marks, results := [], chosen := t.pm.chosen } } t) ∧
  (∀ (s : State) (page i : Nat) (d : DrainEntry), MapRuns s → outflowEnabled s = true → pageState s page = .dirty →
    drainOf s page = some (i, d) →
    (d.failed = false → Gives (.markDraining [page]) s fun t => t.pm.chosen = outflowNext t ∧
      Noticed { s with pm := { s.pm with results := [.inFlight page], chosen := t.pm.chosen } } t) ∧
    (d.failed = true → page ∈ outflowNext s → (∀ e ∈ s.wb.entries, pageOf e.line ≠ page) →
      Gives (.markDraining [page]) s fun t => t.pm.results = [.tag page (newTag s i)] ∧
        pageEntry t page = { pageEntry s page with state := .draining, prior := false } ∧
        tabFind i t.pm.drains = some { d with failed := false, gen := (tabGet 0 i s.pm.drainGens + 1) % 256, page := page } ∧
        (∀ p, p ≠ page → pageEntry t p = pageEntry s p) ∧ t.pm.residue = s.pm.residue ∧
        OnlyChanges [.pm, .log, .bus] s t)) ∧
  (∀ (s : State) (page : Nat), MapRuns s → outflowEnabled s = true → pageState s page = .dirty →
    page ∈ outflowNext s → drainOf s page = none → freeIndex s = none →
    Gives (.markDraining [page]) s fun t => t.pm.chosen = outflowNext t ∧
      Noticed { s with pm := { s.pm with results := [.tableFull page], chosen := t.pm.chosen } } t) ∧
  (∀ (s : State) (page : Nat), MapRuns s → outflowEnabled s = true → pageState s page = .dirty → page ∉ outflowNext s →
    (∀ x ∈ drainOf s page, x.2.failed = true) →
    Gives (.markDraining [page]) s fun t => t.pm.chosen = outflowNext t ∧
      Noticed { s with pm := { s.pm with results := [], chosen := t.pm.chosen } } t) ∧
  (∀ (s : State) (pages : List Nat), mapStopped s = true ∨ outflowEnabled s = false →
    exec (.markDraining pages) s = .next s) ∧
  (∀ (s : State) (pages : List Nat), 64 < pages.length → Calm s → Gives (.markDraining pages) s (Noticed s))

/-- HOST_WRITE to a DRAINING page (R71, R88, R93): the page is DIRTY again in the newest bucket, with PRIOR; its drain's
entry is LINKED to the bucket it had; the residue stays, the write completes, and no byte of DRAM changes yet. -/
def WriteToDrainingPageIsLinked : Prop :=
  ∀ (s : State) (head : Fin 2) (hpa id line : Nat) (data : Line) (be : BitVec 64) (poison : Bool) (b : Bucket) (i : Nat)
    (d : DrainEntry),
    WriteTaken s head hpa line → pageState s (pageOf line) = .draining → drainOf s (pageOf line) = some (i, d) →
    inWindow s = false → Calm s → newestBucket s = some b → b.isOpen = true →
    s.log.spill = [] → s.log.tail.length < tailEntries →
    Gives (.hostWrite head hpa id data be poison) s fun t =>
      pageEntry t (pageOf line) = { state := .dirty, bucket := b.slot, hot := hotTick s, prior := true } ∧
      tabFind i t.pm.drains = some { d with linked := true } ∧ t.pm.residue = s.pm.residue ∧
      t.log = { s.log with tail := s.log.tail ++ [.dirty b.slot (pageOf line)], pos := s.log.pos + 1 } ∧
      t.wb.entries = s.wb.entries ++ [admittedEntry s head id line data be poison] ∧
      t.out.resp = .complete head id :: s.out.resp ∧
      (∀ p, p ≠ pageOf line → pageEntry t p = pageEntry s p) ∧
      OnlyChanges admissionParts s t

/-- COMPLETE_DRAIN (R93, R101, R154): the tag's page becomes CLEAN if it was still DRAINING, and the residue falls by 4 KiB; a
page written meanwhile stays DIRTY without PRIOR, the residue as it was. The unit is in the mapping table, the entry free, and
the log says COMPLETE. A tag without a valid entry is counted and changes no page. -/
def CompleteDrainCleansPage : Prop :=
  (∀ (s : State) (tag seg unit : Nat) (d : DrainEntry), MapRuns s → tagged s tag = some d → placeOk seg unit = true →
    Gives (.completeDrain tag seg unit) s fun t =>
      ((pageEntry s d.page).state = .draining →
        pageEntry t d.page = {} ∧ t.pm.residue = s.pm.residue - 4096) ∧
      ((pageEntry s d.page).state = .dirty →
        pageEntry t d.page = { pageEntry s d.page with prior := false } ∧ t.pm.residue = s.pm.residue) ∧
      (∀ p, p ≠ d.page → pageEntry t p = pageEntry s p) ∧
      tabFind d.page t.lake.mapping = some (seg, unit) ∧ t.pm.drains = tabDel (tag % 65536) s.pm.drains ∧
      t.pm.results = [.done tag] ∧ t.log = { s.log with tail := s.log.tail ++ [.complete tag d.page], pos := s.log.pos + 1 } ∧
      OnlyChanges [.pm, .lake, .log, .ledger, .weir, .free, .wl, .cxl, .host, .out, .bus] s t) ∧
  (∀ (s : State) (tag seg unit : Nat) (i : Instr), MapRuns s → tagged s tag = none →
    i = .completeDrain tag seg unit ∧ placeOk seg unit = true ∨ i = .failDrain tag →
    Gives i s (Noticed { s with pm := { s.pm with stale := s.pm.stale + 1, results := [.stale tag] } }))

/-- FAIL_DRAIN (R93): the page is DIRTY again in its bucket and its entry free; a page written meanwhile keeps its entry,
marked failed, and PRIOR. The residue, the log and the mapping table stay. -/
def FailDrainKeepsPageDirty : Prop :=
  ∀ (s : State) (tag : Nat) (d : DrainEntry), MapRuns s → tagged s tag = some d →
    (d.linked = false → Gives (.failDrain tag) s (Noticed { s with pm := cacheTouch (lineOfMap d.page) true { s.pm with
      pages := (tabSet {} d.page ({ pageEntry s d.page with state := .dirty }) s.pm.pages)
      drains := tabDel (tag % 65536) s.pm.drains, results := [.done tag] } })) ∧
    (d.linked = true → Gives (.failDrain tag) s (Noticed { s with pm := cacheTouch (lineOfMap d.page) true { s.pm with
      pages := (tabSet {} d.page ({ pageEntry s d.page with state := .dirty, prior := true }) s.pm.pages)
      drains := tabIns (tag % 65536) { d with failed := true } s.pm.drains, results := [.done tag] } }))

/-- MAP_WALK_REQUEST and MAP_WALK_BATCH (R94): a walk starts at page 0; each batch lists at most 64 pages of the walk's slot
and state, from where the walk stands, and a batch that is not full ends the walk. No page changes. -/
def WalkListsPagesOfSlotAndState : Prop :=
  (∀ (s : State) (slot : Fin 16) (st : PState), frozen s = false →
    exec (.mapWalkRequest slot st) s = .next { s with
      pm := { s.pm with walk := some { slot := slot.val, state := st, next := 0 } } }) ∧
  (∀ (s : State) (w : Walk), frozen s = false → s.pm.walk = some w → mapWf s = true →
    Gives .mapWalkBatch s fun t =>
      t = { s with pm := { s.pm with batch := t.pm.batch, walk := t.pm.walk, chosen := t.pm.chosen } } ∧
      t.pm.batch.length ≤ 64 ∧
      (∀ p ∈ t.pm.batch, (pageEntry s p).state = w.state ∧ (pageEntry s p).bucket = w.slot ∧ w.next ≤ p) ∧
      (t.pm.walk = none ↔ t.pm.batch.length < 64))

/-- What a capture of class U at the dirty filter leaves, its grace timer running (R91, R105, R262): no chip fatal yet. -/
def FilterFault (key : BitVec 8) (s t : State) : Prop :=
  Captured s t 0x2200 .u key 0x2200 ∧ (capture t 0x2200).grace = true ∧
    (capture t 0x2200).graceNs = s.od.set.graceMs * 1000000 ∧ t.host.rasInternal = true ∧
    t.fault.chipFatal = s.fault.chipFatal ∧
    OnlyChanges [.pm, .lake, .log, .ledger, .weir, .fault, .free, .wl, .cxl, .host, .out, .bus] s t

/-- MAP_LINE_REBUILD and MAPPING_ENTRY_ERROR (R81, R91, R93, R105, R108, R256): every visible page of a lost line that is not
LOST becomes DIRTY and a recount starts, one overshoot counted where the residue rises, none while UNPROTECTED (log 68); a
CLEAN page whose Lakebed copy has no known place becomes DIRTY in the oldest bucket, and its mapping entry goes; during a
restore, one that is not in DRAM yet is LOST for its media instead (DEDUCED, log 114). Each is a
U-class fault of the dirty filter and sets FILTER_RECOVERED. -/
def LostEntriesBecomeDirty : Prop :=
  (∀ (s : State) (line : Nat), mapStopped s = false → line * 32 < s.cfg.installedPages →
    (capture s 0x2200).sticky = false → s.od.set.graceMs ≠ 0 → s.log.spill.length + 64 ≤ spillEntries → Calm s →
    Gives (.mapLineRebuild line) s fun t => FilterFault 0 s t ∧
      (∀ p, p / 32 = line → p < s.cfg.visiblePages → pageState s p ≠ .lost → pageState t p = .dirty) ∧
      (∀ p, p / 32 ≠ line → pageEntry t p = pageEntry s p) ∧
      t.pm.recounting = true ∧ t.pm.filterRecovered = true ∧
      (s.host.unprotected = false → (∃ p, p / 32 = line ∧ p < s.cfg.visiblePages ∧ pageState s p ≠ .lost) →
        t.host.overshoot = true ∧ t.host.overshoots = satInc 0xFFFFFFFF s.host.overshoots) ∧
      (s.host.unprotected = true → t.host.overshoot = s.host.overshoot ∧ t.host.overshoots = s.host.overshoots)) ∧
  (∀ (s : State) (page : Nat) (b : Bucket), mapStopped s = false → pageState s page = .clean →
    page < s.cfg.installedPages → s.pm.buckets.head? = some b → (capture s 0x2200).sticky = false → s.od.set.graceMs ≠ 0 →
    restoring s = false ∨ pageRestored s page = true → s.log.spill.length + 64 ≤ spillEntries → Calm s →
    Gives (.mappingEntryError page) s fun t => FilterFault 1 s t ∧
      pageEntry t page = { state := .dirty, bucket := b.slot, hot := coldTick s } ∧
      (∀ p, p ≠ page → pageEntry t p = pageEntry s p) ∧ t.pm.residue = s.pm.residue + 4096 ∧
      t.pm.filterRecovered = true ∧ t.lake.mapping = tabDel page s.lake.mapping) ∧
  (∀ (s : State) (page : Nat), mapStopped s = false → pageState s page = .clean → page < s.cfg.installedPages →
    (capture s 0x2200).sticky = false → s.od.set.graceMs ≠ 0 → restoring s = true → pageRestored s page = false → Calm s →
    Gives (.mappingEntryError page) s fun t => Captured s t 0x2200 .u 1 0x2200 ∧ (capture t 0x2200).grace = true ∧
      t.fault.chipFatal = s.fault.chipFatal ∧ pageState t page = .lost ∧ t.host.elost = 0 ∧
      tabGet .cursor page t.pm.reasons = .media ∧ (∀ p, p ≠ page → pageEntry t p = pageEntry s p) ∧
      t.rst.mediaLoss = true ∧ t.lake.mapping = tabDel page s.lake.mapping ∧
      OnlyChanges [.pm, .lake, .dram, .rst, .ledger, .fault, .free, .wl, .cxl, .host, .out, .bus] s t)

/-- RECOUNT_DONE (R88, R91): the residue is then 4 KiB for every page DIRTY or DRAINING, and each bucket's count that of its
pages; no page changes. -/
def RecountRestoresCounts : Prop :=
  ∀ s : State, s.pm.recounting = true → MapRuns s →
    Gives .recountDone s fun t => t.pm.residue = 4096 * residuePages s ∧ t.pm.recounting = false ∧
      (∀ b ∈ t.pm.buckets, b.pages = countIn s b.slot) ∧ t.pm.pages = s.pm.pages ∧ t.pm.drains = s.pm.drains ∧
      OnlyChanges [.pm, .lake, .ledger, .weir, .free, .wl, .cxl, .host, .out, .bus] s t

/-! ## The dirty log and checkpoints -/

/-- DIRTY_LOG_CHUNK_MOVE and LOG_COMPACTION_DONE (R155): a chunk of 8,192 entries leaves the tail for the log area, of any size
while the ledger is failed, and no entry is lost or reordered; a compaction appends what states every page's present condition
and drops the chunks written before its walk. -/
def LogKeepsEntriesInOrder : Prop :=
  (∀ s : State, frozen s = false → anyCoxswain s = true → s.host.fence = false →
    s.ledger.failed = true ∨ 8192 ≤ s.log.tail.length →
    Gives .dirtyLogChunkMove s fun t => wholeLog t = wholeLog s ∧
      t.log.area.length = s.log.area.length + min 8192 s.log.tail.length ∧ OnlyChanges [.log] s t) ∧
  (∀ (s : State) (n : Nat), s.log.compacting = some n → n ≤ s.log.area.length → frozen s = false →
    s.host.fence = false → Calm s →
    s.log.spill.length + (s.pm.pages.map fun x => walkEntries s x.1 x.2).flatten.length ≤ spillEntries →
    Gives .logCompactionDone s fun t =>
      wholeLog t = (wholeLog s ++ (s.pm.pages.map fun x => walkEntries s x.1 x.2).flatten).drop n ∧
      t.log.compacting = none ∧ t.log.compactions = s.log.compactions + 1 ∧ OnlyChanges [.log, .bus] s t)

/-- CHECKPOINT_TIMER and CHECKPOINT (R85, R104, R105, R178, R440): the writes of the changed chunks begin with the Lakebed's
write sequence of that moment, their entries in the staging buffers; once every chunk and the directory are written the
commit keeps the mapping table of the chunks and the lost list with its REASONs under the next checkpoint number, in the root
area too, and the one before stays as the older. -/
def CheckpointKeepsMapping : Prop :=
  (∀ s : State, frozen s = false → emptySet s = false → s.host.fence = false → s.rst.committed = true →
    s.lake.chunkWrite = none →
    exec .checkpointTimer s = .next { s with lake := { s.lake with
      chunkWrite := some { lakeSeq := s.lake.writeSeq, taken := s.lake.changed, todo := s.lake.changed,
                           staging := s.lake.mapping.filter fun x => s.lake.changed.contains (chunkOf x.1) }
      changed := [], deltas := [], orphans := [], segments := (countOrphans s).lake.segments } }) ∧
  (∀ (s : State) (w : ChunkWrite) (dir : Nat × Nat), s.lake.chunkWrite = some w → w.todo = [] → w.dir = some dir →
    frozen s = false → s.host.fence = false → s.ledger.failed = false → Calm s →
    Gives .checkpoint s fun t => Noticed { s with
      lake := { s.lake with
        older := s.lake.checkpoint
        checkpoint := some { seq := s.lake.checkpointSeq + 1, lakeSeq := w.lakeSeq, mapping := chunkTable w s.lake.checkpoint,
                             lost := lostPages s, chunks := newestChunks w s.lake.checkpoint, dir := dir }
        checkpointSeq := s.lake.checkpointSeq + 1, chunkWrite := none }
      pm := { s.pm with lostSince := [] }
      ledger := { s.ledger with
        commits := { time := s.tb.now, commit := .checkpoint (s.lake.checkpointSeq + 1) dir w.lakeSeq } :: s.ledger.commits
        ring := t.ledger.ring } } t ∧
      ∃ r, t.ledger.ring.head? = some r ∧ r.typ = 2 ∧ r.commit = some (.checkpoint (s.lake.checkpointSeq + 1) dir w.lakeSeq)) ∧
  (∀ s : State, (∀ w, s.lake.chunkWrite = some w → w.todo ≠ [] ∨ w.dir = none) → exec .checkpoint s = .next s)

/-- SETTLED (R44, R72, R107): with every covered bucket empty the ledger commits the target, HST_SETTLED becomes it, vector 3
is raised, and the covered set is empty again. While a covered bucket holds a page nothing happens. -/
def Obligations.SettledFollowsEmptySet : Prop :=
  (∀ s : State, settleReady s = true → mapStopped s = false → anyMember s = true → s.ledger.failed = false → Calm s →
    Gives .settled s fun t =>
      t.host.settled = s.host.target ∧ t.host.epoch = s.host.epoch ∧ t.host.target = s.host.target ∧
      t.ledger = { s.ledger with commits :=
        { time := s.tb.now, commit := .settled s.host.target } :: s.ledger.commits } ∧
      (∀ b ∈ t.pm.buckets, b.covered = false) ∧ t.pm.pages = s.pm.pages ∧ t.pm.residue = s.pm.residue ∧
      ((headOf s 0).msixMask.getLsbD 3 = false → (0, 3) ∈ t.out.msix) ∧
      OnlyChanges [.host, .ledger, .pm, .lake, .out, .bus] s t) ∧
  (∀ s : State, settleReady s = false → exec .settled s = .next s)

/-- A page drain from its start to its end, and a write that meets one (R71, R88, R89, R92, R93, R101, R154). -/
def Obligations.DrainsCleanPages : Prop :=
  MarkDrainingStartsDrain ∧ CompleteDrainCleansPage ∧ FailDrainKeepsPageDirty ∧ WriteToDrainingPageIsLinked

/-- The map walk, the repair of lost entries and the recount (R88, R91, R93, R94, R105). -/
def Obligations.MapIsWalkedAndRepaired : Prop :=
  WalkListsPagesOfSlotAndState ∧ LostEntriesBecomeDirty ∧ RecountRestoresCounts

/-- The dirty log and the mapping checkpoint (R104, R155, R178). -/
def Obligations.LogAndCheckpointKeepData : Prop :=
  LogKeepsEntriesInOrder ∧ CheckpointKeepsMapping


/-! ## The save: triggers -/

/-- A trigger of a save finds the device running: memory ready, RESTORED committed, no save in progress, no freeze or entry
to one, no Boathouse, and enough of the Basin erased. A string is counted and can carry the save, and none is learning. -/
def SaveReady (s : State) : Prop :=
  memReady s = true ∧ inWindow s = false ∧ boathouse s = false ∧ darkOrAux s = false ∧ frozen s = false ∧
    s.frz.waiting = false ∧ saving s = false ∧ noBattery s = false ∧ basinTooSmall s = false ∧ coreHeld s = false ∧
    s.host.unprotected = false ∧ s.bat.a.st ≠ .learning ∧ s.bat.b.st ≠ .learning ∧ Calm s

/-- What the start of a save by trigger `tr` leaves (R134, R137, R138, R157, R210): the fence on both sides, the phase
fenced, every flash operation of classes 2 to 6 not yet started discarded; the page map's entries and the residue are kept,
the reads that waited are given up, and DRAM, the buffered writes, the Basin, the dirty log and the ledger are untouched. -/
def SaveBegins (tr : Trigger) (s t : State) : Prop :=
  t.save.phase = .fenced ∧ t.save.running = true ∧ t.save.trigger = some tr ∧ t.save.fenceTime = s.tb.now ∧
    t.save.battery = false ∧ t.save.waitMember = emptySet s ∧
    t.host.fence = true ∧ t.host.hostFence = true ∧ t.host.epoch = s.host.epoch ∧ t.host.settled = s.host.settled ∧
    t.pm.pages = s.pm.pages ∧ t.pm.residue = s.pm.residue ∧ t.pm.buckets = s.pm.buckets ∧ t.pm.marks = [] ∧
    t.lake.gcRun = false ∧ t.lake.chunkWrite = none ∧ t.save.gpf = gpfNoted (allCommits s) ∧
    (∀ c ∈ t.flash.channels, ∀ j ∈ c.jobs, j.started = true ∨ opClass j.op ≤ 1) ∧ t.wb = { s.wb with reads := [] } ∧
    OnlyChanges [.save, .seq, .host, .wb, .lake, .flash, .bat, .crew, .pm, .upd, .plan, .free, .wl, .cxl, .out, .bus] s t

/-- What the loss of the last locked root leaves (R26, R266, R276): chip fatal of kind 4, and the save that it starts fenced.
-/
def RootsAreGone (s t : State) : Prop :=
  t.clk = { s.clk with springLock := false, backupLock := false, onBackup := t.clk.onBackup
                       lossCount := satInc 0xFFFF s.clk.lossCount } ∧
    t.fault.chipFatal = true ∧ t.fault.fatalKind = 4 ∧ t.host.aerUncorrectable = true ∧
    t.save.phase = .fenced ∧ t.save.running = true ∧ t.save.trigger = some .chipFatal ∧ t.host.fence = true ∧
    t.pm.pages = s.pm.pages ∧ t.pm.residue = s.pm.residue ∧ t.wb = { s.wb with reads := [] } ∧
    OnlyChanges [.clk, .fault, .save, .seq, .host, .wb, .lake, .flash, .bat, .crew, .pm, .upd, .plan, .free, .wl, .cxl, .out, .bus] s t

/-- PWRFAIL_N_ASSERT, VIN_SENSE_FALL and VIRAL (R32, R132, R133, R137, R449): each starts a save of the running device; the
VIN_SENSE trigger also drives PWRFAIL_N low once VIN_SENSE has stood above its threshold for 1 ms; a pulse of PWRFAIL_N
shorter than 10 ns is counted and starts nothing. SPRING_PLL_LOCK_LOSS and BACKUP_LOCK_LOSS of the last locked root (R26,
R132, R266) are chip fatal of kind 4, which starts a save as well. -/
def TriggerStartsSave : Prop :=
  (∀ (s : State) (ns : Nat), SaveReady s → s.seq.vddAon = true → 10 ≤ ns →
    Gives (.pwrfailNAssert ns) s (SaveBegins .pwrfail s)) ∧
  (∀ s : State, SaveReady s → s.seq.vddAon = true →
    Gives .vinSenseFall s fun t => SaveBegins .vin s t ∧ t.seq.mainOk = false ∧
      t.seq.pwrfailDrive = (s.seq.pwrfailDrive || drivesPwrfail s)) ∧
  (∀ (s : State) (head : Fin 2), SaveReady s → headPresent s head = true →
    Gives (.viral head) s fun t => SaveBegins .viral s t ∧ t.host.viral = true) ∧
  (∀ (s : State) (ns : Nat), s.seq.vddAon = true → ns < 10 →
    exec (.pwrfailNAssert ns) s = .next { s with save := { s.save with ignored := s.save.ignored + 1 } }) ∧
  (∀ s : State, SaveReady s → s.fault.chipFatal = false → s.upd.trial ≠ 1 → (capture s 0x0040).sticky = false →
    (s.clk.springLock = true → s.clk.backupLock = false →
      Gives .springPllLockLoss s fun t => RootsAreGone s t ∧ Captured s t 0x0040 .f 1 0x0040) ∧
    (s.clk.springLock = false → s.clk.backupLock = true →
      Gives .backupLockLoss s fun t => RootsAreGone s t ∧ Captured s t 0x0040 .f 2 0x0040))

/-- A trigger while a save runs (R134, R135): recorded in the Waterline; beyond that, one that says that main power fails
closes the battery path of a save that runs from main power, and any other does nothing. The return of main power stops no
save either; with auto-on it leaves an on request for when the save and its power-down are over. PWRFAIL_N while memory is
not ready starts none (R136). No trigger comes from a head that the part does not run (R3). -/
def SecondTriggerStartsNothing : Prop :=
  (∀ (s : State) (head : Fin 2), saving s = true → headPresent s head = true → frozen s = false → s.frz.waiting = false →
    Calm s →
    Gives (.viral head) s (Reported { s with host := { s.host with viral := true } })) ∧
  (∀ (s : State) (ns : Nat), s.seq.vddAon = true → 10 ≤ ns → saving s = true → frozen s = false → s.frz.waiting = false →
    coreHeld s = false → Calm s →
    (s.save.battery = true ∨ s.seq.dir = .down ∨ s.save.phase = .lastGasp → Gives (.pwrfailNAssert ns) s (Reported s)) ∧
    (s.save.battery = false → s.seq.dir ≠ .down → s.save.phase ≠ .lastGasp → noBattery s = false →
      Gives (.pwrfailNAssert ns) s (Reported { s with
        save := { s.save with
          battery := true, dies := if s.save.dies = 0 then 0 else min s.save.dies (max 8 (batteryDies s)) }
        seq := { s.seq with batsw := true } }))) ∧
  (∀ s : State, s.seq.vddAon = true → s.seq.mainOk = false → Calm s →
    Gives .vinSenseRise s fun t =>
      t.seq = { s.seq with
        mainOk := true, mainSince := some s.tb.now, evalOn := false
        pwrfailDrive := s.seq.pwrfailDrive && !(decide (s.seq.st = .aux) && decide (s.seq.dir ≠ .down))
        holdAux := s.seq.holdAux && !s.seq.holdVinFell, holdVinFell := false
        onPending := s.seq.onPending || ((decide (s.seq.dir = .down) || saving s) && decide (s.od.set.autoOn = 1))
        target := if s.seq.dir = .down ∧ s.od.set.autoOn = 1 then .dark else s.seq.target } ∧
      t.save = s.save ∧ OnlyChanges [.seq, .bat, .bus] s t) ∧
  (∀ (s : State) (ns : Nat), s.seq.vddAon = true → 10 ≤ ns → memReady s = false → frozen s = false → saving s = false →
    s.frz.waiting = false → coreHeld s = false → Calm s → Gives (.pwrfailNAssert ns) s (Noticed s)) ∧
  (∀ (s : State) (head : Fin 2), headPresent s head = false → exec (.viral head) s = .next s)

/-! ## The save: phases -/

/-- The buffer's writes applied to DRAM in arrival order, and the buffer empty. -/
def bufferApplied (s : State) : State :=
  s.wb.entries.foldl (fun x e => applyEntry e x) { s with wb := { s.wb with entries := [] } }

/-- SAVE_DRAIN_DONE (R90, R138, R140, R141): in the phase fenced, with every buffered write able to reach DRAM, all of them
are applied in arrival order, the filter's dirty lines are written back, and the phase is drained. A save that main power's
fall began closes the battery path with the dies of the plan; any other programs on every die that holds erased Basin blocks.
-/
def SaveDrainEmptiesBuffer : Prop :=
  ∀ (s : State) (tr : Trigger), inPhase s .fenced = true → (∀ e ∈ s.wb.entries, drainable s e = true) →
    s.save.trigger = some tr → s.save.battery = false → (mainLoss tr = true → noBattery s = false) → Calm s →
    Gives .saveDrainDone s (Noticed { bufferApplied s with
      pm := { s.pm with cache := s.pm.cache.map fun x => (x.1, false) }
      save := { s.save with
        phase := .drained, battery := mainLoss tr
        dies := if mainLoss tr then batteryDies s else basinDies s }
      seq := { s.seq with batsw := s.seq.batsw || mainLoss tr } })

/-- Generation `n` is above that of every SAVE_STARTED and LAST_GASP in the ledger (R147). -/
def AboveEarlier (n : Nat) (s : State) : Prop := ∀ r ∈ allCommits s,
  (∀ g tr gpf e bs pos f, r.commit = .saveStarted g tr gpf e bs pos f → g < n) ∧
    (∀ g c o m e, r.commit = .lastGasp g c o m e → g < n)

/-- SAVE_STARTED and MAP_SAVED (R144, R147, R150, R156): SAVE_STARTED seals the log tail, assigns a generation above every
earlier one and commits what the fence found (R46) with the position of the dirty log; MAP_SAVED puts the page map, the drain
table and the bucket table into the image and goes on to the oldest bucket with pages, or to the mapping table where none has
any. While a channel is in block reset it waits (R196). -/
def SaveCommitsStartAndMap : Prop :=
  (∀ s : State, crewsSave s .drained = true → s.ledger.failed = false → Calm s →
    Gives .saveStarted s (Reported { s with
      save := { s.save with phase := .map, gen := newGen s }
      log := { s.log with sealed' := true }
      ledger := { s.ledger with commits :=
        { time := s.tb.now
          commit := .saveStarted (newGen s) (triggerCode s.save.trigger) s.save.gpf
            { epoch := s.host.epoch, settled := s.host.settled, target := s.host.target } s.pm.buckets s.log.pos
            (fatalWord s) } :: s.ledger.commits } })) ∧
  (∀ s : State, AboveEarlier (newGen s) s) ∧
  (∀ s : State, crewsSave s .map = true → anyReset s = false → s.ledger.failed = false → Calm s →
    Gives .mapSaved s fun t =>
      (∃ im, t.basin.image = some im ∧ im.gen = s.save.gen ∧ im.map = s.pm.pages ∧ im.drains = s.pm.drains ∧
        im.buckets = s.pm.buckets ∧ im.reasons = s.pm.reasons) ∧
      t.save.mapSaved = true ∧
      t.ledger.commits =
        { time := s.tb.now, commit := .mapSaved s.save.gen (places s.save.gen 3) } :: s.ledger.commits ∧
      (∀ b, nextPass s = some b → t.save.phase = .residue ∧ t.save.bucket = b.slot ∧
        (passedPages (mapImage s) (.upTo b.openSeq 0) = [] → t.save.cursor = .upTo b.openSeq 0)) ∧
      (nextPass s = none → t.save.phase = .mapping ∧
        (passedPages (mapImage s) .endOfResidue = [] → t.save.cursor = .endOfResidue)) ∧
      OnlyChanges [.basin, .flash, .save, .ledger, .bus] s t) ∧
  (∀ s : State, anyReset s = true → exec .mapSaved s = .next s)

/-- The saved map is in canonical form, and its buckets stand in the order they were opened, each in a slot of its own. -/
def ImageOrdered (im : BasinImage) : Prop :=
  tabWf {} im.map = true ∧ im.buckets.Pairwise fun a b => a.openSeq < b.openSeq ∧ a.slot ≠ b.slot

/-- The image holds a unit of every page that its map selects before cursor `c` (R144, R146). -/
def ImageReaches (t : State) (c : Cursor) : Prop :=
  ∃ im, t.basin.image = some im ∧ ∀ p ∈ passedPages im c, (tabFind p im.units).isSome = true

/-- CURSOR and BUCKET_DONE (R144, R146, R147, R151, R500): a CURSOR that does not step back lands where every page before it is
programmed, at the first that is not at most, and is committed; with no program in an oar's hands it lands where it was sent.
BUCKET_DONE waits for its pass's programs, commits the number of pages written in it and the cursor, and goes on to the next
bucket, or to the mapping table after the last. Residue writing stops once the erased Basin beyond meta_reserve, less what
program failures used up, is full. -/
def SaveWritesResidueInPasses : Prop :=
  (∀ (s : State) (o p : Nat), crewsSave s .residue = true → s.save.stopped = false →
    cursorLe s.save.cursor (.upTo o p) = true → (∃ im, s.basin.image = some im ∧ ImageOrdered im) →
    s.ledger.failed = false → Calm s →
    Gives (.cursor o p) s fun t =>
      ImageReaches t t.save.cursor ∧ cursorLe t.save.cursor (.upTo o p) = true ∧
      ((∀ page, programBusy s page = false) → t.save.stopped = false → t.save.cursor = .upTo o p) ∧
      t.save.phase = .residue ∧
      t.ledger.commits = { time := s.tb.now, commit := .cursor s.save.gen t.save.cursor } :: s.ledger.commits ∧
      (t.save.stopped = true → residueUnits s ≤ t.basin.usedUnits) ∧
      OnlyChanges [.basin, .flash, .save, .ledger, .bus] s t) ∧
  (∀ (s : State) (b : Bucket), crewsSave s .residue = true → s.save.stopped = false →
    bucketAt s s.save.bucket = some b → passBusy s b = false → (∃ im, s.basin.image = some im ∧ ImageOrdered im) →
    s.ledger.failed = false → Calm s →
    Gives .bucketDone s fun t =>
      t.save.done = s.save.done ++ [b.openSeq] ∧ ImageReaches t t.save.cursor ∧
      t.ledger.commits = { time := s.tb.now, commit := .cursor s.save.gen t.save.cursor } ::
        (if t.save.stopped then s.ledger.commits
          else { time := s.tb.now, commit := .bucketDone s.save.gen b.openSeq (passCount t b) } :: s.ledger.commits) ∧
      (∀ n, nextPass { s with save := { s.save with done := s.save.done ++ [b.openSeq] } } = some n →
        t.save.phase = .residue ∧ t.save.bucket = n.slot) ∧
      (nextPass { s with save := { s.save with done := s.save.done ++ [b.openSeq] } } = none →
        t.save.phase = .mapping) ∧
      OnlyChanges [.basin, .flash, .save, .ledger, .bus] s t) ∧
  (∀ (s : State) (b : Bucket), bucketAt s s.save.bucket = some b → passBusy s b = true → exec .bucketDone s = .next s)

/-- ROOTS_SAVED and SAVED (R46, R144, R147, R148, R149, R192, R322, R440): the mapping table and the roots, with the fence's
epochs, the cursor, the checkpoint and the dirty log's position, go into the image, the ledger and the root area; every
active channel enters self-refresh; SAVED then commits the cursor, the milliseconds since the fence and the halvings, closes
0x2042 and writes the gauge record. While a channel is in block reset ROOTS_SAVED waits (R196). -/
def SaveEndsWithRootsAndSaved : Prop :=
  (∀ (s : State) (im : BasinImage),
    crewsSave s .mapping = true ∨ crewsSave s .residue = true ∧ s.save.stopped = true → s.basin.image = some im →
    anyReset s = false → s.ledger.failed = false → Calm s →
    Gives .rootsSaved s (Noticed { s with
      basin := { s.basin with image := some { im with
        mapping := some s.lake.mapping, mappingWhole := !anyIsolated s, roots := some (rootsNow s)
        headers := (goodDies s).take 2, metaTweaks := metaTweaksOf s.save.gen 5 } }
      dram := { s.dram with channels := s.dram.channels.map fun c =>
        if c.state = .active then { c with state := .selfRefresh } else c }
      save := { s.save with phase := .mapping }
      ledger := { s.ledger with
        roots := some (rootsNow s), rootArea := some (rootsNow s), ring := (rootWrite 1 s.save.gen none [] s).ledger.ring
        commits := { time := s.tb.now, commit := .rootsSaved s.save.gen (Config.savePlace s.save.gen 4) } ::
          s.ledger.commits } }) ∧
    (rootsNow s).epoch = s.host.epoch ∧ (rootsNow s).settled = s.host.settled ∧ (rootsNow s).target = s.host.target ∧
    (rootsNow s).cursor = s.save.cursor ∧ (rootsNow s).gen = s.save.gen ∧ (rootsNow s).logPos = s.log.pos ∧
    (rootsNow s).checkpoint = s.lake.checkpointSeq) ∧
  (∀ s : State, crewsSave s .mapping = true → rootsWritten s = true → s.ledger.failed = false → Calm s →
    Gives .saved s fun t =>
      t.ledger = { s.ledger with commits :=
        { time := s.tb.now
          commit := .saved s.save.gen s.save.cursor ((s.tb.now - s.save.fenceTime) / 1000000) s.save.halvings } ::
          s.ledger.commits } ∧
      t.save.phase = .saved ∧ t.save.last.present = true ∧ t.save.last.gen = s.save.gen ∧
      t.save.last.outcome = s.save.outcome ∧ t.save.last.written = s.save.written ∧
      (t.bat.slot0.isSome = true ∨ t.bat.slot1.isSome = true) ∧
      OnlyChanges [.save, .ledger, .bat, .free, .wl, .cxl, .host, .out, .bus] s t) ∧
  (∀ s : State, anyReset s = true → exec .rootsSaved s = .next s)

/-! ## The save: limits, last gasp, power-down -/

/-- One halving of the programming dies (R142): half of them, rounded up, never below 8; counted, timed and recorded. -/
def Halved (s t : State) : Prop :=
  Reported { s with save := { s.save with
    dies := max 8 ((s.save.dies + 1) / 2), halvings := satInc 0xF s.save.halvings, lastHalving := some s.tb.now } } t

/-- SAVE_TIME_LIMIT, SAG_DETECT and HALVING_HOLD_OFF_END (R142, R143): residue writing stops at the time limit with outcome
1, and the save's programs not yet started go; a sag of every counted string halves the dies, again only 5 ms after the last
halving and never below 8; at the end of the hold-off the sag, or 115 °C (R151), halves them again. -/
def SaveLimitsHalveAndStop : Prop :=
  (∀ s : State, inPhase s .residue = true → s.save.stopped = false →
    exec .saveTimeLimit s = .next { s with
      save := { s.save with stopped := true, outcome := 1 }
      flash := { s.flash with channels := s.flash.channels.map fun c =>
        { c with jobs := c.jobs.filter fun j => j.started || !saveJob j } } }) ∧
  (∀ s : State, inPhase s .residue = false ∨ s.save.stopped = true → exec .saveTimeLimit s = .next s) ∧
  (∀ (s : State) (a b : Bool), onBattery s = true → noString s = false → everyString s a b = true → Calm s →
    (8 < s.save.dies → (∀ n, s.save.lastHalving = some n → n + 5000000 ≤ s.tb.now) →
      Gives (.sagDetect a b) s (Halved s)) ∧
    (s.save.dies ≤ 8 ∨ (∃ n, s.save.lastHalving = some n ∧ s.tb.now < n + 5000000) →
      Gives (.sagDetect a b) s (Noticed s))) ∧
  (∀ (s : State) (n : Nat), saving s = true → s.save.battery = true ∨ 115 ≤ s.cxl.tempC → 8 < s.save.dies →
    s.save.lastHalving = some n → n + 5000000 ≤ s.tb.now → Calm s → Gives (.halvingHoldOffEnd true) s (Halved s)) ∧
  (∀ s : State, exec (.halvingHoldOffEnd false) s = .next s)

/-- What the last gasp with outcome `code` leaves (R150, R158): LAST_GASP committed with the cursor and the epochs, the
dirty-log tail sealed, every rail disabled, BATSW_N deasserted, the sequencer in DARK without the latch, and the flash as it
stood. -/
def GaspLeaves (code : Nat) (s t : State) : Prop :=
  (∃ g, t.ledger.commits =
      { time := s.tb.now
        commit := .lastGasp g s.save.cursor code s.save.mapSaved
          { epoch := s.host.epoch, settled := s.host.settled, target := s.host.target } } :: s.ledger.commits) ∧
    t.log.sealed' = true ∧ t.log.tail = s.log.tail ∧ t.save.last.outcome = code ∧ t.save.running = false ∧
    t.seq.st = .dark ∧ (∀ n, n < 16 → (railAt t n).en = false) ∧ t.seq.batsw = false ∧ t.seq.mrst = true ∧
    t.seq.frst = true ∧ t.seq.latched = s.seq.latched ∧
    t.basin.image = s.basin.image.map (fun im => { im with held := [] }) ∧ t.lake.units = s.lake.units ∧
    t.tb = s.tb ∧ t.cfg = s.cfg ∧ t.pending = s.pending

/-- SAVE_CUTOFF (R142), CREWS_SILENT_TIMEOUT (R150), EMPTY_SET_SAVE_TIMEOUT (R249) and ROOTS_UNLOCKED_TIMEOUT (R26): each
runs the last gasp of a save in progress, with outcome 3, 6, 6 and 5. -/
def LastGaspCommitsAndCuts : Prop :=
  ∀ s : State, saving s = true → inWindow s = false → s.ledger.failed = false → s.log.overflow = false →
    (∀ a b forOneMs, onBattery s = true → noString s = true ∨ everyString s a b = true ∧
        (forOneMs = true ∨ s.save.dies ≤ 8) → Gives (.saveCutoff a b forOneMs) s (GaspLeaves 3 s)) ∧
    (awaitsCrews s = true → frozen s = false → Gives .crewsSilentTimeout s (GaspLeaves 6 s)) ∧
    (s.save.waitMember = true → Gives .emptySetSaveTimeout s (GaspLeaves 6 s)) ∧
    (s.clk.rootsStarted = true → rootsRun s = false → Gives .rootsUnlockedTimeout s (GaspLeaves 5 s))

/-- SAVE_RELEASE, POWER_DOWN_COMMAND and LEDGER_HOLD_TIMEOUT (R135, R149, R284, R394): the release needs SAVED; the command
then takes the sequencer down, to DARK from battery and to AUX with HOLD_AUX from main power; the held rail goes at its
bound. -/
def PowerDownFollowsRelease : Prop :=
  (∀ s : State, frozen s = false → s.save.phase = .saved →
    exec .saveRelease s = .next { s with save := { s.save with released := true } }) ∧
  (∀ s : State, frozen s = false → s.save.phase ≠ .saved → exec .saveRelease s = .next s) ∧
  (∀ s : State, frozen s = false → saving s = true → s.save.released = true → s.save.phase = .saved →
    s.seq.dir ≠ .down → s.seq.onPending = false → allFallen s = false → Calm s →
    Gives .powerDownCommand s fun t => t.save = { s.save with phase := .powerDown } ∧ t.seq.dir = .down ∧
      t.seq.st = s.seq.st ∧ t.seq.target = (if s.save.battery then .dark else .aux) ∧
      t.seq.holdAux = (s.seq.holdAux || !s.save.battery) ∧ t.seq.complete = false ∧
      OnlyChanges [.save, .seq, .host, .flash, .upd, .bus] s t) ∧
  (∀ s : State, frozen s = false → saving s = true → s.save.released = false → Calm s →
    Gives .powerDownCommand s (Noticed s)) ∧
  (∀ (s : State) (n : Nat), s.seq.ledgerHold = true → holdRail s = some n →
    Gives .ledgerHoldTimeout s fun t => (railAt t n).en = false ∧ n ∉ t.seq.enabled ∧ t.seq.ledgerHold = false ∧
      t.seq.dir = .steady ∧ (∀ k, k ≠ n → railAt t k = railAt s k) ∧ OnlyChanges [.seq] s t)

/-- What starts a save, and what a later trigger does (R32, R132 to R138). -/
def Obligations.TriggersStartOneSave : Prop :=
  TriggerStartsSave ∧ SecondTriggerStartsNothing

/-- A save from the fence to the end of the residue (R138, R140, R141, R144, R146, R147, R150). -/
def Obligations.SaveGoesThroughItsPhases : Prop :=
  SaveDrainEmptiesBuffer ∧ SaveCommitsStartAndMap ∧ SaveWritesResidueInPasses

/-- The end of a save, and the limits that halve or stop its residue writing (R142 to R144, R147 to R149). -/
def Obligations.SaveEndsOrIsCutShort : Prop :=
  SaveEndsWithRootsAndSaved ∧ SaveLimitsHalveAndStop

/-- The last gasp, and the power-down after a release (R26, R135, R142, R149, R150, R249, R284). -/
def Obligations.PowerIsGivenUp : Prop :=
  LastGaspCommitsAndCuts ∧ PowerDownFollowsRelease


/-! ## The restore -/

/-- RESTORE_BEGIN (R159, R160, R161, R176, R197): with the ledger usable and at most one channel out, the restore takes the
newest generation that a SAVED, LAST_GASP or RESTORE_INTERRUPTED names, one attempt more than its RESTORE_STARTED commits so
far; otherwise the restore fails and the Dirty Shutdown Count rises. -/
def RestoreBeginsOrFails : Prop :=
  ∀ (s : State) (tailOk : Bool), canBegin s = true → Calm s →
    ((found s tailOk).fails = false → channelsOut s < 2 →
      Gives (.restoreBegin tailOk) s fun t =>
        t.rst.phase = .roots ∧ t.rst.begun = true ∧ t.rst.gen = newestGen (allCommits s) ∧
        t.rst.attempt = earlierAttempts s (newestGen (allCommits s)) + 1 ∧ t.rst.source = (found s tailOk).source ∧
        t.rst.prev = (found s tailOk).prev ∧ (t.rst.modeEarly = true ↔ s.od.set.restoreMode = 1) ∧
        t.rst.ready = s.rst.ready ∧ t.boot = { s.boot with stage := 4 } ∧
        OnlyChanges [.rst, .boot, .host, .out, .bus] s t) ∧
    ((found s tailOk).fails = true ∨ 2 ≤ channelsOut s →
      Gives (.restoreBegin tailOk) s fun t => t.rst.phase = .failed ∧ t.rst.ready = s.rst.ready ∧ t.rst.prev = 7 ∧
        t.cxl.dirtyShutdowns = s.cxl.dirtyShutdowns + 1 ∧ t.lake = s.lake ∧ t.basin = s.basin ∧
        OnlyChanges [.rst, .clk, .free, .wl, .cxl, .host, .out, .bus] s t)

/-- RESTORE_STARTED and RESTORE_METADATA_LOADED (R104, R159 to R162, R179): the commit names the generation, the mode and the
attempt; the metadata give the mapping table, and a saved map that cannot be read leaves the dirty log as the source; without
the roots or the save's commits the restore fails. -/
def RestoreLoadsMetadata : Prop :=
  (∀ s : State, s.rst.phase = .roots → frozen s = false → s.ledger.failed = false → Calm s →
    Gives .restoreStarted s (Reported { s with
      rst := { s.rst with phase := .metadata }
      ledger := { s.ledger with commits :=
        { time := s.tb.now, commit := .restoreStarted s.rst.gen s.rst.modeEarly s.rst.attempt s.rst.prev } ::
          s.ledger.commits } })) ∧
  (∀ (s : State) (m : MetaIn), s.rst.phase = .metadata → frozen s = false → Calm s →
    (s.rst.source ≠ 2 ∨ s.basin.image ≠ none ∧ (if s.rst.roots then m.rootsOk else m.saveCommitsOk) = true →
      Gives (.restoreMetadataLoaded m) s (Noticed { s with
        lake := { s.lake with mapping := restoredMapping s m.mappingOk
                              changed := changedSince (inForce s) (restoredMapping s m.mappingOk) }
        rst := { s.rst with
          phase := .conversion
          source := if s.rst.source = 2 && !(m.mapOk && (s.basin.image.map (·.mapWhole)).getD true) then 4
            else s.rst.source } })) ∧
    (s.rst.source = 2 → s.basin.image = none ∨ (if s.rst.roots then m.rootsOk else m.saveCommitsOk) = false →
      Gives (.restoreMetadataLoaded m) s fun t => t.rst.phase = .failed ∧
        t.cxl.dirtyShutdowns = s.cxl.dirtyShutdowns + 1 ∧ t.lake = s.lake ∧ t.basin = s.basin))

/-- CONVERSION_DONE (R80, R163, R164): from a saved map, a page that R144 selects is DIRTY in the slot of its pass when it
lies before the cursor and LOST beyond it, or where an isolated channel dropped a write of it, a page saved as LOST stays so,
and every other is CLEAN; without an image all are CLEAN. The residue is 4 KiB for every DIRTY page, the epochs are those of
the fence, and no drain is open. -/
def Obligations.ConversionRebuildsMap : Prop :=
  (∀ (s : State) (im : BasinImage), s.rst.phase = .conversion → frozen s = false → s.rst.source = 2 →
    s.rst.again = false → outChannel s = none → s.basin.image = some im → tabWf {} im.map = true → Calm s →
    Gives .conversionDone s fun t =>
      (∀ p sl, passSlot im.map im.drains p = some sl →
        (beforeCursor (endCursor s) (seqOfSlot im.buckets sl) p = true → p ∉ im.dropped →
          pageEntry t p = { state := .dirty, bucket := sl, hot := coldTick s }) ∧
        (beforeCursor (endCursor s) (seqOfSlot im.buckets sl) p = false ∨ p ∈ im.dropped →
          pageState t p = .lost ∧ t.host.elost ≤ imageEpoch im sl)) ∧
      (∀ p, passSlot im.map im.drains p = none →
        pageState t p = (if (tabGet {} p im.map).state = .lost then .lost else .clean)) ∧
      t.pm.drains = [] ∧ t.pm.residue = 4096 * residuePages t ∧ t.host.epoch = (epochsFound s).1 ∧
      t.host.settled = (epochsFound s).2 ∧ t.rst.phase = .fill ∧
      OnlyChanges [.host, .pm, .lake, .ledger, .dram, .cxl, .rst, .weir, .free, .wl, .out, .bus] s t) ∧
  (∀ s : State, s.rst.phase = .conversion → frozen s = false → s.rst.source = 0 → s.rst.again = false →
    outChannel s = none → Calm s →
    Gives .conversionDone s fun t => t.pm.pages = [] ∧ t.pm.residue = 0 ∧ t.host.epoch = 0 ∧ t.host.settled = 0 ∧
      t.host.elost = 2 ^ 64 - 1 ∧ t.rst.phase = .fill)

/-- EARLY_OPEN_POINT and MEMORY_READY (R51, R167, R179): the point is reported in every restore, each residue page not
restored yet then holding the address of its Basin unit in its first 8 bytes; memory becomes ready at it only in the
early-open mode, and MEMORY_READY is committed once it has. -/
def EarlyOpenMakesMemoryReady : Prop :=
  (∀ s : State, filling s = true → s.rst.point = false → frozen s = false → onlineDone s = true → s.rst.ready = false →
    Calm s →
    Gives .earlyOpenPoint s fun t => t.rst.point = true ∧ t.rst.ready = s.rst.modeEarly ∧
      t.rst.early = (s.rst.modeEarly || s.rst.early) ∧ t.rst.phase = s.rst.phase ∧ t.dram.poison = s.dram.poison ∧
      (∀ p ∈ s.rst.basinPages, ∀ u, pageRestored s p = false → basinUnit s p = some u →
        leNat (readBytes t (p * 4096) 8) = u.seq % 2 ^ 64) ∧
      OnlyChanges [.dram, .rst, .boot, .host, .out, .bus] s t) ∧
  (∀ s : State, inWindow s = true → s.rst.early = true → readyCommitted (allCommits s) = false → frozen s = false →
    s.ledger.failed = false → Calm s →
    Gives .memoryReady s (Reported { s with ledger := { s.ledger with commits :=
      { time := s.tb.now, commit := .memoryReady s.rst.gen s.log.pos } :: s.ledger.commits } }))

/-- Every unit of the Lakebed and of the image holds its cells in order, inside 4 KiB. -/
def UnitsFit (s : State) : Prop :=
  (∀ u ∈ s.lake.units, tabWf unlisted u.2.cells = true ∧ ∀ c ∈ u.2.cells, c.1 < 4096) ∧
    (∀ im, s.basin.image = some im → ∀ u ∈ im.units, tabWf unlisted u.2.cells = true ∧ ∀ c ∈ u.2.cells, c.1 < 4096)

/-- The cells and the poison markers of unit `u` stand in DRAM at page `p`. -/
def PageLoaded (t : State) (p : Nat) (u : FlashUnit) : Prop :=
  (∀ c ∈ u.cells, readByte t (p * 4096 + c.1) = c.2) ∧ (∀ l ∈ u.poison, linePoison t (p * 64 + l) = true)

/-- The parts that writing restored pages moves. -/
def fillParts : List Part := [.dram, .pm, .lake, .flash, .ledger, .rst, .free, .wl, .cxl, .host, .out, .bus]

/-- LAKEBED_FILL_DONE and BASIN_OVERLAY_DONE (R165, R173, R176): every page not restored yet whose unit decodes holds its
unit's bytes and poison markers, and one whose unit fails is LOST; a line that DRAM could not take is poisoned, and its page
is not LOST. Where units fail, their die-blocks are retired (R218). Then the overlay, and after it the compaction of the dirty
log, are next. -/
def FillLoadsUnits : Prop :=
  (∀ (s : State) (failed : List Nat), s.rst.phase = .fill → frozen s = false → UnitsFit s → Calm s →
    Gives (.lakebedFillDone ⟨failed, []⟩) s fun t =>
      (∀ x ∈ s.lake.mapping, ∀ u, pageState s x.1 = .clean → pageRestored s x.1 = false → x.1 ∉ s.rst.basinPages →
        x.1 ∉ failed → sourceUnit s x.1 = some (some u) → PageLoaded t x.1 u) ∧
      (∀ x ∈ s.lake.mapping, x.1 ∈ failed → pageState s x.1 = .clean → pageRestored s x.1 = false →
        x.1 ∉ s.rst.basinPages → pageState t x.1 = .lost) ∧
      t.rst.phase = .overlay ∧ t.rst.fillDone = true ∧ t.lake.mapping = s.lake.mapping ∧ t.lake.units = s.lake.units ∧
      t.flash.wear = s.flash.wear ∧ OnlyChanges fillParts s t) ∧
  (∀ (s : State) (line : Nat) (syn : BitVec 16), s.rst.phase = .fill → frozen s = false → UnitsFit s → Calm s →
    visiblePage s (pageOf line) = true → pageRestored s (pageOf line) = false → pageOf line ∉ s.rst.basinPages →
    pageState s (pageOf line) = .clean → sourceUnit s (pageOf line) ≠ some none →
    (capture s (cellOf s line)).sticky = false → s.od.set.graceMs ≠ 0 →
    Gives (.lakebedFillDone ⟨[], [(line, .uncorrectable syn)]⟩) s fun t => linePoison t line = true ∧ pageState t (pageOf line) = .clean ∧
      t.rst.phase = .overlay) ∧
  (∀ (s : State) (failed : List Nat), s.rst.phase = .overlay → frozen s = false → UnitsFit s →
    s.rst.basinPages.Nodup → s.log.spill.length + s.lake.mapping.length ≤ spillEntries → Calm s →
    Gives (.basinOverlayDone ⟨failed, []⟩) s fun t =>
      (∀ p ∈ s.rst.basinPages, ∀ u, pageState s p ≠ .lost → pageRestored s p = false → p ∉ failed →
        sourceUnit s p = some (some u) → PageLoaded t p u) ∧
      (∀ p ∈ s.rst.basinPages, p ∈ failed → sourceUnit s p ≠ none → pageRestored s p = false → pageState t p = .lost) ∧
      t.rst.phase = .compaction ∧ t.rst.allDone = true ∧ t.log.compacting = some s.log.area.length ∧
      OnlyChanges (.log :: .basin :: .weir :: .save :: fillParts) s t)

/-- DEMAND_FETCH_DONE (R168, R169, R176): the fetched page holds its unit, its RESTORED bit is set, no fetch of it is
outstanding, and the fetch is counted with its time; a page whose unit fails is LOST for its media, where no write of it
waits; a fetch that is not outstanding moves nothing. -/
def DemandFetchRestoresPage : Prop :=
  (∀ (s : State) (page us : Nat) (ok : Bool) (lines : List (Nat × DramRead)), s.rst.fetching.contains page = false →
    exec (.demandFetchDone page ⟨ok, lines⟩ us) s = .next s) ∧
  (∀ (s : State) (page us : Nat) (ok : Bool), s.rst.fetching.contains page = true → frozen s = false →
    inBlockReset s page = false → pageState s page ≠ .lost → pageRestored s page = false →
    (∀ e ∈ s.wb.entries, pageOf e.line = page → e.phase = .admitted) →
    sourceUnit s page = some none ∨ ok = false ∧ sourceUnit s page ≠ none →
    s.log.spill.length + s.lake.mapping.length ≤ spillEntries → Calm s →
    Gives (.demandFetchDone page ⟨ok, []⟩ us) s fun t => pageState t page = .lost ∧ tabGet .cursor page t.pm.reasons = .media ∧
      page ∈ t.rst.restoredSet ∧ page ∉ t.rst.fetching ∧ t.rst.mediaLoss = true ∧
      t.rst.last.media = s.rst.last.media + 1 ∧ t.rst.last.fetches = s.rst.last.fetches + 1 ∧
      (∀ p, p ≠ page → page ∉ s.rst.basinPages ∨ tabFind p s.lake.mapping = none → pageEntry t p = pageEntry s p)) ∧
  ∀ (s : State) (page us : Nat) (u : FlashUnit), s.rst.fetching.contains page = true → frozen s = false →
    inBlockReset s page = false → sourceUnit s page = some (some u) → pageState s page ≠ .lost →
    pageRestored s page = false → tabWf unlisted u.cells = true → (∀ c ∈ u.cells, c.1 < 4096) →
    s.log.spill.length + s.wb.entries.length ≤ spillEntries → Calm s →
    Gives (.demandFetchDone page ⟨true, []⟩ us) s fun t => PageLoaded t page u ∧ page ∈ t.rst.restoredSet ∧
      page ∉ t.rst.fetching ∧ t.rst.last.fetches = s.rst.last.fetches + 1 ∧
      t.rst.last.longest = max s.rst.last.longest us ∧
      OnlyChanges [.dram, .rst, .flash, .wb, .pm, .lake, .log, .ledger, .weir, .free, .wl, .cxl, .host, .out, .bus] s t

/-- RESTORED, BASIN_ERASED and RESTORE_INTERRUPTED (R160, R173 to R175, R179, R442): RESTORED is committed with E_lost and
the counts of lost pages, the image is consumed, memory is ready and no failed boot is counted; a restore that marked a page
LOST raises the Dirty Shutdown Count (R56), and with no mapped page on a retired die no page changes; BASIN_ERASED ends the re-erase; a last gasp in the window commits
RESTORE_INTERRUPTED with the window's pages and cuts the rails. -/
def RestoreEndsWithRestored : Prop :=
  (∀ s : State, s.rst.phase = .compaction → s.log.compacting = none → s.host.fence = false → frozen s = false →
    anyMember s = true → onlineDone s = true → s.ledger.failed = false → s.seq.shutdown ≠ .waiting →
    (∀ x ∈ s.lake.mapping, ∀ d, dieOfUnit s x.2.1 x.2.2 = some d → (dieAt s d).retired = false) → Calm s →
    Gives .restored s fun t =>
      t.ledger = { s.ledger with commits :=
        { time := s.tb.now
          commit := .restored s.rst.gen s.host.elost (lostCount s false) (lostCount s true) s.log.pos } ::
          s.ledger.commits } ∧
      t.rst.phase = .restored ∧ t.rst.committed = true ∧ t.rst.ready = true ∧ t.basin.image = none ∧
      t.basin.reErase = true ∧ t.basin.counted = true ∧ t.boot.failedBoots = 0 ∧ t.log = { s.log with window := [], sealed' := false } ∧
      t.pm.pages = s.pm.pages ∧ t.pm.residue = s.pm.residue ∧
      t.cxl.dirtyShutdowns = s.cxl.dirtyShutdowns + (if s.rst.marked = 0 then 0 else 1) ∧
      OnlyChanges [.ledger, .rst, .basin, .boot, .log, .pm, .lake, .clk, .upd, .free, .wl, .cxl, .host, .out, .bus] s t) ∧
  (∀ s : State, s.rst.phase = .restored → basinToErase s = 0 → s.host.fence = false → frozen s = false →
    s.ledger.failed = false → Calm s →
    Gives .basinErased s fun t =>
      t.ledger = { s.ledger with commits :=
        { time := s.tb.now, commit := .basinErased s.rst.gen (basinErased s) } :: s.ledger.commits } ∧
      t.rst = { s.rst with phase := .erased } ∧ t.basin = { s.basin with reErase := false } ∧
      t.pm.pages = s.pm.pages ∧ t.pm.residue = s.pm.residue ∧ OnlyChanges [.ledger, .rst, .basin, .pm, .lake, .bus] s t) ∧
  (∀ s : State, inWindow s = true → s.save.phase = .lastGasp → s.host.fence = true → s.ledger.failed = false →
    s.log.overflow = false →
    Gives .restoreInterrupted s fun t =>
      t.ledger.commits =
        { time := s.tb.now
          commit := .restoreInterrupted s.rst.gen s.host.epoch (s.log.window.map (·.1)) s.log.pos } :: s.ledger.commits ∧
      t.log.sealed' = true ∧ t.log.tail = s.log.tail ∧ t.basin.image = s.basin.image.map (fun im => { im with held := [] }) ∧ t.seq.st = .dark ∧
      (∀ n, n < 16 → (railAt t n).en = false) ∧ t.tb = s.tb)

/-- A restore from its begin to its metadata (R104, R159 to R162, R176, R179, R197). -/
def Obligations.RestoreFindsItsSave : Prop :=
  RestoreBeginsOrFails ∧ RestoreLoadsMetadata

/-- When memory becomes ready, and how a restore ends (R51, R160, R167, R173 to R175, R179). -/
def Obligations.RestoreOpensMemory : Prop :=
  EarlyOpenMakesMemoryReady ∧ RestoreEndsWithRestored

/-- How pages return to DRAM (R165, R168, R169, R173). -/
def Obligations.RestoreLoadsPages : Prop :=
  FillLoadsUnits ∧ DemandFetchRestoresPage


/-! ## DRAM channels -/

/-- The cell 0, cell 1 or oar of DDR channel `ch` can be charged: the variant has the channel (R13). -/
def HasChannel (s : State) (ch : Fin 8) : Prop := ch.val < s.cfg.dramChannels

/-- A reset of channel `ch` can start: it is active, fewer than three resets lie within 10 s, no freeze, no capture held at
`m`, the unit that the fault is charged to (R194, R195). -/
def ResetStarts (s : State) (ch : Fin 8) (m : MasterId) : Prop :=
  HasChannel s ch ∧ (chAt s ch.val).state = .active ∧ (recent s (chAt s ch.val).resetTimes).length < 3 ∧
    frozen s = false ∧ (capture s m).sticky = false ∧ Calm s

/-- What the start of a block reset leaves (R194, R256, R268): an F capture at `m`, channel `ch` in reset with its oar
unloaded, the reset counted and shadowed; every byte of DRAM, every other channel and every buffered write as they were. -/
def ResetStarted (s : State) (ch : Fin 8) (m : MasterId) (key : BitVec 8) (t : State) : Prop :=
  Captured s t m .f key m ∧ (chAt t ch.val).state = .blockReset ∧ (chAt t ch.val).oarSlot = none ∧
    (chAt t ch.val).resets = satInc 0xFF (chAt s ch.val).resets ∧ (∀ n, n ≠ ch.val → chAt t n = chAt s n) ∧
    t.dram.bytes = s.dram.bytes ∧ t.dram.poison = s.dram.poison ∧
    (∃ x ∈ t.fault.shadows, x.unit = ddrId ch.val 0 ∧ x.done = false) ∧ t.fault.chipFatal = s.fault.chipFatal ∧
    OnlyChanges [.dram, .fault, .free, .wl, .cxl, .host, .out, .bus] s t

/-- BLOCK_RESET and DDR_ALERT (R186, R194, R256, R259): a fault of the oar is charged to it with KEY 0 or 1, a fault of the
channel to cell 0 with KEY 0xFF; the fourth write CRC failure to the cell of the device that reported it, with the device as
KEY. Up to three failures are only reissued. -/
def BlockResetStartsOnFault : Prop :=
  (∀ (s : State) (ch : Fin 8),
    (ResetStarts s ch (ddrId ch.val 2) → Gives (.blockReset ch .oarWatchdog) s (ResetStarted s ch (ddrId ch.val 2) 0)) ∧
    (ResetStarts s ch (ddrId ch.val 2) → Gives (.blockReset ch .oarSram) s (ResetStarted s ch (ddrId ch.val 2) 1)) ∧
    (∀ cause, cause ≠ .oarWatchdog → cause ≠ .oarSram → ResetStarts s ch (ddrId ch.val 0) →
      Gives (.blockReset ch cause) s (ResetStarted s ch (ddrId ch.val 0) 0xFF))) ∧
  (∀ (s : State) (ch : Fin 8) (sub : Fin 2) (n : Nat), 4 ≤ n →
    (ResetStarts s ch (ddrId ch.val 0) →
      Gives (.ddrAlert ch sub .parity n) s (ResetStarted s ch (ddrId ch.val 0) 0xFF)) ∧
    (∀ dev : Fin 10, ResetStarts s ch (ddrId ch.val sub.val) →
      Gives (.ddrAlert ch sub (.writeCrc dev) n) s
        (ResetStarted s ch (ddrId ch.val sub.val) (BitVec.ofNat 8 dev.val)))) ∧
  (∀ (s : State) (ch : Fin 8) (sub : Fin 2) (kind : AlertKind) (n : Nat), n < 4 →
    exec (.ddrAlert ch sub kind n) s = .next s)

/-- DRAM_OAR_RELOAD and BLOCK_RESET_DONE (R21, R23, R194, R268): the oar takes its microcode from the active image and its
windows from its coxswain; within 250 µs the channel is active again, one refresh issued, every write of the channel that was
admitted or waited for the reset is applied and out of the buffer, and the reset's shadow is done. -/
def BlockResetReplaysWrites : Prop :=
  (∀ (s : State) (crew : Crew) (ch : Fin 8), frozen s = false → channelLive s ch.val = true →
    exec (.dramOarReload crew ch) s = .next (onCh ch.val (fun c =>
      { c with oarSlot := some s.upd.active, windows := dramWindows ch.val }) s)) ∧
  (∀ (s : State) (ch : Fin 8) (us : Nat), (chAt s ch.val).state = .blockReset → us ≤ 250 → frozen s = false →
    s.frz.waiting = false → (∀ e ∈ s.wb.entries, e.phase ≠ .mapWait) → (∀ r ∈ s.wb.reads, r.why ≠ .repair) → Calm s →
    Gives (.blockResetDone ch us true) s fun t => (chAt t ch.val).state = .active ∧
      (chAt t ch.val).lastReset = min 255 us ∧ (chAt t ch.val).refreshes = (chAt s ch.val).refreshes + 1 ∧
      (chAt t ch.val).oarSlot.isSome = true ∧ (∀ n, n ≠ ch.val → chAt t n = chAt s n) ∧
      (∀ e, e ∈ t.wb.entries → channelOfPage s (pageOf e.line) = ch.val →
        e ∈ s.wb.entries ∧ e.phase ≠ .admitted ∧ e.phase ≠ .inReset) ∧
      (∀ e ∈ s.wb.entries, channelOfPage s (pageOf e.line) ≠ ch.val → e ∈ t.wb.entries) ∧
      (∀ x ∈ t.fault.shadows, x.unit = ddrId ch.val 0 → x.done = true) ∧
      OnlyChanges [.dram, .wb, .fault, .cxl, .out, .bus] s t)

/-- What the isolation of channel `ch` leaves on a running device (R195, R266): a chip fatal of kind 1 with cause `cause`, and
the save it starts; no byte of DRAM and no page changed. -/
def Isolates (s t : State) (ch : Fin 8) (cause : BitVec 32) : Prop :=
  (chAt t ch.val).state = .isolated ∧ t.fault.chipFatal = true ∧ t.fault.fatalKind = 1 ∧ t.fault.fatalCause = cause ∧
    t.save.phase = .fenced ∧ t.save.running = true ∧ t.save.trigger = some .chipFatal ∧ t.host.fence = true ∧
    t.dram.bytes = s.dram.bytes ∧ t.pm.pages = s.pm.pages

/-- BLOCK_RESET_DONE past a bound, a fourth BLOCK_RESET within 10 s, and CHANNEL_ISOLATED (R195, R266): on a running device
the channel is isolated, which is a chip fatal of kind 1 whose cause is the reset's capture, and a save begins; the ledger
names the channel once. -/
def IsolationIsChipFatal : Prop :=
  (∀ (s : State) (ch : Fin 8) (us : Nat) (ok : Bool), SaveReady s → s.fault.chipFatal = false →
    (chAt s ch.val).state = .blockReset → ok = false ∨ 250 < us →
    Gives (.blockResetDone ch us ok) s fun t => Isolates s t ch (chAt s ch.val).resetParent) ∧
  (∀ (s : State) (ch : Fin 8), SaveReady s → s.fault.chipFatal = false → HasChannel s ch →
    (chAt s ch.val).state = .active → 3 ≤ (recent s (chAt s ch.val).resetTimes).length →
    (capture s (ddrId ch.val 0)).sticky = false →
    Gives (.blockReset ch .phyLock) s fun t =>
      Captured s t (ddrId ch.val 0) .f 0xFF (ddrId ch.val 0) ∧ ∃ cause, Isolates s t ch cause) ∧
  (∀ (s : State) (ch : Fin 8), ((chAt s ch.val).state = .isolated ∨ (chAt s ch.val).out = true) →
    (chAt s ch.val).named = false → s.ledger.failed = false → Calm s →
    Gives (.channelIsolated ch) s (Noticed { (onCh ch.val (fun c => { c with named := true }) s) with
      ledger := { s.ledger with commits :=
        { time := s.tb.now, commit := .channelIsolated ch.val } :: s.ledger.commits } })) ∧
  (∀ (s : State) (ch : Fin 8), (chAt s ch.val).named = true → exec (.channelIsolated ch) s = .next s)

/-- LAKEBED_REPAIR_DONE and REPAIR_READ_TIMEOUT (R187, R200): an uncorrectable line of a CLEAN page is rewritten from its unit
without poison and counts as a correctable error with KEY 0xFE; the reads that waited for it are answered. A repair that fails
leaves the marker and a U capture with KEY 0xFE; data that comes when the page is CLEAN no longer is discarded. A read that has
waited its time returns poison, and the others wait on. -/
def RepairRewritesLine : Prop :=
  (∀ (s : State) (line : Nat) (u : FlashUnit), frozen s = false → inBlockReset s (pageOf line) = false →
    repairUnit s line = some u → repairable s line = true → linePoison s line = true → setWf s.dram.poison = true →
    u.poison.contains (line % 64) = false → tabWf unlisted s.dram.bytes = true →
    unitExists s (cellOf s line) = true → unitExists s (repairAccess s line).2 = true →
    (capture s (cellOf s line)).sticky = false → Calm s →
    Gives (.lakebedRepairDone line true) s fun t =>
      (∀ k, k < 64 → readByte t (line * 64 + k) = tabGet 0 (line % 64 * 64 + k) u.cells) ∧
      (∀ a, a < line * 64 ∨ line * 64 + 64 ≤ a → readByte t a = readByte s a) ∧ linePoison t line = false ∧
      (∀ x, x ≠ line → linePoison t x = linePoison s x) ∧
      (capture t (cellOf s line)).cls = some .c ∧ (capture t (cellOf s line)).key = 0xFE ∧
      (∀ r ∈ t.wb.reads, ¬(r.why = .repair ∧ r.line = line)) ∧ t.wb.entries = s.wb.entries ∧
      OnlyChanges [.dram, .wb, .fault, .free, .wl, .cxl, .host, .out, .bus] s t) ∧
  (∀ (s : State) (line : Nat), frozen s = false → inBlockReset s (pageOf line) = false → linePoison s line = true →
    (unitExists s (cellOf s line) = true → unitExists s (repairAccess s line).2 = true →
      (capture s (cellOf s line)).sticky = false → s.od.set.graceMs ≠ 0 → Calm s →
      Gives (.lakebedRepairDone line false) s fun t =>
        (capture t (cellOf s line)).cls = some .u ∧ (capture t (cellOf s line)).key = 0xFE ∧ linePoison t line = true ∧
        (∀ r ∈ t.wb.reads, ¬(r.why = .repair ∧ r.line = line)) ∧ t.dram.bytes = s.dram.bytes ∧
        OnlyChanges [.dram, .wb, .fault, .free, .wl, .cxl, .host, .out, .bus] s t) ∧
    (repairable s line = false → Calm s →
      Gives (.lakebedRepairDone line true) s fun t =>
        t.dram = s.dram ∧ (∀ r ∈ t.wb.reads, ¬(r.why = .repair ∧ r.line = line)) ∧ t.wb.entries = s.wb.entries ∧
        OnlyChanges [.wb, .out, .bus] s t)) ∧
  (∀ (s : State) (id : Nat) (r : PendingRead), frozen s = false →
    (s.wb.reads.find? fun x => decide (x.why = .repair ∧ x.id = id)) = some r → Calm s →
    Gives (.repairReadTimeout id) s fun t => (∃ d, t.out.resp = .read r.head id d true :: s.out.resp) ∧
      t.wb = { s.wb with reads := s.wb.reads.filter (· ≠ r) } ∧ OnlyChanges [.free, .wb, .out, .bus] s t)

/-- HOST_READ of a line whose decode gives an error, no buffered write covering the line (R184 to R187, R259): a corrected
error is a C capture at the line's cell, with the device as KEY, or a free one where a repeated read gave the data, and the
read is answered as ever; an uncorrectable line takes the marker: where the Lakebed can repair it the read waits for that,
else it is captured as U with KEY 0xFE and the read returns poison. No byte of DRAM changes. -/
def HostReadMeetsErrors : Prop :=
  ∀ (s : State) (head : Fin 2) (hpa id line : Nat), ReadServed s head hpa line → bufferHit s line = false →
    linePoison s line = false → unitExists s (cellOf s line) = true → (capture s (cellOf s line)).sticky = false →
    s.od.set.graceMs ≠ 0 → Calm s →
    (∀ dev : Fin 10, Gives (.hostRead head hpa id (.corrected dev)) s fun t =>
      Captured s t (cellOf s line) .c (BitVec.ofNat 8 dev.val) (headPort head) ∧
      t.out.resp = .read head id (merged s line).1 (merged s line).2 :: s.out.resp ∧
      t.dram.bytes = s.dram.bytes ∧ t.dram.poison = s.dram.poison ∧
      OnlyChanges [.dram, .fault, .free, .wl, .cxl, .host, .out, .bus] s t) ∧
    (Gives (.hostRead head hpa id .repeatOk) s fun t => (∃ key, Captured s t (cellOf s line) .c key (headPort head)) ∧
      t.out.resp = .read head id (merged s line).1 (merged s line).2 :: s.out.resp ∧
      t.dram.bytes = s.dram.bytes ∧ t.dram.poison = s.dram.poison ∧
      OnlyChanges [.dram, .fault, .free, .wl, .cxl, .host, .out, .bus] s t) ∧
    (∀ syn, repairable s line = false → Gives (.hostRead head hpa id (.uncorrectable syn)) s fun t =>
      Captured s t (cellOf s line) .u 0xFE (headPort head) ∧ linePoison t line = true ∧
      (∃ d, t.out.resp = .read head id d true :: s.out.resp) ∧ t.dram.bytes = s.dram.bytes ∧
      OnlyChanges [.dram, .fault, .free, .wl, .cxl, .host, .out, .bus] s t) ∧
    (∀ syn, repairable s line = true → Gives (.hostRead head hpa id (.uncorrectable syn)) s fun t =>
      linePoison t line = true ∧ t.wb = (holdRead head id line .repair s).wb ∧ t.out.resp = s.out.resp ∧
      t.dram.bytes = s.dram.bytes ∧ OnlyChanges [.dram, .wb, .flash, .cxl, .bus] s t)

/-- REFRESH_TICK, ZQ_CALIBRATION, DQS_TRACKING and DRAM_TEMPERATURE_READ (R188, R190): a refresh is issued with those
postponed, or, behind buffered writes of the channel and no more than four times, postponed; the oar's duties keep the time
of their last run, refresh management only while it runs and the devices ask for it; above 85 °C the channel is hot, and
above 95 °C a record is due once an hour. -/
def ChannelDutiesRun : Prop :=
  (∀ (s : State) (ch : Fin 8), (chAt s ch.val).state = .active → frozen s = false →
    Gives (.refreshTick ch) s fun t =>
      (chAt t ch.val = { chAt s ch.val with refreshes := (chAt s ch.val).refreshes + (chAt s ch.val).postponed + 1,
                                            postponed := 0, managed := (chAt s ch.val).managed + managedNow s ch.val } ∨
        burstsOn s ch.val = true ∧ (chAt s ch.val).postponed < 4 ∧
          chAt t ch.val = { chAt s ch.val with postponed := (chAt s ch.val).postponed + 1,
                                               managed := (chAt s ch.val).managed + managedNow s ch.val }) ∧
      (s.cfg.refreshManagement = false ∨ oarRuns s ch.val = false → (chAt t ch.val).managed = (chAt s ch.val).managed) ∧
      (∀ n, n ≠ ch.val → chAt t n = chAt s n) ∧ t.dram.bytes = s.dram.bytes ∧ OnlyChanges [.dram, .free] s t) ∧
  (∀ (s : State) (ch : Fin 8), oarRuns s ch.val = true →
    exec (.zqCalibration ch) s = .next (onCh ch.val (fun c => { c with lastZq := s.tb.now }) s) ∧
    exec (.dqsTracking ch) s = .next (onCh ch.val (fun c => { c with lastDqs := s.tb.now }) s)) ∧
  (∀ (s : State) (ch : Fin 8) (x : Int), oarRuns s ch.val = true → Calm s →
    (x ≤ 95 ∨ hotDue s ch.val = false →
      exec (.dramTemperatureRead ch x) s =
        .next (onCh ch.val (fun c => { c with devTempC := x, hot := decide (85 < x) }) s)) ∧
    (95 < x → hotDue s ch.val = true →
      Gives (.dramTemperatureRead ch x) s
        (Reported (onCh ch.val (fun c => { c with devTempC := x, hot := true, hotRecord := some s.tb.now }) s))))

/-- PATROL_SCRUB (R185 to R187, R191): a line that decodes or carries the marker only moves the scrub's position; a corrected
error is a C capture at the line's cell with the device as KEY, or with a free one where a repeated read gave the data; an
uncorrectable line takes the marker, and where nothing repairs it is captured as U with KEY 0xFE. No byte of DRAM changes. A
line of another channel, or beyond the installed pages, is not read. -/
def ScrubMarksUncorrectableLines : Prop :=
  (∀ (s : State) (ch : Fin 8) (line : Nat) (res : DramRead),
    (oarRuns s ch.val = false ∨ channelOfPage s (pageOf line) ≠ ch.val ∨ s.cfg.installedPages ≤ pageOf line →
      exec (.patrolScrub ch line res) s = .next s) ∧
    (oarRuns s ch.val = true → channelOfPage s (pageOf line) = ch.val → pageOf line < s.cfg.installedPages →
      linePoison s line = true → Calm s →
      Gives (.patrolScrub ch line res) s (Noticed (onCh ch.val (fun c => { c with scrubLine := line }) s)))) ∧
  ∀ (s : State) (ch : Fin 8) (line : Nat), oarRuns s ch.val = true → channelOfPage s (pageOf line) = ch.val →
    pageOf line < s.cfg.installedPages → HasChannel s ch → (capture s (cellOf s line)).sticky = false →
    s.od.set.graceMs ≠ 0 → linePoison s line = false → Calm s →
    Gives (.patrolScrub ch line .ok) s (Noticed (onCh ch.val (fun c => { c with scrubLine := line }) s)) ∧
    (Gives (.patrolScrub ch line .repeatOk) s fun t => ∃ key, Captured s t (cellOf s line) .c key (ddrId ch.val 2) ∧
      (chAt t ch.val).ce = satInc 0xFFFFFF (chAt s ch.val).ce ∧ (chAt t ch.val).scrubLine = line ∧
      t.dram.bytes = s.dram.bytes ∧ t.dram.poison = s.dram.poison ∧
      OnlyChanges [.dram, .fault, .free, .wl, .cxl, .host, .out, .bus] s t) ∧
    (∀ syn, repairable s line = true → Gives (.patrolScrub ch line (.uncorrectable syn)) s fun t =>
      linePoison t line = true ∧ (chAt t ch.val).scrubLine = line ∧ t.dram.bytes = s.dram.bytes ∧
      (∀ x, x ≠ line → linePoison t x = linePoison s x) ∧ OnlyChanges [.dram, .flash, .cxl, .bus] s t) ∧
    (∀ dev : Fin 10, Gives (.patrolScrub ch line (.corrected dev)) s fun t =>
      Captured s t (cellOf s line) .c (BitVec.ofNat 8 dev.val) (ddrId ch.val 2) ∧
      (chAt t ch.val).ce = satInc 0xFFFFFF (chAt s ch.val).ce ∧ (chAt t ch.val).scrubLine = line ∧
      t.dram.bytes = s.dram.bytes ∧ t.dram.poison = s.dram.poison ∧
      OnlyChanges [.dram, .fault, .free, .wl, .cxl, .host, .out, .bus] s t) ∧
    (∀ syn, repairable s line = false → Gives (.patrolScrub ch line (.uncorrectable syn)) s fun t =>
      Captured s t (cellOf s line) .u 0xFE (ddrId ch.val 2) ∧ linePoison t line = true ∧
      (∀ x, x ≠ line → linePoison t x = linePoison s x) ∧
      (chAt t ch.val).ue = satInc 0xFFFF (chAt s ch.val).ue ∧ (chAt t ch.val).scrubLine = line ∧
      t.dram.bytes = s.dram.bytes ∧ OnlyChanges [.dram, .fault, .free, .wl, .cxl, .host, .out, .bus] s t)

/-- TRAINING_DONE (R183, R189, R197): a channel of the declared population that passes is active; after full training, of
whose need a record that fails its CRC is one reason, it has a new record and rejoins if it was named. A failure of stored
values leaves the channel training; a second failure of full training leaves it out. A channel whose devices show another
population never passes (log 75). -/
def TrainingMakesChannelActive : Prop :=
  ∀ (s : State) (ch : Fin 8), (chAt s ch.val).state = .training → frozen s = false → s.ledger.failed = false → Calm s →
    (usesStored s (chAt s ch.val) = true →
      (s.cfg.populationOf ch.val = s.cfg.population →
        exec (.trainingDone ch true true) s = .next (onCh ch.val (fun c =>
          { c with state := .active, training := .stored, oarSlot := some s.upd.active, windows := dramWindows ch.val }) s)) ∧
      (∀ pass, pass = false ∨ s.cfg.populationOf ch.val ≠ s.cfg.population →
        exec (.trainingDone ch true pass) s = .next (onCh ch.val (fun c => { c with training := .failed }) s))) ∧
    ((s.cfg.populationOf ch.val = s.cfg.population →
        Gives (.trainingDone ch false true) s fun t => (chAt t ch.val).state = .active ∧
          (chAt t ch.val).training = .full ∧ (chAt t ch.val).named = false ∧ (chAt t ch.val).recordValid = true ∧
          (chAt t ch.val).recordPop = s.cfg.population ∧ (chAt t ch.val).recordStale = false ∧
          (chAt t ch.val).recordTempC = s.cxl.tempC ∧
          (∀ n, n ≠ ch.val → chAt t n = chAt s n) ∧ OnlyChanges [.dram, .ledger, .bus] s t) ∧
      (∀ pass, pass = false ∨ s.cfg.populationOf ch.val ≠ s.cfg.population →
        ((chAt s ch.val).fullFails = 0 → Gives (.trainingDone ch false pass) s
          (Noticed (onCh ch.val (fun c => { c with fullFails := 1, training := .failed }) s))) ∧
        ((chAt s ch.val).fullFails ≠ 0 → Gives (.trainingDone ch false pass) s
          (Noticed (onCh ch.val (fun c =>
            { c with fullFails := 2, training := .failed, out := true, state := .isolated }) s)))))

/-- A DDR channel that the variant lacks, that is in another state, whose oar does not run or that a freeze stops is left as
it is by the commands of its reset, its training and its duties (R13, R188, R194, R197, R271). -/
def ChannelsLeftAlone : Prop :=
  ∀ (s : State) (ch : Fin 8) (sub : Fin 2) (crew : Crew) (cause : ResetCause) (kind : AlertKind) (n : Nat) (x : Int) (a b : Bool),
    (channelLive s ch.val = false → exec (.blockReset ch cause) s = .next s ∧ exec (.ddrAlert ch sub kind n) s = .next s) ∧
    (frozen s = true ∨ channelLive s ch.val = false → exec (.dramOarReload crew ch) s = .next s) ∧
    ((chAt s ch.val).state ≠ .blockReset → exec (.blockResetDone ch n a) s = .next s) ∧
    ((chAt s ch.val).state ≠ .isolated → (chAt s ch.val).out = false → exec (.channelIsolated ch) s = .next s) ∧
    ((chAt s ch.val).state ≠ .active ∨ frozen s = true → exec (.refreshTick ch) s = .next s) ∧
    (oarRuns s ch.val = false → exec (.zqCalibration ch) s = .next s ∧ exec (.dqsTracking ch) s = .next s ∧
      exec (.dramTemperatureRead ch x) s = .next s) ∧
    ((chAt s ch.val).state ≠ .training ∨ frozen s = true ∨ a = true ∧ usesStored s (chAt s ch.val) = false →
      exec (.trainingDone ch a b) s = .next s) ∧
    (frozen s = true → exec (.lakebedRepairDone n a) s = .next s ∧ exec (.repairReadTimeout n) s = .next s)

/-- The block reset of a DDR channel, from its fault to its end or to isolation (R186, R194, R195, R266, R268). -/
def Obligations.BlockResetsEndOrIsolate : Prop :=
  BlockResetStartsOnFault ∧ BlockResetReplaysWrites ∧ IsolationIsChipFatal

/-- The repair of an uncorrectable line, the patrol scrub, and a host read that meets an error (R184 to R187, R191, R200,
R259). -/
def Obligations.LinesAreRepairedOrMarked : Prop :=
  RepairRewritesLine ∧ ScrubMarksUncorrectableLines ∧ HostReadMeetsErrors

/-- What a DDR channel does on its own, its training, and when its commands leave it as it is (R13, R188 to R190, R194, R197,
R271). -/
def Obligations.ChannelsTrainAndKeepTheirDuties : Prop :=
  ChannelDutiesRun ∧ TrainingMakesChannelActive ∧ ChannelsLeftAlone


/-! ## Flash -/

/-- Operation `op` is taken into the queue of die `die` of channel `ch` (R139, R208, R210, R219; log 71). -/
def OpTaken (s : State) (ch : Fin 32) (die : Fin 8) (op : FlashOp) : Prop :=
  ((flAt s ch.val).state = .active ∨ (flAt s ch.val).state = .reset) ∧
    ((flAt s ch.val).jobs.filter fun j => decide (j.die = die.val)).length < 8 ∧ dieLive s ch.val die.val = true ∧
    (s.host.fence = false ∨ savesClass op = true) ∧ opAllowed s (8 * ch.val + die.val) op = true

/-- Channel `ch` of `s` with `j` added to its queue, and started if its die is free and the channel active (R208); `t` is the
state after, whose need of erased segments decides the turns of Outflow and relocation (R102). -/
def queuedWith (s t : State) (ch : Fin 32) (die : Fin 8) (j : FlashJob) : FlashChannel :=
  let c := { flAt s ch.val with jobs := (flAt s ch.val).jobs ++ [j] }
  if (flAt s ch.val).state = .active then startNext t.lake.gcUrgent die.val c else c

/-- FLASH_OAR_COMMAND (R101, R102, R104, R139, R185, R208, R210): an operation that the rules of Outflow, collection and
checkpoints admit joins its die's queue and starts at once when the die is free and the channel active, its segment then open
up to its units; a line of its page that is uncorrectable takes the marker and is captured as U at its cell. One whose page
lies in a channel in block reset joins the queue with nothing read until the reset ends (R196). A full queue takes none, a
retired die takes none, after the fence only save operations are taken, and one that those rules do not admit does nothing
(log 71). -/
def FlashQueueTakesOperation : Prop :=
  ∀ (s : State) (ch : Fin 32) (die : Fin 8) (op : FlashOp), frozen s = false → Calm s →
    (OpTaken s ch die op → dramWaits s op = false →
      Gives (.flashOarCommand ch die ⟨op, []⟩) s fun t =>
        flAt t ch.val = queuedWith s t ch die { die := die.val, op := op, data := jobData s op } ∧
        (∀ n, n ≠ ch.val → flAt t n = flAt s n) ∧
        (∀ x, targetOf s op = some x → (segmentAt t x.seg).next = x.unit + x.count ∧
          (segmentAt t x.seg).state = .open') ∧
        (targetOf s op = none → t.lake = s.lake) ∧
        t.lake.units = s.lake.units ∧ t.lake.mapping = s.lake.mapping ∧ OnlyChanges [.flash, .lake, .bus] s t) ∧
    (∀ reads, OpTaken s ch die op → dramWaits s op = true →
      Gives (.flashOarCommand ch die ⟨op, reads⟩) s fun t =>
        flAt t ch.val = queuedWith s t ch die { die := die.val, op := op, waits := some reads } ∧
        (∀ n, n ≠ ch.val → flAt t n = flAt s n) ∧ OnlyChanges [.flash, .lake, .bus] s t) ∧
    (∀ (line page : Nat) (typ : Fin 16) (syn : BitVec 16), OpTaken s ch die op → dramWaits s op = false →
      dramPage s op = some (page, typ) → pageOf line = page →
      linePoison s line = false → unitExists s (cellOf s line) = true → (capture s (cellOf s line)).sticky = false →
      s.od.set.graceMs ≠ 0 → Gives (.flashOarCommand ch die ⟨op, [(line, .uncorrectable syn)]⟩) s fun t =>
        Captured s t (cellOf s line) .u 0xFE (flsId ch.val 1) ∧ linePoison t line = true ∧
        (∀ x, x ≠ line → linePoison t x = linePoison s x) ∧ t.dram.bytes = s.dram.bytes ∧
        flAt t ch.val = queuedWith s t ch die { die := die.val, op := op, data := jobData t op } ∧
        OnlyChanges [.dram, .flash, .lake, .fault, .free, .wl, .cxl, .host, .out, .bus] s t) ∧
    (∀ bad, 8 ≤ ((flAt s ch.val).jobs.filter fun j => decide (j.die = die.val)).length ∨
        dieLive s ch.val die.val = false ∨ s.host.fence = true ∧ savesClass op = false ∨ opAllowed s (8 * ch.val + die.val) op = false →
      Gives (.flashOarCommand ch die ⟨op, bad⟩) s (Noticed s))

/-- Channel `ch` of `s` without the job `x` that finished on `die`, its suspended operation resumed when no class-1 operation
waits, and the next operation started (R208, R209). -/
def endedAt (s : State) (ch : Fin 32) (die : Fin 8) (x : Nat × FlashJob × List FlashJob × Bool) : FlashChannel :=
  startNext s.lake.gcUrgent die.val { flAt s ch.val with jobs := resumeDie die.val (x.2.2.1.eraseIdx x.1) }

/-- FLASH_OP_COMPLETE (R101, R103, R104, R144, R145, R174, R208 to R210, R216, R218, R225): the die's operation leaves the
queue and the next one starts. A drain that succeeds puts its page's unit into the Lakebed with the next write sequence under
the key in force, and changes no page; a save program gives its page's unit to the image while the Basin has room; a program
that fails is counted, its die skipped, its die-block retired and its segment collected first. A read changes nothing but the
counts of its retries and the levels of its die, and a patrol read that needed a late attempt has its segment collected
first; a relocation whose unit is still the page's moves the page's mapping entry to the new unit; an erase of the Basin
counts its block. With no operation of the die to end, nothing happens. -/
def FlashOperationEnds : Prop :=
  (∀ (s : State) (ch : Fin 32) (die : Fin 8) (res : FlashRes), frozen s = true ∨ (flAt s ch.val).state ≠ .active ∨
    finishing s.lake.gcUrgent die.val (flAt s ch.val) = none → exec (.flashOpComplete ch die res) s = .next s) ∧
  ∀ (s : State) (ch : Fin 32) (die : Fin 8), frozen s = false → (flAt s ch.val).state = .active → Calm s →
    ∀ x, finishing s.lake.gcUrgent die.val (flAt s ch.val) = some x →
    (∀ n k : Nat, opReads x.2.1.op = true →
      (Gives (.flashOpComplete ch die (.ok n k)) s fun t =>
        flAt t ch.val = { endedAt s ch die x with retries := sat 0xFFFF ((flAt s ch.val).retries + (n - 1)) } ∧
        (∀ m, m ≠ ch.val → flAt t m = flAt s m) ∧
        (∀ seg, x.2.1.op = .patrolRead seg → (4 ≤ n ∨ 3 ≤ k) → (segmentAt s seg).state = .closed →
          segmentAt t seg = { segmentAt s seg with gcFirst := true }) ∧
        ((∀ seg, x.2.1.op ≠ .patrolRead seg) ∨ n < 4 ∧ k < 3 → t.lake = s.lake) ∧
        t.flash.forced = (if x.2.2.2 then s.flash.forced + 1 else s.flash.forced) ∧
        OnlyChanges [.flash, .lake, .bus] s t) ∧
      (Gives (.flashOpComplete ch die .undecodable) s fun t =>
        flAt t ch.val = { endedAt s ch die x with retries := sat 0xFFFF ((flAt s ch.val).retries + 7) } ∧
        (∀ m, m ≠ ch.val → flAt t m = flAt s m) ∧ OnlyChanges [.flash, .bus] s t)) ∧
    (∀ (page seg unit : Nat) (fold : Bool) (u : FlashUnit) (n k : Nat), x.2.1.op = .relocate page seg unit fold →
      x.2.1.data = some u → setWf (s.lake.mapping.map (·.1)) = true →
      Gives (.flashOpComplete ch die (.ok n k)) s fun t =>
        unitAt t seg unit = some { u with seq := s.lake.writeSeq, key := s.flash.key,
                                          crc := Config.tagCrc u.page s.lake.writeSeq, tweak := tweakOf 0 u.page } ∧
        tabFind page t.lake.mapping =
          (if (mappedUnit s page).map (·.seq) = some u.seq then some (seg, unit) else tabFind page s.lake.mapping) ∧
        (∀ p, p ≠ page → tabFind p t.lake.mapping = tabFind p s.lake.mapping) ∧
        t.pm = s.pm ∧ OnlyChanges [.flash, .lake, .bus] s t) ∧
    (∀ (block n k : Nat), x.2.1.op = .basinErase block → block < s.cfg.basinBlocksPerDie → s.basin.image = none →
      s.host.fence = false → toErase s (8 * ch.val + die.val) ≠ 0 →
      (tabGet 0 (8 * ch.val + die.val) s.basin.bitmap).testBit block = false →
      (tabGet 0 (8 * ch.val + die.val) s.basin.lateMap).testBit block = false →
      Gives (.flashOpComplete ch die (.ok n k)) s fun t =>
        t.basin = { s.basin with
          erasedBy := tabSet 0 (8 * ch.val + die.val) (tabGet 0 (8 * ch.val + die.val) s.basin.erasedBy + 1) s.basin.erasedBy
          bitmap := tabSet 0 (8 * ch.val + die.val) (tabGet 0 (8 * ch.val + die.val) s.basin.bitmap ||| 2 ^ block)
            s.basin.bitmap } ∧
        flAt t ch.val = endedAt s ch die x ∧
        OnlyChanges [.flash, .basin, .lake, .pm, .wl, .cxl, .host, .out, .bus] s t) ∧
    (∀ (tag seg unit : Nat) (sprint : Bool) (u : FlashUnit) (n k : Nat), x.2.1.op = .drain tag seg unit sprint →
      x.2.1.data = some u →
      Gives (.flashOpComplete ch die (.ok n k)) s fun t =>
        unitAt t seg unit = some { u with seq := s.lake.writeSeq, key := s.flash.key,
                                          crc := Config.tagCrc u.page s.lake.writeSeq, tweak := tweakOf 0 u.page } ∧
        (∀ g y, (g, y) ≠ (seg, unit) → unitAt t g y = unitAt s g y) ∧
        t.lake.writeSeq = (s.lake.writeSeq + 1) % 2 ^ 48 ∧ t.lake.mapping = s.lake.mapping ∧
        flAt t ch.val = { endedAt s ch die x with retries := sat 0xFFFF ((flAt s ch.val).retries + (n - 1)) } ∧
        OnlyChanges [.flash, .lake, .bus] s t) ∧
    (∀ (page n k : Nat) (im : BasinImage), x.2.1.op = .saveProgram page → s.basin.image = some im →
      s.basin.usedUnits < residueUnits s → s.save.stopped = false → inBlockReset s page = false →
      Gives (.flashOpComplete ch die (.ok n k)) s fun t =>
        (∃ m, t.basin.image = some m ∧ imageHas m page = true ∧ m.map = im.map) ∧
        flAt t ch.val = endedAt s ch die x ∧ OnlyChanges [.flash, .basin, .save, .bus] s t) ∧
    (∀ (tag seg unit : Nat) (sprint : Bool), x.2.1.op = .drain tag seg unit sprint →
      (flAt s ch.val).resetTimes = [] → (segmentAt s seg).bad.contains (8 * ch.val + die.val) = false →
      Gives (.flashOpComplete ch die .fail) s fun t =>
        (flAt t ch.val).progFail = satInc 0xFF (flAt s ch.val).progFail ∧ (segmentAt t seg).gcFirst = true ∧
        (8 * ch.val + die.val) ∈ (segmentAt t seg).skipped ∧ (8 * ch.val + die.val) ∈ (segmentAt t seg).bad ∧
        (dieAt t (8 * ch.val + die.val)).badBlocks = (dieAt s (8 * ch.val + die.val)).badBlocks + 1 ∧
        t.lake.units = s.lake.units ∧ OnlyChanges [.flash, .lake, .bus] s t)

/-- A Lakebed die-block of `die` is erased in segment `seg`, no die-block of which is retired: every die that is not retired
has then erased its own (R101, R102). -/
def lastErased (s : State) (die seg : Nat) : Bool :=
  (segmentDies s seg).all fun d => (setIns die (segmentAt s seg).blank).contains d || (dieAt s d).retired

/-- BLOCK_ERASE_DONE (R101, R102, R117, R139, R174, R207, R218, R220): an erase of a Basin die-block that is not due for
exchange counts it as erased, once, after the fence from the next start on, and adds one to its wear; the last erased die of
a Lakebed segment that holds no valid unit leaves it ERASED and without units, and one before it is noted; a block of the
spare pool stands in it erased; an erase that fails retires the die-block, which the least worn of the die's pool replaces,
and is never counted as erased. A retired die, a freeze and a die-block that the rules do not let be erased leave everything
as it is. -/
def EraseCountsOrRetires : Prop :=
  (∀ (s : State) (die block : Nat) (area : Area) (ok : Bool),
    (frozen s = true ∨ (dieAt s die).retired = true → exec (.blockEraseDone die area block ok) s = .next s) ∧
    (erasable s die area block = false → Calm s → Gives (.blockEraseDone die area block ok) s (Noticed s))) ∧
  (∀ (s : State) (die seg : Nat) (area : Area), frozen s = false → (dieAt s die).retired = false →
    area = .pslc ∨ area = .tlc → erasable s die area seg = true → (segmentAt s seg).bad = [] → Calm s →
    Gives (.blockEraseDone die area seg true) s fun t => t.basin = s.basin ∧
      segmentAt t seg = (if (segmentAt s seg).state ≠ .erased ∧ lastErased s die seg = true
        then { blank := setIns die (segmentAt s seg).blank }
        else { segmentAt s seg with blank := setIns die (segmentAt s seg).blank }) ∧
      (∀ g y, unitAt t g y =
        if g = seg ∧ (segmentAt s seg).state ≠ .erased ∧ lastErased s die seg = true then none else unitAt s g y) ∧
      (∀ g, g ≠ seg → segmentAt t g = segmentAt s g) ∧ t.lake.mapping = s.lake.mapping ∧
      OnlyChanges [.flash, .lake, .pm, .wl, .cxl, .host, .out, .bus] s t) ∧
  (∀ (s : State) (die block : Nat), frozen s = false → (dieAt s die).retired = false →
    s.host.fence = true ∨ s.basin.image = none → block < s.cfg.basinBlocksPerDie →
    (tabGet 0 die s.basin.bitmap).testBit block = false → (tabGet 0 die s.basin.lateMap).testBit block = false →
    toErase s die ≠ 0 → underWorn s die block = false → tabGet 0 (wearKey die .basin block) s.flash.wear < 0xFFFF → Calm s →
    Gives (.blockEraseDone die .basin block true) s fun t =>
      t.basin = (if s.host.fence then { s.basin with
          late := tabSet 0 die (tabGet 0 die s.basin.late + 1) s.basin.late
          lateMap := tabSet 0 die (tabGet 0 die s.basin.lateMap ||| 2 ^ block) s.basin.lateMap }
        else { s.basin with
          erasedBy := tabSet 0 die (tabGet 0 die s.basin.erasedBy + 1) s.basin.erasedBy
          bitmap := tabSet 0 die (tabGet 0 die s.basin.bitmap ||| 2 ^ block) s.basin.bitmap }) ∧
      tabGet 0 (wearKey die .basin block) t.flash.wear = tabGet 0 (wearKey die .basin block) s.flash.wear + 1 ∧
      t.pm.pages = s.pm.pages ∧ t.pm.residue = s.pm.residue ∧
      OnlyChanges [.flash, .basin, .lake, .pm, .wl, .cxl, .host, .out, .bus] s t) ∧
  (∀ (s : State) (die block : Nat), frozen s = false → (dieAt s die).retired = false → block < (dieAt s die).spare → Calm s →
    Gives (.blockEraseDone die .spare block true) s fun t =>
      (dieAt t die).poolErased = setIns block (dieAt s die).poolErased ∧ (dieAt t die).spare = (dieAt s die).spare ∧
      (∀ d, d ≠ die → dieAt t d = dieAt s d) ∧ t.basin = s.basin ∧ t.lake.mapping = s.lake.mapping ∧
      OnlyChanges [.flash, .lake, .pm, .wl, .cxl, .host, .out, .bus] s t) ∧
  (∀ (s : State) (die block : Nat), frozen s = false → (dieAt s die).retired = false → block < s.cfg.basinBlocksPerDie →
    block < 4096 → tabWf 0 s.flash.wear = true → (flAt s (die / 8)).resetTimes = [] → 9 ≤ (dieAt s die).spare →
    (dieAt s die).spare ≤ 4096 → die / 8 < s.flash.channels.length → Calm s →
    Gives (.blockEraseDone die .basin block false) s fun t =>
      t.basin = { s.basin with retired := s.basin.retired + 1 } ∧
      (dieAt t die).badBlocks = (dieAt s die).badBlocks + 1 ∧ (dieAt t die).spare = (dieAt s die).spare - 1 ∧
      (flAt t (die / 8)).eraseFail = satInc 0xFF (flAt s (die / 8)).eraseFail ∧
      tabGet 0 (wearKey die .basin block) t.flash.wear = tabGet 0 (wearKey die .spare (leastWorn s die)) s.flash.wear ∧
      OnlyChanges [.flash, .basin, .bus] s t)

/-- A fault of the flash unit `m` can be captured: the variant has it, its record is free, no freeze holds its reaction, and
no reset of it runs. -/
def FlashFaultFree (s : State) (m : MasterId) : Prop :=
  unitExists s m = true ∧ (capture s m).sticky = false ∧ frozen s = false ∧ resetRunning s m = false ∧ Calm s

/-- What the reset of a flash unit leaves beside the unit: its F capture with KEY `key`, its shadow, and no page changed. -/
def FlashReset (s : State) (m : MasterId) (key : BitVec 8) (t : State) : Prop :=
  Captured s t m .f key m ∧ (∃ x ∈ t.fault.shadows, x.unit = m ∧ x.done = false) ∧
    t.fault.chipFatal = s.fault.chipFatal ∧
    OnlyChanges [.flash, .fault, .free, .wl, .cxl, .host, .out, .bus] s t

/-- FLASH_CHANNEL_RESET, LDPC_ENGINE_FAULT and XTS_ENGINE_FAULT (R224, R256, R259): the first reset of a channel keeps its
operations, none started, and unloads its oar; the first fault of an LDPC engine reissues the operations of its four
channels; KEY is 0xFF for the channel and the number of a channel in service for an engine (R22: one of an XTS engine's
sixteen while both serve). -/
def FlashFaultResetsUnit : Prop :=
  (∀ (s : State) (ch : Fin 32), FlashFaultFree s (flsId ch.val 0) → (flAt s ch.val).state = .active →
    (recent s (flAt s ch.val).resetTimes).length < 2 →
    Gives (.flashChannelReset ch) s fun t => FlashReset s (flsId ch.val 0) 0xFF t ∧
      (flAt t ch.val).state = .reset ∧ (flAt t ch.val).oarSlot = none ∧
      (flAt t ch.val).jobs = (flAt s ch.val).jobs.map (fun j => { j with started := false, suspended := false }) ∧
      (∀ n, n ≠ ch.val → flAt t n = flAt s n)) ∧
  (∀ (s : State) (eng : Fin 8), FlashFaultFree s (flsId (32 + eng.val) 0) →
    (∀ x ∈ s.flash.ldpcTimes, x.1 = eng.val → x.2 + 10000000000 ≤ s.tb.now) →
    Gives (.ldpcEngineFault eng) s fun t => (∃ k, k < 4 ∧
        FlashReset s (flsId (32 + eng.val) 0) (BitVec.ofNat 8 (4 * eng.val + k)) t) ∧
      (∀ n, n / 4 = eng.val → ∀ j ∈ (flAt t n).jobs, j.started = false) ∧
      (∀ n, n / 4 ≠ eng.val → flAt t n = flAt s n)) ∧
  (∀ (s : State) (eng : Fin 2), FlashFaultFree s (flsId (40 + eng.val) 0) → 0 < s.cfg.flashChannels →
    (∀ x ∈ s.flash.xtsTimes, x.1 = eng.val → x.2 + 10000000000 ≤ s.tb.now) →
    Gives (.xtsEngineFault eng) s fun t => (∃ k, (if s.flash.xtsOut = [] then k / 16 = eng.val else k < s.cfg.flashChannels) ∧
        FlashReset s (flsId (40 + eng.val) 0) (BitVec.ofNat 8 k) t) ∧
      t.flash.xtsOut = s.flash.xtsOut ∧ t.flash.channels = s.flash.channels)

/-- FLASH_RESET_DONE, FLASH_OAR_RELOAD, DIE_RETIRE_WALK_DONE and S_DIE_RECOMPUTE (R23, R219, R222, R224, R268): a channel that
was in reset is active with microcode from the active image and its operations restarted, the region's channels all at once; an
LDPC engine's four channels restart theirs; the walk of a retired die leaves the
list; t99.9 counts from 1,000 timed programs on. A freeze takes no reload and no recomputation. -/
def FlashResetEnds : Prop :=
  (∀ (s : State) (eng : Fin 8), (∀ n, n / 4 = eng.val → (flAt s n).state = .active) → Calm s →
    Gives (.flashResetDone (flsId (32 + eng.val) 0)) s fun t =>
      (∀ n, n / 4 = eng.val → flAt t n = startAll s.lake.gcUrgent (flAt s n)) ∧
      (∀ n, n / 4 ≠ eng.val → flAt t n = flAt s n) ∧
      (∀ x ∈ t.fault.shadows, x.unit = flsId (32 + eng.val) 0 → x.done = true) ∧ OnlyChanges [.flash, .fault, .bus] s t) ∧
  (∀ s : State, s.flash.channels.length = 32 → Calm s →
    Gives (.flashResetDone (flsId 42 0)) s fun t =>
      (∀ n, n < 32 → flAt t n = if (flAt s n).state = .reset then startAll s.lake.gcUrgent { flAt s n with
        state := .active, oarSlot := some s.upd.active, windows := flashWindows n } else flAt s n) ∧
      (∀ x ∈ t.fault.shadows, x.unit = flsId 42 0 → x.done = true) ∧ OnlyChanges [.flash, .fault, .bus] s t) ∧
  (∀ (s : State) (m : MasterId) (crew : Crew) (ch : Fin 32) (n k : Nat),
    (m.toNat / 4096 ≠ 3 → exec (.flashResetDone m) s = .next s) ∧
    (frozen s = true → exec (.flashOarReload crew ch) s = .next s ∧ exec (.sDieRecompute n k) s = .next s)) ∧
  (∀ (s : State) (ch : Fin 32), (flAt s ch.val).state = .reset → Calm s →
    Gives (.flashResetDone (flsId ch.val 0)) s fun t =>
      flAt t ch.val = startAll s.lake.gcUrgent { flAt s ch.val with
        state := .active, oarSlot := some s.upd.active, windows := flashWindows ch.val } ∧
      (∀ n, n ≠ ch.val → flAt t n = flAt s n) ∧
      (∀ x ∈ t.fault.shadows, x.unit = flsId ch.val 0 → x.done = true) ∧ OnlyChanges [.flash, .fault, .bus] s t) ∧
  (∀ (s : State) (crew : Crew) (ch : Fin 32), frozen s = false →
    exec (.flashOarReload crew ch) s = .next (onFl ch.val (fun c =>
      { c with oarSlot := some s.upd.active, windows := flashWindows ch.val }) s)) ∧
  (∀ (s : State) (die : Nat), exec (.dieRetireWalkDone die) s = .next { s with
    flash := { s.flash with walks := s.flash.walks.filter (· ≠ die) } }) ∧
  (∀ (s : State) (t999 programs : Nat), frozen s = false → t999 < 2 ^ 32 → Calm s →
    Gives (.sDieRecompute t999 programs) s fun t =>
      t.flash.programs = max s.flash.programs programs ∧
      t.flash.t999 = (if 1000 ≤ max s.flash.programs programs then t999 else 0) ∧ t.flash.wear = s.flash.wear ∧
      t.pm.pages = s.pm.pages ∧ t.pm.residue = s.pm.residue ∧
      OnlyChanges [.flash, .pm, .lake, .free, .wl, .cxl, .host, .out, .bus] s t)

/-- DIE_RETIRE (R93, R137, R206, R219): the die is retired and its walk runs; a CLEAN page in DRAM whose unit lies on it
becomes DIRTY, its mapping entry gone, and a page mapped elsewhere, or not yet in DRAM (DEDUCED, log 114), stays as it is; after
the fence no page changes, and during a save only its unfinished programs move and the save has a die less (R151). A die retired already, or absent, is left as it is. -/
def RetiredDieIsDrainedAgain : Prop :=
  (∀ (s : State) (die : Nat), (goodDies s).contains die = false → exec (.dieRetire die) s = .next s) ∧
  (∀ (s : State) (die : Nat), (goodDies s).contains die = true → s.host.fence = true → s.save.running = false → Calm s →
    Gives (.dieRetire die) s fun t => (dieAt t die).retired = true ∧ t.flash.walks = s.flash.walks ++ [die] ∧
      t.pm = s.pm ∧ OnlyChanges [.flash, .wl, .cxl, .host, .out, .bus] s t) ∧
  (∀ (s : State) (die : Nat), (goodDies s).contains die = true → s.save.running = true → Calm s →
    Gives (.dieRetire die) s fun t => (dieAt t die).retired = true ∧ t.flash.walks = s.flash.walks ++ [die] ∧
      t.save = { s.save with dies := s.save.dies - 1 } ∧ t.pm = s.pm ∧ t.lake = s.lake ∧
      OnlyChanges [.flash, .basin, .save, .wl, .cxl, .host, .out, .bus] s t) ∧
  ∀ (s : State) (die : Nat), (goodDies s).contains die = true → setWf (s.lake.mapping.map (·.1)) = true →
    s.log.spill.length + s.lake.mapping.length ≤ spillEntries → s.save.running = false → s.host.fence = false → Calm s →
    Gives (.dieRetire die) s fun t => (dieAt t die).retired = true ∧ (∀ d, d ≠ die → dieAt t d = dieAt s d) ∧
      t.flash.walks = s.flash.walks ++ [die] ∧
      (∀ x ∈ s.lake.mapping, dieOfUnit s x.2.1 x.2.2 = some die → pageState s x.1 = .clean → pageRestored s x.1 = true →
        pageState t x.1 = .dirty) ∧
      (∀ p, (∀ x ∈ s.lake.mapping, x.1 = p → dieOfUnit s x.2.1 x.2.2 ≠ some die) ∨ pageRestored s p = false →
        pageEntry t p = pageEntry s p ∧ tabFind p t.lake.mapping = tabFind p s.lake.mapping) ∧
      OnlyChanges [.flash, .lake, .pm, .log, .ledger, .weir, .free, .wl, .cxl, .host, .out, .bus] s t

/-- FLASH_PATROL and BASIN_EXCHANGE_TIMER (R216, R218, R220): a CLOSED segment in which a unit needed attempt 4 or a third
decode slot is collected first, and with no unit failing decode nothing else of the Lakebed changes; a unit that fails decode
is marked, its die-block retired, its segment collected first and its CLEAN page DIRTY; the exchange of under-worn Basin
die-blocks moves only wear counts, and no erased capacity. A freeze, and the fence, the save or a start that is under way,
let neither run. -/
def PatrolAndExchangeKeepData : Prop :=
  (∀ (s : State) (found : PatrolIn), frozen s = true ∨ s.host.fence = true ∨ (segmentAt s found.seg).state ≠ .closed →
    exec (.flashPatrol found) s = .next s) ∧
  (∀ s : State, frozen s = true ∨ saving s = true ∨ s.rst.committed = false → exec .basinExchangeTimer s = .next s) ∧
  (∀ (s : State) (found : PatrolIn) (unit die : Nat) (u : FlashUnit), frozen s = false → s.host.fence = false → saving s = false →
    (segmentAt s found.seg).state = .closed → found.failedUnits = [unit] → unitAt s found.seg unit = some u →
    tabFind u.page s.lake.mapping = some (found.seg, unit) → pageState s u.page = .clean →
    dieOfUnit s found.seg unit = some die → (segmentAt s found.seg).bad.contains die = false →
    die / 8 < s.flash.channels.length → s.log.spill.length < spillEntries → Calm s →
    Gives (.flashPatrol found) s fun t => pageState t u.page = .dirty ∧ (∀ p, p ≠ u.page → pageEntry t p = pageEntry s p) ∧
      (segmentAt t found.seg).gcFirst = true ∧ unitAt t found.seg unit = some { u with bad := true } ∧
      (dieAt t die).badBlocks = (dieAt s die).badBlocks + 1 ∧
      (flAt t (die / 8)).uncorr = satInc 0xFFFF (flAt s (die / 8)).uncorr ∧
      OnlyChanges [.free, .flash, .lake, .pm, .log, .ledger, .weir, .wl, .cxl, .host, .out, .bus] s t) ∧
  (∀ (s : State) (found : PatrolIn), frozen s = false → s.host.fence = false →
    (segmentAt s found.seg).state = .closed → found.failedUnits = [] → Calm s →
    Gives (.flashPatrol found) s fun t => t.flash.patrolSeg = found.seg ∧
      segmentAt t found.seg = { segmentAt s found.seg with
        gcFirst := (segmentAt s found.seg).gcFirst || (decide (4 ≤ found.worstAttempt) || found.thirdSlot) } ∧
      t.lake.units = s.lake.units ∧ t.lake.mapping = s.lake.mapping ∧ t.flash.wear = s.flash.wear ∧
      t.flash.dies = s.flash.dies ∧ OnlyChanges [.free, .flash, .lake, .bus] s t) ∧
  (∀ s : State, frozen s = false → saving s = false → s.rst.committed = true → tabWf 0 s.flash.wear = true →
    s.cfg.basinBlocksPerDie ≤ 4096 → (∀ d, (dieAt s d).spare ≤ 4096 ∧ ∀ k ∈ (dieAt s d).poolErased, k < 4096) → Calm s →
    Gives .basinExchangeTimer s fun t => t.basin = s.basin ∧
      (∀ d, dieAt t d = { dieAt s d with poolErased := (dieAt t d).poolErased }) ∧
      t.flash.channels = s.flash.channels ∧ t.pm.pages = s.pm.pages ∧ t.pm.residue = s.pm.residue ∧
      (∀ d k, (goodDies s).contains d = true → k < s.cfg.basinBlocksPerDie →
        meanWear s d ≤ tabGet 0 (wearKey d .basin k) s.flash.wear + 1000 →
        tabGet 0 (wearKey d .basin k) t.flash.wear = tabGet 0 (wearKey d .basin k) s.flash.wear) ∧
      OnlyChanges [.flash, .pm, .lake, .free, .wl, .cxl, .host, .out, .bus] s t)

/-- Flash operations, from their queue to their end (R101, R139, R145, R208 to R210, R218). -/
def Obligations.FlashOperationsRunInQueues : Prop :=
  FlashQueueTakesOperation ∧ FlashOperationEnds

/-- Erasure, retired dies, the flash patrol and the exchange (R174, R206, R216, R218 to R220). -/
def Obligations.WornFlashIsReplaced : Prop :=
  EraseCountsOrRetires ∧ RetiredDieIsDrainedAgain ∧ PatrolAndExchangeKeepData

/-- The reset of a flash unit and its end (R219, R222, R224, R256, R259, R268). -/
def Obligations.FlashUnitsResetAndReturn : Prop :=
  FlashFaultResetsUnit ∧ FlashResetEnds


/-! ## The crews and the landings -/

/-- The other crew is a member beside `c`, nothing of the crews waits, and a fault of `c` meets a free capture record, no reset
of its core in progress, no trial and fewer than two F captures of the last hour. -/
def CrewFaultFree (s : State) (c : Crew) : Prop :=
  isMember s c = true ∧ isMember s c.other = true ∧ (capture s (coxId c)).sticky = false ∧
    resetRunning s (coxId c) = false ∧ s.upd.trial ≠ 1 ∧ s.crew.waiting = [] ∧
    crewShadow s c = none ∧ ((crewOf s c).faultTimes.filter fun t => s.tb.now < t + nsPerH).length < 2 ∧ Calm s

/-- What an F capture with KEY `key` that the unit `by'` judges against crew `c` leaves (R243, R244, R257, R265): the
capture; `c` FAULTED, its reset to come within 1 µs, with score 0, no input waiting, and one switch-over more; the other crew
a member as before and holding the seat. -/
def CrewOut (s : State) (c : Crew) (key : BitVec 8) (by' : Nat) (t : State) : Prop :=
  Captured s t (coxId c) .f key (BitVec.ofNat 16 by') ∧ (crewOf t c).st = .faulted ∧ (crewOf t c).score = 0 ∧
    (crewOf t c).queue = [] ∧
    isMember t c.other = true ∧ seatHolder t = some c.other ∧ t.crew.switches = satInc 0xFFFF s.crew.switches

/-- TIMER_TICK (R228, R229, R238), SEAT_TOKEN_CORRUPT (R239, R241) and HEALTH_SECOND (R240): a member processes the tick, the
newest input, with its stamp; equal digests change nothing but themselves; unequal ones take the crew without the seat out
with an F capture, where both crews are members; a corrupt token gives the seat to the member with the higher score, a valid
one changes nothing; a full second as a member adds one to the score, to at most 255. Before CORE has started, and under a
freeze, none of them does anything. -/
def Obligations.CrewTicks : Prop :=
  (∀ (s : State) (c : Crew) (a b : BitVec 32) (x : Byte),
    (umpireRuns s = false → exec (.timerTick a b) s = .next s ∧ exec (.seatTokenCorrupt x) s = .next s) ∧
    (isMember s c = false ∨ frozen s = true → exec (.healthSecond c) s = .next s)) ∧
  (∀ (s : State) (c : Crew) (a b : BitVec 32), umpireRuns s = true → isMember s c = false → Calm s →
    Gives (.timerTick a b) s fun t => (crewOf t c).digest = (crewOf s c).digest ∧
      (∀ k, (crewOf s k).st ≠ .catchup →
        (crewOf t k).st = if (crewOf s k).st = .faulted then .off else (crewOf s k).st) ∧
      (∀ k, (crewOf s k).st = .catchup → (crewOf t k).st = .catchup ∨ (crewOf t k).st = .faulted) ∧
      t.crew.seat = s.crew.seat ∧ OnlyChanges [.free, .crew, .upd, .bus] s t) ∧
  (∀ (s : State) (c : Crew) (a b : BitVec 32), umpireRuns s = true → isMember s c = true → memberCount s ≠ 2 ∨ a = b →
    (crewOf s c.other).copyEnd = none → Calm s →
    Gives (.timerTick a b) s fun t =>
      (crewOf t c).digest = (match c with
        | .bow => a
        | .stroke => b) ∧
      (crewOf t c).stamp = s.tb.now ∧ t.crew.inputSeq = ((crewOf t c).input + 1) % 2 ^ 64 ∧ (crewOf t c).queue = [] ∧
      (crewOf t c).st = .member ∧ OnlyChanges [.free, .crew, .upd, .bus] s t) ∧
  (∀ (s : State) (d : BitVec 32), umpireRuns s = true → isMember s .bow = true → isMember s .stroke = true → Calm s →
    Gives (.timerTick d d) s fun t => (crewOf t .bow).digest = d ∧ (crewOf t .stroke).digest = d ∧
      t.crew.seat = s.crew.seat ∧ (crewOf t .bow).st = .member ∧ (crewOf t .stroke).st = .member ∧
      OnlyChanges [.free, .crew, .upd, .bus] s t) ∧
  (∀ (s : State) (c : Crew) (a b : BitVec 32), umpireRuns s = true → a ≠ b → seatHolder s = some c.other →
    CrewFaultFree s c →
    Gives (.timerTick a b) s fun t => CrewOut s c 4 0x0040 t ∧ OnlyChanges (.upd :: .crew :: reportParts) s t) ∧
  (∀ (s : State) (b : Byte), umpireRuns s = true → b ≠ 0x5A → b ≠ 0xA5 → b ≠ 0 →
    (capture s 0x0040).sticky = false → s.crew.lagBuf = [] → Calm s →
    Gives (.seatTokenCorrupt b) s fun t =>
      t.crew = { s.crew with
        seat := match higherScore s with
          | some k => seatByte k
          | none => 0
        arbitrations := satInc 0xFF s.crew.arbitrations } ∧
      Captured s t 0x0040 .c 0 0x0040 ∧ OnlyChanges (.crew :: reportParts) s t) ∧
  (∀ (s : State) (b : Byte), b = 0x5A ∨ b = 0xA5 ∨ b = 0 → exec (.seatTokenCorrupt b) s = .next s) ∧
  (∀ (s : State) (c : Crew), isMember s c = true → frozen s = false →
    Gives (.healthSecond c) s fun t =>
      crewOf t c = { crewOf s c with score := min 255 ((crewOf s c).score + 1), scoreSince := s.tb.now } ∧
      crewOf t c.other = crewOf s c.other ∧ t.crew.seat = s.crew.seat ∧ OnlyChanges [.crew] s t)

/-- A crew that is OFF, or FAULTED and about to be, and not held goes on to load: CREW_REJOIN_TIMER. -/
def MayRejoin (s : State) (c : Crew) : Prop :=
  ((crewOf s c).st = .off ∧ (crewOf s c).offSince.isSome = true ∨ (crewOf s c).st = .faulted) ∧ (crewOf s c).held = false ∧
    faults1h s (crewOf s c) < 3 ∧ saving s = false ∧ umpireRuns s = true

/-- CREW_REJOIN_TIMER, CREW_LOAD_DONE, CATCHUP_DONE and SHADOW_CLEAN (R151, R241, R243, R245): an OFF crew begins to load the
running image; a failed verification is tried again up to 3 times, then the crew is OFF and held; loaded beside a member it
goes to CATCHUP, from the next input on, while the member writes its state; with the other crew loaded at a start both are
members and the seat is Stroke's; caught up, with every queued input processed, it goes to SHADOW beside a member, and with
no member it is one itself and takes the empty seat; clean for 100 ms and 1,000 copies it is a member, with one rejoin more,
and the seat stays. A crew in another state is left as it is. -/
def Obligations.CrewsJoin : Prop :=
  (∀ (s : State) (c : Crew) (b : Bool),
    ((crewOf s c).st ≠ .off ∧ (crewOf s c).st ≠ .faulted ∨ frozen s = true ∨ (crewOf s c).held = true → exec (.crewRejoinTimer c) s = .next s) ∧
    ((crewOf s c).st ≠ .loading → (crewOf s c).st ≠ .standby → exec (.crewLoadDone c b) s = .next s) ∧
    ((crewOf s c).st ≠ .catchup ∨ frozen s = true → exec (.catchupDone c) s = .next s) ∧
    (shadowReady s c = false ∨ frozen s = true → exec (.shadowClean c) s = .next s)) ∧
  (∀ (s : State) (c : Crew), (crewOf s c).st = .catchup → frozen s = false → isMember s c.other = false →
    s.crew.seat = 0 → s.upd.stage = .idle → Calm s →
    Gives (.catchupDone c) s fun t => (crewOf t c).st = .member ∧ (crewOf t c).score = 255 ∧ (crewOf t c).queue = [] ∧
      ((crewOf s c).copyEnd = none → crewOf t c.other = crewOf s c.other) ∧ seatHolder t = some c ∧ t.dram = s.dram ∧ t.pm.pages = s.pm.pages ∧
      t.fault.recs = s.fault.recs) ∧
  (∀ (s : State) (c : Crew), MayRejoin s c →
    Gives (.crewRejoinTimer c) s fun t => (crewOf t c).st = .loading ∧
      (crewOf t c).image = (match seatHolder s with
        | some y => (crewOf s y).image
        | none => (crewOf s c).image) ∧
      (crewOf t c).loadFails = 0 ∧ ((crewOf s c.other).st ≠ .faulted → crewOf t c.other = crewOf s c.other) ∧ t.crew.seat = s.crew.seat ∧
      OnlyChanges [.crew] s t) ∧
  (∀ s : State, ∀ c : Crew, saving s = true → exec (.crewRejoinTimer c) s = .next s) ∧
  (∀ (s : State) (c : Crew), (crewOf s c).st = .loading → (crewOf s c).waiting = false → umpireRuns s = true →
    boathouse s = false → Calm s →
    (isMember s c.other = true →
      Gives (.crewLoadDone c true) s fun t => (crewOf t c).st = .catchup ∧ (crewOf t c).handover = s.crew.inputSeq ∧
        (crewOf t c).queue = [] ∧ (crewOf t c).copyEnd = some (s.tb.now + 20000) ∧ crewOf t c.other = crewOf s c.other ∧
        t.crew.seat = s.crew.seat ∧ OnlyChanges [.free, .crew, .bus] s t) ∧
    ((crewOf s c).loadFails < 3 →
      Gives (.crewLoadDone c false) s fun t => (crewOf t c).st = .loading ∧
        (crewOf t c).loadFails = (crewOf s c).loadFails + 1 ∧ crewOf t c.other = crewOf s c.other ∧
        OnlyChanges [.crew, .bus] s t) ∧
    (3 ≤ (crewOf s c).loadFails → s.crew.startLoad = false →
      Gives (.crewLoadDone c false) s fun t => (crewOf t c).st = .off ∧ (crewOf t c).held = true ∧
        crewOf t c.other = crewOf s c.other ∧ OnlyChanges [.free, .crew, .wl, .cxl, .host, .out, .bus] s t) ∧
    (s.crew.startLoad = true → (crewOf s c.other).st = .loading → (crewOf s c.other).waiting = true →
      s.crew.seat = 0 → s.upd.stage = .idle →
      Gives (.crewLoadDone c true) s fun t => (crewOf t .bow).st = .member ∧ (crewOf t .stroke).st = .member ∧
        (crewOf t .bow).score = 255 ∧ (crewOf t .stroke).score = 255 ∧ seatHolder t = some .stroke ∧
        t.crew.inputSeq = 0 ∧ t.dram = s.dram ∧ t.seq = s.seq ∧ t.fault.recs = s.fault.recs)) ∧
  (∀ (s : State) (c : Crew), (crewOf s c).st = .catchup → frozen s = false → isMember s c.other = true →
    Gives (.catchupDone c) s fun t => (crewOf t c).st = .shadow ∧ (crewOf t c).compared = 0 ∧
      (crewOf t c).shadowSince = s.tb.now ∧ (crewOf t c).queue = [] ∧ (crewOf t c).copyEnd = none ∧
      (∀ i, (crewOf s c).queue.getLast? = some i →
        (crewOf t c).input = i.seq ∧ (crewOf t c).stamp = i.stamp ∧ (crewOf t c).entropy = i.entropy) ∧
      ((crewOf s c).copyEnd = none → crewOf t c.other = crewOf s c.other) ∧
      (crewOf t c.other).st = .member ∧ t.crew.seat = s.crew.seat ∧ OnlyChanges [.crew] s t) ∧
  (∀ (s : State) (c : Crew), shadowReady s c = true → frozen s = false → isMember s c.other = true →
    s.crew.seat = seatByte c.other → s.upd.stage = .idle → Calm s →
    Gives (.shadowClean c) s fun t => (crewOf t c).st = .member ∧ (crewOf t c).score = 255 ∧
      (crewOf t c).rejoins = satInc 0xFF (crewOf s c).rejoins ∧ crewOf t c.other = crewOf s c.other ∧
      t.crew.seat = s.crew.seat ∧ t.dram = s.dram ∧ t.fault.recs = s.fault.recs)

/-- A copy of `crew`, the seat's holder, comes to its landing's window: both crews are members, its sender may use the stream,
its number lies in the window, and no copy waits or lags. -/
def CopyInWindow (s : State) (crew : Crew) (coxCore : Bool) (l : Landing) (x : Stream) (seq : BitVec 32) : Prop :=
  umpireRuns s = true ∧ isMember s .bow = true ∧ isMember s .stroke = true ∧ hasStream l x = true ∧
    (x.cox = true → coxCore = true) ∧ ahead (streamOf s l x).base seq.toNat < 64 ∧ s.crew.waiting = [] ∧
    s.crew.lagBuf = [] ∧ seatHolder s = some crew ∧ Calm s

/-- One tick has passed, and the sequencer's inputs stand as they were sampled (R28, R280). -/
def ticked (s : State) : State := sampleStep s.tb.now (idle s)

/-- A copy of the crew without the seat has waited out the pairing lag of its port when the next tick has passed (R234), and
comes to its landing's window; nothing else waits. -/
def CopyLagged (s : State) (due : Nat) (k : Copy) : Prop :=
  s.crew.lagBuf = [(due, k)] ∧ due ≤ (idle s).tb.now ∧ k.shadow = false ∧ s.fault.shadows = [] ∧
    (∀ h, (headOf s h).retrainBy = none) ∧ (∀ c, (crewOf s c).copyEnd = none) ∧ s.pending = [] ∧ s.bus.waiting = [] ∧ s.pm.marks = [] ∧
    s.weir.state ≠ .decaying ∧ umpireRuns s = true ∧ isMember s .bow = true ∧ isMember s .stroke = true ∧
    seatHolder s = some k.crew.other ∧ hasStream k.landing k.stream = true ∧
    (k.stream.cox = true → k.coxCore = true) ∧ ahead (streamOf s k.landing k.stream).base k.seq.toNat < 64 ∧
    s.crew.waiting = []

/-- LANDING_COPY of the seat's holder (R230 to R232, R235): its copy of an empty slot executes at once, a publication of the
Weir, the reload of an oar; one that its stream does not carry executes nothing (log 24); a copy of a slot that the other
crew filled closes it, and executes nothing more where the digests agree; on a value stream an unequal one executes and the
other crew goes out with an F capture of KEY 2; a second copy of one crew is dropped and captured with class C, KEY 5. -/
def SeatsCopiesExecute : Prop :=
  (∀ (s : State) (crew : Crew) (seq digest : BitVec 32) (ch : Fin 32),
    CopyInWindow s crew true .fls { cox := true, num := 0 } seq →
    slotOfSeq (streamOf s .fls { cox := true, num := 0 }) seq.toNat = none →
    Gives (.landingCopy crew true .fls { cox := true, num := 0 } seq digest (.flashOarReload ch)) s fun t =>
      flAt t ch.val = (if ch.val < s.flash.channels.length then
          { flAt s ch.val with oarSlot := some s.upd.active, windows := flashWindows ch.val }
        else flAt s ch.val) ∧
      (∀ n, n ≠ ch.val → flAt t n = flAt s n) ∧ OnlyChanges [.crew, .flash, .bus] s t) ∧
  (∀ (s : State) (crew : Crew) (coxCore : Bool) (seq digest : BitVec 32) (level : Nat),
    CopyInWindow s crew coxCore .mem { cox := false, num := 0 } seq → WeirQuiet s →
    slotOfSeq (streamOf s .mem { cox := false, num := 0 }) seq.toNat = none →
    Gives (.landingCopy crew coxCore .mem { cox := false, num := 0 } seq digest (.weirPublish level)) s fun t =>
      t.weir.published = level % 2 ^ 48 / 4096 * 4096 ∧ t.weir.hasPub = true ∧ t.weir.pubTime = s.tb.now ∧
      t.weir.pubStroke = decide (crew = .stroke) ∧ t.dram = s.dram ∧ t.flash = s.flash ∧ t.fault.recs = s.fault.recs) ∧
  (∀ (s : State) (crew : Crew) (coxCore : Bool) (l : Landing) (x : Stream) (seq digest : BitVec 32) (cmd : Landed),
    CopyInWindow s crew coxCore l x seq → slotOfSeq (streamOf s l x) seq.toNat = none → carries l x cmd = false →
    isLimits cmd = false →
    Gives (.landingCopy crew coxCore l x seq digest cmd) s fun t => OnlyChanges [.crew, .bus] s t) ∧
  (∀ (s : State) (crew : Crew) (coxCore : Bool) (l : Landing) (x : Stream) (seq digest : BitVec 32) (cmd : Landed),
    CopyInWindow s crew coxCore l x seq → ∀ w, slotOfSeq (streamOf s l x) seq.toNat = some w →
    (w.crew = crew.other → w.paired = false → w.digest = copyDigest x seq digest cmd →
      Gives (.landingCopy crew coxCore l x seq digest cmd) s fun t =>
        (∀ k, (landingOf t k).divergences = (landingOf s k).divergences) ∧ OnlyChanges [.crew, .bus] s t) ∧
    (w.crew = crew → (capture s (coxId crew)).sticky = false → crewShadow s crew = none →
      Gives (.landingCopy crew coxCore l x seq digest cmd) s fun t =>
        Captured s t (coxId crew) .c 5 (BitVec.ofNat 16 (landingId l)) ∧
        (landingOf t l).duplicates = satInc 0xFF (landingOf s l).duplicates ∧
        OnlyChanges (.crew :: reportParts) s t)) ∧
  (∀ (s : State) (crew : Crew) (coxCore : Bool) (seq digest : BitVec 32) (mv : Nat),
    CopyInWindow s crew coxCore .pwr { cox := false, num := 1 } seq →
    ∀ w, slotOfSeq (streamOf s .pwr { cox := false, num := 1 }) seq.toNat = some w → w.crew = crew.other →
    w.paired = false → w.digest ≠ digest → CrewFaultFree s crew.other →
    Gives (.landingCopy crew coxCore .pwr { cox := false, num := 1 } seq digest (.coreTarget mv)) s fun t =>
      CrewOut s crew.other 2 0x6100 t ∧
      t.plan.target = clampNat (s.plan.target - 25) (s.plan.target + 25) (clampNat 700 850 mv) ∧
      (landingOf t .pwr).divergences = satInc 0xFF (landingOf s .pwr).divergences ∧
      OnlyChanges (.plan :: .crew :: reportParts) s t)

/-- LANDING_COPY of the crew without the seat (R234, R235): it waits 1 µs at its crossbar port, and nothing else changes; when
the lag has passed and its slot holds the seat's copy, an equal digest closes the slot and executes nothing; an unequal one is
dropped and takes the crew out with an F capture of KEY 2. -/
def LaggedCopiesAreCompared : Prop :=
  (∀ (s : State) (crew : Crew) (coxCore : Bool) (l : Landing) (x : Stream) (seq digest : BitVec 32) (cmd : Landed),
    umpireRuns s = true → lagOn s crew = true → s.crew.lagBuf = [] → Calm s →
    Gives (.landingCopy crew coxCore l x seq digest cmd) s (Noticed { s with
      crew := { s.crew with lagBuf := [(s.tb.now + 1000,
        { crew := crew, coxCore := coxCore, landing := l, stream := x, seq := seq, digest := copyDigest x seq digest cmd,
          cmd := cmd, shadow := false })] } })) ∧
  (∀ (s : State) (due : Nat) (k : Copy), CopyLagged s due k → ∀ w, slotOfSeq (streamOf s k.landing k.stream) k.seq.toNat = some w →
    w.crew = k.crew.other → w.paired = false →
    (w.digest = k.digest → ∃ t, step s = .next t ∧
      (∀ l, (landingOf t l).divergences = (landingOf s l).divergences) ∧ t.crew.lagBuf = [] ∧
      OnlyChanges [.crew] (ticked s) t) ∧
    (w.digest ≠ k.digest → CrewFaultFree (ticked s) k.crew → ∃ t, step s = .next t ∧
      CrewOut (ticked s) k.crew 2 (landingId k.landing) t ∧
      (landingOf t k.landing).divergences = satInc 0xFF (landingOf s k.landing).divergences ∧
      OnlyChanges (.crew :: reportParts) (ticked s) t))

/-- PAIRING_TIMEOUT (R233, R259): a slot that nobody paired in time closes with a U capture of KEY 3 against the missing crew,
both crews staying members; with one member, a slot that is closed or none, and under a freeze nothing happens. -/
def UnpairedSlotTimesOut : Prop :=
  (∀ (s : State) (l : Landing) (x : Stream) (seq : BitVec 32), frozen s = true ∨ memberCount s ≠ 2 ∨
    (∀ w, slotOfSeq (streamOf s l x) seq.toNat = some w → w.closed = true) → exec (.pairingTimeout l x seq) s = .next s) ∧
  ∀ (s : State) (l : Landing) (x : Stream) (seq : BitVec 32), frozen s = false → isMember s .bow = true →
    isMember s .stroke = true → s.crew.waiting = [] → maskedBy s (.pairing l x) = none →
    (∀ c, crewShadow s c = none) → s.od.set.graceMs ≠ 0 → Calm s →
    ∀ w, slotOfSeq (streamOf s l x) seq.toNat = some w → w.closed = false →
    (capture s (coxId w.crew.other)).sticky = false →
    Gives (.pairingTimeout l x seq) s fun t => Captured s t (coxId w.crew.other) .u 3 (BitVec.ofNat 16 (landingId l)) ∧
      (landingOf t l).pairTimeouts = satInc 0xFF (landingOf s l).pairTimeouts ∧
      isMember t .bow = true ∧ isMember t .stroke = true ∧ t.crew.seat = s.crew.seat ∧
      OnlyChanges (.crew :: reportParts) s t

/-- The copies of the two crews at a landing (R230 to R236, R259). -/
def Obligations.LandingsCompareCopies : Prop :=
  SeatsCopiesExecute ∧ LaggedCopiesAreCompared ∧ UnpairedSlotTimesOut


/-! ## The fault collector -/

/-- A request for an entry of the Object Dictionary reaches the device by `p` and is evaluated (R296, R365): CORE is up, no
freeze and no Boathouse mode holds, and a crew is a member. -/
abbrev Served (s : State) (p : Path) : Prop :=
  turnedAway s p = false ∧ darkOrAux s = false ∧ frozen s = false ∧ emptySet s = false ∧ boathouse s = false

/-- The request is answered with `status`, and `s'` is what it leaves beside its answer. -/
def Answers (p : Path) (status : Nat) (s' t : State) : Prop := Noticed (reply p status [0, 0, 0] s') t

/-- The report `f` comes to a unit of this variant from a unit of this variant, of a condition that does not stand already. -/
def ReportTaken (s : State) (f : FaultIn) : Prop :=
  darkOrAux s = false ∧ unitExists s f.unit = true ∧ unitExists s f.master = true ∧ standsAlready s f = false ∧ Calm s

/-- The same, the report's detector in no reset's shadow. -/
def ReportFree (s : State) (f : FaultIn) : Prop := ReportTaken s f ∧ maskedBy s f.detector = none

/-- FAULT_REPORT and GRACE_EXPIRY of the crews (R256, R257, R260, R261, R262): the first C or U fault of a unit is captured
with what the report says, a U fault's grace timer starting with the length of the settings; the same C or U fault again is
only counted; a fault of a lower class is counted beside the capture; another C fault escalates a held C to U; a timer that
expires makes the capture F, and a crew's F takes the crew out. -/
def ReportsAreCaptured : Prop :=
  (∀ (s : State) (f : FaultIn), ReportFree s f → (capture s f.unit).sticky = false →
    (f.cls = .c →
      Gives (.faultReport f) s fun t => Captured s t f.unit .c f.key f.master ∧ (capture t f.unit).addr = f.addr ∧
        (capture t f.unit).typ = f.typ ∧ (capture t f.unit).detail = f.detail ∧
        (capture t f.unit).present = f.persists ∧ (capture t f.unit).grace = false ∧
        OnlyChanges (.crew :: reportParts) s t) ∧
    (f.cls = .u → s.od.set.graceMs ≠ 0 →
      Gives (.faultReport f) s fun t => Captured s t f.unit .u f.key f.master ∧ (capture t f.unit).addr = f.addr ∧
        (capture t f.unit).typ = f.typ ∧ (capture t f.unit).detail = f.detail ∧ (capture t f.unit).grace = true ∧
        (capture t f.unit).graceNs = s.od.set.graceMs * nsPerMs ∧ OnlyChanges (.crew :: reportParts) s t)) ∧
  (∀ (s : State) (f : FaultIn), ReportFree s f → (capture s f.unit).sticky = true → (capture s f.unit).conseq = false →
    (f.cls ≠ .f → (capture s f.unit).cls = some f.cls → f.key = (capture s f.unit).key → f.unit ≠ 0x0040 →
      Gives (.faultReport f) s fun t =>
        capture t f.unit = { capture s f.unit with count := satInc 0xFFFF (capture s f.unit).count } ∧
        (∀ m, m ≠ f.unit → capture t m = capture s m) ∧ OnlyChanges [.fault, .bus] s t) ∧
    (f.cls = .c → (capture s f.unit).cls = some .u ∨ (capture s f.unit).cls = some .f →
      Gives (.faultReport f) s fun t =>
        capture t f.unit = { capture s f.unit with
          count := satInc 0xFFFF (capture s f.unit).count, overflow := satInc 0xFF (capture s f.unit).overflow } ∧
        (∀ m, m ≠ f.unit → capture t m = capture s m) ∧ OnlyChanges [.fault, .bus] s t) ∧
    (f.cls = .c → (capture s f.unit).cls = some .c → f.key ≠ (capture s f.unit).key → s.od.set.graceMs ≠ 0 →
      Gives (.faultReport f) s fun t =>
        (capture t f.unit).cls = some .u ∧ (capture t f.unit).escalated = true ∧ (capture t f.unit).grace = true ∧
        (capture t f.unit).key = (capture s f.unit).key ∧
        t.fault.escalations = satInc 0xFFFF s.fault.escalations ∧
        (∀ m, m ≠ f.unit → capture t m = capture s m) ∧ OnlyChanges (.crew :: reportParts) s t)) ∧
  (∀ s : State, ∀ f : FaultIn, darkOrAux s = true ∨ standsAlready s f = true → exec (.faultReport f) s = .next s) ∧
  (∀ (s : State) (f : FaultIn) (p : BitVec 32), ReportTaken s f → maskedBy s f.detector = some p →
    (capture s f.unit).sticky = false →
    Gives (.faultReport f) s fun t => Captured s t f.unit f.cls f.key f.master ∧ (capture t f.unit).conseq = true ∧
      (capture t f.unit).parent = p ∧ t.fault.consequential = s.fault.consequential + 1 ∧ t.seq = s.seq ∧
      t.crew = s.crew ∧ OnlyChanges reportParts s t) ∧
  (∀ (s : State) (c : Crew), (capture s (coxId c)).sticky = true → (capture s (coxId c)).grace = true →
    frozen s = false → isMember s c = true → isMember s c.other = true → resetRunning s (coxId c) = false →
    s.upd.trial ≠ 1 → ((crewOf s c).faultTimes.filter fun t => s.tb.now < t + nsPerH).length < 2 → Calm s →
    Gives (.graceExpiry (coxId c)) s fun t =>
      capture t (coxId c) = { capture s (coxId c) with cls := some .f, escalated := true, grace := false } ∧
      t.fault.graceExpiries = satInc 0xFF s.fault.graceExpiries ∧ (crewOf t c).st = .faulted ∧
      isMember t c.other = true ∧ (∀ m, m ≠ coxId c → capture t m = capture s m) ∧
      OnlyChanges (.crew :: reportParts) s t)

/-- FAULT_REPORT of class F, or worse than the held capture, or of a reserved master ID, and GRACE_EXPIRY beyond the crews
(R14, R256, R260 to R262, R265, R266, R271, R468): the first F fault of a unit that is chip fatal is the cause of a chip
fatal of kind 1 and of a save; one of the JTAG port disables it; one of the ledger fails it; another unit's waits for the end
of a freeze. A worse fault replaces a held capture; a second F fault of a unit is a chip fatal of kind 2, and a report that
names a reserved master ID one of kind 5. -/
def FaultsReact : Prop :=
  (∀ (s : State) (f : FaultIn), ReportFree s f → f.cls = .f → (capture s f.unit).sticky = false →
    (fatalUnit f.unit = true → f.unit ≠ 0x10C0 → SaveReady s → s.fault.chipFatal = false →
      Gives (.faultReport f) s fun t => Captured s t f.unit .f f.key f.master ∧ t.fault.chipFatal = true ∧
        t.fault.fatalKind = 1 ∧ t.fault.fatalCause = faultId t f.unit ∧ t.save.phase = .fenced ∧
        t.save.trigger = some .chipFatal ∧ t.host.fence = true ∧ t.dram.bytes = s.dram.bytes ∧ t.pm.pages = s.pm.pages) ∧
    (f.unit = 0x0FC0 → resetRunning s 0x0FC0 = false → s.frz.jtag = false →
      Gives (.faultReport f) s fun t => Captured s t 0x0FC0 .f f.key f.master ∧ t.fault.jtagOff = true ∧
        t.fault.chipFatal = s.fault.chipFatal ∧ OnlyChanges reportParts s t) ∧
    (f.unit = 0x7000 → frozen s = false → resetRunning s 0x7000 = false → s.ledger.failed = false → s.fault.chipFatal = false →
      Gives (.faultReport f) s fun t => Captured s t 0x7000 .f f.key f.master ∧ t.ledger.failed = true ∧
        t.ledger.commits = s.ledger.commits ∧ t.fault.chipFatal = false) ∧
    (frozen s = true → fatalUnit f.unit = false → f.unit ≠ 0x0FC0 →
      Gives (.faultReport f) s fun t => Captured s t f.unit .f f.key f.master ∧ t.fault.waiting = [f.unit.toNat] ∧
        t.flash = s.flash ∧ t.dram = s.dram ∧ OnlyChanges (.crew :: reportParts) s t)) ∧
  (∀ (s : State) (f : FaultIn), ReportFree s f → (capture s f.unit).sticky = true → (capture s f.unit).conseq = false →
    ((capture s f.unit).cls = some .c → f.cls = .u → s.od.set.graceMs ≠ 0 →
      Gives (.faultReport f) s fun t => Captured s t f.unit .u f.key f.master ∧ (capture t f.unit).grace = true ∧
        (capture t f.unit).overflow = satInc 0xFF (capture s f.unit).overflow ∧ (capture t f.unit).addr = f.addr ∧
        OnlyChanges (.crew :: reportParts) s t) ∧
    ((capture s f.unit).cls = some .f → f.cls = .f → ddrChannelOf f.unit = none → SaveReady s → s.fault.chipFatal = false →
      Gives (.faultReport f) s fun t => (capture t f.unit).escalated = true ∧ (capture t f.unit).key = (capture s f.unit).key ∧
        t.fault.chipFatal = true ∧ t.fault.fatalKind = 2 ∧ t.fault.fatalCause = faultId s f.unit ∧
        t.save.phase = .fenced ∧ t.save.trigger = some .chipFatal ∧ t.dram.bytes = s.dram.bytes ∧ t.pm.pages = s.pm.pages)) ∧
  (∀ (s : State) (f : FaultIn), unitExists s f.unit = false ∨ unitExists s f.master = false → standsAlready s f = false →
    SaveReady s → s.fault.chipFatal = false →
    Gives (.faultReport f) s fun t => t.fault.recs = s.fault.recs ∧ t.fault.chipFatal = true ∧ t.fault.fatalKind = 5 ∧
      t.save.phase = .fenced ∧ t.save.trigger = some .chipFatal ∧ t.dram.bytes = s.dram.bytes ∧ t.pm.pages = s.pm.pages) ∧
  (∀ (s : State) (m : MasterId), (capture s m).grace = false ∨ (capture s m).sticky = false ∨ frozen s = true →
    exec (.graceExpiry m) s = .next s) ∧
  (∀ (s : State) (m : MasterId), (capture s m).grace = true → (capture s m).sticky = true → fatalUnit m = true → m ≠ 0x10C0 →
    SaveReady s → s.fault.chipFatal = false →
    Gives (.graceExpiry m) s fun t => (capture t m).cls = some .f ∧ (capture t m).escalated = true ∧ (capture t m).grace = false ∧
      t.fault.chipFatal = true ∧ t.fault.fatalKind = 1 ∧ t.fault.fatalCause = faultId s m ∧ t.save.phase = .fenced ∧
      t.save.trigger = some .chipFatal ∧ t.dram.bytes = s.dram.bytes ∧ t.pm.pages = s.pm.pages)

/-- What a fault's report does, by its class and the capture its unit holds (R14, R256, R257, R260 to R262, R265, R266,
R271). -/
def Obligations.FaultsAreCaptured : Prop :=
  ReportsAreCaptured ∧ FaultsReact

/-- `t` holds the capture of `m` as acknowledged: STICKY and GRACE clear, and every other record is as it was. -/
def Acknowledged (s t : State) (m : MasterId) : Prop :=
  capture t m = { capture s m with sticky := false, grace := false } ∧ ∀ x, x ≠ m → capture t x = capture s x

/-- The U captures that an acknowledgement by RAS status selects: held, not consequential, not a chip fatal's. -/
def RasHeld (s : State) (m : MasterId) : Prop :=
  unitExists s m = true ∧ (capture s m).sticky = true ∧ (capture s m).cls = some .u ∧ (capture s m).conseq = false ∧
    isFatalCapture s (faultId s m) = false ∧ (capture s m).capnum < 65536

/-- CHP_FAULT_ACK, OD_ACKNOWLEDGE and RAS_STATUS_CLEAR (R263, R272, R275, R277): a write by JTAG or a member's core that
names a held capture clears its STICKY and GRACE; one by any other master, or naming none, changes nothing; entry 0x5003
answers OK, or STATE where nothing is acknowledged; clearing a RAS status bit acknowledges the U captures that set it. -/
def AcknowledgeClearsCapture : Prop :=
  (∀ (s : State) (id : BitVec 32) (m : MasterId), ackNames s id = true → isFatalCapture s id = false → Calm s →
    (mayAck s m = true → Gives (.chpFaultAck id m) s fun t =>
      Acknowledged s t (id.extractLsb' 16 16) ∧ OnlyChanges [.fault, .bus] s t) ∧
    (mayAck s m = false → exec (.chpFaultAck id m) s = .next s) ∧
    (∀ p, Served s p → Gives (.odAcknowledge p id) s fun t => ∃ u,
      Acknowledged s u (id.extractLsb' 16 16) ∧ OnlyChanges [.fault] s u ∧ Answers p stOk u t)) ∧
  (∀ (s : State) (id : BitVec 32), ackNames s id = false ∨ isFatalCapture s id = true → Calm s →
    (∀ p, Served s p → Gives (.odAcknowledge p id) s (Answers p stState s)) ∧
    (∀ m, Gives (.chpFaultAck id m) s (Noticed s))) ∧
  (∀ (s : State) (memory internal : Bool), recordsWf s = true → s.fault.recs.all (fun r => decide (r.1 < 65536)) = true →
    Calm s →
    Gives (.rasStatusClear memory internal) s fun t =>
      t.host.rasMemory = (s.host.rasMemory && !memory) ∧ t.host.rasInternal = (s.host.rasInternal && !internal) ∧
      (∀ m : MasterId, RasHeld s m →
        (if isDdrCell m then memory && s.host.rasMemory else internal && s.host.rasInternal) = true →
        capture t m = { capture s m with sticky := false, grace := false }) ∧
      (∀ m : MasterId, (capture s m).cls ≠ some .u ∨
          (if isDdrCell m then memory && s.host.rasMemory else internal && s.host.rasInternal) = false →
        capture t m = capture s m) ∧
      OnlyChanges [.fault, .host, .bus] s t)

/-- RESET_SHADOW_END and CONDITION_CLEAR (R264, R268, R391): the shadow of a reset that is done ends, every other one goes on,
and a two-wire port leaves its reset idle; a condition that ends clears PRESENT and keeps the capture. -/
def ShadowsAndConditionsEnd : Prop :=
  (∀ (s : State) (m : MasterId), (s.fault.shadows.any fun h => decide (h.unit = m) && (h.done || powerBlock m)) = true →
    Calm s →
    Gives (.resetShadowEnd m) s fun t =>
      t.fault = { s.fault with shadows := s.fault.shadows.filter fun h => decide (h.unit ≠ m) } ∧
      (m = 0x6080 → t.bus.mgmt.st ≠ .portReset) ∧ (m = 0x6081 → t.bus.lcl.st ≠ .portReset) ∧
      OnlyChanges [.fault, .bus] s t) ∧
  (∀ (s : State) (m : MasterId), (s.fault.shadows.any fun h => decide (h.unit = m) && (h.done || powerBlock m)) = false →
    exec (.resetShadowEnd m) s = .next s) ∧
  (∀ (s : State) (m : MasterId), (capture s m).present = true →
    Gives (.conditionClear m) s fun t => capture t m = { capture s m with present := false } ∧
      (∀ x, x ≠ m → capture t x = capture s x) ∧ OnlyChanges [.fault] s t)

/-- How a capture, a shadow and a condition end (R263, R264, R268, R272, R275, R277). -/
def Obligations.CapturesAreAcknowledged : Prop :=
  AcknowledgeClearsCapture ∧ ShadowsAndConditionsEnd


/-! ## Registers -/

/-- REGISTER_READ over the crossbar (R6, R7, R21, R28, R130, R229, R302): a read of a register returns its value, or the
bytes of it that the access takes, and changes nothing; one of MEM_WEIR_STATS clears EXCESS_MAX, one of PWR_VMON clears its
extremes, one of the low word of PWR_TIME latches the high word, and a crew core's receives the stamp of the input it
processes; a region without power or frozen does not answer; an oar outside its windows reads 0, with a C capture of KEY 2.
-/
def CrossbarReads : Prop :=
  (∀ (s : State) (a off size : Nat) (m : MasterId), readable a = true → regionUp s a = true → a ≠ 0xF0200020 →
    vmonOf a = none → a ≠ 0xF0600000 → isOar m = false → off + size ≤ 8 → off < 8 → Calm s →
    Gives (.registerRead ⟨.xbar (a + off) size, m⟩) s (Noticed (say (.reg (lanes off size (readReg s a))) s))) ∧
  (∀ (s : State) (m : MasterId), s.seq.vddAon = true → isOar m = false → isCrewCore m = false → Calm s →
    Gives (.registerRead ⟨.xbar 0xF0600000 4, m⟩) s (Noticed { s with
      tb := { s.tb with highLatch := BitVec.ofNat 32 (s.tb.now / 2 ^ 32) }
      out := { s.out with resp := .reg (BitVec.ofNat 64 (s.tb.now % 2 ^ 32)) :: s.out.resp } }) ∧
    Gives (.registerRead ⟨.xbar 0xF0600004 4, m⟩) s (Noticed (say (.reg (s.tb.highLatch.setWidth 64)) s))) ∧
  (∀ (s : State) (c : Crew) (m : MasterId), s.seq.vddAon = true → crewOfUnit m = some c → isCrewCore m = true → Calm s →
    Gives (.registerRead ⟨.xbar 0xF0600000 8, m⟩) s (Noticed (say (.reg (word (crewOf s c).stamp)) s))) ∧
  (∀ (s : State) (m : MasterId), darkOrAux s = false → frozen s = false → isOar m = false → Calm s →
    Gives (.registerRead ⟨.xbar 0xF0200020 8, m⟩) s (Noticed { s with
      weir := { s.weir with excessMax := 0 }
      out := { s.out with resp := .reg (readReg s 0xF0200020) :: s.out.resp } })) ∧
  (∀ (s : State) (n : Fin 16) (m : MasterId), s.seq.vddAon = true → n.val < s.seq.rails.length → isOar m = false → Calm s →
    Gives (.registerRead ⟨.xbar (0xF0600100 + 8 * n.val) 8, m⟩) s fun t =>
      railAt t n.val = { railAt s n.val with maxMv := 0, minMv := 0xFFFF } ∧
      (∀ k, k ≠ n.val → railAt t k = railAt s k) ∧
      t.out.resp = .reg (readReg s (0xF0600100 + 8 * n.val)) :: s.out.resp ∧ OnlyChanges [.seq, .out, .bus] s t) ∧
  (∀ (s : State) (a size : Nat) (m : MasterId), regionUp s (a - a % 8) = false → Calm s →
    Gives (.registerRead ⟨.xbar a size, m⟩) s (Noticed s)) ∧
  (∀ (s : State) (a : Nat) (m : MasterId), a % 8 = 0 → regionUp s a = true → isOar m = true → unitExists s m = true →
    outOfWindow s m a 8 = true → (capture s m).sticky = false → Calm s →
    Gives (.registerRead ⟨.xbar a 8, m⟩) s fun t =>
      Captured s t m .c 2 m ∧ t.out.resp = .reg 0 :: s.out.resp ∧ OnlyChanges (.crew :: reportParts) s t)

/-- REGISTER_READ of a head's registers and of the serial memory (R21, R34, R38, R41, R42, R434): an aligned 8-byte read of
the persistence page returns its register, a narrower one 0 with a C capture of KEY 2 at the head port; a configuration
request before the Host region is ready is answered Request Retry Status; CDAT at full width and rate says 120 and 100 ns, 96
and 90 GB/s; the bytes of the serial memory are returned as they stand there, but an oar, none of whose windows holds it,
reads 0 with a C capture of KEY 2 (log 78). -/
def HeadAndSerialReads : Prop :=
  (∀ (s : State) (h : Fin 2) (k : Fin 512) (m : MasterId), headRegs s h = true → Calm s →
    Gives (.registerRead ⟨.bar h (0x18000 + 8 * k.val) 8, m⟩) s
      (Noticed (say (.reg (regPage s (8 * k.val))) s)) ∧
    ((capture s (headPort h)).sticky = false →
      Gives (.registerRead ⟨.bar h (0x18000 + 8 * k.val) 4, m⟩) s fun t =>
        Captured s t (headPort h) .c 2 (headPort h) ∧ t.out.resp = .reg 0 :: s.out.resp ∧
        OnlyChanges (.crew :: reportParts) s t)) ∧
  (∀ (s : State) (h : Fin 2) (r : CfgReg) (m : MasterId), (headOf s h).link = true → headPresent s h = true →
    frozen s = false →
    ((headOf s h).ready = false → exec (.registerRead ⟨.config h r, m⟩) s = .next (say (.configRetry h) s)) ∧
    ((headOf s h).ready = true → Calm s →
      Gives (.registerRead ⟨.config h r, m⟩) s (Noticed (say (.reg (cfgValue s h r)) s)))) ∧
  (∀ (s : State) (h : Fin 2) (m : MasterId), headRegs s h = true → (headOf s h).width = 16 → (headOf s h).rate = .g64 →
    Calm s →
    Gives (.registerRead ⟨.doe h, m⟩) s
      (Noticed (say (.doe h (leBytes 4 120 ++ leBytes 4 100 ++ leBytes 4 96000 ++ leBytes 4 90000)) s))) ∧
  (∀ (s : State) (off size : Nat) (m : MasterId), s.seq.vddAon = true → isOar m = false → Calm s →
    Gives (.registerRead ⟨.serial off size, m⟩) s fun t =>
      t.out.resp = .reg (word (leNat ((List.range size).map fun k => serialAt s (off + k)))) :: s.out.resp ∧
      OnlyChanges [.free, .out, .bus] s t) ∧
  (∀ (s : State) (off size : Nat) (m : MasterId), s.seq.vddAon = true → isOar m = true → unitExists s m = true →
    (capture s m).sticky = false → Calm s →
    Gives (.registerRead ⟨.serial off size, m⟩) s fun t =>
      Captured s t m .c 2 m ∧ t.out.resp = .reg 0 :: s.out.resp ∧ OnlyChanges (.crew :: reportParts) s t)

/-- REGISTER_READ of what else a head holds (R31, R37, R41, R49, R50, R61, R66, R272): a reserved range of BAR0 reads 0, and
the component and device registers and the MSI-X table what the head holds; a vector's mask, the halves and the status of an
HDM decoder and the named device registers read what the head holds; the mailbox's doorbell reads 0. A head that is down or
frozen, and a head's request to one that does not answer, change nothing. -/
def HeadHoldsItsRegisters : Prop :=
  (∀ (s : State) (h : Fin 2) (m : MasterId), headRegs s h = true → Calm s →
    (∀ off size, 0x14000 ≤ off ∧ off < 0x18000 ∨ 0x19000 ≤ off ∧ off < 0x1C000 ∨ 0x1E000 ≤ off →
      Gives (.registerRead ⟨.bar h off size, m⟩) s (Noticed (say (.reg 0) s))) ∧
    (∀ off size, off < 0x14000 → Gives (.registerRead ⟨.bar h off size, m⟩) s
      (Noticed (say (.reg (lanes (off % 8) size (barWord s h (off - off % 8)))) s))) ∧
    (∀ off size, 0x1C000 ≤ off → off < 0x1D000 → Gives (.registerRead ⟨.bar h off size, m⟩) s
      (Noticed (say (.reg (lanes (off % 8) size (msixWord s h (off - off % 8)))) s))) ∧
    (∀ (v : Fin 8) (b : Bool), Gives (.registerRead ⟨.msix h v b, m⟩) s
      (Noticed (say (.reg (BitVec.ofNat 64 (b2n ((headOf s h).msixMask.getLsbD v.val)))) s))) ∧
    (∀ (i : Fin 4) (d : Hdm), (headOf s h).hdm[i.val]? = some d →
      (Gives (.registerRead ⟨.hdmRange h i false, m⟩) s (Noticed (say (.reg (BitVec.ofNat 64 d.base)) s))) ∧
      (Gives (.registerRead ⟨.hdmRange h i true, m⟩) s (Noticed (say (.reg (BitVec.ofNat 64 d.size)) s))) ∧
      ∀ (base size ways gran : Nat) (c l : Bool),
        Gives (.registerRead ⟨.hdm h i base size ways gran c l, m⟩) s (Noticed (say (.reg (hdmStatus d)) s))) ∧
    (∀ r : DevReg, Gives (.registerRead ⟨.dev h r, m⟩) s (Noticed (say (.reg (devValue s h r)) s))) ∧
    (∀ c : MailboxCmd, Gives (.registerRead ⟨.mailbox h c, m⟩) s (Noticed (say (.reg 0) s)))) ∧
  (∀ (s : State) (h : Fin 2) (m : MasterId), headRegs s h = false →
    (∀ off size, exec (.registerRead ⟨.bar h off size, m⟩) s = .next s) ∧
    (∀ (v : Fin 8) (b : Bool), exec (.registerRead ⟨.msix h v b, m⟩) s = .next s) ∧
    (∀ (i : Fin 4) (b : Bool), exec (.registerRead ⟨.hdmRange h i b, m⟩) s = .next s) ∧
    (∀ r : DevReg, exec (.registerRead ⟨.dev h r, m⟩) s = .next s) ∧ exec (.registerRead ⟨.doe h, m⟩) s = .next s) ∧
  (∀ (s : State) (off size : Nat) (m : MasterId), s.seq.vddAon = false →
    exec (.registerRead ⟨.serial off size, m⟩) s = .next s)

/-- What a read of a register returns and does (R6, R7, R21, R28, R31, R34, R37, R38, R41, R42, R49, R50, R61, R66, R130, R229,
R272, R302, R434). -/
def Obligations.RegistersRead : Prop :=
  CrossbarReads ∧ HeadAndSerialReads ∧ HeadHoldsItsRegisters

/-- REGISTER_WRITE (R6, R21, R37, R41, R42, R43, R47, R49, R127, R274, R393): a write of the doorbell is the doorbell's
command; ones written to HST_PERSIST_STATUS clear its W1C bits and a write of another register of the page clears nothing;
CHP_FAULT_SEL takes its unit; a narrow write to the page is dropped and captured; a write to MEM_WEIR_LIMITS, or of an oar
outside its windows, is dropped and captured against its master, and so is one to a region of the serial memory that its
master may not write; a vector unmasked while pending is sent; an HDM decoder commits what it accepts, in order, and what
fits. -/
def NamedRegistersWrite : Prop :=
  (∀ (s : State) (h : Fin 2) (m : MasterId) (v : Word), headRegs s h = true →
    exec (.registerWrite (.bar h 0x18000 8) m v) s = exec (.hstMark v) s ∧
    exec (.registerWrite (.bar h 0x18008 8) m v) s = exec (.hstSettle v) s) ∧
  (∀ (s : State) (h : Fin 2) (m : MasterId) (v : Word), headRegs s h = true → Calm s →
    Gives (.registerWrite (.bar h 0x18030 8) m v) s (Noticed { s with host := { s.host with
      overshoot := s.host.overshoot && !v.getLsbD 2, settleReject := s.host.settleReject && !v.getLsbD 1
      markReject := s.host.markReject && !v.getLsbD 0 } }) ∧
    exec (.registerWrite (.bar h 0x18040 8) m v) s = .next s ∧
    ((capture s (headPort h)).sticky = false →
      Gives (.registerWrite (.bar h 0x18000 4) m v) s fun t =>
        Captured s t (headPort h) .c 2 (headPort h) ∧ OnlyChanges (.crew :: reportParts) s t)) ∧
  (∀ (s : State) (m : MasterId) (v : Word), darkOrAux s = false → frozen s = false → Calm s →
    (isOar m = false → Gives (.registerWrite (.xbar 0xF0000018 8) m v) s
      (Noticed { s with fault := { s.fault with sel := v.setWidth 16 } })) ∧
    (unitExists s m = true → (capture s m).sticky = false → isCore m = false → isOar m = false →
      Gives (.registerWrite (.xbar 0xF0200008 8) m v) s fun t =>
        Captured s t m .c 0 m ∧ OnlyChanges (.crew :: reportParts) s t) ∧
    (∀ a, a % 8 = 0 → inPowerRegion a = false → unitExists s m = true → (capture s m).sticky = false → isOar m = true →
      outOfWindow s m a 8 = true →
      Gives (.registerWrite (.xbar a 8) m v) s fun t =>
        Captured s t m .c 2 m ∧ OnlyChanges (.crew :: reportParts) s t)) ∧
  (∀ (s : State) (off size : Nat) (m : MasterId) (v : Word), s.seq.vddAon = true → Calm s →
    ((∀ k < size, serialWriter m (off + k) = true) →
      Gives (.registerWrite (.serial off size) m v) s fun t =>
        (∀ k < size, serialAt t (off + k) = (lanes k 1 v).setWidth 8) ∧ OnlyChanges [.boot, .bus] s t) ∧
    (0 < size → serialWriter m off = false → isCore m = false → isOar m = false → unitExists s m = true →
      (capture s m).sticky = false →
      Gives (.registerWrite (.serial off size) m v) s fun t =>
        Captured s t m .c 0 m ∧ OnlyChanges (.crew :: reportParts) s t)) ∧
  (∀ (s : State) (h : Fin 2) (m : MasterId) (v : Word), headRegs s h = true →
    exec (.registerWrite (.config h .bar0) m v) s =
      .next (onHead h (fun x => { x with bar0 := v.toNat / 0x20000 * 0x20000 }) s)) ∧
  (∀ (s : State) (h : Fin 2) (n : Fin 8) (m : MasterId) (v : Word), headRegs s h = true →
    (headOf s h).msixPending.getLsbD n.val = true →
    Gives (.registerWrite (.msix h n false) m v) s fun t =>
      (headOf t h).msixPending.getLsbD n.val = false ∧ (headOf t h).msixMask.getLsbD n.val = false ∧
      t.out.msix = (h.val, n.val) :: s.out.msix ∧ OnlyChanges [.host, .out] s t) ∧
  (∀ (s : State) (h : Fin 2) (i : Fin 4) (base size ways gran : Nat) (lock : Bool) (m : MasterId) (v : Word),
    headRegs s h = true → i.val < (headOf s h).hdm.length → ∀ d, (headOf s h).hdm[i.val]? = some d →
    (d.locked = false → d.committed = false → hdmAccepts base size ways gran = true →
      Gives (.registerWrite (.hdm h i base size ways gran true lock) m v) s fun t =>
        (if hdmOrder s h i base = true ∧ hdmOthers s h i + size / ways ≤ (headSpan s h).2 then
          (headOf t h).hdm[i.val]? = some { base := base, size := size, ways := ways, gran := gran, committed := true
                                            locked := lock, notCommitted := false }
        else (headOf t h).hdm[i.val]? = some { base := base, size := size, ways := ways, gran := gran, committed := false
                                               locked := false, notCommitted := true }) ∧
        (∀ k, k ≠ i.val → (headOf t h).hdm[k]? = (headOf s h).hdm[k]?) ∧ OnlyChanges [.host] s t) ∧
    (d.locked = true → ∀ c, exec (.registerWrite (.hdm h i base size ways gran c lock) m v) s = .next s))

/-- REGISTER_WRITE of the other writable fields, and of what is not writable (R6, R21, R37, R41, R49, R108, R180, R263, R327,
R469): a one clears a W1C bit of MEM_OUTFLOW_STATUS, MEM_RESTORE_STATUS, the strings' status and PWR_FREEZE_STATUS, and a
whole write to CHP_FAULT_ACK is that command; a vector masked is masked; a word of the component and device registers that no
rule values takes the bytes written; a write to any other register, to a reserved range of BAR0, to a register that only
reads, to a region without power and to a head that does not answer changes nothing. -/
def OtherRegistersWrite : Prop :=
  (∀ (s : State) (m : MasterId) (v : Word), darkOrAux s = false → frozen s = false → isOar m = false → Calm s →
    Gives (.registerWrite (.xbar 0xF0200000 8) m v) s (Noticed { s with
      pm := { s.pm with filterRecovered := s.pm.filterRecovered && !v.getLsbD 0 } }) ∧
    Gives (.registerWrite (.xbar 0xF0200028 8) m v) s (Noticed { s with
      rst := { s.rst with mediaLoss := s.rst.mediaLoss && !v.getLsbD 57 } }) ∧
    exec (.registerWrite (.xbar 0xF0000040 8) m v) s = exec (.chpFaultAck (v.setWidth 32) m) s ∧
    exec (.registerWrite (.xbar 0xF0100000 8) m v) s = exec (.hstMark v) s ∧
    exec (.registerWrite (.xbar 0xF0100008 8) m v) s = exec (.hstSettle v) s) ∧
  (∀ (s : State) (m : MasterId) (v : Word), s.seq.vddAon = true → isOar m = false → Calm s →
    Gives (.registerWrite (.xbar 0xF0600030 8) m v) s (Noticed (onStr .a (fun b =>
      { b with changed := b.changed && !v.getLsbD 57 }) s)) ∧
    Gives (.registerWrite (.xbar 0xF0600038 8) m v) s (Noticed (onStr .b (fun b =>
      { b with changed := b.changed && !v.getLsbD 57 }) s)) ∧
    Gives (.registerWrite (.xbar 0xF0600080 8) m v) s (Noticed { s with
      frz := { s.frz with lossHeld := s.frz.lossHeld && !v.getLsbD 5 } })) ∧
  (∀ (s : State) (a : Nat) (m : MasterId) (v : Word), a % 8 = 0 → regionUp s a = true → isOar m = false → Calm s →
    a ∉ [0xF0000018, 0xF0000040, 0xF0100000, 0xF0100008, 0xF0100030, 0xF0200000, 0xF0200008, 0xF0200028, 0xF0600030,
      0xF0600038, 0xF0600050, 0xF0600080] →
    Gives (.registerWrite (.xbar a 8) m v) s (Noticed s)) ∧
  (∀ (s : State) (a size : Nat) (m : MasterId) (v : Word), regionUp s (a - a % 8) = false →
    exec (.registerWrite (.xbar a size) m v) s = .next s) ∧
  (∀ (s : State) (h : Fin 2) (n : Fin 8) (m : MasterId) (v : Word), headRegs s h = true →
    Gives (.registerWrite (.msix h n true) m v) s fun t => (headOf t h).msixMask.getLsbD n.val = true ∧
      (headOf t h).msixPending = (headOf s h).msixPending ∧ t.out = s.out ∧ OnlyChanges [.host] s t) ∧
  (∀ (s : State) (h : Fin 2) (m : MasterId) (v : Word), headRegs s h = true →
    (∀ off size, 0x14000 ≤ off ∧ off < 0x18000 ∨ 0x19000 ≤ off ∧ off < 0x1C000 ∨ 0x1C080 ≤ off →
      exec (.registerWrite (.bar h off size) m v) s = .next s) ∧
    (∀ a off size, a % 8 = 0 → off < 8 → a < 0x14000 → barHdm a = none → a ≠ 0x1100 → a ≠ 0x1108 →
      exec (.registerWrite (.bar h (a + off) size) m v) s = .next (barStore h a off size v s) ∧
      barHeld (barStore h a off size v s) h a = (barHeld s h a &&& ~~~(written off size)) ||| spread off size v) ∧
    (∀ r : CfgReg, r ≠ .bar0 → exec (.registerWrite (.config h r) m v) s = .next s) ∧
    (∀ r : DevReg, exec (.registerWrite (.dev h r) m v) s = .next s) ∧
    (∀ (i : Fin 4) (b : Bool), exec (.registerWrite (.hdmRange h i b) m v) s = .next s) ∧
    exec (.registerWrite (.doe h) m v) s = .next s) ∧
  (∀ (s : State) (h : Fin 2) (m : MasterId) (v : Word), headRegs s h = false →
    (∀ off size, exec (.registerWrite (.bar h off size) m v) s = .next s) ∧
    (∀ (n : Fin 8) (b : Bool), exec (.registerWrite (.msix h n b) m v) s = .next s) ∧
    (∀ (i : Fin 4) (base size ways gran : Nat) (c l : Bool),
      exec (.registerWrite (.hdm h i base size ways gran c l) m v) s = .next s) ∧
    (∀ c : MailboxCmd, exec (.registerWrite (.mailbox h c) m v) s = .next s)) ∧
  (∀ (s : State) (off size : Nat) (m : MasterId) (v : Word), s.seq.vddAon = false →
    exec (.registerWrite (.serial off size) m v) s = .next s)

/-- What a write of a register does (R6, R21, R37, R41 to R43, R47, R49, R108, R127, R180, R263, R274, R327, R393, R469). -/
def Obligations.RegistersWrite : Prop :=
  NamedRegistersWrite ∧ OtherRegistersWrite

/-- Fields of the registers as R27, R44, R47, R127, R129, R157, R251, R252, R273, R276, R300 and R301 lay them out. -/
def Obligations.RegistersPackTheirFields : Prop :=
  ∀ s : State,
    (readReg s 0xF0000008).extractLsb' 0 8 = s.crew.seat ∧
    (readReg s 0xF0000008).getLsbD 8 = isMember s .bow ∧ (readReg s 0xF0000008).getLsbD 9 = isMember s .stroke ∧
    (readReg s 0xF0000008).extractLsb' 48 16 = BitVec.ofNat 16 s.crew.switches ∧
    (readReg s 0xF0000000).getLsbD 1 = s.clk.springLock ∧ (readReg s 0xF0000000).getLsbD 5 = s.clk.refclk ∧
    (readReg s 0xF0000010).getLsbD 63 = s.fault.chipFatal ∧
    (readReg s 0xF0000048).extractLsb' 32 32 = s.fault.fatalCause ∧
    (readReg s 0xF0100010) = BitVec.ofNat 64 s.host.epoch ∧
    (readReg s 0xF0100030).getLsbD 0 = s.host.markReject ∧ (readReg s 0xF0100030).getLsbD 7 = s.host.unprotected ∧
    (readReg s 0xF0200008).extractLsb' 32 32 = BitVec.ofNat 32 s.weir.capMiB ∧
    (readReg s 0xF0200008).extractLsb' 0 32 = BitVec.ofNat 32 s.weir.floorMiB ∧
    (readReg s 0xF0200018).extractLsb' 0 48 = BitVec.ofNat 48 (enforced s) ∧
    (readReg s 0xF0400000).extractLsb' 0 16 = BitVec.ofNat 16 s.crew.bow.rejoinTime ∧
    (readReg s 0xF0600008).extractLsb' 52 4 = BitVec.ofNat 4 s.save.halvings ∧
    (readReg s 0xF0600010).extractLsb' 61 3 = BitVec.ofNat 3 s.seq.st.num ∧
    (readReg s 0xF0600010).getLsbD 58 = s.seq.latched ∧
    (readReg s 0xF0600018).extractLsb' 0 16 = BitVec.ofNat 16 (railBits s Rail.en)


/-! ## The sequencer -/

/-- No string has failed with FAULT, which a start from DARK clears (R308). -/
def NoGaugeFault (s : State) : Prop := ∀ x, StrReason.fault ∉ (strOf s x).reasons

/-- What the end of a string's FAULT can move beside it (R81, R124, R308). -/
def clearParts : List Part := [.host, .cxl, .wb, .pm, .lake, .log, .weir, .rst, .ledger, .wl, .bat, .bus, .out]

/-- VDD_AON_VALID, STRAP_SAMPLE, BOARD_PROFILE_READ, BOARD_PROFILE_RETRY and MINIMUM_DARK_TIME (R287, R333, R431, R432, R438,
R439, R444): with VDD_AON the latch comes from serial memory and DARK is left for AUX, unless the latch's rail belongs to
AUX, and a start from DARK clears the gauges' FAULT (R308); the straps are taken once, then only compared; a valid profile
puts the rails' configuration, the enable mask and the split of the heads in force, an invalid one releases CATCH and enables
nothing, and is tried again; with no valid settings the defaults are taken. -/
def PowerUpReachesAux : Prop :=
  (∀ s : State, s.seq.vddAon = false →
    Gives .vddAonValid s fun t => t.seq.vddAon = true ∧ t.seq.latched = s.boot.latchSaved ∧
      (s.boot.latchSaved = true → t.seq.latchCause = s.boot.latchSavedCause ∧ t.seq.latchRail = s.boot.latchSavedRail) ∧
      (s.boot.latchSaved = false → t.seq.st = .aux ∧ t.seq.dir = .up ∧ t.boot.auxEntry = s.tb.now) ∧
      (s.boot.latchSaved = true → (s.od.railCfg.getD s.boot.latchSavedRail {}).state = 1 → t.seq.st = s.seq.st) ∧
      s.wl.reserved ≤ t.wl.nextSeq ∧ (∀ r ∈ s.wl.log, r.seq < t.wl.nextSeq) ∧ t.wl.log = s.wl.log ∧
      t.bus.mgmt.callPending = (s.bus.mgmt.callPending || s.boot.latchSaved) ∧
      (s.boot.latchSaved = false → NoGaugeFault t) ∧
      (NoGaugeFault s → OnlyChanges [.seq, .wl, .bus, .save, .boot] s t) ∧
      OnlyChanges (.seq :: .save :: .boot :: clearParts) s t) ∧
  (∀ (s : State) (lane : BitVec 6) (head boat test : Bool), s.seq.vddAon = true →
    (s.boot.sampled = false → s.seq.st = .aux →
      exec (.strapSample lane head boat test) s = .next { s with
        boot := { s.boot with lane := lane, headmode := head, boathouse := !boat, testmode := !test, differs := false
                              sampled := true }
        bus := { s.bus with mgmt := { s.bus.mgmt with address := BitVec.ofNat 7 (0x20 + lane.toNat) } } }) ∧
    (s.boot.sampled = true →
      exec (.strapSample lane head boat test) s = .next { s with boot := { s.boot with
        differs := decide (lane ≠ s.boot.lane) || decide (head ≠ s.boot.headmode) ||
          decide (boat = s.boot.boathouse) || decide (test = s.boot.testmode) } })) ∧
  (∀ (s : State) (f : ProfileIn), s.seq.st = .aux → s.boot.profileOk = false →
    (f.valid = true → f.settings ≠ 0 →
      Gives (.boardProfileRead f) s fun t => t.boot.profileOk = true ∧ t.boot.profileCopy = f.copy ∧
        t.boot.bootcfg = f.bootcfg.val ∧ t.boot.settings = f.settings.val ∧ t.seq.railCfg = s.od.railCfg ∧
        t.seq.mask = BitVec.ofNat 16 s.od.set.railMask ∧ t.seq.rails = s.seq.rails ∧ t.seq.st = .aux ∧
        t.host.headUnits = s.od.set.head0Units ∧ t.od = s.od ∧
        (s.bat.packid = none → OnlyChanges [.boot, .seq, .bat, .host, .bus] s t) ∧
        OnlyChanges (.boot :: .seq :: clearParts) s t) ∧
    (f.valid = true → f.settings = 0 → s.upd.trial ≠ 1 →
      Gives (.boardProfileRead f) s fun t => t.boot.profileOk = true ∧ t.od.set = defaultSettings s.cfg ∧
        t.seq.railCfg = s.od.railCfg ∧ t.seq.mask = BitVec.ofNat 16 s.od.set.railMask ∧
        t.host.headUnits = (defaultSettings s.cfg).head0Units ∧
        (s.bat.packid = none → OnlyChanges [.boot, .seq, .bat, .od, .free, .wl, .cxl, .host, .out, .bus] s t) ∧
        OnlyChanges (.boot :: .seq :: .od :: .free :: clearParts) s t) ∧
    (f.valid = false →
      Gives (.boardProfileRead f) s fun t => t.boot.profileOk = false ∧ t.seq = { s.seq with catchDrive := false } ∧
        OnlyChanges [.boot, .seq, .free, .wl, .cxl, .host, .out, .bus] s t) ∧
    (f.valid = true → f.settings ≠ 0 →
      Gives (.boardProfileRetry f) s fun t => t.boot.profileOk = true ∧ t.seq.railCfg = s.od.railCfg ∧
        t.seq.mask = BitVec.ofNat 16 s.od.set.railMask ∧ t.host.headUnits = s.od.set.head0Units ∧
        OnlyChanges (.boot :: .seq :: clearParts) s t) ∧
    (f.valid = false → exec (.boardProfileRetry f) s = .next s)) ∧
  (∀ s : State, s.seq.st = .dark → s.seq.vddAon = true → s.seq.dir ≠ .cut → auxLatch s = false →
    Gives .minimumDarkTime s fun t => t.seq.st = .aux ∧ t.seq.dir = .up ∧
      t.seq.onCommand = (s.seq.onCommand || s.seq.onPending) ∧ t.seq.onPending = false ∧
      t.boot.auxEntry = s.tb.now ∧ t.boot.profileOk = false ∧ NoGaugeFault t ∧
      (NoGaugeFault s → OnlyChanges [.seq, .boot, .save] s t) ∧ OnlyChanges (.seq :: .save :: .boot :: clearParts) s t)

/-- VDD_AON_LOSS (R155, R323, R439, R486): PWR_TIME and the Power region return to their reset values and DRAM holds nothing;
the latch record, the failed boots, the Basin image, the Lakebed's units, the ledger's commits and the Waterline stay, and
the dirty-log tail stays only if it was sealed. -/
def VddAonLossKeepsNonVolatile : Prop :=
  (∀ s : State, s.seq.vddAon = true →
    Gives .vddAonLoss s fun t => t.seq.vddAon = false ∧ t.tb = {} ∧ t.seq.latched = false ∧ t.seq.enabled = [] ∧
      t.boot.latchSaved = s.boot.latchSaved ∧ t.boot.latchSavedCause = s.boot.latchSavedCause ∧
      t.boot.latchSavedRail = s.boot.latchSavedRail ∧ t.boot.failedBoots = s.boot.failedBoots ∧
      t.boot.serial = s.boot.serial ∧ t.boot.latchPage = s.boot.latchPage ∧ t.dram.bytes = [] ∧ t.wb.entries = [] ∧ t.pm.pages = [] ∧ t.pm.residue = 0 ∧
      t.basin.image = s.basin.image.map (fun im => { im with held := [] }) ∧
      t.lake.units = s.lake.units ∧ t.lake.checkpoint = s.lake.checkpoint ∧ t.ledger.commits = s.ledger.commits ∧
      t.wl.log = s.wl.log ∧ t.wl.exported = s.wl.exported ∧
      t.log.tail = (if s.log.sealed' then s.log.tail else []) ∧ t.bat.slot0 = s.bat.slot0 ∧ t.bat.slot1 = s.bat.slot1 ∧
      t.upd.slotA = s.upd.slotA ∧ t.upd.slotB = s.upd.slotB ∧ t.od.set = s.od.set ∧ t.cxl = s.cxl ∧ t.out = s.out) ∧
  (∀ s : State, s.seq.vddAon = false → exec .vddAonLoss s = .next s)

/-- AUX_READY, CATCH_PULSE_END, MAIN_POWER_ABSENT_TIMEOUT, CATCH_RISING_EDGE, LANE_STAGGER_EXPIRY, STEP_LIMIT_WAIT,
RESET_STRETCH_END, CATCH_GLITCH and CATCH_RESYNC (R286 to R291, R298, R479): a ready device releases CATCH or pulses it; on
its rising edge a device leaves AUX, after its lane's stagger, and a state that is complete gives way to the next; a resync
sends a climbing device to DARK with a power-up pending, is counted in every state but that of a device that waits in AUX,
and moves nothing else but the level of CATCH. A hold or a latch that came in the stagger ends it. -/
def Obligations.ClimbFollowsCatch : Prop :=
  (∀ s : State, readyAux s = true → s.seq.staggering = false →
    (s.seq.catchDrive = true → exec .auxReady s = .next { s with seq := { s.seq with catchDrive := false } }) ∧
    (s.seq.catchDrive = false → s.seq.catchIn = true →
      exec .auxReady s = .next { s with
        seq := { s.seq with catchDrive := true, catchPulse := true, catchIn := false } }) ∧
    (s.boot.lane.toNat * s.od.set.staggerMs ≠ 0 →
      exec .catchRisingEdge s = .next { s with
        seq := { s.seq with catchIn := true, staggering := true, dir := .up } })) ∧
  (∀ s : State, s.seq.catchPulse = true →
    exec .catchPulseEnd s = .next { s with seq := { s.seq with catchDrive := false, catchPulse := false } }) ∧
  (∀ s : State, s.seq.st = .aux → s.seq.complete = true → s.seq.mainOk = false →
    exec .mainPowerAbsentTimeout s = .next { s with seq := { s.seq with mainAbsent := true, catchDrive := false } }) ∧
  (∀ s : State, s.seq.staggering = true → s.seq.holdAux = true ∨ s.seq.latched = true → exec .laneStaggerExpiry s = .next s) ∧
  (∀ s : State, s.seq.staggering = true → s.seq.holdAux = false → s.seq.latched = false → held s = false → s.boot.boathouse = false → s.boot.failedBoots < 3 →
    s.boot.bootcfg ≠ 0 → s.upd.trial ≠ 1 → imageOk s s.upd.active = true → Calm s →
    Gives .laneStaggerExpiry s fun t => t.seq.st = .core ∧ t.seq.dir = .up ∧ t.seq.staggering = false ∧
      t.seq.stateStart = s.tb.now ∧ t.seq.mask = BitVec.ofNat 16 s.od.set.railMask ∧
      t.clk = { xtalOk := true, springLock := true, backupLock := true, rootsStarted := true } ∧
      (∀ c, (crewOf t c).st = .loading ∧ (crewOf t c).image = s.upd.active) ∧ t.boot.stage = 1 ∧
      t.od = (thawSettings s).od ∧ NoGaugeFault t ∧
      (NoGaugeFault s → OnlyChanges [.seq, .clk, .boot, .flash, .wl, .crew, .upd, .od, .bus] s t) ∧
      OnlyChanges (.seq :: .clk :: .boot :: .flash :: .crew :: .upd :: .od :: clearParts) s t) ∧
  (∀ s : State, readyAux s = false → s.seq.complete = true → s.seq.dir = .up → 2 ≤ s.seq.st.num → s.seq.st.num ≤ 5 →
    Calm s →
    Gives .catchRisingEdge s fun t => t.seq.st.num = s.seq.st.num + 1 ∧ t.seq.dir = .up ∧ t.seq.complete = false ∧
      t.seq.stateStart = s.tb.now ∧
      (∀ n, (railAt t n).phase = (railAt s n).phase ∧ (s.seq.st ≠ .link → railAt t n = railAt s n)) ∧
      (s.seq.st = .flash → t.host.clkreq = true ∧ t.host.head0.link = !s.host.head0.perst) ∧
      (s.seq.st = .link → t.upd = { s.upd with trialMark := s.tb.now } ∧ ∀ n, n < s.seq.rails.length →
        (railAt t n).counts = {} ∧
        (railAt t n).ledger.ups = sat 0xFFFF ((railAt s n).ledger.ups + (railAt s n).counts.ups)) ∧
      (s.seq.st ≠ .link → t.upd = s.upd) ∧ OnlyChanges [.seq, .host, .upd, .bus] s t) ∧
  (∀ s : State, s.seq.vddAon = true → s.seq.st ≠ .aux → 2 ≤ s.seq.st.num → s.seq.st.num ≤ 5 → s.seq.dir = .up →
    saving s = false → s.seq.latched = false → allFallen s = false → Calm s →
    Gives .catchResync s fun t => t.seq.dir = .down ∧ t.seq.target = .dark ∧ t.seq.onPending = true ∧
      t.seq.resyncs = satInc 0xFF s.seq.resyncs ∧ t.seq.st = s.seq.st ∧
      OnlyChanges [.seq, .host, .flash, .upd, .free, .wl, .cxl, .out, .bus] s t) ∧
  (∀ s : State, s.seq.vddAon = true →
    (s.seq.st = .aux → s.seq.dir ≠ .down → s.seq.latched = false →
      exec .catchResync s = .next { s with seq := { s.seq with catchIn := false } }) ∧
    (s.seq.st = .aux ∧ (s.seq.dir = .down ∨ s.seq.latched = true) ∨
        s.seq.st ≠ .aux ∧ (s.seq.st.num < 2 ∨ 5 < s.seq.st.num ∨ s.seq.dir ≠ .up ∨ saving s = true ∨ s.seq.latched = true) →
      exec .catchResync s = .next { s with
        seq := { s.seq with resyncs := satInc 0xFF s.seq.resyncs, catchIn := false } })) ∧
  (∀ s : State, s.seq.vddAon = true →
    exec .catchGlitch s = .next { s with seq := { s.seq with glitches := satInc 0xFF s.seq.glitches } }) ∧
  (∀ s : State, waitsEdge s = true → s.seq.waitRecorded = false →
    Gives .stepLimitWait s (Reported { s with seq := { s.seq with waitRecorded := true } })) ∧
  (∀ s : State, s.seq.mrstStretch = true →
    exec (.resetStretchEnd false) s = .next { s with seq := { s.seq with mrst := false, mrstStretch := false } }) ∧
  (∀ s : State, s.seq.frstStretch = true →
    exec (.resetStretchEnd true) s = .next { s with
      seq := { s.seq with frst := false, frstStretch := false }, flash := { s.flash with wpN := false } })

/-- The commands of the climb with nothing due (R28, R286 to R291, R298, R438, R444): without VDD_AON, in another state,
before the device is ready or while its rails still move, each leaves the state as it is; a rising edge that nobody waits for
is only seen. -/
def ClimbWaits : Prop :=
  ∀ (s : State) (n : Fin 16) (code : BitVec 12) (f : ProfileIn) (b : Bool),
    (s.seq.vddAon = true → exec .vddAonValid s = .next s) ∧
    (s.seq.st ≠ .aux ∨ s.boot.profileOk = true → exec (.boardProfileRead f) s = .next s ∧ exec (.boardProfileRetry f) s = .next s) ∧
    (s.seq.st ≠ .dark ∨ s.seq.vddAon = false ∨ s.seq.dir = .cut ∨ auxLatch s = true → exec .minimumDarkTime s = .next s) ∧
    (readyAux s = false ∨ s.seq.staggering = true → exec .auxReady s = .next s ∧
      (s.seq.complete = false ∨ s.seq.dir ≠ .up ∨ s.seq.st.num < 2 ∨ 5 < s.seq.st.num →
        exec .catchRisingEdge s = .next { s with seq := { s.seq with catchIn := true } })) ∧
    (s.seq.catchPulse = false → exec .catchPulseEnd s = .next s) ∧
    (s.seq.st ≠ .aux ∨ s.seq.complete = false ∨ s.seq.mainOk = true → exec .mainPowerAbsentTimeout s = .next s) ∧
    (s.seq.staggering = false → exec .laneStaggerExpiry s = .next s) ∧
    (s.seq.vddAon = false → exec .catchResync s = .next s ∧ exec .catchGlitch s = .next s) ∧
    (waitsEdge s = false ∨ s.seq.waitRecorded = true → exec .stepLimitWait s = .next s) ∧
    (s.seq.mrstStretch = false → s.seq.frstStretch = false → exec (.resetStretchEnd b) s = .next s) ∧
    (climbing s = false → exec (.railOnDelay n) s = .next s ∧ exec .stateCompleteNoRail s = .next s) ∧
    (s.seq.dir ≠ .down → exec (.railOffDelay n) s = .next s) ∧
    ((railAt s n.val).phase ≠ .rising → exec (.railRisen n code) s = .next s ∧ exec (.riseTimeout n) s = .next s) ∧
    ((railAt s n.val).phase ≠ .falling → exec (.railFallen n code) s = .next s ∧ exec (.fallTimeout n) s = .next s)

/-- Rail `n` of `t` is rail `n` of `s` changed by `f`, and the other rails are as they were. -/
def RailBecomes (s t : State) (n : Nat) (f : Rail → Rail) : Prop :=
  railAt t n = f (railAt s n) ∧ ∀ k, k ≠ n → railAt t k = railAt s k

/-- What the completion of a state moves beside its own fields (R23, R203, R285): the population of MEMORY waits for training,
that of FLASH is identified, with a member, and dies that fail their check are retired. -/
def StateCompletes (s t : State) : Prop :=
  (s.seq.st ≠ .flash ∨ anyMember s = false → OnlyChanges [.seq, .dram, .flash, .bus] s t) ∧
    OnlyChanges [.seq, .dram, .flash, .lake, .basin, .save, .ledger, .free, .wl, .cxl, .host, .out, .bus] s t

/-- RAIL_ON_DELAY, RAIL_RISEN, STATE_COMPLETE_NO_RAIL, RAIL_OFF_DELAY, RAIL_FALLEN, FALL_TIMEOUT and RISE_TIMEOUT (R279 to
R281, R285, R287, R293, R299): a rail of the state is enabled after its delay and is ON once risen; with the last of them the
state is complete; a descent disables a state's rails and, with the last one fallen, goes to the state below; a rail that
does not fall is counted and the descent goes on; one that does not rise latches cause 2 and starts the reverse descent. -/
def Obligations.RailsClimbAndDescend : Prop :=
  (∀ (s : State) (n : Fin 16), n.val < s.seq.rails.length →
    (climbing s = true → railIn s s.seq.st.num n.val = true → (railAt s n.val).phase = .off →
      Gives (.railOnDelay n) s fun t => RailBecomes s t n.val (fun r => { r with phase := .rising }) ∧
        t.seq.enabled = s.seq.enabled ++ [n.val] ∧ OnlyChanges [.seq] s t) ∧
    (s.seq.dir = .down → s.seq.reversing = false → (railCfgAt s n.val).state = s.seq.st.num → (railAt s n.val).en = true →
      Gives (.railOffDelay n) s fun t => RailBecomes s t n.val (fun r => { r with phase := .falling }) ∧
        t.seq.enabled = setDel n.val s.seq.enabled ∧ OnlyChanges [.seq] s t)) ∧
  (∀ (s : State) (n : Fin 16) (code : BitVec 12), (railAt s n.val).phase = .rising → Calm s →
    ((climbing s = false ∨ ∃ k ∈ stateRails s s.seq.st.num, k ≠ n.val ∧ (railAt s k).phase ≠ .on) →
      Gives (.railRisen n code) s fun t => (railAt t n.val).phase = .on ∧ (railAt t n.val).pgood = true ∧
        (railAt t n.val).code = code ∧ (railAt t n.val).mv = vmonMv s n.val code ∧
        (railAt t n.val).counts.ups = satInc 0xFFFF (railAt s n.val).counts.ups ∧
        (∀ k, k ≠ n.val → railAt t k = railAt s k) ∧ t.seq.complete = s.seq.complete ∧ t.seq.st = s.seq.st ∧
        OnlyChanges [.seq, .bus] s t) ∧
    (climbing s = true → s.seq.st ≠ .online → s.lake.mapping = [] →
      (∀ k ∈ stateRails s s.seq.st.num, k ≠ n.val → (railAt s k).phase = .on) →
      Gives (.railRisen n code) s fun t => (railAt t n.val).phase = .on ∧ (railAt t n.val).pgood = true ∧
        (∀ k, k ≠ n.val → railAt t k = railAt s k) ∧ t.seq.complete = true ∧ t.seq.st = s.seq.st ∧
        (s.seq.st ≠ .aux → t.seq.catchDrive = false) ∧ StateCompletes s t)) ∧
  (∀ s : State, climbing s = true → stateRails s s.seq.st.num = [] → s.seq.st ≠ .dark → s.lake.mapping = [] → Calm s →
    Gives .stateCompleteNoRail s fun t => t.seq.complete = true ∧ t.seq.st = s.seq.st ∧ StateCompletes s t) ∧
  (∀ (s : State) (n : Fin 16) (code : BitVec 12), (railAt s n.val).phase = .falling → s.seq.dir = .down →
    s.seq.reversing = false → Calm s →
    ((∃ k ∈ stateRails s s.seq.st.num, k ≠ n.val ∧ (railAt s k).phase ≠ .off) →
      (Gives (.railFallen n code) s fun t => (railAt t n.val).phase = .off ∧ (railAt t n.val).pgood = false ∧
        (railAt t n.val).code = code ∧ (∀ k, k ≠ n.val → railAt t k = railAt s k) ∧ t.seq.st = s.seq.st ∧
        OnlyChanges [.seq, .bus] s t) ∧
      Gives (.fallTimeout n) s fun t => (railAt t n.val).phase = .off ∧
        (railAt t n.val).counts.noFall = satInc 0xFFFF (railAt s n.val).counts.noFall ∧
        (∀ k, k ≠ n.val → railAt t k = railAt s k) ∧ t.seq.st = s.seq.st ∧
        OnlyChanges [.seq, .free, .wl, .cxl, .host, .out, .bus] s t) ∧
    (3 ≤ s.seq.st.num → (∀ k ∈ stateRails s s.seq.st.num, k ≠ n.val → (railAt s k).phase = .off) →
      (∃ k ∈ stateRails s (s.seq.st.num - 1), k ≠ n.val ∧ (railAt s k).phase ≠ .off) →
      Gives (.railFallen n code) s fun t => (railAt t n.val).phase = .off ∧ t.seq.st.num = s.seq.st.num - 1 ∧
        t.seq.dir = .down ∧ (∀ k, k ≠ n.val → railAt t k = railAt s k) ∧
        OnlyChanges [.seq, .host, .flash, .bus] s t)) ∧
  (∀ (s : State) (n : Fin 16), (railAt s n.val).phase = .rising → s.seq.dir ≠ .down → Calm s →
    (s.seq.rails.any fun r => decide (r.phase = .falling)) = false → ∀ m, s.seq.enabled.getLast? = some m →
    Gives (.riseTimeout n) s fun t => t.seq.latched = true ∧ (s.seq.latched = false → t.seq.latchCause = 2 ∧
        t.seq.latchRail = n.val) ∧ t.boot.latchSaved = true ∧ t.seq.dir = .down ∧ t.seq.target = .dark ∧
      t.seq.reversing = true ∧ t.seq.enabled = setDel m s.seq.enabled ∧ (railAt t m).en = false ∧
      (railAt t n.val).counts.noRise = satInc 0xFFFF (railAt s n.val).counts.noRise ∧
      t.seq.mrstStretch = false ∧ t.seq.frstStretch = false ∧
      OnlyChanges [.seq, .boot, .flash, .free, .wl, .cxl, .host, .out, .bus] s t)

/-- No fault has cut the rails in this very cycle (R297). -/
def NoCutNow (s : State) : Prop := ∀ m, s.seq.cutMark = some m → m.time ≠ s.tb.now

/-- A fault of kind `kind` on rail `n` counts, as the first of its cycle (R281, R283, R297): the rail is supervised;
undervoltage, and loss of power good where it is no overcurrent, only while the low thresholds are evaluated; an overcurrent
only where power good is one. -/
def RailSeen (s : State) (n : Fin 16) (kind : RailFaultKind) : Prop :=
  NoCutNow s ∧ supervised s n.val = true ∧
    match kind with
    | .ovFault => True
    | .overcurrent => (railCfgAt s n.val).pgIsOc = true
    | .uvFault => evalOff s = false
    | .powerGoodLoss => (railCfgAt s n.val).pgIsOc = false ∧ evalOff s = false

/-- RAIL_FAULT on a device whose memory is ready, or that saves, and on a falling rail, and RAIL_WARNING of a SAVE_CRITICAL
rail (R150, R281 to R284, R294): the cut commits the last gasp with outcome 4 and keeps what flash holds; a fault while
falling latches cause 3, and a second fault of the cycle of the cut counts and names the lower rail; a warning of such a rail
starts a save. A rail that is not supervised moves nothing; one that is off, and a low reading while the low thresholds are
not evaluated, only leave the sample. -/
def RailFaultsCutTheSave : Prop :=
  (∀ (s : State) (n : Fin 16) (kind : RailFaultKind) (code : BitVec 12), RailSeen s n kind → (railAt s n.val).phase = .on →
    memReady s = true ∨ saving s = true → boathouse s = false → inWindow s = false → s.ledger.failed = false →
    holdRail s ≠ some n.val → s.seq.latched = false → s.log.overflow = false → Calm s →
    Gives (.railFault n kind code) s fun t => t.seq.st = .dark ∧ t.seq.latched = true ∧ t.seq.latchCause = 1 ∧
      t.seq.latchRail = n.val ∧ t.boot.latchSaved = true ∧ (∀ k, k < 16 → (railAt t k).en = false) ∧ t.seq.batsw = false ∧
      (∃ g, t.ledger.commits = { time := s.tb.now
                                 commit := .lastGasp g s.save.cursor 4 s.save.mapSaved
                                   { epoch := s.host.epoch, settled := s.host.settled, target := s.host.target } } ::
        s.ledger.commits) ∧
      t.log.sealed' = true ∧ t.dram.bytes = [] ∧ t.basin.image = s.basin.image.map (fun im => { im with held := [] }) ∧
      t.lake.units = s.lake.units) ∧
  (∀ (s : State) (n : Fin 16) (kind : RailFaultKind) (code : BitVec 12), kind = .ovFault ∨ kind = .overcurrent →
    RailSeen s n kind → (railAt s n.val).phase = .falling → s.seq.rails.length = 16 → Calm s →
    Gives (.railFault n kind code) s fun t => t.seq.st = .dark ∧ t.seq.latched = true ∧
      (s.seq.latched = false → t.seq.latchCause = 3 ∧ t.seq.latchRail = n.val) ∧ (∀ k, k < 16 → (railAt t k).en = false) ∧
      t.basin.image = s.basin.image.map (fun im => { im with held := [] }) ∧ t.ledger.commits = s.ledger.commits) ∧
  (∀ (s : State) (n : Fin 16) (kind : RailFaultKind) (code : BitVec 12) (m : CutMark), supervised s n.val = true →
    s.seq.cutMark = some m → m.time = s.tb.now → m.latches = true → (n.val, true) ∈ m.rails → evalOff s = false →
    n.val < s.seq.rails.length →
    kind = .ovFault ∨ kind = .uvFault ∨ kind = .overcurrent ∧ (railCfgAt s n.val).pgIsOc = true ∨
      kind = .powerGoodLoss ∧ (railCfgAt s n.val).pgIsOc = false → Calm s →
    Gives (.railFault n kind code) s fun t => t.seq.latchRail = min n.val s.seq.latchRail ∧
      (railAt t n.val).counts.faults = satInc 0xFFFF (railAt s n.val).counts.faults ∧
      (∀ k, k ≠ n.val → railAt t k = railAt s k) ∧ OnlyChanges [.seq, .boot, .bus] s t) ∧
  (∀ (s : State) (n : Fin 16) (ov : Bool) (code : BitVec 12), supervised s n.val = true → (railAt s n.val).phase = .on →
    ov = true ∨ evalOff s = false → (railCfgAt s n.val).saveCritical = true → s.seq.dir ≠ .down → SaveReady s →
    Gives (.railWarning n ov code) s fun t => t.save.phase = .fenced ∧ t.save.running = true ∧
      t.save.trigger = some .rail ∧ t.host.fence = true ∧ (railAt t n.val).phase = .on ∧ t.dram = s.dram ∧
      t.pm.pages = s.pm.pages ∧ t.pm.residue = s.pm.residue) ∧
  (∀ (s : State) (n : Fin 16) (kind : RailFaultKind) (ov : Bool) (code : BitVec 12),
    (supervised s n.val = false →
      exec (.railWarning n ov code) s = .next s ∧ (NoCutNow s → exec (.railFault n kind code) s = .next s)) ∧
    (supervised s n.val = true → (railAt s n.val).phase = .off → n.val < s.seq.rails.length → NoCutNow s →
      ∀ i ∈ [Instr.railWarning n ov code, .railFault n kind code], Gives i s fun t =>
        (railAt t n.val).phase = .off ∧ (railAt t n.val).counts = (railAt s n.val).counts ∧ (railAt t n.val).code = code ∧
        (railAt t n.val).mv = vmonMv s n.val code ∧ (∀ k, k ≠ n.val → railAt t k = railAt s k) ∧
        t.seq.latched = s.seq.latched ∧ OnlyChanges [.seq] s t)) ∧
  (∀ (s : State) (n : Fin 16) (code : BitVec 12), evalOff s = true → supervised s n.val = true →
    exec (.railWarning n false code) s = .next (vmonSample n.val code s) ∧
      exec (.railFault n .uvFault code) s = .next (vmonSample n.val code s))

/-- RAIL_WARNING, RAIL_FAULT, RAIL_EVAL_RESUME and JUNCTION_TEMPERATURE (R142, R151, R281 to R284, R294, R487): a warning is
counted and recorded; a fault before memory is ready latches cause 1 with its rail and cuts every rail but the LEDGER_HOLD
rail; with the battery path closed the low thresholds count again; a temperature is kept, from 115 °C it halves the dies of a
save, and from 120 °C it is chip fatal. -/
def SupervisionCuts : Prop :=
  (∀ (s : State) (n : Fin 16) (ov : Bool) (code : BitVec 12), supervised s n.val = true → (railAt s n.val).phase = .on →
    (ov = true ∨ evalOff s = false) → (railCfgAt s n.val).saveCritical = false → Calm s →
    Gives (.railWarning n ov code) s fun t => (railAt t n.val).phase = .on ∧
      (railAt t n.val).warn = beyond s n.val (vmonMv s n.val code) (railCfgAt s n.val).uvWarn (railCfgAt s n.val).ovWarn
        (railAt s n.val) ∧
      (railAt t n.val).counts.ov = (if ov then satInc 0xFFFF (railAt s n.val).counts.ov else (railAt s n.val).counts.ov) ∧
      (railAt t n.val).counts.uv = (if ov then (railAt s n.val).counts.uv else satInc 0xFFFF (railAt s n.val).counts.uv) ∧
      (∀ k, k ≠ n.val → railAt t k = railAt s k) ∧ OnlyChanges [.seq, .free, .wl, .cxl, .host, .out, .bus] s t) ∧
  (∀ (s : State) (n : Fin 16) (kind : RailFaultKind) (code : BitVec 12), RailSeen s n kind → (railAt s n.val).phase = .on →
    memReady s = false → saving s = false → s.seq.rails.length = 16 → Calm s →
    Gives (.railFault n kind code) s fun t => t.seq.st = .dark ∧ t.seq.latched = true ∧
      (s.seq.latched = false → t.seq.latchCause = 1 ∧ t.seq.latchRail = n.val) ∧ t.boot.latchSaved = true ∧
      (∀ k, (railAt t k).en = true → holdRail s = some k) ∧ t.seq.batsw = false ∧ t.seq.mrst = true ∧
      t.seq.frst = true ∧ t.dram.bytes = [] ∧ t.wb.entries = [] ∧
      t.basin.image = s.basin.image.map (fun im => { im with held := [] }) ∧
      t.ledger.commits = s.ledger.commits) ∧
  (∀ s : State, s.seq.batsw = true →
    exec .railEvalResume s = .next { s with seq := { s.seq with evalOn := true } }) ∧
  (∀ s : State, s.seq.batsw = false → exec .railEvalResume s = .next s) ∧
  (∀ (s : State) (c : Int), darkOrAux s = true → exec (.junctionTemperature c) s = .next s) ∧
  (∀ (s : State) (c : Int), darkOrAux s = false → saving s = true → c < 120 → Calm s →
    (c < 115 → Gives (.junctionTemperature c) s (Noticed { s with cxl := { s.cxl with tempC := c } })) ∧
    (115 ≤ c → 8 < s.save.dies → s.save.lastHalving = none →
      Gives (.junctionTemperature c) s fun t => t.cxl.tempC = c ∧ t.save = { s.save with
          dies := max 8 (ceilDiv s.save.dies 2), halvings := satInc 0xF s.save.halvings, lastHalving := some s.tb.now } ∧
        OnlyChanges [.save, .free, .wl, .cxl, .host, .out, .bus] s t)) ∧
  (∀ (s : State) (c : Int), darkOrAux s = false →
    (c < 105 → saving s = false →
      exec (.junctionTemperature c) s = .next { s with cxl := { s.cxl with tempC := c } }) ∧
    (105 ≤ c → c < 120 → saving s = false → Calm s →
      Gives (.junctionTemperature c) s (Reported { s with cxl := { s.cxl with tempC := c } })) ∧
    (120 ≤ c → frozen s = false → (capture s 0x6000).sticky = false → saving s = false →
      memReady s = false → allFallen s = false → Calm s →
      Gives (.junctionTemperature c) s fun t => t.cxl.tempC = c ∧ t.fault.chipFatal = true ∧
        (capture t 0x6000).cls = some .f ∧ (capture t 0x6000).key = 0x10 ∧ t.seq.dir = .down ∧ t.seq.target = .dark))

/-- OFF_COMMAND, ON_COMMAND, LATCH_CLEAR, CLEAN_SHUTDOWN_DRAINED, SHUTDOWN_CLEAN and FAILED_BOOT (R104, R160, R178, R287, R292,
R293, R295, R303, R439, R442): an off command holds a device in AUX, begins a clean shutdown ONLINE, and answers STATE while a
save runs; a drained shutdown commits its checkpoint, then its record, and powers down to AUX; the latch is cleared in serial
memory too, and ALERT_N where no ATTENTION reason is left; a failed boot is counted and powers down to DARK. -/
def CommandsOfPower : Prop :=
  (∀ (s : State) (p : Path), turnedAway s p = false → Calm s →
    (darkOrAux s = true → boathouse s = false → s.seq.dir ≠ .cut →
      Gives (.offCommand p) s (Answers p stOk { s with seq := { s.seq with
        holdAux := true, catchDrive := false, catchPulse := false, staggering := false
        dir := if s.seq.staggering then .steady else s.seq.dir } })) ∧
    (darkOrAux s = true → boathouse s = false → s.seq.dir = .cut →
      Gives (.offCommand p) s (Answers p stState s) ∧ Gives (.onCommand p) s (Answers p stState s)) ∧
    (s.seq.st = .dark ∨ s.seq.st = .aux ∧ s.seq.mainOk = true ∧ s.seq.dir ≠ .down → s.seq.dir ≠ .cut →
      s.seq.latched = false → saving s = false → boathouse s = false →
      Gives (.onCommand p) s (Answers p stOk
        { s with seq := { s.seq with holdAux := false, holdVinFell := false, onCommand := true } })) ∧
    (darkOrAux s = true → s.seq.latched = true → boathouse s = false →
      Gives (.onCommand p) s (Answers p stState s))) ∧
  (∀ (s : State) (p : Path), Served s p → Calm s →
    (saving s = true → Gives (.offCommand p) s (Answers p stState s)) ∧
    (saving s = false → s.seq.shutdown = .none → s.seq.dir ≠ .down → s.seq.st = .online → memReady s = true →
      s.rst.committed = true → s.seq.mainOk = true →
      (∀ e ∈ s.wb.entries, e.phase = .admitted) →
      Gives (.offCommand p) s fun t => t.seq.shutdown = .draining ∧ t.host.hostFence = true ∧
        t.pm.pages = s.pm.pages ∧ t.pm.residue = s.pm.residue ∧ t.save = s.save ∧ t.ledger = s.ledger ∧
        t.seq.rails = s.seq.rails)) ∧
  (∀ (s : State) (p : Path) (v : Byte), turnedAway s p = false → privilege p = 1 → darkOrAux s = true → boathouse s = false →
    Calm s →
    (v = 1 → s.seq.latched = true → s.seq.st = .dark → s.seq.dir ≠ .cut →
      s.seq.darkSince + s.od.set.darkMs * 1000000 ≤ s.tb.now →
      Gives (.latchClear p v) s fun t => t.seq.latched = false ∧ t.boot.latchSaved = false ∧ t.seq.st = .aux ∧
        t.seq.dir = .up) ∧
    (v = 1 → s.seq.latched = true → s.seq.st = .aux ∨ s.tb.now < s.seq.darkSince + s.od.set.darkMs * 1000000 →
      Gives (.latchClear p v) s (Answers p stOk { s with
        seq := { s.seq with latched := false, latchCause := 0, latchRail := 0 }
        bus := { s.bus with mgmt := { s.bus.mgmt with
          alert := s.bus.mgmt.alert && decide (s.bus.mgmt.attention &&& 7 ≠ 0) } }
        wl := { s.wl with pageSeq := s.wl.pageSeq + 1 }
        boot := { s.boot with latchSaved := false, latchSavedCause := 0, latchSavedRail := 0
                              latchPage := some (s.tb.now, s.wl.pageSeq + 1) } })) ∧
    (v = 1 → s.seq.latched = false → Gives (.latchClear p v) s (Answers p stState s)) ∧
    (v ≠ 1 → Gives (.latchClear p v) s (Answers p stRange s))) ∧
  (∀ s : State, s.seq.shutdown = .draining → s.pm.residue = 0 → frozen s = false → anyMember s = true →
    s.ledger.failed = false → Calm s → ∀ w dir, checkpointReady s = some (w, dir) →
    Gives .cleanShutdownDrained s fun t => t.seq = { s.seq with shutdown := .checkpointed } ∧
      (∃ c, t.lake.checkpoint = some c ∧ c.mapping = chunkTable w s.lake.checkpoint ∧ c.seq = s.lake.checkpointSeq + 1 ∧
        c.lakeSeq = w.lakeSeq ∧ c.dir = dir) ∧
      t.ledger.commits = { time := s.tb.now, commit := .checkpoint (s.lake.checkpointSeq + 1) dir w.lakeSeq } ::
        s.ledger.commits ∧ t.pm = { s.pm with lostSince := [] } ∧
      OnlyChanges [.seq, .lake, .pm, .ledger, .bus] s t) ∧
  (∀ s : State, s.seq.shutdown = .checkpointed → frozen s = false → anyMember s = true → s.ledger.failed = false →
    allFallen s = false → s.seq.onPending = false → Calm s →
    Gives .shutdownClean s fun t => t.seq.dir = .down ∧ t.seq.target = .aux ∧ t.seq.holdAux = true ∧
      t.ledger.commits = { time := s.tb.now
                           commit := .shutdownClean s.lake.checkpointSeq s.host.epoch s.host.settled
                             (Config.lostListPlace s.lake.checkpointSeq) } :: s.ledger.commits ∧
      OnlyChanges [.seq, .ledger, .host, .flash, .upd, .bus] s t) ∧
  (∀ (s : State) (c : BootFail), s.rst.committed = false → boathouse s = false → s.seq.vddAon = true →
    failCauseHolds s c = true → Calm s → (darkOrAux s = true ∨ s.seq.dir = .down →
      Gives (.failedBoot c) s fun t => t.boot.failedBoots = satInc 0xFF s.boot.failedBoots ∧ t.seq = s.seq ∧
        OnlyChanges [.boot, .upd, .free, .wl, .cxl, .host, .out, .bus] s t) ∧
    (darkOrAux s = false → s.seq.dir ≠ .down → allFallen s = false →
    Gives (.failedBoot c) s fun t => t.boot.failedBoots = satInc 0xFF s.boot.failedBoots ∧ t.seq.dir = .down ∧
      t.seq.target = .dark ∧ t.upd.trialFailed = (s.upd.trialFailed || decide (s.upd.trial = 1)) ∧
      OnlyChanges [.seq, .boot, .upd, .host, .flash, .free, .wl, .cxl, .out, .bus] s t))

/-- OFF_COMMAND, ON_COMMAND and LATCH_CLEAR in the other states, CLEAN_SHUTDOWN_DRAINED and SHUTDOWN_CLEAN with nothing due,
and FAILED_BOOT after RESTORED (R287, R292, R293, R295, R297, R303, R348, R353): an off command of a device that climbs
powers it down to AUX, in the early-open window it waits, and one during a clean shutdown answers STATE; an on command of a
device that powers down turns it to DARK with a power-up pending, and on one that is up it answers OK; one of a privilege
that may not give it answers ACCESS; the latch is cleared of a device that is up too. -/
def CommandsOfPowerElsewhere : Prop :=
  (∀ (s : State) (p : Path), Served s p → saving s = false → Calm s →
    (s.seq.shutdown = .draining ∨ s.seq.shutdown = .checkpointed ∨ s.seq.dir = .down ∨ s.seq.dir = .cut →
      Gives (.offCommand p) s (Answers p stState s)) ∧
    (s.seq.mainOk = false → Gives (.offCommand p) s (Answers p stState s)) ∧
    (s.seq.shutdown = .none ∨ s.seq.shutdown = .waiting → s.seq.dir ≠ .down → s.seq.dir ≠ .cut → s.seq.mainOk = true →
      inWindow s = true → s.seq.st ≠ .online ∨ s.rst.committed = false →
      Gives (.offCommand p) s (Answers p stOk { s with seq := { s.seq with shutdown := .waiting } })) ∧
    (s.seq.shutdown = .none ∨ s.seq.shutdown = .waiting → s.seq.dir ≠ .down → s.seq.dir ≠ .cut → s.seq.mainOk = true →
      inWindow s = false → memReady s = false → s.seq.onPending = false → allFallen s = false →
      Gives (.offCommand p) s fun t => t.seq.dir = .down ∧ t.seq.target = .aux ∧ t.seq.holdAux = true ∧
        t.ledger = s.ledger ∧ t.save = s.save ∧ t.pm = s.pm) ∧
    (s.seq.latched = false → s.seq.dir = .down →
      Gives (.onCommand p) s (Answers p stOk
        { s with seq := { s.seq with holdAux := false, onPending := true, target := .dark } })) ∧
    (s.seq.latched = true ∨ s.seq.dir = .cut → Gives (.onCommand p) s (Answers p stState s)) ∧
    (s.seq.latched = false → s.seq.dir ≠ .down → s.seq.dir ≠ .cut → s.seq.shutdown ≠ .none →
      Gives (.onCommand p) s (Answers p stOk { s with seq := { s.seq with onPending := true } })) ∧
    (s.seq.latched = false → s.seq.dir ≠ .down → s.seq.dir ≠ .cut → s.seq.shutdown = .none → Gives (.onCommand p) s (Answers p stOk s)) ∧
    (privilege p = 1 → s.seq.latched = true →
      Gives (.latchClear p 1) s (Answers p stOk { s with
        seq := { s.seq with latched := false, latchCause := 0, latchRail := 0 }
        bus := { s.bus with mgmt := { s.bus.mgmt with
          alert := s.bus.mgmt.alert && decide (s.bus.mgmt.attention &&& 7 ≠ 0) } }
        wl := { s.wl with pageSeq := s.wl.pageSeq + 1 }
        boot := { s.boot with latchSaved := false, latchSavedCause := 0, latchSavedRail := 0
                              latchPage := some (s.tb.now, s.wl.pageSeq + 1) } })) ∧
    (∀ v, privilege p ≠ 1 → Gives (.latchClear p v) s (Answers p stAccess s))) ∧
  (∀ (s : State) (p : Path) (v : Byte), reaches s p = false →
    exec (.offCommand p) s = .next s ∧ exec (.onCommand p) s = .next s ∧ exec (.latchClear p v) s = .next s) ∧
  (∀ (s : State) (c : BootFail),
    (s.seq.shutdown ≠ .draining ∨ s.pm.residue ≠ 0 ∨ frozen s = true ∨ anyMember s = false →
      exec .cleanShutdownDrained s = .next s) ∧
    (s.seq.shutdown ≠ .checkpointed ∨ frozen s = true ∨ anyMember s = false → exec .shutdownClean s = .next s) ∧
    (s.rst.committed = true ∨ boathouse s = true ∨ s.seq.vddAon = false ∨ failCauseHolds s c = false → exec (.failedBoot c) s = .next s))

/-- The start from VDD_AON to AUX, its loss, and the climb's commands with nothing due (R28, R286 to R291, R298, R323, R333,
R431, R438, R439, R444, R486). -/
def Obligations.PowerUpAndVddAonLoss : Prop :=
  PowerUpReachesAux ∧ VddAonLossKeepsNonVolatile ∧ ClimbWaits

/-- The supervision of the rails, and the commands that power up and down (R142, R150, R151, R281 to R284, R287, R292 to
R295, R297, R303, R353, R487). -/
def Obligations.PowerIsSupervisedAndCommanded : Prop :=
  SupervisionCuts ∧ RailFaultsCutTheSave ∧ CommandsOfPower ∧ CommandsOfPowerElsewhere


/-! ## The Reservoir gauge -/

/-- The parts that a change of a string's state may move beside the gauge: the Weir's level and what its rules release
(R118, R122), the records and the vectors. -/
def gaugeParts : List Part := [.bat, .host, .out, .rst, .pm, .lake, .wb, .log, .ledger, .weir, .free, .wl, .cxl, .bus]

/-- The charge a string has taken since its estimate was last brought up to date, with `i` more, in units of 0.1 mA ms. -/
def chargeSince (b : BatString) (i : Int) : Rat := ((b.chargeTenth + i - b.estTenth : Int) : Rat)

/-- The lower bound of a string's capacity in the same units (R318). -/
def capacityUnits (d : PackDescriptor) (b : BatString) (now : Nat) : Rat := capacityLb d b now * 36000000

/-- GAUGE_SAMPLE, THERMISTOR_OPEN, THERMISTOR_PRESENT and PACKID_READ (R305, R306, R309, R311, R312, R324): a sample adds its
current to the accumulator, whoever runs; while the crews run, a known string's charge follows it and its uncertainty grows
by time and throughput; three open thermistor samples make a string ABSENT; the first detection since power-on makes it
UNKNOWN and loses nothing, one that is back is UNKNOWN with all it learned gone; three equal PACKID readings put a code in
force. -/
def GaugeSamples : Prop :=
  (∀ (s : State) (a b : Sample), s.seq.vddAon = true → Calm s →
    Gives (.gaugeSample a b) s fun t =>
      (strOf t .a).sample = a ∧ (strOf t .b).sample = b ∧
      (strOf t .a).chargeTenth = (strOf s .a).chargeTenth + a.current ∧
      (strOf t .b).chargeTenth = (strOf s .b).chargeTenth + b.current ∧
      (strOf t .a).ntcOpen = decide (500000 < a.ntcOhm) ∧ (strOf t .a).ntcShort = decide (a.ntcOhm < 100) ∧
      (strOf t .b).openCount = (if 500000 < b.ntcOhm then min 3 ((strOf s .b).openCount + 1) else 0) ∧
      (gaugeRuns s = false → (strOf t .a).s = (strOf s .a).s ∧ (strOf t .a).st = (strOf s .a).st ∧
        OnlyChanges [.bat, .bus] s t) ∧
      (gaugeRuns s = true → ∀ d, s.bat.desc = some d → (strOf s .a).known = true → (strOf s .a).st = .counted →
        (strOf t .a).s = min 100 (max 0 ((strOf s .a).s +
          100 * chargeSince (strOf s .a) a.current / capacityUnits d (strOf s .a) s.tb.now)) ∧
        (strOf t .a).u = min 100 ((strOf s .a).u +
          (((s.tb.now : Int) - (strOf s .a).estTime : Int) : Rat) / (nsPerH : Rat) / 10 +
          |chargeSince (strOf s .a) a.current| / (2 * capacityUnits d (strOf s .a) s.tb.now))) ∧
      OnlyChanges gaugeParts s t) ∧
  (∀ (s : State) (x : Str), 3 ≤ (strOf s x).openCount → (strOf s x).st ≠ .absent → (strOf s x.other).st ≠ .learning →
    Calm s →
    Gives (.thermistorOpen x) s fun t => (strOf t x).st = .absent ∧ (strOf t x).changed = true ∧
      (strOf t x).charging = false ∧ (strOf t x).chargeTenth = (strOf s x).chargeTenth ∧
      (strOf t x.other).st = (strOf s x.other).st ∧ OnlyChanges gaugeParts s t) ∧
  (∀ (s : State) (x : Str), (strOf s x).openCount < 3 → exec (.thermistorOpen x) s = .next s) ∧
  (∀ (s : State) (x : Str), (strOf s x).st = .absent → (strOf s x).ntcOpen = false → (strOf s x).reasons = [] →
    (strOf s x).detected = false → s.bat.packid = none → s.bat.packOpen = false → Calm s →
    Gives (.thermistorPresent x) s fun t => (strOf t x).st = .unknown ∧ (strOf t x).detected = true ∧
      (strOf t x).insertion = true ∧ (strOf t x).learned = (strOf s x).learned ∧
      (strOf t x).chargeTenth = (strOf s x).chargeTenth ∧
      strOf t x.other = { strOf s x.other with charging := (strOf t x.other).charging } ∧ OnlyChanges [.bat, .bus] s t) ∧
  (∀ (s : State) (x : Str), (strOf s x).st = .absent → (strOf s x).ntcOpen = false → (strOf s x).reasons = [] →
    (strOf s x).detected = true → (strOf s x.other).st ≠ .learning → s.bat.desc.isSome = true → Calm s →
    Gives (.thermistorPresent x) s fun t => (strOf t x).st = .unknown ∧ (strOf t x).u = 100 ∧ (strOf t x).known = false ∧
      (strOf t x).learned = none ∧ (strOf t x).insertion = true ∧ (strOf t x).charging = false ∧
      (strOf t x).chargeTenth = (strOf s x).chargeTenth ∧ (strOf t x.other).st = (strOf s x.other).st ∧
      OnlyChanges gaugeParts s t) ∧
  (∀ (s : State) (mv : Nat) (ok : Bool), s.seq.vddAon = true → Calm s →
    (s.bat.reading.1 ≠ packCode mv →
      exec (.packidRead mv ok) s = .next { s with bat := { s.bat with reading := (packCode mv, 1) } }) ∧
    (s.bat.reading = (packCode mv, 2) → s.bat.packOpen = false → s.bat.packid ≠ some (packCode mv) → saving s = false →
      packCode mv < 16 →
      Gives (.packidRead mv ok) s fun t => t.bat.packid = some (packCode mv) ∧ t.bat.packOpen = false ∧
        t.bat.desc = descriptorAt s.cfg (packCode mv) ok ∧
        OnlyChanges (.save :: gaugeParts) s t) ∧
    (s.bat.reading = (packCode mv, 2) → s.bat.packOpen = false → s.bat.packid ≠ some (packCode mv) → saving s = true →
      exec (.packidRead mv ok) s = .next { s with
        bat := { s.bat with reading := (packCode mv, 3) }, save := { s.save with packWaiting := true } }))

/-- REST_QUALIFIED, INSERTION_REST, FULL_FLAG, CHARGE_RESTART and RHO_DRIFT_DAY (R309, R312, R313, R316, R321, R327): a rest
sets REST and REST_V and anchors the charge by the table's open-circuit voltage, an insertion rest with an uncertainty of at
least 5; an UNKNOWN string becomes COUNTED; the full flag anchors at 100 with no uncertainty; charging may restart once 3 %
has gone, or after 30 days; the resistance ratio drifts by 1 % a day up to its bound. -/
def GaugeAnchors : Prop :=
  (∀ (s : State) (x : Str) (d : PackDescriptor), atRest s x = true → (strOf s x).st ≠ .absent → gaugeRuns s = true →
    s.bat.desc = some d → Calm s →
    (s.seq.vddAon = true →
      Gives (.restQualified x) s fun t => (strOf t x).rest = true ∧ (strOf t x).restV = (strOf s x).sample.mv ∧
        (strOf t x).s = socAt d (((strOf s x).sample.mv : Rat) / d.series) (strTemp (strOf s x)) ∧
        (strOf t x).u = (if (strOf s x).insertion then max 5 (restU d (((strOf s x).sample.mv : Rat) / d.series)
          (strTemp (strOf s x))) else restU d (((strOf s x).sample.mv : Rat) / d.series) (strTemp (strOf s x))) ∧
        (strOf t x).known = true ∧ (strOf t x).anchor = (s.tb.now : Int) ∧ (strOf t x).insertion = false ∧
        (strOf t x).paused = false ∧
        (strOf t x).st = (if (strOf s x).st = .unknown then .counted else (strOf s x).st) ∧
        (strOf t x.other).s = (strOf s x.other).s ∧ OnlyChanges gaugeParts s t) ∧
    ((strOf s x).insertion = true →
      Gives (.insertionRest x) s fun t =>
        (strOf t x).s = socAt d (((strOf s x).sample.mv : Rat) / d.series) (strTemp (strOf s x)) ∧
        (strOf t x).u = max 5 (restU d (((strOf s x).sample.mv : Rat) / d.series) (strTemp (strOf s x))) ∧
        (strOf t x).insertion = false ∧
        (strOf t x).st = (if (strOf s x).st = .unknown then .counted else (strOf s x).st) ∧
        (strOf t x).rest = (strOf s x).rest ∧ OnlyChanges gaugeParts s t)) ∧
  (∀ (s : State) (x : Str), fullCondition s x = true → gaugeRuns s = true → Calm s →
    Gives (.fullFlag x) s fun t => (strOf t x).s = 100 ∧ (strOf t x).u = 0 ∧ (strOf t x).full = true ∧
      (strOf t x).charging = false ∧ (strOf t x).fullAt = some ((s.tb.now : Int), (strOf s x).chargeTenth) ∧
      (strOf t x).anchor = (s.tb.now : Int) ∧ (strOf t x.other).s = (strOf s x.other).s ∧
      OnlyChanges gaugeParts s t) ∧
  (∀ (s : State) (x : Str) (d : PackDescriptor) (at' q : Int), s.bat.desc = some d → (strOf s x).full = true →
    (strOf s x).fullAt = some (at', q) → 3 * ((d.cNom * 36000000 : Nat) : Int) ≤ (q - (strOf s x).chargeTenth) * 100 ∨
      at' + (30 * nsPerDay : Nat) ≤ (s.tb.now : Int) →
    Gives (.chargeRestart x) s fun t => (strOf t x).full = false ∧ (strOf t x).s = (strOf s x).s ∧
      (strOf t x).st = (strOf s x).st ∧ OnlyChanges [.bat] s t) ∧
  (∀ (s : State) (x : Str) (d : PackDescriptor) (r : Rat), s.bat.desc = some d → (strOf s x).rho = some r →
    gaugeRuns s = true → (strOf s x).rhoTime + (30 * nsPerDay : Nat) ≤ (s.tb.now : Int) →
    Gives (.rhoDriftDay x) s fun t =>
      strOf t x = { strOf s x with rho := some (max r (min
        (atTemp d d.rMax (strTemp (strOf s x)) / atTemp d d.rTyp (strTemp (strOf s x))) (r * 101 / 100))) } ∧
      strOf t x.other = strOf s x.other ∧ OnlyChanges [.bat] s t)

/-- LEARN_DUE, LEARN_NO_CURRENT, FORCED_REST_DUE, FORCED_REST_FAIL, CHARGER_ENTRY_RETRY, LEARNING_REQUEST and
PACK_CHANGE_DECLARATION (R313, R317 to R319, R324, R331, R387, R388): a learn starts when its conditions hold and its
reverse-on entries succeed, and a failed entry starts none; without current it is aborted and the string COUNTED; a forced
rest pauses charging of one string at a time and its failure ends it for a day; failed reverse-off entries hold the pause. -/
def GaugeLearns : Prop :=
  (∀ (s : State) (x : Str), gaugeRuns s = true → learnOk s x = true → (strOf s x).paused = false →
    (strOf s x.other).paused = false → Calm s →
    (learnDue s x = true → otherFirst s x = false →
      (Gives (.learnDue x true) s fun t => (strOf t x).st = .learning ∧ (strOf t x).reverse = true ∧
        (strOf t x).charging = chargeOk t x ∧ (strOf t x.other).st = .counted ∧ OnlyChanges gaugeParts s t) ∧
      (Gives (.learnDue x false) s fun t => (t.bus.lcl.lastError = 4 ∨ t.bus.lcl.lastError = 7) ∧
        OnlyChanges [.free, .wl, .cxl, .host, .out, .bus] s t)) ∧
    (learnDue s x = false ∨ otherFirst s x = true → ∀ ok, exec (.learnDue x ok) s = .next s) ∧
    (∀ p, Served s p → privilege p = 1 ∨ privilege p = 2 →
      Gives (.learningRequest p (match x with
        | .a => 1
        | .b => 2)) s fun t => (strOf t x).st = .learning ∧ (strOf t x).reverse = true ∧
          (strOf t x.other).st = .counted)) ∧
  (∀ (s : State) (p : Path), Served s p → Calm s →
    (privilege p = 0 → Gives (.learningRequest p 1) s (Answers p stAccess s)) ∧
    (∀ v : Byte, privilege p = 1 ∨ privilege p = 2 → v ≠ 1 → v ≠ 2 → Gives (.learningRequest p v) s (Answers p stRange s)) ∧
    (∀ x : Str, privilege p = 1 ∨ privilege p = 2 → learnOk s x = false →
      Gives (.learningRequest p (match x with
        | .a => 1
        | .b => 2)) s (Answers p stState s)) ∧
    (∀ v : Byte, privilege p ≠ 1 → Gives (.packChangeDeclaration p v) s (Answers p stAccess s)) ∧
    (∀ v : Byte, privilege p = 1 → v = 0 ∨ 3 < v.toNat → Gives (.packChangeDeclaration p v) s (Answers p stRange s)) ∧
    (∀ (x : Str) (v : Byte), privilege p = 1 → v = 3 ∨ v = (match x with
        | .a => 1
        | .b => 2) → (strOf s x).st ≠ .absent → (strOf s x).reasons = [] → s.bat.desc.isSome = true →
      Gives (.packChangeDeclaration p v) s fun t => (strOf t x).st = .unknown ∧ (strOf t x).known = false ∧
        (strOf t x).insertion = true ∧ (strOf t x).learned = none ∧ (strOf t x).charging = false ∧
        t.bat.packid = s.bat.packid)) ∧
  (∀ (s : State) (p : Path) (v : Byte), reaches s p = false →
    exec (.learningRequest p v) s = .next s ∧ exec (.packChangeDeclaration p v) s = .next s) ∧
  (∀ (s : State) (x : Str), (strOf s x).st = .learning → (strOf s x).reverse = true → gaugeRuns s = true →
    -(10 * s.od.set.restMa : Nat) < (strOf s x).sample.current → socLb (strOf s x) ≠ 0 → Calm s →
    Gives (.learnNoCurrent x) s fun t => (strOf t x).st = .counted ∧ (strOf t x).reverse = false ∧
      (strOf t x).learnAt = ((s.tb.now + nsPerDay : Nat) : Int) ∧ OnlyChanges gaugeParts s t) ∧
  (∀ (s : State) (x : Str), gaugeRuns s = true → (strOf s x).st = .counted → (strOf s x.other).st = .counted →
    restDue s x = true → restDue s x.other = false → (strOf s x).paused = false → (strOf s x.other).paused = false →
    Gives (.forcedRestDue x) s fun t => (strOf t x).paused = true ∧ (strOf t x).pause = true ∧
      (strOf t x).charging = false ∧ (strOf t x).s = (strOf s x).s ∧ (strOf t x.other).paused = false ∧
      OnlyChanges [.bat] s t) ∧
  (∀ (s : State) (x : Str), (strOf s x).paused = true → gaugeRuns s = true → Calm s →
    Gives (.forcedRestFail x) s fun t => (strOf t x).paused = false ∧ (strOf t x).pause = (strOf s x).offFailed ∧
      (strOf t x).retryAt = (s.tb.now : Int) + (nsPerDay : Nat) ∧ (strOf t x).st = (strOf s x).st ∧
      OnlyChanges [.bat, .free, .wl, .cxl, .host, .out, .bus] s t) ∧
  (∀ (s : State) (x : Str), (strOf s x).reverse = false → Calm s →
    (Gives (.chargerEntryRetry x false) s fun t => (strOf t x).offFailed = true ∧ (strOf t x).pause = true ∧
      (strOf t x).charging = false ∧ OnlyChanges [.bat, .free, .wl, .cxl, .host, .out, .bus] s t) ∧
    ((strOf s x).offFailed = true →
      Gives (.chargerEntryRetry x true) s fun t => (strOf t x).offFailed = false ∧
        (strOf t x).pause = (strOf s x).paused ∧ OnlyChanges [.bat, .bus] s t))

/-- GAUGE_RECORD_WRITE, PWR_CHG_CTRL_WRITE and STRING_STATE_SETTING (R322, R326, R329): a record goes into the erased slot
and to the ledger with the next sequence number, the other slot erased, and a pack change is then on record;
a landed write sets the charge currents, reverse modes and pauses; a landed setting gives a present string its state, and an
ABSENT one keeps it. -/
def GaugeSettings : Prop :=
  (∀ s : State, gaugeRuns s = true → s.ledger.failed = false →
    Gives .gaugeRecordWrite s fun t => ∃ r, t.bat.ledgerRec = some r ∧ newestRec t = some r ∧
      (s.bat.slot0 = none → t.bat.slot0 = some r ∧ t.bat.slot1 = none) ∧
      (s.bat.slot0 ≠ none → t.bat.slot1 = some r ∧ t.bat.slot0 = none) ∧
      (∀ o, newestRec s = some o → r.seq = o.seq + 1) ∧ r.time = s.tb.now ∧ r.packid = s.bat.packid.getD 0 ∧
      r.a.charge = (strOf s .a).chargeTenth / 10 ∧ r.a.st = (strOf s .a).st ∧ r.b.st = (strOf s .b).st ∧
      strOf t .a = { strOf s .a with refit := false } ∧ strOf t .b = { strOf s .b with refit := false } ∧
      OnlyChanges [.bat] s t) ∧
  (∀ (s : State) (v : BitVec 32), darkOrAux s = false →
    Gives (.pwrChgCtrlWrite v) s fun t => (strOf t .a).iset = v.extractLsb' 8 8 ∧ (strOf t .b).iset = v.extractLsb' 16 8 ∧
      (strOf t .a).pause = v.getLsbD 2 ∧ (strOf t .b).pause = v.getLsbD 3 ∧ (strOf t .a).reverse = v.getLsbD 4 ∧
      (strOf t .b).reverse = v.getLsbD 5 ∧ (strOf t .a).s = (strOf s .a).s ∧ OnlyChanges [.bat] s t) ∧
  (∀ (s : State) (x : Str) (k : StrState) (r : StrReason) (z : Bool), darkOrAux s = false → Calm s →
    (k ≠ .absent → (strOf s x).st ≠ .absent →
      Gives (.stringStateSetting x k r z) s fun t => (strOf t x).st = k ∧ (strOf t x).reason = r ∧
        (strOf t x).paused = z ∧ (strOf t x).s = (strOf s x).s ∧ (strOf t x.other).st = (strOf s x.other).st ∧
        OnlyChanges gaugeParts s t) ∧
    (k = .absent ∨ (strOf s x).st = .absent → Gives (.stringStateSetting x k r z) s (Noticed s)))

/-- The gauge's commands with nothing due (R309, R311 to R313, R316, R319, R321, R322, R325, R329): without VDD_AON nothing
is sampled; while no crew runs, the device is frozen or the condition of a command does not hold, the strings stay as they
are; the registers take nothing in DARK and AUX. -/
def GaugeWaits : Prop :=
  ∀ (s : State) (x : Str) (a b : Sample) (n : Nat) (ok : Bool) (v : BitVec 32) (k : StrState) (r : StrReason),
    (s.seq.vddAon = false → exec (.gaugeSample a b) s = .next s ∧ exec (.packidRead n ok) s = .next s) ∧
    ((strOf s x).st ≠ .absent ∨ (strOf s x).ntcOpen = true → exec (.thermistorPresent x) s = .next s) ∧
    ((strOf s x).st = .absent ∨ atRest s x = false ∨ s.seq.vddAon = false → exec (.restQualified x) s = .next s) ∧
    ((strOf s x).insertion = false ∨ atRest s x = false ∨ gaugeRuns s = false → exec (.insertionRest x) s = .next s) ∧
    (fullCondition s x = false ∨ gaugeRuns s = false → exec (.fullFlag x) s = .next s) ∧
    ((strOf s x).full = false ∨ (strOf s x).fullAt = none ∨ s.bat.desc = none → exec (.chargeRestart x) s = .next s) ∧
    ((strOf s x).rho = none ∨ s.bat.desc = none ∨ gaugeRuns s = false → exec (.rhoDriftDay x) s = .next s) ∧
    (gaugeRuns s = false ∨ learnOk s x = false ∨ (strOf s x).paused = true → exec (.learnDue x ok) s = .next s) ∧
    ((strOf s x).st ≠ .learning ∨ (strOf s x).reverse = false ∨ gaugeRuns s = false →
      exec (.learnNoCurrent x) s = .next s) ∧
    (gaugeRuns s = false ∨ (strOf s x).st ≠ .counted ∨ restDue s x = false ∨ (strOf s x).paused = true →
      exec (.forcedRestDue x) s = .next s) ∧
    ((strOf s x).paused = false ∨ gaugeRuns s = false → exec (.forcedRestFail x) s = .next s) ∧
    ((strOf s x).reverse = true → exec (.chargerEntryRetry x ok) s = .next s) ∧
    (gaugeRuns s = false → exec .gaugeRecordWrite s = .next s) ∧
    (darkOrAux s = true → exec (.pwrChgCtrlWrite v) s = .next s ∧ exec (.stringStateSetting x k r ok) s = .next s)

/-- The samples and the anchors of the Reservoir gauge (R305, R306, R309, R311 to R313, R316, R321, R324, R327). -/
def Obligations.GaugeFollowsTheStrings : Prop :=
  GaugeSamples ∧ GaugeAnchors

/-- Learning, forced rests, the settings of the gauge, and when its commands change nothing (R309, R311 to R313, R316 to
R319, R321, R322, R324 to R326, R329). -/
def Obligations.GaugeLearnsAndIsSet : Prop :=
  GaugeLearns ∧ GaugeSettings ∧ GaugeWaits


/-! ## The Waterline and the ledger -/

/-- The record that a request `r` makes in `s` (R333, R334, R336). -/
def wlRecordOf (s : State) (r : WlReq) (staged part : Bool) (snap : List Word) : WlRec :=
  { time := s.tb.now, seq := s.wl.nextSeq, source := r.source, severity := r.severity, code := r.code
    arg := BitVec.ofNat 32 r.arg.toNat, staged := staged, partial' := part, fallback := s.ledger.failed
    conseq := r.conseq, snapshot := snap }

/-- The next sequence number is issued, and serial memory reserves it (R333). -/
def NumberIssued (s t : State) : Prop :=
  t.wl.nextSeq = (s.wl.nextSeq + 1) % 2 ^ 64 ∧ s.wl.nextSeq < t.wl.reserved ∧ s.wl.reserved ≤ t.wl.reserved

/-- WATERLINE_RECORD (R332, R333, R336, R339, R343): a record takes the next number, PWR_TIME and the full snapshot. It goes
into an empty slot; into a full log over the lowest number of its own severity or lower; with no such record it is dropped
and its severity's counter counts it. A written record of severity 2 or lower reaches the information log, unless it is
consequential. -/
def WaterlineWrites : Prop :=
  ∀ (s : State) (r : WlReq), crewPath s = true → s.ledger.failed = false → (s.wl.ring.any fun x => x.staged) = false →
    (s.wl.log.length < logSlots →
      Gives (.waterlineRecord r) s fun t => NumberIssued s t ∧
        t.wl.log = s.wl.log ++ [wlRecordOf s r false false (snapshotFull s (r.code.toNat / 256))] ∧
        t.wl.ring = s.wl.ring ∧ t.wl.drops = s.wl.drops ∧
        (r.conseq = true → t.cxl = s.cxl) ∧
        (r.conseq = false → r.severity.val ≤ 2 → s.cxl.info.recs.length < 256 →
          let x := wlRecordOf s r false false (snapshotFull s (r.code.toNat / 256))
          t.cxl = { s.cxl with info := { s.cxl.info with recs := s.cxl.info.recs ++
            [{ kind := eventKind x, record := x }] } }) ∧
        OnlyChanges [.wl, .cxl, .host, .out, .bus] s t) ∧
    (logSlots ≤ s.wl.log.length → (s.wl.log.all fun x => decide (r.severity < x.severity)) = true →
      Gives (.waterlineRecord r) s fun t => NumberIssued s t ∧ t.wl.log = s.wl.log ∧ t.wl.ring = s.wl.ring ∧
        t.wl.drops = listUpd r.severity.val (satInc 0xFFFFFFFF) s.wl.drops ∧ t.cxl = s.cxl ∧
        OnlyChanges [.wl, .bus] s t) ∧
    (∀ (k : Nat) (x : WlRec), logSlots ≤ s.wl.log.length → s.wl.log[k]? = some x → x.severity ≤ r.severity →
      ((s.wl.log.take k).all fun y => decide (r.severity < y.severity)) = true →
      Gives (.waterlineRecord r) s fun t => NumberIssued s t ∧
        t.wl.log = s.wl.log.eraseIdx k ++ [wlRecordOf s r false false (snapshotFull s (r.code.toNat / 256))] ∧
        t.wl.drops = s.wl.drops ∧ OnlyChanges [.wl, .cxl, .host, .out, .bus] s t)

/-- WATERLINE_RECORD while the ledger is failed, and while STAGED records wait (R332, R340, R343): the record goes into the
fallback ring, marked FALLBACK; records that were STAGED move into the log first, no longer STAGED. -/
def WaterlineWritesElsewhere : Prop :=
  (∀ (s : State) (r : WlReq), crewPath s = true → s.ledger.failed = true → (s.wl.ring.any fun x => x.staged) = false →
    s.wl.ring.length < ringSlots →
    Gives (.waterlineRecord r) s fun t => NumberIssued s t ∧
      t.wl.ring = s.wl.ring ++ [wlRecordOf s r false false (snapshotFull s (r.code.toNat / 256))] ∧ t.wl.log = s.wl.log ∧
      OnlyChanges [.wl, .cxl, .host, .out, .bus] s t) ∧
  (∀ (s : State) (r : WlReq) (x : WlRec), crewPath s = true → s.ledger.failed = false → s.wl.ring = [x] → x.staged = true →
    s.wl.log.length + 2 < logSlots →
    Gives (.waterlineRecord r) s fun t => t.wl.ring = [] ∧ t.wl.log.length = s.wl.log.length + 3 ∧ s.wl.log <+: t.wl.log ∧
      t.wl.log[s.wl.log.length]? = some { x with staged := false } ∧
      (∃ y, t.wl.log.getLast? = some y ∧ y.code = r.code ∧ y.severity = r.severity ∧ y.source = r.source ∧ y.time = s.tb.now) ∧
      OnlyChanges [.wl, .cxl, .host, .out, .bus] s t)

/-- STAGED_RECORD (R332, R336, R340): with no member the Power region writes the record into its ring, STAGED, with the
registers it can read; no event log has it yet. -/
def StagingWrites : Prop :=
  (∀ (s : State) (r : WlReq), crewPath s = false → s.seq.vddAon = true → s.wl.ring.length < ringSlots →
    Gives (.stagedRecord r) s fun t => NumberIssued s t ∧
      (∃ part, t.wl.ring = s.wl.ring ++ [wlRecordOf s r true part (snapshotStaged s (r.code.toNat / 256))]) ∧
      t.wl.log = s.wl.log ∧ OnlyChanges [.wl, .bus] s t) ∧
  (∀ (s : State) (r : WlReq), crewPath s = true → exec (.stagedRecord r) s = .next s) ∧
  (∀ (s : State) (r : WlReq), crewPath s = false → exec (.waterlineRecord r) s = .next s)

/-- LEDGER_COMMIT, WATERLINE_EXPORT and LEDGER_TEST (R147, R153, R339 to R341, R499): a landed commit stands in the ledger
with PWR_TIME, newest first, or, while the ledger is failed, is held with the same time, and a bucket's open or retirement
with its log position; while the ledger is failed an export appends what the ring has that no export had; a ledger that
passes its test at a start takes the held commits and is used again, one that fails it stays failed, and records whose CRC
fails are gone. -/
def Obligations.LedgerKeepsCommits : Prop :=
  (∀ (s : State) (c : OtherCommit), crewPath s = true → s.ledger.failed = false →
    Gives (.ledgerCommit c) s fun t =>
      t.ledger.commits = { time := s.tb.now, commit := .other c } :: s.ledger.commits ∧ t.ledger.failed = false ∧
      (∀ slot e, c = .bucketOpen slot e →
        tabFind slot t.ledger.buckets = some { epoch := e, openPos := s.log.pos }) ∧
      (∀ slot b, c = .bucketRetire slot → tabFind slot s.ledger.buckets = some b → b.retirePos = none →
        tabFind slot t.ledger.buckets = some { b with retirePos := some s.log.pos }) ∧
      (c = .gpfPhase2 → t.host = { s.host with gpf := .phase2Done }) ∧
      (c = .plan → OnlyChanges [.ledger] s t) ∧ OnlyChanges [.ledger, .dram, .seq, .host] s t) ∧
  (∀ (s : State) (c : OtherCommit), crewPath s = true → s.ledger.failed = true →
    Gives (.ledgerCommit c) s fun t => t.ledger.commits = s.ledger.commits ∧ t.ledger.failed = true ∧
      t.ledger.fallback = { time := s.tb.now, commit := .other c, held := some s.wl.nextSeq } :: s.ledger.fallback ∧
      OnlyChanges [.free, .ledger, .dram, .seq, .wl, .cxl, .host, .out, .bus] s t) ∧
  (∀ (s : State) (c : OtherCommit), crewPath s = false → exec (.ledgerCommit c) s = .next s) ∧
  (∀ (s : State) (ok : Bool) (bad : List Nat), s.ledger.testDue = false ∨ darkOrAux s = true ∨ s.rst.begun = true →
    exec (.ledgerTest ⟨ok, bad⟩) s = .next s) ∧
  (∀ s : State, s.ledger.failed = true → s.seq.vddAon = true →
    (Gives (.waterlineExport true) s fun t =>
      let new := s.wl.ring.filter fun r => decide (s.wl.exportFrom ≤ r.seq)
      (s.wl.exported.length + new.length ≤ exportSlots → t.wl.exported = s.wl.exported ++ new) ∧
      t.wl.chunks.head? = (if 32 + 160 * new.length ≤ 8 * mib then some (s.wl.exportOff, (new.map (·.seq)).headD s.wl.exportFrom, new.length)
        else none) ∧
      t.wl.lastExport = some s.tb.now ∧ t.wl.exportFrom = s.wl.nextSeq ∧ t.wl.ring = s.wl.ring ∧ t.wl.log = s.wl.log ∧
      OnlyChanges [.wl] s t) ∧
    Gives (.waterlineExport false) s (Reported s)) ∧
  (∀ s : State, s.ledger.failed = false → ∀ ok, exec (.waterlineExport ok) s = .next s) ∧
  (∀ s : State, s.ledger.testDue = true → darkOrAux s = false → s.rst.begun = false →
    ∀ bad : List Nat, let good := s.wl.log.filter fun r => !bad.contains r.seq
    (Gives (.ledgerTest ⟨true, bad⟩) s fun t => t.ledger.failed = false ∧ t.ledger.degraded = false ∧
      t.ledger.commits = heldCommits s.ledger ++ s.ledger.commits ∧ t.ledger.fallback = [] ∧ t.wl.ring = [] ∧
      (s.wl.exported = [] → s.wl.ring = [] → t.wl.log = good) ∧ OnlyChanges [.ledger, .wl] s t) ∧
    exec (.ledgerTest ⟨false, bad⟩) s = .next { s with
      ledger := { s.ledger with testDue := false }
      wl := { s.wl with log := good, corrupt := sat 0xFF (s.wl.corrupt + (s.wl.log.length - good.length)) } })

/-- The bytes of records in the format asked for, without the terminator of FB3 (R67, R337, R338). -/
def recordBytes (fb3 : Bool) (l : List WlRec) : List Byte := (l.map fun r => if fb3 then wlFb3 r else wlNative r).flatten

/-- WATERLINE_READ (R67, R337, R338, R342): the records from `first` on of the severity asked for, as many as the maximum and
8,176 bytes take, are listed whole in the format asked for, with the number after the last and FB3's terminator; reading
removes nothing. Nothing is served while the device is frozen, or to a path that does not reach it. -/
def WaterlineReads : Prop :=
  (∀ (s : State) (p : Path) (first maximum : Nat) (fb3 : Bool) (sev : Fin 8), Served s p →
    let l := (readableRecs s).filter fun r => decide (first ≤ r.seq ∧ sev.val ≤ r.severity.val)
    ∃ out : List WlRec, out <+: l ∧ out.length ≤ maximum ∧ (recordBytes fb3 out).length + (if fb3 then 2 else 0) ≤ 8176 ∧
      (out.length < maximum → ∀ r, l[out.length]? = some r →
        8176 < (recordBytes fb3 (out ++ [r])).length + (if fb3 then 2 else 0)) ∧
      exec (.waterlineRead p first maximum fb3 sev) s = .next (reply p stOk
        (leBytes 1 (if fb3 then 1 else 0) ++ leBytes 2 out.length ++
          leBytes 8 (match out.getLast? with
            | some r => r.seq + 1
            | none => first) ++
          leBytes 4 ((recordBytes fb3 out).length + (if fb3 then 2 else 0)) ++ recordBytes fb3 out ++
          (if fb3 then [0, 0] else [])) s)) ∧
  (∀ (s : State) (p : Path) (first maximum : Nat) (fb3 : Bool) (sev : Fin 8), reaches s p = false →
    exec (.waterlineRead p first maximum fb3 sev) s = .next s) ∧
  (∀ (s : State) (p : Path) (first maximum : Nat) (sev : Fin 8), Served s p →
    let l := (readableRecs s).filter fun r => decide (first ≤ r.seq ∧ sev.val ≤ r.severity.val)
    l.length ≤ maximum → ((l.map wlNative).flatten).length ≤ 8176 →
    exec (.waterlineRead p first maximum false sev) s = .next (reply p stOk
      (leBytes 1 0 ++ leBytes 2 l.length ++
        leBytes 8 (match l.getLast? with
          | some r => r.seq + 1
          | none => first) ++
        leBytes 4 ((l.map wlNative).flatten).length ++ (l.map wlNative).flatten) s)) ∧
  (∀ (s : State) (p : Path) (first maximum : Nat) (sev : Fin 8), turnedAway s p = false → darkOrAux s = false →
    frozen s = true → ∀ fb3,
    exec (.waterlineRead p first maximum fb3 sev) s = .next (reply p stBusy (List.replicate 15 0) s))

/-- How a record is written, staged and read (R66, R67, R332, R333, R336, R339, R340, R342, R343). -/
def Obligations.WaterlineKeepsRecords : Prop :=
  WaterlineWrites ∧ WaterlineWritesElsewhere ∧ StagingWrites ∧ WaterlineReads


/-! ## The Object Dictionary -/

/-- The requester holds no segmented write and no view, and none of its that ended is remembered (R356). -/
def NoSession (s : State) (p : Path) : Prop :=
  sessionOf s (sessionKey p) = none ∧ (s.od.ended.filter fun e => decide (e.1 = sessionKey p)) = []

/-- An unsecured MCTP request at MGMT. -/
def overMgmt : Path → Bool
  | .smbus _ => true
  | _ => false

/-- A request for entry `i` is evaluated: as any is, or one that the Power region serves by itself, in DARK and AUX by every
path that reaches the device, and in a freeze by MGMT (R296, R365, R390, R458). -/
abbrev EntryServed (s : State) (p : Path) (i : BitVec 16) : Prop :=
  Served s p ∨ turnedAway s p = false ∧ (i.toNat / 0x1000 = 1 ∨ i.toNat / 0x1000 = 3) ∧
    (darkOrAux s = true ∨ frozen s = true ∧ boathouse s = false ∧ overMgmt p = true)

/-- OD_READ (R61, R62, R350, R357, R365, R368, R369): a fixed-size entry is returned whole with its type code and length;
0x2001 reads the residue, 0x2002 the enforced level; an unknown entry answers NO_ENTRY, the factory range LOCKED, a
write-only entry ACCESS, an offset past the end RANGE; every entry, a string, a list and an array too, is returned from its
offset on, as the size of an answer lets it, and a read at a view point fixes its values for the requester. -/
def OdReads : Prop :=
  (∀ (s : State) (p : Path), Served s p → NoSession s p →
    (∀ (i : BitVec 16) (k : BitVec 8) (f : OdField), i.toNat < 0xF000 → odField s i.toNat k.toNat = some f → f.acc ≠ .wo →
      odSize f.typ ≠ 0 →
      (viewCover i.toNat k.toNat 0 = [] →
        exec (.odRead p i k 0) s = .next (reply p stOk
          (leBytes 1 (odCode f.typ) ++ leBytes 2 0 ++ leBytes 4 (odSize f.typ) ++ leBytes 4 (odSize f.typ) ++
            leBytes (odSize f.typ) (odInt s i.toNat k.toNat)) { s with free := s.free + 16 })) ∧
      (∀ o, odSize f.typ < o → viewCover i.toNat k.toNat o = [] →
        exec (.odRead p i k o) s = .next (reply p stRange (List.replicate 11 0) s))) ∧
    exec (.odRead p 0x2001 0 0) s = .next (reply p stOk
      ([5, 0, 0, 8, 0, 0, 0, 8, 0, 0, 0] ++ leBytes 8 s.pm.residue) { s with free := s.free + 16 }) ∧
    exec (.odRead p 0x2002 0 0) s = .next (reply p stOk
      ([5, 0, 0, 8, 0, 0, 0, 8, 0, 0, 0] ++ leBytes 8 (enforced s)) { s with free := s.free + 16 }) ∧
    (∀ (i : BitVec 16) (k : BitVec 8) (o : Nat), i.toNat < 0xF000 → odField s i.toNat k.toNat = none →
      exec (.odRead p i k o) s = .next (reply p stNoEntry (List.replicate 11 0) s)) ∧
    (s.boot.testmode = false →
      exec (.odRead p 0xF000 0 0) s = .next (reply p stLocked (List.replicate 11 0) s)) ∧
    exec (.odRead p 0x2040 0 0) s = .next (reply p stAccess (List.replicate 11 0) s) ∧
    exec (.odRead p 0x2001 0 9) s = .next (reply p stRange (List.replicate 11 0) s) ∧
    (Gives (.odRead p 0x2004 0 0) s fun t => ∀ k, k ≤ 10 →
      viewed t (sessionKey p) 0x2004 k = some (odValue s 0x2004 k))) ∧
  (∀ (s : State) (p : Path) (i : BitVec 16) (k : BitVec 8) (f : OdField) (o : Nat), EntryServed s p i → NoSession s p →
    i.toNat < 0xF000 → odField s i.toNat k.toNat = some f →
    (f.acc ≠ .wo → o ≤ (odBytes s i.toNat k.toNat f.typ).length →
      Gives (.odRead p i k o) s fun t =>
        (∃ l e, t = reply p stOk (readOut (odCode f.typ) (odBytes s i.toNat k.toNat f.typ).length
            (slice f.typ o (odBytes s i.toNat k.toNat f.typ)))
          { s with od := { s.od with sessions := l, ended := e }, free := s.free + 16 }) ∧
        ∀ x ∈ viewCover i.toNat k.toNat o, ∀ n ∈ odSubs s x, viewed t (sessionKey p) x n = some (odValue s x n)) ∧
    (f.acc = .wo → exec (.odRead p i k o) s = .next (reply p stAccess (List.replicate 11 0) s))) ∧
  (∀ (s : State) (p : Path) (i : BitVec 16) (k : BitVec 8) (o : Nat), turnedAway s p = false → darkOrAux s = true →
    i.toNat / 0x1000 ≠ 1 → i.toNat / 0x1000 ≠ 3 →
    exec (.odRead p i k o) s = .next (reply p stState (List.replicate 11 0) s)) ∧
  (∀ (s : State) (p : Path) (i : BitVec 16) (k : BitVec 8) (o : Nat), turnedAway s p = false → darkOrAux s = false →
    frozen s = false → emptySet s = true → boathouse s = false →
    exec (.odRead p i k o) s = .next (reply p stBusy (List.replicate 11 0) s)) ∧
  (∀ (s : State) (p : Path) (i : BitVec 16) (k : BitVec 8) (o : Nat), reaches s p = false → exec (.odRead p i k o) s = .next s)

/-- OD_WRITE and RESTORE_MODE_WRITE (R62, R351, R353, R355, R365): a setting in range by a privilege that may write it takes
its value and its bytes of the settings copy; the checks come first, in the order of R365: the entry, the access, an empty
value, the type, the range, a copy that is full or in work, and a store that fails. A write to a fixed-size entry at another
offset is of the wrong type, and one on a path that does not reach the device does nothing. -/
def OdWrites : Prop :=
  (∀ (s : State) (p : Path) (i : BitVec 16) (k : BitVec 8) (last : Bool) (o : Nat) (d : List Byte) (st : Bool) (v : Byte),
    reaches s p = false → exec (.odWrite p i k last o d st) s = .next s ∧ exec (.restoreModeWrite p v) s = .next s) ∧
  ∀ (s : State) (p : Path), Served s p → NoSession s p → s.od.workingCopy = false → s.upd.trial ≠ 1 →
    s.od.used + 16 < 196608 → Calm s →
    (privilege p = 1 ∨ privilege p = 2 →
      (∀ v : Byte, v.toNat ≤ 100 →
        Gives (.odWrite p 0x5001 0 true 0 [v] true) s (Answers p stOk { s with od := { s.od with
          set := { s.od.set with graceMs := v.toNat }, used := s.od.used + 16
          records := s.od.records ++ [{ index := 0x5001, sub := 0, typ := 2, value := [v] }] } })) ∧
      (∀ v : Byte, 100 < v.toNat →
        Gives (.odWrite p 0x5001 0 true 0 [v] true) s (Answers p stRange s)) ∧
      Gives (.odWrite p 0x5001 0 true 0 [] true) s (Answers p stLengthZero s) ∧
      Gives (.odWrite p 0x5001 0 true 0 [1, 0] true) s (Answers p stType s) ∧
      Gives (.odWrite p 0x5001 0 true 1 [1] true) s (Answers p stType s) ∧
      Gives (.odWrite p 0x5001 0 true 0 [1] false) s (Answers p stMedia s)) ∧
    (privilege p = 0 →
      Gives (.odWrite p 0x5001 0 true 0 [1] true) s (Answers p stAccess s) ∧
      (s.rst.begun = false ∨ s.rst.committed = true → ∀ v : Byte, v.toNat ≤ 1 →
        Gives (.restoreModeWrite p v) s (Answers p stOk { s with od := { s.od with
          set := { s.od.set with restoreMode := v.toNat }, used := s.od.used + 16
          records := s.od.records ++ [{ index := 0x2030, sub := 0, typ := 2, value := [v] }] } })) ∧
      (∀ v : Byte, 1 < v.toNat → Gives (.restoreModeWrite p v) s (Answers p stRange s))) ∧
    (privilege p ≠ 0 → ∀ v, Gives (.restoreModeWrite p v) s (Answers p stAccess s)) ∧
    (∀ (d : List Byte) (st : Bool), Gives (.odWrite p 0x2001 0 true 0 d st) s (Answers p stAccess s)) ∧
    (∀ (d : List Byte) (st : Bool), Gives (.odWrite p 0x0FFF 0 true 0 d st) s (Answers p stNoEntry s))

/-- OD_WRITE of every entry (R62, R63, R131, R279, R298, R335, R351 to R353, R355, R365, R368): a setting that is in range
and of its type, by a privilege that may write it, is in force with its record appended, whatever LAST says (the model's
choice, log 82); a rail's configuration, the reset outputs and the snapshot lists likewise; an entry that is written to act
is its command; the refusals in the order of R365. -/
def OdWritesEveryEntry : Prop :=
  ∀ (s : State) (p : Path) (last st : Bool), NoSession s p → Calm s →
    (∀ (i : BitVec 16) (k : BitVec 8) (f : OdField) (d : List Byte) (o : Nat), EntryServed s p i → i.toNat < 0xF000 →
      odField s i.toNat k.toNat = some f →
      (f.acc ≠ .rws → f.acc ≠ .wo → Gives (.odWrite p i k last o d st) s (Answers p stAccess s)) ∧
      (f.wr.testBit (privilege p) = false ∨ isElement i.toNat k.toNat = true →
        Gives (.odWrite p i k last o d st) s (Answers p stAccess s)) ∧
      (f.acc = .rws ∨ f.acc = .wo → f.wr.testBit (privilege p) = true → isElement i.toNat k.toNat = false →
        (f.typ ≠ .domain → d = [] → Gives (.odWrite p i k last o d st) s (Answers p stLengthZero s)) ∧
        (f.typ ≠ .domain → f.typ ≠ .arr → d ≠ [] → o ≠ 0 ∨ d.length ≠ odSize f.typ →
          Gives (.odWrite p i k last o d st) s (Answers p stType s)) ∧
        (f.acc = .rws → f.typ ≠ .domain → f.typ ≠ .arr → d ≠ [] → d.length = odSize f.typ → inBoard i.toNat = false →
          (settingOk s (i.toNat, k.toNat) (leNat d) = false →
            Gives (.odWrite p i k last 0 d st) s (Answers p stRange s)) ∧
          (settingOk s (i.toNat, k.toNat) (leNat d) = true →
            (s.od.workingCopy = true ∨ 262144 < s.od.used + settingRecord d.length →
              Gives (.odWrite p i k last 0 d st) s (Answers p stBusy s)) ∧
            (s.od.workingCopy = false → s.od.used + settingRecord d.length ≤ 262144 →
              Gives (.odWrite p i k last 0 d false) s (Answers p stMedia s) ∧
              Gives (.odWrite p i k last 0 d true) s (fun t => t.od.set = putSetting (i.toNat, k.toNat) (leNat d) s.od.set ∧
                (i.toNat ∉ [0x2012, 0x2014, 0x2030, 0x3006, 0x7002] → ∃ u, Answers p stOk u t ∧ OnlyChanges [.od, .weir] s u ∧
                  u.od.used = s.od.used + settingRecord d.length ∧
                  u.od.compacting = (s.od.compacting || decide (196608 ≤ u.od.used ∧ s.upd.trial ≠ 1)) ∧
                  u.od.records = s.od.records ++ [recordOf i.toNat k.toNat (leBytes d.length (leNat d))] ∧
                  u.weir = { s.weir with floorDue := u.weir.floorDue }))))) ∧
        (f.acc = .rws → f.typ ≠ .arr → d ≠ [] → d.length = odSize f.typ → 0x3100 ≤ i.toNat → i.toNat < 0x3110 →
          (railWrite (i.toNat - 0x3100) k.toNat (leNat d) s.od.railCfg = none →
            Gives (.odWrite p i k last 0 d st) s (Answers p stRange s)) ∧
          (∀ l, railWrite (i.toNat - 0x3100) k.toNat (leNat d) s.od.railCfg = some l → s.od.workingCopy = false →
            Gives (.odWrite p i k last 0 d true) s (Answers p stOk { s with
              od := { s.od with railCfg := l
                                boardRecords := s.od.boardRecords ++ [recordOf i.toNat k.toNat (leBytes d.length (leNat d))] }
              flash := { s.flash with profileNew := true } }))) ∧
        (f.acc = .rws → f.typ = .arr → 0x5110 ≤ i.toNat → i.toNat < 0x5200 → d ≠ [] →
          (arrayOf d = none ∨ o ≠ 0 → Gives (.odWrite p i k last o d st) s (Answers p stType s)) ∧
          (∀ l, arrayOf d = some l →
            (16 < l.length ∨ l.all readable = false → Gives (.odWrite p i k last 0 d st) s (Answers p stRange s)) ∧
            (l.length ≤ 16 → l.all readable = true → s.od.workingCopy = false →
              s.od.used + settingRecord d.length ≤ 262144 →
              Gives (.odWrite p i k last 0 d true) s fun t =>
                t.od.set.snapshots = tabIns (i.toNat - 0x5110) l s.od.set.snapshots))))) ∧
    (∀ (i : BitVec 16) (k : BitVec 8) (d : List Byte) (o : Nat), EntryServed s p i → i.toNat < 0xF000 →
      odField s i.toNat k.toNat = none → Gives (.odWrite p i k last o d st) s (Answers p stNoEntry s)) ∧
    (∀ (i : BitVec 16) (k : BitVec 8) (d : List Byte) (o : Nat), Served s p → 0xF000 ≤ i.toNat →
      Gives (.odWrite p i k last o d st) s (Answers p (if factoryOpen p s then stNoEntry else stLocked) s)) ∧
    (Served s p → (∀ (v : Byte), ∀ x ∈ [(0x2040, Instr.saveRequest p v), (0x3002, .latchClear p v), (0x4007, .learningRequest p v),
        (0x4008, .packChangeDeclaration p v), (0x7005, .trialCommit p v), (0x8003, .planRequest p v),
        (0x9005, .seatRequest p v), (0x9006, .crewResetRequest p v)],
      exec (.odWrite p x.1 0 last 0 [v] st) s = exec x.2 s) ∧
    exec (.odWrite p 0x3001 0 last 0 [0] st) s = exec (.offCommand p) s ∧
    exec (.odWrite p 0x3001 0 last 0 [1] st) s = exec (.onCommand p) s ∧
    exec (.odWrite p 0xB001 0 last 0 [1] st) s = exec (.freezeEnterRequest p) s ∧
    exec (.odWrite p 0xB001 0 last 0 [0] st) s = exec (.freezeResumeRequest p) s ∧
    (∀ id : BitVec 32, exec (.odWrite p 0x5003 0 last 0 (leBytes 4 id.toNat) st) s = exec (.odAcknowledge p id) s))

/-- OD_WRITE of the charger command list in segments (R63, R356, R365, R387): a segment is kept for the requester, and the
list takes effect, whole and well formed, with the last one; a gap or another entry abandons it with STATE, a segment that
nothing precedes answers SESSION (the model's choice, log 82), an empty one LENGTH_ZERO and one past 1,024 bytes RANGE. -/
def OdSegments : Prop :=
  ∀ (s : State) (p : Path), Served s p → privilege p = 1 → s.od.workingCopy = false → s.upd.trial ≠ 1 →
    s.od.used + 2048 < 196608 → Calm s →
    (NoSession s p → ∀ (d : List Byte), d ≠ [] → d.length ≤ 1024 →
      (s.od.sessions = [] →
        Gives (.odWrite p 0x6006 0 false 0 d true) s (Answers p stOk { s with od := { s.od with
          sessions := [{ key := sessionKey p, last := s.tb.now, seg := some { index := 0x6006, sub := 0, bytes := d } }] } })) ∧
      (chargerOk d = true →
        Gives (.odWrite p 0x6006 0 true 0 d true) s fun t => t.od.charger = d ∧
          t.od.boardRecords = s.od.boardRecords ++ [{ index := 0x6006, sub := 0, typ := odCode .domain, value := d }] ∧
          t.od.sessions = s.od.sessions ∧ t.od.set = s.od.set) ∧
      (chargerOk d = false →
        Gives (.odWrite p 0x6006 0 true 0 d true) s fun t => t.od.charger = s.od.charger ∧
          t.od.boardRecords = s.od.boardRecords) ∧
      (∀ (o : Nat) (l : Bool), o ≠ 0 → Gives (.odWrite p 0x6006 0 l o d true) s (Answers p stSession s))) ∧
    (NoSession s p → ∀ (l : Bool), Gives (.odWrite p 0x6006 0 l 0 [] true) s (Answers p stLengthZero s)) ∧
    (NoSession s p → ∀ (d : List Byte) (l : Bool), 1024 < d.length → Gives (.odWrite p 0x6006 0 l 0 d true) s (Answers p stRange s)) ∧
    (∀ (x : Session) (b d : List Byte), s.od.sessions = [x] → x.key = sessionKey p → s.tb.now < x.last + 10000000000 →
      s.od.ended = [] → x.view = none → x.seg = some { index := 0x6006, sub := 0, bytes := b } → d ≠ [] →
      (b.length + d.length ≤ 1024 → chargerOk (b ++ d) = true →
        Gives (.odWrite p 0x6006 0 true b.length d true) s fun t => t.od.charger = b ++ d ∧ t.od.sessions = []) ∧
      (b.length + d.length ≤ 1024 →
        Gives (.odWrite p 0x6006 0 false b.length d true) s fun t => t.od.charger = s.od.charger ∧
          t.od.sessions = [{ x with last := s.tb.now, seg := some { index := 0x6006, sub := 0, bytes := b ++ d } }]) ∧
      (∀ (o : Nat) (l : Bool), o ≠ b.length → o + d.length ≤ 1024 →
        Gives (.odWrite p 0x6006 0 l o d true) s fun t => t.od.charger = s.od.charger ∧ t.od.sessions = []))

/-- OD_SESSION_IDLE, OD_ENUMERATE and SETTINGS_COMPACTION_DONE (R63, R64, R355, R356, R360): ten seconds without a request
end a session; a list starts at the entry asked for, holds a descriptor of each entry that the path is served, at most as
many as asked for, and names the next; a compaction leaves the settings in force in the other copy. -/
def OdSessions : Prop :=
  (∀ (s : State) (p : Path), ∀ x, sessionOf s (sessionKey p) = some x →
    (x.last + 10000000000 ≤ s.tb.now →
      Gives (.odSessionIdle p) s fun t => sessionOf t (sessionKey p) = none ∧
        (∀ y ∈ s.od.sessions, y.key ≠ sessionKey p → y ∈ t.od.sessions) ∧ OnlyChanges [.od] s t) ∧
    (s.tb.now < x.last + 10000000000 → exec (.odSessionIdle p) s = .next s)) ∧
  (∀ (s : State) (p : Path), Served s p → NoSession s p →
    exec (.odEnumerate p 0x2001 0 1) s = .next (reply p stOk
      [1, 1, 0, 0x02, 0x20, 0, 0, 0x01, 0x20, 0, 5, 0, 0x70, 0, 0] s) ∧
    (∀ (i : BitVec 16) (k : BitVec 8) (n : Nat), n = 0 ∨ 1022 < n →
      exec (.odEnumerate p i k n) s = .next (reply p stRange (List.replicate 7 0) s)) ∧
    (∀ (i : BitVec 16) (k : BitVec 8) (n : Nat), n ≠ 0 → n ≤ 1022 →
      let l := (listing p s).filter fun e => decide (i.toNat < e.1 ∨ i.toNat = e.1 ∧ k.toNat ≤ e.2.1)
      exec (.odEnumerate p i k n) s = .next (reply p stOk
        (leBytes 1 (if n < l.length then 1 else 0) ++ leBytes 2 (min n l.length) ++
          leBytes 2 ((l[n]?.map (·.1)).getD 0) ++ leBytes 1 ((l[n]?.map (·.2.1)).getD 0) ++ [0] ++
          ((l.take n).map fun e => descriptor e.1 e.2.1 e.2.2).flatten) s))) ∧
  (∀ s : State, s.od.compacting = true → anyMember s = true → frozen s = false →
    exec .settingsCompactionDone s = .next { s with od := { s.od with
      compacting := false, used := compactedSize s.od.set, records := compactedRecords s.od.set
      copySeq := s.od.copySeq + 1 } }) ∧
  (∀ s : State, s.od.compacting = false ∨ anyMember s = false ∨ frozen s = true →
    exec .settingsCompactionDone s = .next s) ∧
  (∀ (s : State) (p : Path) (i : BitVec 16) (k : BitVec 8) (n : Nat),
    (sessionOf s (sessionKey p) = none → exec (.odSessionIdle p) s = .next s) ∧
    (reaches s p = false → exec (.odEnumerate p i k n) s = .next s))

/-- The next command is a request for the seat too. -/
def seatAsked (s : State) : Bool :=
  match s.pending with
  | .seatRequest _ _ :: _ => true
  | _ => false

/-- SAVE_REQUEST, SEAT_REQUEST, CREW_RESET_REQUEST and TRIAL_COMMIT (R132, R158, R241, R254, R414, R415): a save request
begins a save; the seat goes to a member that is named, and of two requests that may have come in one cycle the one of the
member with the higher score may be the one that gets it, counted in ARBITRATIONS (log 103), the other answered STATE; a
reset takes the named crew out with no capture and no fault counted; a trial that is committed ends, and the minimum security
version is at least the image's. Out of range they answer RANGE, out of place STATE. -/
def OdRequests : Prop :=
  (∀ (s : State) (p : Path), Served s p →
    (SaveReady s → restoring s = false → Gives (.saveRequest p 1) s (SaveBegins .od s)) ∧
    (saving s = true ∨ restoring s = true → Calm s → Gives (.saveRequest p 1) s (Answers p stState s)) ∧
    (∀ v : Byte, v ≠ 1 → Calm s → Gives (.saveRequest p v) s (Answers p stRange s))) ∧
  (∀ (s : State) (p : Path), Served s p → privilege p = 1 ∨ privilege p = 2 → Calm s →
    (∀ c : Crew, isMember s c = true → crewBusy s = false → s.crew.lagBuf = [] → s.crew.rival = false →
      seatAsked s = false →
      Gives (.seatRequest p (match c with
        | .bow => 0
        | .stroke => 1)) s
        (Answers p stOk { s with crew := { s.crew with seat := seatByte c } })) ∧
    (∀ (c : Crew) (q : Path) (rest : List Instr), isMember s .bow = true → isMember s .stroke = true → crewBusy s = false →
      s.crew.lagBuf = [] → s.crew.rival = false →
      s.pending = .seatRequest q (match c with
        | .bow => 1
        | .stroke => 0) :: rest →
      Gives (.seatRequest p (match c with
        | .bow => 0
        | .stroke => 1)) s fun t =>
        Answers p stOk { s with crew := { s.crew with seat := seatByte c } } t ∨
        Answers p (if higherScore s = some c then stOk else stState) { s with
          free := s.free + 1
          crew := { s.crew with
            seat := match higherScore s with
              | some k => seatByte k
              | none => 0
            arbitrations := satInc 0xFF s.crew.arbitrations, rival := decide (higherScore s = some c) } } t) ∧
    (∀ c : Crew, s.crew.rival = true →
      Gives (.seatRequest p (match c with
        | .bow => 0
        | .stroke => 1)) s (Answers p stState { s with crew := { s.crew with rival := false } })) ∧
    (∀ c : Crew, isMember s c = false ∨ crewBusy s = true → s.crew.rival = false → Gives (.seatRequest p (match c with
      | .bow => 0
      | .stroke => 1)) s (Answers p stState s)) ∧
    (∀ v : Byte, 1 < v.toNat → (s.crew.rival = false → Gives (.seatRequest p v) s (Answers p stRange s)) ∧
      Gives (.crewResetRequest p v) s (Answers p stRange s)) ∧
    (∀ c : Crew, isMember s c = true → isMember s c.other = true → crewBusy s = false →
      Gives (.crewResetRequest p (match c with
        | .bow => 0
        | .stroke => 1)) s fun t => (crewOf t c).st = .faulted ∧ (crewOf t c).faultTimes = (crewOf s c).faultTimes ∧
          isMember t c.other = true ∧ t.crew.switches = satInc 0xFFFF s.crew.switches ∧
          seatHolder t = (if s.crew.seat = seatByte c then some c.other else seatHolder s) ∧
          t.fault = s.fault ∧ OnlyChanges [.crew, .free, .wl, .cxl, .host, .out, .bus] s t) ∧
    (∀ c : Crew, isMember s c.other = false ∨ crewBusy s = true →
      Gives (.crewResetRequest p (match c with
        | .bow => 0
        | .stroke => 1)) s (Answers p stState s))) ∧
  (∀ (s : State) (p : Path), Served s p → privilege p = 2 → Calm s →
    (s.upd.trial = 1 → s.upd.stage = .idle → ∀ i, slotOf s s.upd.active = some i →
      Gives (.trialCommit p 1) s fun t => t.upd.trial = 0 ∧ t.od.frozen = none ∧
        t.upd.minSecurity = max (minVersion s) i.security ∧ t.ledger.minSecurity = t.upd.minSecurity ∧
        t.upd.active = s.upd.active ∧ t.od.set = s.od.set ∧
        OnlyChanges [.upd, .ledger, .od, .free, .wl, .cxl, .host, .out, .bus] s t) ∧
    (s.upd.trial ≠ 1 → Gives (.trialCommit p 1) s (Answers p stState s)) ∧
    (∀ v : Byte, v ≠ 1 → Gives (.trialCommit p v) s (Answers p stRange s))) ∧
  (∀ (s : State) (p : Path) (v : Byte), Served s p → Calm s →
    (privilege p = 0 → Gives (.seatRequest p v) s (Answers p stAccess s) ∧
      Gives (.crewResetRequest p v) s (Answers p stAccess s)) ∧
    (privilege p ≠ 2 → Gives (.trialCommit p v) s (Answers p stAccess s))) ∧
  (∀ (s : State) (p : Path) (v : Byte), reaches s p = false →
    exec (.saveRequest p v) s = .next s ∧ exec (.seatRequest p v) s = .next s ∧
      exec (.crewResetRequest p v) s = .next s ∧ exec (.trialCommit p v) s = .next s) ∧
  (∀ (s : State) (p : Path) (v : Byte), turnedAway s p = false → Calm s →
    ∀ x ∈ [(0x2040, Instr.saveRequest p v), (0x9005, .seatRequest p v), (0x9006, .crewResetRequest p v),
        (0x7005, .trialCommit p v)],
      (∀ st, gate x.1 p s = some st → Gives x.2 s (Answers p st s)) ∧
      (gate x.1 p s = none → romServes s = true → Gives x.2 s (Answers p stState s)))

/-- Reading and writing entries of the Object Dictionary (R61, R62, R350, R351, R353, R355, R357, R365, R368, R369). -/
def Obligations.OdReadsAndWrites : Prop :=
  OdReads ∧ OdWrites ∧ OdWritesEveryEntry

/-- Sessions, enumeration and the request entries of the Object Dictionary (R63, R64, R132, R254, R356, R360, R414, R415). -/
def Obligations.OdSessionsAndRequests : Prop :=
  OdSegments ∧ OdSessions ∧ OdRequests


/-! ## The mailbox and SPDM -/

/-- A standard command reaches the mailbox of head `h`, which serves it: before the fence (R137), and not the ROM of Boathouse
mode (R417). -/
def MailboxServed (s : State) (h : Fin 2) : Prop :=
  reaches s (.mailbox h) = true ∧ s.host.fence = false ∧ boathouse s = false ∧ Calm s

/-- The command is answered on head `h` with a return code and `bytes`, and `s'` is what it leaves beside its answer and the
vector 0 it raises. -/
def MailboxGives (h : Fin 2) (code : MboxCode) (bytes : List Byte) (s' t : State) : Prop :=
  Noticed (mbox h code bytes s') t

/-- GET_POISON_LIST, INJECT_POISON and CLEAR_POISON (R53, R54): each listed run of lines in range gives one record of its
address and its lines, behind the overflow flag and its time; Inject Poison marks the line alone, Clear Poison writes all of
it through the write buffer, to a CLEAN or LOST page as a first-write; while memory is not served, at an address that the
head does not see, and into a full buffer neither does anything. -/
def MailboxPoison : Prop :=
  (∀ (s : State) (h : Fin 2) (dpa length : Nat) (l : List (Nat × Nat)), MailboxServed s h →
    l = s.cxl.poisonList.filter (fun r => decide ((headSpan s h).1 + dpa ≤ 64 * r.1)) →
    (∀ r ∈ s.cxl.poisonList, 0 < r.2 ∧ (64 * (r.1 + r.2) ≤ (headSpan s h).1 + dpa ∨
      (headSpan s h).1 + dpa ≤ 64 * r.1 ∧ 64 * (r.1 + r.2) ≤ (headSpan s h).1 + min (dpa + length) (headSpan s h).2)) →
    (s.cxl.poisonOverflow = none →
      Gives (.getPoisonList h dpa length) s (MailboxGives h .success (List.replicate 9 0 ++ leBytes 2 l.length ++
        (l.map fun r => leBytes 8 (64 * r.1 - (headSpan s h).1) ++ leBytes 4 r.2).flatten) s)) ∧
    (∀ time, s.cxl.poisonOverflow = some time →
      Gives (.getPoisonList h dpa length) s (MailboxGives h .success ([2] ++ leBytes 8 time ++ leBytes 2 l.length ++
        (l.map fun r => leBytes 8 (64 * r.1 - (headSpan s h).1) ++ leBytes 4 r.2).flatten) s))) ∧
  (∀ (s : State) (h : Fin 2) (dpa line : Nat), MailboxServed s h → notServed s = false → fenced s = false →
    lineOfDpa s h dpa = some line → poisonWf s = true →
    ((∀ e ∈ s.wb.entries, e.line ≠ line) →
      Gives (.injectPoison h dpa) s fun t => linePoison t line = true ∧
        (∀ k, k ≠ line → linePoison t k = linePoison s k) ∧ t.dram.bytes = s.dram.bytes ∧ t.wb = s.wb ∧
        t.pm = s.pm ∧ t.out.resp = .mailbox h .success [] :: s.out.resp ∧
        OnlyChanges [.dram, .wb, .cxl, .host, .out, .bus] s t) ∧
    (∀ (id : Nat) (d : Line), withdrawn s (pageOf line) = false → unrestored s (pageOf line) = false →
      inBlockReset s (pageOf line) = false → inWindow s = false → pageState s (pageOf line) = .dirty →
      s.wb.entries.length < bufferEntries →
      (∀ x ∈ s.wb.entries, pageOf x.line = pageOf line → x.phase = .admitted ∨ x.phase = .inReset) →
      inBlockReset s (mapAddr s.cfg (pageOf line) / pageBytes) = false →
      Gives (.clearPoison h dpa id d) s fun t =>
        t.wb.entries = s.wb.entries ++ [admittedEntry s h id line d (BitVec.allOnes 64) false] ∧
        t.out.resp = .mailbox h .success [] :: .complete h id :: s.out.resp ∧ t.dram = s.dram ∧
        t.pm.residue = s.pm.residue ∧ OnlyChanges [.wb, .pm, .host, .out, .bus] s t) ∧
    (∀ (id : Nat) (d : Line) (b : Bucket), withdrawn s (pageOf line) = false → unrestored s (pageOf line) = false →
      inBlockReset s (pageOf line) = false → inWindow s = false →
      pageState s (pageOf line) = .clean ∨ pageState s (pageOf line) = .lost → s.wb.entries.length < bufferEntries →
      (∀ x ∈ s.wb.entries, pageOf x.line = pageOf line → x.phase = .admitted ∨ x.phase = .inReset) →
      inBlockReset s (mapAddr s.cfg (pageOf line) / pageBytes) = false → newestBucket s = some b → b.isOpen = true →
      roomFor s = true → holdActive s = false → s.log.spill = [] → s.log.tail.length < tailEntries →
      Gives (.clearPoison h dpa id d) s fun t =>
        pageEntry t (pageOf line) = { state := .dirty, bucket := b.slot, hot := hotTick s } ∧
        t.wb.entries = s.wb.entries ++ [admittedEntry s h id line d (BitVec.allOnes 64) false] ∧
        t.out.resp = .mailbox h .success [] :: .complete h id :: s.out.resp ∧ t.dram = s.dram ∧
        t.pm.residue = s.pm.residue + 4096 ∧ (∀ p, p ≠ pageOf line → pageEntry t p = pageEntry s p) ∧
        OnlyChanges admissionParts s t)) ∧
  (∀ (s : State) (h : Fin 2) (dpa id : Nat) (d : Line), MailboxServed s h →
    (lineOfDpa s h dpa = none →
      Gives (.injectPoison h dpa) s (MailboxGives h .refused [] s) ∧
      Gives (.clearPoison h dpa id d) s (MailboxGives h .refused [] s)) ∧
    (bufferEntries ≤ s.wb.entries.length → Gives (.clearPoison h dpa id d) s (MailboxGives h .refused [] s))) ∧
  (∀ (s : State) (h : Fin 2) (dpa id : Nat) (d : Line), MailboxServed s h → notServed s = true ∨ fenced s = true →
    Gives (.injectPoison h dpa) s (MailboxGives h .refused [] s) ∧
    Gives (.clearPoison h dpa id d) s (MailboxGives h .refused [] s))

/-- SCAN_MEDIA, SCAN_MEDIA_DONE, GET_SCAN_MEDIA_CAPABILITIES, SET_SHUTDOWN_STATE, GET_SHUTDOWN_STATE, GET_HEALTH_INFO,
SET_ALERT_CONFIGURATION, GET_ALERT_CONFIGURATION, IDENTIFY_MEMORY_DEVICE and GET_FW_INFO (R36, R49, R55 to R57, R137, R417,
R420): a scan is the head's background command until it is done, which raises vector 0, and marks an uncorrectable line it
found; a state that is set is read back; the capacity is that of the head in units of 256 MiB, all of it persistent; the ROM
of Boathouse mode serves none of them, and from the fence on the answer is Busy. -/
def MailboxInformation : Prop :=
  (∀ (s : State) (h : Fin 2), MailboxServed s h →
    (∀ dpa length, inSpan s h dpa length = true →
      ((headOf s h).bg = .none →
        Gives (.scanMedia h dpa length) s
          (MailboxGives h .started [] (onHead h (fun x => { x with bg := .scan dpa length }) s))) ∧
      ((headOf s h).bg ≠ .none → Gives (.scanMedia h dpa length) s (MailboxGives h .busy [] s)) ∧
      Gives (.getScanMediaCapabilities h dpa length) s
        (MailboxGives h .success (leBytes 4 (ceilDiv length (4000000 * s.cfg.dramChannels))) s)) ∧
    (∀ dpa length, inSpan s h dpa length = false →
      ((headOf s h).bg = .none → Gives (.scanMedia h dpa length) s (MailboxGives h .refused [] s)) ∧
      Gives (.getScanMediaCapabilities h dpa length) s (MailboxGives h .refused [] s)) ∧
    (∀ dirty, Gives (.setShutdownState h dirty) s
      (MailboxGives h .success [] { s with cxl := { s.cxl with shutdownDirty := dirty } })) ∧
    Gives (.getShutdownState h) s
      (MailboxGives h .success [if s.cxl.shutdownDirty then 1 else 0] s) ∧
    (∀ c, Gives (.setAlertConfiguration h c) s (MailboxGives h .success [] { s with cxl := { s.cxl with alerts := c } })) ∧
    (∀ f : Byte, f = BitVec.ofNat 8 ((if s.cxl.alerts.lifeUsed.isSome then 1 else 0) +
        (if s.cxl.alerts.temperature.isSome then 2 else 0) + (if s.cxl.alerts.corrected.isSome then 4 else 0)) →
      Gives (.getAlertConfiguration h) s
        (MailboxGives h .success ([f] ++ leBytes 1 (s.cxl.alerts.lifeUsed.getD 0) ++
          leBytes 2 (s.cxl.alerts.temperature.getD 0 % 65536).toNat ++ leBytes 2 (s.cxl.alerts.corrected.getD 0)) s)) ∧
    Gives (.getHealthInfo h) s (MailboxGives h .success
      (leBytes 1 (healthStatus s) ++ leBytes 1 (healthMedia s) ++ leBytes 1 (min 0xFF (lifeUsed s)) ++
        leBytes 2 (s.cxl.tempC % 65536).toNat ++ leBytes 4 s.cxl.dirtyShutdowns) s) ∧
    Gives (.identifyMemoryDevice h) s (MailboxGives h .success
      (leBytes 8 ((headSpan s h).2 / 268435456) ++ List.replicate 8 0 ++ leBytes 8 ((headSpan s h).2 / 268435456) ++
        List.replicate 8 0) s) ∧
    Gives (.getFwInfo h) s (MailboxGives h .success
      ([2, BitVec.ofNat 8 (s.upd.active.val + 1)] ++ version16 s.upd.slotA ++ version16 s.upd.slotB) s)) ∧
  (∀ (s : State) (h : Fin 2) (dpa length : Nat), (headOf s h).bg = .scan dpa length → frozen s = false → Calm s →
    Gives (.scanMediaDone ⟨h, []⟩) s
      (Noticed (vectorOn h 0 (onHead h (fun x => { x with bg := .none, bgStatus := 0 }) s))) ∧
    ∀ (line : Nat) (syn : BitVec 16) (ch : Fin 8), scanned s h line = true → channelOfPage s (pageOf line) = ch.val →
      HasChannel s ch → (capture s (cellOf s line)).sticky = false → s.od.set.graceMs ≠ 0 → linePoison s line = false →
      repairable s line = false →
      Gives (.scanMediaDone ⟨h, [(line, .uncorrectable syn)]⟩) s fun t => (headOf t h).bg = .none ∧
        Captured s t (cellOf s line) .u 0xFE (ddrId ch.val 2) ∧ linePoison t line = true ∧
        (∀ x, x ≠ line → linePoison t x = linePoison s x) ∧ t.dram.bytes = s.dram.bytes ∧
        OnlyChanges [.dram, .fault, .free, .wl, .cxl, .host, .out, .bus] s t) ∧
  (∀ (s : State) (h : Fin 2), reaches s (.mailbox h) = true → s.host.fence = false → boathouse s = true →
    exec (.getHealthInfo h) s = .next (mbox h .refused [] s) ∧
      exec (.identifyMemoryDevice h) s = .next (mbox h .refused [] s)) ∧
  (∀ (s : State) (h : Fin 2), reaches s (.mailbox h) = true → s.host.fence = true →
    exec (.getHealthInfo h) s = .next (mbox h .busy [] s) ∧ exec (.identifyMemoryDevice h) s = .next (mbox h .busy [] s))

/-- The standard mailbox commands of head `h` that are commands of their own. -/
def mailboxRows (h : Fin 2) (dpa length id : Nat) (d : Line) (dirty : Bool) (c : AlertCfg) : List Instr :=
  [.getPoisonList h dpa length, .injectPoison h dpa, .clearPoison h dpa id d, .scanMedia h dpa length,
    .getScanMediaCapabilities h dpa length, .setShutdownState h dirty, .getShutdownState h, .setAlertConfiguration h c,
    .getAlertConfiguration h, .getHealthInfo h, .identifyMemoryDevice h, .getFwInfo h, .sanitize h, .secureErase h]

/-- The commands of a requester that a head's mailbox carries too. -/
def vendorRows (p : Path) (index : BitVec 16) (k : BitVec 8) (n : Nat) (d : List Byte) (st : Bool) (v : Byte) (sev : Fin 8) :
    List Instr :=
  [.odRead p index k n, .odWrite p index k st n d st, .odEnumerate p index k n, .updateOpen p n, .updateBlock p n n d st,
    .updateCommit p n, .updateAbort p n, .waterlineRead p n n st sev, .restoreModeWrite p v, .saveRequest p v, .offCommand p,
    .onCommand p, .latchClear p v, .learningRequest p v, .packChangeDeclaration p v, .odAcknowledge p (BitVec.ofNat 32 n),
    .trialCommit p v, .planRequest p v, .seatRequest p v, .crewResetRequest p v, .freezeEnterRequest p, .freezeResumeRequest p]

/-- Every mailbox command (R31, R58, R59, R61, R137, R417): one to a head that does not take it does nothing; from the fence
on the answer is Busy, to a vendor command too, and the ROM of Boathouse mode serves no standard one. Of those without a row,
a feature not supported answers Unsupported, the label storage holds what was set, and the records cleared from an event log
are its oldest. SCAN_MEDIA_DONE without a scan, and SANITIZED without an erase, do nothing. -/
def MailboxAnswers : Prop :=
  (∀ (s : State) (h : Fin 2) (dpa length id : Nat) (d : Line) (dirty : Bool) (c : AlertCfg),
    ∀ i ∈ mailboxRows h dpa length id d dirty c,
    (reaches s (.mailbox h) = false → exec i s = .next s) ∧
    (reaches s (.mailbox h) = true → s.host.fence = true → exec i s = .next (mbox h .busy [] s)) ∧
    (reaches s (.mailbox h) = true → s.host.fence = false → boathouse s = true → exec i s = .next (mbox h .refused [] s))) ∧
  (∀ (s : State) (h : Fin 2) (index : BitVec 16) (k : BitVec 8) (n : Nat) (d : List Byte) (st : Bool) (v : Byte) (sev : Fin 8),
    ∀ i ∈ vendorRows (.mailbox h) index k n d st v sev,
    (reaches s (.mailbox h) = false → exec i s = .next s) ∧
    (reaches s (.mailbox h) = true → s.host.fence = true → exec i s = .next (mbox h .busy [] s))) ∧
  (∀ (s : State) (h : Fin 2) (m : MasterId) (v : Word), headRegs s h = true → MailboxServed s h →
    (∀ c ∈ [MailboxCmd.transferFw, .activateFw, .setPartitionInfo, .passphrase],
      Gives (.registerWrite (.mailbox h c) m v) s (MailboxGives h .unsupported [] s)) ∧
    (∀ (off : Nat) (data : List Byte), off + data.length ≤ labelBytes → tabWf 0 s.cxl.labels = true →
      Gives (.registerWrite (.mailbox h (.setLabels off data)) m v) s fun t =>
        (∀ k, tabGet 0 k t.cxl.labels =
          if off ≤ k ∧ k < off + data.length then data.getD (k - off) 0 else tabGet 0 k s.cxl.labels) ∧
        t.out.resp = .mailbox h .success [] :: s.out.resp ∧ OnlyChanges [.cxl, .host, .out, .bus] s t) ∧
    (∀ off length, off + length ≤ labelBytes → Gives (.registerWrite (.mailbox h (.getLabels off length)) m v) s
      (MailboxGives h .success ((List.range length).map fun k => tabGet 0 (off + k) s.cxl.labels) s)) ∧
    (∀ off length, labelBytes < off + length →
      Gives (.registerWrite (.mailbox h (.getLabels off length)) m v) s (MailboxGives h .refused [] s)) ∧
    (∀ count, Gives (.registerWrite (.mailbox h (.clearEventRecords 0 count)) m v) s (MailboxGives h .success []
      { s with cxl := { s.cxl with info := { s.cxl.info with
        recs := s.cxl.info.recs.drop count, overflow := 0, firstOverflow := 0, lastOverflow := 0 } } })) ∧
    (∀ n : Fin 4, Gives (.registerWrite (.mailbox h (.getEventRecords n)) m v) s
      (MailboxGives h .success (eventBytes (eventLog s.cxl n.val)) s))) ∧
  (∀ (s : State) (h : Fin 2) (l : List (Nat × DramRead)),
    (scanning s h = false ∨ frozen s = true → exec (.scanMediaDone ⟨h, l⟩) s = .next s) ∧
    (s.flash.newKey = none ∨ s.rst.sanitizing = none ∨ anyMember s = false ∨ frozen s = true ∨ s.host.fence = true →
      exec .sanitized s = .next s))

/-- SANITIZE, SECURE_ERASE and SANITIZED (R59, R215): neither starts while a save, the restore, Sprint, a Settle or another
erase runs; one that starts draws a new media key; when it is over the key is in force, SANITIZED is committed, every page is
CLEAN, nothing is mapped, and no die-block of the Basin counts as erased. -/
def Obligations.CryptoErase : Prop :=
  (∀ (s : State) (h : Fin 2), MailboxServed s h →
    (eraseBusy s = true → Gives (.sanitize h) s (MailboxGives h .busy [] s) ∧
      Gives (.secureErase h) s (MailboxGives h .busy [] s)) ∧
    (eraseBusy s = false →
      (Gives (.sanitize h) s fun t => t.rst.sanitizing = some true ∧ t.flash.newKey = some (s.flash.key + 1) ∧
        t.flash.key = s.flash.key ∧ t.lake.gcRun = false ∧ t.pm.pages = s.pm.pages ∧ t.pm.residue = s.pm.residue ∧
        OnlyChanges [.rst, .flash, .lake, .pm, .upd, .bus] s t) ∧
      Gives (.secureErase h) s fun t => t.rst.sanitizing = some false ∧ t.flash.newKey = some (s.flash.key + 1) ∧
        t.pm.pages = s.pm.pages ∧
        OnlyChanges [.rst, .flash, .lake, .pm, .upd, .bus] s t)) ∧
  (∀ (s : State) (w : Bool) (h : Fin 2) (key : Nat), s.rst.sanitizing = some w → s.rst.sanitizeHead = some h →
    s.flash.newKey = some key → anyMember s = true → frozen s = false → s.host.fence = false →
    s.ledger.failed = false → (s.wb.entries.all fun e => decide (e.phase = .admitted)) = true → Calm s →
    Gives .sanitized s fun t => t.flash.key = key ∧ t.flash.newKey = none ∧ t.rst.sanitizing = none ∧
      (∀ p, pageState t p = .clean) ∧ t.pm.residue = 0 ∧ t.pm.buckets = [] ∧ t.lake.mapping = [] ∧
      t.lake.checkpoint = none ∧ t.basin.image = none ∧ t.basin.erasedBy = [] ∧ t.basin.reErase = true ∧
      t.ledger.keyRecords = (key, key) ∧ t.ledger.keyCopy = key ∧
      t.ledger.commits = { time := s.tb.now, commit := .sanitized } :: s.ledger.commits ∧
      t.out.resp.head? = some (.mailbox h .success []))

/-- SPDM_REQUEST (R59, R354, R356, R395, R396, R404, R417): the coxswain of the crew with the seat answers, or the ROM of
Boathouse mode, and nobody else; a session opens under a new number and carries O only after authentication against an owner
certificate; its end ends its Object Dictionary state and the update session it carried; measurement 1 gives the ROM's
revision B0 and a digest, 2 to 5 a digest each, 6 the security versions, and the ROM serves 1 and 6 alone; IDE_KM sets a key
within a secured session. A request that SPDM 1.3 alone defines is answered without bytes (the model's choice, log 47). -/
def SpdmRequests : Prop :=
  (∀ (s : State) (p : Path) (r : SpdmReq), reaches s p = true → spdmServed s = false →
    exec (.spdmRequest p r) s = .next (spdm p false [] s)) ∧
  (∀ (s : State) (p : Path), reaches s p = true → spdmServed s = true → Calm s →
    (∀ (id : Nat) (o : Bool),
      ((s.upd.secured.any fun x => decide (x.1 = id)) = false →
        Gives (.spdmRequest p (.openSession id o)) s (Noticed (spdm p true [] { s with upd := { s.upd with
          secured := s.upd.secured ++ [(id, o && !s.upd.owner.isEmpty)] } }))) ∧
      ((s.upd.secured.any fun x => decide (x.1 = id)) = true →
        Gives (.spdmRequest p (.openSession id o)) s (Noticed (spdm p false [] s)))) ∧
    (∀ id, (∀ u, s.upd.session = some u → u.secured ≠ some id) →
      Gives (.spdmRequest p (.endSession id)) s fun t =>
        t.upd = { s.upd with secured := s.upd.secured.filter fun x => decide (x.1 ≠ id) } ∧
        sessionOf t (6 + 4 * id) = none ∧ OnlyChanges [.upd, .od, .out, .bus] s t) ∧
    (∀ id u, s.upd.session = some u → u.secured = some id → s.upd.stage = .idle →
      Gives (.spdmRequest p (.endSession id)) s fun t =>
        t.upd.secured = (s.upd.secured.filter fun x => decide (x.1 ≠ id)) ∧ t.upd.session = none ∧
        slotOf t u.slot = none ∧ sessionOf t (6 + 4 * id) = none ∧
        OnlyChanges [.upd, .od, .wl, .cxl, .host, .out, .bus] s t) ∧
    Gives (.spdmRequest p (.measurement 6)) s (Noticed (spdm p true
      (leBytes 4 (match runningImage s with
        | some i => i.security
        | none => 0) ++ leBytes 4 (minVersion s)) s)) ∧
    (Gives (.spdmRequest p (.measurement 1)) s fun t =>
      (∃ d, d.length = 48 ∧ t.out.resp = .spdm p true ([0xB0, 0x00] ++ d) :: s.out.resp) ∧
      OnlyChanges [.free, .out, .bus] s t) ∧
    (boathouse s = false → ∀ i, 2 ≤ i → i ≤ 5 → Gives (.spdmRequest p (.measurement i)) s fun t =>
      (∃ d, d.length = 48 ∧ t.out.resp = .spdm p true d :: s.out.resp) ∧ OnlyChanges [.free, .out, .bus] s t) ∧
    (∀ i, boathouse s = true ∧ i ≠ 1 ∧ i ≠ 6 ∨ i = 0 ∨ 6 < i →
      Gives (.spdmRequest p (.measurement i)) s (Noticed (spdm p false [] s))) ∧
    (∀ (mem : Bool) (stream key : Nat),
      (∀ id o bus c, p = .secured id o bus c →
        Gives (.spdmRequest p (.ideKey mem stream key)) s fun t =>
          (mem = true → tabFind stream t.upd.ideMem = some key ∧ t.upd.ideIo = s.upd.ideIo) ∧
          (mem = false → tabFind stream t.upd.ideIo = some key ∧ t.upd.ideMem = s.upd.ideMem) ∧
          t.out.resp = .spdm p true [] :: s.out.resp ∧ OnlyChanges [.upd, .out, .bus] s t) ∧
      ((∀ id o bus c, p ≠ .secured id o bus c) →
        Gives (.spdmRequest p (.ideKey mem stream key)) s (Noticed (spdm p false [] s)))) ∧
    (∀ code, Gives (.spdmRequest p (.other code)) s (Noticed (spdm p true [] s))))

/-- SET_CERTIFICATE (R354, R397, R420, R435): slot 7 alone is written: while it holds no owner certificate over SMBus in a
secured session, then by the owner; erasing it takes O from every session; each change is recorded and rewrites the boot
config; any other request is refused and changes nothing. -/
def CertificateIsSet : Prop :=
  (∀ (s : State) (p : Path) (chain : List Byte), reaches s p = true → spdmServed s = true → boathouse s = false →
    chain.length ≤ 4028 → Calm s →
    (chain ≠ [] → (s.upd.owner = [] → ∃ id o c, p = .secured id o true c) → (s.upd.owner ≠ [] → privilege p = 2) →
      Gives (.setCertificate p 7 chain) s fun t =>
        t.upd = { s.upd with owner := chain, bootSeq := s.upd.bootSeq + 1 } ∧
        t.out.resp.head? = some (.spdm p true []) ∧ OnlyChanges [.upd, .wl, .cxl, .host, .out, .bus] s t) ∧
    (chain = [] → s.upd.owner ≠ [] → privilege p = 2 →
      Gives (.setCertificate p 7 chain) s fun t =>
        t.upd = { s.upd with
          owner := [], bootSeq := s.upd.bootSeq + 1, secured := s.upd.secured.map fun x => (x.1, false) } ∧
        t.out.resp.head? = some (.spdm p true []) ∧ OnlyChanges [.upd, .wl, .cxl, .host, .out, .bus] s t) ∧
    (s.upd.owner ≠ [] → privilege p ≠ 2 → exec (.setCertificate p 7 chain) s = .next (spdm p false [] s)) ∧
    (s.upd.owner = [] → (∀ id o c, p ≠ .secured id o true c) ∨ chain = [] →
      exec (.setCertificate p 7 chain) s = .next (spdm p false [] s))) ∧
  (∀ (s : State) (p : Path) (k : Fin 8) (chain : List Byte), reaches s p = true →
    k ≠ 7 ∨ 4028 < chain.length ∨ boathouse s = true ∨ spdmServed s = false →
    exec (.setCertificate p k chain) s = .next (spdm p false [] s))

/-- SPDM as far as the specification gives it (R59, R354, R356, R395 to R397, R404, R417, R420, R435). -/
def Obligations.SpdmAnswers : Prop :=
  SpdmRequests ∧ CertificateIsSet

/-- The standard mailbox commands (R31, R49, R53 to R59, R61, R137, R417, R420). -/
def Obligations.MailboxServesStandardCommands : Prop :=
  MailboxPoison ∧ MailboxInformation ∧ MailboxAnswers


/-! ## The two-wire ports -/

/-- The parts that an event of a two-wire port moves: the port itself, its record, the vectors. -/
def busParts : List Part := [.bus, .free, .wl, .cxl, .host, .out]

/-- BUS_ERROR, TARGET_TIMEOUT, STRETCH_ABORT, ARBITRATION_LOSS, ARBITRATION_BACKOFF_END, HANG_RECOVERY and
LOCAL_TEMPERATURE_READ (R375 to R379, R386, R389, R391): each is counted with its cause in LAST_ERROR; the sixteenth loss in a
row makes the port wait, and it is idle again after that; a hang that a STOP ends is counted, one that none ends is tried three
times; in I2C mode nothing times out; a port that is off, or in its reset, moves nothing. -/
def BusEvents : Prop :=
  (∀ (s : State) (p : Port), portOn s p = true → Calm s →
    (∀ e, p = .mgmt ∨ e ≠ .pec →
      Gives (.busError p e) s fun t => (portOf t p).errors = satInc 0xFFFFFFFF (portOf s p).errors ∧
        (portOf t p).lastError = errCode e ∧ (portOf t p).st = (if (portOf s p).st = .target then .idle
          else (portOf s p).st) ∧ (p = .mgmt → t.bus.lcl = s.bus.lcl) ∧ OnlyChanges busParts s t) ∧
    (i2cMode s p = false →
      Gives (.stretchAbort p) s fun t => (portOf t p).aborts = satInc 0xFFFFFFFF (portOf s p).aborts ∧
        (portOf t p).lastError = 4 ∧ (portOf t p).retried = !(portOf s p).retried ∧
        (portOf t p).errors = (portOf s p).errors ∧ OnlyChanges busParts s t) ∧
    (i2cMode s p = true → exec (.stretchAbort p) s = .next s) ∧
    (Gives (.hangRecovery p true) s fun t => (portOf t p).hangs = satInc 0xFFFFFFFF (portOf s p).hangs ∧
      (portOf t p).st = .idle ∧ (portOf t p).hangRun = 0 ∧ OnlyChanges busParts s t) ∧
    ((portOf s p).hangRun < 2 →
      Gives (.hangRecovery p false) s fun t => (portOf t p).hangRun = (portOf s p).hangRun + 1 ∧
        (portOf t p).st = .hangRecovery ∧ (portOf t p).hangs = (portOf s p).hangs ∧ OnlyChanges [.bus] s t) ∧
    (2 ≤ (portOf s p).hangRun →
      Gives (.hangRecovery p false) s fun t => (portOf t p).lastError = 6 ∧ (portOf t p).st = .idle ∧
        (portOf t p).hangRun = 0 ∧ OnlyChanges busParts s t)) ∧
  (∀ s : State, portOn s .mgmt = true → Calm s →
    (s.bus.mgmt.i2c = false →
      Gives .targetTimeout s fun t => t.bus.mgmt.errors = satInc 0xFFFFFFFF s.bus.mgmt.errors ∧
        t.bus.mgmt.lastError = 5 ∧ OnlyChanges busParts s t) ∧
    (s.bus.mgmt.i2c = true → exec .targetTimeout s = .next s) ∧
    (∀ a, s.bus.mgmt.lossRun ≠ 15 →
      Gives (.arbitrationLoss .mgmt a) s fun t => t.bus.mgmt.losses = satInc 0xFFFFFFFF s.bus.mgmt.losses ∧
        t.bus.mgmt.lossRun = s.bus.mgmt.lossRun + 1 ∧ t.bus.mgmt.st = (if a = .addressOwn then .target else .idle) ∧
        OnlyChanges [.bus] s t) ∧
    (∀ a, s.bus.mgmt.lossRun = 15 →
      Gives (.arbitrationLoss .mgmt a) s fun t => t.bus.mgmt.losses = satInc 0xFFFFFFFF s.bus.mgmt.losses ∧
        t.bus.mgmt.st = .waiting ∧ OnlyChanges busParts s t)) ∧
  (∀ (s : State) (p : Port), (portOf s p).st = .waiting →
    Gives (.arbitrationBackoffEnd p) s fun t => portOf t p = { portOf s p with st := .idle, lossRun := 0 } ∧
      OnlyChanges [.bus] s t) ∧
  (∀ (s : State) (l : List Int), localOn s = true → Calm s →
    (tooHot s l = [] → Gives (.localTemperatureRead l) s (Noticed (busStop .lcl s))) ∧
    Gives (.localTemperatureRead l) s fun t => Reported (busStop .lcl s) t ∧
      (t.wl.nextSeq + (2 ^ 64 - s.wl.nextSeq % 2 ^ 64)) % 2 ^ 64 = (tooHot s l).length) ∧
  (∀ (s : State) (a : ArbLoss), portOn s .lcl = true → Calm s →
    Gives (.arbitrationLoss .lcl a) s fun t => t.bus.mgmt.losses = s.bus.mgmt.losses ∧
      t.bus.mgmt.errors = s.bus.mgmt.errors ∧ t.bus.mgmt.st = s.bus.mgmt.st ∧
      t.bus.lcl.losses = satInc 0xFFFFFFFF s.bus.lcl.losses ∧ t.bus.lcl.errors = satInc 0xFFFFFFFF s.bus.lcl.errors ∧
      t.bus.lcl.lastError = 9 ∧ OnlyChanges busParts s t) ∧
  (∀ (s : State) (p : Port), portOn s p = false → ∀ (e : BusErr) (a : ArbLoss) (stopMade : Bool),
    ∀ i ∈ [Instr.busError p e, .stretchAbort p, .hangRecovery p stopMade, .arbitrationLoss p a], exec i s = .next s) ∧
  (∀ s : State, exec (.busError .lcl .pec) s = .next s ∧ (portOn s .mgmt = false → exec .targetTimeout s = .next s) ∧
    (∀ p, (portOf s p).st ≠ .waiting → exec (.arbitrationBackoffEnd p) s = .next s) ∧
    (localOn s = false → ∀ l, exec (.localTemperatureRead l) s = .next s))

/-- STATUS_READ, ALERT_RESPONSE, BUS_CALL and BUS_CALL_SERVICE_TIMEOUT (R374, R380 to R382): a status read returns the status
byte and ends the call, the reasons EVENT, STRING and HEALTH with it; an alert response gives the device's address and ends
the alert, unless a lower address was answered first; a call that is due is made once, and one not serviced in its interval is
notified to the host, the interval doubling to at most 1 s; a port that is off moves nothing. -/
def BusAttention : Prop :=
  (∀ s : State, portOn s .mgmt = false → ∀ won sclFell : Bool,
    ∀ i ∈ [Instr.statusRead, .alertResponse won, .busCall sclFell, .busCallServiceTimeout], exec i s = .next s) ∧
  ∀ s : State, portOn s .mgmt = true →
    (Gives .statusRead s fun t => t.out.resp = .wire .mgmt (statusByte s) :: s.out.resp ∧
      t.bus.mgmt.attention = s.bus.mgmt.attention &&& 8 ∧ t.bus.mgmt.callPending = false ∧ t.bus.mgmt.called = false ∧
      t.bus.mgmt.notified = false ∧ t.bus.lcl = s.bus.lcl ∧ OnlyChanges [.bus, .out] s t) ∧
    (s.bus.mgmt.alert = true →
      (Gives (.alertResponse true) s fun t =>
        (∃ b : Byte, b.extractLsb' 1 7 = s.bus.mgmt.address ∧ t.out.resp = .wire .mgmt b :: s.out.resp) ∧
        t.bus.mgmt.alert = false ∧ t.bus.mgmt.callPending = false ∧ t.bus.mgmt.attention = s.bus.mgmt.attention ∧
        OnlyChanges [.free, .bus, .out] s t) ∧
      exec (.alertResponse false) s = .next s) ∧
    (s.bus.mgmt.alert = false → ∀ won, exec (.alertResponse won) s = .next s) ∧
    (s.bus.mgmt.callPending = true → s.bus.mgmt.called = false →
      exec (.busCall false) s = .next (busStop .mgmt { s with bus := { s.bus with mgmt := { s.bus.mgmt with
        calls := satInc 0xFFFFFFFF s.bus.mgmt.calls, called := true
        interval := s.od.set.serviceMs * nsPerMs } } }) ∧
      exec (.busCall true) s = .next s) ∧
    (s.bus.mgmt.callPending = false ∨ s.bus.mgmt.called = true → ∀ sclFell, exec (.busCall sclFell) s = .next s) ∧
    (s.bus.mgmt.callPending = false ∨ s.bus.mgmt.called = false → exec .busCallServiceTimeout s = .next s) ∧
    (s.bus.mgmt.callPending = true → s.bus.mgmt.called = true → Calm s →
      Gives .busCallServiceTimeout s fun t =>
        t.bus.mgmt.interval = min (2 * s.bus.mgmt.interval) 1000000000 ∧ t.bus.mgmt.notified = true ∧
        (s.bus.mgmt.i2c = false → t.bus.mgmt.notifies = satInc 0xFFFFFFFF s.bus.mgmt.notifies ∧
          t.bus.mgmt.calls = (if s.bus.mgmt.notified then satInc 0xFFFFFFFF s.bus.mgmt.calls else s.bus.mgmt.calls)) ∧
        (s.bus.mgmt.i2c = true → t.bus.mgmt.notifies = s.bus.mgmt.notifies ∧
          t.bus.mgmt.calls = satInc 0xFFFFFFFF s.bus.mgmt.calls) ∧
        t.bus.mgmt.callPending = true ∧ OnlyChanges busParts s t)

/-- SET_ENDPOINT_ID, GET_ENDPOINT_ID, GET_ENDPOINT_UUID, GET_MCTP_VERSION_SUPPORT, GET_MESSAGE_TYPE_SUPPORT and
GET_VENDOR_DEFINED_MESSAGE_SUPPORT (R384): a control message to the device's endpoint, or to the null endpoint, is answered
with the completion code 0 first; one to another endpoint, one to any but the null endpoint before an endpoint ID is set, and
one that comes while the port is off are not answered. -/
def MctpControl : Prop :=
  (∀ (s : State) (dst : Nat), forUs s true dst = true →
    (∀ e, 0 < e → e < 255 →
      exec (.setEndpointId dst e) s = .next { s with
        bus := { s.bus with mgmt := { s.bus.mgmt with eid := some e } }
        out := { s.out with resp := .control [0, 0, BitVec.ofNat 8 e, 0] :: s.out.resp } }) ∧
    (∀ e, e = 0 ∨ 255 ≤ e → exec (.setEndpointId dst e) s = .next (say (.control [2]) s)) ∧
    exec (.getEndpointId dst) s =
      .next (say (.control [0, BitVec.ofNat 8 (s.bus.mgmt.eid.getD 0)]) s) ∧
    exec (.getEndpointUuid dst) s = .next (say (.control (0 :: leBytes 16 Config.endpointUuid.toNat)) s) ∧
    exec (.getMctpVersionSupport dst) s = .next (say (.control [0, 1, 0xF1, 0xF3, 0xFF, 0]) s) ∧
    exec (.getMessageTypeSupport dst) s = .next (say (.control [0, 3, 0x05, 0x06, 0x7E]) s) ∧
    exec (.getVendorDefinedMessageSupport dst) s = .next (say (.control
      [0, 0x7E, BitVec.ofNat 8 (s.cfg.vendorId.toNat / 256), BitVec.ofNat 8 s.cfg.vendorId.toNat]) s)) ∧
  (∀ (s : State) (dst e : Nat),
    portOn s .mgmt = false ∨ dst ≠ 0 ∧ s.bus.mgmt.eid ≠ some dst →
    ∀ i ∈ [Instr.setEndpointId dst e, .getEndpointId dst, .getEndpointUuid dst, .getMctpVersionSupport dst,
      .getMessageTypeSupport dst, .getVendorDefinedMessageSupport dst], exec i s = .next s)

/-- The OD Read of entry 0x2001 as a vendor-defined MCTP request with instance `n` (R361). -/
def readResidueMessage (s : State) (n : Fin 32) : List Byte :=
  [0x7E, BitVec.ofNat 8 (s.cfg.vendorId.toNat / 256), BitVec.ofNat 8 s.cfg.vendorId.toNat, 1,
   BitVec.ofNat 8 (0x80 + n.val), 0, 0x01, 0xC0, 0x01, 0x20, 0, 0, 0, 0, 0, 0]

/-- Its response (R61, R361). -/
def residueMessage (s : State) (n : Fin 32) : List Byte :=
  [0x7E, BitVec.ofNat 8 (s.cfg.vendorId.toNat / 256), BitVec.ofNat 8 s.cfg.vendorId.toNat, 1, BitVec.ofNat 8 n.val, 0,
   0x01, 0xC0, 0, 0, 0] ++ [5, 0, 0, 8, 0, 0, 0, 8, 0, 0, 0] ++ leBytes 8 s.pm.residue

/-- The bytes of its message up to a packet, the packet's with them (R385): its own at the start of a message; after those kept
of its endpoint's message when the packet is the next one and came within 100 ms; none where it is out of order or late. -/
def joinedBytes (s : State) (m : MctpPkt) : Option (List Byte) :=
  if m.som then some m.payload
  else (assemblyOf s m.src).bind fun a =>
    if a.nextSeq = m.seq ∧ s.tb.now ≤ a.last + 100000000 then some (a.bytes ++ m.payload) else none

/-- A packet is sent to the device's endpoint, or to the null endpoint when the device's is set (R384). -/
abbrev ForDevice (s : State) (m : MctpPkt) : Prop := s.bus.mgmt.eid ≠ none ∧ (m.dst = 0 ∨ s.bus.mgmt.eid = some m.dst)

/-- A packet is taken for assembly: the port is on, its PEC holds, it carries at most 64 bytes, it is sent to the device, and
the bytes of its message so far, this packet's with them, are `b`. -/
def PacketTaken (s : State) (m : MctpPkt) (b : List Byte) : Prop :=
  portOn s .mgmt = true ∧ m.pecOk = true ∧ m.payload.length ≤ 64 ∧ ForDevice s m ∧ joinedBytes s m = some b

/-- A vendor message of instance `n` (R361): its protocol version, opcode and payload. -/
def vendorMessage (s : State) (n : Fin 32) (version opcode : BitVec 8 × BitVec 8) (payload : List Byte) : List Byte :=
  [0x7E, BitVec.ofNat 8 (s.cfg.vendorId.toNat / 256), BitVec.ofNat 8 s.cfg.vendorId.toNat, version.1,
    BitVec.ofNat 8 (0x80 + n.val), version.2, opcode.1, opcode.2] ++ payload

/-- A response of instance `n` without a payload (R61, R361). -/
def emptyResponse (s : State) (n : Fin 32) (opcode : BitVec 8 × BitVec 8) (code : Byte) : List Byte :=
  [0x7E, BitVec.ofNat 8 (s.cfg.vendorId.toNat / 256), BitVec.ofNat 8 s.cfg.vendorId.toNat, 1, BitVec.ofNat 8 n.val, 0,
    opcode.1, opcode.2, code, 0]

/-- The answer to packet `m`, the last of its message, is `resp`, and it is kept for a retry (R362, R383). -/
def AnswersRequest (s t : State) (m : MctpPkt) (n : Fin 32) (resp : List Byte) : Prop :=
  t.out.resp = .mctp m.srcAddr m.src m.tag resp :: s.out.resp ∧ t.bus.mgmt.peer = m.srcAddr ∧
    assemblyOf t m.src = none ∧ (∃ q ∈ t.bus.reqs, q.src = m.src ∧ q.inst = n.val ∧ q.resp = resp) ∧
    OnlyChanges [.bus, .free, .out] s t

/-- MCTP_PACKET with a whole request (R61, R361, R362, R383, R385): it is executed and answered to its sender; the same
request again is answered with the same response and executes nothing; a protocol version other than 1 and an opcode that is
no vendor command's are answered Unsupported, a payload shorter than the opcode's fixed part Invalid Payload Length; while a
Commit of the endpoint runs one request waits and another is answered Busy; bytes of another type or vendor ID, and a
response, execute nothing. -/
def MctpRequests : Prop :=
  ∀ (s : State) (m : MctpPkt) (b : List Byte), PacketTaken s m b → m.eom = true → b.length ≤ 8202 → Calm s →
    (∀ n : Fin 32, (s.bus.reqs.any fun x => decide (x.src = m.src ∧ x.inst = n.val)) = false →
      s.upd.committer ≠ some (.smbus m.src) →
      (b = readResidueMessage s n → Served s (.smbus m.src) → NoSession s (.smbus m.src) →
        Gives (.mctpPacket m) s fun t => AnswersRequest s t m n (residueMessage s n)) ∧
      (∀ (v op : BitVec 8 × BitVec 8) (l : List Byte), b = vendorMessage s n v op l →
        v.1 ≠ 1 ∨ op.2 ≠ 0xC0 ∨ op.1 ∉ ([0x01, 0x02, 0x03, 0x10, 0x11, 0x12, 0x13, 0x20] : List Byte) →
        Gives (.mctpPacket m) s fun t => AnswersRequest s t m n (emptyResponse s n op 3)) ∧
      (∀ (op k : BitVec 8) (r : BitVec 8) (l : List Byte), b = vendorMessage s n (1, r) (op, 0xC0) l →
        (op, k) ∈ ([(0x01, 8), (0x02, 12), (0x03, 6), (0x10, 8), (0x11, 12), (0x12, 4), (0x13, 4), (0x20, 12)]
          : List (Byte × Byte)) → l.length < k.toNat →
        Gives (.mctpPacket m) s fun t => AnswersRequest s t m n (emptyResponse s n (op, 0xC0) 0x16))) ∧
    (∀ (n : Fin 32) (v op : BitVec 8 × BitVec 8) (l : List Byte), b = vendorMessage s n v op l →
      (∀ q : McReq, s.bus.reqs.find? (fun x => decide (x.src = m.src ∧ x.inst = n.val)) = some q →
        Gives (.mctpPacket m) s fun t => t.bus.reqs = s.bus.reqs ∧ assemblyOf t m.src = none ∧
          t.out.resp = (if q.resp = [] then s.out.resp else .mctp m.srcAddr m.src m.tag q.resp :: s.out.resp) ∧
          OnlyChanges [.bus, .out] s t) ∧
      (s.bus.reqs.find? (fun x => decide (x.src = m.src ∧ x.inst = n.val)) = none →
        s.upd.committer = some (.smbus m.src) →
        ((s.bus.waiting.any fun x => decide (x.src = m.src)) = false →
          Gives (.mctpPacket m) s fun t => t.out = s.out ∧ t.bus.reqs = s.bus.reqs ∧ OnlyChanges [.bus] s t ∧
            t.bus.waiting = s.bus.waiting ++ [{ src := m.src, addr := m.srcAddr, tag := m.tag, bytes := b }]) ∧
        ((s.bus.waiting.any fun x => decide (x.src = m.src)) = true →
          Gives (.mctpPacket m) s fun t => t.bus.reqs = s.bus.reqs ∧ t.bus.waiting = s.bus.waiting ∧
            t.out.resp = .mctp m.srcAddr m.src m.tag (emptyResponse s n op 6) :: s.out.resp ∧
            OnlyChanges [.bus, .out] s t))) ∧
    (b.length < 8 ∨ b.take 3 ≠ [0x7E, BitVec.ofNat 8 (s.cfg.vendorId.toNat / 256), BitVec.ofNat 8 s.cfg.vendorId.toNat] ∨
        (∃ x : Byte, b[4]? = some x ∧ x.toNat < 128) →
      Gives (.mctpPacket m) s fun t => t.out = s.out ∧ t.bus.reqs = s.bus.reqs ∧ assemblyOf t m.src = none ∧
        OnlyChanges [.bus] s t)

/-- MCTP_PACKET with a part of a message, and MCTP_ASSEMBLY_GAP (R373, R378, R383, R385): the bytes are kept until the message
ends, and a new start replaces those kept; a message over 8,202 bytes, one with a packet out of order or with a gap, is
discarded and counted; so is a packet that fails its PEC or is longer than 64 bytes; a packet for another endpoint, and one
that belongs to no message, are dropped; a port that is off moves nothing. -/
def MctpAssembly : Prop :=
  (∀ (s : State) (m : MctpPkt) (b : List Byte), PacketTaken s m b → Calm s →
    (m.eom = false → b.length ≤ 8202 →
      Gives (.mctpPacket m) s fun t =>
        assemblyOf t m.src = some { src := m.src, last := s.tb.now, nextSeq := m.seq + 1, bytes := b } ∧
        t.bus.reqs = s.bus.reqs ∧ OnlyChanges [.bus] s t) ∧
    (8202 < b.length →
      Gives (.mctpPacket m) s fun t => assemblyOf t m.src = none ∧ t.bus.reqs = s.bus.reqs ∧
        t.bus.mgmt.errors = satInc 0xFFFFFFFF s.bus.mgmt.errors ∧ t.bus.mgmt.lastError = 8 ∧
        OnlyChanges busParts s t)) ∧
  (∀ (s : State) (m : MctpPkt), portOn s .mgmt = true → Calm s →
    (m.payload.length ≤ 64 → m.pecOk = false →
      Gives (.mctpPacket m) s fun t => t.bus.mgmt.errors = satInc 0xFFFFFFFF s.bus.mgmt.errors ∧
        t.bus.mgmt.lastError = 3 ∧ t.bus.assembly = s.bus.assembly ∧ t.bus.reqs = s.bus.reqs ∧
        OnlyChanges busParts s t) ∧
    (64 < m.payload.length →
      Gives (.mctpPacket m) s fun t => t.bus.mgmt.errors = satInc 0xFFFFFFFF s.bus.mgmt.errors ∧
        t.bus.assembly = s.bus.assembly ∧ t.bus.reqs = s.bus.reqs ∧ OnlyChanges busParts s t) ∧
    (m.payload.length ≤ 64 → m.pecOk = true →
      (¬ ForDevice s m ∨ m.som = false ∧ assemblyOf s m.src = none →
        Gives (.mctpPacket m) s fun t => t.bus.assembly = s.bus.assembly ∧ t.bus.reqs = s.bus.reqs ∧
          t.bus.mgmt.errors = s.bus.mgmt.errors ∧ OnlyChanges [.bus] s t) ∧
      (ForDevice s m → (assemblyOf s m.src).isSome = true → joinedBytes s m = none →
        Gives (.mctpPacket m) s fun t => assemblyOf t m.src = none ∧ t.bus.reqs = s.bus.reqs ∧
          t.bus.mgmt.errors = satInc 0xFFFFFFFF s.bus.mgmt.errors ∧ t.bus.mgmt.lastError = 8 ∧
          OnlyChanges busParts s t))) ∧
  (∀ (s : State) (src : Nat), portOn s .mgmt = true → Calm s →
    ((assemblyOf s src).isSome = true →
      Gives (.mctpAssemblyGap src) s fun t => assemblyOf t src = none ∧
        t.bus.mgmt.errors = satInc 0xFFFFFFFF s.bus.mgmt.errors ∧ t.bus.mgmt.lastError = 8 ∧
        OnlyChanges busParts s t) ∧
    (assemblyOf s src = none → exec (.mctpAssemblyGap src) s = .next s)) ∧
  (∀ s : State, portOn s .mgmt = false → ∀ m src,
    exec (.mctpPacket m) s = .next s ∧ exec (.mctpAssemblyGap src) s = .next s)

/-- A message of an endpoint that waited runs once its request has ended, as the last part of the step on an empty queue
(R362; log 3): it leaves the queue of those that wait, and it is answered to its sender. -/
def WaitingMessageRuns : Prop :=
  (∀ s : State, s.pending = [] → s.crew.lagBuf = [] → s.fault.shadows = [] → (∀ h, (headOf s h).retrainBy = none) →
    ∃ u, step s = .next (serveWaiting u) ∧ u.bus.waiting = s.bus.waiting ∧ u.upd = s.upd) ∧
  (∀ s : State, (∀ m ∈ s.bus.waiting, s.upd.committer = some (.smbus m.src)) → serveWaiting s = s) ∧
  (∀ (s t : State) (m : McMsg) (n : Fin 32), s.bus.waiting = [m] → s.upd.committer ≠ some (.smbus m.src) →
    m.bytes = readResidueMessage s n → Served s (.smbus m.src) → NoSession s (.smbus m.src) → Calm s →
    serveWaiting s = t → t.bus.waiting = [] ∧
      t.out.resp = .mctp m.addr m.src m.tag (residueMessage s n) :: s.out.resp ∧ OnlyChanges [.bus, .free, .out] s t)

/-- The two-wire ports: their errors, and the ways to call for attention (R374 to R382, R386, R389). -/
def Obligations.BusErrorsAndAttention : Prop :=
  BusEvents ∧ BusAttention

/-- MCTP control messages and packets (R361, R362, R373, R383 to R385). -/
def Obligations.MctpControlAndPackets : Prop :=
  MctpControl ∧ MctpRequests ∧ MctpAssembly ∧ WaitingMessageRuns


/-! ## HOLDWATER and JTAG -/

/-- The device can be frozen at once (R458, R459): it is not frozen, no save runs, the regions are supplied, and no channel
is in a block reset. -/
def FreezeReady (s : State) : Prop :=
  s.seq.vddAon = true ∧ frozen s = false ∧ saving s = false ∧ darkOrAux s = false ∧
    (∀ c ∈ s.dram.channels, c.state ≠ .blockReset) ∧ Calm s

/-- A hold bit that sets now starts nothing (R458, R459): the device is frozen already, or CORE is not up. -/
def FreezeStands (s : State) : Prop :=
  s.seq.vddAon = true ∧ saving s = false ∧ (frozen s = true ∨ darkOrAux s = true) ∧ Calm s

/-- A freeze asked for now waits for the end of a block reset (R196, R459). -/
def FreezeWaits (s : State) : Prop :=
  s.seq.vddAon = true ∧ frozen s = false ∧ saving s = false ∧ darkOrAux s = false ∧
    (∃ c ∈ s.dram.channels, c.state = .blockReset) ∧ Calm s

/-- What entering a freeze leaves (R458, R460): the device frozen since now and counted once more, the heads' credits held,
every write that could reach DRAM applied, every active channel in self-refresh, a new copy in the shadow chains (R464), and
the page map as it was. -/
def FreezeEntered (s t : State) : Prop :=
  frozen t = true ∧ t.frz.since = s.tb.now ∧ t.frz.freezes = satInc 0xFFFF s.frz.freezes ∧
    t.frz.shadow = s.frz.shadow + 1 ∧ t.frz.waiting = false ∧
    t.host.head0.creditsHeld = true ∧ t.host.head1.creditsHeld = true ∧
    (∀ e ∈ t.wb.entries, drainable s e = false) ∧ (∀ c ∈ t.dram.channels, c.state ≠ .active) ∧
    OnlyChanges [.frz, .dram, .wb, .free, .wl, .cxl, .host, .out, .bus] s t

/-- What resuming leaves (R458, R461, R466): no hold, no freeze, the credits returned, every channel that rested active
again, the time of the freeze in milliseconds, the publication's age and the decay put off by it, the records staged in it
moved by a member (DEDUCED: R332 has a crew move what is staged before it writes, log 113), and the page map as it was where
no rebuild of a map line waited (R91). -/
def FreezeEnded (s t : State) : Prop :=
  frozen t = false ∧ held t = false ∧ t.host.head0.creditsHeld = false ∧ t.host.head1.creditsHeld = false ∧
    (∀ c ∈ t.dram.channels, c.state ≠ .selfRefresh) ∧
    t.frz.lastMs = min 0xFFFFFFFF ((s.tb.now - s.frz.since) / 1000000) ∧ t.dram.bytes = s.dram.bytes ∧
    t.pm.toRebuild = [] ∧ t.pm.toRedrain = [] ∧
    (s.pm.toRebuild = [] → s.pm.toRedrain = [] →
      t.weir.pubTime = s.weir.pubTime + (s.tb.now - s.frz.since) ∧
      t.weir.decayAt = s.weir.decayAt + (s.tb.now - s.frz.since) ∧
      OnlyChanges [.frz, .dram, .weir, .ledger, .crew, .upd, .free, .wl, .cxl, .host, .fault, .out, .bus] s t) ∧
    (s.log.spill.length + 64 * s.pm.toRebuild.length + s.pm.toRedrain.length ≤ spillEntries →
      (anyMember s = true → s.ledger.failed = false → ∀ r ∈ t.wl.ring, r.staged = false) ∧ t.wb = s.wb ∧
      t.fault = { s.fault with
        shadows := s.fault.shadows.map fun x => { x with since := x.since + (s.tb.now - s.frz.since) } } ∧
      OnlyChanges [.frz, .dram, .weir, .ledger, .crew, .upd, .free, .wl, .cxl, .host, .fault, .out, .bus, .pm, .lake, .log, .rst]
        s t)

/-- A request of the object dictionary for the freeze is evaluated (R365, R390, R458): the device is neither in DARK nor in
AUX, the ROM of Boathouse mode serves no requests, no activation runs, and the request's path may set and clear the freeze.
-/
def FreezeRequest (s : State) (p : Path) : Prop :=
  turnedAway s p = false ∧ gate 0xB001 p s = none ∧ romServes s = false ∧ activating s = false ∧ privilege p ≠ 0

/-- HOLDWATER_N_ASSERT, JTAG_FREEZE and FREEZE_ENTER_REQUEST (R419, R458 to R460): each sets its own hold bit; the first one
freezes the device, one that finds it frozen or CORE not up starts nothing, one during a block reset waits; a request during
a save is recorded and ignored; the object dictionary refuses it while an activation runs and to a host, and answers with the
status of its gate where that gives one; without VDD_AON, and on a path that does not reach the device, nothing moves. -/
def FreezesAreEntered : Prop :=
  (∀ s : State, FreezeReady s →
    (Gives .holdwaterNAssert s fun t => FreezeEntered s t ∧ t.frz.pin = true ∧ t.frz.od = s.frz.od ∧ t.frz.jtag = s.frz.jtag) ∧
    (s.fault.jtagOff = false → Gives .jtagFreeze s fun t =>
      FreezeEntered s t ∧ t.frz.jtag = true ∧ t.frz.pin = s.frz.pin ∧ t.frz.od = s.frz.od ∧ t.frz.ir = 0x10) ∧
    (∀ p, FreezeRequest s p → Gives (.freezeEnterRequest p) s fun t =>
      FreezeEntered s t ∧ t.frz.od = true ∧ t.frz.pin = s.frz.pin ∧ t.frz.jtag = s.frz.jtag)) ∧
  (∀ s : State, FreezeStands s →
    Gives .holdwaterNAssert s (Noticed { s with frz := { s.frz with pin := true } }) ∧
    (s.fault.jtagOff = false → Gives .jtagFreeze s (Noticed { s with
      frz := { s.frz with ir := 0x10, trst := false, jtag := true } })) ∧
    (∀ p, FreezeRequest s p →
      Gives (.freezeEnterRequest p) s (Answers p stOk { s with frz := { s.frz with od := true } }))) ∧
  (∀ s : State, FreezeWaits s →
    Gives .holdwaterNAssert s (Noticed { s with frz := { s.frz with pin := true, waiting := true } }) ∧
    (s.fault.jtagOff = false → Gives .jtagFreeze s (Noticed { s with
      frz := { s.frz with ir := 0x10, trst := false, jtag := true, waiting := true } })) ∧
    (∀ p, FreezeRequest s p →
      Gives (.freezeEnterRequest p) s (Answers p stOk { s with frz := { s.frz with od := true, waiting := true } }))) ∧
  (∀ s : State, s.seq.vddAon = true → saving s = true → Calm s →
    Gives .holdwaterNAssert s (Reported s) ∧
    (s.fault.jtagOff = false →
      Gives .jtagFreeze s (Reported { s with frz := { s.frz with ir := 0x10, trst := false } })) ∧
    (∀ p, FreezeRequest s p → Gives (.freezeEnterRequest p) s fun t => ∃ r, Reported s r ∧ Answers p stOk r t)) ∧
  (∀ s : State, ∀ p, Calm s → ∀ i ∈ [Instr.freezeEnterRequest p, .freezeResumeRequest p],
    (reaches s p = false → exec i s = .next s) ∧
    (∀ st, turnedAway s p = false → gate 0xB001 p s = some st → Gives i s (Answers p st s)) ∧
    (turnedAway s p = false → gate 0xB001 p s = none →
      (romServes s = true → Gives i s (Answers p stState s)) ∧
      (romServes s = false → privilege p = 0 → Gives i s (Answers p stAccess s)) ∧
      (romServes s = false → activating s = true → privilege p ≠ 0 → Gives i s (Answers p stState s)))) ∧
  (∀ s : State, s.seq.vddAon = false → exec .holdwaterNAssert s = .next s ∧ exec .holdwaterNDeassert s = .next s)

/-- HOLDWATER_N_DEASSERT, JTAG_RESUME and FREEZE_RESUME_REQUEST (R458, R466): each clears its own hold bit, JTAG_RESUME that
of the request too; with the last one cleared a frozen device resumes and a freeze that waited is given up; with another left
the freeze holds. The object dictionary reaches a frozen device over MGMT alone. A freeze that held the coxswains of a start
ends the same way, and they start then (R459). -/
def FreezesAreLeft : Prop :=
  (∀ s : State, s.seq.vddAon = true → frozen s = true → coreHeld s = false → Calm s →
    (s.frz.od = false → s.frz.jtag = false → Gives .holdwaterNDeassert s (FreezeEnded s)) ∧
    (s.fault.jtagOff = false → s.frz.pin = false → Gives .jtagResume s (FreezeEnded s)) ∧
    (∀ p, FreezeRequest s p → s.frz.pin = false → s.frz.jtag = false → Gives (.freezeResumeRequest p) s (FreezeEnded s)) ∧
    (∀ p, FreezeRequest s p → ∃ e, p = .smbus e)) ∧
  (∀ s : State, s.seq.vddAon = true → frozen s = true → coreHeld s = true → Calm s →
    (s.frz.od = false → s.frz.jtag = false → Gives .holdwaterNDeassert s fun t =>
      frozen t = false ∧ held t = false ∧ t.boot.stage ≠ 0 ∧ (s.boot.boathouse = true → t.boot.inBoathouse = true)) ∧
    (s.fault.jtagOff = false → s.frz.pin = false → Gives .jtagResume s fun t =>
      frozen t = false ∧ held t = false ∧ t.boot.stage ≠ 0 ∧ (s.boot.boathouse = true → t.boot.inBoathouse = true))) ∧
  (∀ s : State, s.seq.vddAon = true → Calm s →
    (s.frz.od = true ∨ s.frz.jtag = true →
      Gives .holdwaterNDeassert s (Noticed { s with frz := { s.frz with pin := false } })) ∧
    (s.fault.jtagOff = false → s.frz.pin = true →
      Gives .jtagResume s (Noticed { s with frz := { s.frz with ir := 0x11, trst := false, jtag := false, od := false } })) ∧
    (∀ p, FreezeRequest s p → s.frz.pin = true ∨ s.frz.jtag = true →
      Gives (.freezeResumeRequest p) s (Answers p stOk { s with frz := { s.frz with od := false } }))) ∧
  (∀ s : State, s.seq.vddAon = true → frozen s = false → Calm s →
    (s.frz.od = false → s.frz.jtag = false →
      Gives .holdwaterNDeassert s (Noticed { s with frz := { s.frz with pin := false, waiting := false } })) ∧
    (s.fault.jtagOff = false → s.frz.pin = false → Gives .jtagResume s (Noticed { s with
      frz := { s.frz with ir := 0x11, trst := false, jtag := false, od := false, waiting := false } })) ∧
    (∀ p, FreezeRequest s p → s.frz.pin = false → s.frz.jtag = false → Gives (.freezeResumeRequest p) s
      (Answers p stOk { s with frz := { s.frz with od := false, waiting := false } })))

/-- HOLDWATER_N_ASSERT, HOLDWATER_N_DEASSERT, FREEZE_ENTER_REQUEST, FREEZE_RESUME_REQUEST, JTAG_FREEZE and JTAG_RESUME (R419,
R458 to R460, R464, R466). -/
def Obligations.Freezes : Prop := FreezesAreEntered ∧ FreezesAreLeft

/-- JTAG_EXTEST, JTAG_IDCODE, JTAG_SAMPLE_PRELOAD, JTAG_STATUS, JTAG_BYPASS, FRZ_SELECT, FRZ_SCAN and TRST_N_ASSERT (R463,
R464, R468, R469, R483, R497): each instruction is in the register with its data shifted out; FRZ_SCAN gives zeros outside a
freeze and the selected chain of the shadow inside one; TRST_N selects IDCODE, clears HOLD_JTAG, which resumes a device that
no other bit holds, and enables a port that a fault disabled; a disabled port takes nothing, and a bypass with an opcode of
another instruction is none. -/
def JtagInstructions : Prop :=
  (∀ s : State, jtagUp s = true →
    exec .jtagExtest s = .next { s with frz := { s.frz with ir := 0x00, trst := false } } ∧
    exec .jtagSamplePreload s = .next { s with frz := { s.frz with ir := 0x02, trst := false } } ∧
    exec .jtagIdcode s = .next { s with
      frz := { s.frz with ir := 0x01, trst := false }
      out := { s.out with
        resp := .jtag 32 (0x20000000 + s.cfg.deviceCode * 0x1000 + s.cfg.jep106.toNat * 2 + 1) :: s.out.resp } } ∧
    exec .jtagStatus s = .next { s with
      frz := { s.frz with ir := 0x15, trst := false }
      out := { s.out with resp := .jtag 64 (readReg s 0xF0600080).toNat :: s.out.resp } } ∧
    (∀ op, listedOpcode op = false →
      exec (.jtagBypass op) s = .next { s with
        frz := { s.frz with ir := op, trst := false }, out := { s.out with resp := .jtag 1 0 :: s.out.resp } }) ∧
    (∀ sel, exec (.frzSelect sel) s = .next { s with
      frz := { s.frz with ir := 0x12, trst := false, chain := sel } }) ∧
    (∀ n, frozen s = false → exec (.frzScan n) s = .next { s with
      frz := { s.frz with ir := 0x13, trst := false }, out := { s.out with resp := .jtag n 0 :: s.out.resp } }) ∧
    (∀ n, frozen s = true → exec (.frzScan n) s = .next { s with
      frz := { s.frz with ir := 0x13, trst := false }
      out := { s.out with resp := .jtag n (Config.shadowChain s.frz.shadow s.frz.chain % 2 ^ n) :: s.out.resp } })) ∧
  (∀ s : State, jtagUp s = false →
    (∀ i ∈ [.jtagExtest, .jtagIdcode, .jtagSamplePreload, .jtagFreeze, .jtagResume, .jtagStatus], exec i s = .next s) ∧
    (∀ sel n op a d, ∀ i ∈ [.frzSelect sel, .frzScan n, .jtagBypass op, .ledgerAccessRead a, .ledgerAccessWrite a d],
      exec i s = .next s)) ∧
  (∀ (s : State) (op : Byte), listedOpcode op = true → exec (.jtagBypass op) s = .next s) ∧
  (∀ s : State, s.seq.vddAon = false → exec .trstNAssert s = .next s) ∧
  (∀ s : State, s.seq.vddAon = true → Calm s →
    (s.frz.pin = true ∨ s.frz.od = true → Gives .trstNAssert s (Noticed { s with
      fault := { s.fault with jtagOff := false }, frz := { s.frz with ir := 0x01, trst := true, jtag := false } })) ∧
    (s.frz.pin = false → s.frz.od = false → frozen s = false → Gives .trstNAssert s (Noticed { s with
      fault := { s.fault with jtagOff := false }
      frz := { s.frz with ir := 0x01, trst := true, jtag := false, waiting := false } })) ∧
    (s.frz.pin = false → s.frz.od = false → frozen s = true → coreHeld s = false → Gives .trstNAssert s fun t =>
      FreezeEnded { s with fault := { s.fault with jtagOff := false } } t ∧ t.frz.ir = 0x01))

/-- LEDGER_ACCESS_READ and LEDGER_ACCESS_WRITE (R465): the word of a read is what the next capture shifts out; a word written
while frozen with TESTMODE_N sampled low is read back; a coxswain key record reads 0 and is never written; outside a freeze a
read gives 0 and a write nothing. -/
def LedgerAccess : Prop :=
  ∀ (s : State) (a : BitVec 21), jtagUp s = true →
    (Gives (.ledgerAccessRead a) s fun t =>
      t.out.resp = .jtag 87 (if frozen s then s.frz.ledgerData.toNat else 0) :: s.out.resp ∧
      (frozen s = false → t.frz.ledgerData = 0) ∧ (Config.keyRecord a.toNat = true → t.frz.ledgerData = 0) ∧
      (∀ w, frozen s = true → Config.keyRecord a.toNat = false → tabFind a.toNat s.ledger.words = some w →
        t.frz.ledgerData = w ∧ t.ledger = s.ledger) ∧
      (frozen s = true → Config.keyRecord a.toNat = false → tabFind a.toNat t.ledger.words = some t.frz.ledgerData) ∧
      OnlyChanges [.free, .frz, .ledger, .out] s t) ∧
    (∀ d, frozen s = true → s.boot.testmode = true →
      Gives (.ledgerAccessWrite a d) s fun t =>
        (Config.keyRecord a.toNat = false → tabFind a.toNat t.ledger.words = some d) ∧
        (Config.keyRecord a.toNat = true → t.ledger = s.ledger) ∧
        (∀ x, x ≠ a.toNat → tabFind x t.ledger.words = tabFind x s.ledger.words) ∧
        t.out.resp = .jtag 87 s.frz.ledgerData.toNat :: s.out.resp ∧
        t.ledger.commits = s.ledger.commits ∧ OnlyChanges [.frz, .ledger, .out] s t) ∧
    (∀ d, frozen s = false ∨ s.boot.testmode = false →
      Gives (.ledgerAccessWrite a d) s fun t => t.ledger = s.ledger ∧ OnlyChanges [.frz, .out] s t)

/-- The JTAG instructions and the access to the ledger (R463 to R465, R468, R469, R483, R497). -/
def Obligations.JtagAndLedgerAccess : Prop :=
  JtagInstructions ∧ LedgerAccess


/-! ## Firmware update -/

/-- The request is answered with `status` and `bytes`, and `s'` is what it leaves beside its answer. -/
def AnswersWith (p : Path) (status : Nat) (bytes : List Byte) (s' t : State) : Prop := Noticed (reply p status bytes s') t

/-- What the opening, the release and the answers of an update may move. -/
def updateParts : List Part := [.upd, .free, .wl, .cxl, .host, .out, .bus]

/-- A vendor command of the update reaches the device and is evaluated (R65, R365, R417): CORE is up, no freeze holds, and a
crew is a member or the ROM of Boathouse mode answers. -/
def UpdateServed (s : State) (p : Path) : Prop := turnedAway s p = false ∧ gate 0xC000 p s = none

/-- UPDATE_OPEN (R64, R403, R418): a session opens under a new number for the inactive slot, or in Boathouse mode for one
that does not verify, which holds no image from then on; it is refused with LOCKED, RANGE or STATE, in that order, and with
BUSY, which names the session that is open, while there is one. -/
def UpdateOpens : Prop :=
  ∀ (s : State) (p : Path) (n : Nat), UpdateServed s p → Calm s →
    (s.od.set.ownerLock = 0 → 4096 ≤ n → n ≤ 33554432 → s.upd.trial ≠ 1 → fallingBack s = false →
      (s.upd.session = none →
        Gives (.updateOpen p n) s fun t => ∃ s', AnswersWith p stOk (openOut (s.upd.lastId % 65535 + 1) 0 0 0) s' t ∧
          slotOf s' (targetSlot s) = none ∧
          slotOf s' (otherSlot (targetSlot s)) = slotOf s (otherSlot (targetSlot s)) ∧
          s'.upd.lastId = s.upd.lastId % 65535 + 1 ∧ s'.upd.active = s.upd.active ∧ s'.upd.stage = s.upd.stage ∧
          (∃ u, s'.upd.session = some u ∧ u.id = s'.upd.lastId ∧ u.length = n ∧ u.ranges = [] ∧ u.last = s.tb.now ∧
            u.opened = s.tb.now ∧ u.slot = targetSlot s) ∧
          OnlyChanges [.upd, .wl, .cxl, .host, .out, .bus] s s') ∧
      (∀ u, s.upd.session = some u →
        Gives (.updateOpen p n) s (AnswersWith p stBusy
          (openOut 0 u.transport u.endpoint ((60000000000 - (s.tb.now - u.last)) / 1000000000)) s))) ∧
    (s.od.set.ownerLock ≠ 0 → Gives (.updateOpen p n) s (AnswersWith p stLocked (List.replicate 7 0) s)) ∧
    (s.od.set.ownerLock = 0 → n < 4096 ∨ 33554432 < n →
      Gives (.updateOpen p n) s (AnswersWith p stRange (List.replicate 7 0) s)) ∧
    (s.od.set.ownerLock = 0 → 4096 ≤ n → n ≤ 33554432 → s.upd.trial = 1 ∨ fallingBack s = true →
      Gives (.updateOpen p n) s (AnswersWith p stState (List.replicate 7 0) s))

/-- The session `u` with its idle timer started again (R404). -/
def sessionTouched (s : State) (u : UpdSession) : State :=
  { s with upd := { s.upd with session := some { u with last := s.tb.now } } }

/-- UPDATE_BLOCK, UPDATE_ABORT and UPDATE_SESSION_IDLE (R65, R404 to R406): a block adds its range once; what it answers
follows the order of R365; an abort, or 60 s without a request, releases the session and leaves its slot without an image; an
abort of a Commit that verifies ends the Commit, one of a Commit that activates is refused. -/
def UpdateSessionsRun : Prop :=
  (∀ (s : State) (p : Path), UpdateServed s p → Calm s → ∀ u, s.upd.session = some u →
    (∀ (off : Nat) (d : List Byte), 0 < d.length → d.length ≤ 4096 → off + d.length ≤ u.length →
      (rangeErased s u off d.length = false → ∀ ok,
        Gives (.updateBlock p u.id off d ok) s (Answers p stBusy (sessionTouched s u))) ∧
      (rangeErased s u off d.length = true →
        (overlaps off d.length u.ranges = false →
          Gives (.updateBlock p u.id off d true) s (Answers p stOk { s with upd := { s.upd with
            session := some { u with last := s.tb.now, ranges := u.ranges ++ [(off, d.length)] } } }) ∧
          Gives (.updateBlock p u.id off d false) s (Answers p stMedia (sessionTouched s u))) ∧
        (overlaps off d.length u.ranges = true → ∀ ok,
          Gives (.updateBlock p u.id off d ok) s (Answers p stOverlap (sessionTouched s u))))) ∧
    (∀ off ok, Gives (.updateBlock p u.id off [] ok) s (Answers p stLengthZero (sessionTouched s u))) ∧
    (∀ (off : Nat) (d : List Byte) (ok : Bool), d ≠ [] → 4096 < d.length ∨ u.length < off + d.length →
      Gives (.updateBlock p u.id off d ok) s (Answers p stRange (sessionTouched s u))) ∧
    (∀ id, id ≠ u.id →
      (∀ off d ok, Gives (.updateBlock p id off d ok) s (Answers p stSession s)) ∧
      Gives (.updateAbort p id) s (Answers p stSession s)) ∧
    (s.upd.stage = .idle ∨ s.upd.stage = .verifying →
      Gives (.updateAbort p u.id) s fun t => t.upd.session = none ∧ t.upd.stage = .idle ∧ slotOf t u.slot = none ∧
        slotOf t (otherSlot u.slot) = slotOf s (otherSlot u.slot) ∧ t.upd.active = s.upd.active ∧
        OnlyChanges updateParts s t) ∧
    (s.upd.stage ≠ .idle → s.upd.stage ≠ .verifying → Gives (.updateAbort p u.id) s (Answers p stState s))) ∧
  (∀ (s : State) (p : Path), UpdateServed s p → Calm s → s.upd.session = none →
    (∀ id off d ok, Gives (.updateBlock p id off d ok) s (Answers p stSession s)) ∧
    (∀ id, Gives (.updateAbort p id) s (Answers p stSession s))) ∧
  (∀ s : State, Calm s → ∀ u, s.upd.session = some u → s.upd.stage = .idle →
    (u.last + 60000000000 ≤ s.tb.now →
      Gives .updateSessionIdle s fun t => t.upd.session = none ∧ slotOf t u.slot = none ∧
        slotOf t (otherSlot u.slot) = slotOf s (otherSlot u.slot) ∧ t.upd.active = s.upd.active ∧
        OnlyChanges [.upd, .wl, .cxl, .host, .out, .bus] s t) ∧
    (s.tb.now < u.last + 60000000000 → exec .updateSessionIdle s = .next s)) ∧
  (∀ s : State, s.upd.session = none ∨ s.upd.stage ≠ .idle → exec .updateSessionIdle s = .next s)

/-- UPDATE_OPEN, UPDATE_BLOCK, UPDATE_ABORT and UPDATE_COMMIT that are not evaluated (R66, R365): the status of the gate
answers them, and what comes by a path that does not reach the device moves nothing. -/
def UpdateRequestsRefused : Prop :=
  ∀ (s : State) (p : Path) (n off : Nat) (d : List Byte) (ok : Bool),
    (reaches s p = false →
      ∀ i ∈ [Instr.updateOpen p n, .updateBlock p n off d ok, .updateAbort p n, .updateCommit p n], exec i s = .next s) ∧
    (∀ st, turnedAway s p = false → gate 0xC000 p s = some st → Calm s →
      Gives (.updateOpen p n) s (AnswersWith p st (List.replicate 7 0) s) ∧
      Gives (.updateBlock p n off d ok) s (Answers p st s) ∧ Gives (.updateAbort p n) s (Answers p st s) ∧
      Gives (.updateCommit p n) s (Noticed (commitFails p st s)))

/-- UPDATE_COMMIT (R66, R407): a complete image is verified, on a mailbox as its background command, which is answered Started,
else for an answer when it is over; with another background command the mailbox is Busy; a check that fails ends the Commit
with its status: SESSION, LOCKED, STATE of an incomplete image, BUSY while another Commit runs. -/
def UpdateCommitBegins : Prop :=
  (∀ (s : State) (p : Path), UpdateServed s p → bgBusy s p = false → s.upd.session = none → Calm s → ∀ id,
    Gives (.updateCommit p id) s (Noticed (commitFails p stSession s))) ∧
  ∀ (s : State) (p : Path), UpdateServed s p → Calm s → ∀ u, s.upd.session = some u →
    (bgBusy s p = false → s.od.set.ownerLock = 0 → bytesAccepted u = u.length → s.upd.stage = .idle →
      (∀ h, p = .mailbox h →
        Gives (.updateCommit p u.id) s fun t => t.upd = { s.upd with
            stage := .verifying, committer := some p, session := some { u with last := s.tb.now } } ∧
          (headOf t h).bg = .commit ∧ t.out.resp = .mailbox h .started [] :: s.out.resp ∧
          OnlyChanges [.upd, .host, .out, .bus] s t) ∧
      ((∀ h, p ≠ .mailbox h) →
        Gives (.updateCommit p u.id) s (Noticed { s with upd := { s.upd with
          stage := .verifying, committer := some p, session := some { u with last := s.tb.now } } }))) ∧
    (∀ h id, p = .mailbox h → (headOf s h).bg ≠ .none →
      Gives (.updateCommit p id) s (Noticed (mbox h .busy [] s))) ∧
    (bgBusy s p = false → ∀ id, id ≠ u.id →
      Gives (.updateCommit p id) s (Noticed (commitFails p stSession s))) ∧
    (bgBusy s p = false → s.od.set.ownerLock ≠ 0 →
      Gives (.updateCommit p u.id) s (Noticed (commitFails p stLocked (sessionTouched s u)))) ∧
    (bgBusy s p = false → s.od.set.ownerLock = 0 → bytesAccepted u ≠ u.length →
      Gives (.updateCommit p u.id) s (Noticed (commitFails p stState (sessionTouched s u)))) ∧
    (bgBusy s p = false → s.od.set.ownerLock = 0 → bytesAccepted u = u.length → s.upd.stage ≠ .idle →
      Gives (.updateCommit p u.id) s (Noticed (commitFails p stBusy (sessionTouched s u))))

/-- The Commit of a mailbox's background command has ended with `status` (R66). -/
def CommitEnded (s t : State) (status : Nat) : Prop :=
  t.upd.committer = none ∧ ∀ h, s.upd.committer = some (.mailbox h) → (headOf s h).bg = .commit →
    (headOf t h).bg = .none ∧ (headOf t h).bgStatus = status

/-- UPDATE_VERIFY_DONE (R395, R399, R400, R404, R408 to R411): the checks in their order give INTEGRITY, AUTH or VERSION; an
image that fails one releases the session and its slot holds none; one that passes is in its slot, with the keys it revokes
revoked: where R409 refuses the update the Commit ends with STATE and nothing else moves; else the crew without the seat
leaves to load it, and where its settings cannot be read the update is aborted and that crew loads the running image; in
Boathouse mode it is active, without a trial, and the device powers down to AUX. Where nothing is verified, or a freeze
holds, nothing moves. -/
def UpdateVerifies : Prop :=
  (∀ (s : State) (f : VerifyIn),
    (f.magic ≠ 0x544B494D ∨ f.headerVersion ≠ 1 ∨ sectionsOk f.length f.sections = false ∨
        s.upd.session.map (·.length) ≠ some f.length → verifyCheck s f = stIntegrity) ∧
    (formOk s f = true → keyTrusted s f.key = false ∨ f.signatureOk = false → verifyCheck s f = stAuth) ∧
    (formOk s f = true → keyTrusted s f.key = true → f.signatureOk = true →
      (f.digestOk = false → verifyCheck s f = stIntegrity) ∧
      (f.digestOk = true → f.deviceCode ≠ s.cfg.deviceCode ∨ f.securityVersion < minVersion s ∨
        boathouse s = false ∧ handoverOk s f = false → verifyCheck s f = stVersion) ∧
      (f.digestOk = true → f.deviceCode = s.cfg.deviceCode → minVersion s ≤ f.securityVersion →
        boathouse s = true ∨ handoverOk s f = true → verifyCheck s f = stOk))) ∧
  (∀ (s : State) (f : VerifyIn), s.upd.stage ≠ .verifying ∨ frozen s = true ∨ darkOrAux s = true →
    exec (.updateVerifyDone f) s = .next s) ∧
  (∀ (s : State) (f : VerifyIn), s.upd.stage = .verifying → frozen s = false → darkOrAux s = false → boathouse s = true →
    Calm s → ∀ u, s.upd.session = some u →
    (verifyCheck s f ≠ stOk →
      Gives (.updateVerifyDone f) s fun t => t.upd.session = none ∧ t.upd.stage = .idle ∧ slotOf t u.slot = none ∧
        t.upd.active = s.upd.active ∧ t.seq = s.seq ∧ OnlyChanges updateParts s t) ∧
    (verifyCheck s f = stOk → allFallen s = false →
      Gives (.updateVerifyDone f) s fun t => t.upd.active = u.slot ∧ t.upd.trial = 0 ∧ t.upd.session = none ∧
        t.upd.stage = .idle ∧ slotOf t u.slot = some (imageOf f) ∧ t.boot.failedBoots = 0 ∧ t.seq.dir = .down ∧
        (s.seq.onPending = false → t.seq.target = .aux) ∧ t.dram = s.dram ∧ t.crew = s.crew)) ∧
  (∀ (s : State) (f : VerifyIn), s.upd.stage = .verifying → frozen s = false → darkOrAux s = false → boathouse s = false →
    Calm s → ∀ u, s.upd.session = some u →
    (verifyCheck s f ≠ stOk →
      Gives (.updateVerifyDone f) s fun t => t.upd.session = none ∧ t.upd.stage = .idle ∧ slotOf t u.slot = none ∧
        slotOf t (otherSlot u.slot) = slotOf s (otherSlot u.slot) ∧ t.upd.active = s.upd.active ∧ t.crew = s.crew ∧
        CommitEnded s t (verifyCheck s f) ∧ OnlyChanges updateParts s t) ∧
    (verifyCheck s f = stOk →
      (updateRefused s = true →
        Gives (.updateVerifyDone f) s fun t => slotOf t u.slot = some (imageOf f) ∧ t.upd.stage = .idle ∧
          t.upd.session = s.upd.session ∧ t.upd.active = s.upd.active ∧ CommitEnded s t stState ∧
          OnlyChanges [.upd, .host, .out, .bus] s t) ∧
      (updateRefused s = false → f.settingsReadable = true →
        Gives (.updateVerifyDone f) s fun t => slotOf t u.slot = some (imageOf f) ∧ t.upd.stage = .loadingX ∧
          t.upd.incoming = u.slot ∧ t.upd.active = s.upd.active ∧ t.upd.session = s.upd.session ∧
          t.upd.imageKeys = s.upd.imageKeys.map (fun x => (x.1, x.2 || f.revokes.contains x.1)) ∧
          (∀ y, seatHolder s = some y → t.upd.crewX = y.other ∧ (crewOf t y.other).st = .standby ∧
            crewOf t y = crewOf s y) ∧ t.crew.seat = s.crew.seat ∧
          OnlyChanges (.crew :: updateParts) s t) ∧
      (updateRefused s = false → f.settingsReadable = false → s.upd.fallback = false →
        Gives (.updateVerifyDone f) s fun t => t.upd.stage = .idle ∧ t.upd.session = none ∧
          t.upd.active = s.upd.active ∧
          (∀ y, seatHolder s = some y → (crewOf t y.other).st = .loading ∧ (crewOf t y.other).image = s.upd.active ∧
            crewOf t y = crewOf s y) ∧ t.crew.seat = s.crew.seat ∧ OnlyChanges (.crew :: updateParts) s t)))

/-- BOATHOUSE_COMMIT (R247, R418): the ROM verifies in the request; an image that passes is in its slot and active, without a
trial, the failed boots are 0, and the device powers down to AUX; one that fails releases the session; a check of R407 that
fails ends the Commit with its status, what the ROM found of the slots aside. Outside Boathouse mode nothing moves. -/
def BoathouseCommits : Prop :=
  (∀ (s : State) (p : Path) (id : Nat) (f : VerifyIn) (ra rb : Bool),
    reaches s p = false ∨ boathouse s = false ∨ darkOrAux s = true →
    exec (.boathouseCommit p id f ra rb) s = .next s) ∧
  (∀ (s s' : State) (p : Path) (id : Nat) (f : VerifyIn) (ra rb : Bool), reaches s p = true → darkOrAux s = false →
    boathouse s = true → Calm s → s' = romFinds 1 rb (romFinds 0 ra s) →
    (frozen s = true → Gives (.boathouseCommit p id f ra rb) s (Noticed (commitFails p stBusy s'))) ∧
    (frozen s = false → ∀ h, p = .mailbox h → (headOf s h).bg ≠ .none →
      Gives (.boathouseCommit p id f ra rb) s (Noticed (mbox h .busy [] s'))) ∧
    (frozen s = false → bgBusy s p = false →
      (s.upd.session.map (·.id) ≠ some id →
        Gives (.boathouseCommit p id f ra rb) s (Noticed (commitFails p stSession s'))) ∧
      (∀ u, s.upd.session = some u → u.id = id →
        (s.od.set.ownerLock ≠ 0 →
          Gives (.boathouseCommit p id f ra rb) s (Noticed (commitFails p stLocked (sessionTouched s' u)))) ∧
        (s.od.set.ownerLock = 0 → bytesAccepted u ≠ u.length →
          Gives (.boathouseCommit p id f ra rb) s (Noticed (commitFails p stState (sessionTouched s' u)))) ∧
        (s.od.set.ownerLock = 0 → bytesAccepted u = u.length → s.upd.stage ≠ .idle →
          Gives (.boathouseCommit p id f ra rb) s (Noticed (commitFails p stBusy (sessionTouched s' u))))))) ∧
  ∀ (s : State) (p : Path) (f : VerifyIn) (ra rb : Bool), reaches s p = true → darkOrAux s = false → frozen s = false →
    boathouse s = true → s.upd.stage = .idle → s.od.set.ownerLock = 0 → bgBusy s p = false → Calm s →
    ∀ u, s.upd.session = some u → bytesAccepted u = u.length →
    (verifyCheck s f = stOk → allFallen s = false →
      Gives (.boathouseCommit p u.id f ra rb) s fun t => t.upd.active = u.slot ∧ t.upd.trial = 0 ∧
        t.upd.session = none ∧ slotOf t u.slot = some (imageOf f) ∧ t.boot.failedBoots = 0 ∧
        t.seq.dir = .down ∧ (s.seq.onPending = false → t.seq.target = .aux) ∧ t.dram = s.dram ∧ t.crew = s.crew) ∧
    (verifyCheck s f ≠ stOk →
      Gives (.boathouseCommit p u.id f ra rb) s fun t => t.upd.session = none ∧ slotOf t u.slot = none ∧
        t.upd.active = s.upd.active ∧ t.seq = s.seq ∧ OnlyChanges updateParts s t)

/-- UPDATE_HANDOVER and SETTINGS_WORKING_COPY_WRITTEN (R410, R411, R413, R416): the crew with the incoming image becomes the
member with the seat, the other goes to STANDBY for the same image, and the oars run its microcode; an update puts it on trial
with the old one as Repechage, freezes the settings and goes on with a copy of them, or with the defaults under another major
schema; a fall-back ends the trial and brings the frozen settings back. A handover that is not ready yet, and either command
while a freeze holds, moves nothing. -/
def UpdateHandsOver : Prop :=
  (∀ s : State, handReady s = true → Calm s →
    Gives .updateHandover s fun t => t.upd.active = s.upd.incoming ∧ t.upd.repechage = s.upd.active ∧
      t.upd.trialS = 0 ∧ t.upd.stage = .handedOver ∧ (crewOf t s.upd.crewX).st = .member ∧
      (crewOf t s.upd.crewX.other).st = .standby ∧ (crewOf t s.upd.crewX.other).image = s.upd.incoming ∧
      seatHolder t = some s.upd.crewX ∧ t.upd.minSecurity = s.upd.minSecurity ∧ t.dram.bytes = s.dram.bytes ∧
      (∀ c ∈ t.flash.channels, c.oarSlot = none ∨ c.oarSlot = some s.upd.incoming) ∧
      (∀ c ∈ t.dram.channels, c.oarSlot = none ∨ c.oarSlot = some s.upd.incoming) ∧
      (s.upd.fallback = false → t.upd.trial = 1 ∧ t.od.frozen = some s.od.set ∧ t.od.workingCopy = true ∧
        t.od.set = (if majorOf s s.upd.active = majorOf s s.upd.incoming then s.od.set else defaultSettings s.cfg)) ∧
      (s.upd.fallback = true → t.upd.trial = 0 ∧ t.od.frozen = none ∧ t.od.set = s.od.frozen.getD s.od.set)) ∧
  (∀ s : State, frozen s = false →
    exec .settingsWorkingCopyWritten s = .next { s with od := { s.od with workingCopy := false } }) ∧
  (∀ s : State, (handReady s = false → exec .updateHandover s = .next s) ∧
    (frozen s = true → exec .settingsWorkingCopyWritten s = .next s))

/-- TRIAL_EXPIRY, TRIAL_TIME_WRITE and FALLBACK_WAIT_TIMEOUT (R414 to R416, R435): a trial whose last hour began is
committed: the minimum security version is at least the image's, in the boot config and the ledger, and the old settings are
gone; each hour of a trial is added in the boot config; a fall-back that waited in vain makes the Repechage active from the
next start on. With no trial that counts, or no fall-back that waits, nothing moves. -/
def TrialsEnd : Prop :=
  (∀ s : State, trialCounts s = true → Calm s →
    (82800 ≤ s.upd.trialS → Gives .trialExpiry s fun t => t.upd.trial = 0 ∧ t.od.frozen = none ∧
      t.upd.active = s.upd.active ∧
      t.upd.minSecurity = max (minVersion s) (((slotOf s s.upd.active).map (·.security)).getD 0) ∧
      t.ledger.minSecurity = t.upd.minSecurity ∧ t.od.set = s.od.set ∧
      OnlyChanges [.upd, .ledger, .od, .free, .wl, .cxl, .host, .out, .bus] s t) ∧
    (s.upd.trialS < 82800 → exec .trialExpiry s = .next s) ∧
    exec .trialTimeWrite s = .next { s with upd := { s.upd with
      trialS := s.upd.trialS + 3600, trialMark := s.tb.now, bootSeq := s.upd.bootSeq + 1 } }) ∧
  (∀ s : State, s.upd.stage = .waitMembers → frozen s = false → Calm s →
    Gives .fallbackWaitTimeout s fun t => t.upd = { s.upd with
        stage := .idle, fallback := false, active := s.upd.repechage, trial := 0, bootSeq := s.upd.bootSeq + 1 } ∧
      OnlyChanges updateParts s t) ∧
  (∀ s : State, (trialCounts s = false → exec .trialExpiry s = .next s ∧ exec .trialTimeWrite s = .next s) ∧
    (s.upd.stage ≠ .waitMembers ∨ frozen s = true → exec .fallbackWaitTimeout s = .next s))

/-- A firmware update from its session to the end of its trial (R64 to R66, R395, R399, R400, R403 to R416, R418, R435). -/
def Obligations.UpdatesRunToActivation : Prop :=
  (UpdateOpens ∧ UpdateSessionsRun ∧ UpdateCommitBegins ∧ UpdateRequestsRefused) ∧ UpdateVerifies ∧ BoathouseCommits ∧
    UpdateHandsOver ∧ TrialsEnd

/-! ## The margin planner -/

/-- A plan may run and none does (R422): past RESTORED and before a fence, with a member, and no ramp of the voltage. -/
def PlanReady (s : State) : Prop :=
  planBlocked s = false ∧ s.plan.ramp = false ∧ s.plan.running = false ∧ Calm s

/-- The core voltage target that the lowest slack asks for (R423); with none read the target stays. -/
def targetFor (slack : Option Int) (t : Nat) : Nat :=
  match slack with
  | none => t
  | some x =>
    if x < 40 then min 850 (t + min 25 (10 * ((49 - x) / 10).toNat))
    else if 80 ≤ x then max 700 (t - 5) else t

/-- The target that the Power region takes for a target it is sent (R424): within 700 to 850 mV, and within 25 mV of the one in
force. -/
def takenTarget (inForce mv : Nat) : Nat := max (inForce - 25) (min (inForce + 25) (max 700 (min 850 mv)))

/-- The target in force after a plan on `slack`. -/
def plannedTarget (slack : Option Int) (t : Nat) : Nat :=
  if targetFor slack t = t then t else takenTarget t (targetFor slack t)

/-- The derating of the save rate after a plan on `slack` (R423), in 0.01 %. -/
def plannedDerate (slack : Option Int) (t d : Nat) : Nat :=
  match slack with
  | none => d
  | some x => if x < 40 ∧ targetFor slack t = 850 then min 5000 (500 * ((49 - x) / 10).toNat) else 0

/-- What a plan that began for trigger bits `n` in `s` leaves (R422, R423, R426, R428): the target and the derating of the
rule, the stale training records and the counts of reads; with no step of the voltage to take, the plan is over, committed
and counted, and the next is due in 24 h; otherwise its ramp has begun. -/
def PlanRan (n : Nat) (s t : State) : Prop :=
  t.plan.target = plannedTarget (lowest s) s.plan.target ∧ t.plan.voltage = s.plan.voltage ∧
    t.plan.derate = plannedDerate (lowest s) s.plan.target s.plan.derate ∧
    (targetFor (lowest s) s.plan.target = s.plan.target ∨
        s.plan.voltage = plannedTarget (lowest s) s.plan.target →
      t.plan.running = false ∧ t.plan.seq = s.plan.seq + 1 ∧ t.plan.plans = satInc 0xFFFF s.plan.plans ∧
      t.plan.dueAt = age s + nsPerDay ∧ t.plan.last[1]? = some (BitVec.ofNat 64 n) ∧
      (s.ledger.failed = false →
        t.ledger.commits = { time := s.tb.now, commit := .other .plan } :: s.ledger.commits)) ∧
    (targetFor (lowest s) s.plan.target ≠ s.plan.target →
        s.plan.voltage ≠ plannedTarget (lowest s) s.plan.target →
      t.plan.running = true ∧ t.plan.ramp = true ∧ t.plan.goal = targetFor (lowest s) s.plan.target ∧
      t.plan.old = s.plan.target ∧ t.plan.seq = s.plan.seq ∧ t.ledger = s.ledger) ∧
    (∀ (k : Nat) (c : DramChannel), s.dram.channels[k]? = some c →
      (t.dram.channels[k]?).map DramChannel.recordStale = some (c.recordStale || goesStale s c)) ∧
    t.flash.classReads = List.replicate 8 (0, 0) ∧ t.dram.bytes = s.dram.bytes ∧
    OnlyChanges [.plan, .dram, .flash, .bat, .ledger, .free, .wl, .cxl, .host, .out, .bus] s t

/-- The latest readings of Ergometer `k`, and the lowest slack since the last plan (R421); one that failed its parity check
leaves both as they were and is left out of the plan. -/
def ErgoRead (s t : State) (k : Nat) (e : ErgoIn) : Prop :=
  ∀ old d, s.plan.slack[k]? = some old → s.plan.drift[k]? = some d →
    t.plan.parity[k]? = some e.parityOk ∧ t.plan.drift[k]? = some (if e.parityOk then e.drift else d) ∧
      t.plan.slack[k]? = some (if e.parityOk then some (match old with
        | some y => min y e.slack
        | none => e.slack) else old)

/-- ERGOMETER_MEASURE (R421): readings with good parity give the lowest slack since the last plan and the latest drift; one
with bad parity is a C fault of the fault collector with its subindex as KEY. Without supply, or frozen, none is taken. -/
def ErgometersAreRead : Prop :=
  (∀ (s : State) (l : List ErgoIn), darkOrAux s = false → frozen s = false → l.length = 28 →
    s.plan.slack.length = 28 → s.plan.drift.length = 28 → s.plan.parity.length = 28 → Calm s →
    ((∀ e ∈ l, e.parityOk = true) →
      Gives (.ergometerMeasure l) s fun t => (∀ k e, l[k]? = some e → ErgoRead s t k e) ∧
        t.plan.target = s.plan.target ∧ OnlyChanges [.plan, .bus] s t) ∧
    (∀ k e, l[k]? = some e → e.parityOk = false → (∀ j x, l[j]? = some x → j ≠ k → x.parityOk = true) →
      (capture s 0x0080).sticky = false →
      Gives (.ergometerMeasure l) s fun t => (∀ j x, l[j]? = some x → ErgoRead s t j x) ∧
        Captured s t 0x0080 .c (BitVec.ofNat 8 (k + 1)) 0x0080 ∧ t.plan.target = s.plan.target ∧
        OnlyChanges (.plan :: reportParts) s t)) ∧
  (∀ (s : State) (l : List ErgoIn), darkOrAux s = true ∨ frozen s = true → exec (.ergometerMeasure l) s = .next s)

/-- PLAN_TRIGGER (R422, R425): a trigger whose condition holds runs a plan; between the fence and RESTORED, and with no
member, it is kept, as is one that finds the ramp of no plan, and a temperature trigger during any ramp; another that finds a
plan running is merged into it; the kept ones act as one plan. -/
def PlanTriggersAct : Prop :=
  (∀ s : State, darkOrAux s = false → frozen s = false → boathouse s = false →
    (∀ x ∈ [(PlanTrig.timer, 0, (1 : BitVec 4)), (.temperature, 1, 2)], trigHolds s x.1 = true →
      (PlanReady s → Gives (.planTrigger x.1) s (PlanRan x.2.1 s)) ∧
      (planBlocked s = true ∨ s.plan.ramp = true ∧ (s.plan.running = false ∨ x.2.1 = 1) → Calm s →
        Gives (.planTrigger x.1) s (Noticed { s with plan := { s.plan with pending := s.plan.pending ||| x.2.2 } })) ∧
      (planBlocked s = false → s.plan.running = true → s.plan.ramp = false ∨ x.2.1 = 0 → Calm s →
        Gives (.planTrigger x.1) s (Noticed { s with plan := { s.plan with
          draft := listUpd 1 (fun w => w ||| BitVec.ofNat 64 (2 ^ (8 + x.2.1))) s.plan.draft } }))) ∧
    (memReady s = true → s.plan.startCame = false →
      (PlanReady s → Gives (.planTrigger .start) s fun t => t.plan.startCame = true ∧ PlanRan 3 s t) ∧
      (planBlocked s = true ∨ s.plan.ramp = true ∧ s.plan.running = false → Calm s →
        Gives (.planTrigger .start) s (Noticed { s with plan := { s.plan with
          startCame := true, pending := s.plan.pending ||| 8 } })) ∧
      (planBlocked s = false → s.plan.running = true → Calm s →
        Gives (.planTrigger .start) s (Noticed { s with plan := { s.plan with
          startCame := true, draft := listUpd 1 (fun w => w ||| 0x800) s.plan.draft } }))) ∧
    (PlanReady s → ∀ n, (s.plan.pending, n) ∈ ([(1, 0), (2, 1), (4, 2), (8, 3)] : List (BitVec 4 × Nat)) →
      Gives (.planTrigger .kept) s fun t => t.plan.pending = 0 ∧ PlanRan n s t) ∧
    (PlanReady s → s.plan.pending = 15 →
      Gives (.planTrigger .kept) s fun t => t.plan.pending = 0 ∧ PlanRan 0xE00 s t)) ∧
  (∀ (s : State) (x : PlanTrig), darkOrAux s = true ∨ frozen s = true ∨ boathouse s = true ∨ trigHolds s x = false →
    exec (.planTrigger x) s = .next s) ∧
  (∀ s : State, (trigHolds s .timer = true ↔ s.plan.seq ≠ 0 ∧ s.plan.dueAt ≤ age s) ∧
    (trigHolds s .temperature = true ↔ s.cxl.tempC + 10 ≤ s.plan.tempC ∨ s.plan.tempC + 10 ≤ s.cxl.tempC) ∧
    (trigHolds s .start = true ↔ memReady s = true ∧ s.plan.startCame = false) ∧
    (trigHolds s .kept = true ↔
      s.plan.pending ≠ 0 ∧ planBlocked s = false ∧ s.plan.running = false ∧ s.plan.ramp = false))

/-- PLAN_REQUEST (R422, R353): a request runs a plan; it is kept where a trigger is; while a plan runs it answers STATE; any
value but 1 answers RANGE, a host ACCESS, and the status of the gate where that gives one. -/
def PlanRequestsAct : Prop :=
  ∀ (s : State) (p : Path) (v : Byte),
    (reaches s p = false → exec (.planRequest p v) s = .next s) ∧
    (∀ st, turnedAway s p = false → gate 0x8003 p s = some st → Calm s → Gives (.planRequest p v) s (Answers p st s)) ∧
    (turnedAway s p = false → gate 0x8003 p s = none → Calm s →
      (romServes s = true → Gives (.planRequest p v) s (Answers p stState s)) ∧
      (romServes s = false → privilege p = 0 → Gives (.planRequest p v) s (Answers p stAccess s)) ∧
      (romServes s = false → privilege p = 1 ∨ privilege p = 2 →
        (v ≠ 1 → Gives (.planRequest p v) s (Answers p stRange s)) ∧
        (v = 1 → s.plan.running = true → Gives (.planRequest p v) s (Answers p stState s)) ∧
        (v = 1 → PlanReady s → Gives (.planRequest p v) s (PlanRan 2 s)) ∧
        (v = 1 → s.plan.running = false → planBlocked s = true ∨ s.plan.ramp = true →
          Gives (.planRequest p v) s
            (Answers p stOk { s with plan := { s.plan with pending := s.plan.pending ||| 4 } }))))

/-- CORE_VOLTAGE_STEP (R424, R425): a step moves the voltage 5 mV toward the target; at the target the ramp is over, or the
next move of at most 25 mV toward its goal begins; a step that failed on its retry too ends the ramp at the voltage reached
and is recorded. No step is issued without a ramp, while frozen, or after the fence. -/
def VoltageSteps : Prop :=
  (∀ s : State, s.plan.ramp = true → frozen s = false → s.host.fence = false → Calm s →
    (∀ v, v = (if s.plan.voltage < s.plan.target then min s.plan.target (s.plan.voltage + 5)
        else max s.plan.target (s.plan.voltage - 5)) →
      Gives (.coreVoltageStep true) s fun t => t.plan.voltage = v ∧ t.plan.stepAt = some s.tb.now ∧
        (v ≠ s.plan.target → t.plan.target = s.plan.target ∧ t.plan.ramp = true) ∧
        (v = s.plan.target → s.plan.target = s.plan.goal → t.plan.target = s.plan.target ∧ t.plan.ramp = false) ∧
        (v = s.plan.target → s.plan.target ≠ s.plan.goal →
          t.plan.target = takenTarget s.plan.target (max (s.plan.target - 25) (min (s.plan.target + 25) s.plan.goal)) ∧
          t.plan.old = s.plan.target ∧ t.plan.ramp = decide (t.plan.target ≠ v)) ∧
        t.plan.goal = s.plan.goal ∧ OnlyChanges [.plan, .bus] s t) ∧
    Gives (.coreVoltageStep false) s fun t => t.plan.voltage = s.plan.voltage ∧ t.plan.target = s.plan.voltage ∧
      t.plan.goal = s.plan.voltage ∧ t.plan.old = s.plan.target ∧ t.plan.ramp = false ∧ NumberIssued s t ∧
      OnlyChanges [.plan, .free, .wl, .cxl, .host, .out, .bus] s t) ∧
  (∀ (s : State) (ok : Bool), s.plan.ramp = false ∨ frozen s = true ∨ s.host.fence = true →
    exec (.coreVoltageStep ok) s = .next s)

/-- RAMP_SLACK_CHECK (R424, R425, R428): after the ramp the plan is committed, and a slack still below 40 ps brings the next
one forward to 60 s; a temperature trigger that the ramp held up runs its plan then, which finds no slack read since and sets
nothing. With no plan that waits for the check, or frozen, nothing moves. -/
def RampsAreChecked : Prop :=
  (∀ (s : State) (l : Int), s.plan.running = true → s.plan.ramp = false → frozen s = false → Calm s →
    (s.plan.pending.getLsbD 1 = false ∨ planBlocked s = true →
      Gives (.rampSlackCheck l) s fun t => t.plan.running = false ∧ t.plan.seq = s.plan.seq + 1 ∧
        t.plan.last = s.plan.draft ∧ t.plan.dueAt = (if l < 40 then age s + 60000000000 else age s + nsPerDay) ∧
        t.plan.pending = s.plan.pending ∧ t.plan.target = s.plan.target ∧
        (s.ledger.failed = false →
          t.ledger.commits = { time := s.tb.now, commit := .other .plan } :: s.ledger.commits) ∧
        OnlyChanges [.plan, .ledger, .free, .wl, .cxl, .host, .out, .bus] s t) ∧
    (s.plan.pending.getLsbD 1 = true → planBlocked s = false →
      Gives (.rampSlackCheck l) s fun t => t.plan.running = false ∧ t.plan.seq = s.plan.seq + 2 ∧ t.plan.pending = 0 ∧
        t.plan.target = s.plan.target ∧ t.plan.derate = s.plan.derate ∧ t.plan.dueAt = age s + nsPerDay ∧
        OnlyChanges [.plan, .dram, .flash, .bat, .ledger, .free, .wl, .cxl, .host, .out, .bus] s t)) ∧
  (∀ (s : State) (l : Int), s.plan.running = false ∨ s.plan.ramp = true ∨ frozen s = true →
    exec (.rampSlackCheck l) s = .next s)

/-- The margin planner, from its readings to the end of its ramp (R421 to R425, R428). -/
def Obligations.MarginPlansRun : Prop :=
  ErgometersAreRead ∧ PlanTriggersAct ∧ PlanRequestsAct ∧ VoltageSteps ∧ RampsAreChecked

/-! ## Every command and every step -/

/-- Every command, with every operand and in every state, answers a next state: the block stops on none, and none moves the
queue of commands or the configuration (log 6). What that next state is the statements above say. -/
def Obligations.EveryCommandCompletes : Prop :=
  (∀ (i : Instr) (s : State), Completes i s) ∧
  (∀ (i : Instr) (s t : State), exec i s = .next t → t.pending = s.pending ∧ t.cfg = s.cfg)

/-- Whatever a step does, a state whose sparse tables are canonical is followed by one whose tables are: the bytes of DRAM, the
poisoned lines, the page map and the capture records each rise by address without an entry that reads as an unlisted one
does (the model's form, log 2), and neither Waterline log outgrows its slots (R332, R336). -/
def Obligations.EveryStepKeepsTables : Prop :=
  ∀ s t : State, Tables s → step s = .next t → Tables t

/-- What no step lowers or turns back: the minimum security version of the boot config and of the ledger (R401, R415), the
reserved Waterline sequence numbers (R333), and, while VDD_AON stays valid, PWR_TIME, which only ticks and PTM move (R28); and
no command touches the queue behind it or the configuration. -/
def Obligations.LastingNumbersNeverFall : Prop :=
  (∀ s t : State, Tables s → step s = .next t →
    s.upd.minSecurity ≤ t.upd.minSecurity ∧ s.ledger.minSecurity ≤ t.ledger.minSecurity ∧
      s.wl.reserved ≤ t.wl.reserved ∧ t.cfg = s.cfg) ∧
  (∀ (i : Instr) (s t : State), Tables s → exec i s = .next t → t.pending = s.pending) ∧
  (∀ (i : Instr) (s t : State), Tables s → i ≠ .vddAonLoss → exec i s = .next t →
    s.tb.now ≤ t.tb.now ∧ ((∀ h n, i ≠ .ptmResponse h n) → t.tb.now = s.tb.now)) ∧
  (∀ s t : State, Tables s → s.pending = [] → s.tb.now + 40 < 2 ^ 64 → step s = .next t →
    s.tb.now ≤ t.tb.now ∧ t.tb.now ≤ s.tb.now + 40)
end

