-- ==== Sys2Proof/Laws/State.lean ====
section
/-! SUPPORT. One lemma for each field of State and each update of a component: what the update leaves there, true by
definition, so that no later proof unfolds a record update. -/

namespace Sys2Proof.Machine

variable (s : State)

section tb
variable (f : TimeBase → TimeBase)
@[simp] theorem State.onTb_pending : (s.onTb f).pending = s.pending := rfl
@[simp] theorem State.onTb_free : (s.onTb f).free = s.free := rfl
@[simp] theorem State.onTb_cfg : (s.onTb f).cfg = s.cfg := rfl
@[simp] theorem State.onTb_tb : (s.onTb f).tb = f s.tb := rfl
@[simp] theorem State.onTb_clk : (s.onTb f).clk = s.clk := rfl
@[simp] theorem State.onTb_host : (s.onTb f).host = s.host := rfl
@[simp] theorem State.onTb_cxl : (s.onTb f).cxl = s.cxl := rfl
@[simp] theorem State.onTb_wb : (s.onTb f).wb = s.wb := rfl
@[simp] theorem State.onTb_dram : (s.onTb f).dram = s.dram := rfl
@[simp] theorem State.onTb_pm : (s.onTb f).pm = s.pm := rfl
@[simp] theorem State.onTb_lake : (s.onTb f).lake = s.lake := rfl
@[simp] theorem State.onTb_basin : (s.onTb f).basin = s.basin := rfl
@[simp] theorem State.onTb_flash : (s.onTb f).flash = s.flash := rfl
@[simp] theorem State.onTb_log : (s.onTb f).log = s.log := rfl
@[simp] theorem State.onTb_weir : (s.onTb f).weir = s.weir := rfl
@[simp] theorem State.onTb_save : (s.onTb f).save = s.save := rfl
@[simp] theorem State.onTb_rst : (s.onTb f).rst = s.rst := rfl
@[simp] theorem State.onTb_ledger : (s.onTb f).ledger = s.ledger := rfl
@[simp] theorem State.onTb_wl : (s.onTb f).wl = s.wl := rfl
@[simp] theorem State.onTb_fault : (s.onTb f).fault = s.fault := rfl
@[simp] theorem State.onTb_crew : (s.onTb f).crew = s.crew := rfl
@[simp] theorem State.onTb_seq : (s.onTb f).seq = s.seq := rfl
@[simp] theorem State.onTb_boot : (s.onTb f).boot = s.boot := rfl
@[simp] theorem State.onTb_frz : (s.onTb f).frz = s.frz := rfl
@[simp] theorem State.onTb_bat : (s.onTb f).bat = s.bat := rfl
@[simp] theorem State.onTb_od : (s.onTb f).od = s.od := rfl
@[simp] theorem State.onTb_bus : (s.onTb f).bus = s.bus := rfl
@[simp] theorem State.onTb_upd : (s.onTb f).upd = s.upd := rfl
@[simp] theorem State.onTb_plan : (s.onTb f).plan = s.plan := rfl
@[simp] theorem State.onTb_out : (s.onTb f).out = s.out := rfl
end tb

section clk
variable (f : Clocks → Clocks)
@[simp] theorem State.onClk_pending : (s.onClk f).pending = s.pending := rfl
@[simp] theorem State.onClk_free : (s.onClk f).free = s.free := rfl
@[simp] theorem State.onClk_cfg : (s.onClk f).cfg = s.cfg := rfl
@[simp] theorem State.onClk_tb : (s.onClk f).tb = s.tb := rfl
@[simp] theorem State.onClk_clk : (s.onClk f).clk = f s.clk := rfl
@[simp] theorem State.onClk_host : (s.onClk f).host = s.host := rfl
@[simp] theorem State.onClk_cxl : (s.onClk f).cxl = s.cxl := rfl
@[simp] theorem State.onClk_wb : (s.onClk f).wb = s.wb := rfl
@[simp] theorem State.onClk_dram : (s.onClk f).dram = s.dram := rfl
@[simp] theorem State.onClk_pm : (s.onClk f).pm = s.pm := rfl
@[simp] theorem State.onClk_lake : (s.onClk f).lake = s.lake := rfl
@[simp] theorem State.onClk_basin : (s.onClk f).basin = s.basin := rfl
@[simp] theorem State.onClk_flash : (s.onClk f).flash = s.flash := rfl
@[simp] theorem State.onClk_log : (s.onClk f).log = s.log := rfl
@[simp] theorem State.onClk_weir : (s.onClk f).weir = s.weir := rfl
@[simp] theorem State.onClk_save : (s.onClk f).save = s.save := rfl
@[simp] theorem State.onClk_rst : (s.onClk f).rst = s.rst := rfl
@[simp] theorem State.onClk_ledger : (s.onClk f).ledger = s.ledger := rfl
@[simp] theorem State.onClk_wl : (s.onClk f).wl = s.wl := rfl
@[simp] theorem State.onClk_fault : (s.onClk f).fault = s.fault := rfl
@[simp] theorem State.onClk_crew : (s.onClk f).crew = s.crew := rfl
@[simp] theorem State.onClk_seq : (s.onClk f).seq = s.seq := rfl
@[simp] theorem State.onClk_boot : (s.onClk f).boot = s.boot := rfl
@[simp] theorem State.onClk_frz : (s.onClk f).frz = s.frz := rfl
@[simp] theorem State.onClk_bat : (s.onClk f).bat = s.bat := rfl
@[simp] theorem State.onClk_od : (s.onClk f).od = s.od := rfl
@[simp] theorem State.onClk_bus : (s.onClk f).bus = s.bus := rfl
@[simp] theorem State.onClk_upd : (s.onClk f).upd = s.upd := rfl
@[simp] theorem State.onClk_plan : (s.onClk f).plan = s.plan := rfl
@[simp] theorem State.onClk_out : (s.onClk f).out = s.out := rfl
end clk

section host
variable (f : HostRegion → HostRegion)
@[simp] theorem State.onHost_pending : (s.onHost f).pending = s.pending := rfl
@[simp] theorem State.onHost_free : (s.onHost f).free = s.free := rfl
@[simp] theorem State.onHost_cfg : (s.onHost f).cfg = s.cfg := rfl
@[simp] theorem State.onHost_tb : (s.onHost f).tb = s.tb := rfl
@[simp] theorem State.onHost_clk : (s.onHost f).clk = s.clk := rfl
@[simp] theorem State.onHost_host : (s.onHost f).host = f s.host := rfl
@[simp] theorem State.onHost_cxl : (s.onHost f).cxl = s.cxl := rfl
@[simp] theorem State.onHost_wb : (s.onHost f).wb = s.wb := rfl
@[simp] theorem State.onHost_dram : (s.onHost f).dram = s.dram := rfl
@[simp] theorem State.onHost_pm : (s.onHost f).pm = s.pm := rfl
@[simp] theorem State.onHost_lake : (s.onHost f).lake = s.lake := rfl
@[simp] theorem State.onHost_basin : (s.onHost f).basin = s.basin := rfl
@[simp] theorem State.onHost_flash : (s.onHost f).flash = s.flash := rfl
@[simp] theorem State.onHost_log : (s.onHost f).log = s.log := rfl
@[simp] theorem State.onHost_weir : (s.onHost f).weir = s.weir := rfl
@[simp] theorem State.onHost_save : (s.onHost f).save = s.save := rfl
@[simp] theorem State.onHost_rst : (s.onHost f).rst = s.rst := rfl
@[simp] theorem State.onHost_ledger : (s.onHost f).ledger = s.ledger := rfl
@[simp] theorem State.onHost_wl : (s.onHost f).wl = s.wl := rfl
@[simp] theorem State.onHost_fault : (s.onHost f).fault = s.fault := rfl
@[simp] theorem State.onHost_crew : (s.onHost f).crew = s.crew := rfl
@[simp] theorem State.onHost_seq : (s.onHost f).seq = s.seq := rfl
@[simp] theorem State.onHost_boot : (s.onHost f).boot = s.boot := rfl
@[simp] theorem State.onHost_frz : (s.onHost f).frz = s.frz := rfl
@[simp] theorem State.onHost_bat : (s.onHost f).bat = s.bat := rfl
@[simp] theorem State.onHost_od : (s.onHost f).od = s.od := rfl
@[simp] theorem State.onHost_bus : (s.onHost f).bus = s.bus := rfl
@[simp] theorem State.onHost_upd : (s.onHost f).upd = s.upd := rfl
@[simp] theorem State.onHost_plan : (s.onHost f).plan = s.plan := rfl
@[simp] theorem State.onHost_out : (s.onHost f).out = s.out := rfl
end host

section cxl
variable (f : Cxl → Cxl)
@[simp] theorem State.onCxl_pending : (s.onCxl f).pending = s.pending := rfl
@[simp] theorem State.onCxl_free : (s.onCxl f).free = s.free := rfl
@[simp] theorem State.onCxl_cfg : (s.onCxl f).cfg = s.cfg := rfl
@[simp] theorem State.onCxl_tb : (s.onCxl f).tb = s.tb := rfl
@[simp] theorem State.onCxl_clk : (s.onCxl f).clk = s.clk := rfl
@[simp] theorem State.onCxl_host : (s.onCxl f).host = s.host := rfl
@[simp] theorem State.onCxl_cxl : (s.onCxl f).cxl = f s.cxl := rfl
@[simp] theorem State.onCxl_wb : (s.onCxl f).wb = s.wb := rfl
@[simp] theorem State.onCxl_dram : (s.onCxl f).dram = s.dram := rfl
@[simp] theorem State.onCxl_pm : (s.onCxl f).pm = s.pm := rfl
@[simp] theorem State.onCxl_lake : (s.onCxl f).lake = s.lake := rfl
@[simp] theorem State.onCxl_basin : (s.onCxl f).basin = s.basin := rfl
@[simp] theorem State.onCxl_flash : (s.onCxl f).flash = s.flash := rfl
@[simp] theorem State.onCxl_log : (s.onCxl f).log = s.log := rfl
@[simp] theorem State.onCxl_weir : (s.onCxl f).weir = s.weir := rfl
@[simp] theorem State.onCxl_save : (s.onCxl f).save = s.save := rfl
@[simp] theorem State.onCxl_rst : (s.onCxl f).rst = s.rst := rfl
@[simp] theorem State.onCxl_ledger : (s.onCxl f).ledger = s.ledger := rfl
@[simp] theorem State.onCxl_wl : (s.onCxl f).wl = s.wl := rfl
@[simp] theorem State.onCxl_fault : (s.onCxl f).fault = s.fault := rfl
@[simp] theorem State.onCxl_crew : (s.onCxl f).crew = s.crew := rfl
@[simp] theorem State.onCxl_seq : (s.onCxl f).seq = s.seq := rfl
@[simp] theorem State.onCxl_boot : (s.onCxl f).boot = s.boot := rfl
@[simp] theorem State.onCxl_frz : (s.onCxl f).frz = s.frz := rfl
@[simp] theorem State.onCxl_bat : (s.onCxl f).bat = s.bat := rfl
@[simp] theorem State.onCxl_od : (s.onCxl f).od = s.od := rfl
@[simp] theorem State.onCxl_bus : (s.onCxl f).bus = s.bus := rfl
@[simp] theorem State.onCxl_upd : (s.onCxl f).upd = s.upd := rfl
@[simp] theorem State.onCxl_plan : (s.onCxl f).plan = s.plan := rfl
@[simp] theorem State.onCxl_out : (s.onCxl f).out = s.out := rfl
end cxl

section wb
variable (f : WriteBuffer → WriteBuffer)
@[simp] theorem State.onWb_pending : (s.onWb f).pending = s.pending := rfl
@[simp] theorem State.onWb_free : (s.onWb f).free = s.free := rfl
@[simp] theorem State.onWb_cfg : (s.onWb f).cfg = s.cfg := rfl
@[simp] theorem State.onWb_tb : (s.onWb f).tb = s.tb := rfl
@[simp] theorem State.onWb_clk : (s.onWb f).clk = s.clk := rfl
@[simp] theorem State.onWb_host : (s.onWb f).host = s.host := rfl
@[simp] theorem State.onWb_cxl : (s.onWb f).cxl = s.cxl := rfl
@[simp] theorem State.onWb_wb : (s.onWb f).wb = f s.wb := rfl
@[simp] theorem State.onWb_dram : (s.onWb f).dram = s.dram := rfl
@[simp] theorem State.onWb_pm : (s.onWb f).pm = s.pm := rfl
@[simp] theorem State.onWb_lake : (s.onWb f).lake = s.lake := rfl
@[simp] theorem State.onWb_basin : (s.onWb f).basin = s.basin := rfl
@[simp] theorem State.onWb_flash : (s.onWb f).flash = s.flash := rfl
@[simp] theorem State.onWb_log : (s.onWb f).log = s.log := rfl
@[simp] theorem State.onWb_weir : (s.onWb f).weir = s.weir := rfl
@[simp] theorem State.onWb_save : (s.onWb f).save = s.save := rfl
@[simp] theorem State.onWb_rst : (s.onWb f).rst = s.rst := rfl
@[simp] theorem State.onWb_ledger : (s.onWb f).ledger = s.ledger := rfl
@[simp] theorem State.onWb_wl : (s.onWb f).wl = s.wl := rfl
@[simp] theorem State.onWb_fault : (s.onWb f).fault = s.fault := rfl
@[simp] theorem State.onWb_crew : (s.onWb f).crew = s.crew := rfl
@[simp] theorem State.onWb_seq : (s.onWb f).seq = s.seq := rfl
@[simp] theorem State.onWb_boot : (s.onWb f).boot = s.boot := rfl
@[simp] theorem State.onWb_frz : (s.onWb f).frz = s.frz := rfl
@[simp] theorem State.onWb_bat : (s.onWb f).bat = s.bat := rfl
@[simp] theorem State.onWb_od : (s.onWb f).od = s.od := rfl
@[simp] theorem State.onWb_bus : (s.onWb f).bus = s.bus := rfl
@[simp] theorem State.onWb_upd : (s.onWb f).upd = s.upd := rfl
@[simp] theorem State.onWb_plan : (s.onWb f).plan = s.plan := rfl
@[simp] theorem State.onWb_out : (s.onWb f).out = s.out := rfl
end wb

section dram
variable (f : Dram → Dram)
@[simp] theorem State.onDram_pending : (s.onDram f).pending = s.pending := rfl
@[simp] theorem State.onDram_free : (s.onDram f).free = s.free := rfl
@[simp] theorem State.onDram_cfg : (s.onDram f).cfg = s.cfg := rfl
@[simp] theorem State.onDram_tb : (s.onDram f).tb = s.tb := rfl
@[simp] theorem State.onDram_clk : (s.onDram f).clk = s.clk := rfl
@[simp] theorem State.onDram_host : (s.onDram f).host = s.host := rfl
@[simp] theorem State.onDram_cxl : (s.onDram f).cxl = s.cxl := rfl
@[simp] theorem State.onDram_wb : (s.onDram f).wb = s.wb := rfl
@[simp] theorem State.onDram_dram : (s.onDram f).dram = f s.dram := rfl
@[simp] theorem State.onDram_pm : (s.onDram f).pm = s.pm := rfl
@[simp] theorem State.onDram_lake : (s.onDram f).lake = s.lake := rfl
@[simp] theorem State.onDram_basin : (s.onDram f).basin = s.basin := rfl
@[simp] theorem State.onDram_flash : (s.onDram f).flash = s.flash := rfl
@[simp] theorem State.onDram_log : (s.onDram f).log = s.log := rfl
@[simp] theorem State.onDram_weir : (s.onDram f).weir = s.weir := rfl
@[simp] theorem State.onDram_save : (s.onDram f).save = s.save := rfl
@[simp] theorem State.onDram_rst : (s.onDram f).rst = s.rst := rfl
@[simp] theorem State.onDram_ledger : (s.onDram f).ledger = s.ledger := rfl
@[simp] theorem State.onDram_wl : (s.onDram f).wl = s.wl := rfl
@[simp] theorem State.onDram_fault : (s.onDram f).fault = s.fault := rfl
@[simp] theorem State.onDram_crew : (s.onDram f).crew = s.crew := rfl
@[simp] theorem State.onDram_seq : (s.onDram f).seq = s.seq := rfl
@[simp] theorem State.onDram_boot : (s.onDram f).boot = s.boot := rfl
@[simp] theorem State.onDram_frz : (s.onDram f).frz = s.frz := rfl
@[simp] theorem State.onDram_bat : (s.onDram f).bat = s.bat := rfl
@[simp] theorem State.onDram_od : (s.onDram f).od = s.od := rfl
@[simp] theorem State.onDram_bus : (s.onDram f).bus = s.bus := rfl
@[simp] theorem State.onDram_upd : (s.onDram f).upd = s.upd := rfl
@[simp] theorem State.onDram_plan : (s.onDram f).plan = s.plan := rfl
@[simp] theorem State.onDram_out : (s.onDram f).out = s.out := rfl
end dram

section pm
variable (f : PageMap → PageMap)
@[simp] theorem State.onPm_pending : (s.onPm f).pending = s.pending := rfl
@[simp] theorem State.onPm_free : (s.onPm f).free = s.free := rfl
@[simp] theorem State.onPm_cfg : (s.onPm f).cfg = s.cfg := rfl
@[simp] theorem State.onPm_tb : (s.onPm f).tb = s.tb := rfl
@[simp] theorem State.onPm_clk : (s.onPm f).clk = s.clk := rfl
@[simp] theorem State.onPm_host : (s.onPm f).host = s.host := rfl
@[simp] theorem State.onPm_cxl : (s.onPm f).cxl = s.cxl := rfl
@[simp] theorem State.onPm_wb : (s.onPm f).wb = s.wb := rfl
@[simp] theorem State.onPm_dram : (s.onPm f).dram = s.dram := rfl
@[simp] theorem State.onPm_pm : (s.onPm f).pm = f s.pm := rfl
@[simp] theorem State.onPm_lake : (s.onPm f).lake = s.lake := rfl
@[simp] theorem State.onPm_basin : (s.onPm f).basin = s.basin := rfl
@[simp] theorem State.onPm_flash : (s.onPm f).flash = s.flash := rfl
@[simp] theorem State.onPm_log : (s.onPm f).log = s.log := rfl
@[simp] theorem State.onPm_weir : (s.onPm f).weir = s.weir := rfl
@[simp] theorem State.onPm_save : (s.onPm f).save = s.save := rfl
@[simp] theorem State.onPm_rst : (s.onPm f).rst = s.rst := rfl
@[simp] theorem State.onPm_ledger : (s.onPm f).ledger = s.ledger := rfl
@[simp] theorem State.onPm_wl : (s.onPm f).wl = s.wl := rfl
@[simp] theorem State.onPm_fault : (s.onPm f).fault = s.fault := rfl
@[simp] theorem State.onPm_crew : (s.onPm f).crew = s.crew := rfl
@[simp] theorem State.onPm_seq : (s.onPm f).seq = s.seq := rfl
@[simp] theorem State.onPm_boot : (s.onPm f).boot = s.boot := rfl
@[simp] theorem State.onPm_frz : (s.onPm f).frz = s.frz := rfl
@[simp] theorem State.onPm_bat : (s.onPm f).bat = s.bat := rfl
@[simp] theorem State.onPm_od : (s.onPm f).od = s.od := rfl
@[simp] theorem State.onPm_bus : (s.onPm f).bus = s.bus := rfl
@[simp] theorem State.onPm_upd : (s.onPm f).upd = s.upd := rfl
@[simp] theorem State.onPm_plan : (s.onPm f).plan = s.plan := rfl
@[simp] theorem State.onPm_out : (s.onPm f).out = s.out := rfl
end pm

section lake
variable (f : Lakebed → Lakebed)
@[simp] theorem State.onLake_pending : (s.onLake f).pending = s.pending := rfl
@[simp] theorem State.onLake_free : (s.onLake f).free = s.free := rfl
@[simp] theorem State.onLake_cfg : (s.onLake f).cfg = s.cfg := rfl
@[simp] theorem State.onLake_tb : (s.onLake f).tb = s.tb := rfl
@[simp] theorem State.onLake_clk : (s.onLake f).clk = s.clk := rfl
@[simp] theorem State.onLake_host : (s.onLake f).host = s.host := rfl
@[simp] theorem State.onLake_cxl : (s.onLake f).cxl = s.cxl := rfl
@[simp] theorem State.onLake_wb : (s.onLake f).wb = s.wb := rfl
@[simp] theorem State.onLake_dram : (s.onLake f).dram = s.dram := rfl
@[simp] theorem State.onLake_pm : (s.onLake f).pm = s.pm := rfl
@[simp] theorem State.onLake_lake : (s.onLake f).lake = f s.lake := rfl
@[simp] theorem State.onLake_basin : (s.onLake f).basin = s.basin := rfl
@[simp] theorem State.onLake_flash : (s.onLake f).flash = s.flash := rfl
@[simp] theorem State.onLake_log : (s.onLake f).log = s.log := rfl
@[simp] theorem State.onLake_weir : (s.onLake f).weir = s.weir := rfl
@[simp] theorem State.onLake_save : (s.onLake f).save = s.save := rfl
@[simp] theorem State.onLake_rst : (s.onLake f).rst = s.rst := rfl
@[simp] theorem State.onLake_ledger : (s.onLake f).ledger = s.ledger := rfl
@[simp] theorem State.onLake_wl : (s.onLake f).wl = s.wl := rfl
@[simp] theorem State.onLake_fault : (s.onLake f).fault = s.fault := rfl
@[simp] theorem State.onLake_crew : (s.onLake f).crew = s.crew := rfl
@[simp] theorem State.onLake_seq : (s.onLake f).seq = s.seq := rfl
@[simp] theorem State.onLake_boot : (s.onLake f).boot = s.boot := rfl
@[simp] theorem State.onLake_frz : (s.onLake f).frz = s.frz := rfl
@[simp] theorem State.onLake_bat : (s.onLake f).bat = s.bat := rfl
@[simp] theorem State.onLake_od : (s.onLake f).od = s.od := rfl
@[simp] theorem State.onLake_bus : (s.onLake f).bus = s.bus := rfl
@[simp] theorem State.onLake_upd : (s.onLake f).upd = s.upd := rfl
@[simp] theorem State.onLake_plan : (s.onLake f).plan = s.plan := rfl
@[simp] theorem State.onLake_out : (s.onLake f).out = s.out := rfl
end lake

section basin
variable (f : Basin → Basin)
@[simp] theorem State.onBasin_pending : (s.onBasin f).pending = s.pending := rfl
@[simp] theorem State.onBasin_free : (s.onBasin f).free = s.free := rfl
@[simp] theorem State.onBasin_cfg : (s.onBasin f).cfg = s.cfg := rfl
@[simp] theorem State.onBasin_tb : (s.onBasin f).tb = s.tb := rfl
@[simp] theorem State.onBasin_clk : (s.onBasin f).clk = s.clk := rfl
@[simp] theorem State.onBasin_host : (s.onBasin f).host = s.host := rfl
@[simp] theorem State.onBasin_cxl : (s.onBasin f).cxl = s.cxl := rfl
@[simp] theorem State.onBasin_wb : (s.onBasin f).wb = s.wb := rfl
@[simp] theorem State.onBasin_dram : (s.onBasin f).dram = s.dram := rfl
@[simp] theorem State.onBasin_pm : (s.onBasin f).pm = s.pm := rfl
@[simp] theorem State.onBasin_lake : (s.onBasin f).lake = s.lake := rfl
@[simp] theorem State.onBasin_basin : (s.onBasin f).basin = f s.basin := rfl
@[simp] theorem State.onBasin_flash : (s.onBasin f).flash = s.flash := rfl
@[simp] theorem State.onBasin_log : (s.onBasin f).log = s.log := rfl
@[simp] theorem State.onBasin_weir : (s.onBasin f).weir = s.weir := rfl
@[simp] theorem State.onBasin_save : (s.onBasin f).save = s.save := rfl
@[simp] theorem State.onBasin_rst : (s.onBasin f).rst = s.rst := rfl
@[simp] theorem State.onBasin_ledger : (s.onBasin f).ledger = s.ledger := rfl
@[simp] theorem State.onBasin_wl : (s.onBasin f).wl = s.wl := rfl
@[simp] theorem State.onBasin_fault : (s.onBasin f).fault = s.fault := rfl
@[simp] theorem State.onBasin_crew : (s.onBasin f).crew = s.crew := rfl
@[simp] theorem State.onBasin_seq : (s.onBasin f).seq = s.seq := rfl
@[simp] theorem State.onBasin_boot : (s.onBasin f).boot = s.boot := rfl
@[simp] theorem State.onBasin_frz : (s.onBasin f).frz = s.frz := rfl
@[simp] theorem State.onBasin_bat : (s.onBasin f).bat = s.bat := rfl
@[simp] theorem State.onBasin_od : (s.onBasin f).od = s.od := rfl
@[simp] theorem State.onBasin_bus : (s.onBasin f).bus = s.bus := rfl
@[simp] theorem State.onBasin_upd : (s.onBasin f).upd = s.upd := rfl
@[simp] theorem State.onBasin_plan : (s.onBasin f).plan = s.plan := rfl
@[simp] theorem State.onBasin_out : (s.onBasin f).out = s.out := rfl
end basin

section flash
variable (f : Flash → Flash)
@[simp] theorem State.onFlash_pending : (s.onFlash f).pending = s.pending := rfl
@[simp] theorem State.onFlash_free : (s.onFlash f).free = s.free := rfl
@[simp] theorem State.onFlash_cfg : (s.onFlash f).cfg = s.cfg := rfl
@[simp] theorem State.onFlash_tb : (s.onFlash f).tb = s.tb := rfl
@[simp] theorem State.onFlash_clk : (s.onFlash f).clk = s.clk := rfl
@[simp] theorem State.onFlash_host : (s.onFlash f).host = s.host := rfl
@[simp] theorem State.onFlash_cxl : (s.onFlash f).cxl = s.cxl := rfl
@[simp] theorem State.onFlash_wb : (s.onFlash f).wb = s.wb := rfl
@[simp] theorem State.onFlash_dram : (s.onFlash f).dram = s.dram := rfl
@[simp] theorem State.onFlash_pm : (s.onFlash f).pm = s.pm := rfl
@[simp] theorem State.onFlash_lake : (s.onFlash f).lake = s.lake := rfl
@[simp] theorem State.onFlash_basin : (s.onFlash f).basin = s.basin := rfl
@[simp] theorem State.onFlash_flash : (s.onFlash f).flash = f s.flash := rfl
@[simp] theorem State.onFlash_log : (s.onFlash f).log = s.log := rfl
@[simp] theorem State.onFlash_weir : (s.onFlash f).weir = s.weir := rfl
@[simp] theorem State.onFlash_save : (s.onFlash f).save = s.save := rfl
@[simp] theorem State.onFlash_rst : (s.onFlash f).rst = s.rst := rfl
@[simp] theorem State.onFlash_ledger : (s.onFlash f).ledger = s.ledger := rfl
@[simp] theorem State.onFlash_wl : (s.onFlash f).wl = s.wl := rfl
@[simp] theorem State.onFlash_fault : (s.onFlash f).fault = s.fault := rfl
@[simp] theorem State.onFlash_crew : (s.onFlash f).crew = s.crew := rfl
@[simp] theorem State.onFlash_seq : (s.onFlash f).seq = s.seq := rfl
@[simp] theorem State.onFlash_boot : (s.onFlash f).boot = s.boot := rfl
@[simp] theorem State.onFlash_frz : (s.onFlash f).frz = s.frz := rfl
@[simp] theorem State.onFlash_bat : (s.onFlash f).bat = s.bat := rfl
@[simp] theorem State.onFlash_od : (s.onFlash f).od = s.od := rfl
@[simp] theorem State.onFlash_bus : (s.onFlash f).bus = s.bus := rfl
@[simp] theorem State.onFlash_upd : (s.onFlash f).upd = s.upd := rfl
@[simp] theorem State.onFlash_plan : (s.onFlash f).plan = s.plan := rfl
@[simp] theorem State.onFlash_out : (s.onFlash f).out = s.out := rfl
end flash

section log
variable (f : DirtyLog → DirtyLog)
@[simp] theorem State.onLog_pending : (s.onLog f).pending = s.pending := rfl
@[simp] theorem State.onLog_free : (s.onLog f).free = s.free := rfl
@[simp] theorem State.onLog_cfg : (s.onLog f).cfg = s.cfg := rfl
@[simp] theorem State.onLog_tb : (s.onLog f).tb = s.tb := rfl
@[simp] theorem State.onLog_clk : (s.onLog f).clk = s.clk := rfl
@[simp] theorem State.onLog_host : (s.onLog f).host = s.host := rfl
@[simp] theorem State.onLog_cxl : (s.onLog f).cxl = s.cxl := rfl
@[simp] theorem State.onLog_wb : (s.onLog f).wb = s.wb := rfl
@[simp] theorem State.onLog_dram : (s.onLog f).dram = s.dram := rfl
@[simp] theorem State.onLog_pm : (s.onLog f).pm = s.pm := rfl
@[simp] theorem State.onLog_lake : (s.onLog f).lake = s.lake := rfl
@[simp] theorem State.onLog_basin : (s.onLog f).basin = s.basin := rfl
@[simp] theorem State.onLog_flash : (s.onLog f).flash = s.flash := rfl
@[simp] theorem State.onLog_log : (s.onLog f).log = f s.log := rfl
@[simp] theorem State.onLog_weir : (s.onLog f).weir = s.weir := rfl
@[simp] theorem State.onLog_save : (s.onLog f).save = s.save := rfl
@[simp] theorem State.onLog_rst : (s.onLog f).rst = s.rst := rfl
@[simp] theorem State.onLog_ledger : (s.onLog f).ledger = s.ledger := rfl
@[simp] theorem State.onLog_wl : (s.onLog f).wl = s.wl := rfl
@[simp] theorem State.onLog_fault : (s.onLog f).fault = s.fault := rfl
@[simp] theorem State.onLog_crew : (s.onLog f).crew = s.crew := rfl
@[simp] theorem State.onLog_seq : (s.onLog f).seq = s.seq := rfl
@[simp] theorem State.onLog_boot : (s.onLog f).boot = s.boot := rfl
@[simp] theorem State.onLog_frz : (s.onLog f).frz = s.frz := rfl
@[simp] theorem State.onLog_bat : (s.onLog f).bat = s.bat := rfl
@[simp] theorem State.onLog_od : (s.onLog f).od = s.od := rfl
@[simp] theorem State.onLog_bus : (s.onLog f).bus = s.bus := rfl
@[simp] theorem State.onLog_upd : (s.onLog f).upd = s.upd := rfl
@[simp] theorem State.onLog_plan : (s.onLog f).plan = s.plan := rfl
@[simp] theorem State.onLog_out : (s.onLog f).out = s.out := rfl
end log

section weir
variable (f : Weir → Weir)
@[simp] theorem State.onWeir_pending : (s.onWeir f).pending = s.pending := rfl
@[simp] theorem State.onWeir_free : (s.onWeir f).free = s.free := rfl
@[simp] theorem State.onWeir_cfg : (s.onWeir f).cfg = s.cfg := rfl
@[simp] theorem State.onWeir_tb : (s.onWeir f).tb = s.tb := rfl
@[simp] theorem State.onWeir_clk : (s.onWeir f).clk = s.clk := rfl
@[simp] theorem State.onWeir_host : (s.onWeir f).host = s.host := rfl
@[simp] theorem State.onWeir_cxl : (s.onWeir f).cxl = s.cxl := rfl
@[simp] theorem State.onWeir_wb : (s.onWeir f).wb = s.wb := rfl
@[simp] theorem State.onWeir_dram : (s.onWeir f).dram = s.dram := rfl
@[simp] theorem State.onWeir_pm : (s.onWeir f).pm = s.pm := rfl
@[simp] theorem State.onWeir_lake : (s.onWeir f).lake = s.lake := rfl
@[simp] theorem State.onWeir_basin : (s.onWeir f).basin = s.basin := rfl
@[simp] theorem State.onWeir_flash : (s.onWeir f).flash = s.flash := rfl
@[simp] theorem State.onWeir_log : (s.onWeir f).log = s.log := rfl
@[simp] theorem State.onWeir_weir : (s.onWeir f).weir = f s.weir := rfl
@[simp] theorem State.onWeir_save : (s.onWeir f).save = s.save := rfl
@[simp] theorem State.onWeir_rst : (s.onWeir f).rst = s.rst := rfl
@[simp] theorem State.onWeir_ledger : (s.onWeir f).ledger = s.ledger := rfl
@[simp] theorem State.onWeir_wl : (s.onWeir f).wl = s.wl := rfl
@[simp] theorem State.onWeir_fault : (s.onWeir f).fault = s.fault := rfl
@[simp] theorem State.onWeir_crew : (s.onWeir f).crew = s.crew := rfl
@[simp] theorem State.onWeir_seq : (s.onWeir f).seq = s.seq := rfl
@[simp] theorem State.onWeir_boot : (s.onWeir f).boot = s.boot := rfl
@[simp] theorem State.onWeir_frz : (s.onWeir f).frz = s.frz := rfl
@[simp] theorem State.onWeir_bat : (s.onWeir f).bat = s.bat := rfl
@[simp] theorem State.onWeir_od : (s.onWeir f).od = s.od := rfl
@[simp] theorem State.onWeir_bus : (s.onWeir f).bus = s.bus := rfl
@[simp] theorem State.onWeir_upd : (s.onWeir f).upd = s.upd := rfl
@[simp] theorem State.onWeir_plan : (s.onWeir f).plan = s.plan := rfl
@[simp] theorem State.onWeir_out : (s.onWeir f).out = s.out := rfl
end weir

section save
variable (f : Save → Save)
@[simp] theorem State.onSave_pending : (s.onSave f).pending = s.pending := rfl
@[simp] theorem State.onSave_free : (s.onSave f).free = s.free := rfl
@[simp] theorem State.onSave_cfg : (s.onSave f).cfg = s.cfg := rfl
@[simp] theorem State.onSave_tb : (s.onSave f).tb = s.tb := rfl
@[simp] theorem State.onSave_clk : (s.onSave f).clk = s.clk := rfl
@[simp] theorem State.onSave_host : (s.onSave f).host = s.host := rfl
@[simp] theorem State.onSave_cxl : (s.onSave f).cxl = s.cxl := rfl
@[simp] theorem State.onSave_wb : (s.onSave f).wb = s.wb := rfl
@[simp] theorem State.onSave_dram : (s.onSave f).dram = s.dram := rfl
@[simp] theorem State.onSave_pm : (s.onSave f).pm = s.pm := rfl
@[simp] theorem State.onSave_lake : (s.onSave f).lake = s.lake := rfl
@[simp] theorem State.onSave_basin : (s.onSave f).basin = s.basin := rfl
@[simp] theorem State.onSave_flash : (s.onSave f).flash = s.flash := rfl
@[simp] theorem State.onSave_log : (s.onSave f).log = s.log := rfl
@[simp] theorem State.onSave_weir : (s.onSave f).weir = s.weir := rfl
@[simp] theorem State.onSave_save : (s.onSave f).save = f s.save := rfl
@[simp] theorem State.onSave_rst : (s.onSave f).rst = s.rst := rfl
@[simp] theorem State.onSave_ledger : (s.onSave f).ledger = s.ledger := rfl
@[simp] theorem State.onSave_wl : (s.onSave f).wl = s.wl := rfl
@[simp] theorem State.onSave_fault : (s.onSave f).fault = s.fault := rfl
@[simp] theorem State.onSave_crew : (s.onSave f).crew = s.crew := rfl
@[simp] theorem State.onSave_seq : (s.onSave f).seq = s.seq := rfl
@[simp] theorem State.onSave_boot : (s.onSave f).boot = s.boot := rfl
@[simp] theorem State.onSave_frz : (s.onSave f).frz = s.frz := rfl
@[simp] theorem State.onSave_bat : (s.onSave f).bat = s.bat := rfl
@[simp] theorem State.onSave_od : (s.onSave f).od = s.od := rfl
@[simp] theorem State.onSave_bus : (s.onSave f).bus = s.bus := rfl
@[simp] theorem State.onSave_upd : (s.onSave f).upd = s.upd := rfl
@[simp] theorem State.onSave_plan : (s.onSave f).plan = s.plan := rfl
@[simp] theorem State.onSave_out : (s.onSave f).out = s.out := rfl
end save

section rst
variable (f : Restore → Restore)
@[simp] theorem State.onRst_pending : (s.onRst f).pending = s.pending := rfl
@[simp] theorem State.onRst_free : (s.onRst f).free = s.free := rfl
@[simp] theorem State.onRst_cfg : (s.onRst f).cfg = s.cfg := rfl
@[simp] theorem State.onRst_tb : (s.onRst f).tb = s.tb := rfl
@[simp] theorem State.onRst_clk : (s.onRst f).clk = s.clk := rfl
@[simp] theorem State.onRst_host : (s.onRst f).host = s.host := rfl
@[simp] theorem State.onRst_cxl : (s.onRst f).cxl = s.cxl := rfl
@[simp] theorem State.onRst_wb : (s.onRst f).wb = s.wb := rfl
@[simp] theorem State.onRst_dram : (s.onRst f).dram = s.dram := rfl
@[simp] theorem State.onRst_pm : (s.onRst f).pm = s.pm := rfl
@[simp] theorem State.onRst_lake : (s.onRst f).lake = s.lake := rfl
@[simp] theorem State.onRst_basin : (s.onRst f).basin = s.basin := rfl
@[simp] theorem State.onRst_flash : (s.onRst f).flash = s.flash := rfl
@[simp] theorem State.onRst_log : (s.onRst f).log = s.log := rfl
@[simp] theorem State.onRst_weir : (s.onRst f).weir = s.weir := rfl
@[simp] theorem State.onRst_save : (s.onRst f).save = s.save := rfl
@[simp] theorem State.onRst_rst : (s.onRst f).rst = f s.rst := rfl
@[simp] theorem State.onRst_ledger : (s.onRst f).ledger = s.ledger := rfl
@[simp] theorem State.onRst_wl : (s.onRst f).wl = s.wl := rfl
@[simp] theorem State.onRst_fault : (s.onRst f).fault = s.fault := rfl
@[simp] theorem State.onRst_crew : (s.onRst f).crew = s.crew := rfl
@[simp] theorem State.onRst_seq : (s.onRst f).seq = s.seq := rfl
@[simp] theorem State.onRst_boot : (s.onRst f).boot = s.boot := rfl
@[simp] theorem State.onRst_frz : (s.onRst f).frz = s.frz := rfl
@[simp] theorem State.onRst_bat : (s.onRst f).bat = s.bat := rfl
@[simp] theorem State.onRst_od : (s.onRst f).od = s.od := rfl
@[simp] theorem State.onRst_bus : (s.onRst f).bus = s.bus := rfl
@[simp] theorem State.onRst_upd : (s.onRst f).upd = s.upd := rfl
@[simp] theorem State.onRst_plan : (s.onRst f).plan = s.plan := rfl
@[simp] theorem State.onRst_out : (s.onRst f).out = s.out := rfl
end rst

section ledger
variable (f : Ledger → Ledger)
@[simp] theorem State.onLedger_pending : (s.onLedger f).pending = s.pending := rfl
@[simp] theorem State.onLedger_free : (s.onLedger f).free = s.free := rfl
@[simp] theorem State.onLedger_cfg : (s.onLedger f).cfg = s.cfg := rfl
@[simp] theorem State.onLedger_tb : (s.onLedger f).tb = s.tb := rfl
@[simp] theorem State.onLedger_clk : (s.onLedger f).clk = s.clk := rfl
@[simp] theorem State.onLedger_host : (s.onLedger f).host = s.host := rfl
@[simp] theorem State.onLedger_cxl : (s.onLedger f).cxl = s.cxl := rfl
@[simp] theorem State.onLedger_wb : (s.onLedger f).wb = s.wb := rfl
@[simp] theorem State.onLedger_dram : (s.onLedger f).dram = s.dram := rfl
@[simp] theorem State.onLedger_pm : (s.onLedger f).pm = s.pm := rfl
@[simp] theorem State.onLedger_lake : (s.onLedger f).lake = s.lake := rfl
@[simp] theorem State.onLedger_basin : (s.onLedger f).basin = s.basin := rfl
@[simp] theorem State.onLedger_flash : (s.onLedger f).flash = s.flash := rfl
@[simp] theorem State.onLedger_log : (s.onLedger f).log = s.log := rfl
@[simp] theorem State.onLedger_weir : (s.onLedger f).weir = s.weir := rfl
@[simp] theorem State.onLedger_save : (s.onLedger f).save = s.save := rfl
@[simp] theorem State.onLedger_rst : (s.onLedger f).rst = s.rst := rfl
@[simp] theorem State.onLedger_ledger : (s.onLedger f).ledger = f s.ledger := rfl
@[simp] theorem State.onLedger_wl : (s.onLedger f).wl = s.wl := rfl
@[simp] theorem State.onLedger_fault : (s.onLedger f).fault = s.fault := rfl
@[simp] theorem State.onLedger_crew : (s.onLedger f).crew = s.crew := rfl
@[simp] theorem State.onLedger_seq : (s.onLedger f).seq = s.seq := rfl
@[simp] theorem State.onLedger_boot : (s.onLedger f).boot = s.boot := rfl
@[simp] theorem State.onLedger_frz : (s.onLedger f).frz = s.frz := rfl
@[simp] theorem State.onLedger_bat : (s.onLedger f).bat = s.bat := rfl
@[simp] theorem State.onLedger_od : (s.onLedger f).od = s.od := rfl
@[simp] theorem State.onLedger_bus : (s.onLedger f).bus = s.bus := rfl
@[simp] theorem State.onLedger_upd : (s.onLedger f).upd = s.upd := rfl
@[simp] theorem State.onLedger_plan : (s.onLedger f).plan = s.plan := rfl
@[simp] theorem State.onLedger_out : (s.onLedger f).out = s.out := rfl
end ledger

section wl
variable (f : Waterline → Waterline)
@[simp] theorem State.onWl_pending : (s.onWl f).pending = s.pending := rfl
@[simp] theorem State.onWl_free : (s.onWl f).free = s.free := rfl
@[simp] theorem State.onWl_cfg : (s.onWl f).cfg = s.cfg := rfl
@[simp] theorem State.onWl_tb : (s.onWl f).tb = s.tb := rfl
@[simp] theorem State.onWl_clk : (s.onWl f).clk = s.clk := rfl
@[simp] theorem State.onWl_host : (s.onWl f).host = s.host := rfl
@[simp] theorem State.onWl_cxl : (s.onWl f).cxl = s.cxl := rfl
@[simp] theorem State.onWl_wb : (s.onWl f).wb = s.wb := rfl
@[simp] theorem State.onWl_dram : (s.onWl f).dram = s.dram := rfl
@[simp] theorem State.onWl_pm : (s.onWl f).pm = s.pm := rfl
@[simp] theorem State.onWl_lake : (s.onWl f).lake = s.lake := rfl
@[simp] theorem State.onWl_basin : (s.onWl f).basin = s.basin := rfl
@[simp] theorem State.onWl_flash : (s.onWl f).flash = s.flash := rfl
@[simp] theorem State.onWl_log : (s.onWl f).log = s.log := rfl
@[simp] theorem State.onWl_weir : (s.onWl f).weir = s.weir := rfl
@[simp] theorem State.onWl_save : (s.onWl f).save = s.save := rfl
@[simp] theorem State.onWl_rst : (s.onWl f).rst = s.rst := rfl
@[simp] theorem State.onWl_ledger : (s.onWl f).ledger = s.ledger := rfl
@[simp] theorem State.onWl_wl : (s.onWl f).wl = f s.wl := rfl
@[simp] theorem State.onWl_fault : (s.onWl f).fault = s.fault := rfl
@[simp] theorem State.onWl_crew : (s.onWl f).crew = s.crew := rfl
@[simp] theorem State.onWl_seq : (s.onWl f).seq = s.seq := rfl
@[simp] theorem State.onWl_boot : (s.onWl f).boot = s.boot := rfl
@[simp] theorem State.onWl_frz : (s.onWl f).frz = s.frz := rfl
@[simp] theorem State.onWl_bat : (s.onWl f).bat = s.bat := rfl
@[simp] theorem State.onWl_od : (s.onWl f).od = s.od := rfl
@[simp] theorem State.onWl_bus : (s.onWl f).bus = s.bus := rfl
@[simp] theorem State.onWl_upd : (s.onWl f).upd = s.upd := rfl
@[simp] theorem State.onWl_plan : (s.onWl f).plan = s.plan := rfl
@[simp] theorem State.onWl_out : (s.onWl f).out = s.out := rfl
end wl

section fault
variable (f : Faults → Faults)
@[simp] theorem State.onFault_pending : (s.onFault f).pending = s.pending := rfl
@[simp] theorem State.onFault_free : (s.onFault f).free = s.free := rfl
@[simp] theorem State.onFault_cfg : (s.onFault f).cfg = s.cfg := rfl
@[simp] theorem State.onFault_tb : (s.onFault f).tb = s.tb := rfl
@[simp] theorem State.onFault_clk : (s.onFault f).clk = s.clk := rfl
@[simp] theorem State.onFault_host : (s.onFault f).host = s.host := rfl
@[simp] theorem State.onFault_cxl : (s.onFault f).cxl = s.cxl := rfl
@[simp] theorem State.onFault_wb : (s.onFault f).wb = s.wb := rfl
@[simp] theorem State.onFault_dram : (s.onFault f).dram = s.dram := rfl
@[simp] theorem State.onFault_pm : (s.onFault f).pm = s.pm := rfl
@[simp] theorem State.onFault_lake : (s.onFault f).lake = s.lake := rfl
@[simp] theorem State.onFault_basin : (s.onFault f).basin = s.basin := rfl
@[simp] theorem State.onFault_flash : (s.onFault f).flash = s.flash := rfl
@[simp] theorem State.onFault_log : (s.onFault f).log = s.log := rfl
@[simp] theorem State.onFault_weir : (s.onFault f).weir = s.weir := rfl
@[simp] theorem State.onFault_save : (s.onFault f).save = s.save := rfl
@[simp] theorem State.onFault_rst : (s.onFault f).rst = s.rst := rfl
@[simp] theorem State.onFault_ledger : (s.onFault f).ledger = s.ledger := rfl
@[simp] theorem State.onFault_wl : (s.onFault f).wl = s.wl := rfl
@[simp] theorem State.onFault_fault : (s.onFault f).fault = f s.fault := rfl
@[simp] theorem State.onFault_crew : (s.onFault f).crew = s.crew := rfl
@[simp] theorem State.onFault_seq : (s.onFault f).seq = s.seq := rfl
@[simp] theorem State.onFault_boot : (s.onFault f).boot = s.boot := rfl
@[simp] theorem State.onFault_frz : (s.onFault f).frz = s.frz := rfl
@[simp] theorem State.onFault_bat : (s.onFault f).bat = s.bat := rfl
@[simp] theorem State.onFault_od : (s.onFault f).od = s.od := rfl
@[simp] theorem State.onFault_bus : (s.onFault f).bus = s.bus := rfl
@[simp] theorem State.onFault_upd : (s.onFault f).upd = s.upd := rfl
@[simp] theorem State.onFault_plan : (s.onFault f).plan = s.plan := rfl
@[simp] theorem State.onFault_out : (s.onFault f).out = s.out := rfl
end fault

section crew
variable (f : Crews → Crews)
@[simp] theorem State.onCrew_pending : (s.onCrew f).pending = s.pending := rfl
@[simp] theorem State.onCrew_free : (s.onCrew f).free = s.free := rfl
@[simp] theorem State.onCrew_cfg : (s.onCrew f).cfg = s.cfg := rfl
@[simp] theorem State.onCrew_tb : (s.onCrew f).tb = s.tb := rfl
@[simp] theorem State.onCrew_clk : (s.onCrew f).clk = s.clk := rfl
@[simp] theorem State.onCrew_host : (s.onCrew f).host = s.host := rfl
@[simp] theorem State.onCrew_cxl : (s.onCrew f).cxl = s.cxl := rfl
@[simp] theorem State.onCrew_wb : (s.onCrew f).wb = s.wb := rfl
@[simp] theorem State.onCrew_dram : (s.onCrew f).dram = s.dram := rfl
@[simp] theorem State.onCrew_pm : (s.onCrew f).pm = s.pm := rfl
@[simp] theorem State.onCrew_lake : (s.onCrew f).lake = s.lake := rfl
@[simp] theorem State.onCrew_basin : (s.onCrew f).basin = s.basin := rfl
@[simp] theorem State.onCrew_flash : (s.onCrew f).flash = s.flash := rfl
@[simp] theorem State.onCrew_log : (s.onCrew f).log = s.log := rfl
@[simp] theorem State.onCrew_weir : (s.onCrew f).weir = s.weir := rfl
@[simp] theorem State.onCrew_save : (s.onCrew f).save = s.save := rfl
@[simp] theorem State.onCrew_rst : (s.onCrew f).rst = s.rst := rfl
@[simp] theorem State.onCrew_ledger : (s.onCrew f).ledger = s.ledger := rfl
@[simp] theorem State.onCrew_wl : (s.onCrew f).wl = s.wl := rfl
@[simp] theorem State.onCrew_fault : (s.onCrew f).fault = s.fault := rfl
@[simp] theorem State.onCrew_crew : (s.onCrew f).crew = f s.crew := rfl
@[simp] theorem State.onCrew_seq : (s.onCrew f).seq = s.seq := rfl
@[simp] theorem State.onCrew_boot : (s.onCrew f).boot = s.boot := rfl
@[simp] theorem State.onCrew_frz : (s.onCrew f).frz = s.frz := rfl
@[simp] theorem State.onCrew_bat : (s.onCrew f).bat = s.bat := rfl
@[simp] theorem State.onCrew_od : (s.onCrew f).od = s.od := rfl
@[simp] theorem State.onCrew_bus : (s.onCrew f).bus = s.bus := rfl
@[simp] theorem State.onCrew_upd : (s.onCrew f).upd = s.upd := rfl
@[simp] theorem State.onCrew_plan : (s.onCrew f).plan = s.plan := rfl
@[simp] theorem State.onCrew_out : (s.onCrew f).out = s.out := rfl
end crew

section seq
variable (f : Seq → Seq)
@[simp] theorem State.onSeq_pending : (s.onSeq f).pending = s.pending := rfl
@[simp] theorem State.onSeq_free : (s.onSeq f).free = s.free := rfl
@[simp] theorem State.onSeq_cfg : (s.onSeq f).cfg = s.cfg := rfl
@[simp] theorem State.onSeq_tb : (s.onSeq f).tb = s.tb := rfl
@[simp] theorem State.onSeq_clk : (s.onSeq f).clk = s.clk := rfl
@[simp] theorem State.onSeq_host : (s.onSeq f).host = s.host := rfl
@[simp] theorem State.onSeq_cxl : (s.onSeq f).cxl = s.cxl := rfl
@[simp] theorem State.onSeq_wb : (s.onSeq f).wb = s.wb := rfl
@[simp] theorem State.onSeq_dram : (s.onSeq f).dram = s.dram := rfl
@[simp] theorem State.onSeq_pm : (s.onSeq f).pm = s.pm := rfl
@[simp] theorem State.onSeq_lake : (s.onSeq f).lake = s.lake := rfl
@[simp] theorem State.onSeq_basin : (s.onSeq f).basin = s.basin := rfl
@[simp] theorem State.onSeq_flash : (s.onSeq f).flash = s.flash := rfl
@[simp] theorem State.onSeq_log : (s.onSeq f).log = s.log := rfl
@[simp] theorem State.onSeq_weir : (s.onSeq f).weir = s.weir := rfl
@[simp] theorem State.onSeq_save : (s.onSeq f).save = s.save := rfl
@[simp] theorem State.onSeq_rst : (s.onSeq f).rst = s.rst := rfl
@[simp] theorem State.onSeq_ledger : (s.onSeq f).ledger = s.ledger := rfl
@[simp] theorem State.onSeq_wl : (s.onSeq f).wl = s.wl := rfl
@[simp] theorem State.onSeq_fault : (s.onSeq f).fault = s.fault := rfl
@[simp] theorem State.onSeq_crew : (s.onSeq f).crew = s.crew := rfl
@[simp] theorem State.onSeq_seq : (s.onSeq f).seq = f s.seq := rfl
@[simp] theorem State.onSeq_boot : (s.onSeq f).boot = s.boot := rfl
@[simp] theorem State.onSeq_frz : (s.onSeq f).frz = s.frz := rfl
@[simp] theorem State.onSeq_bat : (s.onSeq f).bat = s.bat := rfl
@[simp] theorem State.onSeq_od : (s.onSeq f).od = s.od := rfl
@[simp] theorem State.onSeq_bus : (s.onSeq f).bus = s.bus := rfl
@[simp] theorem State.onSeq_upd : (s.onSeq f).upd = s.upd := rfl
@[simp] theorem State.onSeq_plan : (s.onSeq f).plan = s.plan := rfl
@[simp] theorem State.onSeq_out : (s.onSeq f).out = s.out := rfl
end seq

section boot
variable (f : Boot → Boot)
@[simp] theorem State.onBoot_pending : (s.onBoot f).pending = s.pending := rfl
@[simp] theorem State.onBoot_free : (s.onBoot f).free = s.free := rfl
@[simp] theorem State.onBoot_cfg : (s.onBoot f).cfg = s.cfg := rfl
@[simp] theorem State.onBoot_tb : (s.onBoot f).tb = s.tb := rfl
@[simp] theorem State.onBoot_clk : (s.onBoot f).clk = s.clk := rfl
@[simp] theorem State.onBoot_host : (s.onBoot f).host = s.host := rfl
@[simp] theorem State.onBoot_cxl : (s.onBoot f).cxl = s.cxl := rfl
@[simp] theorem State.onBoot_wb : (s.onBoot f).wb = s.wb := rfl
@[simp] theorem State.onBoot_dram : (s.onBoot f).dram = s.dram := rfl
@[simp] theorem State.onBoot_pm : (s.onBoot f).pm = s.pm := rfl
@[simp] theorem State.onBoot_lake : (s.onBoot f).lake = s.lake := rfl
@[simp] theorem State.onBoot_basin : (s.onBoot f).basin = s.basin := rfl
@[simp] theorem State.onBoot_flash : (s.onBoot f).flash = s.flash := rfl
@[simp] theorem State.onBoot_log : (s.onBoot f).log = s.log := rfl
@[simp] theorem State.onBoot_weir : (s.onBoot f).weir = s.weir := rfl
@[simp] theorem State.onBoot_save : (s.onBoot f).save = s.save := rfl
@[simp] theorem State.onBoot_rst : (s.onBoot f).rst = s.rst := rfl
@[simp] theorem State.onBoot_ledger : (s.onBoot f).ledger = s.ledger := rfl
@[simp] theorem State.onBoot_wl : (s.onBoot f).wl = s.wl := rfl
@[simp] theorem State.onBoot_fault : (s.onBoot f).fault = s.fault := rfl
@[simp] theorem State.onBoot_crew : (s.onBoot f).crew = s.crew := rfl
@[simp] theorem State.onBoot_seq : (s.onBoot f).seq = s.seq := rfl
@[simp] theorem State.onBoot_boot : (s.onBoot f).boot = f s.boot := rfl
@[simp] theorem State.onBoot_frz : (s.onBoot f).frz = s.frz := rfl
@[simp] theorem State.onBoot_bat : (s.onBoot f).bat = s.bat := rfl
@[simp] theorem State.onBoot_od : (s.onBoot f).od = s.od := rfl
@[simp] theorem State.onBoot_bus : (s.onBoot f).bus = s.bus := rfl
@[simp] theorem State.onBoot_upd : (s.onBoot f).upd = s.upd := rfl
@[simp] theorem State.onBoot_plan : (s.onBoot f).plan = s.plan := rfl
@[simp] theorem State.onBoot_out : (s.onBoot f).out = s.out := rfl
end boot

section frz
variable (f : Freeze → Freeze)
@[simp] theorem State.onFrz_pending : (s.onFrz f).pending = s.pending := rfl
@[simp] theorem State.onFrz_free : (s.onFrz f).free = s.free := rfl
@[simp] theorem State.onFrz_cfg : (s.onFrz f).cfg = s.cfg := rfl
@[simp] theorem State.onFrz_tb : (s.onFrz f).tb = s.tb := rfl
@[simp] theorem State.onFrz_clk : (s.onFrz f).clk = s.clk := rfl
@[simp] theorem State.onFrz_host : (s.onFrz f).host = s.host := rfl
@[simp] theorem State.onFrz_cxl : (s.onFrz f).cxl = s.cxl := rfl
@[simp] theorem State.onFrz_wb : (s.onFrz f).wb = s.wb := rfl
@[simp] theorem State.onFrz_dram : (s.onFrz f).dram = s.dram := rfl
@[simp] theorem State.onFrz_pm : (s.onFrz f).pm = s.pm := rfl
@[simp] theorem State.onFrz_lake : (s.onFrz f).lake = s.lake := rfl
@[simp] theorem State.onFrz_basin : (s.onFrz f).basin = s.basin := rfl
@[simp] theorem State.onFrz_flash : (s.onFrz f).flash = s.flash := rfl
@[simp] theorem State.onFrz_log : (s.onFrz f).log = s.log := rfl
@[simp] theorem State.onFrz_weir : (s.onFrz f).weir = s.weir := rfl
@[simp] theorem State.onFrz_save : (s.onFrz f).save = s.save := rfl
@[simp] theorem State.onFrz_rst : (s.onFrz f).rst = s.rst := rfl
@[simp] theorem State.onFrz_ledger : (s.onFrz f).ledger = s.ledger := rfl
@[simp] theorem State.onFrz_wl : (s.onFrz f).wl = s.wl := rfl
@[simp] theorem State.onFrz_fault : (s.onFrz f).fault = s.fault := rfl
@[simp] theorem State.onFrz_crew : (s.onFrz f).crew = s.crew := rfl
@[simp] theorem State.onFrz_seq : (s.onFrz f).seq = s.seq := rfl
@[simp] theorem State.onFrz_boot : (s.onFrz f).boot = s.boot := rfl
@[simp] theorem State.onFrz_frz : (s.onFrz f).frz = f s.frz := rfl
@[simp] theorem State.onFrz_bat : (s.onFrz f).bat = s.bat := rfl
@[simp] theorem State.onFrz_od : (s.onFrz f).od = s.od := rfl
@[simp] theorem State.onFrz_bus : (s.onFrz f).bus = s.bus := rfl
@[simp] theorem State.onFrz_upd : (s.onFrz f).upd = s.upd := rfl
@[simp] theorem State.onFrz_plan : (s.onFrz f).plan = s.plan := rfl
@[simp] theorem State.onFrz_out : (s.onFrz f).out = s.out := rfl
end frz

section bat
variable (f : Gauge → Gauge)
@[simp] theorem State.onBat_pending : (s.onBat f).pending = s.pending := rfl
@[simp] theorem State.onBat_free : (s.onBat f).free = s.free := rfl
@[simp] theorem State.onBat_cfg : (s.onBat f).cfg = s.cfg := rfl
@[simp] theorem State.onBat_tb : (s.onBat f).tb = s.tb := rfl
@[simp] theorem State.onBat_clk : (s.onBat f).clk = s.clk := rfl
@[simp] theorem State.onBat_host : (s.onBat f).host = s.host := rfl
@[simp] theorem State.onBat_cxl : (s.onBat f).cxl = s.cxl := rfl
@[simp] theorem State.onBat_wb : (s.onBat f).wb = s.wb := rfl
@[simp] theorem State.onBat_dram : (s.onBat f).dram = s.dram := rfl
@[simp] theorem State.onBat_pm : (s.onBat f).pm = s.pm := rfl
@[simp] theorem State.onBat_lake : (s.onBat f).lake = s.lake := rfl
@[simp] theorem State.onBat_basin : (s.onBat f).basin = s.basin := rfl
@[simp] theorem State.onBat_flash : (s.onBat f).flash = s.flash := rfl
@[simp] theorem State.onBat_log : (s.onBat f).log = s.log := rfl
@[simp] theorem State.onBat_weir : (s.onBat f).weir = s.weir := rfl
@[simp] theorem State.onBat_save : (s.onBat f).save = s.save := rfl
@[simp] theorem State.onBat_rst : (s.onBat f).rst = s.rst := rfl
@[simp] theorem State.onBat_ledger : (s.onBat f).ledger = s.ledger := rfl
@[simp] theorem State.onBat_wl : (s.onBat f).wl = s.wl := rfl
@[simp] theorem State.onBat_fault : (s.onBat f).fault = s.fault := rfl
@[simp] theorem State.onBat_crew : (s.onBat f).crew = s.crew := rfl
@[simp] theorem State.onBat_seq : (s.onBat f).seq = s.seq := rfl
@[simp] theorem State.onBat_boot : (s.onBat f).boot = s.boot := rfl
@[simp] theorem State.onBat_frz : (s.onBat f).frz = s.frz := rfl
@[simp] theorem State.onBat_bat : (s.onBat f).bat = f s.bat := rfl
@[simp] theorem State.onBat_od : (s.onBat f).od = s.od := rfl
@[simp] theorem State.onBat_bus : (s.onBat f).bus = s.bus := rfl
@[simp] theorem State.onBat_upd : (s.onBat f).upd = s.upd := rfl
@[simp] theorem State.onBat_plan : (s.onBat f).plan = s.plan := rfl
@[simp] theorem State.onBat_out : (s.onBat f).out = s.out := rfl
end bat

section od
variable (f : Od → Od)
@[simp] theorem State.onOd_pending : (s.onOd f).pending = s.pending := rfl
@[simp] theorem State.onOd_free : (s.onOd f).free = s.free := rfl
@[simp] theorem State.onOd_cfg : (s.onOd f).cfg = s.cfg := rfl
@[simp] theorem State.onOd_tb : (s.onOd f).tb = s.tb := rfl
@[simp] theorem State.onOd_clk : (s.onOd f).clk = s.clk := rfl
@[simp] theorem State.onOd_host : (s.onOd f).host = s.host := rfl
@[simp] theorem State.onOd_cxl : (s.onOd f).cxl = s.cxl := rfl
@[simp] theorem State.onOd_wb : (s.onOd f).wb = s.wb := rfl
@[simp] theorem State.onOd_dram : (s.onOd f).dram = s.dram := rfl
@[simp] theorem State.onOd_pm : (s.onOd f).pm = s.pm := rfl
@[simp] theorem State.onOd_lake : (s.onOd f).lake = s.lake := rfl
@[simp] theorem State.onOd_basin : (s.onOd f).basin = s.basin := rfl
@[simp] theorem State.onOd_flash : (s.onOd f).flash = s.flash := rfl
@[simp] theorem State.onOd_log : (s.onOd f).log = s.log := rfl
@[simp] theorem State.onOd_weir : (s.onOd f).weir = s.weir := rfl
@[simp] theorem State.onOd_save : (s.onOd f).save = s.save := rfl
@[simp] theorem State.onOd_rst : (s.onOd f).rst = s.rst := rfl
@[simp] theorem State.onOd_ledger : (s.onOd f).ledger = s.ledger := rfl
@[simp] theorem State.onOd_wl : (s.onOd f).wl = s.wl := rfl
@[simp] theorem State.onOd_fault : (s.onOd f).fault = s.fault := rfl
@[simp] theorem State.onOd_crew : (s.onOd f).crew = s.crew := rfl
@[simp] theorem State.onOd_seq : (s.onOd f).seq = s.seq := rfl
@[simp] theorem State.onOd_boot : (s.onOd f).boot = s.boot := rfl
@[simp] theorem State.onOd_frz : (s.onOd f).frz = s.frz := rfl
@[simp] theorem State.onOd_bat : (s.onOd f).bat = s.bat := rfl
@[simp] theorem State.onOd_od : (s.onOd f).od = f s.od := rfl
@[simp] theorem State.onOd_bus : (s.onOd f).bus = s.bus := rfl
@[simp] theorem State.onOd_upd : (s.onOd f).upd = s.upd := rfl
@[simp] theorem State.onOd_plan : (s.onOd f).plan = s.plan := rfl
@[simp] theorem State.onOd_out : (s.onOd f).out = s.out := rfl
end od

section bus
variable (f : Bus → Bus)
@[simp] theorem State.onBus_pending : (s.onBus f).pending = s.pending := rfl
@[simp] theorem State.onBus_free : (s.onBus f).free = s.free := rfl
@[simp] theorem State.onBus_cfg : (s.onBus f).cfg = s.cfg := rfl
@[simp] theorem State.onBus_tb : (s.onBus f).tb = s.tb := rfl
@[simp] theorem State.onBus_clk : (s.onBus f).clk = s.clk := rfl
@[simp] theorem State.onBus_host : (s.onBus f).host = s.host := rfl
@[simp] theorem State.onBus_cxl : (s.onBus f).cxl = s.cxl := rfl
@[simp] theorem State.onBus_wb : (s.onBus f).wb = s.wb := rfl
@[simp] theorem State.onBus_dram : (s.onBus f).dram = s.dram := rfl
@[simp] theorem State.onBus_pm : (s.onBus f).pm = s.pm := rfl
@[simp] theorem State.onBus_lake : (s.onBus f).lake = s.lake := rfl
@[simp] theorem State.onBus_basin : (s.onBus f).basin = s.basin := rfl
@[simp] theorem State.onBus_flash : (s.onBus f).flash = s.flash := rfl
@[simp] theorem State.onBus_log : (s.onBus f).log = s.log := rfl
@[simp] theorem State.onBus_weir : (s.onBus f).weir = s.weir := rfl
@[simp] theorem State.onBus_save : (s.onBus f).save = s.save := rfl
@[simp] theorem State.onBus_rst : (s.onBus f).rst = s.rst := rfl
@[simp] theorem State.onBus_ledger : (s.onBus f).ledger = s.ledger := rfl
@[simp] theorem State.onBus_wl : (s.onBus f).wl = s.wl := rfl
@[simp] theorem State.onBus_fault : (s.onBus f).fault = s.fault := rfl
@[simp] theorem State.onBus_crew : (s.onBus f).crew = s.crew := rfl
@[simp] theorem State.onBus_seq : (s.onBus f).seq = s.seq := rfl
@[simp] theorem State.onBus_boot : (s.onBus f).boot = s.boot := rfl
@[simp] theorem State.onBus_frz : (s.onBus f).frz = s.frz := rfl
@[simp] theorem State.onBus_bat : (s.onBus f).bat = s.bat := rfl
@[simp] theorem State.onBus_od : (s.onBus f).od = s.od := rfl
@[simp] theorem State.onBus_bus : (s.onBus f).bus = f s.bus := rfl
@[simp] theorem State.onBus_upd : (s.onBus f).upd = s.upd := rfl
@[simp] theorem State.onBus_plan : (s.onBus f).plan = s.plan := rfl
@[simp] theorem State.onBus_out : (s.onBus f).out = s.out := rfl
end bus

section upd
variable (f : Update → Update)
@[simp] theorem State.onUpd_pending : (s.onUpd f).pending = s.pending := rfl
@[simp] theorem State.onUpd_free : (s.onUpd f).free = s.free := rfl
@[simp] theorem State.onUpd_cfg : (s.onUpd f).cfg = s.cfg := rfl
@[simp] theorem State.onUpd_tb : (s.onUpd f).tb = s.tb := rfl
@[simp] theorem State.onUpd_clk : (s.onUpd f).clk = s.clk := rfl
@[simp] theorem State.onUpd_host : (s.onUpd f).host = s.host := rfl
@[simp] theorem State.onUpd_cxl : (s.onUpd f).cxl = s.cxl := rfl
@[simp] theorem State.onUpd_wb : (s.onUpd f).wb = s.wb := rfl
@[simp] theorem State.onUpd_dram : (s.onUpd f).dram = s.dram := rfl
@[simp] theorem State.onUpd_pm : (s.onUpd f).pm = s.pm := rfl
@[simp] theorem State.onUpd_lake : (s.onUpd f).lake = s.lake := rfl
@[simp] theorem State.onUpd_basin : (s.onUpd f).basin = s.basin := rfl
@[simp] theorem State.onUpd_flash : (s.onUpd f).flash = s.flash := rfl
@[simp] theorem State.onUpd_log : (s.onUpd f).log = s.log := rfl
@[simp] theorem State.onUpd_weir : (s.onUpd f).weir = s.weir := rfl
@[simp] theorem State.onUpd_save : (s.onUpd f).save = s.save := rfl
@[simp] theorem State.onUpd_rst : (s.onUpd f).rst = s.rst := rfl
@[simp] theorem State.onUpd_ledger : (s.onUpd f).ledger = s.ledger := rfl
@[simp] theorem State.onUpd_wl : (s.onUpd f).wl = s.wl := rfl
@[simp] theorem State.onUpd_fault : (s.onUpd f).fault = s.fault := rfl
@[simp] theorem State.onUpd_crew : (s.onUpd f).crew = s.crew := rfl
@[simp] theorem State.onUpd_seq : (s.onUpd f).seq = s.seq := rfl
@[simp] theorem State.onUpd_boot : (s.onUpd f).boot = s.boot := rfl
@[simp] theorem State.onUpd_frz : (s.onUpd f).frz = s.frz := rfl
@[simp] theorem State.onUpd_bat : (s.onUpd f).bat = s.bat := rfl
@[simp] theorem State.onUpd_od : (s.onUpd f).od = s.od := rfl
@[simp] theorem State.onUpd_bus : (s.onUpd f).bus = s.bus := rfl
@[simp] theorem State.onUpd_upd : (s.onUpd f).upd = f s.upd := rfl
@[simp] theorem State.onUpd_plan : (s.onUpd f).plan = s.plan := rfl
@[simp] theorem State.onUpd_out : (s.onUpd f).out = s.out := rfl
end upd

section plan
variable (f : Planner → Planner)
@[simp] theorem State.onPlan_pending : (s.onPlan f).pending = s.pending := rfl
@[simp] theorem State.onPlan_free : (s.onPlan f).free = s.free := rfl
@[simp] theorem State.onPlan_cfg : (s.onPlan f).cfg = s.cfg := rfl
@[simp] theorem State.onPlan_tb : (s.onPlan f).tb = s.tb := rfl
@[simp] theorem State.onPlan_clk : (s.onPlan f).clk = s.clk := rfl
@[simp] theorem State.onPlan_host : (s.onPlan f).host = s.host := rfl
@[simp] theorem State.onPlan_cxl : (s.onPlan f).cxl = s.cxl := rfl
@[simp] theorem State.onPlan_wb : (s.onPlan f).wb = s.wb := rfl
@[simp] theorem State.onPlan_dram : (s.onPlan f).dram = s.dram := rfl
@[simp] theorem State.onPlan_pm : (s.onPlan f).pm = s.pm := rfl
@[simp] theorem State.onPlan_lake : (s.onPlan f).lake = s.lake := rfl
@[simp] theorem State.onPlan_basin : (s.onPlan f).basin = s.basin := rfl
@[simp] theorem State.onPlan_flash : (s.onPlan f).flash = s.flash := rfl
@[simp] theorem State.onPlan_log : (s.onPlan f).log = s.log := rfl
@[simp] theorem State.onPlan_weir : (s.onPlan f).weir = s.weir := rfl
@[simp] theorem State.onPlan_save : (s.onPlan f).save = s.save := rfl
@[simp] theorem State.onPlan_rst : (s.onPlan f).rst = s.rst := rfl
@[simp] theorem State.onPlan_ledger : (s.onPlan f).ledger = s.ledger := rfl
@[simp] theorem State.onPlan_wl : (s.onPlan f).wl = s.wl := rfl
@[simp] theorem State.onPlan_fault : (s.onPlan f).fault = s.fault := rfl
@[simp] theorem State.onPlan_crew : (s.onPlan f).crew = s.crew := rfl
@[simp] theorem State.onPlan_seq : (s.onPlan f).seq = s.seq := rfl
@[simp] theorem State.onPlan_boot : (s.onPlan f).boot = s.boot := rfl
@[simp] theorem State.onPlan_frz : (s.onPlan f).frz = s.frz := rfl
@[simp] theorem State.onPlan_bat : (s.onPlan f).bat = s.bat := rfl
@[simp] theorem State.onPlan_od : (s.onPlan f).od = s.od := rfl
@[simp] theorem State.onPlan_bus : (s.onPlan f).bus = s.bus := rfl
@[simp] theorem State.onPlan_upd : (s.onPlan f).upd = s.upd := rfl
@[simp] theorem State.onPlan_plan : (s.onPlan f).plan = f s.plan := rfl
@[simp] theorem State.onPlan_out : (s.onPlan f).out = s.out := rfl
end plan

section out
variable (f : Out → Out)
@[simp] theorem State.onOut_pending : (s.onOut f).pending = s.pending := rfl
@[simp] theorem State.onOut_free : (s.onOut f).free = s.free := rfl
@[simp] theorem State.onOut_cfg : (s.onOut f).cfg = s.cfg := rfl
@[simp] theorem State.onOut_tb : (s.onOut f).tb = s.tb := rfl
@[simp] theorem State.onOut_clk : (s.onOut f).clk = s.clk := rfl
@[simp] theorem State.onOut_host : (s.onOut f).host = s.host := rfl
@[simp] theorem State.onOut_cxl : (s.onOut f).cxl = s.cxl := rfl
@[simp] theorem State.onOut_wb : (s.onOut f).wb = s.wb := rfl
@[simp] theorem State.onOut_dram : (s.onOut f).dram = s.dram := rfl
@[simp] theorem State.onOut_pm : (s.onOut f).pm = s.pm := rfl
@[simp] theorem State.onOut_lake : (s.onOut f).lake = s.lake := rfl
@[simp] theorem State.onOut_basin : (s.onOut f).basin = s.basin := rfl
@[simp] theorem State.onOut_flash : (s.onOut f).flash = s.flash := rfl
@[simp] theorem State.onOut_log : (s.onOut f).log = s.log := rfl
@[simp] theorem State.onOut_weir : (s.onOut f).weir = s.weir := rfl
@[simp] theorem State.onOut_save : (s.onOut f).save = s.save := rfl
@[simp] theorem State.onOut_rst : (s.onOut f).rst = s.rst := rfl
@[simp] theorem State.onOut_ledger : (s.onOut f).ledger = s.ledger := rfl
@[simp] theorem State.onOut_wl : (s.onOut f).wl = s.wl := rfl
@[simp] theorem State.onOut_fault : (s.onOut f).fault = s.fault := rfl
@[simp] theorem State.onOut_crew : (s.onOut f).crew = s.crew := rfl
@[simp] theorem State.onOut_seq : (s.onOut f).seq = s.seq := rfl
@[simp] theorem State.onOut_boot : (s.onOut f).boot = s.boot := rfl
@[simp] theorem State.onOut_frz : (s.onOut f).frz = s.frz := rfl
@[simp] theorem State.onOut_bat : (s.onOut f).bat = s.bat := rfl
@[simp] theorem State.onOut_od : (s.onOut f).od = s.od := rfl
@[simp] theorem State.onOut_bus : (s.onOut f).bus = s.bus := rfl
@[simp] theorem State.onOut_upd : (s.onOut f).upd = s.upd := rfl
@[simp] theorem State.onOut_plan : (s.onOut f).plan = s.plan := rfl
@[simp] theorem State.onOut_out : (s.onOut f).out = f s.out := rfl
end out

end Sys2Proof.Machine
end

