-- ==== Sys2Proof/Laws/Frame.lean ====
section
/-! SUPPORT. Frames: `Noticed`, `Reported` and `OnlyChanges` compose, a record of the Waterline moves only what `Reported`
allows, and a command with nothing waiting ends in the state it made, up to `Noticed`. -/

namespace Sys2Proof

open Sys2Proof.Machine

/-! ## Noticed and Reported compose -/

theorem Noticed.refl (s : State) : Noticed s s := rfl

theorem Reported.refl (s : State) : Reported s s := rfl

theorem Noticed.reported {s t : State} (h : Noticed s t) : Reported s t := by
  unfold Noticed at h; unfold Reported; rw [h]; rfl

theorem Reported.trans {s t u : State} (h1 : Reported s t) (h2 : Reported t u) : Reported s u := by
  unfold Reported at *; rw [h2, h1]; rfl

theorem Noticed.trans {s t u : State} (h1 : Noticed s t) (h2 : Noticed t u) : Noticed s u := by
  unfold Noticed at *; rw [h2, h1]; rfl

theorem Reported.calm {s t : State} (h : Reported s t) (hc : Calm s) : Calm t := by
  unfold Reported at h; unfold Calm at *; rw [h]; exact hc

theorem Noticed.calm {s t : State} (h : Noticed s t) (hc : Calm s) : Calm t := h.reported.calm hc

/-! ## The operations that report -/

theorem raiseCall_noticed (s : State) : Noticed s (raiseCall s) := rfl

theorem attend_noticed (n : Nat) (s : State) : Noticed s (attend n s) := by
  unfold attend; dsimp only; split <;> rfl

theorem vectorOn_reported (h : Fin 2) (v : Fin 8) (s : State) : Reported s (vectorOn h v s) := by
  unfold vectorOn onHead; split
  · by_cases hh : h = 0 <;> simp [hh, Reported, withReports, withNotice, State.onHost]
  · rfl

theorem vector_reported (v : Fin 8) (s : State) : Reported s (vector v s) := by
  unfold vector; dsimp only; split
  · exact (vectorOn_reported _ _ _).trans (vectorOn_reported _ _ _)
  · exact vectorOn_reported _ _ _

theorem onEventLog_reported (n : Nat) (f : EventLog → EventLog) (s : State) : Reported s (s.onCxl (onEventLog n f)) := by
  unfold Reported onEventLog withReports withNotice State.onCxl; dsimp only
  (repeat' split) <;> rfl

theorem feedCxl_reported (r : WlRec) (s : State) : Reported s (feedCxl r s) := by
  unfold feedCxl; dsimp only
  split
  · exact Reported.refl s
  · split
    · exact onEventLog_reported _ _ s
    · exact (onEventLog_reported _ _ s).trans (vector_reported _ _)

theorem storeWl_reported (r : WlRec) (s : State) : Reported s (storeWl r s) := by
  unfold storeWl
  split
  · split
    · rfl
    · exact Reported.trans (by rfl) (feedCxl_reported _ _)
  · split
    · rfl
    · dsimp only; split
      · rfl
      · exact Reported.trans (by rfl) (feedCxl_reported _ _)

theorem recordWith_reported (code : BitVec 16) (sev : Fin 8) (src : MasterId) (arg : Nat) (c p : Bool) (l : List Word)
    (s : State) : Reported s (recordWith code sev src arg c p l s) := by
  have h : ∀ r, Reported s (storeWl r (issueSeq s)) := fun r => Reported.trans (by rfl) (storeWl_reported r _)
  unfold recordWith; dsimp only; split
  · exact (h _).trans (attend_noticed _ _).reported
  · exact h _

theorem record_reported (code : BitVec 16) (sev : Fin 8) (src : MasterId) (arg : Nat) (s : State) :
    Reported s (record code sev src arg s) := by
  unfold record; dsimp only; split <;> exact recordWith_reported _ _ _ _ _ _ _ _

theorem recordFree_reported (sev : Fin 8) (src : MasterId) (arg : Nat) (s : State) :
    Reported s (recordFree sev src arg s) := Reported.trans (by rfl) (record_reported _ _ _ _ _)

/-! ## The end of a command -/

theorem notice_noticed (s : State) : Noticed s (notice s) := by
  unfold notice; dsimp only
  split
  · rfl
  · split
    · rfl
    · refine Noticed.trans (t := State.onBus (fun b => { b with seen := some (countedBits s, healthStatus s, healthMedia s) }) s) rfl ?_
      split <;> split
      · rfl
      · exact attend_noticed _ _
      · exact attend_noticed _ _
      · exact (attend_noticed _ _).trans (attend_noticed _ _)

theorem finish_calm {s : State} (h : Calm s) : finish s = .next (notice s) := by
  unfold finish overflowCheck runWaiting
  simp only [h.1, h.2, Bool.false_eq_true, if_false, List.foldl_nil]
  congr 2
  show { s with fault := { s.fault with waiting := [] } } = s
  rw [← h.2]

/-- A command that ends in `finish` with nothing waiting gives the state it made, up to what its end may move. -/
theorem finish_noticed {s : State} (h : Calm s) : ∃ t, finish s = .next t ∧ Noticed s t :=
  ⟨_, finish_calm h, notice_noticed s⟩

theorem finish_reported {s u : State} (h : Calm s) (hr : Reported s u) : ∃ t, finish u = .next t ∧ Reported s t :=
  ⟨_, finish_calm (hr.calm h), hr.trans (notice_noticed u).reported⟩

/-! ## OnlyChanges composes -/

theorem OnlyChanges.refl (cs : List Part) (s : State) : OnlyChanges cs s s := fun p _ => by cases p <;> rfl

theorem OnlyChanges.trans {cs : List Part} {s t u : State} (h1 : OnlyChanges cs s t) (h2 : OnlyChanges cs t u) :
    OnlyChanges cs s u := by
  intro p hp
  have a := h1 p hp
  have b := h2 p hp
  cases p <;> exact Eq.trans b a

theorem OnlyChanges.mono {cs ds : List Part} {s t : State} (h : OnlyChanges cs s t) (hs : cs ⊆ ds) : OnlyChanges ds s t :=
  fun p hp => h p fun hc => hp (hs hc)

theorem Noticed.only {s t : State} (h : Noticed s t) : OnlyChanges [.bus] s t := by
  intro p hp; unfold Noticed at h; rw [h]; cases p <;> first | rfl | exact absurd (by simp) hp

theorem Reported.only {s t : State} (h : Reported s t) : OnlyChanges [.free, .wl, .cxl, .host, .out, .bus] s t := by
  intro p hp; unfold Reported at h; rw [h]; cases p <;> first | rfl | exact absurd (by simp) hp

end Sys2Proof
end

