-- ==== Sys2Proof/Laws/Table.lean ====
section
/-! SUPPORT. The sparse tables and the rising lists of numbers: every operation on them keeps their canonical form. -/

namespace Sys2Proof.Machine

theorem tabBelow_trans {α : Type} {a b : Nat} (h : a ≤ b) : ∀ {t : List (Nat × α)}, tabBelow b t = true → tabBelow a t = true
  | [], _ => rfl
  | (k, v) :: t, hb => by simp [tabBelow] at *; omega
theorem tabBelow_tabSet {α : Type} [DecidableEq α] (d : α) {b k : Nat} (v : α) (hk : b < k) :
    ∀ {t : List (Nat × α)}, tabBelow b t = true → tabWf d t = true → tabBelow b (tabSet d k v t) = true
  | [], _, _ => by unfold tabSet; split <;> simp [tabBelow, hk]
  | (k', v') :: t, hb, hw => by
    have hb' : b < k' := by simpa [tabBelow] using hb
    simp only [tabWf, Bool.and_eq_true, decide_eq_true_eq] at hw
    unfold tabSet
    split
    · split <;> simp [tabBelow, hk, hb']
    · split
      · split
        · exact tabBelow_trans (by omega) hw.1.2
        · simp [tabBelow, hk]
      · simp [tabBelow, hb']
/-- Writing keeps a table canonical. -/
theorem tabWf_tabSet {α : Type} [DecidableEq α] (d : α) (k : Nat) (v : α) :
    ∀ {t : List (Nat × α)}, tabWf d t = true → tabWf d (tabSet d k v t) = true
  | [], _ => by unfold tabSet; split <;> simp_all [tabWf, tabBelow]
  | (k', v') :: t, hw => by
    have hw0 := hw
    simp only [tabWf, Bool.and_eq_true, decide_eq_true_eq] at hw
    unfold tabSet
    split
    · split
      · exact hw0
      · rename_i h1 h2; simp only [tabWf, Bool.and_eq_true, decide_eq_true_eq]; exact ⟨⟨h2, by simp [tabBelow, h1]⟩, hw⟩
    · split
      · split
        · exact hw.2
        · subst k; simp [tabWf, *]
      · have hlt : k' < k := by omega
        simp only [tabWf, Bool.and_eq_true, decide_eq_true_eq]
        exact ⟨⟨hw.1.1, tabBelow_tabSet d v hlt hw.1.2 hw.2⟩, tabWf_tabSet d k v hw.2⟩
theorem tabBelow_filter {α : Type} [DecidableEq α] (d : α) (p : Nat × α → Bool) {b : Nat} :
    ∀ {t : List (Nat × α)}, tabBelow b t = true → tabWf d t = true → tabBelow b (t.filter p) = true
  | [], _, _ => rfl
  | (k, v) :: t, hb, hw => by
    have hb' : b < k := by simpa [tabBelow] using hb
    simp only [tabWf, Bool.and_eq_true, decide_eq_true_eq] at hw
    have ih := tabBelow_filter d p (tabBelow_trans (Nat.le_of_lt hb') hw.1.2) hw.2
    cases hp : p (k, v)
    · simpa [List.filter, hp] using ih
    · simp [List.filter, hp, tabBelow, hb']
/-- What is left of a canonical table is canonical. -/
theorem tabWf_filter {α : Type} [DecidableEq α] {d : α} (p : Nat × α → Bool) :
    ∀ (t : List (Nat × α)), tabWf d t = true → tabWf d (t.filter p) = true
  | [], _ => rfl
  | (k, v) :: t, hw => by
    simp only [tabWf, Bool.and_eq_true, decide_eq_true_eq] at hw
    have ih := tabWf_filter p t hw.2
    cases hp : p (k, v)
    · simpa [List.filter, hp] using ih
    · simp only [List.filter, hp, tabWf, Bool.and_eq_true, decide_eq_true_eq]
      exact ⟨⟨hw.1.1, tabBelow_filter d p hw.1.2 hw.2⟩, ih⟩
theorem setWf_cons {a : Nat} {t : List Nat} : setWf (a :: t) = true ↔ (∀ b ∈ t.head?, a < b) ∧ setWf t = true := by
  cases t <;> simp [setWf]
theorem setIns_head {a k : Nat} (hk : a < k) : ∀ {t : List Nat}, (∀ b ∈ t.head?, a < b) → ∀ b ∈ (setIns k t).head?, a < b
  | [], _ => by simp [setIns, hk]
  | c :: t, h => by
    have := h c (by simp)
    unfold setIns; (repeat' split) <;> simp [*]
/-- Adding a number keeps a list strictly rising. -/
theorem setWf_setIns (k : Nat) : ∀ {t : List Nat}, setWf t = true → setWf (setIns k t) = true
  | [], _ => rfl
  | c :: t, h => by
    have h' := setWf_cons.mp h
    unfold setIns
    split
    · simp [setWf, *]
    · split
      · exact h
      · exact setWf_cons.mpr ⟨setIns_head (by omega) h'.1, setWf_setIns k h'.2⟩
theorem setWf_head_lt {a : Nat} : ∀ {t : List Nat}, setWf (a :: t) = true → ∀ b ∈ t, a < b
  | [], _ => by simp
  | c :: t, h => by
    simp only [setWf, Bool.and_eq_true, decide_eq_true_eq] at h
    intro b hb
    rcases List.mem_cons.mp hb with rfl | hb
    · exact h.1
    · have := setWf_head_lt h.2 b hb; omega
/-- Removing a number keeps a list strictly rising. -/
theorem setWf_setDel (k : Nat) : ∀ {t : List Nat}, setWf t = true → setWf (setDel k t) = true
  | [], _ => rfl
  | c :: t, h => by
    have h' := setWf_cons.mp h
    have ih := setWf_setDel k h'.2
    unfold setDel at *
    by_cases hc : c = k
    · simp [List.filter, hc]; simpa [hc] using ih
    · simp only [List.filter, ne_eq, hc, not_false_eq_true, decide_true]
      refine setWf_cons.mpr ⟨?_, ih⟩
      intro b hb
      have hm : b ∈ t.filter (fun x => decide (x ≠ k)) := List.mem_of_mem_head? hb
      exact setWf_head_lt h b (List.mem_of_mem_filter hm)
theorem setWf_setInsRange (l : List Nat) (h : setWf l = true) : ∀ n k, setWf (setInsRange k n l) = true
  | 0, _ => h
  | n + 1, k => setWf_setIns k (setWf_setInsRange l h n (k + 1))

end Sys2Proof.Machine
end

