-- ==== Sys2Proof/Laws/Held.lean ====
section
/-! SUPPORT. What no command does, as a predicate each shared operation carries over: the configuration, the queue and
PWR_TIME stay, the minimum security version and the reserved Waterline numbers never fall, and the tables keep their
canonical form and the logs their capacity. One lemma for each update of a component. -/

namespace Sys2Proof.Machine

/-- State `s` holds what state `r` holds of everything that no command changes or lowers, and its tables are in order. -/
structure Held (r s : State) : Prop where
  cfg : s.cfg = r.cfg
  pending : s.pending = r.pending
  now : s.tb.now = r.tb.now
  sec : r.upd.minSecurity ≤ s.upd.minSecurity
  secL : r.ledger.minSecurity ≤ s.ledger.minSecurity
  reserved : r.wl.reserved ≤ s.wl.reserved
  tables : Tables s

/-- The same of an outcome: of its next state, where it has one. -/
def HeldO (r : State) (o : Host.Outcome State Fault Refusal) : Prop := ∀ t, o = .next t → Held r t

/-- The tables of two states that agree in the four components that hold them are in order together. -/
theorem tables_same {s t : State} (h : Tables s) (hd : t.dram = s.dram) (hp : t.pm = s.pm) (hf : t.fault = s.fault)
    (hw : t.wl = s.wl) : Tables t where
  bytes := by rw [hd]; exact h.bytes
  poison := by rw [hd]; exact h.poison
  pages := by rw [hp]; exact h.pages
  recs := by rw [hf]; exact h.recs
  log := by rw [hw]; exact h.log
  ring := by rw [hw]; exact h.ring
theorem held_refl {s : State} (h : Tables s) : Held s s where
  cfg := rfl
  pending := rfl
  now := rfl
  sec := Nat.le_refl _
  secL := Nat.le_refl _
  reserved := Nat.le_refl _
  tables := h
theorem heldO_next {r t : State} (h : Held r t) : HeldO r (.next t) := by
  intro u hu; cases hu; exact h
theorem held_foldl {α : Type} {r : State} {g : State → α → State} (hg : ∀ s x, Held r s → Held r (g s x)) (l : List α)
    (s : State) (h : Held r s) : Held r (l.foldl g s) := by
  induction l generalizing s with
  | nil => exact h
  | cons a t ih => exact ih _ (hg _ _ h)
theorem State.onTb_held {r : State} (f : TimeBase → TimeBase) (s : State) (h : Held r s)
    (h0 : (f s.tb).now = s.tb.now) :
    Held r (s.onTb f) :=
  { h with now := h0.trans h.now, tables := tables_same h.tables rfl rfl rfl rfl }
theorem State.onClk_held {r : State} (f : Clocks → Clocks) (s : State) (h : Held r s) :
    Held r (s.onClk f) :=
  { h with tables := tables_same h.tables rfl rfl rfl rfl }
theorem State.onHost_held {r : State} (f : HostRegion → HostRegion) (s : State) (h : Held r s) :
    Held r (s.onHost f) :=
  { h with tables := tables_same h.tables rfl rfl rfl rfl }
theorem State.onCxl_held {r : State} (f : Cxl → Cxl) (s : State) (h : Held r s) :
    Held r (s.onCxl f) :=
  { h with tables := tables_same h.tables rfl rfl rfl rfl }
theorem State.onWb_held {r : State} (f : WriteBuffer → WriteBuffer) (s : State) (h : Held r s) :
    Held r (s.onWb f) :=
  { h with tables := tables_same h.tables rfl rfl rfl rfl }
theorem State.onDram_held {r : State} (f : Dram → Dram) (s : State) (h : Held r s)
    (h0 : (f s.dram).bytes = s.dram.bytes)
    (h1 : (f s.dram).poison = s.dram.poison) :
    Held r (s.onDram f) :=
  { h with tables := { h.tables with
    bytes := by rw [show (s.onDram f).dram.bytes = s.dram.bytes from h0]; exact h.tables.bytes
    poison := by rw [show (s.onDram f).dram.poison = s.dram.poison from h1]; exact h.tables.poison } }
theorem State.onPm_held {r : State} (f : PageMap → PageMap) (s : State) (h : Held r s)
    (h0 : (f s.pm).pages = s.pm.pages) :
    Held r (s.onPm f) :=
  { h with tables := { h.tables with
    pages := by rw [show (s.onPm f).pm.pages = s.pm.pages from h0]; exact h.tables.pages } }
theorem State.onLake_held {r : State} (f : Lakebed → Lakebed) (s : State) (h : Held r s) :
    Held r (s.onLake f) :=
  { h with tables := tables_same h.tables rfl rfl rfl rfl }
theorem State.onBasin_held {r : State} (f : Basin → Basin) (s : State) (h : Held r s) :
    Held r (s.onBasin f) :=
  { h with tables := tables_same h.tables rfl rfl rfl rfl }
theorem State.onFlash_held {r : State} (f : Flash → Flash) (s : State) (h : Held r s) :
    Held r (s.onFlash f) :=
  { h with tables := tables_same h.tables rfl rfl rfl rfl }
theorem State.onLog_held {r : State} (f : DirtyLog → DirtyLog) (s : State) (h : Held r s) :
    Held r (s.onLog f) :=
  { h with tables := tables_same h.tables rfl rfl rfl rfl }
theorem State.onWeir_held {r : State} (f : Weir → Weir) (s : State) (h : Held r s) :
    Held r (s.onWeir f) :=
  { h with tables := tables_same h.tables rfl rfl rfl rfl }
theorem State.onSave_held {r : State} (f : Save → Save) (s : State) (h : Held r s) :
    Held r (s.onSave f) :=
  { h with tables := tables_same h.tables rfl rfl rfl rfl }
theorem State.onRst_held {r : State} (f : Restore → Restore) (s : State) (h : Held r s) :
    Held r (s.onRst f) :=
  { h with tables := tables_same h.tables rfl rfl rfl rfl }
theorem State.onLedger_held {r : State} (f : Ledger → Ledger) (s : State) (h : Held r s)
    (h0 : (f s.ledger).minSecurity = s.ledger.minSecurity) :
    Held r (s.onLedger f) :=
  { h with secL := by rw [show (s.onLedger f).ledger.minSecurity = s.ledger.minSecurity from h0]; exact h.secL
           tables := tables_same h.tables rfl rfl rfl rfl }
theorem State.onWl_held {r : State} (f : Waterline → Waterline) (s : State) (h : Held r s)
    (h0 : (f s.wl).reserved = s.wl.reserved)
    (h1 : (f s.wl).log = s.wl.log)
    (h2 : (f s.wl).ring = s.wl.ring) :
    Held r (s.onWl f) :=
  { h with
    reserved := by rw [show (s.onWl f).wl.reserved = s.wl.reserved from h0]; exact h.reserved
    tables := { h.tables with
      log := by rw [show (s.onWl f).wl.log = s.wl.log from h1]; exact h.tables.log
      ring := by rw [show (s.onWl f).wl.ring = s.wl.ring from h2]; exact h.tables.ring } }
theorem State.onFault_held {r : State} (f : Faults → Faults) (s : State) (h : Held r s)
    (h0 : (f s.fault).recs = s.fault.recs) :
    Held r (s.onFault f) :=
  { h with tables := { h.tables with
    recs := by rw [show (s.onFault f).fault.recs = s.fault.recs from h0]; exact h.tables.recs } }
theorem State.onCrew_held {r : State} (f : Crews → Crews) (s : State) (h : Held r s) :
    Held r (s.onCrew f) :=
  { h with tables := tables_same h.tables rfl rfl rfl rfl }
theorem State.onSeq_held {r : State} (f : Seq → Seq) (s : State) (h : Held r s) :
    Held r (s.onSeq f) :=
  { h with tables := tables_same h.tables rfl rfl rfl rfl }
theorem State.onBoot_held {r : State} (f : Boot → Boot) (s : State) (h : Held r s) :
    Held r (s.onBoot f) :=
  { h with tables := tables_same h.tables rfl rfl rfl rfl }
theorem State.onFrz_held {r : State} (f : Freeze → Freeze) (s : State) (h : Held r s) :
    Held r (s.onFrz f) :=
  { h with tables := tables_same h.tables rfl rfl rfl rfl }
theorem State.onBat_held {r : State} (f : Gauge → Gauge) (s : State) (h : Held r s) :
    Held r (s.onBat f) :=
  { h with tables := tables_same h.tables rfl rfl rfl rfl }
theorem State.onOd_held {r : State} (f : Od → Od) (s : State) (h : Held r s) :
    Held r (s.onOd f) :=
  { h with tables := tables_same h.tables rfl rfl rfl rfl }
theorem State.onBus_held {r : State} (f : Bus → Bus) (s : State) (h : Held r s) :
    Held r (s.onBus f) :=
  { h with tables := tables_same h.tables rfl rfl rfl rfl }
theorem State.onUpd_held {r : State} (f : Update → Update) (s : State) (h : Held r s)
    (h0 : (f s.upd).minSecurity = s.upd.minSecurity) :
    Held r (s.onUpd f) :=
  { h with sec := by rw [show (s.onUpd f).upd.minSecurity = s.upd.minSecurity from h0]; exact h.sec
           tables := tables_same h.tables rfl rfl rfl rfl }
theorem State.onPlan_held {r : State} (f : Planner → Planner) (s : State) (h : Held r s) :
    Held r (s.onPlan f) :=
  { h with tables := tables_same h.tables rfl rfl rfl rfl }
theorem State.onOut_held {r : State} (f : Out → Out) (s : State) (h : Held r s) :
    Held r (s.onOut f) :=
  { h with tables := tables_same h.tables rfl rfl rfl rfl }
theorem ite_held {c : Prop} [Decidable c] {r a b : State} (ha : Held r a) (hb : Held r b) : Held r (if c then a else b) := by
  split <;> assumption
theorem iteO_held {c : Prop} [Decidable c] {r : State} {a b : Host.Outcome State Fault Refusal} (ha : HeldO r a)
    (hb : HeldO r b) : HeldO r (if c then a else b) := by
  split <;> assumption
theorem ite2_held {α : Type} {c : Prop} [Decidable c] {r : State} {a b : α × State} (ha : Held r a.2) (hb : Held r b.2) :
    Held r (if c then a else b).2 := by
  split <;> assumption
theorem ite1_held {α : Type} {c : Prop} [Decidable c] {r : State} {a b : State × α} (ha : Held r a.1) (hb : Held r b.1) :
    Held r (if c then a else b).1 := by
  split <;> assumption
theorem free_held {r : State} (s : State) (n : Nat) (h : Held r s) : Held r { s with free := n } :=
  { h with tables := tables_same h.tables rfl rfl rfl rfl }

/-! Where an update writes a table, the caller shows that what it writes is in order. -/

theorem State.onDram_bytes_held {r : State} (f : Dram → Dram) (s : State) (h : Held r s)
    (hb : tabWf unlisted (f s.dram).bytes = true) (hp : (f s.dram).poison = s.dram.poison) : Held r (s.onDram f) :=
  { h with tables := { h.tables with
    bytes := hb
    poison := by rw [show (s.onDram f).dram.poison = s.dram.poison from hp]; exact h.tables.poison } }
theorem State.onDram_poison_held {r : State} (f : Dram → Dram) (s : State) (h : Held r s)
    (hb : (f s.dram).bytes = s.dram.bytes) (hp : setWf (f s.dram).poison = true) : Held r (s.onDram f) :=
  { h with tables := { h.tables with
    bytes := by rw [show (s.onDram f).dram.bytes = s.dram.bytes from hb]; exact h.tables.bytes
    poison := hp } }
theorem State.onPm_pages_held {r : State} (f : PageMap → PageMap) (s : State) (h : Held r s)
    (hp : tabWf {} (f s.pm).pages = true) : Held r (s.onPm f) := { h with tables := { h.tables with pages := hp } }
theorem State.onFault_recs_held {r : State} (f : Faults → Faults) (s : State) (h : Held r s)
    (hp : tabWf {} (f s.fault).recs = true) : Held r (s.onFault f) := { h with tables := { h.tables with recs := hp } }
theorem State.onWl_logs_held {r : State} (f : Waterline → Waterline) (s : State) (h : Held r s)
    (hr : s.wl.reserved ≤ (f s.wl).reserved) (hl : (f s.wl).log.length ≤ logSlots)
    (hg : (f s.wl).ring.length ≤ ringSlots) : Held r (s.onWl f) :=
  { h with reserved := Nat.le_trans h.reserved hr, tables := { h.tables with log := hl, ring := hg } }
theorem State.onUpd_sec_held {r : State} (f : Update → Update) (s : State) (h : Held r s)
    (h0 : s.upd.minSecurity ≤ (f s.upd).minSecurity) : Held r (s.onUpd f) :=
  { h with sec := Nat.le_trans h.sec h0, tables := tables_same h.tables rfl rfl rfl rfl }
theorem State.onLedger_sec_held {r : State} (f : Ledger → Ledger) (s : State) (h : Held r s)
    (h0 : s.ledger.minSecurity ≤ (f s.ledger).minSecurity) : Held r (s.onLedger f) :=
  { h with secL := Nat.le_trans h.secL h0, tables := tables_same h.tables rfl rfl rfl rfl }

end Sys2Proof.Machine
end

