-- ==== Sys2Proof/Laws/HeldShared.lean ====
section
/-! SUPPORT. `Held` through the shared operations on outputs, the Waterline, the Weir, time, the page map and the
    strings: one lemma an operation, by its callees' lemmas. -/

namespace Sys2Proof.Machine

/-! ## Ops -/

theorem say_held {r0 : State} (r : Response) (s : State) (hC : Held r0 s) : Held r0 (say r s) := by
  unfold say
  simp (maxDischargeDepth := 60) only [hC, State.onOut_held]
theorem onHead_held {r0 : State} (h : Fin 2) (f : Head → Head) (s : State) (hC : Held r0 s) : Held r0 (onHead h f
    s) := by
  unfold onHead
  simp (maxDischargeDepth := 60) only [hC, State.onHost_held]
theorem vectorOn_held {r0 : State} (h : Fin 2) (v : Fin 8) (s : State) (hC : Held r0 s) : Held r0 (vectorOn h v s)
    := by
  unfold vectorOn
  simp (maxDischargeDepth := 60) only [hC, State.onOut_held, onHead_held, ite_held]
theorem vector_held {r0 : State} (v : Fin 8) (s : State) (hC : Held r0 s) : Held r0 (vector v s) := by
  unfold vector
  simp (maxDischargeDepth := 60) only [hC, vectorOn_held, ite_held]
theorem trialStops_held {r0 : State} (cause : Nat) (s : State) (hC : Held r0 s) : Held r0 (trialStops cause s) := by
  unfold trialStops
  simp (maxDischargeDepth := 60) only [hC, State.onUpd_held, ite_held]
theorem trialTime_held {r0 : State} (s : State) (hC : Held r0 s) : Held r0 (trialTime s) := by
  unfold trialTime
  simp (maxDischargeDepth := 60) only [hC, State.onUpd_held, ite_held]
theorem bootWrite_held {r0 : State} (s : State) (hC : Held r0 s) : Held r0 (bootWrite s) := by
  unfold bootWrite
  simp (maxDischargeDepth := 60) only [hC, State.onUpd_held]
theorem busStop_held {r0 : State} (p : Port) (s : State) (hC : Held r0 s) : Held r0 (busStop p s) := by
  unfold busStop
  simp (maxDischargeDepth := 60) only [hC, State.onBus_held]
theorem mctpSend_held {r0 : State} (q : McReq) (bytes : List Byte) (s : State) (hC : Held r0 s) : Held r0 (mctpSend
    q bytes s) := by
  unfold mctpSend
  simp (maxDischargeDepth := 60) only [hC, busStop_held, say_held]
theorem mctpAnswer_held {r0 : State} (q : McReq) (code : Nat) (payload : List Byte) (s : State) (hC : Held r0 s) :
    Held r0 (mctpAnswer q code payload s) := by
  unfold mctpAnswer
  simp (maxDischargeDepth := 60) only [hC, State.onBus_held, mctpSend_held]
theorem reply_held {r0 : State} (p : Path) (status : Nat) (bytes : List Byte) (s : State) (hC : Held r0 s) : Held
    r0 (reply p status bytes s) := by
  unfold reply
  (repeat' split) <;> simp (maxDischargeDepth := 60) only [hC, mctpAnswer_held, say_held, vectorOn_held]
theorem mbox_held {r0 : State} (h : Fin 2) (code : MboxCode) (bytes : List Byte) (s : State) (hC : Held r0 s) :
    Held r0 (mbox h code bytes s) := by
  unfold mbox
  simp (maxDischargeDepth := 60) only [hC, say_held, vectorOn_held]
theorem endSessions_held {r0 : State} (p : Nat → Bool) (s : State) (hC : Held r0 s) : Held r0 (endSessions p s) :=
    by
  unfold endSessions
  simp (maxDischargeDepth := 60) only [hC, State.onOd_held]
theorem takeHeadUnits_held {r0 : State} (s : State) (hC : Held r0 s) : Held r0 (takeHeadUnits s) := by
  unfold takeHeadUnits
  simp (maxDischargeDepth := 60) only [hC, State.onHost_held]
theorem onCrewUnit_held {r0 : State} (c : Crew) (f : CrewUnit → CrewUnit) (s : State) (hC : Held r0 s) : Held r0
    (onCrewUnit c f s) := by
  unfold onCrewUnit
  simp (maxDischargeDepth := 60) only [hC, State.onCrew_held]
theorem onStr_held {r0 : State} (x : Str) (f : BatString → BatString) (s : State) (hC : Held r0 s) : Held r0 (onStr
    x f s) := by
  unfold onStr
  simp (maxDischargeDepth := 60) only [hC, State.onBat_held]
theorem writeByte_held {r : State} (a : Nat) (b : Byte) (s : State) (h : Held r s) : Held r (writeByte a b s) :=
  State.onDram_bytes_held _ _ h (tabWf_tabSet _ _ _ h.tables.bytes) rfl
theorem writeBytes_held {r : State} (a : Nat) (l : List Byte) (s : State) (h : Held r s) : Held r (writeBytes a l s)
    := by
  induction l generalizing a s with
  | nil => exact h
  | cons b t ih => exact ih _ _ (writeByte_held a b s h)
theorem writeEnabled_held {r : State} (a : Nat) (d : Line) (be : BitVec 64) (n k : Nat) (s : State) (h : Held r s) :
    Held r (writeEnabled a d be n k s) := by
  induction n generalizing k s with
  | zero => exact h
  | succ n ih => unfold writeEnabled; apply ih; split <;> simp only [h, writeByte_held]
theorem writeLine_held {r0 : State} (line : Nat) (d : Line) (be : BitVec 64) (s : State) (hC : Held r0 s) : Held r0
    (writeLine line d be s) := by
  unfold writeLine
  simp (maxDischargeDepth := 60) only [hC, writeEnabled_held]
theorem refreshPoison_held {r0 : State} (s : State) (hC : Held r0 s) : Held r0 (refreshPoison s) := by
  unfold refreshPoison
  simp (maxDischargeDepth := 60) only [hC, State.onCxl_held]
theorem setPoison_held {r : State} (line : Nat) (on : Bool) (s : State) (h : Held r s) : Held r (setPoison line on s)
    := by
  unfold setPoison
  split
  · exact h
  · refine refreshPoison_held _ (State.onDram_poison_held _ _ h rfl ?_)
    dsimp only
    split
    · exact setWf_setIns _ h.tables.poison
    · exact setWf_setDel _ h.tables.poison
theorem poisonPage_held {r : State} (page : Nat) (s : State) (h : Held r s) : Held r (poisonPage page s) := by
  unfold poisonPage
  refine refreshPoison_held _ (State.onDram_poison_held _ _ h rfl ?_)
  dsimp only; generalize linesPerPage = n; exact setWf_setInsRange _ h.tables.poison _ _

/-! ## Waterline -/

theorem raiseCall_held {r0 : State} (s : State) (hC : Held r0 s) : Held r0 (raiseCall s) := by
  unfold raiseCall
  simp (maxDischargeDepth := 60) only [hC, State.onBus_held]
theorem attend_held {r0 : State} (n : Nat) (s : State) (hC : Held r0 s) : Held r0 (attend n s) := by
  unfold attend
  simp (maxDischargeDepth := 60) only [hC, State.onBus_held, raiseCall_held, ite_held]
theorem feedCxl_held {r0 : State} (r : WlRec) (s : State) (hC : Held r0 s) : Held r0 (feedCxl r s) := by
  unfold feedCxl
  simp (maxDischargeDepth := 60) only [hC, State.onCxl_held, vector_held, ite_held]
theorem issueSeq_held {r : State} (s : State) (h : Held r s) : Held r (issueSeq s) := by
  unfold issueSeq
  refine State.onWl_logs_held _ _ h ?_ h.tables.log h.tables.ring
  dsimp only
  split
  · omega
  · split <;> omega
theorem dropRec_held {r0 : State} (sev : Nat) (s : State) (hC : Held r0 s) : Held r0 (dropRec sev s) := by
  unfold dropRec
  simp (maxDischargeDepth := 60) only [hC, State.onWl_held]
theorem evict_length (sev : Nat) : ∀ (l l' : List WlRec), evict sev l = some l' → l'.length + 1 = l.length
  | [], _, h => by simp [evict] at h
  | r :: t, l', h => by
    unfold evict at h
    split at h
    · cases h; rfl
    · cases he : evict sev t with
      | none => simp [he] at h
      | some u =>
        have := evict_length sev t u he
        simp only [he, Option.map_some, Option.some.injEq] at h
        subst h; simp [this]
theorem storeRec_length {cap : Nat} {r : WlRec} {l l' : List WlRec} (h : storeRec cap r l = some l')
    (hl : l.length ≤ cap) : l'.length ≤ cap := by
  unfold storeRec at h
  split at h
  · cases h; simp; omega
  · cases he : evict r.severity.val l with
    | none => simp [he] at h
    | some u =>
      have := evict_length _ _ _ he
      simp only [he, Option.map_some, Option.some.injEq] at h
      subst h; simp; omega
theorem storeWl_held {r0 : State} (r : WlRec) (s : State) (hC : Held r0 s) : Held r0 (storeWl r s) := by
  unfold storeWl
  split
  · split
    · exact dropRec_held _ _ hC
    · rename_i l hl
      exact feedCxl_held _ _
        (State.onWl_logs_held _ _ hC (Nat.le_refl _) (storeRec_length hl hC.tables.log) hC.tables.ring)
  · split
    · exact dropRec_held _ _ hC
    · rename_i l hl
      have h := State.onWl_logs_held (fun w => { w with ring := l, written := satInc (2 ^ 64 - 1) w.written }) _ hC
        (Nat.le_refl _) hC.tables.log (storeRec_length hl hC.tables.ring)
      dsimp only
      split
      · exact h
      · exact feedCxl_held _ _ h
theorem recordWith_held {r0 : State} (code : BitVec 16) (sev : Fin 8) (src : MasterId) (arg : Nat) (conseq partial'
    : Bool) (snap : List Word) (s : State) (hC : Held r0 s) : Held r0 (recordWith code sev src arg conseq partial'
    snap s) := by
  unfold recordWith
  simp (maxDischargeDepth := 60) only [hC, attend_held, issueSeq_held, storeWl_held, ite_held]
theorem record_held {r0 : State} (code : BitVec 16) (sev : Fin 8) (src : MasterId) (arg : Nat) (s : State) (hC :
    Held r0 s) : Held r0 (record code sev src arg s) := by
  unfold record
  simp (maxDischargeDepth := 60) only [hC, recordWith_held, ite_held]
theorem recordFree_held {r0 : State} (sev : Fin 8) (src : MasterId) (arg : Nat) (s : State) (hC : Held r0 s) : Held
    r0 (recordFree sev src arg s) := by
  unfold recordFree
  simp (maxDischargeDepth := 60) only [hC, record_held, free_held]
theorem moveStaged_held {r0 : State} (s : State) (hC : Held r0 s) : Held r0 (moveStaged s) := by
  unfold moveStaged
  dsimp only
  split
  · exact hC
  · split
    · refine held_foldl (fun s x h => feedCxl_held _ _ h) _ _
        (State.onWl_logs_held _ _ hC (Nat.le_refl _) hC.tables.log ?_)
      simpa using hC.tables.ring
    · refine record_held _ _ _ _ _ (held_foldl (fun s x h => ?_) _ _
        (State.onWl_logs_held _ _ hC (Nat.le_refl _) hC.tables.log (Nat.zero_le _)))
      split
      · exact dropRec_held _ _ h
      · rename_i l hl
        exact feedCxl_held _ _
          (State.onWl_logs_held _ _ h (Nat.le_refl _) (storeRec_length hl h.tables.log) h.tables.ring)
theorem holdCommit_held {r0 : State} (c : Commit) (s : State) (hC : Held r0 s) : Held r0 (holdCommit c s) := by
  unfold holdCommit
  simp (maxDischargeDepth := 60) only [hC, State.onLedger_held, recordWith_held, free_held]
theorem rootWrite_held {r0 : State} (typ gen : Nat) (c : Option Commit) (ws : List Word) (s : State) (hC : Held r0
    s) : Held r0 (rootWrite typ gen c ws s) := by
  unfold rootWrite
  simp (maxDischargeDepth := 60) only [hC, State.onLedger_held]
theorem commit_held {r0 : State} (c : Commit) (s : State) (hC : Held r0 s) : Held r0 (commit c s) := by
  unfold commit
  simp (maxDischargeDepth := 60) only [hC, State.onLedger_held, holdCommit_held, rootWrite_held, ite_held]

/-! ## Weir -/

theorem starvedCheck_held {r0 : State} (s : State) (hC : Held r0 s) : Held r0 (starvedCheck s) := by
  unfold starvedCheck
  simp (maxDischargeDepth := 60) only [hC, State.onLake_held]
theorem sprintRun_held {r0 : State} (s : State) (hC : Held r0 s) : Held r0 (sprintRun s) := by
  unfold sprintRun
  refine starvedCheck_held _ (State.onPm_held _ _ hC ?_)
  split
  · rfl
  · split <;> rfl
theorem sprintCheck_held {r0 : State} (s : State) (hC : Held r0 s) : Held r0 (sprintCheck s) := by
  unfold sprintCheck
  simp (maxDischargeDepth := 60) only [hC, State.onPm_held, sprintRun_held]
theorem episodeCheck_held {r0 : State} (cause : Nat) (s : State) (hC : Held r0 s) : Held r0 (episodeCheck cause s)
    := by
  unfold episodeCheck
  dsimp only
  (repeat' split) <;> simp (maxDischargeDepth := 60) only [hC, State.onWeir_held, record_held, recordWith_held]
theorem weirCheck_held {r0 : State} (cause : Nat) (s : State) (hC : Held r0 s) : Held r0 (weirCheck cause s) := by
  unfold weirCheck
  simp (maxDischargeDepth := 60) only [hC, episodeCheck_held, sprintCheck_held]

/-! ## Time -/

theorem applyEntry_held {r0 : State} (e : WEntry) (s : State) (hC : Held r0 s) : Held r0 (applyEntry e s) := by
  unfold applyEntry
  simp (maxDischargeDepth := 60) only [hC, setPoison_held, writeLine_held]
theorem drainOne_held {r0 : State} (s : State) (hC : Held r0 s) : Held r0 (drainOne s) := by
  unfold drainOne
  (repeat' split) <;> simp (maxDischargeDepth := 60) only [hC, State.onWb_held, applyEntry_held]
theorem idle_held {r0 : State} (s : State) (hC : Held r0 (tick s)) : Held r0 (idle s) := drainOne_held _ hC

/-! ## PageMap -/

theorem logAppend_held {r0 : State} (e : LogEntry) (s : State) (hC : Held r0 s) : Held r0 (logAppend e s) := by
  unfold logAppend
  simp (maxDischargeDepth := 60) only [hC, State.onLog_held]
theorem onBucket_held {r0 : State} (slot : Nat) (f : Bucket → Bucket) (s : State) (hC : Held r0 s) : Held r0
    (onBucket slot f s) := by
  unfold onBucket
  simp (maxDischargeDepth := 60) only [hC, State.onPm_held]
theorem countUp_held {r0 : State} (slot : Nat) (s : State) (hC : Held r0 s) : Held r0 (countUp slot s) := by
  unfold countUp
  simp (maxDischargeDepth := 60) only [hC, onBucket_held]
theorem countDown_held {r0 : State} (slot : Nat) (s : State) (hC : Held r0 s) : Held r0 (countDown slot s) := by
  unfold countDown
  simp (maxDischargeDepth := 60) only [hC, onBucket_held]
theorem setCoarsened_held {r0 : State} (on : Bool) (s : State) (hC : Held r0 s) : Held r0 (setCoarsened on s) := by
  unfold setCoarsened
  simp (maxDischargeDepth := 60) only [hC, State.onHost_held, vector_held, ite_held]
theorem retireEmpty_held {r0 : State} (s : State) (hC : Held r0 s) : Held r0 (retireEmpty s) := by
  unfold retireEmpty
  (repeat' split) <;> simp (maxDischargeDepth := 60) only [hC, State.onLedger_held, State.onPm_held]
theorem openBucket_held {r0 : State} (slot : Nat) (s : State) (hC : Held r0 s) : Held r0 (openBucket slot s) := by
  unfold openBucket
  simp (maxDischargeDepth := 60) only [hC, State.onLedger_held, State.onPm_held, setCoarsened_held]
theorem joinNewest_held {r0 : State} (b : Bucket) (s : State) (hC : Held r0 s) : Held r0 (joinNewest b s) := by
  unfold joinNewest
  simp (maxDischargeDepth := 60) only [hC, onBucket_held, record_held, setCoarsened_held, ite_held]
theorem enterNewest_held {r0 : State} (s : State) (hC : Held r0 s) : Held r0 (enterNewest s).1 := by
  unfold enterNewest
  (repeat' split) <;> simp (maxDischargeDepth := 60) only [hC, joinNewest_held, openBucket_held]
theorem enterOldest_held {r0 : State} (s : State) (hC : Held r0 s) : Held r0 (enterOldest s).1 := by
  unfold enterOldest
  (repeat' split) <;> simp (maxDischargeDepth := 60) only [hC, openBucket_held]
theorem cacheTouch_pages (line : Nat) (dirty : Bool) (p : PageMap) : (cacheTouch line dirty p).pages = p.pages := by
  unfold cacheTouch; dsimp only; (repeat' split) <;> rfl
theorem setPage_held {r0 : State} (page : Nat) (e : PageEntry) (s : State) (hC : Held r0 s) :
    Held r0 (setPage page e s) := by
  refine State.onPm_pages_held _ _ hC ?_
  rw [cacheTouch_pages]
  exact tabWf_tabSet _ _ _ hC.tables.pages
theorem writeBack_held {r0 : State} (s : State) (hC : Held r0 s) : Held r0 (writeBack s) := by
  unfold writeBack
  simp (maxDischargeDepth := 60) only [hC, State.onPm_held]
theorem residueUp_held {r0 : State} (s : State) (hC : Held r0 s) : Held r0 (residueUp s) := by
  unfold residueUp
  simp (maxDischargeDepth := 60) only [hC, State.onPm_held]
theorem residueDown_held {r0 : State} (s : State) (hC : Held r0 s) : Held r0 (residueDown s) := by
  unfold residueDown
  simp (maxDischargeDepth := 60) only [hC, State.onPm_held]
theorem dropLost_held {r0 : State} (page : Nat) (s : State) (hC : Held r0 s) : Held r0 (dropLost page s) := by
  unfold dropLost
  simp (maxDischargeDepth := 60) only [hC, State.onPm_held]
theorem markLost_held {r0 : State} (page : Nat) (why : LostReason) (carried : Bool) (s : State) (hC : Held r0 s) :
    Held r0 (markLost page why carried s) := by
  unfold markLost
  simp (maxDischargeDepth := 60) only [hC, State.onPm_held, poisonPage_held, setPage_held]
theorem lostNoMore_held {r0 : State} (page : Nat) (s : State) (hC : Held r0 s) : Held r0 (lostNoMore page s) := by
  unfold lostNoMore
  simp (maxDischargeDepth := 60) only [hC, State.onPm_held]
theorem firstWrite_held {r0 : State} (page : Nat) (s : State) (hC : Held r0 s) : Held r0 (firstWrite page s) := by
  unfold firstWrite
  simp (maxDischargeDepth := 60) only [hC, countUp_held, dropLost_held, enterNewest_held, logAppend_held,
      residueUp_held, retireEmpty_held, setPage_held, ite_held]
theorem windowEntry_held {r0 : State} (page : Nat) (s : State) (hC : Held r0 s) : Held r0 (windowEntry page s) := by
  unfold windowEntry
  simp (maxDischargeDepth := 60) only [hC, State.onLog_held]
theorem dirtyWrite_held {r0 : State} (page : Nat) (s : State) (hC : Held r0 s) : Held r0 (dirtyWrite page s) := by
  unfold dirtyWrite
  dsimp only
  (repeat' split) <;> simp (maxDischargeDepth := 60) only [hC, State.onRst_held, logAppend_held, setPage_held,
      windowEntry_held]
theorem setDrain_held {r0 : State} (idx : Nat) (d : DrainEntry) (s : State) (hC : Held r0 s) : Held r0 (setDrain
    idx d s) := by
  unfold setDrain
  simp (maxDischargeDepth := 60) only [hC, State.onPm_held]
theorem freeDrain_held {r0 : State} (idx : Nat) (s : State) (hC : Held r0 s) : Held r0 (freeDrain idx s) := by
  unfold freeDrain
  simp (maxDischargeDepth := 60) only [hC, State.onPm_held]
theorem drainingWrite_held {r0 : State} (page : Nat) (s : State) (hC : Held r0 s) : Held r0 (drainingWrite page s)
    := by
  unfold drainingWrite
  dsimp only
  (repeat' split) <;> simp (maxDischargeDepth := 60) only [hC, countDown_held, countUp_held, enterNewest_held,
      logAppend_held, retireEmpty_held, setDrain_held, setPage_held]
theorem pageWrite_held {r0 : State} (page : Nat) (s : State) (hC : Held r0 s) : Held r0 (pageWrite page s) := by
  unfold pageWrite
  (repeat' split) <;> simp (maxDischargeDepth := 60) only [hC, State.onRst_held, dirtyWrite_held,
      drainingWrite_held, firstWrite_held, windowEntry_held, ite_held]
theorem redrain_held {r0 : State} (page : Nat) (s : State) (hC : Held r0 s) : Held r0 (redrain page s) := by
  unfold redrain
  simp (maxDischargeDepth := 60) only [hC, countUp_held, enterOldest_held, logAppend_held, residueUp_held,
      setPage_held, weirCheck_held, ite_held]
theorem onEntry_held {r0 : State} (i : Nat) (f : WEntry → WEntry) (s : State) (hC : Held r0 s) : Held r0 (onEntry i
    f s) := by
  unfold onEntry
  simp (maxDischargeDepth := 60) only [hC, State.onWb_held]
theorem finishEntry_held {r0 : State} (i : Nat) (e : WEntry) (s : State) (hC : Held r0 s) : Held r0 (finishEntry i
    e s) := by
  unfold finishEntry
  simp (maxDischargeDepth := 60) only [hC, onEntry_held, say_held, ite_held]
theorem admitEntry_held {r0 : State} (i : Nat) (e : WEntry) (s : State) (hC : Held r0 s) : Held r0 (admitEntry i e
    s) := by
  unfold admitEntry
  simp (maxDischargeDepth := 60) only [hC, finishEntry_held, pageWrite_held]
theorem admitBehind_held {r0 : State} (page n : Nat) (s : State) (hC : Held r0 s) : Held r0 (admitBehind page n s) := by
  induction n generalizing s with
  | zero => exact hC
  | succ n ih =>
    unfold admitBehind
    split
    · exact hC
    · exact ih _ (admitEntry_held _ _ _ hC)
theorem admitHeldAt_held {r0 : State} (i : Nat) (e : WEntry) (s : State) (hC : Held r0 s) : Held r0 (admitHeldAt i
    e s) := by
  unfold admitHeldAt
  simp (maxDischargeDepth := 60) only [hC, admitBehind_held, admitEntry_held]
theorem retestHeld_held {r0 : State} (n : Nat) (s : State) (hC : Held r0 s) : Held r0 (retestHeld n s) := by
  induction n generalizing s with
  | zero => exact hC
  | succ n ih =>
    unfold retestHeld
    split
    · exact hC
    · split
      · exact ih _ (weirCheck_held _ _ (admitHeldAt_held _ _ _ hC))
      · exact hC
theorem retest_held {r0 : State} (s : State) (hC : Held r0 s) : Held r0 (retest s) := by
  unfold retest
  simp (maxDischargeDepth := 60) only [hC, retestHeld_held]
theorem testEntry_held {r0 : State} (i : Nat) (e : WEntry) (s : State) (hC : Held r0 s) : Held r0 (testEntry i e s)
    := by
  unfold testEntry
  simp (maxDischargeDepth := 60) only [hC, State.onHost_held, admitHeldAt_held, onEntry_held, weirCheck_held,
      ite_held]
theorem fetchLine_held {r0 : State} (page : Nat) (s : State) (hC : Held r0 s) : Held r0 (fetchLine page s) :=
  State.onPm_held _ _ hC (cacheTouch_pages _ _ _)
theorem testOrWait_held {r0 : State} (i : Nat) (e : WEntry) (s : State) (hC : Held r0 s) : Held r0 (testOrWait i e
    s) := by
  unfold testOrWait
  dsimp only
  (repeat' split) <;> simp (maxDischargeDepth := 60) only [hC, admitHeldAt_held, fetchLine_held, onEntry_held,
      testEntry_held]
theorem overshootEntry_held {r0 : State} (i : Nat) (e : WEntry) (s : State) (hC : Held r0 s) : Held r0
    (overshootEntry i e s) := by
  unfold overshootEntry
  simp (maxDischargeDepth := 60) only [hC, State.onHost_held, State.onPm_held, admitHeldAt_held, vector_held,
      weirCheck_held]
theorem flush_held {r0 : State} (p : WEntry → Bool) (s : State) (hC : Held r0 s) : Held r0 (flush p s) := by
  unfold flush
  simp_all (maxDischargeDepth := 60) [State.onWb_held, applyEntry_held, held_foldl]
theorem pushResult_held {r0 : State} (r : MapResult) (s : State) (hC : Held r0 s) : Held r0 (pushResult r s) := by
  unfold pushResult
  simp (maxDischargeDepth := 60) only [hC, State.onPm_held]
theorem bumpGen_held {r0 : State} (idx : Nat) (s : State) (hC : Held r0 s) : Held r0 (bumpGen idx s).1 := by
  unfold bumpGen
  simp (maxDischargeDepth := 60) only [hC, State.onPm_held]
theorem startDrain_held {r0 : State} (page idx : Nat) (linked : Bool) (bucket : Nat) (s : State) (hC : Held r0 s) :
    Held r0 (startDrain page idx linked bucket s) := by
  unfold startDrain
  simp (maxDischargeDepth := 60) only [hC, bumpGen_held, logAppend_held, pushResult_held, setDrain_held,
      setPage_held]
theorem drainWhenEmpty_held {r0 : State} (page : Nat) (start : State → State) (s : State)
    (hA : ∀ t, Held r0 t → Held r0 (start t)) (hC : Held r0 s) : Held r0 (drainWhenEmpty page start s) := by
  unfold drainWhenEmpty
  dsimp only
  split
  · exact State.onPm_held _ _ (flush_held _ _ hC) rfl
  · exact hA _ (flush_held _ _ hC)
theorem markOne_held {r0 : State} (page : Nat) (s : State) (hC : Held r0 s) : Held r0 (markOne page s) := by
  unfold markOne
  split
  · exact pushResult_held _ _ hC
  · split
    · split
      · exact drainWhenEmpty_held _ _ _ (fun t h => startDrain_held _ _ _ _ _ h) hC
      · exact pushResult_held _ _ hC
    · split
      · exact pushResult_held _ _ hC
      · exact drainWhenEmpty_held _ _ _ (fun t h => startDrain_held _ _ _ _ _ h) hC
theorem settleMarks_held {r0 : State} (s : State) (hC : Held r0 s) : Held r0 (settleMarks s) := by
  unfold settleMarks
  simp_all (maxDischargeDepth := 60) [State.onPm_held, markOne_held, ite_held, held_foldl]
theorem staleTag_held {r0 : State} (tag : Nat) (s : State) (hC : Held r0 s) : Held r0 (staleTag tag s) := by
  unfold staleTag
  simp (maxDischargeDepth := 60) only [hC, State.onPm_held, pushResult_held]
theorem setMapping_held {r0 : State} (page seg unit : Nat) (s : State) (hC : Held r0 s) : Held r0 (setMapping page
    seg unit s) := by
  unfold setMapping
  simp (maxDischargeDepth := 60) only [hC, State.onLake_held]
theorem moveMapping_held {r0 : State} (d : MapDelta) (s : State) (hC : Held r0 s) : Held r0 (moveMapping d s) := by
  unfold moveMapping
  simp (maxDischargeDepth := 60) only [hC, State.onLake_held, setMapping_held]
theorem loseDeltas_held {r0 : State} (s : State) (hC : Held r0 s) : Held r0 (loseDeltas s) := by
  unfold loseDeltas
  refine State.onLake_held _ _ ?_
  generalize s.lake.deltas.drop (Config.freeNat s.free) = l
  induction l with
  | nil => exact free_held _ _ hC
  | cons d t ih => exact ite_held (setMapping_held _ _ _ _ ih) ih
theorem dropMapping_held {r0 : State} (page : Nat) (s : State) (hC : Held r0 s) : Held r0 (dropMapping page s) := by
  unfold dropMapping
  simp (maxDischargeDepth := 60) only [hC, State.onLake_held]
theorem countOrphans_held {r0 : State} (s : State) (hC : Held r0 s) : Held r0 (countOrphans s) := by
  unfold countOrphans
  simp (maxDischargeDepth := 60) only [hC, State.onLake_held]
theorem completeOne_held {r0 : State} (tag seg unit : Nat) (s : State) (hC : Held r0 s) : Held r0 (completeOne tag
    seg unit s) := by
  unfold completeOne
  (repeat' split) <;> simp (maxDischargeDepth := 60) only [hC, countDown_held, freeDrain_held, logAppend_held,
      lostNoMore_held, pushResult_held, residueDown_held, retest_held, retireEmpty_held, setMapping_held,
      setPage_held, staleTag_held, weirCheck_held, ite_held]
theorem failOne_held {r0 : State} (tag : Nat) (s : State) (hC : Held r0 s) : Held r0 (failOne tag s) := by
  unfold failOne
  (repeat' split) <;> simp (maxDischargeDepth := 60) only [hC, freeDrain_held, pushResult_held, setDrain_held,
      setPage_held, staleTag_held]
theorem dropCheckpoint_held {r0 : State} (s : State) (hC : Held r0 s) : Held r0 (dropCheckpoint s) := by
  unfold dropCheckpoint
  simp (maxDischargeDepth := 60) only [hC, State.onLake_held]
theorem coverSet_held {r0 : State} (s : State) (hC : Held r0 s) : Held r0 (coverSet s) := by
  unfold coverSet
  simp (maxDischargeDepth := 60) only [hC, State.onPm_held]
theorem closeNewest_held {r0 : State} (s : State) (hC : Held r0 s) : Held r0 (closeNewest s) := by
  unfold closeNewest
  (repeat' split) <;> simp (maxDischargeDepth := 60) only [hC, onBucket_held]
theorem closeForSettle_held {r0 : State} (s : State) (hC : Held r0 s) : Held r0 (closeForSettle s) := by
  unfold closeForSettle
  (repeat' split) <;> simp (maxDischargeDepth := 60) only [hC, closeNewest_held, onBucket_held]
theorem rebuildPage_held {r0 : State} (page : Nat) (s : State) (hC : Held r0 s) : Held r0 (rebuildPage page s) := by
  unfold rebuildPage
  dsimp only
  (repeat' split) <;> simp (maxDischargeDepth := 60) only [hC, countUp_held, enterOldest_held, logAppend_held,
      residueUp_held, setDrain_held, setPage_held]
theorem rebuildOvershoot_held {r0 : State} (s : State) (hC : Held r0 s) : Held r0 (rebuildOvershoot s) := by
  unfold rebuildOvershoot
  simp (maxDischargeDepth := 60) only [hC, State.onHost_held, vector_held, ite_held]
theorem rebuildLine_held {r0 : State} (line : Nat) (s : State) (hC : Held r0 s) : Held r0 (rebuildLine line s) := by
  unfold rebuildLine
  dsimp only
  (repeat' split) <;> simp_all (maxDischargeDepth := 60) [State.onPm_held, rebuildOvershoot_held, rebuildPage_held,
      weirCheck_held, held_foldl]
theorem lowerElost_held {r0 : State} (e : Nat) (s : State) (hC : Held r0 s) : Held r0 (lowerElost e s) := by
  unfold lowerElost
  simp (maxDischargeDepth := 60) only [hC, State.onHost_held]
theorem mediaLost_held {r0 : State} (page e : Nat) (s : State) (hC : Held r0 s) : Held r0 (mediaLost page e s) := by
  unfold mediaLost
  simp (maxDischargeDepth := 60) only [hC, State.onRst_held, countDown_held, lowerElost_held, markLost_held,
      record_held, residueDown_held, retireEmpty_held, ite_held]
theorem placeLost_held {r0 : State} (page : Nat) (s : State) (hC : Held r0 s) : Held r0 (placeLost page s) := by
  unfold placeLost
  simp (maxDischargeDepth := 60) only [hC, mediaLost_held, redrain_held, ite_held]
theorem rebuildWaiting_held {r0 : State} (s : State) (hC : Held r0 s) : Held r0 (rebuildWaiting s) := by
  unfold rebuildWaiting
  simp_all (maxDischargeDepth := 60) [State.onPm_held, rebuildLine_held, placeLost_held, held_foldl]
theorem unprotectedCheck_held {r0 : State} (s : State) (hC : Held r0 s) : Held r0 (unprotectedCheck s) := by
  unfold unprotectedCheck
  simp (maxDischargeDepth := 60) only [hC, State.onHost_held, retest_held, sprintCheck_held, vector_held, ite_held]

/-! ## Strings -/

theorem failOnly_held {r0 : State} (x : Str) (r : StrReason) (s : State) (hC : Held r0 s) : Held r0 (failOnly x r
    s) := by
  unfold failOnly
  dsimp only
  (repeat' split) <;> simp (maxDischargeDepth := 60) only [hC, onStr_held, record_held]
theorem abortLearn_held {r0 : State} (x : Str) (s : State) (hC : Held r0 s) : Held r0 (abortLearn x s) := by
  unfold abortLearn
  simp (maxDischargeDepth := 60) only [hC, failOnly_held, onStr_held, ite_held]
theorem failStr_held {r0 : State} (x : Str) (r : StrReason) (s : State) (hC : Held r0 s) : Held r0 (failStr x r s)
    := by
  unfold failStr
  simp (maxDischargeDepth := 60) only [hC, abortLearn_held, failOnly_held, unprotectedCheck_held]
theorem clearReason_held {r0 : State} (x : Str) (r : StrReason) (s : State) (hC : Held r0 s) : Held r0 (clearReason
    x r s) := by
  unfold clearReason
  simp (maxDischargeDepth := 60) only [hC, onStr_held, unprotectedCheck_held, ite_held]
theorem packReset_held {r0 : State} (x : Str) (s : State) (hC : Held r0 s) : Held r0 (packReset x s) := by
  unfold packReset
  simp (maxDischargeDepth := 60) only [hC, abortLearn_held, onStr_held, unprotectedCheck_held]
theorem removeStr_held {r0 : State} (x : Str) (s : State) (hC : Held r0 s) : Held r0 (removeStr x s) := by
  unfold removeStr
  simp (maxDischargeDepth := 60) only [hC, abortLearn_held, onStr_held, record_held, unprotectedCheck_held,
      ite_held]
theorem chargeCheck_held {r0 : State} (s : State) (hC : Held r0 s) : Held r0 (chargeCheck s) := by
  unfold chargeCheck
  simp (maxDischargeDepth := 60) only [hC, State.onBat_held]

end Sys2Proof.Machine
end

