-- ==== Sys2Proof/Laws/HeldPower.lean ====
section
/-! SUPPORT. `Held` through the sequencer, the save, the crews, the settings and the freeze: one lemma an
    operation, by its callees' lemmas. -/

namespace Sys2Proof.Machine

/-! ## Power -/

theorem regionsOff_held {r0 : State} (s : State) (hC : Held r0 s) : Held r0 (regionsOff s) :=
  { hC with tables := { hC.tables with bytes := rfl, poison := rfl, pages := rfl, recs := rfl } }
theorem flushCounts_held {r0 : State} (s : State) (hC : Held r0 s) : Held r0 (flushCounts s) := by
  unfold flushCounts
  simp (maxDischargeDepth := 60) only [hC, State.onSeq_held]
theorem onRail_held {r0 : State} (n : Nat) (f : Rail → Rail) (s : State) (hC : Held r0 s) : Held r0 (onRail n f s)
    := by
  unfold onRail
  simp (maxDischargeDepth := 60) only [hC, State.onSeq_held]
theorem railEnable_held {r0 : State} (n : Nat) (s : State) (hC : Held r0 s) : Held r0 (railEnable n s) := by
  unfold railEnable
  simp (maxDischargeDepth := 60) only [hC, State.onSeq_held, onRail_held]
theorem railDisable_held {r0 : State} (n : Nat) (s : State) (hC : Held r0 s) : Held r0 (railDisable n s) := by
  unfold railDisable
  simp (maxDischargeDepth := 60) only [hC, State.onSeq_held, onRail_held]
theorem startStateDown_held {r0 : State} (s : State) (hC : Held r0 s) : Held r0 (startStateDown s) := by
  unfold startStateDown
  simp (maxDischargeDepth := 60) only [hC, State.onFlash_held, State.onHost_held, State.onSeq_held, ite_held]
theorem saveOver_held {r0 : State} (s : State) (hC : Held r0 s) : Held r0 (saveOver s) := by
  unfold saveOver
  simp (maxDischargeDepth := 60) only [hC, State.onSave_held, State.onSeq_held]
theorem enterDark_held {r0 : State} (s : State) (hC : Held r0 s) : Held r0 (enterDark s) := by
  unfold enterDark
  simp (maxDischargeDepth := 60) only [hC, State.onBoot_held, State.onSeq_held, regionsOff_held, saveOver_held]
theorem releaseCatch_held {r0 : State} (s : State) (hC : Held r0 s) : Held r0 (releaseCatch s) := by
  unfold releaseCatch
  simp (maxDischargeDepth := 60) only [hC, State.onSeq_held, ite_held]
theorem enterAux_held {r0 : State} (s : State) (hC : Held r0 s) : Held r0 (enterAux s) := by
  unfold enterAux
  simp (maxDischargeDepth := 60) only [hC, State.onBoot_held, State.onSave_held, State.onSeq_held]
theorem endInAux_held {r0 : State} (s : State) (hC : Held r0 s) : Held r0 (endInAux s) := by
  unfold endInAux
  simp (maxDischargeDepth := 60) only [hC, State.onBoot_held, State.onSave_held, State.onSeq_held, enterAux_held,
      flushCounts_held, regionsOff_held, saveOver_held]
theorem descend_held {r0 : State} (n : Nat) (s : State) (hC : Held r0 s) : Held r0 (descend n s) := by
  induction n generalizing s with
  | zero => exact hC
  | succ n ih =>
    unfold descend
    split
    · exact hC
    · split
      · exact enterDark_held _ (flushCounts_held _ hC)
      · split
        · exact endInAux_held _ hC
        · dsimp only
          refine ih _ (startStateDown_held _ (State.onSeq_held _ _ ?_))
          split
          · exact State.onHost_held _ _ hC
          · exact hC
theorem powerDownTo_held {r0 : State} (target : SeqSt) (hold : Bool) (s : State) (hC : Held r0 s) : Held r0
    (powerDownTo target hold s) := by
  unfold powerDownTo
  simp (maxDischargeDepth := 60) only [hC, State.onSeq_held, descend_held, startStateDown_held, trialTime_held]
theorem powerDownDark_held {r0 : State} (on : Bool) (s : State) (hC : Held r0 s) : Held r0 (powerDownDark on s) :=
    by
  unfold powerDownDark
  simp (maxDischargeDepth := 60) only [hC, State.onSeq_held, powerDownTo_held]
theorem cutRails_held {r0 : State} (hold : Bool) (s : State) (hC : Held r0 s) : Held r0 (cutRails hold s) := by
  unfold cutRails
  simp_all (maxDischargeDepth := 60) [State.onSeq_held, enterDark_held, railDisable_held, ite_held, held_foldl]
theorem dropLedgerHold_held {r0 : State} (s : State) (hC : Held r0 s) : Held r0 (dropLedgerHold s) := by
  unfold dropLedgerHold
  (repeat' split) <;> simp (maxDischargeDepth := 60) only [hC, State.onSeq_held, railDisable_held]
theorem latchRecord_held {r0 : State} (s : State) (hC : Held r0 s) : Held r0 (latchRecord s) := by
  unfold latchRecord
  simp (maxDischargeDepth := 60) only [hC, State.onBoot_held, State.onWl_held]
theorem setLatch_held {r0 : State} (cause rail : Nat) (s : State) (hC : Held r0 s) : Held r0 (setLatch cause rail
    s) := by
  unfold setLatch
  simp (maxDischargeDepth := 60) only [hC, State.onBoot_held, State.onSeq_held, latchRecord_held, raiseCall_held,
      ite_held]

/-! ## Save -/

theorem thaw_held {r0 : State} (s : State) (hC : Held r0 s) : Held r0 (thaw s) := by
  unfold thaw
  simp (maxDischargeDepth := 60) only [hC, State.onCrew_held, State.onDram_held, State.onFault_held,
      State.onFrz_held, State.onHost_held, State.onLedger_held, State.onWeir_held, moveStaged_held, rebuildWaiting_held,
      record_held, ite_held]
theorem applyFence_held {r0 : State} (s : State) (hC : Held r0 s) : Held r0 (applyFence s) := by
  unfold applyFence
  simp (maxDischargeDepth := 60) only [hC, State.onBat_held, State.onCrew_held, State.onFlash_held,
      State.onHost_held, State.onLake_held, State.onPlan_held, State.onPm_held, State.onUpd_held, State.onWb_held,
      abortLearn_held, dropCheckpoint_held, sprintCheck_held, unprotectedCheck_held]
theorem stopWriting_held {r0 : State} (outcome : Nat) (s : State) (hC : Held r0 s) : Held r0 (stopWriting outcome
    s) := by
  unfold stopWriting
  simp (maxDischargeDepth := 60) only [hC, State.onFlash_held, State.onSave_held, ite_held]
theorem stopResidue_held {r0 : State} (s : State) (hC : Held r0 s) : Held r0 (stopResidue s) := by
  unfold stopResidue
  simp (maxDischargeDepth := 60) only [hC, stopWriting_held]
theorem programHeld_held {r0 : State} (die : Nat) (s : State) (hC : Held r0 s) : Held r0 (programHeld die s) := by
  unfold programHeld
  (repeat' split) <;> simp (maxDischargeDepth := 60) only [hC, State.onBasin_held, State.onFlash_held,
      State.onSave_held]
theorem padDie_held {r0 : State} (s : State) (die : Nat) (hC : Held r0 s) : Held r0 (padDie s die) := by
  unfold padDie
  (repeat' split) <;> simp (maxDischargeDepth := 60) only [hC, programHeld_held]
theorem padPass_held {r0 : State} (s : State) (hC : Held r0 s) : Held r0 (padPass s) := by
  unfold padPass
  simp_all (maxDischargeDepth := 60) [padDie_held, held_foldl]
theorem placeUnit_held {r0 : State} (die page : Nat) (s : State) (hC : Held r0 s) : Held r0 (placeUnit die page s)
    := by
  unfold placeUnit
  (repeat' split) <;> simp (maxDischargeDepth := 60) only [hC, State.onBasin_held, programHeld_held,
      stopResidue_held, ite_held]
theorem programPages_held {r0 : State} (pages : List Nat) (s : State) (hC : Held r0 s) : Held r0 (programPages
    pages s) := by
  unfold programPages
  simp_all (maxDischargeDepth := 60) [placeUnit_held, ite_held, held_foldl]
theorem fillHeld_held {r0 : State} (pages : List Nat) (s : State) (hC : Held r0 s) : Held r0 (fillHeld pages s) :=
    by
  unfold fillHeld
  simp_all (maxDischargeDepth := 60) [programPages_held, ite_held, held_foldl]
theorem landCursor_held {r0 : State} (c : Cursor) (s : State) (hC : Held r0 s) : Held r0 (landCursor c s) := by
  unfold landCursor
  (repeat' split) <;> simp (maxDischargeDepth := 60) only [hC, State.onSave_held, fillHeld_held, programPages_held]
theorem closeSave_held {r0 : State} (outcome : Nat) (s : State) (hC : Held r0 s) : Held r0 (closeSave outcome s) :=
    by
  unfold closeSave
  simp (maxDischargeDepth := 60) only [hC, State.onSave_held]
theorem sealTail_held {r0 : State} (s : State) (hC : Held r0 s) : Held r0 (sealTail s) := by
  unfold sealTail
  simp (maxDischargeDepth := 60) only [hC, State.onLog_held]
theorem rootTail_held {r0 : State} (s : State) (hC : Held r0 s) : Held r0 (rootTail s) := by
  unfold rootTail
  simp_all (maxDischargeDepth := 60) [rootWrite_held, held_foldl]
theorem rootGasp_held {r0 : State} (c : Commit) (s : State) (hC : Held r0 s) : Held r0 (rootGasp c s) := by
  unfold rootGasp
  simp (maxDischargeDepth := 60) only [hC, State.onLedger_held, rootTail_held, rootWrite_held]
theorem gaspCommit_held {r0 : State} (outcome : Nat) (viaRoot : Bool) (s : State) (hC : Held r0 s) : Held r0
    (gaspCommit outcome viaRoot s) := by
  unfold gaspCommit
  simp (maxDischargeDepth := 60) only [hC, State.onSave_held, closeSave_held, commit_held, record_held,
      rootGasp_held, sealTail_held, ite_held]
theorem windowCommit_held {r0 : State} (viaRoot : Bool) (s : State) (hC : Held r0 s) : Held r0 (windowCommit
    viaRoot s) := by
  unfold windowCommit
  simp (maxDischargeDepth := 60) only [hC, State.onLedger_held, State.onSave_held, commit_held, rootTail_held,
      rootWrite_held, sealTail_held, ite_held]
theorem gaspAny_held {r0 : State} (outcome : Nat) (viaRoot : Bool) (s : State) (hC : Held r0 s) : Held r0 (gaspAny
    outcome viaRoot s) := by
  unfold gaspAny
  simp (maxDischargeDepth := 60) only [hC, flushCounts_held, gaspCommit_held, windowCommit_held, ite_held]
theorem lastGasp_held {r0 : State} (outcome : Nat) (s : State) (hC : Held r0 s) : Held r0 (lastGasp outcome s) := by
  unfold lastGasp
  simp (maxDischargeDepth := 60) only [hC, cutRails_held, dropLedgerHold_held, gaspAny_held]
theorem startSave_held {r0 : State} (t : Trigger) (s : State) (hC : Held r0 s) : Held r0 (startSave t s) := by
  unfold startSave
  simp (maxDischargeDepth := 60) only [hC, State.onSave_held, State.onSeq_held, applyFence_held]
theorem drainAll_held {r0 : State} (n : Nat) (s : State) (hC : Held r0 s) : Held r0 (drainAll n s) := by
  induction n generalizing s with
  | zero => exact flush_held _ _ hC
  | succ n ih =>
    unfold drainAll
    split
    · exact flush_held _ _ hC
    · exact ih _ (free_held _ _ (episodeCheck_held _ _ (admitEntry_held _ _ _ hC)))
theorem beginShutdown_held {r0 : State} (s : State) (hC : Held r0 s) : Held r0 (beginShutdown s) := by
  unfold beginShutdown
  simp (maxDischargeDepth := 60) only [hC, State.onHost_held, State.onSeq_held, drainAll_held, sprintCheck_held]
theorem closeBattery_held {r0 : State} (s : State) (hC : Held r0 s) : Held r0 (closeBattery s) := by
  unfold closeBattery
  simp (maxDischargeDepth := 60) only [hC, State.onSave_held, State.onSeq_held, lastGasp_held, ite_held]
theorem triggerRunning_held {r0 : State} (t : Trigger) (s : State) (hC : Held r0 s) : Held r0 (triggerRunning t s)
    := by
  unfold triggerRunning
  simp (maxDischargeDepth := 60) only [hC, State.onSave_held, applyFence_held, drainAll_held, lastGasp_held,
      startSave_held, ite_held]
theorem triggerWindow_held {r0 : State} (t : Trigger) (s : State) (hC : Held r0 s) : Held r0 (triggerWindow t s) :=
    by
  unfold triggerWindow
  simp (maxDischargeDepth := 60) only [hC, State.onSave_held, startSave_held]
theorem triggerLab_held {r0 : State} (t : Trigger) (s : State) (hC : Held r0 s) : Held r0 (triggerLab t s) := by
  unfold triggerLab
  simp (maxDischargeDepth := 60) only [hC, State.onFrz_held, State.onSave_held, cutRails_held, dropLedgerHold_held,
      lastGasp_held, record_held, ite_held]
theorem laterTrigger_held {r0 : State} (t : Trigger) (s : State) (hC : Held r0 s) : Held r0 (laterTrigger t s) := by
  unfold laterTrigger
  simp (maxDischargeDepth := 60) only [hC, record_held]
theorem dropHolds_held {r0 : State} (s : State) (hC : Held r0 s) : Held r0 (dropHolds s) := by
  unfold dropHolds
  simp (maxDischargeDepth := 60) only [hC, State.onFrz_held]
theorem endFreeze_held {r0 : State} (s : State) (hC : Held r0 s) : Held r0 (endFreeze s) := by
  unfold endFreeze
  simp (maxDischargeDepth := 60) only [hC, dropHolds_held, thaw_held, ite_held]
theorem trigger_held {r0 : State} (t : Trigger) (s : State) (hC : Held r0 s) : Held r0 (trigger t s) := by
  unfold trigger
  simp (maxDischargeDepth := 60) only [hC, closeBattery_held, endFreeze_held, laterTrigger_held, triggerLab_held,
      triggerRunning_held, triggerWindow_held, ite_held]
theorem fatalFlags_held {r0 : State} (kind : Nat) (cause : BitVec 32) (s : State) (hC : Held r0 s) : Held r0
    (fatalFlags kind cause s) := by
  unfold fatalFlags
  simp (maxDischargeDepth := 60) only [hC, State.onFault_held, State.onHost_held, record_held, trialStops_held]
theorem noteFatal_held {r0 : State} (cause : BitVec 32) (s : State) (hC : Held r0 s) : Held r0 (noteFatal cause s)
    := by
  unfold noteFatal
  simp (maxDischargeDepth := 60) only [hC, State.onFault_held, ite_held]
theorem chipFatal_held {r0 : State} (kind : Nat) (cause : BitVec 32) (s : State) (hC : Held r0 s) : Held r0
    (chipFatal kind cause s) := by
  unfold chipFatal
  simp (maxDischargeDepth := 60) only [hC, fatalFlags_held, laterTrigger_held, noteFatal_held, powerDownDark_held,
      record_held, trialStops_held, trigger_held, ite_held]

/-! ## Crews -/

theorem setSeat_held {r0 : State} (c : Option Crew) (s : State) (hC : Held r0 s) : Held r0 (setSeat c s) := by
  unfold setSeat
  simp (maxDischargeDepth := 60) only [hC, State.onCrew_held]
theorem commitDone_held {r0 : State} (status : Nat) (s : State) (hC : Held r0 s) : Held r0 (commitDone status s) :=
    by
  unfold commitDone
  (repeat' split) <;> simp (maxDischargeDepth := 60) only [hC, State.onUpd_held, onHead_held, reply_held,
      vectorOn_held]
theorem putSlot_held {r0 : State} (k : Fin 2) (i : Option ImageInfo) (s : State) (hC : Held r0 s) : Held r0
    (putSlot k i s) := by
  unfold putSlot
  (repeat' split) <;> simp (maxDischargeDepth := 60) only [hC, State.onUpd_held]
theorem dropSession_held {r0 : State} (s : State) (hC : Held r0 s) : Held r0 (dropSession s) := by
  unfold dropSession
  (repeat' split) <;> simp (maxDischargeDepth := 60) only [hC, State.onUpd_held, putSlot_held]
theorem releaseSession_held {r0 : State} (s : State) (hC : Held r0 s) : Held r0 (releaseSession s) := by
  unfold releaseSession
  (repeat' split) <;> simp (maxDischargeDepth := 60) only [hC, dropSession_held, record_held]
theorem fillPatchArea_held {r0 : State} (k : Fin 2) (s : State) (hC : Held r0 s) : Held r0 (fillPatchArea k s) := by
  unfold fillPatchArea
  (repeat' split) <;> simp (maxDischargeDepth := 60) only [hC, State.onUpd_held]
theorem dropCopies_held {r0 : State} (c : Crew) (s : State) (hC : Held r0 s) : Held r0 (dropCopies c s) := by
  unfold dropCopies
  simp (maxDischargeDepth := 60) only [hC, State.onCrew_held]
theorem thawSettings_held {r0 : State} (s : State) (hC : Held r0 s) : Held r0 (thawSettings s) := by
  unfold thawSettings
  simp (maxDischargeDepth := 60) only [hC, State.onOd_held]
theorem beginActivation_held {r0 : State} (slot : Fin 2) (s : State) (hC : Held r0 s) : Held r0 (beginActivation
    slot s) := by
  unfold beginActivation
  simp (maxDischargeDepth := 60) only [hC, State.onUpd_held, dropCopies_held, fillPatchArea_held, onCrewUnit_held,
      record_held]
theorem fallbackCheck_held {r0 : State} (s : State) (hC : Held r0 s) : Held r0 (fallbackCheck s) := by
  unfold fallbackCheck
  simp (maxDischargeDepth := 60) only [hC, beginActivation_held, ite_held]
theorem trialFail_held {r0 : State} (cause : Nat) (s : State) (hC : Held r0 s) : Held r0 (trialFail cause s) := by
  unfold trialFail
  simp (maxDischargeDepth := 60) only [hC, State.onUpd_held, fallbackCheck_held, record_held, ite_held]
theorem abortActivation_held {r0 : State} (status : Nat) (s : State) (hC : Held r0 s) : Held r0 (abortActivation
    status s) := by
  unfold abortActivation
  simp (maxDischargeDepth := 60) only [hC, State.onUpd_held, commitDone_held, record_held, ite_held]
theorem completeActivation_held {r0 : State} (y : Crew) (s : State) (hC : Held r0 s) : Held r0 (completeActivation
    y s) := by
  unfold completeActivation
  simp (maxDischargeDepth := 60) only [hC, State.onUpd_held, bootWrite_held, commitDone_held, record_held, ite_held]
theorem resetFaulted_held {r0 : State} (s : State) (hC : Held r0 s) : Held r0 (resetFaulted s) := by
  unfold resetFaulted
  simp (maxDischargeDepth := 60) only [hC, State.onCrew_held]
theorem abandonCopy_held {r0 : State} (c : Crew) (s : State) (hC : Held r0 s) : Held r0 (abandonCopy c s) := by
  unfold abandonCopy
  simp (maxDischargeDepth := 60) only [hC, onCrewUnit_held]
theorem becomeMember_held {r0 : State} (c : Crew) (s : State) (hC : Held r0 s) : Held r0 (becomeMember c s) := by
  unfold becomeMember
  simp (maxDischargeDepth := 60) only [hC, State.onSave_held, fallbackCheck_held, moveStaged_held, onCrewUnit_held,
      setSeat_held, sprintCheck_held, unprotectedCheck_held, ite_held]
theorem passSeat_held {r0 : State} (c : Crew) (s : State) (hC : Held r0 s) : Held r0 (passSeat c s) := by
  unfold passSeat
  simp (maxDischargeDepth := 60) only [hC, becomeMember_held, setSeat_held, sprintCheck_held, ite_held]
theorem loneMemberFault_held {r0 : State} (c : Crew) (s : State) (hC : Held r0 s) : Held r0 (loneMemberFault c s)
    := by
  unfold loneMemberFault
  (repeat' split) <;> simp (maxDischargeDepth := 60) only [hC, State.onUpd_held, abortActivation_held,
      onCrewUnit_held, thawSettings_held]
theorem crewDown_held {r0 : State} (c : Crew) (s : State) (hC : Held r0 s) : Held r0 (crewDown c s) := by
  unfold crewDown
  simp (maxDischargeDepth := 60) only [hC, State.onCrew_held, abandonCopy_held, dropCopies_held,
      loneMemberFault_held, onCrewUnit_held, passSeat_held, record_held, ite_held]
theorem crewFault_held {r0 : State} (c : Crew) (src : MasterId) (s : State) (hC : Held r0 s) : Held r0 (crewFault c
    src s) := by
  unfold crewFault
  simp (maxDischargeDepth := 60) only [hC, crewDown_held, onCrewUnit_held, record_held, trialFail_held, ite_held]
theorem scoreDown_held {r0 : State} (c : Crew) (n : Nat) (s : State) (hC : Held r0 s) : Held r0 (scoreDown c n s)
    := by
  unfold scoreDown
  simp (maxDischargeDepth := 60) only [hC, onCrewUnit_held]

/-! ## Settings -/

theorem applyPorts_held {r0 : State} (s : State) (hC : Held r0 s) : Held r0 (applyPorts s) := by
  unfold applyPorts
  simp (maxDischargeDepth := 60) only [hC, busStop_held]

/-! ## Boot -/

theorem enterBoathouse_held {r0 : State} (cause : Nat) (s : State) (hC : Held r0 s) : Held r0 (enterBoathouse cause
    s) := by
  unfold enterBoathouse
  simp (maxDischargeDepth := 60) only [hC, State.onBoot_held, record_held]
theorem startCrews_held {r0 : State} (k : Fin 2) (s : State) (hC : Held r0 s) : Held r0 (startCrews k s) := by
  unfold startCrews
  simp (maxDischargeDepth := 60) only [hC, State.onBoot_held, State.onCrew_held, fillPatchArea_held]
theorem startRepechage_held {r0 : State} (s : State) (hC : Held r0 s) : Held r0 (startRepechage s) := by
  unfold startRepechage
  simp (maxDischargeDepth := 60) only [hC, State.onUpd_held, bootWrite_held, enterBoathouse_held, record_held,
      startCrews_held, takeHeadUnits_held, thawSettings_held, ite_held]
theorem chooseImage_held {r0 : State} (s : State) (hC : Held r0 s) : Held r0 (chooseImage s) := by
  unfold chooseImage
  simp (maxDischargeDepth := 60) only [hC, State.onUpd_held, bootWrite_held, enterBoathouse_held, record_held,
      startCrews_held, startRepechage_held, thawSettings_held, ite_held]
theorem enterFreeze_held {r0 : State} (s : State) (hC : Held r0 s) : Held r0 (enterFreeze s) := by
  unfold enterFreeze
  simp (maxDischargeDepth := 60) only [hC, State.onDram_held, State.onFrz_held, State.onHost_held, flush_held,
      record_held]
theorem tryFreeze_held {r0 : State} (s : State) (hC : Held r0 s) : Held r0 (tryFreeze s) := by
  unfold tryFreeze
  simp (maxDischargeDepth := 60) only [hC, State.onFrz_held, enterFreeze_held, ite_held]
theorem requestFreeze_held {r0 : State} (set : Freeze → Freeze) (s : State) (hC : Held r0 s) : Held r0
    (requestFreeze set s) := by
  unfold requestFreeze
  simp (maxDischargeDepth := 60) only [hC, State.onFrz_held, record_held, tryFreeze_held, ite_held]
theorem fanTick_held {r0 : State} (s : State) (hC : Held r0 s) : Held r0 (fanTick s) := by
  unfold fanTick
  simp (maxDischargeDepth := 60) only [hC, State.onCrew_held, State.onUpd_held, free_held]
theorem startHeld_held {r0 : State} (s : State) (hC : Held r0 s) : Held r0 (startHeld s) := by
  unfold startHeld
  simp (maxDischargeDepth := 60) only [hC, chooseImage_held, ite_held]
theorem releaseHold_held {r0 : State} (clear : Freeze → Freeze) (s : State) (hC : Held r0 s) : Held r0 (releaseHold
    clear s) := by
  unfold releaseHold
  simp (maxDischargeDepth := 60) only [hC, State.onFrz_held, fanTick_held, startHeld_held, thaw_held, ite_held]
theorem turnAway_held {r0 : State} (p : Path) (s : State) (hC : Held r0 s) : Held r0 (turnAway p s) := by
  unfold turnAway
  (repeat' split) <;> simp (maxDischargeDepth := 60) only [hC, mbox_held]
theorem serve_held {r0 : State} (p : Path) (index : Nat) (privs : List Nat) (act : Nat × State) (s : State)
    (hA : Held r0 act.2) (hC : Held r0 s) : Held r0 (serve p index privs act s) := by
  unfold serve
  (repeat' split) <;> simp only [hA, hC, reply_held]
theorem notInBoathouse_held {r0 : State} (s : State) (act : Nat × State) (hA : Held r0 act.2) (hC : Held r0 s) :
    Held r0 (notInBoathouse s act).2 := by
  unfold notInBoathouse
  split <;> assumption

end Sys2Proof.Machine
end

