-- ==== Sys2Proof/Laws/HeldFault.lean ====
section
/-! SUPPORT. `Held` through the fault collector, the reactions, the lines, the Outflow and the flash back end: one
    lemma an operation, by its callees' lemmas. -/

namespace Sys2Proof.Machine

/-! ## Blocks -/

theorem shadowOn_held {r0 : State} (m : MasterId) (parent : BitVec 32) (s : State) (hC : Held r0 s) : Held r0
    (shadowOn m parent s) := by
  unfold shadowOn
  simp (maxDischargeDepth := 60) only [hC, State.onFault_held]
theorem shadowDone_held {r0 : State} (m : MasterId) (s : State) (hC : Held r0 s) : Held r0 (shadowDone m s) := by
  unfold shadowDone
  simp (maxDischargeDepth := 60) only [hC, State.onFault_held]
theorem onCh_held {r0 : State} (n : Nat) (f : DramChannel → DramChannel) (s : State) (hC : Held r0 s) : Held r0
    (onCh n f s) := by
  unfold onCh
  simp (maxDischargeDepth := 60) only [hC, State.onDram_held]
theorem markEscalated_held {r0 : State} (id : BitVec 32) (s : State) (hC : Held r0 s) : Held r0 (markEscalated id s)
    :=
  State.onFault_recs_held _ _ hC (tabWf_tabSet _ _ _ hC.tables.recs)
theorem isolate_held {r0 : State} (n : Nat) (cause : BitVec 32) (s : State) (hC : Held r0 s) : Held r0 (isolate n
    cause s) := by
  unfold isolate
  simp (maxDischargeDepth := 60) only [hC, chipFatal_held, markEscalated_held, onCh_held, record_held]
theorem startBlockReset_held {r0 : State} (n : Nat) (parent : BitVec 32) (s : State) (hC : Held r0 s) : Held r0
    (startBlockReset n parent s) := by
  unfold startBlockReset
  simp (maxDischargeDepth := 60) only [hC, isolate_held, onCh_held, shadowOn_held, ite_held]
theorem onFl_held {r0 : State} (n : Nat) (f : FlashChannel → FlashChannel) (s : State) (hC : Held r0 s) : Held r0
    (onFl n f s) := by
  unfold onFl
  simp (maxDischargeDepth := 60) only [hC, State.onFlash_held]
theorem moveSaveJobs_held {r0 : State} (d : Nat) (s : State) (hC : Held r0 s) : Held r0 (moveSaveJobs d s) := by
  unfold moveSaveJobs
  (repeat' split) <;> simp_all (maxDischargeDepth := 60) [State.onBasin_held, onFl_held, held_foldl]
theorem redrainDie_held {r0 : State} (d : Nat) (s : State) (hC : Held r0 s) : Held r0 (redrainDie d s) := by
  unfold redrainDie
  simp_all (maxDischargeDepth := 60) [dropMapping_held, redrain_held, held_foldl]
theorem redrainRetired_held {r0 : State} (s : State) (hC : Held r0 s) : Held r0 (redrainRetired s) := by
  unfold redrainRetired
  simp_all (maxDischargeDepth := 60) [redrainDie_held, held_foldl]
theorem retireDie_held {r0 : State} (d : Nat) (s : State) (hC : Held r0 s) : Held r0 (retireDie d s) := by
  unfold retireDie
  simp (maxDischargeDepth := 60) only [hC, State.onFlash_held, State.onSave_held, moveSaveJobs_held, record_held,
      redrainDie_held, ite_held]
theorem withdrawChannel_held {r0 : State} (n : Nat) (s : State) (hC : Held r0 s) : Held r0 (withdrawChannel n s) :=
    by
  unfold withdrawChannel
  simp_all (maxDischargeDepth := 60) [onFl_held, retireDie_held, held_foldl]
theorem resetFlashChannel_held {r0 : State} (n : Nat) (parent : BitVec 32) (s : State) (hC : Held r0 s) : Held r0
    (resetFlashChannel n parent s) := by
  unfold resetFlashChannel
  simp (maxDischargeDepth := 60) only [hC, onFl_held, shadowOn_held, withdrawChannel_held, ite_held]
theorem resetLdpc_held {r0 : State} (k : Nat) (parent : BitVec 32) (s : State) (hC : Held r0 s) : Held r0
    (resetLdpc k parent s) := by
  unfold resetLdpc
  simp_all (maxDischargeDepth := 60) [State.onFlash_held, onFl_held, shadowOn_held, withdrawChannel_held, ite_held,
      held_foldl]
theorem resetXts_held {r0 : State} (k : Nat) (parent : BitVec 32) (s : State) (hC : Held r0 s) : Held r0 (resetXts
    k parent s) := by
  unfold resetXts
  simp (maxDischargeDepth := 60) only [hC, State.onFlash_held, shadowOn_held, ite_held]
theorem resetFlashRegion_held {r0 : State} (parent : BitVec 32) (s : State) (hC : Held r0 s) : Held r0
    (resetFlashRegion parent s) := by
  unfold resetFlashRegion
  simp_all (maxDischargeDepth := 60) [State.onCrew_held, failOne_held, onFl_held, shadowOn_held, held_foldl]
theorem resetHead_held {r0 : State} (h : Fin 2) (linkToo : Bool) (s : State) (hC : Held r0 s) : Held r0 (resetHead
    h linkToo s) := by
  unfold resetHead
  dsimp only
  (repeat' split) <;> simp (maxDischargeDepth := 60) only [hC, State.onRst_held, State.onUpd_held,
      endSessions_held, onHead_held, releaseSession_held]
theorem onPort_held {r0 : State} (p : Port) (f : BusPort → BusPort) (s : State) (hC : Held r0 s) : Held r0 (onPort
    p f s) := by
  unfold onPort
  simp (maxDischargeDepth := 60) only [hC, State.onBus_held]
theorem localFailed_held {r0 : State} (s : State) (hC : Held r0 s) : Held r0 (localFailed s) := by
  unfold localFailed
  simp (maxDischargeDepth := 60) only [hC, busStop_held, onPort_held, free_held]
theorem resetPort_held {r0 : State} (p : Port) (parent : BitVec 32) (s : State) (hC : Held r0 s) : Held r0
    (resetPort p parent s) := by
  unfold resetPort
  simp (maxDischargeDepth := 60) only [hC, onPort_held, shadowOn_held]
theorem failLedger_held {r0 : State} (s : State) (hC : Held r0 s) : Held r0 (failLedger s) := by
  unfold failLedger
  split
  · exact hC
  · refine record_held _ _ _ _ _
      (State.onWl_logs_held _ _ (State.onLedger_held _ _ hC rfl) (Nat.le_refl _) hC.tables.log ?_)
    exact Nat.le_trans (List.length_filter_le _ _) hC.tables.ring

/-! ## Fault -/

theorem setCapture_held {r0 : State} (m : MasterId) (c : Capture) (s : State) (hC : Held r0 s) : Held r0 (setCapture m
    c s) :=
  State.onFault_recs_held _ _ hC (tabWf_tabSet _ _ _ hC.tables.recs)
theorem reactFlashRegion_held {r0 : State} (id : BitVec 32) (s : State) (hC : Held r0 s) : Held r0
    (reactFlashRegion id s) := by
  unfold reactFlashRegion
  simp (maxDischargeDepth := 60) only [hC, chipFatal_held, lastGasp_held, resetFlashRegion_held, free_held,
      ite_held]
theorem failBuffer_held {r0 : State} (s : State) (hC : Held r0 s) : Held r0 (failBuffer s) := by
  unfold failBuffer
  simp (maxDischargeDepth := 60) only [hC, State.onWb_held, free_held]
theorem headReaction_held {r0 : State} (h : Fin 2) (id : BitVec 32) (s : State) (hC : Held r0 s) : Held r0
    (headReaction h id s) := by
  unfold headReaction
  simp (maxDischargeDepth := 60) only [hC, onHead_held, resetHead_held]
theorem reactNow_held {r0 : State} (m : MasterId) (s : State) (hC : Held r0 s) : Held r0 (reactNow m s) := by
  unfold reactNow
  simp (maxDischargeDepth := 60) only [hC, State.onFault_held, chipFatal_held, crewFault_held, failBuffer_held,
      failLedger_held, failStr_held, headReaction_held, reactFlashRegion_held, releaseHold_held,
      resetFlashChannel_held, resetLdpc_held, resetPort_held, resetXts_held, shadowDone_held, shadowOn_held,
      startBlockReset_held, ite_held]
theorem react_held {r0 : State} (m : MasterId) (s : State) (hC : Held r0 s) : Held r0 (react m s) := by
  unfold react
  simp (maxDischargeDepth := 60) only [hC, State.onFault_held, reactNow_held, ite_held]
theorem runWaiting_held {r0 : State} (s : State) (hC : Held r0 s) : Held r0 (runWaiting s) := by
  unfold runWaiting
  simp_all (maxDischargeDepth := 60) [State.onFault_held, react_held, held_foldl]
theorem scoreFor_held {r0 : State} (m : MasterId) (n : Nat) (s : State) (hC : Held r0 s) : Held r0 (scoreFor m n s)
    := by
  unfold scoreFor
  (repeat' split) <;> simp (maxDischargeDepth := 60) only [hC, scoreDown_held]
theorem reportU_held {r0 : State} (m : MasterId) (s : State) (hC : Held r0 s) : Held r0 (reportU m s) := by
  unfold reportU
  simp (maxDischargeDepth := 60) only [hC, State.onHost_held, ite_held]
theorem actC_held {r0 : State} (m : MasterId) (s : State) (hC : Held r0 s) : Held r0 (actC m s) := by
  unfold actC
  simp (maxDischargeDepth := 60) only [hC, State.onHost_held, record_held, scoreFor_held, ite_held]
theorem actF_held {r0 : State} (m : MasterId) (s : State) (hC : Held r0 s) : Held r0 (actF m s) := by
  unfold actF
  simp (maxDischargeDepth := 60) only [hC, react_held, record_held, reportU_held, ite_held]
theorem expireGrace_held {r0 : State} (m : MasterId) (s : State) (hC : Held r0 s) : Held r0 (expireGrace m s) := by
  unfold expireGrace
  simp (maxDischargeDepth := 60) only [hC, State.onFault_held, actF_held, record_held, setCapture_held]
theorem actU_held {r0 : State} (m : MasterId) (s : State) (hC : Held r0 s) : Held r0 (actU m s) := by
  unfold actU
  simp (maxDischargeDepth := 60) only [hC, expireGrace_held, record_held, reportU_held, scoreFor_held,
      setCapture_held, ite_held]
theorem act_held {r0 : State} (m : MasterId) (k : FClass) (s : State) (hC : Held r0 s) : Held r0 (act m k s) := by
  unfold act
  (repeat' split) <;> simp (maxDischargeDepth := 60) only [hC, actC_held, actF_held, actU_held]
theorem escalate_held {r0 : State} (m : MasterId) (s : State) (hC : Held r0 s) : Held r0 (escalate m s) := by
  unfold escalate
  dsimp only
  (repeat' split) <;> simp (maxDischargeDepth := 60) only [hC, State.onFault_held, actF_held, actU_held,
      chipFatal_held, isolate_held, setCapture_held]
theorem newCapture_held {r0 : State} (parent : Option (BitVec 32)) (f : FaultIn) (s : State) (hC : Held r0 s) :
    Held r0 (newCapture parent f s) := by
  unfold newCapture
  simp (maxDischargeDepth := 60) only [hC, setCapture_held]
theorem overflowUp_held {r0 : State} (m : MasterId) (s : State) (hC : Held r0 s) : Held r0 (overflowUp m s) := by
  unfold overflowUp
  simp (maxDischargeDepth := 60) only [hC, setCapture_held]
theorem consequentialFault_held {r0 : State} (parent : Option (BitVec 32)) (f : FaultIn) (s : State) (hC : Held r0
    s) : Held r0 (consequentialFault parent f s) := by
  unfold consequentialFault
  simp (maxDischargeDepth := 60) only [hC, State.onFault_held, newCapture_held, overflowUp_held, recordWith_held,
      ite_held]
theorem heldFault_held {r0 : State} (f : FaultIn) (k : FClass) (s : State) (hC : Held r0 s) : Held r0 (heldFault f
    k s) := by
  unfold heldFault
  simp (maxDischargeDepth := 60) only [hC, act_held, escalate_held, overflowUp_held, setCapture_held, ite_held]
theorem reportFault_held {r0 : State} (parent : Option (BitVec 32)) (f : FaultIn) (s : State) (hC : Held r0 s) :
    Held r0 (reportFault parent f s) := by
  unfold reportFault
  dsimp only
  (repeat' split) <;> simp (maxDischargeDepth := 60) only [hC, act_held, chipFatal_held, consequentialFault_held,
      heldFault_held, newCapture_held, setCapture_held]
theorem raise_held {r0 : State} (m : MasterId) (cls : FClass) (key : BitVec 8) (typ : Fin 16) (req : MasterId)
    (addr detail : Nat) (s : State) (hC : Held r0 s) : Held r0 (raise m cls key typ req addr detail s) := by
  unfold raise
  simp (maxDischargeDepth := 60) only [hC, reportFault_held]
theorem overflowCheck_held {r0 : State} (s : State) (hC : Held r0 s) : Held r0 (overflowCheck s) := by
  unfold overflowCheck
  simp (maxDischargeDepth := 60) only [hC, State.onLog_held, chipFatal_held, newCapture_held, setCapture_held,
      ite_held]
theorem overrunOf_held {r0 : State} (h : Shadow) (s : State) (hC : Held r0 s) : Held r0 (overrunOf h s) := by
  unfold overrunOf
  (repeat' split) <;> simp (maxDischargeDepth := 60) only [hC, chipFatal_held, isolate_held, shadowDone_held]
theorem headLate_held {r0 : State} (h : Fin 2) (s : State) (hC : Held r0 s) : Held r0 (headLate h s) := by
  unfold headLate
  (repeat' split) <;> simp (maxDischargeDepth := 60) only [hC, chipFatal_held, onHead_held]
theorem overrunStep_held {r0 : State} (s : State) (hC : Held r0 s) : Held r0 (overrunStep s) := by
  unfold overrunStep
  (repeat' split) <;> simp (maxDischargeDepth := 60) only [hC, headLate_held, overrunOf_held]
theorem ack_held {r0 : State} (id : BitVec 32) (s : State) (hC : Held r0 s) : Held r0 (ack id s) := by
  unfold ack
  simp (maxDischargeDepth := 60) only [hC, setCapture_held, ite_held]
theorem notice_held {r0 : State} (s : State) (hC : Held r0 s) : Held r0 (notice s) := by
  unfold notice
  (repeat' split) <;> simp (maxDischargeDepth := 60) only [hC, State.onBus_held, attend_held, ite_held]
theorem finish_held {r0 : State} (s : State) (hC : Held r0 s) : HeldO r0 (finish s) := by
  unfold finish
  simp (maxDischargeDepth := 60) only [hC, notice_held, overflowCheck_held, runWaiting_held, heldO_next]

/-! ## Lines -/

theorem countCorrected_held {r0 : State} (s : State) (line dev : Nat) (hC : Held r0 s) : Held r0 (countCorrected s
    line dev) := by
  unfold countCorrected
  simp (maxDischargeDepth := 60) only [hC, onCh_held, record_held, ite_held]
theorem corrected_held {r0 : State} (line dev : Nat) (typ : Fin 16) (req : MasterId) (s : State) (hC : Held r0 s) :
    Held r0 (corrected line dev typ req s) := by
  unfold corrected
  simp (maxDischargeDepth := 60) only [hC, countCorrected_held, raise_held, free_held]
theorem correctedFree_held {r0 : State} (line : Nat) (typ : Fin 16) (req : MasterId) (s : State) (hC : Held r0 s) :
    Held r0 (correctedFree line typ req s) := by
  unfold correctedFree
  simp (maxDischargeDepth := 60) only [hC, corrected_held, free_held]
theorem uncorrectable_held {r0 : State} (line : Nat) (syn : BitVec 16) (typ : Fin 16) (req : MasterId) (s : State)
    (hC : Held r0 s) : Held r0 (uncorrectable line syn typ req s) := by
  unfold uncorrectable
  simp (maxDischargeDepth := 60) only [hC, onCh_held, raise_held, setPoison_held]
theorem dramLine_held {r0 : State} (line : Nat) (res : DramRead) (typ : Fin 16) (req : MasterId) (s : State) (hC :
    Held r0 s) : Held r0 (dramLine line res typ req s) := by
  unfold dramLine
  (repeat' split) <;> simp (maxDischargeDepth := 60) only [hC, corrected_held, correctedFree_held,
      uncorrectable_held]
theorem queueRead_held {r0 : State} (page : Nat) (op : FlashOp) (s : State) (hC : Held r0 s) : Held r0 (queueRead
    page op s) := by
  unfold queueRead
  (repeat' split) <;> simp (maxDischargeDepth := 60) only [hC, onFl_held]
theorem startRepair_held {r0 : State} (line : Nat) (s : State) (hC : Held r0 s) : Held r0 (startRepair line s) := by
  unfold startRepair
  simp (maxDischargeDepth := 60) only [hC, queueRead_held, setPoison_held]
theorem scrubLine_held {r0 : State} (line : Nat) (res : DramRead) (s : State) (hC : Held r0 s) : Held r0 (scrubLine
    line res s) := by
  unfold scrubLine
  (repeat' split) <;> simp (maxDischargeDepth := 60) only [hC, corrected_held, correctedFree_held,
      startRepair_held, uncorrectable_held]
theorem startFetch_held {r0 : State} (page : Nat) (s : State) (hC : Held r0 s) : Held r0 (startFetch page s) := by
  unfold startFetch
  simp (maxDischargeDepth := 60) only [hC, State.onRst_held, queueRead_held, ite_held]
theorem holdRead_held {r0 : State} (h : Fin 2) (id line : Nat) (why : RWait) (s : State) (hC : Held r0 s) : Held r0
    (holdRead h id line why s) := by
  unfold holdRead
  simp (maxDischargeDepth := 60) only [hC, State.onWb_held]
theorem answer_held {r0 : State} (h : Fin 2) (id line : Nat) (s : State) (hC : Held r0 s) : Held r0 (answer h id
    line s) := by
  unfold answer
  simp (maxDischargeDepth := 60) only [hC, say_held]
theorem answerPoison_held {r0 : State} (h : Fin 2) (id : Nat) (s : State) (hC : Held r0 s) : Held r0 (answerPoison
    h id s) := by
  unfold answerPoison
  simp (maxDischargeDepth := 60) only [hC, say_held, free_held]
theorem serveRead_held {r0 : State} (h : Fin 2) (id line : Nat) (res : DramRead) (s : State) (hC : Held r0 s) :
    Held r0 (serveRead h id line res s) := by
  unfold serveRead
  (repeat' split) <;> simp (maxDischargeDepth := 60) only [hC, answer_held, corrected_held, correctedFree_held,
      holdRead_held, startRepair_held, uncorrectable_held]
theorem answerHeld_held {r0 : State} (r : PendingRead) (s : State) (hC : Held r0 s) : Held r0 (answerHeld r s) := by
  unfold answerHeld
  simp (maxDischargeDepth := 60) only [hC, say_held, ite_held]
theorem release_held {r0 : State} (p : PendingRead → Bool) (s : State) (hC : Held r0 s) : Held r0 (release p s) :=
    by
  unfold release
  simp_all (maxDischargeDepth := 60) [State.onWb_held, answerHeld_held, held_foldl]
theorem setRestored_held {r0 : State} (page : Nat) (s : State) (hC : Held r0 s) : Held r0 (setRestored page s) := by
  unfold setRestored
  simp (maxDischargeDepth := 60) only [hC, State.onRst_held]
theorem releaseWrites_held {r0 : State} (page n : Nat) (s : State) (hC : Held r0 s) : Held r0 (releaseWrites page n s) := by
  induction n generalizing s with
  | zero => exact hC
  | succ n ih =>
    unfold releaseWrites
    split
    · exact hC
    · apply ih
      simp (maxDischargeDepth := 60) only [hC, admitEntry_held, onEntry_held, overshootEntry_held, testOrWait_held,
        ite_held]

/-! ## Outflow -/

theorem choose_held {r0 : State} (s : State) (hC : Held r0 s) : Held r0 (choose s) := by
  unfold choose
  simp (maxDischargeDepth := 60) only [hC, State.onPm_held]
theorem markBatch_held {r0 : State} (pages : List Nat) (s : State) (hC : Held r0 s) : Held r0 (markBatch pages s)
    := by
  unfold markBatch
  simp_all (maxDischargeDepth := 60) [State.onPm_held, markOne_held, held_foldl]
theorem markDrainingOp_held {r0 : State} (pages : List Nat) (s : State) (hC : Held r0 s) : Held r0 (markDrainingOp
    pages s) := by
  unfold markDrainingOp
  simp (maxDischargeDepth := 60) only [hC, choose_held, markBatch_held, ite_held]
theorem execMarkDraining_held {r0 : State} (pages : List Nat) (s : State) (hC : Held r0 s) : HeldO r0
    (execMarkDraining pages s) := by
  unfold execMarkDraining
  simp (maxDischargeDepth := 60) only [hC, finish_held, markDrainingOp_held, heldO_next, iteO_held]
theorem completeDrainOp_held {r0 : State} (tag seg unit : Nat) (s : State) (hC : Held r0 s) : Held r0
    (completeDrainOp tag seg unit s) := by
  unfold completeDrainOp
  simp (maxDischargeDepth := 60) only [hC, State.onPm_held, completeOne_held, ite_held]
theorem execCompleteDrain_held {r0 : State} (tag seg unit : Nat) (s : State) (hC : Held r0 s) : HeldO r0
    (execCompleteDrain tag seg unit s) := by
  unfold execCompleteDrain
  simp (maxDischargeDepth := 60) only [hC, completeDrainOp_held, finish_held, heldO_next, iteO_held]
theorem failDrainOp_held {r0 : State} (tag : Nat) (s : State) (hC : Held r0 s) : Held r0 (failDrainOp tag s) := by
  unfold failDrainOp
  simp (maxDischargeDepth := 60) only [hC, State.onPm_held, failOne_held]
theorem execFailDrain_held {r0 : State} (tag : Nat) (s : State) (hC : Held r0 s) : HeldO r0 (execFailDrain tag s)
    := by
  unfold execFailDrain
  simp (maxDischargeDepth := 60) only [hC, failDrainOp_held, finish_held, heldO_next, iteO_held]
theorem walkOp_held {r0 : State} (slot : Fin 16) (st : PState) (s : State) (hC : Held r0 s) : Held r0 (walkOp slot
    st s) := by
  unfold walkOp
  simp (maxDischargeDepth := 60) only [hC, State.onPm_held]
theorem execMapWalkRequest_held {r0 : State} (slot : Fin 16) (st : PState) (s : State) (hC : Held r0 s) : HeldO r0
    (execMapWalkRequest slot st s) := by
  unfold execMapWalkRequest
  simp (maxDischargeDepth := 60) only [hC, walkOp_held, heldO_next, iteO_held]
theorem execMapWalkBatch_held {r0 : State} (s : State) (hC : Held r0 s) : HeldO r0 (execMapWalkBatch s) := by
  unfold execMapWalkBatch
  (repeat' split) <;> simp (maxDischargeDepth := 60) only [hC, State.onPm_held, choose_held, heldO_next]
theorem lineError_held {r0 : State} (line : Nat) (s : State) (hC : Held r0 s) : Held r0 (lineError line s) := by
  unfold lineError
  simp (maxDischargeDepth := 60) only [hC, State.onPm_held, rebuildLine_held, ite_held]
theorem execMapLineRebuild_held {r0 : State} (line : Nat) (s : State) (hC : Held r0 s) : HeldO r0
    (execMapLineRebuild line s) := by
  unfold execMapLineRebuild
  simp (maxDischargeDepth := 60) only [hC, finish_held, lineError_held, raise_held, heldO_next, iteO_held]
theorem recount_held {r0 : State} (s : State) (hC : Held r0 s) : Held r0 (recount s) := by
  unfold recount
  simp (maxDischargeDepth := 60) only [hC, State.onPm_held]
theorem execRecountDone_held {r0 : State} (s : State) (hC : Held r0 s) : HeldO r0 (execRecountDone s) := by
  unfold execRecountDone
  simp (maxDischargeDepth := 60) only [hC, finish_held, recount_held, retest_held, retireEmpty_held,
      weirCheck_held, heldO_next, iteO_held]
theorem entryError_held {r0 : State} (page : Nat) (s : State) (hC : Held r0 s) : Held r0 (entryError page s) := by
  unfold entryError
  simp (maxDischargeDepth := 60) only [hC, State.onPm_held, dropMapping_held, placeLost_held, ite_held]
theorem execMappingEntryError_held {r0 : State} (page : Nat) (s : State) (hC : Held r0 s) : HeldO r0
    (execMappingEntryError page s) := by
  unfold execMappingEntryError
  simp (maxDischargeDepth := 60) only [hC, entryError_held, finish_held, raise_held, heldO_next, iteO_held]
theorem startCompaction_held {r0 : State} (s : State) (hC : Held r0 s) : Held r0 (startCompaction s) := by
  unfold startCompaction
  simp (maxDischargeDepth := 60) only [hC, State.onLog_held, ite_held]
theorem execDirtyLogChunkMove_held {r0 : State} (s : State) (hC : Held r0 s) : HeldO r0 (execDirtyLogChunkMove s)
    := by
  unfold execDirtyLogChunkMove
  simp (maxDischargeDepth := 60) only [hC, State.onLog_held, startCompaction_held, heldO_next, iteO_held]
theorem emitEntry_held {r0 : State} (s : State) (e : LogEntry) (hC : Held r0 s) : Held r0 (emitEntry s e) := by
  unfold emitEntry
  simp (maxDischargeDepth := 60) only [hC, State.onLog_held, logAppend_held, ite_held]
theorem compact_held {r0 : State} (n : Nat) (s : State) (hC : Held r0 s) : Held r0 (compact n s) := by
  unfold compact
  simp_all (maxDischargeDepth := 60) [State.onLog_held, emitEntry_held, held_foldl]
theorem execLogCompactionDone_held {r0 : State} (s : State) (hC : Held r0 s) : HeldO r0 (execLogCompactionDone s)
    := by
  unfold execLogCompactionDone
  (repeat' split) <;> simp (maxDischargeDepth := 60) only [hC, compact_held, finish_held, heldO_next]
theorem execCheckpointTimer_held {r0 : State} (s : State) (hC : Held r0 s) : HeldO r0 (execCheckpointTimer s) := by
  unfold execCheckpointTimer
  simp (maxDischargeDepth := 60) only [hC, State.onLake_held, countOrphans_held, heldO_next, iteO_held]
theorem checkpointOp_held {r0 : State} (w : ChunkWrite) (dir : Nat × Nat) (s : State) (hC : Held r0 s) : Held r0
    (checkpointOp w dir s) := by
  unfold checkpointOp
  simp (maxDischargeDepth := 60) only [hC, State.onLake_held, State.onPm_held, commit_held]
theorem execCheckpoint_held {r0 : State} (s : State) (hC : Held r0 s) : HeldO r0 (execCheckpoint s) := by
  unfold execCheckpoint
  (repeat' split) <;> simp (maxDischargeDepth := 60) only [hC, checkpointOp_held, finish_held, heldO_next]
theorem completeSettle_held {r0 : State} (s : State) (hC : Held r0 s) : Held r0 (completeSettle s) := by
  unfold completeSettle
  simp (maxDischargeDepth := 60) only [hC, State.onHost_held, State.onPm_held, sprintCheck_held, vector_held]
theorem settleOp_held {r0 : State} (s : State) (hC : Held r0 s) : Held r0 (settleOp s) := by
  unfold settleOp
  simp (maxDischargeDepth := 60) only [hC, commit_held, completeSettle_held]
theorem execSettled_held {r0 : State} (s : State) (hC : Held r0 s) : HeldO r0 (execSettled s) := by
  unfold execSettled
  simp (maxDischargeDepth := 60) only [hC, finish_held, settleOp_held, heldO_next, iteO_held]

/-! ## Flash -/

theorem addWear_held {r0 : State} (key cost : Nat) (s : State) (hC : Held r0 s) : Held r0 (addWear key cost s) := by
  unfold addWear
  simp (maxDischargeDepth := 60) only [hC, State.onFlash_held]
theorem noteConsumed_held {r0 : State} (s : State) (hC : Held r0 s) : Held r0 (noteConsumed s) := by
  unfold noteConsumed
  simp (maxDischargeDepth := 60) only [hC, State.onFlash_held]
theorem budgetCheck_held {r0 : State} (s : State) (hC : Held r0 s) : Held r0 (budgetCheck s) := by
  unfold budgetCheck
  simp (maxDischargeDepth := 60) only [hC, State.onFlash_held, noteConsumed_held, record_held, sprintCheck_held,
      ite_held]
theorem takeBlock_held {r0 : State} (die : Nat) (area : Area) (block : Nat) (s : State) (hC : Held r0 s) : Held r0
    (takeBlock die area block s) := by
  unfold takeBlock
  simp (maxDischargeDepth := 60) only [hC, State.onFlash_held]
theorem replaceBlock_held {r0 : State} (die : Nat) (area : Area) (block : Nat) (s : State) (hC : Held r0 s) : Held
    r0 (replaceBlock die area block s) := by
  unfold replaceBlock
  simp (maxDischargeDepth := 60) only [hC, retireDie_held, takeBlock_held, ite_held]
theorem noteRetired_held {r0 : State} (die : Nat) (area : Area) (block : Nat) (s : State) (hC : Held r0 s) : Held
    r0 (noteRetired die area block s) := by
  unfold noteRetired
  simp (maxDischargeDepth := 60) only [hC, State.onFlash_held]
theorem setSegment_held {r0 : State} (n : Nat) (g : Segment) (s : State) (hC : Held r0 s) : Held r0 (setSegment n g
    s) := by
  unfold setSegment
  simp (maxDischargeDepth := 60) only [hC, State.onLake_held]
theorem retireInSegment_held {r0 : State} (die seg : Nat) (s : State) (hC : Held r0 s) : Held r0 (retireInSegment
    die seg s) := by
  unfold retireInSegment
  simp (maxDischargeDepth := 60) only [hC, noteRetired_held, setSegment_held, ite_held]
theorem retireBlock_held {r0 : State} (die : Nat) (area : Area) (block : Nat) (s : State) (hC : Held r0 s) : Held
    r0 (retireBlock die area block s) := by
  unfold retireBlock
  (repeat' split) <;> simp (maxDischargeDepth := 60) only [hC, State.onBasin_held, noteRetired_held,
      replaceBlock_held, retireInSegment_held, takeBlock_held]
theorem dieResult_held {r0 : State} (die : Nat) (ok : Bool) (s : State) (hC : Held r0 s) : Held r0 (dieResult die
    ok s) := by
  unfold dieResult
  simp (maxDischargeDepth := 60) only [hC, State.onFlash_held, retireDie_held, ite_held]
theorem countReads_held {r0 : State} (key reads retried : Nat) (s : State) (hC : Held r0 s) : Held r0 (countReads
    key reads retried s) := by
  unfold countReads
  simp (maxDischargeDepth := 60) only [hC, State.onFlash_held]
theorem countStep_held {r0 : State} (key attempt : Nat) (s : State) (hC : Held r0 s) : Held r0 (countStep key
    attempt s) := by
  unfold countStep
  simp (maxDischargeDepth := 60) only [hC, State.onFlash_held, ite_held]
theorem setLevels_held {r0 : State} (die key : Nat) (pslc : Bool) (attempt : Nat) (s : State) (hC : Held r0 s) :
    Held r0 (setLevels die key pslc attempt s) := by
  unfold setLevels
  simp (maxDischargeDepth := 60) only [hC, State.onFlash_held]
theorem openSegment_held {r0 : State} (n : Nat) (st : LakeStream) (s : State) (hC : Held r0 s) : Held r0
    (openSegment n st s) := by
  unfold openSegment
  simp_all (maxDischargeDepth := 60) [State.onLake_held, addWear_held, setSegment_held, held_foldl]
theorem gcCheck_held {r0 : State} (s : State) (hC : Held r0 s) : Held r0 (gcCheck s) := by
  unfold gcCheck
  simp (maxDischargeDepth := 60) only [hC, State.onLake_held, starvedCheck_held]
theorem closeCheck_held {r0 : State} (seg : Nat) (s : State) (hC : Held r0 s) : Held r0 (closeCheck seg s) := by
  unfold closeCheck
  simp (maxDischargeDepth := 60) only [hC, setSegment_held, ite_held]
theorem countProgram_held {r0 : State} (last : Bool) (s : State) (hC : Held r0 s) : Held r0 (countProgram last s)
    := by
  unfold countProgram
  simp (maxDischargeDepth := 60) only [hC, State.onFlash_held, ite_held]
theorem programUnit_held {r0 : State} (seg unit : Nat) (u : FlashUnit) (s : State) (hC : Held r0 s) : Held r0
    (programUnit seg unit u s) := by
  unfold programUnit
  simp (maxDischargeDepth := 60) only [hC, State.onLake_held, countProgram_held, gcCheck_held, setSegment_held]
theorem replaceBad_held {r0 : State} (seg : Nat) (s : State) (hC : Held r0 s) : Held r0 (replaceBad seg s) := by
  unfold replaceBad
  simp_all (maxDischargeDepth := 60) [replaceBlock_held, setSegment_held, held_foldl]
theorem erasedCheck_held {r0 : State} (seg : Nat) (s : State) (hC : Held r0 s) : Held r0 (erasedCheck seg s) := by
  unfold erasedCheck
  simp (maxDischargeDepth := 60) only [hC, State.onLake_held, replaceBad_held, setSegment_held, ite_held]
theorem eraseSegmentDie_held {r0 : State} (seg die : Nat) (s : State) (hC : Held r0 s) : Held r0 (eraseSegmentDie
    seg die s) := by
  unfold eraseSegmentDie
  simp (maxDischargeDepth := 60) only [hC, State.onLake_held, erasedCheck_held, setSegment_held]
theorem basinEraseOk_held {r0 : State} (die block : Nat) (s : State) (hC : Held r0 s) : Held r0 (basinEraseOk die
    block s) := by
  unfold basinEraseOk
  simp (maxDischargeDepth := 60) only [hC, State.onBasin_held, ite_held]
theorem exchangeBlock_held {r0 : State} (die block : Nat) (s : State) (hC : Held r0 s) : Held r0 (exchangeBlock die
    block s) := by
  unfold exchangeBlock
  simp (maxDischargeDepth := 60) only [hC, State.onFlash_held, budgetCheck_held]
theorem countErase_held {r0 : State} (die : Nat) (area : Area) (block : Nat) (s : State) (hC : Held r0 s) : Held r0
    (countErase die area block s) := by
  unfold countErase
  simp (maxDischargeDepth := 60) only [hC, addWear_held, budgetCheck_held, exchangeBlock_held, ite_held]
theorem eraseDone_held {r0 : State} (die : Nat) (area : Area) (block : Nat) (ok : Bool) (s : State) (hC : Held r0
    s) : Held r0 (eraseDone die area block ok s) := by
  unfold eraseDone
  (repeat' split) <;> simp (maxDischargeDepth := 60) only [hC, State.onFlash_held, State.onLog_held,
      basinEraseOk_held, countErase_held, dieResult_held, eraseSegmentDie_held, erasedCheck_held, gcCheck_held,
      onFl_held, retireBlock_held]
theorem execBlockEraseDone_held {r0 : State} (die : Nat) (area : Area) (block : Nat) (ok : Bool) (s : State) (hC :
    Held r0 s) : HeldO r0 (execBlockEraseDone die area block ok s) := by
  unfold execBlockEraseDone
  simp (maxDischargeDepth := 60) only [hC, eraseDone_held, finish_held, heldO_next, iteO_held]
theorem issueOp_held {r0 : State} (op : FlashOp) (s : State) (hC : Held r0 s) : Held r0 (issueOp op s) := by
  unfold issueOp
  dsimp only
  (repeat' split) <;> simp (maxDischargeDepth := 60) only [hC, gcCheck_held, openSegment_held, setSegment_held]
theorem readPage_held {r0 : State} (ch : Nat) (op : FlashOp) (reads : List (Nat × DramRead)) (s : State) (hC : Held
    r0 s) : Held r0 (readPage ch op reads s) := by
  unfold readPage
  (repeat' split) <;> simp_all (maxDischargeDepth := 60) [dramLine_held, held_foldl]
theorem addJob_held {r0 : State} (ch die : Nat) (op : FlashOp) (reads : List (Nat × DramRead)) (s : State) (hC :
    Held r0 s) : Held r0 (addJob ch die op reads s) := by
  unfold addJob
  simp (maxDischargeDepth := 60) only [hC, onFl_held, readPage_held, ite_held]
theorem wakeJobs_held {r0 : State} (dch : Nat) (s : State) (hC : Held r0 s) : Held r0 (wakeJobs dch s) := by
  unfold wakeJobs
  simp_all (maxDischargeDepth := 60) [onFl_held, readPage_held, held_foldl]
theorem queueOp_held {r0 : State} (ch die : Nat) (op : FlashOp) (reads : List (Nat × DramRead)) (s : State) (hC :
    Held r0 s) : Held r0 (queueOp ch die op reads s) := by
  unfold queueOp
  simp (maxDischargeDepth := 60) only [hC, addJob_held, issueOp_held, ite_held]
theorem execFlashOarCommand_held {r0 : State} (ch : Fin 32) (die : Fin 8) (op : OarOp) (s : State) (hC : Held r0 s)
    : HeldO r0 (execFlashOarCommand ch die op s) := by
  unfold execFlashOarCommand
  simp (maxDischargeDepth := 60) only [hC, finish_held, queueOp_held, heldO_next, iteO_held]
theorem unitFailed_held {r0 : State} (seg unit : Nat) (s : State) (hC : Held r0 s) : Held r0 (unitFailed seg unit
    s) := by
  unfold unitFailed
  (repeat' split) <;> simp (maxDischargeDepth := 60) only [hC, onFl_held, retireInSegment_held, ite_held]
theorem badUnit_held {r0 : State} (seg unit page : Nat) (s : State) (hC : Held r0 s) : Held r0 (badUnit seg unit
    page s) := by
  unfold badUnit
  simp (maxDischargeDepth := 60) only [hC, State.onLake_held, redrain_held, setSegment_held, unitFailed_held,
      ite_held]
theorem chunkDone_held {r0 : State} (seg unit count : Nat) (chunk : Option Nat) (s : State) (hC : Held r0 s) : Held
    r0 (chunkDone seg unit count chunk s) := by
  unfold chunkDone
  simp_all (maxDischargeDepth := 60) [State.onLake_held, programUnit_held, held_foldl]
theorem opOk_held {r0 : State} (die : Nat) (j : FlashJob) (s : State) (hC : Held r0 s) : Held r0 (opOk die j s) :=
    by
  unfold opOk
  dsimp only
  (repeat' split) <;> simp (maxDischargeDepth := 60) only [hC, State.onLake_held, chunkDone_held, closeCheck_held,
      countProgram_held, eraseDone_held, moveMapping_held, placeUnit_held, programUnit_held]
theorem skipDie_held {r0 : State} (die seg : Nat) (s : State) (hC : Held r0 s) : Held r0 (skipDie die seg s) := by
  unfold skipDie
  simp (maxDischargeDepth := 60) only [hC, closeCheck_held, setSegment_held]
theorem retrySave_held {r0 : State} (die : Nat) (j : FlashJob) (s : State) (hC : Held r0 s) : Held r0 (retrySave
    die j s) := by
  unfold retrySave
  simp (maxDischargeDepth := 60) only [hC, State.onBasin_held, noteRetired_held, onFl_held, stopResidue_held,
      ite_held]
theorem opFail_held {r0 : State} (die : Nat) (j : FlashJob) (s : State) (hC : Held r0 s) : Held r0 (opFail die j s)
    := by
  unfold opFail
  dsimp only
  (repeat' split) <;> simp (maxDischargeDepth := 60) only [hC, dieResult_held, eraseDone_held, onFl_held,
      retireBlock_held, retireInSegment_held, retrySave_held, skipDie_held]
theorem noteRead_held {r0 : State} (die : Nat) (op : FlashOp) (attempts : Nat) (s : State) (hC : Held r0 s) : Held
    r0 (noteRead die op attempts s) := by
  unfold noteRead
  dsimp only
  (repeat' split) <;> simp (maxDischargeDepth := 60) only [hC, countReads_held, countStep_held, onFl_held,
      setLevels_held]
theorem opUndecodable_held {r0 : State} (die : Nat) (j : FlashJob) (s : State) (hC : Held r0 s) : Held r0
    (opUndecodable die j s) := by
  unfold opUndecodable
  dsimp only
  (repeat' split) <;> simp (maxDischargeDepth := 60) only [hC, badUnit_held, closeCheck_held, dropMapping_held,
      noteRead_held, unitFailed_held]
theorem patrolLate_held {r0 : State} (seg attempts slots : Nat) (s : State) (hC : Held r0 s) : Held r0 (patrolLate
    seg attempts slots s) := by
  unfold patrolLate
  simp (maxDischargeDepth := 60) only [hC, setSegment_held, ite_held]
theorem opDone_held {r0 : State} (die : Nat) (j : FlashJob) (res : FlashRes) (s : State) (hC : Held r0 s) : Held r0
    (opDone die j res s) := by
  unfold opDone
  (repeat' split) <;> simp (maxDischargeDepth := 60) only [hC, dieResult_held, noteRead_held, opFail_held,
      opOk_held, opUndecodable_held, patrolLate_held]
theorem execFlashOpComplete_held {r0 : State} (ch : Fin 32) (die : Fin 8) (res : FlashRes) (s : State) (hC : Held
    r0 s) : HeldO r0 (execFlashOpComplete ch die res s) := by
  unfold execFlashOpComplete
  dsimp only
  (repeat' split) <;> simp (maxDischargeDepth := 60) only [hC, State.onFlash_held, finish_held, onFl_held,
      opDone_held, heldO_next]
theorem execFlashChannelReset_held {r0 : State} (ch : Fin 32) (s : State) (hC : Held r0 s) : HeldO r0
    (execFlashChannelReset ch s) := by
  unfold execFlashChannelReset
  simp (maxDischargeDepth := 60) only [hC, finish_held, raise_held]
theorem execLdpcEngineFault_held {r0 : State} (eng : Fin 8) (s : State) (hC : Held r0 s) : HeldO r0
    (execLdpcEngineFault eng s) := by
  unfold execLdpcEngineFault
  simp (maxDischargeDepth := 60) only [hC, finish_held, raise_held, free_held]
theorem execXtsEngineFault_held {r0 : State} (eng : Fin 2) (s : State) (hC : Held r0 s) : HeldO r0
    (execXtsEngineFault eng s) := by
  unfold execXtsEngineFault
  simp (maxDischargeDepth := 60) only [hC, finish_held, raise_held, free_held]
theorem execFlashResetDone_held {r0 : State} (unit : MasterId) (s : State) (hC : Held r0 s) : HeldO r0
    (execFlashResetDone unit s) := by
  unfold execFlashResetDone
  simp_all (maxDischargeDepth := 60) [State.onFlash_held, finish_held, onFl_held, shadowDone_held, ite_held,
      iteO_held, heldO_next, held_foldl]
theorem oarReloadFlash_held {r0 : State} (ch : Nat) (s : State) (hC : Held r0 s) : Held r0 (oarReloadFlash ch s) :=
    by
  unfold oarReloadFlash
  simp (maxDischargeDepth := 60) only [hC, onFl_held]
theorem execFlashOarReload_held {r0 : State} (_crew : Crew) (ch : Fin 32) (s : State) (hC : Held r0 s) : HeldO r0
    (execFlashOarReload _crew ch s) := by
  unfold execFlashOarReload
  simp (maxDischargeDepth := 60) only [hC, oarReloadFlash_held, heldO_next, iteO_held]
theorem patrolReads_held {r0 : State} (found : PatrolIn) (s : State) (hC : Held r0 s) : Held r0 (patrolReads found
    s) := by
  unfold patrolReads
  simp_all (maxDischargeDepth := 60) [countReads_held, free_held, held_foldl]
theorem execFlashPatrol_held {r0 : State} (found : PatrolIn) (s : State) (hC : Held r0 s) : HeldO r0
    (execFlashPatrol found s) := by
  unfold execFlashPatrol
  refine iteO_held (heldO_next hC) (finish_held _ (held_foldl (fun s u h => ?_) _ _ ?_))
  · split
    · exact ite_held (badUnit_held _ _ _ _ h) (unitFailed_held _ _ _ h)
    · exact h
  · exact ite_held (setSegment_held _ _ _ (patrolReads_held _ _ (State.onFlash_held _ _ hC)))
      (patrolReads_held _ _ (State.onFlash_held _ _ hC))
theorem execDieRetire_held {r0 : State} (die : Nat) (s : State) (hC : Held r0 s) : HeldO r0 (execDieRetire die s)
    := by
  unfold execDieRetire
  simp (maxDischargeDepth := 60) only [hC, finish_held, retireDie_held, heldO_next, iteO_held]
theorem execDieRetireWalkDone_held {r0 : State} (die : Nat) (s : State) (hC : Held r0 s) : HeldO r0
    (execDieRetireWalkDone die s) := by
  unfold execDieRetireWalkDone
  simp (maxDischargeDepth := 60) only [hC, State.onFlash_held, heldO_next]
theorem execBasinExchangeTimer_held {r0 : State} (s : State) (hC : Held r0 s) : HeldO r0 (execBasinExchangeTimer s)
    := by
  unfold execBasinExchangeTimer
  simp_all (maxDischargeDepth := 60) [exchangeBlock_held, finish_held, iteO_held, heldO_next, held_foldl]
theorem execSDieRecompute_held {r0 : State} (t999 programs : Nat) (s : State) (hC : Held r0 s) : HeldO r0
    (execSDieRecompute t999 programs s) := by
  unfold execSDieRecompute
  simp (maxDischargeDepth := 60) only [hC, State.onFlash_held, budgetCheck_held, finish_held, heldO_next, iteO_held]

end Sys2Proof.Machine
end

