-- ==== Sys2Proof/Laws/HeldEngines.lean ====
section
/-! SUPPORT. `Held` through the commands of the Weir, the gauge, the Waterline, the save, the sequencer, DRAM, the
    restore, the faults and the planner: one lemma an operation, by its callees' lemmas. -/

namespace Sys2Proof.Machine

/-! ## WeirCommands -/

theorem learnCheck_held {r0 : State} (s : State) (hC : Held r0 s) : Held r0 (learnCheck s) := by
  unfold learnCheck
  simp (maxDischargeDepth := 60) only [hC, abortLearn_held, unprotectedCheck_held, ite_held]
theorem recompute_held {r0 : State} (s : State) (hC : Held r0 s) : Held r0 (recompute s) := by
  unfold recompute
  simp (maxDischargeDepth := 60) only [hC, State.onWeir_held]
theorem publishOp_held {r0 : State} (crew : Crew) (level : Nat) (s : State) (hC : Held r0 s) : Held r0 (publishOp
    crew level s) := by
  unfold publishOp
  simp (maxDischargeDepth := 60) only [hC, State.onWeir_held, retest_held, weirCheck_held]
theorem execWeirPublish_held {r0 : State} (crew : Crew) (level : Nat) (s : State) (hC : Held r0 s) : HeldO r0
    (execWeirPublish crew level s) := by
  unfold execWeirPublish
  simp (maxDischargeDepth := 60) only [hC, finish_held, publishOp_held, heldO_next, iteO_held]
theorem publishComputed_held {r0 : State} (s : State) (hC : Held r0 s) : Held r0 (publishComputed s) := by
  unfold publishComputed
  simp (maxDischargeDepth := 60) only [hC, publishOp_held, free_held]
theorem execWeirRecompute_held {r0 : State} (s : State) (hC : Held r0 s) : HeldO r0 (execWeirRecompute s) := by
  unfold execWeirRecompute
  simp (maxDischargeDepth := 60) only [hC, finish_held, learnCheck_held, publishComputed_held, recompute_held,
      heldO_next, iteO_held]
theorem limitsOp_held {r0 : State} (capMiB floorMiB' : Nat) (s : State) (hC : Held r0 s) : Held r0 (limitsOp capMiB
    floorMiB' s) := by
  unfold limitsOp
  simp (maxDischargeDepth := 60) only [hC, State.onWeir_held, retest_held, weirCheck_held]
theorem execCoxswainWeirRecompute_held {r0 : State} (s : State) (hC : Held r0 s) : HeldO r0
    (execCoxswainWeirRecompute s) := by
  unfold execCoxswainWeirRecompute
  simp (maxDischargeDepth := 60) only [hC, State.onWeir_held, finish_held, retest_held, weirCheck_held, heldO_next,
      iteO_held]
theorem execWeirFloorSet_held {r0 : State} (s : State) (hC : Held r0 s) : HeldO r0 (execWeirFloorSet s) := by
  unfold execWeirFloorSet
  simp (maxDischargeDepth := 60) only [hC, finish_held, limitsOp_held, heldO_next, iteO_held]
theorem execWeirDecayStart_held {r0 : State} (s : State) (hC : Held r0 s) : HeldO r0 (execWeirDecayStart s) := by
  unfold execWeirDecayStart
  simp (maxDischargeDepth := 60) only [hC, State.onWeir_held, finish_held, record_held, trialFail_held,
      weirCheck_held, heldO_next, iteO_held, ite_held]
theorem execWeirDecayFloor_held {r0 : State} (s : State) (hC : Held r0 s) : HeldO r0 (execWeirDecayFloor s) := by
  unfold execWeirDecayFloor
  simp (maxDischargeDepth := 60) only [hC, State.onWeir_held, finish_held, weirCheck_held, heldO_next, iteO_held]

/-! ## Gauge -/

theorem writeGaugeRec_held {r0 : State} (s : State) (hC : Held r0 s) : Held r0 (writeGaugeRec s) := by
  unfold writeGaugeRec
  simp (maxDischargeDepth := 60) only [hC, State.onBat_held]
theorem execGaugeRecordWrite_held {r0 : State} (s : State) (hC : Held r0 s) : HeldO r0 (execGaugeRecordWrite s) :=
    by
  unfold execGaugeRecordWrite
  simp (maxDischargeDepth := 60) only [hC, writeGaugeRec_held, heldO_next, iteO_held]
theorem takeUp_held {r0 : State} (s : State) (hC : Held r0 s) : Held r0 (takeUp s) := by
  unfold takeUp
  (repeat' split) <;> simp (maxDischargeDepth := 60) only [hC, State.onBat_held, unprotectedCheck_held,
      writeGaugeRec_held, ite_held]
theorem afterPack_held {r0 : State} (s : State) (hC : Held r0 s) : Held r0 (afterPack s) := by
  unfold afterPack
  simp (maxDischargeDepth := 60) only [hC, chargeCheck_held, limitsOp_held, writeGaugeRec_held, ite_held]
theorem descriptorCheck_held {r0 : State} (x : Str) (s : State) (hC : Held r0 s) : Held r0 (descriptorCheck x s) :=
    by
  unfold descriptorCheck
  simp (maxDischargeDepth := 60) only [hC, failStr_held, ite_held]
theorem packChange_held {r0 : State} (x : Str) (s : State) (hC : Held r0 s) : Held r0 (packChange x s) := by
  unfold packChange
  simp (maxDischargeDepth := 60) only [hC, descriptorCheck_held, packReset_held]
theorem packDeclareOp_held {r0 : State} (v : Nat) (s : State) (hC : Held r0 s) : Held r0 (packDeclareOp v s) := by
  unfold packDeclareOp
  simp (maxDischargeDepth := 60) only [hC, afterPack_held, packChange_held, ite_held]
theorem takeCode_held {r0 : State} (code : Nat) (valid : Bool) (s : State) (hC : Held r0 s) : Held r0 (takeCode
    code valid s) := by
  unfold takeCode
  simp (maxDischargeDepth := 60) only [hC, State.onBat_held, afterPack_held, clearReason_held,
      descriptorCheck_held, packChange_held, ite_held]
theorem execPackidRead_held {r0 : State} (mv : Nat) (descriptorValid : Bool) (s : State) (hC : Held r0 s) : HeldO
    r0 (execPackidRead mv descriptorValid s) := by
  unfold execPackidRead
  simp (maxDischargeDepth := 60) only [hC, State.onBat_held, State.onSave_held, finish_held, takeCode_held,
      heldO_next, iteO_held]
theorem execThermistorOpen_held {r0 : State} (str : Str) (s : State) (hC : Held r0 s) : HeldO r0
    (execThermistorOpen str s) := by
  unfold execThermistorOpen
  simp (maxDischargeDepth := 60) only [hC, chargeCheck_held, finish_held, onStr_held, removeStr_held, heldO_next,
      iteO_held]
theorem execThermistorPresent_held {r0 : State} (str : Str) (s : State) (hC : Held r0 s) : HeldO r0
    (execThermistorPresent str s) := by
  unfold execThermistorPresent
  simp (maxDischargeDepth := 60) only [hC, afterPack_held, chargeCheck_held, descriptorCheck_held, finish_held,
      onStr_held, packChange_held, heldO_next, iteO_held, ite_held]
theorem anchorAt_held {r0 : State} (x : Str) (soc u : ℚ) (s : State) (hC : Held r0 s) : Held r0 (anchorAt x soc u
    s) := by
  unfold anchorAt
  simp (maxDischargeDepth := 60) only [hC, onStr_held]
theorem restAnchor_held {r0 : State} (x : Str) (s : State) (hC : Held r0 s) : Held r0 (restAnchor x s) := by
  unfold restAnchor
  (repeat' split) <;> simp (maxDischargeDepth := 60) only [hC, anchorAt_held, chargeCheck_held, onStr_held,
      unprotectedCheck_held]
theorem endForcedRest_held {r0 : State} (x : Str) (s : State) (hC : Held r0 s) : Held r0 (endForcedRest x s) := by
  unfold endForcedRest
  simp (maxDischargeDepth := 60) only [hC, onStr_held]
theorem execRestQualified_held {r0 : State} (str : Str) (s : State) (hC : Held r0 s) : HeldO r0 (execRestQualified
    str s) := by
  unfold execRestQualified
  simp (maxDischargeDepth := 60) only [hC, endForcedRest_held, finish_held, onStr_held, restAnchor_held,
      heldO_next, iteO_held]
theorem execInsertionRest_held {r0 : State} (str : Str) (s : State) (hC : Held r0 s) : HeldO r0 (execInsertionRest
    str s) := by
  unfold execInsertionRest
  simp (maxDischargeDepth := 60) only [hC, finish_held, restAnchor_held, heldO_next, iteO_held]
theorem execFullFlag_held {r0 : State} (str : Str) (s : State) (hC : Held r0 s) : HeldO r0 (execFullFlag str s) :=
    by
  unfold execFullFlag
  simp (maxDischargeDepth := 60) only [hC, anchorAt_held, chargeCheck_held, finish_held, onStr_held,
      unprotectedCheck_held, heldO_next, iteO_held]
theorem execChargeRestart_held {r0 : State} (str : Str) (s : State) (hC : Held r0 s) : HeldO r0 (execChargeRestart
    str s) := by
  unfold execChargeRestart
  dsimp only
  (repeat' split) <;> simp (maxDischargeDepth := 60) only [hC, chargeCheck_held, onStr_held, heldO_next]
theorem execRhoDriftDay_held {r0 : State} (str : Str) (s : State) (hC : Held r0 s) : HeldO r0 (execRhoDriftDay str
    s) := by
  unfold execRhoDriftDay
  dsimp only
  (repeat' split) <;> simp (maxDischargeDepth := 60) only [hC, onStr_held, heldO_next]
theorem startLearn_held {r0 : State} (x : Str) (entriesOk : Bool) (s : State) (hC : Held r0 s) : Held r0
    (startLearn x entriesOk s) := by
  unfold startLearn
  simp (maxDischargeDepth := 60) only [hC, busStop_held, chargeCheck_held, localFailed_held, onStr_held,
      record_held, unprotectedCheck_held, ite_held]
theorem execLearnDue_held {r0 : State} (str : Str) (entriesOk : Bool) (s : State) (hC : Held r0 s) : HeldO r0
    (execLearnDue str entriesOk s) := by
  unfold execLearnDue
  simp (maxDischargeDepth := 60) only [hC, finish_held, startLearn_held, heldO_next, iteO_held]
theorem stopLearn_held {r0 : State} (x : Str) (s : State) (hC : Held r0 s) : Held r0 (stopLearn x s) := by
  unfold stopLearn
  simp (maxDischargeDepth := 60) only [hC, abortLearn_held, chargeCheck_held, unprotectedCheck_held]
theorem execLearnNoCurrent_held {r0 : State} (str : Str) (s : State) (hC : Held r0 s) : HeldO r0
    (execLearnNoCurrent str s) := by
  unfold execLearnNoCurrent
  simp (maxDischargeDepth := 60) only [hC, finish_held, stopLearn_held, heldO_next, iteO_held]
theorem execChargerEntryRetry_held {r0 : State} (str : Str) (entriesOk : Bool) (s : State) (hC : Held r0 s) : HeldO
    r0 (execChargerEntryRetry str entriesOk s) := by
  unfold execChargerEntryRetry
  simp (maxDischargeDepth := 60) only [hC, busStop_held, chargeCheck_held, finish_held, localFailed_held,
      onStr_held, record_held, heldO_next, iteO_held]
theorem emptyFlag_held {r0 : State} (d : PackDescriptor) (x : Str) (s : State) (hC : Held r0 s) : Held r0
    (emptyFlag d x s) := by
  unfold emptyFlag
  simp (maxDischargeDepth := 60) only [hC, anchorAt_held, onStr_held, record_held, writeGaugeRec_held, ite_held]
theorem execForcedRestDue_held {r0 : State} (str : Str) (s : State) (hC : Held r0 s) : HeldO r0 (execForcedRestDue
    str s) := by
  unfold execForcedRestDue
  simp (maxDischargeDepth := 60) only [hC, chargeCheck_held, onStr_held, heldO_next, iteO_held]
theorem execForcedRestFail_held {r0 : State} (str : Str) (s : State) (hC : Held r0 s) : HeldO r0
    (execForcedRestFail str s) := by
  unfold execForcedRestFail
  simp (maxDischargeDepth := 60) only [hC, chargeCheck_held, finish_held, onStr_held, record_held, heldO_next,
      iteO_held]
theorem estimateStr_held {r0 : State} (d : PackDescriptor) (old : Sample) (x : Str) (s : State) (hC : Held r0 s) :
    Held r0 (estimateStr d old x s) := by
  unfold estimateStr
  dsimp only
  (repeat' split) <;> simp (maxDischargeDepth := 60) only [hC, onStr_held]
theorem reasonsOf_held {r0 : State} (d : PackDescriptor) (x : Str) (s : State) (hC : Held r0 s) : Held r0
    (reasonsOf d x s) := by
  unfold reasonsOf
  simp (maxDischargeDepth := 60) only [hC, clearReason_held, failStr_held, ite_held]
theorem crewsSample_held {r0 : State} (d : PackDescriptor) (oldA oldB : Sample) (s : State) (hC : Held r0 s) : Held
    r0 (crewsSample d oldA oldB s) := by
  unfold crewsSample
  simp (maxDischargeDepth := 60) only [hC, emptyFlag_held, estimateStr_held, learnCheck_held, reasonsOf_held,
      ite_held]
theorem execGaugeSample_held {r0 : State} (a b : Sample) (s : State) (hC : Held r0 s) : HeldO r0 (execGaugeSample a
    b s) := by
  unfold execGaugeSample
  dsimp only
  (repeat' split) <;> simp (maxDischargeDepth := 60) only [hC, State.onBat_held, chargeCheck_held,
      crewsSample_held, finish_held, heldO_next]
theorem chgCtrlOp_held {r0 : State} (v : BitVec 32) (s : State) (hC : Held r0 s) : Held r0 (chgCtrlOp v s) := by
  unfold chgCtrlOp
  simp (maxDischargeDepth := 60) only [hC, State.onBat_held, chargeCheck_held]
theorem execPwrChgCtrlWrite_held {r0 : State} (value : BitVec 32) (s : State) (hC : Held r0 s) : HeldO r0
    (execPwrChgCtrlWrite value s) := by
  unfold execPwrChgCtrlWrite
  simp (maxDischargeDepth := 60) only [hC, chgCtrlOp_held, heldO_next, iteO_held]
theorem stringStateOp_held {r0 : State} (x : Str) (st : StrState) (reason : StrReason) (paused : Bool) (s : State)
    (hC : Held r0 s) : Held r0 (stringStateOp x st reason paused s) := by
  unfold stringStateOp
  simp (maxDischargeDepth := 60) only [hC, chargeCheck_held, onStr_held, unprotectedCheck_held, ite_held]
theorem execStringStateSetting_held {r0 : State} (str : Str) (st : StrState) (reason : StrReason) (paused : Bool)
    (s : State) (hC : Held r0 s) : HeldO r0 (execStringStateSetting str st reason paused s) := by
  unfold execStringStateSetting
  simp (maxDischargeDepth := 60) only [hC, finish_held, stringStateOp_held, heldO_next, iteO_held]

/-! ## Records -/

theorem waterlineOp_held {r0 : State} (r : WlReq) (s : State) (hC : Held r0 s) : Held r0 (waterlineOp r s) := by
  unfold waterlineOp
  simp (maxDischargeDepth := 60) only [hC, moveStaged_held, recordWith_held]
theorem execWaterlineRecord_held {r0 : State} (r : WlReq) (s : State) (hC : Held r0 s) : HeldO r0
    (execWaterlineRecord r s) := by
  unfold execWaterlineRecord
  simp (maxDischargeDepth := 60) only [hC, waterlineOp_held, heldO_next, iteO_held]
theorem execStagedRecord_held {r0 : State} (r : WlReq) (s : State) (hC : Held r0 s) : HeldO r0 (execStagedRecord r
    s) := by
  unfold execStagedRecord
  simp (maxDischargeDepth := 60) only [hC, recordWith_held, heldO_next, iteO_held]
theorem commitOp_held {r0 : State} (c : OtherCommit) (s : State) (hC : Held r0 s) : Held r0 (commitOp c s) := by
  unfold commitOp
  (repeat' split) <;> simp (maxDischargeDepth := 60) only [hC, State.onHost_held, State.onLedger_held, commit_held,
      flushCounts_held, onCh_held]
theorem execLedgerCommit_held {r0 : State} (c : OtherCommit) (s : State) (hC : Held r0 s) : HeldO r0
    (execLedgerCommit c s) := by
  unfold execLedgerCommit
  simp (maxDischargeDepth := 60) only [hC, commitOp_held, heldO_next, iteO_held]
theorem exportOp_held {r0 : State} (s : State) (hC : Held r0 s) : Held r0 (exportOp s) := by
  unfold exportOp
  simp (maxDischargeDepth := 60) only [hC, State.onWl_held]
theorem execWaterlineExport_held {r0 : State} (ok : Bool) (s : State) (hC : Held r0 s) : HeldO r0
    (execWaterlineExport ok s) := by
  unfold execWaterlineExport
  simp (maxDischargeDepth := 60) only [hC, exportOp_held, record_held, heldO_next, iteO_held]
theorem restoreLedger_held {r0 : State} (s : State) (hC : Held r0 s) : Held r0 (restoreLedger s) := by
  unfold restoreLedger
  dsimp only
  refine held_foldl (fun s x h => ?_) _ _
    (State.onWl_logs_held _ _ (State.onLedger_held _ _ hC rfl) (Nat.le_refl _) hC.tables.log (Nat.zero_le _))
  split
  · exact dropRec_held _ _ h
  · rename_i l hl
    exact State.onWl_logs_held _ _ h (Nat.le_refl _) (storeRec_length hl h.tables.log) h.tables.ring
theorem dropCorrupt_held {r0 : State} (seqs : List Nat) (s : State) (hC : Held r0 s) : Held r0 (dropCorrupt seqs s) :=
  State.onWl_logs_held _ _ hC (Nat.le_refl _) (Nat.le_trans (List.length_filter_le _ _) hC.tables.log) hC.tables.ring
theorem execLedgerTest_held {r0 : State} (found : LedgerFound) (s : State) (hC : Held r0 s) : HeldO r0
    (execLedgerTest found s) := by
  unfold execLedgerTest
  simp (maxDischargeDepth := 60) only [hC, State.onLedger_held, dropCorrupt_held, restoreLedger_held, heldO_next,
      iteO_held]

/-! ## SaveCommands -/

theorem powerPath_held {r0 : State} (s : State) (hC : Held r0 s) : Held r0 (powerPath s) := by
  unfold powerPath
  (repeat' split) <;> simp (maxDischargeDepth := 60) only [hC, State.onSave_held, State.onSeq_held, lastGasp_held]
theorem dropIsolated_held {r0 : State} (s : State) (hC : Held r0 s) : Held r0 (dropIsolated s) := by
  unfold dropIsolated
  simp (maxDischargeDepth := 60) only [hC, State.onSave_held, State.onWb_held]
theorem execSaveDrainDone_held {r0 : State} (s : State) (hC : Held r0 s) : HeldO r0 (execSaveDrainDone s) := by
  unfold execSaveDrainDone
  simp (maxDischargeDepth := 60) only [hC, State.onSave_held, drainAll_held, dropIsolated_held, finish_held,
      powerPath_held, writeBack_held, heldO_next, iteO_held]
theorem startedOp_held {r0 : State} (s : State) (hC : Held r0 s) : Held r0 (startedOp s) := by
  unfold startedOp
  simp (maxDischargeDepth := 60) only [hC, State.onSave_held, commit_held, record_held, sealTail_held]
theorem execSaveStarted_held {r0 : State} (s : State) (hC : Held r0 s) : HeldO r0 (execSaveStarted s) := by
  unfold execSaveStarted
  simp (maxDischargeDepth := 60) only [hC, finish_held, startedOp_held, heldO_next, iteO_held]
theorem nextPhase_held {r0 : State} (s : State) (hC : Held r0 s) : Held r0 (nextPhase s) := by
  unfold nextPhase
  (repeat' split) <;> simp (maxDischargeDepth := 60) only [hC, State.onSave_held, landCursor_held]
theorem execMapSaved_held {r0 : State} (s : State) (hC : Held r0 s) : HeldO r0 (execMapSaved s) := by
  unfold execMapSaved
  simp (maxDischargeDepth := 60) only [hC, State.onBasin_held, State.onSave_held, commit_held, finish_held,
      nextPhase_held, heldO_next, iteO_held]
theorem cursorOp_held {r0 : State} (c : Cursor) (s : State) (hC : Held r0 s) : Held r0 (cursorOp c s) := by
  unfold cursorOp
  simp (maxDischargeDepth := 60) only [hC, commit_held, landCursor_held]
theorem execCursor_held {r0 : State} (openSeq page : Nat) (s : State) (hC : Held r0 s) : HeldO r0 (execCursor
    openSeq page s) := by
  unfold execCursor
  simp (maxDischargeDepth := 60) only [hC, cursorOp_held, finish_held, heldO_next, iteO_held]
theorem endPass_held {r0 : State} (b : Bucket) (s : State) (hC : Held r0 s) : Held r0 (endPass b s) := by
  unfold endPass
  simp (maxDischargeDepth := 60) only [hC, padPass_held, programPages_held, ite_held]
theorem passDone_held {r0 : State} (b : Bucket) (s : State) (hC : Held r0 s) : Held r0 (passDone b s) := by
  unfold passDone
  simp (maxDischargeDepth := 60) only [hC, State.onSave_held, commit_held, nextPhase_held]
theorem bucketDoneOp_held {r0 : State} (b : Bucket) (s : State) (hC : Held r0 s) : Held r0 (bucketDoneOp b s) := by
  unfold bucketDoneOp
  simp (maxDischargeDepth := 60) only [hC, commit_held, endPass_held, landCursor_held, passDone_held, ite_held]
theorem execBucketDone_held {r0 : State} (s : State) (hC : Held r0 s) : HeldO r0 (execBucketDone s) := by
  unfold execBucketDone
  (repeat' split) <;> simp (maxDischargeDepth := 60) only [hC, bucketDoneOp_held, finish_held, heldO_next]
theorem rootsOp_held {r0 : State} (s : State) (hC : Held r0 s) : Held r0 (rootsOp s) := by
  unfold rootsOp
  simp (maxDischargeDepth := 60) only [hC, State.onBasin_held, State.onDram_held, State.onLedger_held,
      State.onSave_held, commit_held, rootWrite_held]
theorem execRootsSaved_held {r0 : State} (s : State) (hC : Held r0 s) : HeldO r0 (execRootsSaved s) := by
  unfold execRootsSaved
  simp (maxDischargeDepth := 60) only [hC, finish_held, rootsOp_held, heldO_next, iteO_held]
theorem savedOp_held {r0 : State} (s : State) (hC : Held r0 s) : Held r0 (savedOp s) := by
  unfold savedOp
  simp (maxDischargeDepth := 60) only [hC, State.onSave_held, closeSave_held, commit_held, exportOp_held,
      record_held, writeGaugeRec_held, ite_held]
theorem execSaved_held {r0 : State} (s : State) (hC : Held r0 s) : HeldO r0 (execSaved s) := by
  unfold execSaved
  simp (maxDischargeDepth := 60) only [hC, finish_held, savedOp_held, heldO_next, iteO_held]
theorem execSaveTimeLimit_held {r0 : State} (s : State) (hC : Held r0 s) : HeldO r0 (execSaveTimeLimit s) := by
  unfold execSaveTimeLimit
  simp (maxDischargeDepth := 60) only [hC, stopWriting_held, heldO_next, iteO_held]
theorem halve.go_held {r0 : State} (s : State) (hC : Held r0 s) : Held r0 (halve.go s) := by
  unfold halve.go
  simp (maxDischargeDepth := 60) only [hC, State.onSave_held, record_held, ite_held]
theorem halve_held {r0 : State} (s : State) (hC : Held r0 s) : Held r0 (halve s) := by
  unfold halve
  (repeat' split) <;> simp (maxDischargeDepth := 60) only [hC, halve.go_held]
theorem execSagDetect_held {r0 : State} (belowA belowB : Bool) (s : State) (hC : Held r0 s) : HeldO r0
    (execSagDetect belowA belowB s) := by
  unfold execSagDetect
  simp (maxDischargeDepth := 60) only [hC, finish_held, halve_held, heldO_next, iteO_held]
theorem execHalvingHoldOffEnd_held {r0 : State} (still : Bool) (s : State) (hC : Held r0 s) : HeldO r0
    (execHalvingHoldOffEnd still s) := by
  unfold execHalvingHoldOffEnd
  simp (maxDischargeDepth := 60) only [hC, finish_held, halve_held, heldO_next, iteO_held]
theorem execSaveCutoff_held {r0 : State} (belowA belowB forOneMs : Bool) (s : State) (hC : Held r0 s) : HeldO r0
    (execSaveCutoff belowA belowB forOneMs s) := by
  unfold execSaveCutoff
  simp (maxDischargeDepth := 60) only [hC, finish_held, lastGasp_held, heldO_next, iteO_held]
theorem execCrewsSilentTimeout_held {r0 : State} (s : State) (hC : Held r0 s) : HeldO r0 (execCrewsSilentTimeout s)
    := by
  unfold execCrewsSilentTimeout
  simp (maxDischargeDepth := 60) only [hC, finish_held, lastGasp_held, heldO_next, iteO_held]
theorem execEmptySetSaveTimeout_held {r0 : State} (s : State) (hC : Held r0 s) : HeldO r0 (execEmptySetSaveTimeout
    s) := by
  unfold execEmptySetSaveTimeout
  simp (maxDischargeDepth := 60) only [hC, finish_held, lastGasp_held, heldO_next, iteO_held]
theorem execLedgerHoldTimeout_held {r0 : State} (s : State) (hC : Held r0 s) : HeldO r0 (execLedgerHoldTimeout s)
    := by
  unfold execLedgerHoldTimeout
  simp (maxDischargeDepth := 60) only [hC, dropLedgerHold_held, heldO_next, iteO_held]
theorem releaseOp_held {r0 : State} (s : State) (hC : Held r0 s) : Held r0 (releaseOp s) := by
  unfold releaseOp
  simp (maxDischargeDepth := 60) only [hC, State.onSave_held, ite_held]
theorem execSaveRelease_held {r0 : State} (s : State) (hC : Held r0 s) : HeldO r0 (execSaveRelease s) := by
  unfold execSaveRelease
  simp (maxDischargeDepth := 60) only [hC, releaseOp_held, heldO_next, iteO_held]
theorem powerDownOp_held {r0 : State} (s : State) (hC : Held r0 s) : Held r0 (powerDownOp s) := by
  unfold powerDownOp
  simp (maxDischargeDepth := 60) only [hC, State.onSave_held, powerDownTo_held, ite_held]
theorem execPowerDownCommand_held {r0 : State} (s : State) (hC : Held r0 s) : HeldO r0 (execPowerDownCommand s) :=
    by
  unfold execPowerDownCommand
  simp (maxDischargeDepth := 60) only [hC, finish_held, powerDownOp_held, heldO_next, iteO_held]
theorem execPwrfailNAssert_held {r0 : State} (ns : Nat) (s : State) (hC : Held r0 s) : HeldO r0 (execPwrfailNAssert
    ns s) := by
  unfold execPwrfailNAssert
  simp (maxDischargeDepth := 60) only [hC, State.onSave_held, finish_held, startHeld_held, trigger_held,
      heldO_next, iteO_held]
theorem noSaveDown_held {r0 : State} (s : State) (hC : Held r0 s) : Held r0 (noSaveDown s) := by
  unfold noSaveDown
  simp (maxDischargeDepth := 60) only [hC, powerDownDark_held, ite_held]
theorem execVinSenseFall_held {r0 : State} (s : State) (hC : Held r0 s) : HeldO r0 (execVinSenseFall s) := by
  unfold execVinSenseFall
  simp (maxDischargeDepth := 60) only [hC, State.onSeq_held, chargeCheck_held, finish_held, noSaveDown_held,
      trigger_held, heldO_next, iteO_held]
theorem execVinSenseRise_held {r0 : State} (s : State) (hC : Held r0 s) : HeldO r0 (execVinSenseRise s) := by
  unfold execVinSenseRise
  simp (maxDischargeDepth := 60) only [hC, State.onSeq_held, chargeCheck_held, finish_held, heldO_next, iteO_held]

/-! ## Sequencer -/

theorem clearGaugeFaults_held {r0 : State} (s : State) (hC : Held r0 s) : Held r0 (clearGaugeFaults s) := by
  unfold clearGaugeFaults
  simp (maxDischargeDepth := 60) only [hC, clearReason_held]
theorem startCore_held {r0 : State} (s : State) (hC : Held r0 s) : Held r0 (startCore s) := by
  unfold startCore
  simp (maxDischargeDepth := 60) only [hC, State.onBoot_held, State.onClk_held, State.onFlash_held,
      State.onSeq_held, State.onWl_held, chooseImage_held, clearGaugeFaults_held, enterFreeze_held, ite_held]
theorem startLink_held {r0 : State} (s : State) (hC : Held r0 s) : Held r0 (startLink s) := by
  unfold startLink
  simp (maxDischargeDepth := 60) only [hC, State.onHost_held]
theorem startState_held {r0 : State} (k : SeqSt) (s : State) (hC : Held r0 s) : Held r0 (startState k s) := by
  unfold startState
  (repeat' split) <;> simp (maxDischargeDepth := 60) only [hC, State.onSeq_held, State.onUpd_held,
      flushCounts_held, startCore_held, startLink_held]
theorem loadKey_held {r0 : State} (s : State) (hC : Held r0 s) : Held r0 (loadKey s) := by
  unfold loadKey
  simp (maxDischargeDepth := 60) only [hC, State.onFlash_held]
theorem readMarks_held {r0 : State} (d : Nat) (s : State) (hC : Held r0 s) : Held r0 (readMarks d s) := by
  unfold readMarks
  simp (maxDischargeDepth := 60) only [hC, State.onFlash_held]
theorem sizePools_held {r0 : State} (s : State) (hC : Held r0 s) : Held r0 (sizePools s) := by
  unfold sizePools
  simp (maxDischargeDepth := 60) only [hC, State.onFlash_held]
theorem reviveDies_held {r0 : State} (s : State) (hC : Held r0 s) : Held r0 (reviveDies s) := by
  unfold reviveDies
  simp (maxDischargeDepth := 60) only [hC, State.onFlash_held, ite_held]
theorem sizeLakebed_held {r0 : State} (s : State) (hC : Held r0 s) : Held r0 (sizeLakebed s) := by
  unfold sizeLakebed
  simp (maxDischargeDepth := 60) only [hC, State.onLake_held, record_held, free_held, ite_held]
theorem identifyFlash_held {r0 : State} (s : State) (hC : Held r0 s) : Held r0 (identifyFlash s) := by
  unfold identifyFlash
  simp_all (maxDischargeDepth := 60) [State.onFlash_held, loadKey_held, readMarks_held, retireDie_held,
      reviveDies_held, sizeLakebed_held, sizePools_held, ite_held, held_foldl]
theorem completeState_held {r0 : State} (s : State) (hC : Held r0 s) : Held r0 (completeState s) := by
  unfold completeState
  simp (maxDischargeDepth := 60) only [hC, State.onDram_held, State.onFlash_held, State.onSeq_held,
      identifyFlash_held, ite_held]
theorem execRailOnDelay_held {r0 : State} (n : Fin 16) (s : State) (hC : Held r0 s) : HeldO r0 (execRailOnDelay n
    s) := by
  unfold execRailOnDelay
  simp (maxDischargeDepth := 60) only [hC, railEnable_held, heldO_next, iteO_held]
theorem vmonSample_held {r0 : State} (n : Nat) (code : BitVec 12) (s : State) (hC : Held r0 s) : Held r0
    (vmonSample n code s) := by
  unfold vmonSample
  simp (maxDischargeDepth := 60) only [hC, onRail_held]
theorem sampleRails_held {r0 : State} (s : State) (hC : Held r0 s) : Held r0 (sampleRails s) := by
  unfold sampleRails
  simp_all (maxDischargeDepth := 60) [vmonSample_held, free_held, held_foldl]
theorem sampleCatch_held {r0 : State} (s : State) (hC : Held r0 s) : Held r0 (sampleCatch s) := by
  unfold sampleCatch
  simp (maxDischargeDepth := 60) only [hC, State.onSeq_held, free_held]
theorem sampleStep_held {r0 : State} (before : Nat) (s : State) (hC : Held r0 s) : Held r0 (sampleStep before s) :=
    by
  unfold sampleStep
  simp (maxDischargeDepth := 60) only [hC, sampleCatch_held, sampleRails_held, ite_held]
theorem execRailRisen_held {r0 : State} (n : Fin 16) (code : BitVec 12) (s : State) (hC : Held r0 s) : HeldO r0
    (execRailRisen n code s) := by
  unfold execRailRisen
  simp (maxDischargeDepth := 60) only [hC, completeState_held, finish_held, onRail_held, vmonSample_held,
      heldO_next, iteO_held]
theorem execStateCompleteNoRail_held {r0 : State} (s : State) (hC : Held r0 s) : HeldO r0 (execStateCompleteNoRail
    s) := by
  unfold execStateCompleteNoRail
  simp (maxDischargeDepth := 60) only [hC, completeState_held, finish_held, heldO_next, iteO_held]
theorem execResetStretchEnd_held {r0 : State} (flash : Bool) (s : State) (hC : Held r0 s) : HeldO r0
    (execResetStretchEnd flash s) := by
  unfold execResetStretchEnd
  simp (maxDischargeDepth := 60) only [hC, State.onFlash_held, State.onSeq_held, heldO_next, iteO_held, ite_held]
theorem toAux_held {r0 : State} (s : State) (hC : Held r0 s) : Held r0 (toAux s) := by
  unfold toAux
  simp (maxDischargeDepth := 60) only [hC, State.onSeq_held, clearGaugeFaults_held, enterAux_held]
theorem execVddAonValid_held {r0 : State} (s : State) (hC : Held r0 s) : HeldO r0 (execVddAonValid s) := by
  unfold execVddAonValid
  simp (maxDischargeDepth := 60) only [hC, State.onBoot_held, State.onSeq_held, State.onWl_held, raiseCall_held,
      toAux_held, heldO_next, iteO_held, ite_held]
theorem execStrapSample_held {r0 : State} (lane : BitVec 6) (headmode boathouseN testmodeN : Bool) (s : State) (hC
    : Held r0 s) : HeldO r0 (execStrapSample lane headmode boathouseN testmodeN s) := by
  unfold execStrapSample
  simp (maxDischargeDepth := 60) only [hC, State.onBoot_held, State.onBus_held, heldO_next, iteO_held]
theorem execMinimumDarkTime_held {r0 : State} (s : State) (hC : Held r0 s) : HeldO r0 (execMinimumDarkTime s) := by
  unfold execMinimumDarkTime
  simp (maxDischargeDepth := 60) only [hC, toAux_held, heldO_next, iteO_held]
theorem readDescriptor_held {r0 : State} (intact : Bool) (s : State) (hC : Held r0 s) : Held r0 (readDescriptor
    intact s) := by
  unfold readDescriptor
  (repeat' split) <;> simp (maxDischargeDepth := 60) only [hC, State.onBat_held, afterPack_held,
      descriptorCheck_held, packChange_held, ite_held]
theorem profileOp_held {r0 : State} (found : ProfileIn) (s : State) (hC : Held r0 s) : Held r0 (profileOp found s)
    := by
  unfold profileOp
  simp (maxDischargeDepth := 60) only [hC, State.onBoot_held, State.onOd_held, State.onSeq_held,
      readDescriptor_held, recordFree_held, takeHeadUnits_held, ite_held]
theorem execBoardProfileRead_held {r0 : State} (found : ProfileIn) (s : State) (hC : Held r0 s) : HeldO r0
    (execBoardProfileRead found s) := by
  unfold execBoardProfileRead
  simp (maxDischargeDepth := 60) only [hC, applyPorts_held, profileOp_held, heldO_next, iteO_held]
theorem execBoardProfileRetry_held {r0 : State} (found : ProfileIn) (s : State) (hC : Held r0 s) : HeldO r0
    (execBoardProfileRetry found s) := by
  unfold execBoardProfileRetry
  simp (maxDischargeDepth := 60) only [hC, applyPorts_held, profileOp_held, heldO_next, iteO_held]
theorem execAuxReady_held {r0 : State} (s : State) (hC : Held r0 s) : HeldO r0 (execAuxReady s) := by
  unfold execAuxReady
  simp (maxDischargeDepth := 60) only [hC, State.onSeq_held, heldO_next, iteO_held]
theorem execCatchPulseEnd_held {r0 : State} (s : State) (hC : Held r0 s) : HeldO r0 (execCatchPulseEnd s) := by
  unfold execCatchPulseEnd
  simp (maxDischargeDepth := 60) only [hC, State.onSeq_held, heldO_next, iteO_held]
theorem execMainPowerAbsentTimeout_held {r0 : State} (s : State) (hC : Held r0 s) : HeldO r0
    (execMainPowerAbsentTimeout s) := by
  unfold execMainPowerAbsentTimeout
  simp (maxDischargeDepth := 60) only [hC, State.onSeq_held, heldO_next, iteO_held]
theorem execCatchRisingEdge_held {r0 : State} (s : State) (hC : Held r0 s) : HeldO r0 (execCatchRisingEdge s) := by
  unfold execCatchRisingEdge
  simp (maxDischargeDepth := 60) only [hC, State.onSeq_held, finish_held, startState_held, heldO_next, iteO_held]
theorem execLaneStaggerExpiry_held {r0 : State} (s : State) (hC : Held r0 s) : HeldO r0 (execLaneStaggerExpiry s)
    := by
  unfold execLaneStaggerExpiry
  simp (maxDischargeDepth := 60) only [hC, finish_held, startState_held, heldO_next, iteO_held]
theorem execCatchResync_held {r0 : State} (s : State) (hC : Held r0 s) : HeldO r0 (execCatchResync s) := by
  unfold execCatchResync
  simp (maxDischargeDepth := 60) only [hC, State.onSeq_held, finish_held, powerDownDark_held, record_held,
      heldO_next, iteO_held]
theorem execCatchGlitch_held {r0 : State} (s : State) (hC : Held r0 s) : HeldO r0 (execCatchGlitch s) := by
  unfold execCatchGlitch
  simp (maxDischargeDepth := 60) only [hC, State.onSeq_held, heldO_next, iteO_held]
theorem execStepLimitWait_held {r0 : State} (s : State) (hC : Held r0 s) : HeldO r0 (execStepLimitWait s) := by
  unfold execStepLimitWait
  simp (maxDischargeDepth := 60) only [hC, State.onSeq_held, record_held, heldO_next, iteO_held]
theorem execRailOffDelay_held {r0 : State} (n : Fin 16) (s : State) (hC : Held r0 s) : HeldO r0 (execRailOffDelay n
    s) := by
  unfold execRailOffDelay
  simp (maxDischargeDepth := 60) only [hC, railDisable_held, heldO_next, iteO_held]
theorem assertResets_held {r0 : State} (k : Nat) (s : State) (hC : Held r0 s) : Held r0 (assertResets k s) := by
  unfold assertResets
  simp (maxDischargeDepth := 60) only [hC, State.onFlash_held, State.onSeq_held]
theorem reverseNext_held {r0 : State} (s : State) (hC : Held r0 s) : Held r0 (reverseNext s) := by
  unfold reverseNext
  (repeat' split) <;> simp (maxDischargeDepth := 60) only [hC, assertResets_held, enterDark_held, flushCounts_held,
      railDisable_held]
theorem railGone_held {r0 : State} (n : Nat) (s : State) (hC : Held r0 s) : Held r0 (railGone n s) := by
  unfold railGone
  simp (maxDischargeDepth := 60) only [hC, descend_held, onRail_held, reverseNext_held, ite_held]
theorem execRailFallen_held {r0 : State} (n : Fin 16) (code : BitVec 12) (s : State) (hC : Held r0 s) : HeldO r0
    (execRailFallen n code s) := by
  unfold execRailFallen
  simp (maxDischargeDepth := 60) only [hC, finish_held, onRail_held, railGone_held, vmonSample_held, heldO_next,
      iteO_held]
theorem execFallTimeout_held {r0 : State} (n : Fin 16) (s : State) (hC : Held r0 s) : HeldO r0 (execFallTimeout n
    s) := by
  unfold execFallTimeout
  simp (maxDischargeDepth := 60) only [hC, finish_held, onRail_held, railGone_held, record_held, free_held,
      heldO_next, iteO_held]
theorem execRiseTimeout_held {r0 : State} (n : Fin 16) (s : State) (hC : Held r0 s) : HeldO r0 (execRiseTimeout n
    s) := by
  unfold execRiseTimeout
  simp (maxDischargeDepth := 60) only [hC, State.onSeq_held, finish_held, onRail_held, record_held,
      reverseNext_held, setLatch_held, heldO_next, iteO_held]
theorem holdInAux_held {r0 : State} (s : State) (hC : Held r0 s) : Held r0 (holdInAux s) := by
  unfold holdInAux
  simp (maxDischargeDepth := 60) only [hC, State.onSeq_held]
theorem criticalWarning_held {r0 : State} (s : State) (hC : Held r0 s) : Held r0 (criticalWarning s) := by
  unfold criticalWarning
  simp (maxDischargeDepth := 60) only [hC, holdInAux_held, powerDownTo_held, trigger_held, ite_held]
theorem execRailWarning_held {r0 : State} (n : Fin 16) (ov : Bool) (code : BitVec 12) (s : State) (hC : Held r0 s)
    : HeldO r0 (execRailWarning n ov code s) := by
  unfold execRailWarning
  simp (maxDischargeDepth := 60) only [hC, criticalWarning_held, finish_held, onRail_held, record_held,
      vmonSample_held, heldO_next, iteO_held, ite_held]
theorem markCut_held {r0 : State} (n : Nat) (s : State) (hC : Held r0 s) : Held r0 (markCut n s) := by
  unfold markCut
  simp (maxDischargeDepth := 60) only [hC, State.onSeq_held]
theorem secondFault_held {r0 : State} (n : Nat) (m : CutMark) (s : State) (hC : Held r0 s) : Held r0 (secondFault n
    m s) := by
  unfold secondFault
  simp (maxDischargeDepth := 60) only [hC, State.onBoot_held, State.onSeq_held, onRail_held]
theorem faultCut_held {r0 : State} (n : Nat) (s : State) (hC : Held r0 s) : Held r0 (faultCut n s) := by
  unfold faultCut
  simp (maxDischargeDepth := 60) only [hC, cutRails_held, dropLedgerHold_held, gaspAny_held, markCut_held,
      setLatch_held, ite_held]
theorem execRailFault_held {r0 : State} (n : Fin 16) (kind : RailFaultKind) (code : BitVec 12) (s : State) (hC :
    Held r0 s) : HeldO r0 (execRailFault n kind code s) := by
  unfold execRailFault
  dsimp only
  (repeat' split) <;> simp (maxDischargeDepth := 60) only [hC, cutRails_held, faultCut_held, finish_held,
      onRail_held, record_held, secondFault_held, setLatch_held, vmonSample_held, heldO_next]
theorem execRailEvalResume_held {r0 : State} (s : State) (hC : Held r0 s) : HeldO r0 (execRailEvalResume s) := by
  unfold execRailEvalResume
  simp (maxDischargeDepth := 60) only [hC, State.onSeq_held, heldO_next, iteO_held]
theorem execJunctionTemperature_held {r0 : State} (celsius : Int) (s : State) (hC : Held r0 s) : HeldO r0
    (execJunctionTemperature celsius s) := by
  unfold execJunctionTemperature
  simp (maxDischargeDepth := 60) only [hC, State.onCxl_held, finish_held, halve_held, raise_held, recordFree_held,
      heldO_next, iteO_held, ite_held]
theorem offOp_held {r0 : State} (s : State) (hC : Held r0 s) : Held r0 (offOp s).2 := by
  unfold offOp
  simp (maxDischargeDepth := 60) only [hC, State.onSeq_held, beginShutdown_held, holdInAux_held, powerDownTo_held,
      ite2_held]
theorem execOffCommand_held {r0 : State} (p : Path) (s : State) (hC : Held r0 s) : HeldO r0 (execOffCommand p s) :=
    by
  unfold execOffCommand
  simp (maxDischargeDepth := 60) only [hC, finish_held, offOp_held, serve_held, turnAway_held, heldO_next,
      iteO_held]
theorem onOp_held {r0 : State} (s : State) (hC : Held r0 s) : Held r0 (onOp s).2 := by
  unfold onOp
  simp (maxDischargeDepth := 60) only [hC, State.onSeq_held, ite2_held]
theorem execOnCommand_held {r0 : State} (p : Path) (s : State) (hC : Held r0 s) : HeldO r0 (execOnCommand p s) := by
  unfold execOnCommand
  simp (maxDischargeDepth := 60) only [hC, finish_held, notInBoathouse_held, onOp_held, serve_held, turnAway_held,
      heldO_next, iteO_held]
theorem latchClearOp_held {r0 : State} (s : State) (hC : Held r0 s) : Held r0 (latchClearOp s) := by
  unfold latchClearOp
  simp (maxDischargeDepth := 60) only [hC, State.onBoot_held, State.onSeq_held, latchRecord_held, onPort_held,
      toAux_held, ite_held]
theorem latchWrite_held {r0 : State} (v : Byte) (s : State) (hC : Held r0 s) : Held r0 (latchWrite v s).2 := by
  unfold latchWrite
  simp (maxDischargeDepth := 60) only [hC, latchClearOp_held, ite2_held]
theorem execLatchClear_held {r0 : State} (p : Path) (v : Byte) (s : State) (hC : Held r0 s) : HeldO r0
    (execLatchClear p v s) := by
  unfold execLatchClear
  simp (maxDischargeDepth := 60) only [hC, finish_held, latchWrite_held, notInBoathouse_held, serve_held,
      turnAway_held, heldO_next, iteO_held]
theorem execCleanShutdownDrained_held {r0 : State} (s : State) (hC : Held r0 s) : HeldO r0
    (execCleanShutdownDrained s) := by
  unfold execCleanShutdownDrained
  (repeat' split) <;> simp (maxDischargeDepth := 60) only [hC, State.onSeq_held, checkpointOp_held, finish_held,
      heldO_next]
theorem execShutdownClean_held {r0 : State} (s : State) (hC : Held r0 s) : HeldO r0 (execShutdownClean s) := by
  unfold execShutdownClean
  simp (maxDischargeDepth := 60) only [hC, commit_held, finish_held, powerDownTo_held, heldO_next, iteO_held]
theorem execFailedBoot_held {r0 : State} (cause : BootFail) (s : State) (hC : Held r0 s) : HeldO r0 (execFailedBoot
    cause s) := by
  unfold execFailedBoot
  simp (maxDischargeDepth := 60) only [hC, State.onBoot_held, bootWrite_held, finish_held, powerDownDark_held,
      recordFree_held, trialStops_held, heldO_next, iteO_held, ite_held]

/-! ## Dram -/

theorem resetFault_held {r0 : State} (ch : Nat) (cause : ResetCause) (s : State) (hC : Held r0 s) : Held r0
    (resetFault ch cause s) := by
  unfold resetFault
  (repeat' split) <;> simp (maxDischargeDepth := 60) only [hC, raise_held, free_held]
theorem execBlockReset_held {r0 : State} (ch : Fin 8) (cause : ResetCause) (s : State) (hC : Held r0 s) : HeldO r0
    (execBlockReset ch cause s) := by
  unfold execBlockReset
  simp (maxDischargeDepth := 60) only [hC, finish_held, resetFault_held, heldO_next, iteO_held]
theorem oarReloadDram_held {r0 : State} (ch : Nat) (s : State) (hC : Held r0 s) : Held r0 (oarReloadDram ch s) := by
  unfold oarReloadDram
  simp (maxDischargeDepth := 60) only [hC, onCh_held]
theorem execDramOarReload_held {r0 : State} (_crew : Crew) (ch : Fin 8) (s : State) (hC : Held r0 s) : HeldO r0
    (execDramOarReload _crew ch s) := by
  unfold execDramOarReload
  simp (maxDischargeDepth := 60) only [hC, oarReloadDram_held, heldO_next, iteO_held]
theorem admitReset_held {r0 : State} (ch : Nat) (s : State) (hC : Held r0 s) : Held r0 (admitReset ch s) := by
  unfold admitReset
  simp_all (maxDischargeDepth := 60) [State.onWb_held, say_held, ite_held, held_foldl]
theorem testWaiting_held {r0 : State} (ch n : Nat) (s : State) (hC : Held r0 s) : Held r0 (testWaiting ch n s) := by
  induction n generalizing s with
  | zero => exact hC
  | succ n ih =>
    unfold testWaiting
    split
    · exact hC
    · exact ih _ (testOrWait_held _ _ _ hC)
theorem endBlockReset_held {r0 : State} (ch us : Nat) (s : State) (hC : Held r0 s) : Held r0 (endBlockReset ch us
    s) := by
  unfold endBlockReset
  simp (maxDischargeDepth := 60) only [hC, admitReset_held, flush_held, onCh_held, release_held, shadowDone_held,
      testWaiting_held, tryFreeze_held, wakeJobs_held, ite_held]
theorem execBlockResetDone_held {r0 : State} (ch : Fin 8) (us : Nat) (ok : Bool) (s : State) (hC : Held r0 s) :
    HeldO r0 (execBlockResetDone ch us ok s) := by
  unfold execBlockResetDone
  simp (maxDischargeDepth := 60) only [hC, endBlockReset_held, finish_held, isolate_held, heldO_next, iteO_held]
theorem execChannelIsolated_held {r0 : State} (ch : Fin 8) (s : State) (hC : Held r0 s) : HeldO r0
    (execChannelIsolated ch s) := by
  unfold execChannelIsolated
  simp (maxDischargeDepth := 60) only [hC, commit_held, finish_held, onCh_held, heldO_next, iteO_held]
theorem execDdrAlert_held {r0 : State} (ch : Fin 8) (sub : Fin 2) (kind : AlertKind) (failures : Nat) (s : State)
    (hC : Held r0 s) : HeldO r0 (execDdrAlert ch sub kind failures s) := by
  unfold execDdrAlert
  (repeat' split) <;> simp (maxDischargeDepth := 60) only [hC, finish_held, raise_held, resetFault_held, free_held,
      heldO_next]
theorem repairLine_held {r0 : State} (line : Nat) (u : FlashUnit) (s : State) (hC : Held r0 s) : Held r0
    (repairLine line u s) := by
  unfold repairLine
  simp (maxDischargeDepth := 60) only [hC, onCh_held, raise_held, setPoison_held, writeBytes_held, free_held]
theorem repairFails_held {r0 : State} (line : Nat) (ok : Bool) (s : State) (hC : Held r0 s) : Held r0 (repairFails
    line ok s) := by
  unfold repairFails
  simp (maxDischargeDepth := 60) only [hC, uncorrectable_held, free_held, ite_held]
theorem execLakebedRepairDone_held {r0 : State} (line : Nat) (ok : Bool) (s : State) (hC : Held r0 s) : HeldO r0
    (execLakebedRepairDone line ok s) := by
  unfold execLakebedRepairDone
  (repeat' split) <;> simp (maxDischargeDepth := 60) only [hC, finish_held, release_held, repairFails_held,
      repairLine_held, heldO_next]
theorem execRepairReadTimeout_held {r0 : State} (id : Nat) (s : State) (hC : Held r0 s) : HeldO r0
    (execRepairReadTimeout id s) := by
  unfold execRepairReadTimeout
  (repeat' split) <;> simp (maxDischargeDepth := 60) only [hC, State.onWb_held, answerPoison_held, finish_held,
      heldO_next]
theorem execRefreshTick_held {r0 : State} (ch : Fin 8) (s : State) (hC : Held r0 s) : HeldO r0 (execRefreshTick ch
    s) := by
  unfold execRefreshTick
  simp (maxDischargeDepth := 60) only [hC, onCh_held, free_held, heldO_next, iteO_held]
theorem execZqCalibration_held {r0 : State} (ch : Fin 8) (s : State) (hC : Held r0 s) : HeldO r0 (execZqCalibration
    ch s) := by
  unfold execZqCalibration
  simp (maxDischargeDepth := 60) only [hC, onCh_held, heldO_next, iteO_held]
theorem execDqsTracking_held {r0 : State} (ch : Fin 8) (s : State) (hC : Held r0 s) : HeldO r0 (execDqsTracking ch
    s) := by
  unfold execDqsTracking
  simp (maxDischargeDepth := 60) only [hC, onCh_held, heldO_next, iteO_held]
theorem execDramTemperatureRead_held {r0 : State} (ch : Fin 8) (maxC : Int) (s : State) (hC : Held r0 s) : HeldO r0
    (execDramTemperatureRead ch maxC s) := by
  unfold execDramTemperatureRead
  simp (maxDischargeDepth := 60) only [hC, finish_held, onCh_held, record_held, heldO_next, iteO_held]
theorem execPatrolScrub_held {r0 : State} (ch : Fin 8) (line : Nat) (res : DramRead) (s : State) (hC : Held r0 s) :
    HeldO r0 (execPatrolScrub ch line res s) := by
  unfold execPatrolScrub
  simp (maxDischargeDepth := 60) only [hC, finish_held, onCh_held, scrubLine_held, heldO_next, iteO_held]
theorem fullPass_held {r0 : State} (ch : Nat) (s : State) (hC : Held r0 s) : Held r0 (fullPass ch s) := by
  unfold fullPass
  simp (maxDischargeDepth := 60) only [hC, commitOp_held, onCh_held, ite_held]
theorem fullFail_held {r0 : State} (ch : Nat) (s : State) (hC : Held r0 s) : Held r0 (fullFail ch s) := by
  unfold fullFail
  simp (maxDischargeDepth := 60) only [hC, onCh_held]
theorem execTrainingDone_held {r0 : State} (ch : Fin 8) (stored pass : Bool) (s : State) (hC : Held r0 s) : HeldO
    r0 (execTrainingDone ch stored pass s) := by
  unfold execTrainingDone
  simp (maxDischargeDepth := 60) only [hC, finish_held, fullFail_held, fullPass_held, onCh_held, heldO_next,
      iteO_held, ite_held]

/-! ## Restore -/

theorem refReturn_held {r0 : State} (s : State) (hC : Held r0 s) : Held r0 (refReturn s) := by
  unfold refReturn
  simp (maxDischargeDepth := 60) only [hC, State.onClk_held, ite_held]
theorem failRestore_held {r0 : State} (s : State) (hC : Held r0 s) : Held r0 (failRestore s) := by
  unfold failRestore
  simp (maxDischargeDepth := 60) only [hC, State.onCxl_held, State.onRst_held, record_held, refReturn_held,
      vector_held]
theorem execRestoreBegin_held {r0 : State} (tailOk : Bool) (s : State) (hC : Held r0 s) : HeldO r0
    (execRestoreBegin tailOk s) := by
  unfold execRestoreBegin
  simp (maxDischargeDepth := 60) only [hC, State.onBoot_held, State.onRst_held, failRestore_held, finish_held,
      vector_held, heldO_next, iteO_held]
theorem execRestoreStarted_held {r0 : State} (s : State) (hC : Held r0 s) : HeldO r0 (execRestoreStarted s) := by
  unfold execRestoreStarted
  simp (maxDischargeDepth := 60) only [hC, State.onRst_held, commit_held, finish_held, record_held, heldO_next,
      iteO_held]
theorem execRestoreMetadataLoaded_held {r0 : State} (found : MetaIn) (s : State) (hC : Held r0 s) : HeldO r0
    (execRestoreMetadataLoaded found s) := by
  unfold execRestoreMetadataLoaded
  simp (maxDischargeDepth := 60) only [hC, State.onLake_held, State.onRst_held, failRestore_held, finish_held,
      heldO_next, iteO_held]
theorem loseResidue_held {r0 : State} (im : BasinImage) (page slot : Nat) (why : LostReason) (s : State) (hC : Held
    r0 s) : Held r0 (loseResidue im page slot why s) := by
  unfold loseResidue
  simp (maxDischargeDepth := 60) only [hC, lowerElost_held, markLost_held]
theorem convertEntry_held {r0 : State} (im : BasinImage) (c : Cursor) (s : State) (x : Nat × PageEntry) (hC : Held
    r0 s) : Held r0 (convertEntry im c s x) := by
  unfold convertEntry
  (repeat' split) <;> simp (maxDischargeDepth := 60) only [hC, loseResidue_held, markLost_held, setPage_held]
theorem convertImage_held {r0 : State} (s : State) (hC : Held r0 s) : Held r0 (convertImage s) := by
  unfold convertImage
  (repeat' split) <;> simp_all (maxDischargeDepth := 60) [convertEntry_held, held_foldl]
theorem carryLost_held {r0 : State} (s : State) (hC : Held r0 s) : Held r0 (carryLost s) := by
  unfold carryLost
  simp_all (maxDischargeDepth := 60) [markLost_held, held_foldl]
theorem convertFromLog_held {r0 : State} (s : State) (hC : Held r0 s) : Held r0 (convertFromLog s) := by
  unfold convertFromLog
  (repeat' split) <;> simp_all (maxDischargeDepth := 60) [carryLost_held, loseResidue_held, setPage_held, ite_held,
      held_foldl]
theorem convertNoSave_held {r0 : State} (s : State) (hC : Held r0 s) : Held r0 (convertNoSave s) := by
  unfold convertNoSave
  simp_all (maxDischargeDepth := 60) [carryLost_held, lowerElost_held, markLost_held, held_foldl]
theorem convertWindow_held {r0 : State} (s : State) (hC : Held r0 s) : Held r0 (convertWindow s) := by
  unfold convertWindow
  simp_all (maxDischargeDepth := 60) [lowerElost_held, markLost_held, ite_held, held_foldl]
theorem convertBuckets_held {r0 : State} (s : State) (hC : Held r0 s) : Held r0 (convertBuckets s) := by
  unfold convertBuckets
  (repeat' split) <;> simp (maxDischargeDepth := 60) only [hC, State.onPm_held]
theorem retireLedger_held {r0 : State} (s : State) (hC : Held r0 s) : Held r0 (retireLedger s) := by
  unfold retireLedger
  simp (maxDischargeDepth := 60) only [hC, State.onLedger_held]
theorem degrade_held {r0 : State} (s : State) (hC : Held r0 s) : Held r0 (degrade s) := by
  unfold degrade
  (repeat' split) <;> simp_all (maxDischargeDepth := 60) [State.onDram_held, dropMapping_held, lowerElost_held,
      markLost_held, ite_held, held_foldl]
theorem heldMarkers_held {r0 : State} (s : State) (hC : Held r0 s) : Held r0 (heldMarkers s) := by
  unfold heldMarkers
  simp_all (maxDischargeDepth := 60) [setPoison_held, held_foldl]
theorem convert_held {r0 : State} (s : State) (hC : Held r0 s) : Held r0 (convert s) := by
  unfold convert
  refine State.onPm_held _ _ (heldMarkers_held _ (retireLedger_held _ (convertBuckets_held _ (degrade_held _
    (convertWindow_held _ ?_))))) rfl
  have h1 := State.onPm_pages_held (fun p : PageMap =>
    { p with pages := [], reasons := [], buckets := [], drains := [], drainGens := [], residue := 0 }) _
    (State.onHost_held (fun h : HostRegion => { h with
      elost := 2 ^ 64 - 1, epoch := max (epochsFound s).1 (windowEpoch s),
      settled := (epochsFound s).2, target := (epochsFound s).2 }) _ hC) rfl
  split
  · exact h1
  · exact carryLost_held _ h1
  · exact convertImage_held _ h1
  · exact convertFromLog_held _ h1
  · exact convertNoSave_held _ h1
theorem convertOp_held {r0 : State} (s : State) (hC : Held r0 s) : Held r0 (convertOp s) := by
  unfold convertOp
  simp (maxDischargeDepth := 60) only [hC, State.onRst_held, convert_held]
theorem execConversionDone_held {r0 : State} (s : State) (hC : Held r0 s) : HeldO r0 (execConversionDone s) := by
  unfold execConversionDone
  simp (maxDischargeDepth := 60) only [hC, convertOp_held, finish_held, weirCheck_held, heldO_next, iteO_held]
theorem makeReady_held {r0 : State} (early : Bool) (s : State) (hC : Held r0 s) : Held r0 (makeReady early s) := by
  unfold makeReady
  simp (maxDischargeDepth := 60) only [hC, State.onBoot_held, State.onRst_held, vector_held, ite_held]
theorem writeStubs_held {r0 : State} (s : State) (hC : Held r0 s) : Held r0 (writeStubs s) := by
  unfold writeStubs
  refine held_foldl (fun s p h => ?_) _ _ hC
  split
  · exact writeBytes_held _ _ _ h
  · exact h
theorem execEarlyOpenPoint_held {r0 : State} (s : State) (hC : Held r0 s) : HeldO r0 (execEarlyOpenPoint s) := by
  unfold execEarlyOpenPoint
  simp (maxDischargeDepth := 60) only [hC, State.onRst_held, finish_held, makeReady_held, writeStubs_held,
      heldO_next, iteO_held, ite_held]
theorem execMemoryReady_held {r0 : State} (s : State) (hC : Held r0 s) : HeldO r0 (execMemoryReady s) := by
  unfold execMemoryReady
  simp (maxDischargeDepth := 60) only [hC, commit_held, finish_held, record_held, heldO_next, iteO_held]
theorem loadUnit_held {r0 : State} (page : Nat) (u : FlashUnit) (s : State) (hC : Held r0 s) :
    Held r0 (loadUnit page u s) := by
  unfold loadUnit
  dsimp only
  refine held_foldl (fun s l h => setPoison_held _ _ _ h) _ _ (held_foldl (fun s c h => writeByte_held _ _ _ h) _ _ ?_)
  exact State.onDram_bytes_held _ _ hC (tabWf_filter _ _ hC.tables.bytes) rfl
theorem basinFailed_held {r0 : State} (page : Nat) (u : FlashUnit) (s : State) (hC : Held r0 s) : Held r0
    (basinFailed page u s) := by
  unfold basinFailed
  dsimp only
  (repeat' split) <;> simp (maxDischargeDepth := 60) only [hC, onFl_held, retireBlock_held]
theorem sourceFailed_held {r0 : State} (page : Nat) (s : State) (hC : Held r0 s) : Held r0 (sourceFailed page s) :=
    by
  unfold sourceFailed
  (repeat' split) <;> simp (maxDischargeDepth := 60) only [hC, basinFailed_held, unitFailed_held]
theorem fillPage_held {r0 : State} (fails : List Nat) (page : Nat) (s : State) (hC : Held r0 s) : Held r0 (fillPage
    fails page s) := by
  unfold fillPage
  (repeat' split) <;> simp (maxDischargeDepth := 60) only [hC, loadUnit_held, mediaLost_held, sourceFailed_held]
theorem writeErrors_held {r0 : State} (pages : List Nat) (lines : List (Nat × DramRead)) (s : State) (hC : Held r0
    s) : Held r0 (writeErrors pages lines s) := by
  unfold writeErrors
  simp_all (maxDischargeDepth := 60) [dramLine_held, held_foldl]
theorem execLakebedFillDone_held {r0 : State} (failed : FillErrors) (s : State) (hC : Held r0 s) : HeldO r0
    (execLakebedFillDone failed s) := by
  unfold execLakebedFillDone
  simp_all (maxDischargeDepth := 60) [State.onRst_held, fillPage_held, finish_held, writeErrors_held, iteO_held,
      heldO_next, held_foldl]
theorem execBasinOverlayDone_held {r0 : State} (failed : FillErrors) (s : State) (hC : Held r0 s) : HeldO r0
    (execBasinOverlayDone failed s) := by
  unfold execBasinOverlayDone
  simp_all (maxDischargeDepth := 60) [State.onLog_held, State.onRst_held, fillPage_held, finish_held,
      writeErrors_held, iteO_held, heldO_next, held_foldl]
theorem dropFetchJobs_held {r0 : State} (page : Nat) (s : State) (hC : Held r0 s) : Held r0 (dropFetchJobs page s)
    := by
  unfold dropFetchJobs
  simp (maxDischargeDepth := 60) only [hC, State.onFlash_held]
theorem execDemandFetchDone_held {r0 : State} (page : Nat) (res : FetchRes) (us : Nat) (s : State) (hC : Held r0 s)
    : HeldO r0 (execDemandFetchDone page res us s) := by
  unfold execDemandFetchDone
  simp (maxDischargeDepth := 60) only [hC, State.onRst_held, dropFetchJobs_held, fillPage_held, finish_held,
      release_held, releaseWrites_held, setRestored_held, writeErrors_held, heldO_next, iteO_held, ite_held]
theorem retireIdle_held {r0 : State} (s : State) (hC : Held r0 s) : Held r0 (retireIdle s) := by
  unfold retireIdle
  simp (maxDischargeDepth := 60) only [hC, State.onPm_held, retireLedger_held, ite_held]
theorem restoredOp_held {r0 : State} (s : State) (hC : Held r0 s) : Held r0 (restoredOp s) := by
  unfold restoredOp
  simp (maxDischargeDepth := 60) only [hC, State.onBasin_held, State.onBoot_held, State.onCxl_held,
      State.onHost_held, State.onLog_held, State.onRst_held, beginShutdown_held, bootWrite_held, commit_held,
      gcCheck_held, makeReady_held, record_held, redrainRetired_held, refReturn_held, retireIdle_held, sprintCheck_held, vector_held,
      ite_held]
theorem execRestored_held {r0 : State} (s : State) (hC : Held r0 s) : HeldO r0 (execRestored s) := by
  unfold execRestored
  simp (maxDischargeDepth := 60) only [hC, finish_held, restoredOp_held, heldO_next, iteO_held]
theorem execBasinErased_held {r0 : State} (s : State) (hC : Held r0 s) : HeldO r0 (execBasinErased s) := by
  unfold execBasinErased
  simp (maxDischargeDepth := 60) only [hC, State.onBasin_held, State.onRst_held, commit_held, finish_held,
      sprintCheck_held, heldO_next, iteO_held]
theorem execRestoreInterrupted_held {r0 : State} (s : State) (hC : Held r0 s) : HeldO r0 (execRestoreInterrupted s)
    := by
  unfold execRestoreInterrupted
  simp (maxDischargeDepth := 60) only [hC, cutRails_held, dropLedgerHold_held, finish_held, flushCounts_held,
      windowCommit_held, heldO_next, iteO_held]
theorem restoreModeOp_held {r0 : State} (v : Nat) (s : State) (hC : Held r0 s) : Held r0 (restoreModeOp v s) := by
  unfold restoreModeOp
  simp (maxDischargeDepth := 60) only [hC, State.onOd_held, State.onRst_held, makeReady_held, ite_held]

/-! ## Faults -/

theorem execFaultReport_held {r0 : State} (f : FaultIn) (s : State) (hC : Held r0 s) : HeldO r0 (execFaultReport f
    s) := by
  unfold execFaultReport
  simp (maxDischargeDepth := 60) only [hC, finish_held, reportFault_held, heldO_next, iteO_held]
theorem execGraceExpiry_held {r0 : State} (unit : MasterId) (s : State) (hC : Held r0 s) : HeldO r0
    (execGraceExpiry unit s) := by
  unfold execGraceExpiry
  simp (maxDischargeDepth := 60) only [hC, expireGrace_held, finish_held, heldO_next, iteO_held]
theorem execChpFaultAck_held {r0 : State} (faultId : BitVec 32) (master : MasterId) (s : State) (hC : Held r0 s) :
    HeldO r0 (execChpFaultAck faultId master s) := by
  unfold execChpFaultAck
  simp (maxDischargeDepth := 60) only [hC, ack_held, finish_held, heldO_next, iteO_held]
theorem ackU_held {r0 : State} (p : MasterId → Bool) (s : State) (hC : Held r0 s) : Held r0 (ackU p s) := by
  unfold ackU
  simp_all (maxDischargeDepth := 60) [ack_held, held_foldl]
theorem execRasStatusClear_held {r0 : State} (memory internal : Bool) (s : State) (hC : Held r0 s) : HeldO r0
    (execRasStatusClear memory internal s) := by
  unfold execRasStatusClear
  simp (maxDischargeDepth := 60) only [hC, State.onHost_held, ackU_held, finish_held, ite_held]
theorem portBack_held {r0 : State} (m : MasterId) (s : State) (hC : Held r0 s) : Held r0 (portBack m s) := by
  unfold portBack
  simp (maxDischargeDepth := 60) only [hC, onPort_held, ite_held]
theorem execResetShadowEnd_held {r0 : State} (unit : MasterId) (s : State) (hC : Held r0 s) : HeldO r0
    (execResetShadowEnd unit s) := by
  unfold execResetShadowEnd
  simp (maxDischargeDepth := 60) only [hC, State.onFault_held, finish_held, portBack_held, heldO_next, iteO_held]
theorem execConditionClear_held {r0 : State} (unit : MasterId) (s : State) (hC : Held r0 s) : HeldO r0
    (execConditionClear unit s) := by
  unfold execConditionClear
  simp (maxDischargeDepth := 60) only [hC, setCapture_held, heldO_next, iteO_held]
theorem ackWrite_held {r0 : State} (faultId : BitVec 32) (s : State) (hC : Held r0 s) : Held r0 (ackWrite faultId
    s).2 := by
  unfold ackWrite
  simp (maxDischargeDepth := 60) only [hC, ack_held, ite2_held]
theorem execOdAcknowledge_held {r0 : State} (p : Path) (faultId : BitVec 32) (s : State) (hC : Held r0 s) : HeldO
    r0 (execOdAcknowledge p faultId s) := by
  unfold execOdAcknowledge
  simp (maxDischargeDepth := 60) only [hC, ackWrite_held, finish_held, notInBoathouse_held, serve_held,
      turnAway_held, heldO_next, iteO_held]

/-! ## Planner -/

theorem ergoTake_held {r0 : State} (n : Nat) (e : ErgoIn) (s : State) (hC : Held r0 s) : Held r0 (ergoTake n e s)
    := by
  unfold ergoTake
  simp (maxDischargeDepth := 60) only [hC, State.onPlan_held, raise_held, ite_held]
theorem execErgometerMeasure_held {r0 : State} (readings : List ErgoIn) (s : State) (hC : Held r0 s) : HeldO r0
    (execErgometerMeasure readings s) := by
  unfold execErgometerMeasure
  simp_all (maxDischargeDepth := 60) [ergoTake_held, finish_held, iteO_held, heldO_next, held_foldl]
theorem setTarget_held {r0 : State} (mv : Nat) (s : State) (hC : Held r0 s) : Held r0 (setTarget mv s) := by
  unfold setTarget
  simp (maxDischargeDepth := 60) only [hC, State.onPlan_held]
theorem moveToGoal_held {r0 : State} (s : State) (hC : Held r0 s) : Held r0 (moveToGoal s) := by
  unfold moveToGoal
  simp (maxDischargeDepth := 60) only [hC, setTarget_held]
theorem restoreTarget_held {r0 : State} (s : State) (hC : Held r0 s) : Held r0 (restoreTarget s) := by
  unfold restoreTarget
  (repeat' split) <;> simp (maxDischargeDepth := 60) only [hC, State.onPlan_held, moveToGoal_held]
theorem stepDone_held {r0 : State} (s : State) (hC : Held r0 s) : Held r0 (stepDone s) := by
  unfold stepDone
  simp (maxDischargeDepth := 60) only [hC, State.onPlan_held, moveToGoal_held, ite_held]
theorem stepFailed_held {r0 : State} (s : State) (hC : Held r0 s) : Held r0 (stepFailed s) := by
  unfold stepFailed
  simp (maxDischargeDepth := 60) only [hC, State.onPlan_held, localFailed_held, record_held, free_held]
theorem execCoreVoltageStep_held {r0 : State} (ok : Bool) (s : State) (hC : Held r0 s) : HeldO r0
    (execCoreVoltageStep ok s) := by
  unfold execCoreVoltageStep
  simp (maxDischargeDepth := 60) only [hC, busStop_held, finish_held, stepDone_held, stepFailed_held, heldO_next,
      iteO_held, ite_held]
theorem planSets_held {r0 : State} (s : State) (hC : Held r0 s) : Held r0 (planSets s) := by
  unfold planSets
  simp (maxDischargeDepth := 60) only [hC, State.onBat_held, State.onDram_held, State.onFlash_held,
      State.onPlan_held, budgetCheck_held]
theorem endPlan_held {r0 : State} (s : State) (hC : Held r0 s) : Held r0 (endPlan s) := by
  unfold endPlan
  simp (maxDischargeDepth := 60) only [hC, State.onPlan_held, commitOp_held, recordWith_held]
theorem startPlan_held {r0 : State} (trig : Nat) (s : State) (hC : Held r0 s) : Held r0 (startPlan trig s) := by
  unfold startPlan
  simp (maxDischargeDepth := 60) only [hC, State.onPlan_held, endPlan_held, planSets_held, setTarget_held, ite_held]
theorem keepTrigger_held {r0 : State} (n : Nat) (s : State) (hC : Held r0 s) : Held r0 (keepTrigger n s) := by
  unfold keepTrigger
  simp (maxDischargeDepth := 60) only [hC, State.onPlan_held]
theorem mergeTrigger_held {r0 : State} (n : Nat) (s : State) (hC : Held r0 s) : Held r0 (mergeTrigger n s) := by
  unfold mergeTrigger
  simp (maxDischargeDepth := 60) only [hC, State.onPlan_held]
theorem planTrigger_held {r0 : State} (n : Nat) (s : State) (hC : Held r0 s) : Held r0 (planTrigger n s) := by
  unfold planTrigger
  simp (maxDischargeDepth := 60) only [hC, keepTrigger_held, mergeTrigger_held, startPlan_held, ite_held]
theorem keptPlan_held {r0 : State} (s : State) (hC : Held r0 s) : Held r0 (keptPlan s) := by
  unfold keptPlan
  (repeat' split) <;> simp (maxDischargeDepth := 60) only [hC, State.onPlan_held, startPlan_held]
theorem execPlanTrigger_held {r0 : State} (trig : PlanTrig) (s : State) (hC : Held r0 s) : HeldO r0
    (execPlanTrigger trig s) := by
  unfold execPlanTrigger
  (repeat' split) <;> simp (maxDischargeDepth := 60) only [hC, State.onPlan_held, finish_held, keptPlan_held,
      planTrigger_held, heldO_next]
theorem planWrite_held {r0 : State} (v : Byte) (s : State) (hC : Held r0 s) : Held r0 (planWrite v s).2 := by
  unfold planWrite
  simp (maxDischargeDepth := 60) only [hC, planTrigger_held, ite2_held]
theorem execPlanRequest_held {r0 : State} (p : Path) (v : Byte) (s : State) (hC : Held r0 s) : HeldO r0
    (execPlanRequest p v s) := by
  unfold execPlanRequest
  simp (maxDischargeDepth := 60) only [hC, finish_held, notInBoathouse_held, planWrite_held, serve_held,
      turnAway_held, heldO_next, iteO_held]
theorem execRampSlackCheck_held {r0 : State} (lowest : Int) (s : State) (hC : Held r0 s) : HeldO r0
    (execRampSlackCheck lowest s) := by
  unfold execRampSlackCheck
  simp (maxDischargeDepth := 60) only [hC, State.onPlan_held, endPlan_held, finish_held, keptPlan_held, heldO_next,
      iteO_held, ite_held]

end Sys2Proof.Machine
end

