-- ==== Sys2Proof/Laws/HeldControl.lean ====
section
/-! SUPPORT. `Held` through the landings, the crews, the update, the freeze and the object dictionary: one lemma an
    operation, by its callees' lemmas. -/

namespace Sys2Proof.Machine

/-! ## Landings -/

theorem onLanding_held {r0 : State} (l : Landing) (f : LandingSt → LandingSt) (s : State) (hC : Held r0 s) : Held
    r0 (onLanding l f s) := by
  unfold onLanding
  simp (maxDischargeDepth := 60) only [hC, State.onCrew_held]
theorem targetOp_held {r0 : State} (mv : Nat) (s : State) (hC : Held r0 s) : Held r0 (targetOp mv s) := by
  unfold targetOp
  simp (maxDischargeDepth := 60) only [hC, State.onPlan_held, setTarget_held]
theorem limitsRefused_held {r0 : State} (k : Copy) (s : State) (hC : Held r0 s) : Held r0 (limitsRefused k s) := by
  unfold limitsRefused
  simp (maxDischargeDepth := 60) only [hC, raise_held, free_held]
theorem execLanded_held {r0 : State} (crew : Crew) (c : Landed) (s : State) (hC : Held r0 s) : Held r0 (execLanded
    crew c s) := by
  unfold execLanded
  (repeat' split) <;> simp (maxDischargeDepth := 60) only [hC, chgCtrlOp_held, commitOp_held, completeDrainOp_held,
      completeSettle_held, failDrainOp_held, latchClearOp_held, limitsOp_held, markDrainingOp_held,
      oarReloadDram_held, oarReloadFlash_held, powerDownOp_held, publishOp_held, queueOp_held, releaseOp_held,
      stringStateOp_held, targetOp_held, walkOp_held, waterlineOp_held]
theorem executeCopy_held {r0 : State} (k : Copy) (s : State) (hC : Held r0 s) : Held r0 (executeCopy k s) := by
  unfold executeCopy
  simp (maxDischargeDepth := 60) only [hC, execLanded_held, limitsRefused_held, ite_held]
theorem setStream_held {r0 : State} (l : Landing) (x : Stream) (st : StreamSt) (s : State) (hC : Held r0 s) : Held
    r0 (setStream l x st s) := by
  unfold setStream
  simp (maxDischargeDepth := 60) only [hC, onLanding_held]
theorem crewCapture_held {r0 : State} (c : Crew) (cls : FClass) (key : BitVec 8) (by' : Nat) (parent : Option
    (BitVec 32)) (s : State) (hC : Held r0 s) : Held r0 (crewCapture c cls key by' parent s) := by
  unfold crewCapture
  simp (maxDischargeDepth := 60) only [hC, reportFault_held]
theorem streamBreak_held {r0 : State} (k : Copy) (s : State) (hC : Held r0 s) : Held r0 (streamBreak k s) := by
  unfold streamBreak
  simp (maxDischargeDepth := 60) only [hC, raise_held, free_held]
theorem duplicate_held {r0 : State} (k : Copy) (s : State) (hC : Held r0 s) : Held r0 (duplicate k s) := by
  unfold duplicate
  simp (maxDischargeDepth := 60) only [hC, crewCapture_held, onLanding_held]
theorem diverge_held {r0 : State} (k : Copy) (w : WSlot) (s : State) (hC : Held r0 s) : Held r0 (diverge k w s) :=
    by
  unfold diverge
  simp (maxDischargeDepth := 60) only [hC, chipFatal_held, crewCapture_held, executeCopy_held, onLanding_held,
      record_held, ite_held]
theorem countCompared_held {r0 : State} (s : State) (hC : Held r0 s) : Held r0 (countCompared s) := by
  unfold countCompared
  simp (maxDischargeDepth := 60) only [hC, State.onCrew_held]
theorem compareCopy_held {r0 : State} (k : Copy) (w : WSlot) (s : State) (hC : Held r0 s) : Held r0 (compareCopy k
    w s) := by
  unfold compareCopy
  simp (maxDischargeDepth := 60) only [hC, countCompared_held, diverge_held, ite_held]
theorem firstCopy_held {r0 : State} (k : Copy) (s : State) (hC : Held r0 s) : Held r0 (firstCopy k s) := by
  unfold firstCopy
  simp (maxDischargeDepth := 60) only [hC, executeCopy_held, onLanding_held, setStream_held, ite_held]
theorem secondCopy_held {r0 : State} (k : Copy) (w : WSlot) (s : State) (hC : Held r0 s) : Held r0 (secondCopy k w
    s) := by
  unfold secondCopy
  simp (maxDischargeDepth := 60) only [hC, compareCopy_held, setStream_held]
theorem waitCopy_held {r0 : State} (k : Copy) (s : State) (hC : Held r0 s) : Held r0 (waitCopy k s) := by
  unfold waitCopy
  simp (maxDischargeDepth := 60) only [hC, State.onCrew_held]
theorem placeCopy_held {r0 : State} (k : Copy) (s : State) (hC : Held r0 s) : Held r0 (placeCopy k s) := by
  unfold placeCopy
  dsimp only
  (repeat' split) <;> simp (maxDischargeDepth := 60) only [hC, duplicate_held, firstCopy_held, onLanding_held,
      secondCopy_held, setStream_held, waitCopy_held]
theorem retryCopies_held {r0 : State} (n : Nat) (s : State) (hC : Held r0 s) : Held r0 (retryCopies n s) := by
  induction n generalizing s with
  | zero => exact hC
  | succ n ih =>
    unfold retryCopies
    split
    · exact hC
    · exact ih _ (placeCopy_held _ _ (State.onCrew_held _ _ hC))
theorem arrive_held {r0 : State} (k : Copy) (s : State) (hC : Held r0 s) : Held r0 (arrive k s) := by
  unfold arrive
  simp (maxDischargeDepth := 60) only [hC, limitsRefused_held, placeCopy_held, retryCopies_held, streamBreak_held,
      ite_held]
theorem releaseLag_held {r0 : State} (n : Nat) (s : State) (hC : Held r0 s) : Held r0 (releaseLag n s) := by
  induction n generalizing s with
  | zero => exact hC
  | succ n ih =>
    unfold releaseLag
    split
    · exact hC
    · split
      · exact ih _ (arrive_held _ _ (State.onCrew_held _ _ hC))
      · exact hC
theorem releaseLagged_held {r0 : State} (s : State) (hC : Held r0 s) : Held r0 (releaseLagged s) := by
  unfold releaseLagged
  simp (maxDischargeDepth := 60) only [hC, releaseLag_held]
theorem execLandingCopy_held {r0 : State} (crew : Crew) (coxCore : Bool) (landing : Landing) (stream : Stream) (seq
    digest : BitVec 32) (cmd : Landed) (s : State) (hC : Held r0 s) : HeldO r0 (execLandingCopy crew coxCore
    landing stream seq digest cmd s) := by
  unfold execLandingCopy
  simp (maxDischargeDepth := 60) only [hC, State.onCrew_held, arrive_held, finish_held, releaseLagged_held,
      heldO_next, iteO_held]
theorem pairingOver_held {r0 : State} (l : Landing) (x : Stream) (w : WSlot) (s : State) (hC : Held r0 s) : Held r0
    (pairingOver l x w s) := by
  unfold pairingOver
  simp (maxDischargeDepth := 60) only [hC, crewCapture_held, onLanding_held, retryCopies_held, setStream_held]
theorem execPairingTimeout_held {r0 : State} (landing : Landing) (stream : Stream) (seq : BitVec 32) (s : State)
    (hC : Held r0 s) : HeldO r0 (execPairingTimeout landing stream seq s) := by
  unfold execPairingTimeout
  (repeat' split) <;> simp (maxDischargeDepth := 60) only [hC, finish_held, pairingOver_held, heldO_next]

/-! ## CrewCommands -/

theorem digestFault_held {r0 : State} (s : State) (hC : Held r0 s) : Held r0 (digestFault s) := by
  unfold digestFault
  (repeat' split) <;> simp (maxDischargeDepth := 60) only [hC, crewCapture_held]
theorem execTimerTick_held {r0 : State} (bow stroke : BitVec 32) (s : State) (hC : Held r0 s) : HeldO r0
    (execTimerTick bow stroke s) := by
  unfold execTimerTick
  simp (maxDischargeDepth := 60) only [hC, digestFault_held, fanTick_held, finish_held, onCrewUnit_held,
      resetFaulted_held, heldO_next, iteO_held, ite_held]
theorem arbitrate_held {r0 : State} (s : State) (hC : Held r0 s) : Held r0 (arbitrate s) := by
  unfold arbitrate
  simp (maxDischargeDepth := 60) only [hC, State.onCrew_held, raise_held, record_held, setSeat_held]
theorem execSeatTokenCorrupt_held {r0 : State} (found : Byte) (s : State) (hC : Held r0 s) : HeldO r0
    (execSeatTokenCorrupt found s) := by
  unfold execSeatTokenCorrupt
  simp (maxDischargeDepth := 60) only [hC, arbitrate_held, finish_held, releaseLagged_held, heldO_next, iteO_held]
theorem execHealthSecond_held {r0 : State} (crew : Crew) (s : State) (hC : Held r0 s) : HeldO r0 (execHealthSecond
    crew s) := by
  unfold execHealthSecond
  simp (maxDischargeDepth := 60) only [hC, onCrewUnit_held, heldO_next, iteO_held]
theorem startLoading_held {r0 : State} (c : Crew) (s : State) (hC : Held r0 s) : Held r0 (startLoading c s) := by
  unfold startLoading
  simp (maxDischargeDepth := 60) only [hC, onCrewUnit_held]
theorem execCrewRejoinTimer_held {r0 : State} (crew : Crew) (s : State) (hC : Held r0 s) : HeldO r0
    (execCrewRejoinTimer crew s) := by
  unfold execCrewRejoinTimer
  simp (maxDischargeDepth := 60) only [hC, resetFaulted_held, startLoading_held, heldO_next, iteO_held]
theorem firstMember_held {r0 : State} (s : State) (hC : Held r0 s) : Held r0 (firstMember s) := by
  unfold firstMember
  simp (maxDischargeDepth := 60) only [hC, State.onBoot_held, identifyFlash_held, restoreTarget_held, takeUp_held,
      ite_held]
theorem joinAlone_held {r0 : State} (c : Crew) (s : State) (hC : Held r0 s) : Held r0 (joinAlone c s) := by
  unfold joinAlone
  simp (maxDischargeDepth := 60) only [hC, becomeMember_held, firstMember_held]
theorem joinBoth_held {r0 : State} (s : State) (hC : Held r0 s) : Held r0 (joinBoth s) := by
  unfold joinBoth
  simp (maxDischargeDepth := 60) only [hC, State.onCrew_held, becomeMember_held, firstMember_held]
theorem reloadOars_held {r0 : State} (k : Fin 2) (s : State) (hC : Held r0 s) : Held r0 (reloadOars k s) := by
  unfold reloadOars
  simp (maxDischargeDepth := 60) only [hC, State.onDram_held, State.onFlash_held]
theorem rebuild_held {r0 : State} (c : Crew) (s : State) (hC : Held r0 s) : Held r0 (rebuild c s) := by
  unfold rebuild
  simp (maxDischargeDepth := 60) only [hC, State.onCrew_held, endSessions_held, joinAlone_held, loseDeltas_held,
      recompute_held, releaseSession_held, reloadOars_held]
theorem enterCatchup_held {r0 : State} (c : Crew) (s : State) (hC : Held r0 s) : Held r0 (enterCatchup c s) := by
  unfold enterCatchup
  simp (maxDischargeDepth := 60) only [hC, onCrewUnit_held]
theorem endCopy_held {r0 : State} (c : Crew) (s : State) (hC : Held r0 s) : Held r0 (endCopy c s) := by
  unfold endCopy
  simp (maxDischargeDepth := 60) only [hC, onCrewUnit_held]
theorem copyStep_held {r0 : State} (s : State) (hC : Held r0 s) : Held r0 (copyStep s) := by
  unfold copyStep
  dsimp only
  (repeat' split) <;> simp (maxDischargeDepth := 60) only [hC, endCopy_held]
theorem crewStep_held {r0 : State} (s : State) (hC : Held r0 s) : Held r0 (crewStep s) := by
  unfold crewStep
  simp (maxDischargeDepth := 60) only [hC, copyStep_held, resetFaulted_held, ite_held]
theorem loadOk_held {r0 : State} (c : Crew) (s : State) (hC : Held r0 s) : Held r0 (loadOk c s) := by
  unfold loadOk
  simp (maxDischargeDepth := 60) only [hC, enterCatchup_held, joinBoth_held, onCrewUnit_held, rebuild_held,
      ite_held]
theorem loadBad_held {r0 : State} (c : Crew) (s : State) (hC : Held r0 s) : Held r0 (loadBad c s) := by
  unfold loadBad
  simp (maxDischargeDepth := 60) only [hC, onCrewUnit_held, rebuild_held, record_held, ite_held]
theorem standbyLoaded_held {r0 : State} (x : Crew) (verified : Bool) (s : State) (hC : Held r0 s) : Held r0
    (standbyLoaded x verified s) := by
  unfold standbyLoaded
  simp (maxDischargeDepth := 60) only [hC, abortActivation_held, onCrewUnit_held, startLoading_held, ite_held]
theorem loadDone_held {r0 : State} (c : Crew) (verified : Bool) (s : State) (hC : Held r0 s) : Held r0 (loadDone c
    verified s) := by
  unfold loadDone
  simp (maxDischargeDepth := 60) only [hC, enterCatchup_held, loadBad_held, loadOk_held, standbyLoaded_held,
      ite_held]
theorem execCrewLoadDone_held {r0 : State} (crew : Crew) (verified : Bool) (s : State) (hC : Held r0 s) : HeldO r0
    (execCrewLoadDone crew verified s) := by
  unfold execCrewLoadDone
  simp (maxDischargeDepth := 60) only [hC, finish_held, loadDone_held, heldO_next, iteO_held]
theorem emptyQueue_held {r0 : State} (c : Crew) (s : State) (hC : Held r0 s) : Held r0 (emptyQueue c s) := by
  unfold emptyQueue
  simp (maxDischargeDepth := 60) only [hC, endCopy_held, onCrewUnit_held, ite_held]
theorem execCatchupDone_held {r0 : State} (crew : Crew) (s : State) (hC : Held r0 s) : HeldO r0 (execCatchupDone
    crew s) := by
  unfold execCatchupDone
  simp (maxDischargeDepth := 60) only [hC, emptyQueue_held, finish_held, joinAlone_held, onCrewUnit_held,
      heldO_next, iteO_held]
theorem rejoined_held {r0 : State} (c : Crew) (s : State) (hC : Held r0 s) : Held r0 (rejoined c s) := by
  unfold rejoined
  simp (maxDischargeDepth := 60) only [hC, becomeMember_held, completeActivation_held, onCrewUnit_held,
      record_held, ite_held]
theorem execShadowClean_held {r0 : State} (crew : Crew) (s : State) (hC : Held r0 s) : HeldO r0 (execShadowClean
    crew s) := by
  unfold execShadowClean
  simp (maxDischargeDepth := 60) only [hC, finish_held, rejoined_held, heldO_next, iteO_held]
theorem dualDecide_held {r0 : State} (v : Byte) (s : State) (hC : Held r0 s) : Held r0 (dualDecide v s).2 := by
  unfold dualDecide
  simp (maxDischargeDepth := 60) only [hC, State.onCrew_held, releaseLagged_held, setSeat_held]
theorem seatWrite_held {r0 : State} (v : Byte) (s : State) (hC : Held r0 s) : Held r0 (seatWrite v s).2 := by
  unfold seatWrite
  simp (maxDischargeDepth := 60) only [hC, State.onCrew_held, dualDecide_held, releaseLagged_held, setSeat_held,
      free_held, ite2_held]
theorem execSeatRequest_held {r0 : State} (p : Path) (v : Byte) (s : State) (hC : Held r0 s) : HeldO r0
    (execSeatRequest p v s) := by
  unfold execSeatRequest
  simp (maxDischargeDepth := 60) only [hC, finish_held, notInBoathouse_held, seatWrite_held, serve_held,
      turnAway_held, heldO_next, iteO_held]
theorem resetCrew_held {r0 : State} (c : Crew) (s : State) (hC : Held r0 s) : Held r0 (resetCrew c s) := by
  unfold resetCrew
  dsimp only
  (repeat' split) <;> simp (maxDischargeDepth := 60) only [hC, crewDown_held, dropCopies_held, onCrewUnit_held,
      record_held, resetFaulted_held, startLoading_held]
theorem crewResetWrite_held {r0 : State} (v : Byte) (s : State) (hC : Held r0 s) : Held r0 (crewResetWrite v s).2
    := by
  unfold crewResetWrite
  simp (maxDischargeDepth := 60) only [hC, resetCrew_held, ite2_held]
theorem execCrewResetRequest_held {r0 : State} (p : Path) (v : Byte) (s : State) (hC : Held r0 s) : HeldO r0
    (execCrewResetRequest p v s) := by
  unfold execCrewResetRequest
  simp (maxDischargeDepth := 60) only [hC, crewResetWrite_held, finish_held, notInBoathouse_held, serve_held,
      turnAway_held, heldO_next, iteO_held]

/-! ## Updates -/

theorem serveAny_held {r0 : State} (p : Path) (act : (Nat × List Byte) × State) (s : State) (hA : Held r0 act.2)
    (hC : Held r0 s) : Held r0 (serveAny p act s) := by
  unfold serveAny
  split <;> simp only [hA, hC, reply_held]
theorem plain_held {r0 : State} (x : Nat × State) (hA : Held r0 x.2) : Held r0 (plain x).2 := hA
theorem touchSession_held {r0 : State} (id : Nat) (s : State) (hC : Held r0 s) : Held r0 (touchSession id s) := by
  unfold touchSession
  simp (maxDischargeDepth := 60) only [hC, State.onUpd_held]
theorem openSession_held {r0 : State} (p : Path) (length : Nat) (s : State) (hC : Held r0 s) : Held r0 (openSession
    p length s) := by
  unfold openSession
  simp (maxDischargeDepth := 60) only [hC, State.onUpd_held, putSlot_held, record_held]
theorem openOp_held {r0 : State} (p : Path) (length : Nat) (s : State) (hC : Held r0 s) : Held r0 (openOp p length
    s).2 := by
  unfold openOp
  (repeat' split) <;> simp (maxDischargeDepth := 60) only [hC, openSession_held]
theorem execUpdateOpen_held {r0 : State} (p : Path) (length : Nat) (s : State) (hC : Held r0 s) : HeldO r0
    (execUpdateOpen p length s) := by
  unfold execUpdateOpen
  simp (maxDischargeDepth := 60) only [hC, finish_held, openOp_held, serveAny_held, turnAway_held, heldO_next,
      iteO_held]
theorem blockOp_held {r0 : State} (id off : Nat) (data : List Byte) (readBack : Bool) (s : State) (hC : Held r0 s)
    : Held r0 (blockOp id off data readBack s).2 := by
  unfold blockOp
  (repeat' split) <;> simp (maxDischargeDepth := 60) only [hC, State.onUpd_held, touchSession_held, ite2_held]
theorem execUpdateBlock_held {r0 : State} (p : Path) (session off : Nat) (data : List Byte) (readBack : Bool) (s :
    State) (hC : Held r0 s) : HeldO r0 (execUpdateBlock p session off data readBack s) := by
  unfold execUpdateBlock
  simp (maxDischargeDepth := 60) only [hC, blockOp_held, finish_held, plain_held, serveAny_held, turnAway_held,
      heldO_next, iteO_held]
theorem abortOp_held {r0 : State} (id : Nat) (s : State) (hC : Held r0 s) : Held r0 (abortOp id s).2 := by
  unfold abortOp
  (repeat' split) <;> simp (maxDischargeDepth := 60) only [hC, State.onUpd_held, commitDone_held,
      releaseSession_held]
theorem execUpdateAbort_held {r0 : State} (p : Path) (session : Nat) (s : State) (hC : Held r0 s) : HeldO r0
    (execUpdateAbort p session s) := by
  unfold execUpdateAbort
  simp (maxDischargeDepth := 60) only [hC, abortOp_held, finish_held, plain_held, serveAny_held, turnAway_held,
      heldO_next, iteO_held]
theorem execUpdateSessionIdle_held {r0 : State} (s : State) (hC : Held r0 s) : HeldO r0 (execUpdateSessionIdle s)
    := by
  unfold execUpdateSessionIdle
  (repeat' split) <;> simp (maxDischargeDepth := 60) only [hC, finish_held, releaseSession_held, heldO_next]
theorem startVerify_held {r0 : State} (p : Path) (id : Nat) (s : State) (hC : Held r0 s) : Held r0 (startVerify p
    id s) := by
  unfold startVerify
  (repeat' split) <;> simp (maxDischargeDepth := 60) only [hC, State.onUpd_held, mbox_held, onHead_held,
      touchSession_held]
theorem commitFails_held {r0 : State} (p : Path) (st : Nat) (s : State) (hC : Held r0 s) : Held r0 (commitFails p
    st s) := by
  unfold commitFails
  (repeat' split) <;> simp (maxDischargeDepth := 60) only [hC, mbox_held, onHead_held, reply_held, vectorOn_held]
theorem commitStart_held {r0 : State} (p : Path) (id : Nat) (s : State) (hC : Held r0 s) : Held r0 (commitStart p
    id s) := by
  unfold commitStart
  (repeat' split) <;> simp (maxDischargeDepth := 60) only [hC, commitFails_held, mbox_held, startVerify_held,
      touchSession_held]
theorem execUpdateCommit_held {r0 : State} (p : Path) (session : Nat) (s : State) (hC : Held r0 s) : HeldO r0
    (execUpdateCommit p session s) := by
  unfold execUpdateCommit
  simp (maxDischargeDepth := 60) only [hC, commitStart_held, finish_held, turnAway_held, heldO_next, iteO_held]
theorem endCommit_held {r0 : State} (status : Nat) (s : State) (hC : Held r0 s) : Held r0 (endCommit status s) := by
  unfold endCommit
  simp (maxDischargeDepth := 60) only [hC, State.onUpd_held, commitDone_held]
theorem verifyFailed_held {r0 : State} (status : Nat) (s : State) (hC : Held r0 s) : Held r0 (verifyFailed status
    s) := by
  unfold verifyFailed
  simp (maxDischargeDepth := 60) only [hC, dropSession_held, endCommit_held, record_held]
theorem activate_held {r0 : State} (k : Fin 2) (readable : Bool) (s : State) (hC : Held r0 s) : Held r0 (activate k
    readable s) := by
  unfold activate
  simp (maxDischargeDepth := 60) only [hC, abortActivation_held, beginActivation_held, startLoading_held, ite_held]
theorem boathouseDone_held {r0 : State} (k : Fin 2) (s : State) (hC : Held r0 s) : Held r0 (boathouseDone k s) := by
  unfold boathouseDone
  simp (maxDischargeDepth := 60) only [hC, State.onBoot_held, State.onUpd_held, bootWrite_held, endCommit_held,
      powerDownTo_held]
theorem revokeKeys_held {r0 : State} (f : VerifyIn) (s : State) (hC : Held r0 s) : Held r0 (revokeKeys f s) := by
  unfold revokeKeys
  simp (maxDischargeDepth := 60) only [hC, State.onUpd_held]
theorem verifyDone_held {r0 : State} (f : VerifyIn) (s : State) (hC : Held r0 s) : Held r0 (verifyDone f s) := by
  unfold verifyDone
  simp (maxDischargeDepth := 60) only [hC, activate_held, boathouseDone_held, endCommit_held, putSlot_held,
      revokeKeys_held, verifyFailed_held, ite_held]
theorem execUpdateVerifyDone_held {r0 : State} (found : VerifyIn) (s : State) (hC : Held r0 s) : HeldO r0
    (execUpdateVerifyDone found s) := by
  unfold execUpdateVerifyDone
  simp (maxDischargeDepth := 60) only [hC, finish_held, verifyDone_held, heldO_next, iteO_held]
theorem romFinds_held {r0 : State} (k : Fin 2) (ok : Bool) (s : State) (hC : Held r0 s) : Held r0 (romFinds k ok s)
    := by
  unfold romFinds
  simp (maxDischargeDepth := 60) only [hC, putSlot_held]
theorem execBoathouseCommit_held {r0 : State} (p : Path) (session : Nat) (found : VerifyIn) (slotAOk slotBOk :
    Bool) (s : State) (hC : Held r0 s) : HeldO r0 (execBoathouseCommit p session found slotAOk slotBOk s) := by
  unfold execBoathouseCommit
  simp (maxDischargeDepth := 60) only [hC, commitStart_held, finish_held, romFinds_held, verifyDone_held,
      heldO_next, iteO_held]
theorem handSettings_held {r0 : State} (s : State) (hC : Held r0 s) : Held r0 (handSettings s) := by
  unfold handSettings
  simp (maxDischargeDepth := 60) only [hC, State.onOd_held, thawSettings_held, ite_held]
theorem handOver_held {r0 : State} (s : State) (hC : Held r0 s) : Held r0 (handOver s) := by
  unfold handOver
  simp (maxDischargeDepth := 60) only [hC, State.onUpd_held, becomeMember_held, bootWrite_held, handSettings_held,
      onCrewUnit_held, reloadOars_held, setSeat_held]
theorem execUpdateHandover_held {r0 : State} (s : State) (hC : Held r0 s) : HeldO r0 (execUpdateHandover s) := by
  unfold execUpdateHandover
  simp (maxDischargeDepth := 60) only [hC, finish_held, handOver_held, heldO_next, iteO_held]
theorem execSettingsWorkingCopyWritten_held {r0 : State} (s : State) (hC : Held r0 s) : HeldO r0
    (execSettingsWorkingCopyWritten s) := by
  unfold execSettingsWorkingCopyWritten
  simp (maxDischargeDepth := 60) only [hC, State.onOd_held, heldO_next, iteO_held]
theorem commitTrial_held {r0 : State} (s : State) (hC : Held r0 s) : Held r0 (commitTrial s) := by
  have hm : minVersion s ≥ s.upd.minSecurity ∧ minVersion s ≥ s.ledger.minSecurity := by unfold minVersion; omega
  unfold commitTrial
  refine record_held _ _ _ _ _ (State.onOd_held _ _ (State.onLedger_sec_held _ _ (State.onUpd_sec_held _ _ hC ?_) ?_))
  · exact Nat.le_trans hm.1 (Nat.le_max_left _ _)
  · exact Nat.le_trans hm.2 (Nat.le_max_left _ _)
theorem trialWrite_held {r0 : State} (v : Byte) (s : State) (hC : Held r0 s) : Held r0 (trialWrite v s).2 := by
  unfold trialWrite
  simp (maxDischargeDepth := 60) only [hC, commitTrial_held, ite2_held]
theorem execTrialCommit_held {r0 : State} (p : Path) (v : Byte) (s : State) (hC : Held r0 s) : HeldO r0
    (execTrialCommit p v s) := by
  unfold execTrialCommit
  simp (maxDischargeDepth := 60) only [hC, finish_held, notInBoathouse_held, serve_held, trialWrite_held,
      turnAway_held, heldO_next, iteO_held]
theorem execTrialExpiry_held {r0 : State} (s : State) (hC : Held r0 s) : HeldO r0 (execTrialExpiry s) := by
  unfold execTrialExpiry
  simp (maxDischargeDepth := 60) only [hC, commitTrial_held, finish_held, heldO_next, iteO_held]
theorem execTrialTimeWrite_held {r0 : State} (s : State) (hC : Held r0 s) : HeldO r0 (execTrialTimeWrite s) := by
  unfold execTrialTimeWrite
  simp (maxDischargeDepth := 60) only [hC, State.onUpd_held, bootWrite_held, heldO_next, iteO_held]
theorem execFallbackWaitTimeout_held {r0 : State} (s : State) (hC : Held r0 s) : HeldO r0 (execFallbackWaitTimeout
    s) := by
  unfold execFallbackWaitTimeout
  simp (maxDischargeDepth := 60) only [hC, State.onUpd_held, finish_held, record_held, heldO_next, iteO_held]

/-! ## Freeze -/

theorem execHoldwaterNAssert_held {r0 : State} (s : State) (hC : Held r0 s) : HeldO r0 (execHoldwaterNAssert s) :=
    by
  unfold execHoldwaterNAssert
  simp (maxDischargeDepth := 60) only [hC, finish_held, requestFreeze_held, heldO_next, iteO_held]
theorem execHoldwaterNDeassert_held {r0 : State} (s : State) (hC : Held r0 s) : HeldO r0 (execHoldwaterNDeassert s)
    := by
  unfold execHoldwaterNDeassert
  simp (maxDischargeDepth := 60) only [hC, finish_held, releaseHold_held, heldO_next, iteO_held]
theorem freezeWrite_held {r0 : State} (v : Byte) (s : State) (hC : Held r0 s) : Held r0 (freezeWrite v s).2 := by
  unfold freezeWrite
  simp (maxDischargeDepth := 60) only [hC, releaseHold_held, requestFreeze_held, ite2_held]
theorem execFreezeEnterRequest_held {r0 : State} (p : Path) (s : State) (hC : Held r0 s) : HeldO r0
    (execFreezeEnterRequest p s) := by
  unfold execFreezeEnterRequest
  simp (maxDischargeDepth := 60) only [hC, finish_held, freezeWrite_held, notInBoathouse_held, serve_held,
      turnAway_held, heldO_next, iteO_held]
theorem execFreezeResumeRequest_held {r0 : State} (p : Path) (s : State) (hC : Held r0 s) : HeldO r0
    (execFreezeResumeRequest p s) := by
  unfold execFreezeResumeRequest
  simp (maxDischargeDepth := 60) only [hC, finish_held, freezeWrite_held, notInBoathouse_held, serve_held,
      turnAway_held, heldO_next, iteO_held]
theorem loadIr_held {r0 : State} (op : Byte) (s : State) (hC : Held r0 s) : Held r0 (loadIr op s) := by
  unfold loadIr
  simp (maxDischargeDepth := 60) only [hC, State.onFrz_held]
theorem shiftOut_held {r0 : State} (w v : Nat) (s : State) (hC : Held r0 s) : Held r0 (shiftOut w v s) := by
  unfold shiftOut
  simp (maxDischargeDepth := 60) only [hC, say_held]
theorem execJtagExtest_held {r0 : State} (s : State) (hC : Held r0 s) : HeldO r0 (execJtagExtest s) := by
  unfold execJtagExtest
  simp (maxDischargeDepth := 60) only [hC, loadIr_held, heldO_next, iteO_held]
theorem execJtagIdcode_held {r0 : State} (s : State) (hC : Held r0 s) : HeldO r0 (execJtagIdcode s) := by
  unfold execJtagIdcode
  simp (maxDischargeDepth := 60) only [hC, loadIr_held, shiftOut_held, heldO_next, iteO_held]
theorem execJtagSamplePreload_held {r0 : State} (s : State) (hC : Held r0 s) : HeldO r0 (execJtagSamplePreload s)
    := by
  unfold execJtagSamplePreload
  simp (maxDischargeDepth := 60) only [hC, loadIr_held, heldO_next, iteO_held]
theorem execJtagFreeze_held {r0 : State} (s : State) (hC : Held r0 s) : HeldO r0 (execJtagFreeze s) := by
  unfold execJtagFreeze
  simp (maxDischargeDepth := 60) only [hC, finish_held, loadIr_held, requestFreeze_held, heldO_next, iteO_held]
theorem execJtagResume_held {r0 : State} (s : State) (hC : Held r0 s) : HeldO r0 (execJtagResume s) := by
  unfold execJtagResume
  simp (maxDischargeDepth := 60) only [hC, finish_held, loadIr_held, releaseHold_held, heldO_next, iteO_held]
theorem execFrzSelect_held {r0 : State} (sel : BitVec 8) (s : State) (hC : Held r0 s) : HeldO r0 (execFrzSelect sel
    s) := by
  unfold execFrzSelect
  simp (maxDischargeDepth := 60) only [hC, State.onFrz_held, loadIr_held, heldO_next, iteO_held]
theorem execFrzScan_held {r0 : State} (bits : Nat) (s : State) (hC : Held r0 s) : HeldO r0 (execFrzScan bits s) :=
    by
  unfold execFrzScan
  simp (maxDischargeDepth := 60) only [hC, loadIr_held, shiftOut_held, heldO_next, iteO_held]
theorem ledgerWord_held {r0 : State} (addr : Nat) (s : State) (hC : Held r0 s) : Held r0 (ledgerWord addr s).2 := by
  unfold ledgerWord
  (repeat' split) <;> simp (maxDischargeDepth := 60) only [hC, State.onLedger_held, free_held]
theorem ledgerCapture_held {r0 : State} (s : State) (hC : Held r0 s) : Held r0 (ledgerCapture s) := by
  unfold ledgerCapture
  simp (maxDischargeDepth := 60) only [hC, loadIr_held, shiftOut_held]
theorem execLedgerAccessRead_held {r0 : State} (addr : BitVec 21) (s : State) (hC : Held r0 s) : HeldO r0
    (execLedgerAccessRead addr s) := by
  unfold execLedgerAccessRead
  simp (maxDischargeDepth := 60) only [hC, State.onFrz_held, ledgerCapture_held, ledgerWord_held, heldO_next,
      iteO_held]
theorem execLedgerAccessWrite_held {r0 : State} (addr : BitVec 21) (data : Word) (s : State) (hC : Held r0 s) :
    HeldO r0 (execLedgerAccessWrite addr data s) := by
  unfold execLedgerAccessWrite
  simp (maxDischargeDepth := 60) only [hC, State.onFrz_held, State.onLedger_held, ledgerCapture_held, heldO_next,
      iteO_held, ite_held]
theorem execJtagStatus_held {r0 : State} (s : State) (hC : Held r0 s) : HeldO r0 (execJtagStatus s) := by
  unfold execJtagStatus
  simp (maxDischargeDepth := 60) only [hC, loadIr_held, shiftOut_held, heldO_next, iteO_held]
theorem execJtagBypass_held {r0 : State} (opcode : Byte) (s : State) (hC : Held r0 s) : HeldO r0 (execJtagBypass
    opcode s) := by
  unfold execJtagBypass
  simp (maxDischargeDepth := 60) only [hC, loadIr_held, shiftOut_held, heldO_next, iteO_held]
theorem execTrstNAssert_held {r0 : State} (s : State) (hC : Held r0 s) : HeldO r0 (execTrstNAssert s) := by
  unfold execTrstNAssert
  simp (maxDischargeDepth := 60) only [hC, State.onFault_held, State.onFrz_held, finish_held, releaseHold_held,
      heldO_next, iteO_held]

/-! ## Dictionary -/

theorem touch_held {r0 : State} (key : Nat) (s : State) (hC : Held r0 s) : Held r0 (touch key s) := by
  unfold touch
  (repeat' split) <;> simp (maxDischargeDepth := 60) only [hC, State.onOd_held, endSessions_held]
theorem hold_held {r0 : State} (x : Session) (s : State) (hC : Held r0 s) : Held r0 (hold x s) := by
  unfold hold
  dsimp only
  (repeat' split) <;> simp (maxDischargeDepth := 60) only [hC, State.onOd_held, endSessions_held]
theorem execOdSessionIdle_held {r0 : State} (p : Path) (s : State) (hC : Held r0 s) : HeldO r0 (execOdSessionIdle p
    s) := by
  unfold execOdSessionIdle
  (repeat' split) <;> simp (maxDischargeDepth := 60) only [hC, endSessions_held, heldO_next]
theorem takeView_held {r0 : State} (key index sub off : Nat) (s : State) (hC : Held r0 s) : Held r0 (takeView key
    index sub off s) := by
  unfold takeView
  (repeat' split) <;> simp (maxDischargeDepth := 60) only [hC, hold_held]
theorem readEntryOp_held {r0 : State} (key index sub off : Nat) (f : OdField) (s : State) (hC : Held r0 s) : Held
    r0 (readEntryOp key index sub off f s).2 := by
  unfold readEntryOp
  simp (maxDischargeDepth := 60) only [hC, takeView_held, free_held, ite2_held]
theorem readOp_held {r0 : State} (p : Path) (index sub off : Nat) (s : State) (hC : Held r0 s) : Held r0 (readOp p
    index sub off s).2 := by
  unfold readOp
  dsimp only
  (repeat' split) <;> simp (maxDischargeDepth := 60) only [hC, readEntryOp_held, touch_held]
theorem execOdRead_held {r0 : State} (p : Path) (index : BitVec 16) (sub : BitVec 8) (off : Nat) (s : State) (hC :
    Held r0 s) : HeldO r0 (execOdRead p index sub off s) := by
  unfold execOdRead
  simp (maxDischargeDepth := 60) only [hC, readOp_held, reply_held, turnAway_held, heldO_next, iteO_held]
theorem execOdEnumerate_held {r0 : State} (p : Path) (index : BitVec 16) (sub : BitVec 8) (maximum : Nat) (s :
    State) (hC : Held r0 s) : HeldO r0 (execOdEnumerate p index sub maximum s) := by
  unfold execOdEnumerate
  simp (maxDischargeDepth := 60) only [hC, reply_held, touch_held, turnAway_held, heldO_next, iteO_held]
theorem saveWrite_held {r0 : State} (v : Nat) (s : State) (hC : Held r0 s) : Held r0 (saveWrite v s).2 := by
  unfold saveWrite
  simp (maxDischargeDepth := 60) only [hC, trigger_held, ite2_held]
theorem execSaveRequest_held {r0 : State} (p : Path) (v : Byte) (s : State) (hC : Held r0 s) : HeldO r0
    (execSaveRequest p v s) := by
  unfold execSaveRequest
  simp (maxDischargeDepth := 60) only [hC, finish_held, saveWrite_held, serve_held, turnAway_held, heldO_next,
      iteO_held]
theorem learnWrite_held {r0 : State} (v : Nat) (s : State) (hC : Held r0 s) : Held r0 (learnWrite v s).2 := by
  unfold learnWrite
  simp (maxDischargeDepth := 60) only [hC, startLearn_held, ite2_held]
theorem execLearningRequest_held {r0 : State} (p : Path) (v : Byte) (s : State) (hC : Held r0 s) : HeldO r0
    (execLearningRequest p v s) := by
  unfold execLearningRequest
  simp (maxDischargeDepth := 60) only [hC, finish_held, learnWrite_held, serve_held, turnAway_held, heldO_next,
      iteO_held]
theorem packWrite_held {r0 : State} (v : Nat) (s : State) (hC : Held r0 s) : Held r0 (packWrite v s).2 := by
  unfold packWrite
  simp (maxDischargeDepth := 60) only [hC, packDeclareOp_held, ite2_held]
theorem execPackChangeDeclaration_held {r0 : State} (p : Path) (v : Byte) (s : State) (hC : Held r0 s) : HeldO r0
    (execPackChangeDeclaration p v s) := by
  unfold execPackChangeDeclaration
  simp (maxDischargeDepth := 60) only [hC, finish_held, packWrite_held, serve_held, turnAway_held, heldO_next,
      iteO_held]
theorem onOffWrite_held {r0 : State} (v : Nat) (s : State) (hC : Held r0 s) : Held r0 (onOffWrite v s).2 := by
  unfold onOffWrite
  simp (maxDischargeDepth := 60) only [hC, notInBoathouse_held, offOp_held, onOp_held, ite2_held]
theorem actionWrite_held {r0 : State} (index v : Nat) (s : State) (hC : Held r0 s) : Held r0 (actionWrite index v
    s).2 := by
  unfold actionWrite
  simp (maxDischargeDepth := 60) only [hC, ackWrite_held, crewResetWrite_held, freezeWrite_held, latchWrite_held,
      learnWrite_held, onOffWrite_held, packWrite_held, planWrite_held, saveWrite_held, seatWrite_held,
      trialWrite_held, ite2_held]
theorem putList_held {r0 : State} (c : Nat) (l : List Nat) (s : State) (hC : Held r0 s) : Held r0 (putList c l s)
    := by
  unfold putList
  simp (maxDischargeDepth := 60) only [hC, State.onOd_held]
theorem settingActs_held {r0 : State} (index v : Nat) (s0 s : State) (hC : Held r0 s) : Held r0
    (settingActs index v s0 s) := by
  unfold settingActs
  simp (maxDischargeDepth := 60) only [hC, State.onWeir_held, releaseCatch_held, sprintCheck_held, restoreModeOp_held,
    bootWrite_held, record_held, ite_held]
theorem compactCheck_held {r0 : State} (s : State) (hC : Held r0 s) : Held r0 (compactCheck s) := by
  unfold compactCheck
  simp (maxDischargeDepth := 60) only [hC, State.onOd_held, ite_held]
theorem appendSetting_held {r0 : State} (r : SettingRec) (s : State) (hC : Held r0 s) : Held r0 (appendSetting r s)
    := by
  unfold appendSetting
  simp (maxDischargeDepth := 60) only [hC, State.onOd_held]
theorem appendBoard_held {r0 : State} (r : SettingRec) (s : State) (hC : Held r0 s) : Held r0 (appendBoard r s) :=
    by
  unfold appendBoard
  simp (maxDischargeDepth := 60) only [hC, State.onFlash_held, State.onOd_held]
theorem persist_held {r0 : State} (r : SettingRec) (stored : Bool) (put : State → State) (s : State)
    (hA : ∀ t, Held r0 t → Held r0 (put t)) (hC : Held r0 s) : Held r0 (persist r stored put s).2 := by
  have h1 := hA _ (appendBoard_held r _ hC)
  have h2 := compactCheck_held _ (hA _ (appendSetting_held r _ hC))
  have h3 := hA _ hC
  unfold persist
  (repeat' split) <;> assumption
theorem rwsWrite_held {r0 : State} (index sub v n : Nat) (stored : Bool) (s : State) (hC : Held r0 s) : Held r0
    (rwsWrite index sub v n stored s).2 := by
  unfold rwsWrite
  (repeat' split) <;> first
    | exact hC
    | exact persist_held _ _ _ _ (fun t h => State.onOd_held _ _ h) hC
    | exact persist_held _ _ _ _ (fun t h => settingActs_held _ _ _ _ (State.onOd_held _ _ h)) hC
theorem execRestoreModeWrite_held {r0 : State} (p : Path) (v : Byte) (s : State) (hC : Held r0 s) : HeldO r0
    (execRestoreModeWrite p v s) := by
  unfold execRestoreModeWrite
  simp (maxDischargeDepth := 60) only [hC, finish_held, rwsWrite_held, serve_held, turnAway_held, heldO_next,
      iteO_held]
theorem arrayWrite_held {r0 : State} (index : Nat) (data : List Byte) (stored : Bool) (s : State) (hC : Held r0 s)
    : Held r0 (arrayWrite index data stored s).2 := by
  unfold arrayWrite
  (repeat' split) <;> simp_all (maxDischargeDepth := 60) [persist_held, putList_held]
theorem segmentWrite_held {r0 : State} (key index off : Nat) (last : Bool) (data : List Byte) (stored : Bool) (s :
    State) (hC : Held r0 s) : Held r0 (segmentWrite key index off last data stored s).2 := by
  unfold segmentWrite
  dsimp only
  (repeat' split) <;> simp_all (maxDischargeDepth := 60) [State.onOd_held, hold_held, persist_held]
theorem writeEntry_held {r0 : State} (key index sub : Nat) (last : Bool) (off : Nat) (data : List Byte) (stored :
    Bool) (f : OdField) (s : State) (hC : Held r0 s) : Held r0 (writeEntry key index sub last off data stored f
    s).2 := by
  unfold writeEntry
  simp (maxDischargeDepth := 60) only [hC, actionWrite_held, arrayWrite_held, rwsWrite_held, segmentWrite_held,
      ite2_held]
theorem writeOp_held {r0 : State} (p : Path) (index sub : Nat) (last : Bool) (off : Nat) (data : List Byte) (stored
    : Bool) (s : State) (hC : Held r0 s) : Held r0 (writeOp p index sub last off data stored s).2 := by
  unfold writeOp
  dsimp only
  (repeat' split) <;> simp (maxDischargeDepth := 60) only [hC, touch_held, writeEntry_held]
theorem execOdWrite_held {r0 : State} (p : Path) (index : BitVec 16) (sub : BitVec 8) (last : Bool) (off : Nat)
    (data : List Byte) (stored : Bool) (s : State) (hC : Held r0 s) : HeldO r0 (execOdWrite p index sub last off
    data stored s) := by
  unfold execOdWrite
  simp (maxDischargeDepth := 60) only [hC, finish_held, reply_held, turnAway_held, writeOp_held, heldO_next,
      iteO_held]
theorem execSettingsCompactionDone_held {r0 : State} (s : State) (hC : Held r0 s) : HeldO r0
    (execSettingsCompactionDone s) := by
  unfold execSettingsCompactionDone
  simp (maxDischargeDepth := 60) only [hC, State.onOd_held, heldO_next, iteO_held]
theorem execWaterlineRead_held {r0 : State} (p : Path) (first maximum : Nat) (fb3 : Bool) (minSeverity : Fin 8) (s
    : State) (hC : Held r0 s) : HeldO r0 (execWaterlineRead p first maximum fb3 minSeverity s) := by
  unfold execWaterlineRead
  (repeat' split) <;> simp (maxDischargeDepth := 60) only [hC, reply_held, turnAway_held, heldO_next]

end Sys2Proof.Machine
end

