-- ==== Sys2Proof/Laws/HeldPorts.lean ====
section
/-! SUPPORT. `Held` through the two-wire ports, the clocks, the heads, the mailbox, the registers and SPDM: one
    lemma an operation, by its callees' lemmas. -/

namespace Sys2Proof.Machine

/-! ## Bus -/

theorem targetReset_held {r0 : State} (p : Port) (s : State) (hC : Held r0 s) : Held r0 (targetReset p s) := by
  unfold targetReset
  simp (maxDischargeDepth := 60) only [hC, onPort_held]
theorem targetDone_held {r0 : State} (p : Port) (s : State) (hC : Held r0 s) : Held r0 (targetDone p s) := by
  unfold targetDone
  simp (maxDischargeDepth := 60) only [hC, busStop_held, targetReset_held]
theorem busRecord_held {r0 : State} (p : Port) (event : Nat) (sev : Fin 8) (s : State) (hC : Held r0 s) : Held r0
    (busRecord p event sev s) := by
  unfold busRecord
  simp (maxDischargeDepth := 60) only [hC, record_held]
theorem busErrorOp_held {r0 : State} (p : Port) (cause : Nat) (s : State) (hC : Held r0 s) : Held r0 (busErrorOp p
    cause s) := by
  unfold busErrorOp
  simp (maxDischargeDepth := 60) only [hC, busRecord_held, onPort_held, targetReset_held]
theorem execBusError_held {r0 : State} (port : Port) (err : BusErr) (s : State) (hC : Held r0 s) : HeldO r0
    (execBusError port err s) := by
  unfold execBusError
  simp (maxDischargeDepth := 60) only [hC, busErrorOp_held, finish_held, heldO_next, iteO_held]
theorem execTargetTimeout_held {r0 : State} (s : State) (hC : Held r0 s) : HeldO r0 (execTargetTimeout s) := by
  unfold execTargetTimeout
  simp (maxDischargeDepth := 60) only [hC, busErrorOp_held, finish_held, heldO_next, iteO_held]
theorem stretchOp_held {r0 : State} (p : Port) (s : State) (hC : Held r0 s) : Held r0 (stretchOp p s) := by
  unfold stretchOp
  simp (maxDischargeDepth := 60) only [hC, busRecord_held, busStop_held, onPort_held]
theorem execStretchAbort_held {r0 : State} (port : Port) (s : State) (hC : Held r0 s) : HeldO r0 (execStretchAbort
    port s) := by
  unfold execStretchAbort
  simp (maxDischargeDepth := 60) only [hC, finish_held, stretchOp_held, heldO_next, iteO_held]
theorem lossOp_held {r0 : State} (a : ArbLoss) (s : State) (hC : Held r0 s) : Held r0 (lossOp a s) := by
  unfold lossOp
  simp (maxDischargeDepth := 60) only [hC, busRecord_held, busStop_held, onPort_held, ite_held]
theorem execArbitrationLoss_held {r0 : State} (port : Port) (at' : ArbLoss) (s : State) (hC : Held r0 s) : HeldO r0
    (execArbitrationLoss port at' s) := by
  unfold execArbitrationLoss
  (repeat' split) <;> simp (maxDischargeDepth := 60) only [hC, busErrorOp_held, finish_held, lossOp_held,
      onPort_held, heldO_next]
theorem execArbitrationBackoffEnd_held {r0 : State} (port : Port) (s : State) (hC : Held r0 s) : HeldO r0
    (execArbitrationBackoffEnd port s) := by
  unfold execArbitrationBackoffEnd
  simp (maxDischargeDepth := 60) only [hC, onPort_held, heldO_next, iteO_held]
theorem hangOp_held {r0 : State} (p : Port) (stopMade : Bool) (s : State) (hC : Held r0 s) : Held r0 (hangOp p
    stopMade s) := by
  unfold hangOp
  simp (maxDischargeDepth := 60) only [hC, busRecord_held, busStop_held, onPort_held, ite_held]
theorem execHangRecovery_held {r0 : State} (port : Port) (stopMade : Bool) (s : State) (hC : Held r0 s) : HeldO r0
    (execHangRecovery port stopMade s) := by
  unfold execHangRecovery
  simp (maxDischargeDepth := 60) only [hC, finish_held, hangOp_held, heldO_next, iteO_held]
theorem serviced_held {r0 : State} (s : State) (hC : Held r0 s) : Held r0 (serviced s) := by
  unfold serviced
  simp (maxDischargeDepth := 60) only [hC, onPort_held]
theorem statusReadOp_held {r0 : State} (s : State) (hC : Held r0 s) : Held r0 (statusReadOp s) := by
  unfold statusReadOp
  simp (maxDischargeDepth := 60) only [hC, onPort_held, say_held, serviced_held, targetDone_held]
theorem execStatusRead_held {r0 : State} (s : State) (hC : Held r0 s) : HeldO r0 (execStatusRead s) := by
  unfold execStatusRead
  simp (maxDischargeDepth := 60) only [hC, statusReadOp_held, heldO_next, iteO_held]
theorem alertOp_held {r0 : State} (s : State) (hC : Held r0 s) : Held r0 (alertOp s) := by
  unfold alertOp
  simp (maxDischargeDepth := 60) only [hC, onPort_held, say_held, serviced_held, targetDone_held, free_held]
theorem execAlertResponse_held {r0 : State} (won : Bool) (s : State) (hC : Held r0 s) : HeldO r0 (execAlertResponse
    won s) := by
  unfold execAlertResponse
  simp (maxDischargeDepth := 60) only [hC, alertOp_held, heldO_next, iteO_held]
theorem execBusCall_held {r0 : State} (sclFell : Bool) (s : State) (hC : Held r0 s) : HeldO r0 (execBusCall sclFell
    s) := by
  unfold execBusCall
  simp (maxDischargeDepth := 60) only [hC, busStop_held, onPort_held, heldO_next, iteO_held]
theorem hostNotify_held {r0 : State} (s : State) (hC : Held r0 s) : Held r0 (hostNotify s) := by
  unfold hostNotify
  simp (maxDischargeDepth := 60) only [hC, busRecord_held, busStop_held, onPort_held, say_held]
theorem repeatCall_held {r0 : State} (s : State) (hC : Held r0 s) : Held r0 (repeatCall s) := by
  unfold repeatCall
  simp (maxDischargeDepth := 60) only [hC, busStop_held, onPort_held]
theorem callTimeout_held {r0 : State} (s : State) (hC : Held r0 s) : Held r0 (callTimeout s) := by
  unfold callTimeout
  simp (maxDischargeDepth := 60) only [hC, hostNotify_held, onPort_held, repeatCall_held, ite_held]
theorem execBusCallServiceTimeout_held {r0 : State} (s : State) (hC : Held r0 s) : HeldO r0
    (execBusCallServiceTimeout s) := by
  unfold execBusCallServiceTimeout
  simp (maxDischargeDepth := 60) only [hC, callTimeout_held, finish_held, heldO_next, iteO_held]
theorem tempRecord_held {r0 : State} (n : Nat) (s : State) (hC : Held r0 s) : Held r0 (tempRecord n s) := by
  unfold tempRecord
  simp (maxDischargeDepth := 60) only [hC, record_held, free_held]
theorem execLocalTemperatureRead_held {r0 : State} (readings : List Int) (s : State) (hC : Held r0 s) : HeldO r0
    (execLocalTemperatureRead readings s) := by
  unfold execLocalTemperatureRead
  simp_all (maxDischargeDepth := 60) [busStop_held, finish_held, tempRecord_held, iteO_held, heldO_next, held_foldl]
theorem controlCmd_held {r0 : State} (dst : Nat) (bytes : State → List Byte) (s : State) (hC : Held r0 s) :
    HeldO r0 (controlCmd dst bytes s) := by
  unfold controlCmd
  exact iteO_held (heldO_next (say_held _ _ hC)) (heldO_next hC)
theorem execSetEndpointId_held {r0 : State} (dst eid : Nat) (s : State) (hC : Held r0 s) : HeldO r0
    (execSetEndpointId dst eid s) := by
  unfold execSetEndpointId
  simp (maxDischargeDepth := 60) only [hC, onPort_held, say_held, heldO_next, iteO_held]
theorem execGetEndpointId_held {r0 : State} (dst : Nat) (s : State) (hC : Held r0 s) : HeldO r0 (execGetEndpointId
    dst s) := by
  unfold execGetEndpointId
  simp (maxDischargeDepth := 60) only [hC, controlCmd_held]
theorem execGetEndpointUuid_held {r0 : State} (dst : Nat) (s : State) (hC : Held r0 s) : HeldO r0
    (execGetEndpointUuid dst s) := by
  unfold execGetEndpointUuid
  simp (maxDischargeDepth := 60) only [hC, controlCmd_held]
theorem execGetMctpVersionSupport_held {r0 : State} (dst : Nat) (s : State) (hC : Held r0 s) : HeldO r0
    (execGetMctpVersionSupport dst s) := by
  unfold execGetMctpVersionSupport
  simp (maxDischargeDepth := 60) only [hC, controlCmd_held]
theorem execGetMessageTypeSupport_held {r0 : State} (dst : Nat) (s : State) (hC : Held r0 s) : HeldO r0
    (execGetMessageTypeSupport dst s) := by
  unfold execGetMessageTypeSupport
  simp (maxDischargeDepth := 60) only [hC, controlCmd_held]
theorem execGetVendorDefinedMessageSupport_held {r0 : State} (dst : Nat) (s : State) (hC : Held r0 s) : HeldO r0
    (execGetVendorDefinedMessageSupport dst s) := by
  unfold execGetVendorDefinedMessageSupport
  simp (maxDischargeDepth := 60) only [hC, controlCmd_held]
theorem after_held {r0 : State} (s : State) (o : Host.Outcome State Fault Refusal) (hO : HeldO r0 o) (hC : Held r0 s)
    :
    Held r0 (after s o) := by
  unfold after
  split
  · exact hO _ rfl
  · exact hC
theorem shortData_held {r0 : State} (p : Path) (s : State) (hC : Held r0 s) : HeldO r0 (shortData p s) := by
  unfold shortData
  simp (maxDischargeDepth := 60) only [hC, finish_held, plain_held, serveAny_held]
theorem runOp_held {r0 : State} (p : Path) (opcode : Nat) (b : List Byte) (s : State) (hC : Held r0 s) : HeldO r0
    (runOp p opcode b s) := by
  unfold runOp
  (repeat' split) <;> simp (maxDischargeDepth := 60) only [hC, execOdEnumerate_held, execOdRead_held,
      execOdWrite_held, execUpdateAbort_held, execUpdateBlock_held, execUpdateCommit_held, execUpdateOpen_held,
      execWaterlineRead_held, shortData_held]
theorem runRequest_held {r0 : State} (q : McReq) (version : Nat) (payload : List Byte) (s : State) (hC : Held r0 s)
    : Held r0 (runRequest q version payload s) := by
  unfold runRequest
  (repeat' split) <;> simp (maxDischargeDepth := 60) only [hC, State.onBus_held, after_held, mctpAnswer_held,
      runOp_held]
theorem takeRequest_held {r0 : State} (q : McReq) (m : McMsg) (s : State) (hC : Held r0 s) : Held r0 (takeRequest q
    m s) := by
  unfold takeRequest
  simp (maxDischargeDepth := 60) only [hC, State.onBus_held, mctpSend_held, runRequest_held, ite_held]
theorem takeMessage_held {r0 : State} (m : McMsg) (s : State) (hC : Held r0 s) : Held r0 (takeMessage m s) := by
  unfold takeMessage
  dsimp only
  (repeat' split) <;> simp (maxDischargeDepth := 60) only [hC, mctpSend_held, onPort_held, takeRequest_held]
theorem serveWaiting_held {r0 : State} (s : State) (hC : Held r0 s) : Held r0 (serveWaiting s) := by
  unfold serveWaiting
  dsimp only
  (repeat' split) <;> simp (maxDischargeDepth := 60) only [hC, State.onBus_held, runRequest_held]
theorem decayStep_held {r0 : State} (s : State) (hC : Held r0 s) : Held r0 (decayStep s) := by
  unfold decayStep
  simp (maxDischargeDepth := 60) only [hC, weirCheck_held, ite_held]
theorem lagStep_held {r0 : State} (s : State) (hC : Held r0 s) : Held r0 (lagStep s) := by
  unfold lagStep
  simp (maxDischargeDepth := 60) only [hC, releaseLagged_held, ite_held]
theorem idleStep_held {r0 : State} (s : State) (hC : Held r0 (tick s)) : Held r0 (idleStep s) :=
  serveWaiting_held _ (overrunStep_held _ (decayStep_held _ (lagStep_held _ (crewStep_held _ (sampleStep_held _ _
    (settleMarks_held _ (idle_held _ hC)))))))
theorem noAssembly_held {r0 : State} (src : Nat) (s : State) (hC : Held r0 s) : Held r0 (noAssembly src s) := by
  unfold noAssembly
  simp (maxDischargeDepth := 60) only [hC, State.onBus_held]
theorem discard_held {r0 : State} (src : Nat) (s : State) (hC : Held r0 s) : Held r0 (discard src s) := by
  unfold discard
  simp (maxDischargeDepth := 60) only [hC, busErrorOp_held, noAssembly_held]
theorem joinPacket_held {r0 : State} (pkt : MctpPkt) (before : List Byte) (s : State) (hC : Held r0 s) : Held r0
    (joinPacket pkt before s) := by
  unfold joinPacket
  simp (maxDischargeDepth := 60) only [hC, State.onBus_held, discard_held, noAssembly_held, takeMessage_held,
      ite_held]
theorem takePacket_held {r0 : State} (pkt : MctpPkt) (s : State) (hC : Held r0 s) : Held r0 (takePacket pkt s) := by
  unfold takePacket
  (repeat' split) <;> simp (maxDischargeDepth := 60) only [hC, discard_held, joinPacket_held]
theorem longPacket_held {r0 : State} (s : State) (hC : Held r0 s) : Held r0 (longPacket s) := by
  unfold longPacket
  simp (maxDischargeDepth := 60) only [hC, busErrorOp_held, free_held]
theorem execMctpPacket_held {r0 : State} (pkt : MctpPkt) (s : State) (hC : Held r0 s) : HeldO r0 (execMctpPacket
    pkt s) := by
  unfold execMctpPacket
  simp (maxDischargeDepth := 60) only [hC, busErrorOp_held, finish_held, longPacket_held, takePacket_held,
      targetDone_held, heldO_next, iteO_held]
theorem execMctpAssemblyGap_held {r0 : State} (src : Nat) (s : State) (hC : Held r0 s) : HeldO r0
    (execMctpAssemblyGap src s) := by
  unfold execMctpAssemblyGap
  simp (maxDischargeDepth := 60) only [hC, discard_held, finish_held, heldO_next, iteO_held]

/-! ## Clocks -/

theorem execRefclkDetect_held {r0 : State} (s : State) (hC : Held r0 s) : HeldO r0 (execRefclkDetect s) := by
  unfold execRefclkDetect
  simp (maxDischargeDepth := 60) only [hC, State.onClk_held, heldO_next, iteO_held]
theorem execRefclkReturn_held {r0 : State} (s : State) (hC : Held r0 s) : HeldO r0 (execRefclkReturn s) := by
  unfold execRefclkReturn
  simp (maxDischargeDepth := 60) only [hC, State.onClk_held, heldO_next, iteO_held]
theorem execRefclkLoss_held {r0 : State} (s : State) (hC : Held r0 s) : HeldO r0 (execRefclkLoss s) := by
  unfold execRefclkLoss
  simp (maxDischargeDepth := 60) only [hC, State.onClk_held, finish_held, record_held, heldO_next, iteO_held]
theorem lockFault_held {r0 : State} (cls : FClass) (key : BitVec 8) (s : State) (hC : Held r0 s) : Held r0
    (lockFault cls key s) := by
  unfold lockFault
  simp (maxDischargeDepth := 60) only [hC, reportFault_held]
theorem lockLost_held {r0 : State} (key : BitVec 8) (s : State) (hC : Held r0 s) : Held r0 (lockLost key s) := by
  unfold lockLost
  simp (maxDischargeDepth := 60) only [hC, State.onClk_held, chipFatal_held, lockFault_held, ite_held]
theorem execSpringPllLockLoss_held {r0 : State} (s : State) (hC : Held r0 s) : HeldO r0 (execSpringPllLockLoss s)
    := by
  unfold execSpringPllLockLoss
  simp (maxDischargeDepth := 60) only [hC, State.onClk_held, finish_held, lockLost_held, record_held, heldO_next,
      iteO_held, ite_held]
theorem execBackupLockLoss_held {r0 : State} (s : State) (hC : Held r0 s) : HeldO r0 (execBackupLockLoss s) := by
  unfold execBackupLockLoss
  simp (maxDischargeDepth := 60) only [hC, State.onClk_held, finish_held, lockLost_held, heldO_next, iteO_held]
theorem execRootRelock_held {r0 : State} (backup : Bool) (s : State) (hC : Held r0 s) : HeldO r0 (execRootRelock
    backup s) := by
  unfold execRootRelock
  simp (maxDischargeDepth := 60) only [hC, State.onClk_held, finish_held, setCapture_held, heldO_next, iteO_held]
theorem execRootsUnlockedTimeout_held {r0 : State} (s : State) (hC : Held r0 s) : HeldO r0
    (execRootsUnlockedTimeout s) := by
  unfold execRootsUnlockedTimeout
  simp (maxDischargeDepth := 60) only [hC, finish_held, lastGasp_held, heldO_next, iteO_held]

/-! ## Host -/

theorem notServedFault_held {r0 : State} (h : Fin 2) (typ : Fin 16) (hpa : Nat) (s : State) (hC : Held r0 s) : Held
    r0 (notServedFault h typ hpa s) := by
  unfold notServedFault
  simp (maxDischargeDepth := 60) only [hC, raise_held]
theorem readAt_held {r0 : State} (h : Fin 2) (id line : Nat) (res : DramRead) (s : State) (hC : Held r0 s) : Held
    r0 (readAt h id line res s) := by
  unfold readAt
  simp (maxDischargeDepth := 60) only [hC, answerPoison_held, holdRead_held, serveRead_held, startFetch_held,
      ite_held]
theorem execHostRead_held {r0 : State} (head : Fin 2) (hpa id : Nat) (res : DramRead) (s : State) (hC : Held r0 s)
    : HeldO r0 (execHostRead head hpa id res s) := by
  unfold execHostRead
  (repeat' split) <;> simp (maxDischargeDepth := 60) only [hC, answerPoison_held, finish_held, notServedFault_held,
      readAt_held, heldO_next]
theorem enterBuffer_held {r0 : State} (e : WEntry) (s : State) (hC : Held r0 s) : Held r0 (enterBuffer e s).1 := by
  unfold enterBuffer
  simp (maxDischargeDepth := 60) only [hC, State.onWb_held]
theorem filterEntry_held {r0 : State} (i : Nat) (e : WEntry) (s : State) (hC : Held r0 s) : Held r0 (filterEntry i
    e s) := by
  unfold filterEntry
  simp (maxDischargeDepth := 60) only [hC, onEntry_held, setRestored_held, startFetch_held, testOrWait_held,
      ite_held]
theorem writeAt_held {r0 : State} (h : Fin 2) (id line : Nat) (data : Line) (be : BitVec 64) (poison : Bool) (s :
    State) (hC : Held r0 s) : Held r0 (writeAt h id line data be poison s) := by
  unfold writeAt
  simp (maxDischargeDepth := 60) only [hC, enterBuffer_held, filterEntry_held, say_held, ite_held]
theorem execHostWrite_held {r0 : State} (head : Fin 2) (hpa id : Nat) (data : Line) (be : BitVec 64) (poison :
    Bool) (s : State) (hC : Held r0 s) : HeldO r0 (execHostWrite head hpa id data be poison s) := by
  unfold execHostWrite
  (repeat' split) <;> simp (maxDischargeDepth := 60) only [hC, finish_held, notServedFault_held, writeAt_held,
      heldO_next]
theorem execHeldWriteAdmit_held {r0 : State} (s : State) (hC : Held r0 s) : HeldO r0 (execHeldWriteAdmit s) := by
  unfold execHeldWriteAdmit
  simp (maxDischargeDepth := 60) only [hC, finish_held, retest_held, heldO_next, iteO_held]
theorem execHoldLimitExpiry_held {r0 : State} (s : State) (hC : Held r0 s) : HeldO r0 (execHoldLimitExpiry s) := by
  unfold execHoldLimitExpiry
  (repeat' split) <;> simp (maxDischargeDepth := 60) only [hC, finish_held, onEntry_held, overshootEntry_held,
      retest_held, heldO_next]
theorem rejectMark_held {r0 : State} (s : State) (hC : Held r0 s) : Held r0 (rejectMark s) := by
  unfold rejectMark
  simp (maxDischargeDepth := 60) only [hC, State.onHost_held, vector_held]
theorem rejectSettle_held {r0 : State} (s : State) (hC : Held r0 s) : Held r0 (rejectSettle s) := by
  unfold rejectSettle
  simp (maxDischargeDepth := 60) only [hC, State.onHost_held, vector_held]
theorem acceptMark_held {r0 : State} (v : Nat) (s : State) (hC : Held r0 s) : Held r0 (acceptMark v s) := by
  unfold acceptMark
  simp (maxDischargeDepth := 60) only [hC, State.onHost_held, closeNewest_held]
theorem execHstMark_held {r0 : State} (v : Word) (s : State) (hC : Held r0 s) : HeldO r0 (execHstMark v s) := by
  unfold execHstMark
  simp (maxDischargeDepth := 60) only [hC, acceptMark_held, rejectMark_held, heldO_next, iteO_held]
theorem acceptSettle_held {r0 : State} (n : Nat) (s : State) (hC : Held r0 s) : Held r0 (acceptSettle n s) := by
  unfold acceptSettle
  simp (maxDischargeDepth := 60) only [hC, State.onHost_held, closeForSettle_held, coverSet_held, sprintCheck_held,
      ite_held]
theorem execHstSettle_held {r0 : State} (n : Word) (s : State) (hC : Held r0 s) : HeldO r0 (execHstSettle n s) := by
  unfold execHstSettle
  simp (maxDischargeDepth := 60) only [hC, acceptSettle_held, rejectSettle_held, vector_held, heldO_next, iteO_held]
theorem execViral_held {r0 : State} (head : Fin 2) (s : State) (hC : Held r0 s) : HeldO r0 (execViral head s) := by
  unfold execViral
  simp (maxDischargeDepth := 60) only [hC, State.onHost_held, finish_held, trigger_held, heldO_next, iteO_held]
theorem execPerstNAssert_held {r0 : State} (head : Fin 2) (s : State) (hC : Held r0 s) : HeldO r0 (execPerstNAssert
    head s) := by
  unfold execPerstNAssert
  simp (maxDischargeDepth := 60) only [hC, finish_held, onHead_held, resetHead_held, heldO_next, iteO_held]
theorem execPerstNDeassert_held {r0 : State} (head : Fin 2) (s : State) (hC : Held r0 s) : HeldO r0
    (execPerstNDeassert head s) := by
  unfold execPerstNDeassert
  simp (maxDischargeDepth := 60) only [hC, onHead_held, heldO_next, ite_held]
theorem execLinkReset_held {r0 : State} (head : Fin 2) (s : State) (hC : Held r0 s) : HeldO r0 (execLinkReset head
    s) := by
  unfold execLinkReset
  simp (maxDischargeDepth := 60) only [hC, finish_held, resetHead_held, heldO_next, iteO_held]
theorem execFlr_held {r0 : State} (head : Fin 2) (s : State) (hC : Held r0 s) : HeldO r0 (execFlr head s) := by
  unfold execFlr
  simp (maxDischargeDepth := 60) only [hC, finish_held, resetHead_held, heldO_next, iteO_held]
theorem execCxlReset_held {r0 : State} (head : Fin 2) (s : State) (hC : Held r0 s) : HeldO r0 (execCxlReset head s)
    := by
  unfold execCxlReset
  simp (maxDischargeDepth := 60) only [hC, finish_held, resetHead_held, heldO_next, iteO_held]
theorem execHostRegionReady_held {r0 : State} (up : LinkUp) (s : State) (hC : Held r0 s) : HeldO r0
    (execHostRegionReady up s) := by
  unfold execHostRegionReady
  simp (maxDischargeDepth := 60) only [hC, finish_held, onHead_held, shadowDone_held, heldO_next, iteO_held]
theorem execGpfPhase1_held {r0 : State} (head : Fin 2) (s : State) (hC : Held r0 s) : HeldO r0 (execGpfPhase1 head
    s) := by
  unfold execGpfPhase1
  simp (maxDischargeDepth := 60) only [hC, say_held, heldO_next, iteO_held]
theorem execGpfPhase2_held {r0 : State} (head : Fin 2) (s : State) (hC : Held r0 s) : HeldO r0 (execGpfPhase2 head
    s) := by
  unfold execGpfPhase2
  simp (maxDischargeDepth := 60) only [hC, State.onHost_held, say_held, heldO_next, iteO_held]
theorem execGpfDrainDone_held {r0 : State} (s : State) (hC : Held r0 s) : HeldO r0 (execGpfDrainDone s) := by
  unfold execGpfDrainDone
  simp_all (maxDischargeDepth := 60) [State.onHost_held, commit_held, finish_held, flush_held, say_held, iteO_held,
      heldO_next, held_foldl]

/-! ## Mailbox -/

theorem mailboxCmd_held {r0 : State} (h : Fin 2) (s : State) (act : State → State) (hA : Held r0 s → Held r0 (act s))
    (hC : Held r0 s) : HeldO r0 (mailboxCmd h s act) := by
  unfold mailboxCmd
  exact iteO_held (heldO_next hC) (iteO_held (heldO_next (mbox_held _ _ _ _ hC))
    (iteO_held (heldO_next (mbox_held _ _ _ _ hC)) (finish_held _ (hA hC))))
theorem execGetPoisonList_held {r0 : State} (head : Fin 2) (dpa length : Nat) (s : State) (hC : Held r0 s) : HeldO
    r0 (execGetPoisonList head dpa length s) := by
  unfold execGetPoisonList
  simp_all (maxDischargeDepth := 60) [mailboxCmd_held, mbox_held]
theorem injectOp_held {r0 : State} (h : Fin 2) (line : Nat) (s : State) (hC : Held r0 s) : Held r0 (injectOp h line
    s) := by
  unfold injectOp
  simp (maxDischargeDepth := 60) only [hC, flush_held, mbox_held, setPoison_held]
theorem execInjectPoison_held {r0 : State} (head : Fin 2) (dpa : Nat) (s : State) (hC : Held r0 s) : HeldO r0
    (execInjectPoison head dpa s) := by
  unfold execInjectPoison
  refine mailboxCmd_held _ _ _ (fun h => ?_) hC
  split
  · exact ite_held (mbox_held _ _ _ _ h) (injectOp_held _ _ _ h)
  · exact mbox_held _ _ _ _ h
theorem execClearPoison_held {r0 : State} (head : Fin 2) (dpa id : Nat) (data : Line) (s : State) (hC : Held r0 s) :
    HeldO r0 (execClearPoison head dpa id data s) := by
  unfold execClearPoison
  refine mailboxCmd_held _ _ _ (fun h => ?_) hC
  split
  · exact ite_held (mbox_held _ _ _ _ h) (mbox_held _ _ _ _ (writeAt_held _ _ _ _ _ _ _ h))
  · exact mbox_held _ _ _ _ h
theorem execScanMedia_held {r0 : State} (head : Fin 2) (dpa length : Nat) (s : State) (hC : Held r0 s) : HeldO r0
    (execScanMedia head dpa length s) := by
  unfold execScanMedia
  simp_all (maxDischargeDepth := 60) [mailboxCmd_held, mbox_held, onHead_held, ite_held]
theorem execScanMediaDone_held {r0 : State} (scan : ScanReport) (s : State) (hC : Held r0 s) : HeldO r0
    (execScanMediaDone scan s) := by
  unfold execScanMediaDone
  simp_all (maxDischargeDepth := 60) [finish_held, onHead_held, scrubLine_held, vectorOn_held, iteO_held,
      heldO_next, held_foldl]
theorem execGetScanMediaCapabilities_held {r0 : State} (head : Fin 2) (dpa length : Nat) (s : State) (hC : Held r0
    s) : HeldO r0 (execGetScanMediaCapabilities head dpa length s) := by
  unfold execGetScanMediaCapabilities
  simp_all (maxDischargeDepth := 60) [mailboxCmd_held, mbox_held, ite_held]
theorem execSetShutdownState_held {r0 : State} (head : Fin 2) (dirty : Bool) (s : State) (hC : Held r0 s) : HeldO
    r0 (execSetShutdownState head dirty s) := by
  unfold execSetShutdownState
  simp_all (maxDischargeDepth := 60) [State.onCxl_held, mailboxCmd_held, mbox_held]
theorem execGetShutdownState_held {r0 : State} (head : Fin 2) (s : State) (hC : Held r0 s) : HeldO r0
    (execGetShutdownState head s) := by
  unfold execGetShutdownState
  simp_all (maxDischargeDepth := 60) [mailboxCmd_held, mbox_held]
theorem execGetHealthInfo_held {r0 : State} (head : Fin 2) (s : State) (hC : Held r0 s) : HeldO r0
    (execGetHealthInfo head s) := by
  unfold execGetHealthInfo
  simp_all (maxDischargeDepth := 60) [mailboxCmd_held, mbox_held]
theorem execSetAlertConfiguration_held {r0 : State} (head : Fin 2) (cfg : AlertCfg) (s : State) (hC : Held r0 s) :
    HeldO r0 (execSetAlertConfiguration head cfg s) := by
  unfold execSetAlertConfiguration
  simp_all (maxDischargeDepth := 60) [State.onCxl_held, mailboxCmd_held, mbox_held]
theorem execGetAlertConfiguration_held {r0 : State} (head : Fin 2) (s : State) (hC : Held r0 s) : HeldO r0
    (execGetAlertConfiguration head s) := by
  unfold execGetAlertConfiguration
  simp_all (maxDischargeDepth := 60) [mailboxCmd_held, mbox_held]
theorem execIdentifyMemoryDevice_held {r0 : State} (head : Fin 2) (s : State) (hC : Held r0 s) : HeldO r0
    (execIdentifyMemoryDevice head s) := by
  unfold execIdentifyMemoryDevice
  simp_all (maxDischargeDepth := 60) [mailboxCmd_held, mbox_held]
theorem execGetFwInfo_held {r0 : State} (head : Fin 2) (s : State) (hC : Held r0 s) : HeldO r0 (execGetFwInfo head
    s) := by
  unfold execGetFwInfo
  simp_all (maxDischargeDepth := 60) [mailboxCmd_held, mbox_held]
theorem startErase_held {r0 : State} (whole : Bool) (h : Fin 2) (s : State) (hC : Held r0 s) : Held r0 (startErase
    whole h s) := by
  unfold startErase
  simp (maxDischargeDepth := 60) only [hC, State.onFlash_held, State.onLake_held, State.onRst_held,
      State.onUpd_held, sprintCheck_held]
theorem eraseCmd_held {r0 : State} (whole : Bool) (h : Fin 2) (s : State) (hC : Held r0 s) : HeldO r0 (eraseCmd
    whole h s) := by
  unfold eraseCmd
  simp_all (maxDischargeDepth := 60) [mailboxCmd_held, mbox_held, startErase_held, ite_held]
theorem execSanitize_held {r0 : State} (head : Fin 2) (s : State) (hC : Held r0 s) : HeldO r0 (execSanitize head s)
    := by
  unfold execSanitize
  simp (maxDischargeDepth := 60) only [hC, eraseCmd_held]
theorem execSecureErase_held {r0 : State} (head : Fin 2) (s : State) (hC : Held r0 s) : HeldO r0 (execSecureErase
    head s) := by
  unfold execSecureErase
  simp (maxDischargeDepth := 60) only [hC, eraseCmd_held]
theorem eraseMaps_held {r0 : State} (s : State) (hC : Held r0 s) : Held r0 (eraseMaps s) := by
  unfold eraseMaps
  dsimp only
  exact State.onLog_held _ _ (State.onLake_held _ _ (State.onLedger_held _ _ (setCoarsened_held _ _
    (State.onPm_pages_held _ _ hC rfl)) rfl))
theorem eraseBasin_held {r0 : State} (s : State) (hC : Held r0 s) : Held r0 (eraseBasin s) := by
  unfold eraseBasin
  simp (maxDischargeDepth := 60) only [hC, State.onBasin_held]
theorem storeKey_held {r0 : State} (key : Nat) (s : State) (hC : Held r0 s) : Held r0 (storeKey key s) := by
  unfold storeKey
  simp (maxDischargeDepth := 60) only [hC, State.onLedger_held]
theorem sanitizedOp_held {r0 : State} (key : Nat) (s : State) (hC : Held r0 s) : Held r0 (sanitizedOp key s) := by
  unfold sanitizedOp
  dsimp only
  (repeat' split) <;> simp (maxDischargeDepth := 60) only [hC, State.onFlash_held, State.onRst_held, commit_held,
      eraseBasin_held, eraseMaps_held, mbox_held, retest_held, storeKey_held, weirCheck_held]
theorem execSanitized_held {r0 : State} (s : State) (hC : Held r0 s) : HeldO r0 (execSanitized s) := by
  unfold execSanitized
  (repeat' split) <;> simp (maxDischargeDepth := 60) only [hC, finish_held, sanitizedOp_held, heldO_next]

/-! ## RegCommands -/

theorem readAction_held {r0 : State} (a off size : Nat) (s : State) (hC : Held r0 s) : Held r0 (readAction a off
    size s) := by
  unfold readAction
  (repeat' split) <;> simp (maxDischargeDepth := 60) only [hC, State.onTb_held, State.onWeir_held, onRail_held]
theorem windowFault_held {r0 : State} (m : MasterId) (typ : Fin 16) (addr : Nat) (s : State) (hC : Held r0 s) :
    Held r0 (windowFault m typ addr s) := by
  unfold windowFault
  simp (maxDischargeDepth := 60) only [hC, raise_held, free_held]
theorem xbarRead_held {r0 : State} (addr size : Nat) (m : MasterId) (s : State) (hC : Held r0 s) : Held r0
    (xbarRead addr size m s) := by
  unfold xbarRead
  (repeat' split) <;> simp (maxDischargeDepth := 60) only [hC, readAction_held, say_held, windowFault_held,
      ite_held]
theorem pageFault_held {r0 : State} (h : Fin 2) (typ : Fin 16) (off : Nat) (s : State) (hC : Held r0 s) : Held r0
    (pageFault h typ off s) := by
  unfold pageFault
  simp (maxDischargeDepth := 60) only [hC, raise_held]
theorem barRead_held {r0 : State} (h : Fin 2) (off size : Nat) (s : State) (hC : Held r0 s) : Held r0 (barRead h
    off size s) := by
  unfold barRead
  simp (maxDischargeDepth := 60) only [hC, pageFault_held, say_held, ite_held]
theorem headRead_held {r0 : State} (s : State) (x1 : RegTarget) (hC : Held r0 s) : Held r0 (headRead s x1) := by
  unfold headRead
  (repeat' split) <;> simp (maxDischargeDepth := 60) only [hC, barRead_held, say_held]
theorem serialRead_held {r0 : State} (off size : Nat) (m : MasterId) (s : State) (hC : Held r0 s) : Held r0
    (serialRead off size m s) := by
  unfold serialRead
  simp (maxDischargeDepth := 60) only [hC, say_held, windowFault_held, free_held, ite_held]
theorem configRetry_held {r0 : State} (t : RegTarget) (h : Fin 2) (s : State) (hC : Held r0 s) : Held r0
    (configRetry t h s) := by
  unfold configRetry
  (repeat' split) <;> simp (maxDischargeDepth := 60) only [hC, say_held]
theorem execRegisterRead_held {r0 : State} (r : RegRead) (s : State) (hC : Held r0 s) : HeldO r0 (execRegisterRead
    r s) := by
  unfold execRegisterRead
  (repeat' split) <;> simp (maxDischargeDepth := 60) only [hC, configRetry_held, finish_held, headRead_held,
      serialRead_held, xbarRead_held, heldO_next]
theorem badWriter_held {r0 : State} (m : MasterId) (addr : Nat) (s : State) (hC : Held r0 s) : Held r0 (badWriter m
    addr s) := by
  unfold badWriter
  simp (maxDischargeDepth := 60) only [hC, raise_held, free_held]
theorem serialWrite_held {r0 : State} (off size : Nat) (m : MasterId) (v : Word) (s : State) (hC : Held r0 s) :
    Held r0 (serialWrite off size m v s) := by
  unfold serialWrite
  simp (maxDischargeDepth := 60) only [hC, State.onBoot_held, badWriter_held, ite_held]
theorem clearPersist_held {r0 : State} (v : Word) (s : State) (hC : Held r0 s) : Held r0 (clearPersist v s) := by
  unfold clearPersist
  simp (maxDischargeDepth := 60) only [hC, State.onHost_held]
theorem writeFields_held {r0 : State} (a off size : Nat) (v : Word) (s : State) (hC : Held r0 s) : Held r0
    (writeFields a off size v s) := by
  unfold writeFields
  simp (maxDischargeDepth := 60) only [hC, State.onFault_held, State.onFrz_held, State.onPm_held, State.onRst_held,
      clearPersist_held, onStr_held, ite_held]
theorem xbarWrite_held {r0 : State} (addr size : Nat) (m : MasterId) (v : Word) (s : State) (hC : Held r0 s) :
    HeldO r0 (xbarWrite addr size m v s) := by
  unfold xbarWrite
  simp (maxDischargeDepth := 60) only [hC, badWriter_held, execChpFaultAck_held, execHstMark_held,
      execHstSettle_held, finish_held, windowFault_held, writeFields_held, heldO_next, iteO_held]
theorem maskVector_held {r0 : State} (h : Fin 2) (v : Fin 8) (masked : Bool) (s : State) (hC : Held r0 s) : Held r0
    (maskVector h v masked s) := by
  unfold maskVector
  simp (maxDischargeDepth := 60) only [hC, onHead_held, vectorOn_held, ite_held]
theorem pageWriteReg_held {r0 : State} (h : Fin 2) (off size : Nat) (v : Word) (s : State) (hC : Held r0 s) : HeldO
    r0 (pageWriteReg h off size v s) := by
  unfold pageWriteReg
  simp (maxDischargeDepth := 60) only [hC, clearPersist_held, execHstMark_held, execHstSettle_held, finish_held,
      pageFault_held, heldO_next, iteO_held]
theorem hdmWrite_held {r0 : State} (h : Fin 2) (idx : Fin 4) (base size ways gran : Nat) (commit lock : Bool) (s :
    State) (hC : Held r0 s) : Held r0 (hdmWrite h idx base size ways gran commit lock s) := by
  unfold hdmWrite
  simp (maxDischargeDepth := 60) only [hC, onHead_held, ite_held]
theorem hdmBarWrite_held {r0 : State} (h : Fin 2) (n : Fin 4) (k off size : Nat) (v : Word) (s : State) (hC : Held
    r0 s) : Held r0 (hdmBarWrite h n k off size v s) := by
  unfold hdmBarWrite
  simp (maxDischargeDepth := 60) only [hC, hdmWrite_held, onHead_held, ite_held]
theorem barStore_held {r0 : State} (h : Fin 2) (a off size : Nat) (v : Word) (s : State) (hC : Held r0 s) : Held r0
    (barStore h a off size v s) := by
  unfold barStore
  simp (maxDischargeDepth := 60) only [hC, onHead_held]
theorem barRegWrite_held {r0 : State} (h : Fin 2) (a off size : Nat) (v : Word) (s : State) (hC : Held r0 s) :
    HeldO r0 (barRegWrite h a off size v s) := by
  unfold barRegWrite
  (repeat' split) <;> simp (maxDischargeDepth := 60) only [hC, State.onHost_held, barStore_held,
      execRasStatusClear_held, hdmBarWrite_held, heldO_next]
theorem barWrite_held {r0 : State} (h : Fin 2) (off size : Nat) (v : Word) (s : State) (hC : Held r0 s) : HeldO r0
    (barWrite h off size v s) := by
  unfold barWrite
  dsimp only
  (repeat' split) <;> simp (maxDischargeDepth := 60) only [hC, barRegWrite_held, barStore_held, maskVector_held,
      pageWriteReg_held, heldO_next]
theorem mailboxOp_held {r0 : State} (h : Fin 2) (s : State) (x2 : MailboxCmd) (hC : Held r0 s) : Held r0 (mailboxOp
    h s x2) := by
  unfold mailboxOp
  (repeat' split) <;> simp (maxDischargeDepth := 60) only [hC, State.onCxl_held, mbox_held, free_held]
theorem headWrite_held {r0 : State} (t : RegTarget) (v : Word) (s : State) (hC : Held r0 s) : HeldO r0 (headWrite t
    v s) := by
  unfold headWrite
  (repeat' split) <;> simp_all (maxDischargeDepth := 60) [barWrite_held, hdmWrite_held, mailboxCmd_held,
      mailboxOp_held, maskVector_held, onHead_held, heldO_next]
theorem execRegisterWrite_held {r0 : State} (tgt : RegTarget) (master : MasterId) (value : Word) (s : State) (hC :
    Held r0 s) : HeldO r0 (execRegisterWrite tgt master value s) := by
  unfold execRegisterWrite
  (repeat' split) <;> simp (maxDischargeDepth := 60) only [hC, configRetry_held, finish_held, headWrite_held,
      serialWrite_held, xbarWrite_held, heldO_next]

/-! ## Spdm -/

theorem spdm_held {r0 : State} (p : Path) (ok : Bool) (bytes : List Byte) (s : State) (hC : Held r0 s) : Held r0
    (spdm p ok bytes s) := by
  unfold spdm
  simp (maxDischargeDepth := 60) only [hC, say_held]
theorem measureOp_held {r0 : State} (p : Path) (index : Nat) (s : State) (hC : Held r0 s) : Held r0 (measureOp p
    index s) := by
  unfold measureOp
  simp (maxDischargeDepth := 60) only [hC, spdm_held, free_held, ite_held]
theorem openSecured_held {r0 : State} (p : Path) (id : Nat) (owner : Bool) (s : State) (hC : Held r0 s) : Held r0
    (openSecured p id owner s) := by
  unfold openSecured
  simp (maxDischargeDepth := 60) only [hC, State.onUpd_held, spdm_held, ite_held]
theorem endSecured_held {r0 : State} (id : Nat) (s : State) (hC : Held r0 s) : Held r0 (endSecured id s) := by
  unfold endSecured
  dsimp only
  (repeat' split) <;> simp (maxDischargeDepth := 60) only [hC, State.onUpd_held, endSessions_held,
      releaseSession_held]
theorem ideKeyOp_held {r0 : State} (p : Path) (cxlMem : Bool) (stream key : Nat) (s : State) (hC : Held r0 s) :
    Held r0 (ideKeyOp p cxlMem stream key s) := by
  unfold ideKeyOp
  (repeat' split) <;> simp (maxDischargeDepth := 60) only [hC, State.onUpd_held, spdm_held]
theorem spdmOp_held {r0 : State} (p : Path) (req : SpdmReq) (s : State) (hC : Held r0 s) : Held r0 (spdmOp p req s)
    := by
  unfold spdmOp
  (repeat' split) <;> simp (maxDischargeDepth := 60) only [hC, endSecured_held, ideKeyOp_held, measureOp_held,
      openSecured_held, spdm_held]
theorem execSpdmRequest_held {r0 : State} (p : Path) (req : SpdmReq) (s : State) (hC : Held r0 s) : HeldO r0
    (execSpdmRequest p req s) := by
  unfold execSpdmRequest
  simp (maxDischargeDepth := 60) only [hC, finish_held, spdm_held, spdmOp_held, heldO_next, iteO_held]
theorem certifyOp_held {r0 : State} (chain : List Byte) (s : State) (hC : Held r0 s) : Held r0 (certifyOp chain s)
    := by
  unfold certifyOp
  simp (maxDischargeDepth := 60) only [hC, State.onUpd_held, bootWrite_held, record_held]
theorem execSetCertificate_held {r0 : State} (p : Path) (slot : Fin 8) (chain : List Byte) (s : State) (hC : Held
    r0 s) : HeldO r0 (execSetCertificate p slot chain s) := by
  unfold execSetCertificate
  simp (maxDischargeDepth := 60) only [hC, certifyOp_held, finish_held, spdm_held, heldO_next, iteO_held]

end Sys2Proof.Machine
end

