-- ==== Sys2Proof/Laws/Only.lean ====
section
/-! SUPPORT. `OnlyChanges` carried over by an update of one component, by choices and by folds: what the lemmas of the
shared operations are built from. -/

namespace Sys2Proof.Machine

theorem parts_mem {p : Part} {bs cs : List Part} (h0 : bs ⊆ cs) (h : bs.contains p = true) : p ∈ cs :=
  h0 (List.contains_iff_mem.mp h)
theorem parts_sub {as bs cs : List Part} (h0 : bs ⊆ cs) (h : (as.all fun p => bs.contains p) = true) : as ⊆ cs :=
  fun p hp => parts_mem h0 (List.all_eq_true.mp h p hp)
theorem only_step {cs : List Part} {r s t : State} (h : OnlyChanges cs r s) (ht : ∀ p, p ∉ cs → p.same s t) :
    OnlyChanges cs r t := OnlyChanges.trans h ht
theorem State.onTb_only {cs : List Part} {r : State} (f : TimeBase → TimeBase) (s : State) (hp : Part.tb ∈ cs)
    (h : OnlyChanges cs r s) : OnlyChanges cs r (s.onTb f) :=
  only_step h fun p hn => by cases p <;> first | rfl | exact absurd hp hn
theorem State.onClk_only {cs : List Part} {r : State} (f : Clocks → Clocks) (s : State) (hp : Part.clk ∈ cs)
    (h : OnlyChanges cs r s) : OnlyChanges cs r (s.onClk f) :=
  only_step h fun p hn => by cases p <;> first | rfl | exact absurd hp hn
theorem State.onHost_only {cs : List Part} {r : State} (f : HostRegion → HostRegion) (s : State) (hp : Part.host ∈ cs)
    (h : OnlyChanges cs r s) : OnlyChanges cs r (s.onHost f) :=
  only_step h fun p hn => by cases p <;> first | rfl | exact absurd hp hn
theorem State.onCxl_only {cs : List Part} {r : State} (f : Cxl → Cxl) (s : State) (hp : Part.cxl ∈ cs)
    (h : OnlyChanges cs r s) : OnlyChanges cs r (s.onCxl f) :=
  only_step h fun p hn => by cases p <;> first | rfl | exact absurd hp hn
theorem State.onWb_only {cs : List Part} {r : State} (f : WriteBuffer → WriteBuffer) (s : State) (hp : Part.wb ∈ cs)
    (h : OnlyChanges cs r s) : OnlyChanges cs r (s.onWb f) :=
  only_step h fun p hn => by cases p <;> first | rfl | exact absurd hp hn
theorem State.onDram_only {cs : List Part} {r : State} (f : Dram → Dram) (s : State) (hp : Part.dram ∈ cs)
    (h : OnlyChanges cs r s) : OnlyChanges cs r (s.onDram f) :=
  only_step h fun p hn => by cases p <;> first | rfl | exact absurd hp hn
theorem State.onPm_only {cs : List Part} {r : State} (f : PageMap → PageMap) (s : State) (hp : Part.pm ∈ cs)
    (h : OnlyChanges cs r s) : OnlyChanges cs r (s.onPm f) :=
  only_step h fun p hn => by cases p <;> first | rfl | exact absurd hp hn
theorem State.onLake_only {cs : List Part} {r : State} (f : Lakebed → Lakebed) (s : State) (hp : Part.lake ∈ cs)
    (h : OnlyChanges cs r s) : OnlyChanges cs r (s.onLake f) :=
  only_step h fun p hn => by cases p <;> first | rfl | exact absurd hp hn
theorem State.onBasin_only {cs : List Part} {r : State} (f : Basin → Basin) (s : State) (hp : Part.basin ∈ cs)
    (h : OnlyChanges cs r s) : OnlyChanges cs r (s.onBasin f) :=
  only_step h fun p hn => by cases p <;> first | rfl | exact absurd hp hn
theorem State.onFlash_only {cs : List Part} {r : State} (f : Flash → Flash) (s : State) (hp : Part.flash ∈ cs)
    (h : OnlyChanges cs r s) : OnlyChanges cs r (s.onFlash f) :=
  only_step h fun p hn => by cases p <;> first | rfl | exact absurd hp hn
theorem State.onLog_only {cs : List Part} {r : State} (f : DirtyLog → DirtyLog) (s : State) (hp : Part.log ∈ cs)
    (h : OnlyChanges cs r s) : OnlyChanges cs r (s.onLog f) :=
  only_step h fun p hn => by cases p <;> first | rfl | exact absurd hp hn
theorem State.onWeir_only {cs : List Part} {r : State} (f : Weir → Weir) (s : State) (hp : Part.weir ∈ cs)
    (h : OnlyChanges cs r s) : OnlyChanges cs r (s.onWeir f) :=
  only_step h fun p hn => by cases p <;> first | rfl | exact absurd hp hn
theorem State.onSave_only {cs : List Part} {r : State} (f : Save → Save) (s : State) (hp : Part.save ∈ cs)
    (h : OnlyChanges cs r s) : OnlyChanges cs r (s.onSave f) :=
  only_step h fun p hn => by cases p <;> first | rfl | exact absurd hp hn
theorem State.onRst_only {cs : List Part} {r : State} (f : Restore → Restore) (s : State) (hp : Part.rst ∈ cs)
    (h : OnlyChanges cs r s) : OnlyChanges cs r (s.onRst f) :=
  only_step h fun p hn => by cases p <;> first | rfl | exact absurd hp hn
theorem State.onLedger_only {cs : List Part} {r : State} (f : Ledger → Ledger) (s : State) (hp : Part.ledger ∈ cs)
    (h : OnlyChanges cs r s) : OnlyChanges cs r (s.onLedger f) :=
  only_step h fun p hn => by cases p <;> first | rfl | exact absurd hp hn
theorem State.onWl_only {cs : List Part} {r : State} (f : Waterline → Waterline) (s : State) (hp : Part.wl ∈ cs)
    (h : OnlyChanges cs r s) : OnlyChanges cs r (s.onWl f) :=
  only_step h fun p hn => by cases p <;> first | rfl | exact absurd hp hn
theorem State.onFault_only {cs : List Part} {r : State} (f : Faults → Faults) (s : State) (hp : Part.fault ∈ cs)
    (h : OnlyChanges cs r s) : OnlyChanges cs r (s.onFault f) :=
  only_step h fun p hn => by cases p <;> first | rfl | exact absurd hp hn
theorem State.onCrew_only {cs : List Part} {r : State} (f : Crews → Crews) (s : State) (hp : Part.crew ∈ cs)
    (h : OnlyChanges cs r s) : OnlyChanges cs r (s.onCrew f) :=
  only_step h fun p hn => by cases p <;> first | rfl | exact absurd hp hn
theorem State.onSeq_only {cs : List Part} {r : State} (f : Seq → Seq) (s : State) (hp : Part.seq ∈ cs)
    (h : OnlyChanges cs r s) : OnlyChanges cs r (s.onSeq f) :=
  only_step h fun p hn => by cases p <;> first | rfl | exact absurd hp hn
theorem State.onBoot_only {cs : List Part} {r : State} (f : Boot → Boot) (s : State) (hp : Part.boot ∈ cs)
    (h : OnlyChanges cs r s) : OnlyChanges cs r (s.onBoot f) :=
  only_step h fun p hn => by cases p <;> first | rfl | exact absurd hp hn
theorem State.onFrz_only {cs : List Part} {r : State} (f : Freeze → Freeze) (s : State) (hp : Part.frz ∈ cs)
    (h : OnlyChanges cs r s) : OnlyChanges cs r (s.onFrz f) :=
  only_step h fun p hn => by cases p <;> first | rfl | exact absurd hp hn
theorem State.onBat_only {cs : List Part} {r : State} (f : Gauge → Gauge) (s : State) (hp : Part.bat ∈ cs)
    (h : OnlyChanges cs r s) : OnlyChanges cs r (s.onBat f) :=
  only_step h fun p hn => by cases p <;> first | rfl | exact absurd hp hn
theorem State.onOd_only {cs : List Part} {r : State} (f : Od → Od) (s : State) (hp : Part.od ∈ cs)
    (h : OnlyChanges cs r s) : OnlyChanges cs r (s.onOd f) :=
  only_step h fun p hn => by cases p <;> first | rfl | exact absurd hp hn
theorem State.onBus_only {cs : List Part} {r : State} (f : Bus → Bus) (s : State) (hp : Part.bus ∈ cs)
    (h : OnlyChanges cs r s) : OnlyChanges cs r (s.onBus f) :=
  only_step h fun p hn => by cases p <;> first | rfl | exact absurd hp hn
theorem State.onUpd_only {cs : List Part} {r : State} (f : Update → Update) (s : State) (hp : Part.upd ∈ cs)
    (h : OnlyChanges cs r s) : OnlyChanges cs r (s.onUpd f) :=
  only_step h fun p hn => by cases p <;> first | rfl | exact absurd hp hn
theorem State.onPlan_only {cs : List Part} {r : State} (f : Planner → Planner) (s : State) (hp : Part.plan ∈ cs)
    (h : OnlyChanges cs r s) : OnlyChanges cs r (s.onPlan f) :=
  only_step h fun p hn => by cases p <;> first | rfl | exact absurd hp hn
theorem State.onOut_only {cs : List Part} {r : State} (f : Out → Out) (s : State) (hp : Part.out ∈ cs)
    (h : OnlyChanges cs r s) : OnlyChanges cs r (s.onOut f) :=
  only_step h fun p hn => by cases p <;> first | rfl | exact absurd hp hn
theorem free_only {cs : List Part} {r : State} (s : State) (n : Nat) (hp : Part.free ∈ cs) (h : OnlyChanges cs r s) :
    OnlyChanges cs r { s with free := n } :=
  only_step h fun p hn => by cases p <;> first | rfl | exact absurd hp hn
theorem ite_only {c : Prop} [Decidable c] {cs : List Part} {r a b : State} (ha : OnlyChanges cs r a)
    (hb : OnlyChanges cs r b) : OnlyChanges cs r (if c then a else b) := by
  split <;> assumption
theorem ite2_only {α : Type} {c : Prop} [Decidable c] {cs : List Part} {r : State} {a b : α × State}
    (ha : OnlyChanges cs r a.2) (hb : OnlyChanges cs r b.2) : OnlyChanges cs r (if c then a else b).2 := by
  split <;> assumption
theorem ite1_only {α : Type} {c : Prop} [Decidable c] {cs : List Part} {r : State} {a b : State × α}
    (ha : OnlyChanges cs r a.1) (hb : OnlyChanges cs r b.1) : OnlyChanges cs r (if c then a else b).1 := by
  split <;> assumption
theorem only_foldl {α : Type} {cs : List Part} {r : State} {g : State → α → State}
    (hg : ∀ s x, OnlyChanges cs r s → OnlyChanges cs r (g s x)) (l : List α) (s : State) (h : OnlyChanges cs r s) :
    OnlyChanges cs r (l.foldl g s) := by
  induction l generalizing s with
  | nil => exact h
  | cons a t ih => exact ih _ (hg _ _ h)

end Sys2Proof.Machine
end

