-- ==== Sys2Proof/Laws/OnlyShared.lean ====
section
/-! SUPPORT. `OnlyChanges` through the shared operations on outputs, the Waterline, the Weir, time, the page map
    and the strings: one lemma an operation names every part it can change. -/

namespace Sys2Proof.Machine

/-! ## Ops -/

theorem say_only {cs : List Part} {r0 : State} (r : Response) (s : State) (h0 : [.out] ⊆ cs) (hC : OnlyChanges cs
    r0 s) :
    OnlyChanges cs r0 (say r s) := by
  simp only [List.cons_subset, List.nil_subset, and_true] at h0
  unfold say
  simp (maxDischargeDepth := 60) only [hC, h0, State.onOut_only]
theorem onHead_only {cs : List Part} {r0 : State} (h : Fin 2) (f : Head → Head) (s : State) (h0 : [.host] ⊆ cs) (hC
    : OnlyChanges cs r0 s) :
    OnlyChanges cs r0 (onHead h f s) := by
  simp only [List.cons_subset, List.nil_subset, and_true] at h0
  unfold onHead
  simp (maxDischargeDepth := 60) only [hC, h0, State.onHost_only]
theorem vectorOn_only {cs : List Part} {r0 : State} (h : Fin 2) (v : Fin 8) (s : State) (h0 : [.host, .out] ⊆ cs)
    (hC : OnlyChanges cs r0 s) :
    OnlyChanges cs r0 (vectorOn h v s) := by
  simp only [List.cons_subset, List.nil_subset, and_true] at h0
  unfold vectorOn
  simp (maxDischargeDepth := 60) only [hC, h0, List.cons_subset, List.nil_subset, and_self, State.onOut_only,
      onHead_only, ite_only]
theorem vector_only {cs : List Part} {r0 : State} (v : Fin 8) (s : State) (h0 : [.host, .out] ⊆ cs) (hC :
    OnlyChanges cs r0 s) :
    OnlyChanges cs r0 (vector v s) := by
  simp only [List.cons_subset, List.nil_subset, and_true] at h0
  unfold vector
  simp (maxDischargeDepth := 60) only [hC, h0, List.cons_subset, List.nil_subset, and_self, vectorOn_only, ite_only]
theorem trialStops_only {cs : List Part} {r0 : State} (cause : Nat) (s : State) (h0 : [.upd] ⊆ cs) (hC :
    OnlyChanges cs r0 s) :
    OnlyChanges cs r0 (trialStops cause s) := by
  simp only [List.cons_subset, List.nil_subset, and_true] at h0
  unfold trialStops
  simp (maxDischargeDepth := 60) only [hC, h0, State.onUpd_only, ite_only]
theorem trialTime_only {cs : List Part} {r0 : State} (s : State) (h0 : [.upd] ⊆ cs) (hC : OnlyChanges cs r0 s) :
  
     OnlyChanges cs r0 (trialTime s) := by
  simp only [List.cons_subset, List.nil_subset, and_true] at h0
  unfold trialTime
  simp (maxDischargeDepth := 60) only [hC, h0, State.onUpd_only, ite_only]
theorem bootWrite_only {cs : List Part} {r0 : State} (s : State) (h0 : [.upd] ⊆ cs) (hC : OnlyChanges cs r0 s) :
  
     OnlyChanges cs r0 (bootWrite s) := by
  simp only [List.cons_subset, List.nil_subset, and_true] at h0
  unfold bootWrite
  simp (maxDischargeDepth := 60) only [hC, h0, State.onUpd_only]
theorem busStop_only {cs : List Part} {r0 : State} (p : Port) (s : State) (h0 : [.bus] ⊆ cs) (hC : OnlyChanges cs
    r0 s) :
    OnlyChanges cs r0 (busStop p s) := by
  simp only [List.cons_subset, List.nil_subset, and_true] at h0
  unfold busStop
  simp (maxDischargeDepth := 60) only [hC, h0, State.onBus_only]
theorem mctpSend_only {cs : List Part} {r0 : State} (q : McReq) (bytes : List Byte) (s : State) (h0 : [.bus, .out]
    ⊆ cs) (hC : OnlyChanges cs r0 s) :
    OnlyChanges cs r0 (mctpSend q bytes s) := by
  simp only [List.cons_subset, List.nil_subset, and_true] at h0
  unfold mctpSend
  simp (maxDischargeDepth := 60) only [hC, h0, List.cons_subset, List.nil_subset, and_self, busStop_only, say_only]
theorem mctpAnswer_only {cs : List Part} {r0 : State} (q : McReq) (code : Nat) (payload : List Byte) (s : State)
    (h0 : [.bus, .out] ⊆ cs) (hC : OnlyChanges cs r0 s) :
    OnlyChanges cs r0 (mctpAnswer q code payload s) := by
  simp only [List.cons_subset, List.nil_subset, and_true] at h0
  unfold mctpAnswer
  simp (maxDischargeDepth := 60) only [hC, h0, List.cons_subset, List.nil_subset, and_self, State.onBus_only,
      mctpSend_only]
theorem reply_only {cs : List Part} {r0 : State} (p : Path) (status : Nat) (bytes : List Byte) (s : State) (h0 :
    [.host, .bus, .out] ⊆ cs) (hC : OnlyChanges cs r0 s) :
    OnlyChanges cs r0 (reply p status bytes s) := by
  simp only [List.cons_subset, List.nil_subset, and_true] at h0
  unfold reply
  (repeat' split) <;> simp (maxDischargeDepth := 60) only [hC, h0, List.cons_subset, List.nil_subset, and_self,
      mctpAnswer_only, say_only, vectorOn_only]
theorem mbox_only {cs : List Part} {r0 : State} (h : Fin 2) (code : MboxCode) (bytes : List Byte) (s : State) (h0 :
    [.host, .out] ⊆ cs) (hC : OnlyChanges cs r0 s) :
    OnlyChanges cs r0 (mbox h code bytes s) := by
  simp only [List.cons_subset, List.nil_subset, and_true] at h0
  unfold mbox
  simp (maxDischargeDepth := 60) only [hC, h0, List.cons_subset, List.nil_subset, and_self, say_only, vectorOn_only]
theorem endSessions_only {cs : List Part} {r0 : State} (p : Nat → Bool) (s : State) (h0 : [.od] ⊆ cs) (hC :
    OnlyChanges cs r0 s) :
    OnlyChanges cs r0 (endSessions p s) := by
  simp only [List.cons_subset, List.nil_subset, and_true] at h0
  unfold endSessions
  simp (maxDischargeDepth := 60) only [hC, h0, State.onOd_only]
theorem takeHeadUnits_only {cs : List Part} {r0 : State} (s : State) (h0 : [.host] ⊆ cs) (hC : OnlyChanges cs r0 s)
    :
    OnlyChanges cs r0 (takeHeadUnits s) := by
  simp only [List.cons_subset, List.nil_subset, and_true] at h0
  unfold takeHeadUnits
  simp (maxDischargeDepth := 60) only [hC, h0, State.onHost_only]
theorem onCrewUnit_only {cs : List Part} {r0 : State} (c : Crew) (f : CrewUnit → CrewUnit) (s : State) (h0 :
    [.crew] ⊆ cs) (hC : OnlyChanges cs r0 s) :
    OnlyChanges cs r0 (onCrewUnit c f s) := by
  simp only [List.cons_subset, List.nil_subset, and_true] at h0
  unfold onCrewUnit
  simp (maxDischargeDepth := 60) only [hC, h0, State.onCrew_only]
theorem onStr_only {cs : List Part} {r0 : State} (x : Str) (f : BatString → BatString) (s : State) (h0 : [.bat] ⊆
    cs) (hC : OnlyChanges cs r0 s) :
    OnlyChanges cs r0 (onStr x f s) := by
  simp only [List.cons_subset, List.nil_subset, and_true] at h0
  unfold onStr
  simp (maxDischargeDepth := 60) only [hC, h0, State.onBat_only]
theorem writeByte_only {cs : List Part} {r0 : State} (a : Nat) (b : Byte) (s : State) (h0 : [.dram] ⊆ cs) (hC :
    OnlyChanges cs r0 s) :
    OnlyChanges cs r0 (writeByte a b s) := by
  simp only [List.cons_subset, List.nil_subset, and_true] at h0
  unfold writeByte
  simp (maxDischargeDepth := 60) only [hC, h0, State.onDram_only]
theorem writeBytes_only {cs : List Part} {r0 : State} (a : Nat) (l : List Byte) (s : State) (h0 : [.dram] ⊆ cs) (hC
    : OnlyChanges cs r0 s) :
    OnlyChanges cs r0 (writeBytes a l s) := by
  induction l generalizing a s with
  | nil => exact hC
  | cons b t ih => exact ih _ _ (writeByte_only a b s h0 hC)
theorem writeEnabled_only {cs : List Part} {r0 : State} (a : Nat) (d : Line) (be : BitVec 64) (n k : Nat) (s :
    State) (h0 : [.dram] ⊆ cs) (hC : OnlyChanges cs r0 s) :
    OnlyChanges cs r0 (writeEnabled a d be n k s) := by
  induction n generalizing k s with
  | zero => exact hC
  | succ n ih => unfold writeEnabled; apply ih; split <;> simp only [hC, h0, writeByte_only]
theorem writeLine_only {cs : List Part} {r0 : State} (line : Nat) (d : Line) (be : BitVec 64) (s : State) (h0 :
    [.dram] ⊆ cs) (hC : OnlyChanges cs r0 s) :
    OnlyChanges cs r0 (writeLine line d be s) := by
  simp only [List.cons_subset, List.nil_subset, and_true] at h0
  unfold writeLine
  simp (maxDischargeDepth := 60) only [hC, h0, List.cons_subset, List.nil_subset, and_self, writeEnabled_only]
theorem refreshPoison_only {cs : List Part} {r0 : State} (s : State) (h0 : [.cxl] ⊆ cs) (hC : OnlyChanges cs r0 s)
    :
    OnlyChanges cs r0 (refreshPoison s) := by
  simp only [List.cons_subset, List.nil_subset, and_true] at h0
  unfold refreshPoison
  simp (maxDischargeDepth := 60) only [hC, h0, State.onCxl_only]
theorem setPoison_only {cs : List Part} {r0 : State} (line : Nat) (on : Bool) (s : State) (h0 : [.cxl, .dram] ⊆ cs)
    (hC : OnlyChanges cs r0 s) :
    OnlyChanges cs r0 (setPoison line on s) := by
  simp only [List.cons_subset, List.nil_subset, and_true] at h0
  unfold setPoison
  simp (maxDischargeDepth := 60) only [hC, h0, List.cons_subset, List.nil_subset, and_self, State.onDram_only,
      refreshPoison_only, ite_only]
theorem poisonPage_only {cs : List Part} {r0 : State} (page : Nat) (s : State) (h0 : [.cxl, .dram] ⊆ cs) (hC :
    OnlyChanges cs r0 s) :
    OnlyChanges cs r0 (poisonPage page s) := by
  simp only [List.cons_subset, List.nil_subset, and_true] at h0
  unfold poisonPage
  simp (maxDischargeDepth := 60) only [hC, h0, List.cons_subset, List.nil_subset, and_self, State.onDram_only,
      refreshPoison_only]

/-! ## Waterline -/

theorem raiseCall_only {cs : List Part} {r0 : State} (s : State) (h0 : [.bus] ⊆ cs) (hC : OnlyChanges cs r0 s) :
  
     OnlyChanges cs r0 (raiseCall s) := by
  simp only [List.cons_subset, List.nil_subset, and_true] at h0
  unfold raiseCall
  simp (maxDischargeDepth := 60) only [hC, h0, State.onBus_only]
theorem attend_only {cs : List Part} {r0 : State} (n : Nat) (s : State) (h0 : [.bus] ⊆ cs) (hC : OnlyChanges cs r0
    s) :
    OnlyChanges cs r0 (attend n s) := by
  simp only [List.cons_subset, List.nil_subset, and_true] at h0
  unfold attend
  simp (maxDischargeDepth := 60) only [hC, h0, List.cons_subset, List.nil_subset, and_self, State.onBus_only,
      raiseCall_only, ite_only]
theorem feedCxl_only {cs : List Part} {r0 : State} (r : WlRec) (s : State) (h0 : [.host, .cxl, .out] ⊆ cs) (hC :
    OnlyChanges cs r0 s) :
    OnlyChanges cs r0 (feedCxl r s) := by
  simp only [List.cons_subset, List.nil_subset, and_true] at h0
  unfold feedCxl
  simp (maxDischargeDepth := 60) only [hC, h0, List.cons_subset, List.nil_subset, and_self, State.onCxl_only,
      vector_only, ite_only]
theorem issueSeq_only {cs : List Part} {r0 : State} (s : State) (h0 : [.wl] ⊆ cs) (hC : OnlyChanges cs r0 s) :
   
    OnlyChanges cs r0 (issueSeq s) := by
  simp only [List.cons_subset, List.nil_subset, and_true] at h0
  unfold issueSeq
  simp (maxDischargeDepth := 60) only [hC, h0, State.onWl_only]
theorem dropRec_only {cs : List Part} {r0 : State} (sev : Nat) (s : State) (h0 : [.wl] ⊆ cs) (hC : OnlyChanges cs
    r0 s) :
    OnlyChanges cs r0 (dropRec sev s) := by
  simp only [List.cons_subset, List.nil_subset, and_true] at h0
  unfold dropRec
  simp (maxDischargeDepth := 60) only [hC, h0, State.onWl_only]
theorem storeWl_only {cs : List Part} {r0 : State} (r : WlRec) (s : State) (h0 : [.host, .cxl, .wl, .out] ⊆ cs) (hC
    : OnlyChanges cs r0 s) :
    OnlyChanges cs r0 (storeWl r s) := by
  simp only [List.cons_subset, List.nil_subset, and_true] at h0
  unfold storeWl
  (repeat' split) <;> simp (maxDischargeDepth := 60) only [hC, h0, List.cons_subset, List.nil_subset, and_self,
      State.onWl_only, dropRec_only, feedCxl_only]
theorem recordWith_only {cs : List Part} {r0 : State} (code : BitVec 16) (sev : Fin 8) (src : MasterId) (arg : Nat)
    (conseq partial' : Bool) (snap : List Word) (s : State) (h0 : [.host, .cxl, .wl, .bus, .out] ⊆ cs) (hC :
    OnlyChanges cs r0 s) :
    OnlyChanges cs r0 (recordWith code sev src arg conseq partial' snap s) := by
  simp only [List.cons_subset, List.nil_subset, and_true] at h0
  unfold recordWith
  simp (maxDischargeDepth := 60) only [hC, h0, List.cons_subset, List.nil_subset, and_self, attend_only,
      issueSeq_only, storeWl_only, ite_only]
theorem record_only {cs : List Part} {r0 : State} (code : BitVec 16) (sev : Fin 8) (src : MasterId) (arg : Nat) (s
    : State) (h0 : [.host, .cxl, .wl, .bus, .out] ⊆ cs) (hC : OnlyChanges cs r0 s) :
    OnlyChanges cs r0 (record
    code sev src arg s) := by
  simp only [List.cons_subset, List.nil_subset, and_true] at h0
  unfold record
  simp (maxDischargeDepth := 60) only [hC, h0, List.cons_subset, List.nil_subset, and_self, recordWith_only,
      ite_only]
theorem recordFree_only {cs : List Part} {r0 : State} (sev : Fin 8) (src : MasterId) (arg : Nat) (s : State) (h0 :
    [.free, .host, .cxl, .wl, .bus, .out] ⊆ cs) (hC : OnlyChanges cs r0 s) :
    OnlyChanges cs r0 (recordFree sev
    src arg s) := by
  simp only [List.cons_subset, List.nil_subset, and_true] at h0
  unfold recordFree
  simp (maxDischargeDepth := 60) only [hC, h0, List.cons_subset, List.nil_subset, and_self, record_only, free_only]
theorem moveStaged_only {cs : List Part} {r0 : State} (s : State) (h0 : [.host, .cxl, .wl, .bus, .out] ⊆ cs) (hC :
    OnlyChanges cs r0 s) :
    OnlyChanges cs r0 (moveStaged s) := by
  unfold moveStaged
  dsimp only
  split
  · exact hC
  · split
    · exact only_foldl (fun s x h => feedCxl_only _ _ (parts_sub h0 rfl) h) _ _ (State.onWl_only _ _ (parts_mem h0
        rfl) hC)
    · refine record_only _ _ _ _ _ (parts_sub h0 rfl) (only_foldl (fun s x h => ?_) _ _ (State.onWl_only _ _
        (parts_mem h0 rfl) hC))
      split
      · exact dropRec_only _ _ (parts_sub h0 rfl) h
      · exact feedCxl_only _ _ (parts_sub h0 rfl) (State.onWl_only _ _ (parts_mem h0 rfl) h)
theorem holdCommit_only {cs : List Part} {r0 : State} (c : Commit) (s : State) (h0 : [.free, .host, .cxl, .ledger,
    .wl, .bus, .out] ⊆ cs) (hC : OnlyChanges cs r0 s) :
    OnlyChanges cs r0 (holdCommit c s) := by
  simp only [List.cons_subset, List.nil_subset, and_true] at h0
  unfold holdCommit
  simp (maxDischargeDepth := 60) only [hC, h0, List.cons_subset, List.nil_subset, and_self, State.onLedger_only,
      recordWith_only, free_only]
theorem rootWrite_only {cs : List Part} {r0 : State} (typ gen : Nat) (c : Option Commit) (ws : List Word) (s :
    State) (h0 : [.ledger] ⊆ cs) (hC : OnlyChanges cs r0 s) :
    OnlyChanges cs r0 (rootWrite typ gen c ws s) := by
  simp only [List.cons_subset, List.nil_subset, and_true] at h0
  unfold rootWrite
  simp (maxDischargeDepth := 60) only [hC, h0, State.onLedger_only]
theorem commit_only {cs : List Part} {r0 : State} (c : Commit) (s : State) (h0 : [.free, .host, .cxl, .ledger, .wl,
    .bus, .out] ⊆ cs) (hC : OnlyChanges cs r0 s) :
    OnlyChanges cs r0 (commit c s) := by
  simp only [List.cons_subset, List.nil_subset, and_true] at h0
  unfold commit
  simp (maxDischargeDepth := 60) only [hC, h0, List.cons_subset, List.nil_subset, and_self, State.onLedger_only,
      holdCommit_only, rootWrite_only, ite_only]

/-! ## Weir -/

theorem starvedCheck_only {cs : List Part} {r0 : State} (s : State) (h0 : [.lake] ⊆ cs) (hC : OnlyChanges cs r0 s)
    :
    OnlyChanges cs r0 (starvedCheck s) := by
  simp only [List.cons_subset, List.nil_subset, and_true] at h0
  unfold starvedCheck
  simp (maxDischargeDepth := 60) only [hC, h0, State.onLake_only]
theorem sprintRun_only {cs : List Part} {r0 : State} (s : State) (h0 : [.pm, .lake] ⊆ cs) (hC : OnlyChanges cs r0
    s) :
    OnlyChanges cs r0 (sprintRun s) := by
  simp only [List.cons_subset, List.nil_subset, and_true] at h0
  unfold sprintRun
  simp (maxDischargeDepth := 60) only [hC, h0, List.cons_subset, List.nil_subset, and_self, State.onPm_only,
      starvedCheck_only]
theorem sprintCheck_only {cs : List Part} {r0 : State} (s : State) (h0 : [.pm, .lake] ⊆ cs) (hC : OnlyChanges cs r0
    s) :
    OnlyChanges cs r0 (sprintCheck s) := by
  simp only [List.cons_subset, List.nil_subset, and_true] at h0
  unfold sprintCheck
  simp (maxDischargeDepth := 60) only [hC, h0, List.cons_subset, List.nil_subset, and_self, State.onPm_only,
      sprintRun_only]
theorem episodeCheck_only {cs : List Part} {r0 : State} (cause : Nat) (s : State) (h0 : [.host, .cxl, .weir, .wl,
    .bus, .out] ⊆ cs) (hC : OnlyChanges cs r0 s) :
    OnlyChanges cs r0 (episodeCheck cause s) := by
  simp only [List.cons_subset, List.nil_subset, and_true] at h0
  unfold episodeCheck
  dsimp only
  (repeat' split) <;> simp (maxDischargeDepth := 60) only [hC, h0, List.cons_subset, List.nil_subset, and_self,
      State.onWeir_only, record_only, recordWith_only]
theorem weirCheck_only {cs : List Part} {r0 : State} (cause : Nat) (s : State) (h0 : [.host, .cxl, .pm, .lake,
    .weir, .wl, .bus, .out] ⊆ cs) (hC : OnlyChanges cs r0 s) :
    OnlyChanges cs r0 (weirCheck cause s) := by
  simp only [List.cons_subset, List.nil_subset, and_true] at h0
  unfold weirCheck
  simp (maxDischargeDepth := 60) only [hC, h0, List.cons_subset, List.nil_subset, and_self, episodeCheck_only,
      sprintCheck_only]

/-! ## Time -/

theorem applyEntry_only {cs : List Part} {r0 : State} (e : WEntry) (s : State) (h0 : [.cxl, .dram] ⊆ cs) (hC :
    OnlyChanges cs r0 s) :
    OnlyChanges cs r0 (applyEntry e s) := by
  simp only [List.cons_subset, List.nil_subset, and_true] at h0
  unfold applyEntry
  simp (maxDischargeDepth := 60) only [hC, h0, List.cons_subset, List.nil_subset, and_self, setPoison_only,
      writeLine_only]
theorem drainOne_only {cs : List Part} {r0 : State} (s : State) (h0 : [.cxl, .wb, .dram] ⊆ cs) (hC : OnlyChanges cs
    r0 s) :
    OnlyChanges cs r0 (drainOne s) := by
  simp only [List.cons_subset, List.nil_subset, and_true] at h0
  unfold drainOne
  (repeat' split) <;> simp (maxDischargeDepth := 60) only [hC, h0, List.cons_subset, List.nil_subset, and_self,
      State.onWb_only, applyEntry_only]

/-! ## PageMap -/

theorem logAppend_only {cs : List Part} {r0 : State} (e : LogEntry) (s : State) (h0 : [.log] ⊆ cs) (hC :
    OnlyChanges cs r0 s) :
    OnlyChanges cs r0 (logAppend e s) := by
  simp only [List.cons_subset, List.nil_subset, and_true] at h0
  unfold logAppend
  simp (maxDischargeDepth := 60) only [hC, h0, State.onLog_only]
theorem onBucket_only {cs : List Part} {r0 : State} (slot : Nat) (f : Bucket → Bucket) (s : State) (h0 : [.pm] ⊆
    cs) (hC : OnlyChanges cs r0 s) :
    OnlyChanges cs r0 (onBucket slot f s) := by
  simp only [List.cons_subset, List.nil_subset, and_true] at h0
  unfold onBucket
  simp (maxDischargeDepth := 60) only [hC, h0, State.onPm_only]
theorem countUp_only {cs : List Part} {r0 : State} (slot : Nat) (s : State) (h0 : [.pm] ⊆ cs) (hC : OnlyChanges cs
    r0 s) :
    OnlyChanges cs r0 (countUp slot s) := by
  simp only [List.cons_subset, List.nil_subset, and_true] at h0
  unfold countUp
  simp (maxDischargeDepth := 60) only [hC, h0, List.cons_subset, List.nil_subset, and_self, onBucket_only]
theorem countDown_only {cs : List Part} {r0 : State} (slot : Nat) (s : State) (h0 : [.pm] ⊆ cs) (hC : OnlyChanges
    cs r0 s) :
    OnlyChanges cs r0 (countDown slot s) := by
  simp only [List.cons_subset, List.nil_subset, and_true] at h0
  unfold countDown
  simp (maxDischargeDepth := 60) only [hC, h0, List.cons_subset, List.nil_subset, and_self, onBucket_only]
theorem setCoarsened_only {cs : List Part} {r0 : State} (on : Bool) (s : State) (h0 : [.host, .out] ⊆ cs) (hC :
    OnlyChanges cs r0 s) :
    OnlyChanges cs r0 (setCoarsened on s) := by
  simp only [List.cons_subset, List.nil_subset, and_true] at h0
  unfold setCoarsened
  simp (maxDischargeDepth := 60) only [hC, h0, List.cons_subset, List.nil_subset, and_self, State.onHost_only,
      vector_only, ite_only]
theorem retireEmpty_only {cs : List Part} {r0 : State} (s : State) (h0 : [.pm, .ledger] ⊆ cs) (hC : OnlyChanges cs
    r0 s) :
    OnlyChanges cs r0 (retireEmpty s) := by
  simp only [List.cons_subset, List.nil_subset, and_true] at h0
  unfold retireEmpty
  (repeat' split) <;> simp (maxDischargeDepth := 60) only [hC, h0, State.onLedger_only, State.onPm_only]
theorem openBucket_only {cs : List Part} {r0 : State} (slot : Nat) (s : State) (h0 : [.host, .pm, .ledger, .out] ⊆
    cs) (hC : OnlyChanges cs r0 s) :
    OnlyChanges cs r0 (openBucket slot s) := by
  simp only [List.cons_subset, List.nil_subset, and_true] at h0
  unfold openBucket
  simp (maxDischargeDepth := 60) only [hC, h0, List.cons_subset, List.nil_subset, and_self, State.onLedger_only,
      State.onPm_only, setCoarsened_only]
theorem joinNewest_only {cs : List Part} {r0 : State} (b : Bucket) (s : State) (h0 : [.host, .cxl, .pm, .wl, .bus,
    .out] ⊆ cs) (hC : OnlyChanges cs r0 s) :
    OnlyChanges cs r0 (joinNewest b s) := by
  simp only [List.cons_subset, List.nil_subset, and_true] at h0
  unfold joinNewest
  simp (maxDischargeDepth := 60) only [hC, h0, List.cons_subset, List.nil_subset, and_self, onBucket_only,
      record_only, setCoarsened_only, ite_only]
theorem enterNewest_only {cs : List Part} {r0 : State} (s : State) (h0 : [.host, .cxl, .pm, .ledger, .wl, .bus,
    .out] ⊆ cs) (hC : OnlyChanges cs r0 s) :
    OnlyChanges cs r0 (enterNewest s).1 := by
  simp only [List.cons_subset, List.nil_subset, and_true] at h0
  unfold enterNewest
  (repeat' split) <;> simp (maxDischargeDepth := 60) only [hC, h0, List.cons_subset, List.nil_subset, and_self,
      joinNewest_only, openBucket_only]
theorem enterOldest_only {cs : List Part} {r0 : State} (s : State) (h0 : [.host, .pm, .ledger, .out] ⊆ cs) (hC :
    OnlyChanges cs r0 s) :
    OnlyChanges cs r0 (enterOldest s).1 := by
  simp only [List.cons_subset, List.nil_subset, and_true] at h0
  unfold enterOldest
  (repeat' split) <;> simp (maxDischargeDepth := 60) only [hC, h0, List.cons_subset, List.nil_subset, and_self,
      openBucket_only]
theorem setPage_only {cs : List Part} {r0 : State} (page : Nat) (e : PageEntry) (s : State) (h0 : [.pm] ⊆ cs) (hC :
    OnlyChanges cs r0 s) :
    OnlyChanges cs r0 (setPage page e s) := by
  simp only [List.cons_subset, List.nil_subset, and_true] at h0
  unfold setPage
  simp (maxDischargeDepth := 60) only [hC, h0, State.onPm_only]
theorem writeBack_only {cs : List Part} {r0 : State} (s : State) (h0 : [.pm] ⊆ cs) (hC : OnlyChanges cs r0 s) :
   
    OnlyChanges cs r0 (writeBack s) := by
  simp only [List.cons_subset, List.nil_subset, and_true] at h0
  unfold writeBack
  simp (maxDischargeDepth := 60) only [hC, h0, State.onPm_only]
theorem residueUp_only {cs : List Part} {r0 : State} (s : State) (h0 : [.pm] ⊆ cs) (hC : OnlyChanges cs r0 s) :
   
    OnlyChanges cs r0 (residueUp s) := by
  simp only [List.cons_subset, List.nil_subset, and_true] at h0
  unfold residueUp
  simp (maxDischargeDepth := 60) only [hC, h0, State.onPm_only]
theorem residueDown_only {cs : List Part} {r0 : State} (s : State) (h0 : [.pm] ⊆ cs) (hC : OnlyChanges cs r0 s) :
 
      OnlyChanges cs r0 (residueDown s) := by
  simp only [List.cons_subset, List.nil_subset, and_true] at h0
  unfold residueDown
  simp (maxDischargeDepth := 60) only [hC, h0, State.onPm_only]
theorem dropLost_only {cs : List Part} {r0 : State} (page : Nat) (s : State) (h0 : [.pm] ⊆ cs) (hC : OnlyChanges cs
    r0 s) :
    OnlyChanges cs r0 (dropLost page s) := by
  simp only [List.cons_subset, List.nil_subset, and_true] at h0
  unfold dropLost
  simp (maxDischargeDepth := 60) only [hC, h0, State.onPm_only]
theorem markLost_only {cs : List Part} {r0 : State} (page : Nat) (why : LostReason) (carried : Bool) (s : State)
    (h0 : [.cxl, .dram, .pm] ⊆ cs) (hC : OnlyChanges cs r0 s) :
    OnlyChanges cs r0 (markLost page why carried s)
    := by
  simp only [List.cons_subset, List.nil_subset, and_true] at h0
  unfold markLost
  simp (maxDischargeDepth := 60) only [hC, h0, List.cons_subset, List.nil_subset, and_self, State.onPm_only,
      poisonPage_only, setPage_only]
theorem lostNoMore_only {cs : List Part} {r0 : State} (page : Nat) (s : State) (h0 : [.pm] ⊆ cs) (hC : OnlyChanges
    cs r0 s) :
    OnlyChanges cs r0 (lostNoMore page s) := by
  simp only [List.cons_subset, List.nil_subset, and_true] at h0
  unfold lostNoMore
  simp (maxDischargeDepth := 60) only [hC, h0, State.onPm_only]
theorem firstWrite_only {cs : List Part} {r0 : State} (page : Nat) (s : State) (h0 : [.host, .cxl, .pm, .log,
    .ledger, .wl, .bus, .out] ⊆ cs) (hC : OnlyChanges cs r0 s) :
    OnlyChanges cs r0 (firstWrite page s) := by
  simp only [List.cons_subset, List.nil_subset, and_true] at h0
  unfold firstWrite
  simp (maxDischargeDepth := 60) only [hC, h0, List.cons_subset, List.nil_subset, and_self, countUp_only,
      dropLost_only, enterNewest_only, logAppend_only, residueUp_only, retireEmpty_only, setPage_only, ite_only]
theorem windowEntry_only {cs : List Part} {r0 : State} (page : Nat) (s : State) (h0 : [.log] ⊆ cs) (hC :
    OnlyChanges cs r0 s) :
    OnlyChanges cs r0 (windowEntry page s) := by
  simp only [List.cons_subset, List.nil_subset, and_true] at h0
  unfold windowEntry
  simp (maxDischargeDepth := 60) only [hC, h0, State.onLog_only]
theorem dirtyWrite_only {cs : List Part} {r0 : State} (page : Nat) (s : State) (h0 : [.pm, .log, .rst] ⊆ cs) (hC :
    OnlyChanges cs r0 s) :
    OnlyChanges cs r0 (dirtyWrite page s) := by
  simp only [List.cons_subset, List.nil_subset, and_true] at h0
  unfold dirtyWrite
  dsimp only
  (repeat' split) <;> simp (maxDischargeDepth := 60) only [hC, h0, List.cons_subset, List.nil_subset, and_self,
      State.onRst_only, logAppend_only, setPage_only, windowEntry_only]
theorem setDrain_only {cs : List Part} {r0 : State} (idx : Nat) (d : DrainEntry) (s : State) (h0 : [.pm] ⊆ cs) (hC
    : OnlyChanges cs r0 s) :
    OnlyChanges cs r0 (setDrain idx d s) := by
  simp only [List.cons_subset, List.nil_subset, and_true] at h0
  unfold setDrain
  simp (maxDischargeDepth := 60) only [hC, h0, State.onPm_only]
theorem freeDrain_only {cs : List Part} {r0 : State} (idx : Nat) (s : State) (h0 : [.pm] ⊆ cs) (hC : OnlyChanges cs
    r0 s) :
    OnlyChanges cs r0 (freeDrain idx s) := by
  simp only [List.cons_subset, List.nil_subset, and_true] at h0
  unfold freeDrain
  simp (maxDischargeDepth := 60) only [hC, h0, State.onPm_only]
theorem drainingWrite_only {cs : List Part} {r0 : State} (page : Nat) (s : State) (h0 : [.host, .cxl, .pm, .log,
    .ledger, .wl, .bus, .out] ⊆ cs) (hC : OnlyChanges cs r0 s) :
    OnlyChanges cs r0 (drainingWrite page s) := by
  simp only [List.cons_subset, List.nil_subset, and_true] at h0
  unfold drainingWrite
  dsimp only
  (repeat' split) <;> simp (maxDischargeDepth := 60) only [hC, h0, List.cons_subset, List.nil_subset, and_self,
      countDown_only, countUp_only, enterNewest_only, logAppend_only, retireEmpty_only, setDrain_only, setPage_only]
theorem pageWrite_only {cs : List Part} {r0 : State} (page : Nat) (s : State) (h0 : [.host, .cxl, .pm, .log, .rst,
    .ledger, .wl, .bus, .out] ⊆ cs) (hC : OnlyChanges cs r0 s) :
    OnlyChanges cs r0 (pageWrite page s) := by
  simp only [List.cons_subset, List.nil_subset, and_true] at h0
  unfold pageWrite
  (repeat' split) <;> simp (maxDischargeDepth := 60) only [hC, h0, List.cons_subset, List.nil_subset, and_self,
      State.onRst_only, dirtyWrite_only, drainingWrite_only, firstWrite_only, windowEntry_only, ite_only]
theorem redrain_only {cs : List Part} {r0 : State} (page : Nat) (s : State) (h0 : [.host, .cxl, .pm, .lake, .log,
    .weir, .ledger, .wl, .bus, .out] ⊆ cs) (hC : OnlyChanges cs r0 s) :
    OnlyChanges cs r0 (redrain page s) := by
  simp only [List.cons_subset, List.nil_subset, and_true] at h0
  unfold redrain
  simp (maxDischargeDepth := 60) only [hC, h0, List.cons_subset, List.nil_subset, and_self, countUp_only,
      enterOldest_only, logAppend_only, residueUp_only, setPage_only, weirCheck_only, ite_only]
theorem onEntry_only {cs : List Part} {r0 : State} (i : Nat) (f : WEntry → WEntry) (s : State) (h0 : [.wb] ⊆ cs)
    (hC : OnlyChanges cs r0 s) :
    OnlyChanges cs r0 (onEntry i f s) := by
  simp only [List.cons_subset, List.nil_subset, and_true] at h0
  unfold onEntry
  simp (maxDischargeDepth := 60) only [hC, h0, State.onWb_only]
theorem finishEntry_only {cs : List Part} {r0 : State} (i : Nat) (e : WEntry) (s : State) (h0 : [.wb, .out] ⊆ cs)
    (hC : OnlyChanges cs r0 s) :
    OnlyChanges cs r0 (finishEntry i e s) := by
  simp only [List.cons_subset, List.nil_subset, and_true] at h0
  unfold finishEntry
  simp (maxDischargeDepth := 60) only [hC, h0, List.cons_subset, List.nil_subset, and_self, onEntry_only, say_only,
      ite_only]
theorem admitEntry_only {cs : List Part} {r0 : State} (i : Nat) (e : WEntry) (s : State) (h0 : [.host, .cxl, .wb,
    .pm, .log, .rst, .ledger, .wl, .bus, .out] ⊆ cs) (hC : OnlyChanges cs r0 s) :
    OnlyChanges cs r0 (admitEntry
    i e s) := by
  simp only [List.cons_subset, List.nil_subset, and_true] at h0
  unfold admitEntry
  simp (maxDischargeDepth := 60) only [hC, h0, List.cons_subset, List.nil_subset, and_self, finishEntry_only,
      pageWrite_only]
theorem admitBehind_only {cs : List Part} {r0 : State} (page n : Nat) (s : State) (h0 : [.host, .cxl, .wb, .pm,
    .log, .rst, .ledger, .wl, .bus, .out] ⊆ cs) (hC : OnlyChanges cs r0 s) :
    OnlyChanges cs r0 (admitBehind page n s) := by
  induction n generalizing s with
  | zero => exact hC
  | succ n ih =>
    unfold admitBehind
    split
    · exact hC
    · exact ih _ (admitEntry_only _ _ _ (parts_sub h0 rfl) hC)
theorem admitHeldAt_only {cs : List Part} {r0 : State} (i : Nat) (e : WEntry) (s : State) (h0 : [.host, .cxl, .wb,
    .pm, .log, .rst, .ledger, .wl, .bus, .out] ⊆ cs) (hC : OnlyChanges cs r0 s) :
    OnlyChanges cs r0
    (admitHeldAt i e s) := by
  simp only [List.cons_subset, List.nil_subset, and_true] at h0
  unfold admitHeldAt
  simp (maxDischargeDepth := 60) only [hC, h0, List.cons_subset, List.nil_subset, and_self, admitBehind_only,
      admitEntry_only]
theorem retestHeld_only {cs : List Part} {r0 : State} (n : Nat) (s : State) (h0 : [.host, .cxl, .wb, .pm, .lake,
    .log, .weir, .rst, .ledger, .wl, .bus, .out] ⊆ cs) (hC : OnlyChanges cs r0 s) :
    OnlyChanges cs r0 (retestHeld n s) := by
  induction n generalizing s with
  | zero => exact hC
  | succ n ih =>
    unfold retestHeld
    split
    · exact hC
    · split
      · exact ih _ (weirCheck_only _ _ (parts_sub h0 rfl) (admitHeldAt_only _ _ _ (parts_sub h0 rfl) hC))
      · exact hC
theorem retest_only {cs : List Part} {r0 : State} (s : State) (h0 : [.host, .cxl, .wb, .pm, .lake, .log, .weir,
    .rst, .ledger, .wl, .bus, .out] ⊆ cs) (hC : OnlyChanges cs r0 s) :
    OnlyChanges cs r0 (retest s) := by
  simp only [List.cons_subset, List.nil_subset, and_true] at h0
  unfold retest
  simp (maxDischargeDepth := 60) only [hC, h0, List.cons_subset, List.nil_subset, and_self, retestHeld_only]
theorem testEntry_only {cs : List Part} {r0 : State} (i : Nat) (e : WEntry) (s : State) (h0 : [.host, .cxl, .wb,
    .pm, .lake, .log, .weir, .rst, .ledger, .wl, .bus, .out] ⊆ cs) (hC : OnlyChanges cs r0 s) :
    OnlyChanges cs
    r0 (testEntry i e s) := by
  simp only [List.cons_subset, List.nil_subset, and_true] at h0
  unfold testEntry
  simp (maxDischargeDepth := 60) only [hC, h0, List.cons_subset, List.nil_subset, and_self, State.onHost_only,
      admitHeldAt_only, onEntry_only, weirCheck_only, ite_only]
theorem fetchLine_only {cs : List Part} {r0 : State} (page : Nat) (s : State) (h0 : [.pm] ⊆ cs) (hC : OnlyChanges
    cs r0 s) :
    OnlyChanges cs r0 (fetchLine page s) := by
  simp only [List.cons_subset, List.nil_subset, and_true] at h0
  unfold fetchLine
  simp (maxDischargeDepth := 60) only [hC, h0, State.onPm_only]
theorem testOrWait_only {cs : List Part} {r0 : State} (i : Nat) (e : WEntry) (s : State) (h0 : [.host, .cxl, .wb,
    .pm, .lake, .log, .weir, .rst, .ledger, .wl, .bus, .out] ⊆ cs) (hC : OnlyChanges cs r0 s) :
    OnlyChanges cs
    r0 (testOrWait i e s) := by
  simp only [List.cons_subset, List.nil_subset, and_true] at h0
  unfold testOrWait
  dsimp only
  (repeat' split) <;> simp (maxDischargeDepth := 60) only [hC, h0, List.cons_subset, List.nil_subset, and_self,
      admitHeldAt_only, fetchLine_only, onEntry_only, testEntry_only]
theorem overshootEntry_only {cs : List Part} {r0 : State} (i : Nat) (e : WEntry) (s : State) (h0 : [.host, .cxl,
    .wb, .pm, .lake, .log, .weir, .rst, .ledger, .wl, .bus, .out] ⊆ cs) (hC : OnlyChanges cs r0 s) :
   
    OnlyChanges cs r0 (overshootEntry i e s) := by
  simp only [List.cons_subset, List.nil_subset, and_true] at h0
  unfold overshootEntry
  simp (maxDischargeDepth := 60) only [hC, h0, List.cons_subset, List.nil_subset, and_self, State.onHost_only,
      State.onPm_only, admitHeldAt_only, vector_only, weirCheck_only]
theorem flush_only {cs : List Part} {r0 : State} (p : WEntry → Bool) (s : State) (h0 : [.cxl, .wb, .dram] ⊆ cs) (hC
    : OnlyChanges cs r0 s) :
    OnlyChanges cs r0 (flush p s) := by
  simp only [List.cons_subset, List.nil_subset, and_true] at h0
  unfold flush
  simp_all (maxDischargeDepth := 60) [List.cons_subset, List.nil_subset, and_self, State.onWb_only,
      applyEntry_only, only_foldl]
theorem pushResult_only {cs : List Part} {r0 : State} (r : MapResult) (s : State) (h0 : [.pm] ⊆ cs) (hC :
    OnlyChanges cs r0 s) :
    OnlyChanges cs r0 (pushResult r s) := by
  simp only [List.cons_subset, List.nil_subset, and_true] at h0
  unfold pushResult
  simp (maxDischargeDepth := 60) only [hC, h0, State.onPm_only]
theorem bumpGen_only {cs : List Part} {r0 : State} (idx : Nat) (s : State) (h0 : [.pm] ⊆ cs) (hC : OnlyChanges cs
    r0 s) :
    OnlyChanges cs r0 (bumpGen idx s).1 := by
  simp only [List.cons_subset, List.nil_subset, and_true] at h0
  unfold bumpGen
  simp (maxDischargeDepth := 60) only [hC, h0, State.onPm_only]
theorem startDrain_only {cs : List Part} {r0 : State} (page idx : Nat) (linked : Bool) (bucket : Nat) (s : State)
    (h0 : [.pm, .log] ⊆ cs) (hC : OnlyChanges cs r0 s) :
    OnlyChanges cs r0 (startDrain page idx linked bucket
    s) := by
  simp only [List.cons_subset, List.nil_subset, and_true] at h0
  unfold startDrain
  simp (maxDischargeDepth := 60) only [hC, h0, List.cons_subset, List.nil_subset, and_self, bumpGen_only,
      logAppend_only, pushResult_only, setDrain_only, setPage_only]
theorem drainWhenEmpty_only {cs : List Part} {r0 : State} (page : Nat) (start : State → State) (s : State)
    (hA : ∀ t, OnlyChanges cs r0 t → OnlyChanges cs r0 (start t)) (h0 : [.cxl, .wb, .dram, .pm] ⊆ cs) (hC :
        OnlyChanges cs r0 s) :
    OnlyChanges cs r0 (drainWhenEmpty page start s) := by
  unfold drainWhenEmpty
  dsimp only
  split
  · exact State.onPm_only _ _ (parts_mem h0 rfl) (flush_only _ _ (parts_sub h0 rfl) hC)
  · exact hA _ (flush_only _ _ (parts_sub h0 rfl) hC)
theorem markOne_only {cs : List Part} {r0 : State} (page : Nat) (s : State) (h0 : [.cxl, .wb, .dram, .pm, .log] ⊆
    cs) (hC : OnlyChanges cs r0 s) :
    OnlyChanges cs r0 (markOne page s) := by
  have hs : ∀ i b d t, OnlyChanges cs r0 t → OnlyChanges cs r0 (startDrain page i b d t) :=
    fun _ _ _ _ h => startDrain_only _ _ _ _ _ (parts_sub h0 rfl) h
  unfold markOne
  split
  · exact pushResult_only _ _ (parts_sub h0 rfl) hC
  · split
    · split
      · exact drainWhenEmpty_only _ _ _ (hs _ _ _) (parts_sub h0 rfl) hC
      · exact pushResult_only _ _ (parts_sub h0 rfl) hC
    · split
      · exact pushResult_only _ _ (parts_sub h0 rfl) hC
      · exact drainWhenEmpty_only _ _ _ (hs _ _ _) (parts_sub h0 rfl) hC
theorem settleMarks_only {cs : List Part} {r0 : State} (s : State) (h0 : [.cxl, .wb, .dram, .pm, .log] ⊆ cs) (hC :
    OnlyChanges cs r0 s) :
    OnlyChanges cs r0 (settleMarks s) := by
  simp only [List.cons_subset, List.nil_subset, and_true] at h0
  unfold settleMarks
  simp_all (maxDischargeDepth := 60) [List.cons_subset, List.nil_subset, and_self, State.onPm_only, markOne_only,
      ite_only, only_foldl]
theorem staleTag_only {cs : List Part} {r0 : State} (tag : Nat) (s : State) (h0 : [.pm] ⊆ cs) (hC : OnlyChanges cs
    r0 s) :
    OnlyChanges cs r0 (staleTag tag s) := by
  simp only [List.cons_subset, List.nil_subset, and_true] at h0
  unfold staleTag
  simp (maxDischargeDepth := 60) only [hC, h0, List.cons_subset, List.nil_subset, and_self, State.onPm_only,
      pushResult_only]
theorem setMapping_only {cs : List Part} {r0 : State} (page seg unit : Nat) (s : State) (h0 : [.lake] ⊆ cs) (hC :
    OnlyChanges cs r0 s) :
    OnlyChanges cs r0 (setMapping page seg unit s) := by
  simp only [List.cons_subset, List.nil_subset, and_true] at h0
  unfold setMapping
  simp (maxDischargeDepth := 60) only [hC, h0, State.onLake_only]
theorem moveMapping_only {cs : List Part} {r0 : State} (d : MapDelta) (s : State) (h0 : [.lake] ⊆ cs) (hC :
    OnlyChanges cs r0 s) :
    OnlyChanges cs r0 (moveMapping d s) := by
  simp only [List.cons_subset, List.nil_subset, and_true] at h0
  unfold moveMapping
  simp (maxDischargeDepth := 60) only [hC, h0, List.cons_subset, List.nil_subset, and_self, State.onLake_only,
      setMapping_only]
theorem loseDeltas_only {cs : List Part} {r0 : State} (s : State) (h0 : [.free, .lake] ⊆ cs) (hC : OnlyChanges cs
    r0 s) :
    OnlyChanges cs r0 (loseDeltas s) := by
  unfold loseDeltas
  refine State.onLake_only _ _ (parts_mem h0 rfl) ?_
  generalize s.lake.deltas.drop (Config.freeNat s.free) = l
  induction l with
  | nil => exact free_only _ _ (parts_mem h0 rfl) hC
  | cons d t ih => exact ite_only (setMapping_only _ _ _ _ (parts_sub h0 rfl) ih) ih
theorem dropMapping_only {cs : List Part} {r0 : State} (page : Nat) (s : State) (h0 : [.lake] ⊆ cs) (hC :
    OnlyChanges cs r0 s) :
    OnlyChanges cs r0 (dropMapping page s) := by
  simp only [List.cons_subset, List.nil_subset, and_true] at h0
  unfold dropMapping
  simp (maxDischargeDepth := 60) only [hC, h0, State.onLake_only]
theorem countOrphans_only {cs : List Part} {r0 : State} (s : State) (h0 : [.lake] ⊆ cs) (hC : OnlyChanges cs r0 s)
    :
    OnlyChanges cs r0 (countOrphans s) := by
  simp only [List.cons_subset, List.nil_subset, and_true] at h0
  unfold countOrphans
  simp (maxDischargeDepth := 60) only [hC, h0, State.onLake_only]
theorem completeOne_only {cs : List Part} {r0 : State} (tag seg unit : Nat) (s : State) (h0 : [.host, .cxl, .wb,
    .pm, .lake, .log, .weir, .rst, .ledger, .wl, .bus, .out] ⊆ cs) (hC : OnlyChanges cs r0 s) :
    OnlyChanges cs
    r0 (completeOne tag seg unit s) := by
  simp only [List.cons_subset, List.nil_subset, and_true] at h0
  unfold completeOne
  (repeat' split) <;> simp (maxDischargeDepth := 60) only [hC, h0, List.cons_subset, List.nil_subset, and_self,
      countDown_only, freeDrain_only, logAppend_only, lostNoMore_only, pushResult_only, residueDown_only,
      retest_only, retireEmpty_only, setMapping_only, setPage_only, staleTag_only, weirCheck_only, ite_only]
theorem failOne_only {cs : List Part} {r0 : State} (tag : Nat) (s : State) (h0 : [.pm] ⊆ cs) (hC : OnlyChanges cs
    r0 s) :
    OnlyChanges cs r0 (failOne tag s) := by
  simp only [List.cons_subset, List.nil_subset, and_true] at h0
  unfold failOne
  (repeat' split) <;> simp (maxDischargeDepth := 60) only [hC, h0, List.cons_subset, List.nil_subset, and_self,
      freeDrain_only, pushResult_only, setDrain_only, setPage_only, staleTag_only]
theorem dropCheckpoint_only {cs : List Part} {r0 : State} (s : State) (h0 : [.lake] ⊆ cs) (hC : OnlyChanges cs r0
    s) :
    OnlyChanges cs r0 (dropCheckpoint s) := by
  simp only [List.cons_subset, List.nil_subset, and_true] at h0
  unfold dropCheckpoint
  simp (maxDischargeDepth := 60) only [hC, h0, State.onLake_only]
theorem coverSet_only {cs : List Part} {r0 : State} (s : State) (h0 : [.pm] ⊆ cs) (hC : OnlyChanges cs r0 s) :
   
    OnlyChanges cs r0 (coverSet s) := by
  simp only [List.cons_subset, List.nil_subset, and_true] at h0
  unfold coverSet
  simp (maxDischargeDepth := 60) only [hC, h0, State.onPm_only]
theorem closeNewest_only {cs : List Part} {r0 : State} (s : State) (h0 : [.pm] ⊆ cs) (hC : OnlyChanges cs r0 s) :
 
      OnlyChanges cs r0 (closeNewest s) := by
  simp only [List.cons_subset, List.nil_subset, and_true] at h0
  unfold closeNewest
  (repeat' split) <;> simp (maxDischargeDepth := 60) only [hC, h0, List.cons_subset, List.nil_subset, and_self,
      onBucket_only]
theorem closeForSettle_only {cs : List Part} {r0 : State} (s : State) (h0 : [.pm] ⊆ cs) (hC : OnlyChanges cs r0 s)
    :
    OnlyChanges cs r0 (closeForSettle s) := by
  simp only [List.cons_subset, List.nil_subset, and_true] at h0
  unfold closeForSettle
  (repeat' split) <;> simp (maxDischargeDepth := 60) only [hC, h0, List.cons_subset, List.nil_subset, and_self,
      closeNewest_only, onBucket_only]
theorem rebuildPage_only {cs : List Part} {r0 : State} (page : Nat) (s : State) (h0 : [.host, .pm, .log, .ledger,
    .out] ⊆ cs) (hC : OnlyChanges cs r0 s) :
    OnlyChanges cs r0 (rebuildPage page s) := by
  simp only [List.cons_subset, List.nil_subset, and_true] at h0
  unfold rebuildPage
  dsimp only
  (repeat' split) <;> simp (maxDischargeDepth := 60) only [hC, h0, List.cons_subset, List.nil_subset, and_self,
      countUp_only, enterOldest_only, logAppend_only, residueUp_only, setDrain_only, setPage_only]
theorem rebuildOvershoot_only {cs : List Part} {r0 : State} (s : State) (h0 : [.host, .out] ⊆ cs) (hC : OnlyChanges
    cs r0 s) :
    OnlyChanges cs r0 (rebuildOvershoot s) := by
  simp only [List.cons_subset, List.nil_subset, and_true] at h0
  unfold rebuildOvershoot
  simp (maxDischargeDepth := 60) only [hC, h0, List.cons_subset, List.nil_subset, and_self, State.onHost_only,
      vector_only, ite_only]
theorem rebuildLine_only {cs : List Part} {r0 : State} (line : Nat) (s : State) (h0 : [.host, .cxl, .pm, .lake,
    .log, .weir, .ledger, .wl, .bus, .out] ⊆ cs) (hC : OnlyChanges cs r0 s) :
    OnlyChanges cs r0 (rebuildLine
    line s) := by
  simp only [List.cons_subset, List.nil_subset, and_true] at h0
  unfold rebuildLine
  dsimp only
  (repeat' split) <;> simp_all (maxDischargeDepth := 60) [List.cons_subset, List.nil_subset, and_self,
      State.onPm_only, rebuildOvershoot_only, rebuildPage_only, weirCheck_only, only_foldl]
theorem lowerElost_only {cs : List Part} {r0 : State} (e : Nat) (s : State) (h0 : [.host] ⊆ cs) (hC : OnlyChanges
    cs r0 s) :
    OnlyChanges cs r0 (lowerElost e s) := by
  simp only [List.cons_subset, List.nil_subset, and_true] at h0
  unfold lowerElost
  simp (maxDischargeDepth := 60) only [hC, h0, State.onHost_only]
theorem mediaLost_only {cs : List Part} {r0 : State} (page e : Nat) (s : State) (h0 : [.host, .cxl, .dram, .pm,
    .rst, .ledger, .wl, .bus, .out] ⊆ cs) (hC : OnlyChanges cs r0 s) :
    OnlyChanges cs r0 (mediaLost page e s)
    := by
  simp only [List.cons_subset, List.nil_subset, and_true] at h0
  unfold mediaLost
  simp (maxDischargeDepth := 60) only [hC, h0, List.cons_subset, List.nil_subset, and_self, State.onRst_only,
      countDown_only, lowerElost_only, markLost_only, record_only, residueDown_only, retireEmpty_only, ite_only]
theorem placeLost_only {cs : List Part} {r0 : State} (page : Nat) (s : State) (h0 : [.host, .cxl, .dram, .pm, .lake,
    .log, .weir, .rst, .ledger, .wl, .bus, .out] ⊆ cs) (hC : OnlyChanges cs r0 s) :
    OnlyChanges cs r0 (placeLost page s) := by
  simp only [List.cons_subset, List.nil_subset, and_true] at h0
  unfold placeLost
  simp (maxDischargeDepth := 60) only [hC, h0, List.cons_subset, List.nil_subset, and_self, mediaLost_only,
      redrain_only, ite_only]
theorem rebuildWaiting_only {cs : List Part} {r0 : State} (s : State) (h0 : [.host, .cxl, .dram, .pm, .lake, .log, .weir,
    .rst, .ledger, .wl, .bus, .out] ⊆ cs) (hC : OnlyChanges cs r0 s) :
    OnlyChanges cs r0 (rebuildWaiting s) := by
  simp only [List.cons_subset, List.nil_subset, and_true] at h0
  unfold rebuildWaiting
  simp_all (maxDischargeDepth := 60) [List.cons_subset, List.nil_subset, and_self, State.onPm_only,
      rebuildLine_only, placeLost_only, only_foldl]
theorem unprotectedCheck_only {cs : List Part} {r0 : State} (s : State) (h0 : [.host, .cxl, .wb, .pm, .lake, .log,
    .weir, .rst, .ledger, .wl, .bus, .out] ⊆ cs) (hC : OnlyChanges cs r0 s) :
    OnlyChanges cs r0
    (unprotectedCheck s) := by
  simp only [List.cons_subset, List.nil_subset, and_true] at h0
  unfold unprotectedCheck
  simp (maxDischargeDepth := 60) only [hC, h0, List.cons_subset, List.nil_subset, and_self, State.onHost_only,
      retest_only, sprintCheck_only, vector_only, ite_only]

/-! ## Strings -/

theorem failOnly_only {cs : List Part} {r0 : State} (x : Str) (r : StrReason) (s : State) (h0 : [.host, .cxl, .wl,
    .bat, .bus, .out] ⊆ cs) (hC : OnlyChanges cs r0 s) :
    OnlyChanges cs r0 (failOnly x r s) := by
  simp only [List.cons_subset, List.nil_subset, and_true] at h0
  unfold failOnly
  dsimp only
  (repeat' split) <;> simp (maxDischargeDepth := 60) only [hC, h0, List.cons_subset, List.nil_subset, and_self,
      onStr_only, record_only]
theorem abortLearn_only {cs : List Part} {r0 : State} (x : Str) (s : State) (h0 : [.host, .cxl, .wl, .bat, .bus,
    .out] ⊆ cs) (hC : OnlyChanges cs r0 s) :
    OnlyChanges cs r0 (abortLearn x s) := by
  simp only [List.cons_subset, List.nil_subset, and_true] at h0
  unfold abortLearn
  simp (maxDischargeDepth := 60) only [hC, h0, List.cons_subset, List.nil_subset, and_self, failOnly_only,
      onStr_only, ite_only]
theorem failStr_only {cs : List Part} {r0 : State} (x : Str) (r : StrReason) (s : State) (h0 : [.host, .cxl, .wb,
    .pm, .lake, .log, .weir, .rst, .ledger, .wl, .bat, .bus, .out] ⊆ cs) (hC : OnlyChanges cs r0 s) :
   
    OnlyChanges cs r0 (failStr x r s) := by
  simp only [List.cons_subset, List.nil_subset, and_true] at h0
  unfold failStr
  simp (maxDischargeDepth := 60) only [hC, h0, List.cons_subset, List.nil_subset, and_self, abortLearn_only,
      failOnly_only, unprotectedCheck_only]
theorem clearReason_only {cs : List Part} {r0 : State} (x : Str) (r : StrReason) (s : State) (h0 : [.host, .cxl,
    .wb, .pm, .lake, .log, .weir, .rst, .ledger, .wl, .bat, .bus, .out] ⊆ cs) (hC : OnlyChanges cs r0 s) :
   
    OnlyChanges cs r0 (clearReason x r s) := by
  simp only [List.cons_subset, List.nil_subset, and_true] at h0
  unfold clearReason
  simp (maxDischargeDepth := 60) only [hC, h0, List.cons_subset, List.nil_subset, and_self, onStr_only,
      unprotectedCheck_only, ite_only]
theorem packReset_only {cs : List Part} {r0 : State} (x : Str) (s : State) (h0 : [.host, .cxl, .wb, .pm, .lake,
    .log, .weir, .rst, .ledger, .wl, .bat, .bus, .out] ⊆ cs) (hC : OnlyChanges cs r0 s) :
    OnlyChanges cs r0
    (packReset x s) := by
  simp only [List.cons_subset, List.nil_subset, and_true] at h0
  unfold packReset
  simp (maxDischargeDepth := 60) only [hC, h0, List.cons_subset, List.nil_subset, and_self, abortLearn_only,
      onStr_only, unprotectedCheck_only]
theorem removeStr_only {cs : List Part} {r0 : State} (x : Str) (s : State) (h0 : [.host, .cxl, .wb, .pm, .lake,
    .log, .weir, .rst, .ledger, .wl, .bat, .bus, .out] ⊆ cs) (hC : OnlyChanges cs r0 s) :
    OnlyChanges cs r0
    (removeStr x s) := by
  simp only [List.cons_subset, List.nil_subset, and_true] at h0
  unfold removeStr
  simp (maxDischargeDepth := 60) only [hC, h0, List.cons_subset, List.nil_subset, and_self, abortLearn_only,
      onStr_only, record_only, unprotectedCheck_only, ite_only]
theorem chargeCheck_only {cs : List Part} {r0 : State} (s : State) (h0 : [.bat] ⊆ cs) (hC : OnlyChanges cs r0 s) :

       OnlyChanges cs r0 (chargeCheck s) := by
  simp only [List.cons_subset, List.nil_subset, and_true] at h0
  unfold chargeCheck
  simp (maxDischargeDepth := 60) only [hC, h0, State.onBat_only]

end Sys2Proof.Machine
end

