-- ==== Sys2Proof/Laws/OnlyPower.lean ====
section
/-! SUPPORT. `OnlyChanges` through the sequencer, the save, the crews, the settings and the freeze: one lemma an
    operation names every part it can change. -/

namespace Sys2Proof.Machine

/-! ## Power -/

theorem regionsOff_only {cs : List Part} {r0 : State} (s : State) (h0 : [.clk, .host, .wb, .dram, .pm, .lake,
    .basin, .flash, .log, .weir, .rst, .ledger, .fault, .crew, .frz, .bat, .od, .upd, .plan] ⊆ cs) (hC :
    OnlyChanges cs r0 s) :
    OnlyChanges cs r0 (regionsOff s) := by
  simp only [List.cons_subset, List.nil_subset, and_true] at h0
  refine only_step hC fun p hn => ?_
  cases p <;> first | rfl | exact absurd (by simp only [h0]) hn
theorem flushCounts_only {cs : List Part} {r0 : State} (s : State) (h0 : [.seq] ⊆ cs) (hC : OnlyChanges cs r0 s) :

       OnlyChanges cs r0 (flushCounts s) := by
  simp only [List.cons_subset, List.nil_subset, and_true] at h0
  unfold flushCounts
  simp (maxDischargeDepth := 60) only [hC, h0, State.onSeq_only]
theorem onRail_only {cs : List Part} {r0 : State} (n : Nat) (f : Rail → Rail) (s : State) (h0 : [.seq] ⊆ cs) (hC :
    OnlyChanges cs r0 s) :
    OnlyChanges cs r0 (onRail n f s) := by
  simp only [List.cons_subset, List.nil_subset, and_true] at h0
  unfold onRail
  simp (maxDischargeDepth := 60) only [hC, h0, State.onSeq_only]
theorem railEnable_only {cs : List Part} {r0 : State} (n : Nat) (s : State) (h0 : [.seq] ⊆ cs) (hC : OnlyChanges cs
    r0 s) :
    OnlyChanges cs r0 (railEnable n s) := by
  simp only [List.cons_subset, List.nil_subset, and_true] at h0
  unfold railEnable
  simp (maxDischargeDepth := 60) only [hC, h0, List.cons_subset, List.nil_subset, and_self, State.onSeq_only,
      onRail_only]
theorem railDisable_only {cs : List Part} {r0 : State} (n : Nat) (s : State) (h0 : [.seq] ⊆ cs) (hC : OnlyChanges
    cs r0 s) :
    OnlyChanges cs r0 (railDisable n s) := by
  simp only [List.cons_subset, List.nil_subset, and_true] at h0
  unfold railDisable
  simp (maxDischargeDepth := 60) only [hC, h0, List.cons_subset, List.nil_subset, and_self, State.onSeq_only,
      onRail_only]
theorem startStateDown_only {cs : List Part} {r0 : State} (s : State) (h0 : [.host, .flash, .seq] ⊆ cs) (hC :
    OnlyChanges cs r0 s) :
    OnlyChanges cs r0 (startStateDown s) := by
  simp only [List.cons_subset, List.nil_subset, and_true] at h0
  unfold startStateDown
  simp (maxDischargeDepth := 60) only [hC, h0, State.onFlash_only, State.onHost_only, State.onSeq_only, ite_only]
theorem saveOver_only {cs : List Part} {r0 : State} (s : State) (h0 : [.save, .seq] ⊆ cs) (hC : OnlyChanges cs r0
    s) :
    OnlyChanges cs r0 (saveOver s) := by
  simp only [List.cons_subset, List.nil_subset, and_true] at h0
  unfold saveOver
  simp (maxDischargeDepth := 60) only [hC, h0, State.onSave_only, State.onSeq_only]
theorem enterDark_only {cs : List Part} {r0 : State} (s : State) (h0 : [.clk, .host, .wb, .dram, .pm, .lake,
    .basin, .flash, .log, .weir, .save, .rst, .ledger, .fault, .crew, .seq, .boot, .frz, .bat, .od, .upd, .plan] ⊆
    cs) (hC : OnlyChanges cs r0 s) :
    OnlyChanges cs r0 (enterDark s) := by
  simp only [List.cons_subset, List.nil_subset, and_true] at h0
  unfold enterDark
  simp (maxDischargeDepth := 60) only [hC, h0, List.cons_subset, List.nil_subset, and_self, State.onBoot_only,
      State.onSeq_only, regionsOff_only, saveOver_only]
theorem releaseCatch_only {cs : List Part} {r0 : State} (s : State) (h0 : [.seq] ⊆ cs) (hC : OnlyChanges cs r0 s)
    :
    OnlyChanges cs r0 (releaseCatch s) := by
  simp only [List.cons_subset, List.nil_subset, and_true] at h0
  unfold releaseCatch
  simp (maxDischargeDepth := 60) only [hC, h0, State.onSeq_only, ite_only]
theorem enterAux_only {cs : List Part} {r0 : State} (s : State) (h0 : [.save, .seq, .boot] ⊆ cs) (hC : OnlyChanges
    cs r0 s) :
    OnlyChanges cs r0 (enterAux s) := by
  simp only [List.cons_subset, List.nil_subset, and_true] at h0
  unfold enterAux
  simp (maxDischargeDepth := 60) only [hC, h0, State.onBoot_only, State.onSave_only, State.onSeq_only]
theorem endInAux_only {cs : List Part} {r0 : State} (s : State) (h0 : [.clk, .host, .wb, .dram, .pm, .lake, .basin,
    .flash, .log, .weir, .save, .rst, .ledger, .fault, .crew, .seq, .boot, .frz, .bat, .od, .upd, .plan] ⊆ cs) (hC
    : OnlyChanges cs r0 s) :
    OnlyChanges cs r0 (endInAux s) := by
  simp only [List.cons_subset, List.nil_subset, and_true] at h0
  unfold endInAux
  simp (maxDischargeDepth := 60) only [hC, h0, List.cons_subset, List.nil_subset, and_self, State.onBoot_only,
      State.onSave_only, State.onSeq_only, enterAux_only, flushCounts_only, regionsOff_only, saveOver_only]
theorem descend_only {cs : List Part} {r0 : State} (n : Nat) (s : State) (h0 : [.clk, .host, .wb, .dram, .pm,
    .lake, .basin, .flash, .log, .weir, .save, .rst, .ledger, .fault, .crew, .seq, .boot, .frz, .bat, .od, .upd,
    .plan] ⊆ cs) (hC : OnlyChanges cs r0 s) :
    OnlyChanges cs r0 (descend n s) := by
  induction n generalizing s with
  | zero => exact hC
  | succ n ih =>
    unfold descend
    split
    · exact hC
    · split
      · exact enterDark_only _ (parts_sub h0 rfl) (flushCounts_only _ (parts_sub h0 rfl) hC)
      · split
        · exact endInAux_only _ (parts_sub h0 rfl) hC
        · dsimp only
          refine ih _ (startStateDown_only _ (parts_sub h0 rfl) (State.onSeq_only _ _ (parts_mem h0 rfl) ?_))
          split
          · exact State.onHost_only _ _ (parts_mem h0 rfl) hC
          · exact hC
theorem powerDownTo_only {cs : List Part} {r0 : State} (target : SeqSt) (hold : Bool) (s : State) (h0 : [.clk,
    .host, .wb, .dram, .pm, .lake, .basin, .flash, .log, .weir, .save, .rst, .ledger, .fault, .crew, .seq, .boot,
    .frz, .bat, .od, .upd, .plan] ⊆ cs) (hC : OnlyChanges cs r0 s) :
    OnlyChanges cs r0 (powerDownTo target hold
    s) := by
  simp only [List.cons_subset, List.nil_subset, and_true] at h0
  unfold powerDownTo
  simp (maxDischargeDepth := 60) only [hC, h0, List.cons_subset, List.nil_subset, and_self, State.onSeq_only,
      descend_only, startStateDown_only, trialTime_only]
theorem powerDownDark_only {cs : List Part} {r0 : State} (on : Bool) (s : State) (h0 : [.clk, .host, .wb, .dram,
    .pm, .lake, .basin, .flash, .log, .weir, .save, .rst, .ledger, .fault, .crew, .seq, .boot, .frz, .bat, .od,
    .upd, .plan] ⊆ cs) (hC : OnlyChanges cs r0 s) :
    OnlyChanges cs r0 (powerDownDark on s) := by
  simp only [List.cons_subset, List.nil_subset, and_true] at h0
  unfold powerDownDark
  simp (maxDischargeDepth := 60) only [hC, h0, List.cons_subset, List.nil_subset, and_self, State.onSeq_only,
      powerDownTo_only]
theorem cutRails_only {cs : List Part} {r0 : State} (hold : Bool) (s : State) (h0 : [.clk, .host, .wb, .dram, .pm,
    .lake, .basin, .flash, .log, .weir, .save, .rst, .ledger, .fault, .crew, .seq, .boot, .frz, .bat, .od, .upd,
    .plan] ⊆ cs) (hC : OnlyChanges cs r0 s) :
    OnlyChanges cs r0 (cutRails hold s) := by
  simp only [List.cons_subset, List.nil_subset, and_true] at h0
  unfold cutRails
  simp_all (maxDischargeDepth := 60) [List.cons_subset, List.nil_subset, and_self, State.onSeq_only,
      enterDark_only, railDisable_only, ite_only, only_foldl]
theorem dropLedgerHold_only {cs : List Part} {r0 : State} (s : State) (h0 : [.seq] ⊆ cs) (hC : OnlyChanges cs r0 s)
    :
    OnlyChanges cs r0 (dropLedgerHold s) := by
  simp only [List.cons_subset, List.nil_subset, and_true] at h0
  unfold dropLedgerHold
  (repeat' split) <;> simp (maxDischargeDepth := 60) only [hC, h0, List.cons_subset, List.nil_subset, and_self,
      State.onSeq_only, railDisable_only]
theorem latchRecord_only {cs : List Part} {r0 : State} (s : State) (h0 : [.wl, .boot] ⊆ cs) (hC : OnlyChanges cs r0
    s) :
    OnlyChanges cs r0 (latchRecord s) := by
  simp only [List.cons_subset, List.nil_subset, and_true] at h0
  unfold latchRecord
  simp (maxDischargeDepth := 60) only [hC, h0, State.onBoot_only, State.onWl_only]
theorem setLatch_only {cs : List Part} {r0 : State} (cause rail : Nat) (s : State) (h0 : [.wl, .seq, .boot, .bus] ⊆
    cs) (hC : OnlyChanges cs r0 s) :
    OnlyChanges cs r0 (setLatch cause rail s) := by
  simp only [List.cons_subset, List.nil_subset, and_true] at h0
  unfold setLatch
  simp (maxDischargeDepth := 60) only [hC, h0, List.cons_subset, List.nil_subset, and_self, State.onBoot_only,
      State.onSeq_only, latchRecord_only, raiseCall_only, ite_only]

/-! ## Save -/

theorem thaw_only {cs : List Part} {r0 : State} (s : State) (h0 : [.host, .cxl, .dram, .pm, .lake, .log, .weir, .rst,
    .ledger, .wl, .fault, .crew, .frz, .bus, .out] ⊆ cs) (hC : OnlyChanges cs r0 s) :
    OnlyChanges cs r0 (thaw
    s) := by
  simp only [List.cons_subset, List.nil_subset, and_true] at h0
  unfold thaw
  simp (maxDischargeDepth := 60) only [hC, h0, List.cons_subset, List.nil_subset, and_self, State.onCrew_only,
      State.onDram_only, State.onFault_only, State.onFrz_only, State.onHost_only, State.onLedger_only,
      State.onWeir_only, moveStaged_only, rebuildWaiting_only, record_only, ite_only]
theorem applyFence_only {cs : List Part} {r0 : State} (s : State) (h0 : [.host, .cxl, .wb, .pm, .lake, .flash,
    .log, .weir, .rst, .ledger, .wl, .crew, .bat, .bus, .upd, .plan, .out] ⊆ cs) (hC : OnlyChanges cs r0 s) :
   
    OnlyChanges cs r0 (applyFence s) := by
  simp only [List.cons_subset, List.nil_subset, and_true] at h0
  unfold applyFence
  simp (maxDischargeDepth := 60) only [hC, h0, List.cons_subset, List.nil_subset, and_self, State.onBat_only,
      State.onCrew_only, State.onFlash_only, State.onHost_only, State.onLake_only, State.onPlan_only,
      State.onPm_only, State.onUpd_only, State.onWb_only, abortLearn_only, dropCheckpoint_only, sprintCheck_only,
      unprotectedCheck_only]
theorem stopWriting_only {cs : List Part} {r0 : State} (outcome : Nat) (s : State) (h0 : [.flash, .save] ⊆ cs) (hC
    : OnlyChanges cs r0 s) :
    OnlyChanges cs r0 (stopWriting outcome s) := by
  simp only [List.cons_subset, List.nil_subset, and_true] at h0
  unfold stopWriting
  simp (maxDischargeDepth := 60) only [hC, h0, State.onFlash_only, State.onSave_only, ite_only]
theorem stopResidue_only {cs : List Part} {r0 : State} (s : State) (h0 : [.flash, .save] ⊆ cs) (hC : OnlyChanges cs
    r0 s) :
    OnlyChanges cs r0 (stopResidue s) := by
  simp only [List.cons_subset, List.nil_subset, and_true] at h0
  unfold stopResidue
  simp (maxDischargeDepth := 60) only [hC, h0, List.cons_subset, List.nil_subset, and_self, stopWriting_only]
theorem programHeld_only {cs : List Part} {r0 : State} (die : Nat) (s : State) (h0 : [.basin, .flash, .save] ⊆ cs)
    (hC : OnlyChanges cs r0 s) :
    OnlyChanges cs r0 (programHeld die s) := by
  simp only [List.cons_subset, List.nil_subset, and_true] at h0
  unfold programHeld
  (repeat' split) <;> simp (maxDischargeDepth := 60) only [hC, h0, State.onBasin_only, State.onFlash_only,
      State.onSave_only]
theorem padDie_only {cs : List Part} {r0 : State} (s : State) (die : Nat) (h0 : [.basin, .flash, .save] ⊆ cs) (hC :
    OnlyChanges cs r0 s) :
    OnlyChanges cs r0 (padDie s die) := by
  simp only [List.cons_subset, List.nil_subset, and_true] at h0
  unfold padDie
  (repeat' split) <;> simp (maxDischargeDepth := 60) only [hC, h0, List.cons_subset, List.nil_subset, and_self,
      programHeld_only]
theorem padPass_only {cs : List Part} {r0 : State} (s : State) (h0 : [.basin, .flash, .save] ⊆ cs) (hC :
    OnlyChanges cs r0 s) :
    OnlyChanges cs r0 (padPass s) := by
  simp only [List.cons_subset, List.nil_subset, and_true] at h0
  unfold padPass
  simp_all (maxDischargeDepth := 60) [List.cons_subset, List.nil_subset, and_self, padDie_only, only_foldl]
theorem placeUnit_only {cs : List Part} {r0 : State} (die page : Nat) (s : State) (h0 : [.basin, .flash, .save] ⊆
    cs) (hC : OnlyChanges cs r0 s) :
    OnlyChanges cs r0 (placeUnit die page s) := by
  simp only [List.cons_subset, List.nil_subset, and_true] at h0
  unfold placeUnit
  (repeat' split) <;> simp (maxDischargeDepth := 60) only [hC, h0, List.cons_subset, List.nil_subset, and_self,
      State.onBasin_only, programHeld_only, stopResidue_only, ite_only]
theorem programPages_only {cs : List Part} {r0 : State} (pages : List Nat) (s : State) (h0 : [.basin, .flash,
    .save] ⊆ cs) (hC : OnlyChanges cs r0 s) :
    OnlyChanges cs r0 (programPages pages s) := by
  simp only [List.cons_subset, List.nil_subset, and_true] at h0
  unfold programPages
  simp_all (maxDischargeDepth := 60) [List.cons_subset, List.nil_subset, and_self, placeUnit_only, ite_only,
      only_foldl]
theorem fillHeld_only {cs : List Part} {r0 : State} (pages : List Nat) (s : State) (h0 : [.basin, .flash, .save] ⊆
    cs) (hC : OnlyChanges cs r0 s) :
    OnlyChanges cs r0 (fillHeld pages s) := by
  simp only [List.cons_subset, List.nil_subset, and_true] at h0
  unfold fillHeld
  simp_all (maxDischargeDepth := 60) [List.cons_subset, List.nil_subset, and_self, programPages_only, ite_only,
      only_foldl]
theorem landCursor_only {cs : List Part} {r0 : State} (c : Cursor) (s : State) (h0 : [.basin, .flash, .save] ⊆ cs)
    (hC : OnlyChanges cs r0 s) :
    OnlyChanges cs r0 (landCursor c s) := by
  simp only [List.cons_subset, List.nil_subset, and_true] at h0
  unfold landCursor
  (repeat' split) <;> simp (maxDischargeDepth := 60) only [hC, h0, List.cons_subset, List.nil_subset, and_self,
      State.onSave_only, fillHeld_only, programPages_only]
theorem closeSave_only {cs : List Part} {r0 : State} (outcome : Nat) (s : State) (h0 : [.save] ⊆ cs) (hC :
    OnlyChanges cs r0 s) :
    OnlyChanges cs r0 (closeSave outcome s) := by
  simp only [List.cons_subset, List.nil_subset, and_true] at h0
  unfold closeSave
  simp (maxDischargeDepth := 60) only [hC, h0, State.onSave_only]
theorem sealTail_only {cs : List Part} {r0 : State} (s : State) (h0 : [.log] ⊆ cs) (hC : OnlyChanges cs r0 s) :
   
    OnlyChanges cs r0 (sealTail s) := by
  simp only [List.cons_subset, List.nil_subset, and_true] at h0
  unfold sealTail
  simp (maxDischargeDepth := 60) only [hC, h0, State.onLog_only]
theorem rootTail_only {cs : List Part} {r0 : State} (s : State) (h0 : [.ledger] ⊆ cs) (hC : OnlyChanges cs r0 s) :

       OnlyChanges cs r0 (rootTail s) := by
  simp only [List.cons_subset, List.nil_subset, and_true] at h0
  unfold rootTail
  simp_all (maxDischargeDepth := 60) [List.cons_subset, List.nil_subset, and_self, rootWrite_only, only_foldl]
theorem rootGasp_only {cs : List Part} {r0 : State} (c : Commit) (s : State) (h0 : [.ledger] ⊆ cs) (hC :
    OnlyChanges cs r0 s) :
    OnlyChanges cs r0 (rootGasp c s) := by
  simp only [List.cons_subset, List.nil_subset, and_true] at h0
  unfold rootGasp
  simp (maxDischargeDepth := 60) only [hC, h0, List.cons_subset, List.nil_subset, and_self, State.onLedger_only,
      rootTail_only, rootWrite_only]
theorem gaspCommit_only {cs : List Part} {r0 : State} (outcome : Nat) (viaRoot : Bool) (s : State) (h0 : [.free,
    .host, .cxl, .log, .save, .ledger, .wl, .bus, .out] ⊆ cs) (hC : OnlyChanges cs r0 s) :
    OnlyChanges cs r0
    (gaspCommit outcome viaRoot s) := by
  simp only [List.cons_subset, List.nil_subset, and_true] at h0
  unfold gaspCommit
  simp (maxDischargeDepth := 60) only [hC, h0, List.cons_subset, List.nil_subset, and_self, State.onSave_only,
      closeSave_only, commit_only, record_only, rootGasp_only, sealTail_only, ite_only]
theorem windowCommit_only {cs : List Part} {r0 : State} (viaRoot : Bool) (s : State) (h0 : [.free, .host, .cxl,
    .log, .save, .ledger, .wl, .bus, .out] ⊆ cs) (hC : OnlyChanges cs r0 s) :
    OnlyChanges cs r0 (windowCommit
    viaRoot s) := by
  simp only [List.cons_subset, List.nil_subset, and_true] at h0
  unfold windowCommit
  simp (maxDischargeDepth := 60) only [hC, h0, List.cons_subset, List.nil_subset, and_self, State.onLedger_only,
      State.onSave_only, commit_only, rootTail_only, rootWrite_only, sealTail_only, ite_only]
theorem gaspAny_only {cs : List Part} {r0 : State} (outcome : Nat) (viaRoot : Bool) (s : State) (h0 : [.free,
    .host, .cxl, .log, .save, .ledger, .wl, .seq, .bus, .out] ⊆ cs) (hC : OnlyChanges cs r0 s) :
    OnlyChanges cs
    r0 (gaspAny outcome viaRoot s) := by
  simp only [List.cons_subset, List.nil_subset, and_true] at h0
  unfold gaspAny
  simp (maxDischargeDepth := 60) only [hC, h0, List.cons_subset, List.nil_subset, and_self, flushCounts_only,
      gaspCommit_only, windowCommit_only, ite_only]
theorem lastGasp_only {cs : List Part} {r0 : State} (outcome : Nat) (s : State) (h0 : [.free, .clk, .host, .cxl,
    .wb, .dram, .pm, .lake, .basin, .flash, .log, .weir, .save, .rst, .ledger, .wl, .fault, .crew, .seq, .boot,
    .frz, .bat, .od, .bus, .upd, .plan, .out] ⊆ cs) (hC : OnlyChanges cs r0 s) :
    OnlyChanges cs r0 (lastGasp
    outcome s) := by
  simp only [List.cons_subset, List.nil_subset, and_true] at h0
  unfold lastGasp
  simp (maxDischargeDepth := 60) only [hC, h0, List.cons_subset, List.nil_subset, and_self, cutRails_only,
      dropLedgerHold_only, gaspAny_only]
theorem startSave_only {cs : List Part} {r0 : State} (t : Trigger) (s : State) (h0 : [.host, .cxl, .wb, .pm, .lake,
    .flash, .log, .weir, .save, .rst, .ledger, .wl, .crew, .seq, .bat, .bus, .upd, .plan, .out] ⊆ cs) (hC :
    OnlyChanges cs r0 s) :
    OnlyChanges cs r0 (startSave t s) := by
  simp only [List.cons_subset, List.nil_subset, and_true] at h0
  unfold startSave
  simp (maxDischargeDepth := 60) only [hC, h0, List.cons_subset, List.nil_subset, and_self, State.onSave_only,
      State.onSeq_only, applyFence_only]
theorem drainAll_only {cs : List Part} {r0 : State} (n : Nat) (s : State) (h0 : [.free, .host, .cxl, .wb, .dram,
    .pm, .log, .weir, .rst, .ledger, .wl, .bus, .out] ⊆ cs) (hC : OnlyChanges cs r0 s) :
    OnlyChanges cs r0 (drainAll n s) := by
  induction n generalizing s with
  | zero => exact flush_only _ _ (parts_sub h0 rfl) hC
  | succ n ih =>
    unfold drainAll
    split
    · exact flush_only _ _ (parts_sub h0 rfl) hC
    · exact ih _ (free_only _ _ (parts_mem h0 rfl) (episodeCheck_only _ _ (parts_sub h0 rfl) (admitEntry_only _ _ _
        (parts_sub h0 rfl) hC)))
theorem beginShutdown_only {cs : List Part} {r0 : State} (s : State) (h0 : [.free, .host, .cxl, .wb, .dram, .pm,
    .lake, .log, .weir, .rst, .ledger, .wl, .seq, .bus, .out] ⊆ cs) (hC : OnlyChanges cs r0 s) :
    OnlyChanges cs
    r0 (beginShutdown s) := by
  simp only [List.cons_subset, List.nil_subset, and_true] at h0
  unfold beginShutdown
  simp (maxDischargeDepth := 60) only [hC, h0, List.cons_subset, List.nil_subset, and_self, State.onHost_only,
      State.onSeq_only, drainAll_only, sprintCheck_only]
theorem closeBattery_only {cs : List Part} {r0 : State} (s : State) (h0 : [.free, .clk, .host, .cxl, .wb, .dram,
    .pm, .lake, .basin, .flash, .log, .weir, .save, .rst, .ledger, .wl, .fault, .crew, .seq, .boot, .frz, .bat,
    .od, .bus, .upd, .plan, .out] ⊆ cs) (hC : OnlyChanges cs r0 s) :
    OnlyChanges cs r0 (closeBattery s) := by
  simp only [List.cons_subset, List.nil_subset, and_true] at h0
  unfold closeBattery
  simp (maxDischargeDepth := 60) only [hC, h0, List.cons_subset, List.nil_subset, and_self, State.onSave_only,
      State.onSeq_only, lastGasp_only, ite_only]
theorem triggerRunning_only {cs : List Part} {r0 : State} (t : Trigger) (s : State) (h0 : [.free, .clk, .host,
    .cxl, .wb, .dram, .pm, .lake, .basin, .flash, .log, .weir, .save, .rst, .ledger, .wl, .fault, .crew, .seq,
    .boot, .frz, .bat, .od, .bus, .upd, .plan, .out] ⊆ cs) (hC : OnlyChanges cs r0 s) :
    OnlyChanges cs r0
    (triggerRunning t s) := by
  simp only [List.cons_subset, List.nil_subset, and_true] at h0
  unfold triggerRunning
  simp (maxDischargeDepth := 60) only [hC, h0, List.cons_subset, List.nil_subset, and_self, State.onSave_only,
      applyFence_only, drainAll_only, lastGasp_only, startSave_only, ite_only]
theorem triggerWindow_only {cs : List Part} {r0 : State} (t : Trigger) (s : State) (h0 : [.host, .cxl, .wb, .pm,
    .lake, .flash, .log, .weir, .save, .rst, .ledger, .wl, .crew, .seq, .bat, .bus, .upd, .plan, .out] ⊆ cs) (hC :
    OnlyChanges cs r0 s) :
    OnlyChanges cs r0 (triggerWindow t s) := by
  simp only [List.cons_subset, List.nil_subset, and_true] at h0
  unfold triggerWindow
  simp (maxDischargeDepth := 60) only [hC, h0, List.cons_subset, List.nil_subset, and_self, State.onSave_only,
      startSave_only]
theorem triggerLab_only {cs : List Part} {r0 : State} (t : Trigger) (s : State) (h0 : [.free, .clk, .host, .cxl,
    .wb, .dram, .pm, .lake, .basin, .flash, .log, .weir, .save, .rst, .ledger, .wl, .fault, .crew, .seq, .boot,
    .frz, .bat, .od, .bus, .upd, .plan, .out] ⊆ cs) (hC : OnlyChanges cs r0 s) :
    OnlyChanges cs r0 (triggerLab
    t s) := by
  simp only [List.cons_subset, List.nil_subset, and_true] at h0
  unfold triggerLab
  simp (maxDischargeDepth := 60) only [hC, h0, List.cons_subset, List.nil_subset, and_self, State.onFrz_only,
      State.onSave_only, cutRails_only, dropLedgerHold_only, lastGasp_only, record_only, ite_only]
theorem laterTrigger_only {cs : List Part} {r0 : State} (t : Trigger) (s : State) (h0 : [.host, .cxl, .wl, .bus,
    .out] ⊆ cs) (hC : OnlyChanges cs r0 s) :
    OnlyChanges cs r0 (laterTrigger t s) := by
  simp only [List.cons_subset, List.nil_subset, and_true] at h0
  unfold laterTrigger
  simp (maxDischargeDepth := 60) only [hC, h0, List.cons_subset, List.nil_subset, and_self, record_only]
theorem dropHolds_only {cs : List Part} {r0 : State} (s : State) (h0 : [.frz] ⊆ cs) (hC : OnlyChanges cs r0 s) :
  
     OnlyChanges cs r0 (dropHolds s) := by
  simp only [List.cons_subset, List.nil_subset, and_true] at h0
  unfold dropHolds
  simp (maxDischargeDepth := 60) only [hC, h0, State.onFrz_only]
theorem endFreeze_only {cs : List Part} {r0 : State} (s : State) (h0 : [.host, .cxl, .dram, .pm, .lake, .log,
    .weir, .rst, .ledger, .wl, .fault, .crew, .frz, .bus, .out] ⊆ cs) (hC : OnlyChanges cs r0 s) :
    OnlyChanges cs r0
    (endFreeze s) := by
  simp only [List.cons_subset, List.nil_subset, and_true] at h0
  unfold endFreeze
  simp (maxDischargeDepth := 60) only [hC, h0, List.cons_subset, List.nil_subset, and_self, dropHolds_only,
      thaw_only, ite_only]
theorem trigger_only {cs : List Part} {r0 : State} (t : Trigger) (s : State) (h0 : [.free, .clk, .host, .cxl, .wb,
    .dram, .pm, .lake, .basin, .flash, .log, .weir, .save, .rst, .ledger, .wl, .fault, .crew, .seq, .boot, .frz,
    .bat, .od, .bus, .upd, .plan, .out] ⊆ cs) (hC : OnlyChanges cs r0 s) :
    OnlyChanges cs r0 (trigger t s) := by
  simp only [List.cons_subset, List.nil_subset, and_true] at h0
  unfold trigger
  simp (maxDischargeDepth := 60) only [hC, h0, List.cons_subset, List.nil_subset, and_self, closeBattery_only,
      endFreeze_only, laterTrigger_only, triggerLab_only, triggerRunning_only, triggerWindow_only, ite_only]
theorem fatalFlags_only {cs : List Part} {r0 : State} (kind : Nat) (cause : BitVec 32) (s : State) (h0 : [.host,
    .cxl, .wl, .fault, .bus, .upd, .out] ⊆ cs) (hC : OnlyChanges cs r0 s) :
    OnlyChanges cs r0 (fatalFlags kind
    cause s) := by
  simp only [List.cons_subset, List.nil_subset, and_true] at h0
  unfold fatalFlags
  simp (maxDischargeDepth := 60) only [hC, h0, List.cons_subset, List.nil_subset, and_self, State.onFault_only,
      State.onHost_only, record_only, trialStops_only]
theorem noteFatal_only {cs : List Part} {r0 : State} (cause : BitVec 32) (s : State) (h0 : [.fault] ⊆ cs) (hC :
    OnlyChanges cs r0 s) :
    OnlyChanges cs r0 (noteFatal cause s) := by
  simp only [List.cons_subset, List.nil_subset, and_true] at h0
  unfold noteFatal
  simp (maxDischargeDepth := 60) only [hC, h0, State.onFault_only, ite_only]
theorem chipFatal_only {cs : List Part} {r0 : State} (kind : Nat) (cause : BitVec 32) (s : State) (h0 : [.free,
    .clk, .host, .cxl, .wb, .dram, .pm, .lake, .basin, .flash, .log, .weir, .save, .rst, .ledger, .wl, .fault,
    .crew, .seq, .boot, .frz, .bat, .od, .bus, .upd, .plan, .out] ⊆ cs) (hC : OnlyChanges cs r0 s) :
   
    OnlyChanges cs r0 (chipFatal kind cause s) := by
  simp only [List.cons_subset, List.nil_subset, and_true] at h0
  unfold chipFatal
  simp (maxDischargeDepth := 60) only [hC, h0, List.cons_subset, List.nil_subset, and_self, fatalFlags_only,
      laterTrigger_only, noteFatal_only, powerDownDark_only, record_only, trialStops_only, trigger_only, ite_only]

/-! ## Crews -/

theorem setSeat_only {cs : List Part} {r0 : State} (c : Option Crew) (s : State) (h0 : [.crew] ⊆ cs) (hC :
    OnlyChanges cs r0 s) :
    OnlyChanges cs r0 (setSeat c s) := by
  simp only [List.cons_subset, List.nil_subset, and_true] at h0
  unfold setSeat
  simp (maxDischargeDepth := 60) only [hC, h0, State.onCrew_only]
theorem commitDone_only {cs : List Part} {r0 : State} (status : Nat) (s : State) (h0 : [.host, .bus, .upd, .out] ⊆
    cs) (hC : OnlyChanges cs r0 s) :
    OnlyChanges cs r0 (commitDone status s) := by
  simp only [List.cons_subset, List.nil_subset, and_true] at h0
  unfold commitDone
  (repeat' split) <;> simp (maxDischargeDepth := 60) only [hC, h0, List.cons_subset, List.nil_subset, and_self,
      State.onUpd_only, onHead_only, reply_only, vectorOn_only]
theorem putSlot_only {cs : List Part} {r0 : State} (k : Fin 2) (i : Option ImageInfo) (s : State) (h0 : [.upd] ⊆
    cs) (hC : OnlyChanges cs r0 s) :
    OnlyChanges cs r0 (putSlot k i s) := by
  simp only [List.cons_subset, List.nil_subset, and_true] at h0
  unfold putSlot
  simp (maxDischargeDepth := 60) only [hC, h0, State.onUpd_only]
theorem dropSession_only {cs : List Part} {r0 : State} (s : State) (h0 : [.upd] ⊆ cs) (hC : OnlyChanges cs r0 s) :

       OnlyChanges cs r0 (dropSession s) := by
  simp only [List.cons_subset, List.nil_subset, and_true] at h0
  unfold dropSession
  (repeat' split) <;> simp (maxDischargeDepth := 60) only [hC, h0, List.cons_subset, List.nil_subset, and_self,
      State.onUpd_only, putSlot_only]
theorem releaseSession_only {cs : List Part} {r0 : State} (s : State) (h0 : [.host, .cxl, .wl, .bus, .upd, .out] ⊆
    cs) (hC : OnlyChanges cs r0 s) :
    OnlyChanges cs r0 (releaseSession s) := by
  simp only [List.cons_subset, List.nil_subset, and_true] at h0
  unfold releaseSession
  (repeat' split) <;> simp (maxDischargeDepth := 60) only [hC, h0, List.cons_subset, List.nil_subset, and_self,
      dropSession_only, record_only]
theorem fillPatchArea_only {cs : List Part} {r0 : State} (k : Fin 2) (s : State) (h0 : [.upd] ⊆ cs) (hC :
    OnlyChanges cs r0 s) :
    OnlyChanges cs r0 (fillPatchArea k s) := by
  simp only [List.cons_subset, List.nil_subset, and_true] at h0
  unfold fillPatchArea
  (repeat' split) <;> simp (maxDischargeDepth := 60) only [hC, h0, State.onUpd_only]
theorem dropCopies_only {cs : List Part} {r0 : State} (c : Crew) (s : State) (h0 : [.crew] ⊆ cs) (hC : OnlyChanges
    cs r0 s) :
    OnlyChanges cs r0 (dropCopies c s) := by
  simp only [List.cons_subset, List.nil_subset, and_true] at h0
  unfold dropCopies
  simp (maxDischargeDepth := 60) only [hC, h0, State.onCrew_only]
theorem thawSettings_only {cs : List Part} {r0 : State} (s : State) (h0 : [.od] ⊆ cs) (hC : OnlyChanges cs r0 s) :

       OnlyChanges cs r0 (thawSettings s) := by
  simp only [List.cons_subset, List.nil_subset, and_true] at h0
  unfold thawSettings
  simp (maxDischargeDepth := 60) only [hC, h0, State.onOd_only]
theorem beginActivation_only {cs : List Part} {r0 : State} (slot : Fin 2) (s : State) (h0 : [.host, .cxl, .wl,
    .crew, .bus, .upd, .out] ⊆ cs) (hC : OnlyChanges cs r0 s) :
    OnlyChanges cs r0 (beginActivation slot s) := by
  simp only [List.cons_subset, List.nil_subset, and_true] at h0
  unfold beginActivation
  simp (maxDischargeDepth := 60) only [hC, h0, List.cons_subset, List.nil_subset, and_self, State.onUpd_only,
      dropCopies_only, fillPatchArea_only, onCrewUnit_only, record_only]
theorem fallbackCheck_only {cs : List Part} {r0 : State} (s : State) (h0 : [.host, .cxl, .wl, .crew, .bus, .upd,
    .out] ⊆ cs) (hC : OnlyChanges cs r0 s) :
    OnlyChanges cs r0 (fallbackCheck s) := by
  simp only [List.cons_subset, List.nil_subset, and_true] at h0
  unfold fallbackCheck
  simp (maxDischargeDepth := 60) only [hC, h0, List.cons_subset, List.nil_subset, and_self, beginActivation_only,
      ite_only]
theorem trialFail_only {cs : List Part} {r0 : State} (cause : Nat) (s : State) (h0 : [.host, .cxl, .wl, .crew,
    .bus, .upd, .out] ⊆ cs) (hC : OnlyChanges cs r0 s) :
    OnlyChanges cs r0 (trialFail cause s) := by
  simp only [List.cons_subset, List.nil_subset, and_true] at h0
  unfold trialFail
  simp (maxDischargeDepth := 60) only [hC, h0, List.cons_subset, List.nil_subset, and_self, State.onUpd_only,
      fallbackCheck_only, record_only, ite_only]
theorem abortActivation_only {cs : List Part} {r0 : State} (status : Nat) (s : State) (h0 : [.host, .cxl, .wl,
    .bus, .upd, .out] ⊆ cs) (hC : OnlyChanges cs r0 s) :
    OnlyChanges cs r0 (abortActivation status s) := by
  simp only [List.cons_subset, List.nil_subset, and_true] at h0
  unfold abortActivation
  simp (maxDischargeDepth := 60) only [hC, h0, List.cons_subset, List.nil_subset, and_self, State.onUpd_only,
      commitDone_only, record_only, ite_only]
theorem completeActivation_only {cs : List Part} {r0 : State} (y : Crew) (s : State) (h0 : [.host, .cxl, .wl, .bus,
    .upd, .out] ⊆ cs) (hC : OnlyChanges cs r0 s) :
    OnlyChanges cs r0 (completeActivation y s) := by
  simp only [List.cons_subset, List.nil_subset, and_true] at h0
  unfold completeActivation
  simp (maxDischargeDepth := 60) only [hC, h0, List.cons_subset, List.nil_subset, and_self, State.onUpd_only,
      bootWrite_only, commitDone_only, record_only, ite_only]
theorem resetFaulted_only {cs : List Part} {r0 : State} (s : State) (h0 : [.crew] ⊆ cs) (hC : OnlyChanges cs r0 s)
    :
    OnlyChanges cs r0 (resetFaulted s) := by
  simp only [List.cons_subset, List.nil_subset, and_true] at h0
  unfold resetFaulted
  simp (maxDischargeDepth := 60) only [hC, h0, State.onCrew_only]
theorem abandonCopy_only {cs : List Part} {r0 : State} (c : Crew) (s : State) (h0 : [.crew] ⊆ cs) (hC : OnlyChanges
    cs r0 s) :
    OnlyChanges cs r0 (abandonCopy c s) := by
  simp only [List.cons_subset, List.nil_subset, and_true] at h0
  unfold abandonCopy
  simp (maxDischargeDepth := 60) only [hC, h0, List.cons_subset, List.nil_subset, and_self, onCrewUnit_only]
theorem becomeMember_only {cs : List Part} {r0 : State} (c : Crew) (s : State) (h0 : [.host, .cxl, .wb, .pm, .lake,
    .log, .weir, .save, .rst, .ledger, .wl, .crew, .bus, .upd, .out] ⊆ cs) (hC : OnlyChanges cs r0 s) :
   
    OnlyChanges cs r0 (becomeMember c s) := by
  simp only [List.cons_subset, List.nil_subset, and_true] at h0
  unfold becomeMember
  simp (maxDischargeDepth := 60) only [hC, h0, List.cons_subset, List.nil_subset, and_self, State.onSave_only,
      fallbackCheck_only, moveStaged_only, onCrewUnit_only, setSeat_only, sprintCheck_only, unprotectedCheck_only,
      ite_only]
theorem passSeat_only {cs : List Part} {r0 : State} (c : Crew) (s : State) (h0 : [.host, .cxl, .wb, .pm, .lake,
    .log, .weir, .save, .rst, .ledger, .wl, .crew, .bus, .upd, .out] ⊆ cs) (hC : OnlyChanges cs r0 s) :
   
    OnlyChanges cs r0 (passSeat c s) := by
  simp only [List.cons_subset, List.nil_subset, and_true] at h0
  unfold passSeat
  simp (maxDischargeDepth := 60) only [hC, h0, List.cons_subset, List.nil_subset, and_self, becomeMember_only,
      setSeat_only, sprintCheck_only, ite_only]
theorem loneMemberFault_only {cs : List Part} {r0 : State} (c : Crew) (s : State) (h0 : [.host, .cxl, .wl, .crew,
    .od, .bus, .upd, .out] ⊆ cs) (hC : OnlyChanges cs r0 s) :
    OnlyChanges cs r0 (loneMemberFault c s) := by
  simp only [List.cons_subset, List.nil_subset, and_true] at h0
  unfold loneMemberFault
  (repeat' split) <;> simp (maxDischargeDepth := 60) only [hC, h0, List.cons_subset, List.nil_subset, and_self,
      State.onUpd_only, abortActivation_only, onCrewUnit_only, thawSettings_only]
theorem crewDown_only {cs : List Part} {r0 : State} (c : Crew) (s : State) (h0 : [.host, .cxl, .wb, .pm, .lake,
    .log, .weir, .save, .rst, .ledger, .wl, .crew, .od, .bus, .upd, .out] ⊆ cs) (hC : OnlyChanges cs r0 s) :
   
    OnlyChanges cs r0 (crewDown c s) := by
  simp only [List.cons_subset, List.nil_subset, and_true] at h0
  unfold crewDown
  simp (maxDischargeDepth := 60) only [hC, h0, List.cons_subset, List.nil_subset, and_self, State.onCrew_only,
      abandonCopy_only, dropCopies_only, loneMemberFault_only, onCrewUnit_only, passSeat_only, record_only,
      ite_only]
theorem crewFault_only {cs : List Part} {r0 : State} (c : Crew) (src : MasterId) (s : State) (h0 : [.host, .cxl,
    .wb, .pm, .lake, .log, .weir, .save, .rst, .ledger, .wl, .crew, .od, .bus, .upd, .out] ⊆ cs) (hC : OnlyChanges
    cs r0 s) :
    OnlyChanges cs r0 (crewFault c src s) := by
  simp only [List.cons_subset, List.nil_subset, and_true] at h0
  unfold crewFault
  simp (maxDischargeDepth := 60) only [hC, h0, List.cons_subset, List.nil_subset, and_self, crewDown_only,
      onCrewUnit_only, record_only, trialFail_only, ite_only]
theorem scoreDown_only {cs : List Part} {r0 : State} (c : Crew) (n : Nat) (s : State) (h0 : [.crew] ⊆ cs) (hC :
    OnlyChanges cs r0 s) :
    OnlyChanges cs r0 (scoreDown c n s) := by
  simp only [List.cons_subset, List.nil_subset, and_true] at h0
  unfold scoreDown
  simp (maxDischargeDepth := 60) only [hC, h0, List.cons_subset, List.nil_subset, and_self, onCrewUnit_only]

/-! ## Settings -/

theorem applyPorts_only {cs : List Part} {r0 : State} (s : State) (h0 : [.bus] ⊆ cs) (hC : OnlyChanges cs r0 s) :
 
      OnlyChanges cs r0 (applyPorts s) := by
  simp only [List.cons_subset, List.nil_subset, and_true] at h0
  unfold applyPorts
  simp (maxDischargeDepth := 60) only [hC, h0, List.cons_subset, List.nil_subset, and_self, busStop_only]

/-! ## Boot -/

theorem enterBoathouse_only {cs : List Part} {r0 : State} (cause : Nat) (s : State) (h0 : [.host, .cxl, .wl, .boot,
    .bus, .out] ⊆ cs) (hC : OnlyChanges cs r0 s) :
    OnlyChanges cs r0 (enterBoathouse cause s) := by
  simp only [List.cons_subset, List.nil_subset, and_true] at h0
  unfold enterBoathouse
  simp (maxDischargeDepth := 60) only [hC, h0, List.cons_subset, List.nil_subset, and_self, State.onBoot_only,
      record_only]
theorem startCrews_only {cs : List Part} {r0 : State} (k : Fin 2) (s : State) (h0 : [.crew, .boot, .upd] ⊆ cs) (hC
    : OnlyChanges cs r0 s) :
    OnlyChanges cs r0 (startCrews k s) := by
  simp only [List.cons_subset, List.nil_subset, and_true] at h0
  unfold startCrews
  simp (maxDischargeDepth := 60) only [hC, h0, List.cons_subset, List.nil_subset, and_self, State.onBoot_only,
      State.onCrew_only, fillPatchArea_only]
theorem startRepechage_only {cs : List Part} {r0 : State} (s : State) (h0 : [.host, .cxl, .wl, .crew, .boot, .od,
    .bus, .upd, .out] ⊆ cs) (hC : OnlyChanges cs r0 s) :
    OnlyChanges cs r0 (startRepechage s) := by
  simp only [List.cons_subset, List.nil_subset, and_true] at h0
  unfold startRepechage
  simp (maxDischargeDepth := 60) only [hC, h0, List.cons_subset, List.nil_subset, and_self, State.onUpd_only,
      bootWrite_only, enterBoathouse_only, record_only, startCrews_only, takeHeadUnits_only, thawSettings_only,
      ite_only]
theorem chooseImage_only {cs : List Part} {r0 : State} (s : State) (h0 : [.host, .cxl, .wl, .crew, .boot, .od,
    .bus, .upd, .out] ⊆ cs) (hC : OnlyChanges cs r0 s) :
    OnlyChanges cs r0 (chooseImage s) := by
  simp only [List.cons_subset, List.nil_subset, and_true] at h0
  unfold chooseImage
  simp (maxDischargeDepth := 60) only [hC, h0, List.cons_subset, List.nil_subset, and_self, State.onUpd_only,
      bootWrite_only, enterBoathouse_only, record_only, startCrews_only, startRepechage_only, thawSettings_only,
      ite_only]
theorem enterFreeze_only {cs : List Part} {r0 : State} (s : State) (h0 : [.host, .cxl, .wb, .dram, .wl, .frz, .bus,
    .out] ⊆ cs) (hC : OnlyChanges cs r0 s) :
    OnlyChanges cs r0 (enterFreeze s) := by
  simp only [List.cons_subset, List.nil_subset, and_true] at h0
  unfold enterFreeze
  simp (maxDischargeDepth := 60) only [hC, h0, List.cons_subset, List.nil_subset, and_self, State.onDram_only,
      State.onFrz_only, State.onHost_only, flush_only, record_only]
theorem tryFreeze_only {cs : List Part} {r0 : State} (s : State) (h0 : [.host, .cxl, .wb, .dram, .wl, .frz, .bus,
    .out] ⊆ cs) (hC : OnlyChanges cs r0 s) :
    OnlyChanges cs r0 (tryFreeze s) := by
  simp only [List.cons_subset, List.nil_subset, and_true] at h0
  unfold tryFreeze
  simp (maxDischargeDepth := 60) only [hC, h0, List.cons_subset, List.nil_subset, and_self, State.onFrz_only,
      enterFreeze_only, ite_only]
theorem requestFreeze_only {cs : List Part} {r0 : State} (set : Freeze → Freeze) (s : State) (h0 : [.host, .cxl,
    .wb, .dram, .wl, .frz, .bus, .out] ⊆ cs) (hC : OnlyChanges cs r0 s) :
    OnlyChanges cs r0 (requestFreeze set
    s) := by
  simp only [List.cons_subset, List.nil_subset, and_true] at h0
  unfold requestFreeze
  simp (maxDischargeDepth := 60) only [hC, h0, List.cons_subset, List.nil_subset, and_self, State.onFrz_only,
      record_only, tryFreeze_only, ite_only]
theorem fanTick_only {cs : List Part} {r0 : State} (s : State) (h0 : [.free, .crew, .upd] ⊆ cs) (hC : OnlyChanges
    cs r0 s) :
    OnlyChanges cs r0 (fanTick s) := by
  simp only [List.cons_subset, List.nil_subset, and_true] at h0
  unfold fanTick
  simp (maxDischargeDepth := 60) only [hC, h0, State.onCrew_only, State.onUpd_only, free_only]
theorem startHeld_only {cs : List Part} {r0 : State} (s : State) (h0 : [.host, .cxl, .wl, .crew, .boot, .od, .bus,
    .upd, .out] ⊆ cs) (hC : OnlyChanges cs r0 s) :
    OnlyChanges cs r0 (startHeld s) := by
  simp only [List.cons_subset, List.nil_subset, and_true] at h0
  unfold startHeld
  simp (maxDischargeDepth := 60) only [hC, h0, List.cons_subset, List.nil_subset, and_self, chooseImage_only,
      ite_only]
theorem releaseHold_only {cs : List Part} {r0 : State} (clear : Freeze → Freeze) (s : State) (h0 : [.free, .host,
    .cxl, .dram, .pm, .lake, .log, .weir, .rst, .ledger, .wl, .fault, .crew, .boot, .frz, .od, .bus, .upd, .out] ⊆ cs)
    (hC : OnlyChanges cs r0 s) :
    OnlyChanges cs r0 (releaseHold clear s) := by
  simp only [List.cons_subset, List.nil_subset, and_true] at h0
  unfold releaseHold
  simp (maxDischargeDepth := 60) only [hC, h0, List.cons_subset, List.nil_subset, and_self, State.onFrz_only,
      fanTick_only, startHeld_only, thaw_only, ite_only]
theorem turnAway_only {cs : List Part} {r0 : State} (p : Path) (s : State) (h0 : [.host, .out] ⊆ cs) (hC :
    OnlyChanges cs r0 s) :
    OnlyChanges cs r0 (turnAway p s) := by
  simp only [List.cons_subset, List.nil_subset, and_true] at h0
  unfold turnAway
  (repeat' split) <;> simp (maxDischargeDepth := 60) only [hC, h0, List.cons_subset, List.nil_subset, and_self,
      mbox_only]
theorem serve_only {cs : List Part} {r0 : State} (p : Path) (index : Nat) (privs : List Nat) (act : Nat × State) (s
    : State)
    (hA : OnlyChanges cs r0 act.2) (h0 : [.host, .bus, .out] ⊆ cs) (hC : OnlyChanges cs r0 s) :
    OnlyChanges cs r0 (serve p index privs act s) := by
  unfold serve
  (repeat' split) <;> simp only [hA, hC, h0, reply_only]
theorem notInBoathouse_only {cs : List Part} {r0 : State} (s : State) (act : Nat × State) (hA : OnlyChanges cs r0
    act.2)
    (hC : OnlyChanges cs r0 s) : OnlyChanges cs r0 (notInBoathouse s act).2 := by
  unfold notInBoathouse
  split <;> assumption

end Sys2Proof.Machine
end

