-- ==== Sys2Proof/Laws/OnlyFault.lean ====
section
/-! SUPPORT. `OnlyChanges` through the fault collector, the reactions, the lines, the Outflow and the flash back
    end: one lemma an operation names every part it can change. -/

namespace Sys2Proof.Machine

/-! ## Blocks -/

theorem shadowOn_only {cs : List Part} {r0 : State} (m : MasterId) (parent : BitVec 32) (s : State) (h0 : [.fault]
    ⊆ cs) (hC : OnlyChanges cs r0 s) :
    OnlyChanges cs r0 (shadowOn m parent s) := by
  simp only [List.cons_subset, List.nil_subset, and_true] at h0
  unfold shadowOn
  simp (maxDischargeDepth := 60) only [hC, h0, State.onFault_only]
theorem shadowDone_only {cs : List Part} {r0 : State} (m : MasterId) (s : State) (h0 : [.fault] ⊆ cs) (hC :
    OnlyChanges cs r0 s) :
    OnlyChanges cs r0 (shadowDone m s) := by
  simp only [List.cons_subset, List.nil_subset, and_true] at h0
  unfold shadowDone
  simp (maxDischargeDepth := 60) only [hC, h0, State.onFault_only]
theorem onCh_only {cs : List Part} {r0 : State} (n : Nat) (f : DramChannel → DramChannel) (s : State) (h0 : [.dram]
    ⊆ cs) (hC : OnlyChanges cs r0 s) :
    OnlyChanges cs r0 (onCh n f s) := by
  simp only [List.cons_subset, List.nil_subset, and_true] at h0
  unfold onCh
  simp (maxDischargeDepth := 60) only [hC, h0, State.onDram_only]
theorem markEscalated_only {cs : List Part} {r0 : State} (id : BitVec 32) (s : State) (h0 : [.fault] ⊆ cs) (hC :
    OnlyChanges cs r0 s) :
    OnlyChanges cs r0 (markEscalated id s) := by
  simp only [List.cons_subset, List.nil_subset, and_true] at h0
  unfold markEscalated
  simp (maxDischargeDepth := 60) only [hC, h0, State.onFault_only]
theorem isolate_only {cs : List Part} {r0 : State} (n : Nat) (cause : BitVec 32) (s : State) (h0 : [.free, .clk,
    .host, .cxl, .wb, .dram, .pm, .lake, .basin, .flash, .log, .weir, .save, .rst, .ledger, .wl, .fault, .crew,
    .seq, .boot, .frz, .bat, .od, .bus, .upd, .plan, .out] ⊆ cs) (hC : OnlyChanges cs r0 s) :
    OnlyChanges cs r0
    (isolate n cause s) := by
  simp only [List.cons_subset, List.nil_subset, and_true] at h0
  unfold isolate
  simp (maxDischargeDepth := 60) only [hC, h0, List.cons_subset, List.nil_subset, and_self, chipFatal_only,
      markEscalated_only, onCh_only, record_only]
theorem startBlockReset_only {cs : List Part} {r0 : State} (n : Nat) (parent : BitVec 32) (s : State) (h0 : [.free,
    .clk, .host, .cxl, .wb, .dram, .pm, .lake, .basin, .flash, .log, .weir, .save, .rst, .ledger, .wl, .fault,
    .crew, .seq, .boot, .frz, .bat, .od, .bus, .upd, .plan, .out] ⊆ cs) (hC : OnlyChanges cs r0 s) :
   
    OnlyChanges cs r0 (startBlockReset n parent s) := by
  simp only [List.cons_subset, List.nil_subset, and_true] at h0
  unfold startBlockReset
  simp (maxDischargeDepth := 60) only [hC, h0, List.cons_subset, List.nil_subset, and_self, isolate_only,
      onCh_only, shadowOn_only, ite_only]
theorem onFl_only {cs : List Part} {r0 : State} (n : Nat) (f : FlashChannel → FlashChannel) (s : State) (h0 :
    [.flash] ⊆ cs) (hC : OnlyChanges cs r0 s) :
    OnlyChanges cs r0 (onFl n f s) := by
  simp only [List.cons_subset, List.nil_subset, and_true] at h0
  unfold onFl
  simp (maxDischargeDepth := 60) only [hC, h0, State.onFlash_only]
theorem moveSaveJobs_only {cs : List Part} {r0 : State} (d : Nat) (s : State) (h0 : [.basin, .flash] ⊆ cs) (hC :
    OnlyChanges cs r0 s) :
    OnlyChanges cs r0 (moveSaveJobs d s) := by
  simp only [List.cons_subset, List.nil_subset, and_true] at h0
  unfold moveSaveJobs
  (repeat' split) <;> simp_all (maxDischargeDepth := 60) [List.cons_subset, List.nil_subset, and_self,
      State.onBasin_only, onFl_only, only_foldl]
theorem redrainDie_only {cs : List Part} {r0 : State} (d : Nat) (s : State) (h0 : [.host, .cxl, .pm, .lake, .log,
    .weir, .ledger, .wl, .bus, .out] ⊆ cs) (hC : OnlyChanges cs r0 s) :
    OnlyChanges cs r0 (redrainDie d s) := by
  simp only [List.cons_subset, List.nil_subset, and_true] at h0
  unfold redrainDie
  simp_all (maxDischargeDepth := 60) [List.cons_subset, List.nil_subset, and_self, dropMapping_only, redrain_only,
      only_foldl]
theorem redrainRetired_only {cs : List Part} {r0 : State} (s : State) (h0 : [.host, .cxl, .pm, .lake, .log,
    .weir, .ledger, .wl, .bus, .out] ⊆ cs) (hC : OnlyChanges cs r0 s) :
    OnlyChanges cs r0 (redrainRetired s) := by
  simp only [List.cons_subset, List.nil_subset, and_true] at h0
  unfold redrainRetired
  simp_all (maxDischargeDepth := 60) [List.cons_subset, List.nil_subset, and_self, redrainDie_only, only_foldl]
theorem retireDie_only {cs : List Part} {r0 : State} (d : Nat) (s : State) (h0 : [.host, .cxl, .pm, .lake, .basin,
    .flash, .log, .weir, .save, .ledger, .wl, .bus, .out] ⊆ cs) (hC : OnlyChanges cs r0 s) :
    OnlyChanges cs r0
    (retireDie d s) := by
  simp only [List.cons_subset, List.nil_subset, and_true] at h0
  unfold retireDie
  simp (maxDischargeDepth := 60) only [hC, h0, List.cons_subset, List.nil_subset, and_self, State.onFlash_only,
      State.onSave_only, moveSaveJobs_only, record_only, redrainDie_only, ite_only]
theorem withdrawChannel_only {cs : List Part} {r0 : State} (n : Nat) (s : State) (h0 : [.host, .cxl, .pm, .lake,
    .basin, .flash, .log, .weir, .save, .ledger, .wl, .bus, .out] ⊆ cs) (hC : OnlyChanges cs r0 s) :
   
    OnlyChanges cs r0 (withdrawChannel n s) := by
  simp only [List.cons_subset, List.nil_subset, and_true] at h0
  unfold withdrawChannel
  simp_all (maxDischargeDepth := 60) [List.cons_subset, List.nil_subset, and_self, onFl_only, retireDie_only,
      only_foldl]
theorem resetFlashChannel_only {cs : List Part} {r0 : State} (n : Nat) (parent : BitVec 32) (s : State) (h0 :
    [.host, .cxl, .pm, .lake, .basin, .flash, .log, .weir, .save, .ledger, .wl, .fault, .bus, .out] ⊆ cs) (hC :
    OnlyChanges cs r0 s) :
    OnlyChanges cs r0 (resetFlashChannel n parent s) := by
  simp only [List.cons_subset, List.nil_subset, and_true] at h0
  unfold resetFlashChannel
  simp (maxDischargeDepth := 60) only [hC, h0, List.cons_subset, List.nil_subset, and_self, onFl_only,
      shadowOn_only, withdrawChannel_only, ite_only]
theorem resetLdpc_only {cs : List Part} {r0 : State} (k : Nat) (parent : BitVec 32) (s : State) (h0 : [.host, .cxl,
    .pm, .lake, .basin, .flash, .log, .weir, .save, .ledger, .wl, .fault, .bus, .out] ⊆ cs) (hC : OnlyChanges cs r0
    s) :
    OnlyChanges cs r0 (resetLdpc k parent s) := by
  simp only [List.cons_subset, List.nil_subset, and_true] at h0
  unfold resetLdpc
  simp_all (maxDischargeDepth := 60) [List.cons_subset, List.nil_subset, and_self, State.onFlash_only, onFl_only,
      shadowOn_only, withdrawChannel_only, ite_only, only_foldl]
theorem resetXts_only {cs : List Part} {r0 : State} (k : Nat) (parent : BitVec 32) (s : State) (h0 : [.flash,
    .fault] ⊆ cs) (hC : OnlyChanges cs r0 s) :
    OnlyChanges cs r0 (resetXts k parent s) := by
  simp only [List.cons_subset, List.nil_subset, and_true] at h0
  unfold resetXts
  simp (maxDischargeDepth := 60) only [hC, h0, List.cons_subset, List.nil_subset, and_self, State.onFlash_only,
      shadowOn_only, ite_only]
theorem resetFlashRegion_only {cs : List Part} {r0 : State} (parent : BitVec 32) (s : State) (h0 : [.pm, .flash,
    .fault, .crew] ⊆ cs) (hC : OnlyChanges cs r0 s) :
    OnlyChanges cs r0 (resetFlashRegion parent s) := by
  simp only [List.cons_subset, List.nil_subset, and_true] at h0
  unfold resetFlashRegion
  simp_all (maxDischargeDepth := 60) [List.cons_subset, List.nil_subset, and_self, State.onCrew_only, failOne_only,
      onFl_only, shadowOn_only, only_foldl]
theorem resetHead_only {cs : List Part} {r0 : State} (h : Fin 2) (linkToo : Bool) (s : State) (h0 : [.host, .cxl,
    .rst, .wl, .od, .bus, .upd, .out] ⊆ cs) (hC : OnlyChanges cs r0 s) :
    OnlyChanges cs r0 (resetHead h linkToo
    s) := by
  simp only [List.cons_subset, List.nil_subset, and_true] at h0
  unfold resetHead
  dsimp only
  (repeat' split) <;> simp (maxDischargeDepth := 60) only [hC, h0, List.cons_subset, List.nil_subset, and_self,
      State.onRst_only, State.onUpd_only, endSessions_only, onHead_only, releaseSession_only]
theorem onPort_only {cs : List Part} {r0 : State} (p : Port) (f : BusPort → BusPort) (s : State) (h0 : [.bus] ⊆ cs)
    (hC : OnlyChanges cs r0 s) :
    OnlyChanges cs r0 (onPort p f s) := by
  simp only [List.cons_subset, List.nil_subset, and_true] at h0
  unfold onPort
  simp (maxDischargeDepth := 60) only [hC, h0, State.onBus_only]
theorem localFailed_only {cs : List Part} {r0 : State} (s : State) (h0 : [.free, .bus] ⊆ cs) (hC : OnlyChanges cs
    r0 s) :
    OnlyChanges cs r0 (localFailed s) := by
  simp only [List.cons_subset, List.nil_subset, and_true] at h0
  unfold localFailed
  simp (maxDischargeDepth := 60) only [hC, h0, List.cons_subset, List.nil_subset, and_self, busStop_only,
      onPort_only, free_only]
theorem resetPort_only {cs : List Part} {r0 : State} (p : Port) (parent : BitVec 32) (s : State) (h0 : [.fault,
    .bus] ⊆ cs) (hC : OnlyChanges cs r0 s) :
    OnlyChanges cs r0 (resetPort p parent s) := by
  simp only [List.cons_subset, List.nil_subset, and_true] at h0
  unfold resetPort
  simp (maxDischargeDepth := 60) only [hC, h0, List.cons_subset, List.nil_subset, and_self, onPort_only,
      shadowOn_only]
theorem failLedger_only {cs : List Part} {r0 : State} (s : State) (h0 : [.host, .cxl, .ledger, .wl, .bus, .out] ⊆
    cs) (hC : OnlyChanges cs r0 s) :
    OnlyChanges cs r0 (failLedger s) := by
  simp only [List.cons_subset, List.nil_subset, and_true] at h0
  unfold failLedger
  simp (maxDischargeDepth := 60) only [hC, h0, List.cons_subset, List.nil_subset, and_self, State.onLedger_only,
      State.onWl_only, record_only, ite_only]

/-! ## Fault -/

theorem setCapture_only {cs : List Part} {r0 : State} (m : MasterId) (c : Capture) (s : State) (h0 : [.fault] ⊆ cs)
    (hC : OnlyChanges cs r0 s) :
    OnlyChanges cs r0 (setCapture m c s) := by
  simp only [List.cons_subset, List.nil_subset, and_true] at h0
  unfold setCapture
  simp (maxDischargeDepth := 60) only [hC, h0, State.onFault_only]
theorem reactFlashRegion_only {cs : List Part} {r0 : State} (id : BitVec 32) (s : State) (h0 : [.free, .clk, .host,
    .cxl, .wb, .dram, .pm, .lake, .basin, .flash, .log, .weir, .save, .rst, .ledger, .wl, .fault, .crew, .seq,
    .boot, .frz, .bat, .od, .bus, .upd, .plan, .out] ⊆ cs) (hC : OnlyChanges cs r0 s) :
    OnlyChanges cs r0
    (reactFlashRegion id s) := by
  simp only [List.cons_subset, List.nil_subset, and_true] at h0
  unfold reactFlashRegion
  simp (maxDischargeDepth := 60) only [hC, h0, List.cons_subset, List.nil_subset, and_self, chipFatal_only,
      lastGasp_only, resetFlashRegion_only, free_only, ite_only]
theorem failBuffer_only {cs : List Part} {r0 : State} (s : State) (h0 : [.free, .wb] ⊆ cs) (hC : OnlyChanges cs r0
    s) :
    OnlyChanges cs r0 (failBuffer s) := by
  simp only [List.cons_subset, List.nil_subset, and_true] at h0
  unfold failBuffer
  simp (maxDischargeDepth := 60) only [hC, h0, State.onWb_only, free_only]
theorem headReaction_only {cs : List Part} {r0 : State} (h : Fin 2) (id : BitVec 32) (s : State) (h0 : [.host,
    .cxl, .rst, .wl, .od, .bus, .upd, .out] ⊆ cs) (hC : OnlyChanges cs r0 s) :
    OnlyChanges cs r0 (headReaction
    h id s) := by
  simp only [List.cons_subset, List.nil_subset, and_true] at h0
  unfold headReaction
  simp (maxDischargeDepth := 60) only [hC, h0, List.cons_subset, List.nil_subset, and_self, onHead_only,
      resetHead_only]
theorem reactNow_only {cs : List Part} {r0 : State} (m : MasterId) (s : State) (h0 : [.free, .clk, .host, .cxl,
    .wb, .dram, .pm, .lake, .basin, .flash, .log, .weir, .save, .rst, .ledger, .wl, .fault, .crew, .seq, .boot,
    .frz, .bat, .od, .bus, .upd, .plan, .out] ⊆ cs) (hC : OnlyChanges cs r0 s) :
    OnlyChanges cs r0 (reactNow m
    s) := by
  simp only [List.cons_subset, List.nil_subset, and_true] at h0
  unfold reactNow
  simp (maxDischargeDepth := 60) only [hC, h0, List.cons_subset, List.nil_subset, and_self, State.onFault_only,
      chipFatal_only, crewFault_only, failBuffer_only, failLedger_only, failStr_only, headReaction_only,
      reactFlashRegion_only, releaseHold_only, resetFlashChannel_only, resetLdpc_only, resetPort_only,
      resetXts_only, shadowDone_only, shadowOn_only, startBlockReset_only, ite_only]
theorem react_only {cs : List Part} {r0 : State} (m : MasterId) (s : State) (h0 : [.free, .clk, .host, .cxl, .wb,
    .dram, .pm, .lake, .basin, .flash, .log, .weir, .save, .rst, .ledger, .wl, .fault, .crew, .seq, .boot, .frz,
    .bat, .od, .bus, .upd, .plan, .out] ⊆ cs) (hC : OnlyChanges cs r0 s) :
    OnlyChanges cs r0 (react m s) := by
  simp only [List.cons_subset, List.nil_subset, and_true] at h0
  unfold react
  simp (maxDischargeDepth := 60) only [hC, h0, List.cons_subset, List.nil_subset, and_self, State.onFault_only,
      reactNow_only, ite_only]
theorem runWaiting_only {cs : List Part} {r0 : State} (s : State) (h0 : [.free, .clk, .host, .cxl, .wb, .dram, .pm,
    .lake, .basin, .flash, .log, .weir, .save, .rst, .ledger, .wl, .fault, .crew, .seq, .boot, .frz, .bat, .od,
    .bus, .upd, .plan, .out] ⊆ cs) (hC : OnlyChanges cs r0 s) :
    OnlyChanges cs r0 (runWaiting s) := by
  simp only [List.cons_subset, List.nil_subset, and_true] at h0
  unfold runWaiting
  simp_all (maxDischargeDepth := 60) [List.cons_subset, List.nil_subset, and_self, State.onFault_only, react_only,
      only_foldl]
theorem scoreFor_only {cs : List Part} {r0 : State} (m : MasterId) (n : Nat) (s : State) (h0 : [.crew] ⊆ cs) (hC :
    OnlyChanges cs r0 s) :
    OnlyChanges cs r0 (scoreFor m n s) := by
  simp only [List.cons_subset, List.nil_subset, and_true] at h0
  unfold scoreFor
  (repeat' split) <;> simp (maxDischargeDepth := 60) only [hC, h0, List.cons_subset, List.nil_subset, and_self,
      scoreDown_only]
theorem reportU_only {cs : List Part} {r0 : State} (m : MasterId) (s : State) (h0 : [.host] ⊆ cs) (hC : OnlyChanges
    cs r0 s) :
    OnlyChanges cs r0 (reportU m s) := by
  simp only [List.cons_subset, List.nil_subset, and_true] at h0
  unfold reportU
  simp (maxDischargeDepth := 60) only [hC, h0, State.onHost_only, ite_only]
theorem actC_only {cs : List Part} {r0 : State} (m : MasterId) (s : State) (h0 : [.host, .cxl, .wl, .crew, .bus,
    .out] ⊆ cs) (hC : OnlyChanges cs r0 s) :
    OnlyChanges cs r0 (actC m s) := by
  simp only [List.cons_subset, List.nil_subset, and_true] at h0
  unfold actC
  simp (maxDischargeDepth := 60) only [hC, h0, List.cons_subset, List.nil_subset, and_self, State.onHost_only,
      record_only, scoreFor_only, ite_only]
theorem actF_only {cs : List Part} {r0 : State} (m : MasterId) (s : State) (h0 : [.free, .clk, .host, .cxl, .wb,
    .dram, .pm, .lake, .basin, .flash, .log, .weir, .save, .rst, .ledger, .wl, .fault, .crew, .seq, .boot, .frz,
    .bat, .od, .bus, .upd, .plan, .out] ⊆ cs) (hC : OnlyChanges cs r0 s) :
    OnlyChanges cs r0 (actF m s) := by
  simp only [List.cons_subset, List.nil_subset, and_true] at h0
  unfold actF
  simp (maxDischargeDepth := 60) only [hC, h0, List.cons_subset, List.nil_subset, and_self, react_only,
      record_only, reportU_only, ite_only]
theorem expireGrace_only {cs : List Part} {r0 : State} (m : MasterId) (s : State) (h0 : [.free, .clk, .host, .cxl,
    .wb, .dram, .pm, .lake, .basin, .flash, .log, .weir, .save, .rst, .ledger, .wl, .fault, .crew, .seq, .boot,
    .frz, .bat, .od, .bus, .upd, .plan, .out] ⊆ cs) (hC : OnlyChanges cs r0 s) :
    OnlyChanges cs r0 (expireGrace
    m s) := by
  simp only [List.cons_subset, List.nil_subset, and_true] at h0
  unfold expireGrace
  simp (maxDischargeDepth := 60) only [hC, h0, List.cons_subset, List.nil_subset, and_self, State.onFault_only,
      actF_only, record_only, setCapture_only]
theorem actU_only {cs : List Part} {r0 : State} (m : MasterId) (s : State) (h0 : [.free, .clk, .host, .cxl, .wb,
    .dram, .pm, .lake, .basin, .flash, .log, .weir, .save, .rst, .ledger, .wl, .fault, .crew, .seq, .boot, .frz,
    .bat, .od, .bus, .upd, .plan, .out] ⊆ cs) (hC : OnlyChanges cs r0 s) :
    OnlyChanges cs r0 (actU m s) := by
  simp only [List.cons_subset, List.nil_subset, and_true] at h0
  unfold actU
  simp (maxDischargeDepth := 60) only [hC, h0, List.cons_subset, List.nil_subset, and_self, expireGrace_only,
      record_only, reportU_only, scoreFor_only, setCapture_only, ite_only]
theorem act_only {cs : List Part} {r0 : State} (m : MasterId) (k : FClass) (s : State) (h0 : [.free, .clk, .host,
    .cxl, .wb, .dram, .pm, .lake, .basin, .flash, .log, .weir, .save, .rst, .ledger, .wl, .fault, .crew, .seq,
    .boot, .frz, .bat, .od, .bus, .upd, .plan, .out] ⊆ cs) (hC : OnlyChanges cs r0 s) :
    OnlyChanges cs r0 (act
    m k s) := by
  simp only [List.cons_subset, List.nil_subset, and_true] at h0
  unfold act
  (repeat' split) <;> simp (maxDischargeDepth := 60) only [hC, h0, List.cons_subset, List.nil_subset, and_self,
      actC_only, actF_only, actU_only]
theorem escalate_only {cs : List Part} {r0 : State} (m : MasterId) (s : State) (h0 : [.free, .clk, .host, .cxl,
    .wb, .dram, .pm, .lake, .basin, .flash, .log, .weir, .save, .rst, .ledger, .wl, .fault, .crew, .seq, .boot,
    .frz, .bat, .od, .bus, .upd, .plan, .out] ⊆ cs) (hC : OnlyChanges cs r0 s) :
    OnlyChanges cs r0 (escalate m
    s) := by
  simp only [List.cons_subset, List.nil_subset, and_true] at h0
  unfold escalate
  dsimp only
  (repeat' split) <;> simp (maxDischargeDepth := 60) only [hC, h0, List.cons_subset, List.nil_subset, and_self,
      State.onFault_only, actF_only, actU_only, chipFatal_only, isolate_only, setCapture_only]
theorem newCapture_only {cs : List Part} {r0 : State} (parent : Option (BitVec 32)) (f : FaultIn) (s : State) (h0 :
    [.fault] ⊆ cs) (hC : OnlyChanges cs r0 s) :
    OnlyChanges cs r0 (newCapture parent f s) := by
  simp only [List.cons_subset, List.nil_subset, and_true] at h0
  unfold newCapture
  simp (maxDischargeDepth := 60) only [hC, h0, List.cons_subset, List.nil_subset, and_self, setCapture_only]
theorem overflowUp_only {cs : List Part} {r0 : State} (m : MasterId) (s : State) (h0 : [.fault] ⊆ cs) (hC :
    OnlyChanges cs r0 s) :
    OnlyChanges cs r0 (overflowUp m s) := by
  simp only [List.cons_subset, List.nil_subset, and_true] at h0
  unfold overflowUp
  simp (maxDischargeDepth := 60) only [hC, h0, List.cons_subset, List.nil_subset, and_self, setCapture_only]
theorem consequentialFault_only {cs : List Part} {r0 : State} (parent : Option (BitVec 32)) (f : FaultIn) (s :
    State) (h0 : [.host, .cxl, .wl, .fault, .bus, .out] ⊆ cs) (hC : OnlyChanges cs r0 s) :
    OnlyChanges cs r0
    (consequentialFault parent f s) := by
  simp only [List.cons_subset, List.nil_subset, and_true] at h0
  unfold consequentialFault
  simp (maxDischargeDepth := 60) only [hC, h0, List.cons_subset, List.nil_subset, and_self, State.onFault_only,
      newCapture_only, overflowUp_only, recordWith_only, ite_only]
theorem heldFault_only {cs : List Part} {r0 : State} (f : FaultIn) (k : FClass) (s : State) (h0 : [.free, .clk,
    .host, .cxl, .wb, .dram, .pm, .lake, .basin, .flash, .log, .weir, .save, .rst, .ledger, .wl, .fault, .crew,
    .seq, .boot, .frz, .bat, .od, .bus, .upd, .plan, .out] ⊆ cs) (hC : OnlyChanges cs r0 s) :
    OnlyChanges cs r0
    (heldFault f k s) := by
  simp only [List.cons_subset, List.nil_subset, and_true] at h0
  unfold heldFault
  simp (maxDischargeDepth := 60) only [hC, h0, List.cons_subset, List.nil_subset, and_self, act_only,
      escalate_only, overflowUp_only, setCapture_only, ite_only]
theorem reportFault_only {cs : List Part} {r0 : State} (parent : Option (BitVec 32)) (f : FaultIn) (s : State) (h0
    : [.free, .clk, .host, .cxl, .wb, .dram, .pm, .lake, .basin, .flash, .log, .weir, .save, .rst, .ledger, .wl,
    .fault, .crew, .seq, .boot, .frz, .bat, .od, .bus, .upd, .plan, .out] ⊆ cs) (hC : OnlyChanges cs r0 s) :
   
    OnlyChanges cs r0 (reportFault parent f s) := by
  simp only [List.cons_subset, List.nil_subset, and_true] at h0
  unfold reportFault
  dsimp only
  (repeat' split) <;> simp (maxDischargeDepth := 60) only [hC, h0, List.cons_subset, List.nil_subset, and_self,
      act_only, chipFatal_only, consequentialFault_only, heldFault_only, newCapture_only, setCapture_only]
theorem raise_only {cs : List Part} {r0 : State} (m : MasterId) (cls : FClass) (key : BitVec 8) (typ : Fin 16) (req
    : MasterId) (addr detail : Nat) (s : State) (h0 : [.free, .clk, .host, .cxl, .wb, .dram, .pm, .lake, .basin,
    .flash, .log, .weir, .save, .rst, .ledger, .wl, .fault, .crew, .seq, .boot, .frz, .bat, .od, .bus, .upd, .plan,
    .out] ⊆ cs) (hC : OnlyChanges cs r0 s) :
    OnlyChanges cs r0 (raise m cls key typ req addr detail s) := by
  simp only [List.cons_subset, List.nil_subset, and_true] at h0
  unfold raise
  simp (maxDischargeDepth := 60) only [hC, h0, List.cons_subset, List.nil_subset, and_self, reportFault_only]
theorem overflowCheck_only {cs : List Part} {r0 : State} (s : State) (h0 : [.free, .clk, .host, .cxl, .wb, .dram,
    .pm, .lake, .basin, .flash, .log, .weir, .save, .rst, .ledger, .wl, .fault, .crew, .seq, .boot, .frz, .bat,
    .od, .bus, .upd, .plan, .out] ⊆ cs) (hC : OnlyChanges cs r0 s) :
    OnlyChanges cs r0 (overflowCheck s) := by
  simp only [List.cons_subset, List.nil_subset, and_true] at h0
  unfold overflowCheck
  simp (maxDischargeDepth := 60) only [hC, h0, List.cons_subset, List.nil_subset, and_self, State.onLog_only,
      chipFatal_only, newCapture_only, setCapture_only, ite_only]
theorem overrunOf_only {cs : List Part} {r0 : State} (h : Shadow) (s : State) (h0 : [.free, .clk, .host, .cxl, .wb,
    .dram, .pm, .lake, .basin, .flash, .log, .weir, .save, .rst, .ledger, .wl, .fault, .crew, .seq, .boot, .frz,
    .bat, .od, .bus, .upd, .plan, .out] ⊆ cs) (hC : OnlyChanges cs r0 s) :
    OnlyChanges cs r0 (overrunOf h s) :=
    by
  simp only [List.cons_subset, List.nil_subset, and_true] at h0
  unfold overrunOf
  (repeat' split) <;> simp (maxDischargeDepth := 60) only [hC, h0, List.cons_subset, List.nil_subset, and_self,
      chipFatal_only, isolate_only, shadowDone_only]
theorem headLate_only {cs : List Part} {r0 : State} (h : Fin 2) (s : State) (h0 : [.free, .clk, .host, .cxl, .wb,
    .dram, .pm, .lake, .basin, .flash, .log, .weir, .save, .rst, .ledger, .wl, .fault, .crew, .seq, .boot, .frz,
    .bat, .od, .bus, .upd, .plan, .out] ⊆ cs) (hC : OnlyChanges cs r0 s) :
    OnlyChanges cs r0 (headLate h s) :=
    by
  simp only [List.cons_subset, List.nil_subset, and_true] at h0
  unfold headLate
  (repeat' split) <;> simp (maxDischargeDepth := 60) only [hC, h0, List.cons_subset, List.nil_subset, and_self,
      chipFatal_only, onHead_only]
theorem overrunStep_only {cs : List Part} {r0 : State} (s : State) (h0 : [.free, .clk, .host, .cxl, .wb, .dram,
    .pm, .lake, .basin, .flash, .log, .weir, .save, .rst, .ledger, .wl, .fault, .crew, .seq, .boot, .frz, .bat,
    .od, .bus, .upd, .plan, .out] ⊆ cs) (hC : OnlyChanges cs r0 s) :
    OnlyChanges cs r0 (overrunStep s) := by
  simp only [List.cons_subset, List.nil_subset, and_true] at h0
  unfold overrunStep
  (repeat' split) <;> simp (maxDischargeDepth := 60) only [hC, h0, List.cons_subset, List.nil_subset, and_self,
      headLate_only, overrunOf_only]
theorem ack_only {cs : List Part} {r0 : State} (id : BitVec 32) (s : State) (h0 : [.fault] ⊆ cs) (hC : OnlyChanges
    cs r0 s) :
    OnlyChanges cs r0 (ack id s) := by
  simp only [List.cons_subset, List.nil_subset, and_true] at h0
  unfold ack
  simp (maxDischargeDepth := 60) only [hC, h0, List.cons_subset, List.nil_subset, and_self, setCapture_only,
      ite_only]
theorem notice_only {cs : List Part} {r0 : State} (s : State) (h0 : [.bus] ⊆ cs) (hC : OnlyChanges cs r0 s) :
   
    OnlyChanges cs r0 (notice s) := by
  simp only [List.cons_subset, List.nil_subset, and_true] at h0
  unfold notice
  (repeat' split) <;> simp (maxDischargeDepth := 60) only [hC, h0, List.cons_subset, List.nil_subset, and_self,
      State.onBus_only, attend_only, ite_only]

/-! ## Lines -/

theorem countCorrected_only {cs : List Part} {r0 : State} (s : State) (line dev : Nat) (h0 : [.host, .cxl, .dram,
    .wl, .bus, .out] ⊆ cs) (hC : OnlyChanges cs r0 s) :
    OnlyChanges cs r0 (countCorrected s line dev) := by
  simp only [List.cons_subset, List.nil_subset, and_true] at h0
  unfold countCorrected
  simp (maxDischargeDepth := 60) only [hC, h0, List.cons_subset, List.nil_subset, and_self, onCh_only, record_only,
      ite_only]
theorem corrected_only {cs : List Part} {r0 : State} (line dev : Nat) (typ : Fin 16) (req : MasterId) (s : State)
    (h0 : [.free, .clk, .host, .cxl, .wb, .dram, .pm, .lake, .basin, .flash, .log, .weir, .save, .rst, .ledger,
    .wl, .fault, .crew, .seq, .boot, .frz, .bat, .od, .bus, .upd, .plan, .out] ⊆ cs) (hC : OnlyChanges cs r0 s) :
 
      OnlyChanges cs r0 (corrected line dev typ req s) := by
  simp only [List.cons_subset, List.nil_subset, and_true] at h0
  unfold corrected
  simp (maxDischargeDepth := 60) only [hC, h0, List.cons_subset, List.nil_subset, and_self, countCorrected_only,
      raise_only, free_only]
theorem correctedFree_only {cs : List Part} {r0 : State} (line : Nat) (typ : Fin 16) (req : MasterId) (s : State)
    (h0 : [.free, .clk, .host, .cxl, .wb, .dram, .pm, .lake, .basin, .flash, .log, .weir, .save, .rst, .ledger,
    .wl, .fault, .crew, .seq, .boot, .frz, .bat, .od, .bus, .upd, .plan, .out] ⊆ cs) (hC : OnlyChanges cs r0 s) :
 
      OnlyChanges cs r0 (correctedFree line typ req s) := by
  simp only [List.cons_subset, List.nil_subset, and_true] at h0
  unfold correctedFree
  simp (maxDischargeDepth := 60) only [hC, h0, List.cons_subset, List.nil_subset, and_self, corrected_only,
      free_only]
theorem uncorrectable_only {cs : List Part} {r0 : State} (line : Nat) (syn : BitVec 16) (typ : Fin 16) (req :
    MasterId) (s : State) (h0 : [.free, .clk, .host, .cxl, .wb, .dram, .pm, .lake, .basin, .flash, .log, .weir,
    .save, .rst, .ledger, .wl, .fault, .crew, .seq, .boot, .frz, .bat, .od, .bus, .upd, .plan, .out] ⊆ cs) (hC :
    OnlyChanges cs r0 s) :
    OnlyChanges cs r0 (uncorrectable line syn typ req s) := by
  simp only [List.cons_subset, List.nil_subset, and_true] at h0
  unfold uncorrectable
  simp (maxDischargeDepth := 60) only [hC, h0, List.cons_subset, List.nil_subset, and_self, onCh_only, raise_only,
      setPoison_only]
theorem dramLine_only {cs : List Part} {r0 : State} (line : Nat) (res : DramRead) (typ : Fin 16) (req : MasterId)
    (s : State) (h0 : [.free, .clk, .host, .cxl, .wb, .dram, .pm, .lake, .basin, .flash, .log, .weir, .save, .rst,
    .ledger, .wl, .fault, .crew, .seq, .boot, .frz, .bat, .od, .bus, .upd, .plan, .out] ⊆ cs) (hC : OnlyChanges cs
    r0 s) :
    OnlyChanges cs r0 (dramLine line res typ req s) := by
  simp only [List.cons_subset, List.nil_subset, and_true] at h0
  unfold dramLine
  (repeat' split) <;> simp (maxDischargeDepth := 60) only [hC, h0, List.cons_subset, List.nil_subset, and_self,
      corrected_only, correctedFree_only, uncorrectable_only]
theorem queueRead_only {cs : List Part} {r0 : State} (page : Nat) (op : FlashOp) (s : State) (h0 : [.flash] ⊆ cs)
    (hC : OnlyChanges cs r0 s) :
    OnlyChanges cs r0 (queueRead page op s) := by
  simp only [List.cons_subset, List.nil_subset, and_true] at h0
  unfold queueRead
  (repeat' split) <;> simp (maxDischargeDepth := 60) only [hC, h0, List.cons_subset, List.nil_subset, and_self,
      onFl_only]
theorem startRepair_only {cs : List Part} {r0 : State} (line : Nat) (s : State) (h0 : [.cxl, .dram, .flash] ⊆ cs)
    (hC : OnlyChanges cs r0 s) :
    OnlyChanges cs r0 (startRepair line s) := by
  simp only [List.cons_subset, List.nil_subset, and_true] at h0
  unfold startRepair
  simp (maxDischargeDepth := 60) only [hC, h0, List.cons_subset, List.nil_subset, and_self, queueRead_only,
      setPoison_only]
theorem scrubLine_only {cs : List Part} {r0 : State} (line : Nat) (res : DramRead) (s : State) (h0 : [.free, .clk,
    .host, .cxl, .wb, .dram, .pm, .lake, .basin, .flash, .log, .weir, .save, .rst, .ledger, .wl, .fault, .crew,
    .seq, .boot, .frz, .bat, .od, .bus, .upd, .plan, .out] ⊆ cs) (hC : OnlyChanges cs r0 s) :
    OnlyChanges cs r0
    (scrubLine line res s) := by
  simp only [List.cons_subset, List.nil_subset, and_true] at h0
  unfold scrubLine
  (repeat' split) <;> simp (maxDischargeDepth := 60) only [hC, h0, List.cons_subset, List.nil_subset, and_self,
      corrected_only, correctedFree_only, startRepair_only, uncorrectable_only]
theorem startFetch_only {cs : List Part} {r0 : State} (page : Nat) (s : State) (h0 : [.flash, .rst] ⊆ cs) (hC :
    OnlyChanges cs r0 s) :
    OnlyChanges cs r0 (startFetch page s) := by
  simp only [List.cons_subset, List.nil_subset, and_true] at h0
  unfold startFetch
  simp (maxDischargeDepth := 60) only [hC, h0, List.cons_subset, List.nil_subset, and_self, State.onRst_only,
      queueRead_only, ite_only]
theorem holdRead_only {cs : List Part} {r0 : State} (h : Fin 2) (id line : Nat) (why : RWait) (s : State) (h0 :
    [.wb] ⊆ cs) (hC : OnlyChanges cs r0 s) :
    OnlyChanges cs r0 (holdRead h id line why s) := by
  simp only [List.cons_subset, List.nil_subset, and_true] at h0
  unfold holdRead
  simp (maxDischargeDepth := 60) only [hC, h0, State.onWb_only]
theorem answer_only {cs : List Part} {r0 : State} (h : Fin 2) (id line : Nat) (s : State) (h0 : [.out] ⊆ cs) (hC :
    OnlyChanges cs r0 s) :
    OnlyChanges cs r0 (answer h id line s) := by
  simp only [List.cons_subset, List.nil_subset, and_true] at h0
  unfold answer
  simp (maxDischargeDepth := 60) only [hC, h0, List.cons_subset, List.nil_subset, and_self, say_only]
theorem answerPoison_only {cs : List Part} {r0 : State} (h : Fin 2) (id : Nat) (s : State) (h0 : [.free, .out] ⊆
    cs) (hC : OnlyChanges cs r0 s) :
    OnlyChanges cs r0 (answerPoison h id s) := by
  simp only [List.cons_subset, List.nil_subset, and_true] at h0
  unfold answerPoison
  simp (maxDischargeDepth := 60) only [hC, h0, List.cons_subset, List.nil_subset, and_self, say_only, free_only]
theorem serveRead_only {cs : List Part} {r0 : State} (h : Fin 2) (id line : Nat) (res : DramRead) (s : State) (h0 :
    [.free, .clk, .host, .cxl, .wb, .dram, .pm, .lake, .basin, .flash, .log, .weir, .save, .rst, .ledger, .wl,
    .fault, .crew, .seq, .boot, .frz, .bat, .od, .bus, .upd, .plan, .out] ⊆ cs) (hC : OnlyChanges cs r0 s) :
   
    OnlyChanges cs r0 (serveRead h id line res s) := by
  simp only [List.cons_subset, List.nil_subset, and_true] at h0
  unfold serveRead
  (repeat' split) <;> simp (maxDischargeDepth := 60) only [hC, h0, List.cons_subset, List.nil_subset, and_self,
      answer_only, corrected_only, correctedFree_only, holdRead_only, startRepair_only, uncorrectable_only]
theorem answerHeld_only {cs : List Part} {r0 : State} (r : PendingRead) (s : State) (h0 : [.out] ⊆ cs) (hC :
    OnlyChanges cs r0 s) :
    OnlyChanges cs r0 (answerHeld r s) := by
  simp only [List.cons_subset, List.nil_subset, and_true] at h0
  unfold answerHeld
  simp (maxDischargeDepth := 60) only [hC, h0, List.cons_subset, List.nil_subset, and_self, say_only, ite_only]
theorem release_only {cs : List Part} {r0 : State} (p : PendingRead → Bool) (s : State) (h0 : [.wb, .out] ⊆ cs) (hC
    : OnlyChanges cs r0 s) :
    OnlyChanges cs r0 (release p s) := by
  simp only [List.cons_subset, List.nil_subset, and_true] at h0
  unfold release
  simp_all (maxDischargeDepth := 60) [List.cons_subset, List.nil_subset, and_self, State.onWb_only,
      answerHeld_only, only_foldl]
theorem setRestored_only {cs : List Part} {r0 : State} (page : Nat) (s : State) (h0 : [.rst] ⊆ cs) (hC :
    OnlyChanges cs r0 s) :
    OnlyChanges cs r0 (setRestored page s) := by
  simp only [List.cons_subset, List.nil_subset, and_true] at h0
  unfold setRestored
  simp (maxDischargeDepth := 60) only [hC, h0, State.onRst_only]
theorem releaseWrites_only {cs : List Part} {r0 : State} (page n : Nat) (s : State) (h0 : [.host, .cxl, .wb, .pm,
    .lake, .log, .weir, .rst, .ledger, .wl, .bus, .out] ⊆ cs) (hC : OnlyChanges cs r0 s) :
    OnlyChanges cs r0 (releaseWrites page n s) := by
  induction n generalizing s with
  | zero => exact hC
  | succ n ih =>
    unfold releaseWrites
    split
    · exact hC
    · simp only [List.cons_subset, List.nil_subset, and_true] at h0
      apply ih
      simp (maxDischargeDepth := 60) only [hC, h0, List.cons_subset, List.nil_subset, and_self, admitEntry_only,
        onEntry_only, overshootEntry_only, testOrWait_only, ite_only]

/-! ## Outflow -/

theorem choose_only {cs : List Part} {r0 : State} (s : State) (h0 : [.pm] ⊆ cs) (hC : OnlyChanges cs r0 s) :
   
    OnlyChanges cs r0 (choose s) := by
  simp only [List.cons_subset, List.nil_subset, and_true] at h0
  unfold choose
  simp (maxDischargeDepth := 60) only [hC, h0, State.onPm_only]
theorem markBatch_only {cs : List Part} {r0 : State} (pages : List Nat) (s : State) (h0 : [.cxl, .wb, .dram, .pm,
    .log] ⊆ cs) (hC : OnlyChanges cs r0 s) :
    OnlyChanges cs r0 (markBatch pages s) := by
  simp only [List.cons_subset, List.nil_subset, and_true] at h0
  unfold markBatch
  simp_all (maxDischargeDepth := 60) [List.cons_subset, List.nil_subset, and_self, State.onPm_only, markOne_only,
      only_foldl]
theorem markDrainingOp_only {cs : List Part} {r0 : State} (pages : List Nat) (s : State) (h0 : [.cxl, .wb, .dram,
    .pm, .log] ⊆ cs) (hC : OnlyChanges cs r0 s) :
    OnlyChanges cs r0 (markDrainingOp pages s) := by
  simp only [List.cons_subset, List.nil_subset, and_true] at h0
  unfold markDrainingOp
  simp (maxDischargeDepth := 60) only [hC, h0, List.cons_subset, List.nil_subset, and_self, choose_only,
      markBatch_only, ite_only]
theorem completeDrainOp_only {cs : List Part} {r0 : State} (tag seg unit : Nat) (s : State) (h0 : [.host, .cxl,
    .wb, .pm, .lake, .log, .weir, .rst, .ledger, .wl, .bus, .out] ⊆ cs) (hC : OnlyChanges cs r0 s) :
   
    OnlyChanges cs r0 (completeDrainOp tag seg unit s) := by
  simp only [List.cons_subset, List.nil_subset, and_true] at h0
  unfold completeDrainOp
  simp (maxDischargeDepth := 60) only [hC, h0, List.cons_subset, List.nil_subset, and_self, State.onPm_only,
      completeOne_only, ite_only]
theorem failDrainOp_only {cs : List Part} {r0 : State} (tag : Nat) (s : State) (h0 : [.pm] ⊆ cs) (hC : OnlyChanges
    cs r0 s) :
    OnlyChanges cs r0 (failDrainOp tag s) := by
  simp only [List.cons_subset, List.nil_subset, and_true] at h0
  unfold failDrainOp
  simp (maxDischargeDepth := 60) only [hC, h0, List.cons_subset, List.nil_subset, and_self, State.onPm_only,
      failOne_only]
theorem walkOp_only {cs : List Part} {r0 : State} (slot : Fin 16) (st : PState) (s : State) (h0 : [.pm] ⊆ cs) (hC :
    OnlyChanges cs r0 s) :
    OnlyChanges cs r0 (walkOp slot st s) := by
  simp only [List.cons_subset, List.nil_subset, and_true] at h0
  unfold walkOp
  simp (maxDischargeDepth := 60) only [hC, h0, State.onPm_only]
theorem lineError_only {cs : List Part} {r0 : State} (line : Nat) (s : State) (h0 : [.host, .cxl, .pm, .lake, .log,
    .weir, .ledger, .wl, .bus, .out] ⊆ cs) (hC : OnlyChanges cs r0 s) :
    OnlyChanges cs r0 (lineError line s) :=
    by
  simp only [List.cons_subset, List.nil_subset, and_true] at h0
  unfold lineError
  simp (maxDischargeDepth := 60) only [hC, h0, List.cons_subset, List.nil_subset, and_self, State.onPm_only,
      rebuildLine_only, ite_only]
theorem recount_only {cs : List Part} {r0 : State} (s : State) (h0 : [.pm] ⊆ cs) (hC : OnlyChanges cs r0 s) :
   
    OnlyChanges cs r0 (recount s) := by
  simp only [List.cons_subset, List.nil_subset, and_true] at h0
  unfold recount
  simp (maxDischargeDepth := 60) only [hC, h0, State.onPm_only]
theorem entryError_only {cs : List Part} {r0 : State} (page : Nat) (s : State) (h0 : [.host, .cxl, .dram, .pm, .lake,
    .log, .weir, .rst, .ledger, .wl, .bus, .out] ⊆ cs) (hC : OnlyChanges cs r0 s) :
    OnlyChanges cs r0 (entryError
    page s) := by
  simp only [List.cons_subset, List.nil_subset, and_true] at h0
  unfold entryError
  simp (maxDischargeDepth := 60) only [hC, h0, List.cons_subset, List.nil_subset, and_self, State.onPm_only,
      dropMapping_only, placeLost_only, ite_only]
theorem startCompaction_only {cs : List Part} {r0 : State} (s : State) (h0 : [.log] ⊆ cs) (hC : OnlyChanges cs r0
    s) :
    OnlyChanges cs r0 (startCompaction s) := by
  simp only [List.cons_subset, List.nil_subset, and_true] at h0
  unfold startCompaction
  simp (maxDischargeDepth := 60) only [hC, h0, State.onLog_only, ite_only]
theorem emitEntry_only {cs : List Part} {r0 : State} (s : State) (e : LogEntry) (h0 : [.log] ⊆ cs) (hC :
    OnlyChanges cs r0 s) :
    OnlyChanges cs r0 (emitEntry s e) := by
  simp only [List.cons_subset, List.nil_subset, and_true] at h0
  unfold emitEntry
  simp (maxDischargeDepth := 60) only [hC, h0, List.cons_subset, List.nil_subset, and_self, State.onLog_only,
      logAppend_only, ite_only]
theorem compact_only {cs : List Part} {r0 : State} (n : Nat) (s : State) (h0 : [.log] ⊆ cs) (hC : OnlyChanges cs r0
    s) :
    OnlyChanges cs r0 (compact n s) := by
  simp only [List.cons_subset, List.nil_subset, and_true] at h0
  unfold compact
  simp_all (maxDischargeDepth := 60) [List.cons_subset, List.nil_subset, and_self, State.onLog_only,
      emitEntry_only, only_foldl]
theorem checkpointOp_only {cs : List Part} {r0 : State} (w : ChunkWrite) (dir : Nat × Nat) (s : State) (h0 :
    [.free, .host, .cxl, .pm, .lake, .ledger, .wl, .bus, .out] ⊆ cs) (hC : OnlyChanges cs r0 s) :
    OnlyChanges
    cs r0 (checkpointOp w dir s) := by
  simp only [List.cons_subset, List.nil_subset, and_true] at h0
  unfold checkpointOp
  simp (maxDischargeDepth := 60) only [hC, h0, List.cons_subset, List.nil_subset, and_self, State.onLake_only,
      State.onPm_only, commit_only]
theorem completeSettle_only {cs : List Part} {r0 : State} (s : State) (h0 : [.host, .pm, .lake, .out] ⊆ cs) (hC :
    OnlyChanges cs r0 s) :
    OnlyChanges cs r0 (completeSettle s) := by
  simp only [List.cons_subset, List.nil_subset, and_true] at h0
  unfold completeSettle
  simp (maxDischargeDepth := 60) only [hC, h0, List.cons_subset, List.nil_subset, and_self, State.onHost_only,
      State.onPm_only, sprintCheck_only, vector_only]
theorem settleOp_only {cs : List Part} {r0 : State} (s : State) (h0 : [.free, .host, .cxl, .pm, .lake, .ledger,
    .wl, .bus, .out] ⊆ cs) (hC : OnlyChanges cs r0 s) :
    OnlyChanges cs r0 (settleOp s) := by
  simp only [List.cons_subset, List.nil_subset, and_true] at h0
  unfold settleOp
  simp (maxDischargeDepth := 60) only [hC, h0, List.cons_subset, List.nil_subset, and_self, commit_only,
      completeSettle_only]

/-! ## Flash -/

theorem addWear_only {cs : List Part} {r0 : State} (key cost : Nat) (s : State) (h0 : [.flash] ⊆ cs) (hC :
    OnlyChanges cs r0 s) :
    OnlyChanges cs r0 (addWear key cost s) := by
  simp only [List.cons_subset, List.nil_subset, and_true] at h0
  unfold addWear
  simp (maxDischargeDepth := 60) only [hC, h0, State.onFlash_only]
theorem noteConsumed_only {cs : List Part} {r0 : State} (s : State) (h0 : [.flash] ⊆ cs) (hC : OnlyChanges cs r0 s)
    :
    OnlyChanges cs r0 (noteConsumed s) := by
  simp only [List.cons_subset, List.nil_subset, and_true] at h0
  unfold noteConsumed
  simp (maxDischargeDepth := 60) only [hC, h0, State.onFlash_only]
theorem budgetCheck_only {cs : List Part} {r0 : State} (s : State) (h0 : [.host, .cxl, .pm, .lake, .flash, .wl,
    .bus, .out] ⊆ cs) (hC : OnlyChanges cs r0 s) :
    OnlyChanges cs r0 (budgetCheck s) := by
  simp only [List.cons_subset, List.nil_subset, and_true] at h0
  unfold budgetCheck
  simp (maxDischargeDepth := 60) only [hC, h0, List.cons_subset, List.nil_subset, and_self, State.onFlash_only,
      noteConsumed_only, record_only, sprintCheck_only, ite_only]
theorem takeBlock_only {cs : List Part} {r0 : State} (die : Nat) (area : Area) (block : Nat) (s : State) (h0 :
    [.flash] ⊆ cs) (hC : OnlyChanges cs r0 s) :
    OnlyChanges cs r0 (takeBlock die area block s) := by
  simp only [List.cons_subset, List.nil_subset, and_true] at h0
  unfold takeBlock
  simp (maxDischargeDepth := 60) only [hC, h0, State.onFlash_only]
theorem replaceBlock_only {cs : List Part} {r0 : State} (die : Nat) (area : Area) (block : Nat) (s : State) (h0 :
    [.host, .cxl, .pm, .lake, .basin, .flash, .log, .weir, .save, .ledger, .wl, .bus, .out] ⊆ cs) (hC : OnlyChanges
    cs r0 s) :
    OnlyChanges cs r0 (replaceBlock die area block s) := by
  simp only [List.cons_subset, List.nil_subset, and_true] at h0
  unfold replaceBlock
  simp (maxDischargeDepth := 60) only [hC, h0, List.cons_subset, List.nil_subset, and_self, retireDie_only,
      takeBlock_only, ite_only]
theorem noteRetired_only {cs : List Part} {r0 : State} (die : Nat) (area : Area) (block : Nat) (s : State) (h0 :
    [.flash] ⊆ cs) (hC : OnlyChanges cs r0 s) :
    OnlyChanges cs r0 (noteRetired die area block s) := by
  simp only [List.cons_subset, List.nil_subset, and_true] at h0
  unfold noteRetired
  simp (maxDischargeDepth := 60) only [hC, h0, State.onFlash_only]
theorem setSegment_only {cs : List Part} {r0 : State} (n : Nat) (g : Segment) (s : State) (h0 : [.lake] ⊆ cs) (hC :
    OnlyChanges cs r0 s) :
    OnlyChanges cs r0 (setSegment n g s) := by
  simp only [List.cons_subset, List.nil_subset, and_true] at h0
  unfold setSegment
  simp (maxDischargeDepth := 60) only [hC, h0, State.onLake_only]
theorem retireInSegment_only {cs : List Part} {r0 : State} (die seg : Nat) (s : State) (h0 : [.lake, .flash] ⊆ cs)
    (hC : OnlyChanges cs r0 s) :
    OnlyChanges cs r0 (retireInSegment die seg s) := by
  simp only [List.cons_subset, List.nil_subset, and_true] at h0
  unfold retireInSegment
  simp (maxDischargeDepth := 60) only [hC, h0, List.cons_subset, List.nil_subset, and_self, noteRetired_only,
      setSegment_only, ite_only]
theorem retireBlock_only {cs : List Part} {r0 : State} (die : Nat) (area : Area) (block : Nat) (s : State) (h0 :
    [.host, .cxl, .pm, .lake, .basin, .flash, .log, .weir, .save, .ledger, .wl, .bus, .out] ⊆ cs) (hC : OnlyChanges
    cs r0 s) :
    OnlyChanges cs r0 (retireBlock die area block s) := by
  simp only [List.cons_subset, List.nil_subset, and_true] at h0
  unfold retireBlock
  (repeat' split) <;> simp (maxDischargeDepth := 60) only [hC, h0, List.cons_subset, List.nil_subset, and_self,
      State.onBasin_only, noteRetired_only, replaceBlock_only, retireInSegment_only, takeBlock_only]
theorem dieResult_only {cs : List Part} {r0 : State} (die : Nat) (ok : Bool) (s : State) (h0 : [.host, .cxl, .pm,
    .lake, .basin, .flash, .log, .weir, .save, .ledger, .wl, .bus, .out] ⊆ cs) (hC : OnlyChanges cs r0 s) :
   
    OnlyChanges cs r0 (dieResult die ok s) := by
  simp only [List.cons_subset, List.nil_subset, and_true] at h0
  unfold dieResult
  simp (maxDischargeDepth := 60) only [hC, h0, List.cons_subset, List.nil_subset, and_self, State.onFlash_only,
      retireDie_only, ite_only]
theorem countReads_only {cs : List Part} {r0 : State} (key reads retried : Nat) (s : State) (h0 : [.flash] ⊆ cs)
    (hC : OnlyChanges cs r0 s) :
    OnlyChanges cs r0 (countReads key reads retried s) := by
  simp only [List.cons_subset, List.nil_subset, and_true] at h0
  unfold countReads
  simp (maxDischargeDepth := 60) only [hC, h0, State.onFlash_only]
theorem countStep_only {cs : List Part} {r0 : State} (key attempt : Nat) (s : State) (h0 : [.flash] ⊆ cs) (hC :
    OnlyChanges cs r0 s) :
    OnlyChanges cs r0 (countStep key attempt s) := by
  simp only [List.cons_subset, List.nil_subset, and_true] at h0
  unfold countStep
  simp (maxDischargeDepth := 60) only [hC, h0, State.onFlash_only, ite_only]
theorem setLevels_only {cs : List Part} {r0 : State} (die key : Nat) (pslc : Bool) (attempt : Nat) (s : State) (h0
    : [.flash] ⊆ cs) (hC : OnlyChanges cs r0 s) :
    OnlyChanges cs r0 (setLevels die key pslc attempt s) := by
  simp only [List.cons_subset, List.nil_subset, and_true] at h0
  unfold setLevels
  simp (maxDischargeDepth := 60) only [hC, h0, State.onFlash_only]
theorem openSegment_only {cs : List Part} {r0 : State} (n : Nat) (st : LakeStream) (s : State) (h0 : [.lake,
    .flash] ⊆ cs) (hC : OnlyChanges cs r0 s) :
    OnlyChanges cs r0 (openSegment n st s) := by
  simp only [List.cons_subset, List.nil_subset, and_true] at h0
  unfold openSegment
  simp_all (maxDischargeDepth := 60) [List.cons_subset, List.nil_subset, and_self, State.onLake_only, addWear_only,
      setSegment_only, only_foldl]
theorem gcCheck_only {cs : List Part} {r0 : State} (s : State) (h0 : [.lake] ⊆ cs) (hC : OnlyChanges cs r0 s) :
   
    OnlyChanges cs r0 (gcCheck s) := by
  simp only [List.cons_subset, List.nil_subset, and_true] at h0
  unfold gcCheck
  simp (maxDischargeDepth := 60) only [hC, h0, List.cons_subset, List.nil_subset, and_self, State.onLake_only,
      starvedCheck_only]
theorem closeCheck_only {cs : List Part} {r0 : State} (seg : Nat) (s : State) (h0 : [.lake] ⊆ cs) (hC : OnlyChanges
    cs r0 s) :
    OnlyChanges cs r0 (closeCheck seg s) := by
  simp only [List.cons_subset, List.nil_subset, and_true] at h0
  unfold closeCheck
  simp (maxDischargeDepth := 60) only [hC, h0, List.cons_subset, List.nil_subset, and_self, setSegment_only,
      ite_only]
theorem countProgram_only {cs : List Part} {r0 : State} (last : Bool) (s : State) (h0 : [.flash] ⊆ cs) (hC :
    OnlyChanges cs r0 s) :
    OnlyChanges cs r0 (countProgram last s) := by
  simp only [List.cons_subset, List.nil_subset, and_true] at h0
  unfold countProgram
  simp (maxDischargeDepth := 60) only [hC, h0, State.onFlash_only, ite_only]
theorem programUnit_only {cs : List Part} {r0 : State} (seg unit : Nat) (u : FlashUnit) (s : State) (h0 : [.lake,
    .flash] ⊆ cs) (hC : OnlyChanges cs r0 s) :
    OnlyChanges cs r0 (programUnit seg unit u s) := by
  simp only [List.cons_subset, List.nil_subset, and_true] at h0
  unfold programUnit
  simp (maxDischargeDepth := 60) only [hC, h0, List.cons_subset, List.nil_subset, and_self, State.onLake_only,
      countProgram_only, gcCheck_only, setSegment_only]
theorem replaceBad_only {cs : List Part} {r0 : State} (seg : Nat) (s : State) (h0 : [.host, .cxl, .pm, .lake,
    .basin, .flash, .log, .weir, .save, .ledger, .wl, .bus, .out] ⊆ cs) (hC : OnlyChanges cs r0 s) :
   
    OnlyChanges cs r0 (replaceBad seg s) := by
  simp only [List.cons_subset, List.nil_subset, and_true] at h0
  unfold replaceBad
  simp_all (maxDischargeDepth := 60) [List.cons_subset, List.nil_subset, and_self, replaceBlock_only,
      setSegment_only, only_foldl]
theorem erasedCheck_only {cs : List Part} {r0 : State} (seg : Nat) (s : State) (h0 : [.host, .cxl, .pm, .lake,
    .basin, .flash, .log, .weir, .save, .ledger, .wl, .bus, .out] ⊆ cs) (hC : OnlyChanges cs r0 s) :
   
    OnlyChanges cs r0 (erasedCheck seg s) := by
  simp only [List.cons_subset, List.nil_subset, and_true] at h0
  unfold erasedCheck
  simp (maxDischargeDepth := 60) only [hC, h0, List.cons_subset, List.nil_subset, and_self, State.onLake_only,
      replaceBad_only, setSegment_only, ite_only]
theorem eraseSegmentDie_only {cs : List Part} {r0 : State} (seg die : Nat) (s : State) (h0 : [.host, .cxl, .pm,
    .lake, .basin, .flash, .log, .weir, .save, .ledger, .wl, .bus, .out] ⊆ cs) (hC : OnlyChanges cs r0 s) :
   
    OnlyChanges cs r0 (eraseSegmentDie seg die s) := by
  simp only [List.cons_subset, List.nil_subset, and_true] at h0
  unfold eraseSegmentDie
  simp (maxDischargeDepth := 60) only [hC, h0, List.cons_subset, List.nil_subset, and_self, State.onLake_only,
      erasedCheck_only, setSegment_only]
theorem basinEraseOk_only {cs : List Part} {r0 : State} (die block : Nat) (s : State) (h0 : [.basin] ⊆ cs) (hC :
    OnlyChanges cs r0 s) :
    OnlyChanges cs r0 (basinEraseOk die block s) := by
  simp only [List.cons_subset, List.nil_subset, and_true] at h0
  unfold basinEraseOk
  simp (maxDischargeDepth := 60) only [hC, h0, State.onBasin_only, ite_only]
theorem exchangeBlock_only {cs : List Part} {r0 : State} (die block : Nat) (s : State) (h0 : [.host, .cxl, .pm,
    .lake, .flash, .wl, .bus, .out] ⊆ cs) (hC : OnlyChanges cs r0 s) :
    OnlyChanges cs r0 (exchangeBlock die
    block s) := by
  simp only [List.cons_subset, List.nil_subset, and_true] at h0
  unfold exchangeBlock
  simp (maxDischargeDepth := 60) only [hC, h0, List.cons_subset, List.nil_subset, and_self, State.onFlash_only,
      budgetCheck_only]
theorem countErase_only {cs : List Part} {r0 : State} (die : Nat) (area : Area) (block : Nat) (s : State) (h0 :
    [.host, .cxl, .pm, .lake, .flash, .wl, .bus, .out] ⊆ cs) (hC : OnlyChanges cs r0 s) :
    OnlyChanges cs r0
    (countErase die area block s) := by
  simp only [List.cons_subset, List.nil_subset, and_true] at h0
  unfold countErase
  simp (maxDischargeDepth := 60) only [hC, h0, List.cons_subset, List.nil_subset, and_self, addWear_only,
      budgetCheck_only, exchangeBlock_only, ite_only]
theorem eraseDone_only {cs : List Part} {r0 : State} (die : Nat) (area : Area) (block : Nat) (ok : Bool) (s :
    State) (h0 : [.host, .cxl, .pm, .lake, .basin, .flash, .log, .weir, .save, .ledger, .wl, .bus, .out] ⊆ cs) (hC
    : OnlyChanges cs r0 s) :
    OnlyChanges cs r0 (eraseDone die area block ok s) := by
  simp only [List.cons_subset, List.nil_subset, and_true] at h0
  unfold eraseDone
  (repeat' split) <;> simp (maxDischargeDepth := 60) only [hC, h0, List.cons_subset, List.nil_subset, and_self,
      State.onFlash_only, State.onLog_only, basinEraseOk_only, countErase_only, dieResult_only,
      eraseSegmentDie_only, erasedCheck_only, gcCheck_only, onFl_only, retireBlock_only]
theorem issueOp_only {cs : List Part} {r0 : State} (op : FlashOp) (s : State) (h0 : [.lake, .flash] ⊆ cs) (hC :
    OnlyChanges cs r0 s) :
    OnlyChanges cs r0 (issueOp op s) := by
  simp only [List.cons_subset, List.nil_subset, and_true] at h0
  unfold issueOp
  dsimp only
  (repeat' split) <;> simp (maxDischargeDepth := 60) only [hC, h0, List.cons_subset, List.nil_subset, and_self,
      gcCheck_only, openSegment_only, setSegment_only]
theorem readPage_only {cs : List Part} {r0 : State} (ch : Nat) (op : FlashOp) (reads : List (Nat × DramRead)) (s :
    State) (h0 : [.free, .clk, .host, .cxl, .wb, .dram, .pm, .lake, .basin, .flash, .log, .weir, .save, .rst,
    .ledger, .wl, .fault, .crew, .seq, .boot, .frz, .bat, .od, .bus, .upd, .plan, .out] ⊆ cs) (hC : OnlyChanges cs
    r0 s) :
    OnlyChanges cs r0 (readPage ch op reads s) := by
  simp only [List.cons_subset, List.nil_subset, and_true] at h0
  unfold readPage
  (repeat' split) <;> simp_all (maxDischargeDepth := 60) [List.cons_subset, List.nil_subset, and_self,
      dramLine_only, only_foldl]
theorem addJob_only {cs : List Part} {r0 : State} (ch die : Nat) (op : FlashOp) (reads : List (Nat × DramRead)) (s
    : State) (h0 : [.free, .clk, .host, .cxl, .wb, .dram, .pm, .lake, .basin, .flash, .log, .weir, .save, .rst,
    .ledger, .wl, .fault, .crew, .seq, .boot, .frz, .bat, .od, .bus, .upd, .plan, .out] ⊆ cs) (hC : OnlyChanges cs
    r0 s) :
    OnlyChanges cs r0 (addJob ch die op reads s) := by
  simp only [List.cons_subset, List.nil_subset, and_true] at h0
  unfold addJob
  simp (maxDischargeDepth := 60) only [hC, h0, List.cons_subset, List.nil_subset, and_self, onFl_only,
      readPage_only, ite_only]
theorem wakeJobs_only {cs : List Part} {r0 : State} (dch : Nat) (s : State) (h0 : [.free, .clk, .host, .cxl, .wb,
    .dram, .pm, .lake, .basin, .flash, .log, .weir, .save, .rst, .ledger, .wl, .fault, .crew, .seq, .boot, .frz,
    .bat, .od, .bus, .upd, .plan, .out] ⊆ cs) (hC : OnlyChanges cs r0 s) :
    OnlyChanges cs r0 (wakeJobs dch s)
    := by
  simp only [List.cons_subset, List.nil_subset, and_true] at h0
  unfold wakeJobs
  simp_all (maxDischargeDepth := 60) [List.cons_subset, List.nil_subset, and_self, onFl_only, readPage_only,
      only_foldl]
theorem queueOp_only {cs : List Part} {r0 : State} (ch die : Nat) (op : FlashOp) (reads : List (Nat × DramRead)) (s
    : State) (h0 : [.free, .clk, .host, .cxl, .wb, .dram, .pm, .lake, .basin, .flash, .log, .weir, .save, .rst,
    .ledger, .wl, .fault, .crew, .seq, .boot, .frz, .bat, .od, .bus, .upd, .plan, .out] ⊆ cs) (hC : OnlyChanges cs
    r0 s) :
    OnlyChanges cs r0 (queueOp ch die op reads s) := by
  simp only [List.cons_subset, List.nil_subset, and_true] at h0
  unfold queueOp
  simp (maxDischargeDepth := 60) only [hC, h0, List.cons_subset, List.nil_subset, and_self, addJob_only,
      issueOp_only, ite_only]
theorem unitFailed_only {cs : List Part} {r0 : State} (seg unit : Nat) (s : State) (h0 : [.lake, .flash] ⊆ cs) (hC
    : OnlyChanges cs r0 s) :
    OnlyChanges cs r0 (unitFailed seg unit s) := by
  simp only [List.cons_subset, List.nil_subset, and_true] at h0
  unfold unitFailed
  (repeat' split) <;> simp (maxDischargeDepth := 60) only [hC, h0, List.cons_subset, List.nil_subset, and_self,
      onFl_only, retireInSegment_only, ite_only]
theorem badUnit_only {cs : List Part} {r0 : State} (seg unit page : Nat) (s : State) (h0 : [.host, .cxl, .pm,
    .lake, .flash, .log, .weir, .ledger, .wl, .bus, .out] ⊆ cs) (hC : OnlyChanges cs r0 s) :
    OnlyChanges cs r0
    (badUnit seg unit page s) := by
  simp only [List.cons_subset, List.nil_subset, and_true] at h0
  unfold badUnit
  simp (maxDischargeDepth := 60) only [hC, h0, List.cons_subset, List.nil_subset, and_self, State.onLake_only,
      redrain_only, setSegment_only, unitFailed_only, ite_only]
theorem chunkDone_only {cs : List Part} {r0 : State} (seg unit count : Nat) (chunk : Option Nat) (s : State) (h0 :
    [.lake, .flash] ⊆ cs) (hC : OnlyChanges cs r0 s) :
    OnlyChanges cs r0 (chunkDone seg unit count chunk s) :=
    by
  simp only [List.cons_subset, List.nil_subset, and_true] at h0
  unfold chunkDone
  simp_all (maxDischargeDepth := 60) [List.cons_subset, List.nil_subset, and_self, State.onLake_only,
      programUnit_only, only_foldl]
theorem opOk_only {cs : List Part} {r0 : State} (die : Nat) (j : FlashJob) (s : State) (h0 : [.host, .cxl, .pm,
    .lake, .basin, .flash, .log, .weir, .save, .ledger, .wl, .bus, .out] ⊆ cs) (hC : OnlyChanges cs r0 s) :
   
    OnlyChanges cs r0 (opOk die j s) := by
  simp only [List.cons_subset, List.nil_subset, and_true] at h0
  unfold opOk
  dsimp only
  (repeat' split) <;> simp (maxDischargeDepth := 60) only [hC, h0, List.cons_subset, List.nil_subset, and_self,
      State.onLake_only, chunkDone_only, closeCheck_only, countProgram_only, eraseDone_only, moveMapping_only,
      placeUnit_only, programUnit_only]
theorem skipDie_only {cs : List Part} {r0 : State} (die seg : Nat) (s : State) (h0 : [.lake] ⊆ cs) (hC :
    OnlyChanges cs r0 s) :
    OnlyChanges cs r0 (skipDie die seg s) := by
  simp only [List.cons_subset, List.nil_subset, and_true] at h0
  unfold skipDie
  simp (maxDischargeDepth := 60) only [hC, h0, List.cons_subset, List.nil_subset, and_self, closeCheck_only,
      setSegment_only]
theorem retrySave_only {cs : List Part} {r0 : State} (die : Nat) (j : FlashJob) (s : State) (h0 : [.basin, .flash,
    .save] ⊆ cs) (hC : OnlyChanges cs r0 s) :
    OnlyChanges cs r0 (retrySave die j s) := by
  simp only [List.cons_subset, List.nil_subset, and_true] at h0
  unfold retrySave
  simp (maxDischargeDepth := 60) only [hC, h0, List.cons_subset, List.nil_subset, and_self, State.onBasin_only,
      noteRetired_only, onFl_only, stopResidue_only, ite_only]
theorem opFail_only {cs : List Part} {r0 : State} (die : Nat) (j : FlashJob) (s : State) (h0 : [.host, .cxl, .pm,
    .lake, .basin, .flash, .log, .weir, .save, .ledger, .wl, .bus, .out] ⊆ cs) (hC : OnlyChanges cs r0 s) :
   
    OnlyChanges cs r0 (opFail die j s) := by
  simp only [List.cons_subset, List.nil_subset, and_true] at h0
  unfold opFail
  dsimp only
  (repeat' split) <;> simp (maxDischargeDepth := 60) only [hC, h0, List.cons_subset, List.nil_subset, and_self,
      dieResult_only, eraseDone_only, onFl_only, retireBlock_only, retireInSegment_only, retrySave_only,
      skipDie_only]
theorem noteRead_only {cs : List Part} {r0 : State} (die : Nat) (op : FlashOp) (attempts : Nat) (s : State) (h0 :
    [.flash] ⊆ cs) (hC : OnlyChanges cs r0 s) :
    OnlyChanges cs r0 (noteRead die op attempts s) := by
  simp only [List.cons_subset, List.nil_subset, and_true] at h0
  unfold noteRead
  dsimp only
  (repeat' split) <;> simp (maxDischargeDepth := 60) only [hC, h0, List.cons_subset, List.nil_subset, and_self,
      countReads_only, countStep_only, onFl_only, setLevels_only]
theorem opUndecodable_only {cs : List Part} {r0 : State} (die : Nat) (j : FlashJob) (s : State) (h0 : [.host, .cxl,
    .pm, .lake, .flash, .log, .weir, .ledger, .wl, .bus, .out] ⊆ cs) (hC : OnlyChanges cs r0 s) :
    OnlyChanges
    cs r0 (opUndecodable die j s) := by
  simp only [List.cons_subset, List.nil_subset, and_true] at h0
  unfold opUndecodable
  dsimp only
  (repeat' split) <;> simp (maxDischargeDepth := 60) only [hC, h0, List.cons_subset, List.nil_subset, and_self,
      badUnit_only, closeCheck_only, dropMapping_only, noteRead_only, unitFailed_only]
theorem patrolLate_only {cs : List Part} {r0 : State} (seg attempts slots : Nat) (s : State) (h0 : [.lake] ⊆ cs)
    (hC : OnlyChanges cs r0 s) :
    OnlyChanges cs r0 (patrolLate seg attempts slots s) := by
  simp only [List.cons_subset, List.nil_subset, and_true] at h0
  unfold patrolLate
  simp (maxDischargeDepth := 60) only [hC, h0, List.cons_subset, List.nil_subset, and_self, setSegment_only,
      ite_only]
theorem opDone_only {cs : List Part} {r0 : State} (die : Nat) (j : FlashJob) (res : FlashRes) (s : State) (h0 :
    [.host, .cxl, .pm, .lake, .basin, .flash, .log, .weir, .save, .ledger, .wl, .bus, .out] ⊆ cs) (hC : OnlyChanges
    cs r0 s) :
    OnlyChanges cs r0 (opDone die j res s) := by
  simp only [List.cons_subset, List.nil_subset, and_true] at h0
  unfold opDone
  (repeat' split) <;> simp (maxDischargeDepth := 60) only [hC, h0, List.cons_subset, List.nil_subset, and_self,
      dieResult_only, noteRead_only, opFail_only, opOk_only, opUndecodable_only, patrolLate_only]
theorem oarReloadFlash_only {cs : List Part} {r0 : State} (ch : Nat) (s : State) (h0 : [.flash] ⊆ cs) (hC :
    OnlyChanges cs r0 s) :
    OnlyChanges cs r0 (oarReloadFlash ch s) := by
  simp only [List.cons_subset, List.nil_subset, and_true] at h0
  unfold oarReloadFlash
  simp (maxDischargeDepth := 60) only [hC, h0, List.cons_subset, List.nil_subset, and_self, onFl_only]
theorem patrolReads_only {cs : List Part} {r0 : State} (found : PatrolIn) (s : State) (h0 : [.free, .flash] ⊆ cs)
    (hC : OnlyChanges cs r0 s) :
    OnlyChanges cs r0 (patrolReads found s) := by
  simp only [List.cons_subset, List.nil_subset, and_true] at h0
  unfold patrolReads
  simp_all (maxDischargeDepth := 60) [List.cons_subset, List.nil_subset, and_self, countReads_only, free_only,
      only_foldl]

end Sys2Proof.Machine
end

