-- ==== Sys2Proof/Laws/OnlyEngines.lean ====
section
/-! SUPPORT. `OnlyChanges` through the commands of the Weir, the gauge, the Waterline, the save, the sequencer,
    DRAM, the restore, the faults and the planner: one lemma an operation names every part it can change. -/

namespace Sys2Proof.Machine

/-! ## WeirCommands -/

theorem learnCheck_only {cs : List Part} {r0 : State} (s : State) (h0 : [.host, .cxl, .wb, .pm, .lake, .log, .weir,
    .rst, .ledger, .wl, .bat, .bus, .out] ⊆ cs) (hC : OnlyChanges cs r0 s) :
    OnlyChanges cs r0 (learnCheck s)
    := by
  simp only [List.cons_subset, List.nil_subset, and_true] at h0
  unfold learnCheck
  simp (maxDischargeDepth := 60) only [hC, h0, List.cons_subset, List.nil_subset, and_self, abortLearn_only,
      unprotectedCheck_only, ite_only]
theorem recompute_only {cs : List Part} {r0 : State} (s : State) (h0 : [.weir] ⊆ cs) (hC : OnlyChanges cs r0 s) :
 
      OnlyChanges cs r0 (recompute s) := by
  simp only [List.cons_subset, List.nil_subset, and_true] at h0
  unfold recompute
  simp (maxDischargeDepth := 60) only [hC, h0, State.onWeir_only]
theorem publishOp_only {cs : List Part} {r0 : State} (crew : Crew) (level : Nat) (s : State) (h0 : [.host, .cxl,
    .wb, .pm, .lake, .log, .weir, .rst, .ledger, .wl, .bus, .out] ⊆ cs) (hC : OnlyChanges cs r0 s) :
   
    OnlyChanges cs r0 (publishOp crew level s) := by
  simp only [List.cons_subset, List.nil_subset, and_true] at h0
  unfold publishOp
  simp (maxDischargeDepth := 60) only [hC, h0, List.cons_subset, List.nil_subset, and_self, State.onWeir_only,
      retest_only, weirCheck_only]
theorem publishComputed_only {cs : List Part} {r0 : State} (s : State) (h0 : [.free, .host, .cxl, .wb, .pm, .lake,
    .log, .weir, .rst, .ledger, .wl, .bus, .out] ⊆ cs) (hC : OnlyChanges cs r0 s) :
    OnlyChanges cs r0
    (publishComputed s) := by
  simp only [List.cons_subset, List.nil_subset, and_true] at h0
  unfold publishComputed
  simp (maxDischargeDepth := 60) only [hC, h0, List.cons_subset, List.nil_subset, and_self, publishOp_only,
      free_only]
theorem limitsOp_only {cs : List Part} {r0 : State} (capMiB floorMiB' : Nat) (s : State) (h0 : [.host, .cxl, .wb,
    .pm, .lake, .log, .weir, .rst, .ledger, .wl, .bus, .out] ⊆ cs) (hC : OnlyChanges cs r0 s) :
    OnlyChanges cs
    r0 (limitsOp capMiB floorMiB' s) := by
  simp only [List.cons_subset, List.nil_subset, and_true] at h0
  unfold limitsOp
  simp (maxDischargeDepth := 60) only [hC, h0, List.cons_subset, List.nil_subset, and_self, State.onWeir_only,
      retest_only, weirCheck_only]

/-! ## Gauge -/

theorem writeGaugeRec_only {cs : List Part} {r0 : State} (s : State) (h0 : [.bat] ⊆ cs) (hC : OnlyChanges cs r0 s)
    :
    OnlyChanges cs r0 (writeGaugeRec s) := by
  simp only [List.cons_subset, List.nil_subset, and_true] at h0
  unfold writeGaugeRec
  simp (maxDischargeDepth := 60) only [hC, h0, State.onBat_only]
theorem takeUp_only {cs : List Part} {r0 : State} (s : State) (h0 : [.host, .cxl, .wb, .pm, .lake, .log, .weir,
    .rst, .ledger, .wl, .bat, .bus, .out] ⊆ cs) (hC : OnlyChanges cs r0 s) :
    OnlyChanges cs r0 (takeUp s) := by
  simp only [List.cons_subset, List.nil_subset, and_true] at h0
  unfold takeUp
  (repeat' split) <;> simp (maxDischargeDepth := 60) only [hC, h0, List.cons_subset, List.nil_subset, and_self,
      State.onBat_only, unprotectedCheck_only, writeGaugeRec_only, ite_only]
theorem afterPack_only {cs : List Part} {r0 : State} (s : State) (h0 : [.host, .cxl, .wb, .pm, .lake, .log, .weir,
    .rst, .ledger, .wl, .bat, .bus, .out] ⊆ cs) (hC : OnlyChanges cs r0 s) :
    OnlyChanges cs r0 (afterPack s) :=
    by
  simp only [List.cons_subset, List.nil_subset, and_true] at h0
  unfold afterPack
  simp (maxDischargeDepth := 60) only [hC, h0, List.cons_subset, List.nil_subset, and_self, chargeCheck_only,
      limitsOp_only, writeGaugeRec_only, ite_only]
theorem descriptorCheck_only {cs : List Part} {r0 : State} (x : Str) (s : State) (h0 : [.host, .cxl, .wb, .pm,
    .lake, .log, .weir, .rst, .ledger, .wl, .bat, .bus, .out] ⊆ cs) (hC : OnlyChanges cs r0 s) :
    OnlyChanges cs
    r0 (descriptorCheck x s) := by
  simp only [List.cons_subset, List.nil_subset, and_true] at h0
  unfold descriptorCheck
  simp (maxDischargeDepth := 60) only [hC, h0, List.cons_subset, List.nil_subset, and_self, failStr_only, ite_only]
theorem packChange_only {cs : List Part} {r0 : State} (x : Str) (s : State) (h0 : [.host, .cxl, .wb, .pm, .lake,
    .log, .weir, .rst, .ledger, .wl, .bat, .bus, .out] ⊆ cs) (hC : OnlyChanges cs r0 s) :
    OnlyChanges cs r0
    (packChange x s) := by
  simp only [List.cons_subset, List.nil_subset, and_true] at h0
  unfold packChange
  simp (maxDischargeDepth := 60) only [hC, h0, List.cons_subset, List.nil_subset, and_self, descriptorCheck_only,
      packReset_only]
theorem packDeclareOp_only {cs : List Part} {r0 : State} (v : Nat) (s : State) (h0 : [.host, .cxl, .wb, .pm, .lake,
    .log, .weir, .rst, .ledger, .wl, .bat, .bus, .out] ⊆ cs) (hC : OnlyChanges cs r0 s) :
    OnlyChanges cs r0
    (packDeclareOp v s) := by
  simp only [List.cons_subset, List.nil_subset, and_true] at h0
  unfold packDeclareOp
  simp (maxDischargeDepth := 60) only [hC, h0, List.cons_subset, List.nil_subset, and_self, afterPack_only,
      packChange_only, ite_only]
theorem takeCode_only {cs : List Part} {r0 : State} (code : Nat) (valid : Bool) (s : State) (h0 : [.host, .cxl,
    .wb, .pm, .lake, .log, .weir, .rst, .ledger, .wl, .bat, .bus, .out] ⊆ cs) (hC : OnlyChanges cs r0 s) :
   
    OnlyChanges cs r0 (takeCode code valid s) := by
  simp only [List.cons_subset, List.nil_subset, and_true] at h0
  unfold takeCode
  simp (maxDischargeDepth := 60) only [hC, h0, List.cons_subset, List.nil_subset, and_self, State.onBat_only,
      afterPack_only, clearReason_only, descriptorCheck_only, packChange_only, ite_only]
theorem anchorAt_only {cs : List Part} {r0 : State} (x : Str) (soc u : ℚ) (s : State) (h0 : [.bat] ⊆ cs) (hC :
    OnlyChanges cs r0 s) :
    OnlyChanges cs r0 (anchorAt x soc u s) := by
  simp only [List.cons_subset, List.nil_subset, and_true] at h0
  unfold anchorAt
  simp (maxDischargeDepth := 60) only [hC, h0, List.cons_subset, List.nil_subset, and_self, onStr_only]
theorem restAnchor_only {cs : List Part} {r0 : State} (x : Str) (s : State) (h0 : [.host, .cxl, .wb, .pm, .lake,
    .log, .weir, .rst, .ledger, .wl, .bat, .bus, .out] ⊆ cs) (hC : OnlyChanges cs r0 s) :
    OnlyChanges cs r0
    (restAnchor x s) := by
  simp only [List.cons_subset, List.nil_subset, and_true] at h0
  unfold restAnchor
  (repeat' split) <;> simp (maxDischargeDepth := 60) only [hC, h0, List.cons_subset, List.nil_subset, and_self,
      anchorAt_only, chargeCheck_only, onStr_only, unprotectedCheck_only]
theorem endForcedRest_only {cs : List Part} {r0 : State} (x : Str) (s : State) (h0 : [.bat] ⊆ cs) (hC : OnlyChanges
    cs r0 s) :
    OnlyChanges cs r0 (endForcedRest x s) := by
  simp only [List.cons_subset, List.nil_subset, and_true] at h0
  unfold endForcedRest
  simp (maxDischargeDepth := 60) only [hC, h0, List.cons_subset, List.nil_subset, and_self, onStr_only]
theorem startLearn_only {cs : List Part} {r0 : State} (x : Str) (entriesOk : Bool) (s : State) (h0 : [.free, .host,
    .cxl, .wb, .pm, .lake, .log, .weir, .rst, .ledger, .wl, .bat, .bus, .out] ⊆ cs) (hC : OnlyChanges cs r0 s) :
  
     OnlyChanges cs r0 (startLearn x entriesOk s) := by
  simp only [List.cons_subset, List.nil_subset, and_true] at h0
  unfold startLearn
  simp (maxDischargeDepth := 60) only [hC, h0, List.cons_subset, List.nil_subset, and_self, busStop_only,
      chargeCheck_only, localFailed_only, onStr_only, record_only, unprotectedCheck_only, ite_only]
theorem stopLearn_only {cs : List Part} {r0 : State} (x : Str) (s : State) (h0 : [.host, .cxl, .wb, .pm, .lake,
    .log, .weir, .rst, .ledger, .wl, .bat, .bus, .out] ⊆ cs) (hC : OnlyChanges cs r0 s) :
    OnlyChanges cs r0
    (stopLearn x s) := by
  simp only [List.cons_subset, List.nil_subset, and_true] at h0
  unfold stopLearn
  simp (maxDischargeDepth := 60) only [hC, h0, List.cons_subset, List.nil_subset, and_self, abortLearn_only,
      chargeCheck_only, unprotectedCheck_only]
theorem emptyFlag_only {cs : List Part} {r0 : State} (d : PackDescriptor) (x : Str) (s : State) (h0 : [.host, .cxl,
    .wl, .bat, .bus, .out] ⊆ cs) (hC : OnlyChanges cs r0 s) :
    OnlyChanges cs r0 (emptyFlag d x s) := by
  simp only [List.cons_subset, List.nil_subset, and_true] at h0
  unfold emptyFlag
  simp (maxDischargeDepth := 60) only [hC, h0, List.cons_subset, List.nil_subset, and_self, anchorAt_only,
      onStr_only, record_only, writeGaugeRec_only, ite_only]
theorem estimateStr_only {cs : List Part} {r0 : State} (d : PackDescriptor) (old : Sample) (x : Str) (s : State)
    (h0 : [.bat] ⊆ cs) (hC : OnlyChanges cs r0 s) :
    OnlyChanges cs r0 (estimateStr d old x s) := by
  simp only [List.cons_subset, List.nil_subset, and_true] at h0
  unfold estimateStr
  dsimp only
  (repeat' split) <;> simp (maxDischargeDepth := 60) only [hC, h0, List.cons_subset, List.nil_subset, and_self,
      onStr_only]
theorem reasonsOf_only {cs : List Part} {r0 : State} (d : PackDescriptor) (x : Str) (s : State) (h0 : [.host, .cxl,
    .wb, .pm, .lake, .log, .weir, .rst, .ledger, .wl, .bat, .bus, .out] ⊆ cs) (hC : OnlyChanges cs r0 s) :
   
    OnlyChanges cs r0 (reasonsOf d x s) := by
  simp only [List.cons_subset, List.nil_subset, and_true] at h0
  unfold reasonsOf
  simp (maxDischargeDepth := 60) only [hC, h0, List.cons_subset, List.nil_subset, and_self, clearReason_only,
      failStr_only, ite_only]
theorem crewsSample_only {cs : List Part} {r0 : State} (d : PackDescriptor) (oldA oldB : Sample) (s : State) (h0 :
    [.host, .cxl, .wb, .pm, .lake, .log, .weir, .rst, .ledger, .wl, .bat, .bus, .out] ⊆ cs) (hC : OnlyChanges cs r0
    s) :
    OnlyChanges cs r0 (crewsSample d oldA oldB s) := by
  simp only [List.cons_subset, List.nil_subset, and_true] at h0
  unfold crewsSample
  simp (maxDischargeDepth := 60) only [hC, h0, List.cons_subset, List.nil_subset, and_self, emptyFlag_only,
      estimateStr_only, learnCheck_only, reasonsOf_only, ite_only]
theorem chgCtrlOp_only {cs : List Part} {r0 : State} (v : BitVec 32) (s : State) (h0 : [.bat] ⊆ cs) (hC :
    OnlyChanges cs r0 s) :
    OnlyChanges cs r0 (chgCtrlOp v s) := by
  simp only [List.cons_subset, List.nil_subset, and_true] at h0
  unfold chgCtrlOp
  simp (maxDischargeDepth := 60) only [hC, h0, List.cons_subset, List.nil_subset, and_self, State.onBat_only,
      chargeCheck_only]
theorem stringStateOp_only {cs : List Part} {r0 : State} (x : Str) (st : StrState) (reason : StrReason) (paused :
    Bool) (s : State) (h0 : [.host, .cxl, .wb, .pm, .lake, .log, .weir, .rst, .ledger, .wl, .bat, .bus, .out] ⊆ cs)
    (hC : OnlyChanges cs r0 s) :
    OnlyChanges cs r0 (stringStateOp x st reason paused s) := by
  simp only [List.cons_subset, List.nil_subset, and_true] at h0
  unfold stringStateOp
  simp (maxDischargeDepth := 60) only [hC, h0, List.cons_subset, List.nil_subset, and_self, chargeCheck_only,
      onStr_only, unprotectedCheck_only, ite_only]

/-! ## Records -/

theorem waterlineOp_only {cs : List Part} {r0 : State} (r : WlReq) (s : State) (h0 : [.host, .cxl, .wl, .bus, .out]
    ⊆ cs) (hC : OnlyChanges cs r0 s) :
    OnlyChanges cs r0 (waterlineOp r s) := by
  simp only [List.cons_subset, List.nil_subset, and_true] at h0
  unfold waterlineOp
  simp (maxDischargeDepth := 60) only [hC, h0, List.cons_subset, List.nil_subset, and_self, moveStaged_only,
      recordWith_only]
theorem commitOp_only {cs : List Part} {r0 : State} (c : OtherCommit) (s : State) (h0 : [.free, .host, .cxl, .dram,
    .ledger, .wl, .seq, .bus, .out] ⊆ cs) (hC : OnlyChanges cs r0 s) :
    OnlyChanges cs r0 (commitOp c s) := by
  simp only [List.cons_subset, List.nil_subset, and_true] at h0
  unfold commitOp
  (repeat' split) <;> simp (maxDischargeDepth := 60) only [hC, h0, List.cons_subset, List.nil_subset, and_self,
      State.onHost_only, State.onLedger_only, commit_only, flushCounts_only, onCh_only]
theorem exportOp_only {cs : List Part} {r0 : State} (s : State) (h0 : [.wl] ⊆ cs) (hC : OnlyChanges cs r0 s) :
   
    OnlyChanges cs r0 (exportOp s) := by
  simp only [List.cons_subset, List.nil_subset, and_true] at h0
  unfold exportOp
  simp (maxDischargeDepth := 60) only [hC, h0, State.onWl_only]
theorem restoreLedger_only {cs : List Part} {r0 : State} (s : State) (h0 : [.ledger, .wl] ⊆ cs) (hC : OnlyChanges
    cs r0 s) :
    OnlyChanges cs r0 (restoreLedger s) := by
  unfold restoreLedger
  dsimp only
  refine only_foldl (fun s x h => ?_) _ _
    (State.onWl_only _ _ (parts_mem h0 rfl) (State.onLedger_only _ _ (parts_mem h0 rfl) hC))
  split
  · exact dropRec_only _ _ (parts_sub h0 rfl) h
  · exact State.onWl_only _ _ (parts_mem h0 rfl) h
theorem dropCorrupt_only {cs : List Part} {r0 : State} (seqs : List Nat) (s : State) (h0 : [.wl] ⊆ cs) (hC :
    OnlyChanges cs r0 s) :
    OnlyChanges cs r0 (dropCorrupt seqs s) := by
  simp only [List.cons_subset, List.nil_subset, and_true] at h0
  unfold dropCorrupt
  simp (maxDischargeDepth := 60) only [hC, h0, State.onWl_only]

/-! ## SaveCommands -/

theorem powerPath_only {cs : List Part} {r0 : State} (s : State) (h0 : [.free, .clk, .host, .cxl, .wb, .dram, .pm,
    .lake, .basin, .flash, .log, .weir, .save, .rst, .ledger, .wl, .fault, .crew, .seq, .boot, .frz, .bat, .od,
    .bus, .upd, .plan, .out] ⊆ cs) (hC : OnlyChanges cs r0 s) :
    OnlyChanges cs r0 (powerPath s) := by
  simp only [List.cons_subset, List.nil_subset, and_true] at h0
  unfold powerPath
  (repeat' split) <;> simp (maxDischargeDepth := 60) only [hC, h0, List.cons_subset, List.nil_subset, and_self,
      State.onSave_only, State.onSeq_only, lastGasp_only]
theorem dropIsolated_only {cs : List Part} {r0 : State} (s : State) (h0 : [.wb, .save] ⊆ cs) (hC : OnlyChanges cs
    r0 s) :
    OnlyChanges cs r0 (dropIsolated s) := by
  simp only [List.cons_subset, List.nil_subset, and_true] at h0
  unfold dropIsolated
  simp (maxDischargeDepth := 60) only [hC, h0, State.onSave_only, State.onWb_only]
theorem startedOp_only {cs : List Part} {r0 : State} (s : State) (h0 : [.free, .host, .cxl, .log, .save, .ledger,
    .wl, .bus, .out] ⊆ cs) (hC : OnlyChanges cs r0 s) :
    OnlyChanges cs r0 (startedOp s) := by
  simp only [List.cons_subset, List.nil_subset, and_true] at h0
  unfold startedOp
  simp (maxDischargeDepth := 60) only [hC, h0, List.cons_subset, List.nil_subset, and_self, State.onSave_only,
      commit_only, record_only, sealTail_only]
theorem nextPhase_only {cs : List Part} {r0 : State} (s : State) (h0 : [.basin, .flash, .save] ⊆ cs) (hC :
    OnlyChanges cs r0 s) :
    OnlyChanges cs r0 (nextPhase s) := by
  simp only [List.cons_subset, List.nil_subset, and_true] at h0
  unfold nextPhase
  (repeat' split) <;> simp (maxDischargeDepth := 60) only [hC, h0, List.cons_subset, List.nil_subset, and_self,
      State.onSave_only, landCursor_only]
theorem cursorOp_only {cs : List Part} {r0 : State} (c : Cursor) (s : State) (h0 : [.free, .host, .cxl, .basin,
    .flash, .save, .ledger, .wl, .bus, .out] ⊆ cs) (hC : OnlyChanges cs r0 s) :
    OnlyChanges cs r0 (cursorOp c
    s) := by
  simp only [List.cons_subset, List.nil_subset, and_true] at h0
  unfold cursorOp
  simp (maxDischargeDepth := 60) only [hC, h0, List.cons_subset, List.nil_subset, and_self, commit_only,
      landCursor_only]
theorem endPass_only {cs : List Part} {r0 : State} (b : Bucket) (s : State) (h0 : [.basin, .flash, .save] ⊆ cs) (hC
    : OnlyChanges cs r0 s) :
    OnlyChanges cs r0 (endPass b s) := by
  simp only [List.cons_subset, List.nil_subset, and_true] at h0
  unfold endPass
  simp (maxDischargeDepth := 60) only [hC, h0, List.cons_subset, List.nil_subset, and_self, padPass_only,
      programPages_only, ite_only]
theorem passDone_only {cs : List Part} {r0 : State} (b : Bucket) (s : State) (h0 : [.free, .host, .cxl, .basin,
    .flash, .save, .ledger, .wl, .bus, .out] ⊆ cs) (hC : OnlyChanges cs r0 s) :
    OnlyChanges cs r0 (passDone b
    s) := by
  simp only [List.cons_subset, List.nil_subset, and_true] at h0
  unfold passDone
  simp (maxDischargeDepth := 60) only [hC, h0, List.cons_subset, List.nil_subset, and_self, State.onSave_only,
      commit_only, nextPhase_only]
theorem bucketDoneOp_only {cs : List Part} {r0 : State} (b : Bucket) (s : State) (h0 : [.free, .host, .cxl, .basin,
    .flash, .save, .ledger, .wl, .bus, .out] ⊆ cs) (hC : OnlyChanges cs r0 s) :
    OnlyChanges cs r0 (bucketDoneOp
    b s) := by
  simp only [List.cons_subset, List.nil_subset, and_true] at h0
  unfold bucketDoneOp
  simp (maxDischargeDepth := 60) only [hC, h0, List.cons_subset, List.nil_subset, and_self, commit_only,
      endPass_only, landCursor_only, passDone_only, ite_only]
theorem rootsOp_only {cs : List Part} {r0 : State} (s : State) (h0 : [.free, .host, .cxl, .dram, .basin, .save,
    .ledger, .wl, .bus, .out] ⊆ cs) (hC : OnlyChanges cs r0 s) :
    OnlyChanges cs r0 (rootsOp s) := by
  simp only [List.cons_subset, List.nil_subset, and_true] at h0
  unfold rootsOp
  simp (maxDischargeDepth := 60) only [hC, h0, List.cons_subset, List.nil_subset, and_self, State.onBasin_only,
      State.onDram_only, State.onLedger_only, State.onSave_only, commit_only, rootWrite_only]
theorem savedOp_only {cs : List Part} {r0 : State} (s : State) (h0 : [.free, .host, .cxl, .save, .ledger, .wl,
    .bat, .bus, .out] ⊆ cs) (hC : OnlyChanges cs r0 s) :
    OnlyChanges cs r0 (savedOp s) := by
  simp only [List.cons_subset, List.nil_subset, and_true] at h0
  unfold savedOp
  simp (maxDischargeDepth := 60) only [hC, h0, List.cons_subset, List.nil_subset, and_self, State.onSave_only,
      closeSave_only, commit_only, exportOp_only, record_only, writeGaugeRec_only, ite_only]
theorem halve.go_only {cs : List Part} {r0 : State} (s : State) (h0 : [.host, .cxl, .save, .wl, .bus, .out] ⊆ cs)
    (hC : OnlyChanges cs r0 s) :
    OnlyChanges cs r0 (halve.go s) := by
  simp only [List.cons_subset, List.nil_subset, and_true] at h0
  unfold halve.go
  simp (maxDischargeDepth := 60) only [hC, h0, List.cons_subset, List.nil_subset, and_self, State.onSave_only,
      record_only, ite_only]
theorem halve_only {cs : List Part} {r0 : State} (s : State) (h0 : [.host, .cxl, .save, .wl, .bus, .out] ⊆ cs) (hC
    : OnlyChanges cs r0 s) :
    OnlyChanges cs r0 (halve s) := by
  simp only [List.cons_subset, List.nil_subset, and_true] at h0
  unfold halve
  (repeat' split) <;> simp (maxDischargeDepth := 60) only [hC, h0, List.cons_subset, List.nil_subset, and_self,
      halve.go_only]
theorem releaseOp_only {cs : List Part} {r0 : State} (s : State) (h0 : [.save] ⊆ cs) (hC : OnlyChanges cs r0 s) :
 
      OnlyChanges cs r0 (releaseOp s) := by
  simp only [List.cons_subset, List.nil_subset, and_true] at h0
  unfold releaseOp
  simp (maxDischargeDepth := 60) only [hC, h0, State.onSave_only, ite_only]
theorem powerDownOp_only {cs : List Part} {r0 : State} (s : State) (h0 : [.clk, .host, .wb, .dram, .pm, .lake,
    .basin, .flash, .log, .weir, .save, .rst, .ledger, .fault, .crew, .seq, .boot, .frz, .bat, .od, .upd, .plan] ⊆
    cs) (hC : OnlyChanges cs r0 s) :
    OnlyChanges cs r0 (powerDownOp s) := by
  simp only [List.cons_subset, List.nil_subset, and_true] at h0
  unfold powerDownOp
  simp (maxDischargeDepth := 60) only [hC, h0, List.cons_subset, List.nil_subset, and_self, State.onSave_only,
      powerDownTo_only, ite_only]
theorem noSaveDown_only {cs : List Part} {r0 : State} (s : State) (h0 : [.clk, .host, .wb, .dram, .pm, .lake,
    .basin, .flash, .log, .weir, .save, .rst, .ledger, .fault, .crew, .seq, .boot, .frz, .bat, .od, .upd, .plan] ⊆
    cs) (hC : OnlyChanges cs r0 s) :
    OnlyChanges cs r0 (noSaveDown s) := by
  simp only [List.cons_subset, List.nil_subset, and_true] at h0
  unfold noSaveDown
  simp (maxDischargeDepth := 60) only [hC, h0, List.cons_subset, List.nil_subset, and_self, powerDownDark_only,
      ite_only]

/-! ## Sequencer -/

theorem clearGaugeFaults_only {cs : List Part} {r0 : State} (s : State) (h0 : [.host, .cxl, .wb, .pm, .lake, .log,
    .weir, .rst, .ledger, .wl, .bat, .bus, .out] ⊆ cs) (hC : OnlyChanges cs r0 s) :
    OnlyChanges cs r0
    (clearGaugeFaults s) := by
  simp only [List.cons_subset, List.nil_subset, and_true] at h0
  unfold clearGaugeFaults
  simp (maxDischargeDepth := 60) only [hC, h0, List.cons_subset, List.nil_subset, and_self, clearReason_only]
theorem startCore_only {cs : List Part} {r0 : State} (s : State) (h0 : [.clk, .host, .cxl, .wb, .dram, .pm, .lake,
    .flash, .log, .weir, .rst, .ledger, .wl, .crew, .seq, .boot, .frz, .bat, .od, .bus, .upd, .out] ⊆ cs) (hC :
    OnlyChanges cs r0 s) :
    OnlyChanges cs r0 (startCore s) := by
  simp only [List.cons_subset, List.nil_subset, and_true] at h0
  unfold startCore
  simp (maxDischargeDepth := 60) only [hC, h0, List.cons_subset, List.nil_subset, and_self, State.onBoot_only,
      State.onClk_only, State.onFlash_only, State.onSeq_only, State.onWl_only, chooseImage_only,
      clearGaugeFaults_only, enterFreeze_only, ite_only]
theorem startLink_only {cs : List Part} {r0 : State} (s : State) (h0 : [.host] ⊆ cs) (hC : OnlyChanges cs r0 s) :
 
      OnlyChanges cs r0 (startLink s) := by
  simp only [List.cons_subset, List.nil_subset, and_true] at h0
  unfold startLink
  simp (maxDischargeDepth := 60) only [hC, h0, State.onHost_only]
theorem startState_only {cs : List Part} {r0 : State} (k : SeqSt) (s : State) (h0 : [.clk, .host, .cxl, .wb, .dram,
    .pm, .lake, .flash, .log, .weir, .rst, .ledger, .wl, .crew, .seq, .boot, .frz, .bat, .od, .bus, .upd, .out] ⊆
    cs) (hC : OnlyChanges cs r0 s) :
    OnlyChanges cs r0 (startState k s) := by
  simp only [List.cons_subset, List.nil_subset, and_true] at h0
  unfold startState
  (repeat' split) <;> simp (maxDischargeDepth := 60) only [hC, h0, List.cons_subset, List.nil_subset, and_self,
      State.onSeq_only, State.onUpd_only, flushCounts_only, startCore_only, startLink_only]
theorem loadKey_only {cs : List Part} {r0 : State} (s : State) (h0 : [.flash] ⊆ cs) (hC : OnlyChanges cs r0 s) :
  
     OnlyChanges cs r0 (loadKey s) := by
  simp only [List.cons_subset, List.nil_subset, and_true] at h0
  unfold loadKey
  simp (maxDischargeDepth := 60) only [hC, h0, State.onFlash_only]
theorem readMarks_only {cs : List Part} {r0 : State} (d : Nat) (s : State) (h0 : [.flash] ⊆ cs) (hC : OnlyChanges
    cs r0 s) :
    OnlyChanges cs r0 (readMarks d s) := by
  simp only [List.cons_subset, List.nil_subset, and_true] at h0
  unfold readMarks
  simp (maxDischargeDepth := 60) only [hC, h0, State.onFlash_only]
theorem sizePools_only {cs : List Part} {r0 : State} (s : State) (h0 : [.flash] ⊆ cs) (hC : OnlyChanges cs r0 s) :

       OnlyChanges cs r0 (sizePools s) := by
  simp only [List.cons_subset, List.nil_subset, and_true] at h0
  unfold sizePools
  simp (maxDischargeDepth := 60) only [hC, h0, State.onFlash_only]
theorem reviveDies_only {cs : List Part} {r0 : State} (s : State) (h0 : [.flash] ⊆ cs) (hC : OnlyChanges cs r0 s)
    :
    OnlyChanges cs r0 (reviveDies s) := by
  simp only [List.cons_subset, List.nil_subset, and_true] at h0
  unfold reviveDies
  simp (maxDischargeDepth := 60) only [hC, h0, State.onFlash_only, ite_only]
theorem sizeLakebed_only {cs : List Part} {r0 : State} (s : State) (h0 : [.free, .host, .cxl, .lake, .wl, .bus,
    .out] ⊆ cs) (hC : OnlyChanges cs r0 s) :
    OnlyChanges cs r0 (sizeLakebed s) := by
  simp only [List.cons_subset, List.nil_subset, and_true] at h0
  unfold sizeLakebed
  simp (maxDischargeDepth := 60) only [hC, h0, List.cons_subset, List.nil_subset, and_self, State.onLake_only,
      record_only, free_only, ite_only]
theorem identifyFlash_only {cs : List Part} {r0 : State} (s : State) (h0 : [.free, .host, .cxl, .pm, .lake, .basin,
    .flash, .log, .weir, .save, .ledger, .wl, .bus, .out] ⊆ cs) (hC : OnlyChanges cs r0 s) :
    OnlyChanges cs r0
    (identifyFlash s) := by
  simp only [List.cons_subset, List.nil_subset, and_true] at h0
  unfold identifyFlash
  simp_all (maxDischargeDepth := 60) [List.cons_subset, List.nil_subset, and_self, State.onFlash_only,
      loadKey_only, readMarks_only, retireDie_only, reviveDies_only, sizeLakebed_only, sizePools_only, ite_only,
      only_foldl]
theorem completeState_only {cs : List Part} {r0 : State} (s : State) (h0 : [.free, .host, .cxl, .dram, .pm, .lake,
    .basin, .flash, .log, .weir, .save, .ledger, .wl, .seq, .bus, .out] ⊆ cs) (hC : OnlyChanges cs r0 s) :
   
    OnlyChanges cs r0 (completeState s) := by
  simp only [List.cons_subset, List.nil_subset, and_true] at h0
  unfold completeState
  simp (maxDischargeDepth := 60) only [hC, h0, List.cons_subset, List.nil_subset, and_self, State.onDram_only,
      State.onFlash_only, State.onSeq_only, identifyFlash_only, ite_only]
theorem vmonSample_only {cs : List Part} {r0 : State} (n : Nat) (code : BitVec 12) (s : State) (h0 : [.seq] ⊆ cs)
    (hC : OnlyChanges cs r0 s) :
    OnlyChanges cs r0 (vmonSample n code s) := by
  simp only [List.cons_subset, List.nil_subset, and_true] at h0
  unfold vmonSample
  simp (maxDischargeDepth := 60) only [hC, h0, List.cons_subset, List.nil_subset, and_self, onRail_only]
theorem sampleRails_only {cs : List Part} {r0 : State} (s : State) (h0 : [.free, .seq] ⊆ cs) (hC : OnlyChanges cs
    r0 s) :
    OnlyChanges cs r0 (sampleRails s) := by
  simp only [List.cons_subset, List.nil_subset, and_true] at h0
  unfold sampleRails
  simp_all (maxDischargeDepth := 60) [List.cons_subset, List.nil_subset, and_self, vmonSample_only, free_only,
      only_foldl]
theorem sampleCatch_only {cs : List Part} {r0 : State} (s : State) (h0 : [.free, .seq] ⊆ cs) (hC : OnlyChanges cs
    r0 s) :
    OnlyChanges cs r0 (sampleCatch s) := by
  simp only [List.cons_subset, List.nil_subset, and_true] at h0
  unfold sampleCatch
  simp (maxDischargeDepth := 60) only [hC, h0, State.onSeq_only, free_only]
theorem sampleStep_only {cs : List Part} {r0 : State} (before : Nat) (s : State) (h0 : [.free, .seq] ⊆ cs) (hC :
    OnlyChanges cs r0 s) :
    OnlyChanges cs r0 (sampleStep before s) := by
  simp only [List.cons_subset, List.nil_subset, and_true] at h0
  unfold sampleStep
  simp (maxDischargeDepth := 60) only [hC, h0, List.cons_subset, List.nil_subset, and_self, sampleCatch_only,
      sampleRails_only, ite_only]
theorem toAux_only {cs : List Part} {r0 : State} (s : State) (h0 : [.host, .cxl, .wb, .pm, .lake, .log, .weir,
    .save, .rst, .ledger, .wl, .seq, .boot, .bat, .bus, .out] ⊆ cs) (hC : OnlyChanges cs r0 s) :
    OnlyChanges cs
    r0 (toAux s) := by
  simp only [List.cons_subset, List.nil_subset, and_true] at h0
  unfold toAux
  simp (maxDischargeDepth := 60) only [hC, h0, List.cons_subset, List.nil_subset, and_self, State.onSeq_only,
      clearGaugeFaults_only, enterAux_only]
theorem readDescriptor_only {cs : List Part} {r0 : State} (intact : Bool) (s : State) (h0 : [.host, .cxl, .wb, .pm,
    .lake, .log, .weir, .rst, .ledger, .wl, .bat, .bus, .out] ⊆ cs) (hC : OnlyChanges cs r0 s) :
    OnlyChanges cs
    r0 (readDescriptor intact s) := by
  simp only [List.cons_subset, List.nil_subset, and_true] at h0
  unfold readDescriptor
  (repeat' split) <;> simp (maxDischargeDepth := 60) only [hC, h0, List.cons_subset, List.nil_subset, and_self,
      State.onBat_only, afterPack_only, descriptorCheck_only, packChange_only, ite_only]
theorem profileOp_only {cs : List Part} {r0 : State} (found : ProfileIn) (s : State) (h0 : [.free, .host, .cxl,
    .wb, .pm, .lake, .log, .weir, .rst, .ledger, .wl, .seq, .boot, .bat, .od, .bus, .out] ⊆ cs) (hC : OnlyChanges
    cs r0 s) :
    OnlyChanges cs r0 (profileOp found s) := by
  simp only [List.cons_subset, List.nil_subset, and_true] at h0
  unfold profileOp
  simp (maxDischargeDepth := 60) only [hC, h0, List.cons_subset, List.nil_subset, and_self, State.onBoot_only,
      State.onOd_only, State.onSeq_only, readDescriptor_only, recordFree_only, takeHeadUnits_only, ite_only]
theorem assertResets_only {cs : List Part} {r0 : State} (k : Nat) (s : State) (h0 : [.flash, .seq] ⊆ cs) (hC :
    OnlyChanges cs r0 s) :
    OnlyChanges cs r0 (assertResets k s) := by
  simp only [List.cons_subset, List.nil_subset, and_true] at h0
  unfold assertResets
  simp (maxDischargeDepth := 60) only [hC, h0, State.onFlash_only, State.onSeq_only]
theorem reverseNext_only {cs : List Part} {r0 : State} (s : State) (h0 : [.clk, .host, .wb, .dram, .pm, .lake,
    .basin, .flash, .log, .weir, .save, .rst, .ledger, .fault, .crew, .seq, .boot, .frz, .bat, .od, .upd, .plan] ⊆
    cs) (hC : OnlyChanges cs r0 s) :
    OnlyChanges cs r0 (reverseNext s) := by
  simp only [List.cons_subset, List.nil_subset, and_true] at h0
  unfold reverseNext
  (repeat' split) <;> simp (maxDischargeDepth := 60) only [hC, h0, List.cons_subset, List.nil_subset, and_self,
      assertResets_only, enterDark_only, flushCounts_only, railDisable_only]
theorem railGone_only {cs : List Part} {r0 : State} (n : Nat) (s : State) (h0 : [.clk, .host, .wb, .dram, .pm,
    .lake, .basin, .flash, .log, .weir, .save, .rst, .ledger, .fault, .crew, .seq, .boot, .frz, .bat, .od, .upd,
    .plan] ⊆ cs) (hC : OnlyChanges cs r0 s) :
    OnlyChanges cs r0 (railGone n s) := by
  simp only [List.cons_subset, List.nil_subset, and_true] at h0
  unfold railGone
  simp (maxDischargeDepth := 60) only [hC, h0, List.cons_subset, List.nil_subset, and_self, descend_only,
      onRail_only, reverseNext_only, ite_only]
theorem holdInAux_only {cs : List Part} {r0 : State} (s : State) (h0 : [.seq] ⊆ cs) (hC : OnlyChanges cs r0 s) :
  
     OnlyChanges cs r0 (holdInAux s) := by
  simp only [List.cons_subset, List.nil_subset, and_true] at h0
  unfold holdInAux
  simp (maxDischargeDepth := 60) only [hC, h0, State.onSeq_only]
theorem criticalWarning_only {cs : List Part} {r0 : State} (s : State) (h0 : [.free, .clk, .host, .cxl, .wb, .dram,
    .pm, .lake, .basin, .flash, .log, .weir, .save, .rst, .ledger, .wl, .fault, .crew, .seq, .boot, .frz, .bat,
    .od, .bus, .upd, .plan, .out] ⊆ cs) (hC : OnlyChanges cs r0 s) :
    OnlyChanges cs r0 (criticalWarning s) := by
  simp only [List.cons_subset, List.nil_subset, and_true] at h0
  unfold criticalWarning
  simp (maxDischargeDepth := 60) only [hC, h0, List.cons_subset, List.nil_subset, and_self, holdInAux_only,
      powerDownTo_only, trigger_only, ite_only]
theorem markCut_only {cs : List Part} {r0 : State} (n : Nat) (s : State) (h0 : [.seq] ⊆ cs) (hC : OnlyChanges cs r0
    s) :
    OnlyChanges cs r0 (markCut n s) := by
  simp only [List.cons_subset, List.nil_subset, and_true] at h0
  unfold markCut
  simp (maxDischargeDepth := 60) only [hC, h0, State.onSeq_only]
theorem secondFault_only {cs : List Part} {r0 : State} (n : Nat) (m : CutMark) (s : State) (h0 : [.seq, .boot] ⊆
    cs) (hC : OnlyChanges cs r0 s) :
    OnlyChanges cs r0 (secondFault n m s) := by
  simp only [List.cons_subset, List.nil_subset, and_true] at h0
  unfold secondFault
  simp (maxDischargeDepth := 60) only [hC, h0, List.cons_subset, List.nil_subset, and_self, State.onBoot_only,
      State.onSeq_only, onRail_only]
theorem faultCut_only {cs : List Part} {r0 : State} (n : Nat) (s : State) (h0 : [.free, .clk, .host, .cxl, .wb,
    .dram, .pm, .lake, .basin, .flash, .log, .weir, .save, .rst, .ledger, .wl, .fault, .crew, .seq, .boot, .frz,
    .bat, .od, .bus, .upd, .plan, .out] ⊆ cs) (hC : OnlyChanges cs r0 s) :
    OnlyChanges cs r0 (faultCut n s) :=
    by
  simp only [List.cons_subset, List.nil_subset, and_true] at h0
  unfold faultCut
  simp (maxDischargeDepth := 60) only [hC, h0, List.cons_subset, List.nil_subset, and_self, cutRails_only,
      dropLedgerHold_only, gaspAny_only, markCut_only, setLatch_only, ite_only]
theorem offOp_only {cs : List Part} {r0 : State} (s : State) (h0 : [.free, .clk, .host, .cxl, .wb, .dram, .pm,
    .lake, .basin, .flash, .log, .weir, .save, .rst, .ledger, .wl, .fault, .crew, .seq, .boot, .frz, .bat, .od,
    .bus, .upd, .plan, .out] ⊆ cs) (hC : OnlyChanges cs r0 s) :
    OnlyChanges cs r0 (offOp s).2 := by
  simp only [List.cons_subset, List.nil_subset, and_true] at h0
  unfold offOp
  simp (maxDischargeDepth := 60) only [hC, h0, List.cons_subset, List.nil_subset, and_self, State.onSeq_only,
      beginShutdown_only, holdInAux_only, powerDownTo_only, ite2_only]
theorem onOp_only {cs : List Part} {r0 : State} (s : State) (h0 : [.seq] ⊆ cs) (hC : OnlyChanges cs r0 s) :
   
    OnlyChanges cs r0 (onOp s).2 := by
  simp only [List.cons_subset, List.nil_subset, and_true] at h0
  unfold onOp
  simp (maxDischargeDepth := 60) only [hC, h0, State.onSeq_only, ite2_only]
theorem latchClearOp_only {cs : List Part} {r0 : State} (s : State) (h0 : [.host, .cxl, .wb, .pm, .lake, .log,
    .weir, .save, .rst, .ledger, .wl, .seq, .boot, .bat, .bus, .out] ⊆ cs) (hC : OnlyChanges cs r0 s) :
   
    OnlyChanges cs r0 (latchClearOp s) := by
  simp only [List.cons_subset, List.nil_subset, and_true] at h0
  unfold latchClearOp
  simp (maxDischargeDepth := 60) only [hC, h0, List.cons_subset, List.nil_subset, and_self, State.onBoot_only,
      State.onSeq_only, latchRecord_only, onPort_only, toAux_only,
      ite_only]
theorem latchWrite_only {cs : List Part} {r0 : State} (v : Byte) (s : State) (h0 : [.host, .cxl, .wb, .pm, .lake,
    .log, .weir, .save, .rst, .ledger, .wl, .seq, .boot, .bat, .bus, .out] ⊆ cs) (hC : OnlyChanges cs r0 s) :
   
    OnlyChanges cs r0 (latchWrite v s).2 := by
  simp only [List.cons_subset, List.nil_subset, and_true] at h0
  unfold latchWrite
  simp (maxDischargeDepth := 60) only [hC, h0, List.cons_subset, List.nil_subset, and_self, latchClearOp_only,
      ite2_only]

/-! ## Dram -/

theorem resetFault_only {cs : List Part} {r0 : State} (ch : Nat) (cause : ResetCause) (s : State) (h0 : [.free,
    .clk, .host, .cxl, .wb, .dram, .pm, .lake, .basin, .flash, .log, .weir, .save, .rst, .ledger, .wl, .fault,
    .crew, .seq, .boot, .frz, .bat, .od, .bus, .upd, .plan, .out] ⊆ cs) (hC : OnlyChanges cs r0 s) :
   
    OnlyChanges cs r0 (resetFault ch cause s) := by
  simp only [List.cons_subset, List.nil_subset, and_true] at h0
  unfold resetFault
  (repeat' split) <;> simp (maxDischargeDepth := 60) only [hC, h0, List.cons_subset, List.nil_subset, and_self,
      raise_only, free_only]
theorem oarReloadDram_only {cs : List Part} {r0 : State} (ch : Nat) (s : State) (h0 : [.dram] ⊆ cs) (hC :
    OnlyChanges cs r0 s) :
    OnlyChanges cs r0 (oarReloadDram ch s) := by
  simp only [List.cons_subset, List.nil_subset, and_true] at h0
  unfold oarReloadDram
  simp (maxDischargeDepth := 60) only [hC, h0, List.cons_subset, List.nil_subset, and_self, onCh_only]
theorem admitReset_only {cs : List Part} {r0 : State} (ch : Nat) (s : State) (h0 : [.wb, .out] ⊆ cs) (hC :
    OnlyChanges cs r0 s) :
    OnlyChanges cs r0 (admitReset ch s) := by
  simp only [List.cons_subset, List.nil_subset, and_true] at h0
  unfold admitReset
  simp_all (maxDischargeDepth := 60) [List.cons_subset, List.nil_subset, and_self, State.onWb_only, say_only,
      ite_only, only_foldl]
theorem testWaiting_only {cs : List Part} {r0 : State} (ch n : Nat) (s : State) (h0 : [.host, .cxl, .wb, .pm,
    .lake, .log, .weir, .rst, .ledger, .wl, .bus, .out] ⊆ cs) (hC : OnlyChanges cs r0 s) :
    OnlyChanges cs r0 (testWaiting ch n s) := by
  induction n generalizing s with
  | zero => exact hC
  | succ n ih =>
    unfold testWaiting
    split
    · exact hC
    · exact ih _ (testOrWait_only _ _ _ (parts_sub h0 rfl) hC)
theorem endBlockReset_only {cs : List Part} {r0 : State} (ch us : Nat) (s : State) (h0 : [.free, .clk, .host, .cxl,
    .wb, .dram, .pm, .lake, .basin, .flash, .log, .weir, .save, .rst, .ledger, .wl, .fault, .crew, .seq, .boot,
    .frz, .bat, .od, .bus, .upd, .plan, .out] ⊆ cs) (hC : OnlyChanges cs r0 s) :
    OnlyChanges cs r0
    (endBlockReset ch us s) := by
  simp only [List.cons_subset, List.nil_subset, and_true] at h0
  unfold endBlockReset
  simp (maxDischargeDepth := 60) only [hC, h0, List.cons_subset, List.nil_subset, and_self, admitReset_only,
      flush_only, onCh_only, release_only, shadowDone_only, testWaiting_only, tryFreeze_only, wakeJobs_only,
      ite_only]
theorem repairLine_only {cs : List Part} {r0 : State} (line : Nat) (u : FlashUnit) (s : State) (h0 : [.free, .clk,
    .host, .cxl, .wb, .dram, .pm, .lake, .basin, .flash, .log, .weir, .save, .rst, .ledger, .wl, .fault, .crew,
    .seq, .boot, .frz, .bat, .od, .bus, .upd, .plan, .out] ⊆ cs) (hC : OnlyChanges cs r0 s) :
    OnlyChanges cs r0
    (repairLine line u s) := by
  simp only [List.cons_subset, List.nil_subset, and_true] at h0
  unfold repairLine
  simp (maxDischargeDepth := 60) only [hC, h0, List.cons_subset, List.nil_subset, and_self, onCh_only, raise_only,
      setPoison_only, writeBytes_only, free_only]
theorem repairFails_only {cs : List Part} {r0 : State} (line : Nat) (ok : Bool) (s : State) (h0 : [.free, .clk,
    .host, .cxl, .wb, .dram, .pm, .lake, .basin, .flash, .log, .weir, .save, .rst, .ledger, .wl, .fault, .crew,
    .seq, .boot, .frz, .bat, .od, .bus, .upd, .plan, .out] ⊆ cs) (hC : OnlyChanges cs r0 s) :
    OnlyChanges cs r0
    (repairFails line ok s) := by
  simp only [List.cons_subset, List.nil_subset, and_true] at h0
  unfold repairFails
  simp (maxDischargeDepth := 60) only [hC, h0, List.cons_subset, List.nil_subset, and_self, uncorrectable_only,
      free_only, ite_only]
theorem fullPass_only {cs : List Part} {r0 : State} (ch : Nat) (s : State) (h0 : [.free, .host, .cxl, .dram,
    .ledger, .wl, .seq, .bus, .out] ⊆ cs) (hC : OnlyChanges cs r0 s) :
    OnlyChanges cs r0 (fullPass ch s) := by
  simp only [List.cons_subset, List.nil_subset, and_true] at h0
  unfold fullPass
  simp (maxDischargeDepth := 60) only [hC, h0, List.cons_subset, List.nil_subset, and_self, commitOp_only,
      onCh_only, ite_only]
theorem fullFail_only {cs : List Part} {r0 : State} (ch : Nat) (s : State) (h0 : [.dram] ⊆ cs) (hC : OnlyChanges cs
    r0 s) :
    OnlyChanges cs r0 (fullFail ch s) := by
  simp only [List.cons_subset, List.nil_subset, and_true] at h0
  unfold fullFail
  simp (maxDischargeDepth := 60) only [hC, h0, List.cons_subset, List.nil_subset, and_self, onCh_only]

/-! ## Restore -/

theorem refReturn_only {cs : List Part} {r0 : State} (s : State) (h0 : [.clk] ⊆ cs) (hC : OnlyChanges cs r0 s) :
  
     OnlyChanges cs r0 (refReturn s) := by
  simp only [List.cons_subset, List.nil_subset, and_true] at h0
  unfold refReturn
  simp (maxDischargeDepth := 60) only [hC, h0, State.onClk_only, ite_only]
theorem failRestore_only {cs : List Part} {r0 : State} (s : State) (h0 : [.clk, .host, .cxl, .rst, .wl, .bus, .out]
    ⊆ cs) (hC : OnlyChanges cs r0 s) :
    OnlyChanges cs r0 (failRestore s) := by
  simp only [List.cons_subset, List.nil_subset, and_true] at h0
  unfold failRestore
  simp (maxDischargeDepth := 60) only [hC, h0, List.cons_subset, List.nil_subset, and_self, State.onCxl_only,
      State.onRst_only, record_only, refReturn_only, vector_only]
theorem loseResidue_only {cs : List Part} {r0 : State} (im : BasinImage) (page slot : Nat) (why : LostReason) (s :
    State) (h0 : [.host, .cxl, .dram, .pm] ⊆ cs) (hC : OnlyChanges cs r0 s) :
    OnlyChanges cs r0 (loseResidue im
    page slot why s) := by
  simp only [List.cons_subset, List.nil_subset, and_true] at h0
  unfold loseResidue
  simp (maxDischargeDepth := 60) only [hC, h0, List.cons_subset, List.nil_subset, and_self, lowerElost_only,
      markLost_only]
theorem convertEntry_only {cs : List Part} {r0 : State} (im : BasinImage) (c : Cursor) (s : State) (x : Nat ×
    PageEntry) (h0 : [.host, .cxl, .dram, .pm] ⊆ cs) (hC : OnlyChanges cs r0 s) :
    OnlyChanges cs r0
    (convertEntry im c s x) := by
  simp only [List.cons_subset, List.nil_subset, and_true] at h0
  unfold convertEntry
  (repeat' split) <;> simp (maxDischargeDepth := 60) only [hC, h0, List.cons_subset, List.nil_subset, and_self,
      loseResidue_only, markLost_only, setPage_only]
theorem convertImage_only {cs : List Part} {r0 : State} (s : State) (h0 : [.host, .cxl, .dram, .pm] ⊆ cs) (hC :
    OnlyChanges cs r0 s) :
    OnlyChanges cs r0 (convertImage s) := by
  simp only [List.cons_subset, List.nil_subset, and_true] at h0
  unfold convertImage
  (repeat' split) <;> simp_all (maxDischargeDepth := 60) [List.cons_subset, List.nil_subset, and_self,
      convertEntry_only, only_foldl]
theorem carryLost_only {cs : List Part} {r0 : State} (s : State) (h0 : [.cxl, .dram, .pm] ⊆ cs) (hC : OnlyChanges
    cs r0 s) :
    OnlyChanges cs r0 (carryLost s) := by
  simp only [List.cons_subset, List.nil_subset, and_true] at h0
  unfold carryLost
  simp_all (maxDischargeDepth := 60) [List.cons_subset, List.nil_subset, and_self, markLost_only, only_foldl]
theorem convertFromLog_only {cs : List Part} {r0 : State} (s : State) (h0 : [.host, .cxl, .dram, .pm] ⊆ cs) (hC :
    OnlyChanges cs r0 s) :
    OnlyChanges cs r0 (convertFromLog s) := by
  simp only [List.cons_subset, List.nil_subset, and_true] at h0
  unfold convertFromLog
  (repeat' split) <;> simp_all (maxDischargeDepth := 60) [List.cons_subset, List.nil_subset, and_self,
      carryLost_only, loseResidue_only, setPage_only, ite_only, only_foldl]
theorem convertNoSave_only {cs : List Part} {r0 : State} (s : State) (h0 : [.host, .cxl, .dram, .pm] ⊆ cs) (hC :
    OnlyChanges cs r0 s) :
    OnlyChanges cs r0 (convertNoSave s) := by
  simp only [List.cons_subset, List.nil_subset, and_true] at h0
  unfold convertNoSave
  simp_all (maxDischargeDepth := 60) [List.cons_subset, List.nil_subset, and_self, carryLost_only, lowerElost_only,
      markLost_only, only_foldl]
theorem convertWindow_only {cs : List Part} {r0 : State} (s : State) (h0 : [.host, .cxl, .dram, .pm] ⊆ cs) (hC :
    OnlyChanges cs r0 s) :
    OnlyChanges cs r0 (convertWindow s) := by
  simp only [List.cons_subset, List.nil_subset, and_true] at h0
  unfold convertWindow
  simp_all (maxDischargeDepth := 60) [List.cons_subset, List.nil_subset, and_self, lowerElost_only, markLost_only,
      ite_only, only_foldl]
theorem convertBuckets_only {cs : List Part} {r0 : State} (s : State) (h0 : [.pm] ⊆ cs) (hC : OnlyChanges cs r0 s)
    :
    OnlyChanges cs r0 (convertBuckets s) := by
  simp only [List.cons_subset, List.nil_subset, and_true] at h0
  unfold convertBuckets
  (repeat' split) <;> simp (maxDischargeDepth := 60) only [hC, h0, State.onPm_only]
theorem retireLedger_only {cs : List Part} {r0 : State} (s : State) (h0 : [.ledger] ⊆ cs) (hC : OnlyChanges cs r0
    s) :
    OnlyChanges cs r0 (retireLedger s) := by
  simp only [List.cons_subset, List.nil_subset, and_true] at h0
  unfold retireLedger
  simp (maxDischargeDepth := 60) only [hC, h0, State.onLedger_only]
theorem degrade_only {cs : List Part} {r0 : State} (s : State) (h0 : [.host, .cxl, .dram, .pm, .lake] ⊆ cs) (hC :
    OnlyChanges cs r0 s) :
    OnlyChanges cs r0 (degrade s) := by
  simp only [List.cons_subset, List.nil_subset, and_true] at h0
  unfold degrade
  (repeat' split) <;> simp_all (maxDischargeDepth := 60) [List.cons_subset, List.nil_subset, and_self,
      State.onDram_only, dropMapping_only, lowerElost_only, markLost_only, ite_only, only_foldl]
theorem heldMarkers_only {cs : List Part} {r0 : State} (s : State) (h0 : [.cxl, .dram] ⊆ cs) (hC : OnlyChanges cs
    r0 s) :
    OnlyChanges cs r0 (heldMarkers s) := by
  simp only [List.cons_subset, List.nil_subset, and_true] at h0
  unfold heldMarkers
  simp_all (maxDischargeDepth := 60) [List.cons_subset, List.nil_subset, and_self, setPoison_only, only_foldl]
theorem convert_only {cs : List Part} {r0 : State} (s : State) (h0 : [.host, .cxl, .dram, .pm, .lake, .ledger] ⊆
    cs) (hC : OnlyChanges cs r0 s) :
    OnlyChanges cs r0 (convert s) := by
  simp only [List.cons_subset, List.nil_subset, and_true] at h0
  unfold convert
  dsimp only
  (repeat' split) <;> simp (maxDischargeDepth := 60) only [hC, h0, List.cons_subset, List.nil_subset, and_self,
      State.onHost_only, State.onPm_only, carryLost_only, convertBuckets_only, convertFromLog_only,
      convertImage_only, convertNoSave_only, convertWindow_only, degrade_only, heldMarkers_only, retireLedger_only]
theorem convertOp_only {cs : List Part} {r0 : State} (s : State) (h0 : [.host, .cxl, .dram, .pm, .lake, .rst,
    .ledger] ⊆ cs) (hC : OnlyChanges cs r0 s) :
    OnlyChanges cs r0 (convertOp s) := by
  simp only [List.cons_subset, List.nil_subset, and_true] at h0
  unfold convertOp
  simp (maxDischargeDepth := 60) only [hC, h0, List.cons_subset, List.nil_subset, and_self, State.onRst_only,
      convert_only]
theorem makeReady_only {cs : List Part} {r0 : State} (early : Bool) (s : State) (h0 : [.host, .rst, .boot, .out] ⊆
    cs) (hC : OnlyChanges cs r0 s) :
    OnlyChanges cs r0 (makeReady early s) := by
  simp only [List.cons_subset, List.nil_subset, and_true] at h0
  unfold makeReady
  simp (maxDischargeDepth := 60) only [hC, h0, List.cons_subset, List.nil_subset, and_self, State.onBoot_only,
      State.onRst_only, vector_only, ite_only]
theorem writeStubs_only {cs : List Part} {r0 : State} (s : State) (h0 : [.dram] ⊆ cs) (hC : OnlyChanges cs r0 s) :
    OnlyChanges cs r0 (writeStubs s) := by
  unfold writeStubs
  refine only_foldl (fun s p h => ?_) _ _ hC
  split
  · exact writeBytes_only _ _ _ (parts_sub h0 rfl) h
  · exact h
theorem loadUnit_only {cs : List Part} {r0 : State} (page : Nat) (u : FlashUnit) (s : State) (h0 : [.cxl, .dram] ⊆
    cs) (hC : OnlyChanges cs r0 s) :
    OnlyChanges cs r0 (loadUnit page u s) := by
  simp only [List.cons_subset, List.nil_subset, and_true] at h0
  unfold loadUnit
  simp_all (maxDischargeDepth := 60) [List.cons_subset, List.nil_subset, and_self, State.onDram_only,
      setPoison_only, writeByte_only, only_foldl]
theorem basinFailed_only {cs : List Part} {r0 : State} (page : Nat) (u : FlashUnit) (s : State) (h0 : [.host, .cxl,
    .pm, .lake, .basin, .flash, .log, .weir, .save, .ledger, .wl, .bus, .out] ⊆ cs) (hC : OnlyChanges cs r0 s) :
  
     OnlyChanges cs r0 (basinFailed page u s) := by
  simp only [List.cons_subset, List.nil_subset, and_true] at h0
  unfold basinFailed
  dsimp only
  (repeat' split) <;> simp (maxDischargeDepth := 60) only [hC, h0, List.cons_subset, List.nil_subset, and_self,
      onFl_only, retireBlock_only]
theorem sourceFailed_only {cs : List Part} {r0 : State} (page : Nat) (s : State) (h0 : [.host, .cxl, .pm, .lake,
    .basin, .flash, .log, .weir, .save, .ledger, .wl, .bus, .out] ⊆ cs) (hC : OnlyChanges cs r0 s) :
   
    OnlyChanges cs r0 (sourceFailed page s) := by
  simp only [List.cons_subset, List.nil_subset, and_true] at h0
  unfold sourceFailed
  (repeat' split) <;> simp (maxDischargeDepth := 60) only [hC, h0, List.cons_subset, List.nil_subset, and_self,
      basinFailed_only, unitFailed_only]
theorem fillPage_only {cs : List Part} {r0 : State} (fails : List Nat) (page : Nat) (s : State) (h0 : [.host, .cxl,
    .dram, .pm, .lake, .basin, .flash, .log, .weir, .save, .rst, .ledger, .wl, .bus, .out] ⊆ cs) (hC : OnlyChanges
    cs r0 s) :
    OnlyChanges cs r0 (fillPage fails page s) := by
  simp only [List.cons_subset, List.nil_subset, and_true] at h0
  unfold fillPage
  (repeat' split) <;> simp (maxDischargeDepth := 60) only [hC, h0, List.cons_subset, List.nil_subset, and_self,
      loadUnit_only, mediaLost_only, sourceFailed_only]
theorem writeErrors_only {cs : List Part} {r0 : State} (pages : List Nat) (lines : List (Nat × DramRead)) (s :
    State) (h0 : [.free, .clk, .host, .cxl, .wb, .dram, .pm, .lake, .basin, .flash, .log, .weir, .save, .rst,
    .ledger, .wl, .fault, .crew, .seq, .boot, .frz, .bat, .od, .bus, .upd, .plan, .out] ⊆ cs) (hC : OnlyChanges cs
    r0 s) :
    OnlyChanges cs r0 (writeErrors pages lines s) := by
  simp only [List.cons_subset, List.nil_subset, and_true] at h0
  unfold writeErrors
  simp_all (maxDischargeDepth := 60) [List.cons_subset, List.nil_subset, and_self, dramLine_only, only_foldl]
theorem dropFetchJobs_only {cs : List Part} {r0 : State} (page : Nat) (s : State) (h0 : [.flash] ⊆ cs) (hC :
    OnlyChanges cs r0 s) :
    OnlyChanges cs r0 (dropFetchJobs page s) := by
  simp only [List.cons_subset, List.nil_subset, and_true] at h0
  unfold dropFetchJobs
  simp (maxDischargeDepth := 60) only [hC, h0, State.onFlash_only]
theorem retireIdle_only {cs : List Part} {r0 : State} (s : State) (h0 : [.pm, .ledger] ⊆ cs) (hC : OnlyChanges cs
    r0 s) :
    OnlyChanges cs r0 (retireIdle s) := by
  simp only [List.cons_subset, List.nil_subset, and_true] at h0
  unfold retireIdle
  simp (maxDischargeDepth := 60) only [hC, h0, List.cons_subset, List.nil_subset, and_self, State.onPm_only,
      retireLedger_only, ite_only]
theorem restoredOp_only {cs : List Part} {r0 : State} (s : State) (h0 : [.free, .clk, .host, .cxl, .wb, .dram, .pm,
    .lake, .basin, .log, .weir, .rst, .ledger, .wl, .seq, .boot, .bus, .upd, .out] ⊆ cs) (hC : OnlyChanges cs r0 s)
    :
    OnlyChanges cs r0 (restoredOp s) := by
  simp only [List.cons_subset, List.nil_subset, and_true] at h0
  unfold restoredOp
  simp (maxDischargeDepth := 60) only [hC, h0, List.cons_subset, List.nil_subset, and_self, State.onBasin_only,
      State.onBoot_only, State.onCxl_only, State.onHost_only, State.onLog_only, State.onRst_only,
      beginShutdown_only, bootWrite_only, commit_only, gcCheck_only, makeReady_only, record_only, redrainRetired_only, refReturn_only,
      retireIdle_only, sprintCheck_only, vector_only, ite_only]
theorem restoreModeOp_only {cs : List Part} {r0 : State} (v : Nat) (s : State) (h0 : [.host, .rst, .boot, .od,
    .out] ⊆ cs) (hC : OnlyChanges cs r0 s) :
    OnlyChanges cs r0 (restoreModeOp v s) := by
  simp only [List.cons_subset, List.nil_subset, and_true] at h0
  unfold restoreModeOp
  simp (maxDischargeDepth := 60) only [hC, h0, List.cons_subset, List.nil_subset, and_self, State.onOd_only,
      State.onRst_only, makeReady_only, ite_only]

/-! ## Faults -/

theorem ackU_only {cs : List Part} {r0 : State} (p : MasterId → Bool) (s : State) (h0 : [.fault] ⊆ cs) (hC :
    OnlyChanges cs r0 s) :
    OnlyChanges cs r0 (ackU p s) := by
  simp only [List.cons_subset, List.nil_subset, and_true] at h0
  unfold ackU
  simp_all (maxDischargeDepth := 60) [List.cons_subset, List.nil_subset, and_self, ack_only, only_foldl]
theorem portBack_only {cs : List Part} {r0 : State} (m : MasterId) (s : State) (h0 : [.bus] ⊆ cs) (hC : OnlyChanges
    cs r0 s) :
    OnlyChanges cs r0 (portBack m s) := by
  simp only [List.cons_subset, List.nil_subset, and_true] at h0
  unfold portBack
  simp (maxDischargeDepth := 60) only [hC, h0, List.cons_subset, List.nil_subset, and_self, onPort_only, ite_only]
theorem ackWrite_only {cs : List Part} {r0 : State} (faultId : BitVec 32) (s : State) (h0 : [.fault] ⊆ cs) (hC :
    OnlyChanges cs r0 s) :
    OnlyChanges cs r0 (ackWrite faultId s).2 := by
  simp only [List.cons_subset, List.nil_subset, and_true] at h0
  unfold ackWrite
  simp (maxDischargeDepth := 60) only [hC, h0, List.cons_subset, List.nil_subset, and_self, ack_only, ite2_only]

/-! ## Planner -/

theorem ergoTake_only {cs : List Part} {r0 : State} (n : Nat) (e : ErgoIn) (s : State) (h0 : [.free, .clk, .host,
    .cxl, .wb, .dram, .pm, .lake, .basin, .flash, .log, .weir, .save, .rst, .ledger, .wl, .fault, .crew, .seq,
    .boot, .frz, .bat, .od, .bus, .upd, .plan, .out] ⊆ cs) (hC : OnlyChanges cs r0 s) :
    OnlyChanges cs r0
    (ergoTake n e s) := by
  simp only [List.cons_subset, List.nil_subset, and_true] at h0
  unfold ergoTake
  simp (maxDischargeDepth := 60) only [hC, h0, List.cons_subset, List.nil_subset, and_self, State.onPlan_only,
      raise_only, ite_only]
theorem setTarget_only {cs : List Part} {r0 : State} (mv : Nat) (s : State) (h0 : [.plan] ⊆ cs) (hC : OnlyChanges
    cs r0 s) :
    OnlyChanges cs r0 (setTarget mv s) := by
  simp only [List.cons_subset, List.nil_subset, and_true] at h0
  unfold setTarget
  simp (maxDischargeDepth := 60) only [hC, h0, State.onPlan_only]
theorem moveToGoal_only {cs : List Part} {r0 : State} (s : State) (h0 : [.plan] ⊆ cs) (hC : OnlyChanges cs r0 s) :

       OnlyChanges cs r0 (moveToGoal s) := by
  simp only [List.cons_subset, List.nil_subset, and_true] at h0
  unfold moveToGoal
  simp (maxDischargeDepth := 60) only [hC, h0, List.cons_subset, List.nil_subset, and_self, setTarget_only]
theorem restoreTarget_only {cs : List Part} {r0 : State} (s : State) (h0 : [.plan] ⊆ cs) (hC : OnlyChanges cs r0 s)
    :
    OnlyChanges cs r0 (restoreTarget s) := by
  simp only [List.cons_subset, List.nil_subset, and_true] at h0
  unfold restoreTarget
  (repeat' split) <;> simp (maxDischargeDepth := 60) only [hC, h0, List.cons_subset, List.nil_subset, and_self,
      State.onPlan_only, moveToGoal_only]
theorem stepDone_only {cs : List Part} {r0 : State} (s : State) (h0 : [.plan] ⊆ cs) (hC : OnlyChanges cs r0 s) :
  
     OnlyChanges cs r0 (stepDone s) := by
  simp only [List.cons_subset, List.nil_subset, and_true] at h0
  unfold stepDone
  simp (maxDischargeDepth := 60) only [hC, h0, List.cons_subset, List.nil_subset, and_self, State.onPlan_only,
      moveToGoal_only, ite_only]
theorem stepFailed_only {cs : List Part} {r0 : State} (s : State) (h0 : [.free, .host, .cxl, .wl, .bus, .plan,
    .out] ⊆ cs) (hC : OnlyChanges cs r0 s) :
    OnlyChanges cs r0 (stepFailed s) := by
  simp only [List.cons_subset, List.nil_subset, and_true] at h0
  unfold stepFailed
  simp (maxDischargeDepth := 60) only [hC, h0, List.cons_subset, List.nil_subset, and_self, State.onPlan_only,
      localFailed_only, record_only, free_only]
theorem planSets_only {cs : List Part} {r0 : State} (s : State) (h0 : [.host, .cxl, .dram, .pm, .lake, .flash, .wl,
    .bat, .bus, .plan, .out] ⊆ cs) (hC : OnlyChanges cs r0 s) :
    OnlyChanges cs r0 (planSets s) := by
  simp only [List.cons_subset, List.nil_subset, and_true] at h0
  unfold planSets
  simp (maxDischargeDepth := 60) only [hC, h0, List.cons_subset, List.nil_subset, and_self, State.onBat_only,
      State.onDram_only, State.onFlash_only, State.onPlan_only, budgetCheck_only]
theorem endPlan_only {cs : List Part} {r0 : State} (s : State) (h0 : [.free, .host, .cxl, .dram, .ledger, .wl,
    .seq, .bus, .plan, .out] ⊆ cs) (hC : OnlyChanges cs r0 s) :
    OnlyChanges cs r0 (endPlan s) := by
  simp only [List.cons_subset, List.nil_subset, and_true] at h0
  unfold endPlan
  simp (maxDischargeDepth := 60) only [hC, h0, List.cons_subset, List.nil_subset, and_self, State.onPlan_only,
      commitOp_only, recordWith_only]
theorem startPlan_only {cs : List Part} {r0 : State} (trig : Nat) (s : State) (h0 : [.free, .host, .cxl, .dram,
    .pm, .lake, .flash, .ledger, .wl, .seq, .bat, .bus, .plan, .out] ⊆ cs) (hC : OnlyChanges cs r0 s) :
   
    OnlyChanges cs r0 (startPlan trig s) := by
  simp only [List.cons_subset, List.nil_subset, and_true] at h0
  unfold startPlan
  simp (maxDischargeDepth := 60) only [hC, h0, List.cons_subset, List.nil_subset, and_self, State.onPlan_only,
      endPlan_only, planSets_only, setTarget_only, ite_only]
theorem keepTrigger_only {cs : List Part} {r0 : State} (n : Nat) (s : State) (h0 : [.plan] ⊆ cs) (hC : OnlyChanges
    cs r0 s) :
    OnlyChanges cs r0 (keepTrigger n s) := by
  simp only [List.cons_subset, List.nil_subset, and_true] at h0
  unfold keepTrigger
  simp (maxDischargeDepth := 60) only [hC, h0, State.onPlan_only]
theorem mergeTrigger_only {cs : List Part} {r0 : State} (n : Nat) (s : State) (h0 : [.plan] ⊆ cs) (hC : OnlyChanges
    cs r0 s) :
    OnlyChanges cs r0 (mergeTrigger n s) := by
  simp only [List.cons_subset, List.nil_subset, and_true] at h0
  unfold mergeTrigger
  simp (maxDischargeDepth := 60) only [hC, h0, State.onPlan_only]
theorem planTrigger_only {cs : List Part} {r0 : State} (n : Nat) (s : State) (h0 : [.free, .host, .cxl, .dram, .pm,
    .lake, .flash, .ledger, .wl, .seq, .bat, .bus, .plan, .out] ⊆ cs) (hC : OnlyChanges cs r0 s) :
    OnlyChanges
    cs r0 (planTrigger n s) := by
  simp only [List.cons_subset, List.nil_subset, and_true] at h0
  unfold planTrigger
  simp (maxDischargeDepth := 60) only [hC, h0, List.cons_subset, List.nil_subset, and_self, keepTrigger_only,
      mergeTrigger_only, startPlan_only, ite_only]
theorem keptPlan_only {cs : List Part} {r0 : State} (s : State) (h0 : [.free, .host, .cxl, .dram, .pm, .lake,
    .flash, .ledger, .wl, .seq, .bat, .bus, .plan, .out] ⊆ cs) (hC : OnlyChanges cs r0 s) :
    OnlyChanges cs r0
    (keptPlan s) := by
  simp only [List.cons_subset, List.nil_subset, and_true] at h0
  unfold keptPlan
  (repeat' split) <;> simp (maxDischargeDepth := 60) only [hC, h0, List.cons_subset, List.nil_subset, and_self,
      State.onPlan_only, startPlan_only]
theorem planWrite_only {cs : List Part} {r0 : State} (v : Byte) (s : State) (h0 : [.free, .host, .cxl, .dram, .pm,
    .lake, .flash, .ledger, .wl, .seq, .bat, .bus, .plan, .out] ⊆ cs) (hC : OnlyChanges cs r0 s) :
    OnlyChanges
    cs r0 (planWrite v s).2 := by
  simp only [List.cons_subset, List.nil_subset, and_true] at h0
  unfold planWrite
  simp (maxDischargeDepth := 60) only [hC, h0, List.cons_subset, List.nil_subset, and_self, planTrigger_only,
      ite2_only]

end Sys2Proof.Machine
end

