-- ==== Sys2Proof/Laws/OnlyControl.lean ====
section
/-! SUPPORT. `OnlyChanges` through the landings, the crews, the update, the freeze and the object dictionary: one
    lemma an operation names every part it can change. -/

namespace Sys2Proof.Machine

/-! ## Landings -/

theorem onLanding_only {cs : List Part} {r0 : State} (l : Landing) (f : LandingSt → LandingSt) (s : State) (h0 :
    [.crew] ⊆ cs) (hC : OnlyChanges cs r0 s) :
    OnlyChanges cs r0 (onLanding l f s) := by
  simp only [List.cons_subset, List.nil_subset, and_true] at h0
  unfold onLanding
  simp (maxDischargeDepth := 60) only [hC, h0, State.onCrew_only]
theorem targetOp_only {cs : List Part} {r0 : State} (mv : Nat) (s : State) (h0 : [.plan] ⊆ cs) (hC : OnlyChanges cs
    r0 s) :
    OnlyChanges cs r0 (targetOp mv s) := by
  simp only [List.cons_subset, List.nil_subset, and_true] at h0
  unfold targetOp
  simp (maxDischargeDepth := 60) only [hC, h0, List.cons_subset, List.nil_subset, and_self, State.onPlan_only,
      setTarget_only]
theorem limitsRefused_only {cs : List Part} {r0 : State} (k : Copy) (s : State) (h0 : [.free, .clk, .host, .cxl,
    .wb, .dram, .pm, .lake, .basin, .flash, .log, .weir, .save, .rst, .ledger, .wl, .fault, .crew, .seq, .boot,
    .frz, .bat, .od, .bus, .upd, .plan, .out] ⊆ cs) (hC : OnlyChanges cs r0 s) :
    OnlyChanges cs r0
    (limitsRefused k s) := by
  simp only [List.cons_subset, List.nil_subset, and_true] at h0
  unfold limitsRefused
  simp (maxDischargeDepth := 60) only [hC, h0, List.cons_subset, List.nil_subset, and_self, raise_only, free_only]
theorem execLanded_only {cs : List Part} {r0 : State} (crew : Crew) (c : Landed) (s : State) (h0 : [.free, .clk,
    .host, .cxl, .wb, .dram, .pm, .lake, .basin, .flash, .log, .weir, .save, .rst, .ledger, .wl, .fault, .crew,
    .seq, .boot, .frz, .bat, .od, .bus, .upd, .plan, .out] ⊆ cs) (hC : OnlyChanges cs r0 s) :
    OnlyChanges cs r0
    (execLanded crew c s) := by
  simp only [List.cons_subset, List.nil_subset, and_true] at h0
  unfold execLanded
  (repeat' split) <;> simp (maxDischargeDepth := 60) only [hC, h0, List.cons_subset, List.nil_subset, and_self,
      chgCtrlOp_only, commitOp_only, completeDrainOp_only, completeSettle_only, failDrainOp_only,
      latchClearOp_only, limitsOp_only, markDrainingOp_only, oarReloadDram_only, oarReloadFlash_only,
      powerDownOp_only, publishOp_only, queueOp_only, releaseOp_only, stringStateOp_only, targetOp_only,
      walkOp_only, waterlineOp_only]
theorem executeCopy_only {cs : List Part} {r0 : State} (k : Copy) (s : State) (h0 : [.free, .clk, .host, .cxl, .wb,
    .dram, .pm, .lake, .basin, .flash, .log, .weir, .save, .rst, .ledger, .wl, .fault, .crew, .seq, .boot, .frz,
    .bat, .od, .bus, .upd, .plan, .out] ⊆ cs) (hC : OnlyChanges cs r0 s) :
    OnlyChanges cs r0 (executeCopy k s)
    := by
  simp only [List.cons_subset, List.nil_subset, and_true] at h0
  unfold executeCopy
  simp (maxDischargeDepth := 60) only [hC, h0, List.cons_subset, List.nil_subset, and_self, execLanded_only,
      limitsRefused_only, ite_only]
theorem setStream_only {cs : List Part} {r0 : State} (l : Landing) (x : Stream) (st : StreamSt) (s : State) (h0 :
    [.crew] ⊆ cs) (hC : OnlyChanges cs r0 s) :
    OnlyChanges cs r0 (setStream l x st s) := by
  simp only [List.cons_subset, List.nil_subset, and_true] at h0
  unfold setStream
  simp (maxDischargeDepth := 60) only [hC, h0, List.cons_subset, List.nil_subset, and_self, onLanding_only]
theorem crewCapture_only {cs : List Part} {r0 : State} (c : Crew) (cls : FClass) (key : BitVec 8) (by' : Nat)
    (parent : Option (BitVec 32)) (s : State) (h0 : [.free, .clk, .host, .cxl, .wb, .dram, .pm, .lake, .basin,
    .flash, .log, .weir, .save, .rst, .ledger, .wl, .fault, .crew, .seq, .boot, .frz, .bat, .od, .bus, .upd, .plan,
    .out] ⊆ cs) (hC : OnlyChanges cs r0 s) :
    OnlyChanges cs r0 (crewCapture c cls key by' parent s) := by
  simp only [List.cons_subset, List.nil_subset, and_true] at h0
  unfold crewCapture
  simp (maxDischargeDepth := 60) only [hC, h0, List.cons_subset, List.nil_subset, and_self, reportFault_only]
theorem streamBreak_only {cs : List Part} {r0 : State} (k : Copy) (s : State) (h0 : [.free, .clk, .host, .cxl, .wb,
    .dram, .pm, .lake, .basin, .flash, .log, .weir, .save, .rst, .ledger, .wl, .fault, .crew, .seq, .boot, .frz,
    .bat, .od, .bus, .upd, .plan, .out] ⊆ cs) (hC : OnlyChanges cs r0 s) :
    OnlyChanges cs r0 (streamBreak k s)
    := by
  simp only [List.cons_subset, List.nil_subset, and_true] at h0
  unfold streamBreak
  simp (maxDischargeDepth := 60) only [hC, h0, List.cons_subset, List.nil_subset, and_self, raise_only, free_only]
theorem duplicate_only {cs : List Part} {r0 : State} (k : Copy) (s : State) (h0 : [.free, .clk, .host, .cxl, .wb,
    .dram, .pm, .lake, .basin, .flash, .log, .weir, .save, .rst, .ledger, .wl, .fault, .crew, .seq, .boot, .frz,
    .bat, .od, .bus, .upd, .plan, .out] ⊆ cs) (hC : OnlyChanges cs r0 s) :
    OnlyChanges cs r0 (duplicate k s) :=
    by
  simp only [List.cons_subset, List.nil_subset, and_true] at h0
  unfold duplicate
  simp (maxDischargeDepth := 60) only [hC, h0, List.cons_subset, List.nil_subset, and_self, crewCapture_only,
      onLanding_only]
theorem diverge_only {cs : List Part} {r0 : State} (k : Copy) (w : WSlot) (s : State) (h0 : [.free, .clk, .host,
    .cxl, .wb, .dram, .pm, .lake, .basin, .flash, .log, .weir, .save, .rst, .ledger, .wl, .fault, .crew, .seq,
    .boot, .frz, .bat, .od, .bus, .upd, .plan, .out] ⊆ cs) (hC : OnlyChanges cs r0 s) :
    OnlyChanges cs r0
    (diverge k w s) := by
  simp only [List.cons_subset, List.nil_subset, and_true] at h0
  unfold diverge
  simp (maxDischargeDepth := 60) only [hC, h0, List.cons_subset, List.nil_subset, and_self, chipFatal_only,
      crewCapture_only, executeCopy_only, onLanding_only, record_only, ite_only]
theorem countCompared_only {cs : List Part} {r0 : State} (s : State) (h0 : [.crew] ⊆ cs) (hC : OnlyChanges cs r0 s)
    :
    OnlyChanges cs r0 (countCompared s) := by
  simp only [List.cons_subset, List.nil_subset, and_true] at h0
  unfold countCompared
  simp (maxDischargeDepth := 60) only [hC, h0, State.onCrew_only]
theorem compareCopy_only {cs : List Part} {r0 : State} (k : Copy) (w : WSlot) (s : State) (h0 : [.free, .clk,
    .host, .cxl, .wb, .dram, .pm, .lake, .basin, .flash, .log, .weir, .save, .rst, .ledger, .wl, .fault, .crew,
    .seq, .boot, .frz, .bat, .od, .bus, .upd, .plan, .out] ⊆ cs) (hC : OnlyChanges cs r0 s) :
    OnlyChanges cs r0
    (compareCopy k w s) := by
  simp only [List.cons_subset, List.nil_subset, and_true] at h0
  unfold compareCopy
  simp (maxDischargeDepth := 60) only [hC, h0, List.cons_subset, List.nil_subset, and_self, countCompared_only,
      diverge_only, ite_only]
theorem firstCopy_only {cs : List Part} {r0 : State} (k : Copy) (s : State) (h0 : [.free, .clk, .host, .cxl, .wb,
    .dram, .pm, .lake, .basin, .flash, .log, .weir, .save, .rst, .ledger, .wl, .fault, .crew, .seq, .boot, .frz,
    .bat, .od, .bus, .upd, .plan, .out] ⊆ cs) (hC : OnlyChanges cs r0 s) :
    OnlyChanges cs r0 (firstCopy k s) :=
    by
  simp only [List.cons_subset, List.nil_subset, and_true] at h0
  unfold firstCopy
  simp (maxDischargeDepth := 60) only [hC, h0, List.cons_subset, List.nil_subset, and_self, executeCopy_only,
      onLanding_only, setStream_only, ite_only]
theorem secondCopy_only {cs : List Part} {r0 : State} (k : Copy) (w : WSlot) (s : State) (h0 : [.free, .clk, .host,
    .cxl, .wb, .dram, .pm, .lake, .basin, .flash, .log, .weir, .save, .rst, .ledger, .wl, .fault, .crew, .seq,
    .boot, .frz, .bat, .od, .bus, .upd, .plan, .out] ⊆ cs) (hC : OnlyChanges cs r0 s) :
    OnlyChanges cs r0
    (secondCopy k w s) := by
  simp only [List.cons_subset, List.nil_subset, and_true] at h0
  unfold secondCopy
  simp (maxDischargeDepth := 60) only [hC, h0, List.cons_subset, List.nil_subset, and_self, compareCopy_only,
      setStream_only]
theorem waitCopy_only {cs : List Part} {r0 : State} (k : Copy) (s : State) (h0 : [.crew] ⊆ cs) (hC : OnlyChanges cs
    r0 s) :
    OnlyChanges cs r0 (waitCopy k s) := by
  simp only [List.cons_subset, List.nil_subset, and_true] at h0
  unfold waitCopy
  simp (maxDischargeDepth := 60) only [hC, h0, State.onCrew_only]
theorem placeCopy_only {cs : List Part} {r0 : State} (k : Copy) (s : State) (h0 : [.free, .clk, .host, .cxl, .wb,
    .dram, .pm, .lake, .basin, .flash, .log, .weir, .save, .rst, .ledger, .wl, .fault, .crew, .seq, .boot, .frz,
    .bat, .od, .bus, .upd, .plan, .out] ⊆ cs) (hC : OnlyChanges cs r0 s) :
    OnlyChanges cs r0 (placeCopy k s) :=
    by
  simp only [List.cons_subset, List.nil_subset, and_true] at h0
  unfold placeCopy
  dsimp only
  (repeat' split) <;> simp (maxDischargeDepth := 60) only [hC, h0, List.cons_subset, List.nil_subset, and_self,
      duplicate_only, firstCopy_only, onLanding_only, secondCopy_only, setStream_only, waitCopy_only]
theorem retryCopies_only {cs : List Part} {r0 : State} (n : Nat) (s : State) (h0 : [.free, .clk, .host, .cxl, .wb,
    .dram, .pm, .lake, .basin, .flash, .log, .weir, .save, .rst, .ledger, .wl, .fault, .crew, .seq, .boot, .frz,
    .bat, .od, .bus, .upd, .plan, .out] ⊆ cs) (hC : OnlyChanges cs r0 s) :
    OnlyChanges cs r0 (retryCopies n s) := by
  induction n generalizing s with
  | zero => exact hC
  | succ n ih =>
    unfold retryCopies
    split
    · exact hC
    · exact ih _ (placeCopy_only _ _ (parts_sub h0 rfl) (State.onCrew_only _ _ (parts_mem h0 rfl) hC))
theorem arrive_only {cs : List Part} {r0 : State} (k : Copy) (s : State) (h0 : [.free, .clk, .host, .cxl, .wb,
    .dram, .pm, .lake, .basin, .flash, .log, .weir, .save, .rst, .ledger, .wl, .fault, .crew, .seq, .boot, .frz,
    .bat, .od, .bus, .upd, .plan, .out] ⊆ cs) (hC : OnlyChanges cs r0 s) :
    OnlyChanges cs r0 (arrive k s) := by
  simp only [List.cons_subset, List.nil_subset, and_true] at h0
  unfold arrive
  simp (maxDischargeDepth := 60) only [hC, h0, List.cons_subset, List.nil_subset, and_self, limitsRefused_only,
      placeCopy_only, retryCopies_only, streamBreak_only, ite_only]
theorem releaseLag_only {cs : List Part} {r0 : State} (n : Nat) (s : State) (h0 : [.free, .clk, .host, .cxl, .wb,
    .dram, .pm, .lake, .basin, .flash, .log, .weir, .save, .rst, .ledger, .wl, .fault, .crew, .seq, .boot, .frz,
    .bat, .od, .bus, .upd, .plan, .out] ⊆ cs) (hC : OnlyChanges cs r0 s) :
    OnlyChanges cs r0 (releaseLag n s) := by
  induction n generalizing s with
  | zero => exact hC
  | succ n ih =>
    unfold releaseLag
    split
    · exact hC
    · split
      · exact ih _ (arrive_only _ _ (parts_sub h0 rfl) (State.onCrew_only _ _ (parts_mem h0 rfl) hC))
      · exact hC
theorem releaseLagged_only {cs : List Part} {r0 : State} (s : State) (h0 : [.free, .clk, .host, .cxl, .wb, .dram,
    .pm, .lake, .basin, .flash, .log, .weir, .save, .rst, .ledger, .wl, .fault, .crew, .seq, .boot, .frz, .bat,
    .od, .bus, .upd, .plan, .out] ⊆ cs) (hC : OnlyChanges cs r0 s) :
    OnlyChanges cs r0 (releaseLagged s) := by
  simp only [List.cons_subset, List.nil_subset, and_true] at h0
  unfold releaseLagged
  simp (maxDischargeDepth := 60) only [hC, h0, List.cons_subset, List.nil_subset, and_self, releaseLag_only]
theorem pairingOver_only {cs : List Part} {r0 : State} (l : Landing) (x : Stream) (w : WSlot) (s : State) (h0 :
    [.free, .clk, .host, .cxl, .wb, .dram, .pm, .lake, .basin, .flash, .log, .weir, .save, .rst, .ledger, .wl,
    .fault, .crew, .seq, .boot, .frz, .bat, .od, .bus, .upd, .plan, .out] ⊆ cs) (hC : OnlyChanges cs r0 s) :
   
    OnlyChanges cs r0 (pairingOver l x w s) := by
  simp only [List.cons_subset, List.nil_subset, and_true] at h0
  unfold pairingOver
  simp (maxDischargeDepth := 60) only [hC, h0, List.cons_subset, List.nil_subset, and_self, crewCapture_only,
      onLanding_only, retryCopies_only, setStream_only]

/-! ## CrewCommands -/

theorem digestFault_only {cs : List Part} {r0 : State} (s : State) (h0 : [.free, .clk, .host, .cxl, .wb, .dram,
    .pm, .lake, .basin, .flash, .log, .weir, .save, .rst, .ledger, .wl, .fault, .crew, .seq, .boot, .frz, .bat,
    .od, .bus, .upd, .plan, .out] ⊆ cs) (hC : OnlyChanges cs r0 s) :
    OnlyChanges cs r0 (digestFault s) := by
  simp only [List.cons_subset, List.nil_subset, and_true] at h0
  unfold digestFault
  (repeat' split) <;> simp (maxDischargeDepth := 60) only [hC, h0, List.cons_subset, List.nil_subset, and_self,
      crewCapture_only]
theorem arbitrate_only {cs : List Part} {r0 : State} (s : State) (h0 : [.free, .clk, .host, .cxl, .wb, .dram, .pm,
    .lake, .basin, .flash, .log, .weir, .save, .rst, .ledger, .wl, .fault, .crew, .seq, .boot, .frz, .bat, .od,
    .bus, .upd, .plan, .out] ⊆ cs) (hC : OnlyChanges cs r0 s) :
    OnlyChanges cs r0 (arbitrate s) := by
  simp only [List.cons_subset, List.nil_subset, and_true] at h0
  unfold arbitrate
  simp (maxDischargeDepth := 60) only [hC, h0, List.cons_subset, List.nil_subset, and_self, State.onCrew_only,
      raise_only, record_only, setSeat_only]
theorem startLoading_only {cs : List Part} {r0 : State} (c : Crew) (s : State) (h0 : [.crew] ⊆ cs) (hC :
    OnlyChanges cs r0 s) :
    OnlyChanges cs r0 (startLoading c s) := by
  simp only [List.cons_subset, List.nil_subset, and_true] at h0
  unfold startLoading
  simp (maxDischargeDepth := 60) only [hC, h0, List.cons_subset, List.nil_subset, and_self, onCrewUnit_only]
theorem firstMember_only {cs : List Part} {r0 : State} (s : State) (h0 : [.free, .host, .cxl, .wb, .pm, .lake,
    .basin, .flash, .log, .weir, .save, .rst, .ledger, .wl, .boot, .bat, .bus, .plan, .out] ⊆ cs) (hC : OnlyChanges
    cs r0 s) :
    OnlyChanges cs r0 (firstMember s) := by
  simp only [List.cons_subset, List.nil_subset, and_true] at h0
  unfold firstMember
  simp (maxDischargeDepth := 60) only [hC, h0, List.cons_subset, List.nil_subset, and_self, State.onBoot_only,
      identifyFlash_only, restoreTarget_only, takeUp_only, ite_only]
theorem joinAlone_only {cs : List Part} {r0 : State} (c : Crew) (s : State) (h0 : [.free, .host, .cxl, .wb, .pm,
    .lake, .basin, .flash, .log, .weir, .save, .rst, .ledger, .wl, .crew, .boot, .bat, .bus, .upd, .plan, .out] ⊆
    cs) (hC : OnlyChanges cs r0 s) :
    OnlyChanges cs r0 (joinAlone c s) := by
  simp only [List.cons_subset, List.nil_subset, and_true] at h0
  unfold joinAlone
  simp (maxDischargeDepth := 60) only [hC, h0, List.cons_subset, List.nil_subset, and_self, becomeMember_only,
      firstMember_only]
theorem joinBoth_only {cs : List Part} {r0 : State} (s : State) (h0 : [.free, .host, .cxl, .wb, .pm, .lake, .basin,
    .flash, .log, .weir, .save, .rst, .ledger, .wl, .crew, .boot, .bat, .bus, .upd, .plan, .out] ⊆ cs) (hC :
    OnlyChanges cs r0 s) :
    OnlyChanges cs r0 (joinBoth s) := by
  simp only [List.cons_subset, List.nil_subset, and_true] at h0
  unfold joinBoth
  simp (maxDischargeDepth := 60) only [hC, h0, List.cons_subset, List.nil_subset, and_self, State.onCrew_only,
      becomeMember_only, firstMember_only]
theorem reloadOars_only {cs : List Part} {r0 : State} (k : Fin 2) (s : State) (h0 : [.dram, .flash] ⊆ cs) (hC :
    OnlyChanges cs r0 s) :
    OnlyChanges cs r0 (reloadOars k s) := by
  simp only [List.cons_subset, List.nil_subset, and_true] at h0
  unfold reloadOars
  simp (maxDischargeDepth := 60) only [hC, h0, State.onDram_only, State.onFlash_only]
theorem rebuild_only {cs : List Part} {r0 : State} (c : Crew) (s : State) (h0 : [.free, .host, .cxl, .wb, .dram,
    .pm, .lake, .basin, .flash, .log, .weir, .save, .rst, .ledger, .wl, .crew, .boot, .bat, .od, .bus, .upd, .plan,
    .out] ⊆ cs) (hC : OnlyChanges cs r0 s) :
    OnlyChanges cs r0 (rebuild c s) := by
  simp only [List.cons_subset, List.nil_subset, and_true] at h0
  unfold rebuild
  simp (maxDischargeDepth := 60) only [hC, h0, List.cons_subset, List.nil_subset, and_self, State.onCrew_only,
      endSessions_only, joinAlone_only, loseDeltas_only, recompute_only, releaseSession_only, reloadOars_only]
theorem enterCatchup_only {cs : List Part} {r0 : State} (c : Crew) (s : State) (h0 : [.crew] ⊆ cs) (hC :
    OnlyChanges cs r0 s) :
    OnlyChanges cs r0 (enterCatchup c s) := by
  simp only [List.cons_subset, List.nil_subset, and_true] at h0
  unfold enterCatchup
  simp (maxDischargeDepth := 60) only [hC, h0, List.cons_subset, List.nil_subset, and_self, onCrewUnit_only]
theorem endCopy_only {cs : List Part} {r0 : State} (c : Crew) (s : State) (h0 : [.crew] ⊆ cs) (hC : OnlyChanges cs
    r0 s) :
    OnlyChanges cs r0 (endCopy c s) := by
  simp only [List.cons_subset, List.nil_subset, and_true] at h0
  unfold endCopy
  simp (maxDischargeDepth := 60) only [hC, h0, List.cons_subset, List.nil_subset, and_self, onCrewUnit_only]
theorem copyStep_only {cs : List Part} {r0 : State} (s : State) (h0 : [.crew] ⊆ cs) (hC : OnlyChanges cs r0 s) :
  
     OnlyChanges cs r0 (copyStep s) := by
  simp only [List.cons_subset, List.nil_subset, and_true] at h0
  unfold copyStep
  dsimp only
  (repeat' split) <;> simp (maxDischargeDepth := 60) only [hC, h0, List.cons_subset, List.nil_subset, and_self,
      endCopy_only]
theorem crewStep_only {cs : List Part} {r0 : State} (s : State) (h0 : [.crew] ⊆ cs) (hC : OnlyChanges cs r0 s) :
  
     OnlyChanges cs r0 (crewStep s) := by
  simp only [List.cons_subset, List.nil_subset, and_true] at h0
  unfold crewStep
  simp (maxDischargeDepth := 60) only [hC, h0, List.cons_subset, List.nil_subset, and_self, copyStep_only,
      resetFaulted_only, ite_only]
theorem loadOk_only {cs : List Part} {r0 : State} (c : Crew) (s : State) (h0 : [.free, .host, .cxl, .wb, .dram,
    .pm, .lake, .basin, .flash, .log, .weir, .save, .rst, .ledger, .wl, .crew, .boot, .bat, .od, .bus, .upd, .plan,
    .out] ⊆ cs) (hC : OnlyChanges cs r0 s) :
    OnlyChanges cs r0 (loadOk c s) := by
  simp only [List.cons_subset, List.nil_subset, and_true] at h0
  unfold loadOk
  simp (maxDischargeDepth := 60) only [hC, h0, List.cons_subset, List.nil_subset, and_self, enterCatchup_only,
      joinBoth_only, onCrewUnit_only, rebuild_only, ite_only]
theorem loadBad_only {cs : List Part} {r0 : State} (c : Crew) (s : State) (h0 : [.free, .host, .cxl, .wb, .dram,
    .pm, .lake, .basin, .flash, .log, .weir, .save, .rst, .ledger, .wl, .crew, .boot, .bat, .od, .bus, .upd, .plan,
    .out] ⊆ cs) (hC : OnlyChanges cs r0 s) :
    OnlyChanges cs r0 (loadBad c s) := by
  simp only [List.cons_subset, List.nil_subset, and_true] at h0
  unfold loadBad
  simp (maxDischargeDepth := 60) only [hC, h0, List.cons_subset, List.nil_subset, and_self, onCrewUnit_only,
      rebuild_only, record_only, ite_only]
theorem standbyLoaded_only {cs : List Part} {r0 : State} (x : Crew) (verified : Bool) (s : State) (h0 : [.host,
    .cxl, .wl, .crew, .bus, .upd, .out] ⊆ cs) (hC : OnlyChanges cs r0 s) :
    OnlyChanges cs r0 (standbyLoaded x
    verified s) := by
  simp only [List.cons_subset, List.nil_subset, and_true] at h0
  unfold standbyLoaded
  simp (maxDischargeDepth := 60) only [hC, h0, List.cons_subset, List.nil_subset, and_self, abortActivation_only,
      onCrewUnit_only, startLoading_only, ite_only]
theorem loadDone_only {cs : List Part} {r0 : State} (c : Crew) (verified : Bool) (s : State) (h0 : [.free, .host,
    .cxl, .wb, .dram, .pm, .lake, .basin, .flash, .log, .weir, .save, .rst, .ledger, .wl, .crew, .boot, .bat, .od,
    .bus, .upd, .plan, .out] ⊆ cs) (hC : OnlyChanges cs r0 s) :
    OnlyChanges cs r0 (loadDone c verified s) := by
  simp only [List.cons_subset, List.nil_subset, and_true] at h0
  unfold loadDone
  simp (maxDischargeDepth := 60) only [hC, h0, List.cons_subset, List.nil_subset, and_self, enterCatchup_only,
      loadBad_only, loadOk_only, standbyLoaded_only, ite_only]
theorem emptyQueue_only {cs : List Part} {r0 : State} (c : Crew) (s : State) (h0 : [.crew] ⊆ cs) (hC : OnlyChanges
    cs r0 s) :
    OnlyChanges cs r0 (emptyQueue c s) := by
  simp only [List.cons_subset, List.nil_subset, and_true] at h0
  unfold emptyQueue
  simp (maxDischargeDepth := 60) only [hC, h0, List.cons_subset, List.nil_subset, and_self, endCopy_only,
      onCrewUnit_only, ite_only]
theorem rejoined_only {cs : List Part} {r0 : State} (c : Crew) (s : State) (h0 : [.host, .cxl, .wb, .pm, .lake,
    .log, .weir, .save, .rst, .ledger, .wl, .crew, .bus, .upd, .out] ⊆ cs) (hC : OnlyChanges cs r0 s) :
   
    OnlyChanges cs r0 (rejoined c s) := by
  simp only [List.cons_subset, List.nil_subset, and_true] at h0
  unfold rejoined
  simp (maxDischargeDepth := 60) only [hC, h0, List.cons_subset, List.nil_subset, and_self, becomeMember_only,
      completeActivation_only, onCrewUnit_only, record_only, ite_only]
theorem dualDecide_only {cs : List Part} {r0 : State} (v : Byte) (s : State) (h0 : [.free, .clk, .host, .cxl, .wb,
    .dram, .pm, .lake, .basin, .flash, .log, .weir, .save, .rst, .ledger, .wl, .fault, .crew, .seq, .boot, .frz,
    .bat, .od, .bus, .upd, .plan, .out] ⊆ cs) (hC : OnlyChanges cs r0 s) :
    OnlyChanges cs r0 (dualDecide v s).2
    := by
  simp only [List.cons_subset, List.nil_subset, and_true] at h0
  unfold dualDecide
  simp (maxDischargeDepth := 60) only [hC, h0, List.cons_subset, List.nil_subset, and_self, State.onCrew_only,
      releaseLagged_only, setSeat_only]
theorem seatWrite_only {cs : List Part} {r0 : State} (v : Byte) (s : State) (h0 : [.free, .clk, .host, .cxl, .wb,
    .dram, .pm, .lake, .basin, .flash, .log, .weir, .save, .rst, .ledger, .wl, .fault, .crew, .seq, .boot, .frz,
    .bat, .od, .bus, .upd, .plan, .out] ⊆ cs) (hC : OnlyChanges cs r0 s) :
    OnlyChanges cs r0 (seatWrite v s).2
    := by
  simp only [List.cons_subset, List.nil_subset, and_true] at h0
  unfold seatWrite
  simp (maxDischargeDepth := 60) only [hC, h0, List.cons_subset, List.nil_subset, and_self, State.onCrew_only,
      dualDecide_only, releaseLagged_only, setSeat_only, free_only, ite2_only]
theorem resetCrew_only {cs : List Part} {r0 : State} (c : Crew) (s : State) (h0 : [.host, .cxl, .wb, .pm, .lake,
    .log, .weir, .save, .rst, .ledger, .wl, .crew, .od, .bus, .upd, .out] ⊆ cs) (hC : OnlyChanges cs r0 s) :
   
    OnlyChanges cs r0 (resetCrew c s) := by
  simp only [List.cons_subset, List.nil_subset, and_true] at h0
  unfold resetCrew
  dsimp only
  (repeat' split) <;> simp (maxDischargeDepth := 60) only [hC, h0, List.cons_subset, List.nil_subset, and_self,
      crewDown_only, dropCopies_only, onCrewUnit_only, record_only, resetFaulted_only, startLoading_only]
theorem crewResetWrite_only {cs : List Part} {r0 : State} (v : Byte) (s : State) (h0 : [.host, .cxl, .wb, .pm,
    .lake, .log, .weir, .save, .rst, .ledger, .wl, .crew, .od, .bus, .upd, .out] ⊆ cs) (hC : OnlyChanges cs r0 s)
    :
    OnlyChanges cs r0 (crewResetWrite v s).2 := by
  simp only [List.cons_subset, List.nil_subset, and_true] at h0
  unfold crewResetWrite
  simp (maxDischargeDepth := 60) only [hC, h0, List.cons_subset, List.nil_subset, and_self, resetCrew_only,
      ite2_only]

/-! ## Updates -/

theorem serveAny_only {cs : List Part} {r0 : State} (p : Path) (act : (Nat × List Byte) × State) (s : State)
    (hA : OnlyChanges cs r0 act.2) (h0 : [.host, .bus, .out] ⊆ cs) (hC : OnlyChanges cs r0 s) :
    OnlyChanges cs r0 (serveAny p act s) := by
  unfold serveAny
  split <;> simp only [hA, hC, h0, reply_only]
theorem touchSession_only {cs : List Part} {r0 : State} (id : Nat) (s : State) (h0 : [.upd] ⊆ cs) (hC : OnlyChanges
    cs r0 s) :
    OnlyChanges cs r0 (touchSession id s) := by
  simp only [List.cons_subset, List.nil_subset, and_true] at h0
  unfold touchSession
  simp (maxDischargeDepth := 60) only [hC, h0, State.onUpd_only]
theorem openSession_only {cs : List Part} {r0 : State} (p : Path) (length : Nat) (s : State) (h0 : [.host, .cxl,
    .wl, .bus, .upd, .out] ⊆ cs) (hC : OnlyChanges cs r0 s) :
    OnlyChanges cs r0 (openSession p length s) := by
  simp only [List.cons_subset, List.nil_subset, and_true] at h0
  unfold openSession
  simp (maxDischargeDepth := 60) only [hC, h0, List.cons_subset, List.nil_subset, and_self, State.onUpd_only,
      putSlot_only, record_only]
theorem openOp_only {cs : List Part} {r0 : State} (p : Path) (length : Nat) (s : State) (h0 : [.host, .cxl, .wl,
    .bus, .upd, .out] ⊆ cs) (hC : OnlyChanges cs r0 s) :
    OnlyChanges cs r0 (openOp p length s).2 := by
  simp only [List.cons_subset, List.nil_subset, and_true] at h0
  unfold openOp
  (repeat' split) <;> simp (maxDischargeDepth := 60) only [hC, h0, List.cons_subset, List.nil_subset, and_self,
      openSession_only]
theorem blockOp_only {cs : List Part} {r0 : State} (id off : Nat) (data : List Byte) (readBack : Bool) (s : State)
    (h0 : [.upd] ⊆ cs) (hC : OnlyChanges cs r0 s) :
    OnlyChanges cs r0 (blockOp id off data readBack s).2 := by
  simp only [List.cons_subset, List.nil_subset, and_true] at h0
  unfold blockOp
  (repeat' split) <;> simp (maxDischargeDepth := 60) only [hC, h0, List.cons_subset, List.nil_subset, and_self,
      State.onUpd_only, touchSession_only, ite2_only]
theorem abortOp_only {cs : List Part} {r0 : State} (id : Nat) (s : State) (h0 : [.host, .cxl, .wl, .bus, .upd,
    .out] ⊆ cs) (hC : OnlyChanges cs r0 s) :
    OnlyChanges cs r0 (abortOp id s).2 := by
  simp only [List.cons_subset, List.nil_subset, and_true] at h0
  unfold abortOp
  (repeat' split) <;> simp (maxDischargeDepth := 60) only [hC, h0, List.cons_subset, List.nil_subset, and_self,
      State.onUpd_only, commitDone_only, releaseSession_only]
theorem startVerify_only {cs : List Part} {r0 : State} (p : Path) (id : Nat) (s : State) (h0 : [.host, .upd, .out]
    ⊆ cs) (hC : OnlyChanges cs r0 s) :
    OnlyChanges cs r0 (startVerify p id s) := by
  simp only [List.cons_subset, List.nil_subset, and_true] at h0
  unfold startVerify
  (repeat' split) <;> simp (maxDischargeDepth := 60) only [hC, h0, List.cons_subset, List.nil_subset, and_self,
      State.onUpd_only, mbox_only, onHead_only, touchSession_only]
theorem commitFails_only {cs : List Part} {r0 : State} (p : Path) (st : Nat) (s : State) (h0 : [.host, .bus, .out]
    ⊆ cs) (hC : OnlyChanges cs r0 s) :
    OnlyChanges cs r0 (commitFails p st s) := by
  simp only [List.cons_subset, List.nil_subset, and_true] at h0
  unfold commitFails
  (repeat' split) <;> simp (maxDischargeDepth := 60) only [hC, h0, List.cons_subset, List.nil_subset, and_self,
      mbox_only, onHead_only, reply_only, vectorOn_only]
theorem commitStart_only {cs : List Part} {r0 : State} (p : Path) (id : Nat) (s : State) (h0 : [.host, .bus, .upd,
    .out] ⊆ cs) (hC : OnlyChanges cs r0 s) :
    OnlyChanges cs r0 (commitStart p id s) := by
  simp only [List.cons_subset, List.nil_subset, and_true] at h0
  unfold commitStart
  (repeat' split) <;> simp (maxDischargeDepth := 60) only [hC, h0, List.cons_subset, List.nil_subset, and_self,
      commitFails_only, mbox_only, startVerify_only, touchSession_only]
theorem endCommit_only {cs : List Part} {r0 : State} (status : Nat) (s : State) (h0 : [.host, .bus, .upd, .out] ⊆
    cs) (hC : OnlyChanges cs r0 s) :
    OnlyChanges cs r0 (endCommit status s) := by
  simp only [List.cons_subset, List.nil_subset, and_true] at h0
  unfold endCommit
  simp (maxDischargeDepth := 60) only [hC, h0, List.cons_subset, List.nil_subset, and_self, State.onUpd_only,
      commitDone_only]
theorem verifyFailed_only {cs : List Part} {r0 : State} (status : Nat) (s : State) (h0 : [.host, .cxl, .wl, .bus,
    .upd, .out] ⊆ cs) (hC : OnlyChanges cs r0 s) :
    OnlyChanges cs r0 (verifyFailed status s) := by
  simp only [List.cons_subset, List.nil_subset, and_true] at h0
  unfold verifyFailed
  simp (maxDischargeDepth := 60) only [hC, h0, List.cons_subset, List.nil_subset, and_self, dropSession_only,
      endCommit_only, record_only]
theorem activate_only {cs : List Part} {r0 : State} (k : Fin 2) (readable : Bool) (s : State) (h0 : [.host, .cxl,
    .wl, .crew, .bus, .upd, .out] ⊆ cs) (hC : OnlyChanges cs r0 s) :
    OnlyChanges cs r0 (activate k readable s)
    := by
  simp only [List.cons_subset, List.nil_subset, and_true] at h0
  unfold activate
  simp (maxDischargeDepth := 60) only [hC, h0, List.cons_subset, List.nil_subset, and_self, abortActivation_only,
      beginActivation_only, startLoading_only, ite_only]
theorem boathouseDone_only {cs : List Part} {r0 : State} (k : Fin 2) (s : State) (h0 : [.clk, .host, .wb, .dram,
    .pm, .lake, .basin, .flash, .log, .weir, .save, .rst, .ledger, .fault, .crew, .seq, .boot, .frz, .bat, .od,
    .bus, .upd, .plan, .out] ⊆ cs) (hC : OnlyChanges cs r0 s) :
    OnlyChanges cs r0 (boathouseDone k s) := by
  simp only [List.cons_subset, List.nil_subset, and_true] at h0
  unfold boathouseDone
  simp (maxDischargeDepth := 60) only [hC, h0, List.cons_subset, List.nil_subset, and_self, State.onBoot_only,
      State.onUpd_only, bootWrite_only, endCommit_only, powerDownTo_only]
theorem revokeKeys_only {cs : List Part} {r0 : State} (f : VerifyIn) (s : State) (h0 : [.upd] ⊆ cs) (hC :
    OnlyChanges cs r0 s) :
    OnlyChanges cs r0 (revokeKeys f s) := by
  simp only [List.cons_subset, List.nil_subset, and_true] at h0
  unfold revokeKeys
  simp (maxDischargeDepth := 60) only [hC, h0, State.onUpd_only]
theorem verifyDone_only {cs : List Part} {r0 : State} (f : VerifyIn) (s : State) (h0 : [.clk, .host, .cxl, .wb,
    .dram, .pm, .lake, .basin, .flash, .log, .weir, .save, .rst, .ledger, .wl, .fault, .crew, .seq, .boot, .frz,
    .bat, .od, .bus, .upd, .plan, .out] ⊆ cs) (hC : OnlyChanges cs r0 s) :
    OnlyChanges cs r0 (verifyDone f s)
    := by
  simp only [List.cons_subset, List.nil_subset, and_true] at h0
  unfold verifyDone
  simp (maxDischargeDepth := 60) only [hC, h0, List.cons_subset, List.nil_subset, and_self, activate_only,
      boathouseDone_only, endCommit_only, putSlot_only, revokeKeys_only, verifyFailed_only, ite_only]
theorem romFinds_only {cs : List Part} {r0 : State} (k : Fin 2) (ok : Bool) (s : State) (h0 : [.upd] ⊆ cs) (hC :
    OnlyChanges cs r0 s) :
    OnlyChanges cs r0 (romFinds k ok s) := by
  simp only [List.cons_subset, List.nil_subset, and_true] at h0
  unfold romFinds
  simp (maxDischargeDepth := 60) only [hC, h0, List.cons_subset, List.nil_subset, and_self, putSlot_only]
theorem handSettings_only {cs : List Part} {r0 : State} (s : State) (h0 : [.od] ⊆ cs) (hC : OnlyChanges cs r0 s) :

       OnlyChanges cs r0 (handSettings s) := by
  simp only [List.cons_subset, List.nil_subset, and_true] at h0
  unfold handSettings
  simp (maxDischargeDepth := 60) only [hC, h0, List.cons_subset, List.nil_subset, and_self, State.onOd_only,
      thawSettings_only, ite_only]
theorem handOver_only {cs : List Part} {r0 : State} (s : State) (h0 : [.host, .cxl, .wb, .dram, .pm, .lake, .flash,
    .log, .weir, .save, .rst, .ledger, .wl, .crew, .od, .bus, .upd, .out] ⊆ cs) (hC : OnlyChanges cs r0 s) :
   
    OnlyChanges cs r0 (handOver s) := by
  simp only [List.cons_subset, List.nil_subset, and_true] at h0
  unfold handOver
  simp (maxDischargeDepth := 60) only [hC, h0, List.cons_subset, List.nil_subset, and_self, State.onUpd_only,
      becomeMember_only, bootWrite_only, handSettings_only, onCrewUnit_only, reloadOars_only, setSeat_only]
theorem commitTrial_only {cs : List Part} {r0 : State} (s : State) (h0 : [.host, .cxl, .ledger, .wl, .od, .bus,
    .upd, .out] ⊆ cs) (hC : OnlyChanges cs r0 s) :
    OnlyChanges cs r0 (commitTrial s) := by
  simp only [List.cons_subset, List.nil_subset, and_true] at h0
  unfold commitTrial
  simp (maxDischargeDepth := 60) only [hC, h0, List.cons_subset, List.nil_subset, and_self, State.onLedger_only,
      State.onOd_only, State.onUpd_only, record_only]
theorem trialWrite_only {cs : List Part} {r0 : State} (v : Byte) (s : State) (h0 : [.host, .cxl, .ledger, .wl, .od,
    .bus, .upd, .out] ⊆ cs) (hC : OnlyChanges cs r0 s) :
    OnlyChanges cs r0 (trialWrite v s).2 := by
  simp only [List.cons_subset, List.nil_subset, and_true] at h0
  unfold trialWrite
  simp (maxDischargeDepth := 60) only [hC, h0, List.cons_subset, List.nil_subset, and_self, commitTrial_only,
      ite2_only]

/-! ## Freeze -/

theorem freezeWrite_only {cs : List Part} {r0 : State} (v : Byte) (s : State) (h0 : [.free, .host, .cxl, .wb,
    .dram, .pm, .lake, .log, .weir, .rst, .ledger, .wl, .fault, .crew, .boot, .frz, .od, .bus, .upd, .out] ⊆ cs) (hC :
    OnlyChanges cs r0 s) :
    OnlyChanges cs r0 (freezeWrite v s).2 := by
  simp only [List.cons_subset, List.nil_subset, and_true] at h0
  unfold freezeWrite
  simp (maxDischargeDepth := 60) only [hC, h0, List.cons_subset, List.nil_subset, and_self, releaseHold_only,
      requestFreeze_only, ite2_only]
theorem loadIr_only {cs : List Part} {r0 : State} (op : Byte) (s : State) (h0 : [.frz] ⊆ cs) (hC : OnlyChanges cs
    r0 s) :
    OnlyChanges cs r0 (loadIr op s) := by
  simp only [List.cons_subset, List.nil_subset, and_true] at h0
  unfold loadIr
  simp (maxDischargeDepth := 60) only [hC, h0, State.onFrz_only]
theorem shiftOut_only {cs : List Part} {r0 : State} (w v : Nat) (s : State) (h0 : [.out] ⊆ cs) (hC : OnlyChanges cs
    r0 s) :
    OnlyChanges cs r0 (shiftOut w v s) := by
  simp only [List.cons_subset, List.nil_subset, and_true] at h0
  unfold shiftOut
  simp (maxDischargeDepth := 60) only [hC, h0, List.cons_subset, List.nil_subset, and_self, say_only]
theorem ledgerWord_only {cs : List Part} {r0 : State} (addr : Nat) (s : State) (h0 : [.free, .ledger] ⊆ cs) (hC :
    OnlyChanges cs r0 s) :
    OnlyChanges cs r0 (ledgerWord addr s).2 := by
  simp only [List.cons_subset, List.nil_subset, and_true] at h0
  unfold ledgerWord
  (repeat' split) <;> simp (maxDischargeDepth := 60) only [hC, h0, State.onLedger_only, free_only]
theorem ledgerCapture_only {cs : List Part} {r0 : State} (s : State) (h0 : [.frz, .out] ⊆ cs) (hC : OnlyChanges cs
    r0 s) :
    OnlyChanges cs r0 (ledgerCapture s) := by
  simp only [List.cons_subset, List.nil_subset, and_true] at h0
  unfold ledgerCapture
  simp (maxDischargeDepth := 60) only [hC, h0, List.cons_subset, List.nil_subset, and_self, loadIr_only,
      shiftOut_only]

/-! ## Dictionary -/

theorem touch_only {cs : List Part} {r0 : State} (key : Nat) (s : State) (h0 : [.od] ⊆ cs) (hC : OnlyChanges cs r0
    s) :
    OnlyChanges cs r0 (touch key s) := by
  simp only [List.cons_subset, List.nil_subset, and_true] at h0
  unfold touch
  (repeat' split) <;> simp (maxDischargeDepth := 60) only [hC, h0, List.cons_subset, List.nil_subset, and_self,
      State.onOd_only, endSessions_only]
theorem hold_only {cs : List Part} {r0 : State} (x : Session) (s : State) (h0 : [.od] ⊆ cs) (hC : OnlyChanges cs r0
    s) :
    OnlyChanges cs r0 (hold x s) := by
  simp only [List.cons_subset, List.nil_subset, and_true] at h0
  unfold hold
  dsimp only
  (repeat' split) <;> simp (maxDischargeDepth := 60) only [hC, h0, List.cons_subset, List.nil_subset, and_self,
      State.onOd_only, endSessions_only]
theorem takeView_only {cs : List Part} {r0 : State} (key index sub off : Nat) (s : State) (h0 : [.od] ⊆ cs) (hC :
    OnlyChanges cs r0 s) :
    OnlyChanges cs r0 (takeView key index sub off s) := by
  simp only [List.cons_subset, List.nil_subset, and_true] at h0
  unfold takeView
  (repeat' split) <;> simp (maxDischargeDepth := 60) only [hC, h0, List.cons_subset, List.nil_subset, and_self,
      hold_only]
theorem readEntryOp_only {cs : List Part} {r0 : State} (key index sub off : Nat) (f : OdField) (s : State) (h0 :
    [.free, .od] ⊆ cs) (hC : OnlyChanges cs r0 s) :
    OnlyChanges cs r0 (readEntryOp key index sub off f s).2 :=
    by
  simp only [List.cons_subset, List.nil_subset, and_true] at h0
  unfold readEntryOp
  simp (maxDischargeDepth := 60) only [hC, h0, List.cons_subset, List.nil_subset, and_self, takeView_only,
      free_only, ite2_only]
theorem readOp_only {cs : List Part} {r0 : State} (p : Path) (index sub off : Nat) (s : State) (h0 : [.free, .od] ⊆
    cs) (hC : OnlyChanges cs r0 s) :
    OnlyChanges cs r0 (readOp p index sub off s).2 := by
  simp only [List.cons_subset, List.nil_subset, and_true] at h0
  unfold readOp
  dsimp only
  (repeat' split) <;> simp (maxDischargeDepth := 60) only [hC, h0, List.cons_subset, List.nil_subset, and_self,
      readEntryOp_only, touch_only]
theorem saveWrite_only {cs : List Part} {r0 : State} (v : Nat) (s : State) (h0 : [.free, .clk, .host, .cxl, .wb,
    .dram, .pm, .lake, .basin, .flash, .log, .weir, .save, .rst, .ledger, .wl, .fault, .crew, .seq, .boot, .frz,
    .bat, .od, .bus, .upd, .plan, .out] ⊆ cs) (hC : OnlyChanges cs r0 s) :
    OnlyChanges cs r0 (saveWrite v s).2
    := by
  simp only [List.cons_subset, List.nil_subset, and_true] at h0
  unfold saveWrite
  simp (maxDischargeDepth := 60) only [hC, h0, List.cons_subset, List.nil_subset, and_self, trigger_only, ite2_only]
theorem learnWrite_only {cs : List Part} {r0 : State} (v : Nat) (s : State) (h0 : [.free, .host, .cxl, .wb, .pm,
    .lake, .log, .weir, .rst, .ledger, .wl, .bat, .bus, .out] ⊆ cs) (hC : OnlyChanges cs r0 s) :
    OnlyChanges cs
    r0 (learnWrite v s).2 := by
  simp only [List.cons_subset, List.nil_subset, and_true] at h0
  unfold learnWrite
  simp (maxDischargeDepth := 60) only [hC, h0, List.cons_subset, List.nil_subset, and_self, startLearn_only,
      ite2_only]
theorem packWrite_only {cs : List Part} {r0 : State} (v : Nat) (s : State) (h0 : [.host, .cxl, .wb, .pm, .lake,
    .log, .weir, .rst, .ledger, .wl, .bat, .bus, .out] ⊆ cs) (hC : OnlyChanges cs r0 s) :
    OnlyChanges cs r0
    (packWrite v s).2 := by
  simp only [List.cons_subset, List.nil_subset, and_true] at h0
  unfold packWrite
  simp (maxDischargeDepth := 60) only [hC, h0, List.cons_subset, List.nil_subset, and_self, packDeclareOp_only,
      ite2_only]
theorem onOffWrite_only {cs : List Part} {r0 : State} (v : Nat) (s : State) (h0 : [.free, .clk, .host, .cxl, .wb,
    .dram, .pm, .lake, .basin, .flash, .log, .weir, .save, .rst, .ledger, .wl, .fault, .crew, .seq, .boot, .frz,
    .bat, .od, .bus, .upd, .plan, .out] ⊆ cs) (hC : OnlyChanges cs r0 s) :
    OnlyChanges cs r0 (onOffWrite v s).2
    := by
  simp only [List.cons_subset, List.nil_subset, and_true] at h0
  unfold onOffWrite
  simp (maxDischargeDepth := 60) only [hC, h0, List.cons_subset, List.nil_subset, and_self, notInBoathouse_only,
      offOp_only, onOp_only, ite2_only]
theorem actionWrite_only {cs : List Part} {r0 : State} (index v : Nat) (s : State) (h0 : [.free, .clk, .host, .cxl,
    .wb, .dram, .pm, .lake, .basin, .flash, .log, .weir, .save, .rst, .ledger, .wl, .fault, .crew, .seq, .boot,
    .frz, .bat, .od, .bus, .upd, .plan, .out] ⊆ cs) (hC : OnlyChanges cs r0 s) :
    OnlyChanges cs r0 (actionWrite
    index v s).2 := by
  simp only [List.cons_subset, List.nil_subset, and_true] at h0
  unfold actionWrite
  simp (maxDischargeDepth := 60) only [hC, h0, List.cons_subset, List.nil_subset, and_self, ackWrite_only,
      crewResetWrite_only, freezeWrite_only, latchWrite_only, learnWrite_only, onOffWrite_only, packWrite_only,
      planWrite_only, saveWrite_only, seatWrite_only, trialWrite_only, ite2_only]
theorem putList_only {cs : List Part} {r0 : State} (c : Nat) (l : List Nat) (s : State) (h0 : [.od] ⊆ cs) (hC :
    OnlyChanges cs r0 s) :
    OnlyChanges cs r0 (putList c l s) := by
  simp only [List.cons_subset, List.nil_subset, and_true] at h0
  unfold putList
  simp (maxDischargeDepth := 60) only [hC, h0, State.onOd_only]
theorem settingActs_only {cs : List Part} {r0 : State} (index v : Nat) (s0 : State) (s : State) (h0 : [.host, .cxl,
    .pm, .lake, .weir, .rst, .wl, .seq, .boot, .od, .bus, .upd, .out] ⊆ cs) (hC : OnlyChanges cs r0 s) :
    OnlyChanges cs r0 (settingActs index v s0 s) := by
  simp only [List.cons_subset, List.nil_subset, and_true] at h0
  unfold settingActs
  simp (maxDischargeDepth := 60) only [hC, h0, List.cons_subset, List.nil_subset, and_self, State.onWeir_only,
    releaseCatch_only, sprintCheck_only, restoreModeOp_only, bootWrite_only, record_only, ite_only]
theorem compactCheck_only {cs : List Part} {r0 : State} (s : State) (h0 : [.od] ⊆ cs) (hC : OnlyChanges cs r0 s) :

       OnlyChanges cs r0 (compactCheck s) := by
  simp only [List.cons_subset, List.nil_subset, and_true] at h0
  unfold compactCheck
  simp (maxDischargeDepth := 60) only [hC, h0, State.onOd_only, ite_only]
theorem appendSetting_only {cs : List Part} {r0 : State} (r : SettingRec) (s : State) (h0 : [.od] ⊆ cs) (hC :
    OnlyChanges cs r0 s) :
    OnlyChanges cs r0 (appendSetting r s) := by
  simp only [List.cons_subset, List.nil_subset, and_true] at h0
  unfold appendSetting
  simp (maxDischargeDepth := 60) only [hC, h0, State.onOd_only]
theorem appendBoard_only {cs : List Part} {r0 : State} (r : SettingRec) (s : State) (h0 : [.flash, .od] ⊆ cs) (hC :
    OnlyChanges cs r0 s) :
    OnlyChanges cs r0 (appendBoard r s) := by
  simp only [List.cons_subset, List.nil_subset, and_true] at h0
  unfold appendBoard
  simp (maxDischargeDepth := 60) only [hC, h0, State.onFlash_only, State.onOd_only]
theorem persist_only {cs : List Part} {r0 : State} (r : SettingRec) (stored : Bool) (put : State → State) (s :
    State)
    (hA : ∀ t, OnlyChanges cs r0 t → OnlyChanges cs r0 (put t)) (h0 : [.flash, .od] ⊆ cs) (hC : OnlyChanges cs r0
        s) :
    OnlyChanges cs r0 (persist r stored put s).2 := by
  have h1 := hA _ (appendBoard_only r _ (parts_sub h0 rfl) hC)
  have h2 := compactCheck_only _ (parts_sub h0 rfl) (hA _ (appendSetting_only r _ (parts_sub h0 rfl) hC))
  have h3 := hA _ hC
  unfold persist
  (repeat' split) <;> assumption
theorem rwsWrite_only {cs : List Part} {r0 : State} (index sub v n : Nat) (stored : Bool) (s : State) (h0 : [.host,
    .cxl, .pm, .lake, .flash, .weir, .rst, .wl, .seq, .boot, .od, .bus, .upd, .out] ⊆ cs) (hC : OnlyChanges cs r0
    s) :
    OnlyChanges cs r0 (rwsWrite index sub v n stored s).2 := by
  have ho : ∀ (f : Od → Od) t, OnlyChanges cs r0 t → OnlyChanges cs r0 (t.onOd f) := fun f t h =>
    State.onOd_only f t (parts_mem h0 rfl) h
  unfold rwsWrite
  (repeat' split) <;> first
    | exact hC
    | exact persist_only _ _ _ _ (fun t h => ho _ _ h) (parts_sub h0 rfl) hC
    | exact persist_only _ _ _ _ (fun t h => settingActs_only _ _ _ _ (parts_sub h0 rfl) (ho _ _ h)) (parts_sub h0
        rfl) hC
theorem arrayWrite_only {cs : List Part} {r0 : State} (index : Nat) (data : List Byte) (stored : Bool) (s : State)
    (h0 : [.flash, .od] ⊆ cs) (hC : OnlyChanges cs r0 s) :
    OnlyChanges cs r0 (arrayWrite index data stored s).2
    := by
  simp only [List.cons_subset, List.nil_subset, and_true] at h0
  unfold arrayWrite
  (repeat' split) <;> simp_all (maxDischargeDepth := 60) [List.cons_subset, List.nil_subset, and_self,
      persist_only, putList_only]
theorem segmentWrite_only {cs : List Part} {r0 : State} (key index off : Nat) (last : Bool) (data : List Byte)
    (stored : Bool) (s : State) (h0 : [.flash, .od] ⊆ cs) (hC : OnlyChanges cs r0 s) :
    OnlyChanges cs r0
    (segmentWrite key index off last data stored s).2 := by
  simp only [List.cons_subset, List.nil_subset, and_true] at h0
  unfold segmentWrite
  dsimp only
  (repeat' split) <;> simp_all (maxDischargeDepth := 60) [List.cons_subset, List.nil_subset, and_self,
      State.onOd_only, hold_only, persist_only]
theorem writeEntry_only {cs : List Part} {r0 : State} (key index sub : Nat) (last : Bool) (off : Nat) (data : List
    Byte) (stored : Bool) (f : OdField) (s : State) (h0 : [.free, .clk, .host, .cxl, .wb, .dram, .pm, .lake,
    .basin, .flash, .log, .weir, .save, .rst, .ledger, .wl, .fault, .crew, .seq, .boot, .frz, .bat, .od, .bus,
    .upd, .plan, .out] ⊆ cs) (hC : OnlyChanges cs r0 s) :
    OnlyChanges cs r0 (writeEntry key index sub last off
    data stored f s).2 := by
  simp only [List.cons_subset, List.nil_subset, and_true] at h0
  unfold writeEntry
  simp (maxDischargeDepth := 60) only [hC, h0, List.cons_subset, List.nil_subset, and_self, actionWrite_only,
      arrayWrite_only, rwsWrite_only, segmentWrite_only, ite2_only]
theorem writeOp_only {cs : List Part} {r0 : State} (p : Path) (index sub : Nat) (last : Bool) (off : Nat) (data :
    List Byte) (stored : Bool) (s : State) (h0 : [.free, .clk, .host, .cxl, .wb, .dram, .pm, .lake, .basin, .flash,
    .log, .weir, .save, .rst, .ledger, .wl, .fault, .crew, .seq, .boot, .frz, .bat, .od, .bus, .upd, .plan, .out] ⊆
    cs) (hC : OnlyChanges cs r0 s) :
    OnlyChanges cs r0 (writeOp p index sub last off data stored s).2 := by
  simp only [List.cons_subset, List.nil_subset, and_true] at h0
  unfold writeOp
  dsimp only
  (repeat' split) <;> simp (maxDischargeDepth := 60) only [hC, h0, List.cons_subset, List.nil_subset, and_self,
      touch_only, writeEntry_only]

end Sys2Proof.Machine
end

