-- ==== Sys2Proof/Laws/OnlyPorts.lean ====
section
/-! SUPPORT. `OnlyChanges` through the two-wire ports, the clocks, the heads, the mailbox, the registers and SPDM:
    one lemma an operation names every part it can change. -/

namespace Sys2Proof.Machine

/-! ## Bus -/

theorem targetReset_only {cs : List Part} {r0 : State} (p : Port) (s : State) (h0 : [.bus] ⊆ cs) (hC : OnlyChanges
    cs r0 s) :
    OnlyChanges cs r0 (targetReset p s) := by
  simp only [List.cons_subset, List.nil_subset, and_true] at h0
  unfold targetReset
  simp (maxDischargeDepth := 60) only [hC, h0, List.cons_subset, List.nil_subset, and_self, onPort_only]
theorem targetDone_only {cs : List Part} {r0 : State} (p : Port) (s : State) (h0 : [.bus] ⊆ cs) (hC : OnlyChanges
    cs r0 s) :
    OnlyChanges cs r0 (targetDone p s) := by
  simp only [List.cons_subset, List.nil_subset, and_true] at h0
  unfold targetDone
  simp (maxDischargeDepth := 60) only [hC, h0, List.cons_subset, List.nil_subset, and_self, busStop_only,
      targetReset_only]
theorem busRecord_only {cs : List Part} {r0 : State} (p : Port) (event : Nat) (sev : Fin 8) (s : State) (h0 :
    [.host, .cxl, .wl, .bus, .out] ⊆ cs) (hC : OnlyChanges cs r0 s) :
    OnlyChanges cs r0 (busRecord p event sev
    s) := by
  simp only [List.cons_subset, List.nil_subset, and_true] at h0
  unfold busRecord
  simp (maxDischargeDepth := 60) only [hC, h0, List.cons_subset, List.nil_subset, and_self, record_only]
theorem busErrorOp_only {cs : List Part} {r0 : State} (p : Port) (cause : Nat) (s : State) (h0 : [.host, .cxl, .wl,
    .bus, .out] ⊆ cs) (hC : OnlyChanges cs r0 s) :
    OnlyChanges cs r0 (busErrorOp p cause s) := by
  simp only [List.cons_subset, List.nil_subset, and_true] at h0
  unfold busErrorOp
  simp (maxDischargeDepth := 60) only [hC, h0, List.cons_subset, List.nil_subset, and_self, busRecord_only,
      onPort_only, targetReset_only]
theorem stretchOp_only {cs : List Part} {r0 : State} (p : Port) (s : State) (h0 : [.host, .cxl, .wl, .bus, .out] ⊆
    cs) (hC : OnlyChanges cs r0 s) :
    OnlyChanges cs r0 (stretchOp p s) := by
  simp only [List.cons_subset, List.nil_subset, and_true] at h0
  unfold stretchOp
  simp (maxDischargeDepth := 60) only [hC, h0, List.cons_subset, List.nil_subset, and_self, busRecord_only,
      busStop_only, onPort_only]
theorem lossOp_only {cs : List Part} {r0 : State} (a : ArbLoss) (s : State) (h0 : [.host, .cxl, .wl, .bus, .out] ⊆
    cs) (hC : OnlyChanges cs r0 s) :
    OnlyChanges cs r0 (lossOp a s) := by
  simp only [List.cons_subset, List.nil_subset, and_true] at h0
  unfold lossOp
  simp (maxDischargeDepth := 60) only [hC, h0, List.cons_subset, List.nil_subset, and_self, busRecord_only,
      busStop_only, onPort_only, ite_only]
theorem hangOp_only {cs : List Part} {r0 : State} (p : Port) (stopMade : Bool) (s : State) (h0 : [.host, .cxl, .wl,
    .bus, .out] ⊆ cs) (hC : OnlyChanges cs r0 s) :
    OnlyChanges cs r0 (hangOp p stopMade s) := by
  simp only [List.cons_subset, List.nil_subset, and_true] at h0
  unfold hangOp
  simp (maxDischargeDepth := 60) only [hC, h0, List.cons_subset, List.nil_subset, and_self, busRecord_only,
      busStop_only, onPort_only, ite_only]
theorem serviced_only {cs : List Part} {r0 : State} (s : State) (h0 : [.bus] ⊆ cs) (hC : OnlyChanges cs r0 s) :
   
    OnlyChanges cs r0 (serviced s) := by
  simp only [List.cons_subset, List.nil_subset, and_true] at h0
  unfold serviced
  simp (maxDischargeDepth := 60) only [hC, h0, List.cons_subset, List.nil_subset, and_self, onPort_only]
theorem statusReadOp_only {cs : List Part} {r0 : State} (s : State) (h0 : [.bus, .out] ⊆ cs) (hC : OnlyChanges cs
    r0 s) :
    OnlyChanges cs r0 (statusReadOp s) := by
  simp only [List.cons_subset, List.nil_subset, and_true] at h0
  unfold statusReadOp
  simp (maxDischargeDepth := 60) only [hC, h0, List.cons_subset, List.nil_subset, and_self, onPort_only, say_only,
      serviced_only, targetDone_only]
theorem alertOp_only {cs : List Part} {r0 : State} (s : State) (h0 : [.free, .bus, .out] ⊆ cs) (hC : OnlyChanges cs
    r0 s) :
    OnlyChanges cs r0 (alertOp s) := by
  simp only [List.cons_subset, List.nil_subset, and_true] at h0
  unfold alertOp
  simp (maxDischargeDepth := 60) only [hC, h0, List.cons_subset, List.nil_subset, and_self, onPort_only, say_only,
      serviced_only, targetDone_only, free_only]
theorem hostNotify_only {cs : List Part} {r0 : State} (s : State) (h0 : [.host, .cxl, .wl, .bus, .out] ⊆ cs) (hC :
    OnlyChanges cs r0 s) :
    OnlyChanges cs r0 (hostNotify s) := by
  simp only [List.cons_subset, List.nil_subset, and_true] at h0
  unfold hostNotify
  simp (maxDischargeDepth := 60) only [hC, h0, List.cons_subset, List.nil_subset, and_self, busRecord_only,
      busStop_only, onPort_only, say_only]
theorem repeatCall_only {cs : List Part} {r0 : State} (s : State) (h0 : [.bus] ⊆ cs) (hC : OnlyChanges cs r0 s) :
 
      OnlyChanges cs r0 (repeatCall s) := by
  simp only [List.cons_subset, List.nil_subset, and_true] at h0
  unfold repeatCall
  simp (maxDischargeDepth := 60) only [hC, h0, List.cons_subset, List.nil_subset, and_self, busStop_only,
      onPort_only]
theorem callTimeout_only {cs : List Part} {r0 : State} (s : State) (h0 : [.host, .cxl, .wl, .bus, .out] ⊆ cs) (hC :
    OnlyChanges cs r0 s) :
    OnlyChanges cs r0 (callTimeout s) := by
  simp only [List.cons_subset, List.nil_subset, and_true] at h0
  unfold callTimeout
  simp (maxDischargeDepth := 60) only [hC, h0, List.cons_subset, List.nil_subset, and_self, hostNotify_only,
      onPort_only, repeatCall_only, ite_only]
theorem tempRecord_only {cs : List Part} {r0 : State} (n : Nat) (s : State) (h0 : [.free, .host, .cxl, .wl, .bus,
    .out] ⊆ cs) (hC : OnlyChanges cs r0 s) :
    OnlyChanges cs r0 (tempRecord n s) := by
  simp only [List.cons_subset, List.nil_subset, and_true] at h0
  unfold tempRecord
  simp (maxDischargeDepth := 60) only [hC, h0, List.cons_subset, List.nil_subset, and_self, record_only, free_only]
theorem decayStep_only {cs : List Part} {r0 : State} (s : State) (h0 : [.host, .cxl, .pm, .lake, .weir, .wl, .bus,
    .out] ⊆ cs) (hC : OnlyChanges cs r0 s) :
    OnlyChanges cs r0 (decayStep s) := by
  simp only [List.cons_subset, List.nil_subset, and_true] at h0
  unfold decayStep
  simp (maxDischargeDepth := 60) only [hC, h0, List.cons_subset, List.nil_subset, and_self, weirCheck_only,
      ite_only]
theorem lagStep_only {cs : List Part} {r0 : State} (s : State) (h0 : [.free, .clk, .host, .cxl, .wb, .dram, .pm,
    .lake, .basin, .flash, .log, .weir, .save, .rst, .ledger, .wl, .fault, .crew, .seq, .boot, .frz, .bat, .od,
    .bus, .upd, .plan, .out] ⊆ cs) (hC : OnlyChanges cs r0 s) :
    OnlyChanges cs r0 (lagStep s) := by
  simp only [List.cons_subset, List.nil_subset, and_true] at h0
  unfold lagStep
  simp (maxDischargeDepth := 60) only [hC, h0, List.cons_subset, List.nil_subset, and_self, releaseLagged_only,
      ite_only]
theorem noAssembly_only {cs : List Part} {r0 : State} (src : Nat) (s : State) (h0 : [.bus] ⊆ cs) (hC : OnlyChanges
    cs r0 s) :
    OnlyChanges cs r0 (noAssembly src s) := by
  simp only [List.cons_subset, List.nil_subset, and_true] at h0
  unfold noAssembly
  simp (maxDischargeDepth := 60) only [hC, h0, State.onBus_only]
theorem discard_only {cs : List Part} {r0 : State} (src : Nat) (s : State) (h0 : [.host, .cxl, .wl, .bus, .out] ⊆
    cs) (hC : OnlyChanges cs r0 s) :
    OnlyChanges cs r0 (discard src s) := by
  simp only [List.cons_subset, List.nil_subset, and_true] at h0
  unfold discard
  simp (maxDischargeDepth := 60) only [hC, h0, List.cons_subset, List.nil_subset, and_self, busErrorOp_only,
      noAssembly_only]
theorem longPacket_only {cs : List Part} {r0 : State} (s : State) (h0 : [.free, .host, .cxl, .wl, .bus, .out] ⊆ cs)
    (hC : OnlyChanges cs r0 s) :
    OnlyChanges cs r0 (longPacket s) := by
  simp only [List.cons_subset, List.nil_subset, and_true] at h0
  unfold longPacket
  simp (maxDischargeDepth := 60) only [hC, h0, List.cons_subset, List.nil_subset, and_self, busErrorOp_only,
      free_only]

/-! ## Clocks -/

theorem lockFault_only {cs : List Part} {r0 : State} (cls : FClass) (key : BitVec 8) (s : State) (h0 : [.free,
    .clk, .host, .cxl, .wb, .dram, .pm, .lake, .basin, .flash, .log, .weir, .save, .rst, .ledger, .wl, .fault,
    .crew, .seq, .boot, .frz, .bat, .od, .bus, .upd, .plan, .out] ⊆ cs) (hC : OnlyChanges cs r0 s) :
   
    OnlyChanges cs r0 (lockFault cls key s) := by
  simp only [List.cons_subset, List.nil_subset, and_true] at h0
  unfold lockFault
  simp (maxDischargeDepth := 60) only [hC, h0, List.cons_subset, List.nil_subset, and_self, reportFault_only]
theorem lockLost_only {cs : List Part} {r0 : State} (key : BitVec 8) (s : State) (h0 : [.free, .clk, .host, .cxl,
    .wb, .dram, .pm, .lake, .basin, .flash, .log, .weir, .save, .rst, .ledger, .wl, .fault, .crew, .seq, .boot,
    .frz, .bat, .od, .bus, .upd, .plan, .out] ⊆ cs) (hC : OnlyChanges cs r0 s) :
    OnlyChanges cs r0 (lockLost
    key s) := by
  simp only [List.cons_subset, List.nil_subset, and_true] at h0
  unfold lockLost
  simp (maxDischargeDepth := 60) only [hC, h0, List.cons_subset, List.nil_subset, and_self, State.onClk_only,
      chipFatal_only, lockFault_only, ite_only]

/-! ## Host -/

theorem notServedFault_only {cs : List Part} {r0 : State} (h : Fin 2) (typ : Fin 16) (hpa : Nat) (s : State) (h0 :
    [.free, .clk, .host, .cxl, .wb, .dram, .pm, .lake, .basin, .flash, .log, .weir, .save, .rst, .ledger, .wl,
    .fault, .crew, .seq, .boot, .frz, .bat, .od, .bus, .upd, .plan, .out] ⊆ cs) (hC : OnlyChanges cs r0 s) :
   
    OnlyChanges cs r0 (notServedFault h typ hpa s) := by
  simp only [List.cons_subset, List.nil_subset, and_true] at h0
  unfold notServedFault
  simp (maxDischargeDepth := 60) only [hC, h0, List.cons_subset, List.nil_subset, and_self, raise_only]
theorem readAt_only {cs : List Part} {r0 : State} (h : Fin 2) (id line : Nat) (res : DramRead) (s : State) (h0 :
    [.free, .clk, .host, .cxl, .wb, .dram, .pm, .lake, .basin, .flash, .log, .weir, .save, .rst, .ledger, .wl,
    .fault, .crew, .seq, .boot, .frz, .bat, .od, .bus, .upd, .plan, .out] ⊆ cs) (hC : OnlyChanges cs r0 s) :
   
    OnlyChanges cs r0 (readAt h id line res s) := by
  simp only [List.cons_subset, List.nil_subset, and_true] at h0
  unfold readAt
  simp (maxDischargeDepth := 60) only [hC, h0, List.cons_subset, List.nil_subset, and_self, answerPoison_only,
      holdRead_only, serveRead_only, startFetch_only, ite_only]
theorem enterBuffer_only {cs : List Part} {r0 : State} (e : WEntry) (s : State) (h0 : [.wb] ⊆ cs) (hC : OnlyChanges
    cs r0 s) :
    OnlyChanges cs r0 (enterBuffer e s).1 := by
  simp only [List.cons_subset, List.nil_subset, and_true] at h0
  unfold enterBuffer
  simp (maxDischargeDepth := 60) only [hC, h0, State.onWb_only]
theorem filterEntry_only {cs : List Part} {r0 : State} (i : Nat) (e : WEntry) (s : State) (h0 : [.host, .cxl, .wb,
    .pm, .lake, .flash, .log, .weir, .rst, .ledger, .wl, .bus, .out] ⊆ cs) (hC : OnlyChanges cs r0 s) :
   
    OnlyChanges cs r0 (filterEntry i e s) := by
  simp only [List.cons_subset, List.nil_subset, and_true] at h0
  unfold filterEntry
  simp (maxDischargeDepth := 60) only [hC, h0, List.cons_subset, List.nil_subset, and_self, onEntry_only,
      setRestored_only, startFetch_only, testOrWait_only, ite_only]
theorem writeAt_only {cs : List Part} {r0 : State} (h : Fin 2) (id line : Nat) (data : Line) (be : BitVec 64)
    (poison : Bool) (s : State) (h0 : [.host, .cxl, .wb, .pm, .lake, .flash, .log, .weir, .rst, .ledger, .wl, .bus,
    .out] ⊆ cs) (hC : OnlyChanges cs r0 s) :
    OnlyChanges cs r0 (writeAt h id line data be poison s) := by
  simp only [List.cons_subset, List.nil_subset, and_true] at h0
  unfold writeAt
  simp (maxDischargeDepth := 60) only [hC, h0, List.cons_subset, List.nil_subset, and_self, enterBuffer_only,
      filterEntry_only, say_only, ite_only]
theorem rejectMark_only {cs : List Part} {r0 : State} (s : State) (h0 : [.host, .out] ⊆ cs) (hC : OnlyChanges cs r0
    s) :
    OnlyChanges cs r0 (rejectMark s) := by
  simp only [List.cons_subset, List.nil_subset, and_true] at h0
  unfold rejectMark
  simp (maxDischargeDepth := 60) only [hC, h0, List.cons_subset, List.nil_subset, and_self, State.onHost_only,
      vector_only]
theorem rejectSettle_only {cs : List Part} {r0 : State} (s : State) (h0 : [.host, .out] ⊆ cs) (hC : OnlyChanges cs
    r0 s) :
    OnlyChanges cs r0 (rejectSettle s) := by
  simp only [List.cons_subset, List.nil_subset, and_true] at h0
  unfold rejectSettle
  simp (maxDischargeDepth := 60) only [hC, h0, List.cons_subset, List.nil_subset, and_self, State.onHost_only,
      vector_only]
theorem acceptMark_only {cs : List Part} {r0 : State} (v : Nat) (s : State) (h0 : [.host, .pm] ⊆ cs) (hC :
    OnlyChanges cs r0 s) :
    OnlyChanges cs r0 (acceptMark v s) := by
  simp only [List.cons_subset, List.nil_subset, and_true] at h0
  unfold acceptMark
  simp (maxDischargeDepth := 60) only [hC, h0, List.cons_subset, List.nil_subset, and_self, State.onHost_only,
      closeNewest_only]
theorem acceptSettle_only {cs : List Part} {r0 : State} (n : Nat) (s : State) (h0 : [.host, .pm, .lake] ⊆ cs) (hC :
    OnlyChanges cs r0 s) :
    OnlyChanges cs r0 (acceptSettle n s) := by
  simp only [List.cons_subset, List.nil_subset, and_true] at h0
  unfold acceptSettle
  simp (maxDischargeDepth := 60) only [hC, h0, List.cons_subset, List.nil_subset, and_self, State.onHost_only,
      closeForSettle_only, coverSet_only, sprintCheck_only, ite_only]

/-! ## Mailbox -/

theorem injectOp_only {cs : List Part} {r0 : State} (h : Fin 2) (line : Nat) (s : State) (h0 : [.host, .cxl, .wb,
    .dram, .out] ⊆ cs) (hC : OnlyChanges cs r0 s) :
    OnlyChanges cs r0 (injectOp h line s) := by
  simp only [List.cons_subset, List.nil_subset, and_true] at h0
  unfold injectOp
  simp (maxDischargeDepth := 60) only [hC, h0, List.cons_subset, List.nil_subset, and_self, flush_only, mbox_only,
      setPoison_only]
theorem startErase_only {cs : List Part} {r0 : State} (whole : Bool) (h : Fin 2) (s : State) (h0 : [.pm, .lake,
    .flash, .rst, .upd] ⊆ cs) (hC : OnlyChanges cs r0 s) :
    OnlyChanges cs r0 (startErase whole h s) := by
  simp only [List.cons_subset, List.nil_subset, and_true] at h0
  unfold startErase
  simp (maxDischargeDepth := 60) only [hC, h0, List.cons_subset, List.nil_subset, and_self, State.onFlash_only,
      State.onLake_only, State.onRst_only, State.onUpd_only, sprintCheck_only]
theorem eraseMaps_only {cs : List Part} {r0 : State} (s : State) (h0 : [.host, .pm, .lake, .log, .ledger, .out] ⊆
    cs) (hC : OnlyChanges cs r0 s) :
    OnlyChanges cs r0 (eraseMaps s) := by
  simp only [List.cons_subset, List.nil_subset, and_true] at h0
  unfold eraseMaps
  simp (maxDischargeDepth := 60) only [hC, h0, List.cons_subset, List.nil_subset, and_self, State.onLake_only,
      State.onLedger_only, State.onLog_only, State.onPm_only, setCoarsened_only]
theorem eraseBasin_only {cs : List Part} {r0 : State} (s : State) (h0 : [.basin] ⊆ cs) (hC : OnlyChanges cs r0 s)
    :
    OnlyChanges cs r0 (eraseBasin s) := by
  simp only [List.cons_subset, List.nil_subset, and_true] at h0
  unfold eraseBasin
  simp (maxDischargeDepth := 60) only [hC, h0, State.onBasin_only]
theorem storeKey_only {cs : List Part} {r0 : State} (key : Nat) (s : State) (h0 : [.ledger] ⊆ cs) (hC : OnlyChanges
    cs r0 s) :
    OnlyChanges cs r0 (storeKey key s) := by
  simp only [List.cons_subset, List.nil_subset, and_true] at h0
  unfold storeKey
  simp (maxDischargeDepth := 60) only [hC, h0, State.onLedger_only]
theorem sanitizedOp_only {cs : List Part} {r0 : State} (key : Nat) (s : State) (h0 : [.free, .host, .cxl, .wb, .pm,
    .lake, .basin, .flash, .log, .weir, .rst, .ledger, .wl, .bus, .out] ⊆ cs) (hC : OnlyChanges cs r0 s) :
   
    OnlyChanges cs r0 (sanitizedOp key s) := by
  simp only [List.cons_subset, List.nil_subset, and_true] at h0
  unfold sanitizedOp
  dsimp only
  (repeat' split) <;> simp (maxDischargeDepth := 60) only [hC, h0, List.cons_subset, List.nil_subset, and_self,
      State.onFlash_only, State.onRst_only, commit_only, eraseBasin_only, eraseMaps_only, mbox_only, retest_only,
      storeKey_only, weirCheck_only]

/-! ## RegCommands -/

theorem readAction_only {cs : List Part} {r0 : State} (a off size : Nat) (s : State) (h0 : [.tb, .weir, .seq] ⊆ cs)
    (hC : OnlyChanges cs r0 s) :
    OnlyChanges cs r0 (readAction a off size s) := by
  simp only [List.cons_subset, List.nil_subset, and_true] at h0
  unfold readAction
  (repeat' split) <;> simp (maxDischargeDepth := 60) only [hC, h0, List.cons_subset, List.nil_subset, and_self,
      State.onTb_only, State.onWeir_only, onRail_only]
theorem windowFault_only {cs : List Part} {r0 : State} (m : MasterId) (typ : Fin 16) (addr : Nat) (s : State) (h0 :
    [.free, .clk, .host, .cxl, .wb, .dram, .pm, .lake, .basin, .flash, .log, .weir, .save, .rst, .ledger, .wl,
    .fault, .crew, .seq, .boot, .frz, .bat, .od, .bus, .upd, .plan, .out] ⊆ cs) (hC : OnlyChanges cs r0 s) :
   
    OnlyChanges cs r0 (windowFault m typ addr s) := by
  simp only [List.cons_subset, List.nil_subset, and_true] at h0
  unfold windowFault
  simp (maxDischargeDepth := 60) only [hC, h0, List.cons_subset, List.nil_subset, and_self, raise_only, free_only]
theorem xbarRead_only {cs : List Part} {r0 : State} (addr size : Nat) (m : MasterId) (s : State) (h0 : [.free, .tb,
    .clk, .host, .cxl, .wb, .dram, .pm, .lake, .basin, .flash, .log, .weir, .save, .rst, .ledger, .wl, .fault,
    .crew, .seq, .boot, .frz, .bat, .od, .bus, .upd, .plan, .out] ⊆ cs) (hC : OnlyChanges cs r0 s) :
   
    OnlyChanges cs r0 (xbarRead addr size m s) := by
  simp only [List.cons_subset, List.nil_subset, and_true] at h0
  unfold xbarRead
  (repeat' split) <;> simp (maxDischargeDepth := 60) only [hC, h0, List.cons_subset, List.nil_subset, and_self,
      readAction_only, say_only, windowFault_only, ite_only]
theorem pageFault_only {cs : List Part} {r0 : State} (h : Fin 2) (typ : Fin 16) (off : Nat) (s : State) (h0 :
    [.free, .clk, .host, .cxl, .wb, .dram, .pm, .lake, .basin, .flash, .log, .weir, .save, .rst, .ledger, .wl,
    .fault, .crew, .seq, .boot, .frz, .bat, .od, .bus, .upd, .plan, .out] ⊆ cs) (hC : OnlyChanges cs r0 s) :
   
    OnlyChanges cs r0 (pageFault h typ off s) := by
  simp only [List.cons_subset, List.nil_subset, and_true] at h0
  unfold pageFault
  simp (maxDischargeDepth := 60) only [hC, h0, List.cons_subset, List.nil_subset, and_self, raise_only]
theorem barRead_only {cs : List Part} {r0 : State} (h : Fin 2) (off size : Nat) (s : State) (h0 : [.free, .clk,
    .host, .cxl, .wb, .dram, .pm, .lake, .basin, .flash, .log, .weir, .save, .rst, .ledger, .wl, .fault, .crew,
    .seq, .boot, .frz, .bat, .od, .bus, .upd, .plan, .out] ⊆ cs) (hC : OnlyChanges cs r0 s) :
    OnlyChanges cs r0
    (barRead h off size s) := by
  simp only [List.cons_subset, List.nil_subset, and_true] at h0
  unfold barRead
  simp (maxDischargeDepth := 60) only [hC, h0, List.cons_subset, List.nil_subset, and_self, pageFault_only,
      say_only, ite_only]
theorem headRead_only {cs : List Part} {r0 : State} (s : State) (x1 : RegTarget) (h0 : [.free, .clk, .host, .cxl,
    .wb, .dram, .pm, .lake, .basin, .flash, .log, .weir, .save, .rst, .ledger, .wl, .fault, .crew, .seq, .boot,
    .frz, .bat, .od, .bus, .upd, .plan, .out] ⊆ cs) (hC : OnlyChanges cs r0 s) :
    OnlyChanges cs r0 (headRead s
    x1) := by
  simp only [List.cons_subset, List.nil_subset, and_true] at h0
  unfold headRead
  (repeat' split) <;> simp (maxDischargeDepth := 60) only [hC, h0, List.cons_subset, List.nil_subset, and_self,
      barRead_only, say_only]
theorem serialRead_only {cs : List Part} {r0 : State} (off size : Nat) (m : MasterId) (s : State) (h0 : [.free,
    .clk, .host, .cxl, .wb, .dram, .pm, .lake, .basin, .flash, .log, .weir, .save, .rst, .ledger, .wl, .fault,
    .crew, .seq, .boot, .frz, .bat, .od, .bus, .upd, .plan, .out] ⊆ cs) (hC : OnlyChanges cs r0 s) :
   
    OnlyChanges cs r0 (serialRead off size m s) := by
  simp only [List.cons_subset, List.nil_subset, and_true] at h0
  unfold serialRead
  simp (maxDischargeDepth := 60) only [hC, h0, List.cons_subset, List.nil_subset, and_self, say_only,
      windowFault_only, free_only, ite_only]
theorem configRetry_only {cs : List Part} {r0 : State} (t : RegTarget) (h : Fin 2) (s : State) (h0 : [.out] ⊆ cs)
    (hC : OnlyChanges cs r0 s) :
    OnlyChanges cs r0 (configRetry t h s) := by
  simp only [List.cons_subset, List.nil_subset, and_true] at h0
  unfold configRetry
  (repeat' split) <;> simp (maxDischargeDepth := 60) only [hC, h0, List.cons_subset, List.nil_subset, and_self,
      say_only]
theorem badWriter_only {cs : List Part} {r0 : State} (m : MasterId) (addr : Nat) (s : State) (h0 : [.free, .clk,
    .host, .cxl, .wb, .dram, .pm, .lake, .basin, .flash, .log, .weir, .save, .rst, .ledger, .wl, .fault, .crew,
    .seq, .boot, .frz, .bat, .od, .bus, .upd, .plan, .out] ⊆ cs) (hC : OnlyChanges cs r0 s) :
    OnlyChanges cs r0
    (badWriter m addr s) := by
  simp only [List.cons_subset, List.nil_subset, and_true] at h0
  unfold badWriter
  simp (maxDischargeDepth := 60) only [hC, h0, List.cons_subset, List.nil_subset, and_self, raise_only, free_only]
theorem serialWrite_only {cs : List Part} {r0 : State} (off size : Nat) (m : MasterId) (v : Word) (s : State) (h0 :
    [.free, .clk, .host, .cxl, .wb, .dram, .pm, .lake, .basin, .flash, .log, .weir, .save, .rst, .ledger, .wl,
    .fault, .crew, .seq, .boot, .frz, .bat, .od, .bus, .upd, .plan, .out] ⊆ cs) (hC : OnlyChanges cs r0 s) :
   
    OnlyChanges cs r0 (serialWrite off size m v s) := by
  simp only [List.cons_subset, List.nil_subset, and_true] at h0
  unfold serialWrite
  simp (maxDischargeDepth := 60) only [hC, h0, List.cons_subset, List.nil_subset, and_self, State.onBoot_only,
      badWriter_only, ite_only]
theorem clearPersist_only {cs : List Part} {r0 : State} (v : Word) (s : State) (h0 : [.host] ⊆ cs) (hC :
    OnlyChanges cs r0 s) :
    OnlyChanges cs r0 (clearPersist v s) := by
  simp only [List.cons_subset, List.nil_subset, and_true] at h0
  unfold clearPersist
  simp (maxDischargeDepth := 60) only [hC, h0, State.onHost_only]
theorem writeFields_only {cs : List Part} {r0 : State} (a off size : Nat) (v : Word) (s : State) (h0 : [.host, .pm,
    .rst, .fault, .frz, .bat] ⊆ cs) (hC : OnlyChanges cs r0 s) :
    OnlyChanges cs r0 (writeFields a off size v s)
    := by
  simp only [List.cons_subset, List.nil_subset, and_true] at h0
  unfold writeFields
  simp (maxDischargeDepth := 60) only [hC, h0, List.cons_subset, List.nil_subset, and_self, State.onFault_only,
      State.onFrz_only, State.onPm_only, State.onRst_only, clearPersist_only, onStr_only, ite_only]
theorem maskVector_only {cs : List Part} {r0 : State} (h : Fin 2) (v : Fin 8) (masked : Bool) (s : State) (h0 :
    [.host, .out] ⊆ cs) (hC : OnlyChanges cs r0 s) :
    OnlyChanges cs r0 (maskVector h v masked s) := by
  simp only [List.cons_subset, List.nil_subset, and_true] at h0
  unfold maskVector
  simp (maxDischargeDepth := 60) only [hC, h0, List.cons_subset, List.nil_subset, and_self, onHead_only,
      vectorOn_only, ite_only]
theorem hdmWrite_only {cs : List Part} {r0 : State} (h : Fin 2) (idx : Fin 4) (base size ways gran : Nat) (commit
    lock : Bool) (s : State) (h0 : [.host] ⊆ cs) (hC : OnlyChanges cs r0 s) :
    OnlyChanges cs r0 (hdmWrite h idx
    base size ways gran commit lock s) := by
  simp only [List.cons_subset, List.nil_subset, and_true] at h0
  unfold hdmWrite
  simp (maxDischargeDepth := 60) only [hC, h0, List.cons_subset, List.nil_subset, and_self, onHead_only, ite_only]
theorem hdmBarWrite_only {cs : List Part} {r0 : State} (h : Fin 2) (n : Fin 4) (k off size : Nat) (v : Word) (s :
    State) (h0 : [.host] ⊆ cs) (hC : OnlyChanges cs r0 s) :
    OnlyChanges cs r0 (hdmBarWrite h n k off size v s)
    := by
  simp only [List.cons_subset, List.nil_subset, and_true] at h0
  unfold hdmBarWrite
  simp (maxDischargeDepth := 60) only [hC, h0, List.cons_subset, List.nil_subset, and_self, hdmWrite_only,
      onHead_only, ite_only]
theorem barStore_only {cs : List Part} {r0 : State} (h : Fin 2) (a off size : Nat) (v : Word) (s : State) (h0 :
    [.host] ⊆ cs) (hC : OnlyChanges cs r0 s) :
    OnlyChanges cs r0 (barStore h a off size v s) := by
  simp only [List.cons_subset, List.nil_subset, and_true] at h0
  unfold barStore
  simp (maxDischargeDepth := 60) only [hC, h0, List.cons_subset, List.nil_subset, and_self, onHead_only]
theorem mailboxOp_only {cs : List Part} {r0 : State} (h : Fin 2) (s : State) (x2 : MailboxCmd) (h0 : [.free, .host,
    .cxl, .out] ⊆ cs) (hC : OnlyChanges cs r0 s) :
    OnlyChanges cs r0 (mailboxOp h s x2) := by
  simp only [List.cons_subset, List.nil_subset, and_true] at h0
  unfold mailboxOp
  (repeat' split) <;> simp (maxDischargeDepth := 60) only [hC, h0, List.cons_subset, List.nil_subset, and_self,
      State.onCxl_only, mbox_only, free_only]

/-! ## Spdm -/

theorem spdm_only {cs : List Part} {r0 : State} (p : Path) (ok : Bool) (bytes : List Byte) (s : State) (h0 : [.out]
    ⊆ cs) (hC : OnlyChanges cs r0 s) :
    OnlyChanges cs r0 (spdm p ok bytes s) := by
  simp only [List.cons_subset, List.nil_subset, and_true] at h0
  unfold spdm
  simp (maxDischargeDepth := 60) only [hC, h0, List.cons_subset, List.nil_subset, and_self, say_only]
theorem measureOp_only {cs : List Part} {r0 : State} (p : Path) (index : Nat) (s : State) (h0 : [.free, .out] ⊆ cs)
    (hC : OnlyChanges cs r0 s) :
    OnlyChanges cs r0 (measureOp p index s) := by
  simp only [List.cons_subset, List.nil_subset, and_true] at h0
  unfold measureOp
  simp (maxDischargeDepth := 60) only [hC, h0, List.cons_subset, List.nil_subset, and_self, spdm_only, free_only,
      ite_only]
theorem openSecured_only {cs : List Part} {r0 : State} (p : Path) (id : Nat) (owner : Bool) (s : State) (h0 :
    [.upd, .out] ⊆ cs) (hC : OnlyChanges cs r0 s) :
    OnlyChanges cs r0 (openSecured p id owner s) := by
  simp only [List.cons_subset, List.nil_subset, and_true] at h0
  unfold openSecured
  simp (maxDischargeDepth := 60) only [hC, h0, List.cons_subset, List.nil_subset, and_self, State.onUpd_only,
      spdm_only, ite_only]
theorem endSecured_only {cs : List Part} {r0 : State} (id : Nat) (s : State) (h0 : [.host, .cxl, .wl, .od, .bus,
    .upd, .out] ⊆ cs) (hC : OnlyChanges cs r0 s) :
    OnlyChanges cs r0 (endSecured id s) := by
  simp only [List.cons_subset, List.nil_subset, and_true] at h0
  unfold endSecured
  dsimp only
  (repeat' split) <;> simp (maxDischargeDepth := 60) only [hC, h0, List.cons_subset, List.nil_subset, and_self,
      State.onUpd_only, endSessions_only, releaseSession_only]
theorem ideKeyOp_only {cs : List Part} {r0 : State} (p : Path) (cxlMem : Bool) (stream key : Nat) (s : State) (h0 :
    [.upd, .out] ⊆ cs) (hC : OnlyChanges cs r0 s) :
    OnlyChanges cs r0 (ideKeyOp p cxlMem stream key s) := by
  simp only [List.cons_subset, List.nil_subset, and_true] at h0
  unfold ideKeyOp
  (repeat' split) <;> simp (maxDischargeDepth := 60) only [hC, h0, List.cons_subset, List.nil_subset, and_self,
      State.onUpd_only, spdm_only]
theorem spdmOp_only {cs : List Part} {r0 : State} (p : Path) (req : SpdmReq) (s : State) (h0 : [.free, .host, .cxl,
    .wl, .od, .bus, .upd, .out] ⊆ cs) (hC : OnlyChanges cs r0 s) :
    OnlyChanges cs r0 (spdmOp p req s) := by
  simp only [List.cons_subset, List.nil_subset, and_true] at h0
  unfold spdmOp
  (repeat' split) <;> simp (maxDischargeDepth := 60) only [hC, h0, List.cons_subset, List.nil_subset, and_self,
      endSecured_only, ideKeyOp_only, measureOp_only, openSecured_only, spdm_only]
theorem certifyOp_only {cs : List Part} {r0 : State} (chain : List Byte) (s : State) (h0 : [.host, .cxl, .wl, .bus,
    .upd, .out] ⊆ cs) (hC : OnlyChanges cs r0 s) :
    OnlyChanges cs r0 (certifyOp chain s) := by
  simp only [List.cons_subset, List.nil_subset, and_true] at h0
  unfold certifyOp
  simp (maxDischargeDepth := 60) only [hC, h0, List.cons_subset, List.nil_subset, and_self, State.onUpd_only,
      bootWrite_only, record_only]

end Sys2Proof.Machine
end

