-- ==== Sys2Proof/Machine/Pins.lean ====
section
/-! DEFINITION. The balls as functions of State (R448, R473, R475 to R480, R482): the level at which the device holds each
signal of its own, its reset state until the owning function drives it. -/

namespace Sys2Proof.Machine

/-- What the device does at a ball: a level, released (open-drain), high impedance, a clock stopped with T low, a transmitter's
electrical idle, a pulse-width drive of so many 255ths, the traffic of a working interface, or no connection (R473). -/
inductive Drive where
  | low | high | released | highZ | stopped | electricalIdle
  | pwm (duty : Nat)
  | traffic
  | notConnected
  deriving DecidableEq, Repr

/-- Signals of one DDR channel that the device drives (R477). -/
inductive DdrSignal where
  | dq | dqs | dca | dpar | dcsN | dck | drstN
  deriving DecidableEq, Repr

/-- Signals of one flash channel that the device drives (R479). -/
inductive FlashSignal where
  | dq | dqs | re | ceN | cle | ale | weN
  deriving DecidableEq, Repr

/-- Balls that the device drives (R475, R477, R479, R480). -/
inductive Ball where
  | hstTx (lane : Fin 16)
  | clkreqN
  | ddr (ch : Fin 8) (sig : DdrSignal)
  | fls (ch : Fin 32) (sig : FlashSignal)
  | flsWpN
  | pwrfailN | catch | holdwaterN | batswN | mrstN | frstN
  | railEn (n : Fin 16)
  | chgEn (x : Str)
  | chgIset (x : Str)
  | alertN | tdo | xspiClk | xspiCsN | xspiDq
  deriving DecidableEq, Repr

/-- An open-drain ball: low while driven, else released; without VDD_AON it neither drives nor clamps (R448, R480). -/
def openDrain (s : State) (drive : Bool) : Drive := if s.seq.vddAon && drive then .low else .released

/-- A push-pull ball of the VDD_AON domain (R480). -/
def pushPull (s : State) (high : Bool) : Drive := if !s.seq.vddAon then .highZ else if high then .high else .low

/-- The head a host lane belongs to (R476): lanes 8 to 15 are head 1's in two-head mode, and not connected on the TK7232-C. -/
def laneHead (s : State) (lane : Fin 16) : Option (Fin 2) :=
  match s.cfg.variant with
  | .tk7232c => if lane.val < 8 then some 0 else none
  | _ => if twoHeads s && decide (8 ≤ lane.val) then some 1 else some 0

/-- The reset state of a DDR channel's signal (R477). -/
def DdrSignal.atReset : DdrSignal → Drive
  | .dq => .highZ
  | .dqs => .highZ
  | .dca => .low
  | .dpar => .low
  | .dcsN => .high
  | .dck => .stopped
  | .drstN => .low

/-- The reset state of a flash channel's signal (R479); RE is T high with C low. -/
def FlashSignal.atReset : FlashSignal → Drive
  | .dq => .highZ
  | .dqs => .highZ
  | .re => .high
  | .ceN => .high
  | .cle => .low
  | .ale => .low
  | .weN => .high

/-- What the device drives at a ball (R298, R320, R329, R372, R381, R448, R473 to R480). -/
def drives (s : State) : Ball → Drive
  | .hstTx lane => match laneHead s lane with
    | none => .notConnected
    | some h => if (headOf s h).link then .traffic else .electricalIdle
  | .clkreqN => openDrain s s.host.clkreq
  | .ddr ch sig =>
    if s.cfg.dramChannels ≤ ch.val then .notConnected
    else match s.dram.channels[ch.val]? with
      | some c => if c.state = .notStarted ∨ c.state = .isolated then sig.atReset else .traffic
      | none => sig.atReset
  | .fls ch sig =>
    if s.cfg.flashChannels ≤ ch.val then .notConnected
    else match s.flash.channels[ch.val]? with
      | some c => if c.state = .notPresent ∨ c.state = .withdrawn then sig.atReset else .traffic
      | none => sig.atReset
  | .flsWpN => if s.flash.wpN then .low else .high
  | .pwrfailN => openDrain s s.seq.pwrfailDrive
  | .catch => openDrain s s.seq.catchDrive
  | .holdwaterN => .released
  | .batswN => openDrain s s.seq.batsw
  | .mrstN => pushPull s (!s.seq.mrst)
  | .frstN => pushPull s (!s.seq.frst)
  | .railEn n => pushPull s (railAt s n.val).en
  | .chgEn x => pushPull s (strOf s x).charging
  | .chgIset x =>
    if !s.seq.vddAon then .highZ else if (strOf s x).iset = 0 then .low else .pwm (strOf s x).iset.toNat
  | .alertN => openDrain s s.bus.mgmt.alert
  | .tdo => .highZ
  | .xspiClk => if s.seq.st = .dark then .low else .traffic
  | .xspiCsN => if s.seq.st = .dark then .high else .traffic
  | .xspiDq => if s.seq.st = .dark then .highZ else .traffic

end Sys2Proof.Machine
end

