-- ==== Sys2Proof/Machine/Package.lean ====
section
/-! DEFINITION. The package, the nets of a regatta and the electrical limits as data (R447, R470 to R474, R481, R484 to R496).
Voltages in mV, currents in mA and powers in mW unless a name says otherwise. Nothing a command does rests on them. -/

namespace Sys2Proof.Machine

/-! ## Balls (R470 to R474) -/

/-- The package outline in µm (R470): body edge and its tolerance, pitch, span of the array, ball diameter, seated height at
most, coplanarity. -/
def packageUm : List Nat := [50000, 100, 1000, 48000, 600, 3350, 200]

/-- Rows and columns of the ball array (R470). -/
def ballRows : Nat := 49

/-- The letters of R471: no row uses I, O, Q, R, S, X or Z. -/
def rowLetters : List String :=
  ["A", "B", "C", "D", "E", "F", "G", "H", "J", "K"] ++ ["L", "M", "N", "P", "T", "U", "V", "W", "Y"]

/-- Name of row `n`, counted from 0 (R471): 19 single letters, then AA to AY, then BA to BL. -/
def rowName (n : Nat) : Option String :=
  if n < 19 then rowLetters[n]?
  else if n < 38 then rowLetters[n - 19]?.map ("A" ++ ·)
  else if n < 49 then rowLetters[n - 38]?.map ("B" ++ ·)
  else none

/-- Balls by group (R472): host link, DDR, flash, control signals, supplies, VSS. -/
def ballGroups : List Nat := [69, 8 * 144, 32 * 23 + 1, 100, 177, 166]

/-- A supply of R474: nominal voltage, balls and its rail of the reference board profile; VDD_AON has none. -/
structure Supply where
  name : String
  mv : Nat
  balls : Nat
  rail : Option Nat
  deriving DecidableEq, Repr

/-- The supplies (R474). -/
def supplies : List Supply :=
  [ ⟨"VDD_CORE", 750, 80, some 1⟩, ⟨"VDD_SRAM", 800, 12, some 2⟩, ⟨"VDD_LEDGER", 800, 4, some 3⟩ ] ++
  [ ⟨"VDD_IO", 1800, 6, some 4⟩, ⟨"VDDQ_DDR", 1100, 36, some 8⟩, ⟨"VCCQ_FLASH", 1200, 20, some 11⟩ ] ++
  [ ⟨"VDD_SERDES_0V9", 900, 10, some 12⟩, ⟨"VDD_SERDES_1V2", 1200, 6, some 13⟩, ⟨"VDD_AON", 1800, 3, none⟩ ]

/-- What a supply feeds (R474). -/
def supplyFeeds : List (String × String) :=
  [ ("VDD_CORE", "logic of regions 0 to 5"), ("VDD_SRAM", "SRAM arrays of regions 1 to 5"), ("VDD_LEDGER", "ledger die") ] ++
  [ ("VDD_IO", "VDD_IO signals"), ("VDDQ_DDR", "DDR PHY and channels"), ("VCCQ_FLASH", "flash PHY and channels") ] ++
  [ ("VDD_SERDES_0V9", "SerDes analog, REFCLK receiver"), ("VDD_SERDES_1V2", "SerDes drivers and PLLs") ] ++
  [ ("VDD_AON", "Power region, VDD_AON signals") ]

/-- Balls of one DDR channel by signal (R477): DQ, DQS, DCA, DPAR, DCS_N, DCK, ALERT_N, DRST_N. -/
def ddrBalls : List Nat := [80, 40, 14, 2, 4, 2, 1, 1]

/-- Balls of one flash channel by signal (R479): DQ, DQS, RE, CE_N, CLE and ALE, WE_N. -/
def flashBalls : List Nat := [8, 2, 2, 8, 2, 1]

/-- The DQ balls of device `k` of a sub-channel (R477); devices 8 and 9 carry the check symbols. -/
def deviceDq (k : Nat) : List Nat := (List.range 4).map (4 * k + ·)

/-- How the balls of a function that is not used are handled (R482). -/
def unusedHandling : List (String × String) :=
  [ ("host lanes", "TX open; RX open or AC-coupled to VSS"), ("H1_PERST_N", "open"), ("CE_N of targets not fitted", "open") ] ++
  [ ("rail n", "RAIL_EN open; PGOOD and VMON to VSS"), ("string B", "NTC open; BATB_V, ISP and ISN to VSS; CHG open") ] ++
  [ ("HOLDWATER_N", "10 kΩ to VDD_AON"), ("ALERT_N", "open or pulled up"), ("JTAG", "open"), ("straps", "tied or open") ]

/-! ## Shared nets (R447) -/

/-- A shared net (R447): pull-up in Ω, largest capacitance in pF, and the longest edge in ns where one is given. -/
structure Net where
  name : String
  pullUp : Nat
  maxPf : Nat
  edgeNs : Option Nat
  deriving DecidableEq, Repr

/-- CATCH, PWRFAIL_N and HOLDWATER_N (R447). -/
def sharedNets : List Net :=
  [ ⟨"CATCH", 1000, 1000, some 2200⟩, ⟨"PWRFAIL_N", 2200, 1000, some 250⟩, ⟨"HOLDWATER_N", 10000, 1000, none⟩ ]

/-- ns for a driver of `ma` mA to move `pf` pF through `mv` mV (R447). -/
def netFallNs (pf mv ma : Nat) : Nat := pf * mv / (ma * 1000)

/-! ## Limits (R481, R484, R485) -/

/-- A rail's ball voltage at its OV fault level stays within the 1.6 V of the converter (R481). -/
def vmonFits (r : RailCfg) : Bool :=
  decide (r.nominal * (1000 + r.ovFault) * 65536 ≤ 1600 * 1000 * r.scaleQ16)

/-- Absolute maximum of a supply (R484). -/
def absMaxMv : String → Option Nat
  | "VDD_CORE" => some 950
  | "VDD_SRAM" => some 950
  | "VDD_LEDGER" => some 950
  | "VDD_SERDES_0V9" => some 1000
  | "VDDQ_DDR" => some 1300
  | "VCCQ_FLASH" => some 1400
  | "VDD_SERDES_1V2" => some 1400
  | "VDD_IO" => some 2100
  | "VDD_AON" => some 2100
  | _ => none

/-- Absolute maximum of the rest (R484): junction °C, storage °C low and high, ESD V by the human-body and the charged-device
model, reflow °C, moisture level. -/
def absMaxOther : List Int := [125, -55, 150, 2000, 250, 250, 4]

/-- Ramp of VDD_AON in µs, least and most (R485), and its levels in mV: valid, reset, records start (R486). -/
def aonRamp : List Nat := [100, 10000, 1650, 1600, 1740]

/-- The range in which a supply works, in 0.1 mV (R485); `target` is the planner's core voltage in mV. -/
def operatingRange (target : Nat) : String → Option (Nat × Nat)
  | "VDD_CORE" => some (target * 970 / 100, target * 1030 / 100)
  | "VDD_SRAM" => some (7760, 8240)
  | "VDD_LEDGER" => some (7760, 8240)
  | "VDDQ_DDR" => some (10670, 11330)
  | "VCCQ_FLASH" => some (11400, 12600)
  | "VDD_SERDES_0V9" => some (8730, 9270)
  | "VDD_SERDES_1V2" => some (11640, 12360)
  | "VDD_IO" => some (17100, 18900)
  | "VDD_AON" => some (17100, 18900)
  | _ => none

/-- Junction range of a variant in °C (R485, R496). -/
def junctionRange : Variant → Int × Int
  | .tk7264i => (-40, 105)
  | _ => (0, 105)

/-- Ordering code (R496). -/
def orderingCode : Variant → String
  | .tk7264c => "TK7264-C-B0-T"
  | .tk7264i => "TK7264-I-B0-T"
  | .tk7232c => "TK7232-C-B0-T"

/-- Top marking, line 1 (R496). -/
def topMarking : Variant → String
  | .tk7264c => "TK7264-C"
  | .tk7264i => "TK7264-I"
  | .tk7232c => "TK7232-C"

/-! ## Currents (R488, R489) -/

/-- Supply currents in mA: typical, maximum and during a save (R488). -/
def supplyCurrent : List (String × Nat × Nat × Nat) :=
  [ ("VDD_CORE", 34000, 51000, 30000), ("VDD_SRAM", 2800, 4000, 2500), ("VDD_LEDGER", 300, 500, 400) ] ++
  [ ("VDD_IO", 200, 300, 200), ("VDDQ_DDR", 4800, 6000, 1400), ("VCCQ_FLASH", 1000, 2000, 1000) ] ++
  [ ("VDD_SERDES_0V9", 2800, 3000, 100), ("VDD_SERDES_1V2", 500, 600, 0), ("VDD_AON", 35, 70, 35) ]

/-- VDD_CORE leakage of a frozen device in A, at 25 °C and at most (R489); rating of its regulator, largest step and largest
peak in A (R488). -/
def coreAmps : List Nat := [6, 14, 60, 20, 60]

/-- Supply power in mW: typical, maximum and during a save (R488). -/
def supplyPower : List (String × Nat × Nat × Nat) :=
  [ ("VDD_CORE", 25500, 38250, 22500), ("VDD_SRAM", 2240, 3200, 2000), ("VDD_LEDGER", 240, 400, 320) ] ++
  [ ("VDD_IO", 360, 540, 360), ("VDDQ_DDR", 5280, 6600, 1540), ("VCCQ_FLASH", 1200, 2400, 1200) ] ++
  [ ("VDD_SERDES_0V9", 2520, 2700, 90), ("VDD_SERDES_1V2", 600, 720, 0), ("VDD_AON", 60, 130, 60) ]

/-- Typical and maximum power of a variant in W (R488). -/
def modulePower : Variant → Nat × Nat
  | .tk7232c => (24, 35)
  | _ => (38, 55)

/-- VDD_AON current in mA in the low-power states: at 25 °C, and at most (R489). None in a state that draws from the rails. -/
def aonCurrent (s : State) : Option (Nat × Nat) :=
  if !s.seq.vddAon then none
  else if s.seq.st = .dark then some (18, 30)
  else if s.seq.st = .aux ∨ frozen s = true then some (35, 70)
  else none

/-! ## Levels and timing (R490 to R494) -/

/-- Input thresholds of an I/O type in thousandths of its supply: V_IL max, V_IH min, hysteresis (R490). -/
def inputLevels (twoWire : Bool) : Nat × Nat × Nat := if twoWire then (300, 700, 100) else (350, 650, 100)

/-- Output levels (R490): V_OL in mV at its current in mA of push-pull, open-drain and two-wire outputs; push-pull drives
V_OH to VDD less 400 mV at 4 mA. -/
def outputLevels : List (String × Nat × Nat) := [("push-pull", 400, 4), ("open-drain", 400, 8), ("two-wire", 400, 20)]

/-- Internal pulls in kΩ, least and most (R490), and leakage in µA. -/
def pullAndLeak : List Nat := [35, 75, 10]

/-- Analog inputs (R491): highest level at the ball in mV, and accuracy as the datasheet words it. -/
def analogInputs : List (String × Nat × String) :=
  [ ("VMON", 1600, "0.5 % of reading, 2 mV"), ("VIN_SENSE", 1200, "1 %, hysteresis 20 mV"), ("PACKID", 1800, "5 mV") ]

/-- Control-signal timing in ns (R492). -/
def controlNs : List (String × Nat) :=
  [ ("PWRFAIL_N qualified", 10), ("PWRFAIL_N to fence", 40), ("VIN_SENSE to PWRFAIL_N", 200), ("PWRFAIL_N fall", 175) ] ++
  [ ("CATCH filter", 200), ("CATCH edge to low", 1000), ("CATCH resync low", 1000000), ("CATCH high before resync", 100000) ] ++
  [ ("HOLDWATER_N", 1000), ("fence to BATSW_N", 50000), ("fault to RAIL_EN", 1000), ("XTAL period", 40), ("TCK period", 40) ]

/-- xSPI timing in ps in the two modes (R493): period, CS_N setup and hold, CS_N high, output window. -/
def xspiPs (octal : Bool) : List Nat := if octal then [5000, 3000, 10000, 600] else [40000, 5000, 50000, 15000]

/-- Two-wire edges in ns and bus capacitance in pF at a controller clock in kHz (R494): rise, fall, capacitance. -/
def twoWireEdges (khz : Nat) : Option (List Nat) :=
  if khz = 100 then some [1000, 300, 400]
  else if khz = 400 then some [300, 300, 400]
  else if khz = 1000 then some [120, 120, 550]
  else none

/-- Two-wire timing at a controller clock in kHz (R494), in ns: tLOW, tHIGH, tHD;STA, tSU;STA, tSU;STO, tSU;DAT, tBUF. -/
def twoWireNs (khz : Nat) : Option (List Nat) :=
  if khz = 100 then some [4700, 4000, 4000, 4700, 4000, 250, 4700]
  else if khz = 400 then some [1300, 600, 600, 600, 600, 100, 1300]
  else if khz = 1000 then some [500, 260, 260, 260, 260, 50, 500]
  else none

/-- xSPI clock period in ns before and after the root clocks start (R433, R493). -/
def xspiPeriodNs (s : State) : Nat := if s.clk.rootsStarted then 5 else 40

/-! ## Thermal (R495) -/

/-- θJC and θJB in thousandths of °C/W, heat capacity in J/°C, and how far the ledger die may differ in °C (R495). -/
def thermal : List Nat := [80, 1500, 45, 5]

/-- Sink-to-ambient resistance in thousandths of °C/W that holds the junction at `tj` °C for `mw` mW at `ta` °C, with an
interface of `tim` thousandths (R495). -/
def sinkResistance (tj ta mw tim : Nat) : Nat := (tj - ta) * 1000000 / mw - (80 + tim)

end Sys2Proof.Machine
end

