-- ==== Sys2Proof/Tests/Slice0.lean ====
section
/-! SUPPORT. Tests. The smoke tests of well-formedness, a state and operands that meet the hypotheses of each clause of the
statements, and a few single commands whose result the specification gives. -/

namespace Sys2Proof.Tests

open Sys2Proof Sys2Proof.Machine

set_option Elab.async false

/-! ## Well-formedness: an ill-formed command for each check -/


theorem test_wf_address : Instr.wf (.hostRead 0 (2 ^ 64) 0 .ok) = false := by decide +kernel
theorem test_wf_bytes4 : Instr.wf (.odRead (.mailbox 0) 0 0 (2 ^ 32)) = false := by decide +kernel
theorem test_wf_bytes2 : Instr.wf (.updateAbort (.mailbox 0) 65536) = false := by decide +kernel
theorem test_wf_payload : Instr.wf (.setCertificate (.doe 0) 7 (List.replicate 8193 0)) = false := by decide +kernel
theorem test_wf_page : Instr.wf (.mappingEntryError (2 ^ 29)) = false := by decide +kernel
theorem test_wf_line : Instr.wf (.lakebedRepairDone (2 ^ 35) true) = false := by decide +kernel
theorem test_wf_tag : Instr.wf (.failDrain (2 ^ 24)) = false := by decide +kernel
theorem test_wf_die : Instr.wf (.dieRetire 256) = false := by decide +kernel
theorem test_wf_endpoint : Instr.wf (.setEndpointId 0 256) = false := by decide +kernel
theorem test_wf_xbar : Instr.wf (.registerRead ⟨.xbar (2 ^ 32) 8, 0x4000⟩) = false := by decide +kernel
theorem test_wf_bar : Instr.wf (.registerWrite (.bar 0 0x1FFFC 8) 0 0) = false := by decide +kernel
theorem test_wf_size : Instr.wf (.registerRead ⟨.xbar 0xF0000000 3, 0x4000⟩) = false := by decide +kernel
theorem test_wf_hdm : Instr.wf (.registerWrite (.hdm 0 0 (2 ^ 64) 0 1 256 true false) 0 0) = false := by decide +kernel
theorem test_wf_level : Instr.wf (.weirPublish .bow (2 ^ 48)) = false := by decide +kernel
theorem test_wf_batch : Instr.wf (.markDraining (List.replicate 65 0)) = false := by decide +kernel
theorem test_wf_map_line : Instr.wf (.mapLineRebuild (2 ^ 24)) = false := by decide +kernel
theorem test_wf_failures : Instr.wf (.ddrAlert 0 0 .parity 5) = false := by decide +kernel
theorem test_wf_packet :
    Instr.wf (.mctpPacket { srcAddr := 0, src := 0, dst := 0, som := true, eom := true, seq := 0, tag := 0
                            payload := List.replicate 251 0, pecOk := true }) = false := by decide +kernel
theorem test_wf_readings : Instr.wf (.localTemperatureRead [0, 0, 0, 0, 0]) = false := by decide +kernel
theorem test_wf_ergometers : Instr.wf (.ergometerMeasure []) = false := by decide +kernel

theorem test_wf_scan : Instr.wf (.scanMediaDone ⟨0, [(2 ^ 35, .ok)]⟩) = false := by decide +kernel
theorem test_wf_place : Instr.wf (.completeDrain 0 1024 0) = false := by decide +kernel
theorem test_wf_unit : Instr.wf (.completeDrain 0 0 2097152) = false := by decide +kernel
theorem test_wf_operation : Instr.wf (.flashOarCommand 0 0 ⟨.erase .tlc 1024, []⟩) = false := by decide +kernel
theorem test_wf_labels : Instr.wf (.registerRead ⟨.mailbox 0 (.getLabels (2 ^ 32) 1), 0x4000⟩) = false := by decide +kernel
theorem test_wf_serial : Instr.wf (.registerRead ⟨.serial (2 ^ 27) 1, 0x4040⟩) = false := by decide +kernel

/-! ## States of the tests -/

/-- A rail that is on. -/
def railOn : Rail := { phase := .on, pgood := true }

/-- A DDR channel in service. -/
def channelOn : DramChannel := { state := .active, training := .full, recordValid := true, recordVddq := 1100, oarSlot := some 0 }

/-- A flash channel in service. -/
def flashOn : FlashChannel := { state := .active, oarSlot := some 0 }

/-- A string at rest, counted and full. -/
def stringFull : BatString :=
  { sample := { mv := 8300, current := 0, temp := 250, ntcOhm := 10000 }, st := .counted, s := 100, u := 5, known := true
    insertion := false, restNs := 2000000, changed := true, ntcOkMs := 2 }

/-- A device of the reference module in ONLINE, its restore over, both crews members, nothing written yet. -/
def running : State :=
  { State.reset with
    tb := { now := 2000080 }
    clk := { xtalOk := true, springLock := true, backupLock := true, rootsStarted := true }
    host := { head0 := { perst := false, link := true, ready := true
                         hdm := [{ size := 2194728288256, committed := true }, {}, {}, {}] }
              clkreq := true }
    dram := { channels := List.replicate 8 channelOn }
    basin := { erasedBy := ((List.range 32).map fun c => (List.range 4).map fun k => (8 * c + k, 512)).flatten }
    flash := { channels := List.replicate 32 flashOn, firstStart := some 2000080, wpN := false }
    weir := { capMiB := 869750, floorMiB := 16384, published := 549755813888, pubTime := 2000080, hasPub := true
              state := .published, computed := true }
    rst := { phase := .erased, fillDone := true, allDone := true, attempt := 1, ready := true
             committed := true, begun := true }
    ledger := { commits := [{ time := 2000080, commit := .restored 0 18446744073709551615 0 0 0 }] }
    wl := { reserved := 4096 }
    crew := { bow := { st := .member, score := 255 }, stroke := { st := .member, score := 255 }, seat := 0xA5 }
    seq := { st := .online, mainOk := true, mainSince := some 80, catchIn := true, stateStart := 2000080
             complete := true, vddAon := true, mrst := false, frst := false
             rails := List.replicate 15 railOn ++ [{}], enabled := [0, 1, 2, 3, 4, 5, 6, 7, 8, 9, 10, 11, 12, 13, 14] }
    boot := { sampled := true, profileOk := true, bootcfg := 1, settings := 1, stage := 6, coreTime := 2000 }
    bat := { a := stringFull, b := stringFull, packid := some 0, reading := (0, 3)
             desc := some PackDescriptor.reference, takenUp := true } }

/-- A full Waterline log has no slot left. -/
theorem full_length (r : WlRec) : logSlots ≤ (List.replicate 52428 r).length := Nat.le_of_eq List.length_replicate.symm

theorem full_all (r : WlRec) (p : WlRec → Bool) (h : p r = true) : (List.replicate 52428 r).all p = true := by
  rw [List.all_replicate, h]; rfl

theorem full_first (r : WlRec) : (List.replicate 52428 r)[0]? = some r := by rw [List.getElem?_replicate]; rfl

/-- `running` with the Weir's computation for its strings in force. -/
def ready : State :=
  running.onWeir fun w => { w with bounds := { rPlanMBs := 48000, rPlan := 48, level := 892800000000, binding := 3 } }

/-- The newest bucket of the tests, open, with `n` pages. -/
def bucketOf (n : Nat) : Bucket := { slot := 0, epoch := 0, openSeq := 1, isOpen := true, pages := n }

/-- `ready` with page 0 DIRTY in an open bucket. -/
def written : State :=
  ready.onPm fun p => { p with
    pages := [(0, { state := .dirty, bucket := 0, hot := 1 })], buckets := [bucketOf 1], nextSeq := 2, residue := 4096 }

/-- `written` while the page is still hot. -/
def hotPage : State := written.onPm fun p => { p with pages := [(0, { state := .dirty, bucket := 0, hot := 0 })] }

/-- `ready` with an open bucket and no page written. -/
def opened : State := ready.onPm fun p => { p with buckets := [bucketOf 0], nextSeq := 2 }

/-- A level of the Weir that leaves no room. -/
def noRoom (s : State) : State := s.onWeir fun w => { w with published := 0 }

/-- A host write of zeros, as the write buffer holds it. -/
def writeEntry (line : Nat) (phase : WPhase) : WEntry :=
  { id := 7, head := 0, line := line, data := 0, be := BitVec.allOnes 64, poison := false, phase := phase, arrived := 0 }

/-- `opened` with one first-write to page 1 held on the Weir. -/
def holding : State := opened.onWb fun w => { w with entries := [writeEntry 64 .heldWeir] }

/-- `running` frozen. -/
def frozenState : State := ready.onFrz fun f => { f with frozen := true, pin := true, since := 5, freezes := 1 }

/-- `running` with an offset still to remove by slewing. -/
def slewing (n : Int) : State := { running with tb := { running.tb with slew := n } }

/-- `running` before its restore, memory not ready. -/
def notReady : State := { running with rst := {} }

/-- `opened` with HST_EPOCH at 5. -/
def epoch5 : State := opened.onHost fun h => { h with epoch := 5 }

/-- The drain-table entry of `drained`. -/
def drainEntry (linked : Bool) : DrainEntry := { failed := false, linked := linked, bucket := 0, gen := 1, page := 0 }

/-- `ready` before LINK is entered, its head still in reset. -/
def inFlash : State := (ready.onSeq fun q => { q with st := .flash }).onHost fun h => { h with head0 := {} }

/-- `ready` with the head out of reset and its link not yet up. -/
def untrained : State := ready.onHost fun h => { h with head0 := { perst := false } }

/-- `opened` with one admitted write to line 0 in the buffer, PERST_N and the link as in `running`. -/
def buffered : State := written.onWb fun w => { w with entries := [writeEntry 0 .admitted] }

/-- `buffered` in GPF Phase 2, the write awaited. -/
def draining : State := buffered.onHost fun h => { h with gpf := .phase2Draining, gpfWaits := [7], gpfHeads := [0] }

/-- A device after the fence of a save that is over. -/
def fencedState : State := ready.onHost fun h => { h with fence := true, hostFence := true }

/-- `ready` with REFCLK detected and counted to its return. -/
def returning : State := ready.onClk fun c => { c with refclk := true, countRunning := true }

/-- `ready` with a save in progress, in its phase `p`, started by `tr`. -/
def savingIn (p : SavePhase) (tr : Trigger) : State :=
  (written.onHost fun h => { h with fence := true, hostFence := true }).onSave fun v => { v with
    phase := p, running := true, trigger := some tr, fenceTime := 2000000, gen := 1, battery := tr == .vin, dies := 64 }

/-- `ready` without its Spring PLL, and without either root. -/
def oneRoot : State := ready.onClk fun c => { c with springLock := false, onBackup := true }
def noRoot : State := ready.onClk fun c => { c with springLock := false, backupLock := false }

/-- `ready` with the level decaying from 512 GiB. -/
def decaying : State := ready.onWeir fun w => { w with state := .decaying, decayFrom := 549755813888, decayAt := 2000080 }

/-- Page 0 of `written` DRAINING under entry 0, generation 1. -/
def drained (linked : Bool) : State :=
  written.onPm fun p => { p with
    pages := [(0, { state := if linked then .dirty else .draining, bucket := 0, hot := 1, prior := linked })]
    drains := [(0, drainEntry linked)], drainGens := [(0, 1)] }

/-- A walk of bucket 0 for DIRTY pages, at its start. -/
def walk0 : Walk := { slot := 0, state := .dirty, next := 0 }

/-- `written` on that walk. -/
def walking : State := written.onPm fun p => { p with walk := some walk0 }

/-- `written` while its counts are being restored. -/
def recounting : State := written.onPm fun p => { p with recounting := true, residue := 0 }

/-- `opened` with its oldest bucket and a mapping entry for page 1. -/
def mapped : State := opened.onLake fun l => { l with mapping := [(1, (0, 0))] }

/-- `ready` with one log entry and the ledger failed. -/
def failedLedger : State := (ready.onLog fun g => { g with tail := [.dirty 0 0] }).onLedger fun g => { g with failed := true }

/-- `written` with a compaction whose walk is over. -/
def compacting : State := written.onLog fun g => { g with area := [.dirty 0 0], compacting := some 1 }

/-- The chunks of a checkpoint, all written, and its directory. -/
def chunksDone : ChunkWrite := { lakeSeq := 3, dir := some (0, 7) }

/-- `written` with the chunks of a checkpoint written. -/
def checkpointing : State := written.onLake fun l => { l with chunkWrite := some chunksDone }

/-- `epoch5` with a Settle to 5 and its covered bucket empty. -/
def settling (n : Nat) : State :=
  (epoch5.onHost fun h => { h with target := 5 }).onPm fun p => { p with buckets := [{ bucketOf n with covered := true }] }

/-- `savingIn` with REFCLK counted to its return. -/
def savingReturn : State := (savingIn .map .vin).onClk fun c => { c with refclk := true, countRunning := true }

/-- The bounds of the weaker string of `ready`. -/
def readyBounds : StrBounds := strBounds ready PackDescriptor.reference .a

/-- The unit of page 3 in the Lakebed of `window`. -/
def unit3 : FlashUnit := { page := 3, seq := 0, cells := [(0, 0xC3)], poison := [0], key := 0, tweak := 3 }

/-- An image of a save that had pages 0 and 1 DIRTY and page 5 LOST, with the unit of page 0. -/
def image1 : BasinImage :=
  { gen := 1, map := [(0, { state := .dirty }), (1, { state := .dirty }), (5, { state := .lost })], buckets := [bucketOf 2]
    mapping := some [], units := [(0, { page := 0, seq := 0, cells := [(4095, 0x5A)], poison := [63], key := 0, tweak := 2 ^ 60 })]
    roots := some { gen := 1, places := [], checkpoint := 0, epoch := 0, settled := 0, target := 0, cursor := .upTo 1 1, logPos := 0 }
    headers := [0, 1] }

/-- A save in phase `p` with its image begun. -/
def imaged (p : SavePhase) : State :=
  (savingIn p .vin).onBasin fun b => { b with image := some image1 }

/-- Before a restore begins, with `cs` in the ledger. -/
def beginning (cs : List LedgerRec) : State := { ready with rst := {}, ledger := { commits := cs } }

/-- The epochs of a save that no Mark preceded. -/
def atFence : FenceEpochs := { epoch := 0, settled := 0, target := 0 }

/-- The commits of a save whose cursor stands at page 1 of the bucket with open sequence 1. -/
def savedCommits : List LedgerRec :=
  [{ time := 2, commit := .saved 1 (.upTo 1 1) 1 0 }, { time := 1, commit := .saveStarted 1 1 false atFence [bucketOf 2] 0 0 }]

/-- A restore in phase `p` from shutdown `source`. -/
def restIn (p : RestPhase) (source : Nat) : State :=
  { ready with
    rst := { phase := p, begun := true, gen := 1, attempt := 1, source := source, roots := true }
    ledger := { commits := savedCommits }, basin := { ready.basin with image := some image1 } }

/-- `restIn` in an early-open window, page 3 in the Lakebed and awaited by a fetch. -/
def window (p : RestPhase) : State :=
  ({ restIn p 0 with
      lake := { mapping := [(3, (0, 1))]
                units := [((0, 1), unit3)] } }).onRst
    fun r => { r with ready := true, early := true, fetching := [3] }

/-- `window` cut short by a last gasp. -/
def gasping : State := ((window .fill).onSave fun v => { v with phase := .lastGasp }).onHost fun h => { h with fence := true }

/-- A save released or not, in its last phase. -/
def releasedSave (r : Bool) : State := (savingIn .saved .vin).onSave fun v => { v with released := r }

/-- The LEDGER_HOLD rail held after a fault cut. -/
def holding48 : State := running.onSeq fun q => { q with st := .dark, ledgerHold := true, dir := .cut }

/-- No string is fitted. -/
def noStrings (s : State) : State := s.onBat fun b => { b with a := {}, b := {} }

/-- `savingIn` with main power absent. -/
def savingDark : State := (savingIn .map .vin).onSeq fun q => { q with mainOk := false }

/-- A save in its first phase, whose battery path is still open. -/
def fencedSave : State := (savingIn .fenced .vin).onSave fun v => { v with battery := false }

/-- `imaged` with the fewest dies, and 5 ms after a halving. -/
def fewDies : State := (imaged .residue).onSave fun v => { v with dies := 8 }
def heldOff : State :=
  ((imaged .residue).onSave fun v => { v with lastHalving := some 0 }).onTb fun b => { b with now := 5000000 }

/-- `imaged` without a sending set, and without a root. -/
def emptySave : State := (imaged .residue).onSave fun v => { v with waitMember := true }
def rootlessSave : State := (imaged .residue).onClk fun c => { c with springLock := false, backupLock := false }

/-- Two channels that training left out, before the restore. -/
def twoOut : State :=
  (beginning savedCommits).onDram fun d => { d with
    channels := List.replicate 2 { state := .isolated, out := true, fullFails := 2 } ++ List.replicate 6 channelOn }

/-- The overlay of `image1` on a map with page 0 DIRTY. -/
def overlaying : State := (restIn .overlay 2).onPm fun p => { p with pages := [(0, { state := .dirty })] }

/-- The metadata of a save, the roots readable or not. -/
def metaIn (rootsOk : Bool) : MetaIn := { rootsOk := rootsOk, mapOk := true, mappingOk := true, saveCommitsOk := true }

/-- Channel `n` of `ready` changed by `f`. -/
def dramWith (n : Nat) (f : DramChannel → DramChannel) : State := onCh n f ready

/-- Channel 0 in block reset, a write of page 0 waiting for it. -/
def inReset : State :=
  { onCh 0 (fun c => { c with state := .blockReset, oarSlot := some 0, resetParent := 0x20000000 }) written with
    wb := { entries := [writeEntry 0 .inReset] }
    fault := { shadows := [{ unit := ddrId 0 0, parent := 0x20000000, since := 0 }] } }

/-- Line 192 poisoned, its CLEAN page in the Lakebed, a read of it awaiting the repair. -/
def repairRead : PendingRead := { id := 9, head := 0, line := 192, why := .repair }
def unrepaired : State :=
  { ready with
    lake := { mapping := [(3, (0, 1))]
              units := [((0, 1), { page := 3, seq := 0, cells := [(0, 0xC3), (64, 7)], poison := [1], key := 0, tweak := 3 })] }
    wb := { reads := [repairRead] }, dram := { ready.dram with poison := [192] } }

/-- The unit of page 3 in the Lakebed of `unrepaired`. -/
def unitR : FlashUnit := { page := 3, seq := 0, cells := [(0, 0xC3), (64, 7)], poison := [1], key := 0, tweak := 3 }

/-- Channel 0 in training, with stored values or without. -/
def inTraining (record : Bool) (fails : Nat) : State :=
  dramWith 0 fun c => { c with state := .training, training := .none, recordValid := record, recordTempC := 25, recordPop := running.cfg.population, oarSlot := none, fullFails := fails }

/-- Channel 0 isolated and not yet named in the ledger; and named. -/
def isolated (named : Bool) : State := dramWith 0 fun c => { c with state := .isolated, named := named }

/-- A drain of page 0 and the unit it programs. -/
def drainOp : FlashOp := .drain 65536 600 0 false
def drainUnit : FlashUnit := { page := 0, seq := 0, cells := [], poison := [], key := 0 }

/-- Flash channel 0 of `drained false` with the started operation `op` on die 0. -/
def flashJob (op : FlashOp) (u : Option FlashUnit) : FlashJob := { die := 0, op := op, data := u, started := true }
def flashing (op : FlashOp) (u : Option FlashUnit) : State :=
  { onFl 0 (fun c => { c with jobs := [flashJob op u] }) (drained false) with
    basin := { ready.basin with image := some image1 } }

/-- Eight operations wait on die 0 of flash channel 0. -/
def fullQueue : State := onFl 0 (fun c => { c with jobs := List.replicate 8 (flashJob drainOp (some drainUnit)) }) ready

/-- One Basin die-block not erased. -/
def unerased : State := ready.onBasin fun b => { b with erasedBy := (0, 511) :: b.erasedBy.tail }

/-- Flash channel 0 in reset, its shadow running. -/
def flashReset : State :=
  (onFl 0 (fun c => { c with state := .reset, oarSlot := none, jobs := [flashJob drainOp none] }) ready).onFault fun f =>
    { f with shadows := [{ unit := flsId 0 0, parent := 0x30000000, since := 0 }] }

/-- Page 0 in the Lakebed on die 0. -/
def onDie : State :=
  opened.onLake fun l => { l with mapping := [(0, (0, 0))], segments := [(0, { state := .closed, valid := 1, dies := [0, 1] })] }

/-- A visit of the flash patrol to segment 0 that needed attempt 4. -/
def patrol4 : PatrolIn := { seg := 0, worstAttempt := 4, thirdSlot := false, failedUnits := [] }

/-- A worn Basin die-block. -/
def worn : State := ready.onFlash fun f => { f with wear := [(0, 5000)] }

/-- `ready` with crew Bow in state `st` and the seat with Stroke, long after the last fault. -/
def bowOut (st : CrewSt) (fails : Nat) : State :=
  (ready.onCrew fun c => { c with
    bow := { st := st, offSince := some 0, compared := 1000, shadowSince := 0, loadFails := fails }, seat := 0xA5 }).onTb fun b =>
      { b with now := 200000000 }

/-- A start: Bow has loaded and waits, Stroke loads. -/
def starting : State :=
  ready.onCrew fun c => { c with
    bow := { st := .loading, waiting := true }, stroke := { st := .loading }, seat := 0, startLoad := true }

/-- Slot 0 of the coxswain stream of the flash landing after one copy, Stroke's or Bow's. -/
def slot0 (c : Crew) : WSlot :=
  { seq := 0, crew := c, digest := 5, closed := false, paired := false, cmd := .flashOarReload 0 }
def coxStream : Stream := { cox := true, num := 0 }
def landed (c : Crew) : State :=
  ready.onCrew fun r => { r with fls := { streams := [(streamKey coxStream, { slots := [slot0 c] })] } }

/-- A fault of class `x` with KEY `k` at the dirty filter. -/
def faultAt (x : FClass) (k : BitVec 8) : FaultIn :=
  { unit := 0x2200, cls := x, key := k, detail := 0, typ := 0, master := 0x2200, addr := 0, persists := true
    detector := .other }

/-- A capture of class `x` with KEY 1 held at unit `m`. -/
def heldAt (m : MasterId) (x : FClass) : State :=
  setCapture m { sticky := true, cls := some x, key := 1, capnum := 1, count := 1, grace := true, present := true } ready

/-- The same with the shadow of a reset that is over. -/
def shadowed : State := ready.onFault fun f => { f with shadows := [{ unit := 0x6080, parent := 0x60800001, done := true, since := 0 }] }

/-- Vector 2 of head 0 pending and masked. -/
def pendingVector : State := onHead 0 (fun h => { h with msixPending := 4, msixMask := 4 }) ready

/-- Decoder 1 of head 0 locked. -/
def lockedHdm : Hdm := { size := 268435456, committed := true, locked := true }
def hdmLocked : State := onHead 0 (fun h => { h with hdm := [{}, lockedHdm, {}, {}] }) ready
def hdmFree : State := onHead 0 (fun h => { h with hdm := List.replicate 4 {} }) ready

/-- A decoder as reset leaves it. -/
def emptyHdm : Hdm := {}

/-- A device in AUX, complete, main power there, its board profile read; CATCH driven by it or high. -/
def auxState (drive high : Bool) : State :=
  { running with
    seq := { st := .aux, complete := true, mainOk := true, mainSince := some 0, vddAon := true, catchDrive := drive, catchIn := high
             enabled := [0], rails := railOn :: List.replicate 15 {} }
    boot := { sampled := true, profileOk := true, bootcfg := 1, settings := 1, lane := 1 }, clk := {}, host := {}
    dram := {}, flash := {}, crew := {}, rst := {}, weir := {}, ledger := {} }

/-- `auxState` in parts of its way to CORE. -/
def auxSeq (f : Seq → Seq) : State := (auxState true false).onSeq f

/-- The image that slot A holds in the tests. -/
def imageA : ImageInfo :=
  { version := [], security := 0, schema := 0, handover := 0, low := 0, high := 0, verifies := true }

/-- AUX left through the lane stagger, an image in slot A. -/
def staggering : State := (auxSeq fun q => { q with staggering := true, dir := .up }).onUpd fun u => { u with slotA := some imageA }

/-- `ready` with the sequencer changed. -/
def seqWith (f : Seq → Seq) : State := ready.onSeq f

/-- FLASH complete, on the way up. -/
def flashUp : State := seqWith fun q => { q with st := .flash, dir := .up, complete := true }

/-- MEMORY in progress, rails 5 to 7 in phase `p`, rail 8 in phase `q`; climbing or not. -/
def memoryRails (d : SeqDir) (p q : RailPhase) : State :=
  seqWith fun x => { x with
    st := .memory, dir := d, complete := false, enabled := [0, 1, 2, 3, 4, 5, 6, 7, 8]
    rails := List.replicate 5 railOn ++ List.replicate 3 { phase := p, pgood := p == .on } ++ [{ phase := q }] ++
      List.replicate 7 {} }

/-- A state of the climb without rails. -/
def noRail : State := seqWith fun x => { x with st := .memory, dir := .up, complete := false, mask := 0 }

/-- The board profile's copy 1, valid or not. -/
def profileIn (valid : Bool) : ProfileIn := { valid := valid, copy := 1, bootcfg := 1, settings := 2, descriptorValid := true }

/-- AUX before its board profile is read, straps sampled or not. -/
def noProfile : State := (auxState true false).onBoot fun _ => {}

/-- DARK with VDD_AON valid. -/
def darkState : State := auxSeq fun q => { q with st := .dark, complete := false, onPending := true }

/-- An SMBus requester, the device's endpoint set. -/
def onSmbus (s : State) : State := s.onBus fun b => { b with mgmt := { b.mgmt with eid := some 9 } }

/-- The latch set in AUX. -/
def latchedAux : State := onSmbus (auxSeq fun q => { q with latched := true, latchCause := 1, latchRail := 3 })

/-- A clean shutdown whose residue is drained, and one whose checkpoint is committed. -/
def shutting (x : Shutdown) : State := seqWith fun q => { q with shutdown := x }

/-- Memory not ready, a rail over its level. -/
def notReadyRails : State := notReady.onSeq fun q => { q with mainOk := false, evalOn := false, batsw := true }

/-- One sample of a string at rest. -/
def sampleOf (i : Int) (ohm : Nat) : Sample := { mv := 8300, current := i, temp := 250, ntcOhm := ohm }

/-- `ready` with string A changed. -/
def strA (f : BatString → BatString) : State := onStr .a f ready

/-- String A absent, its thermistor back; and full for an hour at most. -/
def absentA : State := strA fun b => { b with st := .absent, known := false, detected := true }
def newA : State := (onStr .a (fun b => { b with st := .absent, known := false, detected := false }) ready).onBat fun b => { b with packid := none }
def fullA : State := strA fun b => { b with full := true, fullAt := some (2000080, 3300000000) }
def unknownA : State := strA fun b => { b with st := .unknown, known := false, insertion := true }

/-- PACKID read twice as code `packCode 0`, code 0 not in force. -/
def packRead (r : Bool) : State :=
  (if r then ready else savingIn .map .vin).onBat fun b => { b with reading := (packCode 0, 2), packid := some 99 }

/-- String A learning, its other string counted. -/
def learningA : State := strA fun b => { b with st := .learning, reverse := true }

/-- A day of drift since the last, 31 days after RHO was learned. -/
def drifting : State := (strA fun b => { b with rho := some 1 }).onTb fun b => { b with now := 2678400000000000 }

/-- Forced rest due for string A alone; and in progress. -/
def restingDue : State := onStr .b (fun b => { b with anchor := 259200000000000 }) (ready.onTb fun b => { b with now := 259200000000000 })
def restingA : State := strA fun b => { b with paused := true, pause := true }
def offFailedA : State := strA fun b => { b with offFailed := true, pause := true }

/-- A gauge record in slot 0. -/
def recorded : State := ready.onBat fun b => { b with slot0 := some { seq := 4 } }

/-- `auxState` in the pulse of CATCH, and without main power. -/
def auxPulse : State := auxSeq fun q => { q with catchPulse := true }
def auxNoMain : State := auxSeq fun q => { q with mainOk := false }

/-- `ready` with a reset stretched. -/
def stretchM : State := seqWith fun q => { q with mrstStretch := true }
def stretchF : State := seqWith fun q => { q with frstStretch := true }

/-- String A with three open thermistor samples; and a little below its full voltage. -/
def openA : State := strA fun b => { b with openCount := 3 }
def nearFull : State := strA fun b => { b with charging := true, sample := { b.sample with mv := 8350 } }

/-- The session of mailbox 0, last served at time `t`. -/
def sessionAt (t : Nat) : Session := { key := 0, last := t }

/-- Entry 0x5001, and the image of slot A at security version 7. -/
def graceField : OdField := { typ := .u8, acc := .rws, wr := 6 }
def imageA7 : ImageInfo := { imageA with security := 7 }

/-- A request for a record of severity `n`. -/
def wlReq (n : Fin 8) (conseq : Bool) : WlReq := { code := 0x0301, severity := n, source := 0x4040, arg := 5, conseq := conseq }

/-- A record of severity `n`, and a log filled with it. -/
def wlRec (n : Fin 8) : WlRec := { time := 0, seq := 0, source := 0x4040, severity := n, code := 0x0301, arg := 0 }
def wlFull (n : Fin 8) : State := ready.onWl fun w => { w with log := List.replicate 52428 (wlRec n) }

/-- One record in the log, and in the ring beside a failed ledger. -/
def wlOne : State := ready.onWl fun w => { w with log := [wlRec 3], nextSeq := 1 }
def wlRing : State := failedLedger.onWl fun w => { w with ring := [wlRec 3], nextSeq := 1 }

/-- No crew a member. -/
def noMember : State := ready.onCrew fun c => { c with bow := {}, stroke := {}, seat := 0 }

/-- A ledger at a start, to be tested, a commit held. -/
def testing : State :=
  notReady.onLedger fun g => { g with
    failed := true, testDue := true, fallback := [{ time := 1, commit := .mapSaved 1 [] }] }

/-- `ready` in Boathouse mode, reached over SMBus. -/
def boat : State := onSmbus (ready.onBoot fun b => { b with inBoathouse := true })

/-- One requester with a session, last served at time 0. -/
def sessions : State := (ready.onOd fun o => { o with sessions := [sessionAt 0] }).onTb fun b => { b with now := 10000000000 }
def sessionsNow : State := ready.onOd fun o => { o with sessions := [sessionAt 2000080] }

/-- The settings copy being compacted. -/
def odCompacting : State := ready.onOd fun o => { o with compacting := true }

/-- An owner's secured session over SMBus, a trial in progress or not. -/
def owned (trial : Nat) : State :=
  (onSmbus ready).onUpd fun u => { u with
    secured := [(3, true)], trial := trial, slotA := some imageA7, owner := [1] }
def ownerPath : Path := .secured 3 true true 0

/-- Stroke alone a member. -/
def strokeAlone : State := ready.onCrew fun c => { c with bow := {}, seat := 0xA5 }

/-- One run of poisoned lines listed; and a scan in progress. -/
def listed : State := ready.onCxl fun c => { c with poisonList := [(4, 2)] }
def alertCfg : AlertCfg := { lifeUsed := some 90, temperature := some 75, corrected := some 100 }
def alerting : State := ready.onCxl fun c => { c with alerts := alertCfg }
def scanning : State := onHead 0 (fun h => { h with bg := .scan 0 64 }) ready

/-- A crypto erase whose ranges are over. -/
def erasing : State :=
  (written.onRst fun r => { r with sanitizing := some true, sanitizeHead := some 0 }).onFlash fun f => { f with newKey := some 1 }

/-- The MGMT port changed. -/
def portWith (f : BusPort → BusPort) : State := ready.onBus fun b => { b with mgmt := f b.mgmt }

/-- A packet from endpoint 8 to the device's endpoint 9. -/
def packet (eom pec : Bool) (payload : List Byte) : MctpPkt :=
  { srcAddr := 0x10, src := 8, dst := 9, som := true, eom := eom, seq := 3, tag := 7, payload := payload, pecOk := pec }

/-- A request executed already, and a message begun. -/
def request31 : McReq := { src := 8, inst := 31, addr := 0x10, tag := 0, opcode := 0xC001, resp := [1] }
def requested : State := (onSmbus ready).onBus fun b => { b with reqs := [request31] }
def assembling : State := ready.onBus fun b => { b with assembly := [{ src := 8, last := 0, nextSeq := 0, bytes := [] }] }

/-- Frozen by one hold only, or by the pin beside another. -/
def frozenBy (pin od jtag : Bool) : State :=
  onSmbus (frozenState.onFrz fun f => { f with pin := pin, od := od, jtag := jtag })

/-- A JTAG port disabled by a fault. -/
def jtagDisabled : State := ready.onFault fun f => { f with jtagOff := true }

/-- Frozen with TESTMODE_N sampled low, word 0 of the ledger read. -/
def testFrozen : State := (frozenState.onBoot fun b => { b with testmode := true }).onLedger fun g => { g with words := [(0, 5)] }

/-- The images of both slots of a running device, and its update session. -/
def session5 (n : Nat) (ranges : List (Nat × Nat)) : UpdSession :=
  { id := 5, transport := 0, endpoint := 0, length := n, ranges := ranges, last := 2000080, secured := none
    opened := 2000080, slot := 1 }
def updating (g : UpdStage) (n : Nat) (ranges : List (Nat × Nat)) : State :=
  ready.onUpd fun u => { u with slotA := some imageA, session := some (session5 n ranges), lastId := 5, stage := g }

/-- A session last used 60 s ago. -/
def updateIdle : State := (updating .idle 4096 []).onTb fun b => { b with now := 60002000080 }

/-- A section table with one section of each type an image must have, and the unused entries. -/
def sections8 : List Section :=
  [{ typ := 2, off := 512, len := 512, restZero := true }, { typ := 3, off := 1024, len := 512, restZero := true },
   { typ := 4, off := 1536, len := 512, restZero := true }, { typ := 5, off := 2048, len := 512, restZero := true }] ++
    List.replicate 4 { typ := 0, off := 0, len := 0, restZero := true }

/-- What the verification of a good image finds. -/
def verifyIn (sig : Bool) : VerifyIn :=
  { magic := 0x544B494D, headerVersion := 1, length := 4096, sections := sections8, key := 0, revokes := []
    signatureOk := sig, digestOk := true, deviceCode := ready.cfg.deviceCode, securityVersion := 0
    producedHandover := 0, lowestHandover := 0, highestHandover := 0, schema := 0, version := [], settingsReadable := true }

/-- Boathouse mode with a whole image accepted and no image in either slot. -/
def boatUpdate : State := (onSmbus ready).onUpd fun u => { u with
  slotA := none, slotB := none, session := some (session5 4096 [(0, 4096)]) }
def boatReady : State := boatUpdate.onBoot fun b => { b with inBoathouse := true }

/-- Crew Bow in STANDBY with the incoming image of slot B. -/
def handing : State :=
  (ready.onUpd fun u => { u with
      slotA := some imageA, slotB := some imageA, stage := .loadingX, crewX := .bow, incoming := 1 }).onCrew fun c =>
    { c with bow := { st := .standby, waiting := true, image := 1 } }

/-- A trial that runs, and a fall-back that waits for its members. -/
def trying : State := ready.onUpd fun u => { u with slotA := some imageA, trial := 1 }
def fallingBackState : State := ready.onUpd fun u => { u with stage := .waitMembers, fallback := true, repechage := 1, trial := 1 }

/-- The planner after `n` plans, its lowest slack `l`. -/
def planning (n : Nat) (l : Int) : State :=
  ready.onPlan fun p => { p with seq := n, slack := some l :: List.replicate 27 (some 90), dueAt := 0 }
def planBlockedState : State := notReady.onPlan fun p => { p with seq := 1 }

/-- A ramp toward the target, and one that is over. -/
def ramping (v t : Nat) : State :=
  ready.onPlan fun p => { p with running := true, ramp := true, voltage := v, target := t, goal := t }
def ramped : State := ready.onPlan fun p => { p with running := true, draft := [1, 2], seq := 1 }

/-- The MGMT port in I2C mode; after two pulses of a hang; after fifteen losses; waiting; alerting; with a call due, or made. -/
def portI2c : State := portWith fun p => { p with i2c := true }
def portHang : State := portWith fun p => { p with hangRun := 2 }
def portLoss : State := portWith fun p => { p with lossRun := 15 }
def portWaits : State := portWith fun p => { p with st := .waiting }
def portAlert : State := portWith fun p => { p with alert := true }
def portCall : State := portWith fun p => { p with callPending := true }
def portService : State := portWith fun p => { p with callPending := true, called := true, interval := 600000000 }

/-- `ready` under an owner lock. -/
def ownerLocked : State := ready.onOd fun o => { o with set := { o.set with ownerLock := 1 } }

/-- A reading of every Ergometer, 39 ps of slack. -/
def readings : List ErgoIn := List.replicate 28 { slack := 39, drift := 3, parityOk := true }

/-- Page 0 withdrawn with its channel. -/
def withdrawn0 : State := ready.onDram fun d => { d with withdrawn := [0] }

/-- Page 0 LOST. -/
def lostPage : State := opened.onPm fun p => { p with pages := [(0, { state := .lost })] }

/-- No entry of the write buffer is free. -/
def fullBuffer : State := written.onWb fun w => { w with entries := List.replicate 32768 (writeEntry 0 .admitted) }

/-- Page 0 DIRTY with a write of it that its channel, in block reset, does not take. -/
def stuckWrite : State :=
  { onCh 0 (fun c => { c with state := .blockReset }) written with wb := { entries := [writeEntry 0 .admitted] } }

/-- Page 0 DIRTY with a failed drain, LINKED. -/
def failedDrain : State :=
  written.onPm fun p => { p with
    pages := [(0, { state := .dirty, bucket := 0, hot := 1, prior := true })]
    drains := [(0, { drainEntry true with failed := true })], drainGens := [(0, 1)] }

/-- `window` with page 5 LOST. -/
def lostWindow : State := (window .fill).onPm fun p => { p with pages := [(5, { state := .lost })] }

/-- `ready` on its last locked root. -/
def springAlone : State := ready.onClk fun c => { c with backupLock := false }
def backupAlone : State := ready.onClk fun c => { c with springLock := false, onBackup := true }

/-- `imaged` with a program of the pass in an oar's hands. -/
def busyPass : State :=
  (imaged .residue).onFlash fun f => { f with channels := f.channels.set 0 { flashOn with
    jobs := [{ die := 0, op := .saveProgram 0, started := true }] } }

/-- Line 0 poisoned, its page in no unit. -/
def poisonedLine : State := ready.onDram fun d => { d with poison := [0] }

/-- Channel 0 reset three times within 10 s. -/
def thriceReset : State := dramWith 0 fun c => { c with resetTimes := List.replicate 3 2000000 }

/-- Page 0 in unit 0 of segment 600, which is CLOSED, on the dies 0 and 1; the unit is in the Lakebed. -/
def unit0 : FlashUnit := { page := 0, seq := 7, cells := [(0, 0xC3)], poison := [], key := 0 }
def closedSegment : State :=
  opened.onLake fun l => { l with
    mapping := [(0, (600, 0))], units := [((600, 0), unit0)], segments := [(600, { state := .closed, valid := 1, dies := [0, 1] })] }

/-- A relocation of page 0 to unit 0 of segment 601 runs on die 0. -/
def moveOp : FlashOp := .relocate 0 601 0 false
def relocating : State := onFl 0 (fun c => { c with jobs := [flashJob moveOp (some unit0)] }) closedSegment

/-- An erase of a Basin die-block runs on die 0, which has one block to erase. -/
def erasingBlock : State := onFl 0 (fun c => { c with jobs := [flashJob (.basinErase 0) none] }) unerased

/-- A segment of which dies 0 and 1 are still to be erased. -/
def twoDies : State := closedSegment.onLake fun l => { l with segments := [(600, { state := .closed, dies := [0, 1] })] }

/-- A segment of which die 0 is still to be erased. -/
def lastDie : State := closedSegment.onLake fun l => { l with segments := [(600, { state := .closed, dies := [0] })] }

/-- A visit of the flash patrol to segment 600 in which unit 0 failed decode. -/
def patrolBad : PatrolIn := { seg := 600, worstAttempt := 8, thirdSlot := true, failedUnits := [0] }

/-- A frozen state whose flash and DRAM are those of `ready`. -/
def flashRegion : State :=
  ready.onFlash fun f => { f with channels := (f.channels.map fun c => { c with state := .reset, oarSlot := none }) }

/-- Flash channel 0 of `drained false` runs operation `op` without data on die 0. -/
def flashingRead (op : FlashOp) : State := flashing op none

/-- Bow in CATCHUP with no member beside it. -/
def catchupAlone : State := (bowOut .catchup 0).onCrew fun c => { c with stroke := {}, seat := 0 }

/-- A copy for slot 0 of the value stream of PWR waits for its pair. -/
def slotV (c : Crew) : WSlot := { slot0 c with cmd := .coreTarget 800 }
def landedValue (c : Crew) : State :=
  ready.onCrew fun r => { r with pwr := { streams := [(streamKey { cox := false, num := 1 }, { slots := [slotV c] })] } }

/-- Bow's copy with digest `d` of the slot that Stroke filled, its lag over. -/
def lagCopy (d : Nat) : Copy :=
  { crew := .bow, coxCore := true, landing := .fls, stream := coxStream, seq := 0, digest := BitVec.ofNat 32 d, cmd := .flashOarReload 0, shadow := false }
def lagging (d : Nat) : State := (landed .stroke).onCrew fun r => { r with lagBuf := [(0, lagCopy d)] }

/-- A fault of class `x` with KEY `k` at unit `m`. -/
def faultOn (m : MasterId) (x : FClass) (k : BitVec 8) : FaultIn := { faultAt x k with unit := m }

/-- `ready` with a held U capture of unit `m` whose grace timer runs. -/
def graceOf (m : MasterId) : State := heldAt m .u

/-- A fault that the detectors of channel 0 report while its reset runs. -/
def resetFaultIn : FaultIn := { faultAt .c 1 with unit := ddrId 0 0, master := ddrId 0 0, detector := .memPort 0 }

/-- Head 0 linked, the host region not yet ready; head 0 at full width and rate; no VDD_AON. -/
def headTraining : State := onHead 0 (fun h => { h with ready := false }) ready
def wideHead : State := onHead 0 (fun h => { h with width := 16, rate := .g64 }) ready
def noAon : State := ready.onSeq fun q => { q with vddAon := false }

/-- A fault with KEY 1 at the dirty filter that does not persist. -/
def faultBrief (x : FClass) : FaultIn := { faultAt x 1 with persists := false }

/-- A save with 64 dies; a rail of `ready` that is SAVE_CRITICAL; a device that climbs, one that powers down, and one that is up and latched. -/
def savingHot : State := (savingIn .map .vin).onSave fun v => { v with dies := 64 }
def criticalRail : State := seqWith fun q => { q with railCfg := listUpd 8 (fun r => { r with flags := 1 }) q.railCfg }
def climbing2 : State := notReady.onSeq fun q => { q with st := .flash, dir := .up, complete := false }
def goingDown : State := notReady.onSeq fun q => { q with st := .flash, dir := .down }
def latchedUp : State := seqWith fun q => { q with latched := true, latchCause := 1, latchRail := 3 }

/-- String A full, 24 h after it was fitted. -/
def learnDueA : State :=
  (strA fun b => { b with full := true, fullAt := some (86400000000000, 3300000000) }).onTb fun b => { b with now := 86400000000000 }

/-- A clean shutdown with nothing left to drain, the checkpoint's chunks written. -/
def drainedShutdown : State := (shutting .draining).onLake fun l => { l with chunkWrite := some chunksDone }

/-- One STAGED record waits in the ring. -/
def wlStaged : WlRec := { wlRec 3 with staged := true }
def stagedOne : State := ready.onWl fun w => { w with ring := [wlStaged], nextSeq := 1 }

/-- The first segment of the charger command list is held for an SMBus requester. -/
def segment1 : Session := { key := sessionKey (.smbus 8), last := 2000080, seg := some { index := 0x6006, sub := 0, bytes := [1, 0] } }
def halfList : State := (onSmbus ready).onOd fun o => { o with sessions := [segment1] }

/-- The update session that the secured session 3 carries. -/
def securedSession : UpdSession := { session5 4096 [] with secured := some 3 }
def securedUpdate : State := (owned 0).onUpd fun u => { u with session := some securedSession }

/-- A Commit of endpoint 8 verifies; and another of its requests waits. -/
def committing8 : State := (onSmbus ready).onUpd fun u => { u with committer := some (.smbus 8), stage := .verifying }
def waiting8 (b : List Byte) : McMsg := { src := 8, addr := 0x10, tag := 7, bytes := b }
def waitingFor (b : List Byte) (s : State) : State := s.onBus fun x => { x with waiting := [waiting8 b] }

/-- A message of endpoint 8 begun with `n` bytes, and the packet that ends it. -/
def assembly8 (n : Nat) : Assembly := { src := 8, last := 0, nextSeq := 0, bytes := List.replicate n 0 }
def assembled (n : Nat) : State := (onSmbus ready).onBus fun b => { b with assembly := [assembly8 n] }
def continued (seq : Fin 4) (l : List Byte) : MctpPkt := { packet true true l with som := false, seq := seq }

/-- A read whose payload is short. -/
def shortRead : List Byte := vendorMessage ready 31 (1, 0) (1, 0xC0) [1, 2]

/-- CORE has started with a freeze that holds the coxswains in reset. -/
def heldStart (pin jtag : Bool) : State :=
  ((State.reset.onSeq fun q => { q with st := .core, vddAon := true, dir := .up }).onClk fun c =>
    { c with rootsStarted := true }).onFrz fun f => { f with frozen := true, pin := pin, jtag := jtag }

/-- A freeze in Boathouse mode. -/
def boatFrozen : State := boat.onFrz fun f => { f with frozen := true, od := true }

/-- Channel 0 in a block reset, its endpoint set. -/
def resetting0 : State := onSmbus (onCh 0 (fun c => { c with state := .blockReset }) ready)

/-- A trial that began 23 h ago. -/
def lastHour : State := trying.onUpd fun u => { u with trialS := 82800 }

/-- A Commit of the mailbox of head 0 that verifies, in Boathouse mode or not. -/
def verifying0 : State := (updating .verifying 4096 [(0, 4096)]).onUpd fun u => { u with committer := some (.mailbox 0) }
def boatVerifying : State := boatReady.onUpd fun u => { u with stage := .verifying }

/-- Every plan trigger kept; a trigger of the temperature during a plan. -/
def keptAll (n : BitVec 4) : State := (planning 1 60).onPlan fun p => { p with pending := n }
def hotPlan (running ramp : Bool) : State :=
  ramped.onPlan fun p => { p with running := running, ramp := ramp, tempC := p.tempC + 50, startCame := false }

/-- A check of the ramp with a trigger of the temperature kept. -/
def keptRamp : State := ramped.onPlan fun p => { p with pending := 2 }

/-- A ramp whose goal lies 40 mV beyond its target. -/
def farRamp : State := (ramping 755 760).onPlan fun p => { p with goal := 800 }

/-- A reading of the Ergometers whose third fails its parity check. -/
def badReadings : List ErgoIn := readings.set 2 { slack := 1, drift := 1, parityOk := false }

/-- Boathouse mode with the owner lock set, or with no byte of the image accepted; a scan in progress there. -/
def boatLocked : State := boatReady.onOd fun o => { o with set := { o.set with ownerLock := 1 } }
def boatPart : State := boatReady.onUpd fun u => { u with session := some (session5 4096 []) }
def boatScan : State := onHead 0 (fun h => { h with bg := .scan 0 64 }) boat
/-- What the ROM finds of the slots of a state: both verify. -/
def bothFound (s : State) : State := romFinds 1 true (romFinds 0 true s)

/-- A whole image accepted: while a scan runs, under an owner lock, verifying during a Sprint. -/
def wholeImage : State := updating .idle 4096 [(0, 4096)]
def imageScan : State := onHead 0 (fun h => { h with bg := .scan 0 64 }) wholeImage
def imageLocked : State := wholeImage.onOd fun o => { o with set := { o.set with ownerLock := 1 } }
def imageSprint : State := verifying0.onPm fun p => { p with sprint := true }

/-- Images whose verification finds something wrong, or settings that cannot be read. -/
def badMagic : VerifyIn := { verifyIn true with magic := 0 }
def badDigest : VerifyIn := { verifyIn true with digestOk := false }
def otherDevice : VerifyIn := { verifyIn true with deviceCode := 0 }
def unreadable : VerifyIn := { verifyIn true with settingsReadable := false }

/-- A drain that failed before; a channel isolated; a profile without settings. -/
def failedEntry : DrainEntry := { drainEntry true with failed := true }
def isolated0 : State := onCh 0 (fun c => { c with state := .isolated }) ready
def noSettings : ProfileIn := { profileIn true with settings := 0 }

/-- `ready` with a spare pool of ten blocks on die 0, and `onDie` in a save. -/
def spareDie : State := ready.onFlash fun f => { f with dies := [(0, { spare := 10 })] }
def dieSave : State := onDie.onSave fun v => { v with running := true, dies := 20 }

/-- `drained false` with channel 0 in block reset. -/
def drainReset : State := onCh 0 (fun c => { c with state := .blockReset }) (drained false)

/-- The latch set in DARK, and DARK after a cut of this cycle. -/
def latchedDark : State := (onSmbus (auxSeq fun q => { q with st := .dark, complete := false, latched := true, latchCause := 1, latchRail := 3 })).onTb fun b => { b with now := 10000000000 }
def cutDark : State := onSmbus (auxSeq fun q => { q with st := .dark, complete := false, dir := .cut })
def cutNow : State := ready.onSeq fun q => { q with cutMark := some { time := ready.tb.now, latches := true, rails := [(2, true)] }, latchRail := 4 }
def heldStagger : State := staggering.onSeq fun q => { q with holdAux := true }
def latchedAuxUp : State := auxSeq fun q => { q with latched := true, catchIn := true }
def noMain : State := onSmbus (seqWith fun q => { q with mainOk := false })
def cutMark2 : CutMark := { time := ready.tb.now, latches := true, rails := [(2, true)] }

/-- Served over SMBus, with a request for the other crew's seat next in the queue. -/
def seatAsking : State := { onSmbus ready with pending := [.seatRequest (.mailbox 0) 1] }

/-- Served over SMBus: a copy of the settings with `n` bytes used, one in work, and the seat asked for from both sides. -/
def copyUsed (n : Nat) : State := (onSmbus ready).onOd fun o => { o with used := n }
def copyInWork : State := (onSmbus ready).onOd fun o => { o with workingCopy := true }
def rivalled : State := (onSmbus ready).onCrew fun c => { c with rival := true }
def listedOver : State := listed.onCxl fun c => { c with poisonOverflow := some 7 }

/-- Nothing but the one held write stands in the buffer. -/
theorem held_only (s : State) (e : WEntry) (h : s.wb.entries = [e]) (j : Nat) (x : WEntry)
    (hj : s.wb.entries[j]? = some x) (hne : j ≠ 0) : x.phase = .admitted := by
  rw [h] at hj
  cases j with
  | zero => exact absurd rfl hne
  | succ n => cases hj

/-- The image of a save is in order. -/
theorem image1_ordered : ImageOrdered image1 := by unfold ImageOrdered; decide +kernel

/-- The channels of LDPC engine 7 are active. -/
theorem engine7_active (n : Nat) (h : n / 4 = 7) : (flAt ready n).state = .active := by
  have h1 : ∀ k, k < 32 → (flAt ready k).state = .active := by decide +kernel
  exact h1 n (by omega)

/-- Every reading but the third passes its parity check. -/
theorem bad_alone (j : Nat) (x : ErgoIn) (h : badReadings[j]? = some x) (hj : j ≠ 2) : x.parityOk = true := by
  have h1 : ∀ k, k < 28 → k ≠ 2 → (badReadings[k]?).all (·.parityOk) = true := by decide +kernel
  have h2 : j < 28 := (List.getElem?_eq_some_iff.mp h).1
  have h3 := h1 j h2 hj
  rw [h] at h3
  exact h3

/-! ## States whose witnesses need a value that the model leaves open, or a full table -/

/-- A session whose sectors were erased in the time that they take, with `l` accepted; and one whose erase has just begun. -/
def erasedBlock (l : List (Nat × Nat)) : State := (updating .idle 4096 l).onTb fun b => { b with now := 2000080 + Config.sectorEraseNs 0 }
def eraseBegunSession : UpdSession := { session5 4096 [] with opened := 2000081 }
def eraseBegun : State := (updating .idle 4096 []).onUpd fun u => { u with session := some eraseBegunSession }

theorem erased_range (l : List (Nat × Nat)) (off n : Nat) (h0 : off / 4096 = 0) (h1 : (off + n - 1) / 4096 = 0) :
    rangeErased (erasedBlock l) (session5 4096 l) off n = true := by
  unfold rangeErased
  rw [h0, h1]
  simp [erasedBlock, session5, State.onTb]

theorem unerased_range : rangeErased eraseBegun eraseBegunSession 0 1 = false := by
  have h : ¬ (2000081 + Config.sectorEraseNs 0 ≤ 2000080) := by omega
  have h1 : eraseBegun.tb.now = 2000080 := by decide +kernel
  simp [rangeErased, eraseBegunSession, h1]
  omega

/-- A drain table without a free index: `n` entries of page 5. -/
def entry5 : DrainEntry := { drainEntry true with page := 5 }
def tableOf (n : Nat) : List (Nat × DrainEntry) := (List.range' 0 n).map fun i => (i, entry5)
def fullTable : State := written.onPm fun p => { p with drains := tableOf 65536 }

theorem find_range (e : DrainEntry) (n s i : Nat) (h : s ≤ i) (h1 : i < s + n) :
    tabFind i ((List.range' s n).map fun k => (k, e)) = some e := by
  induction n generalizing s with
  | zero => omega
  | succ n ih =>
    rw [List.range'_succ, List.map_cons]
    unfold tabFind
    rw [if_neg (by omega)]
    by_cases hi : i = s
    · rw [if_pos hi]
    · rw [if_neg hi]
      exact ih (s + 1) (by omega) (by omega)

theorem full_freeIndex : freeIndex fullTable = none := by
  unfold freeIndex
  rw [List.find?_eq_none]
  intro i hi
  have h : i < 65536 := by
    have := List.mem_range.mp hi
    omega
  have h1 : tabFind i fullTable.pm.drains = some entry5 := find_range entry5 65536 0 i (by omega) (by omega)
  rw [h1]
  decide

theorem full_drainOf : drainOf fullTable 0 = none := by
  unfold drainOf
  rw [List.find?_eq_none]
  intro d hd
  have h1 : d ∈ tableOf 65536 := hd
  obtain ⟨i, -, rfl⟩ := List.mem_map.mp h1
  exact (by decide : ¬ decide (entry5.page = 0) = true)

theorem full_failedFirst : failedFirst fullTable = [] := by
  have h : (tableOf 65536).filter (fun d => d.2.failed && decide (d.2.bucket = (bucketOf 1).slot)) = [] := by
    rw [List.filter_eq_nil_iff]
    intro d hd
    obtain ⟨i, -, rfl⟩ := List.mem_map.mp hd
    exact nofun
  show ([(bucketOf 1)].map fun b =>
    ((tableOf 65536).filter fun d => d.2.failed && decide (d.2.bucket = b.slot)).map fun d => d.2.page).flatten = []
  rw [List.map_cons, h]
  rfl

theorem full_coldOf : coldOf fullTable (bucketOf 1).slot = [0] := by
  unfold coldOf
  have h : fullTable.pm.pages = [(0, { state := .dirty, bucket := 0, hot := 1 })] := rfl
  have h1 : skipped fullTable 0 = false := by
    have h2 : isHot fullTable 0 = false := by decide +kernel
    unfold skipped
    rw [h2]
    rfl
  rw [h, List.filter_cons, full_drainOf, h1]
  decide

theorem full_next : 0 ∈ outflowNext fullTable := by
  have h : outflowNext fullTable = (failedFirst fullTable ++ [coldOf fullTable (bucketOf 1).slot].flatten).take 64 := rfl
  rw [h, full_failedFirst, full_coldOf]
  decide

theorem witness_MarkDrainingStartsDrain_full :
    MapRuns fullTable ∧ outflowEnabled fullTable = true ∧ pageState fullTable 0 = .dirty ∧ 0 ∈ outflowNext fullTable ∧
    drainOf fullTable 0 = none ∧ freeIndex fullTable = none :=
  ⟨by unfold MapRuns Calm; decide +kernel, by decide +kernel, by decide +kernel, full_next, full_drainOf, full_freeIndex⟩

theorem witness_UpdateSessionsRun_erasing :
    UpdateServed eraseBegun (.mailbox 0) ∧ Calm eraseBegun ∧ eraseBegun.upd.session = some eraseBegunSession ∧
    rangeErased eraseBegun eraseBegunSession 0 1 = false :=
  ⟨by unfold UpdateServed; decide +kernel, by unfold Calm; decide +kernel, by decide +kernel, unerased_range⟩

theorem witness_UpdateSessionsRun_erased :
    (UpdateServed (erasedBlock []) (.mailbox 0) ∧ Calm (erasedBlock []) ∧
      rangeErased (erasedBlock []) (session5 4096 []) 0 4096 = true) ∧
    (erasedBlock []).upd.session = some (session5 4096 []) ∧ overlaps 0 4096 (session5 4096 []).ranges = false :=
  ⟨⟨⟨rfl, rfl⟩, ⟨rfl, rfl⟩, erased_range [] 0 4096 rfl rfl⟩, rfl, rfl⟩

theorem witness_UpdateSessionsRun_overlap :
    (UpdateServed (erasedBlock [(0, 2)]) (.mailbox 0) ∧ Calm (erasedBlock [(0, 2)]) ∧
      rangeErased (erasedBlock [(0, 2)]) (session5 4096 [(0, 2)]) 1 2 = true) ∧
    (erasedBlock [(0, 2)]).upd.session = some (session5 4096 [(0, 2)]) ∧
    overlaps 1 2 (session5 4096 [(0, 2)]).ranges = true :=
  ⟨⟨⟨rfl, rfl⟩, ⟨rfl, rfl⟩, erased_range [(0, 2)] 1 2 rfl rfl⟩, rfl, rfl⟩


theorem assembled_joined (n : Nat) : joinedBytes (assembled n) (continued 0 [1]) = some (List.replicate n 0 ++ [1]) := by
  have h : (assembly8 n).nextSeq = (continued 0 [1]).seq ∧ (assembled n).tb.now ≤ (assembly8 n).last + 100000000 :=
    ⟨rfl, (by decide +kernel : ready.tb.now ≤ 0 + 100000000)⟩
  have h1 : assemblyOf (assembled n) (continued 0 [1]).src = some (assembly8 n) := rfl
  have h2 : ¬ (continued 0 [1]).som = true := nofun
  unfold joinedBytes
  rw [if_neg h2, h1, Option.bind_some, if_pos h]
  rfl
/-! ## Witnesses: a state and operands that meet the hypotheses of each clause -/

theorem witness_EmptyQueueCountsOneTick :
    (running.pending = [] ∧ running.bus.waiting = []) ∧
    (frozenState.pending = [] ∧ frozenState.bus.waiting = []) ∧
    ((slewing 3).pending = [] ∧ (slewing 3).bus.waiting = []) ∧
    ((slewing (-3)).pending = [] ∧ (slewing (-3)).bus.waiting = []) ∧
    (State.reset.pending = [] ∧ State.reset.bus.waiting = []) := by
  decide +kernel

theorem witness_HostReadReturnsMergedLine :
    (ReadServed ready 0 0 0 ∧ Calm ready) ∧
    (ReadServed ready 0 2194728288192 34292629503 ∧ Calm ready) := by
  unfold ReadServed Calm; decide +kernel

theorem witness_HostReadNotServedReturnsPoison :
    memRequest notReady 0 = true ∧ notServed notReady = true ∧ (capture notReady (headPort 0)).sticky = false ∧
    Calm notReady := by
  unfold Calm; decide +kernel

theorem witness_HostReadElsewhere :
    (memRequest fencedState 0 = false) ∧
    (memRequest ready 0 = true ∧ notServed ready = false ∧ lineOfHpa ready 0 (2 ^ 63) = none) ∧
    (memRequest withdrawn0 0 = true ∧ notServed withdrawn0 = false ∧ lineOfHpa withdrawn0 0 0 = some 0 ∧
      Calm withdrawn0 ∧ (withdrawn withdrawn0 (pageOf 0) = true ∨ unrestored withdrawn0 (pageOf 0) = true ∧
      pageState withdrawn0 (pageOf 0) = PState.lost)) ∧
    (memRequest lostWindow 0 = true ∧ notServed lostWindow = false ∧
      lineOfHpa lostWindow 0 (5 * 4096) = some (5 * 64) ∧ Calm lostWindow ∧
      (withdrawn lostWindow (pageOf (5 * 64)) = true ∨ unrestored lostWindow (pageOf (5 * 64)) = true ∧
      pageState lostWindow (pageOf (5 * 64)) = PState.lost)) ∧
    (memRequest (window RestPhase.fill) 0 = true ∧ notServed (window RestPhase.fill) = false ∧
      lineOfHpa (window RestPhase.fill) 0 0 = some 0 ∧ Calm (window RestPhase.fill) ∧
      withdrawn (window RestPhase.fill) (pageOf 0) = false ∧ unrestored (window RestPhase.fill) (pageOf 0) = true ∧
      pageState (window RestPhase.fill) (pageOf 0) ≠ PState.lost) ∧
    (memRequest inReset 0 = true ∧ notServed inReset = false ∧ lineOfHpa inReset 0 64 = some 1 ∧ Calm inReset ∧
      withdrawn inReset (pageOf 1) = false ∧ unrestored inReset (pageOf 1) = false ∧
      inBlockReset inReset (pageOf 1) = true ∧ bufferHit inReset 1 = false) := by
  unfold Calm; decide +kernel

theorem witness_HostWriteToDirtyPageCompletes :
    WriteTaken written 0 0 0 ∧ pageState written (pageOf 0) = PState.dirty ∧ inWindow written = false ∧ Calm written := by
  unfold WriteTaken ReadServed Calm; decide +kernel

theorem witness_FirstWriteMakesPageDirty :
    (WriteTaken opened 0 0 0 ∧
      (pageState opened (pageOf 0) = PState.clean ∨ pageState opened (pageOf 0) = PState.lost) ∧
      inWindow opened = false ∧ Calm opened ∧ newestBucket opened = some (bucketOf 0) ∧ (bucketOf 0).isOpen = true ∧
      roomFor opened = true ∧ holdActive opened = false ∧ opened.log.spill = [] ∧ opened.log.tail.length < tailEntries) ∧
    (WriteTaken lostPage 0 0 0 ∧
      (pageState lostPage (pageOf 0) = PState.clean ∨ pageState lostPage (pageOf 0) = PState.lost) ∧
      inWindow lostPage = false ∧ Calm lostPage ∧ newestBucket lostPage = some (bucketOf 0) ∧
      (bucketOf 0).isOpen = true ∧ roomFor lostPage = true ∧ holdActive lostPage = false ∧ lostPage.log.spill = [] ∧
      lostPage.log.tail.length < tailEntries) := by
  unfold WriteTaken ReadServed Calm; decide +kernel

theorem witness_HostWriteElsewhere :
    (memRequest fencedState 0 = false) ∧
    (memRequest notReady 0 = true ∧ notServed notReady = true ∧ (capture notReady (headPort 0)).sticky = false ∧
      Calm notReady) ∧
    (memRequest ready 0 = true ∧ notServed ready = false ∧ lineOfHpa ready 0 (2 ^ 63) = none) ∧
    (memRequest withdrawn0 0 = true ∧ notServed withdrawn0 = false ∧ lineOfHpa withdrawn0 0 0 = some 0 ∧
      Calm withdrawn0 ∧ withdrawn withdrawn0 (pageOf 0) = true) ∧
    (memRequest fullBuffer 0 = true ∧ notServed fullBuffer = false ∧ lineOfHpa fullBuffer 0 0 = some 0 ∧
      Calm fullBuffer ∧ withdrawn fullBuffer (pageOf 0) = false ∧ bufferEntries ≤ fullBuffer.wb.entries.length) := by
  unfold Calm; decide +kernel

theorem witness_FirstWriteWithoutRoomIsHeld :
    (WriteTaken (noRoom opened) 0 0 0 ∧
      (pageState (noRoom opened) (pageOf 0) = PState.clean ∨ pageState (noRoom opened) (pageOf 0) = PState.lost) ∧
      inWindow (noRoom opened) = false ∧ Calm (noRoom opened) ∧ roomFor (noRoom opened) = false) ∧
    (WriteTaken (noRoom lostPage) 0 0 0 ∧
      (pageState (noRoom lostPage) (pageOf 0) = PState.clean ∨ pageState (noRoom lostPage) (pageOf 0) = PState.lost) ∧
      inWindow (noRoom lostPage) = false ∧ Calm (noRoom lostPage) ∧ roomFor (noRoom lostPage) = false) := by
  unfold WriteTaken ReadServed Calm; decide +kernel

theorem witness_HeldFirstWriteIsAdmitted_HeldAdmit :
    HeldAlone holding 0 (writeEntry 64 WPhase.heldWeir) (bucketOf 0) ∧ roomFor holding = true :=
  ⟨⟨rfl, rfl, held_only _ _ rfl, by unfold Calm; decide +kernel⟩, by decide +kernel⟩

theorem witness_HeldFirstWriteIsAdmitted_HoldExpires :
    HeldAlone (noRoom holding) 0 (writeEntry 64 WPhase.heldWeir) (bucketOf 0) ∧ roomFor (noRoom holding) = false :=
  ⟨⟨rfl, rfl, held_only _ _ rfl, by unfold Calm; decide +kernel⟩, by decide +kernel⟩

theorem witness_MarkAdvancesEpoch :
    (fenced opened = false ∧ frozen opened = false ∧ notServed opened = false ∧ opened.host.epoch < 1) ∧
    (fenced opened = false ∧ frozen opened = false ∧ 0 ≤ opened.host.epoch) ∧
    (newestBucket opened = some (bucketOf 0) ∧ (∀ x ∈ opened.pm.buckets, x.slot = (bucketOf 0).slot → x = bucketOf 0)) := by
  decide +kernel

theorem witness_SettleRaisesTarget :
    (fenced opened = false ∧ frozen opened = false ∧ notServed opened = false ∧ 0 ≤ opened.host.settled) ∧
    (fenced opened = false ∧ frozen opened = false ∧ notServed opened = false ∧ opened.host.settled < 1 ∧
      opened.host.epoch < 1) ∧
    (fenced epoch5 = false ∧ frozen epoch5 = false ∧ notServed epoch5 = false ∧ epoch5.host.settled < 5 ∧
      5 ≤ epoch5.host.epoch) := by
  decide +kernel

theorem witness_DoorbellsNotTaken :
    ((fenced fencedState = true ∨ frozen fencedState = true)) ∧
    (fenced notReady = false ∧ frozen notReady = false ∧ notServed notReady = true) := by
  decide +kernel

theorem witness_HeadResetsTouchOneHead :
    (darkOrAux ready = false ∧ headPresent ready 0 = true ∧ ready.upd.session = none ∧ Calm ready) ∧
    ((darkOrAux State.reset = true ∨ headPresent State.reset 1 = false)) ∧
    (linkEntered ready = true ∧ headPresent ready 0 = true ∧ ready.upd.session = none ∧ Calm ready ∧
      (Instr.linkReset 0 = Instr.linkReset 0 ∧
      true = true ∨ (Instr.linkReset 0 = Instr.flr 0 ∨ Instr.linkReset 0 = Instr.cxlReset 0) ∧ true = false)) ∧
    (linkEntered ready = true ∧ headPresent ready 0 = true ∧ ready.upd.session = none ∧ Calm ready ∧
      (Instr.flr 0 = Instr.linkReset 0 ∧ false = true ∨ (Instr.flr 0 = Instr.flr 0 ∨ Instr.flr 0 = Instr.cxlReset 0) ∧
      false = false)) ∧
    (linkEntered ready = true ∧ headPresent ready 0 = true ∧ ready.upd.session = none ∧ Calm ready ∧
      (Instr.cxlReset 0 = Instr.linkReset 0 ∧
      false = true ∨ (Instr.cxlReset 0 = Instr.flr 0 ∨ Instr.cxlReset 0 = Instr.cxlReset 0) ∧ false = false)) ∧
    ((linkEntered inFlash = false ∨ headPresent inFlash 0 = false) ∧
      (Instr.flr 0 = Instr.linkReset 0 ∨ Instr.flr 0 = Instr.flr 0 ∨ Instr.flr 0 = Instr.cxlReset 0)) := by
  unfold Calm; decide +kernel

theorem witness_LinkTrainsAfterPerst :
    (linkEntered untrained = true ∧ (headOf untrained 0).perst = false ∧ headPresent untrained 0 = true ∧
      untrained.fault.shadows = [] ∧ Calm untrained) ∧
    ((linkEntered inFlash = false ∨ (headOf inFlash 0).perst = true ∨ headPresent inFlash 0 = false)) := by
  unfold Calm; decide +kernel

theorem witness_GpfWaitsForBufferedWrites :
    ((headOf buffered 0).link = true ∧ headPresent buffered 0 = true ∧ frozen buffered = false) ∧
    ((headOf fencedState 0).link = true ∧ headPresent fencedState 0 = true ∧ frozen fencedState = false ∧
      (fenced fencedState = true ∨ memReady fencedState = false)) ∧
    ((headOf buffered 0).link = true ∧ headPresent buffered 0 = true ∧ frozen buffered = false ∧
      fenced buffered = false ∧ memReady buffered = true) := by
  decide +kernel

theorem witness_GpfDrainRecordsAndAcknowledges :
    draining.host.gpf = Gpf.phase2Draining ∧ draining.ledger.failed = false ∧ Calm draining ∧
    (∀ e ∈ draining.wb.entries, e.id ∈ draining.host.gpfWaits → inBlockReset draining (pageOf e.line) = false → drainable draining e = true) := by
  unfold Calm; decide +kernel

theorem witness_ReferenceFollowsRefclk :
    (ready.clk.rootsStarted = true ∧ ready.clk.refclk = false) ∧
    (returning.clk.countRunning = true ∧ returning.clk.refclk = true ∧ returning.clk.springLock = true ∧
      saving returning = false ∧ restoring returning = false) ∧
    (savingReturn.clk.countRunning = true ∧ savingReturn.clk.refclk = true ∧ savingReturn.clk.springLock = true ∧
      (saving savingReturn = true ∨ restoring savingReturn = true)) ∧
    (returning.clk.rootsStarted = true ∧ returning.clk.refclk = true ∧ Calm returning) ∧
    ((ready.clk.rootsStarted = false ∨ ready.clk.refclk = false)) := by
  unfold Calm; decide +kernel

theorem witness_OneLostRootIsCaptured :
    ready.clk.springLock = true ∧ ready.clk.backupLock = true ∧ (capture ready 64).sticky = false ∧ Calm ready := by
  unfold Calm; decide +kernel

theorem witness_ClocksLeftAlone :
    ((State.reset.clk.rootsStarted = false ∨ State.reset.clk.refclk = true)) ∧
    ((State.reset.clk.countRunning = false ∨ State.reset.clk.refclk = false)) ∧
    (State.reset.clk.springLock = false) ∧
    (State.reset.clk.backupLock = false) ∧
    ((ready.clk.rootsStarted = false ∨ (if true = true then ready.clk.backupLock else ready.clk.springLock) = true)) := by
  decide +kernel

theorem witness_RootRelocks :
    (oneRoot.clk.rootsStarted = true ∧
      (if false = true then oneRoot.clk.backupLock else oneRoot.clk.springLock) = false ∧ Calm oneRoot) ∧
    (noRoot.clk.rootsStarted = true ∧
      (if true = true then noRoot.clk.backupLock else noRoot.clk.springLock) = false ∧ Calm noRoot) := by
  unfold Calm; decide +kernel

theorem witness_PtmStepsForwardOrSlews :
    ((1 ≠ 0 ∨ ready.host.head0.link = false ∨ frozen ready = true)) ∧
    (ready.host.head0.link = true ∧ frozen ready = false ∧ ready.tb.now + 1000000 < 3000081) ∧
    (ready.host.head0.link = true ∧ frozen ready = false ∧ 3000080 ≤ ready.tb.now + 1000000) := by
  decide +kernel

theorem witness_LevelIsLeastBoundLessMargin :
    (weaker ready = some (Str.a, readyBounds) ∧ 0 ≤ leastBound ready readyBounds ∧ ready.od.set.margin ≤ 100) ∧
    (anyCounted State.reset = false) ∧
    (weaker ready = some (Str.a, readyBounds) ∧ isCounted ready Str.b = true ∧
      ready.bat.desc = some PackDescriptor.reference) := by
  decide +kernel

theorem witness_WeirRecomputesCapAndFloor :
    (WeirQuiet ready ∧ anyMember ready = true) ∧
    (WeirQuiet ready ∧ anyCoxswain ready = true) ∧
    ((fencedState.host.fence = true ∨ frozen fencedState = true)) ∧
    (anyMember State.reset = false) := by
  unfold WeirQuiet Calm; decide +kernel

theorem witness_PublicationIsEnforcedUnderCap :
    ((isMember fencedState Crew.stroke = false ∨ fencedState.host.fence = true ∨ frozen fencedState = true)) ∧
    (isMember ready Crew.stroke = true ∧ ready.host.fence = false ∧ frozen ready = false ∧
      (∀ e ∈ ready.wb.entries, e.phase = WPhase.admitted) ∧ Calm ready ∧ 281474976710655 < 2 ^ 48) ∧
    (isMember ready Crew.bow = true ∧ ready.host.fence = false ∧ frozen ready = false ∧
      (∀ e ∈ ready.wb.entries, e.phase = WPhase.admitted) ∧ Calm ready ∧ 0 < 2 ^ 48) := by
  unfold Calm; decide +kernel

theorem witness_WeirDecaysToFloor :
    (ready.weir.state = WeirState.published ∧ frozen ready = false ∧ ready.upd.trial ≠ 1 ∧ Calm ready) ∧
    (decaying.weir.state = WeirState.decaying ∧ frozen decaying = false ∧ Calm decaying) ∧
    (1000000000 ≤ 1000000000) := by
  unfold Calm; decide +kernel

theorem witness_MarkDrainingStartsDrain :
    (MapRuns written ∧ outflowEnabled written = true ∧ pageState written 0 = PState.dirty ∧ 0 ∈ outflowNext written ∧
      drainOf written 0 = none ∧ freeIndex written = some 0 ∧ (∀ e ∈ written.wb.entries, pageOf e.line ≠ 0)) ∧
    (MapRuns written ∧ outflowEnabled written = true ∧ (∀ p ∈ [1], pageState written p ≠ PState.dirty) ∧
      [1].length ≤ 64) ∧
    (MapRuns stuckWrite ∧ outflowEnabled stuckWrite = true ∧ pageState stuckWrite 0 = PState.dirty ∧
      0 ∈ outflowNext stuckWrite ∧ drainOf stuckWrite 0 = none ∧ freeIndex stuckWrite = some 0 ∧
      ∃ e ∈ stuckWrite.wb.entries, pageOf e.line = 0 ∧
      (∀ e ∈ stuckWrite.wb.entries, pageOf e.line = 0 → drainable stuckWrite e = false)) ∧
    (MapRuns (drained true) ∧ outflowEnabled (drained true) = true ∧ pageState (drained true) 0 = PState.dirty ∧
      drainOf (drained true) 0 = some (0, drainEntry true) ∧ (drainEntry true).failed = false) := by
  unfold MapRuns Calm; decide +kernel

theorem witness_MarkDrainingStartsDrain_2 :
    (MapRuns failedDrain ∧ outflowEnabled failedDrain = true ∧ pageState failedDrain 0 = PState.dirty ∧
      drainOf failedDrain 0 = some (0, failedEntry) ∧ failedEntry.failed = true ∧ 0 ∈ outflowNext failedDrain ∧
      (∀ e ∈ failedDrain.wb.entries, pageOf e.line ≠ 0)) ∧
    (MapRuns hotPage ∧ outflowEnabled hotPage = true ∧ pageState hotPage 0 = PState.dirty ∧ 0 ∉ outflowNext hotPage ∧
      (∀ x ∈ drainOf hotPage 0, x.2.failed = true)) ∧
    ((mapStopped fencedState = true ∨ outflowEnabled fencedState = false)) ∧
    (64 < (List.replicate 65 0).length ∧ Calm written) := by
  unfold MapRuns Calm; decide +kernel

theorem witness_WriteToDrainingPageIsLinked :
    WriteTaken (drained false) 0 0 0 ∧ pageState (drained false) (pageOf 0) = PState.draining ∧
    drainOf (drained false) (pageOf 0) = some (0, drainEntry false) ∧ inWindow (drained false) = false ∧
    Calm (drained false) ∧ newestBucket (drained false) = some (bucketOf 1) ∧ (bucketOf 1).isOpen = true ∧
    (drained false).log.spill = [] ∧ (drained false).log.tail.length < tailEntries := by
  unfold WriteTaken ReadServed Calm; decide +kernel

theorem witness_CompleteDrainCleansPage :
    (MapRuns (drained false) ∧ tagged (drained false) 65536 = some (drainEntry false) ∧ placeOk 3 4 = true) ∧
    (MapRuns (drained true) ∧ tagged (drained true) 65536 = some (drainEntry true) ∧ placeOk 3 4 = true) ∧
    (MapRuns (drained false) ∧ tagged (drained false) 0 = none ∧
      (Instr.completeDrain 0 3 4 = Instr.completeDrain 0 3 4 ∧
      placeOk 3 4 = true ∨ Instr.completeDrain 0 3 4 = Instr.failDrain 0)) ∧
    (MapRuns (drained false) ∧ tagged (drained false) 0 = none ∧ (Instr.failDrain 0 = Instr.completeDrain 0 3 4 ∧
      placeOk 3 4 = true ∨ Instr.failDrain 0 = Instr.failDrain 0)) := by
  unfold MapRuns Calm; decide +kernel

theorem witness_FailDrainKeepsPageDirty :
    (MapRuns (drained false) ∧ tagged (drained false) 65536 = some (drainEntry false) ∧
      (drainEntry false).linked = false) ∧
    (MapRuns (drained true) ∧ tagged (drained true) 65536 = some (drainEntry true) ∧ (drainEntry true).linked = true) := by
  unfold MapRuns Calm; decide +kernel

theorem witness_WalkListsPagesOfSlotAndState :
    (frozen written = false) ∧
    (frozen walking = false ∧ walking.pm.walk = some walk0 ∧ mapWf walking = true) := by
  decide +kernel

theorem witness_LostEntriesBecomeDirty :
    (mapStopped opened = false ∧ 0 * 32 < opened.cfg.installedPages ∧ (capture opened 8704).sticky = false ∧
      opened.od.set.graceMs ≠ 0 ∧ opened.log.spill.length + 64 ≤ spillEntries ∧ Calm opened) ∧
    (mapStopped opened = false ∧ 16744447 * 32 < opened.cfg.installedPages ∧ (capture opened 8704).sticky = false ∧
      opened.od.set.graceMs ≠ 0 ∧ opened.log.spill.length + 64 ≤ spillEntries ∧ Calm opened) ∧
    (mapStopped mapped = false ∧ pageState mapped 1 = PState.clean ∧ 1 < mapped.cfg.installedPages ∧
      mapped.pm.buckets.head? = some (bucketOf 0) ∧ (capture mapped 8704).sticky = false ∧ mapped.od.set.graceMs ≠ 0 ∧
      (restoring mapped = false ∨ pageRestored mapped 1 = true) ∧ mapped.log.spill.length + 64 ≤ spillEntries ∧
      Calm mapped) ∧
    (mapStopped (window RestPhase.fill) = false ∧ pageState (window RestPhase.fill) 3 = PState.clean ∧
      3 < (window RestPhase.fill).cfg.installedPages ∧ (capture (window RestPhase.fill) 8704).sticky = false ∧
      (window RestPhase.fill).od.set.graceMs ≠ 0 ∧ restoring (window RestPhase.fill) = true ∧
      pageRestored (window RestPhase.fill) 3 = false ∧ Calm (window RestPhase.fill)) := by
  unfold Calm; decide +kernel

theorem witness_RecountRestoresCounts :
    recounting.pm.recounting = true ∧ MapRuns recounting := by
  unfold MapRuns Calm; decide +kernel

theorem witness_LogKeepsEntriesInOrder :
    (frozen failedLedger = false ∧ anyCoxswain failedLedger = true ∧ failedLedger.host.fence = false ∧
      (failedLedger.ledger.failed = true ∨ 8192 ≤ failedLedger.log.tail.length)) ∧
    (compacting.log.compacting = some 1 ∧ 1 ≤ compacting.log.area.length ∧ frozen compacting = false ∧
      compacting.host.fence = false ∧ Calm compacting ∧
      compacting.log.spill.length + (List.map (fun x => walkEntries compacting x.1 x.2) compacting.pm.pages).flatten.length ≤ spillEntries) := by
  unfold Calm; decide +kernel

theorem witness_CheckpointKeepsMapping :
    (frozen ready = false ∧ emptySet ready = false ∧ ready.host.fence = false ∧ ready.rst.committed = true ∧
      ready.lake.chunkWrite = none) ∧
    (checkpointing.lake.chunkWrite = some chunksDone ∧ chunksDone.todo = [] ∧ chunksDone.dir = some (0, 7) ∧
      frozen checkpointing = false ∧ checkpointing.host.fence = false ∧ checkpointing.ledger.failed = false ∧
      Calm checkpointing) ∧
    ((∀ (w : ChunkWrite), ready.lake.chunkWrite = some w → w.todo ≠ [] ∨ w.dir = none)) := by
  unfold Calm; decide +kernel

theorem witness_SettledFollowsEmptySet :
    (settleReady (settling 0) = true ∧ mapStopped (settling 0) = false ∧ anyMember (settling 0) = true ∧
      (settling 0).ledger.failed = false ∧ Calm (settling 0)) ∧
    (settleReady (settling 1) = false) := by
  unfold Calm; decide +kernel

theorem witness_TriggerStartsSave :
    (SaveReady ready ∧ ready.seq.vddAon = true ∧ 10 ≤ 10) ∧
    (SaveReady ready ∧ ready.seq.vddAon = true) ∧
    (SaveReady ready ∧ headPresent ready 0 = true) ∧
    (ready.seq.vddAon = true ∧ 9 < 10) := by
  unfold SaveReady Calm; decide +kernel

theorem witness_TriggerStartsSave_2 :
    (SaveReady springAlone ∧ springAlone.fault.chipFatal = false ∧ springAlone.upd.trial ≠ 1 ∧
      (capture springAlone 64).sticky = false ∧ springAlone.clk.springLock = true ∧ springAlone.clk.backupLock = false) ∧
    (SaveReady backupAlone ∧ backupAlone.fault.chipFatal = false ∧ backupAlone.upd.trial ≠ 1 ∧
      (capture backupAlone 64).sticky = false ∧ backupAlone.clk.springLock = false ∧ backupAlone.clk.backupLock = true) := by
  unfold SaveReady Calm; decide +kernel

theorem witness_SecondTriggerStartsNothing :
    (saving (savingIn SavePhase.map Trigger.vin) = true ∧ headPresent (savingIn SavePhase.map Trigger.vin) 0 = true ∧
      frozen (savingIn SavePhase.map Trigger.vin) = false ∧ (savingIn SavePhase.map Trigger.vin).frz.waiting = false ∧
      Calm (savingIn SavePhase.map Trigger.vin)) ∧
    ((savingIn SavePhase.map Trigger.vin).seq.vddAon = true ∧ 10 ≤ 10 ∧
      saving (savingIn SavePhase.map Trigger.vin) = true ∧ frozen (savingIn SavePhase.map Trigger.vin) = false ∧
      (savingIn SavePhase.map Trigger.vin).frz.waiting = false ∧
      coreHeld (savingIn SavePhase.map Trigger.vin) = false ∧ Calm (savingIn SavePhase.map Trigger.vin) ∧
      ((savingIn SavePhase.map Trigger.vin).save.battery = true ∨ (savingIn SavePhase.map Trigger.vin).seq.dir = SeqDir.down ∨ (savingIn SavePhase.map Trigger.vin).save.phase = SavePhase.lastGasp)) ∧
    ((savingIn SavePhase.map Trigger.viral).seq.vddAon = true ∧ 10 ≤ 10 ∧
      saving (savingIn SavePhase.map Trigger.viral) = true ∧ frozen (savingIn SavePhase.map Trigger.viral) = false ∧
      (savingIn SavePhase.map Trigger.viral).frz.waiting = false ∧
      coreHeld (savingIn SavePhase.map Trigger.viral) = false ∧ Calm (savingIn SavePhase.map Trigger.viral) ∧
      (savingIn SavePhase.map Trigger.viral).save.battery = false ∧
      (savingIn SavePhase.map Trigger.viral).seq.dir ≠ SeqDir.down ∧
      (savingIn SavePhase.map Trigger.viral).save.phase ≠ SavePhase.lastGasp ∧
      noBattery (savingIn SavePhase.map Trigger.viral) = false) ∧
    (savingDark.seq.vddAon = true ∧ savingDark.seq.mainOk = false ∧ Calm savingDark) ∧
    (notReady.seq.vddAon = true ∧ 10 ≤ 10 ∧ memReady notReady = false ∧ frozen notReady = false ∧
      saving notReady = false ∧ notReady.frz.waiting = false ∧ coreHeld notReady = false ∧ Calm notReady) ∧
    (headPresent ready 1 = false) := by
  unfold Calm; decide +kernel

theorem witness_SaveDrainEmptiesBuffer :
    inPhase fencedSave SavePhase.fenced = true ∧ (∀ e ∈ fencedSave.wb.entries, drainable fencedSave e = true) ∧
    fencedSave.save.trigger = some Trigger.vin ∧ fencedSave.save.battery = false ∧
    (mainLoss Trigger.vin = true → noBattery fencedSave = false) ∧ Calm fencedSave := by
  unfold Calm; decide +kernel

theorem witness_SaveCommitsStartAndMap :
    (crewsSave (savingIn SavePhase.drained Trigger.vin) SavePhase.drained = true ∧
      (savingIn SavePhase.drained Trigger.vin).ledger.failed = false ∧ Calm (savingIn SavePhase.drained Trigger.vin)) ∧
    (crewsSave (savingIn SavePhase.map Trigger.vin) SavePhase.map = true ∧
      anyReset (savingIn SavePhase.map Trigger.vin) = false ∧
      (savingIn SavePhase.map Trigger.vin).ledger.failed = false ∧ Calm (savingIn SavePhase.map Trigger.vin)) ∧
    (anyReset inReset = true) := by
  unfold Calm; decide +kernel

theorem witness_SaveWritesResidueInPasses :
    bucketAt busyPass busyPass.save.bucket = some (bucketOf 1) ∧ passBusy busyPass (bucketOf 1) = true := by
  decide +kernel

theorem witness_SaveWritesResidueInPasses_Cursor :
    crewsSave (imaged SavePhase.residue) SavePhase.residue = true ∧ (imaged SavePhase.residue).save.stopped = false ∧
    cursorLe (imaged SavePhase.residue).save.cursor (Cursor.upTo 1 1) = true ∧
    (∃ im, (imaged SavePhase.residue).basin.image = some im ∧ ImageOrdered im) ∧
    (imaged SavePhase.residue).ledger.failed = false ∧ Calm (imaged SavePhase.residue) :=
  ⟨by decide +kernel, by decide +kernel, by decide +kernel, ⟨image1, rfl, image1_ordered⟩,
    by unfold Calm; decide +kernel⟩

theorem witness_SaveWritesResidueInPasses_BucketDone :
    crewsSave (imaged SavePhase.residue) SavePhase.residue = true ∧ (imaged SavePhase.residue).save.stopped = false ∧
    bucketAt (imaged SavePhase.residue) (imaged SavePhase.residue).save.bucket = some (bucketOf 1) ∧
    passBusy (imaged SavePhase.residue) (bucketOf 1) = false ∧
    (∃ im, (imaged SavePhase.residue).basin.image = some im ∧ ImageOrdered im) ∧
    (imaged SavePhase.residue).ledger.failed = false ∧ Calm (imaged SavePhase.residue) :=
  ⟨by decide +kernel, by decide +kernel, by decide +kernel, by decide +kernel, ⟨image1, rfl, image1_ordered⟩,
    by unfold Calm; decide +kernel⟩

theorem witness_SaveEndsWithRootsAndSaved :
    ((crewsSave (imaged SavePhase.mapping) SavePhase.mapping = true ∨ crewsSave (imaged SavePhase.mapping) SavePhase.residue = true ∧
      (imaged SavePhase.mapping).save.stopped = true) ∧ (imaged SavePhase.mapping).basin.image = some image1 ∧
      anyReset (imaged SavePhase.mapping) = false ∧ (imaged SavePhase.mapping).ledger.failed = false ∧
      Calm (imaged SavePhase.mapping)) ∧
    (crewsSave (imaged SavePhase.mapping) SavePhase.mapping = true ∧ rootsWritten (imaged SavePhase.mapping) = true ∧
      (imaged SavePhase.mapping).ledger.failed = false ∧ Calm (imaged SavePhase.mapping)) ∧
    (anyReset inReset = true) := by
  unfold Calm; decide +kernel

theorem witness_SaveLimitsHalveAndStop :
    (inPhase (imaged SavePhase.residue) SavePhase.residue = true ∧ (imaged SavePhase.residue).save.stopped = false) ∧
    ((inPhase (savingIn SavePhase.map Trigger.vin) SavePhase.residue = false ∨ (savingIn SavePhase.map Trigger.vin).save.stopped = true)) ∧
    (onBattery (imaged SavePhase.residue) = true ∧ noString (imaged SavePhase.residue) = false ∧
      everyString (imaged SavePhase.residue) true true = true ∧ Calm (imaged SavePhase.residue) ∧
      8 < (imaged SavePhase.residue).save.dies ∧
      (∀ (n : Nat), (imaged SavePhase.residue).save.lastHalving = some n → n + 5000000 ≤ (imaged SavePhase.residue).tb.now)) ∧
    (onBattery fewDies = true ∧ noString fewDies = false ∧ everyString fewDies true true = true ∧ Calm fewDies ∧
      (fewDies.save.dies ≤ 8 ∨ ∃ n, fewDies.save.lastHalving = some n ∧ fewDies.tb.now < n + 5000000)) ∧
    (saving heldOff = true ∧ (heldOff.save.battery = true ∨ 115 ≤ heldOff.cxl.tempC) ∧ 8 < heldOff.save.dies ∧
      heldOff.save.lastHalving = some 0 ∧ 0 + 5000000 ≤ heldOff.tb.now ∧ Calm heldOff) := by
  unfold Calm; decide +kernel

theorem witness_LastGaspCommitsAndCuts :
    (saving (imaged SavePhase.residue) = true ∧ inWindow (imaged SavePhase.residue) = false ∧
      (imaged SavePhase.residue).ledger.failed = false ∧ (imaged SavePhase.residue).log.overflow = false ∧
      onBattery (imaged SavePhase.residue) = true ∧
      (noString (imaged SavePhase.residue) = true ∨ everyString (imaged SavePhase.residue) true true = true ∧
      (true = true ∨ (imaged SavePhase.residue).save.dies ≤ 8))) ∧
    (saving (imaged SavePhase.residue) = true ∧ inWindow (imaged SavePhase.residue) = false ∧
      (imaged SavePhase.residue).ledger.failed = false ∧ (imaged SavePhase.residue).log.overflow = false ∧
      awaitsCrews (imaged SavePhase.residue) = true ∧ frozen (imaged SavePhase.residue) = false) ∧
    (saving emptySave = true ∧ inWindow emptySave = false ∧ emptySave.ledger.failed = false ∧
      emptySave.log.overflow = false ∧ emptySave.save.waitMember = true) ∧
    (saving rootlessSave = true ∧ inWindow rootlessSave = false ∧ rootlessSave.ledger.failed = false ∧
      rootlessSave.log.overflow = false ∧ rootlessSave.clk.rootsStarted = true ∧ rootsRun rootlessSave = false) := by
  decide +kernel

theorem witness_PowerDownFollowsRelease :
    (frozen (releasedSave false) = false ∧ (releasedSave false).save.phase = SavePhase.saved) ∧
    (frozen (savingIn SavePhase.map Trigger.vin) = false ∧
      (savingIn SavePhase.map Trigger.vin).save.phase ≠ SavePhase.saved) ∧
    (frozen (releasedSave true) = false ∧ saving (releasedSave true) = true ∧
      (releasedSave true).save.released = true ∧ (releasedSave true).save.phase = SavePhase.saved ∧
      (releasedSave true).seq.dir ≠ SeqDir.down ∧ (releasedSave true).seq.onPending = false ∧
      allFallen (releasedSave true) = false ∧ Calm (releasedSave true)) ∧
    (frozen (releasedSave false) = false ∧ saving (releasedSave false) = true ∧
      (releasedSave false).save.released = false ∧ Calm (releasedSave false)) ∧
    (holding48.seq.ledgerHold = true ∧ holdRail holding48 = some 3) := by
  unfold Calm; decide +kernel

theorem witness_RestoreBeginsOrFails :
    (canBegin (beginning savedCommits) = true ∧ Calm (beginning savedCommits) ∧
      (found (beginning savedCommits) true).fails = false ∧ channelsOut (beginning savedCommits) < 2) ∧
    (canBegin twoOut = true ∧ Calm twoOut ∧ ((found twoOut false).fails = true ∨ 2 ≤ channelsOut twoOut)) := by
  unfold Calm; decide +kernel

theorem witness_RestoreLoadsMetadata :
    ((restIn RestPhase.roots 2).rst.phase = RestPhase.roots ∧ frozen (restIn RestPhase.roots 2) = false ∧
      (restIn RestPhase.roots 2).ledger.failed = false ∧ Calm (restIn RestPhase.roots 2)) ∧
    ((restIn RestPhase.metadata 2).rst.phase = RestPhase.metadata ∧ frozen (restIn RestPhase.metadata 2) = false ∧
      Calm (restIn RestPhase.metadata 2) ∧
      ((restIn RestPhase.metadata 2).rst.source ≠ 2 ∨ (restIn RestPhase.metadata 2).basin.image ≠ none ∧
      (if (restIn RestPhase.metadata 2).rst.roots = true then (metaIn true).rootsOk else (metaIn true).saveCommitsOk) = true)) ∧
    ((restIn RestPhase.metadata 2).rst.phase = RestPhase.metadata ∧ frozen (restIn RestPhase.metadata 2) = false ∧
      Calm (restIn RestPhase.metadata 2) ∧ (restIn RestPhase.metadata 2).rst.source = 2 ∧
      ((restIn RestPhase.metadata 2).basin.image = none ∨ (if (restIn RestPhase.metadata 2).rst.roots = true then (metaIn false).rootsOk else (metaIn false).saveCommitsOk) = false)) := by
  unfold Calm; decide +kernel

theorem witness_ConversionRebuildsMap :
    ((restIn RestPhase.conversion 2).rst.phase = RestPhase.conversion ∧
      frozen (restIn RestPhase.conversion 2) = false ∧ (restIn RestPhase.conversion 2).rst.source = 2 ∧
      (restIn RestPhase.conversion 2).rst.again = false ∧ outChannel (restIn RestPhase.conversion 2) = none ∧
      (restIn RestPhase.conversion 2).basin.image = some image1 ∧ tabWf { } image1.map = true ∧
      Calm (restIn RestPhase.conversion 2)) ∧
    ((restIn RestPhase.conversion 0).rst.phase = RestPhase.conversion ∧
      frozen (restIn RestPhase.conversion 0) = false ∧ (restIn RestPhase.conversion 0).rst.source = 0 ∧
      (restIn RestPhase.conversion 0).rst.again = false ∧ outChannel (restIn RestPhase.conversion 0) = none ∧
      Calm (restIn RestPhase.conversion 0)) := by
  unfold Calm; decide +kernel

theorem witness_EarlyOpenMakesMemoryReady :
    (filling (restIn RestPhase.fill 2) = true ∧ (restIn RestPhase.fill 2).rst.point = false ∧
      frozen (restIn RestPhase.fill 2) = false ∧ onlineDone (restIn RestPhase.fill 2) = true ∧
      (restIn RestPhase.fill 2).rst.ready = false ∧ Calm (restIn RestPhase.fill 2)) ∧
    (inWindow (window RestPhase.fill) = true ∧ (window RestPhase.fill).rst.early = true ∧
      readyCommitted (allCommits (window RestPhase.fill)) = false ∧ frozen (window RestPhase.fill) = false ∧
      (window RestPhase.fill).ledger.failed = false ∧ Calm (window RestPhase.fill)) := by
  unfold Calm; decide +kernel

theorem witness_FillLoadsUnits :
    ((window RestPhase.fill).rst.phase = RestPhase.fill ∧ frozen (window RestPhase.fill) = false ∧
      UnitsFit (window RestPhase.fill) ∧ Calm (window RestPhase.fill)) ∧
    ((window RestPhase.fill).rst.phase = RestPhase.fill ∧ frozen (window RestPhase.fill) = false ∧
      UnitsFit (window RestPhase.fill) ∧ Calm (window RestPhase.fill) ∧
      visiblePage (window RestPhase.fill) (pageOf 194) = true ∧
      pageRestored (window RestPhase.fill) (pageOf 194) = false ∧
      pageOf 194 ∉ (window RestPhase.fill).rst.basinPages ∧
      pageState (window RestPhase.fill) (pageOf 194) = PState.clean ∧
      sourceUnit (window RestPhase.fill) (pageOf 194) ≠ some none ∧
      (capture (window RestPhase.fill) (cellOf (window RestPhase.fill) 194)).sticky = false ∧
      (window RestPhase.fill).od.set.graceMs ≠ 0) ∧
    (overlaying.rst.phase = RestPhase.overlay ∧ frozen overlaying = false ∧ UnitsFit overlaying ∧
      overlaying.rst.basinPages.Nodup ∧ overlaying.log.spill.length + overlaying.lake.mapping.length ≤ spillEntries ∧
      Calm overlaying) := by
  unfold UnitsFit Calm; decide +kernel

theorem witness_DemandFetchRestoresPage :
    ((window RestPhase.fill).rst.fetching.contains 4 = false) ∧
    ((window RestPhase.fill).rst.fetching.contains 3 = true ∧ frozen (window RestPhase.fill) = false ∧
      inBlockReset (window RestPhase.fill) 3 = false ∧ pageState (window RestPhase.fill) 3 ≠ PState.lost ∧
      pageRestored (window RestPhase.fill) 3 = false ∧
      (∀ e ∈ (window RestPhase.fill).wb.entries, pageOf e.line = 3 → e.phase = WPhase.admitted) ∧
      (sourceUnit (window RestPhase.fill) 3 = some none ∨ false = false ∧
      sourceUnit (window RestPhase.fill) 3 ≠ none) ∧
      (window RestPhase.fill).log.spill.length + (window RestPhase.fill).lake.mapping.length ≤ spillEntries ∧
      Calm (window RestPhase.fill)) ∧
    ((window RestPhase.fill).rst.fetching.contains 3 = true ∧ frozen (window RestPhase.fill) = false ∧
      inBlockReset (window RestPhase.fill) 3 = false ∧ sourceUnit (window RestPhase.fill) 3 = some (some unit3) ∧
      pageState (window RestPhase.fill) 3 ≠ PState.lost ∧ pageRestored (window RestPhase.fill) 3 = false ∧
      tabWf unlisted unit3.cells = true ∧ (∀ c ∈ unit3.cells, c.1 < 4096) ∧
      (window RestPhase.fill).log.spill.length + (window RestPhase.fill).wb.entries.length ≤ spillEntries ∧
      Calm (window RestPhase.fill)) := by
  unfold Calm; decide +kernel

theorem witness_RestoreEndsWithRestored :
    ((restIn RestPhase.compaction 2).rst.phase = RestPhase.compaction ∧
      (restIn RestPhase.compaction 2).log.compacting = none ∧ (restIn RestPhase.compaction 2).host.fence = false ∧
      frozen (restIn RestPhase.compaction 2) = false ∧ anyMember (restIn RestPhase.compaction 2) = true ∧
      onlineDone (restIn RestPhase.compaction 2) = true ∧ (restIn RestPhase.compaction 2).ledger.failed = false ∧
      (restIn RestPhase.compaction 2).seq.shutdown ≠ Shutdown.waiting ∧
      (∀ x ∈ (restIn RestPhase.compaction 2).lake.mapping, ∀ (d : Nat), dieOfUnit (restIn RestPhase.compaction 2) x.2.1 x.2.2 = some d → (dieAt (restIn RestPhase.compaction 2) d).retired = false) ∧
      Calm (restIn RestPhase.compaction 2)) ∧
    ((restIn RestPhase.restored 2).rst.phase = RestPhase.restored ∧ basinToErase (restIn RestPhase.restored 2) = 0 ∧
      (restIn RestPhase.restored 2).host.fence = false ∧ frozen (restIn RestPhase.restored 2) = false ∧
      (restIn RestPhase.restored 2).ledger.failed = false ∧ Calm (restIn RestPhase.restored 2)) ∧
    (inWindow gasping = true ∧ gasping.save.phase = SavePhase.lastGasp ∧ gasping.host.fence = true ∧
      gasping.ledger.failed = false ∧ gasping.log.overflow = false) := by
  unfold Calm; decide +kernel

theorem witness_BlockResetStartsOnFault :
    (ResetStarts ready 0 (ddrId (0) 2)) ∧
    (ResetStarts ready 7 (ddrId (7) 2)) ∧
    (ResetCause.phyLock ≠ ResetCause.oarWatchdog ∧ ResetCause.phyLock ≠ ResetCause.oarSram ∧
      ResetStarts ready 0 (ddrId (0) 0)) ∧
    (4 ≤ 4 ∧ ResetStarts ready 0 (ddrId (0) 0)) ∧
    (4 ≤ 4 ∧ ResetStarts ready 0 (ddrId 0 1)) ∧
    (3 < 4) := by
  unfold ResetStarts HasChannel Calm; decide +kernel

theorem witness_BlockResetReplaysWrites :
    (frozen ready = false ∧ channelLive ready 0 = true) ∧
    ((chAt inReset 0).state = ChState.blockReset ∧ 250 ≤ 250 ∧ frozen inReset = false ∧ inReset.frz.waiting = false ∧
      (∀ e ∈ inReset.wb.entries, e.phase ≠ WPhase.mapWait) ∧ (∀ r ∈ inReset.wb.reads, r.why ≠ RWait.repair) ∧
      Calm inReset) := by
  unfold Calm; decide +kernel

theorem witness_IsolationIsChipFatal :
    (SaveReady inReset ∧ inReset.fault.chipFatal = false ∧ (chAt inReset 0).state = ChState.blockReset ∧
      (true = false ∨ 250 < 251)) ∧
    (SaveReady inReset ∧ inReset.fault.chipFatal = false ∧ (chAt inReset 0).state = ChState.blockReset ∧
      (false = false ∨ 250 < 1)) ∧
    (((chAt (isolated false) 0).state = ChState.isolated ∨ (chAt (isolated false) 0).out = true) ∧
      (chAt (isolated false) 0).named = false ∧ (isolated false).ledger.failed = false ∧ Calm (isolated false)) ∧
    ((chAt (isolated true) 0).named = true) := by
  unfold SaveReady Calm; decide +kernel

theorem witness_IsolationIsChipFatal_2 :
    SaveReady thriceReset ∧ thriceReset.fault.chipFatal = false ∧ HasChannel thriceReset 0 ∧
    (chAt thriceReset 0).state = ChState.active ∧ 3 ≤ (recent thriceReset (chAt thriceReset 0).resetTimes).length ∧
    (capture thriceReset (ddrId (0) 0)).sticky = false := by
  unfold SaveReady Calm HasChannel; decide +kernel

theorem witness_RepairRewritesLine :
    (frozen unrepaired = false ∧ inBlockReset unrepaired (pageOf 192) = false ∧
      repairUnit unrepaired 192 = some unitR ∧ repairable unrepaired 192 = true ∧ linePoison unrepaired 192 = true ∧
      setWf unrepaired.dram.poison = true ∧ unitR.poison.contains (192 % 64) = false ∧
      tabWf unlisted unrepaired.dram.bytes = true ∧ unitExists unrepaired (cellOf unrepaired 192) = true ∧
      unitExists unrepaired (repairAccess unrepaired 192).2 = true ∧
      (capture unrepaired (cellOf unrepaired 192)).sticky = false ∧ Calm unrepaired) ∧
    (frozen unrepaired = false ∧ (List.find? (fun x => decide (x.why = RWait.repair ∧
      x.id = 9)) unrepaired.wb.reads = some repairRead) ∧ Calm unrepaired) ∧
    (frozen unrepaired = false ∧ inBlockReset unrepaired (pageOf 192) = false ∧ linePoison unrepaired 192 = true ∧
      unitExists unrepaired (cellOf unrepaired 192) = true ∧
      unitExists unrepaired (repairAccess unrepaired 192).2 = true ∧
      (capture unrepaired (cellOf unrepaired 192)).sticky = false ∧ unrepaired.od.set.graceMs ≠ 0 ∧ Calm unrepaired) ∧
    (frozen poisonedLine = false ∧ inBlockReset poisonedLine (pageOf 0) = false ∧ linePoison poisonedLine 0 = true ∧
      repairable poisonedLine 0 = false ∧ Calm poisonedLine) := by
  unfold Calm; decide +kernel

theorem witness_ChannelDutiesRun :
    ((chAt ready 0).state = ChState.active ∧ frozen ready = false) ∧
    ((chAt buffered 0).state = ChState.active ∧ frozen buffered = false) ∧
    (oarRuns ready 0 = true) ∧
    (oarRuns ready 0 = true ∧ Calm ready ∧ (95 ≤ 95 ∨ hotDue ready 0 = false)) ∧
    (oarRuns ready 0 = true ∧ Calm ready ∧ 95 < 96 ∧ hotDue ready 0 = true) := by
  unfold Calm; decide +kernel

theorem witness_TrainingMakesChannelActive :
    ((chAt (inTraining true 0) 0).state = ChState.training ∧ frozen (inTraining true 0) = false ∧
      (inTraining true 0).ledger.failed = false ∧ Calm (inTraining true 0) ∧
      usesStored (inTraining true 0) (chAt (inTraining true 0) 0) = true) ∧
    ((chAt (inTraining false 0) 0).state = ChState.training ∧ frozen (inTraining false 0) = false ∧
      (inTraining false 0).ledger.failed = false ∧ Calm (inTraining false 0) ∧
      (inTraining false 0).cfg.populationOf 0 = (inTraining false 0).cfg.population) ∧
    ((chAt (inTraining false 0) 0).state = ChState.training ∧ frozen (inTraining false 0) = false ∧
      (inTraining false 0).ledger.failed = false ∧ Calm (inTraining false 0) ∧
      (false = false ∨ (inTraining false 0).cfg.populationOf 0 ≠ (inTraining false 0).cfg.population) ∧
      (chAt (inTraining false 0) 0).fullFails = 0) ∧
    ((chAt (inTraining false 1) 0).state = ChState.training ∧ frozen (inTraining false 1) = false ∧
      (inTraining false 1).ledger.failed = false ∧ Calm (inTraining false 1) ∧
      (false = false ∨ (inTraining false 1).cfg.populationOf 0 ≠ (inTraining false 1).cfg.population) ∧
      (chAt (inTraining false 1) 0).fullFails ≠ 0) ∧
    ((chAt (inTraining true 0) 0).state = ChState.training ∧ frozen (inTraining true 0) = false ∧
      (inTraining true 0).ledger.failed = false ∧ Calm (inTraining true 0) ∧
      usesStored (inTraining true 0) (chAt (inTraining true 0) 0) = true ∧
      (inTraining true 0).cfg.populationOf 0 = (inTraining true 0).cfg.population) ∧
    ((chAt (inTraining true 0) 0).state = ChState.training ∧ frozen (inTraining true 0) = false ∧
      (inTraining true 0).ledger.failed = false ∧ Calm (inTraining true 0) ∧
      usesStored (inTraining true 0) (chAt (inTraining true 0) 0) = true ∧
      (false = false ∨ (inTraining true 0).cfg.populationOf 0 ≠ (inTraining true 0).cfg.population)) := by
  unfold Calm; decide +kernel

theorem witness_FlashQueueTakesOperation :
    (frozen (drained false) = false ∧ Calm (drained false) ∧ OpTaken (drained false) 0 0 drainOp ∧
      dramWaits (drained false) drainOp = false) ∧
    (frozen drainReset = false ∧ Calm drainReset ∧ OpTaken drainReset 0 0 drainOp ∧
      dramWaits drainReset drainOp = true) ∧
    (frozen fullQueue = false ∧ Calm fullQueue ∧
      (8 ≤ (List.filter (fun j => decide (j.die = 0)) (flAt fullQueue 0).jobs).length ∨ dieLive fullQueue 0 0 = false ∨ fullQueue.host.fence = true ∧
      savesClass drainOp = false ∨ opAllowed fullQueue (8 * 0 + 0) drainOp = false)) ∧
    (frozen (drained false) = false ∧ Calm (drained false) ∧ OpTaken (drained false) 0 0 drainOp ∧
      dramWaits (drained false) drainOp = false ∧ dramPage (drained false) drainOp = some (0, 5) ∧ pageOf 5 = 0 ∧
      linePoison (drained false) 5 = false ∧ unitExists (drained false) (cellOf (drained false) 5) = true ∧
      (capture (drained false) (cellOf (drained false) 5)).sticky = false ∧ (drained false).od.set.graceMs ≠ 0) := by
  unfold Calm OpTaken; decide +kernel

theorem witness_FlashOperationEnds :
    (frozen (flashing drainOp (some drainUnit)) = false ∧
      (flAt (flashing drainOp (some drainUnit)) 0).state = FlState.active ∧ Calm (flashing drainOp (some drainUnit)) ∧
      finishing (flashing drainOp (some drainUnit)).lake.gcUrgent (0) (flAt (flashing drainOp (some drainUnit)) 0) = some (0, flashJob drainOp (some drainUnit), [flashJob drainOp (some drainUnit)], false) ∧
      (0, flashJob drainOp (some drainUnit), [flashJob drainOp (some drainUnit)], false).2.1.op = FlashOp.drain 65536 600 0 false ∧
      (0, flashJob drainOp (some drainUnit), [flashJob drainOp (some drainUnit)], false).2.1.data = some drainUnit) ∧
    (frozen (flashing (FlashOp.saveProgram 0) (some drainUnit)) = false ∧
      (flAt (flashing (FlashOp.saveProgram 0) (some drainUnit)) 0).state = FlState.active ∧
      Calm (flashing (FlashOp.saveProgram 0) (some drainUnit)) ∧
      finishing (flashing (FlashOp.saveProgram 0) (some drainUnit)).lake.gcUrgent (0) (flAt (flashing (FlashOp.saveProgram 0) (some drainUnit)) 0) = some (0, flashJob (FlashOp.saveProgram 0) (some drainUnit), [flashJob (FlashOp.saveProgram 0) (some drainUnit)], false) ∧
      (0, flashJob (FlashOp.saveProgram 0) (some drainUnit), [flashJob (FlashOp.saveProgram 0) (some drainUnit)], false).2.1.op = FlashOp.saveProgram 0 ∧
      (flashing (FlashOp.saveProgram 0) (some drainUnit)).basin.image = some image1 ∧
      (flashing (FlashOp.saveProgram 0) (some drainUnit)).basin.usedUnits < residueUnits (flashing (FlashOp.saveProgram 0) (some drainUnit)) ∧
      (flashing (FlashOp.saveProgram 0) (some drainUnit)).save.stopped = false ∧
      inBlockReset (flashing (FlashOp.saveProgram 0) (some drainUnit)) 0 = false) := by
  unfold Calm; decide +kernel

theorem witness_FlashOperationEnds_2 :
    (frozen (flashing drainOp (some drainUnit)) = false ∧
      (flAt (flashing drainOp (some drainUnit)) 0).state = FlState.active ∧ Calm (flashing drainOp (some drainUnit)) ∧
      finishing (flashing drainOp (some drainUnit)).lake.gcUrgent (0) (flAt (flashing drainOp (some drainUnit)) 0) = some (0, flashJob drainOp (some drainUnit), [flashJob drainOp (some drainUnit)], false) ∧
      (0, flashJob drainOp (some drainUnit), [flashJob drainOp (some drainUnit)], false).2.1.op = FlashOp.drain 65536 600 0 false ∧
      (flAt (flashing drainOp (some drainUnit)) 0).resetTimes = [] ∧
      (segmentAt (flashing drainOp (some drainUnit)) 600).bad.contains (8 * 0 + 0) = false) ∧
    ((frozen ready = true ∨ (flAt ready 0).state ≠ FlState.active ∨ finishing ready.lake.gcUrgent (0) (flAt ready 0) = none)) := by
  unfold Calm; decide +kernel

theorem witness_FlashOperationEnds_3 :
    (frozen (flashingRead (FlashOp.demandFetch 0)) = false ∧
      (flAt (flashingRead (FlashOp.demandFetch 0)) 0).state = FlState.active ∧
      Calm (flashingRead (FlashOp.demandFetch 0)) ∧
      finishing (flashingRead (FlashOp.demandFetch 0)).lake.gcUrgent (0) (flAt (flashingRead (FlashOp.demandFetch 0)) 0) = some (0, flashJob (FlashOp.demandFetch 0) none, [flashJob (FlashOp.demandFetch 0) none], false) ∧
      opReads (0, flashJob (FlashOp.demandFetch 0) none, [flashJob (FlashOp.demandFetch 0) none], false).2.1.op = true) ∧
    (frozen relocating = false ∧ (flAt relocating 0).state = FlState.active ∧ Calm relocating ∧
      finishing relocating.lake.gcUrgent (0) (flAt relocating 0) = some (0, flashJob moveOp (some unit0), [flashJob moveOp (some unit0)], false) ∧
      (0, flashJob moveOp (some unit0), [flashJob moveOp (some unit0)], false).2.1.op = FlashOp.relocate 0 601 0 false ∧
      (0, flashJob moveOp (some unit0), [flashJob moveOp (some unit0)], false).2.1.data = some unit0 ∧
      setWf (List.map (fun x => x.1) relocating.lake.mapping) = true) := by
  unfold Calm; decide +kernel

theorem witness_FlashOperationEnds_4 :
    frozen erasingBlock = false ∧ (flAt erasingBlock 0).state = FlState.active ∧ Calm erasingBlock ∧
    finishing erasingBlock.lake.gcUrgent (0) (flAt erasingBlock 0) = some (0, flashJob (FlashOp.basinErase 0) none, [flashJob (FlashOp.basinErase 0) none], false) ∧
    (0, flashJob (FlashOp.basinErase 0) none, [flashJob (FlashOp.basinErase 0) none], false).2.1.op = FlashOp.basinErase 0 ∧
    0 < erasingBlock.cfg.basinBlocksPerDie ∧ erasingBlock.basin.image = none ∧ erasingBlock.host.fence = false ∧
    toErase erasingBlock (8 * 0 + 0) ≠ 0 ∧ (tabGet 0 (8 * 0 + 0) erasingBlock.basin.bitmap).testBit 0 = false ∧
    (tabGet 0 (8 * 0 + 0) erasingBlock.basin.lateMap).testBit 0 = false := by
  unfold Calm; decide +kernel

theorem witness_EraseCountsOrRetires :
    (frozen unerased = false ∧ (dieAt unerased 0).retired = false ∧
      (unerased.host.fence = true ∨ unerased.basin.image = none) ∧ 0 < unerased.cfg.basinBlocksPerDie ∧
      (tabGet 0 0 unerased.basin.bitmap).testBit 0 = false ∧ (tabGet 0 0 unerased.basin.lateMap).testBit 0 = false ∧
      toErase unerased 0 ≠ 0 ∧ underWorn unerased 0 0 = false ∧
      tabGet 0 (wearKey 0 Area.basin 0) unerased.flash.wear < 65535 ∧ Calm unerased) ∧
    (frozen spareDie = false ∧ (dieAt spareDie 0).retired = false ∧ 3 < (dieAt spareDie 0).spare ∧ Calm spareDie) ∧
    (frozen spareDie = false ∧ (dieAt spareDie 0).retired = false ∧ 0 < spareDie.cfg.basinBlocksPerDie ∧ 0 < 4096 ∧
      tabWf 0 spareDie.flash.wear = true ∧ (flAt spareDie (0 / 8)).resetTimes = [] ∧ 9 ≤ (dieAt spareDie 0).spare ∧
      (dieAt spareDie 0).spare ≤ 4096 ∧ 0 / 8 < spareDie.flash.channels.length ∧ Calm spareDie) ∧
    (frozen lastDie = false ∧ (dieAt lastDie 0).retired = false ∧ (Area.tlc = Area.pslc ∨ Area.tlc = Area.tlc) ∧
      erasable lastDie 0 Area.tlc 600 = true ∧ (segmentAt lastDie 600).bad = [] ∧ Calm lastDie) ∧
    (frozen twoDies = false ∧ (dieAt twoDies 0).retired = false ∧ (Area.tlc = Area.pslc ∨ Area.tlc = Area.tlc) ∧
      erasable twoDies 0 Area.tlc 600 = true ∧ (segmentAt twoDies 600).bad = [] ∧ Calm twoDies) ∧
    ((frozen frozenState = true ∨ (dieAt frozenState 0).retired = true)) ∧
    (erasable ready 0 Area.spare 999999 = false ∧ Calm ready) := by
  unfold Calm; decide +kernel

theorem witness_FlashFaultResetsUnit :
    (FlashFaultFree ready (flsId (0) 0) ∧ (flAt ready 0).state = FlState.active ∧
      (recent ready (flAt ready 0).resetTimes).length < 2) ∧
    (FlashFaultFree ready (flsId (32 + 7) 0) ∧
      (∀ x ∈ ready.flash.ldpcTimes, x.1 = 7 → x.2 + 10000000000 ≤ ready.tb.now)) ∧
    (FlashFaultFree ready (flsId (40 + 1) 0) ∧ 0 < ready.cfg.flashChannels ∧
      (∀ x ∈ ready.flash.xtsTimes, x.1 = 1 → x.2 + 10000000000 ≤ ready.tb.now)) := by
  unfold FlashFaultFree Calm; decide +kernel

theorem witness_FlashResetEnds :
    ((flAt flashReset 0).state = FlState.reset ∧ Calm flashReset) ∧
    (frozen ready = false) ∧
    (frozen ready = false ∧ 1365333 < 2 ^ 32 ∧ Calm ready) ∧
    (flashRegion.flash.channels.length = 32 ∧ Calm flashRegion) ∧
    (BitVec.toNat (ddrId 0 0) / 4096 ≠ 3) ∧
    (frozen frozenState = true) := by
  unfold Calm; decide +kernel

theorem witness_FlashResetEnds_EngineDone :
    (∀ (n : Nat), n / 4 = 7 → (flAt ready n).state = FlState.active) ∧ Calm ready :=
  ⟨fun n h => engine7_active n h, by unfold Calm; decide +kernel⟩

theorem witness_RetiredDieIsDrainedAgain :
    ((goodDies dieSave).contains 0 = true ∧ dieSave.save.running = true ∧ Calm dieSave) ∧
    ((goodDies onDie).contains 0 = true ∧ setWf (List.map (fun x => x.1) onDie.lake.mapping) = true ∧
      onDie.log.spill.length + onDie.lake.mapping.length ≤ spillEntries ∧ onDie.save.running = false ∧
      onDie.host.fence = false ∧ Calm onDie) ∧
    ((goodDies ready).contains 300 = false) ∧
    ((goodDies fencedState).contains 0 = true ∧ fencedState.host.fence = true ∧ fencedState.save.running = false ∧
      Calm fencedState) := by
  unfold Calm; decide +kernel

theorem witness_PatrolAndExchangeKeepData :
    (frozen onDie = false ∧ onDie.host.fence = false ∧ (segmentAt onDie patrol4.seg).state = SegState.closed ∧
      patrol4.failedUnits = [] ∧ Calm onDie) ∧
    ((frozen fencedState = true ∨ fencedState.host.fence = true ∨ (segmentAt fencedState patrol4.seg).state ≠ SegState.closed)) ∧
    ((frozen frozenState = true ∨ saving frozenState = true ∨ frozenState.rst.committed = false)) ∧
    (frozen closedSegment = false ∧ closedSegment.host.fence = false ∧ saving closedSegment = false ∧
      (segmentAt closedSegment patrolBad.seg).state = SegState.closed ∧ patrolBad.failedUnits = [0] ∧
      unitAt closedSegment patrolBad.seg 0 = some unit0 ∧
      tabFind unit0.page closedSegment.lake.mapping = some (patrolBad.seg, 0) ∧
      pageState closedSegment unit0.page = PState.clean ∧ dieOfUnit closedSegment patrolBad.seg 0 = some 0 ∧
      (segmentAt closedSegment patrolBad.seg).bad.contains 0 = false ∧ 0 / 8 < closedSegment.flash.channels.length ∧
      closedSegment.log.spill.length < spillEntries ∧ Calm closedSegment) := by
  unfold Calm; decide +kernel

theorem witness_PatrolAndExchangeKeepData_Exchange :
    frozen worn = false ∧ saving worn = false ∧ worn.rst.committed = true ∧ tabWf 0 worn.flash.wear = true ∧
    worn.cfg.basinBlocksPerDie ≤ 4096 ∧ (∀ (d : Nat), (dieAt worn d).spare ≤ 4096 ∧
    ∀ k ∈ (dieAt worn d).poolErased, k < 4096) ∧ Calm worn :=
  ⟨by decide +kernel, by decide +kernel, by decide +kernel, by decide +kernel, by decide +kernel,
    fun _ => (by decide : 0 ≤ 4096 ∧ ∀ k ∈ ([] : List Nat), k < 4096), by unfold Calm; decide +kernel⟩

theorem witness_ScrubMarksUncorrectableLines :
    ((oarRuns ready 0 = false ∨ channelOfPage ready (pageOf 64) ≠ 0 ∨ ready.cfg.installedPages ≤ pageOf 64)) ∧
    (oarRuns unrepaired 3 = true ∧ channelOfPage unrepaired (pageOf 192) = 3 ∧
      pageOf 192 < unrepaired.cfg.installedPages ∧ linePoison unrepaired 192 = true ∧ Calm unrepaired) ∧
    (oarRuns ready 0 = true ∧ channelOfPage ready (pageOf 0) = 0 ∧ pageOf 0 < ready.cfg.installedPages ∧
      HasChannel ready 0 ∧ (capture ready (cellOf ready 0)).sticky = false ∧ ready.od.set.graceMs ≠ 0 ∧
      linePoison ready 0 = false ∧ Calm ready) ∧
    (oarRuns onDie 0 = true ∧ channelOfPage onDie (pageOf 0) = 0 ∧ pageOf 0 < onDie.cfg.installedPages ∧
      HasChannel onDie 0 ∧ (capture onDie (cellOf onDie 0)).sticky = false ∧ onDie.od.set.graceMs ≠ 0 ∧
      linePoison onDie 0 = false ∧ Calm onDie ∧ repairable onDie 0 = true) ∧
    (oarRuns ready 0 = true ∧ channelOfPage ready (pageOf 0) = 0 ∧ pageOf 0 < ready.cfg.installedPages ∧
      HasChannel ready 0 ∧ (capture ready (cellOf ready 0)).sticky = false ∧ ready.od.set.graceMs ≠ 0 ∧
      linePoison ready 0 = false ∧ Calm ready ∧ repairable ready 0 = false) := by
  unfold Calm HasChannel; decide +kernel

theorem witness_HostReadMeetsErrors :
    (ReadServed ready 0 0 0 ∧ bufferHit ready 0 = false ∧ linePoison ready 0 = false ∧
      unitExists ready (cellOf ready 0) = true ∧ (capture ready (cellOf ready 0)).sticky = false ∧
      ready.od.set.graceMs ≠ 0 ∧ Calm ready) ∧
    (ReadServed ready 0 0 0 ∧ bufferHit ready 0 = false ∧ linePoison ready 0 = false ∧
      unitExists ready (cellOf ready 0) = true ∧ (capture ready (cellOf ready 0)).sticky = false ∧
      ready.od.set.graceMs ≠ 0 ∧ Calm ready ∧ repairable ready 0 = false) ∧
    (ReadServed onDie 0 0 0 ∧ bufferHit onDie 0 = false ∧ linePoison onDie 0 = false ∧
      unitExists onDie (cellOf onDie 0) = true ∧ (capture onDie (cellOf onDie 0)).sticky = false ∧
      onDie.od.set.graceMs ≠ 0 ∧ Calm onDie ∧ repairable onDie 0 = true) := by
  unfold ReadServed Calm; decide +kernel

theorem witness_ChannelsLeftAlone :
    (channelLive isolated0 0 = false) ∧
    ((frozen frozenState = true ∨ channelLive frozenState 0 = false)) ∧
    ((chAt ready 0).state ≠ ChState.blockReset) ∧
    ((chAt ready 0).state ≠ ChState.isolated ∧ (chAt ready 0).out = false) ∧
    (((chAt inReset 0).state ≠ ChState.active ∨ frozen inReset = true)) ∧
    (oarRuns inReset 0 = false) ∧
    (((chAt ready 0).state ≠ ChState.training ∨ frozen ready = true ∨ true = true ∧
      usesStored ready (chAt ready 0) = false)) ∧
    (frozen frozenState = true) := by
  decide +kernel

theorem witness_CrewTicks :
    (umpireRuns frozenState = false) ∧
    ((isMember frozenState Crew.bow = false ∨ frozen frozenState = true)) ∧
    (umpireRuns (bowOut CrewSt.off 0) = true ∧ isMember (bowOut CrewSt.off 0) Crew.bow = false ∧
      Calm (bowOut CrewSt.off 0)) ∧
    (umpireRuns ready = true ∧ isMember ready Crew.bow = true ∧ (memberCount ready ≠ 2 ∨ 7 = 7) ∧
      (crewOf ready Crew.bow.other).copyEnd = none ∧ Calm ready) ∧
    (umpireRuns ready = true ∧ isMember ready Crew.bow = true ∧ isMember ready Crew.stroke = true ∧ Calm ready) ∧
    (umpireRuns ready = true ∧ 1 ≠ 2 ∧ seatHolder ready = some Crew.bow.other ∧ CrewFaultFree ready Crew.bow) ∧
    (umpireRuns ready = true ∧ 1 ≠ 90 ∧ 1 ≠ 165 ∧ 1 ≠ 0 ∧ (capture ready 64).sticky = false ∧
      ready.crew.lagBuf = [] ∧ Calm ready) ∧
    ((90 = 90 ∨ 90 = 165 ∨ 90 = 0)) := by
  unfold CrewFaultFree Calm; decide +kernel

theorem witness_CrewTicks_2 :
    isMember ready Crew.bow = true ∧ frozen ready = false := by
  decide +kernel

theorem witness_CrewsJoin :
    (((crewOf ready Crew.bow).st ≠ CrewSt.off ∧
      (crewOf ready Crew.bow).st ≠ CrewSt.faulted ∨ frozen ready = true ∨ (crewOf ready Crew.bow).held = true)) ∧
    ((crewOf ready Crew.bow).st ≠ CrewSt.loading ∧ (crewOf ready Crew.bow).st ≠ CrewSt.standby) ∧
    (((crewOf ready Crew.bow).st ≠ CrewSt.catchup ∨ frozen ready = true)) ∧
    ((shadowReady ready Crew.bow = false ∨ frozen ready = true)) ∧
    ((crewOf catchupAlone Crew.bow).st = CrewSt.catchup ∧ frozen catchupAlone = false ∧
      isMember catchupAlone Crew.bow.other = false ∧ catchupAlone.crew.seat = 0 ∧
      catchupAlone.upd.stage = UpdStage.idle ∧ Calm catchupAlone) ∧
    (MayRejoin (bowOut CrewSt.off 0) Crew.bow) ∧
    (saving (savingIn SavePhase.map Trigger.vin) = true) ∧
    ((crewOf (bowOut CrewSt.loading 2) Crew.bow).st = CrewSt.loading ∧
      (crewOf (bowOut CrewSt.loading 2) Crew.bow).waiting = false ∧ umpireRuns (bowOut CrewSt.loading 2) = true ∧
      boathouse (bowOut CrewSt.loading 2) = false ∧ Calm (bowOut CrewSt.loading 2) ∧
      isMember (bowOut CrewSt.loading 2) Crew.bow.other = true) := by
  unfold Calm MayRejoin; decide +kernel

theorem witness_CrewsJoin_2 :
    ((crewOf (bowOut CrewSt.loading 2) Crew.bow).st = CrewSt.loading ∧
      (crewOf (bowOut CrewSt.loading 2) Crew.bow).waiting = false ∧ umpireRuns (bowOut CrewSt.loading 2) = true ∧
      boathouse (bowOut CrewSt.loading 2) = false ∧ Calm (bowOut CrewSt.loading 2) ∧
      (crewOf (bowOut CrewSt.loading 2) Crew.bow).loadFails < 3) ∧
    ((crewOf (bowOut CrewSt.loading 3) Crew.bow).st = CrewSt.loading ∧
      (crewOf (bowOut CrewSt.loading 3) Crew.bow).waiting = false ∧ umpireRuns (bowOut CrewSt.loading 3) = true ∧
      boathouse (bowOut CrewSt.loading 3) = false ∧ Calm (bowOut CrewSt.loading 3) ∧
      3 ≤ (crewOf (bowOut CrewSt.loading 3) Crew.bow).loadFails ∧ (bowOut CrewSt.loading 3).crew.startLoad = false) ∧
    ((crewOf starting Crew.stroke).st = CrewSt.loading ∧ (crewOf starting Crew.stroke).waiting = false ∧
      umpireRuns starting = true ∧ boathouse starting = false ∧ Calm starting ∧ starting.crew.startLoad = true ∧
      (crewOf starting Crew.stroke.other).st = CrewSt.loading ∧ (crewOf starting Crew.stroke.other).waiting = true ∧
      starting.crew.seat = 0 ∧ starting.upd.stage = UpdStage.idle) ∧
    ((crewOf (bowOut CrewSt.catchup 0) Crew.bow).st = CrewSt.catchup ∧ frozen (bowOut CrewSt.catchup 0) = false ∧
      isMember (bowOut CrewSt.catchup 0) Crew.bow.other = true) ∧
    (shadowReady (bowOut CrewSt.shadow 0) Crew.bow = true ∧ frozen (bowOut CrewSt.shadow 0) = false ∧
      isMember (bowOut CrewSt.shadow 0) Crew.bow.other = true ∧
      (bowOut CrewSt.shadow 0).crew.seat = seatByte Crew.bow.other ∧
      (bowOut CrewSt.shadow 0).upd.stage = UpdStage.idle ∧ Calm (bowOut CrewSt.shadow 0)) := by
  unfold Calm; decide +kernel

theorem witness_SeatsCopiesExecute :
    (CopyInWindow ready Crew.stroke true Landing.fls { cox := true, num := 0 } 63 ∧
      slotOfSeq (streamOf ready Landing.fls { cox := true, num := 0 }) (63) = none) ∧
    (CopyInWindow ready Crew.stroke false Landing.mem { cox := false, num := 0 } 63 ∧ WeirQuiet ready ∧
      slotOfSeq (streamOf ready Landing.mem { cox := false, num := 0 }) (63) = none) := by
  unfold CopyInWindow WeirQuiet Calm; decide +kernel

theorem witness_SeatsCopiesExecute_2 :
    (CopyInWindow ready Crew.stroke true Landing.fls coxStream 0 ∧
      slotOfSeq (streamOf ready Landing.fls coxStream) (0) = none ∧
      carries Landing.fls coxStream Landed.powerDown = false ∧ isLimits Landed.powerDown = false) ∧
    (CopyInWindow (landed Crew.bow) Crew.stroke true Landing.fls coxStream 0 ∧
      slotOfSeq (streamOf (landed Crew.bow) Landing.fls coxStream) (0) = some (slot0 Crew.bow) ∧
      (slot0 Crew.bow).crew = Crew.stroke.other ∧ (slot0 Crew.bow).paired = false ∧
      (slot0 Crew.bow).digest = copyDigest coxStream 0 5 (Landed.flashOarReload 0)) := by
  unfold CopyInWindow Calm; decide +kernel

theorem witness_SeatsCopiesExecute_3 :
    (CopyInWindow (landed Crew.stroke) Crew.stroke true Landing.fls coxStream 0 ∧
      slotOfSeq (streamOf (landed Crew.stroke) Landing.fls coxStream) (0) = some (slot0 Crew.stroke) ∧
      (slot0 Crew.stroke).crew = Crew.stroke ∧ (capture (landed Crew.stroke) (coxId Crew.stroke)).sticky = false ∧
      crewShadow (landed Crew.stroke) Crew.stroke = none) ∧
    (CopyInWindow (landedValue Crew.bow) Crew.stroke true Landing.pwr { cox := false, num := 1 } 0 ∧
      slotOfSeq (streamOf (landedValue Crew.bow) Landing.pwr { cox := false, num := 1 }) (0) = some (slotV Crew.bow) ∧
      (slotV Crew.bow).crew = Crew.stroke.other ∧ (slotV Crew.bow).paired = false ∧ (slotV Crew.bow).digest ≠ 7 ∧
      CrewFaultFree (landedValue Crew.bow) Crew.stroke.other) := by
  unfold CopyInWindow CrewFaultFree Calm; decide +kernel

theorem witness_LaggedCopiesAreCompared :
    umpireRuns ready = true ∧ lagOn ready Crew.bow = true ∧ ready.crew.lagBuf = [] ∧ Calm ready := by
  unfold Calm; decide +kernel

theorem witness_LaggedCopiesAreCompared_Lag2 :
    CopyLagged (lagging 5) 0 (lagCopy 5) ∧
    slotOfSeq (streamOf (lagging 5) (lagCopy 5).landing (lagCopy 5).stream) (lagCopy 5).seq.toNat = some (slot0 Crew.stroke) ∧
    (slot0 Crew.stroke).crew = (lagCopy 5).crew.other ∧ (slot0 Crew.stroke).paired = false ∧
    (slot0 Crew.stroke).digest = (lagCopy 5).digest :=
  ⟨⟨by decide +kernel, by decide +kernel, by decide +kernel, by decide +kernel, by decide +kernel,
    fun c => by cases c <;> decide +kernel, by decide +kernel, by decide +kernel, by decide +kernel, by decide +kernel,
    by decide +kernel, by decide +kernel, by decide +kernel, by decide +kernel, by decide +kernel, by decide +kernel,
    by decide +kernel, by decide +kernel⟩, by decide +kernel, by decide +kernel, by decide +kernel, by decide +kernel⟩

theorem witness_LaggedCopiesAreCompared_Lag3 :
    CopyLagged (lagging 6) 0 (lagCopy 6) ∧
    slotOfSeq (streamOf (lagging 6) (lagCopy 6).landing (lagCopy 6).stream) (lagCopy 6).seq.toNat = some (slot0 Crew.stroke) ∧
    (slot0 Crew.stroke).crew = (lagCopy 6).crew.other ∧ (slot0 Crew.stroke).paired = false ∧
    (slot0 Crew.stroke).digest ≠ (lagCopy 6).digest ∧ CrewFaultFree (ticked (lagging 6)) (lagCopy 6).crew :=
  ⟨⟨by decide +kernel, by decide +kernel, by decide +kernel, by decide +kernel, by decide +kernel,
    fun c => by cases c <;> decide +kernel, by decide +kernel, by decide +kernel, by decide +kernel, by decide +kernel,
    by decide +kernel, by decide +kernel, by decide +kernel, by decide +kernel, by decide +kernel, by decide +kernel,
    by decide +kernel, by decide +kernel⟩, by decide +kernel, by decide +kernel, by decide +kernel, by decide +kernel, by unfold CrewFaultFree Calm; decide +kernel⟩

theorem witness_UnpairedSlotTimesOut :
    (frozen ready = true ∨ memberCount ready ≠ 2 ∨ ∀ (w : WSlot), slotOfSeq (streamOf ready Landing.fls coxStream) (0) = some w → w.closed = true) := by
  decide +kernel

theorem witness_UnpairedSlotTimesOut_Pairing :
    frozen (landed Crew.stroke) = false ∧ isMember (landed Crew.stroke) Crew.bow = true ∧
    isMember (landed Crew.stroke) Crew.stroke = true ∧ (landed Crew.stroke).crew.waiting = [] ∧
    maskedBy (landed Crew.stroke) (Detector.pairing Landing.fls coxStream) = none ∧
    (∀ (c : Crew), crewShadow (landed Crew.stroke) c = none) ∧ (landed Crew.stroke).od.set.graceMs ≠ 0 ∧
    Calm (landed Crew.stroke) ∧
    slotOfSeq (streamOf (landed Crew.stroke) Landing.fls coxStream) (0) = some (slot0 Crew.stroke) ∧
    (slot0 Crew.stroke).closed = false ∧
    (capture (landed Crew.stroke) (coxId (slot0 Crew.stroke).crew.other)).sticky = false :=
  ⟨by decide +kernel, by decide +kernel, by decide +kernel, by decide +kernel, by decide +kernel,
    fun c => by cases c <;> decide +kernel, by decide +kernel, by unfold Calm; decide +kernel, by decide +kernel,
    by decide +kernel, by decide +kernel⟩

theorem witness_ReportsAreCaptured :
    (ReportFree ready (faultAt FClass.c 1) ∧ (capture ready (faultAt FClass.c 1).unit).sticky = false ∧
      (faultAt FClass.c 1).cls = FClass.c) ∧
    (ReportFree ready (faultAt FClass.u 1) ∧ (capture ready (faultAt FClass.u 1).unit).sticky = false ∧
      (faultAt FClass.u 1).cls = FClass.u ∧ ready.od.set.graceMs ≠ 0) ∧
    (ReportFree (heldAt 8704 FClass.u) (faultBrief FClass.u) ∧
      (capture (heldAt 8704 FClass.u) (faultBrief FClass.u).unit).sticky = true ∧
      (capture (heldAt 8704 FClass.u) (faultBrief FClass.u).unit).conseq = false ∧
      (faultBrief FClass.u).cls ≠ FClass.f ∧
      (capture (heldAt 8704 FClass.u) (faultBrief FClass.u).unit).cls = some (faultBrief FClass.u).cls ∧
      (faultBrief FClass.u).key = (capture (heldAt 8704 FClass.u) (faultBrief FClass.u).unit).key ∧
      (faultBrief FClass.u).unit ≠ 64) ∧
    (ReportFree (heldAt 8704 FClass.f) (faultAt FClass.c 2) ∧
      (capture (heldAt 8704 FClass.f) (faultAt FClass.c 2).unit).sticky = true ∧
      (capture (heldAt 8704 FClass.f) (faultAt FClass.c 2).unit).conseq = false ∧
      (faultAt FClass.c 2).cls = FClass.c ∧
      ((capture (heldAt 8704 FClass.f) (faultAt FClass.c 2).unit).cls = some FClass.u ∨ (capture (heldAt 8704 FClass.f) (faultAt FClass.c 2).unit).cls = some FClass.f)) := by
  unfold ReportFree ReportTaken Calm; decide +kernel

theorem witness_ReportsAreCaptured_2 :
    (ReportFree (heldAt 8704 FClass.c) (faultAt FClass.c 2) ∧
      (capture (heldAt 8704 FClass.c) (faultAt FClass.c 2).unit).sticky = true ∧
      (capture (heldAt 8704 FClass.c) (faultAt FClass.c 2).unit).conseq = false ∧
      (faultAt FClass.c 2).cls = FClass.c ∧
      (capture (heldAt 8704 FClass.c) (faultAt FClass.c 2).unit).cls = some FClass.c ∧
      (faultAt FClass.c 2).key ≠ (capture (heldAt 8704 FClass.c) (faultAt FClass.c 2).unit).key ∧
      (heldAt 8704 FClass.c).od.set.graceMs ≠ 0) ∧
    ((darkOrAux State.reset = true ∨ standsAlready State.reset (faultAt FClass.c 2) = true)) ∧
    (ReportTaken inReset resetFaultIn ∧ maskedBy inReset resetFaultIn.detector = some 536870912 ∧
      (capture inReset resetFaultIn.unit).sticky = false) ∧
    ((capture (heldAt 16448 FClass.u) (coxId Crew.bow)).sticky = true ∧
      (capture (heldAt 16448 FClass.u) (coxId Crew.bow)).grace = true ∧ frozen (heldAt 16448 FClass.u) = false ∧
      isMember (heldAt 16448 FClass.u) Crew.bow = true ∧ isMember (heldAt 16448 FClass.u) Crew.bow.other = true ∧
      resetRunning (heldAt 16448 FClass.u) (coxId Crew.bow) = false ∧ (heldAt 16448 FClass.u).upd.trial ≠ 1 ∧
      (List.filter (fun t => decide ((heldAt 16448 FClass.u).tb.now < t + nsPerH)) (crewOf (heldAt 16448 FClass.u) Crew.bow).faultTimes).length < 2 ∧
      Calm (heldAt 16448 FClass.u)) := by
  unfold ReportFree ReportTaken Calm; decide +kernel

theorem witness_FaultsReact :
    (ReportFree ready (faultAt FClass.f 1) ∧ (faultAt FClass.f 1).cls = FClass.f ∧
      (capture ready (faultAt FClass.f 1).unit).sticky = false ∧ fatalUnit (faultAt FClass.f 1).unit = true ∧
      (faultAt FClass.f 1).unit ≠ 4288 ∧ SaveReady ready ∧ ready.fault.chipFatal = false) ∧
    (ReportFree ready (faultOn 4032 FClass.f 1) ∧ (faultOn 4032 FClass.f 1).cls = FClass.f ∧
      (capture ready (faultOn 4032 FClass.f 1).unit).sticky = false ∧ (faultOn 4032 FClass.f 1).unit = 4032 ∧
      resetRunning ready 4032 = false ∧ ready.frz.jtag = false) := by
  unfold ReportFree ReportTaken SaveReady Calm; decide +kernel

theorem witness_FaultsReact_2 :
    (ReportFree ready (faultOn 28672 FClass.f 1) ∧ (faultOn 28672 FClass.f 1).cls = FClass.f ∧
      (capture ready (faultOn 28672 FClass.f 1).unit).sticky = false ∧ (faultOn 28672 FClass.f 1).unit = 28672 ∧
      frozen ready = false ∧ resetRunning ready 28672 = false ∧ ready.ledger.failed = false ∧
      ready.fault.chipFatal = false) ∧
    (ReportFree frozenState (faultOn 12288 FClass.f 1) ∧ (faultOn 12288 FClass.f 1).cls = FClass.f ∧
      (capture frozenState (faultOn 12288 FClass.f 1).unit).sticky = false ∧ frozen frozenState = true ∧
      fatalUnit (faultOn 12288 FClass.f 1).unit = false ∧ (faultOn 12288 FClass.f 1).unit ≠ 4032) := by
  unfold ReportFree ReportTaken Calm; decide +kernel

theorem witness_FaultsReact_3 :
    (ReportFree (heldAt 8704 FClass.c) (faultAt FClass.u 2) ∧
      (capture (heldAt 8704 FClass.c) (faultAt FClass.u 2).unit).sticky = true ∧
      (capture (heldAt 8704 FClass.c) (faultAt FClass.u 2).unit).conseq = false ∧
      (capture (heldAt 8704 FClass.c) (faultAt FClass.u 2).unit).cls = some FClass.c ∧
      (faultAt FClass.u 2).cls = FClass.u ∧ (heldAt 8704 FClass.c).od.set.graceMs ≠ 0) ∧
    (ReportFree (heldAt 8704 FClass.f) (faultAt FClass.f 2) ∧
      (capture (heldAt 8704 FClass.f) (faultAt FClass.f 2).unit).sticky = true ∧
      (capture (heldAt 8704 FClass.f) (faultAt FClass.f 2).unit).conseq = false ∧
      (capture (heldAt 8704 FClass.f) (faultAt FClass.f 2).unit).cls = some FClass.f ∧
      (faultAt FClass.f 2).cls = FClass.f ∧ ddrChannelOf (faultAt FClass.f 2).unit = none ∧
      SaveReady (heldAt 8704 FClass.f) ∧ (heldAt 8704 FClass.f).fault.chipFatal = false) := by
  unfold ReportFree ReportTaken SaveReady Calm; decide +kernel

theorem witness_FaultsReact_4 :
    ((unitExists ready (faultOn 36864 FClass.c 2).unit = false ∨ unitExists ready (faultOn 36864 FClass.c 2).master = false) ∧
      standsAlready ready (faultOn 36864 FClass.c 2) = false ∧ SaveReady ready ∧ ready.fault.chipFatal = false) ∧
    (((capture ready 8704).grace = false ∨ (capture ready 8704).sticky = false ∨ frozen ready = true)) := by
  unfold SaveReady Calm; decide +kernel

theorem witness_FaultsReact_5 :
    (capture (graceOf 8704) 8704).grace = true ∧ (capture (graceOf 8704) 8704).sticky = true ∧ fatalUnit 8704 = true ∧
    8704 ≠ 4288 ∧ SaveReady (graceOf 8704) ∧ (graceOf 8704).fault.chipFatal = false := by
  unfold SaveReady Calm; decide +kernel

theorem witness_AcknowledgeClearsCapture :
    (ackNames (heldAt 8704 FClass.c) 570425345 = true ∧ isFatalCapture (heldAt 8704 FClass.c) 570425345 = false ∧
      Calm (heldAt 8704 FClass.c) ∧ mayAck (heldAt 8704 FClass.c) 4032 = true) ∧
    (ackNames (heldAt 8704 FClass.c) 570425345 = true ∧ isFatalCapture (heldAt 8704 FClass.c) 570425345 = false ∧
      Calm (heldAt 8704 FClass.c) ∧ mayAck (heldAt 8704 FClass.c) 8704 = false) ∧
    (ackNames (heldAt 8704 FClass.c) 570425345 = true ∧ isFatalCapture (heldAt 8704 FClass.c) 570425345 = false ∧
      Calm (heldAt 8704 FClass.c) ∧ Served (heldAt 8704 FClass.c) (Path.mailbox 0)) ∧
    ((ackNames ready 570425345 = false ∨ isFatalCapture ready 570425345 = true) ∧ Calm ready ∧
      Served ready (Path.mailbox 0)) ∧
    ((ackNames ready 570425345 = false ∨ isFatalCapture ready 570425345 = true) ∧ Calm ready) ∧
    (recordsWf (heldAt 8704 FClass.u) = true ∧
      ((heldAt 8704 FClass.u).fault.recs.all fun r => decide (r.1 < 65536)) = true ∧ Calm (heldAt 8704 FClass.u)) := by
  unfold Calm; decide +kernel

theorem witness_ShadowsAndConditionsEnd :
    ((shadowed.fault.shadows.any fun h => decide (h.unit = 24704) && (h.done || powerBlock 24704)) = true ∧
      Calm shadowed) ∧
    ((ready.fault.shadows.any fun h => decide (h.unit = 24704) && (h.done || powerBlock 24704)) = false) ∧
    ((capture (heldAt 8704 FClass.c) 8704).present = true) := by
  unfold Calm; decide +kernel

theorem witness_CrossbarReads :
    (readable 4026531848 = true ∧ regionUp ready 4026531848 = true ∧ 4026531848 ≠ 4028629024 ∧
      vmonOf 4026531848 = none ∧ 4026531848 ≠ 4032823296 ∧ isOar 16448 = false ∧ 4 + 2 ≤ 8 ∧ 4 < 8 ∧ Calm ready) ∧
    (ready.seq.vddAon = true ∧ isOar 4032 = false ∧ isCrewCore 4032 = false ∧ Calm ready) ∧
    (ready.seq.vddAon = true ∧ crewOfUnit 16384 = some Crew.bow ∧ isCrewCore 16384 = true ∧ Calm ready) ∧
    (darkOrAux ready = false ∧ frozen ready = false ∧ isOar 4032 = false ∧ Calm ready) ∧
    (ready.seq.vddAon = true ∧ 15 < ready.seq.rails.length ∧ isOar 4032 = false ∧ Calm ready) ∧
    (regionUp State.reset (4028629024 - 4028629024 % 8) = false ∧ Calm State.reset) ∧
    (4028629000 % 8 = 0 ∧ regionUp ready 4028629000 = true ∧ isOar 12289 = true ∧ unitExists ready 12289 = true ∧
      outOfWindow ready 12289 4028629000 8 = true ∧ (capture ready 12289).sticky = false ∧ Calm ready) := by
  unfold Calm; decide +kernel

theorem witness_HeadAndSerialReads :
    (headRegs ready 0 = true ∧ Calm ready) ∧
    (headRegs ready 0 = true ∧ Calm ready ∧ (capture ready (headPort 0)).sticky = false) ∧
    ((headOf headTraining 0).link = true ∧ headPresent headTraining 0 = true ∧ frozen headTraining = false ∧
      (headOf headTraining 0).ready = false) ∧
    ((headOf ready 0).link = true ∧ headPresent ready 0 = true ∧ frozen ready = false ∧
      (headOf ready 0).ready = true ∧ Calm ready) ∧
    (headRegs wideHead 0 = true ∧ (headOf wideHead 0).width = 16 ∧ (headOf wideHead 0).rate = LinkRate.g64 ∧
      Calm wideHead) ∧
    (ready.seq.vddAon = true ∧ isOar 4032 = false ∧ Calm ready) ∧
    (ready.seq.vddAon = true ∧ isOar 12289 = true ∧ unitExists ready 12289 = true ∧
      (capture ready 12289).sticky = false ∧ Calm ready) := by
  unfold Calm; decide +kernel

theorem witness_HeadHoldsItsRegisters :
    (headRegs ready 0 = true ∧ Calm ready ∧ (81920 ≤ 81920 ∧ 81920 < 98304 ∨ 102400 ≤ 81920 ∧
      81920 < 114688 ∨ 122880 ≤ 81920)) ∧
    (headRegs ready 0 = true ∧ Calm ready ∧ 4097 < 81920) ∧
    (headRegs ready 0 = true ∧ Calm ready ∧ 114688 ≤ 114696 ∧ 114696 < 118784) ∧
    (headRegs ready 0 = true ∧ Calm ready) ∧
    (headRegs hdmLocked 0 = true ∧ Calm hdmLocked ∧ (headOf hdmLocked 0).hdm[1]? = some lockedHdm) ∧
    (headRegs frozenState 0 = false) ∧
    (noAon.seq.vddAon = false) := by
  unfold Calm; decide +kernel

theorem witness_NamedRegistersWrite :
    (headRegs ready 0 = true) ∧
    (headRegs ready 0 = true ∧ Calm ready) ∧
    (headRegs ready 0 = true ∧ Calm ready ∧ (capture ready (headPort 0)).sticky = false) ∧
    (darkOrAux ready = false ∧ frozen ready = false ∧ Calm ready ∧ isOar 4032 = false) ∧
    (darkOrAux ready = false ∧ frozen ready = false ∧ Calm ready ∧ unitExists ready 4032 = true ∧
      (capture ready 4032).sticky = false ∧ isCore 4032 = false ∧ isOar 4032 = false) ∧
    (darkOrAux ready = false ∧ frozen ready = false ∧ Calm ready ∧ 4028629000 % 8 = 0 ∧
      inPowerRegion 4028629000 = false ∧ unitExists ready 12289 = true ∧ (capture ready 12289).sticky = false ∧
      isOar 12289 = true ∧ outOfWindow ready 12289 4028629000 8 = true) ∧
    (ready.seq.vddAon = true ∧ Calm ready ∧ (∀ k < 8, serialWriter 16384 (68157440 + k) = true)) ∧
    (ready.seq.vddAon = true ∧ Calm ready ∧ 0 < 8 ∧ serialWriter 4032 68157440 = false ∧ isCore 4032 = false ∧
      isOar 4032 = false ∧ unitExists ready 4032 = true ∧ (capture ready 4032).sticky = false) := by
  unfold Calm; decide +kernel

theorem witness_NamedRegistersWrite_2 :
    (headRegs pendingVector 0 = true ∧ (headOf pendingVector 0).msixPending.getLsbD 2 = true) ∧
    (headRegs hdmFree 0 = true ∧ 1 < (headOf hdmFree 0).hdm.length ∧ (headOf hdmFree 0).hdm[1]? = some emptyHdm ∧
      emptyHdm.locked = false ∧ emptyHdm.committed = false ∧ hdmAccepts 0 268435456 1 256 = true) ∧
    (headRegs hdmLocked 0 = true ∧ 1 < (headOf hdmLocked 0).hdm.length ∧
      (headOf hdmLocked 0).hdm[1]? = some lockedHdm ∧ lockedHdm.locked = true) := by
  decide +kernel

theorem witness_OtherRegistersWrite :
    (darkOrAux ready = false ∧ frozen ready = false ∧ isOar 4032 = false ∧ Calm ready) ∧
    (ready.seq.vddAon = true ∧ isOar 4032 = false ∧ Calm ready) ∧
    (4032823296 % 8 = 0 ∧ regionUp ready 4032823296 = true ∧ isOar 4032 = false ∧ Calm ready ∧
      4032823296 ∉ [4026531864, 4026531904, 4027580416, 4027580424, 4027580464, 4028628992, 4028629000, 4028629032, 4032823344, 4032823352, 4032823376, 4032823424]) ∧
    (regionUp State.reset (4028629032 - 4028629032 % 8) = false) ∧
    (headRegs ready 0 = true) ∧
    (headRegs ready 0 = true ∧ (81920 ≤ 98303 ∧ 98303 < 98304 ∨ 102400 ≤ 98303 ∧ 98303 < 114688 ∨ 114816 ≤ 98303)) ∧
    (headRegs ready 0 = true ∧ 4864 % 8 = 0 ∧ 4 < 8 ∧ 4864 < 81920 ∧ barHdm 4864 = none ∧ 4864 ≠ 4352 ∧ 4864 ≠ 4360) ∧
    (headRegs ready 0 = true ∧ CfgReg.ptm ≠ CfgReg.bar0) := by
  unfold Calm; decide +kernel

theorem witness_OtherRegistersWrite_2 :
    (headRegs frozenState 0 = false) ∧
    (noAon.seq.vddAon = false) := by
  decide +kernel

theorem witness_PowerUpReachesAux :
    (State.reset.seq.vddAon = false) ∧
    (noProfile.seq.vddAon = true ∧ noProfile.boot.sampled = false ∧ noProfile.seq.st = SeqSt.aux) ∧
    (ready.seq.vddAon = true ∧ ready.boot.sampled = true) ∧
    (noProfile.seq.st = SeqSt.aux ∧ noProfile.boot.profileOk = false ∧ (profileIn true).valid = true ∧
      (profileIn true).settings ≠ 0) ∧
    (noProfile.seq.st = SeqSt.aux ∧ noProfile.boot.profileOk = false ∧ (profileIn false).valid = false) ∧
    (darkState.seq.st = SeqSt.dark ∧ darkState.seq.vddAon = true ∧ darkState.seq.dir ≠ SeqDir.cut ∧
      auxLatch darkState = false) ∧
    (noProfile.seq.st = SeqSt.aux ∧ noProfile.boot.profileOk = false ∧ noSettings.valid = true ∧
      noSettings.settings = 0 ∧ noProfile.upd.trial ≠ 1) := by
  decide +kernel

theorem witness_VddAonLossKeepsNonVolatile :
    (written.seq.vddAon = true) ∧
    (State.reset.seq.vddAon = false) := by
  decide +kernel

theorem witness_ClimbFollowsCatch :
    (readyAux (auxState true false) = true ∧ (auxState true false).seq.staggering = false ∧
      (auxState true false).seq.catchDrive = true) ∧
    (readyAux (auxState false true) = true ∧ (auxState false true).seq.staggering = false ∧
      (auxState false true).seq.catchDrive = false ∧ (auxState false true).seq.catchIn = true) ∧
    (readyAux (auxState false false) = true ∧ (auxState false false).seq.staggering = false ∧
      (auxState false false).boot.lane.toNat * (auxState false false).od.set.staggerMs ≠ 0) ∧
    (auxPulse.seq.catchPulse = true) ∧
    (auxNoMain.seq.st = SeqSt.aux ∧ auxNoMain.seq.complete = true ∧ auxNoMain.seq.mainOk = false) ∧
    (heldStagger.seq.staggering = true ∧ (heldStagger.seq.holdAux = true ∨ heldStagger.seq.latched = true)) ∧
    (staggering.seq.staggering = true ∧ staggering.seq.holdAux = false ∧ staggering.seq.latched = false ∧
      held staggering = false ∧ staggering.boot.boathouse = false ∧ staggering.boot.failedBoots < 3 ∧
      staggering.boot.bootcfg ≠ 0 ∧ staggering.upd.trial ≠ 1 ∧ imageOk staggering staggering.upd.active = true ∧
      Calm staggering) ∧
    (readyAux flashUp = false ∧ flashUp.seq.complete = true ∧ flashUp.seq.dir = SeqDir.up ∧ 2 ≤ flashUp.seq.st.num ∧
      flashUp.seq.st.num ≤ 5 ∧ Calm flashUp) := by
  unfold Calm; decide +kernel

theorem witness_ClimbFollowsCatch_2 :
    (flashUp.seq.vddAon = true ∧ flashUp.seq.st ≠ SeqSt.aux ∧ 2 ≤ flashUp.seq.st.num ∧ flashUp.seq.st.num ≤ 5 ∧
      flashUp.seq.dir = SeqDir.up ∧ saving flashUp = false ∧ flashUp.seq.latched = false ∧ allFallen flashUp = false ∧
      Calm flashUp) ∧
    ((auxState true false).seq.vddAon = true ∧ (auxState true false).seq.st = SeqSt.aux ∧
      (auxState true false).seq.dir ≠ SeqDir.down ∧ (auxState true false).seq.latched = false) ∧
    (latchedAuxUp.seq.vddAon = true ∧ (latchedAuxUp.seq.st = SeqSt.aux ∧
      (latchedAuxUp.seq.dir = SeqDir.down ∨ latchedAuxUp.seq.latched = true) ∨ latchedAuxUp.seq.st ≠ SeqSt.aux ∧
      (latchedAuxUp.seq.st.num < 2 ∨ 5 < latchedAuxUp.seq.st.num ∨ latchedAuxUp.seq.dir ≠ SeqDir.up ∨ saving latchedAuxUp = true ∨ latchedAuxUp.seq.latched = true))) ∧
    (ready.seq.vddAon = true) ∧
    (waitsEdge flashUp = true ∧ flashUp.seq.waitRecorded = false) ∧
    (stretchM.seq.mrstStretch = true) ∧
    (stretchF.seq.frstStretch = true) := by
  unfold Calm; decide +kernel

theorem witness_RailsClimbAndDescend :
    (8 < (memoryRails SeqDir.up RailPhase.on RailPhase.off).seq.rails.length ∧
      climbing (memoryRails SeqDir.up RailPhase.on RailPhase.off) = true ∧
      railIn (memoryRails SeqDir.up RailPhase.on RailPhase.off) (memoryRails SeqDir.up RailPhase.on RailPhase.off).seq.st.num 8 = true ∧
      (railAt (memoryRails SeqDir.up RailPhase.on RailPhase.off) 8).phase = RailPhase.off) ∧
    (8 < (memoryRails SeqDir.down RailPhase.on RailPhase.on).seq.rails.length ∧
      (memoryRails SeqDir.down RailPhase.on RailPhase.on).seq.dir = SeqDir.down ∧
      (memoryRails SeqDir.down RailPhase.on RailPhase.on).seq.reversing = false ∧
      (railCfgAt (memoryRails SeqDir.down RailPhase.on RailPhase.on) 8).state = (memoryRails SeqDir.down RailPhase.on RailPhase.on).seq.st.num ∧
      (railAt (memoryRails SeqDir.down RailPhase.on RailPhase.on) 8).en = true) ∧
    ((railAt (memoryRails SeqDir.up RailPhase.rising RailPhase.rising) 8).phase = RailPhase.rising ∧
      Calm (memoryRails SeqDir.up RailPhase.rising RailPhase.rising) ∧
      (climbing (memoryRails SeqDir.up RailPhase.rising RailPhase.rising) = false ∨ ∃ k ∈ stateRails (memoryRails SeqDir.up RailPhase.rising RailPhase.rising) (memoryRails SeqDir.up RailPhase.rising RailPhase.rising).seq.st.num, k ≠ 8 ∧
      (railAt (memoryRails SeqDir.up RailPhase.rising RailPhase.rising) k).phase ≠ RailPhase.on)) ∧
    ((railAt (memoryRails SeqDir.up RailPhase.on RailPhase.rising) 8).phase = RailPhase.rising ∧
      Calm (memoryRails SeqDir.up RailPhase.on RailPhase.rising) ∧
      climbing (memoryRails SeqDir.up RailPhase.on RailPhase.rising) = true ∧
      (memoryRails SeqDir.up RailPhase.on RailPhase.rising).seq.st ≠ SeqSt.online ∧
      (memoryRails SeqDir.up RailPhase.on RailPhase.rising).lake.mapping = [] ∧
      (∀ k ∈ stateRails (memoryRails SeqDir.up RailPhase.on RailPhase.rising) (memoryRails SeqDir.up RailPhase.on RailPhase.rising).seq.st.num, k ≠ 8 → (railAt (memoryRails SeqDir.up RailPhase.on RailPhase.rising) k).phase = RailPhase.on)) ∧
    (climbing noRail = true ∧ stateRails noRail noRail.seq.st.num = [] ∧ noRail.seq.st ≠ SeqSt.dark ∧
      noRail.lake.mapping = [] ∧ Calm noRail) ∧
    ((railAt (memoryRails SeqDir.down RailPhase.falling RailPhase.falling) 8).phase = RailPhase.falling ∧
      (memoryRails SeqDir.down RailPhase.falling RailPhase.falling).seq.dir = SeqDir.down ∧
      (memoryRails SeqDir.down RailPhase.falling RailPhase.falling).seq.reversing = false ∧
      Calm (memoryRails SeqDir.down RailPhase.falling RailPhase.falling) ∧
      (∃ k ∈ stateRails (memoryRails SeqDir.down RailPhase.falling RailPhase.falling) (memoryRails SeqDir.down RailPhase.falling RailPhase.falling).seq.st.num, k ≠ 8 ∧
      (railAt (memoryRails SeqDir.down RailPhase.falling RailPhase.falling) k).phase ≠ RailPhase.off)) ∧
    ((railAt (memoryRails SeqDir.down RailPhase.off RailPhase.falling) 8).phase = RailPhase.falling ∧
      (memoryRails SeqDir.down RailPhase.off RailPhase.falling).seq.dir = SeqDir.down ∧
      (memoryRails SeqDir.down RailPhase.off RailPhase.falling).seq.reversing = false ∧
      Calm (memoryRails SeqDir.down RailPhase.off RailPhase.falling) ∧
      3 ≤ (memoryRails SeqDir.down RailPhase.off RailPhase.falling).seq.st.num ∧
      (∀ k ∈ stateRails (memoryRails SeqDir.down RailPhase.off RailPhase.falling) (memoryRails SeqDir.down RailPhase.off RailPhase.falling).seq.st.num, k ≠ 8 → (railAt (memoryRails SeqDir.down RailPhase.off RailPhase.falling) k).phase = RailPhase.off) ∧
      (∃ k ∈ stateRails (memoryRails SeqDir.down RailPhase.off RailPhase.falling) ((memoryRails SeqDir.down RailPhase.off RailPhase.falling).seq.st.num - 1), k ≠ 8 ∧
      (railAt (memoryRails SeqDir.down RailPhase.off RailPhase.falling) k).phase ≠ RailPhase.off)) ∧
    ((railAt (memoryRails SeqDir.up RailPhase.on RailPhase.rising) 8).phase = RailPhase.rising ∧
      (memoryRails SeqDir.up RailPhase.on RailPhase.rising).seq.dir ≠ SeqDir.down ∧
      Calm (memoryRails SeqDir.up RailPhase.on RailPhase.rising) ∧
      ((memoryRails SeqDir.up RailPhase.on RailPhase.rising).seq.rails.any fun r => decide (r.phase = RailPhase.falling)) = false ∧
      (memoryRails SeqDir.up RailPhase.on RailPhase.rising).seq.enabled.getLast? = some 8) := by
  unfold Calm; decide +kernel

theorem witness_SupervisionCuts :
    (supervised ready 12 = true ∧ (railAt ready 12).phase = RailPhase.on ∧ (true = true ∨ evalOff ready = false) ∧
      (railCfgAt ready 12).saveCritical = false ∧ Calm ready) ∧
    (RailSeen notReadyRails 14 RailFaultKind.ovFault ∧ (railAt notReadyRails 14).phase = RailPhase.on ∧
      memReady notReadyRails = false ∧ saving notReadyRails = false ∧ notReadyRails.seq.rails.length = 16 ∧
      Calm notReadyRails) ∧
    (notReadyRails.seq.batsw = true) ∧
    (darkOrAux ready = false ∧ 104 < 105 ∧ saving ready = false) ∧
    (darkOrAux ready = false ∧ 105 ≤ 119 ∧ 119 < 120 ∧ saving ready = false ∧ Calm ready) ∧
    (darkOrAux notReady = false ∧ 120 ≤ 120 ∧ frozen notReady = false ∧ (capture notReady 24576).sticky = false ∧
      saving notReady = false ∧ memReady notReady = false ∧ allFallen notReady = false ∧ Calm notReady) ∧
    (State.reset.seq.batsw = false) ∧
    (darkOrAux State.reset = true) := by
  unfold Calm RailSeen NoCutNow; decide +kernel

theorem witness_SupervisionCuts_2 :
    (darkOrAux savingHot = false ∧ saving savingHot = true ∧ 114 < 120 ∧ Calm savingHot ∧ 114 < 115) ∧
    (darkOrAux savingHot = false ∧ saving savingHot = true ∧ 115 < 120 ∧ Calm savingHot ∧ 115 ≤ 115 ∧
      8 < savingHot.save.dies ∧ savingHot.save.lastHalving = none) := by
  unfold Calm; decide +kernel

theorem witness_CommandsOfPower :
    (turnedAway (onSmbus (auxState true false)) (Path.smbus 8) = false ∧ Calm (onSmbus (auxState true false)) ∧
      darkOrAux (onSmbus (auxState true false)) = true ∧ boathouse (onSmbus (auxState true false)) = false ∧
      (onSmbus (auxState true false)).seq.dir ≠ SeqDir.cut) ∧
    (turnedAway cutDark (Path.smbus 8) = false ∧ Calm cutDark ∧ darkOrAux cutDark = true ∧
      boathouse cutDark = false ∧ cutDark.seq.dir = SeqDir.cut) ∧
    (turnedAway (onSmbus (auxState true false)) (Path.smbus 8) = false ∧ Calm (onSmbus (auxState true false)) ∧
      ((onSmbus (auxState true false)).seq.st = SeqSt.dark ∨ (onSmbus (auxState true false)).seq.st = SeqSt.aux ∧
      (onSmbus (auxState true false)).seq.mainOk = true ∧ (onSmbus (auxState true false)).seq.dir ≠ SeqDir.down) ∧
      (onSmbus (auxState true false)).seq.dir ≠ SeqDir.cut ∧ (onSmbus (auxState true false)).seq.latched = false ∧
      saving (onSmbus (auxState true false)) = false ∧ boathouse (onSmbus (auxState true false)) = false) ∧
    (turnedAway latchedAux (Path.smbus 8) = false ∧ Calm latchedAux ∧ darkOrAux latchedAux = true ∧
      latchedAux.seq.latched = true ∧ boathouse latchedAux = false) := by
  unfold Calm; decide +kernel

theorem witness_CommandsOfPower_2 :
    (Served (onSmbus (savingIn SavePhase.map Trigger.vin)) (Path.smbus 8) ∧
      Calm (onSmbus (savingIn SavePhase.map Trigger.vin)) ∧
      saving (onSmbus (savingIn SavePhase.map Trigger.vin)) = true) ∧
    (Served written (Path.mailbox 0) ∧ Calm written ∧ saving written = false ∧ written.seq.shutdown = Shutdown.none ∧
      written.seq.dir ≠ SeqDir.down ∧ written.seq.st = SeqSt.online ∧ memReady written = true ∧
      written.rst.committed = true ∧ written.seq.mainOk = true ∧ (∀ e ∈ written.wb.entries, e.phase = WPhase.admitted)) ∧
    (turnedAway latchedDark (Path.smbus 8) = false ∧ privilege (Path.smbus 8) = 1 ∧ darkOrAux latchedDark = true ∧
      boathouse latchedDark = false ∧ Calm latchedDark ∧ 1 = 1 ∧ latchedDark.seq.latched = true ∧
      latchedDark.seq.st = SeqSt.dark ∧ latchedDark.seq.dir ≠ SeqDir.cut ∧
      latchedDark.seq.darkSince + latchedDark.od.set.darkMs * 1000000 ≤ latchedDark.tb.now) ∧
    (turnedAway latchedAux (Path.smbus 8) = false ∧ privilege (Path.smbus 8) = 1 ∧ darkOrAux latchedAux = true ∧
      boathouse latchedAux = false ∧ Calm latchedAux ∧ 1 = 1 ∧ latchedAux.seq.latched = true ∧
      (latchedAux.seq.st = SeqSt.aux ∨ latchedAux.tb.now < latchedAux.seq.darkSince + latchedAux.od.set.darkMs * 1000000)) := by
  unfold Calm; decide +kernel

theorem witness_CommandsOfPower_3 :
    (turnedAway (onSmbus (auxState true false)) (Path.smbus 8) = false ∧ privilege (Path.smbus 8) = 1 ∧
      darkOrAux (onSmbus (auxState true false)) = true ∧ boathouse (onSmbus (auxState true false)) = false ∧
      Calm (onSmbus (auxState true false)) ∧ 1 = 1 ∧ (onSmbus (auxState true false)).seq.latched = false) ∧
    (turnedAway latchedAux (Path.smbus 8) = false ∧ privilege (Path.smbus 8) = 1 ∧ darkOrAux latchedAux = true ∧
      boathouse latchedAux = false ∧ Calm latchedAux ∧ 2 ≠ 1) ∧
    (drainedShutdown.seq.shutdown = Shutdown.draining ∧ drainedShutdown.pm.residue = 0 ∧
      frozen drainedShutdown = false ∧ anyMember drainedShutdown = true ∧ drainedShutdown.ledger.failed = false ∧
      Calm drainedShutdown ∧ checkpointReady drainedShutdown = some (chunksDone, 0, 7)) ∧
    ((shutting Shutdown.checkpointed).seq.shutdown = Shutdown.checkpointed ∧
      frozen (shutting Shutdown.checkpointed) = false ∧ anyMember (shutting Shutdown.checkpointed) = true ∧
      (shutting Shutdown.checkpointed).ledger.failed = false ∧ allFallen (shutting Shutdown.checkpointed) = false ∧
      (shutting Shutdown.checkpointed).seq.onPending = false ∧ Calm (shutting Shutdown.checkpointed)) := by
  unfold Calm; decide +kernel

theorem witness_CommandsOfPower_4 :
    (notReady.rst.committed = false ∧ boathouse notReady = false ∧ notReady.seq.vddAon = true ∧
      failCauseHolds notReady BootFail.watchdog = true ∧ Calm notReady) ∧
    ((onSmbus (auxState true false)).rst.committed = false ∧ boathouse (onSmbus (auxState true false)) = false ∧
      (onSmbus (auxState true false)).seq.vddAon = true ∧
      failCauseHolds (onSmbus (auxState true false)) BootFail.chipFatal = true ∧
      Calm (onSmbus (auxState true false)) ∧
      (darkOrAux (onSmbus (auxState true false)) = true ∨ (onSmbus (auxState true false)).seq.dir = SeqDir.down)) ∧
    (notReady.rst.committed = false ∧ boathouse notReady = false ∧ notReady.seq.vddAon = true ∧
      failCauseHolds notReady BootFail.watchdog = true ∧ Calm notReady ∧ darkOrAux notReady = false ∧
      notReady.seq.dir ≠ SeqDir.down ∧ allFallen notReady = false) := by
  unfold Calm; decide +kernel

theorem witness_RailFaultsCutTheSave :
    (RailSeen ready 12 RailFaultKind.ovFault ∧ (railAt ready 12).phase = RailPhase.on ∧
      (memReady ready = true ∨ saving ready = true) ∧ boathouse ready = false ∧ inWindow ready = false ∧
      ready.ledger.failed = false ∧ holdRail ready ≠ some 12 ∧ ready.seq.latched = false ∧
      ready.log.overflow = false ∧ Calm ready) ∧
    (RailSeen (savingIn SavePhase.map Trigger.vin) 12 RailFaultKind.uvFault ∧
      (railAt (savingIn SavePhase.map Trigger.vin) 12).phase = RailPhase.on ∧
      (memReady (savingIn SavePhase.map Trigger.vin) = true ∨ saving (savingIn SavePhase.map Trigger.vin) = true) ∧
      boathouse (savingIn SavePhase.map Trigger.vin) = false ∧ inWindow (savingIn SavePhase.map Trigger.vin) = false ∧
      (savingIn SavePhase.map Trigger.vin).ledger.failed = false ∧
      holdRail (savingIn SavePhase.map Trigger.vin) ≠ some 12 ∧
      (savingIn SavePhase.map Trigger.vin).seq.latched = false ∧
      (savingIn SavePhase.map Trigger.vin).log.overflow = false ∧ Calm (savingIn SavePhase.map Trigger.vin)) ∧
    ((RailFaultKind.ovFault = RailFaultKind.ovFault ∨ RailFaultKind.ovFault = RailFaultKind.overcurrent) ∧
      RailSeen (memoryRails SeqDir.down RailPhase.falling RailPhase.falling) 8 RailFaultKind.ovFault ∧
      (railAt (memoryRails SeqDir.down RailPhase.falling RailPhase.falling) 8).phase = RailPhase.falling ∧
      (memoryRails SeqDir.down RailPhase.falling RailPhase.falling).seq.rails.length = 16 ∧
      Calm (memoryRails SeqDir.down RailPhase.falling RailPhase.falling)) ∧
    (supervised cutNow 2 = true ∧ cutNow.seq.cutMark = some cutMark2 ∧ cutMark2.time = cutNow.tb.now ∧
      cutMark2.latches = true ∧ (2, true) ∈ cutMark2.rails ∧ evalOff cutNow = false ∧ 2 < cutNow.seq.rails.length ∧
      (RailFaultKind.ovFault = RailFaultKind.ovFault ∨ RailFaultKind.ovFault = RailFaultKind.uvFault ∨ RailFaultKind.ovFault = RailFaultKind.overcurrent ∧
      (railCfgAt cutNow 2).pgIsOc = true ∨ RailFaultKind.ovFault = RailFaultKind.powerGoodLoss ∧
      (railCfgAt cutNow 2).pgIsOc = false) ∧ Calm cutNow) ∧
    (supervised criticalRail 8 = true ∧ (railAt criticalRail 8).phase = RailPhase.on ∧
      (true = true ∨ evalOff criticalRail = false) ∧ (railCfgAt criticalRail 8).saveCritical = true ∧
      criticalRail.seq.dir ≠ SeqDir.down ∧ SaveReady criticalRail) ∧
    (evalOff notReadyRails = true ∧ supervised notReadyRails 14 = true) ∧
    (supervised State.reset 8 = false) ∧
    (supervised State.reset 8 = false ∧ NoCutNow State.reset) := by
  unfold RailSeen NoCutNow SaveReady Calm; (repeat' apply And.intro) <;> decide +kernel

theorem witness_RailFaultsCutTheSave_2 :
    supervised (memoryRails SeqDir.down RailPhase.falling RailPhase.off) 8 = true ∧
    (railAt (memoryRails SeqDir.down RailPhase.falling RailPhase.off) 8).phase = RailPhase.off ∧
    8 < (memoryRails SeqDir.down RailPhase.falling RailPhase.off).seq.rails.length ∧
    NoCutNow (memoryRails SeqDir.down RailPhase.falling RailPhase.off) ∧
    Instr.railWarning 8 true 0 ∈ [Instr.railWarning 8 true 0, Instr.railFault 8 RailFaultKind.uvFault 0] := by
  unfold NoCutNow; (repeat' apply And.intro) <;> decide +kernel

theorem witness_CommandsOfPowerElsewhere :
    (Served (shutting Shutdown.draining) (Path.mailbox 0) ∧ saving (shutting Shutdown.draining) = false ∧
      Calm (shutting Shutdown.draining) ∧
      ((shutting Shutdown.draining).seq.shutdown = Shutdown.draining ∨ (shutting Shutdown.draining).seq.shutdown = Shutdown.checkpointed ∨ (shutting Shutdown.draining).seq.dir = SeqDir.down ∨ (shutting Shutdown.draining).seq.dir = SeqDir.cut)) ∧
    (Served (window RestPhase.fill) (Path.mailbox 0) ∧ saving (window RestPhase.fill) = false ∧
      Calm (window RestPhase.fill) ∧
      ((window RestPhase.fill).seq.shutdown = Shutdown.none ∨ (window RestPhase.fill).seq.shutdown = Shutdown.waiting) ∧
      (window RestPhase.fill).seq.dir ≠ SeqDir.down ∧ (window RestPhase.fill).seq.dir ≠ SeqDir.cut ∧
      (window RestPhase.fill).seq.mainOk = true ∧ inWindow (window RestPhase.fill) = true ∧
      ((window RestPhase.fill).seq.st ≠ SeqSt.online ∨ (window RestPhase.fill).rst.committed = false)) ∧
    (Served (onSmbus climbing2) (Path.smbus 8) ∧ saving (onSmbus climbing2) = false ∧ Calm (onSmbus climbing2) ∧
      ((onSmbus climbing2).seq.shutdown = Shutdown.none ∨ (onSmbus climbing2).seq.shutdown = Shutdown.waiting) ∧
      (onSmbus climbing2).seq.dir ≠ SeqDir.down ∧ (onSmbus climbing2).seq.dir ≠ SeqDir.cut ∧
      (onSmbus climbing2).seq.mainOk = true ∧ inWindow (onSmbus climbing2) = false ∧
      memReady (onSmbus climbing2) = false ∧ (onSmbus climbing2).seq.onPending = false ∧
      allFallen (onSmbus climbing2) = false) ∧
    (Served (onSmbus goingDown) (Path.smbus 8) ∧ saving (onSmbus goingDown) = false ∧ Calm (onSmbus goingDown) ∧
      (onSmbus goingDown).seq.latched = false ∧ (onSmbus goingDown).seq.dir = SeqDir.down) := by
  unfold Calm; decide +kernel

theorem witness_CommandsOfPowerElsewhere_2 :
    (Served noMain (Path.smbus 8) ∧ saving noMain = false ∧ Calm noMain ∧ noMain.seq.mainOk = false) ∧
    (Served (onSmbus latchedUp) (Path.smbus 8) ∧ saving (onSmbus latchedUp) = false ∧ Calm (onSmbus latchedUp) ∧
      ((onSmbus latchedUp).seq.latched = true ∨ (onSmbus latchedUp).seq.dir = SeqDir.cut)) ∧
    (Served (shutting Shutdown.draining) (Path.mailbox 0) ∧ saving (shutting Shutdown.draining) = false ∧
      Calm (shutting Shutdown.draining) ∧ (shutting Shutdown.draining).seq.latched = false ∧
      (shutting Shutdown.draining).seq.dir ≠ SeqDir.down ∧ (shutting Shutdown.draining).seq.dir ≠ SeqDir.cut ∧
      (shutting Shutdown.draining).seq.shutdown ≠ Shutdown.none) ∧
    (Served ready (Path.mailbox 0) ∧ saving ready = false ∧ Calm ready ∧ ready.seq.latched = false ∧
      ready.seq.dir ≠ SeqDir.down ∧ ready.seq.dir ≠ SeqDir.cut ∧ ready.seq.shutdown = Shutdown.none) := by
  unfold Calm; decide +kernel

theorem witness_CommandsOfPowerElsewhere_3 :
    (Served (onSmbus latchedUp) (Path.smbus 8) ∧ saving (onSmbus latchedUp) = false ∧ Calm (onSmbus latchedUp) ∧
      privilege (Path.smbus 8) = 1 ∧ (onSmbus latchedUp).seq.latched = true) ∧
    (Served ready (Path.mailbox 0) ∧ saving ready = false ∧ Calm ready ∧ privilege (Path.mailbox 0) ≠ 1) ∧
    (reaches State.reset (Path.mailbox 0) = false) ∧
    ((ready.seq.shutdown ≠ Shutdown.draining ∨ ready.pm.residue ≠ 0 ∨ frozen ready = true ∨ anyMember ready = false)) := by
  unfold Calm; decide +kernel

theorem witness_CommandsOfPowerElsewhere_4 :
    ((ready.seq.shutdown ≠ Shutdown.checkpointed ∨ frozen ready = true ∨ anyMember ready = false)) ∧
    ((ready.rst.committed = true ∨ boathouse ready = true ∨ ready.seq.vddAon = false ∨ failCauseHolds ready BootFail.noMember = false)) := by
  decide +kernel

theorem witness_ClimbWaits :
    (ready.seq.vddAon = true) ∧
    ((ready.seq.st ≠ SeqSt.aux ∨ ready.boot.profileOk = true)) ∧
    ((ready.seq.st ≠ SeqSt.dark ∨ ready.seq.vddAon = false ∨ ready.seq.dir = SeqDir.cut ∨ auxLatch ready = true)) ∧
    ((readyAux ready = false ∨ ready.seq.staggering = true)) ∧
    ((readyAux ready = false ∨ ready.seq.staggering = true) ∧
      (ready.seq.complete = false ∨ ready.seq.dir ≠ SeqDir.up ∨ ready.seq.st.num < 2 ∨ 5 < ready.seq.st.num)) ∧
    (ready.seq.catchPulse = false) ∧
    ((ready.seq.st ≠ SeqSt.aux ∨ ready.seq.complete = false ∨ ready.seq.mainOk = true)) ∧
    (ready.seq.staggering = false) := by
  decide +kernel

theorem witness_ClimbWaits_2 :
    (State.reset.seq.vddAon = false) ∧
    ((waitsEdge ready = false ∨ ready.seq.waitRecorded = true)) ∧
    (ready.seq.mrstStretch = false ∧ ready.seq.frstStretch = false) ∧
    (climbing ready = false) ∧
    (ready.seq.dir ≠ SeqDir.down) ∧
    ((railAt ready 0).phase ≠ RailPhase.rising) ∧
    ((railAt ready 0).phase ≠ RailPhase.falling) := by
  decide +kernel

theorem witness_GaugeSamples :
    (ready.seq.vddAon = true ∧ Calm ready) ∧
    (3 ≤ (strOf openA Str.a).openCount ∧ (strOf openA Str.a).st ≠ StrState.absent ∧
      (strOf openA Str.a.other).st ≠ StrState.learning ∧ Calm openA) ∧
    ((strOf ready Str.a).openCount < 3) ∧
    ((strOf newA Str.a).st = StrState.absent ∧ (strOf newA Str.a).ntcOpen = false ∧ (strOf newA Str.a).reasons = [] ∧
      (strOf newA Str.a).detected = false ∧ newA.bat.packid = none ∧ newA.bat.packOpen = false ∧ Calm newA) ∧
    ((strOf absentA Str.a).st = StrState.absent ∧ (strOf absentA Str.a).ntcOpen = false ∧
      (strOf absentA Str.a).reasons = [] ∧ (strOf absentA Str.a).detected = true ∧
      (strOf absentA Str.a.other).st ≠ StrState.learning ∧ absentA.bat.desc.isSome = true ∧ Calm absentA) ∧
    (ready.seq.vddAon = true ∧ Calm ready ∧ ready.bat.reading.1 ≠ packCode 1800) ∧
    ((packRead true).seq.vddAon = true ∧ Calm (packRead true) ∧ (packRead true).bat.reading = (packCode 0, 2) ∧
      (packRead true).bat.packOpen = false ∧ (packRead true).bat.packid ≠ some (packCode 0) ∧
      saving (packRead true) = false ∧ packCode 0 < 16) ∧
    ((packRead false).seq.vddAon = true ∧ Calm (packRead false) ∧ (packRead false).bat.reading = (packCode 0, 2) ∧
      (packRead false).bat.packOpen = false ∧ (packRead false).bat.packid ≠ some (packCode 0) ∧
      saving (packRead false) = true) := by
  unfold Calm; decide +kernel

theorem witness_GaugeAnchors :
    (atRest unknownA Str.a = true ∧ (strOf unknownA Str.a).st ≠ StrState.absent ∧ gaugeRuns unknownA = true ∧
      unknownA.bat.desc = some PackDescriptor.reference ∧ Calm unknownA ∧ unknownA.seq.vddAon = true) ∧
    (atRest unknownA Str.a = true ∧ (strOf unknownA Str.a).st ≠ StrState.absent ∧ gaugeRuns unknownA = true ∧
      unknownA.bat.desc = some PackDescriptor.reference ∧ Calm unknownA ∧ (strOf unknownA Str.a).insertion = true) ∧
    (fullCondition nearFull Str.a = true ∧ gaugeRuns nearFull = true ∧ Calm nearFull) ∧
    (fullA.bat.desc = some PackDescriptor.reference ∧ (strOf fullA Str.a).full = true ∧
      (strOf fullA Str.a).fullAt = some (2000080, 3300000000) ∧
      (3 * ↑(PackDescriptor.reference.cNom * 36000000) ≤ (3300000000 - (strOf fullA Str.a).chargeTenth) * 100 ∨ 2000080 + ↑(30 * nsPerDay) ≤ ↑fullA.tb.now)) ∧
    (drifting.bat.desc = some PackDescriptor.reference ∧ (strOf drifting Str.a).rho = some 1 ∧
      gaugeRuns drifting = true ∧ (strOf drifting Str.a).rhoTime + ↑(30 * nsPerDay) ≤ ↑drifting.tb.now) := by
  unfold Calm; decide +kernel

theorem witness_GaugeLearns :
    (gaugeRuns learnDueA = true ∧ learnOk learnDueA Str.a = true ∧ (strOf learnDueA Str.a).paused = false ∧
      (strOf learnDueA Str.a.other).paused = false ∧ Calm learnDueA ∧ learnDue learnDueA Str.a = true ∧
      otherFirst learnDueA Str.a = false) ∧
    (gaugeRuns fullA = true ∧ learnOk fullA Str.a = true ∧ (strOf fullA Str.a).paused = false ∧
      (strOf fullA Str.a.other).paused = false ∧ Calm fullA ∧
      (learnDue fullA Str.a = false ∨ otherFirst fullA Str.a = true)) ∧
    (gaugeRuns (onSmbus fullA) = true ∧ learnOk (onSmbus fullA) Str.a = true ∧
      (strOf (onSmbus fullA) Str.a).paused = false ∧ (strOf (onSmbus fullA) Str.a.other).paused = false ∧
      Calm (onSmbus fullA) ∧ Served (onSmbus fullA) (Path.smbus 8) ∧
      (privilege (Path.smbus 8) = 1 ∨ privilege (Path.smbus 8) = 2)) ∧
    (Served ready (Path.mailbox 0) ∧ Calm ready ∧ privilege (Path.mailbox 0) = 0) := by
  unfold Calm; decide +kernel

theorem witness_GaugeLearns_2 :
    (Served ready (Path.mailbox 0) ∧ Calm ready ∧ privilege (Path.mailbox 0) ≠ 1) ∧
    (Served (onSmbus ready) (Path.smbus 8) ∧ Calm (onSmbus ready) ∧ privilege (Path.smbus 8) = 1 ∧ (0 = 0 ∨ 3 < 0)) ∧
    (Served (onSmbus ready) (Path.smbus 8) ∧ Calm (onSmbus ready) ∧ privilege (Path.smbus 8) = 1 ∧
      (3 = 3 ∨ 3 = match Str.b with | Str.a => 1 | Str.b => 2) ∧ (strOf (onSmbus ready) Str.b).st ≠ StrState.absent ∧
      (strOf (onSmbus ready) Str.b).reasons = [] ∧ (onSmbus ready).bat.desc.isSome = true) ∧
    ((strOf learningA Str.a).st = StrState.learning ∧ (strOf learningA Str.a).reverse = true ∧
      gaugeRuns learningA = true ∧ -↑(10 * learningA.od.set.restMa) < (strOf learningA Str.a).sample.current ∧
      socLb (strOf learningA Str.a) ≠ 0 ∧ Calm learningA) := by
  unfold Calm; decide +kernel

theorem witness_GaugeLearns_3 :
    (gaugeRuns restingDue = true ∧ (strOf restingDue Str.a).st = StrState.counted ∧
      (strOf restingDue Str.a.other).st = StrState.counted ∧ restDue restingDue Str.a = true ∧
      restDue restingDue Str.a.other = false ∧ (strOf restingDue Str.a).paused = false ∧
      (strOf restingDue Str.a.other).paused = false) ∧
    ((strOf restingA Str.a).paused = true ∧ gaugeRuns restingA = true ∧ Calm restingA) ∧
    ((strOf ready Str.a).reverse = false ∧ Calm ready) ∧
    ((strOf offFailedA Str.a).reverse = false ∧ Calm offFailedA ∧ (strOf offFailedA Str.a).offFailed = true) := by
  unfold Calm; decide +kernel

theorem witness_GaugeLearns_4 :
    (Served (onSmbus ready) (Path.smbus 8) ∧ Calm (onSmbus ready) ∧
      (privilege (Path.smbus 8) = 1 ∨ privilege (Path.smbus 8) = 2) ∧ 3 ≠ 1 ∧ 3 ≠ 2) ∧
    (Served (onSmbus ready) (Path.smbus 8) ∧ Calm (onSmbus ready) ∧
      (privilege (Path.smbus 8) = 1 ∨ privilege (Path.smbus 8) = 2) ∧ learnOk (onSmbus ready) Str.b = false) ∧
    (reaches State.reset (Path.smbus 8) = false) := by
  unfold Calm; decide +kernel

theorem witness_GaugeSettings :
    (gaugeRuns recorded = true ∧ recorded.ledger.failed = false) ∧
    (darkOrAux ready = false) ∧
    (darkOrAux ready = false ∧ Calm ready ∧ StrState.failed ≠ StrState.absent ∧
      (strOf ready Str.a).st ≠ StrState.absent) ∧
    (darkOrAux absentA = false ∧ Calm absentA ∧
      (StrState.counted = StrState.absent ∨ (strOf absentA Str.a).st = StrState.absent)) := by
  unfold Calm; decide +kernel

theorem witness_LedgerKeepsCommits :
    (crewPath ready = true ∧ ready.ledger.failed = false) ∧
    (crewPath noMember = false) ∧
    (wlRing.ledger.failed = true ∧ wlRing.seq.vddAon = true) ∧
    (ready.ledger.failed = false) ∧
    (testing.ledger.testDue = true ∧ darkOrAux testing = false ∧ testing.rst.begun = false) ∧
    (crewPath failedLedger = true ∧ failedLedger.ledger.failed = true) ∧
    ((ready.ledger.testDue = false ∨ darkOrAux ready = true ∨ ready.rst.begun = true)) := by
  decide +kernel

theorem witness_WaterlineWrites :
    (crewPath ready = true ∧ ready.ledger.failed = false ∧ (ready.wl.ring.any fun x => x.staged) = false ∧
      ready.wl.log.length < logSlots) ∧
    (crewPath (wlFull 5) = true ∧ (wlFull 5).ledger.failed = false ∧
      ((wlFull 5).wl.ring.any fun x => x.staged) = false ∧ logSlots ≤ (wlFull 5).wl.log.length ∧
      ((wlFull 5).wl.log.all fun x => decide ((wlReq 4 false).severity < x.severity)) = true) ∧
    (crewPath (wlFull 4) = true ∧ (wlFull 4).ledger.failed = false ∧
      ((wlFull 4).wl.ring.any fun x => x.staged) = false ∧ logSlots ≤ (wlFull 4).wl.log.length ∧
      (wlFull 4).wl.log[0]? = some (wlRec 4) ∧ (wlRec 4).severity ≤ (wlReq 4 false).severity ∧
      ((List.take 0 (wlFull 4).wl.log).all fun y => decide ((wlReq 4 false).severity < y.severity)) = true) := by
  decide +kernel

theorem witness_StagingWrites :
    (crewPath noMember = false ∧ noMember.seq.vddAon = true ∧ noMember.wl.ring.length < ringSlots) ∧
    (crewPath ready = true) ∧
    (crewPath noMember = false) := by
  decide +kernel

theorem witness_WaterlineReads :
    (Served wlOne (Path.mailbox 0)) ∧
    (turnedAway (onSmbus frozenState) (Path.smbus 8) = false ∧ darkOrAux (onSmbus frozenState) = false ∧
      frozen (onSmbus frozenState) = true) ∧
    (reaches State.reset (Path.mailbox 0) = false) ∧
    (Served wlOne (Path.mailbox 0) ∧ ((List.filter (fun r => decide (0 ≤ r.seq ∧
      0 ≤ ↑r.severity)) (readableRecs wlOne)).length ≤ 1) ∧
      ((List.map wlNative (List.filter (fun r => decide (0 ≤ r.seq ∧
      0 ≤ ↑r.severity)) (readableRecs wlOne))).flatten.length ≤ 8176)) := by
  decide +kernel

theorem witness_OdReads :
    (Served ready (Path.mailbox 0) ∧ NoSession ready (Path.mailbox 0) ∧ 20481 < 61440 ∧
      odField ready (20481) (0) = some graceField ∧ graceField.acc ≠ OdAccess.wo ∧ odSize graceField.typ ≠ 0) ∧
    (Served ready (Path.mailbox 0) ∧ NoSession ready (Path.mailbox 0)) ∧
    (Served ready (Path.mailbox 0) ∧ NoSession ready (Path.mailbox 0) ∧ 20481 < 61440 ∧
      odField ready (20481) (0) = some graceField ∧ graceField.acc ≠ OdAccess.wo ∧ odSize graceField.typ ≠ 0 ∧
      viewCover (20481) (0) 0 = []) ∧
    (Served ready (Path.mailbox 0) ∧ NoSession ready (Path.mailbox 0) ∧ 4095 < 61440 ∧
      odField ready (4095) (0) = none) := by
  unfold NoSession; decide +kernel

theorem witness_OdReads_2 :
    (Served ready (Path.mailbox 0) ∧ NoSession ready (Path.mailbox 0) ∧ ready.boot.testmode = false) ∧
    (EntryServed ready (Path.mailbox 0) 8193 ∧ NoSession ready (Path.mailbox 0) ∧ 8193 < 61440 ∧
      odField ready (8193) (0) = some { typ := OdType.u64, acc := OdAccess.ro, wr := 0 } ∧
      (⟨.u64, .ro, 0⟩ : OdField).acc ≠ OdAccess.wo ∧
      8 ≤ (odBytes ready (8193) (0) (⟨.u64, .ro, 0⟩ : OdField).typ).length) ∧
    (EntryServed ready (Path.mailbox 0) 8256 ∧ NoSession ready (Path.mailbox 0) ∧ 8256 < 61440 ∧
      odField ready (8256) (0) = some { typ := OdType.u8, acc := OdAccess.wo, wr := 7 } ∧
      (⟨.u8, .wo, 7⟩ : OdField).acc = OdAccess.wo) ∧
    (EntryServed (onSmbus (auxState true false)) (Path.smbus 8) 12292 ∧
      NoSession (onSmbus (auxState true false)) (Path.smbus 8) ∧ 12292 < 61440 ∧
      odField (onSmbus (auxState true false)) (12292) (0) = some { typ := OdType.u8, acc := OdAccess.rws, wr := 2 } ∧
      (⟨.u8, .rws, 2⟩ : OdField).acc ≠ OdAccess.wo ∧
      0 ≤ (odBytes (onSmbus (auxState true false)) (12292) (0) (⟨.u8, .rws, 2⟩ : OdField).typ).length) := by
  unfold NoSession; decide +kernel

theorem witness_OdReads_3 :
    (turnedAway (onSmbus (auxState true false)) (Path.smbus 8) = false ∧
      darkOrAux (onSmbus (auxState true false)) = true ∧ 8193 / 4096 ≠ 1 ∧ 8193 / 4096 ≠ 3) ∧
    (turnedAway noMember (Path.mailbox 0) = false ∧ darkOrAux noMember = false ∧ frozen noMember = false ∧
      emptySet noMember = true ∧ boathouse noMember = false) ∧
    (Served ready (Path.mailbox 0) ∧ NoSession ready (Path.mailbox 0) ∧ 20481 < 61440 ∧
      odField ready (20481) (0) = some graceField ∧ graceField.acc ≠ OdAccess.wo ∧ odSize graceField.typ ≠ 0 ∧
      odSize graceField.typ < 2 ∧ viewCover (20481) (0) 2 = []) ∧
    (reaches State.reset (Path.mailbox 0) = false) := by
  unfold NoSession; decide +kernel

theorem witness_GaugeWaits :
    (State.reset.seq.vddAon = false) ∧
    (((strOf ready Str.a).st ≠ StrState.absent ∨ (strOf ready Str.a).ntcOpen = true)) ∧
    (((strOf State.reset Str.a).st = StrState.absent ∨ atRest State.reset Str.a = false ∨ State.reset.seq.vddAon = false)) ∧
    (((strOf ready Str.a).insertion = false ∨ atRest ready Str.a = false ∨ gaugeRuns ready = false)) ∧
    ((fullCondition ready Str.a = false ∨ gaugeRuns ready = false)) ∧
    (((strOf ready Str.a).full = false ∨ (strOf ready Str.a).fullAt = none ∨ ready.bat.desc = none)) ∧
    (((strOf ready Str.a).rho = none ∨ ready.bat.desc = none ∨ gaugeRuns ready = false)) ∧
    ((gaugeRuns ready = false ∨ learnOk ready Str.a = false ∨ (strOf ready Str.a).paused = true)) := by
  decide +kernel

theorem witness_GaugeWaits_2 :
    (((strOf ready Str.a).st ≠ StrState.learning ∨ (strOf ready Str.a).reverse = false ∨ gaugeRuns ready = false)) ∧
    ((gaugeRuns ready = false ∨ (strOf ready Str.a).st ≠ StrState.counted ∨ restDue ready Str.a = false ∨ (strOf ready Str.a).paused = true)) ∧
    (((strOf ready Str.a).paused = false ∨ gaugeRuns ready = false)) ∧
    ((strOf learningA Str.a).reverse = true) ∧
    (gaugeRuns frozenState = false) ∧
    (darkOrAux State.reset = true) := by
  decide +kernel

theorem witness_WaterlineWritesElsewhere :
    (crewPath failedLedger = true ∧ failedLedger.ledger.failed = true ∧
      (failedLedger.wl.ring.any fun x => x.staged) = false ∧ failedLedger.wl.ring.length < ringSlots) ∧
    (crewPath stagedOne = true ∧ stagedOne.ledger.failed = false ∧ stagedOne.wl.ring = [wlStaged] ∧
      wlStaged.staged = true ∧ stagedOne.wl.log.length + 2 < logSlots) := by
  decide +kernel

theorem witness_OdWrites :
    (Served (onSmbus ready) (Path.smbus 8) ∧ NoSession (onSmbus ready) (Path.smbus 8) ∧
      (onSmbus ready).od.workingCopy = false ∧ (onSmbus ready).upd.trial ≠ 1 ∧ (onSmbus ready).od.used + 16 < 196608 ∧
      Calm (onSmbus ready) ∧ (privilege (Path.smbus 8) = 1 ∨ privilege (Path.smbus 8) = 2) ∧ 100 ≤ 100) ∧
    (Served (onSmbus ready) (Path.smbus 8) ∧ NoSession (onSmbus ready) (Path.smbus 8) ∧
      (onSmbus ready).od.workingCopy = false ∧ (onSmbus ready).upd.trial ≠ 1 ∧ (onSmbus ready).od.used + 16 < 196608 ∧
      Calm (onSmbus ready) ∧ (privilege (Path.smbus 8) = 1 ∨ privilege (Path.smbus 8) = 2) ∧ 100 < 101) ∧
    (Served (onSmbus ready) (Path.smbus 8) ∧ NoSession (onSmbus ready) (Path.smbus 8) ∧
      (onSmbus ready).od.workingCopy = false ∧ (onSmbus ready).upd.trial ≠ 1 ∧ (onSmbus ready).od.used + 16 < 196608 ∧
      Calm (onSmbus ready) ∧ (privilege (Path.smbus 8) = 1 ∨ privilege (Path.smbus 8) = 2)) ∧
    (Served ready (Path.mailbox 0) ∧ NoSession ready (Path.mailbox 0) ∧ ready.od.workingCopy = false ∧
      ready.upd.trial ≠ 1 ∧ ready.od.used + 16 < 196608 ∧ Calm ready ∧ privilege (Path.mailbox 0) = 0) := by
  unfold NoSession Calm; decide +kernel

theorem witness_OdWrites_2 :
    (Served ready (Path.mailbox 0) ∧ NoSession ready (Path.mailbox 0) ∧ ready.od.workingCopy = false ∧
      ready.upd.trial ≠ 1 ∧ ready.od.used + 16 < 196608 ∧ Calm ready ∧ privilege (Path.mailbox 0) = 0 ∧
      (ready.rst.begun = false ∨ ready.rst.committed = true) ∧ 1 ≤ 1) ∧
    (Served ready (Path.mailbox 0) ∧ NoSession ready (Path.mailbox 0) ∧ ready.od.workingCopy = false ∧
      ready.upd.trial ≠ 1 ∧ ready.od.used + 16 < 196608 ∧ Calm ready ∧ privilege (Path.mailbox 0) = 0 ∧ 1 < 2) ∧
    (Served (onSmbus ready) (Path.smbus 8) ∧ NoSession (onSmbus ready) (Path.smbus 8) ∧
      (onSmbus ready).od.workingCopy = false ∧ (onSmbus ready).upd.trial ≠ 1 ∧ (onSmbus ready).od.used + 16 < 196608 ∧
      Calm (onSmbus ready) ∧ privilege (Path.smbus 8) ≠ 0) ∧
    (Served ready (Path.mailbox 0) ∧ NoSession ready (Path.mailbox 0) ∧ ready.od.workingCopy = false ∧
      ready.upd.trial ≠ 1 ∧ ready.od.used + 16 < 196608 ∧ Calm ready) := by
  unfold NoSession Calm; decide +kernel

theorem witness_OdWrites_3 :
    reaches State.reset (Path.mailbox 0) = false := by
  decide +kernel

theorem witness_OdSessions :
    (sessionOf sessions (sessionKey (Path.mailbox 0)) = some (sessionAt 0) ∧
      (sessionAt 0).last + 10000000000 ≤ sessions.tb.now) ∧
    (sessionOf sessionsNow (sessionKey (Path.mailbox 0)) = some (sessionAt 2000080) ∧
      sessionsNow.tb.now < (sessionAt 2000080).last + 10000000000) ∧
    (Served ready (Path.mailbox 0) ∧ NoSession ready (Path.mailbox 0)) ∧
    (odCompacting.od.compacting = true ∧ anyMember odCompacting = true ∧ frozen odCompacting = false) ∧
    ((ready.od.compacting = false ∨ anyMember ready = false ∨ frozen ready = true)) ∧
    (sessionOf ready (sessionKey (Path.mailbox 0)) = none) ∧
    (reaches State.reset (Path.mailbox 0) = false) ∧
    (Served ready (Path.mailbox 0) ∧ NoSession ready (Path.mailbox 0) ∧ 1022 ≠ 0 ∧ 1022 ≤ 1022) := by
  unfold NoSession; decide +kernel

theorem witness_OdSessions_2 :
    Served ready (Path.mailbox 0) ∧ NoSession ready (Path.mailbox 0) ∧ (1023 = 0 ∨ 1022 < 1023) := by
  unfold NoSession; decide +kernel

theorem witness_OdRequests :
    (Served ready (Path.mailbox 0) ∧ SaveReady ready ∧ restoring ready = false) ∧
    (Served (onSmbus (savingIn SavePhase.map Trigger.vin)) (Path.smbus 8) ∧
      (saving (onSmbus (savingIn SavePhase.map Trigger.vin)) = true ∨ restoring (onSmbus (savingIn SavePhase.map Trigger.vin)) = true) ∧
      Calm (onSmbus (savingIn SavePhase.map Trigger.vin))) ∧
    (Served ready (Path.mailbox 0) ∧ 0 ≠ 1 ∧ Calm ready) ∧
    (Served (onSmbus ready) (Path.smbus 8) ∧ (privilege (Path.smbus 8) = 1 ∨ privilege (Path.smbus 8) = 2) ∧
      Calm (onSmbus ready) ∧ isMember (onSmbus ready) Crew.bow = true ∧ crewBusy (onSmbus ready) = false ∧
      (onSmbus ready).crew.lagBuf = [] ∧ (onSmbus ready).crew.rival = false ∧ seatAsked (onSmbus ready) = false) := by
  unfold SaveReady Calm; decide +kernel

theorem witness_OdRequests_2 :
    (Served (onSmbus strokeAlone) (Path.smbus 8) ∧ (privilege (Path.smbus 8) = 1 ∨ privilege (Path.smbus 8) = 2) ∧
      Calm (onSmbus strokeAlone) ∧
      (isMember (onSmbus strokeAlone) Crew.bow = false ∨ crewBusy (onSmbus strokeAlone) = true) ∧
      (onSmbus strokeAlone).crew.rival = false) ∧
    (Served (onSmbus ready) (Path.smbus 8) ∧ (privilege (Path.smbus 8) = 1 ∨ privilege (Path.smbus 8) = 2) ∧
      Calm (onSmbus ready) ∧ 1 < 2) ∧
    (Served (owned 0) ownerPath ∧ privilege ownerPath = 2 ∧ Calm (owned 0) ∧ 2 ≠ 1) ∧
    (reaches State.reset (Path.mailbox 0) = false) := by
  unfold Calm; decide +kernel

theorem witness_OdRequests_3 :
    (Served seatAsking (Path.smbus 8) ∧ (privilege (Path.smbus 8) = 1 ∨ privilege (Path.smbus 8) = 2) ∧
      Calm seatAsking ∧ isMember seatAsking Crew.bow = true ∧ isMember seatAsking Crew.stroke = true ∧
      crewBusy seatAsking = false ∧ seatAsking.crew.lagBuf = [] ∧ seatAsking.crew.rival = false ∧
      seatAsking.pending = [Instr.seatRequest (Path.mailbox 0) (match Crew.bow with | Crew.bow => 1 | Crew.stroke => 0)]) ∧
    (Served rivalled (Path.smbus 8) ∧ (privilege (Path.smbus 8) = 1 ∨ privilege (Path.smbus 8) = 2) ∧ Calm rivalled ∧
      rivalled.crew.rival = true) ∧
    (Served (onSmbus ready) (Path.smbus 8) ∧ (privilege (Path.smbus 8) = 1 ∨ privilege (Path.smbus 8) = 2) ∧
      Calm (onSmbus ready) ∧ 1 < 2 ∧ (onSmbus ready).crew.rival = false) ∧
    (Served (onSmbus ready) (Path.smbus 8) ∧ (privilege (Path.smbus 8) = 1 ∨ privilege (Path.smbus 8) = 2) ∧
      Calm (onSmbus ready) ∧ isMember (onSmbus ready) Crew.stroke = true ∧
      isMember (onSmbus ready) Crew.stroke.other = true ∧ crewBusy (onSmbus ready) = false) := by
  unfold Calm; decide +kernel

theorem witness_OdRequests_4 :
    (Served (onSmbus strokeAlone) (Path.smbus 8) ∧ (privilege (Path.smbus 8) = 1 ∨ privilege (Path.smbus 8) = 2) ∧
      Calm (onSmbus strokeAlone) ∧
      (isMember (onSmbus strokeAlone) Crew.stroke.other = false ∨ crewBusy (onSmbus strokeAlone) = true)) ∧
    (Served (owned 1) ownerPath ∧ privilege ownerPath = 2 ∧ Calm (owned 1) ∧ (owned 1).upd.trial = 1 ∧
      (owned 1).upd.stage = UpdStage.idle ∧ slotOf (owned 1) (owned 1).upd.active = some imageA7) ∧
    (Served (owned 0) ownerPath ∧ privilege ownerPath = 2 ∧ Calm (owned 0) ∧ (owned 0).upd.trial ≠ 1) ∧
    (Served ready (Path.mailbox 0) ∧ Calm ready ∧ privilege (Path.mailbox 0) = 0) := by
  unfold Calm; decide +kernel

theorem witness_OdRequests_5 :
    (Served ready (Path.mailbox 0) ∧ Calm ready ∧ privilege (Path.mailbox 0) ≠ 2) ∧
    (turnedAway latchedAux (Path.smbus 8) = false ∧ Calm latchedAux ∧
      (8256, Instr.saveRequest (Path.smbus 8) 1) ∈ [(8256, Instr.saveRequest (Path.smbus 8) 1), (36869, Instr.seatRequest (Path.smbus 8) 1), (36870, Instr.crewResetRequest (Path.smbus 8) 1), (28677, Instr.trialCommit (Path.smbus 8) 1)] ∧
      gate (8256, Instr.saveRequest (Path.smbus 8) 1).1 (Path.smbus 8) latchedAux = some stState) ∧
    (turnedAway boat (Path.smbus 8) = false ∧ Calm boat ∧
      (36869, Instr.seatRequest (Path.smbus 8) 1) ∈ [(8256, Instr.saveRequest (Path.smbus 8) 1), (36869, Instr.seatRequest (Path.smbus 8) 1), (36870, Instr.crewResetRequest (Path.smbus 8) 1), (28677, Instr.trialCommit (Path.smbus 8) 1)] ∧
      gate (36869, Instr.seatRequest (Path.smbus 8) 1).1 (Path.smbus 8) boat = none ∧ romServes boat = true) := by
  unfold Calm; decide +kernel

theorem witness_OdSegments :
    (Served (onSmbus ready) (Path.smbus 8) ∧ privilege (Path.smbus 8) = 1 ∧ (onSmbus ready).od.workingCopy = false ∧
      (onSmbus ready).upd.trial ≠ 1 ∧ (onSmbus ready).od.used + 2048 < 196608 ∧ Calm (onSmbus ready) ∧
      NoSession (onSmbus ready) (Path.smbus 8) ∧ [1, 0] ≠ [] ∧ [1, 0].length ≤ 1024 ∧ (onSmbus ready).od.sessions = []) ∧
    (Served (onSmbus ready) (Path.smbus 8) ∧ privilege (Path.smbus 8) = 1 ∧ (onSmbus ready).od.workingCopy = false ∧
      (onSmbus ready).upd.trial ≠ 1 ∧ (onSmbus ready).od.used + 2048 < 196608 ∧ Calm (onSmbus ready) ∧
      NoSession (onSmbus ready) (Path.smbus 8) ∧ [1, 0, 0, 0] ≠ [] ∧ [1, 0, 0, 0].length ≤ 1024 ∧
      chargerOk [1, 0, 0, 0] = true) := by
  unfold Calm NoSession; decide +kernel

theorem witness_OdSegments_2 :
    (Served (onSmbus ready) (Path.smbus 8) ∧ privilege (Path.smbus 8) = 1 ∧ (onSmbus ready).od.workingCopy = false ∧
      (onSmbus ready).upd.trial ≠ 1 ∧ (onSmbus ready).od.used + 2048 < 196608 ∧ Calm (onSmbus ready) ∧
      NoSession (onSmbus ready) (Path.smbus 8) ∧ [1, 0] ≠ [] ∧ [1, 0].length ≤ 1024 ∧ chargerOk [1, 0] = false) ∧
    (Served (onSmbus ready) (Path.smbus 8) ∧ privilege (Path.smbus 8) = 1 ∧ (onSmbus ready).od.workingCopy = false ∧
      (onSmbus ready).upd.trial ≠ 1 ∧ (onSmbus ready).od.used + 2048 < 196608 ∧ Calm (onSmbus ready) ∧
      NoSession (onSmbus ready) (Path.smbus 8) ∧ [1, 0] ≠ [] ∧ [1, 0].length ≤ 1024 ∧ 2 ≠ 0) := by
  unfold Calm NoSession; decide +kernel

theorem witness_OdSegments_3 :
    (Served (onSmbus ready) (Path.smbus 8) ∧ privilege (Path.smbus 8) = 1 ∧ (onSmbus ready).od.workingCopy = false ∧
      (onSmbus ready).upd.trial ≠ 1 ∧ (onSmbus ready).od.used + 2048 < 196608 ∧ Calm (onSmbus ready) ∧
      NoSession (onSmbus ready) (Path.smbus 8)) ∧
    (Served (onSmbus ready) (Path.smbus 8) ∧ privilege (Path.smbus 8) = 1 ∧ (onSmbus ready).od.workingCopy = false ∧
      (onSmbus ready).upd.trial ≠ 1 ∧ (onSmbus ready).od.used + 2048 < 196608 ∧ Calm (onSmbus ready) ∧
      NoSession (onSmbus ready) (Path.smbus 8) ∧ 1024 < (List.replicate 1025 0).length) := by
  unfold Calm NoSession; decide +kernel

theorem witness_OdSegments_4 :
    (Served halfList (Path.smbus 8) ∧ privilege (Path.smbus 8) = 1 ∧ halfList.od.workingCopy = false ∧
      halfList.upd.trial ≠ 1 ∧ halfList.od.used + 2048 < 196608 ∧ Calm halfList ∧ halfList.od.sessions = [segment1] ∧
      segment1.key = sessionKey (Path.smbus 8) ∧ halfList.tb.now < segment1.last + 10000000000 ∧
      halfList.od.ended = [] ∧ segment1.view = none ∧
      segment1.seg = some { index := 24582, sub := 0, bytes := [1, 0] } ∧ [0, 0] ≠ [] ∧
      [1, 0].length + [0, 0].length ≤ 1024 ∧ chargerOk ([1, 0] ++ [0, 0]) = true) ∧
    (Served halfList (Path.smbus 8) ∧ privilege (Path.smbus 8) = 1 ∧ halfList.od.workingCopy = false ∧
      halfList.upd.trial ≠ 1 ∧ halfList.od.used + 2048 < 196608 ∧ Calm halfList ∧ halfList.od.sessions = [segment1] ∧
      segment1.key = sessionKey (Path.smbus 8) ∧ halfList.tb.now < segment1.last + 10000000000 ∧
      halfList.od.ended = [] ∧ segment1.view = none ∧
      segment1.seg = some { index := 24582, sub := 0, bytes := [1, 0] } ∧ [0] ≠ [] ∧ [1, 0].length + [0].length ≤ 1024) := by
  unfold Calm; decide +kernel

theorem witness_OdSegments_5 :
    Served halfList (Path.smbus 8) ∧ privilege (Path.smbus 8) = 1 ∧ halfList.od.workingCopy = false ∧
    halfList.upd.trial ≠ 1 ∧ halfList.od.used + 2048 < 196608 ∧ Calm halfList ∧ halfList.od.sessions = [segment1] ∧
    segment1.key = sessionKey (Path.smbus 8) ∧ halfList.tb.now < segment1.last + 10000000000 ∧
    halfList.od.ended = [] ∧ segment1.view = none ∧
    segment1.seg = some { index := 24582, sub := 0, bytes := [1, 0] } ∧ [0] ≠ [] ∧ 3 ≠ [1, 0].length ∧
    3 + [0].length ≤ 1024 := by
  unfold Calm; decide +kernel

theorem witness_OdWritesEveryEntry :
    (NoSession (onSmbus ready) (Path.smbus 8) ∧ Calm (onSmbus ready) ∧
      EntryServed (onSmbus ready) (Path.smbus 8) 8193 ∧ 8193 < 61440 ∧
      odField (onSmbus ready) (8193) (0) = some { typ := OdType.u64, acc := OdAccess.ro, wr := 0 } ∧
      (⟨.u64, .ro, 0⟩ : OdField).acc ≠ OdAccess.rws ∧ (⟨.u64, .ro, 0⟩ : OdField).acc ≠ OdAccess.wo) ∧
    (NoSession ready (Path.mailbox 0) ∧ Calm ready ∧ EntryServed ready (Path.mailbox 0) 20481 ∧ 20481 < 61440 ∧
      odField ready (20481) (0) = some graceField ∧
      (graceField.wr.testBit (privilege (Path.mailbox 0)) = false ∨ isElement (20481) (0) = true)) ∧
    (NoSession (onSmbus ready) (Path.smbus 8) ∧ Calm (onSmbus ready) ∧
      EntryServed (onSmbus ready) (Path.smbus 8) 20481 ∧ 20481 < 61440 ∧
      odField (onSmbus ready) (20481) (0) = some graceField ∧
      (graceField.acc = OdAccess.rws ∨ graceField.acc = OdAccess.wo) ∧
      graceField.wr.testBit (privilege (Path.smbus 8)) = true ∧ isElement (20481) (0) = false ∧
      graceField.typ ≠ OdType.domain ∧ ([] : List Byte) = []) ∧
    (NoSession (onSmbus ready) (Path.smbus 8) ∧ Calm (onSmbus ready) ∧
      EntryServed (onSmbus ready) (Path.smbus 8) 20481 ∧ 20481 < 61440 ∧
      odField (onSmbus ready) (20481) (0) = some graceField ∧
      (graceField.acc = OdAccess.rws ∨ graceField.acc = OdAccess.wo) ∧
      graceField.wr.testBit (privilege (Path.smbus 8)) = true ∧ isElement (20481) (0) = false ∧
      graceField.typ ≠ OdType.domain ∧ graceField.typ ≠ OdType.arr ∧ [1] ≠ [] ∧
      (1 ≠ 0 ∨ [1].length ≠ odSize graceField.typ)) ∧
    (NoSession (onSmbus ready) (Path.smbus 8) ∧ Calm (onSmbus ready) ∧
      EntryServed (onSmbus ready) (Path.smbus 8) 20481 ∧ 20481 < 61440 ∧
      odField (onSmbus ready) (20481) (0) = some graceField ∧
      (graceField.acc = OdAccess.rws ∨ graceField.acc = OdAccess.wo) ∧
      graceField.wr.testBit (privilege (Path.smbus 8)) = true ∧ isElement (20481) (0) = false ∧
      graceField.acc = OdAccess.rws ∧ graceField.typ ≠ OdType.domain ∧ graceField.typ ≠ OdType.arr ∧ [101] ≠ [] ∧
      [101].length = odSize graceField.typ ∧ inBoard (20481) = false ∧
      settingOk (onSmbus ready) (20481, 0) (leNat [101]) = false) ∧
    (NoSession copyInWork (Path.smbus 8) ∧ Calm copyInWork ∧ EntryServed copyInWork (Path.smbus 8) 20481 ∧
      20481 < 61440 ∧ odField copyInWork (20481) (0) = some graceField ∧
      (graceField.acc = OdAccess.rws ∨ graceField.acc = OdAccess.wo) ∧
      graceField.wr.testBit (privilege (Path.smbus 8)) = true ∧ isElement (20481) (0) = false ∧
      graceField.acc = OdAccess.rws ∧ graceField.typ ≠ OdType.domain ∧ graceField.typ ≠ OdType.arr ∧ [100] ≠ [] ∧
      [100].length = odSize graceField.typ ∧ inBoard (20481) = false ∧
      settingOk copyInWork (20481, 0) (leNat [100]) = true ∧
      (copyInWork.od.workingCopy = true ∨ 262144 < copyInWork.od.used + settingRecord [100].length)) ∧
    (NoSession (copyUsed (262144 - 15)) (Path.smbus 8) ∧ Calm (copyUsed (262144 - 15)) ∧
      EntryServed (copyUsed (262144 - 15)) (Path.smbus 8) 20481 ∧ 20481 < 61440 ∧
      odField (copyUsed (262144 - 15)) (20481) (0) = some graceField ∧
      (graceField.acc = OdAccess.rws ∨ graceField.acc = OdAccess.wo) ∧
      graceField.wr.testBit (privilege (Path.smbus 8)) = true ∧ isElement (20481) (0) = false ∧
      graceField.acc = OdAccess.rws ∧ graceField.typ ≠ OdType.domain ∧ graceField.typ ≠ OdType.arr ∧ [100] ≠ [] ∧
      [100].length = odSize graceField.typ ∧ inBoard (20481) = false ∧
      settingOk (copyUsed (262144 - 15)) (20481, 0) (leNat [100]) = true ∧
      ((copyUsed (262144 - 15)).od.workingCopy = true ∨ 262144 < (copyUsed (262144 - 15)).od.used + settingRecord [100].length)) ∧
    (NoSession (copyUsed (196608 - 16)) (Path.smbus 8) ∧ Calm (copyUsed (196608 - 16)) ∧
      EntryServed (copyUsed (196608 - 16)) (Path.smbus 8) 20481 ∧ 20481 < 61440 ∧
      odField (copyUsed (196608 - 16)) (20481) (0) = some graceField ∧
      (graceField.acc = OdAccess.rws ∨ graceField.acc = OdAccess.wo) ∧
      graceField.wr.testBit (privilege (Path.smbus 8)) = true ∧ isElement (20481) (0) = false ∧
      graceField.acc = OdAccess.rws ∧ graceField.typ ≠ OdType.domain ∧ graceField.typ ≠ OdType.arr ∧ [100] ≠ [] ∧
      [100].length = odSize graceField.typ ∧ inBoard (20481) = false ∧
      settingOk (copyUsed (196608 - 16)) (20481, 0) (leNat [100]) = true ∧
      (copyUsed (196608 - 16)).od.workingCopy = false ∧
      (copyUsed (196608 - 16)).od.used + settingRecord [100].length ≤ 262144) := by
  unfold NoSession Calm; (repeat' apply And.intro) <;> decide +kernel

theorem witness_OdWritesEveryEntry_2 :
    (NoSession (onSmbus ready) (Path.smbus 8) ∧ Calm (onSmbus ready) ∧
      EntryServed (onSmbus ready) (Path.smbus 8) 12546 ∧ 12546 < 61440 ∧
      odField (onSmbus ready) (12546) (1) = some { typ := OdType.u8, acc := OdAccess.rws, wr := 2 } ∧
      ((⟨.u8, .rws, 2⟩ : OdField).acc = OdAccess.rws ∨ (⟨.u8, .rws, 2⟩ : OdField).acc = OdAccess.wo) ∧
      (⟨.u8, .rws, 2⟩ : OdField).wr.testBit (privilege (Path.smbus 8)) = true ∧ isElement (12546) (1) = false ∧
      (⟨.u8, .rws, 2⟩ : OdField).acc = OdAccess.rws ∧ (⟨.u8, .rws, 2⟩ : OdField).typ ≠ OdType.arr ∧ [9] ≠ [] ∧
      [9].length = odSize (⟨.u8, .rws, 2⟩ : OdField).typ ∧ 12544 ≤ 12546 ∧ 12546 < 12560 ∧
      railWrite (12546 - 12544) (1) (leNat [9]) (onSmbus ready).od.railCfg = none) ∧
    (NoSession (onSmbus ready) (Path.smbus 8) ∧ Calm (onSmbus ready) ∧
      EntryServed (onSmbus ready) (Path.smbus 8) 12546 ∧ 12546 < 61440 ∧
      odField (onSmbus ready) (12546) (1) = some { typ := OdType.u8, acc := OdAccess.rws, wr := 2 } ∧
      ((⟨.u8, .rws, 2⟩ : OdField).acc = OdAccess.rws ∨ (⟨.u8, .rws, 2⟩ : OdField).acc = OdAccess.wo) ∧
      (⟨.u8, .rws, 2⟩ : OdField).wr.testBit (privilege (Path.smbus 8)) = true ∧ isElement (12546) (1) = false ∧
      (⟨.u8, .rws, 2⟩ : OdField).acc = OdAccess.rws ∧ (⟨.u8, .rws, 2⟩ : OdField).typ ≠ OdType.arr ∧ [1] ≠ [] ∧
      [1].length = odSize (⟨.u8, .rws, 2⟩ : OdField).typ ∧ 12544 ≤ 12546 ∧ 12546 < 12560 ∧
      railWrite (12546 - 12544) (1) (leNat [1]) (onSmbus ready).od.railCfg = some (railWrite 2 1 1 (onSmbus ready).od.railCfg).get! ∧
      (onSmbus ready).od.workingCopy = false) ∧
    (NoSession (onSmbus ready) (Path.smbus 8) ∧ Calm (onSmbus ready) ∧
      EntryServed (onSmbus ready) (Path.smbus 8) 20752 ∧ 20752 < 61440 ∧
      odField (onSmbus ready) (20752) (0) = some { typ := OdType.arr, acc := OdAccess.rws, wr := 6 } ∧
      ((⟨.arr, .rws, 6⟩ : OdField).acc = OdAccess.rws ∨ (⟨.arr, .rws, 6⟩ : OdField).acc = OdAccess.wo) ∧
      (⟨.arr, .rws, 6⟩ : OdField).wr.testBit (privilege (Path.smbus 8)) = true ∧ isElement (20752) (0) = false ∧
      (⟨.arr, .rws, 6⟩ : OdField).acc = OdAccess.rws ∧ (⟨.arr, .rws, 6⟩ : OdField).typ = OdType.arr ∧ 20752 ≤ 20752 ∧
      20752 < 20992 ∧ [1] ≠ [] ∧ (arrayOf [1] = none ∨ 0 ≠ 0)) ∧
    (NoSession (onSmbus ready) (Path.smbus 8) ∧ Calm (onSmbus ready) ∧
      EntryServed (onSmbus ready) (Path.smbus 8) 20752 ∧ 20752 < 61440 ∧
      odField (onSmbus ready) (20752) (0) = some { typ := OdType.arr, acc := OdAccess.rws, wr := 6 } ∧
      ((⟨.arr, .rws, 6⟩ : OdField).acc = OdAccess.rws ∨ (⟨.arr, .rws, 6⟩ : OdField).acc = OdAccess.wo) ∧
      (⟨.arr, .rws, 6⟩ : OdField).wr.testBit (privilege (Path.smbus 8)) = true ∧ isElement (20752) (0) = false ∧
      (⟨.arr, .rws, 6⟩ : OdField).acc = OdAccess.rws ∧ (⟨.arr, .rws, 6⟩ : OdField).typ = OdType.arr ∧ 20752 ≤ 20752 ∧
      20752 < 20992 ∧ [1, 0, 0, 0, 0] ≠ [] ∧ arrayOf [1, 0, 0, 0, 0] = some [0] ∧
      (16 < [0].length ∨ [0].all readable = false)) ∧
    (NoSession (onSmbus ready) (Path.smbus 8) ∧ Calm (onSmbus ready) ∧
      EntryServed (onSmbus ready) (Path.smbus 8) 20752 ∧ 20752 < 61440 ∧
      odField (onSmbus ready) (20752) (0) = some { typ := OdType.arr, acc := OdAccess.rws, wr := 6 } ∧
      ((⟨.arr, .rws, 6⟩ : OdField).acc = OdAccess.rws ∨ (⟨.arr, .rws, 6⟩ : OdField).acc = OdAccess.wo) ∧
      (⟨.arr, .rws, 6⟩ : OdField).wr.testBit (privilege (Path.smbus 8)) = true ∧ isElement (20752) (0) = false ∧
      (⟨.arr, .rws, 6⟩ : OdField).acc = OdAccess.rws ∧ (⟨.arr, .rws, 6⟩ : OdField).typ = OdType.arr ∧ 20752 ≤ 20752 ∧
      20752 < 20992 ∧ [1, 32, 0, 32, 240] ≠ [] ∧ arrayOf [1, 32, 0, 32, 240] = some [4028629024] ∧
      [4028629024].length ≤ 16 ∧ [4028629024].all readable = true ∧ (onSmbus ready).od.workingCopy = false ∧
      (onSmbus ready).od.used + settingRecord [1, 32, 0, 32, 240].length ≤ 262144) ∧
    (NoSession (onSmbus ready) (Path.smbus 8) ∧ Calm (onSmbus ready) ∧
      EntryServed (onSmbus ready) (Path.smbus 8) 4095 ∧ 4095 < 61440 ∧ odField (onSmbus ready) (4095) (0) = none) ∧
    (NoSession (onSmbus ready) (Path.smbus 8) ∧ Calm (onSmbus ready) ∧ Served (onSmbus ready) (Path.smbus 8) ∧
      61440 ≤ 61440) ∧
    (NoSession (onSmbus ready) (Path.smbus 8) ∧ Calm (onSmbus ready) ∧ Served (onSmbus ready) (Path.smbus 8)) := by
  unfold NoSession Calm; (repeat' apply And.intro) <;> decide +kernel

theorem witness_MailboxPoison :
    (MailboxServed ready 0 ∧
      [] = List.filter (fun r => decide ((headSpan ready 0).1 + 0 ≤ 64 * r.1)) ready.cxl.poisonList ∧
      (∀ r ∈ ready.cxl.poisonList, 0 < r.2 ∧
      (64 * (r.1 + r.2) ≤ (headSpan ready 0).1 + 0 ∨ (headSpan ready 0).1 + 0 ≤ 64 * r.1 ∧
      64 * (r.1 + r.2) ≤ (headSpan ready 0).1 + min (0 + 64) (headSpan ready 0).2)) ∧ ready.cxl.poisonOverflow = none) ∧
    (MailboxServed listed 0 ∧
      [(4, 2)] = List.filter (fun r => decide ((headSpan listed 0).1 + 0 ≤ 64 * r.1)) listed.cxl.poisonList ∧
      (∀ r ∈ listed.cxl.poisonList, 0 < r.2 ∧
      (64 * (r.1 + r.2) ≤ (headSpan listed 0).1 + 0 ∨ (headSpan listed 0).1 + 0 ≤ 64 * r.1 ∧
      64 * (r.1 + r.2) ≤ (headSpan listed 0).1 + min (0 + 384) (headSpan listed 0).2)) ∧
      listed.cxl.poisonOverflow = none) ∧
    (MailboxServed listedOver 0 ∧
      [] = List.filter (fun r => decide ((headSpan listedOver 0).1 + 384 ≤ 64 * r.1)) listedOver.cxl.poisonList ∧
      (∀ r ∈ listedOver.cxl.poisonList, 0 < r.2 ∧
      (64 * (r.1 + r.2) ≤ (headSpan listedOver 0).1 + 384 ∨ (headSpan listedOver 0).1 + 384 ≤ 64 * r.1 ∧
      64 * (r.1 + r.2) ≤ (headSpan listedOver 0).1 + min (384 + 64) (headSpan listedOver 0).2))) ∧
    (MailboxServed ready 0 ∧ notServed ready = false ∧ fenced ready = false ∧ lineOfDpa ready 0 64 = some 1 ∧
      poisonWf ready = true ∧ (∀ e ∈ ready.wb.entries, e.line ≠ 1)) := by
  unfold MailboxServed Calm; decide +kernel

theorem witness_MailboxPoison_2 :
    (MailboxServed written 0 ∧ notServed written = false ∧ fenced written = false ∧ lineOfDpa written 0 64 = some 1 ∧
      poisonWf written = true ∧ withdrawn written (pageOf 1) = false ∧ unrestored written (pageOf 1) = false ∧
      inBlockReset written (pageOf 1) = false ∧ inWindow written = false ∧
      pageState written (pageOf 1) = PState.dirty ∧ written.wb.entries.length < bufferEntries ∧
      (∀ x ∈ written.wb.entries, pageOf x.line = pageOf 1 → x.phase = WPhase.admitted ∨ x.phase = WPhase.inReset) ∧
      inBlockReset written (mapAddr written.cfg (pageOf 1) / pageBytes) = false) ∧
    (MailboxServed opened 0 ∧ notServed opened = false ∧ fenced opened = false ∧ lineOfDpa opened 0 64 = some 1 ∧
      poisonWf opened = true ∧ withdrawn opened (pageOf 1) = false ∧ unrestored opened (pageOf 1) = false ∧
      inBlockReset opened (pageOf 1) = false ∧ inWindow opened = false ∧
      (pageState opened (pageOf 1) = PState.clean ∨ pageState opened (pageOf 1) = PState.lost) ∧
      opened.wb.entries.length < bufferEntries ∧
      (∀ x ∈ opened.wb.entries, pageOf x.line = pageOf 1 → x.phase = WPhase.admitted ∨ x.phase = WPhase.inReset) ∧
      inBlockReset opened (mapAddr opened.cfg (pageOf 1) / pageBytes) = false ∧
      newestBucket opened = some (bucketOf 0) ∧ (bucketOf 0).isOpen = true ∧ roomFor opened = true ∧
      holdActive opened = false ∧ opened.log.spill = [] ∧ opened.log.tail.length < tailEntries) ∧
    (MailboxServed ready 0 ∧ lineOfDpa ready 0 (2 ^ 50) = none) ∧
    (MailboxServed fullBuffer 0 ∧ bufferEntries ≤ fullBuffer.wb.entries.length) := by
  unfold MailboxServed Calm; decide +kernel

theorem witness_MailboxPoison_3 :
    MailboxServed notReady 0 ∧ (notServed notReady = true ∨ fenced notReady = true) := by
  unfold MailboxServed Calm; decide +kernel

theorem witness_MailboxInformation :
    (MailboxServed ready 0 ∧ inSpan ready 0 0 64 = true ∧ (headOf ready 0).bg = Background.none) ∧
    (MailboxServed scanning 0 ∧ inSpan scanning 0 0 64 = true ∧ (headOf scanning 0).bg ≠ Background.none) ∧
    (MailboxServed ready 0 ∧ inSpan ready 0 0 64 = true) ∧
    (MailboxServed ready 0 ∧ inSpan ready 0 (2 ^ 50) 64 = false ∧ (headOf ready 0).bg = Background.none) ∧
    (MailboxServed ready 0 ∧ inSpan ready 0 (2 ^ 50) 64 = false) ∧
    (MailboxServed ready 0) ∧
    (MailboxServed ready 0 ∧
      0 = BitVec.ofNat 8 (((if ready.cxl.alerts.lifeUsed.isSome = true then 1 else 0) + if ready.cxl.alerts.temperature.isSome = true then 2 else 0) + if ready.cxl.alerts.corrected.isSome = true then 4 else 0)) ∧
    (MailboxServed alerting 0 ∧
      7 = BitVec.ofNat 8 (((if alerting.cxl.alerts.lifeUsed.isSome = true then 1 else 0) + if alerting.cxl.alerts.temperature.isSome = true then 2 else 0) + if alerting.cxl.alerts.corrected.isSome = true then 4 else 0)) := by
  unfold MailboxServed Calm; decide +kernel

theorem witness_MailboxInformation_2 :
    ((headOf scanning 0).bg = Background.scan 0 64 ∧ frozen scanning = false ∧ Calm scanning) ∧
    ((headOf scanning 0).bg = Background.scan 0 64 ∧ frozen scanning = false ∧ Calm scanning ∧
      scanned scanning 0 0 = true ∧ channelOfPage scanning (pageOf 0) = 0 ∧ HasChannel scanning 0 ∧
      (capture scanning (cellOf scanning 0)).sticky = false ∧ scanning.od.set.graceMs ≠ 0 ∧
      linePoison scanning 0 = false ∧ repairable scanning 0 = false) ∧
    (reaches boat (Path.mailbox 0) = true ∧ boat.host.fence = false ∧ boathouse boat = true) ∧
    (reaches fencedState (Path.mailbox 0) = true ∧ fencedState.host.fence = true) := by
  unfold Calm HasChannel; decide +kernel

theorem witness_MailboxAnswers :
    (Instr.getFwInfo 0 ∈ mailboxRows 0 0 64 7 0 true alertCfg ∧ reaches State.reset (Path.mailbox 0) = false) ∧
    (Instr.sanitize 0 ∈ mailboxRows 0 0 64 7 0 true alertCfg ∧ reaches fencedState (Path.mailbox 0) = true ∧
      fencedState.host.fence = true) ∧
    (Instr.clearPoison 0 0 7 0 ∈ mailboxRows 0 0 64 7 0 true alertCfg ∧ reaches boat (Path.mailbox 0) = true ∧
      boat.host.fence = false ∧ boathouse boat = true) ∧
    (headRegs ready 0 = true ∧ MailboxServed ready 0 ∧
      MailboxCmd.passphrase ∈ [MailboxCmd.transferFw, MailboxCmd.activateFw, MailboxCmd.setPartitionInfo, MailboxCmd.passphrase]) ∧
    (headRegs ready 0 = true ∧ MailboxServed ready 0 ∧ 5 + [1, 0, 2].length ≤ labelBytes ∧
      tabWf 0 ready.cxl.labels = true) ∧
    (headRegs ready 0 = true ∧ MailboxServed ready 0 ∧ 5 + 3 ≤ labelBytes) ∧
    (headRegs ready 0 = true ∧ MailboxServed ready 0 ∧ labelBytes < 262144 + 1) ∧
    (headRegs ready 0 = true ∧ MailboxServed ready 0) := by
  unfold MailboxServed Calm; decide +kernel

theorem witness_MailboxAnswers_2 :
    ((Machine.scanning ready 0 = false ∨ frozen ready = true)) ∧
    ((ready.flash.newKey = none ∨ ready.rst.sanitizing = none ∨ anyMember ready = false ∨ frozen ready = true ∨ ready.host.fence = true)) ∧
    (Instr.odRead (Path.mailbox 0) 8193 0 0 ∈ vendorRows (Path.mailbox 0) 8193 0 0 [] true 1 0 ∧
      reaches State.reset (Path.mailbox 0) = false) ∧
    (Instr.odRead (Path.mailbox 0) 8193 0 0 ∈ vendorRows (Path.mailbox 0) 8193 0 0 [] true 1 0 ∧
      reaches fencedState (Path.mailbox 0) = true ∧ fencedState.host.fence = true) := by
  decide +kernel

theorem witness_CryptoErase :
    (MailboxServed (window RestPhase.fill) 0 ∧ eraseBusy (window RestPhase.fill) = true) ∧
    (MailboxServed ready 0 ∧ eraseBusy ready = false) ∧
    (erasing.rst.sanitizing = some true ∧ erasing.rst.sanitizeHead = some 0 ∧ erasing.flash.newKey = some 1 ∧
      anyMember erasing = true ∧ frozen erasing = false ∧ erasing.host.fence = false ∧ erasing.ledger.failed = false ∧
      (erasing.wb.entries.all fun e => decide (e.phase = WPhase.admitted)) = true ∧ Calm erasing) := by
  unfold MailboxServed Calm; decide +kernel

theorem witness_SpdmRequests :
    (reaches noMember (Path.mailbox 0) = true ∧ spdmServed noMember = false) ∧
    (reaches ready (Path.mailbox 0) = true ∧ spdmServed ready = true ∧ Calm ready ∧
      (ready.upd.secured.any fun x => decide (x.1 = 5)) = false) ∧
    (reaches (owned 0) (Path.mailbox 0) = true ∧ spdmServed (owned 0) = true ∧ Calm (owned 0) ∧
      ((owned 0).upd.secured.any fun x => decide (x.1 = 3)) = true) ∧
    (reaches (owned 0) (Path.mailbox 0) = true ∧ spdmServed (owned 0) = true ∧ Calm (owned 0) ∧
      (∀ (u : UpdSession), (owned 0).upd.session = some u → u.secured ≠ some 3)) ∧
    (reaches securedUpdate (Path.mailbox 0) = true ∧ spdmServed securedUpdate = true ∧ Calm securedUpdate ∧
      securedUpdate.upd.session = some securedSession ∧ securedSession.secured = some 3 ∧
      securedUpdate.upd.stage = UpdStage.idle) ∧
    (reaches ready (Path.mailbox 0) = true ∧ spdmServed ready = true ∧ Calm ready) ∧
    (reaches ready (Path.mailbox 0) = true ∧ spdmServed ready = true ∧ Calm ready ∧ boathouse ready = false ∧ 2 ≤ 5 ∧
      5 ≤ 5) ∧
    (reaches ready (Path.mailbox 0) = true ∧ spdmServed ready = true ∧ Calm ready ∧ (boathouse ready = true ∧ 7 ≠ 1 ∧
      7 ≠ 6 ∨ 7 = 0 ∨ 6 < 7)) := by
  unfold Calm; decide +kernel

theorem witness_SpdmRequests_2 :
    reaches (owned 0) ownerPath = true ∧ spdmServed (owned 0) = true ∧ Calm (owned 0) ∧
    ownerPath = Path.secured 3 true true 0 := by
  unfold Calm; decide +kernel

theorem witness_SpdmRequests_2_Spdm9 :
    reaches ready (Path.mailbox 0) = true ∧ spdmServed ready = true ∧ Calm ready ∧
    (∀ (id : Nat) (o bus : Bool) (c : Nat), Path.mailbox 0 ≠ Path.secured id o bus c) :=
  ⟨by decide +kernel, by decide +kernel, by unfold Calm; decide +kernel, fun _ _ _ _ => nofun⟩

theorem witness_CertificateIsSet :
    (reaches (owned 0) ownerPath = true ∧ spdmServed (owned 0) = true ∧ boathouse (owned 0) = false ∧
      ([] : List Byte).length ≤ 4028 ∧ Calm (owned 0) ∧ ([] : List Byte) = [] ∧ (owned 0).upd.owner ≠ [] ∧
      privilege ownerPath = 2) ∧
    (reaches (owned 0) (Path.mailbox 0) = true ∧ spdmServed (owned 0) = true ∧ boathouse (owned 0) = false ∧
      [9].length ≤ 4028 ∧ Calm (owned 0) ∧ (owned 0).upd.owner ≠ [] ∧ privilege (Path.mailbox 0) ≠ 2) ∧
    (reaches (owned 0) ownerPath = true ∧
      (6 ≠ 7 ∨ 4028 < [9].length ∨ boathouse (owned 0) = true ∨ spdmServed (owned 0) = false)) := by
  unfold Calm; decide +kernel

theorem witness_CertificateIsSet_Cert1 :
    reaches (owned 0) ownerPath = true ∧ spdmServed (owned 0) = true ∧ boathouse (owned 0) = false ∧
    [9].length ≤ 4028 ∧ Calm (owned 0) ∧ [9] ≠ [] ∧
    ((owned 0).upd.owner = [] → ∃ id o c, ownerPath = Path.secured id o true c) ∧
    ((owned 0).upd.owner ≠ [] → privilege ownerPath = 2) :=
  ⟨by decide +kernel, by decide +kernel, by decide +kernel, by decide, by unfold Calm; decide +kernel, by decide,
    fun _ => ⟨3, true, 0, rfl⟩, fun _ => by decide +kernel⟩

theorem witness_CertificateIsSet_Cert4 :
    reaches ready (Path.mailbox 0) = true ∧ spdmServed ready = true ∧ boathouse ready = false ∧ [9].length ≤ 4028 ∧
    Calm ready ∧ ready.upd.owner = [] ∧
    ((∀ (id : Nat) (o : Bool) (c : Nat), Path.mailbox 0 ≠ Path.secured id o true c) ∨ [9] = []) :=
  ⟨by decide +kernel, by decide +kernel, by decide +kernel, by decide, by unfold Calm; decide +kernel,
    by decide +kernel, .inl fun _ _ _ => nofun⟩

theorem witness_BusEvents :
    (portOn ready Port.mgmt = true ∧ Calm ready ∧ (Port.mgmt = Port.mgmt ∨ BusErr.pec ≠ BusErr.pec)) ∧
    (portOn ready Port.lcl = true ∧ Calm ready ∧ (Port.lcl = Port.mgmt ∨ BusErr.misplaced ≠ BusErr.pec)) ∧
    (portOn ready Port.mgmt = true ∧ Calm ready ∧ i2cMode ready Port.mgmt = false) ∧
    (portOn portI2c Port.mgmt = true ∧ Calm portI2c ∧ i2cMode portI2c Port.mgmt = true) ∧
    (portOn ready Port.mgmt = true ∧ Calm ready) ∧
    (portOn ready Port.lcl = true ∧ Calm ready ∧ (portOf ready Port.lcl).hangRun < 2) ∧
    (portOn portHang Port.mgmt = true ∧ Calm portHang ∧ 2 ≤ (portOf portHang Port.mgmt).hangRun) ∧
    (portOn ready Port.mgmt = true ∧ Calm ready ∧ ready.bus.mgmt.i2c = false) := by
  unfold Calm; decide +kernel

theorem witness_BusEvents_2 :
    (portOn portI2c Port.mgmt = true ∧ Calm portI2c ∧ portI2c.bus.mgmt.i2c = true) ∧
    (portOn ready Port.mgmt = true ∧ Calm ready ∧ ready.bus.mgmt.lossRun ≠ 15) ∧
    (portOn portLoss Port.mgmt = true ∧ Calm portLoss ∧ portLoss.bus.mgmt.lossRun = 15) ∧
    ((portOf portWaits Port.mgmt).st = PortSt.waiting) ∧
    (localOn ready = true ∧ Calm ready) ∧
    (localOn ready = true ∧ Calm ready ∧ tooHot ready [] = []) ∧
    (portOn ready Port.lcl = true ∧ Calm ready) ∧
    (portOn State.reset Port.mgmt = false) := by
  unfold Calm; decide +kernel

theorem witness_BusEvents_3 :
    ((portOf ready Port.mgmt).st ≠ PortSt.waiting) ∧
    (localOn State.reset = false) := by
  decide +kernel

theorem witness_BusAttention :
    (portOn State.reset Port.mgmt = false) ∧
    (portOn ready Port.mgmt = true) ∧
    (portOn portAlert Port.mgmt = true ∧ portAlert.bus.mgmt.alert = true) ∧
    (portOn ready Port.mgmt = true ∧ ready.bus.mgmt.alert = false) ∧
    (portOn portCall Port.mgmt = true ∧ portCall.bus.mgmt.callPending = true ∧ portCall.bus.mgmt.called = false) ∧
    (portOn ready Port.mgmt = true ∧ (ready.bus.mgmt.callPending = false ∨ ready.bus.mgmt.called = true)) ∧
    (portOn portCall Port.mgmt = true ∧ (portCall.bus.mgmt.callPending = false ∨ portCall.bus.mgmt.called = false)) ∧
    (portOn portService Port.mgmt = true ∧ portService.bus.mgmt.callPending = true ∧
      portService.bus.mgmt.called = true ∧ Calm portService) := by
  unfold Calm; decide +kernel

theorem witness_MctpControl :
    (forUs ready true 0 = true) ∧
    (forUs ready true 0 = true ∧ 0 < 254 ∧ 254 < 255) ∧
    (forUs ready true 0 = true ∧ (255 = 0 ∨ 255 ≤ 255)) ∧
    ((portOn (onSmbus ready) Port.mgmt = false ∨ 8 ≠ 0 ∧ (onSmbus ready).bus.mgmt.eid ≠ some 8)) ∧
    ((portOn State.reset Port.mgmt = false ∨ 0 ≠ 0 ∧ State.reset.bus.mgmt.eid ≠ some 0)) := by
  decide +kernel

theorem witness_MctpRequests :
    PacketTaken (onSmbus ready) (packet true true (readResidueMessage ready 31)) (readResidueMessage ready 31) ∧
    (packet true true (readResidueMessage ready 31)).eom = true ∧ (readResidueMessage ready 31).length ≤ 8202 ∧
    Calm (onSmbus ready) ∧
    (((onSmbus ready).bus.reqs.any fun x => decide (x.src = (packet true true (readResidueMessage ready 31)).src ∧
    x.inst = 31)) = false) ∧
    (onSmbus ready).upd.committer ≠ some (Path.smbus (packet true true (readResidueMessage ready 31)).src) ∧
    readResidueMessage ready 31 = readResidueMessage (onSmbus ready) 31 ∧
    Served (onSmbus ready) (Path.smbus (packet true true (readResidueMessage ready 31)).src) ∧
    NoSession (onSmbus ready) (Path.smbus (packet true true (readResidueMessage ready 31)).src) := by
  unfold PacketTaken Calm NoSession; decide +kernel

theorem witness_MctpRequests_2 :
    PacketTaken (onSmbus ready) (packet true true (vendorMessage ready 31 (2, 0) (1, 192) [])) (vendorMessage ready 31 (2, 0) (1, 192) []) ∧
    (packet true true (vendorMessage ready 31 (2, 0) (1, 192) [])).eom = true ∧
    (vendorMessage ready 31 (2, 0) (1, 192) []).length ≤ 8202 ∧ Calm (onSmbus ready) ∧
    (((onSmbus ready).bus.reqs.any fun x => decide (x.src = (packet true true (vendorMessage ready 31 (2, 0) (1, 192) [])).src ∧
    x.inst = 31)) = false) ∧
    (onSmbus ready).upd.committer ≠ some (Path.smbus (packet true true (vendorMessage ready 31 (2, 0) (1, 192) [])).src) ∧
    vendorMessage ready 31 (2, 0) (1, 192) [] = vendorMessage (onSmbus ready) 31 (2, 0) (1, 192) [] ∧
    ((2, 0).1 ≠ 1 ∨ (1, 192).2 ≠ 192 ∨ (1, 192).1 ∉ [1, 2, 3, 16, 17, 18, 19, 32]) := by
  unfold PacketTaken Calm; decide +kernel

theorem witness_MctpRequests_3 :
    PacketTaken (onSmbus ready) (packet true true (vendorMessage ready 31 (1, 0) (1, 192) [1, 2])) (vendorMessage ready 31 (1, 0) (1, 192) [1, 2]) ∧
    (packet true true (vendorMessage ready 31 (1, 0) (1, 192) [1, 2])).eom = true ∧
    (vendorMessage ready 31 (1, 0) (1, 192) [1, 2]).length ≤ 8202 ∧ Calm (onSmbus ready) ∧
    (((onSmbus ready).bus.reqs.any fun x => decide (x.src = (packet true true (vendorMessage ready 31 (1, 0) (1, 192) [1, 2])).src ∧
    x.inst = 31)) = false) ∧
    (onSmbus ready).upd.committer ≠ some (Path.smbus (packet true true (vendorMessage ready 31 (1, 0) (1, 192) [1, 2])).src) ∧
    vendorMessage ready 31 (1, 0) (1, 192) [1, 2] = vendorMessage (onSmbus ready) 31 (1, 0) (1, 192) [1, 2] ∧
    (1, 8) ∈ [(1, 8), (2, 12), (3, 6), (16, 8), (17, 12), (18, 4), (19, 4), (32, 12)] ∧ [1, 2].length < 8 := by
  unfold PacketTaken Calm; decide +kernel

theorem witness_MctpRequests_4 :
    PacketTaken requested (packet true true (vendorMessage ready 31 (1, 0) (1, 192) [])) (vendorMessage ready 31 (1, 0) (1, 192) []) ∧
    (packet true true (vendorMessage ready 31 (1, 0) (1, 192) [])).eom = true ∧
    (vendorMessage ready 31 (1, 0) (1, 192) []).length ≤ 8202 ∧ Calm requested ∧
    vendorMessage ready 31 (1, 0) (1, 192) [] = vendorMessage requested 31 (1, 0) (1, 192) [] ∧
    (List.find? (fun x => decide (x.src = (packet true true (vendorMessage ready 31 (1, 0) (1, 192) [])).src ∧
    x.inst = 31)) requested.bus.reqs = some request31) := by
  unfold PacketTaken Calm; decide +kernel

theorem witness_MctpRequests_5 :
    PacketTaken committing8 (packet true true (vendorMessage ready 31 (1, 0) (1, 192) [])) (vendorMessage ready 31 (1, 0) (1, 192) []) ∧
    (packet true true (vendorMessage ready 31 (1, 0) (1, 192) [])).eom = true ∧
    (vendorMessage ready 31 (1, 0) (1, 192) []).length ≤ 8202 ∧ Calm committing8 ∧
    vendorMessage ready 31 (1, 0) (1, 192) [] = vendorMessage committing8 31 (1, 0) (1, 192) [] ∧
    (List.find? (fun x => decide (x.src = (packet true true (vendorMessage ready 31 (1, 0) (1, 192) [])).src ∧
    x.inst = 31)) committing8.bus.reqs = none) ∧
    committing8.upd.committer = some (Path.smbus (packet true true (vendorMessage ready 31 (1, 0) (1, 192) [])).src) ∧
    (committing8.bus.waiting.any fun x => decide (x.src = (packet true true (vendorMessage ready 31 (1, 0) (1, 192) [])).src)) = false := by
  unfold PacketTaken Calm; decide +kernel

theorem witness_MctpRequests_6 :
    PacketTaken (waitingFor [] committing8) (packet true true (vendorMessage ready 31 (1, 0) (1, 192) [])) (vendorMessage ready 31 (1, 0) (1, 192) []) ∧
    (packet true true (vendorMessage ready 31 (1, 0) (1, 192) [])).eom = true ∧
    (vendorMessage ready 31 (1, 0) (1, 192) []).length ≤ 8202 ∧ Calm (waitingFor [] committing8) ∧
    vendorMessage ready 31 (1, 0) (1, 192) [] = vendorMessage (waitingFor [] committing8) 31 (1, 0) (1, 192) [] ∧
    (List.find? (fun x => decide (x.src = (packet true true (vendorMessage ready 31 (1, 0) (1, 192) [])).src ∧
    x.inst = 31)) (waitingFor [] committing8).bus.reqs = none) ∧
    (waitingFor [] committing8).upd.committer = some (Path.smbus (packet true true (vendorMessage ready 31 (1, 0) (1, 192) [])).src) ∧
    ((waitingFor [] committing8).bus.waiting.any fun x => decide (x.src = (packet true true (vendorMessage ready 31 (1, 0) (1, 192) [])).src)) = true := by
  unfold PacketTaken Calm; decide +kernel

theorem witness_MctpRequests_7 :
    PacketTaken (onSmbus ready) (packet true true [1]) [1] ∧ (packet true true [1]).eom = true ∧ [1].length ≤ 8202 ∧
    Calm (onSmbus ready) ∧
    ([1].length < 8 ∨ List.take 3 [1] ≠ [126, BitVec.ofNat 8 ((onSmbus ready).cfg.vendorId.toNat / 256), BitVec.ofNat 8 (onSmbus ready).cfg.vendorId.toNat] ∨ ∃ x, ([1] : List Byte)[4]? = some x ∧
    BitVec.toNat x < 128) := by
  unfold PacketTaken Calm; decide +kernel

theorem witness_MctpAssembly :
    (PacketTaken (onSmbus ready) (packet false true [1]) [1] ∧ Calm (onSmbus ready) ∧
      (packet false true [1]).eom = false ∧ [1].length ≤ 8202) ∧
    (portOn ready Port.mgmt = true ∧ Calm ready ∧ (packet true false []).payload.length ≤ 64 ∧
      (packet true false []).pecOk = false) := by
  unfold PacketTaken Calm; decide +kernel

theorem witness_MctpAssembly_Packet3b :
    PacketTaken (assembled 8202) (continued 0 [1]) (List.replicate 8202 0 ++ [1]) ∧ Calm (assembled 8202) ∧
    8202 < (List.replicate 8202 0 ++ [1]).length :=
  ⟨⟨by decide +kernel, by decide +kernel, by decide +kernel, by decide +kernel, assembled_joined 8202⟩,
    by unfold Calm; decide +kernel, by rw [List.length_append, List.length_replicate]; decide⟩

theorem witness_MctpAssembly_2 :
    (portOn ready Port.mgmt = true ∧ Calm ready ∧ 64 < (packet true false (List.replicate 65 0)).payload.length) ∧
    (portOn ready Port.mgmt = true ∧ Calm ready ∧ (packet true true []).payload.length ≤ 64 ∧
      (packet true true []).pecOk = true ∧
      (¬ForDevice ready (packet true true []) ∨ (packet true true []).som = false ∧
      assemblyOf ready (packet true true []).src = none)) ∧
    (portOn (assembled 1) Port.mgmt = true ∧ Calm (assembled 1) ∧ (continued 1 [1]).payload.length ≤ 64 ∧
      (continued 1 [1]).pecOk = true ∧ ForDevice (assembled 1) (continued 1 [1]) ∧
      (assemblyOf (assembled 1) (continued 1 [1]).src).isSome = true ∧
      joinedBytes (assembled 1) (continued 1 [1]) = none) := by
  unfold Calm; decide +kernel

theorem witness_MctpAssembly_3 :
    (portOn assembling Port.mgmt = true ∧ Calm assembling ∧ (assemblyOf assembling 8).isSome = true) ∧
    (portOn assembling Port.mgmt = true ∧ Calm assembling ∧ assemblyOf assembling 7 = none) ∧
    (portOn State.reset Port.mgmt = false) := by
  unfold Calm; decide +kernel

theorem witness_WaitingMessageRuns :
    (ready.pending = [] ∧ ready.crew.lagBuf = [] ∧ ready.fault.shadows = [] ∧
      (∀ (h : Fin 2), (headOf ready h).retrainBy = none)) ∧
    ((∀ m ∈ ready.bus.waiting, ready.upd.committer = some (Path.smbus m.src))) ∧
    ((waitingFor (readResidueMessage ready 31) (onSmbus ready)).bus.waiting = [waiting8 (readResidueMessage ready 31)] ∧
      (waitingFor (readResidueMessage ready 31) (onSmbus ready)).upd.committer ≠ some (Path.smbus (waiting8 (readResidueMessage ready 31)).src) ∧
      (waiting8 (readResidueMessage ready 31)).bytes = readResidueMessage (waitingFor (readResidueMessage ready 31) (onSmbus ready)) 31 ∧
      Served (waitingFor (readResidueMessage ready 31) (onSmbus ready)) (Path.smbus (waiting8 (readResidueMessage ready 31)).src) ∧
      NoSession (waitingFor (readResidueMessage ready 31) (onSmbus ready)) (Path.smbus (waiting8 (readResidueMessage ready 31)).src) ∧
      Calm (waitingFor (readResidueMessage ready 31) (onSmbus ready)) ∧
      serveWaiting (waitingFor (readResidueMessage ready 31) (onSmbus ready)) = serveWaiting (waitingFor (readResidueMessage ready 31) (onSmbus ready))) := by
  unfold NoSession Calm; decide +kernel

theorem witness_FreezesAreEntered :
    (FreezeReady buffered) ∧
    (FreezeReady buffered ∧ buffered.fault.jtagOff = false) ∧
    (FreezeReady (onSmbus ready) ∧ FreezeRequest (onSmbus ready) (Path.smbus 8)) ∧
    (FreezeStands (onSmbus frozenState)) := by
  unfold FreezeReady FreezeRequest FreezeStands Calm; decide +kernel

theorem witness_FreezesAreEntered_2 :
    (FreezeStands (frozenBy true false false) ∧ (frozenBy true false false).fault.jtagOff = false) ∧
    (FreezeStands (frozenBy true false false) ∧ FreezeRequest (frozenBy true false false) (Path.smbus 8)) ∧
    (FreezeWaits resetting0) ∧
    (FreezeWaits resetting0 ∧ resetting0.fault.jtagOff = false) := by
  unfold FreezeStands FreezeRequest FreezeWaits Calm; decide +kernel

theorem witness_FreezesAreEntered_3 :
    (FreezeWaits resetting0 ∧ FreezeRequest resetting0 (Path.smbus 8)) ∧
    ((savingIn SavePhase.map Trigger.vin).seq.vddAon = true ∧ saving (savingIn SavePhase.map Trigger.vin) = true ∧
      Calm (savingIn SavePhase.map Trigger.vin)) ∧
    ((savingIn SavePhase.map Trigger.vin).seq.vddAon = true ∧ saving (savingIn SavePhase.map Trigger.vin) = true ∧
      Calm (savingIn SavePhase.map Trigger.vin) ∧ (savingIn SavePhase.map Trigger.vin).fault.jtagOff = false) ∧
    ((onSmbus (savingIn SavePhase.map Trigger.vin)).seq.vddAon = true ∧
      saving (onSmbus (savingIn SavePhase.map Trigger.vin)) = true ∧
      Calm (onSmbus (savingIn SavePhase.map Trigger.vin)) ∧
      FreezeRequest (onSmbus (savingIn SavePhase.map Trigger.vin)) (Path.smbus 8)) := by
  unfold FreezeWaits Calm FreezeRequest; decide +kernel

theorem witness_FreezesAreEntered_4 :
    (Calm State.reset ∧
      Instr.freezeEnterRequest (Path.smbus 8) ∈ [Instr.freezeEnterRequest (Path.smbus 8), Instr.freezeResumeRequest (Path.smbus 8)] ∧
      reaches State.reset (Path.smbus 8) = false) ∧
    (Calm latchedAux ∧
      Instr.freezeEnterRequest (Path.smbus 8) ∈ [Instr.freezeEnterRequest (Path.smbus 8), Instr.freezeResumeRequest (Path.smbus 8)] ∧
      turnedAway latchedAux (Path.smbus 8) = false ∧ gate 45057 (Path.smbus 8) latchedAux = some stState) ∧
    (Calm boat ∧
      Instr.freezeEnterRequest (Path.smbus 8) ∈ [Instr.freezeEnterRequest (Path.smbus 8), Instr.freezeResumeRequest (Path.smbus 8)] ∧
      turnedAway boat (Path.smbus 8) = false ∧ gate 45057 (Path.smbus 8) boat = none ∧ romServes boat = true) ∧
    (Calm ready ∧
      Instr.freezeResumeRequest (Path.mailbox 0) ∈ [Instr.freezeEnterRequest (Path.mailbox 0), Instr.freezeResumeRequest (Path.mailbox 0)] ∧
      turnedAway ready (Path.mailbox 0) = false ∧ gate 45057 (Path.mailbox 0) ready = none ∧ romServes ready = false ∧
      privilege (Path.mailbox 0) = 0) := by
  unfold Calm; decide +kernel

theorem witness_FreezesAreEntered_5 :
    (Calm (onSmbus handing) ∧
      Instr.freezeResumeRequest (Path.smbus 8) ∈ [Instr.freezeEnterRequest (Path.smbus 8), Instr.freezeResumeRequest (Path.smbus 8)] ∧
      turnedAway (onSmbus handing) (Path.smbus 8) = false ∧ gate 45057 (Path.smbus 8) (onSmbus handing) = none ∧
      romServes (onSmbus handing) = false ∧ activating (onSmbus handing) = true ∧ privilege (Path.smbus 8) ≠ 0) ∧
    (State.reset.seq.vddAon = false) := by
  unfold Calm; decide +kernel

theorem witness_FreezesAreLeft :
    ((frozenBy true false false).seq.vddAon = true ∧ frozen (frozenBy true false false) = true ∧
      coreHeld (frozenBy true false false) = false ∧ Calm (frozenBy true false false) ∧
      (frozenBy true false false).frz.od = false ∧ (frozenBy true false false).frz.jtag = false) ∧
    ((frozenBy false false true).seq.vddAon = true ∧ frozen (frozenBy false false true) = true ∧
      coreHeld (frozenBy false false true) = false ∧ Calm (frozenBy false false true) ∧
      (frozenBy false false true).fault.jtagOff = false ∧ (frozenBy false false true).frz.pin = false) ∧
    (boatFrozen.seq.vddAon = true ∧ frozen boatFrozen = true ∧ coreHeld boatFrozen = false ∧ Calm boatFrozen ∧
      FreezeRequest boatFrozen (Path.smbus 8) ∧ boatFrozen.frz.pin = false ∧ boatFrozen.frz.jtag = false) ∧
    (boatFrozen.seq.vddAon = true ∧ frozen boatFrozen = true ∧ coreHeld boatFrozen = false ∧ Calm boatFrozen ∧
      FreezeRequest boatFrozen (Path.smbus 8)) ∧
    ((heldStart true false).seq.vddAon = true ∧ frozen (heldStart true false) = true ∧
      coreHeld (heldStart true false) = true ∧ Calm (heldStart true false) ∧ (heldStart true false).frz.od = false ∧
      (heldStart true false).frz.jtag = false) ∧
    ((heldStart false true).seq.vddAon = true ∧ frozen (heldStart false true) = true ∧
      coreHeld (heldStart false true) = true ∧ Calm (heldStart false true) ∧
      (heldStart false true).fault.jtagOff = false ∧ (heldStart false true).frz.pin = false) ∧
    ((frozenBy true true false).seq.vddAon = true ∧ Calm (frozenBy true true false) ∧
      ((frozenBy true true false).frz.od = true ∨ (frozenBy true true false).frz.jtag = true)) ∧
    ((frozenBy true false true).seq.vddAon = true ∧ Calm (frozenBy true false true) ∧
      (frozenBy true false true).fault.jtagOff = false ∧ (frozenBy true false true).frz.pin = true) := by
  unfold Calm FreezeRequest; decide +kernel

theorem witness_FreezesAreLeft_2 :
    ((frozenBy true true false).seq.vddAon = true ∧ Calm (frozenBy true true false) ∧
      FreezeRequest (frozenBy true true false) (Path.smbus 8) ∧
      ((frozenBy true true false).frz.pin = true ∨ (frozenBy true true false).frz.jtag = true)) ∧
    (ready.seq.vddAon = true ∧ frozen ready = false ∧ Calm ready ∧ ready.frz.od = false ∧ ready.frz.jtag = false) ∧
    (ready.seq.vddAon = true ∧ frozen ready = false ∧ Calm ready ∧ ready.fault.jtagOff = false ∧
      ready.frz.pin = false) ∧
    ((onSmbus ready).seq.vddAon = true ∧ frozen (onSmbus ready) = false ∧ Calm (onSmbus ready) ∧
      FreezeRequest (onSmbus ready) (Path.smbus 8) ∧ (onSmbus ready).frz.pin = false ∧
      (onSmbus ready).frz.jtag = false) := by
  unfold Calm FreezeRequest; decide +kernel

theorem witness_JtagInstructions :
    (jtagUp ready = true) ∧
    (jtagUp ready = true ∧ listedOpcode 254 = false) ∧
    (jtagUp ready = true ∧ frozen ready = false) ∧
    (jtagUp frozenState = true ∧ frozen frozenState = true) ∧
    (jtagUp jtagDisabled = false) ∧
    (listedOpcode 21 = true) ∧
    (State.reset.seq.vddAon = false) ∧
    ((frozenBy true false true).seq.vddAon = true ∧ Calm (frozenBy true false true) ∧
      ((frozenBy true false true).frz.pin = true ∨ (frozenBy true false true).frz.od = true)) := by
  unfold Calm; decide +kernel

theorem witness_JtagInstructions_2 :
    (ready.seq.vddAon = true ∧ Calm ready ∧ ready.frz.pin = false ∧ ready.frz.od = false ∧ frozen ready = false) ∧
    ((frozenBy false false true).seq.vddAon = true ∧ Calm (frozenBy false false true) ∧
      (frozenBy false false true).frz.pin = false ∧ (frozenBy false false true).frz.od = false ∧
      frozen (frozenBy false false true) = true ∧ coreHeld (frozenBy false false true) = false) := by
  unfold Calm; decide +kernel

theorem witness_LedgerAccess :
    (jtagUp ready = true) ∧
    (jtagUp testFrozen = true) ∧
    (jtagUp testFrozen = true ∧ frozen testFrozen = true ∧ testFrozen.boot.testmode = true) ∧
    (jtagUp ready = true ∧ (frozen ready = false ∨ ready.boot.testmode = false)) := by
  decide +kernel

theorem witness_UpdateOpens :
    (UpdateServed ready (Path.mailbox 0) ∧ Calm ready ∧ ready.od.set.ownerLock = 0 ∧ 4096 ≤ 4096 ∧ 4096 ≤ 33554432 ∧
      ready.upd.trial ≠ 1 ∧ fallingBack ready = false ∧ ready.upd.session = none) ∧
    (UpdateServed (updating UpdStage.idle 4096 []) (Path.mailbox 0) ∧ Calm (updating UpdStage.idle 4096 []) ∧
      (updating UpdStage.idle 4096 []).od.set.ownerLock = 0 ∧ 4096 ≤ 4096 ∧ 4096 ≤ 33554432 ∧
      (updating UpdStage.idle 4096 []).upd.trial ≠ 1 ∧ fallingBack (updating UpdStage.idle 4096 []) = false ∧
      (updating UpdStage.idle 4096 []).upd.session = some (session5 4096 [])) ∧
    (UpdateServed ownerLocked (Path.mailbox 0) ∧ Calm ownerLocked ∧ ownerLocked.od.set.ownerLock ≠ 0) ∧
    (UpdateServed ready (Path.mailbox 0) ∧ Calm ready ∧ ready.od.set.ownerLock = 0 ∧
      (33554433 < 4096 ∨ 33554432 < 33554433)) ∧
    (UpdateServed trying (Path.mailbox 0) ∧ Calm trying ∧ trying.od.set.ownerLock = 0 ∧ 4096 ≤ 33554432 ∧
      33554432 ≤ 33554432 ∧ (trying.upd.trial = 1 ∨ fallingBack trying = true)) := by
  unfold UpdateServed Calm; decide +kernel

theorem witness_UpdateSessionsRun :
    (UpdateServed (updating UpdStage.idle 4096 []) (Path.mailbox 0) ∧ Calm (updating UpdStage.idle 4096 []) ∧
      (updating UpdStage.idle 4096 []).upd.session = some (session5 4096 [])) ∧
    (UpdateServed (updating UpdStage.idle 4096 []) (Path.mailbox 0) ∧ Calm (updating UpdStage.idle 4096 []) ∧
      (updating UpdStage.idle 4096 []).upd.session = some (session5 4096 []) ∧ [1] ≠ [] ∧
      (4096 < [1].length ∨ (session5 4096 []).length < 4096 + [1].length)) ∧
    (UpdateServed (updating UpdStage.idle 4096 []) (Path.mailbox 0) ∧ Calm (updating UpdStage.idle 4096 []) ∧
      (updating UpdStage.idle 4096 []).upd.session = some (session5 4096 []) ∧ 6 ≠ (session5 4096 []).id) ∧
    (UpdateServed (updating UpdStage.verifying 4096 []) (Path.mailbox 0) ∧
      Calm (updating UpdStage.verifying 4096 []) ∧
      (updating UpdStage.verifying 4096 []).upd.session = some (session5 4096 []) ∧
      ((updating UpdStage.verifying 4096 []).upd.stage = UpdStage.idle ∨ (updating UpdStage.verifying 4096 []).upd.stage = UpdStage.verifying)) ∧
    (UpdateServed verifying0 (Path.mailbox 0) ∧ Calm verifying0 ∧
      verifying0.upd.session = some (session5 4096 [(0, 4096)]) ∧
      (verifying0.upd.stage = UpdStage.idle ∨ verifying0.upd.stage = UpdStage.verifying)) ∧
    (UpdateServed (updating UpdStage.loadingX 4096 []) (Path.mailbox 0) ∧ Calm (updating UpdStage.loadingX 4096 []) ∧
      (updating UpdStage.loadingX 4096 []).upd.session = some (session5 4096 []) ∧
      (updating UpdStage.loadingX 4096 []).upd.stage ≠ UpdStage.idle ∧
      (updating UpdStage.loadingX 4096 []).upd.stage ≠ UpdStage.verifying) ∧
    (UpdateServed ready (Path.mailbox 0) ∧ Calm ready ∧ ready.upd.session = none) ∧
    (Calm updateIdle ∧ updateIdle.upd.session = some (session5 4096 []) ∧ updateIdle.upd.stage = UpdStage.idle ∧
      (session5 4096 []).last + 60000000000 ≤ updateIdle.tb.now) := by
  unfold UpdateServed Calm; decide +kernel

theorem witness_UpdateSessionsRun_2 :
    (Calm (updating UpdStage.idle 4096 []) ∧ (updating UpdStage.idle 4096 []).upd.session = some (session5 4096 []) ∧
      (updating UpdStage.idle 4096 []).upd.stage = UpdStage.idle ∧
      (updating UpdStage.idle 4096 []).tb.now < (session5 4096 []).last + 60000000000) ∧
    ((ready.upd.session = none ∨ ready.upd.stage ≠ UpdStage.idle)) := by
  unfold Calm; decide +kernel

theorem witness_UpdateRequestsRefused :
    (reaches State.reset (Path.mailbox 0) = false) ∧
    (turnedAway latchedAux (Path.smbus 8) = false ∧ gate 49152 (Path.smbus 8) latchedAux = some stState ∧
      Calm latchedAux) := by
  unfold Calm; decide +kernel

theorem witness_UpdateCommitBegins :
    (UpdateServed ready (Path.mailbox 0) ∧ bgBusy ready (Path.mailbox 0) = false ∧ ready.upd.session = none ∧
      Calm ready) ∧
    (UpdateServed wholeImage (Path.mailbox 0) ∧ Calm wholeImage ∧
      wholeImage.upd.session = some (session5 4096 [(0, 4096)]) ∧ bgBusy wholeImage (Path.mailbox 0) = false ∧
      wholeImage.od.set.ownerLock = 0 ∧
      bytesAccepted (session5 4096 [(0, 4096)]) = (session5 4096 [(0, 4096)]).length ∧
      wholeImage.upd.stage = UpdStage.idle ∧ Path.mailbox 0 = Path.mailbox 0) ∧
    (UpdateServed (onSmbus (updating UpdStage.idle 4096 [(0, 4096)])) (Path.smbus 8) ∧
      Calm (onSmbus (updating UpdStage.idle 4096 [(0, 4096)])) ∧
      (onSmbus (updating UpdStage.idle 4096 [(0, 4096)])).upd.session = some (session5 4096 [(0, 4096)]) ∧
      bgBusy (onSmbus (updating UpdStage.idle 4096 [(0, 4096)])) (Path.smbus 8) = false ∧
      (onSmbus (updating UpdStage.idle 4096 [(0, 4096)])).od.set.ownerLock = 0 ∧
      bytesAccepted (session5 4096 [(0, 4096)]) = (session5 4096 [(0, 4096)]).length ∧
      (onSmbus (updating UpdStage.idle 4096 [(0, 4096)])).upd.stage = UpdStage.idle ∧
      (∀ (h : Fin 2), Path.smbus 8 ≠ Path.mailbox h)) ∧
    (UpdateServed imageScan (Path.mailbox 0) ∧ Calm imageScan ∧
      imageScan.upd.session = some (session5 4096 [(0, 4096)]) ∧ Path.mailbox 0 = Path.mailbox 0 ∧
      (headOf imageScan 0).bg ≠ Background.none) := by
  unfold UpdateServed Calm; decide +kernel

theorem witness_UpdateCommitBegins_2 :
    (UpdateServed wholeImage (Path.mailbox 0) ∧ Calm wholeImage ∧
      wholeImage.upd.session = some (session5 4096 [(0, 4096)]) ∧ bgBusy wholeImage (Path.mailbox 0) = false ∧
      6 ≠ (session5 4096 [(0, 4096)]).id) ∧
    (UpdateServed imageLocked (Path.mailbox 0) ∧ Calm imageLocked ∧
      imageLocked.upd.session = some (session5 4096 [(0, 4096)]) ∧ bgBusy imageLocked (Path.mailbox 0) = false ∧
      imageLocked.od.set.ownerLock ≠ 0) ∧
    (UpdateServed (updating UpdStage.idle 4096 []) (Path.mailbox 0) ∧ Calm (updating UpdStage.idle 4096 []) ∧
      (updating UpdStage.idle 4096 []).upd.session = some (session5 4096 []) ∧
      bgBusy (updating UpdStage.idle 4096 []) (Path.mailbox 0) = false ∧
      (updating UpdStage.idle 4096 []).od.set.ownerLock = 0 ∧
      bytesAccepted (session5 4096 []) ≠ (session5 4096 []).length) ∧
    (UpdateServed (updating UpdStage.verifying 4096 [(0, 4096)]) (Path.mailbox 0) ∧
      Calm (updating UpdStage.verifying 4096 [(0, 4096)]) ∧
      (updating UpdStage.verifying 4096 [(0, 4096)]).upd.session = some (session5 4096 [(0, 4096)]) ∧
      bgBusy (updating UpdStage.verifying 4096 [(0, 4096)]) (Path.mailbox 0) = false ∧
      (updating UpdStage.verifying 4096 [(0, 4096)]).od.set.ownerLock = 0 ∧
      bytesAccepted (session5 4096 [(0, 4096)]) = (session5 4096 [(0, 4096)]).length ∧
      (updating UpdStage.verifying 4096 [(0, 4096)]).upd.stage ≠ UpdStage.idle) := by
  unfold UpdateServed Calm; decide +kernel

theorem witness_UpdateVerifies :
    ((badMagic.magic ≠ 1414220109 ∨ badMagic.headerVersion ≠ 1 ∨ sectionsOk badMagic.length badMagic.sections = false ∨ Option.map (fun x => x.length) verifying0.upd.session ≠ some badMagic.length)) ∧
    (formOk verifying0 (verifyIn false) = true ∧
      (keyTrusted verifying0 (verifyIn false).key = false ∨ (verifyIn false).signatureOk = false)) ∧
    (formOk verifying0 badDigest = true ∧ keyTrusted verifying0 badDigest.key = true ∧ badDigest.signatureOk = true ∧
      badDigest.digestOk = false) ∧
    (formOk verifying0 otherDevice = true ∧ keyTrusted verifying0 otherDevice.key = true ∧
      otherDevice.signatureOk = true ∧ otherDevice.digestOk = true ∧
      (otherDevice.deviceCode ≠ verifying0.cfg.deviceCode ∨ otherDevice.securityVersion < minVersion verifying0 ∨ boathouse verifying0 = false ∧
      handoverOk verifying0 otherDevice = false)) ∧
    (formOk verifying0 (verifyIn true) = true ∧ keyTrusted verifying0 (verifyIn true).key = true ∧
      (verifyIn true).signatureOk = true ∧ (verifyIn true).digestOk = true ∧
      (verifyIn true).deviceCode = verifying0.cfg.deviceCode ∧
      minVersion verifying0 ≤ (verifyIn true).securityVersion ∧
      (boathouse verifying0 = true ∨ handoverOk verifying0 (verifyIn true) = true)) ∧
    ((ready.upd.stage ≠ UpdStage.verifying ∨ frozen ready = true ∨ darkOrAux ready = true)) ∧
    (boatVerifying.upd.stage = UpdStage.verifying ∧ frozen boatVerifying = false ∧ darkOrAux boatVerifying = false ∧
      boathouse boatVerifying = true ∧ Calm boatVerifying ∧
      boatVerifying.upd.session = some (session5 4096 [(0, 4096)]) ∧ verifyCheck boatVerifying (verifyIn false) ≠ stOk) ∧
    (boatVerifying.upd.stage = UpdStage.verifying ∧ frozen boatVerifying = false ∧ darkOrAux boatVerifying = false ∧
      boathouse boatVerifying = true ∧ Calm boatVerifying ∧
      boatVerifying.upd.session = some (session5 4096 [(0, 4096)]) ∧
      verifyCheck boatVerifying (verifyIn true) = stOk ∧ allFallen boatVerifying = false) := by
  unfold Calm; decide +kernel

theorem witness_UpdateVerifies_2 :
    (verifying0.upd.stage = UpdStage.verifying ∧ frozen verifying0 = false ∧ darkOrAux verifying0 = false ∧
      boathouse verifying0 = false ∧ Calm verifying0 ∧ verifying0.upd.session = some (session5 4096 [(0, 4096)]) ∧
      verifyCheck verifying0 (verifyIn false) ≠ stOk) ∧
    (imageSprint.upd.stage = UpdStage.verifying ∧ frozen imageSprint = false ∧ darkOrAux imageSprint = false ∧
      boathouse imageSprint = false ∧ Calm imageSprint ∧ imageSprint.upd.session = some (session5 4096 [(0, 4096)]) ∧
      verifyCheck imageSprint (verifyIn true) = stOk ∧ updateRefused imageSprint = true) ∧
    (verifying0.upd.stage = UpdStage.verifying ∧ frozen verifying0 = false ∧ darkOrAux verifying0 = false ∧
      boathouse verifying0 = false ∧ Calm verifying0 ∧ verifying0.upd.session = some (session5 4096 [(0, 4096)]) ∧
      verifyCheck verifying0 (verifyIn true) = stOk ∧ updateRefused verifying0 = false ∧
      (verifyIn true).settingsReadable = true) ∧
    (verifying0.upd.stage = UpdStage.verifying ∧ frozen verifying0 = false ∧ darkOrAux verifying0 = false ∧
      boathouse verifying0 = false ∧ Calm verifying0 ∧ verifying0.upd.session = some (session5 4096 [(0, 4096)]) ∧
      verifyCheck verifying0 unreadable = stOk ∧ updateRefused verifying0 = false ∧
      unreadable.settingsReadable = false ∧ verifying0.upd.fallback = false) := by
  unfold Calm; decide +kernel

theorem witness_BoathouseCommits :
    ((reaches ready (Path.mailbox 0) = false ∨ boathouse ready = false ∨ darkOrAux ready = true)) ∧
    (reaches boatFrozen (Path.smbus 8) = true ∧ darkOrAux boatFrozen = false ∧ boathouse boatFrozen = true ∧
      Calm boatFrozen ∧ bothFound boatFrozen = romFinds 1 true (romFinds 0 true boatFrozen) ∧ frozen boatFrozen = true) ∧
    (reaches boatScan (Path.mailbox 0) = true ∧ darkOrAux boatScan = false ∧ boathouse boatScan = true ∧
      Calm boatScan ∧ bothFound boatScan = romFinds 1 true (romFinds 0 true boatScan) ∧ frozen boatScan = false ∧
      Path.mailbox 0 = Path.mailbox 0 ∧ (headOf boatScan 0).bg ≠ Background.none) ∧
    (reaches boat (Path.smbus 8) = true ∧ darkOrAux boat = false ∧ boathouse boat = true ∧ Calm boat ∧
      bothFound boat = romFinds 1 true (romFinds 0 true boat) ∧ frozen boat = false ∧
      bgBusy boat (Path.smbus 8) = false ∧ Option.map (fun x => x.id) boat.upd.session ≠ some 5) := by
  unfold Calm; decide +kernel

theorem witness_BoathouseCommits_2 :
    (reaches boatLocked (Path.smbus 8) = true ∧ darkOrAux boatLocked = false ∧ boathouse boatLocked = true ∧
      Calm boatLocked ∧ bothFound boatLocked = romFinds 1 true (romFinds 0 true boatLocked) ∧
      frozen boatLocked = false ∧ bgBusy boatLocked (Path.smbus 8) = false ∧
      boatLocked.upd.session = some (session5 4096 [(0, 4096)]) ∧ (session5 4096 [(0, 4096)]).id = 5 ∧
      boatLocked.od.set.ownerLock ≠ 0) ∧
    (reaches boatPart (Path.smbus 8) = true ∧ darkOrAux boatPart = false ∧ boathouse boatPart = true ∧
      Calm boatPart ∧ bothFound boatPart = romFinds 1 true (romFinds 0 true boatPart) ∧ frozen boatPart = false ∧
      bgBusy boatPart (Path.smbus 8) = false ∧ boatPart.upd.session = some (session5 4096 []) ∧
      (session5 4096 []).id = 5 ∧ boatPart.od.set.ownerLock = 0 ∧
      bytesAccepted (session5 4096 []) ≠ (session5 4096 []).length) ∧
    (reaches boatVerifying (Path.smbus 8) = true ∧ darkOrAux boatVerifying = false ∧ boathouse boatVerifying = true ∧
      Calm boatVerifying ∧ bothFound boatVerifying = romFinds 1 true (romFinds 0 true boatVerifying) ∧
      frozen boatVerifying = false ∧ bgBusy boatVerifying (Path.smbus 8) = false ∧
      boatVerifying.upd.session = some (session5 4096 [(0, 4096)]) ∧ (session5 4096 [(0, 4096)]).id = 5 ∧
      boatVerifying.od.set.ownerLock = 0 ∧
      bytesAccepted (session5 4096 [(0, 4096)]) = (session5 4096 [(0, 4096)]).length ∧
      boatVerifying.upd.stage ≠ UpdStage.idle) ∧
    (reaches boatReady (Path.smbus 8) = true ∧ darkOrAux boatReady = false ∧ frozen boatReady = false ∧
      boathouse boatReady = true ∧ boatReady.upd.stage = UpdStage.idle ∧ boatReady.od.set.ownerLock = 0 ∧
      bgBusy boatReady (Path.smbus 8) = false ∧ Calm boatReady ∧
      boatReady.upd.session = some (session5 4096 [(0, 4096)]) ∧
      bytesAccepted (session5 4096 [(0, 4096)]) = (session5 4096 [(0, 4096)]).length ∧
      verifyCheck boatReady (verifyIn true) = stOk ∧ allFallen boatReady = false) := by
  unfold Calm; decide +kernel

theorem witness_BoathouseCommits_3 :
    reaches boatReady (Path.smbus 8) = true ∧ darkOrAux boatReady = false ∧ frozen boatReady = false ∧
    boathouse boatReady = true ∧ boatReady.upd.stage = UpdStage.idle ∧ boatReady.od.set.ownerLock = 0 ∧
    bgBusy boatReady (Path.smbus 8) = false ∧ Calm boatReady ∧
    boatReady.upd.session = some (session5 4096 [(0, 4096)]) ∧
    bytesAccepted (session5 4096 [(0, 4096)]) = (session5 4096 [(0, 4096)]).length ∧
    verifyCheck boatReady (verifyIn false) ≠ stOk := by
  unfold Calm; decide +kernel

theorem witness_UpdateHandsOver :
    (handReady handing = true ∧ Calm handing) ∧
    (frozen ready = false) ∧
    (handReady ready = false) ∧
    (frozen frozenState = true) := by
  unfold Calm; decide +kernel

theorem witness_TrialsEnd :
    (trialCounts lastHour = true ∧ Calm lastHour ∧ 82800 ≤ lastHour.upd.trialS) ∧
    (trialCounts trying = true ∧ Calm trying ∧ trying.upd.trialS < 82800) ∧
    (trialCounts trying = true ∧ Calm trying) ∧
    (fallingBackState.upd.stage = UpdStage.waitMembers ∧ frozen fallingBackState = false ∧ Calm fallingBackState) ∧
    (trialCounts ready = false) ∧
    ((ready.upd.stage ≠ UpdStage.waitMembers ∨ frozen ready = true)) := by
  unfold Calm; decide +kernel

theorem witness_ErgometersAreRead :
    (darkOrAux ready = false ∧ frozen ready = false ∧ readings.length = 28 ∧ ready.plan.slack.length = 28 ∧
      ready.plan.drift.length = 28 ∧ ready.plan.parity.length = 28 ∧ Calm ready ∧ (∀ e ∈ readings, e.parityOk = true)) ∧
    ((darkOrAux frozenState = true ∨ frozen frozenState = true)) := by
  unfold Calm; decide +kernel

theorem witness_ErgometersAreRead_ErgoBad :
    darkOrAux ready = false ∧ frozen ready = false ∧ badReadings.length = 28 ∧ ready.plan.slack.length = 28 ∧
    ready.plan.drift.length = 28 ∧ ready.plan.parity.length = 28 ∧ Calm ready ∧
    badReadings[2]? = some { slack := 1, drift := 1, parityOk := false } ∧
    ({ slack := 1, drift := 1, parityOk := false } : ErgoIn).parityOk = false ∧
    (∀ (j : Nat) (x : ErgoIn), badReadings[j]? = some x → j ≠ 2 → x.parityOk = true) ∧
    (capture ready 128).sticky = false :=
  ⟨by decide +kernel, by decide +kernel, by decide +kernel, by decide +kernel, by decide +kernel,
    by decide +kernel, by unfold Calm; decide +kernel, by decide +kernel, rfl, bad_alone, by decide +kernel⟩

theorem witness_PlanTriggersAct :
    (darkOrAux (planning 1 60) = false ∧ frozen (planning 1 60) = false ∧ boathouse (planning 1 60) = false ∧
      (PlanTrig.timer, 0, 1) ∈ [(PlanTrig.timer, 0, 1), (PlanTrig.temperature, 1, 2)] ∧
      trigHolds (planning 1 60) (PlanTrig.timer, 0, 1).1 = true ∧ PlanReady (planning 1 60)) ∧
    (darkOrAux (planning 1 39) = false ∧ frozen (planning 1 39) = false ∧ boathouse (planning 1 39) = false ∧
      (PlanTrig.timer, 0, 1) ∈ [(PlanTrig.timer, 0, 1), (PlanTrig.temperature, 1, 2)] ∧
      trigHolds (planning 1 39) (PlanTrig.timer, 0, 1).1 = true ∧ PlanReady (planning 1 39)) := by
  unfold PlanReady Calm; decide +kernel

theorem witness_PlanTriggersAct_2 :
    (darkOrAux planBlockedState = false ∧ frozen planBlockedState = false ∧ boathouse planBlockedState = false ∧
      (PlanTrig.timer, 0, 1) ∈ [(PlanTrig.timer, 0, 1), (PlanTrig.temperature, 1, 2)] ∧
      trigHolds planBlockedState (PlanTrig.timer, 0, 1).1 = true ∧
      (planBlocked planBlockedState = true ∨ planBlockedState.plan.ramp = true ∧
      (planBlockedState.plan.running = false ∨ (PlanTrig.timer, 0, 1).2.1 = 1)) ∧ Calm planBlockedState) ∧
    (darkOrAux (hotPlan true true) = false ∧ frozen (hotPlan true true) = false ∧
      boathouse (hotPlan true true) = false ∧
      (PlanTrig.temperature, 1, 2) ∈ [(PlanTrig.timer, 0, 1), (PlanTrig.temperature, 1, 2)] ∧
      trigHolds (hotPlan true true) (PlanTrig.temperature, 1, 2).1 = true ∧
      (planBlocked (hotPlan true true) = true ∨ (hotPlan true true).plan.ramp = true ∧
      ((hotPlan true true).plan.running = false ∨ (PlanTrig.temperature, 1, 2).2.1 = 1)) ∧ Calm (hotPlan true true)) := by
  unfold Calm; decide +kernel

theorem witness_PlanTriggersAct_3 :
    (darkOrAux (hotPlan true false) = false ∧ frozen (hotPlan true false) = false ∧
      boathouse (hotPlan true false) = false ∧
      (PlanTrig.temperature, 1, 2) ∈ [(PlanTrig.timer, 0, 1), (PlanTrig.temperature, 1, 2)] ∧
      trigHolds (hotPlan true false) (PlanTrig.temperature, 1, 2).1 = true ∧
      planBlocked (hotPlan true false) = false ∧ (hotPlan true false).plan.running = true ∧
      ((hotPlan true false).plan.ramp = false ∨ (PlanTrig.temperature, 1, 2).2.1 = 0) ∧ Calm (hotPlan true false)) ∧
    (darkOrAux (planning 1 60) = false ∧ frozen (planning 1 60) = false ∧ boathouse (planning 1 60) = false ∧
      memReady (planning 1 60) = true ∧ (planning 1 60).plan.startCame = false ∧ PlanReady (planning 1 60)) := by
  unfold PlanReady Calm; decide +kernel

theorem witness_PlanTriggersAct_4 :
    (darkOrAux (hotPlan false true) = false ∧ frozen (hotPlan false true) = false ∧
      boathouse (hotPlan false true) = false ∧ memReady (hotPlan false true) = true ∧
      (hotPlan false true).plan.startCame = false ∧
      (planBlocked (hotPlan false true) = true ∨ (hotPlan false true).plan.ramp = true ∧
      (hotPlan false true).plan.running = false) ∧ Calm (hotPlan false true)) ∧
    (darkOrAux (hotPlan true true) = false ∧ frozen (hotPlan true true) = false ∧
      boathouse (hotPlan true true) = false ∧ memReady (hotPlan true true) = true ∧
      (hotPlan true true).plan.startCame = false ∧ planBlocked (hotPlan true true) = false ∧
      (hotPlan true true).plan.running = true ∧ Calm (hotPlan true true)) := by
  unfold Calm; decide +kernel

theorem witness_PlanTriggersAct_5 :
    (darkOrAux (keptAll 2) = false ∧ frozen (keptAll 2) = false ∧ boathouse (keptAll 2) = false ∧
      PlanReady (keptAll 2) ∧ ((keptAll 2).plan.pending, 1) ∈ [(1, 0), (2, 1), (4, 2), (8, 3)]) ∧
    (darkOrAux (keptAll 15) = false ∧ frozen (keptAll 15) = false ∧ boathouse (keptAll 15) = false ∧
      PlanReady (keptAll 15) ∧ (keptAll 15).plan.pending = 15) := by
  unfold PlanReady Calm; decide +kernel

theorem witness_PlanTriggersAct_6 :
    (darkOrAux ready = true ∨ frozen ready = true ∨ boathouse ready = true ∨ trigHolds ready PlanTrig.kept = false) := by
  decide +kernel

theorem witness_PlanRequestsAct :
    (reaches State.reset (Path.mailbox 0) = false) ∧
    (turnedAway latchedAux (Path.smbus 8) = false ∧ gate 32771 (Path.smbus 8) latchedAux = some stState ∧
      Calm latchedAux) ∧
    (turnedAway boat (Path.smbus 8) = false ∧ gate 32771 (Path.smbus 8) boat = none ∧ Calm boat ∧
      romServes boat = true) ∧
    (turnedAway ready (Path.mailbox 0) = false ∧ gate 32771 (Path.mailbox 0) ready = none ∧ Calm ready ∧
      romServes ready = false ∧ privilege (Path.mailbox 0) = 0) ∧
    (turnedAway (onSmbus ready) (Path.smbus 8) = false ∧ gate 32771 (Path.smbus 8) (onSmbus ready) = none ∧
      Calm (onSmbus ready) ∧ romServes (onSmbus ready) = false ∧
      (privilege (Path.smbus 8) = 1 ∨ privilege (Path.smbus 8) = 2) ∧ 0 ≠ 1) ∧
    (turnedAway (onSmbus ramped) (Path.smbus 8) = false ∧ gate 32771 (Path.smbus 8) (onSmbus ramped) = none ∧
      Calm (onSmbus ramped) ∧ romServes (onSmbus ramped) = false ∧
      (privilege (Path.smbus 8) = 1 ∨ privilege (Path.smbus 8) = 2) ∧ 1 = 1 ∧ (onSmbus ramped).plan.running = true) ∧
    (turnedAway (onSmbus (planning 0 90)) (Path.smbus 8) = false ∧
      gate 32771 (Path.smbus 8) (onSmbus (planning 0 90)) = none ∧ Calm (onSmbus (planning 0 90)) ∧
      romServes (onSmbus (planning 0 90)) = false ∧ (privilege (Path.smbus 8) = 1 ∨ privilege (Path.smbus 8) = 2) ∧
      1 = 1 ∧ PlanReady (onSmbus (planning 0 90))) ∧
    (turnedAway (onSmbus (hotPlan false true)) (Path.smbus 8) = false ∧
      gate 32771 (Path.smbus 8) (onSmbus (hotPlan false true)) = none ∧ Calm (onSmbus (hotPlan false true)) ∧
      romServes (onSmbus (hotPlan false true)) = false ∧
      (privilege (Path.smbus 8) = 1 ∨ privilege (Path.smbus 8) = 2) ∧ 1 = 1 ∧
      (onSmbus (hotPlan false true)).plan.running = false ∧
      (planBlocked (onSmbus (hotPlan false true)) = true ∨ (onSmbus (hotPlan false true)).plan.ramp = true)) := by
  unfold PlanReady Calm; decide +kernel

theorem witness_VoltageSteps :
    ((ramping 750 760).plan.ramp = true ∧ frozen (ramping 750 760) = false ∧ (ramping 750 760).host.fence = false ∧
      Calm (ramping 750 760) ∧
      755 = if (ramping 750 760).plan.voltage < (ramping 750 760).plan.target then min (ramping 750 760).plan.target ((ramping 750 760).plan.voltage + 5) else max (ramping 750 760).plan.target ((ramping 750 760).plan.voltage - 5)) ∧
    ((ramping 756 750).plan.ramp = true ∧ frozen (ramping 756 750) = false ∧ (ramping 756 750).host.fence = false ∧
      Calm (ramping 756 750) ∧
      751 = if (ramping 756 750).plan.voltage < (ramping 756 750).plan.target then min (ramping 756 750).plan.target ((ramping 756 750).plan.voltage + 5) else max (ramping 756 750).plan.target ((ramping 756 750).plan.voltage - 5)) ∧
    ((ramping 755 760).plan.ramp = true ∧ frozen (ramping 755 760) = false ∧ (ramping 755 760).host.fence = false ∧
      Calm (ramping 755 760) ∧
      760 = if (ramping 755 760).plan.voltage < (ramping 755 760).plan.target then min (ramping 755 760).plan.target ((ramping 755 760).plan.voltage + 5) else max (ramping 755 760).plan.target ((ramping 755 760).plan.voltage - 5)) ∧
    (farRamp.plan.ramp = true ∧ frozen farRamp = false ∧ farRamp.host.fence = false ∧ Calm farRamp ∧
      760 = if farRamp.plan.voltage < farRamp.plan.target then min farRamp.plan.target (farRamp.plan.voltage + 5) else max farRamp.plan.target (farRamp.plan.voltage - 5)) ∧
    ((ramping 755 760).plan.ramp = true ∧ frozen (ramping 755 760) = false ∧ (ramping 755 760).host.fence = false ∧
      Calm (ramping 755 760)) ∧
    ((ready.plan.ramp = false ∨ frozen ready = true ∨ ready.host.fence = true)) := by
  unfold Calm; decide +kernel

theorem witness_RampsAreChecked :
    (ramped.plan.running = true ∧ ramped.plan.ramp = false ∧ frozen ramped = false ∧ Calm ramped ∧
      (ramped.plan.pending.getLsbD 1 = false ∨ planBlocked ramped = true)) ∧
    (keptRamp.plan.running = true ∧ keptRamp.plan.ramp = false ∧ frozen keptRamp = false ∧ Calm keptRamp ∧
      keptRamp.plan.pending.getLsbD 1 = true ∧ planBlocked keptRamp = false) ∧
    ((ready.plan.running = false ∨ ready.plan.ramp = true ∨ frozen ready = true)) := by
  unfold Calm; decide +kernel
/-! ## Steps -/

/-- A command ends in a next state. -/
def completes : Host.Outcome State Fault Refusal → Bool
  | .next _ => true
  | _ => false

theorem next_of_completes (o : Host.Outcome State Fault Refusal) (h : completes o = true) : ∃ t, o = .next t := by
  cases o with
  | next t => exact ⟨t, rfl⟩
  | fault f => cases h
  | refused r => cases h

/-- `written` with a Mark in front of its queue. -/
def queued : State := { written with pending := [.hstMark 1] }

theorem witness_StepRunsFrontCommand : queued.pending = [.hstMark 1] := rfl

theorem written_tables : Tables written := by
  constructor <;> decide +kernel

theorem witness_EveryStepKeepsTables : Tables written ∧ ∃ t, step written = .next t :=
  ⟨written_tables, next_of_completes _ (by decide +kernel)⟩

theorem witness_EveryCommandCompletes : ∃ t, exec (.hstMark 1) written = .next t :=
  next_of_completes _ (by decide +kernel)

theorem witness_LastingNumbersNeverFall :
    (Tables written ∧ ∃ t, step written = .next t) ∧ (Tables written ∧ ∃ t, exec (.hstMark 1) written = .next t) ∧
    (Instr.hstMark 1 ≠ .vddAonLoss ∧ ∀ h n, Instr.hstMark 1 ≠ .ptmResponse h n) ∧
    (Tables written ∧ written.pending = [] ∧ written.tb.now + 40 < 2 ^ 64 ∧ ∃ t, step written = .next t) :=
  ⟨witness_EveryStepKeepsTables, ⟨written_tables, next_of_completes _ (by decide +kernel)⟩,
    ⟨nofun, fun _ _ => nofun⟩, written_tables, rfl, by decide +kernel, next_of_completes _ (by decide +kernel)⟩

/-! ## Single commands and rules, with results from the specification -/

/-- What `f` says of the state that a command ends in. -/
def after (o : Host.Outcome State Fault Refusal) (f : State → Bool) : Bool :=
  match o with
  | .next t => f t
  | _ => false

/-- The worked example of R13: the flash oar of flash channel 17, and the DRAM oar of channel 5. -/
theorem test_master_ids : flsId 17 1 = 0x3441 ∧ ddrId 5 2 = 0x2142 := by decide

/-- The worked example of R182: page 0x1234567 lives in channel 4. -/
theorem test_channel_of_page : channelOfPage ready 0x1234567 = 4 := by decide +kernel

/-- The worked example of R20: from 830 GiB to 16 GiB, 341.6 GiB after 600 ms of decay, 16 GiB after 1,000 ms. -/
theorem test_decay :
    let s := ready.onWeir fun w => { w with state := .decaying, decayFrom := 830 * 2 ^ 30 }
    decayLevel s 600000000 / 2 ^ 20 = 349798 ∧ decayLevel s 1000000000 = 16 * 2 ^ 30 := by decide +kernel

/-- R43: a Mark above HST_EPOCH is the epoch; R44: a Settle above HST_EPOCH sets SETTLE_REJECT. -/
theorem test_mark : after (exec (.hstMark 7) opened) (fun t => t.host.epoch == 7) = true := by decide +kernel
theorem test_settle_reject : after (exec (.hstSettle 1) opened) (fun t => t.host.settleReject) = true := by decide +kernel

/-- R86, R88, R121: a first-write counts one page of residue. -/
theorem test_first_write :
    after (exec (.hostWrite 0 0 7 0 0 false) opened) (fun t => t.pm.residue == 4096 && t.out.resp == [.complete 0 7]) = true := by
  decide +kernel

/-- R28: one forward step of device time that is 1 ms and more behind. -/
theorem test_ptm : after (exec (.ptmResponse 0 3000081) ready) (fun t => t.tb.now == 3000081) = true := by decide +kernel

/-- R134, R137: PWRFAIL_N fences the device; a pulse below 10 ns is no trigger (R133). -/
theorem test_pwrfail : after (exec (.pwrfailNAssert 10) ready) (fun t => t.host.fence && t.save.running) = true := by
  decide +kernel
theorem test_pwrfail_pulse : after (exec (.pwrfailNAssert 9) ready) (fun t => !t.host.fence) = true := by decide +kernel

/-- R239: Stroke holds the seat under 0xA5, and CHP_UMPIRE_STATUS shows it in its low byte. -/
theorem test_seat :
    seatHolder ready = some .stroke ∧ (readReg ready 0xF0000008).extractLsb' 0 8 = 0xA5 := by decide +kernel

end Sys2Proof.Tests
end

section
/-! PROOFS. The doorbells (R43, R44, R46, R69, R106, R159, R460): what closing the newest bucket, marking the covered set and
looking at Sprint again leave of the page map, what HST_MARK and HST_SETTLE answer in each case, and O7. -/

namespace Sys2Proof.Machine

/-! ## Closing the newest bucket (R69) -/

/-- A change of one slot's bucket keeps the age order: the newest bucket stays the newest, changed if the slot is its own. -/
theorem newestBucket_onBucket (slot : Nat) (f : Bucket → Bucket) (s : State) :
    newestBucket (onBucket slot f s) = (newestBucket s).map fun b => if b.slot = slot then f b else b := by
  simp [newestBucket, onBucket]

theorem closeNewest_of_newest {s : State} {b : Bucket} (hb : newestBucket s = some b) :
    closeNewest s = onBucket b.slot (fun x => { x with isOpen := false }) s := by
  simp only [closeNewest, hb]

theorem newestBucket_closeNewest {s : State} {b : Bucket} (hb : newestBucket s = some b) :
    newestBucket (closeNewest s) = some { b with isOpen := false } := by
  simp [closeNewest_of_newest hb, newestBucket_onBucket, hb]

/-! ## What an accepted Settle leaves of the page map (R88, R106) -/

@[simp] theorem onBucket_pages (slot : Nat) (f : Bucket → Bucket) (s : State) :
    (onBucket slot f s).pm.pages = s.pm.pages := rfl
@[simp] theorem onBucket_residue (slot : Nat) (f : Bucket → Bucket) (s : State) :
    (onBucket slot f s).pm.residue = s.pm.residue := rfl

@[simp] theorem coverSet_host (s : State) : (coverSet s).host = s.host := rfl

/-- Closing a bucket, now or once a slot frees, changes no page and not the residue. -/
theorem closeNewest_keepsPages (s : State) :
    (closeNewest s).pm.pages = s.pm.pages ∧ (closeNewest s).pm.residue = s.pm.residue := by
  unfold closeNewest; split <;> simp

theorem closeForSettle_keepsPages (s : State) :
    (closeForSettle s).pm.pages = s.pm.pages ∧ (closeForSettle s).pm.residue = s.pm.residue := by
  unfold closeForSettle
  split
  · split
    · split
      · exact closeNewest_keepsPages s
      · simp
    · simp
  · simp

/-- Starting or stopping Sprint moves neither the buckets nor the pages nor the residue (R97). -/
theorem sprintRun_keepsMap (s : State) : (sprintRun s).pm.buckets = s.pm.buckets ∧
    (sprintRun s).pm.pages = s.pm.pages ∧ (sprintRun s).pm.residue = s.pm.residue := by
  simp only [sprintRun, starvedCheck, State.onLake_pm, State.onPm_pm]
  split
  · simp
  · split <;> simp

theorem sprintCheck_keepsMap (s : State) : (sprintCheck s).pm.buckets = s.pm.buckets ∧
    (sprintCheck s).pm.pages = s.pm.pages ∧ (sprintCheck s).pm.residue = s.pm.residue :=
  sprintRun_keepsMap _

/-- Every bucket whose first host epoch is the target or less is in the set that a Settle covers (R106). -/
theorem covered_of_mem_coverSet {s : State} {x : Bucket} (hx : x ∈ (coverSet s).pm.buckets)
    (he : x.epoch ≤ s.host.target) : x.covered = true := by
  obtain ⟨b, -, rfl⟩ := List.mem_map.mp hx
  simpa using Or.inr he

/-! ## An accepted Settle (R44) -/

/-- `s` with the target of Settle raised to `n` where it stood lower (R44), and the newest bucket closed where `n` names the
epoch that is current (R73). -/
def raiseTarget (n : Nat) (s : State) : State :=
  if n = s.host.epoch then closeForSettle (s.onHost fun h => { h with target := max h.target n })
  else s.onHost fun h => { h with target := max h.target n }

theorem acceptSettle_eq (n : Nat) (s : State) : acceptSettle n s = sprintCheck (coverSet (raiseTarget n s)) := rfl

theorem raiseTarget_host (n : Nat) (s : State) :
    (raiseTarget n s).host = { s.host with target := max s.host.target n } := by
  have hclose : ∀ t : State, (closeForSettle t).host = t.host := fun t =>
    closeForSettle_only (cs := [.pm]) t (List.Subset.refl _) (.refl _ t) .host (by decide)
  unfold raiseTarget
  split
  · rw [hclose, State.onHost_host]
  · rfl

theorem raiseTarget_keepsPages (n : Nat) (s : State) :
    (raiseTarget n s).pm.pages = s.pm.pages ∧ (raiseTarget n s).pm.residue = s.pm.residue := by
  unfold raiseTarget
  split
  · exact closeForSettle_keepsPages _
  · exact ⟨rfl, rfl⟩

theorem acceptSettle_host (n : Nat) (s : State) :
    (acceptSettle n s).host = { s.host with target := max s.host.target n } :=
  calc (acceptSettle n s).host
      _ = (coverSet (raiseTarget n s)).host :=
        sprintCheck_only (cs := [.pm, .lake]) _ (List.Subset.refl _) (.refl _ _) .host (by decide)
      _ = (raiseTarget n s).host := coverSet_host _
      _ = { s.host with target := max s.host.target n } := raiseTarget_host n s

theorem acceptSettle_keepsPages (n : Nat) (s : State) :
    (acceptSettle n s).pm.pages = s.pm.pages ∧ (acceptSettle n s).pm.residue = s.pm.residue := by
  obtain ⟨-, hpages, hresidue⟩ := sprintCheck_keepsMap (coverSet (raiseTarget n s))
  rw [acceptSettle_eq, hpages, hresidue]
  exact raiseTarget_keepsPages n s

theorem acceptSettle_covers {n : Nat} {s : State} {x : Bucket} (hx : x ∈ (acceptSettle n s).pm.buckets)
    (he : x.epoch ≤ (acceptSettle n s).host.target) : x.covered = true := by
  obtain ⟨hbuckets, -, -⟩ := sprintCheck_keepsMap (coverSet (raiseTarget n s))
  rw [acceptSettle_eq, hbuckets] at hx
  rw [acceptSettle_host, ← raiseTarget_host] at he
  exact covered_of_mem_coverSet hx he

/-! ## What HST_MARK and HST_SETTLE answer -/

theorem exec_hstMark (v : Word) (s : State) : exec (.hstMark v) s = execHstMark v s := rfl
theorem exec_hstSettle (n : Word) (s : State) : exec (.hstSettle n) s = execHstSettle n s := rfl

/-- After the fence and in a freeze no doorbell is taken (R46, R460). -/
theorem exec_doorbell_discarded {s : State} (v : Word) (h : fenced s = true ∨ frozen s = true) :
    exec (.hstMark v) s = .next s ∧ exec (.hstSettle v) s = .next s := by
  have hd : (fenced s || frozen s) = true := by simpa using h
  simp [exec_hstMark, exec_hstSettle, execHstMark, execHstSettle, hd]

section taken

variable {s : State} {v : Word} (hfence : fenced s = false) (hfrozen : frozen s = false)
include hfence hfrozen

theorem exec_hstMark_accepted (hserved : notServed s = false) (hv : s.host.epoch < v.toNat) :
    exec (.hstMark v) s = .next (acceptMark v.toNat s) := by
  simp [exec_hstMark, execHstMark, hfence, hfrozen, hserved, hv]

theorem exec_hstMark_rejected (h : notServed s = true ∨ v.toNat ≤ s.host.epoch) :
    exec (.hstMark v) s = .next (rejectMark s) := by
  simp [exec_hstMark, execHstMark, hfence, hfrozen, h]

theorem exec_hstSettle_notServed (hserved : notServed s = true) :
    exec (.hstSettle v) s = .next (rejectSettle s) := by
  simp [exec_hstSettle, execHstSettle, hfence, hfrozen, hserved]

theorem exec_hstSettle_settled (hserved : notServed s = false) (hv : v.toNat ≤ s.host.settled) :
    exec (.hstSettle v) s = .next (vector 3 s) := by
  simp [exec_hstSettle, execHstSettle, hfence, hfrozen, hserved, hv]

theorem exec_hstSettle_beyondEpoch (hserved : notServed s = false) (hv : s.host.settled < v.toNat)
    (he : s.host.epoch < v.toNat) : exec (.hstSettle v) s = .next (rejectSettle s) := by
  simp [exec_hstSettle, execHstSettle, hfence, hfrozen, hserved, hv.not_ge, he]

theorem exec_hstSettle_accepted (hserved : notServed s = false) (hv : s.host.settled < v.toNat)
    (he : v.toNat ≤ s.host.epoch) : exec (.hstSettle v) s = .next (acceptSettle v.toNat s) := by
  simp [exec_hstSettle, execHstSettle, hfence, hfrozen, hserved, hv.not_ge, he.not_gt]

end taken

/-! ## The doorbells (O7) -/

theorem markAdvancesEpoch : MarkAdvancesEpoch := by
  refine ⟨?accepted, ?rejected, ?closed⟩
  case accepted => intro s v hf hz hs hv; exact exec_hstMark_accepted hf hz hs hv
  case rejected => intro s v hf hz hv; exact exec_hstMark_rejected hf hz (.inr hv)
  case closed =>
    intro s b hb _
    exact ⟨newestBucket_closeNewest hb, closeNewest_only s (List.Subset.refl _) (.refl _ s)⟩

theorem settleRaisesTarget : SettleRaisesTarget := by
  refine ⟨?settled, ?beyond, ?accepted⟩
  case settled => intro s n hf hz hs hn; exact exec_hstSettle_settled hf hz hs hn
  case beyond => intro s n hf hz hs hn he; exact exec_hstSettle_beyondEpoch hf hz hs hn he
  case accepted =>
    intro s n hf hz hs hn he
    obtain ⟨hpages, hresidue⟩ := acceptSettle_keepsPages n.toNat s
    exact ⟨acceptSettle n.toNat s, exec_hstSettle_accepted hf hz hs hn he, acceptSettle_host n.toNat s,
      fun _ hx hxe => acceptSettle_covers hx hxe, hpages, hresidue,
      acceptSettle_only n.toNat s (List.Subset.refl _) (.refl _ s)⟩

theorem doorbellsNotTaken : DoorbellsNotTaken := fun _ v =>
  ⟨exec_doorbell_discarded v, fun hf hz hs =>
    ⟨exec_hstMark_rejected hf hz (.inl hs), exec_hstSettle_notServed hf hz hs⟩⟩

/-- Settles O7, from the answers of HST_MARK and HST_SETTLE in each case and the page map that an accepted Settle leaves. -/
theorem doorbellsMoveTheEpochs : Obligations.DoorbellsMoveTheEpochs :=
  ⟨markAdvancesEpoch, settleRaisesTarget, doorbellsNotTaken⟩

end Sys2Proof.Machine
end

section
/-! PROOFS. The end of a Settle (R44, R49, R72, R106, R107): what raising a vector leaves and sends, what the settle completion
sets, and O13. -/

namespace Sys2Proof.Machine

/-! ## The frame carries over what a command's end needs -/

/-- What moves neither the dirty log nor the fault records leaves nothing waiting for the end of the command. -/
theorem calm_of_onlyChanges {cs : List Part} {s t : State} (h : OnlyChanges cs s t) (hlog : Part.log ∉ cs)
    (hfault : Part.fault ∉ cs) (hc : Calm s) : Calm t := by
  obtain ⟨hoverflow, hwaiting⟩ := hc
  have hl : t.log = s.log := h .log hlog
  have hf : t.fault = s.fault := h .fault hfault
  exact ⟨by rw [hl, hoverflow], by rw [hf, hwaiting]⟩

/-- The reports of a command move none of the three host epochs. -/
theorem reported_keepsEpochs {s t : State} (h : Reported s t) : t.host.settled = s.host.settled ∧
    t.host.epoch = s.host.epoch ∧ t.host.target = s.host.target := by
  unfold Reported at h; rw [h]; exact ⟨rfl, rfl, rfl⟩

/-! ## A vector that is not masked is sent (R49) -/

theorem vectorOn_unmasked {h : Fin 2} {v : Fin 8} {s : State} (hm : (headOf s h).msixMask.getLsbD v.val = false) :
    vectorOn h v s = s.onOut fun o => { o with msix := (h.val, v.val) :: o.msix } :=
  if_neg (ne_true_of_eq_false hm)

/-- A vector on one head withdraws no vector that was sent before. -/
theorem msix_subset_vectorOn (h : Fin 2) (v : Fin 8) (s : State) : s.out.msix ⊆ (vectorOn h v s).out.msix := by
  unfold vectorOn
  split
  · exact List.Subset.refl _
  · exact List.subset_cons_self _ _

theorem mem_msix_vector {v : Fin 8} {s : State} (hm : (headOf s 0).msixMask.getLsbD v.val = false) :
    (0, v.val) ∈ (vector v s).out.msix := by
  have hsent : (0, v.val) ∈ (vectorOn 0 v s).out.msix := by simp [vectorOn_unmasked hm]
  unfold vector
  dsimp only
  split
  · exact msix_subset_vectorOn 1 v _ hsent
  · exact hsent

/-! ## The settle completion (R44, R107) -/

/-- `s` with HST_SETTLED at the target of Settle, and vector 3 raised for it (R44). -/
def raiseSettled (s : State) : State := vector 3 (s.onHost fun h => { h with settled := h.target })

/-- `s` with no bucket covered by a Settle (R106). -/
def uncover (s : State) : State :=
  s.onPm fun p => { p with buckets := p.buckets.map fun b => { b with covered := false } }

theorem completeSettle_eq (s : State) : completeSettle s = sprintCheck (uncover (raiseSettled s)) := rfl

theorem raiseSettled_only (s : State) : OnlyChanges [.host, .out] s (raiseSettled s) :=
  vector_only 3 _ (List.Subset.refl _) (State.onHost_only _ s (by decide) (.refl _ s))

/-- What the completion does after vector 3 stays inside the page map and the Lakebed. -/
theorem completeSettle_after_raiseSettled (s : State) : OnlyChanges [.pm, .lake] (raiseSettled s) (completeSettle s) :=
  sprintCheck_only _ (List.Subset.refl _) (State.onPm_only _ _ (by decide) (.refl _ _))

theorem completeSettle_epochs (s : State) : (completeSettle s).host.settled = s.host.target ∧
    (completeSettle s).host.epoch = s.host.epoch ∧ (completeSettle s).host.target = s.host.target := by
  have hhost : (completeSettle s).host = (raiseSettled s).host := completeSettle_after_raiseSettled s .host (by decide)
  rw [hhost]
  exact reported_keepsEpochs (vector_reported 3 (s.onHost fun h => { h with settled := h.target }))

theorem completeSettle_sends {s : State} (hm : (headOf s 0).msixMask.getLsbD 3 = false) :
    (0, 3) ∈ (completeSettle s).out.msix := by
  have hout : (completeSettle s).out = (raiseSettled s).out := completeSettle_after_raiseSettled s .out (by decide)
  rw [hout]
  exact mem_msix_vector (v := 3) hm

/-- The completion empties the covered set, and moves no page and not the residue (R88, R106). -/
theorem completeSettle_map (s : State) : (∀ b ∈ (completeSettle s).pm.buckets, b.covered = false) ∧
    (completeSettle s).pm.pages = s.pm.pages ∧ (completeSettle s).pm.residue = s.pm.residue := by
  obtain ⟨hbuckets, hpages, hresidue⟩ := sprintCheck_keepsMap (uncover (raiseSettled s))
  have hpm : (raiseSettled s).pm = s.pm := raiseSettled_only s .pm (by decide)
  rw [completeSettle_eq, hbuckets, hpages, hresidue]
  simp [uncover, hpm]

/-! ## The SETTLED commit (R107, R161) -/

/-- A sound ledger takes a SETTLED commit with PWR_TIME, and nothing else moves. -/
theorem commit_settled {s : State} (n : Nat) (hsound : s.ledger.failed = false) :
    commit (.settled n) s =
      s.onLedger fun l => { l with commits := { time := s.tb.now, commit := .settled n } :: l.commits } := by
  simp [commit, Commit.isCheckpoint, hsound]

theorem settleOp_eq {s : State} (hsound : s.ledger.failed = false) :
    settleOp s = completeSettle (s.onLedger fun l =>
      { l with commits := { time := s.tb.now, commit := .settled s.host.target } :: l.commits }) := by
  rw [settleOp, commit_settled _ hsound]

section sound

variable {s : State} (hsound : s.ledger.failed = false)
include hsound

theorem settleOp_onlyChanges : OnlyChanges [.host, .ledger, .pm, .lake, .out] s (settleOp s) := by
  rw [settleOp_eq hsound]
  exact completeSettle_only _ (by decide) (State.onLedger_only _ s (by decide) (.refl _ s))

theorem settleOp_epochs : (settleOp s).host.settled = s.host.target ∧
    (settleOp s).host.epoch = s.host.epoch ∧ (settleOp s).host.target = s.host.target := by
  rw [settleOp_eq hsound]; exact completeSettle_epochs _

theorem settleOp_ledger : (settleOp s).ledger =
    { s.ledger with commits := { time := s.tb.now, commit := .settled s.host.target } :: s.ledger.commits } := by
  rw [settleOp_eq hsound]
  exact completeSettle_only (cs := [.host, .pm, .lake, .out]) _ (List.Subset.refl _) (.refl _ _) .ledger (by decide)

theorem settleOp_map : (∀ b ∈ (settleOp s).pm.buckets, b.covered = false) ∧
    (settleOp s).pm.pages = s.pm.pages ∧ (settleOp s).pm.residue = s.pm.residue := by
  rw [settleOp_eq hsound]; exact completeSettle_map _

theorem settleOp_sends (hm : (headOf s 0).msixMask.getLsbD 3 = false) : (0, 3) ∈ (settleOp s).out.msix := by
  rw [settleOp_eq hsound]; exact completeSettle_sends hm

end sound

/-! ## What SETTLED answers (O13) -/

theorem exec_settled (s : State) : exec .settled s = execSettled s := rfl

theorem exec_settled_ready {s : State} (hready : settleReady s = true) (hmap : mapStopped s = false)
    (hmember : anyMember s = true) : exec .settled s = finish (settleOp s) := by
  simp [exec_settled, execSettled, hready, hmap, hmember]

theorem exec_settled_notReady {s : State} (hready : settleReady s = false) : exec .settled s = .next s := by
  simp [exec_settled, execSettled, hready]

/-- Settles O13: the command's state is that of the commit and its completion, and the end of the command moves the bus alone. -/
theorem settledFollowsEmptySet : Obligations.SettledFollowsEmptySet := by
  refine ⟨?ready, fun _ hready => exec_settled_notReady hready⟩
  case ready =>
    intro s hready hmap hmember hsound hcalm
    have honly : OnlyChanges [.host, .ledger, .pm, .lake, .out] s (settleOp s) := settleOp_onlyChanges hsound
    obtain ⟨t, hfinish, hnoticed⟩ := finish_noticed (calm_of_onlyChanges honly (by decide) (by decide) hcalm)
    have hhost : t.host = (settleOp s).host := hnoticed.only .host (by decide)
    have hledger : t.ledger = (settleOp s).ledger := hnoticed.only .ledger (by decide)
    have hpm : t.pm = (settleOp s).pm := hnoticed.only .pm (by decide)
    have hout : t.out = (settleOp s).out := hnoticed.only .out (by decide)
    obtain ⟨hsettled, hepoch, htarget⟩ := settleOp_epochs hsound
    obtain ⟨hcovered, hpages, hresidue⟩ := settleOp_map hsound
    refine ⟨t, (exec_settled_ready hready hmap hmember).trans hfinish, ?_⟩
    simp only [hhost, hledger, hpm, hout]
    exact ⟨hsettled, hepoch, htarget, settleOp_ledger hsound, hcovered, hpages, hresidue, settleOp_sends hsound,
      (honly.mono (by decide)).trans (hnoticed.only.mono (by decide))⟩

end Sys2Proof.Machine
end

section
/-! PROOFS. The Weir level of R110 and R111: what the rounding down to pages leaves of the bound less the margin, and which
string `weaker` takes. -/

namespace Sys2Proof.Machine

/-! ## The rounding of a level (R110) -/

/-- A level is the bound less the margin, counted in whole pages. -/
theorem levelOf_eq_floor (m : Rat) (marginPct : Nat) :
    levelOf m marginPct = ⌊m * (1 - (marginPct : Rat) / 100) / 4096⌋₊ * 4096 := by
  have hpages : ⌊m * (1 - (marginPct : Rat) / 100) / 4096⌋₊ = ⌊m * (1 - (marginPct : Rat) / 100)⌋₊ / 4096 :=
    Nat.floor_div_natCast _ 4096
  rw [hpages]
  rfl

theorem levelOf_mod_page (m : Rat) (marginPct : Nat) : levelOf m marginPct % 4096 = 0 := Nat.mul_mod_left _ _

/-- A bound that is not negative stays so under a margin of at most 100 percent. -/
theorem lessMargin_nonneg {m : Rat} {marginPct : Nat} (hm : 0 ≤ m) (hpct : marginPct ≤ 100) :
    0 ≤ m * (1 - (marginPct : Rat) / 100) := by
  have hpctRat : (marginPct : Rat) ≤ 100 := by exact_mod_cast hpct
  exact mul_nonneg hm (by linarith)

theorem levelOf_le {m : Rat} {marginPct : Nat} (hm : 0 ≤ m) (hpct : marginPct ≤ 100) :
    (levelOf m marginPct : Rat) ≤ m * (1 - (marginPct : Rat) / 100) := by
  have hfloor := Nat.floor_le (div_nonneg (lessMargin_nonneg hm hpct) (by norm_num : (0 : Rat) ≤ 4096))
  rw [levelOf_eq_floor]
  push_cast
  linarith

theorem lt_levelOf_add_page (m : Rat) (marginPct : Nat) :
    m * (1 - (marginPct : Rat) / 100) < (levelOf m marginPct : Rat) + 4096 := by
  have hfloor := Nat.lt_floor_add_one (m * (1 - (marginPct : Rat) / 100) / 4096)
  rw [levelOf_eq_floor]
  push_cast
  linarith

/-! ## The weaker counted string (R111) -/

/-- What `weaker` takes: the bounds of a counted string, no more than those of the other string where that one is counted. -/
theorem weaker_cases {s : State} {x : Str} {b : StrBounds} (h : weaker s = some (x, b)) :
    ∃ d, s.bat.desc = some d ∧ isCounted s x = true ∧ b = strBounds s d x ∧
      (isCounted s x.other = true → b.least ≤ (strBounds s d x.other).least) := by
  unfold weaker at h
  split at h
  case h_1 => cases h
  case h_2 d hd =>
    refine ⟨d, hd, ?_⟩
    split at h
    case isTrue ha =>
      split at h
      case isTrue hb =>
        dsimp only at h
        split at h
        case isTrue hlt => cases h; exact ⟨hb, rfl, fun _ => hlt.le⟩
        case isFalse hge => cases h; exact ⟨ha, rfl, fun _ => not_lt.mp hge⟩
      case isFalse hb => cases h; exact ⟨ha, rfl, fun hother => absurd hother hb⟩
    case isFalse ha =>
      split at h
      case isTrue hb => cases h; exact ⟨hb, rfl, fun hother => absurd hother ha⟩
      case isFalse => cases h

theorem weaker_isCounted {s : State} {x : Str} {b : StrBounds} (h : weaker s = some (x, b)) : isCounted s x = true := by
  obtain ⟨_, _, hx, _⟩ := weaker_cases h
  exact hx

theorem eq_or_eq_other (x y : Str) : y = x ∨ y = x.other := by cases x <;> cases y <;> decide

theorem weaker_least_le {s : State} {x : Str} {b : StrBounds} {d : PackDescriptor} (h : weaker s = some (x, b))
    (hd : s.bat.desc = some d) {y : Str} (hy : isCounted s y = true) : b.least ≤ (strBounds s d y).least := by
  obtain ⟨d', hd', _, hb, hother⟩ := weaker_cases h
  obtain rfl : d' = d := Option.some.inj (hd'.symm.trans hd)
  rcases eq_or_eq_other x y with rfl | rfl
  · rw [hb]
  · exact hother hy

/-- Without a counted string there is no weaker one, whatever the pack descriptor is. -/
theorem weaker_none_of_noneCounted {s : State} (h : anyCounted s = false) : weaker s = none := by
  obtain ⟨ha, hb⟩ : isCounted s .a = false ∧ isCounted s .b = false := Bool.or_eq_false_iff.mp h
  unfold weaker
  split <;> simp [ha, hb]

/-! ## The level that 0x2004 shows (O11) -/

theorem boundsNow_level_of_weaker {s : State} {x : Str} {b : StrBounds} (h : weaker s = some (x, b)) :
    (boundsNow s).level = levelOf (leastBound s b) s.od.set.margin := by
  simp [boundsNow, h, levelFrom, leastBound]

theorem boundsNow_level_of_noneCounted {s : State} (h : anyCounted s = false) : (boundsNow s).level = 0 := by
  simp [boundsNow, weaker_none_of_noneCounted h]

/-- Settles O11: the level shown is the least bound less the margin in whole pages, and the string taken gives the least. -/
theorem levelIsLeastBoundLessMargin : Obligations.LevelIsLeastBoundLessMargin := by
  refine ⟨?rounding, ?weakest, fun s hnone => boundsNow_level_of_noneCounted hnone⟩
  case rounding =>
    intro s x b hweaker hbound hmargin
    rw [boundsNow_level_of_weaker hweaker]
    exact ⟨levelOf_mod_page _ _, levelOf_le hbound hmargin, lt_levelOf_add_page _ _⟩
  case weakest =>
    intro s x b hweaker
    exact ⟨weaker_isCounted hweaker, fun y d hy hd => weaker_least_le hweaker hd hy⟩

end Sys2Proof.Machine
end

section
/-! PROOFS. What no step does to the tables, the lasting numbers and PWR_TIME (R28, R333, R401, R415; log 2, log 3): `Held`
over every command and over the tick, O59 and O60. -/

namespace Sys2Proof.Machine

/-! ## Every command -/

/-- Every command but the two that set PWR_TIME holds what `Held` names. -/
theorem exec_held {i : Instr} {s : State} (h : Tables s) (hloss : i ≠ .vddAonLoss) (hptm : ∀ head n, i ≠ .ptmResponse head n) :
    HeldO s (exec i s) := by
  cases i
  case vddAonLoss => exact absurd rfl hloss
  case ptmResponse => exact absurd rfl (hptm _ _)
  all_goals
    dsimp only [exec]
    simp only [held_refl h,
      execAlertResponse_held, execArbitrationBackoffEnd_held, execArbitrationLoss_held, execAuxReady_held,
      execBackupLockLoss_held, execBasinErased_held, execBasinExchangeTimer_held, execBasinOverlayDone_held,
      execBlockEraseDone_held, execBlockReset_held, execBlockResetDone_held, execBoardProfileRead_held,
      execBoardProfileRetry_held, execBoathouseCommit_held, execBucketDone_held, execBusCall_held,
      execBusCallServiceTimeout_held, execBusError_held, execCatchGlitch_held, execCatchPulseEnd_held,
      execCatchResync_held, execCatchRisingEdge_held, execCatchupDone_held, execChannelIsolated_held,
      execChargeRestart_held, execChargerEntryRetry_held, execCheckpoint_held, execCheckpointTimer_held,
      execChpFaultAck_held, execCleanShutdownDrained_held, execClearPoison_held, execCompleteDrain_held,
      execConditionClear_held, execConversionDone_held, execCoreVoltageStep_held, execCoxswainWeirRecompute_held,
      execCrewLoadDone_held, execCrewRejoinTimer_held, execCrewResetRequest_held, execCrewsSilentTimeout_held,
      execCursor_held, execCxlReset_held, execDdrAlert_held, execDemandFetchDone_held, execDieRetire_held,
      execDieRetireWalkDone_held, execDirtyLogChunkMove_held, execDqsTracking_held, execDramOarReload_held,
      execDramTemperatureRead_held, execEarlyOpenPoint_held, execEmptySetSaveTimeout_held, execErgometerMeasure_held,
      execFailDrain_held, execFailedBoot_held, execFallTimeout_held, execFallbackWaitTimeout_held,
      execFaultReport_held, execFlashChannelReset_held, execFlashOarCommand_held, execFlashOarReload_held,
      execFlashOpComplete_held, execFlashPatrol_held, execFlashResetDone_held, execFlr_held, execForcedRestDue_held,
      execForcedRestFail_held, execFreezeEnterRequest_held, execFreezeResumeRequest_held, execFrzScan_held,
      execFrzSelect_held, execFullFlag_held, execGaugeRecordWrite_held, execGaugeSample_held,
      execGetAlertConfiguration_held, execGetEndpointId_held, execGetEndpointUuid_held, execGetFwInfo_held,
      execGetHealthInfo_held, execGetMctpVersionSupport_held, execGetMessageTypeSupport_held, execGetPoisonList_held,
      execGetScanMediaCapabilities_held, execGetShutdownState_held, execGetVendorDefinedMessageSupport_held,
      execGpfDrainDone_held, execGpfPhase1_held, execGpfPhase2_held, execGraceExpiry_held,
      execHalvingHoldOffEnd_held, execHangRecovery_held, execHealthSecond_held, execHeldWriteAdmit_held,
      execHoldLimitExpiry_held, execHoldwaterNAssert_held, execHoldwaterNDeassert_held, execHostRead_held,
      execHostRegionReady_held, execHostWrite_held, execHstMark_held, execHstSettle_held,
      execIdentifyMemoryDevice_held, execInjectPoison_held, execInsertionRest_held, execJtagBypass_held,
      execJtagExtest_held, execJtagFreeze_held, execJtagIdcode_held, execJtagResume_held, execJtagSamplePreload_held,
      execJtagStatus_held, execJunctionTemperature_held, execLakebedFillDone_held, execLakebedRepairDone_held,
      execLandingCopy_held, execLaneStaggerExpiry_held, execLatchClear_held, execLdpcEngineFault_held,
      execLearnDue_held, execLearnNoCurrent_held, execLearningRequest_held, execLedgerAccessRead_held,
      execLedgerAccessWrite_held, execLedgerCommit_held, execLedgerHoldTimeout_held, execLedgerTest_held,
      execLinkReset_held, execLocalTemperatureRead_held, execLogCompactionDone_held, execMainPowerAbsentTimeout_held,
      execMapLineRebuild_held, execMapSaved_held, execMapWalkBatch_held, execMapWalkRequest_held,
      execMappingEntryError_held, execMarkDraining_held, execMctpAssemblyGap_held, execMctpPacket_held,
      execMemoryReady_held, execMinimumDarkTime_held, execOdAcknowledge_held, execOdEnumerate_held, execOdRead_held,
      execOdSessionIdle_held, execOdWrite_held, execOffCommand_held, execOnCommand_held,
      execPackChangeDeclaration_held, execPackidRead_held, execPairingTimeout_held, execPatrolScrub_held,
      execPerstNAssert_held, execPerstNDeassert_held, execPlanRequest_held, execPlanTrigger_held,
      execPowerDownCommand_held, execPwrChgCtrlWrite_held, execPwrfailNAssert_held, execRailEvalResume_held,
      execRailFallen_held, execRailFault_held, execRailOffDelay_held, execRailOnDelay_held, execRailRisen_held,
      execRailWarning_held, execRampSlackCheck_held, execRasStatusClear_held, execRecountDone_held,
      execRefclkDetect_held, execRefclkLoss_held, execRefclkReturn_held, execRefreshTick_held, execRegisterRead_held,
      execRegisterWrite_held, execRepairReadTimeout_held, execResetShadowEnd_held, execResetStretchEnd_held,
      execRestQualified_held, execRestoreBegin_held, execRestoreInterrupted_held, execRestoreMetadataLoaded_held,
      execRestoreModeWrite_held, execRestoreStarted_held, execRestored_held, execRhoDriftDay_held,
      execRiseTimeout_held, execRootRelock_held, execRootsSaved_held, execRootsUnlockedTimeout_held,
      execSDieRecompute_held, execSagDetect_held, execSanitize_held, execSanitized_held, execSaveCutoff_held,
      execSaveDrainDone_held, execSaveRelease_held, execSaveRequest_held, execSaveStarted_held,
      execSaveTimeLimit_held, execSaved_held, execScanMedia_held, execScanMediaDone_held, execSeatRequest_held,
      execSeatTokenCorrupt_held, execSecureErase_held, execSetAlertConfiguration_held, execSetCertificate_held,
      execSetEndpointId_held, execSetShutdownState_held, execSettingsCompactionDone_held,
      execSettingsWorkingCopyWritten_held, execSettled_held, execShadowClean_held, execShutdownClean_held,
      execSpdmRequest_held, execSpringPllLockLoss_held, execStagedRecord_held, execStateCompleteNoRail_held,
      execStatusRead_held, execStepLimitWait_held, execStrapSample_held, execStretchAbort_held,
      execStringStateSetting_held, execTargetTimeout_held, execThermistorOpen_held, execThermistorPresent_held,
      execTimerTick_held, execTrainingDone_held, execTrialCommit_held, execTrialExpiry_held, execTrialTimeWrite_held,
      execTrstNAssert_held, execUpdateAbort_held, execUpdateBlock_held, execUpdateCommit_held,
      execUpdateHandover_held, execUpdateOpen_held, execUpdateSessionIdle_held, execUpdateVerifyDone_held,
      execVddAonValid_held, execVinSenseFall_held, execVinSenseRise_held, execViral_held, execWaterlineExport_held,
      execWaterlineRead_held, execWaterlineRecord_held, execWeirDecayFloor_held, execWeirDecayStart_held,
      execWeirFloorSet_held, execWeirPublish_held, execWeirRecompute_held, execXtsEngineFault_held,
      execZqCalibration_held]

/-! ## The two commands that set PWR_TIME -/

/-- What `Held` says but for PWR_TIME. -/
structure Kept (r s : State) : Prop where
  cfg : s.cfg = r.cfg
  pending : s.pending = r.pending
  sec : r.upd.minSecurity ≤ s.upd.minSecurity
  secL : r.ledger.minSecurity ≤ s.ledger.minSecurity
  reserved : r.wl.reserved ≤ s.wl.reserved
  tables : Tables s

theorem Held.kept {r s : State} (h : Held r s) : Kept r s :=
  ⟨h.cfg, h.pending, h.sec, h.secL, h.reserved, h.tables⟩

/-- A change of the time base alone keeps what `Kept` names. -/
theorem kept_onTb {s : State} (h : Tables s) (f : TimeBase → TimeBase) : Kept s (s.onTb f) :=
  ⟨rfl, rfl, le_rfl, le_rfl, le_rfl, tables_same h rfl rfl rfl rfl⟩

theorem Held.kept_of_kept {r s t : State} (hk : Kept r s) (h : Held s t) : Kept r t :=
  ⟨h.cfg.trans hk.cfg, h.pending.trans hk.pending, hk.sec.trans h.sec, hk.secL.trans h.secL, hk.reserved.trans h.reserved,
    h.tables⟩

/-- The loss of VDD_AON keeps what serial memory and the ledger keep, and empties the ring (R323, R486). -/
theorem execVddAonLoss_kept {s t : State} (h : Tables s) (ht : execVddAonLoss s = .next t) : Kept s t := by
  unfold execVddAonLoss at ht
  split at ht
  case isTrue => cases ht; exact (held_refl h).kept
  case isFalse =>
    have hoff : Held s (regionsOff s) := regionsOff_held s (held_refl h)
    cases ht
    exact ⟨hoff.cfg, hoff.pending, hoff.sec, hoff.secL, hoff.reserved,
      { bytes := hoff.tables.bytes, poison := hoff.tables.poison, pages := hoff.tables.pages, recs := hoff.tables.recs
        log := hoff.tables.log, ring := Nat.zero_le _ }⟩

/-- PTM sets the time base alone, and only steps it forward (R28). -/
theorem execPtmResponse_cases {head : Fin 2} {n : Word} {s t : State} (ht : execPtmResponse head n s = .next t) :
    ∃ f : TimeBase → TimeBase, t = s.onTb f ∧ s.tb.now ≤ (f s.tb).now := by
  unfold execPtmResponse at ht
  split at ht
  case isTrue => cases ht; exact ⟨id, rfl, le_rfl⟩
  case isFalse =>
    cases ht
    refine ⟨_, rfl, ?_⟩
    dsimp only
    split
    case isTrue hbehind => simp only [slewLimit, nsPerMs] at hbehind; omega
    case isFalse => exact le_rfl

/-- Every command keeps the configuration, the queue, the lasting numbers and the form of the tables. -/
theorem exec_kept {i : Instr} {s t : State} (h : Tables s) (ht : exec i s = .next t) : Kept s t := by
  by_cases hloss : i = .vddAonLoss
  · subst hloss; exact execVddAonLoss_kept h ht
  · by_cases hptm : ∃ head n, i = .ptmResponse head n
    · obtain ⟨head, n, rfl⟩ := hptm
      obtain ⟨f, rfl, -⟩ := execPtmResponse_cases ht
      exact kept_onTb h f
    · exact (exec_held h hloss (fun head n hi => hptm ⟨head, n, hi⟩) t ht).kept

/-! ## The tick -/

/-- A tick moves the time base alone, and forward by no more than 40 ns while PWR_TIME does not wrap (R28). -/
theorem tick_cases (s : State) : ∃ f : TimeBase → TimeBase, tick s = s.onTb f ∧
    (s.tb.now + 40 < 2 ^ 64 → s.tb.now ≤ (f s.tb).now ∧ (f s.tb).now ≤ s.tb.now + 40) := by
  have hstep : ∀ k, k ≤ 40 → s.tb.now + 40 < 2 ^ 64 →
      s.tb.now ≤ (s.tb.now + k) % 2 ^ 64 ∧ (s.tb.now + k) % 2 ^ 64 ≤ s.tb.now + 40 := fun k hk hb => by
    rw [Nat.mod_eq_of_lt (by omega)]; omega
  unfold tick
  split
  · exact ⟨id, rfl, fun _ => ⟨le_rfl, Nat.le_add_right _ _⟩⟩
  · split
    · exact ⟨_, rfl, hstep 40 (by decide)⟩
    · split
      · exact ⟨_, rfl, hstep 9 (by decide)⟩
      · split
        · exact ⟨_, rfl, hstep 11 (by decide)⟩
        · exact ⟨_, rfl, hstep 10 (by decide)⟩

/-- What a step on an empty queue does after its tick keeps PWR_TIME too. -/
theorem idleStep_held_tick {s : State} (h : Tables s) : Held (tick s) (idleStep s) := by
  obtain ⟨f, hf, -⟩ := tick_cases s
  exact idleStep_held s (held_refl (hf ▸ (kept_onTb h f).tables))

theorem idleStep_kept {s : State} (h : Tables s) : Kept s (idleStep s) := by
  obtain ⟨f, hf, -⟩ := tick_cases s
  exact (idleStep_held_tick h).kept_of_kept (hf ▸ kept_onTb h f)

/-! ## Every step (O59, O60) -/

/-- A step keeps the lasting numbers, the configuration and the tables; only the queue it takes its command from is shorter. -/
theorem step_kept {s t : State} (h : Tables s) (ht : step s = .next t) : Kept { s with pending := t.pending } t := by
  unfold step at ht
  split at ht
  case h_1 =>
    cases ht
    have hk := idleStep_kept h
    exact ⟨hk.cfg, rfl, hk.sec, hk.secL, hk.reserved, hk.tables⟩
  case h_2 c rest _ =>
    have hrest : Tables { s with pending := rest } := tables_same h rfl rfl rfl rfl
    have hk := exec_kept hrest ht
    exact ⟨hk.cfg, rfl, hk.sec, hk.secL, hk.reserved, hk.tables⟩

/-- Settles O59: `Kept` over every command and over the tick, which between them are every step. -/
theorem everyStepKeepsTables : Obligations.EveryStepKeepsTables := fun _ _ h ht => (step_kept h ht).tables

/-- Settles O60: `Kept` and `Held` over every command, PTM's forward step, and the tick's bounds. -/
theorem lastingNumbersNeverFall : Obligations.LastingNumbersNeverFall := by
  refine ⟨?numbers, fun _ _ _ h ht => (exec_kept h ht).pending, ?time, ?tick⟩
  case numbers =>
    intro s t h ht
    have hk := step_kept h ht
    exact ⟨hk.sec, hk.secL, hk.reserved, hk.cfg⟩
  case time =>
    intro i s t h hloss ht
    have hstays : (∀ head n, i ≠ .ptmResponse head n) → t.tb.now = s.tb.now := fun hptm =>
      (exec_held h hloss hptm t ht).now
    refine ⟨?_, hstays⟩
    by_cases hptm : ∃ head n, i = .ptmResponse head n
    · obtain ⟨head, n, rfl⟩ := hptm
      obtain ⟨f, rfl, hforward⟩ := execPtmResponse_cases ht
      exact hforward
    · exact (hstays fun head n hi => hptm ⟨head, n, hi⟩).ge
  case tick =>
    intro s t h hempty hbound ht
    have hidle : t = idleStep s := by simpa [step, hempty] using ht.symm
    obtain ⟨f, hf, hbounds⟩ := tick_cases s
    rw [hidle, (idleStep_held_tick h).now, hf]
    exact hbounds hbound

end Sys2Proof.Machine
end

section
/-! PROOFS. What the proofs about single commands share: how a command's end is carried to its `Gives`, what `Noticed` and
`Reported` leave in place, and what the sparse tables and the write buffer's list read after a write. -/

namespace Sys2Proof

open Sys2Proof.Machine

/-! ## From a command's outcome to `Gives` -/

theorem gives_next {i : Instr} {s t : State} {P : State → Prop} (h : exec i s = .next t) (hp : P t) : Gives i s P :=
  ⟨t, h, hp⟩

/-- A command that ends in `finish` with nothing waiting gives all that holds of every state its end may leave. -/
theorem gives_finish {i : Instr} {s u : State} {P : State → Prop} (h : exec i s = finish u) (hc : Calm u)
    (hp : ∀ t, Noticed u t → P t) : Gives i s P := by
  obtain ⟨t, ht, hn⟩ := finish_noticed hc
  exact ⟨t, h.trans ht, hp t hn⟩

theorem gives_noticed {i : Instr} {s u : State} (h : exec i s = finish u) (hc : Calm u) : Gives i s (Noticed u) :=
  gives_finish h hc fun _ hn => hn

/-- The end of a command moves the bus part alone. -/
theorem Noticed.eq_onBus {s t : State} (h : Noticed s t) : ∃ b, t = s.onBus fun _ => b := ⟨_, h⟩

/-- What a command leaves outside some parts stands at its end too, with the bus part among them. -/
theorem Noticed.onlyChanges {cs : List Part} {r s t : State} (h : Noticed s t) (hbus : Part.bus ∈ cs)
    (hs : OnlyChanges cs r s) : OnlyChanges cs r t :=
  hs.trans (h.only.mono (List.cons_subset.mpr ⟨hbus, List.nil_subset _⟩))

/-- Nothing waits in a state whose log did not overflow further and whose fault part is the same. -/
theorem calm_of_eq {s t : State} (hc : Calm s) (hlog : t.log = s.log) (hfault : t.fault = s.fault) : Calm t := by
  unfold Calm at *; rw [hlog, hfault]; exact hc

/-! ## What a record of the Waterline leaves -/

theorem Reported.onlyChanges {cs : List Part} {r s t : State} (h : Reported s t)
    (hparts : [.free, .wl, .cxl, .host, .out, .bus] ⊆ cs) (hs : OnlyChanges cs r s) : OnlyChanges cs r t :=
  hs.trans (h.only.mono hparts)

theorem Reported.resp {s t : State} (h : Reported s t) : t.out.resp = s.out.resp := by
  unfold Reported at h; rw [h]; rfl

/-- Of the heads a record moves the pending vectors alone. -/
theorem Reported.host {s t : State} (h : Reported s t) : ∃ p0 p1, t.host = { s.host with
    head0 := { s.host.head0 with msixPending := p0 }, head1 := { s.host.head1 with msixPending := p1 } } :=
  ⟨t.host.head0.msixPending, t.host.head1.msixPending, by unfold Reported at h; rw [h]; rfl⟩

theorem Reported.of_noticed {r s t : State} (h : Reported r s) (hn : Noticed s t) : Reported r t := h.trans hn.reported

/-! ## Tables -/

namespace Machine

theorem tabGet_tabSet_self {α : Type} [DecidableEq α] {d v : α} (k : Nat) (hv : v ≠ d) :
    ∀ t : List (Nat × α), tabGet d k (tabSet d k v t) = v
  | [] => by simp [tabSet, tabGet, hv]
  | (k', v') :: t => by
    unfold tabSet
    split
    · simp [tabGet]
    · split
      · simp [tabGet]
      · simp_all [tabGet, tabGet_tabSet_self k hv t]

theorem tabGet_tabSet_ne {α : Type} [DecidableEq α] {d v : α} {k j : Nat} (hv : v ≠ d) (hj : j ≠ k) :
    ∀ t : List (Nat × α), tabGet d j (tabSet d k v t) = tabGet d j t
  | [] => by simp [tabSet, tabGet, hv, hj]
  | (k', v') :: t => by
    have ih := tabGet_tabSet_ne hv hj t
    unfold tabSet
    split
    case isTrue hk =>
      simp only [if_false, tabGet, hj]
      split
      case isTrue => rw [if_pos (by omega)]
      case isFalse => rfl
    case isFalse =>
      split
      case isTrue hk => subst hk; simp [tabGet, hj]
      case isFalse => simp [tabGet, ih]

/-! ## The first entry of a list that satisfies a predicate -/

theorem firstIdx_none {p : WEntry → Bool} : ∀ {l : List WEntry} (k : Nat), (∀ x ∈ l, p x = false) → firstIdx p l k = none
  | [], _, _ => rfl
  | x :: t, k, h => by
    simp only [firstIdx, h x List.mem_cons_self, Bool.false_eq_true, if_false]
    exact firstIdx_none (k + 1) fun y hy => h y (List.mem_cons_of_mem x hy)

theorem firstIdx_of_only {p : WEntry → Bool} {e : WEntry} (hp : p e = true) (l : List WEntry) (i k : Nat)
    (hi : l[i]? = some e) (hbefore : ∀ j x, l[j]? = some x → j < i → p x = false) : firstIdx p l k = some (k + i, e) := by
  induction l generalizing i k with
  | nil => simp at hi
  | cons x t ih =>
    cases i with
    | zero => simp only [List.getElem?_cons_zero, Option.some.injEq] at hi; simp [firstIdx, hi, hp]
    | succ i =>
      have hx : p x = false := hbefore 0 x rfl (Nat.succ_pos i)
      have ht := ih i (k + 1) (by simpa using hi) fun j y hy hj => hbefore (j + 1) y (by simpa using hy) (by omega)
      simp only [firstIdx, hx, Bool.false_eq_true, if_false, ht, Option.some.injEq, Prod.mk.injEq, and_true]
      omega

/-! ## One element of a list changed -/

theorem length_listUpd {α : Type} (f : α → α) : ∀ (n : Nat) (l : List α), (listUpd n f l).length = l.length
  | _, [] => by simp [listUpd]
  | 0, _ :: _ => by simp [listUpd]
  | n + 1, _ :: t => by simp [listUpd, length_listUpd f n t]

theorem getElem?_listUpd {α : Type} (f : α → α) : ∀ (n j : Nat) (l : List α),
    (listUpd n f l)[j]? = if j = n then l[j]?.map f else l[j]?
  | _, _, [] => by simp [listUpd]
  | 0, 0, _ :: _ => by simp [listUpd]
  | 0, j + 1, _ :: _ => by simp [listUpd]
  | n + 1, 0, _ :: _ => by simp [listUpd]
  | n + 1, j + 1, _ :: t => by simp [listUpd, getElem?_listUpd f n j t]

theorem listUpd_append_length {α : Type} (f : α → α) (x : α) : ∀ l : List α, listUpd l.length f (l ++ [x]) = l ++ [f x]
  | [] => rfl
  | y :: t => by simp [listUpd, listUpd_append_length f x t]

theorem mem_listUpd {α : Type} {f : α → α} {n : Nat} {l : List α} {x : α} (h : x ∈ listUpd n f l) :
    x ∈ l ∨ ∃ y, l[n]? = some y ∧ x = f y := by
  obtain ⟨j, hj⟩ := List.mem_iff_getElem?.mp h
  rw [getElem?_listUpd] at hj
  split at hj
  case isTrue hjn =>
    obtain ⟨y, hy, rfl⟩ := Option.map_eq_some_iff.mp hj
    exact .inr ⟨y, hjn ▸ hy, rfl⟩
  case isFalse => exact .inl (List.mem_iff_getElem?.mpr ⟨j, hj⟩)

end Machine

end Sys2Proof
end

section
/-! PROOFS. The first fault of a unit (R257, R260, R272): what its capture record holds, what every other record keeps, and what
a C-class one moves beside it. -/

namespace Sys2Proof.Machine

/-! ## Capture records -/

theorem capture_of_fault {s t : State} (h : t.fault = s.fault) (m : MasterId) : capture t m = capture s m := by
  unfold capture; rw [h]

theorem capture_setCapture_self {m : MasterId} {c : Capture} (s : State) (hc : c ≠ {}) :
    capture (setCapture m c s) m = c := tabGet_tabSet_self m.toNat hc _

theorem capture_setCapture_ne {m x : MasterId} {c : Capture} (s : State) (hc : c ≠ {}) (hx : x ≠ m) :
    capture (setCapture m c s) x = capture s x :=
  tabGet_tabSet_ne hc (fun h => hx (BitVec.eq_of_toNat_eq h)) _

theorem satInc_ne_zero {top : Nat} (htop : top ≠ 0) (n : Nat) : satInc top n ≠ 0 := by
  unfold satInc; split <;> omega

theorem ne_empty_of_count {c : Capture} (h : c.count ≠ 0) : c ≠ {} := fun hc => h (by rw [hc])

theorem ne_empty_of_sticky {c : Capture} (h : c.sticky = true) : c ≠ {} := fun hc => by rw [hc] at h; cases h

@[simp] theorem setCapture_tb (m : MasterId) (c : Capture) (s : State) : (setCapture m c s).tb = s.tb := rfl

theorem setCapture_waiting (m : MasterId) (c : Capture) (s : State) :
    (setCapture m c s).fault.waiting = s.fault.waiting := rfl

/-! ## A new capture (R260, row 1) -/

/-- `s` with one fault more counted against the unit that `f` charges (R257). -/
def faultCounted (f : FaultIn) (s : State) : State :=
  setCapture f.unit { capture s f.unit with count := satInc 0xFFFF (capture s f.unit).count } s

/-- `s` with the fault `f` counted and captured as the unit's first. -/
def firstCaptured (f : FaultIn) (s : State) : State := newCapture none f (faultCounted f s)

theorem capture_faultCounted (f : FaultIn) (s : State) : capture (faultCounted f s) f.unit =
    { capture s f.unit with count := satInc 0xFFFF (capture s f.unit).count } :=
  capture_setCapture_self s (ne_empty_of_count (satInc_ne_zero (by decide) _))

theorem firstCaptured_captured (f : FaultIn) (s : State) :
    Captured s (firstCaptured f s) f.unit f.cls f.key f.master := by
  have hself : capture (firstCaptured f s) f.unit =
      { addr := f.addr, time := s.tb.now, parent := 0, master := f.master, typ := f.typ, cls := some f.cls, sticky := true,
        present := f.persists, conseq := false, capnum := ((capture s f.unit).capnum + 1) % 65536,
        count := satInc 0xFFFF (capture s f.unit).count, key := f.key, detail := f.detail } := by
    unfold firstCaptured newCapture
    dsimp only
    rw [capture_setCapture_self _ (ne_empty_of_sticky rfl), capture_faultCounted]
    rfl
  refine ⟨by rw [hself], by rw [hself], by rw [hself], by rw [hself], by rw [hself], by rw [hself], by rw [hself],
    fun x hx => ?_⟩
  exact (capture_setCapture_ne _ (ne_empty_of_sticky rfl) hx).trans
    (capture_setCapture_ne _ (ne_empty_of_count (satInc_ne_zero (by decide) _)) hx)

theorem firstCaptured_only (f : FaultIn) (s : State) : OnlyChanges [.fault] s (firstCaptured f s) :=
  newCapture_only _ _ _ (List.Subset.refl _) (setCapture_only _ _ _ (List.Subset.refl _) (.refl _ _))

theorem firstCaptured_waiting (f : FaultIn) (s : State) : (firstCaptured f s).fault.waiting = s.fault.waiting := rfl

theorem firstCaptured_calm {s : State} (f : FaultIn) (h : Calm s) : Calm (firstCaptured f s) := h

/-- What a capture says stands wherever the fault part is the same. -/
theorem captured_of_fault {s u t : State} {m r : MasterId} {cls : FClass} {k : BitVec 8} (h : Captured s u m cls k r)
    (hfault : t.fault = u.fault) : Captured s t m cls k r := by
  unfold Captured at *
  simp only [capture_of_fault hfault]
  exact h

/-- A capture said of a state with the same records and clock is one of `s`. -/
theorem captured_from {s s' t : State} {m r : MasterId} {cls : FClass} {k : BitVec 8} (h : Captured s' t m cls k r)
    (hfault : s'.fault = s.fault) (htb : s'.tb = s.tb) : Captured s t m cls k r := by
  unfold Captured at *
  simp only [capture_of_fault hfault, htb] at h
  exact h

/-! ## A report of a unit without a held capture -/

/-- The first fault of a unit, outside every reset's shadow, is captured and its class acts (R260). -/
theorem reportFault_first {f : FaultIn} {s : State} (hunit : unitExists s f.unit = true)
    (hmaster : unitExists s f.master = true) (hfree : (capture s f.unit).sticky = false) :
    reportFault none f s = act f.unit f.cls (firstCaptured f s) := by
  simp [reportFault, hunit, hmaster, hfree, firstCaptured, faultCounted]

/-- The report of a C-class capture on the CXL link, without its record (R272). -/
def linkReportC (m : MasterId) (s : State) : State :=
  s.onHost fun h => if isDdrCell m then { h with rasCorrectable := true } else { h with aerCorrectable := true }

theorem actC_of_notCrew {m : MasterId} (s : State) (h : crewOfUnit m = none) :
    actC m s = record 0x0000 2 m (faultId (linkReportC m s) m).toNat (linkReportC m s) := by
  unfold actC linkReportC scoreFor
  rw [h]
  split <;> rfl

theorem actC_reported {m : MasterId} (s : State) (h : crewOfUnit m = none) : Reported (linkReportC m s) (actC m s) := by
  rw [actC_of_notCrew s h]
  exact record_reported _ _ _ _ _

theorem linkReportC_only (m : MasterId) (s : State) : OnlyChanges [.host] s (linkReportC m s) :=
  State.onHost_only _ _ (by decide) (.refl _ _)

/-- A C-class fault that a rule raises, the first of a unit that is no crew's: captured, reported on the link, recorded. -/
theorem raise_firstC {m req : MasterId} {key : BitVec 8} {typ : Fin 16} {addr detail : Nat} {s : State}
    (hunit : unitExists s m = true) (hreq : unitExists s req = true) (hfree : (capture s m).sticky = false)
    (hcrew : crewOfUnit m = none) :
    ∃ u, Captured s u m .c key req ∧ OnlyChanges [.fault] s u ∧ (Calm s → Calm u) ∧
      Reported (linkReportC m u) (raise m .c key typ req addr detail s) := by
  refine ⟨_, firstCaptured_captured ⟨m, .c, key, BitVec.ofNat 16 detail, typ, req, BitVec.ofNat 64 addr, false, .other⟩ s,
    firstCaptured_only _ s, firstCaptured_calm _, ?_⟩
  unfold raise
  rw [reportFault_first hunit hreq hfree]
  exact actC_reported _ hcrew

end Sys2Proof.Machine
end

section
/-! PROOFS. O6 fails: `WriteTaken` asks that the channel of the page's map line be in no reset where the line lies by its address,
but in degraded operation a reserved page of the channel that is out is held by its donor (R198), and the donor's channel may
be in block reset (R90, R194). -/

namespace Sys2Proof.Machine

/-- Eight channels: 0 is out, 1 in service, 2 in block reset. -/
def channelsWithDonor : List DramChannel :=
  { out := true } :: { state := .active } :: { state := .blockReset } :: List.replicate 5 { state := .active }

/-- Memory served, page 1 DIRTY with its map line not in the dirty filter, and the reserved page of that line, which channel 0
would hold, on a donor page of channel 2 (R198). -/
def donorInReset : State :=
  { State.reset with
    host := { head0 := { link := true, ready := true, hdm := [{ size := 2 ^ 41, committed := true }] } }
    rst := { ready := true, committed := true }
    dram := { channels := channelsWithDonor, donors := [2] }
    pm := { pages := [(1, { state := .dirty })] } }

theorem donorInReset_writeTaken : WriteTaken donorInReset 0 4096 64 := by
  refine ⟨⟨?_, ?_, ?_, ?_, ?_, ?_⟩, by decide, fun x hx => absurd hx List.not_mem_nil, ?_⟩ <;> decide +kernel

/-- The write waits for the map line instead of being admitted. -/
theorem donorInReset_write_waits : ∃ t, exec (.hostWrite 0 4096 7 0 0 false) donorInReset = .next t ∧
    t.wb.entries.map (·.phase) = [.mapWait] := by
  have hexec : exec (.hostWrite 0 4096 7 0 0 false) donorInReset =
      finish (writeAt 0 7 64 0 0 false donorInReset) := by
    have hline : lineOfHpa donorInReset 0 4096 = some 64 := by decide +kernel
    have hreq : memRequest donorInReset 0 = true := by decide +kernel
    have hserved : notServed donorInReset = false := by decide +kernel
    simp [exec, execHostWrite, hline, hreq, hserved]
  obtain ⟨t, ht, hn⟩ := finish_noticed (s := writeAt 0 7 64 0 0 false donorInReset) ⟨by decide +kernel, by decide +kernel⟩
  refine ⟨t, hexec.trans ht, ?_⟩
  have hwb : t.wb = (writeAt 0 7 64 0 0 false donorInReset).wb := hn.only .wb (by decide)
  rw [hwb]
  decide +kernel

/-- Refutes O6: page 1 is DIRTY and its own channel is in service, but the donor that holds its map line is in block reset, so
the write waits for the line (R90, R194, R198). -/
theorem not_hostWritesEnterTheBuffer : ¬ Obligations.HostWritesEnterTheBuffer := by
  rintro ⟨hdirty, -⟩
  obtain ⟨t, ht, hn⟩ := hdirty donorInReset 0 4096 7 64 0 0 false donorInReset_writeTaken (by decide +kernel)
    (by decide +kernel) ⟨by decide +kernel, by decide +kernel⟩
  obtain ⟨u, hu, hwaits⟩ := donorInReset_write_waits
  obtain rfl : t = u := by rw [ht] at hu; exact Host.Outcome.next.inj hu
  have hwb := hn.only .wb (by decide)
  simp only [Part.same] at hwb
  rw [hwb] at hwaits
  exact absurd hwaits (by decide +kernel)

end Sys2Proof.Machine
end

section
/-! PROOFS. The admission of a held first-write (R88, R93, R122, R124): what the dirty filter's own operations leave of the page
map, what a first-write to an open bucket makes, what the Weir's check keeps, and O4. -/

namespace Sys2Proof.Machine

/-! ## What the operations on the page map leave -/

section cache

variable (line : Nat) (dirty : Bool) (p : PageMap)

/-- The filter changes its lines and its count of evictions alone (R90). -/
theorem cacheTouch_eq : ∃ c n, cacheTouch line dirty p = { p with cache := c, evictions := n } := by
  unfold cacheTouch
  dsimp only
  split
  · exact ⟨_, _, rfl⟩
  · split <;> exact ⟨_, _, rfl⟩

@[simp] theorem cacheTouch_residue : (cacheTouch line dirty p).residue = p.residue := by
  obtain ⟨c, n, h⟩ := cacheTouch_eq line dirty p; rw [h]
@[simp] theorem cacheTouch_buckets : (cacheTouch line dirty p).buckets = p.buckets := by
  obtain ⟨c, n, h⟩ := cacheTouch_eq line dirty p; rw [h]
@[simp] theorem cacheTouch_drains : (cacheTouch line dirty p).drains = p.drains := by
  obtain ⟨c, n, h⟩ := cacheTouch_eq line dirty p; rw [h]
@[simp] theorem cacheTouch_results : (cacheTouch line dirty p).results = p.results := by
  obtain ⟨c, n, h⟩ := cacheTouch_eq line dirty p; rw [h]
@[simp] theorem cacheTouch_marks : (cacheTouch line dirty p).marks = p.marks := by
  obtain ⟨c, n, h⟩ := cacheTouch_eq line dirty p; rw [h]

end cache

section pageOps

variable (page slot : Nat) (e : PageEntry) (s : State)

@[simp] theorem setPage_pages : (setPage page e s).pm.pages = tabSet {} page e s.pm.pages := by
  simp [setPage, cacheTouch_pages]
@[simp] theorem setPage_residue : (setPage page e s).pm.residue = s.pm.residue := by simp [setPage]
@[simp] theorem setPage_buckets : (setPage page e s).pm.buckets = s.pm.buckets := by simp [setPage]
@[simp] theorem setPage_drains : (setPage page e s).pm.drains = s.pm.drains := by simp [setPage]

@[simp] theorem countUp_pages : (countUp slot s).pm.pages = s.pm.pages := rfl
@[simp] theorem countUp_residue : (countUp slot s).pm.residue = s.pm.residue := rfl
@[simp] theorem countDown_pages : (countDown slot s).pm.pages = s.pm.pages := rfl
@[simp] theorem countDown_residue : (countDown slot s).pm.residue = s.pm.residue := rfl
@[simp] theorem residueUp_pages : (residueUp s).pm.pages = s.pm.pages := rfl
@[simp] theorem residueUp_residue : (residueUp s).pm.residue = s.pm.residue + 4096 := by
  simp [residueUp, pageBytes]
theorem residueDown_pm : (residueDown s).pm = { s.pm with residue := s.pm.residue - pageBytes } := rfl
@[simp] theorem residueDown_pages : (residueDown s).pm.pages = s.pm.pages := by rw [residueDown_pm]
@[simp] theorem residueDown_residue : (residueDown s).pm.residue = s.pm.residue - 4096 := by
  rw [residueDown_pm]; rfl
@[simp] theorem dropLost_pages : (dropLost page s).pm.pages = s.pm.pages := rfl
@[simp] theorem dropLost_residue : (dropLost page s).pm.residue = s.pm.residue := rfl
@[simp] theorem logAppend_pm (x : LogEntry) : (logAppend x s).pm = s.pm := rfl

@[simp] theorem retireEmpty_pages : (retireEmpty s).pm.pages = s.pm.pages := by
  unfold retireEmpty; split <;> rfl
@[simp] theorem retireEmpty_residue : (retireEmpty s).pm.residue = s.pm.residue := by
  unfold retireEmpty; split <;> rfl

end pageOps

theorem pageEntry_of_pages {s t : State} (h : t.pm.pages = s.pm.pages) (page : Nat) : pageEntry t page = pageEntry s page := by
  unfold pageEntry; rw [h]

theorem pageState_of_pages {s t : State} (h : t.pm.pages = s.pm.pages) (page : Nat) : pageState t page = pageState s page := by
  unfold pageState; rw [pageEntry_of_pages h]

/-- An entry that is not CLEAN is listed. -/
theorem PageEntry.ne_clean {e : PageEntry} (h : e.state ≠ .clean) : e ≠ {} := fun he => h (by rw [he])

theorem pageEntry_of_set {s t : State} {page : Nat} {e : PageEntry} (h : t.pm.pages = tabSet {} page e s.pm.pages)
    (he : e.state ≠ .clean) : pageEntry t page = e := by
  unfold pageEntry; rw [h]; exact tabGet_tabSet_self page (PageEntry.ne_clean he) _

theorem pageEntry_of_set_ne {s t : State} {page p : Nat} {e : PageEntry} (h : t.pm.pages = tabSet {} page e s.pm.pages)
    (he : e.state ≠ .clean) (hp : p ≠ page) : pageEntry t p = pageEntry s p := by
  unfold pageEntry; rw [h]; exact tabGet_tabSet_ne (PageEntry.ne_clean he) hp _

/-! ## The dirty log (R155) -/

/-- An entry goes to the tail while it has room and nothing is spilled. -/
theorem logAppend_tail {s : State} (e : LogEntry) (hspill : s.log.spill = []) (htail : s.log.tail.length < tailEntries) :
    (logAppend e s).log = { s.log with tail := s.log.tail ++ [e], pos := s.log.pos + 1 } := by
  simp [logAppend, hspill, htail]

/-! ## A first-write into an open bucket (R69, R88, R93) -/

theorem enterNewest_open {s : State} {b : Bucket} (hb : newestBucket s = some b) (ho : b.isOpen = true) :
    enterNewest s = (s, b.slot) := by simp [enterNewest, hb, ho]

/-- The entry of a page that a host write makes DIRTY in bucket `b`. -/
def firstEntry (s : State) (b : Bucket) : PageEntry := { state := .dirty, bucket := b.slot, hot := hotTick s }

section firstWrite

variable {s : State} {b : Bucket} {page : Nat} (hb : newestBucket s = some b) (ho : b.isOpen = true)
include hb ho

theorem firstWrite_pm : (firstWrite page s).pm.pages = tabSet {} page (firstEntry s b) s.pm.pages ∧
    (firstWrite page s).pm.residue = s.pm.residue + 4096 := by
  simp only [firstWrite, enterNewest_open hb ho, logAppend_pm]
  split <;> simp [firstEntry]

theorem firstWrite_openOnly : OnlyChanges [.pm, .ledger, .log] s (firstWrite page s) := by
  have hset : OnlyChanges [.pm, .ledger, .log] s (setPage page (firstEntry s b) s) :=
    setPage_only _ _ _ (by decide) (.refl _ s)
  unfold firstWrite
  rw [enterNewest_open hb ho]
  refine logAppend_only _ _ (by decide) (retireEmpty_only _ (by decide) (countUp_only _ _ (by decide)
    (residueUp_only _ (by decide) ?_)))
  split
  · exact dropLost_only _ _ (by decide) hset
  · exact hset

theorem firstWrite_log (hspill : s.log.spill = []) (htail : s.log.tail.length < tailEntries) :
    (firstWrite page s).log =
      { s.log with tail := s.log.tail ++ [.dirty b.slot page], pos := s.log.pos + 1 } := by
  unfold firstWrite
  rw [enterNewest_open hb ho]
  have hsame : ∀ t, OnlyChanges [.pm] s t →
      (logAppend (.dirty b.slot page) (retireEmpty (countUp b.slot (residueUp t)))).log =
        { s.log with tail := s.log.tail ++ [.dirty b.slot page], pos := s.log.pos + 1 } := fun t ht => by
    have hu : OnlyChanges [.pm, .ledger] s (retireEmpty (countUp b.slot (residueUp t))) :=
      retireEmpty_only _ (by decide) (countUp_only _ _ (by decide) (residueUp_only _ (by decide) (ht.mono (by decide))))
    have hlog : (retireEmpty (countUp b.slot (residueUp t))).log = s.log := hu .log (by decide)
    rw [logAppend_tail _ (by rw [hlog, hspill]) (by rw [hlog]; exact htail), hlog]
  have hset : OnlyChanges [.pm] s (setPage page (firstEntry s b) s) := setPage_only _ _ _ (by decide) (.refl _ s)
  dsimp only
  split
  · exact hsame _ (dropLost_only _ _ (by decide) hset)
  · exact hsame _ hset

end firstWrite

theorem hotTick_of_eq {s t : State} (htb : t.tb = s.tb) (hod : t.od = s.od) : hotTick t = hotTick s := by
  unfold hotTick tickNs; rw [htb, hod]

theorem inWindow_of_rst {s t : State} (h : t.rst = s.rst) : inWindow t = inWindow s := by unfold inWindow; rw [h]

theorem inBlockReset_of_dram {s t : State} (hdram : t.dram = s.dram) (hcfg : t.cfg = s.cfg) (page : Nat) :
    inBlockReset t page = inBlockReset s page := by
  unfold inBlockReset channelOfPage; rw [hdram, hcfg]

/-- A write to a page that is neither DIRTY nor DRAINING is a first-write; past the early-open window it is no more (R93, R171). -/
theorem pageWrite_first {s : State} {b : Bucket} {page : Nat} (hb : newestBucket s = some b) (ho : b.isOpen = true)
    (hpage : pageState s page = .clean ∨ pageState s page = .lost) (hwindow : inWindow s = false) :
    pageWrite page s = firstWrite page s := by
  have hrst : (firstWrite page s).rst = s.rst := firstWrite_openOnly hb ho .rst (by decide)
  rcases hpage with h | h <;> simp [pageWrite, h, inWindow_of_rst hrst, hwindow]

/-! ## The completion of an entry (R30, R93, R123) -/

theorem finishEntry_admitted {s : State} {i : Nat} {e : WEntry} (hreset : inBlockReset s (pageOf e.line) = false)
    (hfence : s.host.fence = false) :
    finishEntry i e s = say (.complete e.head e.id) (onEntry i (fun x => { x with phase := .admitted }) s) := by
  have hfence' : (onEntry i (fun x : WEntry => { x with phase := .admitted }) s).host.fence = false := hfence
  simp [finishEntry, hreset, hfence']

theorem admitBehind_none {s : State} (page n : Nat) (h : ∀ x ∈ s.wb.entries, x.phase ≠ .behind) :
    admitBehind page n s = s := by
  cases n with
  | zero => rfl
  | succ n => simp only [admitBehind]; rw [firstIdx_none]; simpa using fun x hx hp => absurd hp (h x hx)

/-! ## What the Weir's check keeps (R97, R125) -/

/-- An episode moves the Weir's own part; beside that there is at most a record. -/
theorem episodeCheck_reported (cause : Nat) (s : State) : ∃ w, Reported (s.onWeir fun _ => w) (episodeCheck cause s) := by
  unfold episodeCheck
  dsimp only
  split
  · split
    · exact ⟨_, record_reported _ _ _ _ _⟩
    · exact ⟨_, .refl _⟩
  · split
    · exact ⟨_, recordWith_reported _ _ _ _ _ _ _ _⟩
    · split
      · exact ⟨_, record_reported _ _ _ _ _⟩
      · exact ⟨_, .refl _⟩

theorem weirCheck_host (cause : Nat) (s : State) : ∃ p0 p1, (weirCheck cause s).host = { s.host with
    head0 := { s.host.head0 with msixPending := p0 }, head1 := { s.host.head1 with msixPending := p1 } } := by
  obtain ⟨w, hr⟩ := episodeCheck_reported cause s
  obtain ⟨p0, p1, hhost⟩ := hr.host
  refine ⟨p0, p1, ?_⟩
  have hsame : (weirCheck cause s).host = (episodeCheck cause s).host :=
    sprintCheck_only (cs := [.pm, .lake]) _ (by decide) (.refl _ _) .host (by decide)
  rw [hsame, hhost, State.onWeir_host]

theorem weirCheck_resp (cause : Nat) (s : State) : (weirCheck cause s).out.resp = s.out.resp := by
  obtain ⟨w, hr⟩ := episodeCheck_reported cause s
  have hsame : (weirCheck cause s).out = (episodeCheck cause s).out :=
    sprintCheck_only (cs := [.pm, .lake]) _ (by decide) (.refl _ _) .out (by decide)
  rw [hsame, hr.resp, State.onWeir_out]

theorem weirCheck_map (cause : Nat) (s : State) : (weirCheck cause s).pm.buckets = s.pm.buckets ∧
    (weirCheck cause s).pm.pages = s.pm.pages ∧ (weirCheck cause s).pm.residue = s.pm.residue := by
  have hpm : (episodeCheck cause s).pm = s.pm :=
    episodeCheck_only (cs := [.host, .cxl, .weir, .wl, .bus, .out]) _ _ (by decide) (.refl _ _) .pm (by decide)
  have hkeeps := sprintCheck_keepsMap (episodeCheck cause s)
  rw [hpm] at hkeeps
  exact hkeeps

/-! ## The one held write (R122, R124) -/

/-- `s` with entry `i` admitted as a first-write: its page DIRTY, the entry completed. -/
def heldTaken (s : State) (i : Nat) (e : WEntry) : State :=
  say (.complete e.head e.id) (onEntry i (fun x => { x with phase := .admitted }) (firstWrite (pageOf e.line) s))

/-- What the admission of the one held write leaves beside its own parts. -/
structure Taken (s : State) (i : Nat) (e : WEntry) (b : Bucket) (t : State) : Prop where
  entries : t.wb.entries = listUpd i (fun x => { x with phase := .admitted }) s.wb.entries
  resp : t.out.resp = .complete e.head e.id :: s.out.resp
  pages : t.pm.pages = tabSet {} (pageOf e.line) (firstEntry s b) s.pm.pages
  residue : t.pm.residue = s.pm.residue + 4096
  only : OnlyChanges admissionParts s t
  calm : Calm t

theorem Taken.heldAdmitted {s t : State} {i : Nat} {e : WEntry} {b : Bucket} (h : Taken s i e b t) :
    HeldAdmitted s i e b t :=
  ⟨h.entries, h.resp, pageEntry_of_set (s := s) h.pages PState.noConfusion, h.residue, h.only⟩

theorem Taken.checked {s t : State} {i : Nat} {e : WEntry} {b : Bucket} (cause : Nat) (h : Taken s i e b t) :
    Taken s i e b (weirCheck cause t) := by
  have honly : OnlyChanges [.host, .cxl, .pm, .lake, .weir, .wl, .bus, .out] t (weirCheck cause t) :=
    weirCheck_only _ _ (by decide) (.refl _ _)
  have hwb : (weirCheck cause t).wb = t.wb := honly .wb (by decide)
  obtain ⟨-, hpages, hresidue⟩ := weirCheck_map cause t
  exact { entries := by rw [hwb, h.entries], resp := by rw [weirCheck_resp, h.resp]
          pages := hpages.trans h.pages, residue := hresidue.trans h.residue
          only := h.only.trans (honly.mono (by decide))
          calm := calm_of_onlyChanges honly (by decide) (by decide) h.calm }

theorem Taken.noticed {s t u : State} {i : Nat} {e : WEntry} {b : Bucket} (h : Taken s i e b t) (hn : Noticed t u) :
    Taken s i e b u := by
  have hcalm := hn.calm h.calm
  have honly := hn.onlyChanges (by decide) h.only
  obtain ⟨x, rfl⟩ := hn.eq_onBus
  exact ⟨h.entries, h.resp, h.pages, h.residue, honly, hcalm⟩

section heldAlone

variable {s : State} {i : Nat} {e : WEntry} {b : Bucket} (h : HeldAlone s i e b)
include h

theorem heldAlone_firstIdx : firstIdx (fun x => decide (x.phase = .heldWeir)) s.wb.entries 0 = some (i, e) := by
  obtain ⟨hi, hheld, hothers, -⟩ := h
  have hidx := firstIdx_of_only (p := fun x => decide (x.phase = .heldWeir)) (decide_eq_true hheld) s.wb.entries i 0 hi
    fun j x hx hj => by simp [hothers j x hx (by omega)]
  simpa using hidx

/-- Once the held entry is admitted every entry is. -/
theorem heldAlone_allAdmitted : ∀ x ∈ listUpd i (fun x => { x with phase := .admitted }) s.wb.entries,
    x.phase = .admitted := by
  obtain ⟨-, -, hothers, -⟩ := h
  intro x hx
  obtain ⟨j, hj⟩ := List.mem_iff_getElem?.mp hx
  rw [getElem?_listUpd] at hj
  split at hj
  case isTrue =>
    obtain ⟨y, -, rfl⟩ := Option.map_eq_some_iff.mp hj
    rfl
  case isFalse hne => exact hothers j x hj hne

theorem heldAlone_taken : Taken s i e b (heldTaken s i e) := by
  obtain ⟨-, -, -, -, -, -, -, -, hb, ho, hspill, htail, hcalm⟩ := h
  have hfirst : OnlyChanges [.pm, .ledger, .log] s (firstWrite (pageOf e.line) s) := firstWrite_openOnly hb ho
  have hwb : (firstWrite (pageOf e.line) s).wb = s.wb := hfirst .wb (by decide)
  have hout : (firstWrite (pageOf e.line) s).out = s.out := hfirst .out (by decide)
  have hfault : (firstWrite (pageOf e.line) s).fault = s.fault := hfirst .fault (by decide)
  obtain ⟨hpages, hresidue⟩ := firstWrite_pm (page := pageOf e.line) hb ho
  obtain ⟨hoverflow, hwaiting⟩ := hcalm
  exact { entries := congrArg (fun w : WriteBuffer => listUpd i _ w.entries) hwb
          resp := congrArg (fun o : Out => _ :: o.resp) hout
          pages := hpages, residue := hresidue
          only := say_only _ _ (by decide) (onEntry_only _ _ _ (by decide) (hfirst.mono (by decide)))
          calm := ⟨(congrArg DirtyLog.overflow (firstWrite_log hb ho hspill htail)).trans hoverflow,
            (congrArg Faults.waiting hfault).trans hwaiting⟩ }

theorem heldAlone_taken_host : (heldTaken s i e).host = s.host := by
  obtain ⟨-, -, -, -, -, -, -, -, hb, ho, -⟩ := h
  exact firstWrite_openOnly (page := pageOf e.line) hb ho .host (by decide)

theorem heldAlone_admitHeldAt : admitHeldAt i e s = heldTaken s i e := by
  have htaken := heldAlone_taken h
  have hall := heldAlone_allAdmitted h
  obtain ⟨-, -, -, hclean, hreset, hwindow, -, hfence, hb, ho, -⟩ := h
  have hfirst : OnlyChanges [.pm, .ledger, .log] s (firstWrite (pageOf e.line) s) := firstWrite_openOnly hb ho
  have hdram : (firstWrite (pageOf e.line) s).dram = s.dram := hfirst .dram (by decide)
  have hcfg : (firstWrite (pageOf e.line) s).cfg = s.cfg := hfirst .cfg (by decide)
  have hhost : (firstWrite (pageOf e.line) s).host = s.host := hfirst .host (by decide)
  have hadmit : admitEntry i e s = heldTaken s i e := by
    unfold admitEntry heldTaken
    rw [pageWrite_first hb ho (.inl hclean) hwindow, finishEntry_admitted]
    · rw [inBlockReset_of_dram hdram hcfg, hreset]
    · rw [hhost, hfence]
  unfold admitHeldAt
  rw [hadmit]
  refine admitBehind_none _ _ fun x hx hbehind => ?_
  rw [htaken.entries] at hx
  rw [hall x hx] at hbehind
  cases hbehind

theorem heldAlone_retest (hroom : roomFor s = true) : retest s = weirCheck ordinary (heldTaken s i e) := by
  have hnone : firstIdx (fun x => decide (x.phase = .heldWeir))
      (weirCheck ordinary (heldTaken s i e)).wb.entries 0 = none := by
    refine firstIdx_none _ fun x hx => ?_
    rw [((heldAlone_taken h).checked ordinary).entries] at hx
    simp [heldAlone_allAdmitted h x hx]
  have hlen : ∃ n, s.wb.entries.length = n + 1 :=
    Nat.exists_eq_add_one.mpr (Nat.zero_lt_of_lt (List.getElem?_eq_some_iff.mp h.1).1)
  obtain ⟨n, hn⟩ := hlen
  rw [retest, hn, retestHeld, heldAlone_firstIdx h]
  simp only [hroom, if_true, heldAlone_admitHeldAt h]
  cases n with
  | zero => rfl
  | succ n => rw [retestHeld, hnone]

end heldAlone

/-! ## O4 -/

theorem exec_heldWriteAdmit (s : State) : exec .heldWriteAdmit s = execHeldWriteAdmit s := rfl
theorem exec_holdLimitExpiry (s : State) : exec .holdLimitExpiry s = execHoldLimitExpiry s := rfl

/-- `s` with an overshoot counted and flagged (R122). -/
def overshot (s : State) : State :=
  (vector 4 (s.onHost fun h =>
    { h with overshoots := satInc 0xFFFFFFFF h.overshoots, overshoot := true })).onPm fun p => { p with causeHold := true }

theorem overshot_only (s : State) : OnlyChanges [.host, .out, .pm] s (overshot s) :=
  State.onPm_only _ _ (by decide) (vector_only _ _ (by decide) (State.onHost_only _ _ (by decide) (.refl _ _)))

theorem overshot_resp (s : State) : (overshot s).out.resp = s.out.resp :=
  (vector_reported 4 (s.onHost fun h =>
    { h with overshoots := satInc 0xFFFFFFFF h.overshoots, overshoot := true })).resp

theorem overshot_host (s : State) : ∃ p0 p1, (overshot s).host = { s.host with
    overshoots := satInc 0xFFFFFFFF s.host.overshoots, overshoot := true
    head0 := { s.host.head0 with msixPending := p0 }, head1 := { s.host.head1 with msixPending := p1 } } :=
  (vector_reported 4 (s.onHost fun h =>
    { h with overshoots := satInc 0xFFFFFFFF h.overshoots, overshoot := true })).host

theorem overshot_pm (s : State) : (overshot s).pm = { s.pm with causeHold := true } := by
  have hpm : (vector 4 (s.onHost fun h =>
      { h with overshoots := satInc 0xFFFFFFFF h.overshoots, overshoot := true })).pm = s.pm :=
    vector_only (cs := [.host, .out]) _ _ (by decide) (State.onHost_only _ _ (by decide) (.refl _ s)) .pm (by decide)
  unfold overshot
  rw [State.onPm_pm, hpm]

theorem overshootEntry_eq (i : Nat) (e : WEntry) (s : State) :
    overshootEntry i e s = weirCheck 0 (admitHeldAt i e (overshot s)) := rfl

/-- An overshoot leaves the held write the only one. -/
theorem heldAlone_overshot {s : State} {i : Nat} {e : WEntry} {b : Bucket} (h : HeldAlone s i e b) :
    HeldAlone (overshot s) i e b := by
  have honly := overshot_only s
  have hpm := overshot_pm s
  obtain ⟨p0, p1, hhost⟩ := overshot_host s
  have hwb : (overshot s).wb = s.wb := honly .wb (by decide)
  have hdram : (overshot s).dram = s.dram := honly .dram (by decide)
  have hcfg : (overshot s).cfg = s.cfg := honly .cfg (by decide)
  have hrst : (overshot s).rst = s.rst := honly .rst (by decide)
  have hfrz : (overshot s).frz = s.frz := honly .frz (by decide)
  have hlog : (overshot s).log = s.log := honly .log (by decide)
  have hfault : (overshot s).fault = s.fault := honly .fault (by decide)
  unfold HeldAlone at *
  rw [hwb, inBlockReset_of_dram hdram hcfg, inWindow_of_rst hrst, pageState_of_pages (s := s) (by rw [hpm])]
  simp only [frozen, newestBucket, Calm, hfrz, hhost, hpm, hlog, hfault] at h ⊢
  exact h

/-- Settles O4: the held write is the only one, so its admission is one first-write into the open bucket, with the count of the
overshoot before it where there was no room. -/
theorem heldFirstWriteIsAdmitted : Obligations.HeldFirstWriteIsAdmitted := by
  refine ⟨?room, ?expiry⟩
  case room =>
    intro s i e b h hroom
    have hexec : exec .heldWriteAdmit s = finish (weirCheck ordinary (heldTaken s i e)) := by
      obtain ⟨-, -, -, -, -, -, hfrozen, hfence, -⟩ := id h
      simp [exec_heldWriteAdmit, execHeldWriteAdmit, hfrozen, hfence, heldAlone_retest h hroom]
    have htaken := (heldAlone_taken h).checked ordinary
    refine gives_finish hexec htaken.calm fun t hn => ⟨(htaken.noticed hn).heldAdmitted, ?_⟩
    have hhost := heldAlone_taken_host h
    obtain ⟨p0, p1, hweir⟩ := weirCheck_host ordinary (heldTaken s i e)
    obtain ⟨x, rfl⟩ := hn.eq_onBus
    rw [State.onBus_host, hweir, hhost]
  case expiry =>
    intro s i e b h hroom
    have hexec : exec .holdLimitExpiry s = finish (weirCheck 0 (heldTaken (overshot s) i e)) := by
      obtain ⟨-, -, -, -, -, -, hfrozen, hfence, -⟩ := id h
      simp [exec_holdLimitExpiry, execHoldLimitExpiry, hfrozen, hfence, heldAlone_firstIdx h, hroom, overshootEntry_eq,
        heldAlone_admitHeldAt (heldAlone_overshot h)]
    have htaken := (heldAlone_taken (heldAlone_overshot h)).checked 0
    refine gives_finish hexec htaken.calm fun t hn => ?_
    have ht := htaken.noticed hn
    have hhost := heldAlone_taken_host (heldAlone_overshot h)
    obtain ⟨p0, p1, hover⟩ := overshot_host s
    obtain ⟨q0, q1, hweir⟩ := weirCheck_host 0 (heldTaken (overshot s) i e)
    obtain ⟨hentries, hresp, hentry, hresidue, honly⟩ := ht.heldAdmitted
    have hov := overshot_only s
    have hwb : (overshot s).wb = s.wb := hov .wb (by decide)
    have htick : hotTick (overshot s) = hotTick s := hotTick_of_eq (hov .tb (by decide)) (hov .od (by decide))
    have hstart : OnlyChanges admissionParts s t := (hov.mono (by decide)).trans honly
    have hthost : t.host.overshoots = satInc 0xFFFFFFFF s.host.overshoots ∧ t.host.overshoot = true := by
      obtain ⟨x, rfl⟩ := hn.eq_onBus
      rw [State.onBus_host, hweir, hhost, hover]
      exact ⟨rfl, rfl⟩
    rw [hwb] at hentries
    rw [overshot_resp] at hresp
    rw [overshot_pm] at hresidue
    rw [htick] at hentry
    exact ⟨⟨hentries, hresp, hentry, hresidue, hstart⟩, hthost⟩

end Sys2Proof.Machine
end

section
/-! PROOFS. Every command ends in a next state and moves neither the queue nor the configuration (log 6): `Ends` over each
meaning, by the parts its operations name, in the order of the model's files. PWR_TIME's part stands as well, but under the
commands of the time base, the loss of VDD_AON and a register read, which may latch the high word of PWR_TIME (R28). -/

namespace Sys2Proof.Machine

/-! ## The predicate -/

/-- The parts a command may move: all but the queue, the configuration and the time base. -/
def workParts : List Part :=
  [.free, .clk, .host, .cxl, .wb, .dram, .pm, .lake, .basin, .flash, .log, .weir, .save, .rst, .ledger, .wl, .fault, .crew,
    .seq, .boot, .frz, .bat, .od, .bus, .upd, .plan, .out]

/-- The outcome `o` is a next state that differs from `r` in the parts of work alone. -/
def Ends (r : State) (o : Host.Outcome State Fault Refusal) : Prop := ∃ t, o = .next t ∧ OnlyChanges workParts r t

theorem workParts_mem : Part.free ∈ workParts ∧ Part.clk ∈ workParts ∧ Part.host ∈ workParts ∧ Part.cxl ∈ workParts ∧
    Part.wb ∈ workParts ∧ Part.dram ∈ workParts ∧ Part.pm ∈ workParts ∧ Part.lake ∈ workParts ∧ Part.basin ∈ workParts ∧
    Part.flash ∈ workParts ∧ Part.log ∈ workParts ∧ Part.weir ∈ workParts ∧ Part.save ∈ workParts ∧
    Part.rst ∈ workParts ∧ Part.ledger ∈ workParts ∧ Part.wl ∈ workParts ∧ Part.fault ∈ workParts ∧
    Part.crew ∈ workParts ∧ Part.seq ∈ workParts ∧ Part.boot ∈ workParts ∧ Part.frz ∈ workParts ∧ Part.bat ∈ workParts ∧
    Part.od ∈ workParts ∧ Part.bus ∈ workParts ∧ Part.upd ∈ workParts ∧ Part.plan ∈ workParts ∧ Part.out ∈ workParts := by
  simp [workParts]

theorem ends_next {r t : State} (h : OnlyChanges workParts r t) : Ends r (.next t) := ⟨t, rfl, h⟩

theorem ends_ite {c : Prop} [Decidable c] {r : State} {a b : Host.Outcome State Fault Refusal} (ha : Ends r a)
    (hb : Ends r b) : Ends r (if c then a else b) := by
  split <;> assumption

theorem finish_ends {r : State} (s : State) (hC : OnlyChanges workParts r s) : Ends r (finish s) :=
  ends_next (notice_only _ (by decide) (runWaiting_only _ (by decide) (overflowCheck_only _ (by decide) hC)))

theorem after_works {r : State} (s : State) (o : Host.Outcome State Fault Refusal) (hO : Ends r o)
    (_ : OnlyChanges workParts r s) : OnlyChanges workParts r (after s o) := by
  obtain ⟨t, rfl, ht⟩ := hO
  exact ht

theorem mailboxCmd_ends {r : State} (h : Fin 2) (s : State) (act : State → State)
    (hA : OnlyChanges workParts r s → OnlyChanges workParts r (act s)) (hC : OnlyChanges workParts r s) :
    Ends r (mailboxCmd h s act) := by
  unfold mailboxCmd
  exact ends_ite (ends_next hC) (ends_ite (ends_next (mbox_only _ _ _ _ (by decide) hC))
    (ends_ite (ends_next (mbox_only _ _ _ _ (by decide) hC)) (finish_ends _ (hA hC))))

theorem plain_only {cs : List Part} {r : State} (x : Nat × State) (hA : OnlyChanges cs r x.2) : OnlyChanges cs r (plain x).2 :=
  hA

/-! ## Each command -/

theorem execMarkDraining_ends {r0 : State} (pages : List Nat) (s : State) (hC : OnlyChanges workParts r0 s) :
    Ends r0 (execMarkDraining pages s) := by
  unfold execMarkDraining
  simp (maxDischargeDepth := 60) only [hC, workParts_mem, List.cons_subset, List.nil_subset, and_self, finish_ends,
      markDrainingOp_only, ends_next, ends_ite]
theorem execCompleteDrain_ends {r0 : State} (tag seg unit : Nat) (s : State) (hC : OnlyChanges workParts r0 s)
    : Ends r0 (execCompleteDrain tag seg unit s) := by
  unfold execCompleteDrain
  simp (maxDischargeDepth := 60) only [hC, workParts_mem, List.cons_subset, List.nil_subset, and_self,
      completeDrainOp_only, finish_ends, ends_next, ends_ite]
theorem execFailDrain_ends {r0 : State} (tag : Nat) (s : State) (hC : OnlyChanges workParts r0 s) : Ends r0
    (execFailDrain tag s) := by
  unfold execFailDrain
  simp (maxDischargeDepth := 60) only [hC, workParts_mem, List.cons_subset, List.nil_subset, and_self,
      failDrainOp_only, finish_ends, ends_next, ends_ite]
theorem execMapWalkRequest_ends {r0 : State} (slot : Fin 16) (st : PState) (s : State) (hC : OnlyChanges
    workParts r0 s) : Ends r0 (execMapWalkRequest slot st s) := by
  unfold execMapWalkRequest
  simp (maxDischargeDepth := 60) only [hC, workParts_mem, List.cons_subset, List.nil_subset, and_self, walkOp_only,
      ends_next, ends_ite]
theorem execMapWalkBatch_ends {r0 : State} (s : State) (hC : OnlyChanges workParts r0 s) : Ends r0
    (execMapWalkBatch s) := by
  unfold execMapWalkBatch
  (repeat' split) <;> simp (maxDischargeDepth := 60) only [hC, workParts_mem, List.cons_subset, List.nil_subset,
      and_self, State.onPm_only, choose_only, ends_next]
theorem execMapLineRebuild_ends {r0 : State} (line : Nat) (s : State) (hC : OnlyChanges workParts r0 s) : Ends
    r0 (execMapLineRebuild line s) := by
  unfold execMapLineRebuild
  simp (maxDischargeDepth := 60) only [hC, workParts_mem, List.cons_subset, List.nil_subset, and_self, finish_ends,
      lineError_only, raise_only, ends_next, ends_ite]
theorem execRecountDone_ends {r0 : State} (s : State) (hC : OnlyChanges workParts r0 s) : Ends r0
    (execRecountDone s) := by
  unfold execRecountDone
  simp (maxDischargeDepth := 60) only [hC, workParts_mem, List.cons_subset, List.nil_subset, and_self, finish_ends,
      recount_only, retest_only, retireEmpty_only, weirCheck_only, ends_next, ends_ite]
theorem execMappingEntryError_ends {r0 : State} (page : Nat) (s : State) (hC : OnlyChanges workParts r0 s) :
    Ends r0 (execMappingEntryError page s) := by
  unfold execMappingEntryError
  simp (maxDischargeDepth := 60) only [hC, workParts_mem, List.cons_subset, List.nil_subset, and_self,
      entryError_only, finish_ends, raise_only, ends_next, ends_ite]
theorem execDirtyLogChunkMove_ends {r0 : State} (s : State) (hC : OnlyChanges workParts r0 s) : Ends r0
    (execDirtyLogChunkMove s) := by
  unfold execDirtyLogChunkMove
  simp (maxDischargeDepth := 60) only [hC, workParts_mem, List.cons_subset, List.nil_subset, and_self,
      State.onLog_only, startCompaction_only, ends_next, ends_ite]
theorem execLogCompactionDone_ends {r0 : State} (s : State) (hC : OnlyChanges workParts r0 s) : Ends r0
    (execLogCompactionDone s) := by
  unfold execLogCompactionDone
  (repeat' split) <;> simp (maxDischargeDepth := 60) only [hC, workParts_mem, List.cons_subset, List.nil_subset,
      and_self, compact_only, finish_ends, ends_next]
theorem execCheckpointTimer_ends {r0 : State} (s : State) (hC : OnlyChanges workParts r0 s) : Ends r0
    (execCheckpointTimer s) := by
  unfold execCheckpointTimer
  simp (maxDischargeDepth := 60) only [hC, workParts_mem, List.cons_subset, List.nil_subset, and_self,
      State.onLake_only, countOrphans_only, ends_next, ends_ite]
theorem execCheckpoint_ends {r0 : State} (s : State) (hC : OnlyChanges workParts r0 s) : Ends r0
    (execCheckpoint s) := by
  unfold execCheckpoint
  (repeat' split) <;> simp (maxDischargeDepth := 60) only [hC, workParts_mem, List.cons_subset, List.nil_subset,
      and_self, checkpointOp_only, finish_ends, ends_next]
theorem execSettled_ends {r0 : State} (s : State) (hC : OnlyChanges workParts r0 s) : Ends r0 (execSettled s) := by
  unfold execSettled
  simp (maxDischargeDepth := 60) only [hC, workParts_mem, List.cons_subset, List.nil_subset, and_self, finish_ends,
      settleOp_only, ends_next, ends_ite]
theorem execBlockEraseDone_ends {r0 : State} (die : Nat) (area : Area) (block : Nat) (ok : Bool) (s : State)
    (hC : OnlyChanges workParts r0 s) : Ends r0 (execBlockEraseDone die area block ok s) := by
  unfold execBlockEraseDone
  simp (maxDischargeDepth := 60) only [hC, workParts_mem, List.cons_subset, List.nil_subset, and_self, eraseDone_only,
      finish_ends, ends_next, ends_ite]
theorem execFlashOarCommand_ends {r0 : State} (ch : Fin 32) (die : Fin 8) (op : OarOp) (s : State) (hC :
    OnlyChanges workParts r0 s) : Ends r0 (execFlashOarCommand ch die op s) := by
  unfold execFlashOarCommand
  simp (maxDischargeDepth := 60) only [hC, workParts_mem, List.cons_subset, List.nil_subset, and_self, finish_ends,
      queueOp_only, ends_next, ends_ite]
theorem execFlashOpComplete_ends {r0 : State} (ch : Fin 32) (die : Fin 8) (res : FlashRes) (s : State) (hC :
    OnlyChanges workParts r0 s) : Ends r0 (execFlashOpComplete ch die res s) := by
  unfold execFlashOpComplete
  dsimp only
  (repeat' split) <;> simp (maxDischargeDepth := 60) only [hC, workParts_mem, List.cons_subset, List.nil_subset,
      and_self, State.onFlash_only, finish_ends, onFl_only, opDone_only, ends_next]
theorem execFlashChannelReset_ends {r0 : State} (ch : Fin 32) (s : State) (hC : OnlyChanges workParts r0 s) :
    Ends r0 (execFlashChannelReset ch s) := by
  unfold execFlashChannelReset
  simp (maxDischargeDepth := 60) only [hC, workParts_mem, List.cons_subset, List.nil_subset, and_self, finish_ends,
      raise_only]
theorem execLdpcEngineFault_ends {r0 : State} (eng : Fin 8) (s : State) (hC : OnlyChanges workParts r0 s) :
    Ends r0 (execLdpcEngineFault eng s) := by
  unfold execLdpcEngineFault
  simp (maxDischargeDepth := 60) only [hC, workParts_mem, List.cons_subset, List.nil_subset, and_self, finish_ends,
      raise_only, free_only]
theorem execXtsEngineFault_ends {r0 : State} (eng : Fin 2) (s : State) (hC : OnlyChanges workParts r0 s) :
    Ends r0 (execXtsEngineFault eng s) := by
  unfold execXtsEngineFault
  simp (maxDischargeDepth := 60) only [hC, workParts_mem, List.cons_subset, List.nil_subset, and_self, finish_ends,
      raise_only, free_only]
theorem execFlashResetDone_ends {r0 : State} (unit : MasterId) (s : State) (hC : OnlyChanges workParts r0 s) :
    Ends r0 (execFlashResetDone unit s) := by
  unfold execFlashResetDone
  simp_all (maxDischargeDepth := 60) [workParts_mem, List.cons_subset, List.nil_subset, and_self, State.onFlash_only,
      finish_ends, onFl_only, shadowDone_only, ite_only, ends_ite, ends_next, only_foldl]
theorem execFlashOarReload_ends {r0 : State} (_crew : Crew) (ch : Fin 32) (s : State) (hC : OnlyChanges
    workParts r0 s) : Ends r0 (execFlashOarReload _crew ch s) := by
  unfold execFlashOarReload
  simp (maxDischargeDepth := 60) only [hC, workParts_mem, List.cons_subset, List.nil_subset, and_self,
      oarReloadFlash_only, ends_next, ends_ite]
theorem execFlashPatrol_ends {r0 : State} (found : PatrolIn) (s : State) (hC : OnlyChanges workParts r0 s) :
    Ends r0 (execFlashPatrol found s) := by
  unfold execFlashPatrol
  refine ends_ite (ends_next hC) (finish_ends _ (only_foldl (fun s u h => ?_) _ _ ?_))
  · split
    · exact ite_only (badUnit_only _ _ _ _ (by decide) h) (unitFailed_only _ _ _ (by decide) h)
    · exact h
  · have hreads : OnlyChanges workParts r0 (patrolReads found (s.onFlash fun f => { f with patrolSeg := found.seg })) :=
      patrolReads_only _ _ (by decide) (State.onFlash_only _ _ (by decide) hC)
    exact ite_only (setSegment_only _ _ _ (by decide) hreads) hreads
theorem execDieRetire_ends {r0 : State} (die : Nat) (s : State) (hC : OnlyChanges workParts r0 s) : Ends r0
    (execDieRetire die s) := by
  unfold execDieRetire
  simp (maxDischargeDepth := 60) only [hC, workParts_mem, List.cons_subset, List.nil_subset, and_self, finish_ends,
      retireDie_only, ends_next, ends_ite]
theorem execDieRetireWalkDone_ends {r0 : State} (die : Nat) (s : State) (hC : OnlyChanges workParts r0 s) :
    Ends r0 (execDieRetireWalkDone die s) := by
  unfold execDieRetireWalkDone
  simp (maxDischargeDepth := 60) only [hC, workParts_mem,
      State.onFlash_only, ends_next]
theorem execBasinExchangeTimer_ends {r0 : State} (s : State) (hC : OnlyChanges workParts r0 s) : Ends r0
    (execBasinExchangeTimer s) := by
  unfold execBasinExchangeTimer
  simp_all (maxDischargeDepth := 60) [workParts_mem, List.cons_subset, List.nil_subset, and_self, exchangeBlock_only,
      finish_ends, ends_ite, ends_next, only_foldl]
theorem execSDieRecompute_ends {r0 : State} (t999 programs : Nat) (s : State) (hC : OnlyChanges workParts r0
    s) : Ends r0 (execSDieRecompute t999 programs s) := by
  unfold execSDieRecompute
  simp (maxDischargeDepth := 60) only [hC, workParts_mem, List.cons_subset, List.nil_subset, and_self,
      State.onFlash_only, budgetCheck_only, finish_ends, ends_next, ends_ite]
theorem execWeirPublish_ends {r0 : State} (crew : Crew) (level : Nat) (s : State) (hC : OnlyChanges workParts
    r0 s) : Ends r0 (execWeirPublish crew level s) := by
  unfold execWeirPublish
  simp (maxDischargeDepth := 60) only [hC, workParts_mem, List.cons_subset, List.nil_subset, and_self, finish_ends,
      publishOp_only, ends_next, ends_ite]
theorem execWeirRecompute_ends {r0 : State} (s : State) (hC : OnlyChanges workParts r0 s) : Ends r0
    (execWeirRecompute s) := by
  unfold execWeirRecompute
  simp (maxDischargeDepth := 60) only [hC, workParts_mem, List.cons_subset, List.nil_subset, and_self, finish_ends,
      learnCheck_only, publishComputed_only, recompute_only, ends_next, ends_ite]
theorem execCoxswainWeirRecompute_ends {r0 : State} (s : State) (hC : OnlyChanges workParts r0 s) : Ends r0
    (execCoxswainWeirRecompute s) := by
  unfold execCoxswainWeirRecompute
  simp (maxDischargeDepth := 60) only [hC, workParts_mem, List.cons_subset, List.nil_subset, and_self,
      State.onWeir_only, finish_ends, retest_only, weirCheck_only, ends_next, ends_ite]
theorem execWeirFloorSet_ends {r0 : State} (s : State) (hC : OnlyChanges workParts r0 s) : Ends r0
    (execWeirFloorSet s) := by
  unfold execWeirFloorSet
  simp (maxDischargeDepth := 60) only [hC, workParts_mem, List.cons_subset, List.nil_subset, and_self, finish_ends,
      limitsOp_only, ends_next, ends_ite]
theorem execWeirDecayStart_ends {r0 : State} (s : State) (hC : OnlyChanges workParts r0 s) : Ends r0
    (execWeirDecayStart s) := by
  unfold execWeirDecayStart
  simp (maxDischargeDepth := 60) only [hC, workParts_mem, List.cons_subset, List.nil_subset, and_self,
      State.onWeir_only, finish_ends, record_only, trialFail_only, weirCheck_only, ends_next, ends_ite, ite_only]
theorem execWeirDecayFloor_ends {r0 : State} (s : State) (hC : OnlyChanges workParts r0 s) : Ends r0
    (execWeirDecayFloor s) := by
  unfold execWeirDecayFloor
  simp (maxDischargeDepth := 60) only [hC, workParts_mem, List.cons_subset, List.nil_subset, and_self,
      State.onWeir_only, finish_ends, weirCheck_only, ends_next, ends_ite]
theorem execGaugeRecordWrite_ends {r0 : State} (s : State) (hC : OnlyChanges workParts r0 s) : Ends r0
    (execGaugeRecordWrite s) :=
    by
  unfold execGaugeRecordWrite
  simp (maxDischargeDepth := 60) only [hC, workParts_mem, List.cons_subset, List.nil_subset, and_self,
      writeGaugeRec_only, ends_next, ends_ite]
theorem execPackidRead_ends {r0 : State} (mv : Nat) (descriptorValid : Bool) (s : State) (hC : OnlyChanges
    workParts r0 s) : Ends r0 (execPackidRead mv descriptorValid s) := by
  unfold execPackidRead
  simp (maxDischargeDepth := 60) only [hC, workParts_mem, List.cons_subset, List.nil_subset, and_self,
      State.onBat_only, State.onSave_only, finish_ends, takeCode_only, ends_next, ends_ite]
theorem execThermistorOpen_ends {r0 : State} (str : Str) (s : State) (hC : OnlyChanges workParts r0 s) : Ends
    r0 (execThermistorOpen str s) := by
  unfold execThermistorOpen
  simp (maxDischargeDepth := 60) only [hC, workParts_mem, List.cons_subset, List.nil_subset, and_self,
      chargeCheck_only, finish_ends, onStr_only, removeStr_only, ends_next, ends_ite]
theorem execThermistorPresent_ends {r0 : State} (str : Str) (s : State) (hC : OnlyChanges workParts r0 s) :
    Ends r0 (execThermistorPresent str s) := by
  unfold execThermistorPresent
  simp (maxDischargeDepth := 60) only [hC, workParts_mem, List.cons_subset, List.nil_subset, and_self, afterPack_only,
      chargeCheck_only, descriptorCheck_only, finish_ends, onStr_only, packChange_only, ends_next, ends_ite, ite_only]
theorem execRestQualified_ends {r0 : State} (str : Str) (s : State) (hC : OnlyChanges workParts r0 s) : Ends
    r0 (execRestQualified str s) := by
  unfold execRestQualified
  simp (maxDischargeDepth := 60) only [hC, workParts_mem, List.cons_subset, List.nil_subset, and_self,
      endForcedRest_only, finish_ends, onStr_only, restAnchor_only, ends_next, ends_ite]
theorem execInsertionRest_ends {r0 : State} (str : Str) (s : State) (hC : OnlyChanges workParts r0 s) : Ends
    r0 (execInsertionRest str s) := by
  unfold execInsertionRest
  simp (maxDischargeDepth := 60) only [hC, workParts_mem, List.cons_subset, List.nil_subset, and_self, finish_ends,
      restAnchor_only, ends_next, ends_ite]
theorem execFullFlag_ends {r0 : State} (str : Str) (s : State) (hC : OnlyChanges workParts r0 s) : Ends r0
    (execFullFlag str s) :=
    by
  unfold execFullFlag
  simp (maxDischargeDepth := 60) only [hC, workParts_mem, List.cons_subset, List.nil_subset, and_self, anchorAt_only,
      chargeCheck_only, finish_ends, onStr_only, unprotectedCheck_only, ends_next, ends_ite]
theorem execChargeRestart_ends {r0 : State} (str : Str) (s : State) (hC : OnlyChanges workParts r0 s) : Ends
    r0 (execChargeRestart str s) := by
  unfold execChargeRestart
  dsimp only
  (repeat' split) <;> simp (maxDischargeDepth := 60) only [hC, workParts_mem, List.cons_subset, List.nil_subset,
      and_self, chargeCheck_only, onStr_only, ends_next]
theorem execRhoDriftDay_ends {r0 : State} (str : Str) (s : State) (hC : OnlyChanges workParts r0 s) : Ends r0
    (execRhoDriftDay str s) := by
  unfold execRhoDriftDay
  dsimp only
  (repeat' split) <;> simp (maxDischargeDepth := 60) only [hC, workParts_mem, List.cons_subset, List.nil_subset,
      and_self, onStr_only, ends_next]
theorem execLearnDue_ends {r0 : State} (str : Str) (entriesOk : Bool) (s : State) (hC : OnlyChanges workParts
    r0 s) : Ends r0 (execLearnDue str entriesOk s) := by
  unfold execLearnDue
  simp (maxDischargeDepth := 60) only [hC, workParts_mem, List.cons_subset, List.nil_subset, and_self, finish_ends,
      startLearn_only, ends_next, ends_ite]
theorem execLearnNoCurrent_ends {r0 : State} (str : Str) (s : State) (hC : OnlyChanges workParts r0 s) : Ends
    r0 (execLearnNoCurrent str s) := by
  unfold execLearnNoCurrent
  simp (maxDischargeDepth := 60) only [hC, workParts_mem, List.cons_subset, List.nil_subset, and_self, finish_ends,
      stopLearn_only, ends_next, ends_ite]
theorem execChargerEntryRetry_ends {r0 : State} (str : Str) (entriesOk : Bool) (s : State) (hC : OnlyChanges
    workParts r0 s) : Ends r0 (execChargerEntryRetry str entriesOk s) := by
  unfold execChargerEntryRetry
  simp (maxDischargeDepth := 60) only [hC, workParts_mem, List.cons_subset, List.nil_subset, and_self, busStop_only,
      chargeCheck_only, finish_ends, localFailed_only, onStr_only, record_only, ends_next, ends_ite]
theorem execForcedRestDue_ends {r0 : State} (str : Str) (s : State) (hC : OnlyChanges workParts r0 s) : Ends
    r0 (execForcedRestDue str s) := by
  unfold execForcedRestDue
  simp (maxDischargeDepth := 60) only [hC, workParts_mem, List.cons_subset, List.nil_subset, and_self,
      chargeCheck_only, onStr_only, ends_next, ends_ite]
theorem execForcedRestFail_ends {r0 : State} (str : Str) (s : State) (hC : OnlyChanges workParts r0 s) : Ends
    r0 (execForcedRestFail str s) := by
  unfold execForcedRestFail
  simp (maxDischargeDepth := 60) only [hC, workParts_mem, List.cons_subset, List.nil_subset, and_self,
      chargeCheck_only, finish_ends, onStr_only, record_only, ends_next, ends_ite]
theorem execGaugeSample_ends {r0 : State} (a b : Sample) (s : State) (hC : OnlyChanges workParts r0 s) : Ends
    r0 (execGaugeSample a b s) := by
  unfold execGaugeSample
  dsimp only
  (repeat' split) <;> simp (maxDischargeDepth := 60) only [hC, workParts_mem, List.cons_subset, List.nil_subset,
      and_self, State.onBat_only, chargeCheck_only, crewsSample_only, finish_ends, ends_next]
theorem execPwrChgCtrlWrite_ends {r0 : State} (value : BitVec 32) (s : State) (hC : OnlyChanges workParts r0
    s) : Ends r0 (execPwrChgCtrlWrite value s) := by
  unfold execPwrChgCtrlWrite
  simp (maxDischargeDepth := 60) only [hC, workParts_mem, List.cons_subset, List.nil_subset, and_self, chgCtrlOp_only,
      ends_next, ends_ite]
theorem execStringStateSetting_ends {r0 : State} (str : Str) (st : StrState) (reason : StrReason) (paused :
    Bool) (s : State) (hC : OnlyChanges workParts r0 s) : Ends r0 (execStringStateSetting str st reason paused
    s) := by
  unfold execStringStateSetting
  simp (maxDischargeDepth := 60) only [hC, workParts_mem, List.cons_subset, List.nil_subset, and_self, finish_ends,
      stringStateOp_only, ends_next, ends_ite]
theorem execWaterlineRecord_ends {r0 : State} (r : WlReq) (s : State) (hC : OnlyChanges workParts r0 s) : Ends
    r0 (execWaterlineRecord r s) := by
  unfold execWaterlineRecord
  simp (maxDischargeDepth := 60) only [hC, workParts_mem, List.cons_subset, List.nil_subset, and_self,
      waterlineOp_only, ends_next, ends_ite]
theorem execStagedRecord_ends {r0 : State} (r : WlReq) (s : State) (hC : OnlyChanges workParts r0 s) : Ends r0
    (execStagedRecord r s) := by
  unfold execStagedRecord
  simp (maxDischargeDepth := 60) only [hC, workParts_mem, List.cons_subset, List.nil_subset, and_self,
      recordWith_only, ends_next, ends_ite]
theorem execLedgerCommit_ends {r0 : State} (c : OtherCommit) (s : State) (hC : OnlyChanges workParts r0 s) :
    Ends r0 (execLedgerCommit c s) := by
  unfold execLedgerCommit
  simp (maxDischargeDepth := 60) only [hC, workParts_mem, List.cons_subset, List.nil_subset, and_self, commitOp_only,
      ends_next, ends_ite]
theorem execWaterlineExport_ends {r0 : State} (ok : Bool) (s : State) (hC : OnlyChanges workParts r0 s) : Ends
    r0 (execWaterlineExport ok s) := by
  unfold execWaterlineExport
  simp (maxDischargeDepth := 60) only [hC, workParts_mem, List.cons_subset, List.nil_subset, and_self, exportOp_only,
      record_only, ends_next, ends_ite]
theorem execLedgerTest_ends {r0 : State} (found : LedgerFound) (s : State) (hC : OnlyChanges workParts r0 s) :
    Ends r0 (execLedgerTest found s) := by
  unfold execLedgerTest
  simp (maxDischargeDepth := 60) only [hC, workParts_mem, List.cons_subset, List.nil_subset, and_self,
      State.onLedger_only, dropCorrupt_only, restoreLedger_only, ends_next, ends_ite]
theorem execSaveDrainDone_ends {r0 : State} (s : State) (hC : OnlyChanges workParts r0 s) : Ends r0
    (execSaveDrainDone s) := by
  unfold execSaveDrainDone
  simp (maxDischargeDepth := 60) only [hC, workParts_mem, List.cons_subset, List.nil_subset, and_self,
      State.onSave_only, drainAll_only, dropIsolated_only, finish_ends, powerPath_only, writeBack_only, ends_next,
      ends_ite]
theorem execSaveStarted_ends {r0 : State} (s : State) (hC : OnlyChanges workParts r0 s) : Ends r0
    (execSaveStarted s) := by
  unfold execSaveStarted
  simp (maxDischargeDepth := 60) only [hC, workParts_mem, List.cons_subset, List.nil_subset, and_self, finish_ends,
      startedOp_only, ends_next, ends_ite]
theorem execMapSaved_ends {r0 : State} (s : State) (hC : OnlyChanges workParts r0 s) : Ends r0 (execMapSaved
    s) := by
  unfold execMapSaved
  simp (maxDischargeDepth := 60) only [hC, workParts_mem, List.cons_subset, List.nil_subset, and_self,
      State.onBasin_only, State.onSave_only, commit_only, finish_ends, nextPhase_only, ends_next, ends_ite]
theorem execCursor_ends {r0 : State} (openSeq page : Nat) (s : State) (hC : OnlyChanges workParts r0 s) : Ends
    r0 (execCursor openSeq page s) := by
  unfold execCursor
  simp (maxDischargeDepth := 60) only [hC, workParts_mem, List.cons_subset, List.nil_subset, and_self, cursorOp_only,
      finish_ends, ends_next, ends_ite]
theorem execBucketDone_ends {r0 : State} (s : State) (hC : OnlyChanges workParts r0 s) : Ends r0
    (execBucketDone s) := by
  unfold execBucketDone
  (repeat' split) <;> simp (maxDischargeDepth := 60) only [hC, workParts_mem, List.cons_subset, List.nil_subset,
      and_self, bucketDoneOp_only, finish_ends, ends_next]
theorem execRootsSaved_ends {r0 : State} (s : State) (hC : OnlyChanges workParts r0 s) : Ends r0
    (execRootsSaved s) := by
  unfold execRootsSaved
  simp (maxDischargeDepth := 60) only [hC, workParts_mem, List.cons_subset, List.nil_subset, and_self, finish_ends,
      rootsOp_only, ends_next, ends_ite]
theorem execSaved_ends {r0 : State} (s : State) (hC : OnlyChanges workParts r0 s) : Ends r0 (execSaved s) := by
  unfold execSaved
  simp (maxDischargeDepth := 60) only [hC, workParts_mem, List.cons_subset, List.nil_subset, and_self, finish_ends,
      savedOp_only, ends_next, ends_ite]
theorem execSaveTimeLimit_ends {r0 : State} (s : State) (hC : OnlyChanges workParts r0 s) : Ends r0
    (execSaveTimeLimit s) := by
  unfold execSaveTimeLimit
  simp (maxDischargeDepth := 60) only [hC, workParts_mem, List.cons_subset, List.nil_subset, and_self,
      stopWriting_only, ends_next, ends_ite]
theorem execSagDetect_ends {r0 : State} (belowA belowB : Bool) (s : State) (hC : OnlyChanges workParts r0 s) :
    Ends r0 (execSagDetect belowA belowB s) := by
  unfold execSagDetect
  simp (maxDischargeDepth := 60) only [hC, workParts_mem, List.cons_subset, List.nil_subset, and_self, finish_ends,
      halve_only, ends_next, ends_ite]
theorem execHalvingHoldOffEnd_ends {r0 : State} (still : Bool) (s : State) (hC : OnlyChanges workParts r0 s) :
    Ends r0 (execHalvingHoldOffEnd still s) := by
  unfold execHalvingHoldOffEnd
  simp (maxDischargeDepth := 60) only [hC, workParts_mem, List.cons_subset, List.nil_subset, and_self, finish_ends,
      halve_only, ends_next, ends_ite]
theorem execSaveCutoff_ends {r0 : State} (belowA belowB forOneMs : Bool) (s : State) (hC : OnlyChanges
    workParts r0 s) : Ends r0 (execSaveCutoff belowA belowB forOneMs s) := by
  unfold execSaveCutoff
  simp (maxDischargeDepth := 60) only [hC, workParts_mem, List.cons_subset, List.nil_subset, and_self, finish_ends,
      lastGasp_only, ends_next, ends_ite]
theorem execCrewsSilentTimeout_ends {r0 : State} (s : State) (hC : OnlyChanges workParts r0 s) : Ends r0
    (execCrewsSilentTimeout s) := by
  unfold execCrewsSilentTimeout
  simp (maxDischargeDepth := 60) only [hC, workParts_mem, List.cons_subset, List.nil_subset, and_self, finish_ends,
      lastGasp_only, ends_next, ends_ite]
theorem execEmptySetSaveTimeout_ends {r0 : State} (s : State) (hC : OnlyChanges workParts r0 s) : Ends r0
    (execEmptySetSaveTimeout s) := by
  unfold execEmptySetSaveTimeout
  simp (maxDischargeDepth := 60) only [hC, workParts_mem, List.cons_subset, List.nil_subset, and_self, finish_ends,
      lastGasp_only, ends_next, ends_ite]
theorem execLedgerHoldTimeout_ends {r0 : State} (s : State) (hC : OnlyChanges workParts r0 s) : Ends r0
    (execLedgerHoldTimeout s) := by
  unfold execLedgerHoldTimeout
  simp (maxDischargeDepth := 60) only [hC, workParts_mem, List.cons_subset, List.nil_subset, and_self,
      dropLedgerHold_only, ends_next, ends_ite]
theorem execSaveRelease_ends {r0 : State} (s : State) (hC : OnlyChanges workParts r0 s) : Ends r0
    (execSaveRelease s) := by
  unfold execSaveRelease
  simp (maxDischargeDepth := 60) only [hC, workParts_mem, List.cons_subset, List.nil_subset, and_self, releaseOp_only,
      ends_next, ends_ite]
theorem execPowerDownCommand_ends {r0 : State} (s : State) (hC : OnlyChanges workParts r0 s) : Ends r0
    (execPowerDownCommand s) :=
    by
  unfold execPowerDownCommand
  simp (maxDischargeDepth := 60) only [hC, workParts_mem, List.cons_subset, List.nil_subset, and_self, finish_ends,
      powerDownOp_only, ends_next, ends_ite]
theorem execPwrfailNAssert_ends {r0 : State} (ns : Nat) (s : State) (hC : OnlyChanges workParts r0 s) : Ends
    r0 (execPwrfailNAssert ns s) := by
  unfold execPwrfailNAssert
  simp (maxDischargeDepth := 60) only [hC, workParts_mem, List.cons_subset, List.nil_subset, and_self,
      State.onSave_only, finish_ends, startHeld_only, trigger_only, ends_next, ends_ite]
theorem execVinSenseFall_ends {r0 : State} (s : State) (hC : OnlyChanges workParts r0 s) : Ends r0
    (execVinSenseFall s) := by
  unfold execVinSenseFall
  simp (maxDischargeDepth := 60) only [hC, workParts_mem, List.cons_subset, List.nil_subset, and_self,
      State.onSeq_only, chargeCheck_only, finish_ends, noSaveDown_only, trigger_only, ends_next, ends_ite]
theorem execVinSenseRise_ends {r0 : State} (s : State) (hC : OnlyChanges workParts r0 s) : Ends r0
    (execVinSenseRise s) := by
  unfold execVinSenseRise
  simp (maxDischargeDepth := 60) only [hC, workParts_mem, List.cons_subset, List.nil_subset, and_self,
      State.onSeq_only, chargeCheck_only, finish_ends, ends_next, ends_ite]
theorem execRailOnDelay_ends {r0 : State} (n : Fin 16) (s : State) (hC : OnlyChanges workParts r0 s) : Ends r0
    (execRailOnDelay n s) := by
  unfold execRailOnDelay
  simp (maxDischargeDepth := 60) only [hC, workParts_mem, List.cons_subset, List.nil_subset, and_self,
      railEnable_only, ends_next, ends_ite]
theorem execRailRisen_ends {r0 : State} (n : Fin 16) (code : BitVec 12) (s : State) (hC : OnlyChanges
    workParts r0 s) : Ends r0 (execRailRisen n code s) := by
  unfold execRailRisen
  simp (maxDischargeDepth := 60) only [hC, workParts_mem, List.cons_subset, List.nil_subset, and_self,
      completeState_only, finish_ends, onRail_only, vmonSample_only, ends_next, ends_ite]
theorem execStateCompleteNoRail_ends {r0 : State} (s : State) (hC : OnlyChanges workParts r0 s) : Ends r0
    (execStateCompleteNoRail s) := by
  unfold execStateCompleteNoRail
  simp (maxDischargeDepth := 60) only [hC, workParts_mem, List.cons_subset, List.nil_subset, and_self,
      completeState_only, finish_ends, ends_next, ends_ite]
theorem execResetStretchEnd_ends {r0 : State} (flash : Bool) (s : State) (hC : OnlyChanges workParts r0 s) :
    Ends r0 (execResetStretchEnd flash s) := by
  unfold execResetStretchEnd
  simp (maxDischargeDepth := 60) only [hC, workParts_mem,
      State.onFlash_only, State.onSeq_only, ends_next, ends_ite, ite_only]
theorem execVddAonValid_ends {r0 : State} (s : State) (hC : OnlyChanges workParts r0 s) : Ends r0
    (execVddAonValid s) := by
  unfold execVddAonValid
  simp (maxDischargeDepth := 60) only [hC, workParts_mem, List.cons_subset, List.nil_subset, and_self,
      State.onBoot_only, State.onSeq_only, State.onWl_only, raiseCall_only, toAux_only, ends_next, ends_ite, ite_only]
theorem execStrapSample_ends {r0 : State} (lane : BitVec 6) (headmode boathouseN testmodeN : Bool) (s : State)
    (hC : OnlyChanges workParts r0 s) : Ends r0 (execStrapSample lane headmode boathouseN testmodeN s) := by
  unfold execStrapSample
  simp (maxDischargeDepth := 60) only [hC, workParts_mem,
      State.onBoot_only, State.onBus_only, ends_next, ends_ite]
theorem execMinimumDarkTime_ends {r0 : State} (s : State) (hC : OnlyChanges workParts r0 s) : Ends r0
    (execMinimumDarkTime s) := by
  unfold execMinimumDarkTime
  simp (maxDischargeDepth := 60) only [hC, workParts_mem, List.cons_subset, List.nil_subset, and_self, toAux_only,
      ends_next, ends_ite]
theorem execBoardProfileRead_ends {r0 : State} (found : ProfileIn) (s : State) (hC : OnlyChanges workParts r0
    s) : Ends r0 (execBoardProfileRead found s) := by
  unfold execBoardProfileRead
  simp (maxDischargeDepth := 60) only [hC, workParts_mem, List.cons_subset, List.nil_subset, and_self,
      applyPorts_only, profileOp_only, ends_next, ends_ite]
theorem execBoardProfileRetry_ends {r0 : State} (found : ProfileIn) (s : State) (hC : OnlyChanges workParts r0
    s) : Ends r0 (execBoardProfileRetry found s) := by
  unfold execBoardProfileRetry
  simp (maxDischargeDepth := 60) only [hC, workParts_mem, List.cons_subset, List.nil_subset, and_self,
      applyPorts_only, profileOp_only, ends_next, ends_ite]
theorem execAuxReady_ends {r0 : State} (s : State) (hC : OnlyChanges workParts r0 s) : Ends r0 (execAuxReady
    s) := by
  unfold execAuxReady
  simp (maxDischargeDepth := 60) only [hC, workParts_mem,
      State.onSeq_only, ends_next, ends_ite]
theorem execCatchPulseEnd_ends {r0 : State} (s : State) (hC : OnlyChanges workParts r0 s) : Ends r0
    (execCatchPulseEnd s) := by
  unfold execCatchPulseEnd
  simp (maxDischargeDepth := 60) only [hC, workParts_mem,
      State.onSeq_only, ends_next, ends_ite]
theorem execMainPowerAbsentTimeout_ends {r0 : State} (s : State) (hC : OnlyChanges workParts r0 s) : Ends r0
    (execMainPowerAbsentTimeout s) := by
  unfold execMainPowerAbsentTimeout
  simp (maxDischargeDepth := 60) only [hC, workParts_mem,
      State.onSeq_only, ends_next, ends_ite]
theorem execCatchRisingEdge_ends {r0 : State} (s : State) (hC : OnlyChanges workParts r0 s) : Ends r0
    (execCatchRisingEdge s) := by
  unfold execCatchRisingEdge
  simp (maxDischargeDepth := 60) only [hC, workParts_mem, List.cons_subset, List.nil_subset, and_self,
      State.onSeq_only, finish_ends, startState_only, ends_next, ends_ite]
theorem execLaneStaggerExpiry_ends {r0 : State} (s : State) (hC : OnlyChanges workParts r0 s) : Ends r0
    (execLaneStaggerExpiry s) := by
  unfold execLaneStaggerExpiry
  simp (maxDischargeDepth := 60) only [hC, workParts_mem, List.cons_subset, List.nil_subset, and_self, finish_ends,
      startState_only, ends_next, ends_ite]
theorem execCatchResync_ends {r0 : State} (s : State) (hC : OnlyChanges workParts r0 s) : Ends r0
    (execCatchResync s) := by
  unfold execCatchResync
  simp (maxDischargeDepth := 60) only [hC, workParts_mem, List.cons_subset, List.nil_subset, and_self,
      State.onSeq_only, finish_ends, powerDownDark_only, record_only, ends_next, ends_ite]
theorem execCatchGlitch_ends {r0 : State} (s : State) (hC : OnlyChanges workParts r0 s) : Ends r0
    (execCatchGlitch s) := by
  unfold execCatchGlitch
  simp (maxDischargeDepth := 60) only [hC, workParts_mem,
      State.onSeq_only, ends_next, ends_ite]
theorem execStepLimitWait_ends {r0 : State} (s : State) (hC : OnlyChanges workParts r0 s) : Ends r0
    (execStepLimitWait s) := by
  unfold execStepLimitWait
  simp (maxDischargeDepth := 60) only [hC, workParts_mem, List.cons_subset, List.nil_subset, and_self,
      State.onSeq_only, record_only, ends_next, ends_ite]
theorem execRailOffDelay_ends {r0 : State} (n : Fin 16) (s : State) (hC : OnlyChanges workParts r0 s) : Ends
    r0 (execRailOffDelay n s) := by
  unfold execRailOffDelay
  simp (maxDischargeDepth := 60) only [hC, workParts_mem, List.cons_subset, List.nil_subset, and_self,
      railDisable_only, ends_next, ends_ite]
theorem execRailFallen_ends {r0 : State} (n : Fin 16) (code : BitVec 12) (s : State) (hC : OnlyChanges
    workParts r0 s) : Ends r0 (execRailFallen n code s) := by
  unfold execRailFallen
  simp (maxDischargeDepth := 60) only [hC, workParts_mem, List.cons_subset, List.nil_subset, and_self, finish_ends,
      onRail_only, railGone_only, vmonSample_only, ends_next, ends_ite]
theorem execFallTimeout_ends {r0 : State} (n : Fin 16) (s : State) (hC : OnlyChanges workParts r0 s) : Ends r0
    (execFallTimeout n s) := by
  unfold execFallTimeout
  simp (maxDischargeDepth := 60) only [hC, workParts_mem, List.cons_subset, List.nil_subset, and_self, finish_ends,
      onRail_only, railGone_only, record_only, free_only, ends_next, ends_ite]
theorem execRiseTimeout_ends {r0 : State} (n : Fin 16) (s : State) (hC : OnlyChanges workParts r0 s) : Ends r0
    (execRiseTimeout n s) := by
  unfold execRiseTimeout
  simp (maxDischargeDepth := 60) only [hC, workParts_mem, List.cons_subset, List.nil_subset, and_self,
      State.onSeq_only, finish_ends, onRail_only, record_only, reverseNext_only, setLatch_only, ends_next, ends_ite]
theorem execRailWarning_ends {r0 : State} (n : Fin 16) (ov : Bool) (code : BitVec 12) (s : State) (hC :
    OnlyChanges workParts r0 s) : Ends r0 (execRailWarning n ov code s) := by
  unfold execRailWarning
  simp (maxDischargeDepth := 60) only [hC, workParts_mem, List.cons_subset, List.nil_subset, and_self,
      criticalWarning_only, finish_ends, onRail_only, record_only, vmonSample_only, ends_next, ends_ite, ite_only]
theorem execRailFault_ends {r0 : State} (n : Fin 16) (kind : RailFaultKind) (code : BitVec 12) (s : State) (hC
    : OnlyChanges workParts r0 s) : Ends r0 (execRailFault n kind code s) := by
  unfold execRailFault
  dsimp only
  (repeat' split) <;> simp (maxDischargeDepth := 60) only [hC, workParts_mem, List.cons_subset, List.nil_subset,
      and_self, cutRails_only, faultCut_only, finish_ends, onRail_only, record_only, secondFault_only, setLatch_only,
      vmonSample_only, ends_next]
theorem execRailEvalResume_ends {r0 : State} (s : State) (hC : OnlyChanges workParts r0 s) : Ends r0
    (execRailEvalResume s) := by
  unfold execRailEvalResume
  simp (maxDischargeDepth := 60) only [hC, workParts_mem,
      State.onSeq_only, ends_next, ends_ite]
theorem execJunctionTemperature_ends {r0 : State} (celsius : Int) (s : State) (hC : OnlyChanges workParts r0
    s) : Ends r0 (execJunctionTemperature celsius s) := by
  unfold execJunctionTemperature
  simp (maxDischargeDepth := 60) only [hC, workParts_mem, List.cons_subset, List.nil_subset, and_self,
      State.onCxl_only, finish_ends, halve_only, raise_only, recordFree_only, ends_next, ends_ite, ite_only]
theorem execOffCommand_ends {r0 : State} (p : Path) (s : State) (hC : OnlyChanges workParts r0 s) : Ends r0
    (execOffCommand p s) :=
    by
  unfold execOffCommand
  simp (maxDischargeDepth := 60) only [hC, workParts_mem, List.cons_subset, List.nil_subset, and_self, finish_ends,
      offOp_only, serve_only, turnAway_only, ends_next, ends_ite]
theorem execOnCommand_ends {r0 : State} (p : Path) (s : State) (hC : OnlyChanges workParts r0 s) : Ends r0
    (execOnCommand p s) := by
  unfold execOnCommand
  simp (maxDischargeDepth := 60) only [hC, workParts_mem, List.cons_subset, List.nil_subset, and_self, finish_ends,
      notInBoathouse_only, onOp_only, serve_only, turnAway_only, ends_next, ends_ite]
theorem execLatchClear_ends {r0 : State} (p : Path) (v : Byte) (s : State) (hC : OnlyChanges workParts r0 s) :
    Ends r0 (execLatchClear p v s) := by
  unfold execLatchClear
  simp (maxDischargeDepth := 60) only [hC, workParts_mem, List.cons_subset, List.nil_subset, and_self, finish_ends,
      latchWrite_only, notInBoathouse_only, serve_only, turnAway_only, ends_next, ends_ite]
theorem execCleanShutdownDrained_ends {r0 : State} (s : State) (hC : OnlyChanges workParts r0 s) : Ends r0
    (execCleanShutdownDrained s) := by
  unfold execCleanShutdownDrained
  (repeat' split) <;> simp (maxDischargeDepth := 60) only [hC, workParts_mem, List.cons_subset, List.nil_subset,
      and_self, State.onSeq_only, checkpointOp_only, finish_ends, ends_next]
theorem execShutdownClean_ends {r0 : State} (s : State) (hC : OnlyChanges workParts r0 s) : Ends r0
    (execShutdownClean s) := by
  unfold execShutdownClean
  simp (maxDischargeDepth := 60) only [hC, workParts_mem, List.cons_subset, List.nil_subset, and_self, commit_only,
      finish_ends, powerDownTo_only, ends_next, ends_ite]
theorem execFailedBoot_ends {r0 : State} (cause : BootFail) (s : State) (hC : OnlyChanges workParts r0 s) :
    Ends r0 (execFailedBoot cause s) := by
  unfold execFailedBoot
  simp (maxDischargeDepth := 60) only [hC, workParts_mem, List.cons_subset, List.nil_subset, and_self,
      State.onBoot_only, bootWrite_only, finish_ends, powerDownDark_only, recordFree_only, trialStops_only, ends_next,
      ends_ite, ite_only]
theorem execBlockReset_ends {r0 : State} (ch : Fin 8) (cause : ResetCause) (s : State) (hC : OnlyChanges
    workParts r0 s) : Ends r0 (execBlockReset ch cause s) := by
  unfold execBlockReset
  simp (maxDischargeDepth := 60) only [hC, workParts_mem, List.cons_subset, List.nil_subset, and_self, finish_ends,
      resetFault_only, ends_next, ends_ite]
theorem execDramOarReload_ends {r0 : State} (_crew : Crew) (ch : Fin 8) (s : State) (hC : OnlyChanges
    workParts r0 s) : Ends r0 (execDramOarReload _crew ch s) := by
  unfold execDramOarReload
  simp (maxDischargeDepth := 60) only [hC, workParts_mem, List.cons_subset, List.nil_subset, and_self,
      oarReloadDram_only, ends_next, ends_ite]
theorem execBlockResetDone_ends {r0 : State} (ch : Fin 8) (us : Nat) (ok : Bool) (s : State) (hC : OnlyChanges
    workParts r0 s) : Ends r0 (execBlockResetDone ch us ok s) := by
  unfold execBlockResetDone
  simp (maxDischargeDepth := 60) only [hC, workParts_mem, List.cons_subset, List.nil_subset, and_self,
      endBlockReset_only, finish_ends, isolate_only, ends_next, ends_ite]
theorem execChannelIsolated_ends {r0 : State} (ch : Fin 8) (s : State) (hC : OnlyChanges workParts r0 s) :
    Ends r0 (execChannelIsolated ch s) := by
  unfold execChannelIsolated
  simp (maxDischargeDepth := 60) only [hC, workParts_mem, List.cons_subset, List.nil_subset, and_self, commit_only,
      finish_ends, onCh_only, ends_next, ends_ite]
theorem execDdrAlert_ends {r0 : State} (ch : Fin 8) (sub : Fin 2) (kind : AlertKind) (failures : Nat) (s :
    State) (hC : OnlyChanges workParts r0 s) : Ends r0 (execDdrAlert ch sub kind failures s) := by
  unfold execDdrAlert
  (repeat' split) <;> simp (maxDischargeDepth := 60) only [hC, workParts_mem, List.cons_subset, List.nil_subset,
      and_self, finish_ends, raise_only, resetFault_only, free_only, ends_next]
theorem execLakebedRepairDone_ends {r0 : State} (line : Nat) (ok : Bool) (s : State) (hC : OnlyChanges
    workParts r0 s) : Ends r0 (execLakebedRepairDone line ok s) := by
  unfold execLakebedRepairDone
  (repeat' split) <;> simp (maxDischargeDepth := 60) only [hC, workParts_mem, List.cons_subset, List.nil_subset,
      and_self, finish_ends, release_only, repairFails_only, repairLine_only, ends_next]
theorem execRepairReadTimeout_ends {r0 : State} (id : Nat) (s : State) (hC : OnlyChanges workParts r0 s) :
    Ends r0 (execRepairReadTimeout id s) := by
  unfold execRepairReadTimeout
  (repeat' split) <;> simp (maxDischargeDepth := 60) only [hC, workParts_mem, List.cons_subset, List.nil_subset,
      and_self, State.onWb_only, answerPoison_only, finish_ends, ends_next]
theorem execRefreshTick_ends {r0 : State} (ch : Fin 8) (s : State) (hC : OnlyChanges workParts r0 s) : Ends r0
    (execRefreshTick ch s) := by
  unfold execRefreshTick
  simp (maxDischargeDepth := 60) only [hC, workParts_mem, List.cons_subset, List.nil_subset, and_self, onCh_only,
      free_only, ends_next, ends_ite]
theorem execZqCalibration_ends {r0 : State} (ch : Fin 8) (s : State) (hC : OnlyChanges workParts r0 s) : Ends
    r0 (execZqCalibration ch s) := by
  unfold execZqCalibration
  simp (maxDischargeDepth := 60) only [hC, workParts_mem, List.cons_subset, List.nil_subset, and_self, onCh_only,
      ends_next, ends_ite]
theorem execDqsTracking_ends {r0 : State} (ch : Fin 8) (s : State) (hC : OnlyChanges workParts r0 s) : Ends r0
    (execDqsTracking ch s) := by
  unfold execDqsTracking
  simp (maxDischargeDepth := 60) only [hC, workParts_mem, List.cons_subset, List.nil_subset, and_self, onCh_only,
      ends_next, ends_ite]
theorem execDramTemperatureRead_ends {r0 : State} (ch : Fin 8) (maxC : Int) (s : State) (hC : OnlyChanges
    workParts r0 s) : Ends r0 (execDramTemperatureRead ch maxC s) := by
  unfold execDramTemperatureRead
  simp (maxDischargeDepth := 60) only [hC, workParts_mem, List.cons_subset, List.nil_subset, and_self, finish_ends,
      onCh_only, record_only, ends_next, ends_ite]
theorem execPatrolScrub_ends {r0 : State} (ch : Fin 8) (line : Nat) (res : DramRead) (s : State) (hC :
    OnlyChanges workParts r0 s) : Ends r0 (execPatrolScrub ch line res s) := by
  unfold execPatrolScrub
  simp (maxDischargeDepth := 60) only [hC, workParts_mem, List.cons_subset, List.nil_subset, and_self, finish_ends,
      onCh_only, scrubLine_only, ends_next, ends_ite]
theorem execTrainingDone_ends {r0 : State} (ch : Fin 8) (stored pass : Bool) (s : State) (hC : OnlyChanges
    workParts r0 s) : Ends r0 (execTrainingDone ch stored pass s) := by
  unfold execTrainingDone
  simp (maxDischargeDepth := 60) only [hC, workParts_mem, List.cons_subset, List.nil_subset, and_self, finish_ends,
      fullFail_only, fullPass_only, onCh_only, ends_next, ends_ite, ite_only]
theorem execRestoreBegin_ends {r0 : State} (tailOk : Bool) (s : State) (hC : OnlyChanges workParts r0 s) :
    Ends r0 (execRestoreBegin tailOk s) := by
  unfold execRestoreBegin
  simp (maxDischargeDepth := 60) only [hC, workParts_mem, List.cons_subset, List.nil_subset, and_self,
      State.onBoot_only, State.onRst_only, failRestore_only, finish_ends, vector_only, ends_next, ends_ite]
theorem execRestoreStarted_ends {r0 : State} (s : State) (hC : OnlyChanges workParts r0 s) : Ends r0
    (execRestoreStarted s) := by
  unfold execRestoreStarted
  simp (maxDischargeDepth := 60) only [hC, workParts_mem, List.cons_subset, List.nil_subset, and_self,
      State.onRst_only, commit_only, finish_ends, record_only, ends_next, ends_ite]
theorem execRestoreMetadataLoaded_ends {r0 : State} (found : MetaIn) (s : State) (hC : OnlyChanges workParts
    r0 s) : Ends r0 (execRestoreMetadataLoaded found s) := by
  unfold execRestoreMetadataLoaded
  simp (maxDischargeDepth := 60) only [hC, workParts_mem, List.cons_subset, List.nil_subset, and_self,
      State.onLake_only, State.onRst_only, failRestore_only, finish_ends, ends_next, ends_ite]
theorem execConversionDone_ends {r0 : State} (s : State) (hC : OnlyChanges workParts r0 s) : Ends r0
    (execConversionDone s) := by
  unfold execConversionDone
  simp (maxDischargeDepth := 60) only [hC, workParts_mem, List.cons_subset, List.nil_subset, and_self, convertOp_only,
      finish_ends, weirCheck_only, ends_next, ends_ite]
theorem execEarlyOpenPoint_ends {r0 : State} (s : State) (hC : OnlyChanges workParts r0 s) : Ends r0
    (execEarlyOpenPoint s) := by
  unfold execEarlyOpenPoint
  simp (maxDischargeDepth := 60) only [hC, workParts_mem, List.cons_subset, List.nil_subset, and_self,
      State.onRst_only, finish_ends, makeReady_only, writeStubs_only, ends_next, ends_ite, ite_only]
theorem execMemoryReady_ends {r0 : State} (s : State) (hC : OnlyChanges workParts r0 s) : Ends r0
    (execMemoryReady s) := by
  unfold execMemoryReady
  simp (maxDischargeDepth := 60) only [hC, workParts_mem, List.cons_subset, List.nil_subset, and_self, commit_only,
      finish_ends, record_only, ends_next, ends_ite]
theorem execLakebedFillDone_ends {r0 : State} (failed : FillErrors) (s : State) (hC : OnlyChanges workParts r0
    s) : Ends r0 (execLakebedFillDone failed s) := by
  unfold execLakebedFillDone
  simp_all (maxDischargeDepth := 60) [workParts_mem, List.cons_subset, List.nil_subset, and_self, State.onRst_only,
      fillPage_only, finish_ends, writeErrors_only, ends_ite, ends_next, only_foldl]
theorem execBasinOverlayDone_ends {r0 : State} (failed : FillErrors) (s : State) (hC : OnlyChanges workParts
    r0 s) : Ends r0 (execBasinOverlayDone failed s) := by
  unfold execBasinOverlayDone
  simp_all (maxDischargeDepth := 60) [workParts_mem, List.cons_subset, List.nil_subset, and_self, State.onLog_only,
      State.onRst_only, fillPage_only, finish_ends, writeErrors_only, ends_ite, ends_next, only_foldl]
theorem execDemandFetchDone_ends {r0 : State} (page : Nat) (res : FetchRes) (us : Nat) (s : State) (hC :
    OnlyChanges workParts r0 s) : Ends r0 (execDemandFetchDone page res us s) := by
  unfold execDemandFetchDone
  simp (maxDischargeDepth := 60) only [hC, workParts_mem, List.cons_subset, List.nil_subset, and_self,
      State.onRst_only, dropFetchJobs_only, fillPage_only, finish_ends, release_only, releaseWrites_only,
      setRestored_only, writeErrors_only, ends_next, ends_ite, ite_only]
theorem execRestored_ends {r0 : State} (s : State) (hC : OnlyChanges workParts r0 s) : Ends r0 (execRestored
    s) := by
  unfold execRestored
  simp (maxDischargeDepth := 60) only [hC, workParts_mem, List.cons_subset, List.nil_subset, and_self, finish_ends,
      restoredOp_only, ends_next, ends_ite]
theorem execBasinErased_ends {r0 : State} (s : State) (hC : OnlyChanges workParts r0 s) : Ends r0
    (execBasinErased s) := by
  unfold execBasinErased
  simp (maxDischargeDepth := 60) only [hC, workParts_mem, List.cons_subset, List.nil_subset, and_self,
      State.onBasin_only, State.onRst_only, commit_only, finish_ends, sprintCheck_only, ends_next, ends_ite]
theorem execRestoreInterrupted_ends {r0 : State} (s : State) (hC : OnlyChanges workParts r0 s) : Ends r0
    (execRestoreInterrupted s) := by
  unfold execRestoreInterrupted
  simp (maxDischargeDepth := 60) only [hC, workParts_mem, List.cons_subset, List.nil_subset, and_self, cutRails_only,
      dropLedgerHold_only, finish_ends, flushCounts_only, windowCommit_only, ends_next, ends_ite]
theorem execFaultReport_ends {r0 : State} (f : FaultIn) (s : State) (hC : OnlyChanges workParts r0 s) : Ends
    r0 (execFaultReport f s) := by
  unfold execFaultReport
  simp (maxDischargeDepth := 60) only [hC, workParts_mem, List.cons_subset, List.nil_subset, and_self, finish_ends,
      reportFault_only, ends_next, ends_ite]
theorem execGraceExpiry_ends {r0 : State} (unit : MasterId) (s : State) (hC : OnlyChanges workParts r0 s) :
    Ends r0 (execGraceExpiry unit s) := by
  unfold execGraceExpiry
  simp (maxDischargeDepth := 60) only [hC, workParts_mem, List.cons_subset, List.nil_subset, and_self,
      expireGrace_only, finish_ends, ends_next, ends_ite]
theorem execChpFaultAck_ends {r0 : State} (faultId : BitVec 32) (master : MasterId) (s : State) (hC :
    OnlyChanges workParts r0 s) : Ends r0 (execChpFaultAck faultId master s) := by
  unfold execChpFaultAck
  simp (maxDischargeDepth := 60) only [hC, workParts_mem, List.cons_subset, List.nil_subset, and_self, ack_only,
      finish_ends, ends_next, ends_ite]
theorem execRasStatusClear_ends {r0 : State} (memory internal : Bool) (s : State) (hC : OnlyChanges workParts
    r0 s) : Ends r0 (execRasStatusClear memory internal s) := by
  unfold execRasStatusClear
  simp (maxDischargeDepth := 60) only [hC, workParts_mem, List.cons_subset, List.nil_subset, and_self,
      State.onHost_only, ackU_only, finish_ends, ite_only]
theorem execResetShadowEnd_ends {r0 : State} (unit : MasterId) (s : State) (hC : OnlyChanges workParts r0 s) :
    Ends r0 (execResetShadowEnd unit s) := by
  unfold execResetShadowEnd
  simp (maxDischargeDepth := 60) only [hC, workParts_mem, List.cons_subset, List.nil_subset, and_self,
      State.onFault_only, finish_ends, portBack_only, ends_next, ends_ite]
theorem execConditionClear_ends {r0 : State} (unit : MasterId) (s : State) (hC : OnlyChanges workParts r0 s) :
    Ends r0 (execConditionClear unit s) := by
  unfold execConditionClear
  simp (maxDischargeDepth := 60) only [hC, workParts_mem, List.cons_subset, List.nil_subset, and_self,
      setCapture_only, ends_next, ends_ite]
theorem execOdAcknowledge_ends {r0 : State} (p : Path) (faultId : BitVec 32) (s : State) (hC : OnlyChanges
    workParts r0 s) : Ends r0 (execOdAcknowledge p faultId s) := by
  unfold execOdAcknowledge
  simp (maxDischargeDepth := 60) only [hC, workParts_mem, List.cons_subset, List.nil_subset, and_self, ackWrite_only,
      finish_ends, notInBoathouse_only, serve_only, turnAway_only, ends_next, ends_ite]
theorem execErgometerMeasure_ends {r0 : State} (readings : List ErgoIn) (s : State) (hC : OnlyChanges
    workParts r0 s) : Ends r0 (execErgometerMeasure readings s) := by
  unfold execErgometerMeasure
  simp_all (maxDischargeDepth := 60) [workParts_mem, List.cons_subset, List.nil_subset, and_self, ergoTake_only,
      finish_ends, ends_ite, ends_next, only_foldl]
theorem execCoreVoltageStep_ends {r0 : State} (ok : Bool) (s : State) (hC : OnlyChanges workParts r0 s) : Ends
    r0 (execCoreVoltageStep ok s) := by
  unfold execCoreVoltageStep
  simp (maxDischargeDepth := 60) only [hC, workParts_mem, List.cons_subset, List.nil_subset, and_self, busStop_only,
      finish_ends, stepDone_only, stepFailed_only, ends_next, ends_ite, ite_only]
theorem execPlanTrigger_ends {r0 : State} (trig : PlanTrig) (s : State) (hC : OnlyChanges workParts r0 s) :
    Ends r0 (execPlanTrigger trig s) := by
  unfold execPlanTrigger
  (repeat' split) <;> simp (maxDischargeDepth := 60) only [hC, workParts_mem, List.cons_subset, List.nil_subset,
      and_self, State.onPlan_only, finish_ends, keptPlan_only, planTrigger_only, ends_next]
theorem execPlanRequest_ends {r0 : State} (p : Path) (v : Byte) (s : State) (hC : OnlyChanges workParts r0 s)
    : Ends r0 (execPlanRequest p v s) := by
  unfold execPlanRequest
  simp (maxDischargeDepth := 60) only [hC, workParts_mem, List.cons_subset, List.nil_subset, and_self, finish_ends,
      notInBoathouse_only, planWrite_only, serve_only, turnAway_only, ends_next, ends_ite]
theorem execRampSlackCheck_ends {r0 : State} (lowest : Int) (s : State) (hC : OnlyChanges workParts r0 s) :
    Ends r0 (execRampSlackCheck lowest s) := by
  unfold execRampSlackCheck
  simp (maxDischargeDepth := 60) only [hC, workParts_mem, List.cons_subset, List.nil_subset, and_self,
      State.onPlan_only, endPlan_only, finish_ends, keptPlan_only, ends_next, ends_ite, ite_only]
theorem execLandingCopy_ends {r0 : State} (crew : Crew) (coxCore : Bool) (landing : Landing) (stream : Stream)
    (seq digest : BitVec 32) (cmd : Landed) (s : State) (hC : OnlyChanges workParts r0 s) : Ends r0
    (execLandingCopy crew coxCore landing stream seq digest cmd s) := by
  unfold execLandingCopy
  simp (maxDischargeDepth := 60) only [hC, workParts_mem, List.cons_subset, List.nil_subset, and_self,
      State.onCrew_only, arrive_only, finish_ends, releaseLagged_only, ends_next, ends_ite]
theorem execPairingTimeout_ends {r0 : State} (landing : Landing) (stream : Stream) (seq : BitVec 32) (s :
    State) (hC : OnlyChanges workParts r0 s) : Ends r0 (execPairingTimeout landing stream seq s) := by
  unfold execPairingTimeout
  (repeat' split) <;> simp (maxDischargeDepth := 60) only [hC, workParts_mem, List.cons_subset, List.nil_subset,
      and_self, finish_ends, pairingOver_only, ends_next]
theorem execTimerTick_ends {r0 : State} (bow stroke : BitVec 32) (s : State) (hC : OnlyChanges workParts r0 s)
    : Ends r0 (execTimerTick bow stroke s) := by
  unfold execTimerTick
  simp (maxDischargeDepth := 60) only [hC, workParts_mem, List.cons_subset, List.nil_subset, and_self,
      digestFault_only, fanTick_only, finish_ends, onCrewUnit_only, resetFaulted_only, ends_next, ends_ite, ite_only]
theorem execSeatTokenCorrupt_ends {r0 : State} (found : Byte) (s : State) (hC : OnlyChanges workParts r0 s) :
    Ends r0 (execSeatTokenCorrupt found s) := by
  unfold execSeatTokenCorrupt
  simp (maxDischargeDepth := 60) only [hC, workParts_mem, List.cons_subset, List.nil_subset, and_self, arbitrate_only,
      finish_ends, releaseLagged_only, ends_next, ends_ite]
theorem execHealthSecond_ends {r0 : State} (crew : Crew) (s : State) (hC : OnlyChanges workParts r0 s) : Ends
    r0 (execHealthSecond crew s) := by
  unfold execHealthSecond
  simp (maxDischargeDepth := 60) only [hC, workParts_mem, List.cons_subset, List.nil_subset, and_self,
      onCrewUnit_only, ends_next, ends_ite]
theorem execCrewRejoinTimer_ends {r0 : State} (crew : Crew) (s : State) (hC : OnlyChanges workParts r0 s) :
    Ends r0 (execCrewRejoinTimer crew s) := by
  unfold execCrewRejoinTimer
  simp (maxDischargeDepth := 60) only [hC, workParts_mem, List.cons_subset, List.nil_subset, and_self,
      resetFaulted_only, startLoading_only, ends_next, ends_ite]
theorem execCrewLoadDone_ends {r0 : State} (crew : Crew) (verified : Bool) (s : State) (hC : OnlyChanges
    workParts r0 s) : Ends r0 (execCrewLoadDone crew verified s) := by
  unfold execCrewLoadDone
  simp (maxDischargeDepth := 60) only [hC, workParts_mem, List.cons_subset, List.nil_subset, and_self, finish_ends,
      loadDone_only, ends_next, ends_ite]
theorem execCatchupDone_ends {r0 : State} (crew : Crew) (s : State) (hC : OnlyChanges workParts r0 s) : Ends
    r0 (execCatchupDone crew s) := by
  unfold execCatchupDone
  simp (maxDischargeDepth := 60) only [hC, workParts_mem, List.cons_subset, List.nil_subset, and_self,
      emptyQueue_only, finish_ends, joinAlone_only, onCrewUnit_only, ends_next, ends_ite]
theorem execShadowClean_ends {r0 : State} (crew : Crew) (s : State) (hC : OnlyChanges workParts r0 s) : Ends
    r0 (execShadowClean crew s) := by
  unfold execShadowClean
  simp (maxDischargeDepth := 60) only [hC, workParts_mem, List.cons_subset, List.nil_subset, and_self, finish_ends,
      rejoined_only, ends_next, ends_ite]
theorem execSeatRequest_ends {r0 : State} (p : Path) (v : Byte) (s : State) (hC : OnlyChanges workParts r0 s)
    : Ends r0 (execSeatRequest p v s) := by
  unfold execSeatRequest
  simp (maxDischargeDepth := 60) only [hC, workParts_mem, List.cons_subset, List.nil_subset, and_self, finish_ends,
      notInBoathouse_only, seatWrite_only, serve_only, turnAway_only, ends_next, ends_ite]
theorem execCrewResetRequest_ends {r0 : State} (p : Path) (v : Byte) (s : State) (hC : OnlyChanges workParts
    r0 s) : Ends r0 (execCrewResetRequest p v s) := by
  unfold execCrewResetRequest
  simp (maxDischargeDepth := 60) only [hC, workParts_mem, List.cons_subset, List.nil_subset, and_self,
      crewResetWrite_only, finish_ends, notInBoathouse_only, serve_only, turnAway_only, ends_next, ends_ite]
theorem execUpdateOpen_ends {r0 : State} (p : Path) (length : Nat) (s : State) (hC : OnlyChanges workParts r0
    s) : Ends r0 (execUpdateOpen p length s) := by
  unfold execUpdateOpen
  simp (maxDischargeDepth := 60) only [hC, workParts_mem, List.cons_subset, List.nil_subset, and_self, finish_ends,
      openOp_only, serveAny_only, turnAway_only, ends_next, ends_ite]
theorem execUpdateBlock_ends {r0 : State} (p : Path) (session off : Nat) (data : List Byte) (readBack : Bool)
    (s : State) (hC : OnlyChanges workParts r0 s) : Ends r0 (execUpdateBlock p session off data readBack s) := by
  unfold execUpdateBlock
  simp (maxDischargeDepth := 60) only [hC, workParts_mem, List.cons_subset, List.nil_subset, and_self, blockOp_only,
      finish_ends, plain_only, serveAny_only, turnAway_only, ends_next, ends_ite]
theorem execUpdateAbort_ends {r0 : State} (p : Path) (session : Nat) (s : State) (hC : OnlyChanges workParts
    r0 s) : Ends r0 (execUpdateAbort p session s) := by
  unfold execUpdateAbort
  simp (maxDischargeDepth := 60) only [hC, workParts_mem, List.cons_subset, List.nil_subset, and_self, abortOp_only,
      finish_ends, plain_only, serveAny_only, turnAway_only, ends_next, ends_ite]
theorem execUpdateSessionIdle_ends {r0 : State} (s : State) (hC : OnlyChanges workParts r0 s) : Ends r0
    (execUpdateSessionIdle s) := by
  unfold execUpdateSessionIdle
  (repeat' split) <;> simp (maxDischargeDepth := 60) only [hC, workParts_mem, List.cons_subset, List.nil_subset,
      and_self, finish_ends, releaseSession_only, ends_next]
theorem execUpdateCommit_ends {r0 : State} (p : Path) (session : Nat) (s : State) (hC : OnlyChanges workParts
    r0 s) : Ends r0 (execUpdateCommit p session s) := by
  unfold execUpdateCommit
  simp (maxDischargeDepth := 60) only [hC, workParts_mem, List.cons_subset, List.nil_subset, and_self,
      commitStart_only, finish_ends, turnAway_only, ends_next, ends_ite]
theorem execUpdateVerifyDone_ends {r0 : State} (found : VerifyIn) (s : State) (hC : OnlyChanges workParts r0
    s) : Ends r0 (execUpdateVerifyDone found s) := by
  unfold execUpdateVerifyDone
  simp (maxDischargeDepth := 60) only [hC, workParts_mem, List.cons_subset, List.nil_subset, and_self, finish_ends,
      verifyDone_only, ends_next, ends_ite]
theorem execBoathouseCommit_ends {r0 : State} (p : Path) (session : Nat) (found : VerifyIn) (slotAOk slotBOk :
    Bool) (s : State) (hC : OnlyChanges workParts r0 s) : Ends r0 (execBoathouseCommit p session found slotAOk
    slotBOk s) := by
  unfold execBoathouseCommit
  simp (maxDischargeDepth := 60) only [hC, workParts_mem, List.cons_subset, List.nil_subset, and_self,
      commitStart_only, finish_ends, romFinds_only, verifyDone_only, ends_next, ends_ite]
theorem execUpdateHandover_ends {r0 : State} (s : State) (hC : OnlyChanges workParts r0 s) : Ends r0
    (execUpdateHandover s) := by
  unfold execUpdateHandover
  simp (maxDischargeDepth := 60) only [hC, workParts_mem, List.cons_subset, List.nil_subset, and_self, finish_ends,
      handOver_only, ends_next, ends_ite]
theorem execSettingsWorkingCopyWritten_ends {r0 : State} (s : State) (hC : OnlyChanges workParts r0 s) : Ends
    r0 (execSettingsWorkingCopyWritten s) := by
  unfold execSettingsWorkingCopyWritten
  simp (maxDischargeDepth := 60) only [hC, workParts_mem,
      State.onOd_only, ends_next, ends_ite]
theorem execTrialCommit_ends {r0 : State} (p : Path) (v : Byte) (s : State) (hC : OnlyChanges workParts r0 s)
    : Ends r0 (execTrialCommit p v s) := by
  unfold execTrialCommit
  simp (maxDischargeDepth := 60) only [hC, workParts_mem, List.cons_subset, List.nil_subset, and_self, finish_ends,
      notInBoathouse_only, serve_only, trialWrite_only, turnAway_only, ends_next, ends_ite]
theorem execTrialExpiry_ends {r0 : State} (s : State) (hC : OnlyChanges workParts r0 s) : Ends r0
    (execTrialExpiry s) := by
  unfold execTrialExpiry
  simp (maxDischargeDepth := 60) only [hC, workParts_mem, List.cons_subset, List.nil_subset, and_self,
      commitTrial_only, finish_ends, ends_next, ends_ite]
theorem execTrialTimeWrite_ends {r0 : State} (s : State) (hC : OnlyChanges workParts r0 s) : Ends r0
    (execTrialTimeWrite s) := by
  unfold execTrialTimeWrite
  simp (maxDischargeDepth := 60) only [hC, workParts_mem, List.cons_subset, List.nil_subset, and_self,
      State.onUpd_only, bootWrite_only, ends_next, ends_ite]
theorem execFallbackWaitTimeout_ends {r0 : State} (s : State) (hC : OnlyChanges workParts r0 s) : Ends r0
    (execFallbackWaitTimeout s) := by
  unfold execFallbackWaitTimeout
  simp (maxDischargeDepth := 60) only [hC, workParts_mem, List.cons_subset, List.nil_subset, and_self,
      State.onUpd_only, finish_ends, record_only, ends_next, ends_ite]
theorem execHoldwaterNAssert_ends {r0 : State} (s : State) (hC : OnlyChanges workParts r0 s) : Ends r0
    (execHoldwaterNAssert s) :=
    by
  unfold execHoldwaterNAssert
  simp (maxDischargeDepth := 60) only [hC, workParts_mem, List.cons_subset, List.nil_subset, and_self, finish_ends,
      requestFreeze_only, ends_next, ends_ite]
theorem execHoldwaterNDeassert_ends {r0 : State} (s : State) (hC : OnlyChanges workParts r0 s) : Ends r0
    (execHoldwaterNDeassert s) := by
  unfold execHoldwaterNDeassert
  simp (maxDischargeDepth := 60) only [hC, workParts_mem, List.cons_subset, List.nil_subset, and_self, finish_ends,
      releaseHold_only, ends_next, ends_ite]
theorem execFreezeEnterRequest_ends {r0 : State} (p : Path) (s : State) (hC : OnlyChanges workParts r0 s) :
    Ends r0 (execFreezeEnterRequest p s) := by
  unfold execFreezeEnterRequest
  simp (maxDischargeDepth := 60) only [hC, workParts_mem, List.cons_subset, List.nil_subset, and_self, finish_ends,
      freezeWrite_only, notInBoathouse_only, serve_only, turnAway_only, ends_next, ends_ite]
theorem execFreezeResumeRequest_ends {r0 : State} (p : Path) (s : State) (hC : OnlyChanges workParts r0 s) :
    Ends r0 (execFreezeResumeRequest p s) := by
  unfold execFreezeResumeRequest
  simp (maxDischargeDepth := 60) only [hC, workParts_mem, List.cons_subset, List.nil_subset, and_self, finish_ends,
      freezeWrite_only, notInBoathouse_only, serve_only, turnAway_only, ends_next, ends_ite]
theorem execJtagExtest_ends {r0 : State} (s : State) (hC : OnlyChanges workParts r0 s) : Ends r0
    (execJtagExtest s) := by
  unfold execJtagExtest
  simp (maxDischargeDepth := 60) only [hC, workParts_mem, List.cons_subset, List.nil_subset, and_self, loadIr_only,
      ends_next, ends_ite]
theorem execJtagIdcode_ends {r0 : State} (s : State) (hC : OnlyChanges workParts r0 s) : Ends r0
    (execJtagIdcode s) := by
  unfold execJtagIdcode
  simp (maxDischargeDepth := 60) only [hC, workParts_mem, List.cons_subset, List.nil_subset, and_self, loadIr_only,
      shiftOut_only, ends_next, ends_ite]
theorem execJtagSamplePreload_ends {r0 : State} (s : State) (hC : OnlyChanges workParts r0 s) : Ends r0
    (execJtagSamplePreload s) := by
  unfold execJtagSamplePreload
  simp (maxDischargeDepth := 60) only [hC, workParts_mem, List.cons_subset, List.nil_subset, and_self, loadIr_only,
      ends_next, ends_ite]
theorem execJtagFreeze_ends {r0 : State} (s : State) (hC : OnlyChanges workParts r0 s) : Ends r0
    (execJtagFreeze s) := by
  unfold execJtagFreeze
  simp (maxDischargeDepth := 60) only [hC, workParts_mem, List.cons_subset, List.nil_subset, and_self, finish_ends,
      loadIr_only, requestFreeze_only, ends_next, ends_ite]
theorem execJtagResume_ends {r0 : State} (s : State) (hC : OnlyChanges workParts r0 s) : Ends r0
    (execJtagResume s) := by
  unfold execJtagResume
  simp (maxDischargeDepth := 60) only [hC, workParts_mem, List.cons_subset, List.nil_subset, and_self, finish_ends,
      loadIr_only, releaseHold_only, ends_next, ends_ite]
theorem execFrzSelect_ends {r0 : State} (sel : BitVec 8) (s : State) (hC : OnlyChanges workParts r0 s) : Ends
    r0 (execFrzSelect sel s) := by
  unfold execFrzSelect
  simp (maxDischargeDepth := 60) only [hC, workParts_mem, List.cons_subset, List.nil_subset, and_self,
      State.onFrz_only, loadIr_only, ends_next, ends_ite]
theorem execFrzScan_ends {r0 : State} (bits : Nat) (s : State) (hC : OnlyChanges workParts r0 s) : Ends r0
    (execFrzScan bits s) :=
    by
  unfold execFrzScan
  simp (maxDischargeDepth := 60) only [hC, workParts_mem, List.cons_subset, List.nil_subset, and_self, loadIr_only,
      shiftOut_only, ends_next, ends_ite]
theorem execLedgerAccessRead_ends {r0 : State} (addr : BitVec 21) (s : State) (hC : OnlyChanges workParts r0
    s) : Ends r0 (execLedgerAccessRead addr s) := by
  unfold execLedgerAccessRead
  simp (maxDischargeDepth := 60) only [hC, workParts_mem, List.cons_subset, List.nil_subset, and_self,
      State.onFrz_only, ledgerCapture_only, ledgerWord_only, ends_next, ends_ite]
theorem execLedgerAccessWrite_ends {r0 : State} (addr : BitVec 21) (data : Word) (s : State) (hC : OnlyChanges
    workParts r0 s) : Ends r0 (execLedgerAccessWrite addr data s) := by
  unfold execLedgerAccessWrite
  simp (maxDischargeDepth := 60) only [hC, workParts_mem, List.cons_subset, List.nil_subset, and_self,
      State.onFrz_only, State.onLedger_only, ledgerCapture_only, ends_next, ends_ite, ite_only]
theorem execJtagStatus_ends {r0 : State} (s : State) (hC : OnlyChanges workParts r0 s) : Ends r0
    (execJtagStatus s) := by
  unfold execJtagStatus
  simp (maxDischargeDepth := 60) only [hC, workParts_mem, List.cons_subset, List.nil_subset, and_self, loadIr_only,
      shiftOut_only, ends_next, ends_ite]
theorem execJtagBypass_ends {r0 : State} (opcode : Byte) (s : State) (hC : OnlyChanges workParts r0 s) : Ends
    r0 (execJtagBypass opcode s) := by
  unfold execJtagBypass
  simp (maxDischargeDepth := 60) only [hC, workParts_mem, List.cons_subset, List.nil_subset, and_self, loadIr_only,
      shiftOut_only, ends_next, ends_ite]
theorem execTrstNAssert_ends {r0 : State} (s : State) (hC : OnlyChanges workParts r0 s) : Ends r0
    (execTrstNAssert s) := by
  unfold execTrstNAssert
  simp (maxDischargeDepth := 60) only [hC, workParts_mem, List.cons_subset, List.nil_subset, and_self,
      State.onFault_only, State.onFrz_only, finish_ends, releaseHold_only, ends_next, ends_ite]
theorem execOdSessionIdle_ends {r0 : State} (p : Path) (s : State) (hC : OnlyChanges workParts r0 s) : Ends r0
    (execOdSessionIdle p s) := by
  unfold execOdSessionIdle
  (repeat' split) <;> simp (maxDischargeDepth := 60) only [hC, workParts_mem, List.cons_subset, List.nil_subset,
      and_self, endSessions_only, ends_next]
theorem execOdRead_ends {r0 : State} (p : Path) (index : BitVec 16) (sub : BitVec 8) (off : Nat) (s : State)
    (hC : OnlyChanges workParts r0 s) : Ends r0 (execOdRead p index sub off s) := by
  unfold execOdRead
  simp (maxDischargeDepth := 60) only [hC, workParts_mem, List.cons_subset, List.nil_subset, and_self, readOp_only,
      reply_only, turnAway_only, ends_next, ends_ite]
theorem execOdEnumerate_ends {r0 : State} (p : Path) (index : BitVec 16) (sub : BitVec 8) (maximum : Nat) (s :
    State) (hC : OnlyChanges workParts r0 s) : Ends r0 (execOdEnumerate p index sub maximum s) := by
  unfold execOdEnumerate
  simp (maxDischargeDepth := 60) only [hC, workParts_mem, List.cons_subset, List.nil_subset, and_self, reply_only,
      touch_only, turnAway_only, ends_next, ends_ite]
theorem execSaveRequest_ends {r0 : State} (p : Path) (v : Byte) (s : State) (hC : OnlyChanges workParts r0 s)
    : Ends r0 (execSaveRequest p v s) := by
  unfold execSaveRequest
  simp (maxDischargeDepth := 60) only [hC, workParts_mem, List.cons_subset, List.nil_subset, and_self, finish_ends,
      saveWrite_only, serve_only, turnAway_only, ends_next, ends_ite]
theorem execLearningRequest_ends {r0 : State} (p : Path) (v : Byte) (s : State) (hC : OnlyChanges workParts r0
    s) : Ends r0 (execLearningRequest p v s) := by
  unfold execLearningRequest
  simp (maxDischargeDepth := 60) only [hC, workParts_mem, List.cons_subset, List.nil_subset, and_self, finish_ends,
      learnWrite_only, serve_only, turnAway_only, ends_next, ends_ite]
theorem execPackChangeDeclaration_ends {r0 : State} (p : Path) (v : Byte) (s : State) (hC : OnlyChanges
    workParts r0 s) : Ends r0 (execPackChangeDeclaration p v s) := by
  unfold execPackChangeDeclaration
  simp (maxDischargeDepth := 60) only [hC, workParts_mem, List.cons_subset, List.nil_subset, and_self, finish_ends,
      packWrite_only, serve_only, turnAway_only, ends_next, ends_ite]
theorem execRestoreModeWrite_ends {r0 : State} (p : Path) (v : Byte) (s : State) (hC : OnlyChanges workParts
    r0 s) : Ends r0 (execRestoreModeWrite p v s) := by
  unfold execRestoreModeWrite
  simp (maxDischargeDepth := 60) only [hC, workParts_mem, List.cons_subset, List.nil_subset, and_self, finish_ends,
      rwsWrite_only, serve_only, turnAway_only, ends_next, ends_ite]
theorem execOdWrite_ends {r0 : State} (p : Path) (index : BitVec 16) (sub : BitVec 8) (last : Bool) (off :
    Nat) (data : List Byte) (stored : Bool) (s : State) (hC : OnlyChanges workParts r0 s) : Ends r0
    (execOdWrite p index sub last off data stored s) := by
  unfold execOdWrite
  simp (maxDischargeDepth := 60) only [hC, workParts_mem, List.cons_subset, List.nil_subset, and_self, finish_ends,
      reply_only, turnAway_only, writeOp_only, ends_next, ends_ite]
theorem execSettingsCompactionDone_ends {r0 : State} (s : State) (hC : OnlyChanges workParts r0 s) : Ends r0
    (execSettingsCompactionDone s) := by
  unfold execSettingsCompactionDone
  simp (maxDischargeDepth := 60) only [hC, workParts_mem,
      State.onOd_only, ends_next, ends_ite]
theorem execWaterlineRead_ends {r0 : State} (p : Path) (first maximum : Nat) (fb3 : Bool) (minSeverity : Fin
    8) (s : State) (hC : OnlyChanges workParts r0 s) : Ends r0 (execWaterlineRead p first maximum fb3
    minSeverity s) := by
  unfold execWaterlineRead
  (repeat' split) <;> simp (maxDischargeDepth := 60) only [hC, workParts_mem, List.cons_subset, List.nil_subset,
      and_self, reply_only, turnAway_only, ends_next]
theorem execBusError_ends {r0 : State} (port : Port) (err : BusErr) (s : State) (hC : OnlyChanges workParts r0
    s) : Ends r0 (execBusError port err s) := by
  unfold execBusError
  simp (maxDischargeDepth := 60) only [hC, workParts_mem, List.cons_subset, List.nil_subset, and_self,
      busErrorOp_only, finish_ends, ends_next, ends_ite]
theorem execTargetTimeout_ends {r0 : State} (s : State) (hC : OnlyChanges workParts r0 s) : Ends r0
    (execTargetTimeout s) := by
  unfold execTargetTimeout
  simp (maxDischargeDepth := 60) only [hC, workParts_mem, List.cons_subset, List.nil_subset, and_self,
      busErrorOp_only, finish_ends, ends_next, ends_ite]
theorem execStretchAbort_ends {r0 : State} (port : Port) (s : State) (hC : OnlyChanges workParts r0 s) : Ends
    r0 (execStretchAbort port s) := by
  unfold execStretchAbort
  simp (maxDischargeDepth := 60) only [hC, workParts_mem, List.cons_subset, List.nil_subset, and_self, finish_ends,
      stretchOp_only, ends_next, ends_ite]
theorem execArbitrationLoss_ends {r0 : State} (port : Port) (at' : ArbLoss) (s : State) (hC : OnlyChanges
    workParts r0 s) : Ends r0 (execArbitrationLoss port at' s) := by
  unfold execArbitrationLoss
  (repeat' split) <;> simp (maxDischargeDepth := 60) only [hC, workParts_mem, List.cons_subset, List.nil_subset,
      and_self, busErrorOp_only, finish_ends, lossOp_only, onPort_only, ends_next]
theorem execArbitrationBackoffEnd_ends {r0 : State} (port : Port) (s : State) (hC : OnlyChanges workParts r0
    s) : Ends r0 (execArbitrationBackoffEnd port s) := by
  unfold execArbitrationBackoffEnd
  simp (maxDischargeDepth := 60) only [hC, workParts_mem, List.cons_subset, List.nil_subset, and_self, onPort_only,
      ends_next, ends_ite]
theorem execHangRecovery_ends {r0 : State} (port : Port) (stopMade : Bool) (s : State) (hC : OnlyChanges
    workParts r0 s) : Ends r0 (execHangRecovery port stopMade s) := by
  unfold execHangRecovery
  simp (maxDischargeDepth := 60) only [hC, workParts_mem, List.cons_subset, List.nil_subset, and_self, finish_ends,
      hangOp_only, ends_next, ends_ite]
theorem execStatusRead_ends {r0 : State} (s : State) (hC : OnlyChanges workParts r0 s) : Ends r0
    (execStatusRead s) := by
  unfold execStatusRead
  simp (maxDischargeDepth := 60) only [hC, workParts_mem, List.cons_subset, List.nil_subset, and_self,
      statusReadOp_only, ends_next, ends_ite]
theorem execAlertResponse_ends {r0 : State} (won : Bool) (s : State) (hC : OnlyChanges workParts r0 s) : Ends
    r0 (execAlertResponse won s) := by
  unfold execAlertResponse
  simp (maxDischargeDepth := 60) only [hC, workParts_mem, List.cons_subset, List.nil_subset, and_self, alertOp_only,
      ends_next, ends_ite]
theorem execBusCall_ends {r0 : State} (sclFell : Bool) (s : State) (hC : OnlyChanges workParts r0 s) : Ends r0
    (execBusCall sclFell s) := by
  unfold execBusCall
  simp (maxDischargeDepth := 60) only [hC, workParts_mem, List.cons_subset, List.nil_subset, and_self, busStop_only,
      onPort_only, ends_next, ends_ite]
theorem execBusCallServiceTimeout_ends {r0 : State} (s : State) (hC : OnlyChanges workParts r0 s) : Ends r0
    (execBusCallServiceTimeout s) := by
  unfold execBusCallServiceTimeout
  simp (maxDischargeDepth := 60) only [hC, workParts_mem, List.cons_subset, List.nil_subset, and_self,
      callTimeout_only, finish_ends, ends_next, ends_ite]
theorem execLocalTemperatureRead_ends {r0 : State} (readings : List Int) (s : State) (hC : OnlyChanges
    workParts r0 s) : Ends r0 (execLocalTemperatureRead readings s) := by
  unfold execLocalTemperatureRead
  simp_all (maxDischargeDepth := 60) [workParts_mem, List.cons_subset, List.nil_subset, and_self, busStop_only,
      finish_ends, tempRecord_only, ends_ite, ends_next, only_foldl]
theorem controlCmd_ends {r0 : State} (dst : Nat) (bytes : State → List Byte) (s : State) (hC : OnlyChanges
    workParts r0 s) : Ends r0 (controlCmd dst bytes s) := by
  unfold controlCmd
  exact ends_ite (ends_next (say_only _ _ (by decide) hC)) (ends_next hC)
theorem execSetEndpointId_ends {r0 : State} (dst eid : Nat) (s : State) (hC : OnlyChanges workParts r0 s) :
    Ends r0 (execSetEndpointId dst eid s) := by
  unfold execSetEndpointId
  simp (maxDischargeDepth := 60) only [hC, workParts_mem, List.cons_subset, List.nil_subset, and_self, onPort_only,
      say_only, ends_next, ends_ite]
theorem execGetEndpointId_ends {r0 : State} (dst : Nat) (s : State) (hC : OnlyChanges workParts r0 s) : Ends
    r0 (execGetEndpointId dst s) := by
  unfold execGetEndpointId
  simp (maxDischargeDepth := 60) only [hC, controlCmd_ends]
theorem execGetEndpointUuid_ends {r0 : State} (dst : Nat) (s : State) (hC : OnlyChanges workParts r0 s) : Ends
    r0 (execGetEndpointUuid dst s) := by
  unfold execGetEndpointUuid
  simp (maxDischargeDepth := 60) only [hC, controlCmd_ends]
theorem execGetMctpVersionSupport_ends {r0 : State} (dst : Nat) (s : State) (hC : OnlyChanges workParts r0 s)
    : Ends r0 (execGetMctpVersionSupport dst s) := by
  unfold execGetMctpVersionSupport
  simp (maxDischargeDepth := 60) only [hC, controlCmd_ends]
theorem execGetMessageTypeSupport_ends {r0 : State} (dst : Nat) (s : State) (hC : OnlyChanges workParts r0 s)
    : Ends r0 (execGetMessageTypeSupport dst s) := by
  unfold execGetMessageTypeSupport
  simp (maxDischargeDepth := 60) only [hC, controlCmd_ends]
theorem execGetVendorDefinedMessageSupport_ends {r0 : State} (dst : Nat) (s : State) (hC : OnlyChanges
    workParts r0 s) : Ends r0 (execGetVendorDefinedMessageSupport dst s) := by
  unfold execGetVendorDefinedMessageSupport
  simp (maxDischargeDepth := 60) only [hC, controlCmd_ends]
theorem shortData_ends {r0 : State} (p : Path) (s : State) (hC : OnlyChanges workParts r0 s) : Ends r0
    (shortData p s) := by
  unfold shortData
  simp (maxDischargeDepth := 60) only [hC, workParts_mem, List.cons_subset, List.nil_subset, and_self, finish_ends,
      plain_only, serveAny_only]
theorem runOp_ends {r0 : State} (p : Path) (opcode : Nat) (b : List Byte) (s : State) (hC : OnlyChanges
    workParts r0 s) : Ends r0 (runOp p opcode b s) := by
  unfold runOp
  (repeat' split) <;> simp (maxDischargeDepth := 60) only [hC,
      execOdEnumerate_ends, execOdRead_ends, execOdWrite_ends, execUpdateAbort_ends, execUpdateBlock_ends,
      execUpdateCommit_ends, execUpdateOpen_ends, execWaterlineRead_ends, shortData_ends]
theorem runRequest_works {r0 : State} (q : McReq) (version : Nat) (payload : List Byte) (s : State) (hC :
    OnlyChanges workParts r0 s) : OnlyChanges workParts r0 (runRequest q version payload s) := by
  unfold runRequest
  (repeat' split) <;> simp (maxDischargeDepth := 60) only [hC, workParts_mem, List.cons_subset, List.nil_subset,
      and_self, State.onBus_only, after_works, mctpAnswer_only, runOp_ends]
theorem takeRequest_works {r0 : State} (q : McReq) (m : McMsg) (s : State) (hC : OnlyChanges workParts r0 s) :
    OnlyChanges workParts r0 (takeRequest q m s) := by
  unfold takeRequest
  simp (maxDischargeDepth := 60) only [hC, workParts_mem, List.cons_subset, List.nil_subset, and_self,
      State.onBus_only, mctpSend_only, runRequest_works, ite_only]
theorem takeMessage_works {r0 : State} (m : McMsg) (s : State) (hC : OnlyChanges workParts r0 s) : OnlyChanges
    workParts r0 (takeMessage m s) := by
  unfold takeMessage
  dsimp only
  (repeat' split) <;> simp (maxDischargeDepth := 60) only [hC, workParts_mem, List.cons_subset, List.nil_subset,
      and_self, mctpSend_only, onPort_only, takeRequest_works]
theorem serveWaiting_works {r0 : State} (s : State) (hC : OnlyChanges workParts r0 s) : OnlyChanges workParts
    r0 (serveWaiting s) := by
  unfold serveWaiting
  dsimp only
  (repeat' split) <;> simp (maxDischargeDepth := 60) only [hC, workParts_mem,
      State.onBus_only, runRequest_works]
theorem joinPacket_works {r0 : State} (pkt : MctpPkt) (before : List Byte) (s : State) (hC : OnlyChanges
    workParts r0 s) : OnlyChanges workParts r0 (joinPacket pkt before s) := by
  unfold joinPacket
  simp (maxDischargeDepth := 60) only [hC, workParts_mem, List.cons_subset, List.nil_subset, and_self,
      State.onBus_only, discard_only, noAssembly_only, takeMessage_works, ite_only]
theorem takePacket_works {r0 : State} (pkt : MctpPkt) (s : State) (hC : OnlyChanges workParts r0 s) :
    OnlyChanges workParts r0 (takePacket pkt s) := by
  unfold takePacket
  (repeat' split) <;> simp (maxDischargeDepth := 60) only [hC, workParts_mem, List.cons_subset, List.nil_subset,
      and_self, discard_only, joinPacket_works]
theorem execMctpPacket_ends {r0 : State} (pkt : MctpPkt) (s : State) (hC : OnlyChanges workParts r0 s) : Ends
    r0 (execMctpPacket pkt s) := by
  unfold execMctpPacket
  simp (maxDischargeDepth := 60) only [hC, workParts_mem, List.cons_subset, List.nil_subset, and_self,
      busErrorOp_only, finish_ends, longPacket_only, takePacket_works, targetDone_only, ends_next, ends_ite]
theorem execMctpAssemblyGap_ends {r0 : State} (src : Nat) (s : State) (hC : OnlyChanges workParts r0 s) : Ends
    r0 (execMctpAssemblyGap src s) := by
  unfold execMctpAssemblyGap
  simp (maxDischargeDepth := 60) only [hC, workParts_mem, List.cons_subset, List.nil_subset, and_self, discard_only,
      finish_ends, ends_next, ends_ite]
theorem execRefclkDetect_ends {r0 : State} (s : State) (hC : OnlyChanges workParts r0 s) : Ends r0
    (execRefclkDetect s) := by
  unfold execRefclkDetect
  simp (maxDischargeDepth := 60) only [hC, workParts_mem,
      State.onClk_only, ends_next, ends_ite]
theorem execRefclkReturn_ends {r0 : State} (s : State) (hC : OnlyChanges workParts r0 s) : Ends r0
    (execRefclkReturn s) := by
  unfold execRefclkReturn
  simp (maxDischargeDepth := 60) only [hC, workParts_mem,
      State.onClk_only, ends_next, ends_ite]
theorem execRefclkLoss_ends {r0 : State} (s : State) (hC : OnlyChanges workParts r0 s) : Ends r0
    (execRefclkLoss s) := by
  unfold execRefclkLoss
  simp (maxDischargeDepth := 60) only [hC, workParts_mem, List.cons_subset, List.nil_subset, and_self,
      State.onClk_only, finish_ends, record_only, ends_next, ends_ite]
theorem execSpringPllLockLoss_ends {r0 : State} (s : State) (hC : OnlyChanges workParts r0 s) : Ends r0
    (execSpringPllLockLoss s) := by
  unfold execSpringPllLockLoss
  simp (maxDischargeDepth := 60) only [hC, workParts_mem, List.cons_subset, List.nil_subset, and_self,
      State.onClk_only, finish_ends, lockLost_only, record_only, ends_next, ends_ite, ite_only]
theorem execBackupLockLoss_ends {r0 : State} (s : State) (hC : OnlyChanges workParts r0 s) : Ends r0
    (execBackupLockLoss s) := by
  unfold execBackupLockLoss
  simp (maxDischargeDepth := 60) only [hC, workParts_mem, List.cons_subset, List.nil_subset, and_self,
      State.onClk_only, finish_ends, lockLost_only, ends_next, ends_ite]
theorem execRootRelock_ends {r0 : State} (backup : Bool) (s : State) (hC : OnlyChanges workParts r0 s) : Ends
    r0 (execRootRelock backup s) := by
  unfold execRootRelock
  simp (maxDischargeDepth := 60) only [hC, workParts_mem, List.cons_subset, List.nil_subset, and_self,
      State.onClk_only, finish_ends, setCapture_only, ends_next, ends_ite]
theorem execRootsUnlockedTimeout_ends {r0 : State} (s : State) (hC : OnlyChanges workParts r0 s) : Ends r0
    (execRootsUnlockedTimeout s) := by
  unfold execRootsUnlockedTimeout
  simp (maxDischargeDepth := 60) only [hC, workParts_mem, List.cons_subset, List.nil_subset, and_self, finish_ends,
      lastGasp_only, ends_next, ends_ite]
theorem execHostRead_ends {r0 : State} (head : Fin 2) (hpa id : Nat) (res : DramRead) (s : State) (hC :
    OnlyChanges workParts r0 s) : Ends r0 (execHostRead head hpa id res s) := by
  unfold execHostRead
  (repeat' split) <;> simp (maxDischargeDepth := 60) only [hC, workParts_mem, List.cons_subset, List.nil_subset,
      and_self, answerPoison_only, finish_ends, notServedFault_only, readAt_only, ends_next]
theorem execHostWrite_ends {r0 : State} (head : Fin 2) (hpa id : Nat) (data : Line) (be : BitVec 64) (poison :
    Bool) (s : State) (hC : OnlyChanges workParts r0 s) : Ends r0 (execHostWrite head hpa id data be poison s)
    := by
  unfold execHostWrite
  (repeat' split) <;> simp (maxDischargeDepth := 60) only [hC, workParts_mem, List.cons_subset, List.nil_subset,
      and_self, finish_ends, notServedFault_only, writeAt_only, ends_next]
theorem execHeldWriteAdmit_ends {r0 : State} (s : State) (hC : OnlyChanges workParts r0 s) : Ends r0
    (execHeldWriteAdmit s) := by
  unfold execHeldWriteAdmit
  simp (maxDischargeDepth := 60) only [hC, workParts_mem, List.cons_subset, List.nil_subset, and_self, finish_ends,
      retest_only, ends_next, ends_ite]
theorem execHoldLimitExpiry_ends {r0 : State} (s : State) (hC : OnlyChanges workParts r0 s) : Ends r0
    (execHoldLimitExpiry s) := by
  unfold execHoldLimitExpiry
  (repeat' split) <;> simp (maxDischargeDepth := 60) only [hC, workParts_mem, List.cons_subset, List.nil_subset,
      and_self, finish_ends, onEntry_only, overshootEntry_only, retest_only, ends_next]
theorem execHstMark_ends {r0 : State} (v : Word) (s : State) (hC : OnlyChanges workParts r0 s) : Ends r0
    (execHstMark v s) := by
  unfold execHstMark
  simp (maxDischargeDepth := 60) only [hC, workParts_mem, List.cons_subset, List.nil_subset, and_self,
      acceptMark_only, rejectMark_only, ends_next, ends_ite]
theorem execHstSettle_ends {r0 : State} (n : Word) (s : State) (hC : OnlyChanges workParts r0 s) : Ends r0
    (execHstSettle n s) := by
  unfold execHstSettle
  simp (maxDischargeDepth := 60) only [hC, workParts_mem, List.cons_subset, List.nil_subset, and_self,
      acceptSettle_only, rejectSettle_only, vector_only, ends_next, ends_ite]
theorem execViral_ends {r0 : State} (head : Fin 2) (s : State) (hC : OnlyChanges workParts r0 s) : Ends r0
    (execViral head s) := by
  unfold execViral
  simp (maxDischargeDepth := 60) only [hC, workParts_mem, List.cons_subset, List.nil_subset, and_self,
      State.onHost_only, finish_ends, trigger_only, ends_next, ends_ite]
theorem execPerstNAssert_ends {r0 : State} (head : Fin 2) (s : State) (hC : OnlyChanges workParts r0 s) : Ends
    r0 (execPerstNAssert head s) := by
  unfold execPerstNAssert
  simp (maxDischargeDepth := 60) only [hC, workParts_mem, List.cons_subset, List.nil_subset, and_self, finish_ends,
      onHead_only, resetHead_only, ends_next, ends_ite]
theorem execPerstNDeassert_ends {r0 : State} (head : Fin 2) (s : State) (hC : OnlyChanges workParts r0 s) :
    Ends r0 (execPerstNDeassert head s) := by
  unfold execPerstNDeassert
  simp (maxDischargeDepth := 60) only [hC, workParts_mem, List.cons_subset, List.nil_subset, and_self, onHead_only,
      ends_next, ite_only]
theorem execLinkReset_ends {r0 : State} (head : Fin 2) (s : State) (hC : OnlyChanges workParts r0 s) : Ends r0
    (execLinkReset head s) := by
  unfold execLinkReset
  simp (maxDischargeDepth := 60) only [hC, workParts_mem, List.cons_subset, List.nil_subset, and_self, finish_ends,
      resetHead_only, ends_next, ends_ite]
theorem execFlr_ends {r0 : State} (head : Fin 2) (s : State) (hC : OnlyChanges workParts r0 s) : Ends r0
    (execFlr head s) := by
  unfold execFlr
  simp (maxDischargeDepth := 60) only [hC, workParts_mem, List.cons_subset, List.nil_subset, and_self, finish_ends,
      resetHead_only, ends_next, ends_ite]
theorem execCxlReset_ends {r0 : State} (head : Fin 2) (s : State) (hC : OnlyChanges workParts r0 s) : Ends r0
    (execCxlReset head s) := by
  unfold execCxlReset
  simp (maxDischargeDepth := 60) only [hC, workParts_mem, List.cons_subset, List.nil_subset, and_self, finish_ends,
      resetHead_only, ends_next, ends_ite]
theorem execHostRegionReady_ends {r0 : State} (up : LinkUp) (s : State) (hC : OnlyChanges workParts r0 s) :
    Ends r0 (execHostRegionReady up s) := by
  unfold execHostRegionReady
  simp (maxDischargeDepth := 60) only [hC, workParts_mem, List.cons_subset, List.nil_subset, and_self, finish_ends,
      onHead_only, shadowDone_only, ends_next, ends_ite]
theorem execGpfPhase1_ends {r0 : State} (head : Fin 2) (s : State) (hC : OnlyChanges workParts r0 s) : Ends r0
    (execGpfPhase1 head s) := by
  unfold execGpfPhase1
  simp (maxDischargeDepth := 60) only [hC, workParts_mem, List.cons_subset, List.nil_subset, and_self, say_only,
      ends_next, ends_ite]
theorem execGpfPhase2_ends {r0 : State} (head : Fin 2) (s : State) (hC : OnlyChanges workParts r0 s) : Ends r0
    (execGpfPhase2 head s) := by
  unfold execGpfPhase2
  simp (maxDischargeDepth := 60) only [hC, workParts_mem, List.cons_subset, List.nil_subset, and_self,
      State.onHost_only, say_only, ends_next, ends_ite]
theorem execGpfDrainDone_ends {r0 : State} (s : State) (hC : OnlyChanges workParts r0 s) : Ends r0
    (execGpfDrainDone s) := by
  unfold execGpfDrainDone
  simp_all (maxDischargeDepth := 60) [workParts_mem, List.cons_subset, List.nil_subset, and_self, State.onHost_only,
      commit_only, finish_ends, flush_only, say_only, ends_ite, ends_next, only_foldl]
theorem execGetPoisonList_ends {r0 : State} (head : Fin 2) (dpa length : Nat) (s : State) (hC : OnlyChanges
    workParts r0 s) : Ends r0 (execGetPoisonList head dpa length s) := by
  unfold execGetPoisonList
  simp_all (maxDischargeDepth := 60) [workParts_mem, List.cons_subset, List.nil_subset, and_self, mailboxCmd_ends,
      mbox_only]
theorem execInjectPoison_ends {r0 : State} (head : Fin 2) (dpa : Nat) (s : State) (hC : OnlyChanges workParts
    r0 s) : Ends r0 (execInjectPoison head dpa s) := by
  unfold execInjectPoison
  refine mailboxCmd_ends _ _ _ (fun h => ?_) hC
  split
  · exact ite_only (mbox_only _ _ _ _ (by decide) h) (injectOp_only _ _ _ (by decide) h)
  · exact mbox_only _ _ _ _ (by decide) h
theorem execClearPoison_ends {r0 : State} (head : Fin 2) (dpa id : Nat) (data : Line) (s : State) (hC :
    OnlyChanges workParts r0 s) : Ends r0 (execClearPoison head dpa id data s) := by
  unfold execClearPoison
  refine mailboxCmd_ends _ _ _ (fun h => ?_) hC
  split
  · exact ite_only (mbox_only _ _ _ _ (by decide) h)
      (mbox_only _ _ _ _ (by decide) (writeAt_only _ _ _ _ _ _ _ (by decide) h))
  · exact mbox_only _ _ _ _ (by decide) h
theorem execScanMedia_ends {r0 : State} (head : Fin 2) (dpa length : Nat) (s : State) (hC : OnlyChanges
    workParts r0 s) : Ends r0 (execScanMedia head dpa length s) := by
  unfold execScanMedia
  simp_all (maxDischargeDepth := 60) [workParts_mem, List.cons_subset, List.nil_subset, and_self, mailboxCmd_ends,
      mbox_only, onHead_only, ite_only]
theorem execScanMediaDone_ends {r0 : State} (scan : ScanReport) (s : State) (hC : OnlyChanges workParts r0 s)
    : Ends r0 (execScanMediaDone scan s) := by
  unfold execScanMediaDone
  simp_all (maxDischargeDepth := 60) [workParts_mem, List.cons_subset, List.nil_subset, and_self, finish_ends,
      onHead_only, scrubLine_only, vectorOn_only, ends_ite, ends_next, only_foldl]
theorem execGetScanMediaCapabilities_ends {r0 : State} (head : Fin 2) (dpa length : Nat) (s : State) (hC :
    OnlyChanges workParts r0 s) : Ends r0 (execGetScanMediaCapabilities head dpa length s) := by
  unfold execGetScanMediaCapabilities
  simp_all (maxDischargeDepth := 60) [workParts_mem, List.cons_subset, List.nil_subset, and_self, mailboxCmd_ends,
      mbox_only, ite_only]
theorem execSetShutdownState_ends {r0 : State} (head : Fin 2) (dirty : Bool) (s : State) (hC : OnlyChanges
    workParts r0 s) : Ends r0 (execSetShutdownState head dirty s) := by
  unfold execSetShutdownState
  simp_all (maxDischargeDepth := 60) [workParts_mem, List.cons_subset, List.nil_subset, and_self, State.onCxl_only,
      mailboxCmd_ends, mbox_only]
theorem execGetShutdownState_ends {r0 : State} (head : Fin 2) (s : State) (hC : OnlyChanges workParts r0 s) :
    Ends r0 (execGetShutdownState head s) := by
  unfold execGetShutdownState
  simp_all (maxDischargeDepth := 60) [workParts_mem, List.cons_subset, List.nil_subset, and_self, mailboxCmd_ends,
      mbox_only]
theorem execGetHealthInfo_ends {r0 : State} (head : Fin 2) (s : State) (hC : OnlyChanges workParts r0 s) :
    Ends r0 (execGetHealthInfo head s) := by
  unfold execGetHealthInfo
  simp_all (maxDischargeDepth := 60) [workParts_mem, List.cons_subset, List.nil_subset, and_self, mailboxCmd_ends,
      mbox_only]
theorem execSetAlertConfiguration_ends {r0 : State} (head : Fin 2) (cfg : AlertCfg) (s : State) (hC :
    OnlyChanges workParts r0 s) : Ends r0 (execSetAlertConfiguration head cfg s) := by
  unfold execSetAlertConfiguration
  simp_all (maxDischargeDepth := 60) [workParts_mem, List.cons_subset, List.nil_subset, and_self, State.onCxl_only,
      mailboxCmd_ends, mbox_only]
theorem execGetAlertConfiguration_ends {r0 : State} (head : Fin 2) (s : State) (hC : OnlyChanges workParts r0
    s) : Ends r0 (execGetAlertConfiguration head s) := by
  unfold execGetAlertConfiguration
  simp_all (maxDischargeDepth := 60) [workParts_mem, List.cons_subset, List.nil_subset, and_self, mailboxCmd_ends,
      mbox_only]
theorem execIdentifyMemoryDevice_ends {r0 : State} (head : Fin 2) (s : State) (hC : OnlyChanges workParts r0
    s) : Ends r0 (execIdentifyMemoryDevice head s) := by
  unfold execIdentifyMemoryDevice
  simp_all (maxDischargeDepth := 60) [workParts_mem, List.cons_subset, List.nil_subset, and_self, mailboxCmd_ends,
      mbox_only]
theorem execGetFwInfo_ends {r0 : State} (head : Fin 2) (s : State) (hC : OnlyChanges workParts r0 s) : Ends r0
    (execGetFwInfo head s) := by
  unfold execGetFwInfo
  simp_all (maxDischargeDepth := 60) [workParts_mem, List.cons_subset, List.nil_subset, and_self, mailboxCmd_ends,
      mbox_only]
theorem eraseCmd_ends {r0 : State} (whole : Bool) (h : Fin 2) (s : State) (hC : OnlyChanges workParts r0 s) :
    Ends r0 (eraseCmd whole h s) := by
  unfold eraseCmd
  simp_all (maxDischargeDepth := 60) [workParts_mem, List.cons_subset, List.nil_subset, and_self, mailboxCmd_ends,
      mbox_only, startErase_only, ite_only]
theorem execSanitize_ends {r0 : State} (head : Fin 2) (s : State) (hC : OnlyChanges workParts r0 s) : Ends r0
    (execSanitize head s) := by
  unfold execSanitize
  simp (maxDischargeDepth := 60) only [hC, eraseCmd_ends]
theorem execSecureErase_ends {r0 : State} (head : Fin 2) (s : State) (hC : OnlyChanges workParts r0 s) : Ends
    r0 (execSecureErase head s) := by
  unfold execSecureErase
  simp (maxDischargeDepth := 60) only [hC, eraseCmd_ends]
theorem execSanitized_ends {r0 : State} (s : State) (hC : OnlyChanges workParts r0 s) : Ends r0 (execSanitized
    s) := by
  unfold execSanitized
  (repeat' split) <;> simp (maxDischargeDepth := 60) only [hC, workParts_mem, List.cons_subset, List.nil_subset,
      and_self, finish_ends, sanitizedOp_only, ends_next]
theorem xbarWrite_ends {r0 : State} (addr size : Nat) (m : MasterId) (v : Word) (s : State) (hC : OnlyChanges
    workParts r0 s) : Ends r0 (xbarWrite addr size m v s) := by
  unfold xbarWrite
  simp (maxDischargeDepth := 60) only [hC, workParts_mem, List.cons_subset, List.nil_subset, and_self, badWriter_only,
      execChpFaultAck_ends, execHstMark_ends, execHstSettle_ends, finish_ends, windowFault_only, writeFields_only,
      ends_next, ends_ite]
theorem pageWriteReg_ends {r0 : State} (h : Fin 2) (off size : Nat) (v : Word) (s : State) (hC : OnlyChanges
    workParts r0 s) : Ends r0 (pageWriteReg h off size v s) := by
  unfold pageWriteReg
  simp (maxDischargeDepth := 60) only [hC, workParts_mem, List.cons_subset, List.nil_subset, and_self,
      clearPersist_only, execHstMark_ends, execHstSettle_ends, finish_ends, pageFault_only, ends_next, ends_ite]
theorem barRegWrite_ends {r0 : State} (h : Fin 2) (a off size : Nat) (v : Word) (s : State) (hC : OnlyChanges
    workParts r0 s) : Ends r0 (barRegWrite h a off size v s) := by
  unfold barRegWrite
  (repeat' split) <;> simp (maxDischargeDepth := 60) only [hC, workParts_mem, List.cons_subset, List.nil_subset,
      and_self, State.onHost_only, barStore_only, execRasStatusClear_ends, hdmBarWrite_only, ends_next]
theorem barWrite_ends {r0 : State} (h : Fin 2) (off size : Nat) (v : Word) (s : State) (hC : OnlyChanges
    workParts r0 s) : Ends r0 (barWrite h off size v s) := by
  unfold barWrite
  dsimp only
  (repeat' split) <;> simp (maxDischargeDepth := 60) only [hC, workParts_mem, List.cons_subset, List.nil_subset,
      and_self, barRegWrite_ends, barStore_only, maskVector_only, pageWriteReg_ends, ends_next]
theorem headWrite_ends {r0 : State} (t : RegTarget) (v : Word) (s : State) (hC : OnlyChanges workParts r0 s) :
    Ends r0 (headWrite t v s) := by
  unfold headWrite
  (repeat' split) <;> simp_all (maxDischargeDepth := 60) [workParts_mem, List.cons_subset, List.nil_subset, and_self,
      barWrite_ends, hdmWrite_only, mailboxCmd_ends, mailboxOp_only, maskVector_only, onHead_only, ends_next]
theorem execRegisterWrite_ends {r0 : State} (tgt : RegTarget) (master : MasterId) (value : Word) (s : State)
    (hC : OnlyChanges workParts r0 s) : Ends r0 (execRegisterWrite tgt master value s) := by
  unfold execRegisterWrite
  (repeat' split) <;> simp (maxDischargeDepth := 60) only [hC, workParts_mem, List.cons_subset, List.nil_subset,
      and_self, configRetry_only, finish_ends, headWrite_ends, serialWrite_only, xbarWrite_ends, ends_next]
theorem execSpdmRequest_ends {r0 : State} (p : Path) (req : SpdmReq) (s : State) (hC : OnlyChanges workParts
    r0 s) : Ends r0 (execSpdmRequest p req s) := by
  unfold execSpdmRequest
  simp (maxDischargeDepth := 60) only [hC, workParts_mem, List.cons_subset, List.nil_subset, and_self, finish_ends,
      spdm_only, spdmOp_only, ends_next, ends_ite]
theorem execSetCertificate_ends {r0 : State} (p : Path) (slot : Fin 8) (chain : List Byte) (s : State) (hC :
    OnlyChanges workParts r0 s) : Ends r0 (execSetCertificate p slot chain s) := by
  unfold execSetCertificate
  simp (maxDischargeDepth := 60) only [hC, workParts_mem, List.cons_subset, List.nil_subset, and_self, certifyOp_only,
      finish_ends, spdm_only, ends_next, ends_ite]
/-! ## The commands that move the time base -/

/-- The parts of work and the time base. -/
def timedParts : List Part := .tb :: workParts

theorem mem_timedParts {p : Part} (hp : p ∈ workParts) : p ∈ timedParts := List.mem_cons_of_mem _ hp

theorem finish_timed {r : State} (s : State) (hC : OnlyChanges timedParts r s) :
    ∃ t, finish s = .next t ∧ OnlyChanges timedParts r t :=
  ⟨_, rfl, notice_only _ (by decide) (runWaiting_only _ (by decide) (overflowCheck_only _ (by decide) hC))⟩

/-- A register read latches the high word of PWR_TIME at most (R28). -/
theorem execRegisterRead_timed (r : RegRead) (s : State) :
    ∃ t, execRegisterRead r s = .next t ∧ OnlyChanges timedParts s t := by
  have hs : OnlyChanges timedParts s s := .refl _ s
  unfold execRegisterRead
  split
  · exact finish_timed _ (xbarRead_only _ _ _ _ (by decide) hs)
  · split
    · exact finish_timed _ (serialRead_only _ _ _ _ (by decide) hs)
    · exact ⟨s, rfl, hs⟩
  · split
    · split
      · exact finish_timed _ (headRead_only _ _ (by decide) hs)
      · exact ⟨_, rfl, configRetry_only _ _ _ (by decide) hs⟩
    · exact ⟨s, rfl, hs⟩

/-- The loss of VDD_AON moves neither the queue nor the configuration (R486). -/
theorem execVddAonLoss_timed (s : State) : ∃ t, execVddAonLoss s = .next t ∧ OnlyChanges timedParts s t := by
  unfold execVddAonLoss
  split
  · exact ⟨s, rfl, .refl _ s⟩
  · have hoff : OnlyChanges timedParts s (regionsOff s) := regionsOff_only _ (by decide) (.refl _ s)
    refine ⟨_, rfl, hoff.trans fun p hp => ?_⟩
    cases p <;> first | rfl | exact absurd (by decide) hp

theorem execPtmResponse_timed (head : Fin 2) (n : Word) (s : State) :
    ∃ t, execPtmResponse head n s = .next t ∧ OnlyChanges timedParts s t := by
  unfold execPtmResponse
  split
  · exact ⟨s, rfl, .refl _ s⟩
  · exact ⟨_, rfl, State.onTb_only _ _ (by decide) (.refl _ s)⟩

/-! ## Every command (log 6) -/

theorem exec_ends {i : Instr} {s : State} (hloss : i ≠ .vddAonLoss) (hptm : ∀ head n, i ≠ .ptmResponse head n)
    (hread : ∀ r, i ≠ .registerRead r) : Ends s (exec i s) := by
  cases i
  case vddAonLoss => exact absurd rfl hloss
  case ptmResponse => exact absurd rfl (hptm _ _)
  case registerRead => exact absurd rfl (hread _)
  all_goals
    dsimp only [exec]
    simp only [OnlyChanges.refl,
      execAlertResponse_ends, execArbitrationBackoffEnd_ends, execArbitrationLoss_ends, execAuxReady_ends,
      execBackupLockLoss_ends, execBasinErased_ends, execBasinExchangeTimer_ends, execBasinOverlayDone_ends,
      execBlockEraseDone_ends, execBlockReset_ends, execBlockResetDone_ends, execBoardProfileRead_ends,
      execBoardProfileRetry_ends, execBoathouseCommit_ends, execBucketDone_ends, execBusCall_ends,
      execBusCallServiceTimeout_ends, execBusError_ends, execCatchGlitch_ends, execCatchPulseEnd_ends,
      execCatchResync_ends, execCatchRisingEdge_ends, execCatchupDone_ends, execChannelIsolated_ends,
      execChargeRestart_ends, execChargerEntryRetry_ends, execCheckpoint_ends, execCheckpointTimer_ends,
      execChpFaultAck_ends, execCleanShutdownDrained_ends, execClearPoison_ends, execCompleteDrain_ends,
      execConditionClear_ends, execConversionDone_ends, execCoreVoltageStep_ends, execCoxswainWeirRecompute_ends,
      execCrewLoadDone_ends, execCrewRejoinTimer_ends, execCrewResetRequest_ends, execCrewsSilentTimeout_ends,
      execCursor_ends, execCxlReset_ends, execDdrAlert_ends, execDemandFetchDone_ends, execDieRetire_ends,
      execDieRetireWalkDone_ends, execDirtyLogChunkMove_ends, execDqsTracking_ends, execDramOarReload_ends,
      execDramTemperatureRead_ends, execEarlyOpenPoint_ends, execEmptySetSaveTimeout_ends, execErgometerMeasure_ends,
      execFailDrain_ends, execFailedBoot_ends, execFallTimeout_ends, execFallbackWaitTimeout_ends,
      execFaultReport_ends, execFlashChannelReset_ends, execFlashOarCommand_ends, execFlashOarReload_ends,
      execFlashOpComplete_ends, execFlashPatrol_ends, execFlashResetDone_ends, execFlr_ends, execForcedRestDue_ends,
      execForcedRestFail_ends, execFreezeEnterRequest_ends, execFreezeResumeRequest_ends, execFrzScan_ends,
      execFrzSelect_ends, execFullFlag_ends, execGaugeRecordWrite_ends, execGaugeSample_ends,
      execGetAlertConfiguration_ends, execGetEndpointId_ends, execGetEndpointUuid_ends, execGetFwInfo_ends,
      execGetHealthInfo_ends, execGetMctpVersionSupport_ends, execGetMessageTypeSupport_ends, execGetPoisonList_ends,
      execGetScanMediaCapabilities_ends, execGetShutdownState_ends, execGetVendorDefinedMessageSupport_ends,
      execGpfDrainDone_ends, execGpfPhase1_ends, execGpfPhase2_ends, execGraceExpiry_ends,
      execHalvingHoldOffEnd_ends, execHangRecovery_ends, execHealthSecond_ends, execHeldWriteAdmit_ends,
      execHoldLimitExpiry_ends, execHoldwaterNAssert_ends, execHoldwaterNDeassert_ends, execHostRead_ends,
      execHostRegionReady_ends, execHostWrite_ends, execHstMark_ends, execHstSettle_ends,
      execIdentifyMemoryDevice_ends, execInjectPoison_ends, execInsertionRest_ends, execJtagBypass_ends,
      execJtagExtest_ends, execJtagFreeze_ends, execJtagIdcode_ends, execJtagResume_ends, execJtagSamplePreload_ends,
      execJtagStatus_ends, execJunctionTemperature_ends, execLakebedFillDone_ends, execLakebedRepairDone_ends,
      execLandingCopy_ends, execLaneStaggerExpiry_ends, execLatchClear_ends, execLdpcEngineFault_ends,
      execLearnDue_ends, execLearnNoCurrent_ends, execLearningRequest_ends, execLedgerAccessRead_ends,
      execLedgerAccessWrite_ends, execLedgerCommit_ends, execLedgerHoldTimeout_ends, execLedgerTest_ends,
      execLinkReset_ends, execLocalTemperatureRead_ends, execLogCompactionDone_ends, execMainPowerAbsentTimeout_ends,
      execMapLineRebuild_ends, execMapSaved_ends, execMapWalkBatch_ends, execMapWalkRequest_ends,
      execMappingEntryError_ends, execMarkDraining_ends, execMctpAssemblyGap_ends, execMctpPacket_ends,
      execMemoryReady_ends, execMinimumDarkTime_ends, execOdAcknowledge_ends, execOdEnumerate_ends, execOdRead_ends,
      execOdSessionIdle_ends, execOdWrite_ends, execOffCommand_ends, execOnCommand_ends,
      execPackChangeDeclaration_ends, execPackidRead_ends, execPairingTimeout_ends, execPatrolScrub_ends,
      execPerstNAssert_ends, execPerstNDeassert_ends, execPlanRequest_ends, execPlanTrigger_ends,
      execPowerDownCommand_ends, execPwrChgCtrlWrite_ends, execPwrfailNAssert_ends, execRailEvalResume_ends,
      execRailFallen_ends, execRailFault_ends, execRailOffDelay_ends, execRailOnDelay_ends, execRailRisen_ends,
      execRailWarning_ends, execRampSlackCheck_ends, execRasStatusClear_ends, execRecountDone_ends,
      execRefclkDetect_ends, execRefclkLoss_ends, execRefclkReturn_ends, execRefreshTick_ends,
      execRegisterWrite_ends, execRepairReadTimeout_ends, execResetShadowEnd_ends, execResetStretchEnd_ends,
      execRestQualified_ends, execRestoreBegin_ends, execRestoreInterrupted_ends, execRestoreMetadataLoaded_ends,
      execRestoreModeWrite_ends, execRestoreStarted_ends, execRestored_ends, execRhoDriftDay_ends,
      execRiseTimeout_ends, execRootRelock_ends, execRootsSaved_ends, execRootsUnlockedTimeout_ends,
      execSDieRecompute_ends, execSagDetect_ends, execSanitize_ends, execSanitized_ends, execSaveCutoff_ends,
      execSaveDrainDone_ends, execSaveRelease_ends, execSaveRequest_ends, execSaveStarted_ends,
      execSaveTimeLimit_ends, execSaved_ends, execScanMedia_ends, execScanMediaDone_ends, execSeatRequest_ends,
      execSeatTokenCorrupt_ends, execSecureErase_ends, execSetAlertConfiguration_ends, execSetCertificate_ends,
      execSetEndpointId_ends, execSetShutdownState_ends, execSettingsCompactionDone_ends,
      execSettingsWorkingCopyWritten_ends, execSettled_ends, execShadowClean_ends, execShutdownClean_ends,
      execSpdmRequest_ends, execSpringPllLockLoss_ends, execStagedRecord_ends, execStateCompleteNoRail_ends,
      execStatusRead_ends, execStepLimitWait_ends, execStrapSample_ends, execStretchAbort_ends,
      execStringStateSetting_ends, execTargetTimeout_ends, execThermistorOpen_ends, execThermistorPresent_ends,
      execTimerTick_ends, execTrainingDone_ends, execTrialCommit_ends, execTrialExpiry_ends, execTrialTimeWrite_ends,
      execTrstNAssert_ends, execUpdateAbort_ends, execUpdateBlock_ends, execUpdateCommit_ends,
      execUpdateHandover_ends, execUpdateOpen_ends, execUpdateSessionIdle_ends, execUpdateVerifyDone_ends,
      execVddAonValid_ends, execVinSenseFall_ends, execVinSenseRise_ends, execViral_ends, execWaterlineExport_ends,
      execWaterlineRead_ends, execWaterlineRecord_ends, execWeirDecayFloor_ends, execWeirDecayStart_ends,
      execWeirFloorSet_ends, execWeirPublish_ends, execWeirRecompute_ends, execXtsEngineFault_ends,
      execZqCalibration_ends]

/-- Every command ends in a next state that differs in no other part than those of work and the time base. -/
theorem exec_timed (i : Instr) (s : State) : ∃ t, exec i s = .next t ∧ OnlyChanges timedParts s t := by
  by_cases hloss : i = .vddAonLoss
  · subst hloss; exact execVddAonLoss_timed s
  · by_cases hptm : ∃ head n, i = .ptmResponse head n
    · obtain ⟨head, n, rfl⟩ := hptm
      exact execPtmResponse_timed head n s
    · by_cases hread : ∃ r, i = .registerRead r
      · obtain ⟨r, rfl⟩ := hread
        exact execRegisterRead_timed r s
      · obtain ⟨t, ht, honly⟩ := exec_ends (s := s) hloss (fun head n h => hptm ⟨head, n, h⟩) (fun r h => hread ⟨r, h⟩)
        exact ⟨t, ht, honly.mono fun _ hp => mem_timedParts hp⟩

/-- Settles O58: by `exec_timed`, whose parts leave out the queue and the configuration. -/
theorem everyCommandCompletes : Obligations.EveryCommandCompletes := by
  refine ⟨fun i s => ?_, fun i s t ht => ?_⟩
  · obtain ⟨t, ht, -⟩ := exec_timed i s
    exact ⟨t, ht⟩
  · obtain ⟨u, hu, honly⟩ := exec_timed i s
    obtain rfl : t = u := Host.Outcome.next.inj (ht.symm.trans hu)
    exact ⟨honly .pending (by decide), honly .cfg (by decide)⟩

end Sys2Proof.Machine
end

section
/-! PROOFS. O2 fails: its last clause says when a FAULTED crew went OFF, with no premise that no reset runs, and a reset that
overruns its bound in the same tick is a chip fatal, whose power-down takes the crews' registers (R243, R265, R285). -/

namespace Sys2Proof.Machine

/-- A device that climbs with no rail on, before memory is ready, its MGMT port's reset 1 ms past its bound, and Bow FAULTED. -/
def overrunWithFaultedCrew : State :=
  { State.reset with
    tb := { now := 2000001 }
    seq := { State.reset.seq with st := .core }
    fault := { shadows := [{ unit := 0x6080, parent := 0, since := 0 }] }
    crew := { bow := { st := .faulted } } }

/-- The chip fatal of the overrun powers the device down to DARK, and Bow's registers are at their reset values. -/
theorem overrunWithFaultedCrew_offSince :
    (idleStep overrunWithFaultedCrew).seq.st = .dark ∧ (crewOf (idleStep overrunWithFaultedCrew) .bow).offSince = none := by
  decide +kernel

/-- Refutes O2: a tick in which a reset overruns its bound loses the time at which the FAULTED crew went OFF. -/
theorem not_emptyQueueCountsOneTick : ¬ Obligations.EmptyQueueCountsOneTick := by
  intro h
  obtain ⟨t, ht, -, -, -, -, hoff⟩ := h overrunWithFaultedCrew rfl rfl
  obtain rfl : idleStep overrunWithFaultedCrew = t := Host.Outcome.next.inj ht
  obtain ⟨-, hsince⟩ := hoff (by decide +kernel) (by decide +kernel) (by decide +kernel) rfl rfl .bow rfl
  rw [overrunWithFaultedCrew_offSince.2] at hsince
  cases hsince

end Sys2Proof.Machine
end

section
/-! PROOFS. The tier 1 statements: the step and the reset state by their definitions, and the fields of a register by one
lemma about the bits of a packed word, each field's place a fact of linear arithmetic. -/

namespace Sys2Proof.Machine
open Sys2Proof

/-- Settles O1: an empty queue is the only case of `step` that is not this one. -/
theorem stepRunsFrontCommand : Obligations.StepRunsFrontCommand := by
  intro s c rest h
  simp only [step, h]

/-- Settles O3: the reset state is written out by the model. -/
theorem resetLeaves : Obligations.ResetLeaves :=
  ⟨rfl, rfl, rfl, rfl, rfl, rfl, rfl, rfl, fun _ => rfl, rfl, rfl, ⟨rfl, rfl, rfl, rfl, by decide, by decide⟩⟩

/-! ## Fields of a packed word -/

/-- The bits `lo` to `lo + w` of a word are those of the number it packs. -/
theorem extract_word {n v : Nat} (lo w : Nat) (hw : lo + w ≤ 64) (hn : n / 2 ^ lo % 2 ^ w = v % 2 ^ w) :
    (word n).extractLsb' lo w = BitVec.ofNat w v := by
  apply BitVec.eq_of_toNat_eq
  have h64 : n % 2 ^ 64 / 2 ^ lo % 2 ^ w = n / 2 ^ lo % 2 ^ w := by
    rw [← Nat.mod_mul_right_div_self n, ← Nat.mod_mul_right_div_self (n % _), ← pow_add,
      Nat.mod_mod_of_dvd _ (Nat.pow_dvd_pow 2 hw)]
  simpa [word, BitVec.extractLsb'_toNat, Nat.shiftRight_eq_div_pow] using h64.trans hn

/-- Bit `lo` of a word is that of the number it packs. -/
theorem getLsbD_word {n : Nat} {b : Bool} (lo : Nat) (hlo : lo < 64) (hn : n / 2 ^ lo % 2 = b2n b) :
    (word n).getLsbD lo = b := by
  rw [word, BitVec.getLsbD_ofNat, Nat.testBit_eq_decide_div_mod_eq, hn]
  cases b <;> simp [b2n, hlo]

/-- A bit is below 2. -/
theorem b2n_lt (b : Bool) : b2n b < 2 := by cases b <;> decide

/-- The same where the field is itself a bit vector. -/
theorem extract_word_toNat {n w : Nat} {v : BitVec w} (lo : Nat) (hw : lo + w ≤ 64) (hn : n / 2 ^ lo % 2 ^ w = v.toNat) :
    (word n).extractLsb' lo w = v :=
  (extract_word lo w hw (hn.trans (Nat.mod_eq_of_lt v.isLt).symm)).trans (BitVec.eq_of_toNat_eq (by simp))

/-- Settles O38: each clause is the place of one field, found by the lemmas about the bits of a word. -/
theorem registersPackTheirFields : Obligations.RegistersPackTheirFields := by
  intro s
  have hbow := b2n_lt (isMember s .bow)
  have hstroke := b2n_lt (isMember s .stroke)
  have hlock := b2n_lt s.clk.springLock
  have href := b2n_lt s.clk.refclk
  have hfatal := b2n_lt s.fault.chipFatal
  have hmark := b2n_lt s.host.markReject
  have hunp := b2n_lt s.host.unprotected
  have hlatch := b2n_lt s.seq.latched
  refine ⟨extract_word_toNat 0 (by decide) ?_, getLsbD_word 8 (by decide) ?_, getLsbD_word 9 (by decide) ?_,
    extract_word 48 16 (by decide) ?_, getLsbD_word 1 (by decide) ?_, getLsbD_word 5 (by decide) ?_,
    getLsbD_word 63 (by decide) ?_, extract_word_toNat 32 (by decide) ?_, rfl, getLsbD_word 0 (by decide) ?_,
    getLsbD_word 7 (by decide) ?_, extract_word 32 32 (by decide) ?_, extract_word 0 32 (by decide) ?_,
    extract_word 0 48 (by decide) ?_, extract_word 0 16 (by decide) (v := (crewOf s .bow).rejoinTime) ?_,
    extract_word 52 4 (by decide) ?_, extract_word 61 3 (by decide) ?_, getLsbD_word 58 (by decide) ?_,
    extract_word 0 16 (by decide) ?_⟩
  all_goals simp only [fld]; omega

end Sys2Proof.Machine
end

section
/-! PROOFS. A host read (R50, R74, R159, R165, R168, R194): the first fault of a head port, and what each branch of a read
leaves. -/

namespace Sys2Proof.Machine
open Sys2Proof

/-! ## Head ports (R13, R33) -/

/-- A head that the part runs has its port. -/
theorem unitExists_headPort {s : State} {h : Fin 2} (hp : headPresent s h = true) : unitExists s (headPort h) = true := by
  fin_cases h
  · simp [unitExists, headPort]
  · have hbig : s.cfg.variant ≠ .tk7232c := by
      intro hv; simp [headPresent, twoHeads, hv] at hp
    simp [unitExists, headPort, hbig]

theorem crewOfUnit_headPort (h : Fin 2) : crewOfUnit (headPort h) = none := by fin_cases h <;> rfl

theorem isDdrCell_headPort (h : Fin 2) : isDdrCell (headPort h) = false := by fin_cases h <;> rfl

/-- A request that a head takes comes on a head that the part runs. -/
theorem memRequest_present {s : State} {h : Fin 2} (hr : memRequest s h = true) : headPresent s h = true := by
  simp only [memRequest, Bool.and_eq_true] at hr
  exact hr.2

/-- The parts that the first fault of a unit and its record move. -/
def faultParts : List Part := [.free, .wl, .cxl, .host, .out, .bus, .fault]

/-- The first C fault of a head port that is present (R260, R272): captured, reported as a correctable error, recorded. -/
theorem raise_headPort {h : Fin 2} {key : BitVec 8} {typ : Fin 16} {addr detail : Nat} {s : State}
    (hp : headPresent s h = true) (hfree : (capture s (headPort h)).sticky = false) (hc : Calm s) :
    let u := raise (headPort h) .c key typ (headPort h) addr detail s
    Captured s u (headPort h) .c key (headPort h) ∧ u.host.aerCorrectable = true ∧ u.out.resp = s.out.resp ∧
      OnlyChanges faultParts s u ∧ Calm u := by
  obtain ⟨v, hcap, honly, hcalm, hrep⟩ := raise_firstC (typ := typ) (addr := addr) (detail := detail)
    (unitExists_headPort hp) (unitExists_headPort hp) hfree (crewOfUnit_headPort h) (key := key)
  have hlink : OnlyChanges faultParts s (linkReportC (headPort h) v) :=
    (honly.mono (by decide)).trans ((linkReportC_only _ v).mono (by decide))
  have hu := hrep.onlyChanges (cs := faultParts) (by decide) hlink
  have hfault : ∀ t, Reported (linkReportC (headPort h) v) t → t.fault = v.fault := fun t ht => ht.only .fault (by decide)
  have hout : v.out = s.out := honly .out (by decide)
  obtain ⟨p0, p1, hhost⟩ := hrep.host
  refine ⟨captured_of_fault hcap (hfault _ hrep), ?_, ?_, hu, ?_⟩
  · rw [hhost]; simp [linkReportC, isDdrCell_headPort]
  · rw [hrep.resp]; exact congrArg Out.resp hout
  · exact calm_of_eq (hcalm hc) ((hu .log (by decide)).trans (honly .log (by decide)).symm) (hfault _ hrep)

/-! ## The branches of a read -/

section branches

variable {s : State} {head : Fin 2} {hpa id line : Nat} {res : DramRead}

theorem exec_hostRead (head : Fin 2) (hpa id : Nat) (res : DramRead) (s : State) :
    exec (.hostRead head hpa id res) s = execHostRead head hpa id res s := rfl

theorem execHostRead_notTaken (h : memRequest s head = false) : exec (.hostRead head hpa id res) s = .next s := by
  simp [exec_hostRead, execHostRead, h]

theorem execHostRead_notServed (h : memRequest s head = true) (hns : notServed s = true) :
    exec (.hostRead head hpa id res) s = finish (answerPoison head id (notServedFault head 0 hpa s)) := by
  simp [exec_hostRead, execHostRead, h, hns]

theorem execHostRead_nowhere (h : memRequest s head = true) (hns : notServed s = false) (hl : lineOfHpa s head hpa = none) :
    exec (.hostRead head hpa id res) s = .next s := by
  simp [exec_hostRead, execHostRead, h, hns, hl]

theorem execHostRead_at (h : memRequest s head = true) (hns : notServed s = false) (hl : lineOfHpa s head hpa = some line) :
    exec (.hostRead head hpa id res) s = finish (readAt head id line res s) := by
  simp [exec_hostRead, execHostRead, h, hns, hl]

/-- A read of a line whose page DRAM serves (R74, R184 to R187). -/
theorem execHostRead_served (h : ReadServed s head hpa line) :
    exec (.hostRead head hpa id res) s = finish (serveRead head id line res s) := by
  obtain ⟨hreq, hns, hl, hw, hu, hb⟩ := h
  rw [execHostRead_at hreq hns hl, readAt]
  simp [hw, hu, hb]

end branches

theorem mem_setIns {k : Nat} : ∀ t : List Nat, k ∈ setIns k t
  | [] => List.mem_singleton_self k
  | j :: t => by
    unfold setIns
    split
    · exact List.mem_cons_self
    · split
      case isTrue hk => exact hk ▸ List.mem_cons_self
      case isFalse => exact List.mem_cons_of_mem j (mem_setIns t)

/-- After a fetch was asked for, the page is among those that are fetched (R168). -/
theorem startFetch_fetching (page : Nat) (s : State) : page ∈ (startFetch page s).rst.fetching := by
  unfold startFetch
  split
  case isTrue h => simpa using h
  case isFalse =>
    have hq : (queueRead page (.demandFetch page) (s.onRst fun r => { r with fetching := setIns page r.fetching })).rst =
        { s.rst with fetching := setIns page s.rst.fetching } := queueRead_only _ _ _ (cs := [.flash]) (by decide) (.refl _ _) .rst (by decide)
    rw [hq]; exact mem_setIns _

/-- A read held for a fetch waits, and its page is fetched (R168). -/
theorem startFetch_holdRead (head : Fin 2) (id line page : Nat) (s : State) :
    let u := startFetch page (holdRead head id line .fetch s)
    u.wb = (holdRead head id line .fetch s).wb ∧ u.out = s.out ∧ OnlyChanges [.wb, .rst, .flash, .bus] s u := by
  have hf : OnlyChanges [.rst, .flash] (holdRead head id line .fetch s) (startFetch page (holdRead head id line .fetch s)) :=
    startFetch_only _ _ (by decide) (.refl _ _)
  exact ⟨hf .wb (by decide), hf .out (by decide),
    startFetch_only _ _ (by decide) (holdRead_only _ _ _ _ _ (by decide) (.refl _ s))⟩

/-! ## O5 -/

theorem hostReadReturnsMergedLine : HostReadReturnsMergedLine := by
  intro s head hpa id line h hc
  refine gives_noticed ((execHostRead_served h).trans ?_) hc
  simp [serveRead, answer]

theorem hostReadNotServedReturnsPoison : HostReadNotServedReturnsPoison := by
  intro s head hpa id res hreq hns hfree hc
  obtain ⟨hcap, haer, hresp, honly, hcalm⟩ := raise_headPort (key := 1) (typ := 0)
    (addr := (lineOfHpa s head hpa).getD 0 * 64) (detail := 0) (memRequest_present hreq) hfree hc
  refine gives_finish (execHostRead_notServed hreq hns) (calm_of_eq hcalm rfl rfl) fun t hn => ?_
  have hfault : t.fault = (notServedFault head 0 hpa s).fault := hn.only .fault (by decide)
  have hout : t.out = (answerPoison head id (notServedFault head 0 hpa s)).out := hn.only .out (by decide)
  have hhost : t.host = (notServedFault head 0 hpa s).host := hn.only .host (by decide)
  refine ⟨⟨Config.freeBits 512 (notServedFault head 0 hpa s).free, ?_⟩, captured_of_fault hcap hfault, ?_, ?_⟩
  · rw [hout, ← hresp]; rfl
  · rw [hhost]; exact haer
  · exact hn.onlyChanges (by decide) (answerPoison_only _ _ _ (by decide) honly)

theorem hostReadElsewhere : HostReadElsewhere := by
  intro s head hpa id res
  refine ⟨execHostRead_notTaken, fun hreq hns => ⟨execHostRead_nowhere hreq hns, fun line hl hc => ⟨?_, ?_, ?_⟩⟩⟩
  · intro h
    refine gives_noticed ((execHostRead_at hreq hns hl).trans (congrArg finish ?_)) hc
    rcases h with hw | ⟨hu, hlost⟩
    · simp [readAt, hw, answerPoison]
    · simp [readAt, hu, hlost, answerPoison]
  · intro hw hu hlost
    obtain ⟨hwb, hout, honly⟩ := startFetch_holdRead head id line (pageOf line) s
    refine gives_finish (u := startFetch (pageOf line) (holdRead head id line .fetch s))
      ((execHostRead_at hreq hns hl).trans (congrArg finish ?_)) (calm_of_onlyChanges honly (by decide) (by decide) hc)
      fun t hn => ?_
    · simp [readAt, hw, hu, hlost]
    · have htout : t.out = _ := hn.only .out (by decide)
      have htrst : t.rst = _ := hn.only .rst (by decide)
      refine ⟨(hn.only .wb (by decide)).trans hwb, ?_, ?_, hn.onlyChanges (by decide) honly⟩
      · rw [htrst]; exact startFetch_fetching _ _
      · rw [htout, hout]
  · intro hw hu hb hhit
    refine gives_noticed ((execHostRead_at hreq hns hl).trans (congrArg finish ?_)) hc
    simp [readAt, hw, hu, hb, hhit]

/-- Settles O5: by the three ways a read goes: it is served, memory is not ready, or the line is not served. -/
theorem hostReadsReturnLineOrPoison : Obligations.HostReadsReturnLineOrPoison :=
  ⟨hostReadReturnsMergedLine, hostReadNotServedReturnsPoison, hostReadElsewhere⟩

end Sys2Proof.Machine
end

section
/-! PROOFS. The resets of a head and the training of its link (R3, R34, R35). -/

namespace Sys2Proof.Machine
open Sys2Proof

/-! ## One head changed -/

section onHead

variable (h : Fin 2) (s : State) (f g : Head → Head)

/-- Two changes of one head are one. -/
theorem onHead_onHead : onHead h g (onHead h f s) = onHead h (fun x => g (f x)) s := by
  unfold onHead; fin_cases h <;> rfl

theorem headOf_onHead : headOf (onHead h f s) h = f (headOf s h) := by
  unfold onHead headOf; fin_cases h <;> rfl

/-- A change that leaves the head as it is leaves the state. -/
theorem onHead_of_eq (hf : f (headOf s h) = g (headOf s h)) : onHead h f s = onHead h g s := by
  revert hf; unfold onHead headOf State.onHost; fin_cases h <;> intro hf <;> simp_all

end onHead

/-! ## The reset of a head (R35) -/

/-- The Object Dictionary sessions of the mailbox of head `h`. -/
def mailboxOf (h : Fin 2) (k : Nat) : Bool := decide (k = h.val ∨ k = 2 + h.val)

theorem resetHead_noSession {s : State} (h : Fin 2) (linkToo : Bool) (hupd : s.upd.session = none) :
    resetHead h linkToo s = (onHead h (fun x => clearedHead x linkToo) (endSessions (mailboxOf h) s)).onRst fun r =>
      { r with sanitizeHead := if r.sanitizeHead = some h then none else r.sanitizeHead } := by
  unfold resetHead
  simp only [State.onRst_upd, show ∀ p f, (onHead h f (endSessions p s)).upd = s.upd from fun _ _ => rfl, hupd]
  rfl

theorem mem_endSessions {p : Nat → Bool} {s : State} {x : Session} :
    x ∈ (endSessions p s).od.sessions ↔ x ∈ s.od.sessions ∧ p x.key = false := by
  simp [endSessions]

theorem resetHead_noSession_only {s : State} (h : Fin 2) (linkToo : Bool) (hupd : s.upd.session = none) :
    OnlyChanges [.host, .od, .rst] s (resetHead h linkToo s) := by
  rw [resetHead_noSession h linkToo hupd]
  exact State.onRst_only _ _ (by decide) (onHead_only _ _ _ (by decide) (endSessions_only _ _ (by decide) (.refl _ s)))

theorem resetHead_calm {s : State} (h : Fin 2) (linkToo : Bool) (hupd : s.upd.session = none) (hc : Calm s) :
    Calm (resetHead h linkToo s) :=
  calm_of_onlyChanges (resetHead_noSession_only h linkToo hupd) (by decide) (by decide) hc

/-- With no update session open, the reset of a head ends the Object Dictionary sessions of its mailbox and clears the head;
`r` is the state before the level of PERST_N was taken. -/
theorem resetHead_headReset {r t : State} {h : Fin 2} {linkToo perst : Bool} (hupd : r.upd.session = none)
    (hn : Noticed (resetHead h linkToo (onHead h (fun x => { x with perst := perst }) r)) t) :
    HeadReset r h linkToo perst t := by
  have honly := hn.onlyChanges (cs := [.host, .od, .rst, .bus]) (by decide)
    ((resetHead_noSession_only h linkToo (s := onHead h _ r) hupd).mono (by decide))
  rw [resetHead_noSession h linkToo (s := onHead h _ r) hupd] at hn
  obtain ⟨b, rfl⟩ := hn.eq_onBus
  refine ⟨?_, rfl, fun x => ?_, rfl, ?_, ?_⟩
  · fin_cases h <;> rfl
  · exact mem_endSessions.trans (by simp [mailboxOf, onHead])
  · simp
  · exact (onHead_only _ _ _ (by decide) (.refl _ r)).trans honly

/-! ## O8 -/

theorem headResetsTouchOneHead : HeadResetsTouchOneHead := by
  refine ⟨fun s head hdark hp hupd hc => ?_, fun s head h => ?_, fun s head i linkToo hl hp hupd hc hi => ?_,
    fun s head i h hi => ?_⟩
  · refine gives_finish (u := resetHead head true (onHead head (fun x => { x with perst := true }) s)) ?_ ?_
      fun t hn => resetHead_headReset hupd hn
    · show execPerstNAssert head s = _
      have hdark' : ∀ f, darkOrAux (onHead head f s) = false := fun _ => hdark
      have hp' : ∀ f, headPresent (onHead head f s) head = true := fun _ => hp
      simp [execPerstNAssert, hdark', hp']
    · exact resetHead_calm (s := onHead head _ s) head true hupd hc
  · show execPerstNAssert head s = _
    have hno : ∀ f, (darkOrAux (onHead head f s) || !headPresent (onHead head f s) head) = true := fun _ => by
      show (darkOrAux s || !headPresent s head) = true
      simpa using h
    simp [execPerstNAssert, hno]
  · have hsame : s = onHead head (fun x => { x with perst := (headOf s head).perst }) s := by
      unfold onHead headOf; fin_cases head <;> rfl
    have hgives : exec i s = finish (resetHead head linkToo s) → Gives i s (HeadReset s head linkToo (headOf s head).perst) :=
      fun hexec => gives_finish hexec (resetHead_calm head linkToo hupd hc) fun t hn =>
        resetHead_headReset hupd (by rw [← hsame]; exact hn)
    rcases hi with ⟨rfl, rfl⟩ | ⟨rfl | rfl, rfl⟩
    · exact hgives (by show execLinkReset head s = _; simp [execLinkReset, hl, hp])
    · exact hgives (by show execFlr head s = _; simp [execFlr, hl, hp])
    · exact hgives (by show execCxlReset head s = _; simp [execCxlReset, hl, hp])
  · have hno : (linkEntered s && headPresent s head) = false := by
      rcases h with h | h <;> simp [h]
    rcases hi with rfl | rfl | rfl
    · show execLinkReset head s = _; simp [execLinkReset, hno]
    · show execFlr head s = _; simp [execFlr, hno]
    · show execCxlReset head s = _; simp [execCxlReset, hno]

theorem shadowDone_none {s : State} (m : MasterId) (h : s.fault.shadows = []) : shadowDone m s = s := by
  have hmap : ∀ f, s.fault.shadows.map f = s.fault.shadows := fun f => by rw [h, List.map_nil]
  exact congrArg (fun l => s.onFault fun f => { f with shadows := l }) (hmap _)

theorem linkTrainsAfterPerst : LinkTrainsAfterPerst := by
  refine ⟨fun s head => ?_, fun s head width rate hl hp hpres hsh hc => ?_, fun s head width rate h => ?_⟩
  · show execPerstNDeassert head s = _
    have hcond : ∀ f, (linkEntered (onHead head f s) && headPresent (onHead head f s) head) =
        (linkEntered s && headPresent s head) := fun _ => rfl
    unfold execPerstNDeassert
    simp only [hcond]
    split
    case isTrue h => rw [onHead_onHead, h]; simp
    case isFalse h => simp [h]
  · refine gives_noticed (u := onHead head _ s) ?_ hc
    show execHostRegionReady ⟨head, width, rate⟩ s = _
    have hshadow : ∀ f, shadowDone (headPort head) (onHead head f s) = onHead head f s := fun f =>
      shadowDone_none (s := onHead head f s) (headPort head) hsh
    simp [execHostRegionReady, hl, hp, hpres, hshadow]
  · show execHostRegionReady ⟨head, width, rate⟩ s = _
    rcases h with h | h | h <;> simp [execHostRegionReady, h]

/-- Settles O8: a reset and a training of each kind at a time. -/
theorem headsResetAndTrain : Obligations.HeadsResetAndTrain := ⟨headResetsTouchOneHead, linkTrainsAfterPerst⟩

end Sys2Proof.Machine
end

section
/-! PROOFS. What a drain of the write buffer leaves (R30, R39, R52), and Global Persistent Flush. -/

namespace Sys2Proof.Machine
open Sys2Proof

/-! ## Entries applied to DRAM -/

@[simp] theorem writeByte_channels (a : Nat) (b : Byte) (s : State) : (writeByte a b s).dram.channels = s.dram.channels := rfl

theorem writeEnabled_channels (d : Line) (be : BitVec 64) : ∀ (n a k : Nat) (s : State),
    (writeEnabled a d be n k s).dram.channels = s.dram.channels
  | 0, _, _, _ => rfl
  | n + 1, a, k, s => by
    unfold writeEnabled
    rw [writeEnabled_channels d be n]
    split <;> rfl

theorem setPoison_channels (line : Nat) (on : Bool) (s : State) : (setPoison line on s).dram.channels = s.dram.channels := by
  unfold setPoison; split <;> rfl

/-- A write to DRAM moves no channel. -/
theorem applyEntry_channels (e : WEntry) (s : State) : (applyEntry e s).dram.channels = s.dram.channels :=
  (setPoison_channels _ _ _).trans (writeEnabled_channels _ _ _ _ _ _)

theorem foldl_applyEntry_channels : ∀ (l : List WEntry) (s : State),
    (l.foldl (fun x e => applyEntry e x) s).dram.channels = s.dram.channels
  | [], _ => rfl
  | e :: t, s => (foldl_applyEntry_channels t _).trans (applyEntry_channels e s)

theorem foldl_applyEntry_only (l : List WEntry) (s : State) :
    OnlyChanges [.cxl, .dram] s (l.foldl (fun x e => applyEntry e x) s) :=
  only_foldl (fun _ _ h => applyEntry_only _ _ (by decide) h) _ _ (.refl _ s)

theorem inBlockReset_of_channels {s t : State} (h : t.dram.channels = s.dram.channels) (hcfg : t.cfg = s.cfg) (page : Nat) :
    inBlockReset t page = inBlockReset s page := by
  unfold inBlockReset channelOfPage; rw [h, hcfg]

/-! ## A flush -/

section flush

variable (p : WEntry → Bool) (s : State)

theorem flush_entries : (flush p s).wb.entries = s.wb.entries.filter fun e => !(drainable s e && p e) :=
  congrArg WriteBuffer.entries (foldl_applyEntry_only _ _ .wb (by decide))

theorem flush_inBlockReset (page : Nat) : inBlockReset (flush p s) page = inBlockReset s page :=
  inBlockReset_of_channels (foldl_applyEntry_channels _ _) (flush_only p s (cs := [.cxl, .wb, .dram]) (by decide) (.refl _ s) .cfg (by decide)) page

end flush

/-! ## Global Persistent Flush (R52) -/

/-- Acknowledgements in a row only answer. -/
theorem foldl_say (f : Fin 2 → Response) : ∀ (l : List (Fin 2)) (s : State),
    l.foldl (fun s h => say (f h) s) s = { s with out := { s.out with resp := (l.map f).reverse ++ s.out.resp } }
  | [], _ => rfl
  | h :: t, s => by
    rw [List.foldl_cons, foldl_say f t]
    simp [say, State.onOut]

theorem gpfWaitsForBufferedWrites : GpfWaitsForBufferedWrites := by
  refine ⟨fun s head hl hp hf => ?_, fun s head hl hp hf h => ?_, fun s head hl hp hf hfence hready =>
    ⟨(s.wb.entries.filter fun e => !gpfExempt s e).map (·.id), fun n => ?_, ?_⟩⟩
  · show execGpfPhase1 head s = _
    simp [execGpfPhase1, hl, hp, hf]
  · show execGpfPhase2 head s = _
    rcases h with h | h <;> simp [execGpfPhase2, hl, hp, hf, h]
  · simp [gpfExempt, and_assoc]
  · show execGpfPhase2 head s = _
    simp [execGpfPhase2, hl, hp, hf, hfence, hready, State.onHost]

/-- Where every write waited for can be applied, or is exempt, none of the others is left. -/
theorem gpf_noneLeft {s : State}
    (h : ∀ e ∈ s.wb.entries, e.id ∈ s.host.gpfWaits → inBlockReset s (pageOf e.line) = false → drainable s e = true) :
    let u := flush (fun e => s.host.gpfWaits.contains e.id) s
    (u.wb.entries.any fun e => s.host.gpfWaits.contains e.id && !gpfExempt u e) = false := by
  intro u
  rw [List.any_eq_false, flush_entries]
  intro e he hw
  rw [List.mem_filter] at he
  simp only [gpfExempt, u, flush_inBlockReset] at hw
  have := h e he.1
  simp_all

theorem gpfDrainRecordsAndAcknowledges : GpfDrainRecordsAndAcknowledges := by
  intro s hg hsound hc hall
  have hflush : OnlyChanges [.cxl, .wb, .dram] s (gpfFlushed s) := flush_only _ s (by decide) (.refl _ s)
  have hledger : (gpfFlushed s).ledger = s.ledger := hflush .ledger (by decide)
  have hhost : (gpfFlushed s).host = s.host := hflush .host (by decide)
  have htb : (gpfFlushed s).tb = s.tb := hflush .tb (by decide)
  have hout : (gpfFlushed s).out = s.out := hflush .out (by decide)
  refine gives_noticed ?_ (calm_of_eq hc (hflush .log (by decide)) (hflush .fault (by decide)))
  show execGpfDrainDone s = _
  unfold execGpfDrainDone
  rw [if_neg (by simp [hg])]
  dsimp only
  rw [gpf_noneLeft hall]
  simp only [Bool.false_eq_true, if_false, foldl_say]
  rw [show flush (fun e => s.host.gpfWaits.contains e.id) s = gpfFlushed s from rfl]
  simp [commit, Commit.isCheckpoint, State.onHost, State.onLedger, hledger, hsound, hhost, htb, hout]

/-- Settles O9: from the acknowledgement of the phases to the fold of the buffered writes at the end of the drain. -/
theorem gpfDrainsTheWriteBuffer : Obligations.GpfDrainsTheWriteBuffer :=
  ⟨gpfWaitsForBufferedWrites, gpfDrainRecordsAndAcknowledges⟩

end Sys2Proof.Machine
end

section
/-! PROOFS. O10 fails: ROOT_RELOCK's clause has no premise that the capture records are canonical, and where the Umpire's record
is listed twice, the one whose PRESENT alone is set leaves the list as it is cleared, and the second one shows (R264). -/

namespace Sys2Proof.Machine
open Sys2Proof

/-- The roots run, the Spring PLL is unlocked, and the Umpire's record stands twice in the list. -/
def umpireListedTwice : State :=
  { State.reset with
    clk := { State.reset.clk with rootsStarted := true, springLock := false, backupLock := true }
    fault := { recs := [(0x40, { present := true }), (0x40, { count := 1 })] } }

/-- The record without PRESENT reads as an unlisted one, so that writing it takes the first entry off the list. -/
theorem umpireListedTwice_capture : { capture umpireListedTwice 0x40 with present := false } = ({} : Capture) ∧
    ∃ t, exec (.rootRelock false) umpireListedTwice = .next t ∧ capture t 0x40 = { count := 1 } :=
  ⟨by decide +kernel, _, rfl, by decide +kernel⟩

/-- Refutes O10: after the relock the Umpire's record is not the one that was held. -/
theorem not_rootsAndReferenceSwitch : ¬ Obligations.RootsAndReferenceSwitch := by
  intro ⟨_, _, hrelock, _⟩
  obtain ⟨t, ht, _, hcap, _⟩ := hrelock umpireListedTwice false rfl rfl ⟨rfl, rfl⟩
  obtain ⟨hnone, u, hu, hsecond⟩ := umpireListedTwice_capture
  obtain rfl : u = t := Host.Outcome.next.inj (hu.symm.trans ht)
  have hboth : (umpireListedTwice.clk.springLock || umpireListedTwice.clk.backupLock) = true := rfl
  simp only [hboth, if_true, hnone, hsecond] at hcap
  exact absurd hcap (by decide)

end Sys2Proof.Machine
end

section
/-! PROOFS. The Weir's level, CAP and FLOOR (R20, R117 to R120, R128, R130, R131): what the check after a change leaves of the
Weir's registers, and O12. -/

namespace Sys2Proof.Machine
open Sys2Proof

/-! ## What the check after a change leaves (R97, R125) -/

theorem record_weir (code : BitVec 16) (sev : Fin 8) (m : MasterId) (v : Nat) (s : State) :
    (record code sev m v s).weir = s.weir := (record_reported _ _ _ _ _).only .weir (by decide)

theorem recordWith_weir (code : BitVec 16) (sev : Fin 8) (m : MasterId) (v : Nat) (a b : Bool) (l : List Word) (s : State) :
    (recordWith code sev m v a b l s).weir = s.weir := (recordWith_reported _ _ _ _ _ _ _ _).only .weir (by decide)

/-- An episode moves its own registers of the Weir alone. -/
theorem episodeCheck_weir (cause : Nat) (s : State) : ∃ x n e,
    (episodeCheck cause s).weir = { s.weir with excessMax := x, episodes := n, episode := e } := by
  unfold episodeCheck
  dsimp only
  split
  · split
    · rw [record_weir]; exact ⟨_, _, _, rfl⟩
    · exact ⟨_, _, _, rfl⟩
  · split
    · rw [recordWith_weir]; exact ⟨_, _, _, rfl⟩
    · split
      · rw [record_weir]; exact ⟨_, _, _, rfl⟩
      · exact ⟨_, _, _, rfl⟩

/-- The parts that a change of the Weir's registers may move. -/
def weirParts : List Part := [.weir, .pm, .lake, .free, .wl, .cxl, .host, .out, .bus]

/-- A change of the Weir's registers alone is one that moves nothing else. -/
theorem weirMoves_of_only {s u : State} (hu : OnlyChanges [.weir, .free] s u) : WeirMoves s u := by
  have hpm : u.pm = s.pm := hu .pm (by decide)
  have hhost : u.host = s.host := hu .host (by decide)
  exact ⟨by rw [hpm], by rw [hpm], by rw [hpm], by rw [hhost], hu.mono (by decide)⟩

theorem weirMoves_reported {s u t : State} (h : WeirMoves s u) (hr : Reported u t) : WeirMoves s t := by
  obtain ⟨hpages, hresidue, hbuckets, hunp, honly⟩ := h
  have hpm : t.pm = u.pm := hr.only .pm (by decide)
  obtain ⟨p0, p1, hh⟩ := hr.host
  exact ⟨by rw [hpm, hpages], by rw [hpm, hresidue], by rw [hpm, hbuckets], by rw [hh]; exact hunp,
    hr.onlyChanges (by decide) honly⟩

/-- The check after a change of the Weir's registers. -/
theorem weirMoves_check {s u : State} (cause : Nat) (h : WeirMoves s u) : WeirMoves s (weirCheck cause u) := by
  obtain ⟨hpages, hresidue, hbuckets, hunp, honly⟩ := h
  obtain ⟨hb, hp, hr⟩ := weirCheck_map cause u
  obtain ⟨p0, p1, hh⟩ := weirCheck_host cause u
  exact ⟨hp.trans hpages, hr.trans hresidue, hb.trans hbuckets, by rw [hh]; exact hunp,
    weirCheck_only _ _ (by decide) honly⟩

theorem weirMoves_noticed {s t u : State} (h : WeirMoves s t) (hn : Noticed t u) : WeirMoves s u :=
  weirMoves_reported h hn.reported

theorem weirMoves_calm {s t : State} (h : WeirMoves s t) (hc : Calm s) : Calm t := by
  obtain ⟨-, -, -, -, honly⟩ := h
  exact calm_of_onlyChanges honly (by decide) (by decide) hc

theorem weirCheck_weir (cause : Nat) (u : State) : ∃ x n e,
    (weirCheck cause u).weir = { u.weir with excessMax := x, episodes := n, episode := e } := by
  obtain ⟨x, n, e, hw⟩ := episodeCheck_weir cause u
  have hsame : (weirCheck cause u).weir = (episodeCheck cause u).weir :=
    sprintCheck_only (cs := [.pm, .lake]) _ (by decide) (.refl _ _) .weir (by decide)
  exact ⟨x, n, e, hsame.trans hw⟩

/-- With every write admitted there is none to retest (R122). -/
theorem retest_admitted {s : State} (h : ∀ e ∈ s.wb.entries, e.phase = .admitted) : retest s = s := by
  unfold retest
  cases s.wb.entries.length with
  | zero => rfl
  | succ n => rw [retestHeld, firstIdx_none]; simpa using fun x hx hp => by simp [h x hx] at hp

/-- A command that changes the Weir's registers and checks. -/
theorem gives_weirCheck {i : Instr} {s u : State} {cause : Nat} {P : State → Prop}
    (hexec : exec i s = finish (weirCheck cause u)) (hu : WeirMoves s u) (hc : Calm s)
    (hp : ∀ t x n e, WeirMoves s t → t.weir = { u.weir with excessMax := x, episodes := n, episode := e } → P t) :
    Gives i s P := by
  have hm := weirMoves_check cause hu
  obtain ⟨x, n, e, hw⟩ := weirCheck_weir cause u
  exact gives_finish hexec (weirMoves_calm hm hc) fun t hn =>
    hp t x n e (weirMoves_noticed hm hn) ((hn.only .weir (by decide)).trans hw)

/-- A command that changes the Weir's registers, checks and retests, with every write admitted. -/
theorem gives_weirRetest {i : Instr} {s u : State} {cause : Nat} {P : State → Prop}
    (hexec : exec i s = finish (retest (weirCheck cause u))) (hu : OnlyChanges [.weir, .free] s u)
    (hadmitted : ∀ e ∈ s.wb.entries, e.phase = .admitted) (hc : Calm s)
    (hp : ∀ t x n e, WeirMoves s t → t.weir = { u.weir with excessMax := x, episodes := n, episode := e } → P t) :
    Gives i s P := by
  have hwb : (weirCheck cause u).wb = s.wb :=
    weirCheck_only (cs := weirParts) _ _ (by decide) (hu.mono (by decide)) .wb (by decide)
  rw [retest_admitted (by rw [hwb]; exact hadmitted)] at hexec
  exact gives_weirCheck hexec (weirMoves_of_only hu) hc hp

/-! ## Computation and publication (R117 to R120, R131) -/

theorem unprotectedCheck_same {s : State} (h : s.host.unprotected = !anyCounted s) : unprotectedCheck s = s := by
  simp [unprotectedCheck, h]

/-- With no string learning and UNPROTECTED as the strings have it a recomputation aborts nothing (R319). -/
theorem learnCheck_recompute {s : State} (h : WeirQuiet s) : learnCheck (recompute s) = recompute s := by
  obtain ⟨-, -, ha, hb, hunp, -⟩ := h
  have hfails : ∀ x, learnFails (recompute s) x = false := fun x => by
    cases x <;> simp [learnFails, recompute, strOf, ha, hb]
  unfold learnCheck
  simp only [hfails, Bool.false_eq_true, if_false]
  exact unprotectedCheck_same hunp

/-- The registers of the Weir after a publication. -/
def publishedAt (crew : Crew) (level : Nat) (s : State) (w : Weir) : Weir :=
  { w with
    published := level % 2 ^ 48 / pageBytes * pageBytes, pubStroke := decide (crew = .stroke), pubTime := s.tb.now
    hasPub := true, state := .published
    clamps := if decide (capBytes s < level % 2 ^ 48 / pageBytes * pageBytes) then satInc 0xFF w.clamps else w.clamps }

theorem publishOp_eq (crew : Crew) (level : Nat) (s : State) :
    publishOp crew level s = retest (weirCheck 1 (s.onWeir (publishedAt crew level s))) := rfl

theorem weirRecompute_publishes (s : State) (h : WeirQuiet s) (hmember : anyMember s = true) :
    Gives .weirRecompute s (fun t => WeirMoves s t ∧
      t.weir.bounds = boundsNow s ∧ t.weir.computed = (weaker s).isSome ∧
      t.weir.published = (boundsNow s).level % 2 ^ 48 / 4096 * 4096 ∧ t.weir.pubTime = s.tb.now ∧
      t.weir.state = .published ∧ t.weir.capMiB = s.weir.capMiB ∧ t.weir.floorMiB = s.weir.floorMiB) := by
  obtain ⟨hfence, hfrozen, -, -, -, hadmitted, hc⟩ := id h
  let r : State := { recompute s with free := s.free + 1 }
  have hr : OnlyChanges [.weir, .free] s r := free_only _ _ (by decide) (State.onWeir_only _ _ (by decide) (.refl _ s))
  refine gives_weirRetest (cause := 1) (u := r.onWeir (publishedAt (senderOf (recompute s)) (boundsNow s).level r)) ?_
    (State.onWeir_only _ _ (by decide) hr) hadmitted hc fun t x n e hm hw => ?_
  · show execWeirRecompute s = _
    unfold execWeirRecompute
    rw [if_pos (by simp [weirRuns, hmember, hfence, hfrozen]), learnCheck_recompute h]
    rfl
  · rw [hw]
    exact ⟨hm, rfl, rfl, rfl, rfl, rfl, rfl, rfl⟩

theorem weirRecomputesCapAndFloor : WeirRecomputesCapAndFloor := by
  refine ⟨weirRecompute_publishes, fun s h hcox => ⟨?_, ?_⟩, fun s h => ⟨?_, ?_, ?_⟩, fun s h => ?_⟩
  · obtain ⟨hfence, hfrozen, -, -, -, hadmitted, hc⟩ := id h
    refine gives_weirRetest (cause := 2) (u := s.onWeir fun w =>
      { w with capMiB := coxCapMiB s, floorMiB := dueFloorMiB s, floorDue := false }) ?_
      (State.onWeir_only _ _ (by decide) (.refl _ s)) hadmitted hc fun t x n e hm hw => ?_
    · show execCoxswainWeirRecompute s = _
      simp [execCoxswainWeirRecompute, coxRuns, hcox, hfence, hfrozen]
    · rw [hw]
      exact ⟨hm, rfl, rfl, rfl, rfl, rfl⟩
  · obtain ⟨hfence, hfrozen, -, -, -, hadmitted, hc⟩ := id h
    refine gives_weirRetest (cause := 2) (u := s.onWeir fun w =>
      { w with capMiB := s.weir.capMiB % 2 ^ 32, floorMiB := floorMiB s % 2 ^ 32
               state := if w.state = .init then .floor else w.state }) ?_
      (State.onWeir_only _ _ (by decide) (.refl _ s)) hadmitted hc fun t x n e hm hw => ?_
    · show execWeirFloorSet s = _
      simp [execWeirFloorSet, limitsOp, coxRuns, hcox, hfence, hfrozen]
    · rw [hw]
      exact ⟨hm, rfl, rfl, rfl, rfl⟩
  · show execWeirRecompute s = _
    rcases h with h | h <;> simp [execWeirRecompute, weirRuns, h]
  · show execCoxswainWeirRecompute s = _
    rcases h with h | h <;> simp [execCoxswainWeirRecompute, coxRuns, h]
  · show execWeirFloorSet s = _
    rcases h with h | h <;> simp [execWeirFloorSet, coxRuns, h]
  · show execWeirRecompute s = _
    simp [execWeirRecompute, weirRuns, h]

/-- A level of whole pages under a CAP of whole MiB is enforced as it is. -/
theorem wholePages_min (cap n : Nat) : min (cap * 1048576) (n * 4096) / 4096 * 4096 = min (cap * 1048576) (n * 4096) := by
  omega

theorem publicationIsEnforcedUnderCap : PublicationIsEnforcedUnderCap := by
  refine ⟨fun s crew level h => ?_, fun s crew level hmember hfence hfrozen hadmitted hc hlevel => ?_⟩
  · show execWeirPublish crew level s = _
    rcases h with h | h | h <;> simp [execWeirPublish, publishes, h]
  · refine gives_weirRetest (cause := 1) (u := s.onWeir (publishedAt crew level s)) ?_
      (State.onWeir_only _ _ (by decide) (.refl _ s)) hadmitted hc fun t x n e hm hw => ?_
    · show execWeirPublish crew level s = _
      simp [execWeirPublish, publishes, hmember, hfence, hfrozen, publishOp_eq]
    · have hlvl : level % 2 ^ 48 / pageBytes * pageBytes = level / 4096 * 4096 := by
        rw [Nat.mod_eq_of_lt hlevel]; rfl
      unfold enforced levelBeforeCap capBytes
      rw [hw]
      refine ⟨hm, hlvl, rfl, rfl, ?_, ?_, rfl, rfl, ?_⟩
      · simp [publishedAt]
      · simp only [State.onWeir_weir, publishedAt, hlvl, capBytes, mib, decide_eq_true_eq]
      · simp only [publishedAt, hlvl, State.onWeir_weir]
        exact wholePages_min _ _

theorem weirDecaysToFloor : WeirDecaysToFloor := by
  refine ⟨fun s hst hfrozen htrial hc => ?_, fun s hst hfrozen hc => ?_, fun s n => ?_⟩
  · let u := s.onWeir fun w =>
      { w with state := .decaying, decayFrom := w.published, decayAt := s.tb.now, decays := satInc 0xFF w.decays }
    refine gives_weirCheck (cause := 3) (u := record 0x0503 2 0x2240 0 u) ?_ (weirMoves_reported
      (weirMoves_of_only (State.onWeir_only _ _ (by decide) (.refl _ s))) (record_reported _ _ _ _ _)) hc
      fun t x n e hm hw => ?_
    · show execWeirDecayStart s = _
      have hmoves : OnlyChanges weirParts s (weirCheck 3 (record 0x0503 2 0x2240 0 u)) :=
        weirCheck_only _ _ (by decide) (record_only _ _ _ _ _ (by decide) (State.onWeir_only _ _ (by decide) (.refl _ s)))
      have hupd : (weirCheck 3 (record 0x0503 2 0x2240 0 u)).upd = s.upd := hmoves .upd (by decide)
      have hfail : trialFail 1 (weirCheck 3 (record 0x0503 2 0x2240 0 u)) = weirCheck 3 (record 0x0503 2 0x2240 0 u) :=
        if_neg fun h => htrial ((congrArg _ hupd).symm.trans h.1)
      unfold execWeirDecayStart
      rw [if_neg (by simp [hst, hfrozen])]
      dsimp only
      rw [hfail, ite_self]
    · rw [hw, record_weir]
      exact ⟨hm, rfl, rfl, rfl, rfl, rfl⟩
  · refine gives_weirCheck (cause := 3) (u := s.onWeir fun w => { w with state := .decayed }) ?_
      (weirMoves_of_only (State.onWeir_only _ _ (by decide) (.refl _ s))) hc fun t x n e hm hw => ?_
    · show execWeirDecayFloor s = _
      simp [execWeirDecayFloor, hst, hfrozen]
    · unfold enforced levelBeforeCap decayTarget floorBytes capBytes
      rw [hw]
      exact ⟨hm, rfl, rfl⟩
  · have htarget : decayTarget s ≤ s.weir.decayFrom := Nat.min_le_left _ _
    have hfall : (s.weir.decayFrom - decayTarget s) * min n nsPerS / nsPerS ≤ s.weir.decayFrom - decayTarget s :=
      Nat.div_le_of_le_mul ((Nat.mul_le_mul_left _ (Nat.min_le_right n nsPerS)).trans (Nat.mul_comm _ _).le)
    refine ⟨?_, Nat.sub_le _ _, fun hn => ?_⟩
    · unfold decayLevel; omega
    · have hmin : min n nsPerS = nsPerS := Nat.min_eq_right hn
      unfold decayLevel
      rw [hmin, Nat.mul_div_cancel _ (by decide)]
      omega

/-- Settles O12: a computation, a publication and a decay at a time. -/
theorem weirFollowsPublications : Obligations.WeirFollowsPublications :=
  ⟨weirRecomputesCapAndFloor, publicationIsEnforcedUnderCap, weirDecaysToFloor⟩

end Sys2Proof.Machine
end

section
/-! PROOFS. O14 fails where O6 does: a write to a DRAINING page whose map line a donor in block reset holds waits for the line
(R90, R194, R198). -/

namespace Sys2Proof.Machine
open Sys2Proof

/-- The open bucket, and the drain of page 1. -/
def oneBucket : Bucket := { slot := 0, epoch := 0, openSeq := 0, isOpen := true, pages := 1 }
def drainOfPage1 : DrainEntry := { failed := false, linked := false, bucket := 0, gen := 0, page := 1 }

/-- `donorInReset` with page 1 DRAINING under entry 0, and a bucket open. -/
def drainingOverDonor : State :=
  { donorInReset with
    pm := { pages := [(1, { state := .draining })], buckets := [oneBucket]
            drains := [(0, drainOfPage1)], residue := 4096 } }

theorem drainingOverDonor_writeTaken : WriteTaken drainingOverDonor 0 4096 64 := by
  refine ⟨⟨?_, ?_, ?_, ?_, ?_, ?_⟩, by decide, fun x hx => absurd hx List.not_mem_nil, ?_⟩ <;> decide +kernel

theorem execHostWrite_at {s : State} {head : Fin 2} {hpa id line : Nat} {data : Line} {be : BitVec 64} {poison : Bool}
    (h : memRequest s head = true) (hns : notServed s = false) (hl : lineOfHpa s head hpa = some line) :
    exec (.hostWrite head hpa id data be poison) s = finish (writeAt head id line data be poison s) := by
  show execHostWrite head hpa id data be poison s = _
  simp [execHostWrite, h, hns, hl]

/-- The write waits for the map line. -/
theorem drainingOverDonor_write_waits :
    (writeAt 0 7 64 0 0 false drainingOverDonor).wb.entries.map (·.phase) = [.mapWait] := by decide +kernel

/-- Refutes O14: the write to the DRAINING page is not admitted. -/
theorem not_drainsCleanPages : ¬ Obligations.DrainsCleanPages := by
  rintro ⟨-, -, -, hlinked⟩
  have hwt := drainingOverDonor_writeTaken
  obtain ⟨⟨hreq, hns, hl, -⟩, -⟩ := id hwt
  have hcalm : Calm drainingOverDonor := ⟨rfl, rfl⟩
  obtain ⟨t, ht, -, -, -, -, hentries, -⟩ := hlinked drainingOverDonor 0 4096 7 64 0 0 false _ 0 _ hwt (by decide +kernel)
    (by decide +kernel : drainOf drainingOverDonor 1 = some (0, drainOfPage1)) (by decide +kernel) hcalm
    (by decide +kernel : newestBucket drainingOverDonor = some oneBucket) rfl rfl (by decide)
  have hwaits := drainingOverDonor_write_waits
  obtain ⟨u, hu, hn⟩ := finish_noticed (s := writeAt 0 7 64 0 0 false drainingOverDonor) ⟨by decide +kernel, by decide +kernel⟩
  obtain rfl : u = t := Host.Outcome.next.inj (hu.symm.trans ((execHostWrite_at hreq hns hl).symm.trans ht))
  have hwb : u.wb = _ := hn.only .wb (by decide)
  rw [← hwb, hentries] at hwaits
  exact absurd hwaits (by decide +kernel)

end Sys2Proof.Machine
end

section
/-! PROOFS. The dirty log keeps its entries and their order through a chunk move and a compaction (R155), a checkpoint keeps the
mapping table (R104), and O16. -/

namespace Sys2Proof.Machine
open Sys2Proof

/-! ## Chunks leave the tail -/

/-- Units enough for the entries take them all to the log area, in order. -/
theorem writeUnits_eq (ring : Nat) : ∀ (n : Nat) (es : List LogEntry) (l : DirtyLog), es.length ≤ 512 * n →
    ∃ u k, writeUnits ring es n l = { l with area := l.area ++ es, units := u, nextUnit := k }
  | 0, es, l, h => by
    obtain rfl : es = [] := List.length_eq_zero_iff.mp (by omega)
    exact ⟨l.units, l.nextUnit, by simp [writeUnits]⟩
  | n + 1, es, l, h => by
    unfold writeUnits
    split
    case isTrue he => exact ⟨l.units, l.nextUnit, by simp [List.isEmpty_iff.mp he]⟩
    case isFalse =>
      obtain ⟨u, k, hw⟩ := writeUnits_eq ring n (es.drop 512) _ (by rw [List.length_drop]; omega)
      exact ⟨u, k, by rw [hw]; simp only [List.append_assoc, List.take_append_drop]⟩

/-- A chunk goes from the tail's front to the area's end, and the spill area refills the tail. -/
theorem moveChunk_eq (ring : Nat) (l : DirtyLog) : ∃ u k, moveChunk ring l =
    refillTail { l with area := l.area ++ l.tail.take chunkEntries, tail := l.tail.drop chunkEntries, units := u, nextUnit := k } := by
  obtain ⟨u, k, h⟩ := writeUnits_eq ring 16 (l.tail.take chunkEntries) { l with tail := l.tail.drop chunkEntries }
    (by rw [List.length_take]; exact Nat.min_le_left _ _)
  exact ⟨u, k, by rw [moveChunk, h]⟩

/-- What entries appended to the log, with chunks that leave it, make of it: `es` stand behind all that was there. -/
structure Appended (s t : State) (es : List LogEntry) : Prop where
  whole : wholeLog t = wholeLog s ++ es
  spill : t.log.spill.length ≤ s.log.spill.length + es.length
  area : s.log.area.length ≤ t.log.area.length
  overflow : t.log.overflow = s.log.overflow
  compactions : t.log.compactions = s.log.compactions
  only : OnlyChanges [.log] s t

theorem Appended.trans {s t u : State} {es fs : List LogEntry} (h : Appended s t es) (h' : Appended t u fs) :
    Appended s u (es ++ fs) where
  whole := by rw [h'.whole, h.whole, List.append_assoc]
  spill := by have := h.spill; have := h'.spill; rw [List.length_append]; omega
  area := h.area.trans h'.area
  overflow := h'.overflow.trans h.overflow
  compactions := h'.compactions.trans h.compactions
  only := h.only.trans h'.only

theorem moveChunk_appended (ring : Nat) (s : State) : Appended s (s.onLog (moveChunk ring)) [] ∧
    (s.onLog (moveChunk ring)).log.area.length = s.log.area.length + min 8192 s.log.tail.length := by
  obtain ⟨u, k, h⟩ := moveChunk_eq ring s.log
  have hlog : (s.onLog (moveChunk ring)).log = _ := h
  refine ⟨⟨?_, ?_, ?_, ?_, ?_, State.onLog_only _ _ (by decide) (.refl _ s)⟩, ?_⟩
  · rw [wholeLog, hlog]
    simp [wholeLog, refillTail, ← List.append_assoc]
    simp [List.append_assoc]
  all_goals rw [hlog]; simp [refillTail, chunkEntries]

theorem logAppend_appended {s : State} (e : LogEntry) (h : s.log.spill.length < spillEntries) :
    Appended s (logAppend e s) [e] := by
  have honly : OnlyChanges [.log] s (logAppend e s) := logAppend_only _ _ (by decide) (.refl _ s)
  by_cases hroom : (s.log.spill.isEmpty && decide (s.log.tail.length < tailEntries)) = true
  · have hlog : (logAppend e s).log = { s.log with pos := s.log.pos + 1, tail := s.log.tail ++ [e] } := if_pos hroom
    have hspill : s.log.spill = [] := by simp at hroom; exact hroom.1
    exact ⟨by simp [wholeLog, hlog, hspill], by simp [hlog], by simp [hlog], by simp [hlog], by simp [hlog], honly⟩
  · have hlog : (logAppend e s).log =
        { s.log with pos := s.log.pos + 1, spill := s.log.spill ++ [e], spills := s.log.spills + 1 } :=
      (if_neg hroom).trans (if_pos h)
    exact ⟨by simp [wholeLog, hlog], by simp [hlog], by simp [hlog], by simp [hlog], by simp [hlog], honly⟩

theorem emitEntry_appended {s : State} (e : LogEntry) (h : s.log.spill.length < spillEntries) :
    Appended s (emitEntry s e) [e] := by
  have ha := logAppend_appended e h
  unfold emitEntry
  dsimp only
  split
  · simpa using ha.trans (moveChunk_appended _ _).1
  · exact ha

theorem foldl_emitEntry_appended : ∀ (es : List LogEntry) (s : State), s.log.spill.length + es.length ≤ spillEntries →
    Appended s (es.foldl emitEntry s) es
  | [], s, _ => ⟨by simp, by simp, le_refl _, rfl, rfl, .refl _ s⟩
  | e :: es, s, h => by
    rw [List.length_cons] at h
    have he := emitEntry_appended (s := s) e (by omega)
    have hspill := he.spill
    rw [List.length_singleton] at hspill
    exact he.trans (foldl_emitEntry_appended es _ (by omega))

/-! ## The commands of the log (R155) -/

theorem startCompaction_log (s : State) : ∃ c, (startCompaction s).log = { s.log with compacting := c } := by
  unfold startCompaction; split
  · exact ⟨_, rfl⟩
  · exact ⟨s.log.compacting, rfl⟩

theorem chunkMove_keepsEntries (s : State) (hfrozen : frozen s = false) (hcox : anyCoxswain s = true)
    (hfence : s.host.fence = false) (h : s.ledger.failed = true ∨ 8192 ≤ s.log.tail.length) :
    Gives .dirtyLogChunkMove s fun t => wholeLog t = wholeLog s ∧
      t.log.area.length = s.log.area.length + min 8192 s.log.tail.length ∧ OnlyChanges [.log] s t := by
  obtain ⟨ha, harea⟩ := moveChunk_appended (ringUnits s) s
  obtain ⟨c, hlog⟩ := startCompaction_log (s.onLog (moveChunk (ringUnits s)))
  refine gives_next (t := startCompaction (s.onLog (moveChunk (ringUnits s)))) ?_
    ⟨?_, by rw [hlog]; exact harea, startCompaction_only _ (by decide) ha.only⟩
  · show execDirtyLogChunkMove s = _
    simp [execDirtyLogChunkMove, hfrozen, hcox, hfence, chunkEntries, h]
  · have hw := ha.whole
    rw [List.append_nil] at hw
    rw [← hw, wholeLog, hlog, wholeLog]

/-- The log after a compaction's walk: the `n` entries written before it go, and at the end of a restore all that is left of the
rest goes to the log area (R155, R173). -/
def dropWritten (restore : Bool) (ring n : Nat) (l : DirtyLog) : DirtyLog :=
  let l := { l with compacting := none, compactions := l.compactions + 1, area := l.area.drop n, units := dropUnits n l.units }
  if restore then
    let es := l.tail ++ l.spill
    writeUnits ring es es.length { l with tail := [], spill := [] }
  else l

theorem compact_eq (n : Nat) (s : State) : compact n s =
    (let u := (s.pm.pages.map fun x => walkEntries s x.1 x.2).flatten.foldl emitEntry s
     u.onLog (dropWritten (restoring u) (ringUnits u) n)) := rfl

theorem dropWritten_eq (restore : Bool) (ring n : Nat) (l : DirtyLog) : ∃ a tail spill v k,
    dropWritten restore ring n l = { l with
      compacting := none, compactions := l.compactions + 1, area := a, tail := tail, spill := spill, units := v, nextUnit := k } ∧
    a ++ (tail ++ spill) = l.area.drop n ++ (l.tail ++ l.spill) := by
  unfold dropWritten
  split
  case isTrue =>
    obtain ⟨v, k, hv⟩ := writeUnits_eq ring (l.tail ++ l.spill).length (l.tail ++ l.spill)
      { l with compacting := none, compactions := l.compactions + 1, area := l.area.drop n,
               units := dropUnits n l.units, tail := [], spill := [] } (by omega)
    exact ⟨_, [], [], v, k, hv, List.append_nil _⟩
  case isFalse => exact ⟨_, _, _, _, _, rfl, rfl⟩

/-- The end of a compaction on the log alone: what the walk stated stands behind the rest, and what was written before the walk
goes. -/
theorem compact_log {s : State} {n : Nat} (hn : n ≤ s.log.area.length)
    (hroom : s.log.spill.length + (s.pm.pages.map fun x => walkEntries s x.1 x.2).flatten.length ≤ spillEntries) :
    wholeLog (compact n s) = (wholeLog s ++ (s.pm.pages.map fun x => walkEntries s x.1 x.2).flatten).drop n ∧
      (compact n s).log.compacting = none ∧ (compact n s).log.compactions = s.log.compactions + 1 ∧
      (compact n s).log.overflow = s.log.overflow ∧ OnlyChanges [.log] s (compact n s) := by
  have hwalk := foldl_emitEntry_appended _ s hroom
  rw [← hwalk.whole, compact_eq]
  dsimp only
  generalize (s.pm.pages.map fun x => walkEntries s x.1 x.2).flatten.foldl emitEntry s = u at hwalk ⊢
  have harea : n ≤ u.log.area.length := hn.trans hwalk.area
  have hdrop : (wholeLog u).drop n = u.log.area.drop n ++ (u.log.tail ++ u.log.spill) := by
    rw [wholeLog, List.append_assoc, List.drop_append_of_le_length harea]
  obtain ⟨a, tail, spill, v, k, hlog, hparts⟩ := dropWritten_eq (restoring u) (ringUnits u) n u.log
  have honly : OnlyChanges [.log] u (u.onLog (dropWritten (restoring u) (ringUnits u) n)) :=
    State.onLog_only _ _ (by decide) (.refl _ u)
  refine ⟨?_, ?_, ?_, ?_, hwalk.only.trans honly⟩
  · exact Eq.trans (congrArg (fun l : DirtyLog => l.area ++ l.tail ++ l.spill) hlog)
      ((List.append_assoc a tail spill).trans (hparts.trans hdrop.symm))
  · exact congrArg DirtyLog.compacting hlog
  · exact (congrArg DirtyLog.compactions hlog).trans (congrArg (· + 1) hwalk.compactions)
  · exact (congrArg DirtyLog.overflow hlog).trans hwalk.overflow

theorem logKeepsEntriesInOrder : LogKeepsEntriesInOrder := by
  refine ⟨chunkMove_keepsEntries, fun s n hcomp hn hfrozen hfence hc hroom => ?_⟩
  obtain ⟨hwhole, hcompacting, hcount, hover, honly⟩ := compact_log hn hroom
  have hfault : (compact n s).fault = s.fault := honly .fault (by decide)
  refine gives_finish (u := compact n s) ?_ ⟨hover.trans hc.1, (congrArg _ hfault).trans hc.2⟩ fun t ht => ?_
  · show execLogCompactionDone s = _
    simp [execLogCompactionDone, hcomp, hfrozen, hfence]
  · have hlog : t.log = (compact n s).log := ht.only .log (by decide)
    refine ⟨?_, by rw [hlog, hcompacting], by rw [hlog, hcount], ht.onlyChanges (by decide) (honly.mono (by decide))⟩
    rw [← hwhole, wholeLog, hlog, wholeLog]

/-! ## Checkpoints (R104) -/

/-- A commit to a sound ledger stands there alone (R147). -/
theorem commit_sound {c : Commit} {s : State} (hc : c.isCheckpoint = false) (h : s.ledger.failed = false) :
    commit c s = s.onLedger fun l => { l with commits := { time := s.tb.now, commit := c } :: l.commits } := by
  simp [commit, hc, h]

/-- A CHECKPOINT in a sound ledger stands there and in the root area (R440). -/
theorem commit_checkpoint {n q : Nat} {dir : Nat × Nat} {s : State} (h : s.ledger.failed = false) :
    commit (.checkpoint n dir q) s = (rootWrite 2 0 (some (.checkpoint n dir q)) [] s).onLedger fun l =>
      { l with commits := { time := s.tb.now, commit := .checkpoint n dir q } :: l.commits } := by
  simp [commit, Commit.isCheckpoint, Commit.gen, rootWrite, h]

/-- The ring of the root area after the commit of a checkpoint (R440). -/
def checkpointRing (w : ChunkWrite) (dir : Nat × Nat) (s : State) : List RootRec :=
  (rootWrite 2 0 (some (.checkpoint (s.lake.checkpointSeq + 1) dir w.lakeSeq)) [] s).ledger.ring

theorem checkpointRing_head (w : ChunkWrite) (dir : Nat × Nat) (s : State) : ∃ r, (checkpointRing w dir s).head? = some r ∧
    r.typ = 2 ∧ r.commit = some (.checkpoint (s.lake.checkpointSeq + 1) dir w.lakeSeq) :=
  ⟨_, rfl, rfl, rfl⟩

/-- In a sound ledger the commit of a checkpoint stands there and in the root area (R440). -/
theorem checkpointOp_eq {s : State} (w : ChunkWrite) (dir : Nat × Nat) (hsound : s.ledger.failed = false) :
    checkpointOp w dir s = { s with
      lake := { s.lake with
        older := s.lake.checkpoint
        checkpoint := some { seq := s.lake.checkpointSeq + 1, lakeSeq := w.lakeSeq, mapping := chunkTable w s.lake.checkpoint,
                             lost := lostPages s, chunks := newestChunks w s.lake.checkpoint, dir := dir }
        checkpointSeq := s.lake.checkpointSeq + 1, chunkWrite := none }
      pm := { s.pm with lostSince := [] }
      ledger := { s.ledger with
        commits := { time := s.tb.now, commit := .checkpoint (s.lake.checkpointSeq + 1) dir w.lakeSeq } :: s.ledger.commits
        ring := checkpointRing w dir s } } := by
  unfold checkpointOp
  rw [commit_checkpoint]
  · rfl
  · exact hsound

theorem checkpointKeepsMapping : CheckpointKeepsMapping := by
  refine ⟨fun s hfrozen hempty hfence hcommitted hnone => ?_, fun s w dir hw htodo hdir hfrozen hfence hsound hc => ?_,
    fun s h => ?_⟩
  · show execCheckpointTimer s = _
    simp only [execCheckpointTimer, hfrozen, hempty, hfence, hcommitted, hnone, Option.isSome_none, Bool.not_true, Bool.or_self,
      Bool.false_eq_true, if_false]
    rfl
  · refine gives_finish (u := checkpointOp w dir s) ?_ ?_ fun t hn => ?_
    · show execCheckpoint s = _
      simp [execCheckpoint, hw, chunksWritten, htodo, hdir, hfrozen, hfence]
    · rw [checkpointOp_eq w dir hsound]; exact hc
    · rw [checkpointOp_eq w dir hsound] at hn
      obtain ⟨b, rfl⟩ := hn.eq_onBus
      exact ⟨hn, checkpointRing_head w dir s⟩
  · show execCheckpoint s = _
    unfold execCheckpoint
    split
    case h_1 => rfl
    case h_2 w hw =>
      have hno : chunksWritten w = none := by
        rcases h w hw with h | h <;> simp [chunksWritten, h]
      rw [hno]

/-- Settles O16: the log by its chunks, the checkpoint by its commit. -/
theorem logAndCheckpointKeepData : Obligations.LogAndCheckpointKeepData :=
  ⟨logKeepsEntriesInOrder, checkpointKeepsMapping⟩

end Sys2Proof.Machine
end

section
/-! PROOFS. The start of a save (R32, R132 to R138, R266, R449): what the fence leaves, what each trigger starts, and O17. -/

namespace Sys2Proof.Machine
open Sys2Proof

/-! ## The fence (R137) -/

theorem sprintCheck_lake (s : State) : ∃ b, (sprintCheck s).lake = { s.lake with starved := b } := ⟨_, rfl⟩

theorem sprintRun_marks (s : State) : (sprintRun s).pm.marks = s.pm.marks := by
  simp only [sprintRun, starvedCheck, State.onLake_pm, State.onPm_pm]
  (repeat' split) <;> rfl

theorem sprintCheck_marks (s : State) : (sprintCheck s).pm.marks = s.pm.marks := sprintRun_marks _

/-- A device whose fence moves no string: one is counted, none learns, and UNPROTECTED is 0. -/
structure StringsStand (s : State) : Prop where
  counted : anyCounted s = true
  unprotected : s.host.unprotected = false
  a : s.bat.a.st ≠ .learning
  b : s.bat.b.st ≠ .learning

theorem StringsStand.congr {s t : State} (h : StringsStand s) (ha : t.bat.a.st = s.bat.a.st) (hb : t.bat.b.st = s.bat.b.st)
    (hu : t.host.unprotected = s.host.unprotected) : StringsStand t where
  counted := by
    have hc := h.counted
    unfold anyCounted isCounted strOf at *
    simpa only [ha, hb] using hc
  unprotected := hu.trans h.unprotected
  a := ha ▸ h.a
  b := hb ▸ h.b

theorem dropCheckpoint_chunkWrite (s : State) : (dropCheckpoint s).lake.chunkWrite = none := by
  unfold dropCheckpoint State.onLake
  dsimp only
  split
  · rfl
  · assumption

theorem abortLearn_none {s : State} {x : Str} (h : (strOf s x).st ≠ .learning) : abortLearn x s = s := if_neg h

/-- No learn is aborted and UNPROTECTED stays where the strings stand. -/
theorem StringsStand.unprotectedCheck {s : State} (h : StringsStand s) :
    unprotectedCheck (abortLearn .b (abortLearn .a s)) = s := by
  rw [abortLearn_none (x := .a) h.a, abortLearn_none (x := .b) h.b]
  exact unprotectedCheck_same (by simp [h.unprotected, h.counted])

/-- The crew that is no member goes OFF at the fence (R243). -/
def fencedCrew (other c : CrewUnit) : CrewUnit :=
  if other.st = .member ∧ c.st ≠ .member then { c with st := .off, queue := [], copyEnd := none } else c

/-- `s` with the fence in force, up to the learns that it aborts. -/
def fenceFirst (s : State) : State :=
  let s := (s.onHost fun h => { h with fence := true, hostFence := true }).onWb fun w => { w with reads := [] }
  let s := (dropCheckpoint s).onLake fun l => { l with gcRun := false, deltas := [] }
  let s := s.onPm fun p => { p with marks := [], chosen := [] }
  s.onFlash fun f =>
    { f with channels := f.channels.map fun c => { c with jobs := c.jobs.filter fun j => j.started || savesClass j.op } }

/-- What the fence moves after the learns that it aborts, before the check of Sprint's causes. -/
def fenceRest (s : State) : State :=
  let s := s.onBat fun g => { g with a := { g.a with charging := false }, b := { g.b with charging := false } }
  let s := s.onCrew fun x => { x with bow := fencedCrew x.stroke x.bow, stroke := fencedCrew x.bow x.stroke }
  (s.onUpd fun u => { u with stage := if u.stage = .verifying then .verifying else .idle }).onPlan fun p =>
    { p with ramp := false, running := false, draft := [] }

/-- `s` with the fence in force, before the check of Sprint's causes. -/
def fenceDown (s : State) : State := fenceRest (fenceFirst s)

theorem applyFence_eq {s : State} (h : StringsStand s) : applyFence s = sprintCheck (fenceDown s) := by
  have hfirst : StringsStand (fenceFirst s) := h.congr rfl rfl rfl
  have heq : applyFence s =
      sprintCheck (fenceRest (unprotectedCheck (abortLearn .b (abortLearn .a (fenceFirst s))))) := rfl
  rw [heq, hfirst.unprotectedCheck, fenceDown]

/-- The parts that the start of a save moves. -/
def saveParts : List Part :=
  [.save, .seq, .host, .wb, .lake, .flash, .bat, .crew, .pm, .upd, .plan, .free, .wl, .cxl, .out, .bus]

theorem fenceDown_only (s : State) : OnlyChanges saveParts s (fenceDown s) := by
  have hfirst : OnlyChanges saveParts s (fenceFirst s) := by
    unfold fenceFirst
    exact State.onFlash_only _ _ (by decide) (State.onPm_only _ _ (by decide) (State.onLake_only _ _ (by decide)
      (dropCheckpoint_only _ (by decide) (State.onWb_only _ _ (by decide) (State.onHost_only _ _ (by decide) (.refl _ s))))))
  unfold fenceDown fenceRest
  exact State.onPlan_only _ _ (by decide) (State.onUpd_only _ _ (by decide) (State.onCrew_only _ _ (by decide)
    (State.onBat_only _ _ (by decide) hfirst)))

/-! ## A save starts (R134, R137) -/

/-- `s` with the save's registers as its start leaves them. -/
def saveArmed (tr : Trigger) (s : State) : State :=
  (s.onSave fun v =>
    { last := v.last, ignored := v.ignored, packWaiting := v.packWaiting
      phase := .fenced, trigger := some tr, running := true, fenceTime := s.tb.now
      gpf := gpfNoted (allCommits s), waitMember := emptySet s }).onSeq fun q => { q with shutdown := .none }

theorem startSave_eq {s : State} (tr : Trigger) (h : StringsStand s) :
    startSave tr s = sprintCheck (fenceDown (saveArmed tr s)) := by
  have harmed : StringsStand (saveArmed tr s) := h.congr rfl rfl rfl
  exact (rfl : startSave tr s = applyFence (saveArmed tr s)).trans (applyFence_eq harmed)

theorem saveArmed_only (tr : Trigger) (s : State) : OnlyChanges saveParts s (saveArmed tr s) :=
  State.onSeq_only _ _ (by decide) (State.onSave_only _ _ (by decide) (.refl _ s))

theorem startSave_saveParts {s : State} (tr : Trigger) (h : StringsStand s) : OnlyChanges saveParts s (startSave tr s) := by
  rw [startSave_eq tr h]
  exact sprintCheck_only _ (by decide) ((saveArmed_only tr s).trans (fenceDown_only _))

theorem sprintCheck_parts (s : State) : OnlyChanges [.pm, .lake] s (sprintCheck s) := sprintCheck_only _ (by decide) (.refl _ s)

/-- A save of a device whose strings stand begins (R134, R137, R138, R157, R210). -/
theorem startSave_begins {s : State} (tr : Trigger) (h : StringsStand s) : SaveBegins tr s (startSave tr s) := by
  have honly := startSave_saveParts tr h
  rw [startSave_eq tr h] at honly ⊢
  have hsprint := sprintCheck_parts (fenceDown (saveArmed tr s))
  obtain ⟨hbuckets, hpages, hresidue⟩ := sprintCheck_keepsMap (fenceDown (saveArmed tr s))
  have hmarks := sprintCheck_marks (fenceDown (saveArmed tr s))
  obtain ⟨b, hlake⟩ := sprintCheck_lake (fenceDown (saveArmed tr s))
  have hsave : (sprintCheck (fenceDown (saveArmed tr s))).save = _ := hsprint .save (by decide)
  have hhost : (sprintCheck (fenceDown (saveArmed tr s))).host = _ := hsprint .host (by decide)
  have hflash : (sprintCheck (fenceDown (saveArmed tr s))).flash = _ := hsprint .flash (by decide)
  have hwb : (sprintCheck (fenceDown (saveArmed tr s))).wb = _ := hsprint .wb (by decide)
  unfold SaveBegins
  rw [hsave, hhost, hflash, hwb, hpages, hresidue, hbuckets, hmarks, hlake]
  refine ⟨rfl, rfl, rfl, rfl, rfl, rfl, rfl, rfl, rfl, rfl, rfl, rfl, rfl, rfl, rfl, ?_, rfl, ?_, rfl, honly⟩
  · exact dropCheckpoint_chunkWrite _
  · intro c hc j hj
    obtain ⟨c', -, rfl⟩ := List.mem_map.mp hc
    simpa [savesClass] using (List.mem_filter.mp hj).2

/-- What a save's start leaves is the same seen from a state that differs in the sequencer, the strings and flags of the host
alone. -/
theorem saveBegins_from {r s t : State} {tr : Trigger} (h : SaveBegins tr s t) (hrs : OnlyChanges [.seq, .bat, .host] r s)
    (hepoch : s.host.epoch = r.host.epoch) (hsettled : s.host.settled = r.host.settled) : SaveBegins tr r t := by
  obtain ⟨hph, hrun, htr, htime, hbat, hwait, hf, hhf, hep, hse, hpages, hres, hbk, hmarks, hgc, hcw, hgpf, hjobs, hwb, honly⟩ := h
  have htb : s.tb = r.tb := hrs .tb (by decide)
  have hcrew : s.crew = r.crew := hrs .crew (by decide)
  have hpm : s.pm = r.pm := hrs .pm (by decide)
  have hledger : s.ledger = r.ledger := hrs .ledger (by decide)
  have hw : s.wb = r.wb := hrs .wb (by decide)
  have hempty : emptySet s = emptySet r := by unfold emptySet anyMember isMember crewOf; rw [hcrew]
  have hall : allCommits s = allCommits r := by unfold allCommits; rw [hledger]
  rw [htb] at htime
  rw [hempty] at hwait
  rw [hepoch] at hep
  rw [hsettled] at hse
  rw [hpm] at hpages hres hbk
  rw [hall] at hgpf
  rw [hw] at hwb
  exact ⟨hph, hrun, htr, htime, hbat, hwait, hf, hhf, hep, hse, hpages, hres, hbk, hmarks, hgc, hcw, hgpf, hjobs, hwb,
    (hrs.mono (by decide)).trans honly⟩

theorem saveBegins_noticed {s t u : State} {tr : Trigger} (h : SaveBegins tr s t) (hn : Noticed t u) : SaveBegins tr s u := by
  obtain ⟨hph, hrun, htr, htime, hbat, hwait, hf, hhf, hep, hse, hpages, hres, hbk, hmarks, hgc, hcw, hgpf, hjobs, hwb, honly⟩ := h
  have hbus := hn.onlyChanges (by decide) honly
  obtain ⟨b, rfl⟩ := hn.eq_onBus
  exact ⟨hph, hrun, htr, htime, hbat, hwait, hf, hhf, hep, hse, hpages, hres, hbk, hmarks, hgc, hcw, hgpf, hjobs, hwb, hbus⟩

/-! ## The trigger (R132, R135) -/

theorem strings_of_ready {s : State} (h : SaveReady s) : StringsStand s := by
  obtain ⟨-, -, -, -, -, -, -, hno, -, -, hunp, ha, hb, -⟩ := h
  refine ⟨?_, hunp, ha, hb⟩
  simp only [noBattery, Bool.or_eq_false_iff, Bool.not_eq_false'] at hno
  exact hno.1

/-! ## The erased Basin (R114, R115) -/

theorem goodDies_congr {s t : State} (hcfg : t.cfg = s.cfg) (hdies : t.flash.dies = s.flash.dies) : goodDies t = goodDies s := by
  unfold goodDies dieAt; rw [hcfg, hdies]

theorem erasedDies_congr {s t : State} (hcfg : t.cfg = s.cfg) (hdies : t.flash.dies = s.flash.dies) (hbasin : t.basin = s.basin) :
    erasedDies t = erasedDies s := by
  unfold erasedDies erasedAt; rw [goodDies_congr hcfg hdies, hbasin]

theorem basinErased_congr {s t : State} (hcfg : t.cfg = s.cfg) (hdies : t.flash.dies = s.flash.dies) (hbasin : t.basin = s.basin) :
    basinErased t = basinErased s := by
  unfold basinErased basinBlocks basinBlockBytes erasedAt; rw [erasedDies_congr hcfg hdies hbasin, hbasin, hcfg]

theorem basinTooSmall_congr {s t : State} (hcfg : t.cfg = s.cfg) (hdies : t.flash.dies = s.flash.dies)
    (hbasin : t.basin = s.basin) : basinTooSmall t = basinTooSmall s := by
  unfold basinTooSmall; rw [basinErased_congr hcfg hdies hbasin, hcfg]

/-- A save's start moves no die. -/
theorem startSave_dies {s : State} (tr : Trigger) (h : StringsStand s) : (startSave tr s).flash.dies = s.flash.dies := by
  rw [startSave_eq tr h]
  have hflash : (sprintCheck (fenceDown (saveArmed tr s))).flash = (fenceDown (saveArmed tr s)).flash :=
    sprintCheck_parts _ .flash (by decide)
  rw [hflash]
  rfl

/-- A trigger starts the save of a device that is ready for it. -/
theorem trigger_ready {s : State} (tr : Trigger) (h : SaveReady s) : trigger tr s = startSave tr s := by
  obtain ⟨hready, hwindow, hboat, hdark, hfrozen, hwaiting, hsaving, hno, hsmall, -⟩ := id h
  have hsmall' : basinTooSmall (startSave tr s) = false := by
    have honly := startSave_saveParts tr (strings_of_ready h)
    have hbasin : (startSave tr s).basin = s.basin := honly .basin (by decide)
    have hcfg : (startSave tr s).cfg = s.cfg := honly .cfg (by decide)
    exact (basinTooSmall_congr hcfg (startSave_dies tr (strings_of_ready h)) hbasin).trans hsmall
  unfold trigger endFreeze triggerRunning
  simp [hfrozen, hwaiting, hsaving, hdark, hboat, hready, hwindow, hno, hsmall']

/-- The parts of a change before a trigger that leaves a device ready for a save. -/
def readyParts : List Part := [.seq, .bat, .host, .fault, .clk, .free, .wl, .cxl, .out, .bus]

/-- A change of the sequencer's pins, the charging outputs, flags of the host, the roots and fault flags leaves a device ready
for a save. -/
theorem saveReady_congr {s t : State} (h : SaveReady s) (honly : OnlyChanges readyParts s t)
    (hst : t.seq.st = s.seq.st) (hdir : t.seq.dir = s.seq.dir) (ha : t.bat.a.st = s.bat.a.st) (hb : t.bat.b.st = s.bat.b.st)
    (hu : t.host.unprotected = s.host.unprotected) (hclk : t.clk.rootsStarted = s.clk.rootsStarted)
    (hwait : t.fault.waiting = s.fault.waiting) : SaveReady t := by
  have hstrings := (strings_of_ready h).congr ha hb hu
  obtain ⟨hready, hwindow, hboat, hdark, hfrozen, hwaiting, hsaving, hno, hsmall, hheld, hunp, hla, hlb, hover, hcalm⟩ := h
  have hrst : t.rst = s.rst := honly .rst (by decide)
  have hboot : t.boot = s.boot := honly .boot (by decide)
  have hfrz : t.frz = s.frz := honly .frz (by decide)
  have hsave : t.save = s.save := honly .save (by decide)
  have hweir : t.weir = s.weir := honly .weir (by decide)
  have hlog : t.log = s.log := honly .log (by decide)
  have hflash : t.flash = s.flash := honly .flash (by decide)
  refine ⟨by rw [memReady, hrst]; exact hready, by rw [inWindow_of_rst hrst]; exact hwindow, by rw [boathouse, hboot]; exact hboat,
    by rw [darkOrAux, hst]; exact hdark, by rw [frozen, hfrz]; exact hfrozen, by rw [hfrz]; exact hwaiting,
    by rw [saving, hsave]; exact hsaving, ?_, ?_, by rw [coreHeld, hclk, hst, hboot, hdir]; exact hheld,
    hstrings.unprotected, hstrings.a, hstrings.b, by rw [hlog]; exact hover, hwait.trans hcalm⟩
  · rw [noBattery, hweir, hstrings.counted]
    simp only [noBattery, Bool.or_eq_false_iff] at hno
    simpa using hno.2
  · rw [basinTooSmall_congr (honly .cfg (by decide)) (by rw [hflash]) (honly .basin (by decide))]; exact hsmall

theorem startSave_coreHeld {s : State} (tr : Trigger) (h : SaveReady s) : coreHeld (startSave tr s) = false := by
  have honly := startSave_saveParts tr (strings_of_ready h)
  obtain ⟨-, -, -, -, -, -, -, -, -, hheld, -⟩ := id h
  have hclk : (startSave tr s).clk = s.clk := honly .clk (by decide)
  have hboot : (startSave tr s).boot = s.boot := honly .boot (by decide)
  have hseq : (startSave tr s).seq = { s.seq with shutdown := .none } := by
    rw [startSave_eq tr (strings_of_ready h)]
    exact sprintCheck_parts (fenceDown (saveArmed tr s)) .seq (by decide)
  rw [coreHeld, hclk, hboot, hseq]
  exact hheld

theorem startSave_calm {s : State} (tr : Trigger) (h : SaveReady s) : Calm (startSave tr s) := by
  have hstrings := strings_of_ready h
  obtain ⟨-, -, -, -, -, -, -, -, -, -, -, -, -, hc⟩ := h
  exact calm_of_onlyChanges (startSave_saveParts tr hstrings) (by decide) (by decide) hc

/-! ## The commands that start a save -/

theorem pwrfail_starts (s : State) (ns : Nat) (h : SaveReady s) (haon : s.seq.vddAon = true) (hns : 10 ≤ ns) :
    Gives (.pwrfailNAssert ns) s (SaveBegins .pwrfail s) := by
  refine gives_finish (u := startSave .pwrfail s) ?_ (startSave_calm _ h) fun t hn =>
    saveBegins_noticed (startSave_begins .pwrfail (strings_of_ready h)) hn
  show execPwrfailNAssert ns s = _
  simp [execPwrfailNAssert, haon, show ¬ ns < 10 by omega, trigger_ready _ h, startHeld, startSave_coreHeld _ h]

theorem vin_starts (s : State) (h : SaveReady s) (haon : s.seq.vddAon = true) :
    Gives .vinSenseFall s fun t => SaveBegins .vin s t ∧ t.seq.mainOk = false ∧
      t.seq.pwrfailDrive = (s.seq.pwrfailDrive || drivesPwrfail s) := by
  let u := chargeCheck (s.onSeq fun q =>
    { q with mainOk := false, mainSince := none, holdVinFell := q.holdVinFell || q.holdAux
             pwrfailDrive := q.pwrfailDrive || drivesPwrfail s })
  have honly : OnlyChanges [.seq, .bat, .host] s u :=
    chargeCheck_only _ (by decide) (State.onSeq_only _ _ (by decide) (.refl _ s))
  have hu : SaveReady u := saveReady_congr h (honly.mono (by decide)) rfl rfl rfl rfl rfl rfl rfl
  have hseq : (startSave .vin u).seq = { u.seq with shutdown := .none } := by
    rw [startSave_eq .vin (strings_of_ready hu)]
    exact sprintCheck_parts (fenceDown (saveArmed .vin u)) .seq (by decide)
  refine gives_finish (u := startSave .vin u) ?_ (startSave_calm _ hu) fun t hn => ⟨saveBegins_noticed
    (saveBegins_from (startSave_begins .vin (strings_of_ready hu)) honly rfl rfl) hn, ?_⟩
  · show execVinSenseFall s = _
    have hready : memReady u = true := hu.1
    have hboat : boathouse u = false := hu.2.2.1
    unfold execVinSenseFall
    rw [if_neg (by simp [haon])]
    dsimp only
    rw [if_pos (by rw [show memReady _ = true from hready, show boathouse _ = false from hboat]; rfl)]
    exact congrArg finish (trigger_ready _ hu)
  · have htseq : t.seq = (startSave .vin u).seq := hn.only .seq (by decide)
    rw [htseq, hseq]
    exact ⟨rfl, rfl⟩

theorem viral_starts (s : State) (head : Fin 2) (h : SaveReady s) (hp : headPresent s head = true) :
    Gives (.viral head) s fun t => SaveBegins .viral s t ∧ t.host.viral = true := by
  let u := s.onHost fun x => { x with viral := true }
  have honly : OnlyChanges [.seq, .bat, .host] s u := State.onHost_only _ _ (by decide) (.refl _ s)
  have hu : SaveReady u := saveReady_congr h (honly.mono (by decide)) rfl rfl rfl rfl rfl rfl rfl
  refine gives_finish (u := startSave .viral u) ?_ (startSave_calm _ hu) fun t hn => ⟨saveBegins_noticed
    (saveBegins_from (startSave_begins .viral (strings_of_ready hu)) honly rfl rfl) hn, ?_⟩
  · show execViral head s = _
    rw [execViral, if_neg (by simp [hp])]
    exact congrArg finish (trigger_ready _ hu)
  · have hhost : t.host = (startSave .viral u).host := hn.only .host (by decide)
    rw [hhost, startSave_eq .viral (strings_of_ready hu)]
    exact congrArg HostRegion.viral (sprintCheck_parts (fenceDown (saveArmed .viral u)) .host (by decide))

end Sys2Proof.Machine
end

section
/-! PROOFS. The loss of the last locked root, which is chip fatal and starts a save (R26, R266, R276), a trigger while a save
runs (R134, R135), and O17. -/

namespace Sys2Proof.Machine
open Sys2Proof

/-! ## The Umpire's F capture (R265, R266) -/

theorem capture_of_recs {s t : State} (h : t.fault.recs = s.fault.recs) (m : MasterId) : capture t m = capture s m := by
  unfold capture; rw [h]

/-- What a capture says is said of the records and the clock alone. -/
theorem captured_congr {s s' t t' : State} {m r : MasterId} {cls : FClass} {k : BitVec 8} (h : Captured s' t' m cls k r)
    (hs : s'.fault.recs = s.fault.recs) (ht : t.fault.recs = t'.fault.recs) (htb : s'.tb = s.tb) : Captured s t m cls k r := by
  unfold Captured at *
  simp only [capture_of_recs hs, htb] at h
  simp only [capture_of_recs ht]
  exact h

/-- `t` keeps the captures and the chip fatal of `s`, and moves no more than a record and what the collector notes beside
them. -/
structure FaultsNoted (s t : State) : Prop where
  only : OnlyChanges faultParts s t
  recs : t.fault.recs = s.fault.recs
  chipFatal : t.fault.chipFatal = s.fault.chipFatal
  fatalKind : t.fault.fatalKind = s.fault.fatalKind
  host : ∃ p0 p1, t.host = { s.host with
    head0 := { s.host.head0 with msixPending := p0 }, head1 := { s.host.head1 with msixPending := p1 } }

theorem FaultsNoted.trans {s t u : State} (h : FaultsNoted s t) (h' : FaultsNoted t u) : FaultsNoted s u := by
  obtain ⟨p0, p1, hst⟩ := h.host
  obtain ⟨q0, q1, htu⟩ := h'.host
  exact ⟨h.only.trans h'.only, h'.recs.trans h.recs, h'.chipFatal.trans h.chipFatal, h'.fatalKind.trans h.fatalKind,
    q0, q1, by rw [htu, hst]⟩

theorem FaultsNoted.of_reported {s t : State} (h : Reported s t) : FaultsNoted s t := by
  have hfault : t.fault = s.fault := h.only .fault (by decide)
  exact ⟨h.onlyChanges (by decide) (.refl _ s), by rw [hfault], by rw [hfault], by rw [hfault], h.host⟩

theorem faultsNoted_waiting (l : List Nat) (s : State) : FaultsNoted s (s.onFault fun f => { f with waiting := l }) :=
  ⟨State.onFault_only _ _ (by decide) (.refl _ s), rfl, rfl, rfl, _, _, rfl⟩

theorem faultsNoted_noteFatal (id : BitVec 32) (s : State) : FaultsNoted s (noteFatal id s) := by
  unfold noteFatal
  split
  · exact .of_reported (.refl s)
  · exact ⟨State.onFault_only _ _ (by decide) (.refl _ s), rfl, rfl, rfl, _, _, rfl⟩

theorem noteFatal_waiting (id : BitVec 32) (s : State) : (noteFatal id s).fault.waiting = s.fault.waiting := by
  unfold noteFatal; split <;> rfl

/-- A second chip fatal while a save runs is recorded only (R134, R266). -/
theorem chipFatal_second {s : State} (kind : Nat) (id : BitVec 32) (hfatal : s.fault.chipFatal = true)
    (hsaving : saving s = true) : FaultsNoted s (chipFatal kind id s) ∧
      (chipFatal kind id s).fault.waiting = s.fault.waiting := by
  have hnote := faultsNoted_noteFatal id s
  have hsave : (noteFatal id s).save = s.save := hnote.only .save (by decide)
  have heq : chipFatal kind id s = laterTrigger .chipFatal (noteFatal id s) := by
    unfold chipFatal
    rw [if_pos (hnote.chipFatal.trans hfatal), if_pos (by rw [saving, hsave]; exact hsaving)]
  rw [heq]
  have hrec : Reported (noteFatal id s) (laterTrigger .chipFatal (noteFatal id s)) := record_reported _ _ _ _ _
  have hfault : (laterTrigger .chipFatal (noteFatal id s)).fault = (noteFatal id s).fault := hrec.only .fault (by decide)
  exact ⟨hnote.trans (.of_reported hrec), by rw [hfault, noteFatal_waiting]⟩

/-- A device that saves for a chip fatal, its frozen state over. -/
def FatalSave (s : State) : Prop := s.fault.chipFatal = true ∧ saving s = true ∧ frozen s = false

theorem FaultsNoted.fatalSave {s t : State} (h : FaultsNoted s t) (hs : FatalSave s) : FatalSave t := by
  have hsave : t.save = s.save := h.only .save (by decide)
  have hfrz : t.frz = s.frz := h.only .frz (by decide)
  exact ⟨h.chipFatal.trans hs.1, by rw [saving, hsave]; exact hs.2.1, by rw [frozen, hfrz]; exact hs.2.2⟩

/-- The Umpire's F reaction, a chip fatal, adds nothing to one that saves already; behind a reset of its own it waits. -/
theorem react_umpire {s : State} (hs : FatalSave s) : FaultsNoted s (react 0x0040 s) ∧
    ∀ n ∈ (react 0x0040 s).fault.waiting, n = 0x40 ∨ n ∈ s.fault.waiting := by
  obtain ⟨hfatal, hsaving, hfrozen⟩ := hs
  unfold react
  split
  · exact ⟨faultsNoted_waiting _ s, fun n hn => by simpa [or_comm] using hn⟩
  · have hnow : reactNow 0x0040 s = chipFatal 1 (faultId s 0x0040) s := rfl
    obtain ⟨hnoted, hwait⟩ := chipFatal_second 1 (faultId s 0x0040) hfatal hsaving
    rw [hnow]
    exact ⟨hnoted, fun n hn => .inr (hwait ▸ hn)⟩

/-- Only the Umpire's reaction waits. -/
def UmpireWaits (s : State) : Prop := ∀ n ∈ s.fault.waiting, n = 0x40

theorem foldl_react_umpire : ∀ (l : List Nat) (s : State), (∀ n ∈ l, n = 0x40) → FatalSave s →
    FaultsNoted s (l.foldl (fun s n => react (BitVec.ofNat 16 n) s) s)
  | [], s, _, _ => .of_reported (.refl s)
  | n :: l, s, hl, hs => by
    obtain rfl : n = 0x40 := hl n List.mem_cons_self
    have hr : FaultsNoted s (react 0x0040 s) := (react_umpire hs).1
    exact hr.trans (foldl_react_umpire l _ (fun m hm => hl m (List.mem_cons_of_mem _ hm)) (hr.fatalSave hs))

/-- The end of a command runs a reaction that waits for the Umpire to no more effect. -/
theorem finish_umpire {s : State} (hover : s.log.overflow = false) (hwait : UmpireWaits s) (hs : FatalSave s) :
    ∃ t, finish s = .next t ∧ FaultsNoted s t := by
  have hrun : FaultsNoted s (runWaiting s) :=
    (faultsNoted_waiting [] s).trans (foldl_react_umpire _ _ hwait hs)
  have hnoted : FaultsNoted s (notice (runWaiting s)) := hrun.trans (.of_reported (notice_noticed _).reported)
  have hcheck : overflowCheck s = s := by simp [overflowCheck, hover]
  exact ⟨_, by rw [finish, hcheck], hnoted⟩

/-! ## The last locked root is lost (R26, R266, R276) -/

/-- `s` with the flags of a chip fatal of kind 4, before its record. -/
def fatalMarked (s : State) : State :=
  (s.onFault fun f => { f with chipFatal := true, fatalKind := 4, fatalCause := 0 }).onHost fun h =>
    { h with aerUncorrectable := true }

theorem fatalFlags_eq {s : State} (htrial : s.upd.trial ≠ 1) :
    fatalFlags 4 0 s = record 0x0201 7 0x0080 4 (fatalMarked s) := by
  have hstops : trialStops 2 (fatalMarked s) = fatalMarked s := if_neg htrial
  exact (rfl : fatalFlags 4 0 s = record 0x0201 7 0x0080 4 (trialStops 2 (fatalMarked s))).trans
    (congrArg (record 0x0201 7 0x0080 4) hstops)

/-- A chip fatal on a device that is ready for a save starts it (R266). -/
theorem chipFatal_first {s : State} (h : SaveReady s) (hfatal : s.fault.chipFatal = false) (htrial : s.upd.trial ≠ 1) :
    ∃ v, Reported (fatalMarked s) v ∧ SaveReady v ∧ chipFatal 4 0 s = startSave .chipFatal v := by
  obtain ⟨hready, -, hboat, -, -, -, hsaving, -⟩ := id h
  have hmarked : SaveReady (fatalMarked s) := saveReady_congr h
    (State.onHost_only _ _ (by decide) (State.onFault_only _ _ (by decide) (.refl _ s))) rfl rfl rfl rfl rfl rfl rfl
  have hrec : Reported (fatalMarked s) (record 0x0201 7 0x0080 4 (fatalMarked s)) := record_reported _ _ _ _ _
  obtain ⟨p0, p1, hhost⟩ := hrec.host
  have hseq : (record 0x0201 7 0x0080 4 (fatalMarked s)).seq = (fatalMarked s).seq := hrec.only .seq (by decide)
  have hbat : (record 0x0201 7 0x0080 4 (fatalMarked s)).bat = (fatalMarked s).bat := hrec.only .bat (by decide)
  have hclk : (record 0x0201 7 0x0080 4 (fatalMarked s)).clk = (fatalMarked s).clk := hrec.only .clk (by decide)
  have hfault : (record 0x0201 7 0x0080 4 (fatalMarked s)).fault = (fatalMarked s).fault := hrec.only .fault (by decide)
  have hv : SaveReady (record 0x0201 7 0x0080 4 (fatalMarked s)) := saveReady_congr hmarked
    (hrec.only.mono (by decide)) (by rw [hseq]) (by rw [hseq]) (by rw [hbat]) (by rw [hbat]) (by rw [hhost]) (by rw [hclk])
    (by rw [hfault])
  refine ⟨_, hrec, hv, ?_⟩
  have hvready : memReady (record 0x0201 7 0x0080 4 (fatalMarked s)) = true := hv.1
  have hvboat : boathouse (record 0x0201 7 0x0080 4 (fatalMarked s)) = false := hv.2.2.1
  have hnote : noteFatal 0 s = s := rfl
  unfold chipFatal
  dsimp only
  rw [hnote, hfatal, hsaving, fatalFlags_eq htrial, if_neg Bool.false_ne_true, if_neg Bool.false_ne_true, hvready, hvboat,
    if_pos (show (true && !false) = true from rfl), trigger_ready _ hv]

/-- The F capture of the Umpire's lock loss on a device that saves for a chip fatal already. -/
theorem lockFault_umpire {s : State} {key : BitVec 8} (hfree : (capture s 0x0040).sticky = false) (hs : FatalSave s)
    (hwait : s.fault.waiting = []) :
    Captured s (lockFault .f key s) 0x0040 .f key 0x0040 ∧ UmpireWaits (lockFault .f key s) ∧
      (∃ y, OnlyChanges [.fault] s y ∧ FatalSave y ∧ y.fault.fatalKind = s.fault.fatalKind ∧ FaultsNoted y (lockFault .f key s)) := by
  have hunit : unitExists s 0x0040 = true := by simp [unitExists]
  let f : FaultIn := { unit := 0x0040, cls := .f, key := key, detail := 0, typ := 0xF, master := 0x0040, addr := 0
                       persists := true, detector := .other }
  have hy : FatalSave (firstCaptured f s) := hs
  have heq : lockFault .f key s = react 0x0040 (firstCaptured f s) := by
    unfold lockFault
    rw [reportFault_first hunit hunit hfree]
    rfl
  obtain ⟨hnoted, hw⟩ := react_umpire hy
  rw [heq]
  refine ⟨captured_congr (firstCaptured_captured f s) rfl hnoted.recs rfl, fun n hn => ?_, _, firstCaptured_only f s, hy, rfl, hnoted⟩
  rcases hw n hn with h | h
  · exact h
  · rw [firstCaptured_waiting, hwait] at h
    cases h

/-- What the loss of the last root leaves before its capture: the save for the chip fatal begins (R26, R266). -/
theorem rootsGone_saved {s w : State} (h : SaveReady s) (hfatal : s.fault.chipFatal = false) (htrial : s.upd.trial ≠ 1)
    (hw : OnlyChanges [.clk] s w) (hstarted : w.clk.rootsStarted = s.clk.rootsStarted) :
    ∃ v, SaveBegins .chipFatal v (chipFatal 4 0 w) ∧ FatalSave (chipFatal 4 0 w) ∧ Calm (chipFatal 4 0 w) ∧
      OnlyChanges (.clk :: .fault :: saveParts) s (chipFatal 4 0 w) ∧
      v.pm = s.pm ∧ v.wb = s.wb ∧ (chipFatal 4 0 w).clk = w.clk ∧ (chipFatal 4 0 w).host.aerUncorrectable = true ∧
      (chipFatal 4 0 w).fault = { s.fault with chipFatal := true, fatalKind := 4, fatalCause := 0 } := by
  have hwseq : w.seq = s.seq := hw .seq (by decide)
  have hwbat : w.bat = s.bat := hw .bat (by decide)
  have hwhost : w.host = s.host := hw .host (by decide)
  have hwfault : w.fault = s.fault := hw .fault (by decide)
  have hwupd : w.upd = s.upd := hw .upd (by decide)
  have hready : SaveReady w := saveReady_congr h (hw.mono (by decide)) (by rw [hwseq]) (by rw [hwseq]) (by rw [hwbat])
    (by rw [hwbat]) (by rw [hwhost]) hstarted (by rw [hwfault])
  obtain ⟨v, hrec, hv, heq⟩ := chipFatal_first hready (by rw [hwfault]; exact hfatal) (by rw [hwupd]; exact htrial)
  have hmarked : OnlyChanges [.fault, .host] w (fatalMarked w) :=
    State.onHost_only _ _ (by decide) (State.onFault_only _ _ (by decide) (.refl _ w))
  have hsave := startSave_saveParts .chipFatal (strings_of_ready hv)
  have hpm : v.pm = s.pm := (hrec.only .pm (by decide)).trans (hw .pm (by decide))
  have hwb : v.wb = s.wb := (hrec.only .wb (by decide)).trans (hw .wb (by decide))
  have hvclk : v.clk = w.clk := hrec.only .clk (by decide)
  have hvfault : v.fault = (fatalMarked w).fault := hrec.only .fault (by decide)
  have hvfrz : v.frz = w.frz := hrec.only .frz (by decide)
  have hfault : (startSave .chipFatal v).fault = v.fault := hsave .fault (by decide)
  have hfrz : (startSave .chipFatal v).frz = v.frz := hsave .frz (by decide)
  obtain ⟨p0, p1, hhost⟩ := hrec.host
  have hbegins := startSave_begins .chipFatal (strings_of_ready hv)
  have hrunning : saving (startSave .chipFatal v) = true := hbegins.2.1
  have hfrozen : frozen v = false := by
    obtain ⟨-, -, -, -, hf, -⟩ := hv; exact hf
  rw [heq]
  refine ⟨v, hbegins, ⟨by rw [hfault, hvfault]; rfl, hrunning, by rw [frozen, hfrz]; exact hfrozen⟩,
    startSave_calm _ hv, ?_, hpm, hwb, (hsave .clk (by decide)).trans hvclk, ?_, ?_⟩
  · exact (hw.mono (by decide)).trans ((hmarked.mono (by decide)).trans ((hrec.only.mono (by decide)).trans (hsave.mono (by decide))))
  · rw [startSave_eq _ (strings_of_ready hv)]
    have hx : (sprintCheck (fenceDown (saveArmed .chipFatal v))).host = (fenceDown (saveArmed .chipFatal v)).host :=
      sprintCheck_parts _ .host (by decide)
    rw [hx]
    exact congrArg HostRegion.aerUncorrectable hhost
  · rw [hfault, hvfault, fatalMarked, State.onHost_fault, State.onFault_fault, hwfault]

/-- The loss of the last locked root ends in a save (R26, R266); `w` is `s` with the loss in its clocks. -/
theorem lockLost_last {s w : State} {key : BitVec 8} (h : SaveReady s) (hfatal : s.fault.chipFatal = false)
    (htrial : s.upd.trial ≠ 1) (hfree : (capture s 0x0040).sticky = false) (hw : OnlyChanges [.clk] s w)
    (hclk : w.clk = { s.clk with springLock := false, backupLock := false, onBackup := w.clk.onBackup
                                 lossCount := satInc 0xFFFF s.clk.lossCount }) :
    ∃ t, finish (lockFault .f key (chipFatal 4 0 w)) = .next t ∧ RootsAreGone s t ∧ Captured s t 0x0040 .f key 0x0040 := by
  obtain ⟨v, hbegins, hsaves, hcalm, honly, hpm, hwb, hxclk, haer, hxfault⟩ :=
    rootsGone_saved h hfatal htrial hw (by rw [hclk])
  generalize chipFatal 4 0 w = x at *
  obtain ⟨hover, hwaiting⟩ := hcalm
  have hxrecs : x.fault.recs = s.fault.recs := by rw [hxfault]
  obtain ⟨hcap, huw, y, hy, hys, hykind, hyz⟩ := lockFault_umpire (s := x) (key := key)
    (by rw [capture_of_recs hxrecs]; exact hfree) hsaves hwaiting
  have hzlog : (lockFault .f key x).log = x.log := (hyz.only .log (by decide)).trans (hy .log (by decide))
  obtain ⟨t, ht, hzt⟩ := finish_umpire (by rw [hzlog]; exact hover) huw (hyz.fatalSave hys)
  have hyt := hyz.trans hzt
  have hxt : OnlyChanges faultParts x t := (hy.mono (by decide)).trans hyt.only
  have htclk : t.clk = x.clk := hxt .clk (by decide)
  have htsave : t.save = x.save := hxt .save (by decide)
  have htpm : t.pm = x.pm := hxt .pm (by decide)
  have htwb : t.wb = x.wb := hxt .wb (by decide)
  have hyhost : y.host = x.host := hy .host (by decide)
  have hxtb : x.tb = s.tb := honly .tb (by decide)
  obtain ⟨p0, p1, hthost⟩ := hyt.host
  obtain ⟨hph, hrun, htr, -, -, -, hf, -, -, -, hpages, hres, -, -, -, -, -, -, hbwb, -⟩ := hbegins
  refine ⟨t, ht, ⟨?_, ?_, ?_, ?_, ?_, ?_, ?_, ?_, ?_, ?_, ?_, ?_⟩, captured_congr hcap hxrecs hzt.recs hxtb⟩
  · rw [htclk, hxclk, hclk]
  · rw [hyt.chipFatal]; exact hys.1
  · rw [hyt.fatalKind, hykind, hxfault]
  · rw [hthost, hyhost]; exact haer
  · rw [htsave]; exact hph
  · rw [htsave]; exact hrun
  · rw [htsave]; exact htr
  · rw [hthost, hyhost]; exact hf
  · rw [htpm, hpages, hpm]
  · rw [htpm, hres, hpm]
  · rw [htwb, hbwb, hwb]
  · exact (honly.mono (by decide)).trans (hxt.mono (by decide))

theorem lastRootLost (s : State) (h : SaveReady s) (hfatal : s.fault.chipFatal = false) (htrial : s.upd.trial ≠ 1)
    (hfree : (capture s 0x0040).sticky = false) :
    (s.clk.springLock = true → s.clk.backupLock = false →
      Gives .springPllLockLoss s fun t => RootsAreGone s t ∧ Captured s t 0x0040 .f 1 0x0040) ∧
    (s.clk.springLock = false → s.clk.backupLock = true →
      Gives .backupLockLoss s fun t => RootsAreGone s t ∧ Captured s t 0x0040 .f 2 0x0040) := by
  refine ⟨fun hspring hbackup => ?_, fun hspring hbackup => ?_⟩
  · let w := s.onClk fun c => { c with springLock := false, lossCount := satInc 0xFFFF c.lossCount }
    obtain ⟨t, ht, hp⟩ := lockLost_last (w := w) (key := 1) h hfatal htrial hfree
      (State.onClk_only _ _ (by decide) (.refl _ s)) (by simp [w, ← hbackup])
    refine gives_next (t := t) ?_ hp
    rw [← ht]
    show execSpringPllLockLoss s = _
    simp [execSpringPllLockLoss, hspring, hbackup, lockLost, w, State.onClk]
  · let w := s.onClk fun c => { c with backupLock := false, onBackup := c.onBackup && !c.springLock
                                       lossCount := satInc 0xFFFF c.lossCount }
    obtain ⟨t, ht, hp⟩ := lockLost_last (w := w) (key := 2) h hfatal htrial hfree
      (State.onClk_only _ _ (by decide) (.refl _ s)) (by simp [w, ← hspring])
    refine gives_next (t := t) ?_ hp
    rw [← ht]
    show execBackupLockLoss s = _
    simp [execBackupLockLoss, hspring, hbackup, lockLost, w, State.onClk]

theorem pulse_ignored (s : State) (ns : Nat) (haon : s.seq.vddAon = true) (hns : ns < 10) :
    exec (.pwrfailNAssert ns) s = .next { s with save := { s.save with ignored := s.save.ignored + 1 } } := by
  show execPwrfailNAssert ns s = _
  simp [execPwrfailNAssert, haon, hns, State.onSave]

theorem triggerStartsSave : TriggerStartsSave :=
  ⟨pwrfail_starts, vin_starts, viral_starts, pulse_ignored, lastRootLost⟩

/-! ## A trigger while a save runs (R134, R135) -/

/-- With no freeze, a trigger of a running save is recorded; one that says that main power fails closes the battery path of a
save that is not on its way down. -/
theorem trigger_saving {s : State} (tr : Trigger) (hsaving : saving s = true) (hfrozen : frozen s = false)
    (hwait : s.frz.waiting = false) : trigger tr s =
      if mainLoss tr && decide (s.seq.dir ≠ .down) && decide (s.save.phase ≠ .lastGasp) then closeBattery (laterTrigger tr s)
      else laterTrigger tr s := by
  have hrec : Reported s (laterTrigger tr s) := record_reported _ _ _ _ _
  have hseq : (laterTrigger tr s).seq = s.seq := hrec.only .seq (by decide)
  have hsave : (laterTrigger tr s).save = s.save := hrec.only .save (by decide)
  unfold trigger endFreeze
  simp [hsaving, hfrozen, hwait, hseq, hsave]

/-- `s` with the battery path of its save closed. -/
def batteryClosed (s : State) : State :=
  { s with
    save := { s.save with
      battery := true, dies := if s.save.dies = 0 then 0 else min s.save.dies (max 8 (batteryDies s)) }
    seq := { s.seq with batsw := true } }

theorem closeBattery_reported {s u : State} (hr : Reported s u) (hbat : s.save.battery = false) (hno : noBattery s = false) :
    Reported (batteryClosed s) (closeBattery u) := by
  have hsave : u.save = s.save := hr.only .save (by decide)
  have hseq : u.seq = s.seq := hr.only .seq (by decide)
  have hweir : u.weir = s.weir := hr.only .weir (by decide)
  have hbt : u.bat = s.bat := hr.only .bat (by decide)
  have hflash : u.flash = s.flash := hr.only .flash (by decide)
  have hcfg : u.cfg = s.cfg := hr.only .cfg (by decide)
  have hbasin : u.basin = s.basin := hr.only .basin (by decide)
  have hnou : noBattery u = false := by
    unfold noBattery anyCounted isCounted strOf at *; rw [hweir, hbt]; exact hno
  have hdies : batteryDies u = batteryDies s := by
    unfold batteryDies sDie basinDies
    rw [hweir, hflash, hcfg, hbasin, erasedDies_congr hcfg (by rw [hflash]) hbasin]
  have heq : closeBattery u = { u with
      save := { s.save with
        battery := true, dies := if s.save.dies = 0 then 0 else min s.save.dies (max 8 (batteryDies s)) }
      seq := { s.seq with batsw := true } } := by
    unfold closeBattery
    simp [hsave, hbat, hnou, hdies, hseq, State.onSave, State.onSeq]
  unfold Reported at *
  rw [heq]
  conv_lhs => rw [hr]
  rfl

theorem vinSenseRise_leaves (s : State) (haon : s.seq.vddAon = true) (hmain : s.seq.mainOk = false) (hc : Calm s) :
    Gives .vinSenseRise s fun t =>
      t.seq = { s.seq with
        mainOk := true, mainSince := some s.tb.now, evalOn := false
        pwrfailDrive := s.seq.pwrfailDrive && !(decide (s.seq.st = .aux) && decide (s.seq.dir ≠ .down))
        holdAux := s.seq.holdAux && !s.seq.holdVinFell, holdVinFell := false
        onPending := s.seq.onPending || ((decide (s.seq.dir = .down) || saving s) && decide (s.od.set.autoOn = 1))
        target := if s.seq.dir = .down ∧ s.od.set.autoOn = 1 then .dark else s.seq.target } ∧
      t.save = s.save ∧ OnlyChanges [.seq, .bat, .bus] s t := by
  let back := (decide (s.seq.dir = .down) || saving s) && decide (s.od.set.autoOn = 1)
  let u := chargeCheck (s.onSeq fun q =>
    { q with
      mainOk := true, mainSince := some s.tb.now, evalOn := false
      pwrfailDrive := q.pwrfailDrive && !(decide (q.st = .aux) && decide (q.dir ≠ .down))
      holdAux := q.holdAux && !q.holdVinFell, holdVinFell := false
      onPending := q.onPending || back
      target := if back && decide (s.seq.dir = .down) then .dark else q.target })
  have honly : OnlyChanges [.seq, .bat] s u := chargeCheck_only _ (by decide) (State.onSeq_only _ _ (by decide) (.refl _ s))
  refine gives_finish (u := u) ?_ (calm_of_onlyChanges honly (by decide) (by decide) hc) fun t hn => ?_
  · show execVinSenseRise s = _
    rw [execVinSenseRise, if_neg (by simp [haon, hmain])]
  · have hseq : t.seq = u.seq := hn.only .seq (by decide)
    have hsave : t.save = u.save := hn.only .save (by decide)
    have htarget : (back && decide (s.seq.dir = .down)) = true ↔ s.seq.dir = .down ∧ s.od.set.autoOn = 1 := by
      by_cases hd : s.seq.dir = .down <;> simp [back, hd]
    refine ⟨?_, hsave, hn.onlyChanges (by decide) (honly.mono (by decide))⟩
    rw [hseq, ← if_congr htarget rfl rfl]
    rfl

/-- No coxswain waits for the end of a freeze. -/
theorem startHeld_of {s t : State} (hheld : coreHeld s = false) (hclk : t.clk = s.clk) (hboot : t.boot = s.boot)
    (hst : t.seq.st = s.seq.st) (hdir : t.seq.dir = s.seq.dir) : startHeld t = t := by
  have h : coreHeld t = false := by rw [coreHeld, hclk, hboot, hst, hdir]; exact hheld
  simp [startHeld, h]

/-- PWRFAIL_N while a save runs (R134, R135). -/
theorem pwrfail_saving (s : State) (ns : Nat) (haon : s.seq.vddAon = true) (hns : 10 ≤ ns) (hsaving : saving s = true)
    (hfrozen : frozen s = false) (hwait : s.frz.waiting = false) (hheld : coreHeld s = false) (hc : Calm s) :
    (s.save.battery = true ∨ s.seq.dir = .down ∨ s.save.phase = .lastGasp → Gives (.pwrfailNAssert ns) s (Reported s)) ∧
    (s.save.battery = false → s.seq.dir ≠ .down → s.save.phase ≠ .lastGasp → noBattery s = false →
      Gives (.pwrfailNAssert ns) s (Reported { s with
        save := { s.save with
          battery := true, dies := if s.save.dies = 0 then 0 else min s.save.dies (max 8 (batteryDies s)) }
        seq := { s.seq with batsw := true } })) := by
  have hexec : exec (.pwrfailNAssert ns) s = finish (startHeld (trigger .pwrfail s)) := by
    show execPwrfailNAssert ns s = _
    simp [execPwrfailNAssert, haon, show ¬ ns < 10 by omega]
  rw [trigger_saving .pwrfail hsaving hfrozen hwait] at hexec
  have hrec : Reported s (laterTrigger .pwrfail s) := record_reported _ _ _ _ _
  have hclk : (laterTrigger .pwrfail s).clk = s.clk := hrec.only .clk (by decide)
  have hboot : (laterTrigger .pwrfail s).boot = s.boot := hrec.only .boot (by decide)
  have hseq : (laterTrigger .pwrfail s).seq = s.seq := hrec.only .seq (by decide)
  have hsave : (laterTrigger .pwrfail s).save = s.save := hrec.only .save (by decide)
  refine ⟨?_, ?_⟩
  · intro h
    have hsame : (if mainLoss .pwrfail && decide (s.seq.dir ≠ .down) && decide (s.save.phase ≠ .lastGasp)
        then closeBattery (laterTrigger .pwrfail s) else laterTrigger .pwrfail s) = laterTrigger .pwrfail s := by
      split
      case isTrue hcond =>
        have hbat : s.save.battery = true := by simp [mainLoss] at hcond; tauto
        simp [closeBattery, hsave, hbat]
      case isFalse => rfl
    rw [hsame, startHeld_of hheld hclk hboot (by rw [hseq]) (by rw [hseq])] at hexec
    obtain ⟨t, ht, hr⟩ := finish_reported hc hrec
    exact gives_next (hexec.trans ht) hr
  · intro hbat hdir hphase hno
    rw [if_pos (by simp [mainLoss, hdir, hphase])] at hexec
    have hclosed := closeBattery_reported hrec hbat hno
    obtain ⟨t, ht, hr⟩ := finish_reported (s := batteryClosed s) hc hclosed
    have hcb : (closeBattery (laterTrigger .pwrfail s)).seq = (batteryClosed s).seq := hclosed.only .seq (by decide)
    rw [startHeld_of hheld (hclosed.only .clk (by decide)) (hclosed.only .boot (by decide)) (by rw [hcb]; rfl) (by rw [hcb]; rfl)] at hexec
    exact gives_next (hexec.trans ht) hr

theorem secondTriggerStartsNothing : SecondTriggerStartsNothing := by
  refine ⟨fun s head hsaving hp hfrozen hwait hc => ?_, pwrfail_saving,
    vinSenseRise_leaves, fun s ns haon hns hready hfrozen hsaving hwait hheld hc => ?_, fun s head hp => ?_⟩
  · let u := s.onHost fun x => { x with viral := true }
    obtain ⟨t, ht, hr⟩ := finish_reported (s := u) (u := laterTrigger .viral u) hc (record_reported _ _ _ _ _)
    refine gives_next (t := t) ?_ hr
    rw [← ht]
    show execViral head s = _
    rw [execViral, if_neg (by simp [hp]), trigger_saving .viral (s := u) hsaving hfrozen hwait]
    rfl
  · refine gives_noticed ?_ hc
    show execPwrfailNAssert ns s = _
    simp [execPwrfailNAssert, haon, show ¬ ns < 10 by omega, trigger, endFreeze, hfrozen, hwait, hsaving, hready, startHeld, hheld]
  · show execViral head s = _
    simp [execViral, hp]

/-- Settles O17: by the trigger that comes first, and by those that find a save running. -/
theorem triggersStartOneSave : Obligations.TriggersStartOneSave := ⟨triggerStartsSave, secondTriggerStartsNothing⟩

end Sys2Proof.Machine
end

section
/-! PROOFS. O18 fails at the last units of a pass: a die programs only full pages of 16 units, and where no page of the pass is
left to fill one the unit stays in the die's hands, so the cursor stands before it although no oar has a program (R146, R210). -/

namespace Sys2Proof.Machine
open Sys2Proof

/-- The one bucket of the save, and its image before the first unit. -/
def passBucket : Bucket := { slot := 0, epoch := 0, openSeq := 1, isOpen := true, pages := 1 }
def emptyImage : BasinImage := { gen := 1, map := [(0, { state := .dirty })], buckets := [passBucket] }

/-- A save in its pass of `passBucket`, with erased blocks on die 0 and page 0 alone to write. -/
def onePagePass : State :=
  { State.reset with
    clk := { rootsStarted := true, springLock := true }
    crew := { State.reset.crew with stroke := { st := .member } }
    save := { phase := .residue, running := true, gen := 1, cursor := .upTo 1 0 }
    pm := { pages := [(0, { state := .dirty })], buckets := [passBucket], residue := 4096 }
    basin := { erasedBy := [(0, 10000)], image := some emptyImage } }

theorem execCursor_lands {s : State} {o p : Nat} (hc : crewsSave s .residue = true) (hs : s.save.stopped = false)
    (hle : cursorLe s.save.cursor (.upTo o p) = true) : exec (.cursor o p) s = finish (cursorOp (.upTo o p) s) := by
  show execCursor o p s = _
  simp [execCursor, hc, hs, hle]

theorem emptyImage_ordered : ImageOrdered emptyImage := ⟨by decide, by simp [emptyImage]⟩

/-- Refutes O18: sent past its only page, the cursor stays before it. -/
theorem not_saveGoesThroughItsPhases : ¬ Obligations.SaveGoesThroughItsPhases := by
  rintro ⟨-, -, hcursor, -⟩
  have hc : crewsSave onePagePass .residue = true := by decide
  have hle : cursorLe onePagePass.save.cursor (.upTo 1 5) = true := by decide
  obtain ⟨t, ht, -, -, hsent, -⟩ := hcursor onePagePass 1 5 hc rfl hle ⟨_, rfl, emptyImage_ordered⟩ rfl ⟨rfl, rfl⟩
  obtain ⟨u, hu, hn⟩ := finish_noticed (s := cursorOp (.upTo 1 5) onePagePass) ⟨by decide +kernel, by decide +kernel⟩
  obtain rfl : u = t := Host.Outcome.next.inj (hu.symm.trans ((execCursor_lands hc rfl hle).symm.trans ht))
  have hsave : u.save = (cursorOp (.upTo 1 5) onePagePass).save := hn.only .save (by decide)
  rw [hsave] at hsent
  have hidle : ∀ page, programBusy onePagePass page = false := fun page => by
    simp [programBusy, onePagePass, State.reset]
  exact absurd (hsent hidle (by decide +kernel)) (by decide +kernel)

end Sys2Proof.Machine
end

section
/-! PROOFS. The end of a save (R144, R147 to R149), what halves and what stops its residue writing (R142, R143), and O19. -/

namespace Sys2Proof.Machine
open Sys2Proof

/-! ## The roots and SAVED (R148, R149) -/

/-- `s` with the mapping table and the roots of its save in the image `im`, the ledger and the root area. -/
def rootsIn (s : State) (im : BasinImage) : State :=
  { s with
    basin := { s.basin with image := some { im with
      mapping := some s.lake.mapping, mappingWhole := !anyIsolated s, roots := some (rootsNow s)
      headers := (goodDies s).take 2, metaTweaks := metaTweaksOf s.save.gen 5 } }
    dram := { s.dram with channels := s.dram.channels.map fun c =>
      if c.state = .active then { c with state := .selfRefresh } else c }
    save := { s.save with phase := .mapping }
    ledger := { s.ledger with
      roots := some (rootsNow s), rootArea := some (rootsNow s), ring := (rootWrite 1 s.save.gen none [] s).ledger.ring
      commits := { time := s.tb.now, commit := .rootsSaved s.save.gen (Config.savePlace s.save.gen 4) } ::
        s.ledger.commits } }

theorem rootsOp_eq {s : State} {im : BasinImage} (him : s.basin.image = some im) (hled : s.ledger.failed = false) :
    rootsOp s = rootsIn s im := by
  simp [rootsOp, commit, Commit.isCheckpoint, rootsIn, State.onBasin, State.onLedger, State.onDram, State.onSave, rootWrite, him,
    hled, rootsNow]

theorem rootsSaved_leaves (s : State) (im : BasinImage)
    (hphase : crewsSave s .mapping = true ∨ crewsSave s .residue = true ∧ s.save.stopped = true)
    (him : s.basin.image = some im) (hreset : anyReset s = false) (hled : s.ledger.failed = false) (hc : Calm s) :
    Gives .rootsSaved s (Noticed (rootsIn s im)) := by
  refine gives_noticed ?_ hc
  show execRootsSaved s = _
  rw [← rootsOp_eq him hled, execRootsSaved, if_pos (by simp [hreset, hphase])]

theorem writeGaugeRec_slots (s : State) :
    (writeGaugeRec s).bat.slot0.isSome = true ∨ (writeGaugeRec s).bat.slot1.isSome = true := by
  simp only [writeGaugeRec, State.onBat]
  cases s.bat.slot0 <;> simp

/-- The parts that the end of a save moves. -/
def savedParts : List Part := [.save, .ledger, .bat, .free, .wl, .cxl, .host, .out, .bus]

/-- The save closed, in the phase saved, with its gauge record written (R149, R158, R322). -/
def closedSave (s : State) : State := writeGaugeRec ((closeSave s.save.outcome s).onSave fun v => { v with phase := .saved })

theorem closedSave_only (s : State) : OnlyChanges savedParts s (closedSave s) :=
  writeGaugeRec_only _ (by decide) (State.onSave_only _ _ (by decide) (closeSave_only _ _ (by decide) (.refl _ s)))

theorem savedOp_eq {s : State} (hled : s.ledger.failed = false) : ∃ u,
    Reported (commit (.saved s.save.gen s.save.cursor ((s.tb.now - s.save.fenceTime) / nsPerMs) s.save.halvings) s) u ∧
      savedOp s = closedSave u := by
  let c := commit (.saved s.save.gen s.save.cursor ((s.tb.now - s.save.fenceTime) / nsPerMs) s.save.halvings) s
  have hr := record_reported 0x0303 2 0x6000 (triggerCode c.save.trigger) c
  have hu : (record 0x0303 2 0x6000 (triggerCode c.save.trigger) c).ledger = c.ledger := hr.only .ledger (by decide)
  have hc : c.ledger.failed = false := by
    show (commit (.saved _ _ _ _) s).ledger.failed = false
    rw [commit_sound rfl hled]
    exact hled
  refine ⟨_, hr, if_neg ?_⟩
  show ¬ (record 0x0303 2 0x6000 (triggerCode c.save.trigger) c).ledger.failed = true
  rw [hu, hc]
  exact Bool.false_ne_true

theorem saved_leaves (s : State) (hphase : crewsSave s .mapping = true) (hroots : rootsWritten s = true)
    (hled : s.ledger.failed = false) (hc : Calm s) :
    Gives .saved s fun t =>
      t.ledger = { s.ledger with commits :=
        { time := s.tb.now
          commit := .saved s.save.gen s.save.cursor ((s.tb.now - s.save.fenceTime) / 1000000) s.save.halvings } ::
          s.ledger.commits } ∧
      t.save.phase = .saved ∧ t.save.last.present = true ∧ t.save.last.gen = s.save.gen ∧
      t.save.last.outcome = s.save.outcome ∧ t.save.last.written = s.save.written ∧
      (t.bat.slot0.isSome = true ∨ t.bat.slot1.isSome = true) ∧
      OnlyChanges [.save, .ledger, .bat, .free, .wl, .cxl, .host, .out, .bus] s t := by
  obtain ⟨u, hr, heq⟩ := savedOp_eq hled
  rw [commit_sound rfl hled] at hr
  have hledger : u.ledger = _ := hr.only .ledger (by decide)
  have hsave : u.save = s.save := hr.only .save (by decide)
  have honly : OnlyChanges savedParts s (closedSave u) :=
    ((State.onLedger_only _ _ (by decide) (.refl _ s)).trans (hr.only.mono (by decide))).trans (closedSave_only u)
  refine gives_finish (u := closedSave u) ?_ (calm_of_onlyChanges honly (by decide) (by decide) hc) fun t hn => ?_
  · show execSaved s = _
    rw [← heq, execSaved, if_pos (by simp [hphase, hroots])]
  · have htl : t.ledger = u.ledger := hn.only .ledger (by decide)
    have hts : t.save = (closedSave u).save := hn.only .save (by decide)
    have htb : t.bat = (closedSave u).bat := hn.only .bat (by decide)
    refine ⟨htl.trans hledger, ?_, ?_, ?_, ?_, ?_, by rw [htb]; exact writeGaugeRec_slots _, hn.onlyChanges (by decide) honly⟩
    all_goals rw [hts]; simp [closedSave, writeGaugeRec, closeSave, State.onSave, State.onBat, hsave]

/-! ## Halving and stopping (R142, R143) -/

/-- `s` with its programming dies halved. -/
def halvedDies (s : State) : State := { s with save := { s.save with
    dies := max 8 ((s.save.dies + 1) / 2), halvings := satInc 0xF s.save.halvings, lastHalving := some s.tb.now } }

theorem halve_reported {s : State} (hdies : 8 < s.save.dies)
    (hheld : ∀ n, s.save.lastHalving = some n → n + 5000000 ≤ s.tb.now) : Reported (halvedDies s) (halve s) := by
  have hgo : halve s = halve.go s := by
    unfold halve
    cases h : s.save.lastHalving with
    | none => rfl
    | some n => exact if_neg (by have := hheld n h; simp only [holdOff, nsPerMs]; omega)
  rw [hgo, halve.go, if_neg (by omega)]
  exact record_reported _ _ _ _ (halvedDies s)

theorem halve_of_held {s : State} (h : s.save.dies ≤ 8 ∨ ∃ n, s.save.lastHalving = some n ∧ s.tb.now < n + 5000000) :
    halve s = s := by
  have hgo : s.save.dies ≤ 8 → halve.go s = s := fun h => if_pos h
  unfold halve
  rcases h with h | ⟨n, hn, hlt⟩
  · split
    case h_1 => rw [hgo h, ite_self]
    case h_2 => exact hgo h
  · rw [hn]
    exact if_pos (by simp only [holdOff, nsPerMs]; omega)

theorem halves {i : Instr} {s : State} (hexec : exec i s = finish (halve s)) (hdies : 8 < s.save.dies)
    (hheld : ∀ n, s.save.lastHalving = some n → n + 5000000 ≤ s.tb.now) (hc : Calm s) : Gives i s (Halved s) := by
  obtain ⟨t, ht, hr⟩ := finish_reported (s := halvedDies s) hc (halve_reported hdies hheld)
  exact gives_next (hexec.trans ht) hr

theorem saveLimitsHalveAndStop : SaveLimitsHalveAndStop := by
  refine ⟨fun s hphase hstop => ?_, fun s h => ?_, fun s a b hbat hno hevery hc => ?_,
    fun s n hsaving hcause hdies hlast hle hc => ?_, fun s => ?_⟩
  · have hrun : s.save.running = true := by
      have h := hphase; simp only [inPhase, saving, Bool.and_eq_true] at h; exact h.1.1.1
    show execSaveTimeLimit s = _
    simp [execSaveTimeLimit, hphase, stopWriting, hrun, hstop, State.onSave, State.onFlash]
  · show execSaveTimeLimit s = _
    rcases h with h | h <;> simp [execSaveTimeLimit, h, stopWriting]
  · have hexec : exec (.sagDetect a b) s = finish (halve s) := by
      show execSagDetect a b s = _
      simp [execSagDetect, hbat, hno, hevery]
    refine ⟨fun hdies hheld => halves hexec hdies hheld hc, fun h => ?_⟩
    rw [halve_of_held h] at hexec
    exact gives_noticed hexec hc
  · refine halves ?_ hdies (fun m hm => by rw [hlast] at hm; cases hm; exact hle) hc
    show execHalvingHoldOffEnd true s = _
    rw [execHalvingHoldOffEnd, if_pos (by simp [hsaving, hlast, hcause])]
  · show execHalvingHoldOffEnd false s = _
    simp [execHalvingHoldOffEnd]

/-- Settles O19: by what each of its commands commits or cuts. -/
theorem saveEndsOrIsCutShort : Obligations.SaveEndsOrIsCutShort := by
  refine ⟨⟨fun s im hphase him hreset hled hc => ⟨rootsSaved_leaves s im hphase him hreset hled hc, rfl, rfl, rfl, rfl, rfl, rfl, rfl⟩,
    saved_leaves, fun s hreset => ?_⟩, saveLimitsHalveAndStop⟩
  show execRootsSaved s = _
  simp [execRootsSaved, hreset]

end Sys2Proof.Machine
end

section
/-! PROOFS. The last gasp with its cut (R150, R284), the power-down after a save's release (R149, R394), and O20. -/

namespace Sys2Proof.Machine
open Sys2Proof

/-! ## Rails that are disabled (R280) -/

theorem railAt_onRail (n k : Nat) (f : Rail → Rail) (s : State) (hf : f {} = {}) :
    railAt (onRail n f s) k = if k = n then f (railAt s k) else railAt s k := by
  simp only [railAt, onRail, State.onSeq, List.getD_eq_getElem?_getD, getElem?_listUpd]
  cases s.seq.rails[k]? with
  | none => simp only [Option.map_none, ite_self, Option.getD_none]; split <;> [exact hf.symm; rfl]
  | some r => simp only [Option.map_some, Option.getD_some]; split <;> rfl

/-- A rail that is disabled falls where it was enabled, and the others stand. -/
theorem railAt_railDisable (n k : Nat) (s : State) : railAt (railDisable n s) k =
    if k = n then if (railAt s k).en then { railAt s k with phase := .falling } else railAt s k else railAt s k :=
  railAt_onRail n k (fun r => if r.en then { r with phase := .falling } else r) s rfl

theorem railDisable_off (n : Nat) (s : State) : (railAt (railDisable n s) n).en = false := by
  rw [railAt_railDisable, if_pos rfl]
  split
  case isTrue => rfl
  case isFalse h => exact Bool.eq_false_of_not_eq_true h

theorem railDisable_keepsOff {n k : Nat} {s : State} (h : (railAt s k).en = false) : (railAt (railDisable n s) k).en = false := by
  rw [railAt_railDisable]
  split <;> simp [h]

/-- The rails of `ns` disabled, but the one that is kept. -/
def disableBut (keep : Option Nat) (ns : List Nat) (s : State) : State :=
  ns.foldl (fun s n => if keep = some n then s else railDisable n s) s

theorem disableBut_seq (keep : Option Nat) : ∀ (ns : List Nat) (s : State), ∃ rails enabled,
    disableBut keep ns s = s.onSeq fun q => { q with rails := rails, enabled := enabled }
  | [], s => ⟨s.seq.rails, s.seq.enabled, rfl⟩
  | n :: ns, s => by
    obtain ⟨rails, enabled, h⟩ := disableBut_seq keep ns (if keep = some n then s else railDisable n s)
    refine ⟨rails, enabled, h.trans ?_⟩
    split <;> rfl

theorem disableBut_keepsOff (keep : Option Nat) {k : Nat} : ∀ (ns : List Nat) {s : State}, (railAt s k).en = false →
    (railAt (disableBut keep ns s) k).en = false
  | [], _, h => h
  | n :: ns, s, h => by
    refine disableBut_keepsOff keep ns (s := if keep = some n then s else railDisable n s) ?_
    split
    · exact h
    · exact railDisable_keepsOff h

theorem disableBut_off (keep : Option Nat) {k : Nat} (hk : keep ≠ some k) (ns : List Nat) (s : State) (h : k ∈ ns) :
    (railAt (disableBut keep ns s) k).en = false := by
  induction ns generalizing s with
  | nil => exact absurd h List.not_mem_nil
  | cons n ns ih =>
    rcases List.mem_cons.mp h with rfl | h
    · refine disableBut_keepsOff keep ns (s := if keep = some k then s else railDisable k s) ?_
      rw [if_neg hk]
      exact railDisable_off k s
    · exact ih _ h

/-! ## The cut (R284) -/

/-- The cut for a cause other than a rail fault, whose LEDGER_HOLD rail goes as well. -/
def cutAll (s : State) : State := dropLedgerHold (cutRails true s)

theorem cutRails_eq (s : State) : ∃ dir held, cutRails true s =
    (enterDark (disableBut (holdRail s) (List.range 16) s)).onSeq fun q => { q with dir := dir, ledgerHold := held } :=
  ⟨_, _, rfl⟩

theorem dropLedgerHold_eq (s : State) : ∃ rails enabled, dropLedgerHold s = s.onSeq fun q =>
    { q with rails := rails, enabled := enabled, ledgerHold := false, dir := .steady } := by
  unfold dropLedgerHold
  cases holdRail s with
  | none => exact ⟨s.seq.rails, s.seq.enabled, rfl⟩
  | some n => exact ⟨_, _, rfl⟩

theorem railAt_dropLedgerHold (n : Nat) (s : State) :
    railAt (dropLedgerHold s) n = if holdRail s = some n then railAt (railDisable n s) n else railAt s n := by
  unfold dropLedgerHold
  cases holdRail s with
  | none => rfl
  | some k =>
    by_cases hk : k = n
    · subst hk; simp only [if_true]; rfl
    · rw [if_neg (by simp [hk])]
      exact (railAt_railDisable k n s).trans (if_neg (Ne.symm hk))

theorem railAt_enterDark (dir : SeqDir) (held : Bool) (s : State) (n : Nat) :
    railAt ((enterDark s).onSeq fun q => { q with dir := dir, ledgerHold := held }) n = railAt s n := rfl

/-- A cut leaves no rail on, the one of the ledger neither. -/
theorem cutAll_off (s : State) {n : Nat} (hn : n < 16) : (railAt (cutAll s) n).en = false := by
  obtain ⟨rails, enabled, hd⟩ := disableBut_seq (holdRail s) (List.range 16) s
  obtain ⟨dir, held, hcut⟩ := cutRails_eq s
  have hhold : holdRail (cutRails true s) = holdRail s := by rw [hcut, hd]; rfl
  rw [cutAll, railAt_dropLedgerHold, hhold]
  split
  case isTrue => exact railDisable_off n _
  case isFalse hk =>
    have hrail : railAt (cutRails true s) n = railAt (disableBut (holdRail s) (List.range 16) s) n := by
      rw [hcut, railAt_enterDark]
    rw [hrail]
    exact disableBut_off _ hk _ s (List.mem_range.mpr hn)

/-- Beyond the rails a cut leaves what the entry to DARK leaves. -/
theorem cutAll_eq (s : State) : ∃ rails enabled, cutAll s = (enterDark s).onSeq fun q =>
    { q with rails := rails, enabled := enabled, ledgerHold := false, dir := .steady } := by
  obtain ⟨_, _, hd⟩ := disableBut_seq (holdRail s) (List.range 16) s
  obtain ⟨_, _, hcut⟩ := cutRails_eq s
  obtain ⟨rails, enabled, hdrop⟩ := dropLedgerHold_eq (cutRails true s)
  refine ⟨rails, enabled, ?_⟩
  rw [cutAll, hdrop, hcut, hd]
  rfl

/-- What a cut keeps, and the state in which it leaves the sequencer and the save (R150, R284). -/
structure CutLeaves (s t : State) : Prop where
  commits : t.ledger.commits = s.ledger.commits
  log : t.log = { s.log with compacting := none }
  last : t.save.last = s.save.last
  running : t.save.running = false
  st : t.seq.st = .dark
  batsw : t.seq.batsw = false
  mrst : t.seq.mrst = true
  frst : t.seq.frst = true
  latched : t.seq.latched = s.seq.latched
  image : t.basin.image = s.basin.image.map fun im => { im with held := [] }
  units : t.lake.units = s.lake.units
  tb : t.tb = s.tb
  cfg : t.cfg = s.cfg
  pending : t.pending = s.pending
  waiting : t.fault.waiting = []
  off : ∀ n, n < 16 → (railAt t n).en = false

theorem cutAll_leaves (s : State) : CutLeaves s (cutAll s) := by
  have hoff : ∀ n, n < 16 → (railAt (cutAll s) n).en = false := fun n hn => cutAll_off s hn
  obtain ⟨rails, enabled, hcut⟩ := cutAll_eq s
  rw [hcut] at hoff ⊢
  exact ⟨rfl, rfl, rfl, rfl, rfl, rfl, rfl, rfl, rfl, rfl, rfl, rfl, rfl, rfl, rfl, hoff⟩

/-! ## The last gasp (R150) -/

theorem flushCounts_eq (s : State) : ∃ rails, flushCounts s = s.onSeq fun q => { q with rails := rails } := ⟨_, rfl⟩

/-- LAST_GASP as a save with the part `v` commits it, and the tail sealed. -/
def gaspLanded (v : Save) (code : Nat) (s : State) : State :=
  { s with
    save := v
    log := { s.log with sealed' := true }
    ledger := { s.ledger with commits :=
      { time := s.tb.now, commit := .lastGasp v.gen v.cursor code v.mapSaved (fenceEpochs s) } :: s.ledger.commits } }

theorem gaspCommit_eq (code : Nat) {s : State} (hled : s.ledger.failed = false) : ∃ v u,
    v.cursor = s.save.cursor ∧ v.mapSaved = s.save.mapSaved ∧ Reported (gaspLanded v code s) u ∧
      gaspCommit code false s = (closeSave code u).onSave fun x => { x with phase := .lastGasp } := by
  have hrec : ∀ (v : Save) (x : State),
      x = commit (.lastGasp v.gen v.cursor code v.mapSaved (fenceEpochs s)) (sealTail { s with save := v }) →
        Reported (gaspLanded v code s) (record 0x0304 2 0x6000 (triggerCode x.save.trigger) x) := fun v x hx => by
    have hl : x = gaspLanded v code s := hx.trans
      ((commit_sound (c := .lastGasp v.gen v.cursor code v.mapSaved (fenceEpochs s)) (s := sealTail { s with save := v }) rfl
        hled).trans rfl)
    rw [hl]
    exact record_reported _ _ _ _ _
  unfold gaspCommit
  dsimp only
  split
  case isTrue =>
    rw [if_neg (by simpa [sealTail, State.onLog] using hled)]
    exact ⟨s.save, _, rfl, rfl, hrec s.save _ rfl, rfl⟩
  case isFalse =>
    rw [if_neg (by simpa [sealTail, State.onLog, State.onSave] using hled)]
    exact ⟨{ s.save with
      gen := newGen s, fenceTime := if s.save.running then s.save.fenceTime else s.tb.now, gpf := gpfNoted (allCommits s) },
      _, rfl, rfl, hrec _ _ rfl, rfl⟩

/-- The last gasp of a save with a sound ledger, before the cut: the record and 0x2042 beside what it commits. -/
theorem gaspAny_leaves (code : Nat) {s : State} (hw : inWindow s = false) (hled : s.ledger.failed = false) :
    let t := gaspAny code false s
    (∃ g, t.ledger.commits =
      { time := s.tb.now
        commit := .lastGasp g s.save.cursor code s.save.mapSaved
          { epoch := s.host.epoch, settled := s.host.settled, target := s.host.target } } :: s.ledger.commits) ∧
    t.log = { s.log with sealed' := true } ∧ t.save.last.outcome = code ∧ t.seq.latched = s.seq.latched := by
  obtain ⟨rails, hf⟩ := flushCounts_eq s
  have hgasp : gaspAny code false s = gaspCommit code false (flushCounts s) := by
    simp only [gaspAny]
    rw [hf]
    exact if_neg (by simpa [inWindow, memReady] using hw)
  obtain ⟨v, u, hcursor, hmap, hr, heq⟩ := gaspCommit_eq code (s := flushCounts s) (by rw [hf]; exact hled)
  have hledger : u.ledger = _ := hr.only .ledger (by decide)
  have hlog : u.log = _ := hr.only .log (by decide)
  have hseq : u.seq = _ := hr.only .seq (by decide)
  rw [hf] at hcursor hmap hledger hlog hseq
  dsimp only
  rw [hgasp, heq]
  refine ⟨⟨v.gen, ?_⟩, hlog, rfl, ?_⟩
  · show u.ledger.commits = _
    rw [hledger, ← show v.cursor = s.save.cursor from hcursor, ← show v.mapSaved = s.save.mapSaved from hmap]
    rfl
  · show u.seq.latched = _
    rw [hseq]
    rfl

/-- What the last gasp with outcome `code` leaves of a save, once its rails are cut. -/
theorem lastGasp_leaves (code : Nat) {s : State} (hw : inWindow s = false) (hled : s.ledger.failed = false) :
    GaspLeaves code s (lastGasp code s) ∧ (lastGasp code s).fault.waiting = [] ∧
      (lastGasp code s).log.overflow = s.log.overflow := by
  obtain ⟨⟨g, hcommits⟩, hlog, hlast, hlatched⟩ := gaspAny_leaves code hw hled
  have hany : OnlyChanges [.free, .host, .cxl, .log, .save, .ledger, .wl, .seq, .bus, .out] s (gaspAny code false s) :=
    gaspAny_only _ _ _ (by decide) (.refl _ s)
  have hbasin : (gaspAny code false s).basin = s.basin := hany .basin (by decide)
  have hlake : (gaspAny code false s).lake = s.lake := hany .lake (by decide)
  have htb : (gaspAny code false s).tb = s.tb := hany .tb (by decide)
  have hcfg : (gaspAny code false s).cfg = s.cfg := hany .cfg (by decide)
  have hpending : (gaspAny code false s).pending = s.pending := hany .pending (by decide)
  have hcut : CutLeaves (gaspAny code false s) (lastGasp code s) := cutAll_leaves _
  have hlog' := hcut.log.trans (by rw [hlog])
  exact ⟨⟨⟨g, hcut.commits.trans hcommits⟩, by rw [hlog'], by rw [hlog'], by rw [hcut.last, hlast], hcut.running, hcut.st,
    hcut.off, hcut.batsw, hcut.mrst, hcut.frst, hcut.latched.trans hlatched, by rw [hcut.image, hbasin],
    by rw [hcut.units, hlake], hcut.tb.trans htb, hcut.cfg.trans hcfg, hcut.pending.trans hpending⟩, hcut.waiting,
    by rw [hlog']⟩

/-- A command that runs the last gasp of a save gives what that leaves. -/
theorem gives_lastGasp {i : Instr} {code : Nat} {s : State} (hexec : exec i s = finish (lastGasp code s))
    (hw : inWindow s = false) (hled : s.ledger.failed = false) (hlog : s.log.overflow = false) : Gives i s (GaspLeaves code s) := by
  obtain ⟨hleaves, hwaiting, hover⟩ := lastGasp_leaves code hw hled
  refine gives_finish hexec ⟨hover.trans hlog, hwaiting⟩ fun t hn => ?_
  obtain ⟨b, rfl⟩ := hn.eq_onBus
  exact hleaves

theorem lastGaspCommitsAndCuts : LastGaspCommitsAndCuts := by
  intro s hsaving hw hled hlog
  refine ⟨fun a b forOneMs hbat h => ?_, fun hawait hfrozen => ?_, fun hwait => ?_, fun hstarted hroots => ?_⟩
  all_goals refine gives_lastGasp ?_ hw hled hlog
  · show execSaveCutoff a b forOneMs s = _
    rw [execSaveCutoff, if_pos (by simpa [hbat] using h)]
  · show execCrewsSilentTimeout s = _
    simp [execCrewsSilentTimeout, hawait, hfrozen]
  · show execEmptySetSaveTimeout s = _
    simp [execEmptySetSaveTimeout, hsaving, hwait]
  · show execRootsUnlockedTimeout s = _
    simp [execRootsUnlockedTimeout, hstarted, hroots, hsaving]

/-! ## The power-down after the release (R149, R394) -/

theorem startStateDown_seq (s : State) : (startStateDown s).seq = { s.seq with
    complete := false, mrst := s.seq.mrst || decide (s.seq.st.num ≤ s.od.mrstState)
    frst := s.seq.frst || decide (s.seq.st.num ≤ s.od.frstState), mrstStretch := false, frstStretch := false } := by
  unfold startStateDown; dsimp only; split <;> rfl

theorem allFallen_congr {s t : State} (hst : t.seq.st = s.seq.st) (hrails : t.seq.rails = s.seq.rails)
    (hcfg : t.seq.railCfg = s.seq.railCfg) (hmask : t.seq.mask = s.seq.mask) : allFallen t = allFallen s := by
  unfold allFallen downRail railIn railAt railCfgAt; rw [hst, hrails, hcfg, hmask]

theorem descend_stays {s : State} (h : allFallen s = false) : ∀ n, descend n s = s
  | 0 => rfl
  | n + 1 => by simp [descend, h]

/-- A power-down whose state still has rails that are not off stays there. -/
theorem powerDownTo_stays (target : SeqSt) (hold : Bool) {s : State} (hfallen : allFallen s = false) :
    powerDownTo target hold s = startStateDown ((trialTime s).onSeq fun q =>
      { q with dir := .down, target := if q.onPending then .dark else target
               holdAux := q.holdAux || (hold && !q.onPending), catchDrive := false
               catchPulse := false, staggering := false, onCommand := false }) := by
  have hseq : (trialTime s).seq = s.seq := (trialTime_only (cs := [.upd]) s (by decide) (.refl _ s)) .seq (by decide)
  refine descend_stays ?_ 7
  rw [← hfallen]
  apply allFallen_congr <;> rw [startStateDown_seq] <;> simp only [State.onSeq, hseq]

/-- The power-down of a released save (R149, R394). -/
theorem powerDown_leaves (s : State) (hfrozen : frozen s = false) (hsaving : saving s = true) (hreleased : s.save.released = true)
    (hphase : s.save.phase = .saved) (hdir : s.seq.dir ≠ .down) (hon : s.seq.onPending = false) (hfallen : allFallen s = false)
    (hc : Calm s) :
    Gives .powerDownCommand s fun t => t.save = { s.save with phase := .powerDown } ∧ t.seq.dir = .down ∧
      t.seq.st = s.seq.st ∧ t.seq.target = (if s.save.battery then .dark else .aux) ∧
      t.seq.holdAux = (s.seq.holdAux || !s.save.battery) ∧ t.seq.complete = false ∧
      OnlyChanges [.save, .seq, .host, .flash, .upd, .bus] s t := by
  let u := s.onSave fun v => { v with phase := .powerDown }
  have hop : powerDownOp s = powerDownTo (if s.save.battery then .dark else .aux) (!s.save.battery) u := by
    rw [powerDownOp, if_pos (by simp [hsaving, hreleased, hphase, hdir])]
    show (if s.save.battery then powerDownTo .dark false u else powerDownTo .aux true u) = _
    cases s.save.battery <;> rfl
  rw [powerDownTo_stays _ _ (show allFallen u = false from hfallen)] at hop
  have honly : OnlyChanges [.save, .seq, .host, .flash, .upd] s (powerDownOp s) := by
    rw [hop]
    exact startStateDown_only _ (by decide) (State.onSeq_only _ _ (by decide) (trialTime_only _ (by decide)
      (State.onSave_only _ _ (by decide) (.refl _ s))))
  have hseq : (trialTime u).seq = s.seq := (trialTime_only (cs := [.upd]) u (by decide) (.refl _ u)) .seq (by decide)
  refine gives_finish (u := powerDownOp s) ?_ (calm_of_onlyChanges honly (by decide) (by decide) hc) fun t hn => ?_
  · show execPowerDownCommand s = _
    simp [execPowerDownCommand, hfrozen]
  · have hts : t.save = (powerDownOp s).save := hn.only .save (by decide)
    have htq : t.seq = (powerDownOp s).seq := hn.only .seq (by decide)
    have hstay : OnlyChanges [.seq, .host, .flash, .upd] u (powerDownOp s) := by
      rw [hop]
      exact startStateDown_only _ (by decide) (State.onSeq_only _ _ (by decide) (trialTime_only _ (by decide) (.refl _ u)))
    have hsu : (powerDownOp s).save = u.save := hstay .save (by decide)
    rw [hop, startStateDown_seq] at htq
    refine ⟨hts.trans hsu, ?_, ?_, ?_, ?_, ?_, hn.onlyChanges (by decide) (honly.mono (by decide))⟩
    all_goals rw [htq]
    · rfl
    all_goals simp [State.onSeq, hseq, hon]

/-- The LEDGER_HOLD rail goes at its bound (R284). -/
theorem ledgerHold_leaves (s : State) (n : Nat) (hheld : s.seq.ledgerHold = true) (hn : holdRail s = some n) :
    Gives .ledgerHoldTimeout s fun t => (railAt t n).en = false ∧ n ∉ t.seq.enabled ∧ t.seq.ledgerHold = false ∧
      t.seq.dir = .steady ∧ (∀ k, k ≠ n → railAt t k = railAt s k) ∧ OnlyChanges [.seq] s t := by
  refine gives_next (t := dropLedgerHold s) ?_ ⟨?_, ?_, rfl, rfl, fun k hk => ?_, dropLedgerHold_only _ (by decide) (.refl _ s)⟩
  · show execLedgerHoldTimeout s = _
    simp [execLedgerHoldTimeout, hheld]
  · rw [railAt_dropLedgerHold, if_pos hn]; exact railDisable_off n s
  · simp [dropLedgerHold, hn, railDisable, State.onSeq, setDel]
  · rw [railAt_dropLedgerHold, if_neg (by simp [hn, Ne.symm hk])]

theorem powerDownFollowsRelease : PowerDownFollowsRelease := by
  refine ⟨fun s hfrozen hphase => ?_, fun s hfrozen hphase => ?_, powerDown_leaves, fun s hfrozen _ hreleased hc => ?_,
    ledgerHold_leaves⟩
  · show execSaveRelease s = _
    simp [execSaveRelease, hfrozen, releaseOp, hphase, State.onSave]
  · show execSaveRelease s = _
    simp [execSaveRelease, hfrozen, releaseOp, hphase]
  · refine gives_noticed ?_ hc
    show execPowerDownCommand s = _
    simp [execPowerDownCommand, hfrozen, powerDownOp, hreleased]

/-- Settles O20: by the lemma about the last gasp and the one about the descent. -/
theorem powerIsGivenUp : Obligations.PowerIsGivenUp := ⟨lastGaspCommitsAndCuts, powerDownFollowsRelease⟩

end Sys2Proof.Machine
end

section
/-! PROOFS. The conversion of a saved map at a restore (R80, R163, R164), and O21. -/

namespace Sys2Proof.Machine
open Sys2Proof

/-! ## A canonical table as a list -/

theorem tabGet_below {α : Type} {d : α} {k : Nat} : ∀ {t : List (Nat × α)}, tabBelow k t = true → tabGet d k t = d
  | [], _ => rfl
  | (k', v) :: t, h => by simp [tabBelow] at h; simp [tabGet, h]

theorem tabBelow_lt {α : Type} [DecidableEq α] {d : α} {k : Nat} {x : Nat × α} :
    ∀ {t : List (Nat × α)}, tabBelow k t = true → tabWf d t = true → x ∈ t → k < x.1
  | (k', v) :: t, hb, hw, hx => by
    simp only [tabWf, Bool.and_eq_true] at hw
    have hk : k < k' := by simpa [tabBelow] using hb
    rcases List.mem_cons.mp hx with rfl | hx
    · exact hk
    · exact tabBelow_lt (tabBelow_trans (Nat.le_of_lt hk) hw.1.2) hw.2 hx

/-- Every entry of a canonical table is the one that its key reads. -/
theorem tabGet_of_mem {α : Type} [DecidableEq α] {d : α} {x : Nat × α} :
    ∀ {t : List (Nat × α)}, tabWf d t = true → x ∈ t → tabGet d x.1 t = x.2
  | (k', v) :: t, hw, hx => by
    simp only [tabWf, Bool.and_eq_true] at hw
    rcases List.mem_cons.mp hx with rfl | hx
    · simp [tabGet]
    · have hlt := tabBelow_lt hw.1.2 hw.2 hx
      rw [tabGet, if_neg (by omega), if_neg (by omega), tabGet_of_mem hw.2 hx]

theorem mem_of_tabGet {α : Type} {d : α} {k : Nat} : ∀ {t : List (Nat × α)}, tabGet d k t ≠ d → (k, tabGet d k t) ∈ t
  | [], h => absurd rfl h
  | (k', v) :: t, h => by
    unfold tabGet at h ⊢
    split at h
    · exact absurd rfl h
    · rename_i hlt
      rw [if_neg hlt]
      split
      case isTrue hk => subst hk; exact List.mem_cons_self
      case isFalse hk => rw [if_neg hk] at h; exact List.mem_cons_of_mem _ (mem_of_tabGet h)

/-! ## One saved entry (R163) -/

/-- What the conversion makes of a page of the image `im` whose save ended at cursor `c`; `none` where the page stays CLEAN. -/
def convertedEntry (im : BasinImage) (c : Cursor) (cold : Nat) (page : Nat) : Option PageEntry :=
  match passSlot im.map im.drains page with
  | some sl =>
    if beforeCursor c (seqOfSlot im.buckets sl) page && !im.dropped.contains page then
      some { state := .dirty, bucket := sl, hot := cold }
    else some { state := .lost }
  | none => if (tabGet {} page im.map).state = .lost then some { state := .lost, carried := true } else none

/-- What no entry of the conversion moves, and that E_lost only falls. -/
structure ConvertKeeps (s t : State) : Prop where
  only : OnlyChanges [.host, .cxl, .dram, .pm] s t
  channels : t.dram.channels = s.dram.channels
  drains : t.pm.drains = s.pm.drains
  epoch : t.host.epoch = s.host.epoch
  settled : t.host.settled = s.host.settled
  elost : t.host.elost ≤ s.host.elost

theorem ConvertKeeps.refl (s : State) : ConvertKeeps s s := ⟨.refl _ s, rfl, rfl, rfl, rfl, le_refl _⟩

theorem ConvertKeeps.trans {s t u : State} (h : ConvertKeeps s t) (h' : ConvertKeeps t u) : ConvertKeeps s u :=
  ⟨h.only.trans h'.only, h'.channels.trans h.channels, h'.drains.trans h.drains, h'.epoch.trans h.epoch,
    h'.settled.trans h.settled, h'.elost.trans h.elost⟩

theorem poisonPage_parts (page : Nat) (s : State) : ∃ ps, (poisonPage page s).dram = { s.dram with poison := ps } ∧
    (poisonPage page s).pm = s.pm ∧ (poisonPage page s).host = s.host := by
  unfold poisonPage
  generalize linesPerPage = n
  exact ⟨_, rfl, rfl, rfl⟩

/-- A page marked LOST takes its entry, and its lines their markers (R53). -/
theorem markLost_parts (page : Nat) (why : LostReason) (carried : Bool) (s : State) :
    (markLost page why carried s).pm.pages = tabSet {} page { state := .lost, carried := carried } s.pm.pages ∧
    (markLost page why carried s).pm.drains = s.pm.drains ∧
    (∃ ps, (markLost page why carried s).dram = { s.dram with poison := ps }) ∧ (markLost page why carried s).host = s.host := by
  unfold markLost
  dsimp only
  let u := setPage page { state := .lost, carried := carried } s
  obtain ⟨ps, hdram, hpm, hhost⟩ := poisonPage_parts page (u.onPm fun p =>
    { p with reasons := tabSet .cursor page why p.reasons, lostTime := u.tb.now, lostSince := tabIns page (some why) p.lostSince })
  rw [hdram, hpm, hhost]
  exact ⟨setPage_pages page _ s, setPage_drains page _ s, ⟨ps, rfl⟩, rfl⟩

theorem markLost_pages (page : Nat) (why : LostReason) (carried : Bool) (s : State) :
    (markLost page why carried s).pm.pages = tabSet {} page { state := .lost, carried := carried } s.pm.pages :=
  (markLost_parts page why carried s).1

theorem setPage_keeps (page : Nat) (e : PageEntry) (s : State) : ConvertKeeps s (setPage page e s) :=
  ⟨setPage_only _ _ _ (by decide) (.refl _ s), rfl, setPage_drains page e s, rfl, rfl, le_refl _⟩

theorem markLost_keeps (page : Nat) (why : LostReason) (carried : Bool) (s : State) :
    ConvertKeeps s (markLost page why carried s) := by
  obtain ⟨-, hdrains, ⟨_, hdram⟩, hhost⟩ := markLost_parts page why carried s
  exact ⟨markLost_only _ _ _ _ (by decide) (.refl _ s), by rw [hdram], hdrains, by rw [hhost], by rw [hhost], by rw [hhost]⟩

theorem lowerElost_pages (n : Nat) (s : State) : (lowerElost n s).pm.pages = s.pm.pages := rfl

theorem lowerElost_keeps (n : Nat) (s : State) : ConvertKeeps s (lowerElost n s) :=
  ⟨State.onHost_only _ _ (by decide) (.refl _ _), rfl, rfl, rfl, rfl, min_le_left _ _⟩

/-- One entry of the saved map: its page's entry, and the fall of E_lost where it is lost. -/
theorem convertEntry_spec (im : BasinImage) (c : Cursor) {s : State} {x : Nat × PageEntry}
    (hx : tabGet {} x.1 im.map = x.2) : ConvertKeeps s (convertEntry im c s x) ∧
      (∀ p, pageEntry (convertEntry im c s x) p =
        if p = x.1 then (convertedEntry im c (coldTick s) p).getD (pageEntry s p) else pageEntry s p) ∧
      (∀ sl, passSlot im.map im.drains x.1 = some sl →
        beforeCursor c (seqOfSlot im.buckets sl) x.1 = false ∨ x.1 ∈ im.dropped →
        (convertEntry im c s x).host.elost ≤ imageEpoch im sl) := by
  have hset : ∀ {t : State} {e : PageEntry}, t.pm.pages = tabSet {} x.1 e s.pm.pages → e.state ≠ .clean →
      ∀ p, pageEntry t p = if p = x.1 then e else pageEntry s p := fun ht he p => by
    split
    case isTrue hp => rw [hp]; exact pageEntry_of_set ht he
    case isFalse hp => exact pageEntry_of_set_ne ht he hp
  cases hslot : passSlot im.map im.drains x.1 with
  | some sl =>
    by_cases hin : (beforeCursor c (seqOfSlot im.buckets sl) x.1 && !im.dropped.contains x.1) = true
    · have heq : convertEntry im c s x = setPage x.1 { state := .dirty, bucket := sl, hot := coldTick s } s := by
        simp only [convertEntry, hslot]; exact if_pos hin
      rw [heq]
      refine ⟨setPage_keeps _ _ s, fun p => ?_, fun sl' hsl hout => ?_⟩
      · rw [hset (setPage_pages x.1 _ s) (show PState.dirty ≠ .clean by decide) p]
        split
        case isTrue hp => subst hp; simp only [convertedEntry, hslot]; rw [if_pos hin]; rfl
        case isFalse => rfl
      · obtain rfl := Option.some.inj hsl
        simp at hin; rcases hout with h | h <;> simp_all
    · have heq : convertEntry im c s x = loseResidue im x.1 sl .cursor s := by
        simp only [convertEntry, hslot]; exact if_neg hin
      rw [heq, loseResidue]
      refine ⟨(markLost_keeps _ _ _ s).trans (lowerElost_keeps _ _), fun p => ?_, fun sl' hsl _ => ?_⟩
      · rw [pageEntry_of_pages (lowerElost_pages _ _), hset (markLost_pages x.1 _ _ s) (show PState.lost ≠ .clean by decide) p]
        split
        case isTrue hp => subst hp; simp only [convertedEntry, hslot]; rw [if_neg hin]; rfl
        case isFalse => rfl
      · obtain rfl := Option.some.inj hsl
        exact min_le_right _ _
  | none =>
    refine ⟨?_, fun p => ?_, fun sl hsl => absurd hsl (by simp)⟩
    · simp only [convertEntry, hslot]
      split
      · exact markLost_keeps _ _ _ s
      · exact .refl s
    · by_cases hlost : x.2.state = .lost
      · have heq : convertEntry im c s x = markLost x.1 (tabGet .cursor x.1 im.reasons) true s := by
          simp only [convertEntry, hslot]; exact if_pos hlost
        rw [heq, hset (markLost_pages x.1 _ _ s) (show PState.lost ≠ .clean by decide) p]
        split
        case isTrue hp => subst hp; simp [convertedEntry, hslot, hx, hlost]
        case isFalse => rfl
      · have heq : convertEntry im c s x = s := by simp only [convertEntry, hslot]; exact if_neg hlost
        rw [heq]
        split
        case isTrue hp => subst hp; simp [convertedEntry, hslot, hx, hlost]
        case isFalse => rfl

/-! ## The saved map read once -/

/-- The entries of a canonical map, each read once: its pages' entries, and E_lost at most the epoch of every page lost. -/
theorem convertEntries_spec (im : BasinImage) (c : Cursor) : ∀ (l : List (Nat × PageEntry)) (s : State),
    (∀ x ∈ l, tabGet {} x.1 im.map = x.2) → (l.map (·.1)).Nodup →
    ConvertKeeps s (l.foldl (convertEntry im c) s) ∧
      (∀ p, pageEntry (l.foldl (convertEntry im c) s) p =
        if p ∈ l.map (·.1) then (convertedEntry im c (coldTick s) p).getD (pageEntry s p) else pageEntry s p) ∧
      (∀ p ∈ l.map (·.1), ∀ sl, passSlot im.map im.drains p = some sl →
        beforeCursor c (seqOfSlot im.buckets sl) p = false ∨ p ∈ im.dropped →
        (l.foldl (convertEntry im c) s).host.elost ≤ imageEpoch im sl)
  | [], s, _, _ => ⟨.refl s, fun p => by simp, fun p hp => by simp at hp⟩
  | x :: l, s, hget, hnodup => by
    rw [List.map_cons, List.nodup_cons] at hnodup
    obtain ⟨hk, hpage, hel⟩ := convertEntry_spec im c (s := s) (hget x List.mem_cons_self)
    obtain ⟨hks, hpages, hels⟩ := convertEntries_spec im c l (convertEntry im c s x)
      (fun y hy => hget y (List.mem_cons_of_mem x hy)) hnodup.2
    have hcold : coldTick (convertEntry im c s x) = coldTick s := by
      unfold coldTick; rw [hotTick_of_eq (hk.only .tb (by decide)) (hk.only .od (by decide))]
    rw [List.foldl_cons]
    refine ⟨hk.trans hks, fun p => ?_, fun p hp sl hsl hout => ?_⟩
    · rw [hpages p, hpage p, hcold]
      by_cases hp : p = x.1
      · subst hp; simp [hnodup.1]
      · rw [if_neg hp]; simp only [List.map_cons, List.mem_cons, hp, false_or]
    · rcases List.mem_cons.mp hp with rfl | hp
      · exact hks.elost.trans (hel sl hsl hout)
      · exact hels p hp sl hsl hout

/-! ## The conversion (R163, R164) -/

/-- Where the conversion starts: an empty map, and the epochs that were found. -/
def convertStart (s : State) : State :=
  (s.onHost fun h => { h with
    elost := 2 ^ 64 - 1, epoch := max (epochsFound s).1 (windowEpoch s), settled := (epochsFound s).2
    target := (epochsFound s).2 }).onPm fun p =>
      { p with pages := [], reasons := [], buckets := [], drains := [], drainGens := [], residue := 0 }

/-- What follows the map: the buckets, the markers that were held and the residue. -/
def convertEnd (x : State) : State :=
  let x := heldMarkers (retireLedger (convertBuckets x))
  x.onPm fun p => { p with residue := pageBytes * residuePages x, lostTime := x.tb.now }

theorem convertBuckets_parts (x : State) : (convertBuckets x).pm.pages = x.pm.pages ∧
    (convertBuckets x).pm.drains = x.pm.drains ∧ (convertBuckets x).host = x.host := by
  unfold convertBuckets
  split
  · exact ⟨rfl, rfl, rfl⟩
  · split <;> exact ⟨rfl, rfl, rfl⟩

theorem residuePages_of_pages {s t : State} (h : t.pm.pages = s.pm.pages) : residuePages t = residuePages s := by
  unfold residuePages; rw [h]

theorem convertEnd_parts (x : State) : (convertEnd x).pm.pages = x.pm.pages ∧ (convertEnd x).pm.drains = x.pm.drains ∧
    (convertEnd x).host = x.host ∧ (convertEnd x).pm.residue = 4096 * residuePages x := by
  obtain ⟨hpages, hdrains, hhost⟩ := convertBuckets_parts x
  have hheld : OnlyChanges [.cxl, .dram] (retireLedger (convertBuckets x)) (heldMarkers (retireLedger (convertBuckets x))) :=
    heldMarkers_only _ (by decide) (.refl _ _)
  have hpm : (heldMarkers (retireLedger (convertBuckets x))).pm = (convertBuckets x).pm := hheld .pm (by decide)
  have hh : (heldMarkers (retireLedger (convertBuckets x))).host = (convertBuckets x).host := hheld .host (by decide)
  refine ⟨?_, ?_, hh.trans hhost, ?_⟩
  · show (heldMarkers _).pm.pages = _; rw [hpm, hpages]
  · show (heldMarkers _).pm.drains = _; rw [hpm, hdrains]
  · show pageBytes * residuePages _ = _
    rw [residuePages_of_pages ((congrArg (·.pages) hpm).trans hpages : _ = x.pm.pages)]
    rfl

theorem outChannel_congr {s t : State} (hch : t.dram.channels = s.dram.channels) (hcfg : t.cfg = s.cfg) :
    outChannel t = outChannel s := by
  unfold outChannel chAt; rw [hch, hcfg]

/-- With no lost window and no channel out, the map alone decides. -/
theorem convert_eq {s x : State} (hagain : s.rst.again = false) (hout : outChannel s = none)
    (hx : ConvertKeeps (convertStart s) x)
    (hmap : convert s = convertEnd (degrade (convertWindow x))) : convert s = convertEnd x := by
  have hrst : x.rst = s.rst := hx.only .rst (by decide)
  have hcfg : x.cfg = s.cfg := hx.only .cfg (by decide)
  have hwindow : convertWindow x = x := by simp [convertWindow, hrst, hagain]
  have hdegrade : degrade x = x := by simp [degrade, outChannel_congr (s := s) hx.channels hcfg, hout]
  rw [hmap, hwindow, hdegrade]

/-- The parts that the end of the conversion may move. -/
def conversionParts : List Part := [.host, .pm, .lake, .ledger, .dram, .cxl, .rst, .weir, .free, .wl, .out, .bus]

/-- What CONVERSION_DONE leaves of a map `x` that the conversion has built. -/
structure Converted (s x t : State) : Prop where
  pages : t.pm.pages = x.pm.pages
  drains : t.pm.drains = x.pm.drains
  residue : t.pm.residue = 4096 * residuePages x
  epoch : t.host.epoch = x.host.epoch
  settled : t.host.settled = x.host.settled
  elost : t.host.elost = x.host.elost
  phase : t.rst.phase = .fill
  only : OnlyChanges conversionParts s t

theorem sprintRun_drains (s : State) : (sprintRun s).pm.drains = s.pm.drains := by
  simp only [sprintRun, starvedCheck, State.onLake_pm, State.onPm_pm]
  (repeat' split) <;> rfl

theorem sprintCheck_drains (s : State) : (sprintCheck s).pm.drains = s.pm.drains := sprintRun_drains _

theorem weirCheck_drains (cause : Nat) (s : State) : (weirCheck cause s).pm.drains = s.pm.drains := by
  have hpm : (episodeCheck cause s).pm = s.pm :=
    episodeCheck_only (cs := [.host, .cxl, .weir, .wl, .bus, .out]) _ _ (by decide) (.refl _ s) .pm (by decide)
  rw [weirCheck, sprintCheck_drains, hpm]

theorem gives_conversion {s x : State} (hphase : s.rst.phase = .conversion) (hfrozen : frozen s = false) (hc : Calm s)
    (hconv : convert s = convertEnd x) : Gives .conversionDone s (Converted s x) := by
  let u := convertOp s
  have hopm : u.pm = (convertEnd x).pm := by rw [← hconv]; rfl
  have hohost : u.host = (convertEnd x).host := by rw [← hconv]; rfl
  have honly : OnlyChanges conversionParts s (weirCheck 6 u) :=
    weirCheck_only _ _ (by decide) (convertOp_only _ (by decide) (.refl _ s))
  refine gives_finish (u := weirCheck 6 u) ?_ (calm_of_onlyChanges honly (by decide) (by decide) hc) fun t hn => ?_
  · show execConversionDone s = _
    simp [execConversionDone, hphase, hfrozen, u]
  · have hpm : t.pm = (weirCheck 6 u).pm := hn.only .pm (by decide)
    have hhost : t.host = (weirCheck 6 u).host := hn.only .host (by decide)
    have hrst : t.rst = (weirCheck 6 u).rst := hn.only .rst (by decide)
    have hurst : (weirCheck 6 u).rst = u.rst :=
      weirCheck_only (cs := [.host, .cxl, .pm, .lake, .weir, .wl, .bus, .out]) _ _ (by decide) (.refl _ u) .rst (by decide)
    obtain ⟨-, hpages, hresidue⟩ := weirCheck_map 6 u
    obtain ⟨p0, p1, hwhost⟩ := weirCheck_host 6 u
    obtain ⟨hep, hed, heh, her⟩ := convertEnd_parts x
    rw [hopm] at hpages hresidue
    rw [hohost, heh] at hwhost
    refine ⟨by rw [hpm, hpages, hep], by rw [hpm, weirCheck_drains, hopm, hed], by rw [hpm, hresidue, her], ?_, ?_, ?_,
      by rw [hrst, hurst]; rfl, hn.onlyChanges (by decide) honly⟩
    all_goals rw [hhost, hwhost]

/-! ## The two sources of the statement -/

theorem convertedEntry_none {im : BasinImage} {c : Cursor} {cold p : Nat} (h : p ∉ im.map.map (·.1)) :
    convertedEntry im c cold p = none := by
  have hget : tabGet {} p im.map = ({} : PageEntry) := by
    by_contra hne
    exact h (List.mem_map_of_mem (f := (·.1)) (mem_of_tabGet hne))
  simp [convertedEntry, passSlot, hget]

theorem tabWf_keysNodup {α : Type} [DecidableEq α] {d : α} : ∀ {t : List (Nat × α)}, tabWf d t = true → (t.map (·.1)).Nodup
  | [], _ => List.nodup_nil
  | (k, v) :: t, h => by
    simp only [tabWf, Bool.and_eq_true] at h
    refine List.nodup_cons.mpr ⟨fun hk => ?_, tabWf_keysNodup h.2⟩
    obtain ⟨x, hx, hxk⟩ := List.mem_map.mp hk
    have := tabBelow_lt h.1.2 h.2 hx
    dsimp only at hxk this; omega

/-- The map that the conversion builds from a canonical saved one. -/
theorem convertImage_spec {s : State} {im : BasinImage} (him : s.basin.image = some im) (hwf : tabWf {} im.map = true) :
    ConvertKeeps (convertStart s) (convertImage (convertStart s)) ∧
      (∀ p, pageEntry (convertImage (convertStart s)) p = (convertedEntry im (endCursor s) (coldTick s) p).getD {}) ∧
      (∀ p sl, passSlot im.map im.drains p = some sl →
        beforeCursor (endCursor s) (seqOfSlot im.buckets sl) p = false ∨ p ∈ im.dropped →
        (convertImage (convertStart s)).host.elost ≤ imageEpoch im sl) := by
  have heq : convertImage (convertStart s) = im.map.foldl (convertEntry im (endCursor s)) (convertStart s) := by
    have h : (convertStart s).basin.image = some im := him
    unfold convertImage
    rw [h]
    rfl
  obtain ⟨hk, hpages, hel⟩ := convertEntries_spec im (endCursor s) im.map (convertStart s)
    (fun x hx => tabGet_of_mem hwf hx) (tabWf_keysNodup hwf)
  rw [heq]
  refine ⟨hk, fun p => ?_, fun p sl hsl hout => hel p ?_ sl hsl hout⟩
  · rw [hpages p]
    split
    case isTrue => rfl
    case isFalse hp => rw [convertedEntry_none hp]; rfl
  · by_contra hp
    have h := convertedEntry_none (c := .endOfResidue) (cold := 0) hp
    simp only [convertedEntry, hsl] at h
    split at h <;> cases h

/-- Settles O21: page by page, from the saved map and from none. -/
theorem conversionRebuildsMap : Obligations.ConversionRebuildsMap := by
  refine ⟨fun s im hphase hfrozen hsrc hagain hout him hwf hc => ?_, fun s hphase hfrozen hsrc hagain hout hc => ?_⟩
  · obtain ⟨hk, hpages, hel⟩ := convertImage_spec him hwf
    have hconv := convert_eq hagain hout hk (by
      simp only [convert, State.onPm_rst, State.onHost_rst, hsrc]; rfl)
    obtain ⟨t, ht, h⟩ := gives_conversion hphase hfrozen hc hconv
    have hentry : ∀ p, pageEntry t p = (convertedEntry im (endCursor s) (coldTick s) p).getD {} := fun p => by
      rw [pageEntry_of_pages h.pages, hpages p]
    have hwe : windowEpoch s = 0 := by simp [windowEpoch, hagain]
    refine gives_next ht ⟨fun p sl hsl => ⟨fun hin hd => ?_, fun hout => ⟨?_, h.elost ▸ hel p sl hsl hout⟩⟩, fun p hp => ?_,
      h.drains.trans hk.drains, by rw [h.residue, residuePages_of_pages h.pages.symm],
      by rw [h.epoch, hk.epoch]; simp [convertStart, State.onHost, State.onPm, hwe], h.settled.trans hk.settled, h.phase, h.only⟩
    · rw [hentry]; simp [convertedEntry, hsl, hin, hd]
    · rw [pageState, hentry]
      rcases hout with hb | hd
      · simp [convertedEntry, hsl, hb]
      · simp [convertedEntry, hsl, hd]
    · rw [pageState, hentry]
      simp only [convertedEntry, hp]
      split <;> rfl
  · have hconv := convert_eq hagain hout (.refl (convertStart s)) (by
      simp only [convert, State.onPm_rst, State.onHost_rst, hsrc]; rfl)
    obtain ⟨t, ht, h⟩ := gives_conversion hphase hfrozen hc hconv
    have hwe : windowEpoch s = 0 := by simp [windowEpoch, hagain]
    have hes : epochsFound s = (0, 0) := by simp [epochsFound, hsrc]
    refine gives_next ht ⟨h.pages, h.residue, h.epoch.trans ?_, h.settled.trans ?_, h.elost, h.phase⟩
    all_goals simp [convertStart, State.onHost, State.onPm, hwe, hes]

end Sys2Proof.Machine
end

section
/-! PROOFS. A restore from its begin to its metadata (R104, R159 to R162, R176, R179, R197), and O22. -/

namespace Sys2Proof.Machine
open Sys2Proof

/-- A record of the Waterline counts no dirty shutdown. -/
theorem dirtyShutdowns_reported {s t : State} (h : Reported s t) : t.cxl.dirtyShutdowns = s.cxl.dirtyShutdowns := by
  unfold Reported at h; rw [h]; rfl

/-- What a restore has become that failed (R176). -/
structure Failed (s t : State) : Prop where
  phase : t.rst.phase = .failed
  ready : t.rst.ready = s.rst.ready
  prev : t.rst.prev = 7
  count : t.cxl.dirtyShutdowns = s.cxl.dirtyShutdowns + 1
  only : OnlyChanges [.rst, .clk, .free, .wl, .cxl, .host, .out, .bus] s t

theorem refReturn_clk (s : State) : ∃ c, refReturn s = s.onClk fun _ => c := by
  unfold refReturn; split
  · exact ⟨_, rfl⟩
  · exact ⟨s.clk, rfl⟩

theorem failRestore_fails (s : State) : Failed s (failRestore s) := by
  let v := ((s.onRst fun r => { r with phase := .failed, disabled := true, begun := true, prev := 7 }).onCxl fun c =>
    { c with dirtyShutdowns := c.dirtyShutdowns + 1 }).onRst fun r =>
      { r with last := { r.last with present := true, prev := 7 } }
  let u := record 0x0404 2 0x2200 0 (vector 5 v)
  have hr : Reported v u := (vector_reported 5 v).trans (record_reported _ _ _ _ _)
  obtain ⟨c, hret⟩ := refReturn_clk u
  have heq : failRestore s = u.onClk fun _ => c := hret
  have hrst : u.rst = v.rst := hr.only .rst (by decide)
  have hv : OnlyChanges [.rst, .cxl] s v := State.onRst_only _ _ (by decide) (State.onCxl_only _ _ (by decide)
    (State.onRst_only _ _ (by decide) (.refl _ s)))
  rw [heq]
  refine ⟨?_, ?_, ?_, dirtyShutdowns_reported hr, State.onClk_only _ _ (by decide) ((hv.mono (by decide)).trans (hr.only.mono (by decide)))⟩
  all_goals rw [State.onClk_rst, hrst]
  all_goals rfl

theorem gives_failRestore {i : Instr} {s u : State} (hexec : exec i s = finish (failRestore u))
    (hrst : OnlyChanges [.rst] s u) (hready : u.rst.ready = s.rst.ready) (hc : Calm s) : Gives i s (Failed s) := by
  have h := failRestore_fails u
  have hcxl : u.cxl = s.cxl := hrst .cxl (by decide)
  have honly : OnlyChanges [.rst, .clk, .free, .wl, .cxl, .host, .out, .bus] s (failRestore u) := (hrst.mono (by decide)).trans h.only
  refine gives_finish hexec (calm_of_onlyChanges honly (by decide) (by decide) hc) fun t hn => ?_
  have htr : t.rst = (failRestore u).rst := hn.only .rst (by decide)
  have htc : t.cxl = (failRestore u).cxl := hn.only .cxl (by decide)
  exact ⟨by rw [htr, h.phase], by rw [htr, h.ready, hready], by rw [htr, h.prev], by rw [htc, h.count, hcxl],
    hn.onlyChanges (by decide) honly⟩

/-- RESTORE_BEGIN's registers before its outcome is known (R159, R160). -/
def begunAt (tailOk : Bool) (s : State) : State := s.onRst fun r =>
  { r with
    source := (found s tailOk).source, prev := (found s tailOk).prev, roots := (found s tailOk).roots
    again := (found s tailOk).again, gen := newestGen (allCommits s)
    attempt := earlierAttempts s (newestGen (allCommits s)) + 1
    modeEarly := decide (s.od.set.restoreMode = 1), begin := s.tb.now, heldPoison := s.cxl.poisonKept
    last := { present := true, gen := newestGen (allCommits s), prev := (found s tailOk).prev
              early := decide (s.od.set.restoreMode = 1)
              attempt := earlierAttempts s (newestGen (allCommits s)) + 1 } }

theorem execRestoreBegin_eq {s : State} (tailOk : Bool) (h : canBegin s = true) : exec (.restoreBegin tailOk) s =
    if (found s tailOk).fails = true ∨ 2 ≤ channelsOut s then finish (failRestore (begunAt tailOk s))
    else finish (vector 5 (((begunAt tailOk s).onRst fun r => { r with phase := .roots, begun := true }).onBoot fun b =>
      { b with stage := 4 })) := by
  show execRestoreBegin tailOk s = _
  rw [execRestoreBegin, if_neg (by simp [h])]
  rfl

theorem restoreBeginsOrFails : RestoreBeginsOrFails := by
  intro s tailOk hcan hc
  have hexec := execRestoreBegin_eq tailOk hcan
  refine ⟨fun hfails hout => ?_, fun h => ?_⟩
  · rw [if_neg (by simp [hfails]; omega)] at hexec
    let v := ((begunAt tailOk s).onRst fun r => { r with phase := .roots, begun := true }).onBoot fun b => { b with stage := 4 }
    have hv : OnlyChanges [.rst, .boot, .host, .out] s (vector 5 v) := vector_only _ _ (by decide)
      (State.onBoot_only _ _ (by decide) (State.onRst_only _ _ (by decide) (State.onRst_only _ _ (by decide) (.refl _ s))))
    have hvec : OnlyChanges [.host, .out] v (vector 5 v) := vector_only _ _ (by decide) (.refl _ v)
    refine gives_finish hexec (calm_of_onlyChanges hv (by decide) (by decide) hc) fun t hn => ?_
    have hrst : t.rst = v.rst := (hn.only .rst (by decide)).trans (hvec .rst (by decide))
    have hboot : t.boot = v.boot := (hn.only .boot (by decide)).trans (hvec .boot (by decide))
    rw [hrst, hboot]
    exact ⟨rfl, rfl, rfl, rfl, rfl, rfl, decide_eq_true_iff, rfl, rfl, hn.onlyChanges (by decide) (hv.mono (by decide))⟩
  · rw [if_pos h] at hexec
    obtain ⟨t, ht, hf⟩ := gives_failRestore hexec (State.onRst_only _ _ (by decide) (.refl _ s)) rfl hc
    exact gives_next ht ⟨hf.phase, hf.ready, hf.prev, hf.count, hf.only .lake (by decide), hf.only .basin (by decide), hf.only⟩

theorem restoreLoadsMetadata : RestoreLoadsMetadata := by
  refine ⟨fun s hphase hfrozen hled hc => ?_, fun s m hphase hfrozen hc => ⟨fun h => ?_, fun hsrc h => ?_⟩⟩
  · have hcommit := commit_sound (c := .restoreStarted s.rst.gen s.rst.modeEarly s.rst.attempt s.rst.prev)
      (s := s.onRst fun r => { r with phase := .metadata }) rfl hled
    let v := commit (.restoreStarted s.rst.gen s.rst.modeEarly s.rst.attempt s.rst.prev) (s.onRst fun r => { r with phase := .metadata })
    obtain ⟨t, ht, hr⟩ := finish_reported (s := v) (by rw [show v = _ from hcommit]; exact hc) (record_reported 0x0400 2 0x2200 0 v)
    rw [show v = _ from hcommit] at hr
    refine gives_next (t := t) ?_ hr
    rw [← ht]
    show execRestoreStarted s = _
    rw [execRestoreStarted, if_neg (by simp [hphase, hfrozen])]
    rfl
  · refine gives_noticed ?_ hc
    show execRestoreMetadataLoaded m s = _
    rw [execRestoreMetadataLoaded, if_neg (by simp [hphase, hfrozen]), if_neg]
    · cases s.basin.image <;> rfl
    · rintro ⟨hsrc, hbad⟩
      obtain ⟨him, hok⟩ := h.resolve_left (not_not.mpr hsrc)
      rcases hbad with ⟨hr, hb⟩ | ⟨hr, hb⟩ | hnone
      · simp [hr, hb] at hok
      · simp [hr, hb] at hok
      · exact him (Option.isNone_iff_eq_none.mp hnone)
  · have hexec : exec (.restoreMetadataLoaded m) s = finish (failRestore s) := by
      show execRestoreMetadataLoaded m s = _
      rw [execRestoreMetadataLoaded, if_neg (by simp [hphase, hfrozen]), if_pos]
      refine ⟨hsrc, ?_⟩
      rcases h with h | h
      · exact .inr (.inr (by rw [h]; rfl))
      · cases hroots : s.rst.roots
        · exact .inr (.inl ⟨rfl, by simpa [hroots] using h⟩)
        · exact .inl ⟨rfl, by simpa [hroots] using h⟩
    obtain ⟨t, ht, hf⟩ := gives_failRestore hexec (.refl _ s) rfl hc
    exact gives_next ht ⟨hf.phase, hf.count, hf.only .lake (by decide), hf.only .basin (by decide)⟩

/-- Settles O22: the begin, its commit and the metadata at a time. -/
theorem restoreFindsItsSave : Obligations.RestoreFindsItsSave := ⟨restoreBeginsOrFails, restoreLoadsMetadata⟩

end Sys2Proof.Machine
end

section
/-! PROOFS. O23 fails at RESTORED: a bucket that the restore has emptied retires then (R69), and its retirement stands in the
ledger's bucket table (R153), so the ledger gains more than the RESTORED commit. -/

namespace Sys2Proof.Machine
open Sys2Proof

/-- The newest bucket, whose pages the restore has all lost. -/
def emptiedBucket : Bucket := { slot := 0, epoch := 0, openSeq := 0, isOpen := false, pages := 0 }

/-- A restore at its end with that bucket still live in the ledger's table. -/
def restoreAtEnd : State :=
  { State.reset with
    crew := { State.reset.crew with stroke := { st := .member } }
    seq := { State.reset.seq with st := .online, complete := true }
    rst := { phase := .compaction }
    pm := { buckets := [emptiedBucket] }
    ledger := { buckets := [(0, { epoch := 0 })] } }

theorem execRestored_atEnd {s : State} (hphase : s.rst.phase = .compaction) (hcomp : s.log.compacting = none)
    (hfence : s.host.fence = false) (hfrozen : frozen s = false) (hmember : anyMember s = true) (hon : onlineDone s = true) :
    exec .restored s = finish (restoredOp s) := by
  show execRestored s = _
  simp [execRestored, hphase, hcomp, hfence, hfrozen, hmember, hon]

/-- Refutes O23: the ledger gains the retirement of the emptied bucket. -/
theorem not_restoreOpensMemory : ¬ Obligations.RestoreOpensMemory := by
  rintro ⟨-, hend, -⟩
  have hmember : anyMember restoreAtEnd = true := by decide
  have hon : onlineDone restoreAtEnd = true := by decide
  obtain ⟨t, ht, hledger, -⟩ := hend restoreAtEnd rfl rfl rfl rfl hmember hon rfl (by decide)
    (fun x hx => absurd hx List.not_mem_nil) ⟨rfl, rfl⟩
  obtain ⟨u, hu, hn⟩ := finish_noticed (s := restoredOp restoreAtEnd) ⟨by decide +kernel, by decide +kernel⟩
  obtain rfl : u = t := Host.Outcome.next.inj (hu.symm.trans ((execRestored_atEnd rfl rfl rfl rfl hmember hon).symm.trans ht))
  have hl : u.ledger = (restoredOp restoreAtEnd).ledger := hn.only .ledger (by decide)
  have hbuckets := congrArg (·.buckets) (hl.symm.trans hledger)
  exact absurd hbuckets (by decide +kernel)

end Sys2Proof.Machine
end

section
/-! PROOFS. Lines that meet an error: the captures and counts of a corrected and of an uncorrectable line (R184 to R187, R259),
the repair from the Lakebed (R187, R200), the patrol scrub (R191), and O26. -/

namespace Sys2Proof.Machine
open Sys2Proof

/-! ## Channels -/

theorem chAt_of_dram {s t : State} (h : t.dram.channels = s.dram.channels) (n : Nat) : chAt t n = chAt s n := by
  unfold chAt; rw [h]

theorem chAt_onCh_ne {n k : Nat} (f : DramChannel → DramChannel) (s : State) (h : k ≠ n) : chAt (onCh n f s) k = chAt s k := by
  simp [chAt, onCh, State.onDram, getElem?_listUpd, h]

theorem chAt_onCh {n : Nat} (f : DramChannel → DramChannel) {s : State} (h : n < s.dram.channels.length) :
    chAt (onCh n f s) n = f (chAt s n) := by
  simp [chAt, onCh, State.onDram, getElem?_listUpd, h]

/-- A channel that reads other than a default one is listed. -/
theorem channel_listed {s : State} {n : Nat} (h : (chAt s n).state ≠ .notStarted) : n < s.dram.channels.length := by
  by_contra hn
  exact h (by simp [chAt, List.getElem?_eq_none (Nat.le_of_not_lt hn)])

theorem channelOfPage_lt (s : State) (page : Nat) : channelOfPage s page < 8 :=
  (Nat.mod_le _ _).trans_lt (Nat.mod_lt _ (by decide))

theorem ddrId_toNat {n k : Nat} (hn : n < 8) (hk : k < 64) : (ddrId n k).toNat = 0x2000 + 64 * n + k := by
  rw [ddrId, BitVec.toNat_ofNat, Nat.mod_eq_of_lt (by omega)]

theorem cellOf_toNat (s : State) (line : Nat) : (cellOf s line).toNat = 0x2000 + 64 * channelOfPage s (pageOf line) + line % 2 :=
  ddrId_toNat (channelOfPage_lt s _) (by omega)

theorem listUpd_id {α : Type} : ∀ (n : Nat) (l : List α), listUpd n id l = l
  | _, [] => by simp [listUpd]
  | 0, _ :: _ => rfl
  | n + 1, _ :: t => by simp [listUpd, listUpd_id n t]

theorem crewOfUnit_cellOf (s : State) (line : Nat) : crewOfUnit (cellOf s line) = none := by
  have := channelOfPage_lt s (pageOf line)
  have h : (cellOf s line).toNat / 4096 = 2 := by rw [cellOf_toNat]; omega
  simp [crewOfUnit, h]

theorem isDdrCell_cellOf (s : State) (line : Nat) : isDdrCell (cellOf s line) = true := by
  have := channelOfPage_lt s (pageOf line)
  rw [isDdrCell, cellOf_toNat, decide_eq_true_eq]
  omega

/-- Cells 0 and 1 and the oar of a channel of the variant exist (R13). -/
theorem unitExists_ddrId {s : State} {n k : Nat} (hn : n < 8) (h : n < s.cfg.dramChannels) (hk : k ≤ 2) :
    unitExists s (ddrId n k) = true := by
  have hr : (ddrId n k).toNat / 4096 = 2 := by rw [ddrId_toNat hn (by omega)]; omega
  have hb : (ddrId n k).toNat / 64 % 64 = n := by rw [ddrId_toNat hn (by omega)]; omega
  have hc : (ddrId n k).toNat % 64 = k := by rw [ddrId_toNat hn (by omega)]; omega
  simp only [unitExists, hr, hb, hc]
  simp [h, hk]

/-! ## A first U fault (R260, R262, R272) -/

/-- A U-class fault that a rule raises, the first of a DDR cell: captured with its grace timer, reported, recorded. -/
theorem raise_firstU {m req : MasterId} {key : BitVec 8} {typ : Fin 16} {addr detail : Nat} {s : State}
    (hunit : unitExists s m = true) (hreq : unitExists s req = true) (hfree : (capture s m).sticky = false)
    (hcrew : crewOfUnit m = none) (hgrace : s.od.set.graceMs ≠ 0) :
    ∃ u, Captured s u m .u key req ∧ OnlyChanges [.fault, .host] s u ∧ (Calm s → Calm u) ∧
      Reported u (raise m .u key typ req addr detail s) := by
  let f : FaultIn := ⟨m, .u, key, BitVec.ofNat 16 detail, typ, req, BitVec.ofNat 64 addr, false, .other⟩
  let v := firstCaptured f s
  let c : Capture := { capture v m with grace := true, graceNs := s.od.set.graceMs * nsPerMs }
  have hcap : Captured s v m .u key req := firstCaptured_captured f s
  have hself : capture (setCapture m c v) m = c := capture_setCapture_self v (ne_empty_of_sticky hcap.1)
  have hne : ∀ x, x ≠ m → capture (setCapture m c v) x = capture v x := fun x hx =>
    capture_setCapture_ne v (ne_empty_of_sticky hcap.1) hx
  have hset : Captured s (setCapture m c v) m .u key req := by
    obtain ⟨h1, h2, h3, h4, h5, h6, h7, h8⟩ := hcap
    rw [Captured, hself]
    exact ⟨h1, h2, h3, h4, h5, h6, h7, fun x hx => (hne x hx).trans (h8 x hx)⟩
  have hrep : ∃ h, reportU m (setCapture m c v) = (setCapture m c v).onHost h := by
    unfold reportU; split <;> exact ⟨_, rfl⟩
  obtain ⟨h, hrep⟩ := hrep
  refine ⟨reportU m (setCapture m c v), ?_, ?_, ?_, ?_⟩
  · rw [hrep]; exact captured_of_fault hset rfl
  · rw [hrep]
    exact State.onHost_only _ _ (by decide) (setCapture_only _ _ _ (by decide) ((firstCaptured_only f s).mono (by decide)))
  · intro hc; rw [hrep]; exact hc
  · have hg : ¬ s.od.set.graceMs * nsPerMs = 0 := Nat.mul_ne_zero hgrace (by decide)
    have hact : raise m .u key typ req addr detail s =
        record 0x0100 4 m (faultId (setCapture m c v) m).toNat (reportU m (setCapture m c v)) := by
      unfold raise
      rw [reportFault_first (f := f) hunit hreq hfree]
      show actU m v = _
      unfold actU scoreFor
      rw [hcrew]
      dsimp only
      exact if_neg hg
    rw [hact]
    exact record_reported _ _ _ _ _

/-! ## Corrected and uncorrectable lines (R185, R186) -/

/-- What a line's error leaves: the capture at its cell, and no byte of DRAM changed. -/
structure MetError (s t : State) (line : Nat) (cls : FClass) (k : BitVec 8) (req : MasterId) : Prop where
  captured : Captured s t (cellOf s line) cls k req
  resp : t.out.resp = s.out.resp
  bytes : t.dram.bytes = s.dram.bytes
  only : OnlyChanges [.dram, .fault, .free, .wl, .cxl, .host, .out, .bus] s t
  calm : Calm t

/-- A first C capture of a line's cell, raised in a state that differs from `s` in DRAM's channels and the free values alone. -/
theorem raise_cellC {s v : State} {line addr detail : Nat} {k : BitVec 8} {typ : Fin 16} {req : MasterId}
    (hunit : unitExists s (cellOf s line) = true) (hreq : unitExists s req = true)
    (hfree : (capture s (cellOf s line)).sticky = false) (hc : Calm s)
    (hv : OnlyChanges [.dram, .free, .wl, .cxl, .host, .out, .bus] s v) (hresp : v.out.resp = s.out.resp)
    (hbytes : v.dram.bytes = s.dram.bytes) :
    MetError s (raise (cellOf s line) .c k typ req addr detail v) line .c k req ∧
      (raise (cellOf s line) .c k typ req addr detail v).dram = v.dram := by
  have hcfg : v.cfg = s.cfg := hv .cfg (by decide)
  have hfault : v.fault = s.fault := hv .fault (by decide)
  have htb : v.tb = s.tb := hv .tb (by decide)
  have hex : ∀ x, unitExists v x = unitExists s x := fun x => by unfold unitExists; rw [hcfg]
  obtain ⟨u, hcap, honly, hcalm, hrep⟩ := raise_firstC (s := v) (m := cellOf s line) (req := req) (key := k) (typ := typ)
    (addr := addr) (detail := detail) (by rw [hex, hunit]) (by rw [hex, hreq]) (by rw [capture_of_fault hfault, hfree])
    (crewOfUnit_cellOf s line)
  have hlink : OnlyChanges [.fault, .host] v (linkReportC (cellOf s line) u) :=
    (honly.mono (by decide)).trans ((linkReportC_only _ u).mono (by decide))
  have hall := hrep.onlyChanges (cs := [.fault, .free, .wl, .cxl, .host, .out, .bus]) (by decide) (hlink.mono (by decide))
  have hdram : (raise (cellOf s line) .c k typ req addr detail v).dram = v.dram := hall .dram (by decide)
  have hu : (raise (cellOf s line) .c k typ req addr detail v).fault = u.fault := hrep.only .fault (by decide)
  have hout : (linkReportC (cellOf s line) u).out = v.out := hlink .out (by decide)
  refine ⟨⟨captured_from (captured_of_fault hcap hu) hfault htb, by rw [hrep.resp, hout, hresp], by rw [hdram, hbytes],
    (hv.mono (by decide)).trans (hall.mono (by decide)), ?_⟩, hdram⟩
  exact hrep.calm (hcalm (calm_of_eq hc (hv .log (by decide)) hfault))

/-- A first U capture of a line's cell, likewise. -/
theorem raise_cellU {s v : State} {line addr detail : Nat} {k : BitVec 8} {typ : Fin 16} {req : MasterId}
    (hunit : unitExists s (cellOf s line) = true) (hreq : unitExists s req = true)
    (hfree : (capture s (cellOf s line)).sticky = false) (hgrace : s.od.set.graceMs ≠ 0) (hc : Calm s)
    (hv : OnlyChanges [.dram, .free, .wl, .cxl, .host, .out, .bus] s v) (hresp : v.out.resp = s.out.resp)
    (hbytes : v.dram.bytes = s.dram.bytes) :
    MetError s (raise (cellOf s line) .u k typ req addr detail v) line .u k req ∧
      (raise (cellOf s line) .u k typ req addr detail v).dram = v.dram := by
  have hcfg : v.cfg = s.cfg := hv .cfg (by decide)
  have hfault : v.fault = s.fault := hv .fault (by decide)
  have htb : v.tb = s.tb := hv .tb (by decide)
  have hod : v.od = s.od := hv .od (by decide)
  have hex : ∀ x, unitExists v x = unitExists s x := fun x => by unfold unitExists; rw [hcfg]
  obtain ⟨u, hcap, honly, hcalm, hrep⟩ := raise_firstU (s := v) (m := cellOf s line) (req := req) (key := k) (typ := typ)
    (addr := addr) (detail := detail) (by rw [hex, hunit]) (by rw [hex, hreq]) (by rw [capture_of_fault hfault, hfree])
    (crewOfUnit_cellOf s line) (by rw [hod]; exact hgrace)
  have hall := hrep.onlyChanges (cs := [.fault, .free, .wl, .cxl, .host, .out, .bus]) (by decide) (honly.mono (by decide))
  have hdram : (raise (cellOf s line) .u k typ req addr detail v).dram = v.dram := hall .dram (by decide)
  have hu : (raise (cellOf s line) .u k typ req addr detail v).fault = u.fault := hrep.only .fault (by decide)
  have hout : u.out = v.out := honly .out (by decide)
  refine ⟨⟨captured_from (captured_of_fault hcap hu) hfault htb, by rw [hrep.resp, hout, hresp], by rw [hdram, hbytes],
    (hv.mono (by decide)).trans (hall.mono (by decide)), ?_⟩, hdram⟩
  exact hrep.calm (hcalm (calm_of_eq hc (hv .log (by decide)) hfault))

/-- A channel with one corrected error more, of the device `k` with its times of the last day (R186). -/
def oneCorrected (k : Nat) (times : List Nat) (c : DramChannel) : DramChannel :=
  { c with ce := satInc 0xFFFFFF c.ce, ceTimes := tabSet [] k times c.ceTimes }

theorem countCorrected_reported (s : State) (line dev : Nat) : ∃ times,
    Reported (onCh (channelOfPage s (pageOf line)) (oneCorrected (deviceKey line dev) times) s) (countCorrected s line dev) := by
  unfold countCorrected
  dsimp only
  split
  · exact ⟨_, record_reported _ _ _ _ _⟩
  · exact ⟨_, .refl _⟩

theorem chAt_oneCorrected {s t : State} {n k : Nat} {times : List Nat}
    (h : t.dram = (onCh n (oneCorrected k times) s).dram) (hn : n < s.dram.channels.length) :
    chAt t n = oneCorrected k times (chAt s n) := by
  rw [chAt_of_dram (congrArg Dram.channels h), chAt_onCh _ hn]

/-- A corrected error: its C capture with the device as KEY, one error more at the channel. -/
theorem corrected_met {s : State} {line dev : Nat} {typ : Fin 16} {req : MasterId}
    (hunit : unitExists s (cellOf s line) = true) (hreq : unitExists s req = true)
    (hfree : (capture s (cellOf s line)).sticky = false) (hc : Calm s) :
    MetError s (corrected line dev typ req s) line .c (BitVec.ofNat 8 dev) req ∧
      ∃ k times, (corrected line dev typ req s).dram = (onCh (channelOfPage s (pageOf line)) (oneCorrected k times) s).dram := by
  let w : State := { s with free := s.free + 1 }
  obtain ⟨times, hr⟩ := countCorrected_reported w line dev
  let v := onCh (channelOfPage w (pageOf line)) (oneCorrected (deviceKey line dev) times) w
  have hv : OnlyChanges [.dram, .free] s v := onCh_only _ _ _ (by decide) (free_only _ _ (by decide) (.refl _ s))
  have hdram : (countCorrected w line dev).dram = v.dram := hr.only .dram (by decide)
  obtain ⟨hmet, hd⟩ := raise_cellC (v := countCorrected w line dev) (addr := line * 64)
    (detail := (Config.freeBits 16 s.free).toNat) (k := BitVec.ofNat 8 dev) (typ := typ) hunit hreq hfree hc
    ((hv.mono (by decide)).trans (hr.only.mono (by decide))) (hr.resp.trans rfl) (by rw [hdram]; rfl)
  exact ⟨hmet, _, _, hd.trans hdram⟩

theorem correctedFree_met {s : State} {line : Nat} {typ : Fin 16} {req : MasterId}
    (hunit : unitExists s (cellOf s line) = true) (hreq : unitExists s req = true)
    (hfree : (capture s (cellOf s line)).sticky = false) (hc : Calm s) :
    ∃ key, MetError s (correctedFree line typ req s) line .c key req ∧
      ∃ k times, (correctedFree line typ req s).dram = (onCh (channelOfPage s (pageOf line)) (oneCorrected k times) s).dram := by
  let w : State := { s with free := s.free + 1 }
  obtain ⟨hmet, k, times, hd⟩ := corrected_met (s := w) (line := line) (dev := Config.freeNat s.free % 10) (typ := typ) (req := req)
    hunit hreq hfree hc
  have hw : OnlyChanges [.free] s w := free_only _ _ (by decide) (.refl _ s)
  exact ⟨_, ⟨captured_from hmet.captured rfl rfl, hmet.resp, hmet.bytes, (hw.mono (by decide)).trans hmet.only, hmet.calm⟩, k, times, hd⟩

/-! ## The marker (R185) -/

theorem mem_setIns_iff {k x : Nat} : ∀ t : List Nat, x ∈ setIns k t ↔ x = k ∨ x ∈ t
  | [] => by simp [setIns]
  | j :: t => by
    unfold setIns
    split
    · simp
    · split
      case isTrue h => subst h; simp
      case isFalse => simp only [List.mem_cons, mem_setIns_iff t]; tauto

theorem linePoison_of_dram {s t : State} (h : t.dram.poison = s.dram.poison) (x : Nat) : linePoison t x = linePoison s x := by
  unfold linePoison; rw [h]

theorem setPoison_dram (line : Nat) (on : Bool) (s : State) : ∃ ps, (setPoison line on s).dram = { s.dram with poison := ps } := by
  unfold setPoison; split
  · exact ⟨s.dram.poison, rfl⟩
  · exact ⟨_, rfl⟩

theorem linePoison_setPoison (line : Nat) (on : Bool) (s : State) (x : Nat) :
    linePoison (setPoison line on s) x = if x = line then on else linePoison s x := by
  unfold setPoison
  split
  case isTrue h => split <;> [(subst x; exact h); rfl]
  case isFalse h =>
    show (if on then setIns line s.dram.poison else setDel line s.dram.poison).contains x = _
    rw [Bool.eq_iff_iff]
    cases on
    case true => by_cases hx : x = line <;> simp [mem_setIns_iff, hx, linePoison]
    case false => by_cases hx : x = line <;> simp [setDel, hx, linePoison]

/-- A channel with one uncorrectable error more. -/
def oneUncorrectable (c : DramChannel) : DramChannel := { c with ue := satInc 0xFFFF c.ue }

/-- An uncorrectable line that nothing repairs: its U capture with KEY 0xFE, its marker, one error more at the channel. -/
theorem uncorrectable_met {s : State} {line : Nat} {syn : BitVec 16} {typ : Fin 16} {req : MasterId}
    (hunit : unitExists s (cellOf s line) = true) (hreq : unitExists s req = true)
    (hfree : (capture s (cellOf s line)).sticky = false) (hgrace : s.od.set.graceMs ≠ 0) (hc : Calm s) :
    MetError s (uncorrectable line syn typ req s) line .u 0xFE req ∧
      (uncorrectable line syn typ req s).dram =
        (onCh (channelOfPage s (pageOf line)) oneUncorrectable (setPoison line true s)).dram := by
  let v := onCh (channelOfPage s (pageOf line)) oneUncorrectable (setPoison line true s)
  have hv : OnlyChanges [.dram, .cxl] s v := onCh_only _ _ _ (by decide) (setPoison_only _ _ _ (by decide) (.refl _ s))
  have hout : v.out = s.out := hv .out (by decide)
  obtain ⟨ps, hps⟩ := setPoison_dram line true s
  have hbytes : v.dram.bytes = s.dram.bytes := by
    show (setPoison line true s).dram.bytes = _; rw [hps]
  have hcell : cellOf (setPoison line true s) line = cellOf s line := by
    have hcfg : (setPoison line true s).cfg = s.cfg :=
      setPoison_only (cs := [.cxl, .dram]) _ _ _ (by decide) (.refl _ s) .cfg (by decide)
    unfold cellOf channelOfPage; rw [hcfg]
  have heq : uncorrectable line syn typ req s = raise (cellOf s line) .u 0xFE typ req (line * 64) syn.toNat v := by
    rw [← hcell]; rfl
  rw [heq]
  exact raise_cellU hunit hreq hfree hgrace hc (hv.mono (by decide)) (by rw [hout]) hbytes

/-- The markers that an uncorrectable line leaves. -/
theorem linePoison_uncorrectable {s t : State} {line : Nat} {f : DramChannel → DramChannel} {n : Nat}
    (h : t.dram = (onCh n f (setPoison line true s)).dram) (x : Nat) :
    linePoison t x = if x = line then true else linePoison s x := by
  rw [linePoison_of_dram (t := t) (s := setPoison line true s) (by rw [h]; rfl), linePoison_setPoison]

/-! ## A host read that meets an error -/

theorem merged_congr {s t : State} (hbytes : t.dram.bytes = s.dram.bytes) (hpoison : t.dram.poison = s.dram.poison)
    (hwb : t.wb = s.wb) (line : Nat) : merged t line = merged s line := by
  have hread : ∀ n a, readBytes t a n = readBytes s a n := fun n => by
    induction n with
    | zero => intro a; rfl
    | succ n ih => intro a; simp only [readBytes, ih, readByte, hbytes]
  simp only [merged, mergeOver, readLine, hread, linePoison, hpoison, hwb]

/-- With no write of the whole line before it, the marker reads. -/
theorem merged_poisoned {s : State} {line : Nat} (hhit : bufferHit s line = false) (hp : linePoison s line = true) :
    (merged s line).2 = true := by
  unfold merged mergeOver
  rw [hp]
  have hpart : ∀ e ∈ s.wb.entries.filter fun e => decide (e.line = line), wholeLine e = false := fun e he => by
    simp only [List.mem_filter, decide_eq_true_eq] at he
    simp only [bufferHit, List.any_eq_false, Bool.and_eq_true, decide_eq_true_eq, not_and, Bool.not_eq_true] at hhit
    exact hhit e he.1 he.2
  revert hpart
  generalize s.wb.entries.filter (fun e => decide (e.line = line)) = es
  generalize readLine s line = d
  intro hpart
  induction es generalizing d with
  | nil => rfl
  | cons e es ih =>
    rw [List.foldl_cons]
    have he : (e.poison || (true && !wholeLine e)) = true := by simp [hpart e List.mem_cons_self]
    rw [he]
    exact ih _ fun x hx => hpart x (List.mem_cons_of_mem e hx)

/-- The answer to a read whose line met an error. -/
theorem gives_answer {i : Instr} {s u : State} {head : Fin 2} {id line : Nat} {cls : FClass} {k : BitVec 8} {req : MasterId}
    (hexec : exec i s = finish (answer head id line u)) (hu : MetError s u line cls k req) :
    Gives i s fun t => Captured s t (cellOf s line) cls k req ∧ t.dram = u.dram ∧
      t.out.resp = .read head id (merged u line).1 (merged u line).2 :: s.out.resp ∧
      OnlyChanges [.dram, .fault, .free, .wl, .cxl, .host, .out, .bus] s t := by
  have honly : OnlyChanges [.out] u (answer head id line u) :=
    answer_only _ _ _ _ (by decide) (.refl _ u)
  refine gives_finish hexec hu.calm fun t hn => ?_
  have hfault : t.fault = u.fault := (hn.only .fault (by decide)).trans (honly .fault (by decide))
  have hout : t.out = (answer head id line u).out := hn.only .out (by decide)
  have hdram : t.dram = u.dram := (hn.only .dram (by decide)).trans (honly .dram (by decide))
  refine ⟨captured_of_fault hu.captured hfault, hdram, ?_, hn.onlyChanges (by decide) (hu.only.trans (honly.mono (by decide)))⟩
  rw [hout, ← hu.resp]
  rfl

section serve

variable {s : State} {line : Nat} (hhit : bufferHit s line = false) (hp : linePoison s line = false) (head : Fin 2) (id : Nat)

include hhit hp

theorem serveRead_corrected (dev : Fin 10) : serveRead head id line (.corrected dev) s =
    answer head id line (corrected line dev.val 0 (headPort head) s) := by simp [serveRead, hhit, hp]

theorem serveRead_repeatOk : serveRead head id line .repeatOk s =
    answer head id line (correctedFree line 0 (headPort head) s) := by simp [serveRead, hhit, hp]

theorem serveRead_uncorrectable (syn : BitVec 16) : serveRead head id line (.uncorrectable syn) s =
    if repairable s line then startRepair line (holdRead head id line .repair s)
    else answer head id line (uncorrectable line syn 0 (headPort head) s) := by simp [serveRead, hhit, hp]

end serve

theorem queueRead_only_flash (page : Nat) (op : FlashOp) (s : State) : OnlyChanges [.flash] s (queueRead page op s) :=
  queueRead_only _ _ _ (by decide) (.refl _ s)

theorem startRepair_dram (line : Nat) (s : State) : (startRepair line s).dram = (setPoison line true s).dram :=
  queueRead_only_flash _ _ _ .dram (by decide)

theorem linePoison_startRepair (line : Nat) (s : State) (x : Nat) :
    linePoison (startRepair line s) x = if x = line then true else linePoison s x := by
  rw [linePoison_of_dram (congrArg Dram.poison (startRepair_dram line s)), linePoison_setPoison]

theorem hostReadMeetsErrors : HostReadMeetsErrors := by
  intro s head hpa id line hserved hhit hp hunit hfree hgrace hc
  have hreq : unitExists s (headPort head) = true := unitExists_headPort (memRequest_present hserved.1)
  have hexec : ∀ res, exec (.hostRead head hpa id res) s = finish (serveRead head id line res s) := fun res =>
    execHostRead_served hserved
  have hsame : ∀ {u : State} {cls : FClass} {k : BitVec 8}, MetError s u line cls k (headPort head) →
      u.dram.poison = s.dram.poison → merged u line = merged s line := fun hu hpoison =>
    merged_congr hu.bytes hpoison (hu.only .wb (by decide)) line
  refine ⟨fun dev => ?_, ?_, fun syn hrep => ?_, fun syn hrep => ?_⟩
  · obtain ⟨hmet, k, times, hd⟩ := corrected_met (dev := dev.val) (typ := 0) hunit hreq hfree hc
    obtain ⟨t, ht, hcap, hdram, hresp, honly⟩ := gives_answer ((hexec (.corrected dev)).trans (by rw [serveRead_corrected hhit hp])) hmet
    rw [hsame hmet (by rw [hd]; rfl)] at hresp
    exact gives_next ht ⟨hcap, hresp, by rw [hdram, hmet.bytes], by rw [hdram, hd]; rfl, honly⟩
  · obtain ⟨key, hmet, k, times, hd⟩ := correctedFree_met (typ := 0) hunit hreq hfree hc
    obtain ⟨t, ht, hcap, hdram, hresp, honly⟩ := gives_answer ((hexec .repeatOk).trans (by rw [serveRead_repeatOk hhit hp])) hmet
    rw [hsame hmet (by rw [hd]; rfl)] at hresp
    exact gives_next ht ⟨⟨key, hcap⟩, hresp, by rw [hdram, hmet.bytes], by rw [hdram, hd]; rfl, honly⟩
  · obtain ⟨hmet, hd⟩ := uncorrectable_met (syn := syn) (typ := 0) hunit hreq hfree hgrace hc
    obtain ⟨t, ht, hcap, hdram, hresp, honly⟩ := gives_answer (head := head) (id := id) (i := .hostRead head hpa id (.uncorrectable syn))
      ((hexec (.uncorrectable syn)).trans (by rw [serveRead_uncorrectable hhit hp, if_neg (by simp [hrep])])) hmet
    have hu : linePoison (uncorrectable line syn 0 (headPort head) s) line = true := by
      rw [linePoison_uncorrectable hd, if_pos rfl]
    have hhit' : bufferHit (uncorrectable line syn 0 (headPort head) s) line = false := by
      have hwb : (uncorrectable line syn 0 (headPort head) s).wb = s.wb := hmet.only .wb (by decide)
      unfold bufferHit; rw [hwb]; exact hhit
    rw [merged_poisoned hhit' hu] at hresp
    exact gives_next ht ⟨hcap, by rw [linePoison_of_dram (congrArg Dram.poison hdram), hu], ⟨_, hresp⟩,
      by rw [hdram, hmet.bytes], honly⟩
  · let w := holdRead head id line .repair s
    have honly : OnlyChanges [.dram, .wb, .flash, .cxl] s (startRepair line w) :=
      startRepair_only _ _ (by decide) (holdRead_only _ _ _ _ _ (by decide) (.refl _ s))
    refine gives_finish (u := startRepair line w) ((hexec _).trans (by rw [serveRead_uncorrectable hhit hp, if_pos hrep]))
      (calm_of_onlyChanges honly (by decide) (by decide) hc) fun t hn => ?_
    have hrep : OnlyChanges [.dram, .flash, .cxl] w (startRepair line w) := startRepair_only _ _ (by decide) (.refl _ w)
    have hdram : t.dram = (setPoison line true w).dram := (hn.only .dram (by decide)).trans (startRepair_dram line w)
    have hwb : t.wb = w.wb := (hn.only .wb (by decide)).trans (hrep .wb (by decide))
    have hout : t.out = s.out := (hn.only .out (by decide)).trans (honly .out (by decide))
    obtain ⟨ps, hps⟩ := setPoison_dram line true w
    refine ⟨?_, hwb, by rw [hout], by rw [hdram, hps]; rfl, hn.onlyChanges (by decide) (honly.mono (by decide))⟩
    rw [linePoison_of_dram (congrArg Dram.poison hdram), linePoison_setPoison, if_pos rfl]

/-! ## The patrol scrub (R191) -/

/-- `s` with the scrub of channel `ch` at `line`. -/
def scrubbed (s : State) (ch : Fin 8) (line : Nat) : State := onCh ch.val (fun c => { c with scrubLine := line }) s

theorem execPatrolScrub_reads {s : State} {ch : Fin 8} {line : Nat} (hrun : oarRuns s ch.val = true)
    (hch : channelOfPage s (pageOf line) = ch.val) (hpage : pageOf line < s.cfg.installedPages) (res : DramRead) :
    exec (.patrolScrub ch line res) s = finish (scrubLine line res (scrubbed s ch line)) := by
  show execPatrolScrub ch line res s = _
  rw [execPatrolScrub, if_neg (by simp [hrun, hch, Nat.not_le.mpr hpage])]
  rfl

/-- What the scrub shows of its channel after an error that counted it by `f`. -/
theorem chAt_scrubbed {s t : State} {ch : Fin 8} {line : Nat} {f : DramChannel → DramChannel}
    (hrun : oarRuns s ch.val = true) (h : t.dram.channels = (onCh ch.val f (scrubbed s ch line)).dram.channels) :
    chAt t ch.val = f { chAt s ch.val with scrubLine := line } := by
  have hlen : ch.val < s.dram.channels.length := channel_listed fun h => by
    simp only [oarRuns, Bool.and_eq_true, decide_eq_true_eq] at hrun
    rw [hrun.1.1] at h
    cases h
  rw [chAt_of_dram h, chAt_onCh, scrubbed, chAt_onCh _ hlen]
  simpa [scrubbed, onCh, State.onDram, length_listUpd] using hlen

/-- A capture of a scrubbed line's cell is one of `s`. -/
theorem gives_scrubError {i : Instr} {s u : State} {ch : Fin 8} {line : Nat} {cls : FClass} {k : BitVec 8} {req : MasterId}
    (hexec : exec i s = finish u) (hu : MetError (scrubbed s ch line) u line cls k req) :
    Gives i s fun t => Captured s t (cellOf s line) cls k req ∧ t.dram = u.dram ∧
      OnlyChanges [.dram, .fault, .free, .wl, .cxl, .host, .out, .bus] s t := by
  have hs : OnlyChanges [.dram] s (scrubbed s ch line) := onCh_only _ _ _ (by decide) (.refl _ s)
  refine gives_finish hexec hu.calm fun t hn => ?_
  have hfault : t.fault = u.fault := hn.only .fault (by decide)
  exact ⟨captured_of_fault (captured_from hu.captured rfl rfl) hfault, hn.only .dram (by decide),
    hn.onlyChanges (by decide) ((hs.mono (by decide)).trans hu.only)⟩

theorem scrubMarksUncorrectableLines : ScrubMarksUncorrectableLines := by
  refine ⟨fun s ch line res => ⟨fun h => ?_, fun hrun hch hpage hp hc => ?_⟩,
    fun s ch line hrun hch hpage hhas hfree hgrace hp hc => ?_⟩
  · show execPatrolScrub ch line res s = _
    rw [execPatrolScrub, if_pos (by simp; tauto)]
  · refine gives_noticed ((execPatrolScrub_reads hrun hch hpage res).trans ?_) hc
    have : linePoison (scrubbed s ch line) line = true := hp
    unfold scrubLine
    exact congrArg finish (if_pos this)
  have hread := execPatrolScrub_reads hrun hch hpage
  have hunit : unitExists (scrubbed s ch line) (cellOf (scrubbed s ch line) line) = true :=
    by
    show unitExists s (ddrId (channelOfPage s (pageOf line)) (line % 2)) = true
    rw [hch]
    exact unitExists_ddrId ch.isLt hhas (by omega)
  have hoar : unitExists (scrubbed s ch line) (ddrId ch.val 2) = true := unitExists_ddrId ch.isLt hhas (le_refl _)
  have hcell : cellOf (scrubbed s ch line) line = cellOf s line := rfl
  have hp' : linePoison (scrubbed s ch line) line = false := hp
  have hoarId : ddrId (channelOfPage (scrubbed s ch line) (pageOf line)) 2 = ddrId ch.val 2 := congrArg (ddrId · 2) hch
  have hat : ∀ {u t : State} {f : DramChannel → DramChannel}, t.dram = u.dram →
      u.dram.channels = (onCh (channelOfPage (scrubbed s ch line) (pageOf line)) f (scrubbed s ch line)).dram.channels →
      chAt t ch.val = f { chAt s ch.val with scrubLine := line } := fun ht hu => by
    refine chAt_scrubbed hrun ?_
    rw [ht, hu]
    exact congrArg (fun n => (onCh n _ (scrubbed s ch line)).dram.channels) hch
  refine ⟨gives_noticed ((hread .ok).trans (congrArg finish (show scrubLine line .ok (scrubbed s ch line) = scrubbed s ch line by
      simp [scrubLine, hp']))) hc, ?_, fun syn hrep => ?_, fun dev => ?_,
    fun syn hrep => ?_⟩
  · obtain ⟨key, hmet, k, times, hd⟩ := correctedFree_met (typ := 8) hunit hoar hfree hc
    obtain ⟨t, ht, hcap, hdram, honly⟩ := gives_scrubError ((hread .repeatOk).trans (by simp [scrubLine, hp', hoarId])) hmet
    have hch' := hat hdram (congrArg Dram.channels hd)
    exact gives_next ht ⟨key, hcap, by rw [hch']; rfl, by rw [hch']; rfl, by rw [hdram, hd]; rfl, by rw [hdram, hd]; rfl, honly⟩
  · have hrep' : repairable (scrubbed s ch line) line = true := hrep
    have honly : OnlyChanges [.dram, .flash, .cxl] s (startRepair line (scrubbed s ch line)) :=
      startRepair_only _ _ (by decide) (onCh_only _ _ _ (by decide) (.refl _ s))
    refine gives_finish (u := startRepair line (scrubbed s ch line)) ((hread _).trans (by simp [scrubLine, hp', hrep']))
      (calm_of_onlyChanges honly (by decide) (by decide) hc) fun t hn => ?_
    have hdram : t.dram = (setPoison line true (scrubbed s ch line)).dram := (hn.only .dram (by decide)).trans (startRepair_dram line _)
    obtain ⟨ps, hps⟩ := setPoison_dram line true (scrubbed s ch line)
    have hpoison : ∀ x, linePoison t x = if x = line then true else linePoison s x := fun x => by
      rw [linePoison_of_dram (congrArg Dram.poison hdram), linePoison_setPoison]; rfl
    have hch' : chAt t ch.val = id { chAt s ch.val with scrubLine := line } := chAt_scrubbed (f := id) hrun (by
      rw [hdram, hps]; simp [onCh, State.onDram, scrubbed, listUpd_id])
    exact ⟨by rw [hpoison, if_pos rfl], by rw [hch']; rfl, by rw [hdram, hps]; rfl, fun x hx => by rw [hpoison, if_neg hx],
      hn.onlyChanges (by decide) (honly.mono (by decide))⟩
  · obtain ⟨hmet, k, times, hd⟩ := corrected_met (dev := dev.val) (typ := 8) hunit hoar hfree hc
    obtain ⟨t, ht, hcap, hdram, honly⟩ := gives_scrubError ((hread (.corrected dev)).trans (by simp [scrubLine, hp', hoarId])) hmet
    have hch' := hat hdram (congrArg Dram.channels hd)
    exact gives_next ht ⟨hcap, by rw [hch']; rfl, by rw [hch']; rfl, by rw [hdram, hd]; rfl, by rw [hdram, hd]; rfl, honly⟩
  · have hrep' : repairable (scrubbed s ch line) line = false := hrep
    obtain ⟨hmet, hd⟩ := uncorrectable_met (syn := syn) (typ := 8) hunit hoar hfree hgrace hc
    obtain ⟨t, ht, hcap, hdram, honly⟩ := gives_scrubError ((hread (.uncorrectable syn)).trans
      (by simp [scrubLine, hp', hrep', hoarId])) hmet
    obtain ⟨ps, hps⟩ := setPoison_dram line true (scrubbed s ch line)
    have hch' := hat (f := oneUncorrectable) hdram (by rw [hd]; simp [onCh, State.onDram, hps])
    have hpoison : ∀ x, linePoison t x = if x = line then true else linePoison s x := fun x => by
      rw [linePoison_uncorrectable (hdram.trans hd)]; rfl
    exact gives_next ht ⟨hcap, by rw [hpoison, if_pos rfl], fun x hx => by rw [hpoison, if_neg hx], by rw [hch']; rfl,
      by rw [hch']; rfl, by rw [hdram, hmet.bytes]; rfl, honly⟩

/-! ## Bytes written in a canonical DRAM -/

theorem tabGet_tabSet {α : Type} [DecidableEq α] {d v : α} {j k : Nat} : ∀ {t : List (Nat × α)}, tabWf d t = true →
    tabGet d j (tabSet d k v t) = if j = k then v else tabGet d j t
  | [], _ => by
    unfold tabSet
    by_cases hv : v = d
    · simp [hv, tabGet]
    · by_cases hj : j = k <;> simp [hv, tabGet, hj]
  | (k', v') :: t, hw => by
    have hw' := hw
    simp only [tabWf, Bool.and_eq_true] at hw'
    obtain ⟨⟨-, hbelow⟩, ht⟩ := hw'
    by_cases hv : v = d
    · subst hv
      have hkd : tabGet v k' t = v := tabGet_below hbelow
      have hjd : j < k' → tabGet v j t = v := fun hlt => tabGet_below (tabBelow_trans (Nat.le_of_lt hlt) hbelow)
      have ih := tabGet_tabSet (v := v) (j := j) (k := k) ht
      unfold tabSet
      simp only [if_true]
      by_cases h1 : k < k'
      · rw [if_pos h1]; split
        · subst j; simp [tabGet, h1]
        · rfl
      · rw [if_neg h1]
        by_cases h2 : k = k'
        · rw [if_pos h2]; subst h2
          split
          · subst j; exact hkd
          · rename_i hj
            by_cases hlt : j < k
            · simp [tabGet, hlt, hjd hlt]
            · simp [tabGet, hlt, hj]
        · rw [if_neg h2]
          simp only [tabGet, ih]
          by_cases hj : j = k
          · subst hj; simp [h1, h2]
          · simp [hj]
    · by_cases hj : j = k
      · subst hj; rw [if_pos rfl]; exact tabGet_tabSet_self j hv _
      · rw [if_neg hj]; exact tabGet_tabSet_ne hv hj _

/-- What DRAM reads after bytes were written from `a` on. -/
theorem readByte_writeBytes : ∀ (l : List Byte) (a : Nat) (s : State), tabWf unlisted s.dram.bytes = true → ∀ x,
    readByte (writeBytes a l s) x = if a ≤ x ∧ x < a + l.length then l.getD (x - a) 0 else readByte s x
  | [], a, s, _, x => by rw [if_neg (by simp), writeBytes]
  | b :: l, a, s, hw, x => by
    have hb : readByte (writeByte a b s) x = if x = a then b else readByte s x := tabGet_tabSet hw
    rw [writeBytes, readByte_writeBytes l (a + 1) (writeByte a b s) (tabWf_tabSet _ _ _ hw) x, hb, List.length_cons]
    by_cases hx : x = a
    · subst hx; simp
    · by_cases hin : a + 1 ≤ x ∧ x < a + 1 + l.length
      · rw [if_pos hin, if_pos (by omega), show x - a = x - (a + 1) + 1 by omega, List.getD_cons_succ]
      · rw [if_neg hin, if_neg hx, if_neg (by omega)]

/-! ## The repair (R187, R200) -/

theorem foldl_answerHeld_only (l : List PendingRead) (s : State) : OnlyChanges [.out] s (l.foldl (fun s r => answerHeld r s) s) := by
  induction l generalizing s with
  | nil => exact .refl _ s
  | cons r l ih => exact (answerHeld_only r s (by decide) (.refl _ s)).trans (ih _)

theorem release_wb (p : PendingRead → Bool) (s : State) :
    (release p s).wb = { s.wb with reads := s.wb.reads.filter fun r => !p r } :=
  foldl_answerHeld_only _ _ .wb (by decide)

theorem release_parts (p : PendingRead → Bool) (s : State) : OnlyChanges [.wb, .out] s (release p s) :=
  release_only _ _ (by decide) (.refl _ s)

/-- The reads of `line` that wait for its repair. -/
def awaitsRepair (line : Nat) (r : PendingRead) : Bool := decide (r.why = .repair ∧ r.line = line)

theorem release_repair (line : Nat) (u : State) :
    ∀ r ∈ (release (awaitsRepair line) u).wb.reads, ¬(r.why = .repair ∧ r.line = line) := by
  rw [release_wb]
  intro r hr
  have h := (List.mem_filter.mp hr).2
  simp only [awaitsRepair, Bool.not_eq_true', decide_eq_false_iff_not] at h
  exact h

theorem execLakebedRepairDone_eq {s : State} {line : Nat} {ok : Bool} (hfrozen : frozen s = false)
    (hreset : inBlockReset s (pageOf line) = false) : exec (.lakebedRepairDone line ok) s =
      finish (release (awaitsRepair line) (match repairUnit s line with
        | some u => if ok && repairable s line && linePoison s line then repairLine line u s else repairFails line ok s
        | none => repairFails line ok s)) := by
  show execLakebedRepairDone line ok s = _
  rw [execLakebedRepairDone, if_neg (by simp [hfrozen, hreset])]
  rfl

/-- What the answers after a repair leave of the state `u` before them. -/
theorem gives_release {i : Instr} {s u : State} {line : Nat} {P : State → Prop}
    (hexec : exec i s = finish (release (awaitsRepair line) u)) (hc : Calm u)
    (hp : ∀ t, t.dram = u.dram → t.fault = u.fault → t.wb.entries = u.wb.entries →
      (∀ r ∈ t.wb.reads, ¬(r.why = .repair ∧ r.line = line)) → OnlyChanges [.wb, .out, .bus] u t → P t) : Gives i s P := by
  have hrel := release_parts (awaitsRepair line) u
  refine gives_finish hexec (calm_of_onlyChanges hrel (by decide) (by decide) hc) fun t hn => ?_
  have hwb : t.wb = (release (awaitsRepair line) u).wb := hn.only .wb (by decide)
  refine hp t ((hn.only .dram (by decide)).trans (hrel .dram (by decide)))
    ((hn.only .fault (by decide)).trans (hrel .fault (by decide))) (by rw [hwb, release_wb]) (by rw [hwb]; exact release_repair line u)
    (hn.onlyChanges (by decide) (hrel.mono (by decide)))

/-- `s` with `line` rewritten from the unit `u`, one corrected error more at its channel (R187). -/
def lineRewritten (s : State) (line : Nat) (u : FlashUnit) : State :=
  { onCh (channelOfPage s (pageOf line)) (fun c => { c with ce := satInc 0xFFFFFF c.ce })
      (writeBytes (line * 64) (unitLine u line) (setPoison line (u.poison.contains (line % linesPerPage)) s)) with
    free := s.free + 1 }

theorem lineRewritten_only (s : State) (line : Nat) (u : FlashUnit) :
    OnlyChanges [.dram, .cxl, .free] s (lineRewritten s line u) :=
  free_only _ _ (by decide) (onCh_only _ _ _ (by decide) (writeBytes_only _ _ _ (by decide)
    (setPoison_only _ _ _ (by decide) (.refl _ s))))

theorem channelOfPage_of_cfg {s t : State} (h : t.cfg = s.cfg) (page : Nat) : channelOfPage t page = channelOfPage s page := by
  unfold channelOfPage; rw [h]

theorem cellOf_of_cfg {s t : State} (h : t.cfg = s.cfg) (line : Nat) : cellOf t line = cellOf s line := by
  unfold cellOf; rw [channelOfPage_of_cfg h]

theorem repairLine_eq (s : State) (line : Nat) (u : FlashUnit) : repairLine line u s =
    raise (cellOf s line) .c 0xFE (repairAccess s line).1 (repairAccess s line).2 (line * 64) (Config.freeBits 16 s.free).toNat
      (lineRewritten s line u) := by
  have hw : OnlyChanges [.dram, .cxl] s (writeBytes (line * 64) (unitLine u line)
      (setPoison line (u.poison.contains (line % linesPerPage)) s)) :=
    writeBytes_only _ _ _ (by decide) (setPoison_only _ _ _ (by decide) (.refl _ s))
  unfold repairLine lineRewritten
  generalize writeBytes (line * 64) (unitLine u line) (setPoison line (u.poison.contains (line % linesPerPage)) s) = w at hw
  have hcfg : w.cfg = s.cfg := hw .cfg (by decide)
  have hfree : w.free = s.free := hw .free (by decide)
  dsimp only
  rw [channelOfPage_of_cfg hcfg, cellOf_of_cfg (s := s) (t := onCh _ _ w) hcfg, show (onCh _ _ w).free = s.free from hfree]

theorem writeBytes_poison : ∀ (l : List Byte) (a : Nat) (s : State), (writeBytes a l s).dram.poison = s.dram.poison
  | [], _, _ => rfl
  | b :: l, a, s => writeBytes_poison l (a + 1) (writeByte a b s)

theorem readByte_counted (w : State) (n k x : Nat) (f : DramChannel → DramChannel) :
    readByte { onCh n f w with free := k } x = readByte w x := rfl

theorem linePoison_counted (w : State) (n k x : Nat) (f : DramChannel → DramChannel) :
    linePoison { onCh n f w with free := k } x = linePoison w x := rfl

theorem unitLine_getD (u : FlashUnit) (line : Nat) {k : Nat} (h : k < 64) :
    (unitLine u line).getD k 0 = tabGet 0 (line % 64 * 64 + k) u.cells := by
  simp [unitLine, List.getD_eq_getElem?_getD, List.getElem?_range h, linesPerPage]

/-- The bytes and the marker that a repair leaves. -/
theorem lineRewritten_reads {s : State} {line : Nat} {u : FlashUnit} (hw : tabWf unlisted s.dram.bytes = true) :
    (∀ k, k < 64 → readByte (lineRewritten s line u) (line * 64 + k) = tabGet 0 (line % 64 * 64 + k) u.cells) ∧
    (∀ a, a < line * 64 ∨ line * 64 + 64 ≤ a → readByte (lineRewritten s line u) a = readByte s a) ∧
    (∀ x, linePoison (lineRewritten s line u) x = if x = line then u.poison.contains (line % 64) else linePoison s x) := by
  let v := setPoison line (u.poison.contains (line % linesPerPage)) s
  obtain ⟨ps, hps⟩ := setPoison_dram line (u.poison.contains (line % linesPerPage)) s
  have hv : v.dram.bytes = s.dram.bytes := by show (setPoison _ _ s).dram.bytes = _; rw [hps]
  have hread := readByte_writeBytes (unitLine u line) (line * 64) v (by rw [hv]; exact hw)
  have hlen : (unitLine u line).length = 64 := by simp [unitLine]
  rw [hlen] at hread
  refine ⟨fun k hk => ?_, fun a ha => ?_, fun x => ?_⟩
  · rw [lineRewritten, readByte_counted, hread, if_pos (by omega), Nat.add_sub_cancel_left, unitLine_getD u line hk]
  · rw [lineRewritten, readByte_counted, hread, if_neg (by omega)]
    unfold readByte; rw [hv]
  · rw [lineRewritten, linePoison_counted, linePoison_of_dram (writeBytes_poison _ _ _), linePoison_setPoison]
    rfl

theorem repairSucceeds (s : State) (line : Nat) (u : FlashUnit) (hfrozen : frozen s = false)
    (hreset : inBlockReset s (pageOf line) = false) (hu : repairUnit s line = some u) (hrep : repairable s line = true)
    (hp : linePoison s line = true) (hclean : u.poison.contains (line % 64) = false) (hw : tabWf unlisted s.dram.bytes = true)
    (hunit : unitExists s (cellOf s line) = true) (hreq : unitExists s (repairAccess s line).2 = true)
    (hfree : (capture s (cellOf s line)).sticky = false) (hc : Calm s) :
    Gives (.lakebedRepairDone line true) s fun t =>
      (∀ k, k < 64 → readByte t (line * 64 + k) = tabGet 0 (line % 64 * 64 + k) u.cells) ∧
      (∀ a, a < line * 64 ∨ line * 64 + 64 ≤ a → readByte t a = readByte s a) ∧ linePoison t line = false ∧
      (∀ x, x ≠ line → linePoison t x = linePoison s x) ∧
      (capture t (cellOf s line)).cls = some .c ∧ (capture t (cellOf s line)).key = 0xFE ∧
      (∀ r ∈ t.wb.reads, ¬(r.why = .repair ∧ r.line = line)) ∧ t.wb.entries = s.wb.entries ∧
      OnlyChanges [.dram, .wb, .fault, .free, .wl, .cxl, .host, .out, .bus] s t := by
  let v := lineRewritten s line u
  have hv : OnlyChanges [.dram, .cxl, .free] s v := lineRewritten_only s line u
  have hcfg : v.cfg = s.cfg := hv .cfg (by decide)
  have hfault : v.fault = s.fault := hv .fault (by decide)
  have hex : ∀ x, unitExists v x = unitExists s x := fun x => by unfold unitExists; rw [hcfg]
  have hcell : cellOf v line = cellOf s line := cellOf_of_cfg hcfg line
  obtain ⟨hmet, hdram⟩ := raise_cellC (s := v) (v := v) (line := line) (addr := line * 64)
    (detail := (Config.freeBits 16 s.free).toNat) (k := 0xFE) (typ := (repairAccess s line).1) (req := (repairAccess s line).2)
    (by rw [hcell, hex, hunit]) (by rw [hex, hreq]) (by rw [hcell, capture_of_fault hfault, hfree])
    (calm_of_onlyChanges hv (by decide) (by decide) hc) (.refl _ v) rfl rfl
  rw [hcell, ← repairLine_eq] at hdram hmet
  have hexec : exec (.lakebedRepairDone line true) s = finish (release (awaitsRepair line) (repairLine line u s)) := by
    rw [execLakebedRepairDone_eq hfrozen hreset, hu]
    simp [hrep, hp]
  obtain ⟨hline, hothers, hmark⟩ := lineRewritten_reads (line := line) (u := u) hw
  refine gives_release hexec hmet.calm fun t htd htf hte htr honly => ?_
  have hd : t.dram = v.dram := htd.trans hdram
  have hbytes : ∀ a, readByte t a = readByte v a := fun a => by unfold readByte; rw [hd]
  have hmark' : ∀ x, linePoison t x = _ := fun x => (linePoison_of_dram (congrArg Dram.poison hd) x).trans (hmark x)
  have hcap : Captured v t (cellOf v line) .c 0xFE (repairAccess s line).2 := captured_of_fault hmet.captured htf
  obtain ⟨-, hcls, hkey, -⟩ := hcap
  rw [hcell] at hcls hkey
  have hwb : (repairLine line u s).wb = s.wb := (hmet.only .wb (by decide)).trans (hv .wb (by decide))
  exact ⟨fun k hk => (hbytes _).trans (hline k hk), fun a ha => (hbytes a).trans (hothers a ha), by rw [hmark', if_pos rfl, hclean],
    fun x hx => by rw [hmark', if_neg hx], hcls, hkey, htr, by rw [hte, hwb],
    (hv.mono (by decide)).trans ((hmet.only.mono (by decide)).trans (honly.mono (by decide)))⟩

theorem repairRewritesLine : RepairRewritesLine := by
  refine ⟨fun s line u hfrozen hreset hu hrep hp _ hclean hw hunit hreq hfree hc =>
    repairSucceeds s line u hfrozen hreset hu hrep hp hclean hw hunit hreq hfree hc,
    fun s line hfrozen hreset hp => ⟨fun hunit hreq hfree hgrace hc => ?_, fun hrep hc => ?_⟩, fun s id r hfrozen hr hc => ?_⟩
  · let w : State := { s with free := s.free + 1 }
    have hexec : exec (.lakebedRepairDone line false) s = finish (release (awaitsRepair line)
        (uncorrectable line (Config.freeBits 16 s.free) (repairAccess s line).1 (repairAccess s line).2 w)) := by
      rw [execLakebedRepairDone_eq hfrozen hreset]
      cases repairUnit s line <;> simp [repairFails, hp, w]
    obtain ⟨hmet, hd⟩ := uncorrectable_met (s := w) (line := line) (syn := Config.freeBits 16 s.free)
      (typ := (repairAccess s line).1) (req := (repairAccess s line).2) hunit hreq hfree hgrace hc
    refine gives_release hexec hmet.calm fun t htd htf hte htr honly => ?_
    obtain ⟨-, hcls, hkey, -⟩ := captured_of_fault hmet.captured htf
    have hw : OnlyChanges [.free] s w := free_only _ _ (by decide) (.refl _ s)
    exact ⟨hcls, hkey, by rw [linePoison_uncorrectable (htd.trans hd), if_pos rfl], htr, by rw [htd, hmet.bytes],
      (hw.mono (by decide)).trans ((hmet.only.mono (by decide)).trans (honly.mono (by decide)))⟩
  · have hexec : exec (.lakebedRepairDone line true) s = finish (release (awaitsRepair line) s) := by
      rw [execLakebedRepairDone_eq hfrozen hreset]
      cases repairUnit s line <;> simp [repairFails, hrep]
    exact gives_release hexec hc fun t htd _ hte htr honly => ⟨htd, htr, hte, honly⟩
  · let u := answerPoison r.head id (s.onWb fun w => { w with reads := w.reads.filter (· ≠ r) })
    have honly : OnlyChanges [.free, .wb, .out] s u :=
      answerPoison_only _ _ _ (by decide) (State.onWb_only _ _ (by decide) (.refl _ s))
    refine gives_finish (u := u) ?_ (calm_of_onlyChanges honly (by decide) (by decide) hc) fun t hn => ?_
    · show execRepairReadTimeout id s = _
      rw [execRepairReadTimeout, if_neg (by simp [hfrozen]), hr]
    · have hout : t.out = u.out := hn.only .out (by decide)
      have hwb : t.wb = u.wb := hn.only .wb (by decide)
      exact ⟨⟨_, by rw [hout]; rfl⟩, hwb, hn.onlyChanges (by decide) (honly.mono (by decide))⟩

/-- Settles O26: by the decode of the line that each command reads. -/
theorem linesAreRepairedOrMarked : Obligations.LinesAreRepairedOrMarked :=
  ⟨repairRewritesLine, scrubMarksUncorrectableLines, hostReadMeetsErrors⟩

end Sys2Proof.Machine
end

section
/-! PROOFS. The duties of a DDR channel (R188, R190), its training (R183, R189, R197), what leaves it alone, and O27. -/

namespace Sys2Proof.Machine
open Sys2Proof

theorem length_onCh (n : Nat) (f : DramChannel → DramChannel) (s : State) :
    (onCh n f s).dram.channels.length = s.dram.channels.length := length_listUpd f n _

theorem listUpd_congr {α : Type} {f g : α → α} : ∀ {n : Nat} {l : List α}, (∀ x, l[n]? = some x → f x = g x) →
    listUpd n f l = listUpd n g l
  | _, [], _ => by simp [listUpd]
  | 0, x :: t, h => by simp [listUpd, h x rfl]
  | n + 1, x :: t, h => by simp only [listUpd]; rw [listUpd_congr fun y hy => h y (by simpa using hy)]

/-- Channel `n` alone matters to what changes it. -/
theorem onCh_congr {n : Nat} {f g : DramChannel → DramChannel} {s : State} (h : f (chAt s n) = g (chAt s n)) :
    onCh n f s = onCh n g s := by
  have hl : listUpd n f s.dram.channels = listUpd n g s.dram.channels := listUpd_congr fun x hx => by
    have : chAt s n = x := by simp [chAt, hx]
    rw [← this]; exact h
  simp only [onCh, State.onDram, hl]

/-! ## Duties (R188, R190) -/

theorem refreshTick_issues (s : State) (ch : Fin 8) (hactive : (chAt s ch.val).state = .active) (hfrozen : frozen s = false) :
    Gives (.refreshTick ch) s fun t =>
      (chAt t ch.val = { chAt s ch.val with refreshes := (chAt s ch.val).refreshes + (chAt s ch.val).postponed + 1,
                                            postponed := 0, managed := (chAt s ch.val).managed + managedNow s ch.val } ∨
        burstsOn s ch.val = true ∧ (chAt s ch.val).postponed < 4 ∧
          chAt t ch.val = { chAt s ch.val with postponed := (chAt s ch.val).postponed + 1,
                                               managed := (chAt s ch.val).managed + managedNow s ch.val }) ∧
      (s.cfg.refreshManagement = false ∨ oarRuns s ch.val = false → (chAt t ch.val).managed = (chAt s ch.val).managed) ∧
      (∀ n, n ≠ ch.val → chAt t n = chAt s n) ∧ t.dram.bytes = s.dram.bytes ∧ OnlyChanges [.dram, .free] s t := by
  have hlen : ch.val < s.dram.channels.length := channel_listed (by rw [hactive]; decide)
  let v : State := { s with free := s.free + 2 }
  have hnow : s.cfg.refreshManagement = false ∨ oarRuns s ch.val = false → managedNow s ch.val = 0 := fun h => by
    rcases h with h | h <;> simp [managedNow, h]
  have honly : ∀ f, OnlyChanges [.dram, .free] s (onCh ch.val f v) := fun f =>
    onCh_only _ _ _ (by decide) (free_only _ _ (by decide) (.refl _ s))
  have hexec : exec (.refreshTick ch) s = execRefreshTick ch s := rfl
  rw [execRefreshTick, if_neg (by simp [hactive, hfrozen])] at hexec
  have hat := fun f => chAt_onCh (s := v) (n := ch.val) f hlen
  by_cases hwait : (burstsOn s ch.val && decide ((chAt s ch.val).postponed < 4) && decide (Config.freeNat s.free % 2 = 1)) = true
  · simp only [hwait, if_true] at hexec
    refine gives_next hexec ⟨.inr ?_, fun h => ?_, fun n hn => chAt_onCh_ne _ v hn, rfl, honly _⟩
    · simp only [Bool.and_eq_true, decide_eq_true_eq] at hwait
      exact ⟨hwait.1.1, hwait.1.2, hat _⟩
    · rw [hat, hnow h]; rfl
  · simp only [hwait] at hexec
    refine gives_next hexec ⟨.inl (hat _), fun h => ?_, fun n hn => chAt_onCh_ne _ v hn, rfl, honly _⟩
    rw [hat, hnow h]; rfl

theorem channelDutiesRun : ChannelDutiesRun := by
  refine ⟨refreshTick_issues, fun s ch hrun => ⟨?_, ?_⟩, fun s ch x hrun hc => ⟨fun h => ?_, fun hx hdue => ?_⟩⟩
  · show execZqCalibration ch s = _
    rw [execZqCalibration, if_pos hrun]
  · show execDqsTracking ch s = _
    rw [execDqsTracking, if_pos hrun]
  · show execDramTemperatureRead ch x s = _
    have hnot : (decide (95 < x) && hotDue s ch.val) = false := by
      rcases h with h | h
      · simp; omega
      · simp [h]
    simp [execDramTemperatureRead, hrun, hnot]
  · let v := onCh ch.val (fun c => { c with devTempC := x, hot := true, hotRecord := some s.tb.now }) s
    obtain ⟨t, ht, hr⟩ := finish_reported (s := v) hc (record_reported 0x0C01 5 (ddrId ch.val 0) 0 v)
    refine gives_next (t := t) ?_ hr
    rw [← ht]
    show execDramTemperatureRead ch x s = _
    simp [execDramTemperatureRead, hrun, hx, hdue, show (85 : Int) < x by omega, v]

/-! ## Training (R189, R197) -/

/-- The commits of a training move a sound ledger and the channel alone. -/
theorem commitOp_trainingRecord {s : State} (ch : Fin 8) (hled : s.ledger.failed = false) : ∃ l f, l.failed = false ∧
    commitOp (.trainingRecord ch) s = onCh ch.val f (s.onLedger fun _ => l) ∧ ∀ c, (f c).state = c.state ∧
      (f c).training = c.training ∧ (f c).named = c.named ∧ (f c).recordValid = true ∧ (f c).recordPop = s.cfg.population ∧
      (f c).recordStale = false ∧ (f c).recordTempC = s.cxl.tempC := by
  unfold commitOp
  rw [commit_sound rfl hled]
  refine ⟨_, _, ?_, rfl, fun c => ⟨rfl, rfl, rfl, rfl, rfl, rfl, rfl⟩⟩
  exact hled

theorem commitOp_channelRejoined {s : State} (ch : Fin 8) (hled : s.ledger.failed = false) : ∃ l,
    commitOp (.channelRejoined ch) s = onCh ch.val (fun c => { c with named := false }) (s.onLedger fun _ => l) := by
  unfold commitOp
  rw [commit_sound rfl hled]
  exact ⟨_, rfl⟩

theorem chAt_onLedger (f : Ledger → Ledger) (s : State) (n : Nat) : chAt (s.onLedger f) n = chAt s n := rfl

/-- A full training that passed (R189, R197). -/
theorem fullPass_leaves {s : State} {ch : Fin 8} (hlen : ch.val < s.dram.channels.length) (hled : s.ledger.failed = false) :
    let t := fullPass ch.val s
    (chAt t ch.val).state = .active ∧ (chAt t ch.val).training = .full ∧ (chAt t ch.val).named = false ∧
      (chAt t ch.val).recordValid = true ∧ (chAt t ch.val).recordPop = s.cfg.population ∧
      (chAt t ch.val).recordStale = false ∧ (chAt t ch.val).recordTempC = s.cxl.tempC ∧
      (∀ n, n ≠ ch.val → chAt t n = chAt s n) ∧ OnlyChanges [.dram, .ledger] s t := by
  let a := onCh ch.val (fun c => trainedWith .full c s.upd.active (dramWindows ch.val)) s
  obtain ⟨l, f, hl, hrec, hf⟩ := commitOp_trainingRecord (s := a) ch hled
  let b := commitOp (.trainingRecord ch) a
  have hb : b = onCh ch.val f (a.onLedger fun _ => l) := hrec
  have hch : Fin.ofNat 8 ch.val = ch := Fin.ext (Nat.mod_eq_of_lt ch.isLt)
  have heq : fullPass ch.val s = if (chAt s ch.val).named then commitOp (.channelRejoined ch) b else b := by
    unfold fullPass; rw [hch]
  have hat : chAt b ch.val = f (trainedWith .full (chAt s ch.val) s.upd.active (dramWindows ch.val)) := by
    rw [hb, chAt_onCh _ (by rw [State.onLedger_dram, length_onCh]; exact hlen), chAt_onLedger, chAt_onCh _ hlen]
  have hother : ∀ n, n ≠ ch.val → chAt b n = chAt s n := fun n hn => by
    rw [hb, chAt_onCh_ne _ _ hn, chAt_onLedger, chAt_onCh_ne _ _ hn]
  have honly : OnlyChanges [.dram, .ledger] s b := by
    rw [hb]
    exact onCh_only _ _ _ (by decide) (State.onLedger_only _ _ (by decide) (onCh_only _ _ _ (by decide) (.refl _ s)))
  obtain ⟨hst, htr, hnm, hrv, hrp, hrs, hrt⟩ := hf (trainedWith .full (chAt s ch.val) s.upd.active (dramWindows ch.val))
  dsimp only
  rw [heq]
  split
  case isTrue =>
    have hbl : b.ledger.failed = false := by rw [hb]; exact hl
    obtain ⟨l', hrej⟩ := commitOp_channelRejoined (s := b) ch hbl
    have hlen' : ch.val < (b.onLedger fun _ => l').dram.channels.length := by
      rw [State.onLedger_dram, hb, length_onCh, State.onLedger_dram, length_onCh]; exact hlen
    rw [hrej, chAt_onCh _ hlen', chAt_onLedger, hat]
    exact ⟨hst, htr, rfl, hrv, hrp, hrs, hrt, fun n hn => by rw [chAt_onCh_ne _ _ hn, chAt_onLedger, hother n hn],
      onCh_only _ _ _ (by decide) (State.onLedger_only _ _ (by decide) honly)⟩
  case isFalse hnamed =>
    rw [hat]
    exact ⟨hst, htr, hnm.trans (Bool.eq_false_of_not_eq_true hnamed), hrv, hrp, hrs, hrt, hother, honly⟩

theorem trainingMakesChannelActive : TrainingMakesChannelActive := by
  intro s ch htraining hfrozen hled hc
  have hlen : ch.val < s.dram.channels.length := channel_listed (by rw [htraining]; decide)
  have hfull : ∀ pass, exec (.trainingDone ch false pass) s =
      finish (if pass && decide (s.cfg.populationOf ch.val = s.cfg.population) then fullPass ch.val s else fullFail ch.val s) :=
    fun pass => by
      show execTrainingDone ch false pass s = _
      rw [execTrainingDone]
      simp [htraining, hfrozen]
  have hfails : ∀ {pass}, pass = false ∨ s.cfg.populationOf ch.val ≠ s.cfg.population →
      exec (.trainingDone ch false pass) s = finish (fullFail ch.val s) := fun {pass} h => by
    rw [hfull, if_neg (by rcases h with h | h <;> simp [h])]
  refine ⟨fun hstored => ⟨fun hpop => ?_, fun pass h => ?_⟩, fun hpop => ?_, fun pass h => ⟨fun h0 => ?_, fun h0 => ?_⟩⟩
  · show execTrainingDone ch true true s = _
    rw [execTrainingDone]
    simp [htraining, hfrozen, hstored, hpop, trainedWith]
  · show execTrainingDone ch true pass s = _
    have hpass : (pass && decide (s.cfg.populationOf ch.val = s.cfg.population)) = false := by
      rcases h with h | h <;> simp [h]
    rw [execTrainingDone]
    simp [htraining, hfrozen, hstored, hpass]
  · obtain ⟨hst, htr, hnm, hrv, hrp, hrs, hrt, hother, honly⟩ := fullPass_leaves hlen hled
    refine gives_finish (u := fullPass ch.val s) ?_ (calm_of_onlyChanges honly (by decide) (by decide) hc) fun t hn => ?_
    · rw [hfull, if_pos (by simp [hpop])]
    · have hat : ∀ n, chAt t n = chAt (fullPass ch.val s) n := chAt_of_dram (congrArg Dram.channels (hn.only .dram (by decide)))
      rw [hat]
      exact ⟨hst, htr, hnm, hrv, hrp, hrs, hrt, fun n hne => (hat n).trans (hother n hne), hn.onlyChanges (by decide) (honly.mono (by decide))⟩
  · refine gives_noticed ((hfails h).trans (congrArg finish ?_)) hc
    exact onCh_congr (if_pos h0)
  · refine gives_noticed ((hfails h).trans (congrArg finish ?_)) hc
    exact onCh_congr (if_neg h0)

/-! ## What leaves a channel alone -/

theorem channelsLeftAlone : ChannelsLeftAlone := by
  intro s ch sub crew cause kind n x a b
  refine ⟨fun h => ⟨?_, ?_⟩, fun h => ?_, fun h => ?_, fun h hout => ?_, fun h => ?_, fun h => ⟨?_, ?_, ?_⟩, fun h => ?_,
    fun h => ⟨?_, ?_⟩⟩
  · show execBlockReset ch cause s = _
    simp [execBlockReset, h]
  · show execDdrAlert ch sub kind n s = _
    simp [execDdrAlert, h]
  · show execDramOarReload crew ch s = _
    rw [execDramOarReload, if_pos (by rcases h with h | h <;> simp [h])]
  · show execBlockResetDone ch n a s = _
    rw [execBlockResetDone, if_pos h]
  · show execChannelIsolated ch s = _
    simp [execChannelIsolated, h, hout]
  · show execRefreshTick ch s = _
    rw [execRefreshTick, if_pos h]
  · show execZqCalibration ch s = _
    simp [execZqCalibration, h]
  · show execDqsTracking ch s = _
    simp [execDqsTracking, h]
  · show execDramTemperatureRead ch x s = _
    simp [execDramTemperatureRead, h]
  · show execTrainingDone ch a b s = _
    exact if_pos (by rcases h with h | h | ⟨ha, hu⟩ <;> simp [*])
  · show execLakebedRepairDone n a s = _
    simp [execLakebedRepairDone, h]
  · show execRepairReadTimeout n s = _
    simp [execRepairReadTimeout, h]

/-- Settles O27: each duty of a channel by the lemma about its command. -/
theorem channelsTrainAndKeepTheirDuties : Obligations.ChannelsTrainAndKeepTheirDuties :=
  ⟨channelDutiesRun, trainingMakesChannelActive, channelsLeftAlone⟩

end Sys2Proof.Machine
end

section
/-! PROOFS. O28 fails at a program that fails (R218, R219): a die that has three failures in a row already, no channel reset
behind them, is retired with the fourth, which the Waterline records. -/

namespace Sys2Proof.Machine
open Sys2Proof

/-- `s` once the job `x` has left the queue of its die (R208, R209). -/
def jobEnded (ch : Fin 32) (die : Fin 8) (x : Nat × FlashJob × List FlashJob × Bool) (s : State) : State :=
  (onFl ch.val (fun c => startNext s.lake.gcUrgent die.val { c with jobs := resumeDie die.val (x.2.2.1.eraseIdx x.1) }) s).onFlash
    fun f => { f with forced := if x.2.2.2 then f.forced + 1 else f.forced }

theorem execFlashOpComplete_eq {s : State} {ch : Fin 32} {die : Fin 8} {x : Nat × FlashJob × List FlashJob × Bool}
    (res : FlashRes) (hfrozen : frozen s = false) (hactive : (flAt s ch.val).state = .active)
    (hx : finishing s.lake.gcUrgent die.val (flAt s ch.val) = some x) :
    exec (.flashOpComplete ch die res) s = finish (opDone (8 * ch.val + die.val) x.2.1 res (jobEnded ch die x s)) := by
  show execFlashOpComplete ch die res s = _
  simp [execFlashOpComplete, hfrozen, hactive, hx, jobEnded]

/-- A drain that die 0 of channel 0 programs, into unit 0 of segment 0. -/
def drainJob : FlashJob := { die := 0, op := .drain 0 0 0 false, started := true }

/-- That drain under way on a die with three failures in a row. -/
def thriceFailedDie : State :=
  { State.reset with
    flash := { State.reset.flash with channels := [{ state := .active, jobs := [drainJob] }], dies := [(0, { fails := 3 })] } }

/-- Refutes O28: the failure retires the die, and the Waterline takes a record. -/
theorem not_flashOperationsRunInQueues : ¬ Obligations.FlashOperationsRunInQueues := by
  rintro ⟨-, -, hends⟩
  have hx : finishing thriceFailedDie.lake.gcUrgent (0 : Fin 8).val (flAt thriceFailedDie (0 : Fin 32).val) =
      some (0, drainJob, [drainJob], false) := by decide
  obtain ⟨-, -, -, -, -, hfail⟩ := hends thriceFailedDie 0 0 rfl rfl ⟨rfl, rfl⟩ _ hx
  obtain ⟨t, ht, -, -, -, -, -, -, honly⟩ := hfail 0 0 0 false rfl rfl (by decide)
  obtain ⟨u, hu, hn⟩ := finish_noticed (s := opDone 0 drainJob .fail (jobEnded 0 0 (0, drainJob, [drainJob], false) thriceFailedDie))
    ⟨by decide +kernel, by decide +kernel⟩
  obtain rfl : u = t := Host.Outcome.next.inj (hu.symm.trans ((execFlashOpComplete_eq .fail rfl rfl hx).symm.trans ht))
  have hkept : u.wl = thriceFailedDie.wl := honly .wl (by decide)
  have hwl : u.wl = _ := hn.only .wl (by decide)
  exact absurd (congrArg Waterline.nextSeq (hwl.symm.trans hkept)) (by decide +kernel)

end Sys2Proof.Machine
end

section
/-! PROOFS. O30: the reset of a flash unit and its end (R219, R222, R224, R256, R259, R268). -/

namespace Sys2Proof.Machine
open Sys2Proof

/-! ## Flash channels -/

theorem flAt_of_channels {s t : State} (h : t.flash.channels = s.flash.channels) (n : Nat) : flAt t n = flAt s n := by
  unfold flAt; rw [h]

theorem flAt_onFl {n : Nat} (f : FlashChannel → FlashChannel) {s : State} (h : n < s.flash.channels.length) :
    flAt (onFl n f s) n = f (flAt s n) := by
  simp [flAt, onFl, State.onFlash, getElem?_listUpd, h]

theorem flAt_onFl_ne {n k : Nat} (f : FlashChannel → FlashChannel) (s : State) (h : k ≠ n) : flAt (onFl n f s) k = flAt s k := by
  simp [flAt, onFl, State.onFlash, getElem?_listUpd, h]

/-- A channel that the state lists, as its state shows. -/
theorem flash_listed {s : State} {n : Nat} (h : (flAt s n).state ≠ .notPresent) : n < s.flash.channels.length := by
  by_contra hn
  exact h (by simp [flAt, List.getElem?_eq_none (Nat.le_of_not_lt hn)])

/-- Channels `k` to `k + 3`, each changed by `f` (R224: an LDPC engine serves four). -/
def onFour (k : Nat) (f : FlashChannel → FlashChannel) (s : State) : State :=
  (List.range 4).foldl (fun s j => onFl (k + j) f s) s

theorem onFour_only (k : Nat) (f : FlashChannel → FlashChannel) (s : State) : OnlyChanges [.flash] s (onFour k f s) :=
  only_foldl (fun _ _ h => onFl_only _ _ _ (by decide) h) _ _ (.refl _ s)

theorem flAt_onFour_ne {eng n : Nat} (f : FlashChannel → FlashChannel) (s : State) (h : n / 4 ≠ eng) :
    flAt (onFour (4 * eng) f s) n = flAt s n := by
  simp only [onFour, List.range, List.range.loop, List.foldl]
  rw [flAt_onFl_ne _ _ (by omega), flAt_onFl_ne _ _ (by omega), flAt_onFl_ne _ _ (by omega), flAt_onFl_ne _ _ (by omega)]

theorem flAt_onFour {eng n : Nat} (f : FlashChannel → FlashChannel) {s : State} (h : n / 4 = eng)
    (hn : n < s.flash.channels.length) : flAt (onFour (4 * eng) f s) n = f (flAt s n) := by
  obtain ⟨j, hj, rfl⟩ : ∃ j, j < 4 ∧ n = 4 * eng + j := ⟨n % 4, Nat.mod_lt _ (by decide), by omega⟩
  have h0 : 4 * eng < s.flash.channels.length := by omega
  interval_cases j <;> simp [onFour, List.range, List.range.loop, flAt, onFl, State.onFlash, getElem?_listUpd, hn, h0]

theorem onFour_unlisted {eng n : Nat} (f : FlashChannel → FlashChannel) {s : State} (hn : s.flash.channels.length ≤ n) :
    flAt (onFour (4 * eng) f s) n = {} := by
  simp [onFour, List.range, List.range.loop, flAt, onFl, State.onFlash, getElem?_listUpd, List.getElem?_eq_none hn]

/-! ## The first F fault of a flash unit (R224, R256, R260) -/

theorem flsId_toNat {n : Nat} (h : n < 64) : (flsId n 0).toNat = 0x3000 + 64 * n := by
  rw [flsId, BitVec.toNat_ofNat]; omega

/-- The first F fault of a unit whose reaction is no chip fatal: its capture, its record, then its reaction. -/
theorem raise_firstF {m req : MasterId} {key : BitVec 8} {typ : Fin 16} {addr detail : Nat} {s : State}
    (hunit : unitExists s m = true) (hreq : unitExists s req = true) (hfree : (capture s m).sticky = false)
    (hfatal : fatalUnit m = false) (hregion : m.toNat ≠ 0x3A80) (hddr : ddrChannelOf m = none) :
    ∃ u, Captured s u m .f key req ∧ OnlyChanges [.fault, .free, .wl, .cxl, .host, .out, .bus] s u ∧
      u.fault.shadows = s.fault.shadows ∧ u.fault.chipFatal = s.fault.chipFatal ∧ (Calm s → Calm u) ∧
      raise m .f key typ req addr detail s = react m u := by
  let f : FaultIn := ⟨m, .f, key, BitVec.ofNat 16 detail, typ, req, BitVec.ofNat 64 addr, false, .other⟩
  let v := firstCaptured f s
  let w := reportU m v
  have hw : OnlyChanges [.host] v w := by
    show OnlyChanges _ v (reportU m v)
    unfold reportU; split <;> exact State.onHost_only _ _ (by decide) (.refl _ v)
  have hrep := record_reported 0x0200 5 m (faultId v m).toNat w
  have hwfault : w.fault = v.fault := hw .fault (by decide)
  have hfault : (record 0x0200 5 m (faultId v m).toNat w).fault = v.fault := (hrep.only .fault (by decide)).trans hwfault
  refine ⟨record 0x0200 5 m (faultId v m).toNat w, captured_of_fault (firstCaptured_captured f s) hfault, ?_, ?_, ?_, ?_, ?_⟩
  · exact hrep.onlyChanges (by decide) ((firstCaptured_only f s).mono (by decide) |>.trans (hw.mono (by decide)))
  · rw [hfault]; rfl
  · rw [hfault]; rfl
  · intro hc
    exact hrep.calm (calm_of_eq (firstCaptured_calm f hc) (hw .log (by decide)) hwfault)
  · have hnow : fatalNow v m = false := by simp [fatalNow, hfatal, hregion, hddr]
    unfold raise
    rw [reportFault_first (f := f) hunit hreq hfree]
    show actF m v = _
    rw [actF, if_neg (by simp [hnow])]

theorem unitExists_of_cfg {s t : State} (h : t.cfg = s.cfg) (m : MasterId) : unitExists t m = unitExists s m := by
  unfold unitExists; rw [h]

theorem resetRunning_of_shadows {s t : State} (h : t.fault.shadows = s.fault.shadows) (m : MasterId) :
    resetRunning t m = resetRunning s m := by
  unfold resetRunning; rw [h]

theorem frozen_of_frz {s t : State} (h : t.frz = s.frz) : frozen t = frozen s := by
  unfold frozen; rw [h]

/-- The first F fault of a flash unit, where its reaction is the change `g` of the flash under the unit's shadow. -/
theorem gives_flashReset {i : Instr} {s v : State} {m : MasterId} {key : BitVec 8} {g : State → State}
    (hexec : exec i s = finish (raise m .f key 0xF m 0 0 v)) (hv : OnlyChanges [.free] s v) (hfree : FlashFaultFree s m)
    (hfatal : fatalUnit m = false) (hregion : m.toNat ≠ 0x3A80) (hddr : ddrChannelOf m = none)
    (hreact : ∀ u, u.flash = s.flash → u.tb = s.tb → reactNow m u = shadowOn m (faultId u m) (g u))
    (hg : ∀ u, OnlyChanges [.flash] u (g u)) :
    Gives i s fun t => FlashReset s m key t ∧ ∃ u, u.flash = s.flash ∧ t.flash = (g u).flash := by
  obtain ⟨hunit, hsticky, hfrozen, hreset, hc⟩ := hfree
  have hvfault : v.fault = s.fault := hv .fault (by decide)
  have hexists : unitExists v m = true := (unitExists_of_cfg (hv .cfg (by decide)) m).trans hunit
  obtain ⟨u, hcap, honly, hshadows, hchip, hcalm, hraise⟩ := raise_firstF (key := key) (typ := 0xF) (addr := 0) (detail := 0)
    hexists hexists ((congrArg Capture.sticky (capture_of_fault hvfault m)).trans hsticky) hfatal hregion hddr
  have hall : OnlyChanges [.fault, .free, .wl, .cxl, .host, .out, .bus] s u := (hv.mono (by decide)).trans honly
  have hr : react m u = shadowOn m (faultId u m) (g u) := by
    have hfz : frozen u = false := (frozen_of_frz (hall .frz (by decide))).trans hfrozen
    have hrun : resetRunning u m = false :=
      (resetRunning_of_shadows (hshadows.trans (congrArg Faults.shadows hvfault)) m).trans hreset
    rw [react, if_neg (by simp [hfz, hrun])]
    exact hreact u (hall .flash (by decide)) (hall .tb (by decide))
  have hgfault : (g u).fault = u.fault := hg u .fault (by decide)
  have hcu : Calm u := hcalm (calm_of_eq hc (hv .log (by decide)) hvfault)
  have hcs : Calm (shadowOn m (faultId u m) (g u)) := by
    obtain ⟨h1, h2⟩ := calm_of_eq hcu (hg u .log (by decide)) hgfault
    exact ⟨h1, h2⟩
  refine gives_finish (hexec.trans (congrArg finish (hraise.trans hr))) hcs fun t hn => ?_
  have hf : t.fault = (shadowOn m (faultId u m) (g u)).fault := hn.only .fault (by decide)
  have hcapt : ∀ x, capture t x = capture u x := fun x => by
    rw [capture_of_fault hf]; exact capture_of_fault hgfault x
  refine ⟨⟨?_, ?_, ?_, ?_⟩, u, hall .flash (by decide), hn.only .flash (by decide)⟩
  · have hcs' := captured_from hcap hvfault (hv .tb (by decide))
    unfold Captured at *
    simp only [hcapt]
    exact hcs'
  · rw [hf]
    exact ⟨_, List.mem_cons_self, rfl, rfl⟩
  · rw [hf]
    show (g u).fault.chipFatal = _
    rw [hgfault, hchip, hvfault]
  · exact hn.onlyChanges (by decide) (shadowOn_only _ _ _ (by decide) (((hall.mono (by decide)).trans ((hg u).mono (by decide)))))

/-! ## The reactions of the flash units (R224, R265) -/

/-- Channel `c` in the reset that starts at `now`, after those that started at `times`. -/
def resetChannel (now : Nat) (times : List Nat) (c : FlashChannel) : FlashChannel :=
  { c with state := .reset, resetTimes := now :: times, oarSlot := none
           jobs := c.jobs.map fun j => { j with started := false, suspended := false } }

/-- A channel whose jobs are all to be issued again. -/
def reissued (c : FlashChannel) : FlashChannel := { c with jobs := c.jobs.map fun j => { j with started := false } }

/-- A fault of LDPC engine `eng` noted with its time. -/
def ldpcFaulted (eng : Nat) (s : State) : State :=
  s.onFlash fun f => { f with ldpcTimes := (eng, s.tb.now) :: f.ldpcTimes.filter fun t => s.tb.now < t.2 + tenS }

/-- A fault of XTS engine `eng` noted with its time. -/
def xtsFaulted (eng : Nat) (s : State) : State :=
  s.onFlash fun f => { f with xtsTimes := (eng, s.tb.now) :: f.xtsTimes.filter fun t => s.tb.now < t.2 + tenS }

/-- What makes a flash unit below the region one whose first F fault starts its own reset. -/
theorem flsId_ordinary {n : Nat} (h : n < 42) :
    fatalUnit (flsId n 0) = false ∧ (flsId n 0).toNat ≠ 0x3A80 ∧ ddrChannelOf (flsId n 0) = none :=
  (by decide : ∀ k : Fin 42, fatalUnit (flsId k.val 0) = false ∧ (flsId k.val 0).toNat ≠ 0x3A80 ∧
    ddrChannelOf (flsId k.val 0) = none) ⟨n, h⟩

/-- The reaction of a flash unit below the region, by its block. -/
theorem reactNow_flash {n : Nat} (h : n < 42) (s : State) : reactNow (flsId n 0) s =
    if n < 32 then resetFlashChannel n (faultId s (flsId n 0)) s
    else if n < 40 then resetLdpc (n - 32) (faultId s (flsId n 0)) s
    else resetXts (n - 40) (faultId s (flsId n 0)) s := by
  have hm := flsId_toNat (n := n) (by omega)
  obtain ⟨hfatal, -, -⟩ := flsId_ordinary h
  have hblock : (12288 + 64 * n) / 64 % 64 = n := by omega
  unfold reactNow
  simp only [hfatal, hm, hblock, Bool.false_eq_true, if_false]
  rw [if_neg (by omega), if_neg (by omega), if_neg (by omega), if_neg (by omega), if_pos (by omega)]
  split
  · rfl
  · split
    · rfl
    · rfl

theorem resetFlashChannel_first {n : Nat} {parent : BitVec 32} {s : State} (hactive : (flAt s n).state = .active)
    (hfew : (recent s (flAt s n).resetTimes).length < 2) : resetFlashChannel n parent s =
      shadowOn (flsId n 0) parent (onFl n (resetChannel s.tb.now (recent s (flAt s n).resetTimes)) s) := by
  unfold resetFlashChannel
  dsimp only
  rw [if_neg (by simp [hactive]), if_neg (by omega)]
  rfl

/-- No fault of engine `k` lies within 10 s. -/
theorem engineTimes_old {k : Nat} {times : List (Nat × Nat)} {now : Nat}
    (h : ∀ x ∈ times, x.1 = k → x.2 + 10000000000 ≤ now) :
    (times.filter fun t => decide (t.1 = k) && decide (now < t.2 + tenS)).isEmpty = true := by
  rw [List.isEmpty_iff, List.filter_eq_nil_iff]
  intro x hx
  simp only [Bool.and_eq_true, decide_eq_true_eq, not_and, Nat.not_lt]
  exact h x hx

theorem resetLdpc_first {k : Nat} {parent : BitVec 32} {s : State}
    (h : ∀ x ∈ s.flash.ldpcTimes, x.1 = k → x.2 + 10000000000 ≤ s.tb.now) :
    resetLdpc k parent s = shadowOn (flsId (32 + k) 0) parent (onFour (4 * k) reissued (ldpcFaulted k s)) := by
  unfold resetLdpc
  exact if_pos (engineTimes_old h)

theorem resetXts_first {k : Nat} {parent : BitVec 32} {s : State}
    (h : ∀ x ∈ s.flash.xtsTimes, x.1 = k → x.2 + 10000000000 ≤ s.tb.now) :
    resetXts k parent s = shadowOn (flsId (40 + k) 0) parent (xtsFaulted k s) := by
  unfold resetXts
  exact if_pos (engineTimes_old h)

/-- The first F fault of a flash unit below the region (`gives_flashReset`). -/
theorem gives_unitReset {i : Instr} {s v : State} {n : Nat} {key : BitVec 8} {g : State → State} (hn : n < 42)
    (hexec : exec i s = finish (raise (flsId n 0) .f key 0xF (flsId n 0) 0 0 v)) (hv : OnlyChanges [.free] s v)
    (hfree : FlashFaultFree s (flsId n 0))
    (hreact : ∀ u, u.flash = s.flash → u.tb = s.tb → reactNow (flsId n 0) u = shadowOn (flsId n 0) (faultId u (flsId n 0)) (g u))
    (hg : ∀ u, OnlyChanges [.flash] u (g u)) :
    Gives i s fun t => FlashReset s (flsId n 0) key t ∧ ∃ u, u.flash = s.flash ∧ t.flash = (g u).flash :=
  have ⟨hfatal, hregion, hddr⟩ := flsId_ordinary hn
  gives_flashReset hexec hv hfree hfatal hregion hddr hreact hg

theorem flashChannelReset_holds (s : State) (ch : Fin 32) (hfree : FlashFaultFree s (flsId ch.val 0))
    (hactive : (flAt s ch.val).state = .active) (hfew : (recent s (flAt s ch.val).resetTimes).length < 2) :
    Gives (.flashChannelReset ch) s fun t => FlashReset s (flsId ch.val 0) 0xFF t ∧
      (flAt t ch.val).state = .reset ∧ (flAt t ch.val).oarSlot = none ∧
      (flAt t ch.val).jobs = (flAt s ch.val).jobs.map (fun j => { j with started := false, suspended := false }) ∧
      (∀ n, n ≠ ch.val → flAt t n = flAt s n) := by
  obtain ⟨t, ht, hreset, u, hu, hflash⟩ := gives_unitReset (s := s) (v := s) (i := .flashChannelReset ch) (key := 0xFF)
    (g := fun u => onFl ch.val (resetChannel u.tb.now (recent u (flAt u ch.val).resetTimes)) u) (by omega) rfl (.refl _ s) hfree
    (fun u hu htb => by
      have hfl : flAt u ch.val = flAt s ch.val := flAt_of_channels (congrArg Flash.channels hu) _
      rw [reactNow_flash (by omega), if_pos ch.isLt]
      refine resetFlashChannel_first (by rw [hfl]; exact hactive) ?_
      rw [hfl, recent, htb]
      exact hfew)
    (fun u => onFl_only _ _ _ (by decide) (.refl _ u))
  have hfl : ∀ n, flAt u n = flAt s n := flAt_of_channels (congrArg Flash.channels hu)
  have hlist : ch.val < u.flash.channels.length := flash_listed (by rw [hfl, hactive]; decide)
  have hself := (flAt_of_channels (congrArg Flash.channels hflash) ch.val).trans (flAt_onFl _ hlist)
  refine ⟨t, ht, hreset, by rw [hself]; rfl, by rw [hself]; rfl, by rw [hself, hfl]; rfl, fun n hn => ?_⟩
  exact ((flAt_of_channels (congrArg Flash.channels hflash) n).trans (flAt_onFl_ne _ _ hn)).trans (hfl n)

theorem ldpcEngineFault_holds (s : State) (eng : Fin 8) (hfree : FlashFaultFree s (flsId (32 + eng.val) 0))
    (hold : ∀ x ∈ s.flash.ldpcTimes, x.1 = eng.val → x.2 + 10000000000 ≤ s.tb.now) :
    Gives (.ldpcEngineFault eng) s fun t => (∃ k, k < 4 ∧
        FlashReset s (flsId (32 + eng.val) 0) (BitVec.ofNat 8 (4 * eng.val + k)) t) ∧
      (∀ n, n / 4 = eng.val → ∀ j ∈ (flAt t n).jobs, j.started = false) ∧
      (∀ n, n / 4 ≠ eng.val → flAt t n = flAt s n) := by
  obtain ⟨t, ht, hreset, u, hu, hflash⟩ := gives_unitReset (s := s) (v := { s with free := s.free + 1 })
    (i := .ldpcEngineFault eng) (g := fun u => onFour (4 * eng.val) reissued (ldpcFaulted eng.val u)) (by omega) rfl
    (free_only _ _ (by decide) (.refl _ s)) hfree
    (fun u hu htb => by
      rw [reactNow_flash (by omega), if_neg (by omega), if_pos (by omega), Nat.add_sub_cancel_left]
      exact resetLdpc_first (by rw [hu, htb]; exact hold))
    (fun u => (State.onFlash_only _ _ (by decide) (.refl _ u)).trans (onFour_only _ _ _))
  have hfl : ∀ n, flAt t n = flAt (onFour (4 * eng.val) reissued (ldpcFaulted eng.val u)) n :=
    flAt_of_channels (congrArg Flash.channels hflash)
  have hfrom : ∀ n, flAt (ldpcFaulted eng.val u) n = flAt s n := flAt_of_channels (show (ldpcFaulted eng.val u).flash.channels = s.flash.channels from
    (congrArg Flash.channels hu : u.flash.channels = _))
  refine ⟨t, ht, ⟨_, Nat.mod_lt _ (by decide), hreset⟩, fun n hn j hj => ?_, fun n hn => ?_⟩
  · rw [hfl] at hj
    rcases Nat.lt_or_ge n (ldpcFaulted eng.val u).flash.channels.length with hlen | hlen
    · rw [flAt_onFour _ hn hlen] at hj
      obtain ⟨x, -, rfl⟩ := List.mem_map.mp hj
      rfl
    · rw [onFour_unlisted _ hlen] at hj
      cases hj
  · rw [hfl, flAt_onFour_ne _ _ hn, hfrom]

theorem xtsEngineFault_holds (s : State) (eng : Fin 2) (hfree : FlashFaultFree s (flsId (40 + eng.val) 0))
    (hch : 0 < s.cfg.flashChannels) (hold : ∀ x ∈ s.flash.xtsTimes, x.1 = eng.val → x.2 + 10000000000 ≤ s.tb.now) :
    Gives (.xtsEngineFault eng) s fun t => (∃ k, (if s.flash.xtsOut = [] then k / 16 = eng.val else k < s.cfg.flashChannels) ∧
        FlashReset s (flsId (40 + eng.val) 0) (BitVec.ofNat 8 k) t) ∧
      t.flash.xtsOut = s.flash.xtsOut ∧ t.flash.channels = s.flash.channels := by
  obtain ⟨t, ht, hreset, u, hu, hflash⟩ := gives_unitReset (s := s) (v := { s with free := s.free + 1 })
    (i := .xtsEngineFault eng) (g := xtsFaulted eng.val) (by omega) rfl (free_only _ _ (by decide) (.refl _ s)) hfree
    (fun u hu htb => by
      rw [reactNow_flash (by omega), if_neg (by omega), if_neg (by omega), Nat.add_sub_cancel_left]
      exact resetXts_first (by rw [hu, htb]; exact hold))
    (fun u => State.onFlash_only _ _ (by decide) (.refl _ u))
  refine ⟨t, ht, ⟨_, ?_, hreset⟩, (congrArg Flash.xtsOut hflash).trans (congrArg Flash.xtsOut hu : u.flash.xtsOut = _),
    (congrArg Flash.channels hflash).trans (congrArg Flash.channels hu : u.flash.channels = _)⟩
  by_cases hout : s.flash.xtsOut = []
  · simp only [hout, List.isEmpty_nil, if_true]
    omega
  · simpa [hout] using Nat.mod_lt _ hch

/-! ## The end of a reset (R219, R222, R224, R268) -/

/-- A change of the flash that ends the reset of unit `m` gives the flash changed, and the unit's shadow done. -/
theorem gives_resetDone {i : Instr} {s u : State} {m : MasterId} (hexec : exec i s = finish (shadowDone m u))
    (hu : OnlyChanges [.flash] s u) (hc : Calm s) :
    Gives i s fun t => t.flash = u.flash ∧ (∀ x ∈ t.fault.shadows, x.unit = m → x.done = true) ∧
      OnlyChanges [.flash, .fault, .bus] s t := by
  have hcu : Calm u := calm_of_eq hc (hu .log (by decide)) (hu .fault (by decide))
  have hcs : Calm (shadowDone m u) := ⟨hcu.1, hcu.2⟩
  refine gives_finish hexec hcs fun t hn => ⟨hn.only .flash (by decide), fun x hx hm => ?_, ?_⟩
  · rw [hn.only .fault (by decide)] at hx
    obtain ⟨y, -, rfl⟩ := List.mem_map.mp hx
    split at hm
    · rw [if_pos ‹_›]
    · exact absurd hm ‹_›
  · exact hn.onlyChanges (by decide) (shadowDone_only _ _ (by decide) (hu.mono (by decide)))

/-- The four channels of an engine restart their operations, none of which moves the Lakebed. -/
theorem foldl_restart (k : Nat) (s : State) :
    (List.range 4).foldl (fun s j => onFl (k + j) (fun c => if c.state = .active then startAll s.lake.gcUrgent c else c) s) s =
      onFour k (fun c => if c.state = .active then startAll s.lake.gcUrgent c else c) s := by
  simp only [onFour, List.range, List.range.loop, List.foldl]
  rfl

/-- FLASH_RESET_DONE of a unit of the Flash region, by its block. -/
theorem execFlashResetDone_block {s u : State} {n : Nat} (hn : n < 64) (hreset : resetUnit (flsId n 0) = flsId n 0)
    (hu : (if n < 32 then onFl n (fun c => channelBack s.lake.gcUrgent s.upd.active (c, n)) s
      else if n < 40 then onFour (4 * (n - 32)) (fun c => if c.state = .active then startAll s.lake.gcUrgent c else c) s
      else if n = 42 then s.onFlash fun f =>
        { f with channels := (f.channels.zip (List.range 32)).map (channelBack s.lake.gcUrgent s.upd.active) }
      else s) = u) :
    exec (.flashResetDone (flsId n 0)) s = finish (shadowDone (flsId n 0) u) := by
  have hm := flsId_toNat hn
  have hblock : (12288 + 64 * n) / 64 % 64 = n := by omega
  show execFlashResetDone (flsId n 0) s = _
  subst hu
  unfold execFlashResetDone
  simp only [hm, hblock, hreset, show ¬ (12288 + 64 * n) / 4096 ≠ 3 by omega, if_false, foldl_restart]

theorem resetUnit_flsId {n : Nat} (h : n < 43) : resetUnit (flsId n 0) = flsId n 0 :=
  (by decide : ∀ k : Fin 43, resetUnit (flsId k.val 0) = flsId k.val 0) ⟨n, h⟩

/-- Channel `n` of `s` after its reset (R23, R224). -/
def returned (s : State) (n : Nat) : FlashChannel :=
  startAll s.lake.gcUrgent { flAt s n with state := .active, oarSlot := some s.upd.active, windows := flashWindows n }

theorem flashResetDone_channel (s : State) (ch : Fin 32) (hreset : (flAt s ch.val).state = .reset) (hc : Calm s) :
    Gives (.flashResetDone (flsId ch.val 0)) s fun t => flAt t ch.val = returned s ch.val ∧
      (∀ n, n ≠ ch.val → flAt t n = flAt s n) ∧
      (∀ x ∈ t.fault.shadows, x.unit = flsId ch.val 0 → x.done = true) ∧ OnlyChanges [.flash, .fault, .bus] s t := by
  obtain ⟨t, ht, hflash, hshadows, honly⟩ := gives_resetDone
    (execFlashResetDone_block (s := s) (by omega) (resetUnit_flsId (n := ch.val) (by omega)) (if_pos ch.isLt))
    (onFl_only _ _ _ (by decide) (.refl _ s)) hc
  have hfl := flAt_of_channels (congrArg Flash.channels hflash)
  refine ⟨t, ht, ?_, fun n hn => (hfl n).trans (flAt_onFl_ne _ _ hn), hshadows, honly⟩
  have hlisted : ch.val < s.flash.channels.length := flash_listed (by rw [hreset]; decide)
  rw [hfl, flAt_onFl _ hlisted]
  exact if_pos hreset

theorem flashResetDone_engine (s : State) (eng : Fin 8) (hactive : ∀ n, n / 4 = eng.val → (flAt s n).state = .active)
    (hc : Calm s) :
    Gives (.flashResetDone (flsId (32 + eng.val) 0)) s fun t =>
      (∀ n, n / 4 = eng.val → flAt t n = startAll s.lake.gcUrgent (flAt s n)) ∧
      (∀ n, n / 4 ≠ eng.val → flAt t n = flAt s n) ∧
      (∀ x ∈ t.fault.shadows, x.unit = flsId (32 + eng.val) 0 → x.done = true) ∧ OnlyChanges [.flash, .fault, .bus] s t := by
  obtain ⟨t, ht, hflash, hshadows, honly⟩ := gives_resetDone
    (execFlashResetDone_block (s := s) (n := 32 + eng.val) (by omega) (resetUnit_flsId (by omega))
      ((if_neg (by omega)).trans (if_pos (by omega))))
    (onFour_only _ _ _) hc
  rw [Nat.add_sub_cancel_left] at hflash
  have hfl := flAt_of_channels (congrArg Flash.channels hflash)
  refine ⟨t, ht, fun n hn => ?_, fun n hn => (hfl n).trans (flAt_onFour_ne _ _ hn), hshadows, honly⟩
  have hlisted : n < s.flash.channels.length := flash_listed (by rw [hactive n hn]; decide)
  rw [hfl, flAt_onFour _ hn hlisted]
  exact if_pos (hactive n hn)

theorem flashResetDone_region (s : State) (hlen : s.flash.channels.length = 32) (hc : Calm s) :
    Gives (.flashResetDone (flsId 42 0)) s fun t =>
      (∀ n, n < 32 → flAt t n = if (flAt s n).state = .reset then returned s n else flAt s n) ∧
      (∀ x ∈ t.fault.shadows, x.unit = flsId 42 0 → x.done = true) ∧ OnlyChanges [.flash, .fault, .bus] s t := by
  obtain ⟨t, ht, hflash, hshadows, honly⟩ := gives_resetDone
    (execFlashResetDone_block (s := s) (n := 42) (by omega) (resetUnit_flsId (by omega))
      ((if_neg (by omega)).trans ((if_neg (by omega)).trans (if_pos rfl))))
    (State.onFlash_only (cs := [.flash]) _ s (by decide) (.refl _ s)) hc
  refine ⟨t, ht, fun n hn => ?_, hshadows, honly⟩
  rw [flAt_of_channels (congrArg Flash.channels hflash)]
  have hn' : n < s.flash.channels.length := by omega
  have hback : ∀ c, channelBack s.lake.gcUrgent s.upd.active (c, n) = if c.state = .reset then
      startAll s.lake.gcUrgent { c with state := .active, oarSlot := some s.upd.active, windows := flashWindows n } else c :=
    fun _ => rfl
  simp [flAt, State.onFlash, hn', hn, hback, returned]

/-- The endurance budget's comparison moves the budget's own fields of the flash, and Sprint. -/
theorem budgetCheck_keeps (s : State) : (budgetCheck s).flash.programs = s.flash.programs ∧
    (budgetCheck s).flash.t999 = s.flash.t999 ∧ (budgetCheck s).flash.wear = s.flash.wear ∧
    (budgetCheck s).pm.pages = s.pm.pages ∧ (budgetCheck s).pm.residue = s.pm.residue := by
  have hsprint : ∀ u : State, (sprintCheck u).flash = u.flash ∧ (sprintCheck u).pm.pages = u.pm.pages ∧
      (sprintCheck u).pm.residue = u.pm.residue := fun u => by
    obtain ⟨-, hpages, hresidue⟩ := sprintCheck_keepsMap u
    exact ⟨sprintCheck_parts u .flash (by decide), hpages, hresidue⟩
  unfold budgetCheck
  dsimp only
  split
  · generalize hw : (noteConsumed s).onFlash (fun f => { f with budgetOver := true }) = w
    have hrec := (record_reported 0x0C03 4 0x3A80 0 w).only
    obtain ⟨hflash, hpages, hresidue⟩ := hsprint (record 0x0C03 4 0x3A80 0 w)
    rw [hflash, hpages, hresidue, hrec .flash (by decide), hrec .pm (by decide), ← hw]
    exact ⟨rfl, rfl, rfl, rfl, rfl⟩
  · split
    · obtain ⟨hflash, hpages, hresidue⟩ := hsprint ((noteConsumed s).onFlash fun f => { f with budgetOver := false })
      rw [hflash, hpages, hresidue]
      exact ⟨rfl, rfl, rfl, rfl, rfl⟩
    · exact ⟨rfl, rfl, rfl, rfl, rfl⟩

/-- The flash with its timed programs and their measured time (R112, R222). -/
def timed (t999 programs : Nat) (s : State) : State :=
  s.onFlash fun f => { f with programs := max f.programs programs
                              t999 := if 1000 ≤ max f.programs programs then t999 % 2 ^ 32 else 0 }

theorem sDieRecompute_holds (s : State) (t999 programs : Nat) (hfrozen : frozen s = false) (ht : t999 < 2 ^ 32) (hc : Calm s) :
    Gives (.sDieRecompute t999 programs) s fun t => t.flash.programs = max s.flash.programs programs ∧
      t.flash.t999 = (if 1000 ≤ max s.flash.programs programs then t999 else 0) ∧ t.flash.wear = s.flash.wear ∧
      t.pm.pages = s.pm.pages ∧ t.pm.residue = s.pm.residue ∧
      OnlyChanges [.flash, .pm, .lake, .free, .wl, .cxl, .host, .out, .bus] s t := by
  have honly : OnlyChanges [.flash, .pm, .lake, .free, .wl, .cxl, .host, .out, .bus] s (budgetCheck (timed t999 programs s)) :=
    budgetCheck_only _ (by decide) (State.onFlash_only _ _ (by decide) (.refl _ s))
  refine gives_finish (u := budgetCheck (timed t999 programs s)) ?_
    (calm_of_onlyChanges honly (by decide) (by decide) hc) fun t hn => ?_
  · show execSDieRecompute t999 programs s = _
    exact if_neg (by simp [hfrozen])
  · obtain ⟨h1, h2, h3, h4, h5⟩ := budgetCheck_keeps (timed t999 programs s)
    have hflash : t.flash = (budgetCheck (timed t999 programs s)).flash := hn.only .flash (by decide)
    have hpm : t.pm = (budgetCheck (timed t999 programs s)).pm := hn.only .pm (by decide)
    rw [hflash, hpm, h1, h2, h3, h4, h5]
    exact ⟨rfl, by simp only [timed, State.onFlash, Nat.mod_eq_of_lt ht], rfl, rfl, rfl, hn.onlyChanges (by decide) honly⟩

/-- Settles O30, a fault and an end of the reset of each kind of flash unit at a time. -/
theorem flashUnitsResetAndReturn : Obligations.FlashUnitsResetAndReturn := by
  refine ⟨⟨flashChannelReset_holds, ldpcEngineFault_holds, xtsEngineFault_holds⟩, flashResetDone_engine, flashResetDone_region,
    fun s m crew ch n k => ⟨fun hm => if_pos hm, fun hfrozen => ⟨if_pos hfrozen, if_pos hfrozen⟩⟩, flashResetDone_channel,
    fun s crew ch hfrozen => if_neg (by simp [hfrozen]), fun _ _ => rfl, sDieRecompute_holds⟩

end Sys2Proof.Machine
end

section
/-! PROOFS. O31, O33 and O34 fail where the crew that stays in service has a copy of its state still to end (R245, R250): the
fault of the other crew abandons that copy, and takes the survivor back to LOADING. O32 fails at CATCHUP_DONE: the crew's first
gauge check as a member sets UNPROTECTED, which admits held first-writes (R111, R124), and so moves the page map. -/

namespace Sys2Proof.Machine
open Sys2Proof

theorem isMember_of_crew {s t : State} (h : t.crew = s.crew) (c : Crew) : isMember t c = isMember s c := by
  unfold isMember crewOf; rw [h]

/-- A device online, whose crews are both members, Stroke with the seat and with a copy of its state still to end. -/
def memberCopying : State :=
  { State.reset with
    seq := { State.reset.seq with st := .online, complete := true }
    crew := { State.reset.crew with bow := { st := .member }, stroke := { st := .member, copyEnd := some 0 }, seat := 0xA5 } }

/-- A command that leaves `u`, in which `c` is no member, cannot leave `c` a member. -/
theorem member_lost {i : Instr} {s t u : State} {c : Crew} (hexec : exec i s = finish u) (hc : Calm u)
    (hlost : isMember u c = false) (ht : exec i s = .next t) (hkept : isMember t c = true) : False := by
  obtain ⟨v, hv, hn⟩ := finish_noticed hc
  obtain rfl : v = t := Host.Outcome.next.inj (hv.symm.trans (hexec.symm.trans ht))
  have hcrew : v.crew = u.crew := hn.only .crew (by decide)
  rw [isMember_of_crew hcrew, hlost] at hkept
  cases hkept

/-! ## Unequal digests (R238) -/

/-- A timer tick of two members that send the digests `a` and `b`. -/
def tickOfBoth (a b : BitVec 32) (s : State) : State :=
  onCrewUnit .stroke (fun c => { c with digest := b }) (onCrewUnit .bow (fun c => { c with digest := a }) (fanTick (resetFaulted s)))

theorem execTimerTick_unequal : exec (.timerTick 0 1) memberCopying = finish (digestFault (tickOfBoth 0 1 memberCopying)) := by
  have hruns : umpireRuns memberCopying = true := by decide
  have hbow : isMember (fanTick (resetFaulted memberCopying)) .bow = true := by decide +kernel
  have hstroke : isMember (onCrewUnit .bow (fun c => { c with digest := 0 }) (fanTick (resetFaulted memberCopying))) .stroke =
      true := by decide +kernel
  have hboth : memberCount (tickOfBoth 0 1 memberCopying) = 2 := by decide +kernel
  show execTimerTick 0 1 memberCopying = _
  unfold execTimerTick
  rw [if_neg (by simp [hruns])]
  dsimp only
  rw [if_pos hbow, if_pos hstroke]
  exact congrArg finish (if_pos ⟨hboth, by decide⟩)

/-- Refutes O31: Bow goes out for its unequal digest, and Stroke with it. -/
theorem not_crewTicks : ¬ Obligations.CrewTicks := by
  rintro ⟨-, -, -, -, hfault, -⟩
  obtain ⟨t, ht, ⟨-, -, -, -, hmember, -⟩, -⟩ := hfault memberCopying .bow 0 1 (by decide) (by decide) (by decide)
    ⟨by decide, by decide, by decide, by decide, by decide, rfl, by decide, by decide, rfl, rfl⟩
  exact member_lost execTimerTick_unequal ⟨by decide +kernel, by decide +kernel⟩ (by decide +kernel) ht hmember

/-! ## A held write at a crew's joining (R111, R124) -/

/-- A device with no string counted and one first-write held on Weir pressure, whose one crew has caught up. -/
def caughtUpHeld : State :=
  { State.reset with
    seq := { State.reset.seq with st := .online, complete := true }
    crew := { State.reset.crew with bow := { st := .catchup } }
    wb := { entries := [{ id := 0, head := 0, line := 0, data := 0, be := 0, poison := false, phase := .heldWeir, arrived := 0 }] } }

theorem execCatchupDone_alone : exec (.catchupDone .bow) caughtUpHeld = finish (joinAlone .bow (emptyQueue .bow caughtUpHeld)) := by
  have halone : isMember (emptyQueue .bow caughtUpHeld) Crew.bow.other = false := by decide +kernel
  show execCatchupDone .bow caughtUpHeld = _
  unfold execCatchupDone
  rw [if_neg (by decide)]
  dsimp only
  rw [halone]
  rfl

/-- Refutes O32: the page of the held write becomes DIRTY. -/
theorem not_crewsJoin : ¬ Obligations.CrewsJoin := by
  rintro ⟨-, hcaught, -⟩
  obtain ⟨t, ht, -, -, -, -, -, -, hpages, -⟩ := hcaught caughtUpHeld .bow rfl rfl (by decide) rfl rfl ⟨rfl, rfl⟩
  obtain ⟨u, hu, hn⟩ := finish_noticed (s := joinAlone .bow (emptyQueue .bow caughtUpHeld)) ⟨by decide +kernel, by decide +kernel⟩
  obtain rfl : u = t := Host.Outcome.next.inj (hu.symm.trans (execCatchupDone_alone.symm.trans ht))
  have hpm : u.pm = _ := hn.only .pm (by decide)
  rw [hpm] at hpages
  exact absurd (congrArg List.length hpages) (by decide +kernel)

/-! ## Unequal copies of a value stream (R235) -/

/-- The stream of the sequencer's values. -/
abbrev valuesOfPwr : Stream := { cox := false, num := 1 }

/-- Slot 0 of that stream, filled by Bow. -/
def bowSlot : WSlot := { seq := 0, crew := .bow, digest := 0, closed := false, paired := false, cmd := .coreTarget 0 }

/-- `memberCopying` with that slot filled. -/
def bowSlotFilled : State := onLanding .pwr (fun y => { y with streams := [(1, { slots := [bowSlot] })] }) memberCopying

/-- Stroke's copy of that slot, with another digest. -/
def strokeCopy : Copy :=
  { crew := .stroke, coxCore := false, landing := .pwr, stream := valuesOfPwr, seq := 0, digest := 1, cmd := .coreTarget 750
    shadow := false }

theorem execLandingCopy_unequal :
    exec (.landingCopy .stroke false .pwr valuesOfPwr 0 1 (.coreTarget 750)) bowSlotFilled = finish (arrive strokeCopy bowSlotFilled) := by
  have hlag : lagOn (releaseLagged bowSlotFilled) .stroke = false := by decide
  show execLandingCopy .stroke false .pwr valuesOfPwr 0 1 (.coreTarget 750) bowSlotFilled = _
  unfold execLandingCopy
  rw [if_neg (by decide)]
  dsimp only
  rw [if_neg (by simp [hlag])]
  rfl

/-- Refutes O33: Bow goes out for its unequal copy, and Stroke with it. -/
theorem not_landingsCompareCopies : ¬ Obligations.LandingsCompareCopies := by
  rintro ⟨⟨-, -, -, -, hunequal⟩, -⟩
  have hslot : slotOfSeq (streamOf bowSlotFilled .pwr valuesOfPwr) (0 : BitVec 32).toNat = some bowSlot := by decide
  obtain ⟨t, ht, ⟨-, -, -, -, hmember, -⟩, -⟩ := hunequal bowSlotFilled .stroke false 0 1 750
    ⟨by decide, by decide, by decide, rfl, by decide, by decide, rfl, rfl, by decide, rfl, rfl⟩ bowSlot hslot rfl rfl (by decide)
    ⟨by decide, by decide, by decide, by decide, by decide, rfl, by decide, by decide, rfl, rfl⟩
  exact member_lost execLandingCopy_unequal ⟨by decide +kernel, by decide +kernel⟩ (by decide +kernel) ht hmember

/-! ## The grace timer of a crew (R262) -/

/-- `memberCopying` with a U capture of Bow whose grace timer runs. -/
def bowInGrace : State := setCapture (coxId .bow) { sticky := true, grace := true, cls := some .u } memberCopying

/-- Refutes O34: Bow goes out as its grace timer expires, and Stroke with it. -/
theorem not_faultsAreCaptured : ¬ Obligations.FaultsAreCaptured := by
  rintro ⟨⟨-, -, -, -, hgrace⟩, -⟩
  obtain ⟨t, ht, -, -, -, hmember, -⟩ := hgrace bowInGrace .bow (by decide) (by decide) rfl (by decide) (by decide) (by decide)
    (by decide) (by decide) ⟨rfl, rfl⟩
  have hexec : exec (.graceExpiry (coxId .bow)) bowInGrace = finish (expireGrace (coxId .bow) bowInGrace) := by
    show execGraceExpiry (coxId .bow) bowInGrace = _
    exact if_pos (by decide)
  exact member_lost hexec ⟨by decide +kernel, by decide +kernel⟩ (by decide +kernel) ht hmember

end Sys2Proof.Machine
end

section
/-! PROOFS. O35 fails at CONDITION_CLEAR on a table of capture records that lists a unit twice (log 2): the record that becomes
empty leaves the table, and the second one stands for the unit then. -/

namespace Sys2Proof.Machine
open Sys2Proof

/-- A state whose records list unit 0 twice: with a condition present, and with a capture held. -/
def listedTwice : State :=
  { State.reset with fault := { State.reset.fault with recs := [(0, { present := true }), (0, { sticky := true })] } }

/-- Refutes O35: the unit's record reads as the second one. -/
theorem not_capturesAreAcknowledged : ¬ Obligations.CapturesAreAcknowledged := by
  rintro ⟨-, -, -, hclear⟩
  have hpresent : (capture listedTwice 0).present = true := by decide
  obtain ⟨t, ht, hcapture, -⟩ := hclear listedTwice 0 hpresent
  have hexec : exec (.conditionClear 0) listedTwice =
      .next (setCapture 0 { capture listedTwice 0 with present := false } listedTwice) := by
    show execConditionClear 0 listedTwice = _
    exact if_pos hpresent
  obtain rfl := Host.Outcome.next.inj (hexec.symm.trans ht)
  exact absurd hcapture (by decide +kernel)

end Sys2Proof.Machine
end

section
/-! PROOFS. O36: what a read of a register returns and does (R6, R7, R21, R28, R31, R34, R37, R38, R41, R42, R49, R50, R61, R66,
R130, R229, R272, R302, R434). -/

namespace Sys2Proof.Machine
open Sys2Proof

/-! ## A C fault of any unit (R260, R272) -/

/-- The first C fault of a unit (R260, R272), which a command ends with from a state `v` that differs from `s` in free values and
outputs: captured, reported, recorded, and of a crew's unit a point of its score. -/
theorem gives_raiseC {i : Instr} {s v : State} {m req : MasterId} {key : BitVec 8} {typ : Fin 16} {addr detail : Nat}
    (hexec : exec i s = finish (raise m .c key typ req addr detail v)) (hv : OnlyChanges [.free, .out] s v)
    (hunit : unitExists s m = true) (hreq : unitExists s req = true) (hfree : (capture s m).sticky = false) (hc : Calm s) :
    Gives i s fun t => Captured s t m .c key req ∧ t.out.resp = v.out.resp ∧ OnlyChanges (.crew :: reportParts) s t := by
  have hvfault : v.fault = s.fault := hv .fault (by decide)
  have hcfg : v.cfg = s.cfg := hv .cfg (by decide)
  let f : FaultIn := ⟨m, .c, key, BitVec.ofNat 16 detail, typ, req, BitVec.ofNat 64 addr, false, .other⟩
  let w := scoreFor m 1 (linkReportC m (firstCaptured f v))
  have hw : OnlyChanges [.fault, .host, .crew] v w :=
    scoreFor_only _ _ _ (by decide) (((firstCaptured_only f v).mono (by decide)).trans ((linkReportC_only _ _).mono (by decide)))
  have hwfault : w.fault = (firstCaptured f v).fault :=
    (scoreFor_only (cs := [.crew, .host]) (r0 := firstCaptured f v) m 1 (linkReportC m (firstCaptured f v)) (by decide)
      ((linkReportC_only _ _).mono (by decide))) .fault (by decide)
  have hrep : Reported w (raise m .c key typ req addr detail v) := by
    have hact : raise m .c key typ req addr detail v = actC m (firstCaptured f v) := by
      unfold raise
      exact reportFault_first (f := f) ((unitExists_of_cfg hcfg _).trans hunit) ((unitExists_of_cfg hcfg _).trans hreq)
        ((congrArg Capture.sticky (capture_of_fault hvfault m)).trans hfree)
    have hlink : actC m (firstCaptured f v) = record 0x0000 2 m (faultId (linkReportC m (firstCaptured f v)) m).toNat w := by
      unfold actC
      dsimp only
      split <;> rename_i hcell <;> simp [w, linkReportC, hcell, faultId, capture, State.onHost]
    rw [hact, hlink]
    exact record_reported _ _ _ _ _
  have hcw : Calm w :=
    calm_of_eq (firstCaptured_calm f (calm_of_eq hc (hv .log (by decide)) hvfault)) (hw .log (by decide)) hwfault
  refine gives_finish hexec (hrep.calm hcw) fun t hn => ?_
  have hall := hrep.of_noticed hn
  have hout : w.out = v.out := hw .out (by decide)
  refine ⟨captured_from (captured_of_fault (firstCaptured_captured f v) ?_) hvfault (hv .tb (by decide)), ?_, ?_⟩
  · exact (hall.only .fault (by decide)).trans hwfault
  · rw [hall.resp, hout]
  · exact hall.onlyChanges (by decide) ((hv.mono (by decide)).trans (hw.mono (by decide)))

theorem windowFault_gives {i : Instr} {s v : State} {m : MasterId} {typ : Fin 16} {addr : Nat}
    (hexec : exec i s = finish (windowFault m typ addr v)) (hv : OnlyChanges [.free, .out] s v)
    (hunit : unitExists s m = true) (hfree : (capture s m).sticky = false) (hc : Calm s) :
    Gives i s fun t => Captured s t m .c 2 m ∧ t.out.resp = v.out.resp ∧ OnlyChanges (.crew :: reportParts) s t :=
  gives_raiseC (v := { v with free := v.free + 1 }) hexec (free_only _ _ (by decide) hv) hunit hunit hfree hc

/-! ## Reads over the crossbar (R7, R21, R498) -/

/-- A command that ends with its one answer. -/
theorem gives_say {i : Instr} {s : State} {r : Response} (hexec : exec i s = finish (say r s)) (hc : Calm s) :
    Gives i s (Noticed (say r s)) := gives_noticed hexec ⟨hc.1, hc.2⟩

theorem outOfWindow_of_notOar {m : MasterId} (h : isOar m = false) (s : State) (a size : Nat) : outOfWindow s m a size = false := by
  simp [outOfWindow, h]

theorem xbarRead_down {s : State} {a size : Nat} {m : MasterId} (h : regionUp s (a - a % 8) = false) : xbarRead a size m s = s := by
  simp [xbarRead, h]

/-- A read of register `a` by a master that reads it as it stands. -/
theorem xbarRead_value {s : State} {a off size : Nat} {m : MasterId} (ha : a % 8 = 0) (hoff : off < 8) (hsize : off + size ≤ 8)
    (hup : regionUp s a = true) (hoar : isOar m = false) (hcore : isCrewCore m = false ∨ a ≠ timeAddr) :
    xbarRead (a + off) size m s = readAction a off size (say (.reg (readValue s a off size)) s) := by
  have hmod : (a + off) % 8 = off := by omega
  have hplain : (isCrewCore m && decide (a = timeAddr)) = false := by
    rcases hcore with h | h <;> simp [h]
  unfold xbarRead
  simp only [hmod, Nat.add_sub_cancel, hup, hsize, outOfWindow_of_notOar hoar, hplain, Bool.false_eq_true, decide_true,
    Bool.not_true, Bool.or_self, if_false]
  split <;> rfl

theorem readAction_plain {a off size : Nat} (s : State) (htime : a ≠ timeAddr) (hstats : a ≠ statsAddr) (hvmon : vmonOf a = none) :
    readAction a off size s = s := by
  simp [readAction, htime, hstats, hvmon]

theorem readValue_plain {s : State} {a off size : Nat} (h : a ≠ timeAddr) : readValue s a off size = lanes off size (readReg s a) := by
  simp [readValue, h]

theorem lanes_whole (v : Word) : lanes 0 8 v = v := by
  simp only [lanes, Nat.mul_zero, BitVec.ushiftRight_zero]
  exact BitVec.and_allOnes

theorem lanes_low (v : Word) : lanes 0 4 v = BitVec.ofNat 64 (v.toNat % 2 ^ 32) := by
  apply BitVec.eq_of_toNat_eq
  simp only [lanes, Nat.mul_zero, BitVec.ushiftRight_zero, BitVec.toNat_and, BitVec.toNat_ofNat]
  have : (2 ^ (8 * 4) - 1) % 2 ^ 64 = 2 ^ 32 - 1 := by decide
  rw [this, Nat.and_two_pow_sub_one_eq_mod]
  omega

theorem regionUp_power {s : State} {a : Nat} (h : inPowerRegion a = true) : regionUp s a = s.seq.vddAon := by
  simp [regionUp, h]

theorem readReg_time (s : State) : readReg s timeAddr = word s.tb.now := rfl

theorem isCrewCore_some {m : MasterId} {c : Crew} (h : crewOfUnit m = some c) {s : State} {size : Nat} (hcore : isCrewCore m = true)
    (hup : s.seq.vddAon = true) (hoar : isOar m = false) (hsize : size ≤ 8) :
    xbarRead timeAddr size m s = say (.reg (lanes 0 size (word (crewOf s c).stamp))) s := by
  have hdown : regionUp s timeAddr = true := (regionUp_power (by decide)).trans hup
  simp [xbarRead, show timeAddr % 8 = 0 by decide, hdown, hsize, outOfWindow_of_notOar hoar, h, hcore]

/-- A core of a crew is no oar (R13). -/
theorem isOar_of_crew {m : MasterId} {c : Crew} (h : crewOfUnit m = some c) : isOar m = false := by
  have hregion : m.toNat / 4096 = 4 ∨ m.toNat / 4096 = 5 := by
    unfold crewOfUnit at h
    split at h
    · exact Or.inl ‹_›
    · split at h
      · exact Or.inr ‹_›
      · cases h
  simp only [isOar, decide_eq_false_iff_not]
  omega

theorem railAt_onRail_listed {n : Nat} (f : Rail → Rail) {s : State} (h : n < s.seq.rails.length) :
    railAt (onRail n f s) n = f (railAt s n) := by
  simp [railAt, onRail, State.onSeq, getElem?_listUpd, h]

theorem railAt_onRail_ne {n k : Nat} (f : Rail → Rail) (s : State) (h : k ≠ n) : railAt (onRail n f s) k = railAt s k := by
  simp [railAt, onRail, State.onSeq, getElem?_listUpd, h]

theorem readAction_stats (s : State) : readAction statsAddr 0 8 s = s.onWeir fun w => { w with excessMax := 0 } := rfl

theorem vmonOf_rail (n : Fin 16) : vmonOf (0xF0600100 + 8 * n.val) = some n.val := by
  unfold vmonOf
  rw [if_pos (by omega)]
  congr 1
  omega

theorem readAction_vmon (s : State) (n : Fin 16) : readAction (0xF0600100 + 8 * n.val) 0 8 s =
    onRail n.val (fun r => { r with maxMv := 0, minMv := 0xFFFF }) s := by
  unfold readAction
  rw [if_neg (by simp only [timeAddr]; omega), if_neg (by simp only [statsAddr]; omega), vmonOf_rail]
  rfl

theorem crossbarReads : CrossbarReads := by
  refine ⟨?_, ?_, ?_, ?_, ?_, ?_, ?_⟩
  · intro s a off size m hread hup hstats hvmon htime hoar hsize hoff hc
    have ha : a % 8 = 0 := by
      simp only [readable, Bool.and_eq_true, decide_eq_true_eq] at hread
      exact hread.1
    refine gives_say ?_ hc
    show finish (xbarRead (a + off) size m s) = _
    rw [xbarRead_value ha hoff hsize hup hoar (Or.inr htime), readAction_plain _ htime hstats hvmon, readValue_plain htime]
  · intro s m hvdd hoar hcore hc
    have hup : regionUp s timeAddr = true := (regionUp_power (by decide)).trans hvdd
    refine ⟨gives_noticed ?_ ⟨hc.1, hc.2⟩, gives_say ?_ hc⟩
    · show finish (xbarRead (timeAddr + 0) 4 m s) = _
      rw [xbarRead_value (by decide) (by decide) (by decide) hup hoar (Or.inl hcore)]
      have hv : readValue s timeAddr 0 4 = BitVec.ofNat 64 (s.tb.now % 2 ^ 32) := by
        show lanes 0 4 (readReg s timeAddr) = _
        rw [readReg_time, lanes_low, word, BitVec.toNat_ofNat, Nat.mod_mod_of_dvd _ (by decide)]
      rw [hv]
      rfl
    · show finish (xbarRead (timeAddr + 4) 4 m s) = _
      rw [xbarRead_value (by decide) (by decide) (by decide) hup hoar (Or.inl hcore)]
      have hv : readValue s timeAddr 4 4 = s.tb.highLatch.setWidth 64 := by
        show lanes 0 4 (BitVec.ofNat 64 s.tb.highLatch.toNat) = _
        rw [lanes_low]
        apply BitVec.eq_of_toNat_eq
        simp only [BitVec.toNat_ofNat, BitVec.toNat_setWidth]
        omega
      rw [hv]
      rfl
  · intro s c m hvdd hcrew hcore hc
    refine gives_say ?_ hc
    show finish (xbarRead timeAddr 8 m s) = _
    rw [isCrewCore_some hcrew hcore hvdd (isOar_of_crew hcrew) (by decide), lanes_whole]
  · intro s m hdark hfrozen hoar hc
    have hup : regionUp s statsAddr = true := by simp [regionUp, show inPowerRegion statsAddr = false by decide, hdark, hfrozen]
    refine gives_noticed ?_ ⟨hc.1, hc.2⟩
    show finish (xbarRead (statsAddr + 0) 8 m s) = _
    rw [xbarRead_value (by decide) (by decide) (by decide) hup hoar (Or.inr (by decide)), readAction_stats,
      readValue_plain (by decide), lanes_whole]
    rfl
  · intro s n m hvdd hn hoar hc
    have hpower : inPowerRegion (0xF0600100 + 8 * n.val) = true := by simp only [inPowerRegion, decide_eq_true_eq]; omega
    have htime : 0xF0600100 + 8 * n.val ≠ timeAddr := by simp only [timeAddr]; omega
    let v := say (.reg (readReg s (0xF0600100 + 8 * n.val))) s
    refine gives_finish (u := onRail n.val (fun r => { r with maxMv := 0, minMv := 0xFFFF }) v) ?_ ⟨hc.1, hc.2⟩ fun t hnt => ?_
    · show finish (xbarRead (0xF0600100 + 8 * n.val + 0) 8 m s) = _
      rw [xbarRead_value (by omega) (by decide) (by decide) ((regionUp_power hpower).trans hvdd) hoar (Or.inr htime),
        readAction_vmon, readValue_plain htime, lanes_whole]
    · have hseq : t.seq = _ := hnt.only .seq (by decide)
      have hout : t.out = _ := hnt.only .out (by decide)
      have hrail : ∀ k, railAt t k = railAt (onRail n.val (fun r => { r with maxMv := 0, minMv := 0xFFFF }) v) k := fun k => by
        unfold railAt; rw [hseq]
      refine ⟨(hrail _).trans (railAt_onRail_listed _ hn), fun k hk => (hrail _).trans (railAt_onRail_ne _ _ hk),
        by rw [hout]; rfl, ?_⟩
      exact hnt.onlyChanges (by decide) (State.onSeq_only _ _ (by decide) (State.onOut_only _ _ (by decide) (.refl _ s)))
  · intro s a size m hdown hc
    exact gives_noticed (congrArg finish (xbarRead_down hdown)) hc
  · intro s a m ha hup hoar hunit hout hfree hc
    have hexec : exec (.registerRead ⟨.xbar a 8, m⟩) s = finish (windowFault m 0 a (say (.reg 0) s)) := by
      show finish (xbarRead a 8 m s) = _
      simp [xbarRead, ha, hup, hout]
    exact windowFault_gives hexec (State.onOut_only _ _ (by decide) (.refl _ s)) hunit hfree hc

/-! ## A head's registers and the serial memory (R34, R38, R41, R42, R434) -/

theorem headPresent_of_regs {s : State} {h : Fin 2} (hr : headRegs s h = true) : headPresent s h = true := by
  simp only [headRegs, headUp, Bool.and_eq_true] at hr
  exact hr.1.2

/-- A read of a head that answers. -/
theorem execRegisterRead_head {s : State} {h : Fin 2} {x : RegTarget} {m : MasterId} (hx : targetHead x = some h)
    (hr : headRegs s h = true) : exec (.registerRead ⟨x, m⟩) s = finish (headRead s x) := by
  show execRegisterRead ⟨x, m⟩ s = _
  cases x <;> cases hx <;> simp [execRegisterRead, targetHead, hr]

/-- A read of a head that does not answer, but for a configuration request. -/
theorem execRegisterRead_silent {s : State} {h : Fin 2} {x : RegTarget} {m : MasterId} (hx : targetHead x = some h)
    (hconfig : ∀ r, x ≠ .config h r) (hr : headRegs s h = false) : exec (.registerRead ⟨x, m⟩) s = .next s := by
  show execRegisterRead ⟨x, m⟩ s = _
  cases x <;> cases hx <;> simp [execRegisterRead, targetHead, hr, configRetry] at hconfig ⊢

theorem gives_headRead {s : State} {h : Fin 2} {x : RegTarget} {m : MasterId} {r : Response} (hx : targetHead x = some h)
    (hr : headRegs s h = true) (hread : headRead s x = say r s) (hc : Calm s) :
    Gives (.registerRead ⟨x, m⟩) s (Noticed (say r s)) :=
  gives_say ((execRegisterRead_head hx hr).trans (congrArg finish hread)) hc

theorem barRead_page {s : State} {h : Fin 2} {k : Nat} (hk : k < 512) :
    barRead h (0x18000 + 8 * k) 8 s = say (.reg (regPage s (8 * k))) s := by
  have hwhole : wholeAccess (0x18000 + 8 * k) 8 = true := by simp [wholeAccess, Nat.add_mod]
  unfold barRead
  dsimp only
  rw [if_neg (by omega), if_neg (by omega), if_pos (by omega), if_pos hwhole, Nat.add_sub_cancel_left]

theorem barRead_narrow {s : State} {h : Fin 2} {k : Nat} (hk : k < 512) :
    barRead h (0x18000 + 8 * k) 4 s = pageFault h 0 (0x18000 + 8 * k) (say (.reg 0) s) := by
  have hwhole : wholeAccess (0x18000 + 8 * k) 4 = false := by simp [wholeAccess]
  unfold barRead
  dsimp only
  rw [if_neg (by omega), if_neg (by omega), if_pos (by omega), if_neg (by simp [hwhole])]

/-- A range of BAR0 that is reserved reads 0 (R41). -/
theorem barRead_reserved {s : State} {h : Fin 2} {off size : Nat}
    (hoff : 0x14000 ≤ off ∧ off < 0x18000 ∨ 0x19000 ≤ off ∧ off < 0x1C000 ∨ 0x1E000 ≤ off) :
    barRead h off size s = say (.reg 0) s := by
  unfold barRead
  dsimp only
  rw [if_neg (by omega)]
  rcases hoff with ⟨h1, h2⟩ | ⟨h1, h2⟩ | h1
  · rw [if_pos h2]
  · rw [if_neg (by omega), if_neg (by omega), if_pos h2]
  · rw [if_neg (by omega), if_neg (by omega), if_neg (by omega), if_neg (by omega), if_neg (by omega)]

theorem barRead_component {s : State} {h : Fin 2} {off size : Nat} (hoff : off < 0x14000) :
    barRead h off size s = say (.reg (lanes (off % 8) size (barWord s h (off - off % 8)))) s := if_pos hoff

theorem barRead_msix {s : State} {h : Fin 2} {off size : Nat} (hlo : 0x1C000 ≤ off) (hhi : off < 0x1D000) :
    barRead h off size s = say (.reg (lanes (off % 8) size (msixWord s h (off - off % 8)))) s := by
  unfold barRead
  dsimp only
  rw [if_neg (by omega), if_neg (by omega), if_neg (by omega), if_neg (by omega), if_pos hhi]

/-- The bandwidths of a head at ×16 and 64 GT/s (R38). -/
theorem cdatBytes_full {s : State} {h : Fin 2} (hw : (headOf s h).width = 16) (hr : (headOf s h).rate = .g64) :
    cdatBytes s h = leBytes 4 120 ++ leBytes 4 100 ++ leBytes 4 96000 ++ leBytes 4 90000 := by
  simp [cdatBytes, sustained, hw, hr, rateTenths]

theorem headAndSerialReads : HeadAndSerialReads := by
  refine ⟨?_, ?_, ?_, ?_, ?_⟩
  · intro s h k m hr hc
    refine ⟨gives_headRead rfl hr (barRead_page k.isLt) hc, fun hfree => ?_⟩
    have hport := unitExists_headPort (headPresent_of_regs hr)
    have hexec : exec (.registerRead ⟨.bar h (0x18000 + 8 * k.val) 4, m⟩) s = finish (raise (headPort h) .c 2 0 (headPort h)
        (0xF0100000 + (0x18000 + 8 * k.val - 0x18000)) 0 (say (.reg 0) s)) :=
      (execRegisterRead_head rfl hr).trans (congrArg finish (barRead_narrow k.isLt))
    exact gives_raiseC hexec (State.onOut_only _ _ (by decide) (.refl _ s)) hport hport hfree hc
  · intro s h r m hlink hpresent hfrozen
    have hregs : headRegs s h = (headOf s h).ready := by
      have hp : (decide (h = 0) || twoHeads s) = true := hpresent
      simp [headRegs, headUp, hlink, hp, hfrozen]
    refine ⟨fun hready => ?_, fun hready hc => gives_headRead rfl (hregs.trans hready) rfl hc⟩
    show execRegisterRead ⟨.config h r, m⟩ s = _
    simp [execRegisterRead, targetHead, hregs, hready, configRetry, hlink, hpresent, hfrozen]
  · intro s h m hr hwidth hrate hc
    exact gives_headRead rfl hr (congrArg (fun l => say (.doe h l) s) (cdatBytes_full hwidth hrate)) hc
  · intro s off size m hvdd hoar hc
    refine gives_finish (u := say (.reg (word (leNat ((List.range size).map fun k => serialAt s (off + k)))))
      { s with free := s.free + off + size }) ?_ ⟨hc.1, hc.2⟩ fun t hn => ⟨?_, ?_⟩
    · show execRegisterRead ⟨.serial off size, m⟩ s = _
      simp [execRegisterRead, hvdd, serialRead, hoar]
    · rw [hn.only .out (by decide)]
      rfl
    · exact hn.onlyChanges (by decide) (State.onOut_only _ _ (by decide) (free_only _ _ (by decide) (.refl _ s)))
  · intro s off size m hvdd hoar hunit hfree hc
    have hexec : exec (.registerRead ⟨.serial off size, m⟩) s = finish (windowFault m 0 off (say (.reg 0) s)) := by
      show execRegisterRead ⟨.serial off size, m⟩ s = _
      simp [execRegisterRead, hvdd, serialRead, hoar]
    exact windowFault_gives hexec (State.onOut_only _ _ (by decide) (.refl _ s)) hunit hfree hc

theorem headHoldsItsRegisters : HeadHoldsItsRegisters := by
  refine ⟨fun s h m hr hc => ⟨fun off size hoff => ?_, fun off size hoff => ?_, fun off size hlo hhi => ?_, fun v b => ?_,
    fun i d hd => ⟨?_, ?_, fun _ _ _ _ _ _ => ?_⟩, fun r => ?_, fun c => ?_⟩, fun s h m hr => ?_, fun s off size m hvdd => ?_⟩
  · exact gives_headRead rfl hr (barRead_reserved hoff) hc
  · exact gives_headRead rfl hr (barRead_component hoff) hc
  · exact gives_headRead rfl hr (barRead_msix hlo hhi) hc
  · exact gives_headRead rfl hr rfl hc
  · exact gives_headRead rfl hr (by simp [headRead, hdmHalf, hd, word]) hc
  · exact gives_headRead rfl hr (by simp [headRead, hdmHalf, hd, word]) hc
  · exact gives_headRead rfl hr (by simp [headRead, hd]) hc
  · exact gives_headRead rfl hr rfl hc
  · exact gives_headRead rfl hr rfl hc
  · exact ⟨fun _ _ => execRegisterRead_silent rfl (by simp) hr, fun _ _ => execRegisterRead_silent rfl (by simp) hr,
      fun _ _ => execRegisterRead_silent rfl (by simp) hr, fun _ => execRegisterRead_silent rfl (by simp) hr,
      execRegisterRead_silent rfl (by simp) hr⟩
  · show execRegisterRead ⟨.serial off size, m⟩ s = _
    simp [execRegisterRead, hvdd]

/-- Settles O36, a window of registers at a time. -/
theorem registersRead : Obligations.RegistersRead := ⟨crossbarReads, headAndSerialReads, headHoldsItsRegisters⟩

end Sys2Proof.Machine
end

section
/-! PROOFS. O37: what a write of a register does (R6, R21, R37, R41 to R43, R47, R49, R108, R127, R180, R263, R274, R327, R393,
R469). -/

namespace Sys2Proof.Machine
open Sys2Proof

/-! ## A register of 8 bytes written whole (R6) -/

theorem written_whole : written 0 8 = BitVec.allOnes 64 := by decide

theorem spread_whole (v : Word) : spread 0 8 v = v := by
  rw [spread, written_whole, Nat.mul_zero, BitVec.shiftLeft_zero, BitVec.and_allOnes]

/-- A write of a whole register over the crossbar, by a master whose windows hold it. -/
theorem execRegisterWrite_xbar {s : State} {a : Nat} {m : MasterId} {v : Word} (ha : a % 8 = 0) (hup : regionUp s a = true)
    (hoar : isOar m = false) : exec (.registerWrite (.xbar a 8) m v) s =
      if a = 0xF0100000 then execHstMark v s
      else if a = 0xF0100008 then execHstSettle v s
      else if a = 0xF0000040 then execChpFaultAck (v.setWidth 32) m s
      else if a = 0xF0200008 ∨ a = 0xF0600050 then finish (badWriter m a s)
      else finish (writeFields a 0 8 v s) := by
  show xbarWrite a 8 m v s = _
  simp [xbarWrite, ha, hup, outOfWindow_of_notOar hoar, spread_whole]

/-- A register without a W1C or RW field keeps its value (R6). -/
theorem writeFields_plain {a off size : Nat} {v : Word} (s : State) (h : a ∉ [0xF0000018, 0xF0000040, 0xF0100000, 0xF0100008,
    0xF0100030, 0xF0200000, 0xF0200008, 0xF0200028, 0xF0600030, 0xF0600038, 0xF0600050, 0xF0600080]) :
    writeFields a off size v s = s := by
  simp only [List.mem_cons, List.not_mem_nil, or_false, not_or] at h
  simp [writeFields, h]

theorem regionUp_core {s : State} {a : Nat} (h : inPowerRegion a = false) (hdark : darkOrAux s = false) (hfrozen : frozen s = false) :
    regionUp s a = true := by
  simp [regionUp, h, hdark, hfrozen]

/-! ## A head's registers -/

theorem execRegisterWrite_head {s : State} {h : Fin 2} {x : RegTarget} {m : MasterId} {v : Word} (hx : targetHead x = some h)
    (hr : headRegs s h = true) : exec (.registerWrite x m v) s = headWrite x v s := by
  show execRegisterWrite x m v s = _
  cases x <;> cases hx <;> simp [execRegisterWrite, targetHead, hr]

theorem execRegisterWrite_silent {s : State} {h : Fin 2} {x : RegTarget} {m : MasterId} {v : Word} (hx : targetHead x = some h)
    (hconfig : ∀ r, x ≠ .config h r) (hr : headRegs s h = false) : exec (.registerWrite x m v) s = .next s := by
  show execRegisterWrite x m v s = _
  cases x <;> cases hx <;> simp [execRegisterWrite, targetHead, hr, configRetry] at hconfig ⊢

/-- A write to the persistence page (R42). -/
theorem barWrite_page {s : State} {h : Fin 2} {off size : Nat} {v : Word} (hlo : 0x18000 ≤ off) (hhi : off < 0x19000) :
    barWrite h off size v s = pageWriteReg h off size v s := by
  unfold barWrite
  dsimp only
  rw [if_neg (by omega), if_pos ⟨hlo, hhi⟩]

/-- A write to a reserved range of BAR0 (R41). -/
theorem barWrite_reserved {s : State} {h : Fin 2} {off size : Nat} {v : Word}
    (hoff : 0x14000 ≤ off ∧ off < 0x18000 ∨ 0x19000 ≤ off ∧ off < 0x1C000 ∨ 0x1C080 ≤ off) :
    barWrite h off size v s = .next s := by
  unfold barWrite
  dsimp only
  rw [if_neg (by omega), if_neg (by omega), if_neg (by omega)]

theorem barWrite_stores {s : State} {h : Fin 2} {a off size : Nat} {v : Word} (ha : a % 8 = 0) (hoff : off < 8) (hlt : a < 0x14000)
    (hhdm : barHdm a = none) (h1 : a ≠ 0x1100) (h2 : a ≠ 0x1108) :
    barWrite h (a + off) size v s = .next (barStore h a off size v s) := by
  have hmod : (a + off) % 8 = off := by omega
  unfold barWrite
  simp only [hmod, Nat.add_sub_cancel]
  rw [if_pos (by omega), barRegWrite, hhdm]
  simp [h1, h2]

theorem tabFind_tabIns_self {α : Type} (k : Nat) (v : α) : ∀ t : List (Nat × α), tabFind k (tabIns k v t) = some v
  | [] => by simp [tabIns, tabFind]
  | (k', v') :: t => by
    unfold tabIns
    split
    · simp [tabFind]
    · split
      · simp [tabFind]
      · simp_all [tabFind, tabFind_tabIns_self k v t]

theorem tabFind_tabIns_ne {α : Type} {k j : Nat} (v : α) (h : j ≠ k) : ∀ t : List (Nat × α), tabFind j (tabIns k v t) = tabFind j t
  | [] => by simp [tabIns, tabFind, h]
  | (k', v') :: t => by
    unfold tabIns
    split
    · simp only [tabFind, h, if_false]
      split
      · rw [if_pos (by omega)]
      · rfl
    · split
      · subst_vars
        simp [tabFind, h]
      · simp [tabFind, tabFind_tabIns_ne v h t]

theorem barHeld_barStore (s : State) (h : Fin 2) (a off size : Nat) (v : Word) :
    barHeld (barStore h a off size v s) h a = (barHeld s h a &&& ~~~(written off size)) ||| spread off size v := by
  unfold barHeld barStore
  rw [headOf_onHead, tabFind_tabIns_self]
  rfl

/-! ## The MSI-X masks (R49) -/

/-- Bit `n` alone of a mask. -/
theorem getLsbD_two_pow (n : Fin 8) : (BitVec.ofNat 8 (2 ^ n.val)).getLsbD n.val = true := by
  fin_cases n <;> rfl

theorem getLsbD_cleared (b : BitVec 8) (n : Fin 8) : (b &&& ~~~BitVec.ofNat 8 (2 ^ n.val)).getLsbD n.val = false := by
  rw [BitVec.getLsbD_and, BitVec.getLsbD_not, getLsbD_two_pow, Bool.not_true, Bool.and_false, Bool.and_false]

theorem getLsbD_set (b : BitVec 8) (n : Fin 8) : (b ||| BitVec.ofNat 8 (2 ^ n.val)).getLsbD n.val = true := by
  rw [BitVec.getLsbD_or, getLsbD_two_pow, Bool.or_true]

/-- Head `h` with vector `n` unmasked, and no longer pending. -/
def unmasked (h : Fin 2) (n : Fin 8) (s : State) : State :=
  onHead h (fun x => { x with msixMask := x.msixMask &&& ~~~BitVec.ofNat 8 (2 ^ n.val)
                              msixPending := x.msixPending &&& ~~~BitVec.ofNat 8 (2 ^ n.val) }) s

/-- Head `h` with vector `n` masked. -/
def masked (h : Fin 2) (n : Fin 8) (s : State) : State :=
  onHead h (fun x => { x with msixMask := x.msixMask ||| BitVec.ofNat 8 (2 ^ n.val) }) s

theorem maskVector_pending {s : State} {h : Fin 2} {n : Fin 8} (hp : (headOf s h).msixPending.getLsbD n.val = true) :
    maskVector h n false s = (unmasked h n s).onOut fun o => { o with msix := (h.val, n.val) :: o.msix } := by
  have hmask : (headOf (unmasked h n s) h).msixMask.getLsbD n.val = false := by
    rw [unmasked, headOf_onHead]
    exact getLsbD_cleared _ n
  show (if (headOf s h).msixPending.getLsbD n.val = true then vectorOn h n (unmasked h n s) else unmasked h n s) = _
  rw [if_pos hp, vectorOn, if_neg (by rw [hmask]; decide)]

/-! ## The HDM decoders (R37) -/

theorem hdmWrite_free {s : State} {h : Fin 2} {i : Fin 4} {d : Hdm} (hd : (headOf s h).hdm[i.val]? = some d)
    (hlock : d.locked = false) (hcommit : d.committed = false) (base size ways gran : Nat) (c l : Bool) :
    hdmWrite h i base size ways gran c l s = onHead h (fun x =>
      { x with hdm := listUpd i.val (fun _ => hdmNew s h i base size ways gran c l) x.hdm }) s := by
  simp [hdmWrite, hd, hlock, hcommit]

theorem hdmWrite_locked {s : State} {h : Fin 2} {i : Fin 4} {d : Hdm} (hd : (headOf s h).hdm[i.val]? = some d)
    (hlock : d.locked = true) (base size ways gran : Nat) (c l : Bool) : hdmWrite h i base size ways gran c l s = s := by
  simp [hdmWrite, hd, hlock]

/-! ## The serial memory (R393, R434) -/

/-- `s` with `size` bytes of `v` written at `off` of the serial memory. -/
def writtenSerial (off : Nat) (v : Word) (size : Nat) (s : State) : State :=
  s.onBoot fun b => { b with serial := (List.range size).foldl (fun t k => tabIns (off + k) ((lanes k 1 v).setWidth 8) t) b.serial }

theorem serialAt_listed {s : State} {off : Nat} {b : Byte} (h : tabFind off s.boot.serial = some b) : serialAt s off = b := by
  simp [serialAt, h]

theorem tabFind_writtenSerial (off : Nat) (v : Word) (s : State) {k : Nat} : ∀ {size : Nat}, k < size →
    tabFind (off + k) (writtenSerial off v size s).boot.serial = some ((lanes k 1 v).setWidth 8)
  | size + 1, hk => by
    have hstep : (writtenSerial off v (size + 1) s).boot.serial =
        tabIns (off + size) ((lanes size 1 v).setWidth 8) (writtenSerial off v size s).boot.serial := by
      simp [writtenSerial, State.onBoot, List.range_succ]
    rw [hstep]
    rcases Nat.lt_succ_iff_lt_or_eq.mp hk with hlt | rfl
    · rw [tabFind_tabIns_ne _ (by omega)]
      exact tabFind_writtenSerial off v s hlt
    · exact tabFind_tabIns_self _ _ _

/-! ## The registers by name -/

theorem execRegisterWrite_page {s : State} {h : Fin 2} {off size : Nat} {m : MasterId} {v : Word} (hr : headRegs s h = true)
    (hlo : 0x18000 ≤ off) (hhi : off < 0x19000) :
    exec (.registerWrite (.bar h off size) m v) s = pageWriteReg h off size v s :=
  (execRegisterWrite_head rfl hr).trans (barWrite_page hlo hhi)

theorem namedRegistersWrite : NamedRegistersWrite := by
  refine ⟨?_, ?_, ?_, ?_, ?_, ?_, ?_⟩
  · intro s h m v hr
    rw [execRegisterWrite_page hr (by decide) (by decide), execRegisterWrite_page hr (by decide) (by decide)]
    exact ⟨rfl, rfl⟩
  · intro s h m v hr hc
    refine ⟨gives_noticed (u := clearPersist v s) (execRegisterWrite_page hr (by decide) (by decide)) ⟨hc.1, hc.2⟩,
      execRegisterWrite_page hr (by decide) (by decide), fun hfree => ?_⟩
    have hport := unitExists_headPort (headPresent_of_regs hr)
    have hexec : exec (.registerWrite (.bar h 0x18000 4) m v) s =
        finish (raise (headPort h) .c 2 1 (headPort h) 0xF0100000 0 s) :=
      execRegisterWrite_page hr (by decide) (by decide)
    obtain ⟨t, ht, hcap, -, honly⟩ := gives_raiseC hexec (.refl _ s) hport hport hfree hc
    exact ⟨t, ht, hcap, honly⟩
  · intro s m v hdark hfrozen hc
    refine ⟨fun hoar => ?_, fun hunit hfree hcore hoar => ?_, fun a ha hpower hunit hfree hoar hout => ?_⟩
    · refine gives_noticed ?_ ⟨hc.1, hc.2⟩
      rw [execRegisterWrite_xbar (by decide) (regionUp_core (by decide) hdark hfrozen) hoar]
      show finish (s.onFault fun f => { f with sel := (f.sel &&& ~~~(written 0 8).setWidth 16) ||| v.setWidth 16 }) = _
      congr 1
      simp [State.onFault, written_whole]
    · have hexec : exec (.registerWrite (.xbar 0xF0200008 8) m v) s =
          finish (raise m .c 0 1 m 0xF0200008 0 { s with free := s.free + 1 }) := by
        rw [execRegisterWrite_xbar (by decide) (regionUp_core (by decide) hdark hfrozen) hoar]
        show finish (badWriter m 0xF0200008 s) = _
        simp [badWriter, hcore, hoar]
      obtain ⟨t, ht, hcap, -, honly⟩ := gives_raiseC hexec (free_only _ _ (by decide) (.refl _ s)) hunit hunit hfree hc
      exact ⟨t, ht, hcap, honly⟩
    · have hexec : exec (.registerWrite (.xbar a 8) m v) s = finish (windowFault m 1 a s) := by
        show xbarWrite a 8 m v s = _
        simp [xbarWrite, ha, regionUp_core hpower hdark hfrozen, hout]
      obtain ⟨t, ht, hcap, -, honly⟩ := windowFault_gives hexec (.refl _ s) hunit hfree hc
      exact ⟨t, ht, hcap, honly⟩
  · intro s off size m v hvdd hc
    refine ⟨fun hall => ?_, fun hsize hbad hcore hoar hunit hfree => ?_⟩
    · refine gives_finish (u := writtenSerial off v size s) ?_ ⟨hc.1, hc.2⟩ fun t hn => ⟨fun k hk => ?_, ?_⟩
      · show execRegisterWrite (.serial off size) m v s = _
        simp only [execRegisterWrite, hvdd, if_true, serialWrite]
        rw [if_pos (by simpa using hall)]
        rfl
      · exact serialAt_listed (by rw [hn.only .boot (by decide)]; exact tabFind_writtenSerial off v s hk)
      · exact hn.onlyChanges (by decide) (State.onBoot_only _ _ (by decide) (.refl _ s))
    · have hexec : exec (.registerWrite (.serial off size) m v) s =
          finish (raise m .c 0 1 m off 0 { s with free := s.free + 1 }) := by
        show execRegisterWrite (.serial off size) m v s = _
        have hnot : ¬ ((List.range size).all fun k => serialWriter m (off + k)) = true := by
          simp only [List.all_eq_true, List.mem_range, not_forall]
          exact ⟨0, hsize, by simp [hbad]⟩
        simp only [execRegisterWrite, hvdd, if_true, serialWrite]
        rw [if_neg hnot]
        simp [badWriter, hcore, hoar]
      obtain ⟨t, ht, hcap, -, honly⟩ := gives_raiseC hexec (free_only _ _ (by decide) (.refl _ s)) hunit hunit hfree hc
      exact ⟨t, ht, hcap, honly⟩
  · intro s h m v hr
    exact execRegisterWrite_head rfl hr
  · intro s h n m v hr hp
    refine gives_next ((execRegisterWrite_head rfl hr).trans (congrArg Host.Outcome.next (maskVector_pending hp))) ?_
    have hhead : headOf ((unmasked h n s).onOut fun o => { o with msix := (h.val, n.val) :: o.msix }) h =
        headOf (unmasked h n s) h := rfl
    rw [hhead, unmasked, headOf_onHead]
    exact ⟨getLsbD_cleared _ n, getLsbD_cleared _ n, rfl,
      State.onOut_only _ _ (by decide) (onHead_only _ _ _ (by decide) (.refl _ s))⟩
  · intro s h i base size ways gran lock m v hr hi d hd
    refine ⟨fun hlock hcommit haccept => ?_, fun hlock c => ?_⟩
    · refine gives_next ((execRegisterWrite_head rfl hr).trans
        (congrArg Host.Outcome.next (hdmWrite_free hd hlock hcommit base size ways gran true lock))) ?_
      rw [headOf_onHead]
      refine ⟨?_, fun k hk => by simp [getElem?_listUpd, hk], onHead_only _ _ _ (by decide) (.refl _ s)⟩
      have hself : (listUpd i.val (fun _ => hdmNew s h i base size ways gran true lock) (headOf s h).hdm)[i.val]? =
          some (hdmNew s h i base size ways gran true lock) := by simp [getElem?_listUpd, hi]
      split
      · rename_i hfits
        rw [hself, hdmNew, haccept]
        simp [hfits]
      · rename_i hfits
        have hno : (hdmOrder s h i base && decide (hdmOthers s h i + size / ways ≤ (headSpan s h).2)) = false := by
          simpa [Bool.and_eq_false_iff] using fun h1 => Nat.not_le.mp fun h2 => hfits ⟨h1, h2⟩
        rw [hself, hdmNew, haccept]
        simp [hno]
    · exact (execRegisterWrite_head rfl hr).trans (congrArg Host.Outcome.next (hdmWrite_locked hd hlock ..))

theorem otherRegistersWrite : OtherRegistersWrite := by
  refine ⟨?_, ?_, ?_, ?_, ?_, ?_, ?_, ?_⟩
  · intro s m v hdark hfrozen hoar hc
    have hwrite : ∀ {a : Nat}, a % 8 = 0 → inPowerRegion a = false → exec (.registerWrite (.xbar a 8) m v) s = _ :=
      fun ha hpower => execRegisterWrite_xbar ha (regionUp_core hpower hdark hfrozen) hoar
    exact ⟨gives_noticed (hwrite (by decide) (by decide)) ⟨hc.1, hc.2⟩, gives_noticed (hwrite (by decide) (by decide)) ⟨hc.1, hc.2⟩,
      hwrite (by decide) (by decide), hwrite (by decide) (by decide), hwrite (by decide) (by decide)⟩
  · intro s m v hvdd hoar hc
    have hwrite : ∀ {a : Nat}, a % 8 = 0 → inPowerRegion a = true → exec (.registerWrite (.xbar a 8) m v) s = _ :=
      fun ha hpower => execRegisterWrite_xbar ha ((regionUp_power hpower).trans hvdd) hoar
    exact ⟨gives_noticed (hwrite (by decide) (by decide)) ⟨hc.1, hc.2⟩, gives_noticed (hwrite (by decide) (by decide)) ⟨hc.1, hc.2⟩,
      gives_noticed (hwrite (by decide) (by decide)) ⟨hc.1, hc.2⟩⟩
  · intro s a m v ha hup hoar hc hother
    refine gives_noticed ?_ hc
    rw [execRegisterWrite_xbar ha hup hoar, writeFields_plain s hother]
    simp only [List.mem_cons, List.not_mem_nil, or_false, not_or] at hother
    simp [hother]
  · intro s a size m v hdown
    show xbarWrite a size m v s = _
    simp [xbarWrite, hdown]
  · intro s h n m v hr
    refine gives_next (t := masked h n s) (execRegisterWrite_head rfl hr) ?_
    rw [masked, headOf_onHead]
    exact ⟨getLsbD_set _ n, rfl, rfl, onHead_only _ _ _ (by decide) (.refl _ s)⟩
  · intro s h m v hr
    refine ⟨fun off size hoff => (execRegisterWrite_head rfl hr).trans (barWrite_reserved hoff),
      fun a off size ha hoff hlt hhdm h1 h2 => ⟨(execRegisterWrite_head rfl hr).trans (barWrite_stores ha hoff hlt hhdm h1 h2),
        barHeld_barStore s h a off size v⟩, fun r hne => ?_, fun r => execRegisterWrite_head rfl hr,
      fun i b => execRegisterWrite_head rfl hr, execRegisterWrite_head rfl hr⟩
    rw [execRegisterWrite_head rfl hr]
    cases r with
    | bar0 => exact absurd rfl hne
    | _ => rfl
  · intro s h m v hr
    exact ⟨fun _ _ => execRegisterWrite_silent rfl (by simp) hr, fun _ _ => execRegisterWrite_silent rfl (by simp) hr,
      fun _ _ _ _ _ _ _ => execRegisterWrite_silent rfl (by simp) hr, fun _ => execRegisterWrite_silent rfl (by simp) hr⟩
  · intro s off size m v hvdd
    show execRegisterWrite (.serial off size) m v s = _
    simp [execRegisterWrite, hvdd]

/-- Settles O37, the registers by name and then the others. -/
theorem registersWrite : Obligations.RegistersWrite := ⟨namedRegistersWrite, otherRegistersWrite⟩

end Sys2Proof.Machine
end

section
/-! PROOFS. O39 and O41 fail where a start from DARK ends the FAULT of a string with a first-write held on Weir pressure (R308):
UNPROTECTED changes, and the write is admitted (R111, R124). At VDD_AON_VALID its excess is recorded in the Waterline log
(R125); at the start of CORE its log entry can find the spill area full, which is chip fatal (R155). -/

namespace Sys2Proof.Machine
open Sys2Proof

/-- A host write to page 0 that waits for room below the Weir level. -/
def weirHeld : WEntry :=
  { id := 0, head := 0, line := 0, data := 0, be := 0, poison := false, phase := .heldWeir, arrived := 0 }

/-! ## The start with VDD_AON (R287, R308) -/

/-- A device without VDD_AON, with a member crew, a held write, and string A failed with FAULT. -/
def darkHeld : State :=
  { State.reset with
    crew := { State.reset.crew with bow := { st := .member } }
    bat := { State.reset.bat with a := { st := .failed, reasons := [.fault] } }
    wb := { entries := [weirHeld] } }

/-- Refutes O41: the excess of the held write stands in the log. -/
theorem not_powerUpAndVddAonLoss : ¬ Obligations.PowerUpAndVddAonLoss := by
  rintro ⟨⟨hvalid, -⟩, -⟩
  obtain ⟨t, ht, -, -, -, -, -, -, -, hlog, -⟩ := hvalid darkHeld rfl
  have hlen : (match exec .vddAonValid darkHeld with
      | .next u => u.wl.log.length
      | _ => 0) = 1 := by decide +kernel
  rw [ht] at hlen
  have hkept : t.wl.log.length = 0 := congrArg List.length hlog
  dsimp only at hlen
  omega

/-! ## The dirty log full (R155) -/

theorem logAppend_full {s : State} (e : LogEntry) (hfull : spillEntries ≤ s.log.spill.length) :
    (logAppend e s).log.overflow = true := by
  have hspill : s.log.spill ≠ [] := fun h => by rw [h] at hfull; exact absurd hfull (by decide)
  simp [logAppend, hspill, Nat.not_lt.mpr hfull]

theorem firstWrite_full {s : State} {b : Bucket} (page : Nat) (hb : newestBucket s = some b) (ho : b.isOpen = true)
    (hfull : spillEntries ≤ s.log.spill.length) : (firstWrite page s).log.overflow = true := by
  have hset : OnlyChanges [.pm] s (setPage page (firstEntry s b) s) := setPage_only _ _ _ (by decide) (.refl _ s)
  unfold firstWrite
  rw [enterNewest_open hb ho]
  have hsame : ∀ t, OnlyChanges [.pm] s t →
      (logAppend (.dirty b.slot page) (retireEmpty (countUp b.slot (residueUp t)))).log.overflow = true := fun t ht => by
    have hu : OnlyChanges [.pm, .ledger] s (retireEmpty (countUp b.slot (residueUp t))) :=
      retireEmpty_only _ (by decide) (countUp_only _ _ (by decide) (residueUp_only _ (by decide) (ht.mono (by decide))))
    have hlog : (retireEmpty (countUp b.slot (residueUp t))).log = s.log := hu .log (by decide)
    exact logAppend_full _ (by rw [hlog]; exact hfull)
  dsimp only
  split
  · exact hsame _ (dropLost_only _ _ (by decide) hset)
  · exact hsame _ hset

/-- The write buffer holds one first-write, `e`, whose page goes into the open bucket `b`, and the spill area is full. -/
structure HeldAtFull (s : State) (e : WEntry) (b : Bucket) : Prop where
  entries : s.wb.entries = [e]
  heldWeir : e.phase = .heldWeir
  clean : pageState s (pageOf e.line) = .clean
  serving : inBlockReset s (pageOf e.line) = false
  noWindow : inWindow s = false
  noFence : s.host.fence = false
  newest : newestBucket s = some b
  isOpen : b.isOpen = true
  full : spillEntries ≤ s.log.spill.length

/-- A retest that admits the one write of the buffer while the spill area is full overflows the log. -/
theorem retest_full {s : State} {e : WEntry} {b : Bucket} (h : HeldAtFull s e b) (hroom : roomFor s = true) :
    (retest s).log.overflow = true := by
  obtain ⟨hwb, hheld, hclean, hreset, hwindow, hfence, hb, ho, hfull⟩ := h
  have hfirst : OnlyChanges [.pm, .ledger, .log] s (firstWrite (pageOf e.line) s) := firstWrite_openOnly hb ho
  have hdram : (firstWrite (pageOf e.line) s).dram = s.dram := hfirst .dram (by decide)
  have hcfg : (firstWrite (pageOf e.line) s).cfg = s.cfg := hfirst .cfg (by decide)
  have hhost : (firstWrite (pageOf e.line) s).host = s.host := hfirst .host (by decide)
  have hbuf : (firstWrite (pageOf e.line) s).wb = s.wb := hfirst .wb (by decide)
  have htaken : admitEntry 0 e s = heldTaken s 0 e := by
    unfold admitEntry heldTaken
    rw [pageWrite_first hb ho (.inl hclean) hwindow, finishEntry_admitted]
    · rw [inBlockReset_of_dram hdram hcfg, hreset]
    · rw [hhost, hfence]
  have hentries : (heldTaken s 0 e).wb.entries = [{ e with phase := .admitted }] :=
    congrArg (listUpd 0 fun x : WEntry => { x with phase := .admitted }) ((congrArg WriteBuffer.entries hbuf).trans hwb)
  have hadmit : admitHeldAt 0 e s = heldTaken s 0 e := by
    unfold admitHeldAt
    rw [htaken]
    exact admitBehind_none _ _ (by rw [hentries]; simp)
  have hlog : (heldTaken s 0 e).log = (firstWrite (pageOf e.line) s).log := rfl
  have hcheck : (weirCheck ordinary (heldTaken s 0 e)).log = (heldTaken s 0 e).log :=
    weirCheck_only (cs := [.host, .cxl, .pm, .lake, .weir, .wl, .bus, .out]) _ _ (by decide) (.refl _ _) .log (by decide)
  have hretest : retest s = weirCheck ordinary (heldTaken s 0 e) := by
    rw [retest, hwb]
    simp [retestHeld, firstIdx, hwb, hheld, hroom, hadmit]
  rw [hretest, hcheck, hlog]
  exact firstWrite_full _ hb ho hfull

/-- Once no string is counted any more, the write is admitted, and the log overflows. -/
theorem unprotectedCheck_full {s : State} {e : WEntry} {b : Bucket} (h : HeldAtFull s e b) (hnone : anyCounted s = false)
    (hprotected : s.host.unprotected = false) : (unprotectedCheck s).log.overflow = true := by
  have heq : unprotectedCheck s = retest (sprintCheck (vector 6 (s.onHost fun h => { h with unprotected := true }))) := by
    unfold unprotectedCheck
    dsimp only
    rw [hnone, hprotected]
    exact if_neg (by decide)
  rw [heq]
  obtain ⟨hwb, hheld, hclean, hreset, hwindow, hfence, hnewest, ho, hfull⟩ := h
  generalize hu : (s.onHost fun h => { h with unprotected := true }) = u
  have hset : OnlyChanges [.host] s u := hu ▸ State.onHost_only _ _ (by decide) (.refl _ s)
  have huhost : u.host = { s.host with unprotected := true } := by rw [← hu]; rfl
  have hsaid := vector_reported 6 u
  obtain ⟨p0, p1, hheads⟩ := hsaid.host
  have hcheck : OnlyChanges [.pm, .lake] (vector 6 u) (sprintCheck (vector 6 u)) := sprintCheck_only _ (by decide) (.refl _ _)
  have honly : OnlyChanges [.free, .host, .cxl, .wl, .bus, .out, .pm, .lake] s (sprintCheck (vector 6 u)) :=
    (hset.mono (by decide)).trans ((hsaid.only.mono (by decide)).trans (hcheck.mono (by decide)))
  have hpm : (vector 6 u).pm = s.pm := (hsaid.only .pm (by decide)).trans (hset .pm (by decide))
  obtain ⟨hbuckets, hpages, -⟩ := sprintCheck_keepsMap (vector 6 u)
  rw [hpm] at hbuckets hpages
  have hhost := (hcheck .host (by decide)).trans hheads
  have hwb' : (sprintCheck (vector 6 u)).wb = s.wb := honly .wb (by decide)
  have hlog : (sprintCheck (vector 6 u)).log = s.log := honly .log (by decide)
  have hrst : (sprintCheck (vector 6 u)).rst = s.rst := honly .rst (by decide)
  have hdram : (sprintCheck (vector 6 u)).dram = s.dram := honly .dram (by decide)
  have hcfg : (sprintCheck (vector 6 u)).cfg = s.cfg := honly .cfg (by decide)
  refine retest_full ⟨by rw [hwb', hwb], hheld, (pageState_of_pages hpages _).trans hclean,
    (inBlockReset_of_dram hdram hcfg _).trans hreset, (inWindow_of_rst hrst).trans hwindow, ?_, ?_, ho, by rw [hlog]; exact hfull⟩ ?_
  · have hfence' := congrArg HostRegion.fence hhost
    rw [hfence', huhost]
    exact hfence
  · unfold newestBucket at hnewest ⊢
    rw [hbuckets, hnewest]
  · have hroom := congrArg HostRegion.unprotected hhost
    unfold roomFor
    rw [hroom, huhost]
    rfl

/-- A full log found at the end of a command of a device that saves for a chip fatal is captured at the log's unit. -/
theorem finish_full {s t : State} (hfull : s.log.overflow = true) (hfatal : s.fault.chipFatal = true)
    (hsaving : saving s = true) (hwaiting : s.fault.waiting = []) (ht : finish s = .next t) :
    (capture t 0x2200).sticky = true := by
  obtain rfl : notice (runWaiting (overflowCheck s)) = t := Host.Outcome.next.inj ht
  obtain ⟨c, id, hc, hover, hcfatal, hcsaving, hcwaiting⟩ : ∃ (c : State) (id : BitVec 32), (capture c 0x2200).sticky = true ∧
      overflowCheck s = chipFatal 6 id c ∧ c.fault.chipFatal = true ∧ saving c = true ∧ c.fault.waiting = [] := by
    unfold overflowCheck
    rw [if_pos hfull]
    refine ⟨_, _, ?_, rfl, hfatal, hsaving, hwaiting⟩
    exact congrArg Capture.sticky (capture_setCapture_self _ (ne_empty_of_sticky rfl))
  obtain ⟨hnoted, hwait⟩ := chipFatal_second 6 id hcfatal hcsaving
  have hrun : runWaiting (overflowCheck s) = (overflowCheck s).onFault fun f => { f with waiting := [] } := by
    unfold runWaiting
    rw [hover, hwait, hcwaiting]
    rfl
  have hfault : (notice (runWaiting (overflowCheck s))).fault = (runWaiting (overflowCheck s)).fault :=
    notice_only (cs := [.bus]) _ (by decide) (.refl _ _) .fault (by decide)
  have hrecs : (runWaiting (overflowCheck s)).fault.recs = c.fault.recs := by rw [hrun, hover]; exact hnoted.recs
  rw [capture_of_fault hfault, capture_of_recs hrecs]
  exact hc

/-! ## The start of CORE (R285, R308) -/

/-- `s` with what the start of CORE does before it chooses the image. -/
def coreClocked (s : State) : State :=
  ((((s.onSeq fun q => { q with onCommand := false, onPending := false, railCfg := s.od.railCfg
                                mask := BitVec.ofNat 16 s.od.set.railMask }).onClk
    fun _ => { xtalOk := true, springLock := true, backupLock := true, rootsStarted := true }).onBoot
    fun b => { b with coreTime := sat 0xFFFFFFFF ((s.tb.now - b.auxEntry) / 1000) }).onFlash
    fun f => { f with firstStart := some (f.firstStart.getD (age s)) }).onWl fun w => { w with corrupt := 0 }

theorem startCore_eq (s : State) : startCore s =
    if held (coreClocked (clearGaugeFaults s)) then enterFreeze (coreClocked (clearGaugeFaults s))
    else chooseImage (coreClocked (clearGaugeFaults s)) := rfl

theorem coreClocked_only (s : State) : OnlyChanges [.seq, .clk, .boot, .flash, .wl] s (coreClocked s) :=
  State.onWl_only _ _ (by decide) (State.onFlash_only _ _ (by decide) (State.onBoot_only _ _ (by decide)
    (State.onClk_only _ _ (by decide) (State.onSeq_only _ _ (by decide) (.refl _ s)))))

/-- With no freeze held, the start of CORE moves the dirty log, the collector's records and the save no further than the end of
a FAULT does. -/
theorem startCore_noFreeze {s : State} (hfree : held s = false) : (startCore s).log = (clearGaugeFaults s).log ∧
    (startCore s).fault = s.fault ∧ (startCore s).save = s.save := by
  have hclear : OnlyChanges clearParts s (clearGaugeFaults s) := clearGaugeFaults_only _ (by decide) (.refl _ s)
  have honly : OnlyChanges (.seq :: .clk :: .boot :: .flash :: clearParts) s (coreClocked (clearGaugeFaults s)) :=
    (hclear.mono (by decide)).trans ((coreClocked_only _).mono (by decide))
  have hfrz : (coreClocked (clearGaugeFaults s)).frz = s.frz := honly .frz (by decide)
  have himage : OnlyChanges [.host, .cxl, .wl, .crew, .boot, .od, .bus, .upd, .out] (coreClocked (clearGaugeFaults s))
      (startCore s) := by
    rw [startCore_eq, if_neg (by rw [held, hfrz]; exact Bool.eq_false_iff.mp hfree)]
    exact chooseImage_only _ (by decide) (.refl _ _)
  have hlog : (startCore s).log = (coreClocked (clearGaugeFaults s)).log := himage .log (by decide)
  have hclock : (coreClocked (clearGaugeFaults s)).log = (clearGaugeFaults s).log := coreClocked_only _ .log (by decide)
  have hall : OnlyChanges (.seq :: .clk :: .boot :: .flash :: .crew :: .upd :: .od :: clearParts) s (startCore s) :=
    (honly.mono (by decide)).trans (himage.mono (by decide))
  exact ⟨hlog.trans hclock, hall .fault (by decide), hall .save (by decide)⟩

/-- A device in its stagger that still saves for a chip fatal, with a held write, string A failed with FAULT, and the spilled
log entries `l`. -/
def staggeredSpill (l : List LogEntry) : State :=
  { State.reset with
    seq := { State.reset.seq with st := .aux, vddAon := true, staggering := true, dir := .up }
    boot := { State.reset.boot with bootcfg := 1 }
    bat := { State.reset.bat with a := { st := .failed, reasons := [.fault] } }
    pm := { buckets := [{ slot := 0, epoch := 0, openSeq := 0, isOpen := true, pages := 0 }] }
    log := { spill := l }
    save := { running := true }
    fault := { chipFatal := true }
    wb := { entries := [weirHeld] } }

/-- `staggeredSpill l` as CORE begins. -/
def coreBegun (l : List LogEntry) : State :=
  (staggeredSpill l).onSeq fun q =>
    { q with st := .core, dir := .up, stateStart := 0, complete := false, staggering := false, waitRecorded := false
             catchDrive := true, catchIn := false }

/-- `coreBegun l` with no FAULT. -/
def faultEnded (l : List LogEntry) : State :=
  onStr .a (fun b => { b with st := .unknown, reasons := [], reason := .none }) (coreBegun l)

theorem clearGaugeFaults_coreBegun (l : List LogEntry) :
    clearGaugeFaults (coreBegun l) = clearReason .b .fault (unprotectedCheck (faultEnded l)) := rfl

theorem coreBegun_overflows {l : List LogEntry} (hl : spillEntries ≤ l.length) :
    (startState .core (staggeredSpill l)).log.overflow = true := by
  have hover : (unprotectedCheck (faultEnded l)).log.overflow = true :=
    unprotectedCheck_full (e := weirHeld) (b := { slot := 0, epoch := 0, openSeq := 0, isOpen := true, pages := 0 })
      ⟨rfl, rfl, rfl, rfl, rfl, rfl, rfl, rfl, hl⟩ rfl rfl
  have hbat : (unprotectedCheck (faultEnded l)).bat = (faultEnded l).bat :=
    unprotectedCheck_only (cs := [.host, .cxl, .wb, .pm, .lake, .log, .weir, .rst, .ledger, .wl, .bus, .out]) _ (by decide)
      (.refl _ _) .bat (by decide)
  have hb : clearReason .b .fault (unprotectedCheck (faultEnded l)) = unprotectedCheck (faultEnded l) := by
    unfold clearReason
    exact if_pos (by rw [strOf, hbat]; exact rfl)
  have hlast : (startState .core (staggeredSpill l)).log = (clearGaugeFaults (coreBegun l)).log := (startCore_noFreeze rfl).1
  rw [hlast, clearGaugeFaults_coreBegun, hb, hover]

/-- Refutes O39: the write that the end of the FAULT admits finds the dirty log full. -/
theorem not_climbFollowsCatch : ¬ Obligations.ClimbFollowsCatch := by
  rintro ⟨-, -, -, -, hstagger, -⟩
  have hl : spillEntries ≤ (List.replicate spillEntries (LogEntry.reset 0)).length := by rw [List.length_replicate]
  generalize List.replicate spillEntries (LogEntry.reset 0) = l at hl
  obtain ⟨t, ht, -, -, -, -, -, -, -, -, -, -, -, honly⟩ :=
    hstagger (staggeredSpill l) rfl rfl rfl rfl rfl (show 0 < 3 by decide) (show 1 ≠ 0 by decide) (show 0 ≠ 1 by decide) rfl ⟨rfl, rfl⟩
  have hexec : exec .laneStaggerExpiry (staggeredSpill l) = finish (startState .core (staggeredSpill l)) := rfl
  obtain ⟨-, hkept, hsave⟩ : (startCore (coreBegun l)).log = (clearGaugeFaults (coreBegun l)).log ∧
      (startCore (coreBegun l)).fault = (coreBegun l).fault ∧ (startCore (coreBegun l)).save = (coreBegun l).save :=
    startCore_noFreeze rfl
  have hsticky := finish_full (s := startCore (coreBegun l)) (coreBegun_overflows hl) (by rw [hkept]; rfl)
    (by rw [saving, hsave]; rfl) (by rw [hkept]; rfl) (hexec.symm.trans ht)
  have hfault : t.fault = (staggeredSpill l).fault := honly .fault (by decide)
  rw [capture_of_fault hfault] at hsticky
  exact Bool.false_ne_true hsticky

end Sys2Proof.Machine
end

section
/-! PROOFS. O40: the rails of a climb and of a descent (R279 to R281, R285, R287, R293, R299). -/

namespace Sys2Proof.Machine
open Sys2Proof

/-! ## Rails and their samples -/

/-- A rail that is not off is listed. -/
theorem listed_of_phase {s : State} {n : Nat} (h : (railAt s n).phase ≠ .off) : n < s.seq.rails.length := by
  by_contra hn
  have hnone : s.seq.rails[n]? = none := List.getElem?_eq_none (by omega)
  exact h (by rw [railAt, List.getD_eq_getElem?_getD, hnone]; rfl)

/-- A rail with a sample of its voltage. -/
def sampled (s : State) (n : Nat) (code : BitVec 12) (r : Rail) : Rail :=
  let mv := vmonMv s n code
  let c := railCfgAt s n
  { r with
    code := code, mv := mv, maxMv := max r.maxMv mv, minMv := if r.phase = .on then min r.minMv mv else r.minMv
    warn := beyond s n mv c.uvWarn c.ovWarn r, fault := beyond s n mv c.uvFault c.ovFault r }

theorem vmonSample_eq (n : Nat) (code : BitVec 12) (s : State) : vmonSample n code s = onRail n (sampled s n code) s := rfl

theorem length_onRail (n : Nat) (f : Rail → Rail) (s : State) : (onRail n f s).seq.rails.length = s.seq.rails.length :=
  length_listUpd ..

theorem railAt_of_seq {s t : State} (h : t.seq = s.seq) (n : Nat) : railAt t n = railAt s n := by unfold railAt; rw [h]

/-- A rail of the state that is not off keeps the state from being left. -/
theorem allFallen_false {s : State} {k : Nat} (hk : k ∈ stateRails s s.seq.st.num) (hphase : (railAt s k).phase ≠ .off) :
    allFallen s = false := by
  obtain ⟨hrange, hin⟩ := List.mem_filter.mp hk
  unfold allFallen
  rw [List.all_eq_false]
  exact ⟨k, hrange, by simp [downRail, hin, hphase]⟩

theorem allRisen_false {s : State} {k : Nat} (hk : k ∈ stateRails s s.seq.st.num) (hphase : (railAt s k).phase ≠ .on) :
    allRisen s = false := by
  unfold allRisen
  rw [List.all_eq_false]
  exact ⟨k, hk, by simp [hphase]⟩

/-! ## Rails that are switched (R279, R280) -/

theorem railOnDelay_enables {s : State} {n : Fin 16} (hn : n.val < s.seq.rails.length) (hclimb : climbing s = true)
    (hin : railIn s s.seq.st.num n.val = true) (hoff : (railAt s n.val).phase = .off) :
    Gives (.railOnDelay n) s fun t => RailBecomes s t n.val (fun r => { r with phase := .rising }) ∧
      t.seq.enabled = s.seq.enabled ++ [n.val] ∧ OnlyChanges [.seq] s t := by
  have hexec : exec (.railOnDelay n) s = .next (railEnable n.val s) := if_pos (by simp [hclimb, hin, hoff])
  exact gives_next hexec ⟨⟨railAt_onRail_listed (fun r => { r with phase := .rising }) hn,
    fun k hk => railAt_onRail_ne (fun r => { r with phase := .rising }) s hk⟩, rfl,
    State.onSeq_only _ _ (by decide) (State.onSeq_only _ _ (by decide) (.refl _ s))⟩

theorem railOffDelay_disables {s : State} {n : Fin 16} (hdir : s.seq.dir = .down) (hrev : s.seq.reversing = false)
    (hcfg : (railCfgAt s n.val).state = s.seq.st.num) (hen : (railAt s n.val).en = true) :
    Gives (.railOffDelay n) s fun t => RailBecomes s t n.val (fun r => { r with phase := .falling }) ∧
      t.seq.enabled = setDel n.val s.seq.enabled ∧ OnlyChanges [.seq] s t := by
  have hexec : exec (.railOffDelay n) s = .next (railDisable n.val s) := if_pos ⟨hdir, hrev, by simp [hcfg], hen⟩
  refine gives_next hexec ⟨⟨?_, fun k hk => ?_⟩, rfl,
    State.onSeq_only _ _ (by decide) (State.onSeq_only _ _ (by decide) (.refl _ s))⟩
  · rw [railAt_railDisable, if_pos rfl, if_pos hen]
  · rw [railAt_railDisable, if_neg hk]

/-! ## A rail that has risen (R280, R285, R299) -/

/-- Rail `n` of `s` ON with its sample. -/
def railUp (n : Nat) (code : BitVec 12) (s : State) : State :=
  vmonSample n code (onRail n (fun r =>
    { r with phase := .on, pgood := true, counts := { r.counts with ups := satInc 0xFFFF r.counts.ups } }) s)

theorem railUp_only (n : Nat) (code : BitVec 12) (s : State) : OnlyChanges [.seq] s (railUp n code s) :=
  vmonSample_only _ _ _ (by decide) (onRail_only _ _ _ (by decide) (.refl _ s))

theorem railUp_self {s : State} {n : Nat} (code : BitVec 12) (hn : n < s.seq.rails.length) :
    (railAt (railUp n code s) n).phase = .on ∧ (railAt (railUp n code s) n).pgood = true ∧
      (railAt (railUp n code s) n).code = code ∧ (railAt (railUp n code s) n).mv = vmonMv s n code ∧
      (railAt (railUp n code s) n).counts.ups = satInc 0xFFFF (railAt s n).counts.ups := by
  unfold railUp
  rw [vmonSample_eq, railAt_onRail_listed _ (by rw [length_onRail]; exact hn), railAt_onRail_listed _ hn]
  exact ⟨rfl, rfl, rfl, rfl, rfl⟩

theorem railUp_others {s : State} {n k : Nat} (code : BitVec 12) (hk : k ≠ n) :
    railAt (railUp n code s) k = railAt s k := by
  unfold railUp
  rw [vmonSample_eq, railAt_onRail_ne _ _ hk, railAt_onRail_ne _ _ hk]

theorem execRailRisen_eq {s : State} {n : Fin 16} (code : BitVec 12) (h : (railAt s n.val).phase = .rising) :
    exec (.railRisen n code) s =
      if climbing (railUp n.val code s) && allRisen (railUp n.val code s) then finish (completeState (railUp n.val code s))
      else finish (railUp n.val code s) := by
  show execRailRisen n code s = _
  unfold execRailRisen
  rw [if_neg (by simp [h])]
  rfl

theorem railRisen_stays {s : State} {n : Fin 16} (code : BitVec 12) (h : (railAt s n.val).phase = .rising) (hc : Calm s)
    (hmore : climbing s = false ∨ ∃ k ∈ stateRails s s.seq.st.num, k ≠ n.val ∧ (railAt s k).phase ≠ .on) :
    Gives (.railRisen n code) s fun t => (railAt t n.val).phase = .on ∧ (railAt t n.val).pgood = true ∧
      (railAt t n.val).code = code ∧ (railAt t n.val).mv = vmonMv s n.val code ∧
      (railAt t n.val).counts.ups = satInc 0xFFFF (railAt s n.val).counts.ups ∧
      (∀ k, k ≠ n.val → railAt t k = railAt s k) ∧ t.seq.complete = s.seq.complete ∧ t.seq.st = s.seq.st ∧
      OnlyChanges [.seq, .bus] s t := by
  have hstays : (climbing (railUp n.val code s) && allRisen (railUp n.val code s)) = false := by
    rcases hmore with hclimb | ⟨k, hk, hne, hphase⟩
    · have hup : climbing (railUp n.val code s) = climbing s := rfl
      rw [hup, hclimb, Bool.false_and]
    · rw [allRisen_false (s := railUp n.val code s) hk (by rw [railUp_others code hne]; exact hphase), Bool.and_false]
  have hexec : exec (.railRisen n code) s = finish (railUp n.val code s) := by
    rw [execRailRisen_eq code h, if_neg (by simp [hstays])]
  refine gives_finish hexec hc fun t hn => ?_
  obtain ⟨b, rfl⟩ := hn.eq_onBus
  obtain ⟨hphase, hpgood, hcode, hmv, hups⟩ := railUp_self code (listed_of_phase (by rw [h]; exact RailPhase.noConfusion))
  exact ⟨hphase, hpgood, hcode, hmv, hups, fun k hk => railUp_others code hk, rfl, rfl,
    State.onBus_only _ _ (by decide) ((railUp_only _ _ s).mono (by decide))⟩

/-! ## A state that is complete (R285, R203) -/

/-- With nothing mapped, the retirement of a die drains nothing again. -/
theorem redrainDie_unmapped (d : Nat) {s : State} (h : s.lake.mapping = []) : redrainDie d s = s := by
  unfold redrainDie; rw [h]; rfl

/-- What the retirement of a die moves while nothing is mapped. -/
def retireParts : List Part := [.flash, .save, .basin, .host, .cxl, .free, .wl, .bus, .out]

theorem retireDie_unmapped (d : Nat) {s : State} (h : s.lake.mapping = []) : OnlyChanges retireParts s (retireDie d s) := by
  unfold retireDie
  split
  · exact .refl _ s
  · refine (record_reported _ _ _ _ _).onlyChanges (by decide) ?_
    dsimp only
    split
    · exact State.onSave_only _ _ (by decide) (moveSaveJobs_only _ _ (by decide) (State.onFlash_only _ _ (by decide) (.refl _ s)))
    · simp only [redrainDie_unmapped, State.onFlash_lake, h]
      exact State.onFlash_only _ _ (by decide) (.refl _ s)

theorem retireDies_unmapped : ∀ (ds : List Nat) {s : State}, s.lake.mapping = [] →
    OnlyChanges retireParts s (ds.foldl (fun s d => retireDie d s) s)
  | [], s, _ => .refl _ s
  | d :: ds, s, h => by
    have hone := retireDie_unmapped d h
    have hlake : (retireDie d s).lake = s.lake := hone .lake (by decide)
    exact hone.trans (retireDies_unmapped ds (by rw [hlake]; exact h))

theorem identifyFlash_unmapped {s : State} (h : s.lake.mapping = []) :
    OnlyChanges (.lake :: retireParts) s (identifyFlash s) := by
  have hwait : OnlyChanges [.flash] s (s.onFlash fun f =>
      { f with wpN := f.wpN && !s.flash.channels.any fun c => decide (c.state = .identifying)
               channels := (f.channels.zip (List.range 32)).map (identified s.upd.active) }) :=
    State.onFlash_only _ _ (by decide) (.refl _ s)
  unfold identifyFlash
  dsimp only
  split
  · exact hwait.mono (by decide)
  · have hread := reviveDies_only (cs := [.flash]) _ (by decide) (loadKey_only _ (by decide) hwait)
    have hlake := hread .lake (by decide)
    refine sizePools_only _ (by decide) (sizeLakebed_only _ (by decide) (only_foldl (fun s d => readMarks_only d s (by decide)) _ _ ?_))
    refine (hread.mono (by decide)).trans ((retireDies_unmapped _ ?_).mono (by decide))
    exact (congrArg Lakebed.mapping hlake).trans h

/-- The sequencer of `s` once its state is complete. -/
def completedSeq (s : State) : Seq :=
  { s.seq with
    complete := true, catchDrive := if s.seq.st.num = 1 then s.seq.catchDrive else false
    dir := if s.seq.st.num = 6 ∨ s.seq.st.num = 1 then .steady else s.seq.dir
    mrstStretch := s.seq.mrstStretch || decide (s.seq.st.num = s.od.mrstState)
    frstStretch := s.seq.frstStretch || decide (s.seq.st.num = s.od.frstState) }

/-- The flash channels of the variant wait to be identified (R203). -/
def toIdentify (s : State) : State :=
  (s.onSeq fun _ => completedSeq s).onFlash fun f => { f with channels := (f.channels.zip (List.range 32)).map fun c =>
    if c.2 < s.cfg.flashChannels then { c.1 with state := .identifying } else c.1 }

theorem completeState_eq (s : State) : completeState s =
    if boathouse s then s.onSeq fun _ => completedSeq s
    else if s.seq.st.num = 3 then
      (s.onSeq fun _ => completedSeq s).onDram fun d => { d with channels := (d.channels.zip (List.range 8)).map fun c =>
        if c.2 < s.cfg.dramChannels then { c.1 with state := .training } else c.1 }
    else if s.seq.st.num = 4 then
      if anyMember s then identifyFlash (toIdentify s) else toIdentify s
    else s.onSeq fun _ => completedSeq s := rfl

theorem completeState_leaves {s : State} (h : s.lake.mapping = []) :
    (completeState s).seq = completedSeq s ∧ (completeState s).log = s.log ∧ (completeState s).fault = s.fault ∧
      StateCompletes s (completeState s) := by
  have hseq : OnlyChanges [.seq] s (s.onSeq fun _ => completedSeq s) := State.onSeq_only _ _ (by decide) (.refl _ s)
  have hwait : OnlyChanges [.seq, .flash] s (toIdentify s) := State.onFlash_only _ _ (by decide) (hseq.mono (by decide))
  rw [completeState_eq]
  split
  · exact ⟨rfl, rfl, rfl, fun _ => hseq.mono (by decide), hseq.mono (by decide)⟩
  · split
    · have hdram := State.onDram_only (cs := [.seq, .dram]) (fun d => { d with channels := (d.channels.zip (List.range 8)).map fun c =>
        if c.2 < s.cfg.dramChannels then { c.1 with state := .training } else c.1 }) _ (by decide) (hseq.mono (by decide))
      exact ⟨rfl, rfl, rfl, fun _ => hdram.mono (by decide), hdram.mono (by decide)⟩
    · split
      case isTrue hflash =>
        split
        case isTrue hmember =>
          have hid := identifyFlash_unmapped (s := toIdentify s) h
          have hall : OnlyChanges (.seq :: .lake :: retireParts) s (identifyFlash (toIdentify s)) :=
            (hwait.mono (by decide)).trans (hid.mono (by decide))
          refine ⟨hid .seq (by decide), hall .log (by decide), hall .fault (by decide), fun hno => ?_, hall.mono (by decide)⟩
          rcases hno with hno | hno
          · exact absurd (show s.seq.st = .flash by revert hflash; cases s.seq.st <;> simp [SeqSt.num]) hno
          · exact absurd hmember (by simp [hno])
        case isFalse => exact ⟨rfl, rfl, rfl, fun _ => hwait.mono (by decide), hwait.mono (by decide)⟩
      case isFalse => exact ⟨rfl, rfl, rfl, fun _ => hseq.mono (by decide), hseq.mono (by decide)⟩

/-- The end of a command moves no more of what completes a state. -/
theorem StateCompletes.noticed {s u t : State} (h : StateCompletes s u) (hn : Noticed u t) : StateCompletes s t :=
  ⟨fun hs => hn.onlyChanges (by decide) (h.1 hs), hn.onlyChanges (by decide) h.2⟩

/-- What moved the sequencer before its state completes counts with it. -/
theorem StateCompletes.after_seq {s v t : State} (hv : OnlyChanges [.seq] s v) (hst : v.seq.st = s.seq.st)
    (h : StateCompletes v t) : StateCompletes s t := by
  have hcrew : v.crew = s.crew := hv .crew (by decide)
  have hmember : anyMember v = anyMember s := by unfold anyMember; simp only [isMember_of_crew hcrew]
  refine ⟨fun hs => (hv.mono (by decide)).trans (h.1 ?_), (hv.mono (by decide)).trans h.2⟩
  rw [hst, hmember]
  exact hs

theorem railRisen_completes {s : State} {n : Fin 16} (code : BitVec 12) (h : (railAt s n.val).phase = .rising) (hc : Calm s)
    (hclimb : climbing s = true) (hmapping : s.lake.mapping = [])
    (hothers : ∀ k ∈ stateRails s s.seq.st.num, k ≠ n.val → (railAt s k).phase = .on) :
    Gives (.railRisen n code) s fun t => (railAt t n.val).phase = .on ∧ (railAt t n.val).pgood = true ∧
      (∀ k, k ≠ n.val → railAt t k = railAt s k) ∧ t.seq.complete = true ∧ t.seq.st = s.seq.st ∧
      (s.seq.st ≠ .aux → t.seq.catchDrive = false) ∧ StateCompletes s t := by
  obtain ⟨hphase, hpgood, -⟩ := railUp_self code (listed_of_phase (by rw [h]; exact RailPhase.noConfusion))
  have hrisen : allRisen (railUp n.val code s) = true := by
    refine List.all_eq_true.mpr fun k hk => ?_
    by_cases hkn : k = n.val
    · rw [hkn, hphase]; rfl
    · rw [railUp_others code hkn, hothers k hk hkn]; rfl
  have hexec : exec (.railRisen n code) s = finish (completeState (railUp n.val code s)) := by
    rw [execRailRisen_eq code h, if_pos]
    rw [hrisen, Bool.and_true]
    exact hclimb
  obtain ⟨hseq, hlog, hfault, hparts⟩ := completeState_leaves (s := railUp n.val code s) hmapping
  refine gives_finish hexec (calm_of_eq (s := railUp n.val code s) hc hlog hfault) fun t hn => ?_
  have htseq : t.seq = completedSeq (railUp n.val code s) := (hn.only .seq (by decide)).trans hseq
  have hrails (k : Nat) : railAt t k = railAt (railUp n.val code s) k := by unfold railAt; rw [htseq]; rfl
  refine ⟨by rw [hrails]; exact hphase, by rw [hrails]; exact hpgood, fun k hk => by rw [hrails, railUp_others code hk],
    by rw [htseq]; rfl, by rw [htseq]; rfl, fun hst => ?_, StateCompletes.after_seq (railUp_only _ _ s) rfl (StateCompletes.noticed hparts hn)⟩
  rw [htseq]
  exact if_neg fun hnum => hst (show s.seq.st = .aux by
    have hnum' : s.seq.st.num = 1 := hnum
    revert hnum'; cases s.seq.st <;> simp [SeqSt.num])

theorem stateCompleteNoRail_completes {s : State} (hclimb : climbing s = true) (hnone : stateRails s s.seq.st.num = [])
    (hst : s.seq.st ≠ .dark) (hmapping : s.lake.mapping = []) (hc : Calm s) :
    Gives .stateCompleteNoRail s fun t => t.seq.complete = true ∧ t.seq.st = s.seq.st ∧ StateCompletes s t := by
  have hexec : exec .stateCompleteNoRail s = finish (completeState s) := if_pos (by simp [hclimb, hnone, hst])
  obtain ⟨hseq, hlog, hfault, hparts⟩ := completeState_leaves hmapping
  refine gives_finish hexec (calm_of_eq hc hlog hfault) fun t hn => ?_
  have htseq : t.seq = completedSeq s := (hn.only .seq (by decide)).trans hseq
  exact ⟨by rw [htseq]; rfl, by rw [htseq]; rfl, StateCompletes.noticed hparts hn⟩

/-! ## A rail that falls (R281, R287, R293) -/

/-- Rail `n` of `s` OFF, `s` being what its fall leaves. -/
def railOff (n : Nat) (s : State) : State := onRail n (fun r => { r with phase := .off, warn := false, fault := false }) s

theorem railGone_descends {n : Nat} {s : State} (hrev : s.seq.reversing = false) (hdir : s.seq.dir = .down) :
    railGone n s = descend 7 (railOff n s) := by
  have hrev' : (railOff n s).seq.reversing = false := hrev
  have hdir' : (railOff n s).seq.dir = .down := hdir
  show (if (railOff n s).seq.reversing then reverseNext (railOff n s)
    else if (railOff n s).seq.dir = .down then descend 7 (railOff n s) else railOff n s) = _
  rw [hrev', if_neg Bool.false_ne_true, if_pos hdir']

theorem railOff_others {n k : Nat} (s : State) (hk : k ≠ n) : railAt (railOff n s) k = railAt s k := railAt_onRail_ne _ _ hk

/-- A rail of the state that is still on holds the descent. -/
theorem railGone_stays {n : Nat} {s : State} (hrev : s.seq.reversing = false) (hdir : s.seq.dir = .down)
    (hmore : ∃ k ∈ stateRails s s.seq.st.num, k ≠ n ∧ (railAt s k).phase ≠ .off) : railGone n s = railOff n s := by
  obtain ⟨k, hk, hne, hphase⟩ := hmore
  rw [railGone_descends hrev hdir]
  exact descend_stays (allFallen_false (s := railOff n s) hk (by rw [railOff_others s hne]; exact hphase)) 7

/-- Rail `n` of `s` falling, with power good lost and a sample. -/
def railDown (n : Nat) (code : BitVec 12) (s : State) : State := vmonSample n code (onRail n (fun r => { r with pgood := false }) s)

theorem railDown_only (n : Nat) (code : BitVec 12) (s : State) : OnlyChanges [.seq] s (railDown n code s) :=
  vmonSample_only _ _ _ (by decide) (onRail_only _ _ _ (by decide) (.refl _ s))

theorem railOffDown_only (n : Nat) (code : BitVec 12) (s : State) : OnlyChanges [.seq] s (railOff n (railDown n code s)) :=
  onRail_only _ _ _ (by decide) (railDown_only n code s)

theorem railDown_others {s : State} {n k : Nat} (code : BitVec 12) (hk : k ≠ n) :
    railAt (railDown n code s) k = railAt s k := by
  unfold railDown
  rw [vmonSample_eq, railAt_onRail_ne _ _ hk, railAt_onRail_ne _ _ hk]

theorem railOffDown_others {s : State} {n k : Nat} (code : BitVec 12) (hk : k ≠ n) :
    railAt (railOff n (railDown n code s)) k = railAt s k := by
  rw [railOff_others _ hk, railDown_others code hk]

theorem railOffDown_self {s : State} {n : Nat} (code : BitVec 12) (hn : n < s.seq.rails.length) :
    (railAt (railOff n (railDown n code s)) n).phase = .off ∧ (railAt (railOff n (railDown n code s)) n).pgood = false ∧
      (railAt (railOff n (railDown n code s)) n).code = code := by
  unfold railOff railDown
  rw [railAt_onRail_listed _ (by rw [vmonSample_eq, length_onRail, length_onRail]; exact hn), vmonSample_eq,
    railAt_onRail_listed _ (by rw [length_onRail]; exact hn), railAt_onRail_listed _ hn]
  exact ⟨rfl, rfl, rfl⟩

theorem execRailFallen_eq {s : State} {n : Fin 16} (code : BitVec 12) (h : (railAt s n.val).phase = .falling) :
    exec (.railFallen n code) s = finish (railGone n.val (railDown n.val code s)) := if_neg (by simp [h])

theorem listed_of_falling {s : State} {n : Nat} (h : (railAt s n).phase = .falling) : n < s.seq.rails.length :=
  listed_of_phase (by rw [h]; exact RailPhase.noConfusion)

theorem railFallen_stays {s : State} {n : Fin 16} (code : BitVec 12) (h : (railAt s n.val).phase = .falling)
    (hdir : s.seq.dir = .down) (hrev : s.seq.reversing = false) (hc : Calm s)
    (hmore : ∃ k ∈ stateRails s s.seq.st.num, k ≠ n.val ∧ (railAt s k).phase ≠ .off) :
    Gives (.railFallen n code) s fun t => (railAt t n.val).phase = .off ∧ (railAt t n.val).pgood = false ∧
      (railAt t n.val).code = code ∧ (∀ k, k ≠ n.val → railAt t k = railAt s k) ∧ t.seq.st = s.seq.st ∧
      OnlyChanges [.seq, .bus] s t := by
  obtain ⟨k, hk, hne, hphase⟩ := hmore
  have hstays : railGone n.val (railDown n.val code s) = railOff n.val (railDown n.val code s) :=
    railGone_stays hrev hdir ⟨k, hk, hne, by rw [railDown_others code hne]; exact hphase⟩
  have hexec : exec (.railFallen n code) s = finish (railOff n.val (railDown n.val code s)) := by
    rw [execRailFallen_eq code h, hstays]
  obtain ⟨hoff, hpgood, hcode⟩ := railOffDown_self code (listed_of_falling h)
  have honly := railOffDown_only n.val code s
  refine gives_finish hexec (calm_of_eq hc (honly .log (by decide)) (honly .fault (by decide))) fun t hn => ?_
  have htseq : t.seq = (railOff n.val (railDown n.val code s)).seq := hn.only .seq (by decide)
  refine ⟨?_, ?_, ?_, fun k hk => ?_, by rw [htseq]; rfl, hn.onlyChanges (by decide) (honly.mono (by decide))⟩
  · rw [railAt_of_seq htseq, hoff]
  · rw [railAt_of_seq htseq, hpgood]
  · rw [railAt_of_seq htseq, hcode]
  · rw [railAt_of_seq htseq, railOffDown_others code hk]

/-- `s` with rail `n` counted as one that does not fall, its power good a free value. -/
def notFallen (n : Nat) (s : State) : State :=
  onRail n (fun r => { r with pgood := decide (Config.freeBits 1 s.free = 1)
                              counts := { r.counts with noFall := satInc 0xFFFF r.counts.noFall } }) { s with free := s.free + 1 }

theorem notFallen_only (n : Nat) (s : State) : OnlyChanges [.seq, .free] s (notFallen n s) :=
  onRail_only _ _ _ (by decide) (free_only _ _ (by decide) (.refl _ s))

theorem fallTimeout_stays {s : State} {n : Fin 16} (h : (railAt s n.val).phase = .falling) (hdir : s.seq.dir = .down)
    (hrev : s.seq.reversing = false) (hc : Calm s)
    (hmore : ∃ k ∈ stateRails s s.seq.st.num, k ≠ n.val ∧ (railAt s k).phase ≠ .off) :
    Gives (.fallTimeout n) s fun t => (railAt t n.val).phase = .off ∧
      (railAt t n.val).counts.noFall = satInc 0xFFFF (railAt s n.val).counts.noFall ∧
      (∀ k, k ≠ n.val → railAt t k = railAt s k) ∧ t.seq.st = s.seq.st ∧
      OnlyChanges [.seq, .free, .wl, .cxl, .host, .out, .bus] s t := by
  obtain ⟨k, hk, hne, hphase⟩ := hmore
  have hrep : Reported (notFallen n.val s) (record 0x0603 4 0x6000 n.val (notFallen n.val s)) := record_reported _ _ _ _ _
  generalize hv : record 0x0603 4 0x6000 n.val (notFallen n.val s) = v at hrep
  have hseq : v.seq = (notFallen n.val s).seq := hrep.only .seq (by decide)
  have hothers (k : Nat) (hk : k ≠ n.val) : railAt v k = railAt s k := by
    rw [railAt_of_seq hseq]
    exact railAt_onRail_ne _ _ hk
  have hself : (railAt v n.val).counts.noFall = satInc 0xFFFF (railAt s n.val).counts.noFall := by
    rw [railAt_of_seq hseq]
    exact congrArg (fun r : Rail => r.counts.noFall) (railAt_onRail_listed _ (listed_of_falling h))
  have hlisted : n.val < v.seq.rails.length := by
    rw [hseq]
    exact Nat.lt_of_lt_of_eq (listed_of_falling h) (length_onRail _ _ _).symm
  have hstate : stateRails v v.seq.st.num = stateRails s s.seq.st.num := by
    unfold stateRails railIn railCfgAt; rw [hseq]; rfl
  have hstays : railGone n.val v = railOff n.val v :=
    railGone_stays (by rw [hseq]; exact hrev) (by rw [hseq]; exact hdir)
      ⟨k, by rw [hstate]; exact hk, hne, by rw [hothers k hne]; exact hphase⟩
  have hexec : exec (.fallTimeout n) s = finish (railOff n.val v) := by
    rw [← hstays, ← hv]
    exact if_neg (by simp [h, hdir])
  have honly : OnlyChanges [.seq, .free, .wl, .cxl, .host, .out, .bus] s (railOff n.val v) :=
    onRail_only _ _ _ (by decide) (hrep.onlyChanges (by decide) ((notFallen_only _ s).mono (by decide)))
  refine gives_finish hexec (calm_of_eq hc (honly .log (by decide)) (honly .fault (by decide))) fun t hn => ?_
  have htseq : t.seq = (railOff n.val v).seq := hn.only .seq (by decide)
  have hoff : railAt (railOff n.val v) n.val = { railAt v n.val with phase := .off, warn := false, fault := false } :=
    railAt_onRail_listed _ hlisted
  refine ⟨?_, ?_, fun k hk => ?_, ?_, hn.onlyChanges (by decide) honly⟩
  · rw [railAt_of_seq htseq, hoff]
  · rw [railAt_of_seq htseq, hoff]; exact hself
  · rw [railAt_of_seq htseq, railOff_others v hk, hothers k hk]
  · have hst : (railOff n.val v).seq.st = v.seq.st := rfl
    rw [htseq, hst, hseq]
    rfl

/-- A state whose rails have all fallen, above CORE, is left for the one below it. -/
def stateBelow (s : State) : State :=
  startStateDown ((if s.seq.st = .link then s.onHost fun h => { h with clkreq := false } else s).onSeq fun q =>
    { q with st := SeqSt.ofNum (q.st.num - 1), stateStart := s.tb.now })

theorem descend_below {s : State} (hfallen : allFallen s = true) (hnum : 3 ≤ s.seq.st.num) (n : Nat) :
    descend (n + 1) s = descend n (stateBelow s) := by
  have hmany : ¬ s.seq.st.num ≤ 1 := by omega
  have hcore : ¬ (s.seq.st.num = 2 ∧ s.seq.target = .aux) := by omega
  have htime (t : State) : (if s.seq.st = .link then t.onHost fun h => { h with clkreq := false } else t).tb.now = t.tb.now := by
    split <;> rfl
  simp only [descend, hfallen, Bool.not_true, Bool.false_eq_true, if_false, hmany, hcore]
  exact congrArg (fun x => descend n (startStateDown x)) (congrArg
    (fun time => (if s.seq.st = .link then s.onHost fun h => { h with clkreq := false } else s).onSeq fun q =>
      { q with st := SeqSt.ofNum (q.st.num - 1), stateStart := time }) (htime s))

theorem stateBelow_only (s : State) : OnlyChanges [.seq, .host, .flash] s (stateBelow s) := by
  unfold stateBelow
  refine startStateDown_only _ (by decide) (State.onSeq_only _ _ (by decide) ?_)
  split
  · exact State.onHost_only _ _ (by decide) (.refl _ s)
  · exact .refl _ s

theorem stateBelow_seq {s : State} (hnum : 3 ≤ s.seq.st.num) : (stateBelow s).seq.st.num = s.seq.st.num - 1 ∧
    (stateBelow s).seq.dir = s.seq.dir ∧ (stateBelow s).seq.rails = s.seq.rails ∧
      (stateBelow s).seq.railCfg = s.seq.railCfg ∧ (stateBelow s).seq.mask = s.seq.mask := by
  have hseq : (if s.seq.st = .link then s.onHost fun h => { h with clkreq := false } else s).seq = s.seq := by split <;> rfl
  have hdown : (SeqSt.ofNum (s.seq.st.num - 1)).num = s.seq.st.num - 1 := by
    cases h : s.seq.st <;> simp [h, SeqSt.num] at hnum <;> rfl
  unfold stateBelow
  rw [startStateDown_seq]
  simp only [State.onSeq_seq, hseq]
  exact ⟨hdown, trivial, trivial, trivial, trivial⟩

/-- The last rail of a state above CORE falls while rails of the state below are on: the descent goes to that state and no
further (R293). -/
theorem railFallen_descends {s : State} {n : Fin 16} (code : BitVec 12) (h : (railAt s n.val).phase = .falling)
    (hdir : s.seq.dir = .down) (hrev : s.seq.reversing = false) (hc : Calm s) (hnum : 3 ≤ s.seq.st.num)
    (hlast : ∀ k ∈ stateRails s s.seq.st.num, k ≠ n.val → (railAt s k).phase = .off)
    (hbelow : ∃ k ∈ stateRails s (s.seq.st.num - 1), k ≠ n.val ∧ (railAt s k).phase ≠ .off) :
    Gives (.railFallen n code) s fun t => (railAt t n.val).phase = .off ∧ t.seq.st.num = s.seq.st.num - 1 ∧
      t.seq.dir = .down ∧ (∀ k, k ≠ n.val → railAt t k = railAt s k) ∧ OnlyChanges [.seq, .host, .flash, .bus] s t := by
  obtain ⟨hoff, -⟩ := railOffDown_self code (listed_of_falling h)
  have hothers (k : Nat) (hk : k ≠ n.val) := railOffDown_others (s := s) code hk
  have honly := railOffDown_only n.val code s
  have hgone : railGone n.val (railDown n.val code s) = descend 7 (railOff n.val (railDown n.val code s)) :=
    railGone_descends hrev hdir
  have hst : (railOff n.val (railDown n.val code s)).seq.st = s.seq.st := rfl
  have hudir : (railOff n.val (railDown n.val code s)).seq.dir = s.seq.dir := rfl
  have hrails (k : Nat) : stateRails (railOff n.val (railDown n.val code s)) k = stateRails s k := rfl
  generalize railOff n.val (railDown n.val code s) = u at *
  have hfallen : allFallen u = true := by
    refine List.all_eq_true.mpr fun k hk => ?_
    have haux : u.seq.st ≠ .aux := fun ha => by rw [← hst, ha] at hnum; simp [SeqSt.num] at hnum
    have hdown : downRail u k = railIn u u.seq.st.num k := by simp [downRail, haux]
    rw [hdown]
    cases hin : railIn u u.seq.st.num k with
    | false => rfl
    | true =>
      have hmem : k ∈ stateRails s s.seq.st.num := by
        rw [← hrails, ← hst]
        exact List.mem_filter.mpr ⟨hk, hin⟩
      by_cases hkn : k = n.val
      · simp [hkn, hoff]
      · simp [hothers k hkn, hlast k hmem hkn]
  obtain ⟨hbst, hbdir, hbrails, hbcfg, hbmask⟩ := stateBelow_seq (s := u) (by rw [hst]; exact hnum)
  have hat (k : Nat) : railAt (stateBelow u) k = railAt u k := by unfold railAt; rw [hbrails]
  have hholds : allFallen (stateBelow u) = false := by
    obtain ⟨k, hk, hne, hphase⟩ := hbelow
    refine allFallen_false (k := k) ?_ (by rw [hat, hothers k hne]; exact hphase)
    have hsame : stateRails (stateBelow u) (stateBelow u).seq.st.num = stateRails u (u.seq.st.num - 1) := by
      rw [hbst]; unfold stateRails railIn railCfgAt; rw [hbcfg, hbmask]
    rw [hsame, hrails, hst]
    exact hk
  have hexec : exec (.railFallen n code) s = finish (stateBelow u) := by
    rw [execRailFallen_eq code h, hgone, descend_below hfallen (by rw [hst]; exact hnum), descend_stays hholds]
  have hall : OnlyChanges [.seq, .host, .flash, .bus] s (stateBelow u) :=
    (honly.mono (by decide)).trans ((stateBelow_only u).mono (by decide))
  refine gives_finish hexec (calm_of_eq hc (hall .log (by decide)) (hall .fault (by decide))) fun t hn => ?_
  have htseq : t.seq = (stateBelow u).seq := hn.only .seq (by decide)
  refine ⟨?_, by rw [htseq, hbst, hst], by rw [htseq, hbdir, hudir, hdir], fun k hk => ?_, hn.onlyChanges (by decide) hall⟩
  · rw [railAt_of_seq htseq, hat, hoff]
  · rw [railAt_of_seq htseq, hat, hothers k hk]

/-! ## A rail that does not rise (R281, R287, R294) -/

/-- `t` is `s` with the latch set, its first cause kept. -/
structure Latches (cause rail : Nat) (s t : State) : Prop where
  only : OnlyChanges [.wl, .seq, .boot, .bus] s t
  latched : t.seq.latched = true
  first : s.seq.latched = false → t.seq.latchCause = cause ∧ t.seq.latchRail = rail
  saved : t.boot = { s.boot with
    latchPage := t.boot.latchPage, latchSaved := true, latchSavedCause := t.seq.latchCause, latchSavedRail := t.seq.latchRail }
  kept : t.seq = { s.seq with latched := t.seq.latched, latchCause := t.seq.latchCause, latchRail := t.seq.latchRail }

theorem setLatch_latches (cause rail : Nat) (s : State) : Latches cause rail s (setLatch cause rail s) := by
  have hrecord : OnlyChanges [.wl, .boot] s (if s.seq.latched then s else latchRecord s) := by
    split
    · exact .refl _ s
    · exact latchRecord_only _ (by decide) (.refl _ s)
  have hboot : ∃ p, (if s.seq.latched then s else latchRecord s).boot = { s.boot with latchPage := p } := by
    split
    · exact ⟨_, rfl⟩
    · exact ⟨_, rfl⟩
  obtain ⟨p, hboot⟩ := hboot
  have honly : OnlyChanges [.wl, .seq, .boot, .bus] s (setLatch cause rail s) := setLatch_only _ _ _ (by decide) (.refl _ s)
  revert honly
  unfold setLatch
  generalize (if s.seq.latched then s else latchRecord s) = v at hrecord hboot
  have hcall : OnlyChanges [.bus] v (if (statusByte v).getLsbD 7 then v else raiseCall v) := by
    split
    · exact .refl _ v
    · exact raiseCall_only _ (by decide) (.refl _ v)
  dsimp only
  generalize (if (statusByte v).getLsbD 7 then v else raiseCall v) = w at hcall
  have hwseq : w.seq = s.seq := (hcall .seq (by decide)).trans (hrecord .seq (by decide))
  have hwboot : w.boot = { s.boot with latchPage := p } := (hcall .boot (by decide)).trans hboot
  intro honly
  have hseq : (w.onSeq fun q => if q.latched then q else { q with latched := true, latchCause := cause, latchRail := rail }).seq =
      if s.seq.latched then s.seq else { s.seq with latched := true, latchCause := cause, latchRail := rail } := by
    rw [State.onSeq_seq, hwseq]
  refine ⟨honly, ?_, fun h => ?_, ?_, ?_⟩ <;> simp only [State.onBoot_seq, State.onBoot_boot, State.onSeq_boot, hseq, hwboot]
  · split
    · assumption
    · rfl
  · simp [h]
  · split <;> rfl

/-- `s` with rail `n` counted as one that does not rise. -/
def notRisen (n : Nat) (s : State) : State :=
  onRail n (fun r => { r with counts := { r.counts with noRise := satInc 0xFFFF r.counts.noRise } }) s

/-- `s` as a descent in reverse order begins. -/
def reversed (s : State) : State :=
  s.onSeq fun q =>
    { q with dir := .down, target := .dark, reversing := true, catchDrive := false, catchPulse := false, staggering := false
             onCommand := false, complete := false, mrstStretch := false, frstStretch := false }

/-- The last rail enabled is disabled first (R287, R298). -/
theorem reverseNext_disables {s : State} {m : Nat} (hnone : (s.seq.rails.any fun r => decide (r.phase = .falling)) = false)
    (hm : s.seq.enabled.getLast? = some m) : reverseNext s = railDisable m (assertResets (railCfgAt s m).state s) := by
  simp [reverseNext, hnone, hm]

theorem assertResets_seq (k : Nat) (s : State) : (assertResets k s).seq = { s.seq with
    mrst := s.seq.mrst || decide (k ≤ s.od.mrstState), frst := s.seq.frst || decide (k ≤ s.od.frstState) } := rfl

/-- A count of a rail that does not rise makes no rail fall. -/
theorem notRisen_noneFalling {s : State} (n : Nat) (h : (s.seq.rails.any fun r => decide (r.phase = .falling)) = false) :
    ((notRisen n s).seq.rails.any fun r => decide (r.phase = .falling)) = false := by
  rw [List.any_eq_false] at h ⊢
  intro r hr
  rcases mem_listUpd hr with hx | ⟨x, hx, rfl⟩
  · exact h r hx
  · exact h x (List.mem_of_getElem? hx)

theorem execRiseTimeout_eq {s : State} {n : Fin 16} (h : (railAt s n.val).phase = .rising) (hdir : s.seq.dir ≠ .down) :
    exec (.riseTimeout n) s = finish (reverseNext (reversed (setLatch 2 n.val (record 0x0602 6 0x6000 n.val (notRisen n.val s))))) :=
  if_neg (by simp [h, hdir])

/-- What the first step of a descent in reverse order leaves of the sequencer, whose rails are those of `q`. -/
theorem reversed_leaves {w : State} {q : Seq} (m k : Nat) (hrails : w.seq.rails = q.rails) (henabled : w.seq.enabled = q.enabled) :
    ∃ x : Seq, (railDisable m (assertResets k (reversed w))).seq = x ∧ x.latched = w.seq.latched ∧
      x.latchCause = w.seq.latchCause ∧ x.latchRail = w.seq.latchRail ∧ x.dir = .down ∧ x.target = .dark ∧ x.reversing = true ∧
      x.enabled = setDel m q.enabled ∧ x.mrstStretch = false ∧ x.frstStretch = false ∧
      (x.rails.getD m {}).en = false ∧ ∀ n, (x.rails.getD n {}).counts = (q.rails.getD n {}).counts := by
  have hrail (j : Nat) : railAt (assertResets k (reversed w)) j = q.rails.getD j {} := by rw [← hrails]; rfl
  refine ⟨_, rfl, rfl, rfl, rfl, rfl, rfl, rfl, by rw [← henabled]; rfl, rfl, rfl, railDisable_off m (assertResets k (reversed w)),
    fun n => ?_⟩
  have hat := railAt_railDisable m n (assertResets k (reversed w))
  rw [hrail] at hat
  refine (congrArg Rail.counts hat).trans ?_
  split
  · split <;> rfl
  · rfl

theorem riseTimeout_reverses {s : State} {n : Fin 16} (h : (railAt s n.val).phase = .rising) (hdir : s.seq.dir ≠ .down) (hc : Calm s)
    (hnone : (s.seq.rails.any fun r => decide (r.phase = .falling)) = false) {m : Nat} (hm : s.seq.enabled.getLast? = some m) :
    Gives (.riseTimeout n) s fun t => t.seq.latched = true ∧ (s.seq.latched = false → t.seq.latchCause = 2 ∧
        t.seq.latchRail = n.val) ∧ t.boot.latchSaved = true ∧ t.seq.dir = .down ∧ t.seq.target = .dark ∧
      t.seq.reversing = true ∧ t.seq.enabled = setDel m s.seq.enabled ∧ (railAt t m).en = false ∧
      (railAt t n.val).counts.noRise = satInc 0xFFFF (railAt s n.val).counts.noRise ∧
      t.seq.mrstStretch = false ∧ t.seq.frstStretch = false ∧
      OnlyChanges [.seq, .boot, .flash, .free, .wl, .cxl, .host, .out, .bus] s t := by
  have hexec := execRiseTimeout_eq h hdir
  have hrep : Reported (notRisen n.val s) (record 0x0602 6 0x6000 n.val (notRisen n.val s)) := record_reported _ _ _ _ _
  generalize record 0x0602 6 0x6000 n.val (notRisen n.val s) = v at hrep hexec
  have hvseq : v.seq = (notRisen n.val s).seq := hrep.only .seq (by decide)
  have hlatch := setLatch_latches 2 n.val v
  generalize setLatch 2 n.val v = w at hlatch hexec
  obtain ⟨hwonly, hlatched, hfirst, hsaved, hkept⟩ := hlatch
  have hrails : w.seq.rails = (notRisen n.val s).seq.rails := by rw [hkept, hvseq]
  have henabled : w.seq.enabled = (notRisen n.val s).seq.enabled := by rw [hkept, hvseq]
  have hreversed : reverseNext (reversed w) = railDisable m (assertResets (railCfgAt (reversed w) m).state (reversed w)) :=
    reverseNext_disables (by rw [reversed, State.onSeq_seq, hrails]; exact notRisen_noneFalling _ hnone)
      (by rw [reversed, State.onSeq_seq, henabled]; exact hm)
  rw [hreversed] at hexec
  generalize (railCfgAt (reversed w) m).state = k at hexec
  have hall : OnlyChanges [.seq, .boot, .flash, .free, .wl, .cxl, .host, .out, .bus] s
      (railDisable m (assertResets k (reversed w))) :=
    railDisable_only _ _ (by decide) (assertResets_only _ _ (by decide) (State.onSeq_only _ _ (by decide)
      ((hrep.onlyChanges (by decide) (onRail_only _ _ _ (by decide) (.refl _ s))).trans (hwonly.mono (by decide)))))
  have hboot : (railDisable m (assertResets k (reversed w))).boot = w.boot :=
    railDisable_only (cs := [.seq, .flash]) _ _ (by decide) (assertResets_only _ _ (by decide)
      (State.onSeq_only _ _ (by decide) (.refl _ w))) .boot (by decide)
  obtain ⟨x, hx, hxlatched, hxcause, hxrail, hxdir, hxtarget, hxrev, hxenabled, hxm, hxf, hxoff, hxcounts⟩ :=
    reversed_leaves m k hrails henabled
  have hcount : ((notRisen n.val s).seq.rails.getD n.val {}).counts.noRise = satInc 0xFFFF (railAt s n.val).counts.noRise :=
    congrArg (fun r : Rail => r.counts.noRise)
      (railAt_onRail_listed _ (listed_of_phase (by rw [h]; exact RailPhase.noConfusion)))
  generalize railDisable m (assertResets k (reversed w)) = u at *
  refine gives_finish hexec (calm_of_eq hc (hall .log (by decide)) (hall .fault (by decide))) fun t hn => ?_
  obtain rfl : t.seq = x := (hn.only .seq (by decide)).trans hx
  have htboot : t.boot = w.boot := (hn.only .boot (by decide)).trans hboot
  refine ⟨hxlatched.trans hlatched, fun hl => ?_, by rw [htboot, hsaved], hxdir, hxtarget, hxrev, hxenabled, hxoff,
    (congrArg RailCounts.noRise (hxcounts n.val)).trans hcount, hxm, hxf, hn.onlyChanges (by decide) hall⟩
  rw [hxcause, hxrail]
  exact hfirst (by rw [hvseq]; exact hl)

/-- Settles O40: each clause is the lemma about its command. -/
theorem railsClimbAndDescend : Obligations.RailsClimbAndDescend :=
  ⟨fun _ _ hn => ⟨fun hclimb hin hoff => railOnDelay_enables hn hclimb hin hoff,
      fun hdir hrev hcfg hen => railOffDelay_disables hdir hrev hcfg hen⟩,
    fun _ _ code h hc => ⟨fun hmore => railRisen_stays code h hc hmore,
      fun hclimb _ hmapping hothers => railRisen_completes code h hc hclimb hmapping hothers⟩,
    fun _ hclimb hnone hst hmapping hc => stateCompleteNoRail_completes hclimb hnone hst hmapping hc,
    fun _ _ code h hdir hrev hc => ⟨fun hmore => ⟨railFallen_stays code h hdir hrev hc hmore, fallTimeout_stays h hdir hrev hc hmore⟩,
      fun hnum hlast hbelow => railFallen_descends code h hdir hrev hc hnum hlast hbelow⟩,
    fun _ _ h hdir hc hnone _ hm => riseTimeout_reverses h hdir hc hnone hm⟩

end Sys2Proof.Machine
end

section
/-! PROOFS. O42 fails where the junction reaches 120 °C on a device that is chip fatal already (R266): a second chip fatal starts
no power-down. -/

namespace Sys2Proof.Machine
open Sys2Proof

/-- A device that climbs in FLASH, one of its rails ON, chip fatal already. -/
def climbingFatal : State :=
  { State.reset with
    seq := { State.reset.seq with st := .flash, dir := .up, rails := [{ phase := .on }], railCfg := [{ state := 4 }], mask := 1 }
    fault := { chipFatal := true } }

/-- Refutes O42: the device still climbs. -/
theorem not_powerIsSupervisedAndCommanded : ¬ Obligations.PowerIsSupervisedAndCommanded := by
  rintro ⟨⟨-, -, -, -, -, -, htemp⟩, -⟩
  obtain ⟨t, ht, -, -, -, -, hdir, -⟩ := (htemp climbingFatal 120 (by decide)).2.2 (by decide) (by decide) (by decide) (by decide)
    (by decide) (by decide) ⟨rfl, rfl⟩
  have hup : (match exec (.junctionTemperature 120) climbingFatal with
      | .next u => u.seq.dir
      | _ => .down) = .up := by decide +kernel
  rw [ht] at hup
  exact SeqDir.noConfusion (hdir.symm.trans hup)

end Sys2Proof.Machine
end

section
/-! PROOFS. O43 fails where a string that took a FAULT before its pack changed rests: it is FAILED again, not COUNTED (R308; log
111). O44 fails where the setting that ends the last counted string admits a held first-write while the dirty log is full
(R111, R124, R155). -/

namespace Sys2Proof.Machine
open Sys2Proof

/-! ## A rest after a FAULT (R308, R312) -/

/-- A device whose one crew runs the gauge, string A UNKNOWN with FAULT among its reasons. -/
def unknownFaulted : State :=
  { State.reset with
    seq := { State.reset.seq with st := .online, vddAon := true }
    crew := { State.reset.crew with bow := { st := .member } }
    bat := { State.reset.bat with
      takenUp := true, desc := ModuleConfig.reference.packs.head?.map Prod.snd, a := { st := .unknown, reasons := [.fault] } } }

/-- Refutes O43: the rest makes the string FAILED. -/
theorem not_gaugeFollowsTheStrings : ¬ Obligations.GaugeFollowsTheStrings := by
  rintro ⟨-, hrest, -⟩
  obtain ⟨d, hd⟩ : ∃ d, unknownFaulted.bat.desc = some d := Option.isSome_iff_exists.mp (by decide)
  obtain ⟨t, ht, -, -, -, -, -, -, -, -, hst, -⟩ :=
    (hrest unknownFaulted .a d (by decide) (by decide) (by decide) hd ⟨rfl, rfl⟩).1 rfl
  have hfailed : (match exec (.restQualified .a) unknownFaulted with
      | .next u => (strOf u .a).st
      | _ => .counted) = .failed := by decide +kernel
  rw [ht] at hfailed
  exact StrState.noConfusion (hst.symm.trans hfailed)

/-! ## The setting of a string's state (R326) -/

/-- A device that saves for a chip fatal, string A counted, with a held write and the spilled log entries `l`. -/
def countedSpill (l : List LogEntry) : State :=
  { State.reset with
    seq := { State.reset.seq with st := .online, vddAon := true }
    bat := { State.reset.bat with a := { st := .counted } }
    pm := { buckets := [{ slot := 0, epoch := 0, openSeq := 0, isOpen := true, pages := 0 }] }
    log := { spill := l }
    save := { running := true }
    fault := { chipFatal := true }
    wb := { entries := [weirHeld] } }

/-- `countedSpill l` with string A UNKNOWN. -/
def noneCounted (l : List LogEntry) : State :=
  onStr .a (fun b => { b with st := .unknown, reason := .none, paused := false, reasons := [] }) (countedSpill l)

/-- Refutes O44: the write that the setting admits finds the dirty log full. -/
theorem not_gaugeLearnsAndIsSet : ¬ Obligations.GaugeLearnsAndIsSet := by
  rintro ⟨-, ⟨-, -, hsetting⟩, -⟩
  have hl : spillEntries ≤ (List.replicate spillEntries (LogEntry.reset 0)).length := by rw [List.length_replicate]
  generalize List.replicate spillEntries (LogEntry.reset 0) = l at hl
  obtain ⟨t, ht, -, -, -, -, -, honly⟩ :=
    (hsetting (countedSpill l) .a .unknown .none false rfl ⟨rfl, rfl⟩).1 StrState.noConfusion StrState.noConfusion
  have hexec : exec (.stringStateSetting .a .unknown .none false) (countedSpill l) =
      finish (chargeCheck (unprotectedCheck (noneCounted l))) := rfl
  have hover : (unprotectedCheck (noneCounted l)).log.overflow = true :=
    unprotectedCheck_full (e := weirHeld) (b := { slot := 0, epoch := 0, openSeq := 0, isOpen := true, pages := 0 })
      ⟨rfl, rfl, rfl, rfl, rfl, rfl, rfl, rfl, hl⟩ rfl rfl
  have hkept : OnlyChanges gaugeParts (noneCounted l) (chargeCheck (unprotectedCheck (noneCounted l))) :=
    chargeCheck_only _ (by decide) (unprotectedCheck_only _ (by decide) (.refl _ _))
  have hlater : (chargeCheck (unprotectedCheck (noneCounted l))).fault = (countedSpill l).fault := hkept .fault (by decide)
  have hsave : (chargeCheck (unprotectedCheck (noneCounted l))).save = (countedSpill l).save := hkept .save (by decide)
  have hsticky := finish_full (s := chargeCheck (unprotectedCheck (noneCounted l))) hover (by rw [hlater]; rfl)
    (by rw [saving, hsave]; rfl) (by rw [hlater]; rfl) (hexec.symm.trans ht)
  have hfault : t.fault = (countedSpill l).fault := honly .fault (by decide)
  rw [capture_of_fault hfault] at hsticky
  exact Bool.false_ne_true hsticky

end Sys2Proof.Machine
end

section
/-! PROOFS. O45: commits in the ledger, the copies of a failed one and its test (R147, R153, R339 to R341, R499). -/

namespace Sys2Proof.Machine
open Sys2Proof

/-! ## Commits that land (R231, R340) -/

/-- Beside its commit, what lands moves the bucket table of the ledger alone. -/
theorem commitOp_ledger (c : OtherCommit) (s : State) : (commitOp c s).ledger =
    { (commit (.other c) s).ledger with buckets := (commitOp c s).ledger.buckets } := by
  cases c <;> rfl

theorem commitOp_after (c : OtherCommit) (s : State) :
    OnlyChanges [.ledger, .dram, .seq, .host] (commit (.other c) s) (commitOp c s) := by
  unfold commitOp
  generalize commit (.other c) s = v
  cases c with
  | bucketOpen slot epoch => exact State.onLedger_only _ _ (by decide) (.refl _ _)
  | bucketRetire slot => exact State.onLedger_only _ _ (by decide) (.refl _ _)
  | trainingRecord ch => exact onCh_only _ _ _ (by decide) (.refl _ _)
  | plan => exact .refl _ _
  | railCounters => exact flushCounts_only _ (by decide) (.refl _ _)
  | gpfPhase2 => exact State.onHost_only _ _ (by decide) (.refl _ _)
  | channelRejoined ch => exact onCh_only _ _ _ (by decide) (.refl _ _)
  | firmware v a => exact .refl _ _

theorem exec_ledgerCommit {s : State} (c : OtherCommit) (hpath : crewPath s = true) :
    exec (.ledgerCommit c) s = .next (commitOp c s) := if_pos hpath

/-- A slot that holds no retired bucket is retired at the position of the log. -/
theorem tabFind_ledgerRetire {slot pos : Nat} {b : LedgerBucket} (hb : b.retirePos = none) :
    ∀ l : List (Nat × LedgerBucket), tabFind slot l = some b →
      tabFind slot (ledgerRetire (fun k => decide (k ≠ slot)) pos l) = some { b with retirePos := some pos }
  | [], h => by simp [tabFind] at h
  | (k, x) :: t, h => by
    unfold tabFind at h
    split at h
    · cases h
    · rename_i hlt
      have hrest : ledgerRetire (fun k => decide (k ≠ slot)) pos ((k, x) :: t) =
          (if decide (k ≠ slot) || x.retirePos.isSome then (k, x) else (k, { x with retirePos := some pos })) ::
            ledgerRetire (fun k => decide (k ≠ slot)) pos t := rfl
      split at h
      case isTrue heq =>
        obtain rfl : x = b := Option.some.inj h
        rw [hrest, if_neg (by simp [heq, hb])]
        simp [tabFind, heq]
      case isFalse hne =>
        have hkept : (decide (k ≠ slot) || x.retirePos.isSome) = true := by simp [Ne.symm hne]
        rw [hrest, if_pos hkept]
        unfold tabFind
        rw [if_neg hlt, if_neg hne]
        exact tabFind_ledgerRetire hb t h

theorem ledgerCommit_stands {s : State} (c : OtherCommit) (hpath : crewPath s = true) (hled : s.ledger.failed = false) :
    Gives (.ledgerCommit c) s fun t =>
      t.ledger.commits = { time := s.tb.now, commit := .other c } :: s.ledger.commits ∧ t.ledger.failed = false ∧
      (∀ slot e, c = .bucketOpen slot e →
        tabFind slot t.ledger.buckets = some { epoch := e, openPos := s.log.pos }) ∧
      (∀ slot b, c = .bucketRetire slot → tabFind slot s.ledger.buckets = some b → b.retirePos = none →
        tabFind slot t.ledger.buckets = some { b with retirePos := some s.log.pos }) ∧
      (c = .gpfPhase2 → t.host = { s.host with gpf := .phase2Done }) ∧
      (c = .plan → OnlyChanges [.ledger] s t) ∧ OnlyChanges [.ledger, .dram, .seq, .host] s t := by
  have hcommit := commit_sound (c := .other c) (s := s) rfl hled
  have hplan : OnlyChanges [.ledger] s (commit (.other c) s) := by
    rw [hcommit]; exact State.onLedger_only _ _ (by decide) (.refl _ s)
  refine gives_next (exec_ledgerCommit c hpath) ⟨?_, ?_, ?_, ?_, ?_, ?_, (hplan.mono (by decide)).trans (commitOp_after c s)⟩
  · rw [commitOp_ledger, hcommit]; rfl
  · rw [commitOp_ledger, hcommit]; exact hled
  · rintro slot e rfl
    unfold commitOp
    rw [hcommit]
    exact tabFind_tabIns_self slot _ _
  · rintro slot b rfl hb hretire
    unfold commitOp
    rw [hcommit]
    exact tabFind_ledgerRetire hretire _ hb
  · rintro rfl
    unfold commitOp
    rw [hcommit]
    rfl
  · rintro rfl
    exact hplan

theorem ledgerCommit_fallback {s : State} (c : OtherCommit) (hpath : crewPath s = true) (hled : s.ledger.failed = true) :
    Gives (.ledgerCommit c) s fun t => t.ledger.commits = s.ledger.commits ∧ t.ledger.failed = true ∧
      t.ledger.fallback = { time := s.tb.now, commit := .other c, held := some s.wl.nextSeq } :: s.ledger.fallback ∧
      OnlyChanges [.free, .ledger, .dram, .seq, .wl, .cxl, .host, .out, .bus] s t := by
  generalize hroot : rootWrite 3 0 (some (.other c)) [] s = v
  have hv : OnlyChanges [.ledger] s v := hroot ▸ State.onLedger_only _ _ (by decide) (.refl _ s)
  have hvled : v.ledger = { s.ledger with ring := v.ledger.ring } := by rw [← hroot]; rfl
  have hcommit : commit (.other c) s = holdCommit (.other c) v := by
    have hvfailed : v.ledger.failed = true := by rw [hvled]; exact hled
    have hnot : (Commit.other c).isCheckpoint = false := rfl
    have hgen : (Commit.other c).gen = 0 := rfl
    unfold commit
    simp only [hnot, hled, hgen, hroot, hvfailed, if_true, Bool.false_eq_true, if_false]
  have hall : OnlyChanges [.free, .ledger, .wl, .cxl, .host, .out, .bus] s (commit (.other c) s) :=
    commit_only _ _ (by decide) (.refl _ s)
  have hheld : (commit (.other c) s).ledger = { v.ledger with
      fallback := { time := s.tb.now, commit := .other c, held := some s.wl.nextSeq } :: v.ledger.fallback } := by
    have htb : v.tb = s.tb := hv .tb (by decide)
    have hwl : v.wl = s.wl := hv .wl (by decide)
    rw [hcommit, ← htb, ← hwl]
    exact (recordWith_reported _ _ _ _ _ _ _ _).only .ledger (by decide)
  refine gives_next (exec_ledgerCommit c hpath) ⟨?_, ?_, ?_, (hall.mono (by decide)).trans ((commitOp_after c s).mono (by decide))⟩ <;>
    rw [commitOp_ledger, hheld, hvled]
  exact hled

/-! ## Copies to flash (R341) -/

theorem chunksThatFit_head (room : Nat) (c : Nat × Nat × Nat) (l : List (Nat × Nat × Nat)) :
    (chunksThatFit room (c :: l)).head? = if 32 + 160 * c.2.2 ≤ room then some c else none := by
  unfold chunksThatFit; split <;> rfl

theorem drop_excess_of_le {α : Type} {cap : Nat} {l : List α} (h : l.length ≤ cap) : l.drop (l.length - cap) = l := by
  rw [Nat.sub_eq_zero_of_le h, List.drop_zero]

theorem waterlineExport_appends {s : State} (hfailed : s.ledger.failed = true) (hvdd : s.seq.vddAon = true) :
    Gives (.waterlineExport true) s fun t =>
      let new := s.wl.ring.filter fun r => decide (s.wl.exportFrom ≤ r.seq)
      (s.wl.exported.length + new.length ≤ exportSlots → t.wl.exported = s.wl.exported ++ new) ∧
      t.wl.chunks.head? = (if 32 + 160 * new.length ≤ 8 * mib then some (s.wl.exportOff, (new.map (·.seq)).headD s.wl.exportFrom, new.length)
        else none) ∧
      t.wl.lastExport = some s.tb.now ∧ t.wl.exportFrom = s.wl.nextSeq ∧ t.wl.ring = s.wl.ring ∧ t.wl.log = s.wl.log ∧
      OnlyChanges [.wl] s t := by
  have hexec : exec (.waterlineExport true) s = .next (exportOp s) := by
    show execWaterlineExport true s = _
    simp [execWaterlineExport, hfailed, hvdd]
  refine gives_next hexec ⟨fun hroom => ?_, chunksThatFit_head _ _ _, rfl, rfl, rfl, rfl,
    State.onWl_only _ _ (by decide) (.refl _ s)⟩
  simp only [exportOp, State.onWl_wl]
  exact drop_excess_of_le (cap := exportSlots) (List.length_append.trans_le hroom)

theorem waterlineExport_failed {s : State} (hfailed : s.ledger.failed = true) (hvdd : s.seq.vddAon = true) :
    Gives (.waterlineExport false) s (Reported s) := by
  have hexec : exec (.waterlineExport false) s = .next (record 0x0E01 2 0x7000 0 s) := by
    show execWaterlineExport false s = _
    simp [execWaterlineExport, hfailed, hvdd]
  exact gives_next hexec (record_reported _ _ _ _ _)

/-! ## The test of a failed ledger (R499) -/

/-- A record moves into the log, or is dropped. -/
def takeRec (s : State) (r : WlRec) : State :=
  match storeRec logSlots r s.wl.log with
  | none => dropRec r.severity.val s
  | some l => s.onWl fun w => { w with log := l }

theorem takeRecs_leaves : ∀ (l : List WlRec) (s : State),
    (l.foldl takeRec s).wl.ring = s.wl.ring ∧ OnlyChanges [.wl] s (l.foldl takeRec s)
  | [], s => ⟨rfl, .refl _ s⟩
  | r :: l, s => by
    obtain ⟨hring, honly⟩ := takeRecs_leaves l (takeRec s r)
    have hone : (takeRec s r).wl.ring = s.wl.ring ∧ OnlyChanges [.wl] s (takeRec s r) := by
      unfold takeRec
      split
      · exact ⟨rfl, dropRec_only _ _ (by decide) (.refl _ s)⟩
      · exact ⟨rfl, State.onWl_only _ _ (by decide) (.refl _ s)⟩
    exact ⟨hring.trans hone.1, hone.2.trans honly⟩

/-- The ledger that a passed test puts in use again. -/
def passedLedger (l : Ledger) : Ledger :=
  { l with commits := heldCommits l ++ l.commits, fallback := [], failed := false, degraded := false, testDue := false
           keyRecords := (l.keyCopy, l.keyCopy) }

theorem restoreLedger_eq (s : State) : ∃ l, restoreLedger s =
      l.foldl takeRec ((s.onLedger passedLedger).onWl fun w => { w with ring := [] }) ∧
    (s.wl.exported = [] → s.wl.ring = [] → l = []) := by
  refine ⟨_, rfl, fun hexported hring => ?_⟩
  simp [hexported, hring]

theorem ledgerTest_passes {s : State} (hdue : s.ledger.testDue = true) (hup : darkOrAux s = false) (hbegun : s.rst.begun = false)
    (bad : List Nat) : let good := s.wl.log.filter fun r => !bad.contains r.seq
    Gives (.ledgerTest ⟨true, bad⟩) s fun t => t.ledger.failed = false ∧ t.ledger.degraded = false ∧
      t.ledger.commits = heldCommits s.ledger ++ s.ledger.commits ∧ t.ledger.fallback = [] ∧ t.wl.ring = [] ∧
      (s.wl.exported = [] → s.wl.ring = [] → t.wl.log = good) ∧ OnlyChanges [.ledger, .wl] s t := by
  have hexec : exec (.ledgerTest ⟨true, bad⟩) s = .next (restoreLedger (dropCorrupt bad s)) := by
    show execLedgerTest ⟨true, bad⟩ s = _
    simp [execLedgerTest, hdue, hup, hbegun]
  have hdrop : OnlyChanges [.wl] s (dropCorrupt bad s) := State.onWl_only _ _ (by decide) (.refl _ s)
  obtain ⟨l, hl, hempty⟩ := restoreLedger_eq (dropCorrupt bad s)
  obtain ⟨hring, honly⟩ := takeRecs_leaves l (((dropCorrupt bad s).onLedger passedLedger).onWl fun w => { w with ring := [] })
  have hledger : (restoreLedger (dropCorrupt bad s)).ledger = passedLedger s.ledger := by
    rw [hl]; exact honly .ledger (by decide)
  refine gives_next hexec ⟨by rw [hledger]; rfl, by rw [hledger]; rfl, by rw [hledger]; rfl, by rw [hledger]; rfl,
    by rw [hl, hring]; rfl, fun hexported hring => ?_, ?_⟩
  · rw [hl, hempty hexported hring]; rfl
  · rw [hl]
    exact ((hdrop.mono (by decide)).trans (State.onWl_only _ _ (by decide) (State.onLedger_only _ _ (by decide) (.refl _ _)))).trans
      (honly.mono (by decide))

theorem exec_ledgerTest_fails {s : State} (hdue : s.ledger.testDue = true) (hup : darkOrAux s = false) (hbegun : s.rst.begun = false)
    (bad : List Nat) : exec (.ledgerTest ⟨false, bad⟩) s =
      .next ((dropCorrupt bad s).onLedger fun l => { l with testDue := false }) := by
  show execLedgerTest ⟨false, bad⟩ s = _
  simp [execLedgerTest, hdue, hup, hbegun]

/-- Settles O45: each clause is the lemma about its command, or the guard of the command. -/
theorem ledgerKeepsCommits : Obligations.LedgerKeepsCommits := by
  refine ⟨fun _ c hpath hled => ledgerCommit_stands c hpath hled, fun _ c hpath hled => ledgerCommit_fallback c hpath hled,
    fun s c hpath => if_neg (by simp [hpath]), fun s ok bad hno => if_pos ?_,
    fun _ hfailed hvdd => ⟨waterlineExport_appends hfailed hvdd, waterlineExport_failed hfailed hvdd⟩,
    fun s hfailed ok => if_pos (by simp [hfailed]),
    fun _ hdue hup hbegun bad => ⟨ledgerTest_passes hdue hup hbegun bad, exec_ledgerTest_fails hdue hup hbegun bad⟩⟩
  rcases hno with h | h | h <;> simp [h]

end Sys2Proof.Machine
end

section
/-! PROOFS. O46: how a record is written, staged and read (R66, R67, R332, R333, R336, R339, R340, R342, R343). -/

namespace Sys2Proof.Machine
open Sys2Proof

/-! ## What the storing of a record moves (R333, R339, R340, R343) -/

theorem numberIssued_issueSeq (s : State) : NumberIssued s (issueSeq s) := by
  refine ⟨rfl, ?_, ?_⟩ <;> simp only [issueSeq, State.onWl_wl] <;> (repeat' split) <;> omega

/-- What keeps the numbering of a record's issue keeps that a number is issued. -/
theorem numberIssued_of_wl {s u t : State} (h : NumberIssued s u) (hnext : t.wl.nextSeq = u.wl.nextSeq)
    (hreserved : t.wl.reserved = u.wl.reserved) : NumberIssued s t := by
  obtain ⟨hn, hlt, hle⟩ := h
  exact ⟨hnext.trans hn, by rw [hreserved]; exact hlt, by rw [hreserved]; exact hle⟩

theorem recordWith_stores (r : WlReq) (part : Bool) (snap : List Word) (s : State) : OnlyChanges [.bus]
    (storeWl (wlRecordOf s r (!crewPath s) part snap) (issueSeq s))
    (recordWith r.code r.severity r.source r.arg.toNat r.conseq part snap s) := by
  show OnlyChanges [.bus] _ (if 4 ≤ r.severity.val then attend 0 (storeWl (wlRecordOf s r (!crewPath s) part snap) (issueSeq s))
    else storeWl (wlRecordOf s r (!crewPath s) part snap) (issueSeq s))
  split
  · exact attend_only _ _ (by decide) (.refl _ _)
  · exact .refl _ _

theorem feedCxl_cxl (r : WlRec) (s : State) : (feedCxl r s).cxl = if r.conseq then s.cxl
    else onEventLog (eventLogOf r.severity.val) (pushEvent { kind := eventKind r, record := r }) s.cxl := by
  unfold feedCxl
  split
  · rfl
  · dsimp only
    split
    · rfl
    · exact vector_only (cs := [.host, .out]) _ _ (by decide) (.refl _ _) .cxl (by decide)

theorem feedCxl_wl (r : WlRec) (s : State) : (feedCxl r s).wl = s.wl :=
  feedCxl_only (cs := [.cxl, .host, .out]) _ _ (by decide) (.refl _ s) .wl (by decide)

/-- The Waterline of `s` once a record with its number stands in `l`, the log. -/
def logged (l : List WlRec) (s : State) : State :=
  (issueSeq s).onWl fun w => { w with log := l, written := satInc (2 ^ 64 - 1) w.written }

theorem storeWl_logged {s : State} {r : WlRec} {l : List WlRec} (hpath : crewPath s = true) (hled : s.ledger.failed = false)
    (h : storeRec logSlots r s.wl.log = some l) : storeWl r (issueSeq s) = feedCxl r (logged l s) := by
  have hpath' : crewPath (issueSeq s) = true := hpath
  have hled' : (issueSeq s).ledger.failed = false := hled
  have h' : storeRec logSlots r (issueSeq s).wl.log = some l := h
  unfold storeWl
  rw [hpath', hled', h']
  rfl

theorem storeWl_dropped {s : State} {r : WlRec} (hpath : crewPath s = true) (hled : s.ledger.failed = false)
    (h : storeRec logSlots r s.wl.log = none) : storeWl r (issueSeq s) = dropRec r.severity.val (issueSeq s) := by
  have hpath' : crewPath (issueSeq s) = true := hpath
  have hled' : (issueSeq s).ledger.failed = false := hled
  have h' : storeRec logSlots r (issueSeq s).wl.log = none := h
  unfold storeWl
  rw [hpath', hled', h']
  rfl

/-- The Waterline of `s` once a record with its number stands in `l`, the ring. -/
def ringed (l : List WlRec) (s : State) : State :=
  (issueSeq s).onWl fun w => { w with ring := l, written := satInc (2 ^ 64 - 1) w.written }

theorem storeWl_ringed {s : State} {r : WlRec} {l : List WlRec} (hpath : (crewPath s && !s.ledger.failed) = false)
    (h : storeRec ringSlots r s.wl.ring = some l) :
    storeWl r (issueSeq s) = if r.staged then ringed l s else feedCxl r (ringed l s) := by
  have hpath' : (crewPath (issueSeq s) && !(issueSeq s).ledger.failed) = false := hpath
  have h' : storeRec ringSlots r (issueSeq s).wl.ring = some l := h
  unfold storeWl
  rw [hpath', h']
  rfl

theorem storeRec_room {cap : Nat} (r : WlRec) {l : List WlRec} (h : l.length < cap) : storeRec cap r l = some (l ++ [r]) := if_pos h

/-- A log of records of a higher severity lets none go. -/
theorem evict_none {sev : Nat} : ∀ {l : List WlRec}, (∀ x ∈ l, sev < x.severity.val) → evict sev l = none
  | [], _ => rfl
  | x :: l, h => by
    have hx := h x List.mem_cons_self
    unfold evict
    rw [if_neg (by omega), evict_none fun y hy => h y (List.mem_cons_of_mem x hy)]
    rfl

/-- The first record of a severity low enough goes. -/
theorem evict_first {sev : Nat} : ∀ {k : Nat} {l : List WlRec} {x : WlRec}, l[k]? = some x → x.severity.val ≤ sev →
    (∀ y ∈ l.take k, sev < y.severity.val) → evict sev l = some (l.eraseIdx k)
  | 0, y :: l, x, hx, hsev, _ => by
    obtain rfl : y = x := Option.some.inj hx
    exact if_pos hsev
  | k + 1, y :: l, x, hx, hsev, hbefore => by
    have hy := hbefore y List.mem_cons_self
    have hrest := evict_first (k := k) (l := l) hx hsev fun z hz => hbefore z (List.mem_cons_of_mem y hz)
    unfold evict
    rw [if_neg (by omega), hrest]
    rfl

/-! ## WATERLINE_RECORD (R332, R339, R343) -/

theorem moveStaged_none {s : State} (h : (s.wl.ring.any fun x => x.staged) = false) : moveStaged s = s := by
  have hnil : s.wl.ring.filter (·.staged) = [] := by
    rw [List.filter_eq_nil_iff]
    exact fun x hx => List.any_eq_false.mp h x hx
  unfold moveStaged
  rw [hnil]
  rfl

theorem exec_waterlineRecord {s : State} (r : WlReq) (hpath : crewPath s = true) :
    exec (.waterlineRecord r) s = .next (waterlineOp r s) := if_pos hpath

/-- The record that a request makes on the crew path. -/
abbrev crewRecord (s : State) (r : WlReq) : WlRec := wlRecordOf s r false false (snapshotFull s (r.code.toNat / 256))

theorem waterlineOp_stores {s : State} (r : WlReq) (hpath : crewPath s = true)
    (hnone : (s.wl.ring.any fun x => x.staged) = false) :
    OnlyChanges [.bus] (storeWl (crewRecord s r) (issueSeq s)) (waterlineOp r s) := by
  have h := recordWith_stores r false (snapshotFull s (r.code.toNat / 256)) s
  rw [hpath] at h
  unfold waterlineOp
  rw [moveStaged_none hnone]
  exact h

theorem issueSeq_onlyWl (s : State) : OnlyChanges [.wl] s (issueSeq s) := State.onWl_only _ _ (by decide) (.refl _ s)

/-- A record that the log takes. -/
theorem waterline_logged {s : State} {r : WlReq} {l : List WlRec} (hpath : crewPath s = true) (hled : s.ledger.failed = false)
    (hnone : (s.wl.ring.any fun x => x.staged) = false) (h : storeRec logSlots (crewRecord s r) s.wl.log = some l) :
    NumberIssued s (waterlineOp r s) ∧ (waterlineOp r s).wl.log = l ∧ (waterlineOp r s).wl.ring = s.wl.ring ∧
      (waterlineOp r s).wl.drops = s.wl.drops ∧ (waterlineOp r s).cxl = (feedCxl (crewRecord s r) s).cxl ∧
      OnlyChanges [.wl, .cxl, .host, .out, .bus] s (waterlineOp r s) := by
  have hstores := waterlineOp_stores r hpath hnone
  rw [storeWl_logged hpath hled h] at hstores
  have hwl : (waterlineOp r s).wl = (logged l s).wl := (hstores .wl (by decide)).trans (feedCxl_wl _ _)
  have hcxl : (waterlineOp r s).cxl = (feedCxl (crewRecord s r) (logged l s)).cxl := hstores .cxl (by decide)
  refine ⟨numberIssued_of_wl (numberIssued_issueSeq s) (by rw [hwl]; rfl) (by rw [hwl]; rfl), by rw [hwl]; rfl, by rw [hwl]; rfl,
    by rw [hwl]; rfl, by rw [hcxl, feedCxl_cxl, feedCxl_cxl]; rfl, ?_⟩
  exact (feedCxl_only _ _ (by decide) (State.onWl_only _ _ (by decide) ((issueSeq_onlyWl s).mono (by decide)))).trans
    (hstores.mono (by decide))

theorem waterlineWrites : WaterlineWrites := by
  intro s r hpath hled hnone
  refine ⟨fun hroom => ?_, fun hfull hhigher => ?_, fun k x hfull hx hsev hbefore => ?_⟩
  · obtain ⟨hissued, hlog, hring, hdrops, hcxl, honly⟩ := waterline_logged (r := r) hpath hled hnone (storeRec_room _ hroom)
    refine gives_next (exec_waterlineRecord r hpath) ⟨hissued, hlog, hring, hdrops, fun hc => ?_, fun hc hsev hinfo => ?_, honly⟩
    · rw [hcxl, feedCxl_cxl, if_pos (show (crewRecord s r).conseq = true from hc)]
    · have hno : ¬ (crewRecord s r).conseq = true := by rw [show (crewRecord s r).conseq = false from hc]; decide
      have hn : eventLogOf (crewRecord s r).severity.val = 0 := if_pos hsev
      rw [hcxl, feedCxl_cxl, if_neg hno, hn]
      have hpush : pushEvent { kind := eventKind (crewRecord s r), record := crewRecord s r } s.cxl.info =
          { s.cxl.info with recs := s.cxl.info.recs ++ [{ kind := eventKind (crewRecord s r), record := crewRecord s r }] } :=
        if_pos hinfo
      exact congrArg (fun info => { s.cxl with info := info }) hpush
  · have hstore : storeRec logSlots (crewRecord s r) s.wl.log = none := by
      unfold storeRec
      have hevict : evict r.severity.val s.wl.log = none :=
        evict_none fun x hx => of_decide_eq_true (List.all_eq_true.mp hhigher x hx)
      rw [if_neg (Nat.not_lt.mpr hfull)]
      exact congrArg (Option.map (· ++ [crewRecord s r])) hevict
    have hstores := waterlineOp_stores r hpath hnone
    rw [storeWl_dropped hpath hled hstore] at hstores
    have hwl : (waterlineOp r s).wl = (dropRec r.severity.val (issueSeq s)).wl := hstores .wl (by decide)
    refine gives_next (exec_waterlineRecord r hpath) ⟨numberIssued_of_wl (numberIssued_issueSeq s) (by rw [hwl]; rfl) (by rw [hwl]; rfl),
      by rw [hwl]; rfl, by rw [hwl]; rfl, by rw [hwl]; rfl, hstores .cxl (by decide), ?_⟩
    exact (dropRec_only _ _ (by decide) ((issueSeq_onlyWl s).mono (by decide))).trans (hstores.mono (by decide))
  · have hstore : storeRec logSlots (crewRecord s r) s.wl.log = some (s.wl.log.eraseIdx k ++ [crewRecord s r]) := by
      unfold storeRec
      have hevict : evict r.severity.val s.wl.log = some (s.wl.log.eraseIdx k) :=
        evict_first hx hsev fun y hy => of_decide_eq_true (List.all_eq_true.mp hbefore y hy)
      rw [if_neg (Nat.not_lt.mpr hfull)]
      exact congrArg (Option.map (· ++ [crewRecord s r])) hevict
    obtain ⟨hissued, hlog, -, hdrops, -, honly⟩ := waterline_logged (r := r) hpath hled hnone hstore
    exact gives_next (exec_waterlineRecord r hpath) ⟨hissued, hlog, hdrops, honly⟩

/-! ## Records while the ledger is failed, or with STAGED ones (R332, R340, R343) -/

theorem waterline_ringed {s : State} (r : WlReq) (hpath : crewPath s = true) (hled : s.ledger.failed = true)
    (hnone : (s.wl.ring.any fun x => x.staged) = false) (hroom : s.wl.ring.length < ringSlots) :
    Gives (.waterlineRecord r) s fun t => NumberIssued s t ∧
      t.wl.ring = s.wl.ring ++ [wlRecordOf s r false false (snapshotFull s (r.code.toNat / 256))] ∧ t.wl.log = s.wl.log ∧
      OnlyChanges [.wl, .cxl, .host, .out, .bus] s t := by
  have hstores := waterlineOp_stores r hpath hnone
  rw [storeWl_ringed (by simp [hled]) (storeRec_room _ hroom)] at hstores
  have hfeed : (if (crewRecord s r).staged then ringed (s.wl.ring ++ [crewRecord s r]) s
      else feedCxl (crewRecord s r) (ringed (s.wl.ring ++ [crewRecord s r]) s)) =
      feedCxl (crewRecord s r) (ringed (s.wl.ring ++ [crewRecord s r]) s) := if_neg Bool.false_ne_true
  rw [hfeed] at hstores
  have hwl : (waterlineOp r s).wl = (ringed (s.wl.ring ++ [crewRecord s r]) s).wl :=
    (hstores .wl (by decide)).trans (feedCxl_wl _ _)
  refine gives_next (exec_waterlineRecord r hpath)
    ⟨numberIssued_of_wl (numberIssued_issueSeq s) (by rw [hwl]; rfl) (by rw [hwl]; rfl), by rw [hwl]; rfl, by rw [hwl]; rfl, ?_⟩
  exact (feedCxl_only _ _ (by decide) (State.onWl_only _ _ (by decide) ((issueSeq_onlyWl s).mono (by decide)))).trans
    (hstores.mono (by decide))

/-- The one STAGED record of the ring moves into the log (R332). -/
def stagedMoved (x : WlRec) (s : State) : State :=
  feedCxl { x with staged := false } ((s.onWl fun w => { w with ring := [] }).onWl fun w =>
    { w with log := s.wl.log ++ [{ x with staged := false }] })

theorem moveStaged_one {s : State} {x : WlRec} (hled : s.ledger.failed = false) (hring : s.wl.ring = [x]) (hx : x.staged = true)
    (hroom : s.wl.log.length < logSlots) : moveStaged s = record 0x0E02 2 0x7000 1 (stagedMoved x s) := by
  have hfilter : s.wl.ring.filter (·.staged) = [x] := by rw [hring]; simp [hx]
  have hstore : storeRec logSlots { x with staged := false } (s.onWl fun w => { w with ring := [] }).wl.log =
      some (s.wl.log ++ [{ x with staged := false }]) := storeRec_room _ hroom
  unfold moveStaged
  rw [hfilter, hled]
  simp only [List.isEmpty_cons, Bool.false_eq_true, if_false, List.foldl_cons, List.foldl_nil, hstore]
  rfl

/-- A record written with room in a sound ledger's log stands at its end. -/
theorem recordWith_logged (r : WlReq) (snap : List Word) {s : State} (hpath : crewPath s = true) (hled : s.ledger.failed = false)
    (hroom : s.wl.log.length < logSlots) :
    (recordWith r.code r.severity r.source r.arg.toNat r.conseq false snap s).wl =
        (logged (s.wl.log ++ [wlRecordOf s r false false snap]) s).wl ∧
      OnlyChanges [.wl, .cxl, .host, .out, .bus] s (recordWith r.code r.severity r.source r.arg.toNat r.conseq false snap s) := by
  have hstores := recordWith_stores r false snap s
  rw [hpath, Bool.not_true, storeWl_logged hpath hled (storeRec_room _ hroom)] at hstores
  refine ⟨(hstores .wl (by decide)).trans (feedCxl_wl _ _), ?_⟩
  exact (feedCxl_only _ _ (by decide) (State.onWl_only _ _ (by decide) ((issueSeq_onlyWl s).mono (by decide)))).trans
    (hstores.mono (by decide))

/-- The record that STAGED records moved (R332). -/
def movedReq : WlReq := { code := 0x0E02, severity := 2, source := 0x7000, arg := 1, conseq := false }

theorem crewPath_of_only {s t : State} {cs : List Part} (h : OnlyChanges cs s t) (hcrew : Part.crew ∉ cs) (hfrz : Part.frz ∉ cs) :
    crewPath t = crewPath s := by
  have h1 : t.crew = s.crew := h .crew hcrew
  have h2 : t.frz = s.frz := h .frz hfrz
  unfold crewPath anyMember frozen
  simp only [isMember_of_crew h1, h2]

theorem waterline_afterStaged {s : State} (r : WlReq) {x : WlRec} (hpath : crewPath s = true) (hled : s.ledger.failed = false)
    (hring : s.wl.ring = [x]) (hx : x.staged = true) (hroom : s.wl.log.length + 2 < logSlots) :
    Gives (.waterlineRecord r) s fun t => t.wl.ring = [] ∧ t.wl.log.length = s.wl.log.length + 3 ∧ s.wl.log <+: t.wl.log ∧
      t.wl.log[s.wl.log.length]? = some { x with staged := false } ∧
      (∃ y, t.wl.log.getLast? = some y ∧ y.code = r.code ∧ y.severity = r.severity ∧ y.source = r.source ∧ y.time = s.tb.now) ∧
      OnlyChanges [.wl, .cxl, .host, .out, .bus] s t := by
  have hmoved : OnlyChanges [.wl, .cxl, .host, .out, .bus] s (stagedMoved x s) :=
    feedCxl_only _ _ (by decide) (State.onWl_only _ _ (by decide) (State.onWl_only _ _ (by decide) (.refl _ s)))
  have hmovedWl : (stagedMoved x s).wl = { s.wl with ring := [], log := s.wl.log ++ [{ x with staged := false }] } := feedCxl_wl _ _
  have hmovedLed : (stagedMoved x s).ledger = s.ledger := hmoved .ledger (by decide)
  have hmovedPath := (crewPath_of_only hmoved (by decide) (by decide)).trans hpath
  obtain ⟨snap, hrecord⟩ : ∃ snap, record 0x0E02 2 0x7000 1 (stagedMoved x s) =
      recordWith movedReq.code movedReq.severity movedReq.source movedReq.arg.toNat movedReq.conseq false snap (stagedMoved x s) :=
    ⟨_, if_pos hmovedPath⟩
  obtain ⟨hwl, honly⟩ := recordWith_logged movedReq snap hmovedPath (by rw [hmovedLed]; exact hled)
    (by rw [hmovedWl]; simp only [List.length_append, List.length_singleton]; omega)
  rw [← hrecord, ← moveStaged_one hled hring hx (by omega)] at hwl honly
  have hall := hmoved.trans honly
  have hlater : (moveStaged s).ledger = s.ledger := hall .ledger (by decide)
  have htb : (moveStaged s).tb = s.tb := hall .tb (by decide)
  have hlog : (moveStaged s).wl.log = s.wl.log ++ [{ x with staged := false }] ++
      [wlRecordOf (stagedMoved x s) movedReq false false snap] := by
    rw [hwl]; exact congrArg (fun w : Waterline => w.log ++ _) hmovedWl
  have hempty : (moveStaged s).wl.ring = [] := by
    rw [hwl]; exact congrArg Waterline.ring hmovedWl
  obtain ⟨hwl', honly'⟩ := recordWith_logged r (snapshotFull (moveStaged s) (r.code.toNat / 256))
    ((crewPath_of_only hall (by decide) (by decide)).trans hpath) (by rw [hlater]; exact hled)
    (by rw [hlog]; simp only [List.length_append, List.length_singleton]; omega)
  generalize hy : wlRecordOf (moveStaged s) r false false (snapshotFull (moveStaged s) (r.code.toNat / 256)) = y at hwl'
  have hlog' : (waterlineOp r s).wl.log = s.wl.log ++ ([{ x with staged := false },
      wlRecordOf (stagedMoved x s) movedReq false false snap, y]) := by
    refine (congrArg Waterline.log hwl').trans ?_
    show (moveStaged s).wl.log ++ [y] = _
    rw [hlog]
    simp only [List.append_assoc, List.cons_append, List.nil_append]
  refine gives_next (exec_waterlineRecord r hpath) ⟨(congrArg Waterline.ring hwl').trans hempty, ?_, ?_, ?_, ⟨y, ?_, ?_⟩,
    hall.trans honly'⟩
  · rw [hlog']; simp
  · rw [hlog']; exact List.prefix_append _ _
  · rw [hlog']; simp
  · rw [hlog']; simp
  · rw [← hy]
    exact ⟨rfl, rfl, rfl, congrArg TimeBase.now htb⟩

theorem waterlineWritesElsewhere : WaterlineWritesElsewhere :=
  ⟨fun _ r hpath hled hnone hroom => waterline_ringed r hpath hled hnone hroom,
    fun _ r _ hpath hled hring hx hroom => waterline_afterStaged r hpath hled hring hx hroom⟩

/-! ## STAGED_RECORD (R332, R336, R340) -/

theorem stagingWrites : StagingWrites := by
  refine ⟨fun s r hpath hvdd hroom => ?_, fun s r hpath => if_pos (by simp [hpath]), fun s r hpath => if_neg (by simp [hpath])⟩
  have hexec : exec (.stagedRecord r) s = .next (recordWith r.code r.severity r.source r.arg.toNat r.conseq
      ((snapshotList s (r.code.toNat / 256)).any fun a => !inPowerRegion a) (snapshotStaged s (r.code.toNat / 256)) s) :=
    if_neg (by simp [hpath, hvdd])
  generalize ((snapshotList s (r.code.toNat / 256)).any fun a => !inPowerRegion a) = part at hexec
  have hstores := recordWith_stores r part (snapshotStaged s (r.code.toNat / 256)) s
  rw [hpath, Bool.not_false, storeWl_ringed (by simp [hpath]) (storeRec_room _ hroom),
    if_pos (show (wlRecordOf s r true part (snapshotStaged s (r.code.toNat / 256))).staged = true from rfl)] at hstores
  generalize recordWith r.code r.severity r.source r.arg.toNat r.conseq part (snapshotStaged s (r.code.toNat / 256)) s = t at *
  have hwl : t.wl = (ringed (s.wl.ring ++ [wlRecordOf s r true part (snapshotStaged s (r.code.toNat / 256))]) s).wl :=
    hstores .wl (by decide)
  refine gives_next hexec ⟨numberIssued_of_wl (numberIssued_issueSeq s) (by rw [hwl]; rfl) (by rw [hwl]; rfl),
    ⟨part, by rw [hwl]; rfl⟩, by rw [hwl]; rfl, ?_⟩
  exact (State.onWl_only (cs := [.wl, .bus]) _ _ (by decide) ((issueSeq_onlyWl s).mono (by decide))).trans (hstores.mono (by decide))

/-! ## WATERLINE_READ (R67, R337, R338, R342) -/

/-- The bytes of one record in the format asked for. -/
def recBytes (fb3 : Bool) (r : WlRec) : List Byte := if fb3 then wlFb3 r else wlNative r

theorem recordBytes_cons (fb3 : Bool) (r : WlRec) (l : List WlRec) :
    recordBytes fb3 (r :: l) = recBytes fb3 r ++ recordBytes fb3 l := rfl

theorem fitting_cons (fb3 : Bool) (n room : Nat) (r : WlRec) (l : List WlRec) : fitting fb3 (n + 1) room (r :: l) =
    if (recBytes fb3 r).length ≤ room then r :: fitting fb3 n (room - (recBytes fb3 r).length) l else [] := rfl

/-- The records that fit begin the list, within the number and the bytes given, and the next one would fit no more. -/
theorem fitting_fits (fb3 : Bool) : ∀ (maximum room : Nat) (l : List WlRec),
    fitting fb3 maximum room l <+: l ∧ (fitting fb3 maximum room l).length ≤ maximum ∧
      (recordBytes fb3 (fitting fb3 maximum room l)).length ≤ room ∧
      ((fitting fb3 maximum room l).length < maximum → ∀ r, l[(fitting fb3 maximum room l).length]? = some r →
        room < (recordBytes fb3 (fitting fb3 maximum room l ++ [r])).length)
  | maximum, room, [] => by cases maximum <;> exact ⟨List.nil_prefix, Nat.zero_le _, Nat.zero_le _, fun _ r h => by cases h⟩
  | 0, room, r :: l => ⟨List.nil_prefix, Nat.le_refl 0, Nat.zero_le _, fun h => absurd h (Nat.not_lt_zero _)⟩
  | n + 1, room, r :: l => by
    rw [fitting_cons]
    split
    case isTrue hsize =>
      obtain ⟨hprefix, hlen, hbytes, hnext⟩ := fitting_fits fb3 n (room - (recBytes fb3 r).length) l
      refine ⟨List.cons_prefix_cons.mpr ⟨rfl, hprefix⟩, Nat.succ_le_succ hlen, ?_, fun hlt x hx => ?_⟩
      · rw [recordBytes_cons, List.length_append]; omega
      · have hmore := hnext (Nat.lt_of_succ_lt_succ hlt) x hx
        rw [List.cons_append, recordBytes_cons, List.length_append]
        omega
    case isFalse hsize =>
      refine ⟨List.nil_prefix, Nat.zero_le _, Nat.zero_le _, fun _ x hx => ?_⟩
      obtain rfl : r = x := Option.some.inj hx
      rw [List.nil_append, recordBytes_cons, List.length_append]
      omega

/-- Records that all fit are all listed. -/
theorem fitting_all (fb3 : Bool) : ∀ {maximum room : Nat} {l : List WlRec}, l.length ≤ maximum →
    (recordBytes fb3 l).length ≤ room → fitting fb3 maximum room l = l
  | maximum, room, [], _, _ => by cases maximum <;> rfl
  | 0, room, r :: l, hlen, _ => by simp at hlen
  | n + 1, room, r :: l, hlen, hbytes => by
    rw [recordBytes_cons, List.length_append] at hbytes
    rw [fitting_cons, if_pos (by omega), fitting_all fb3 (Nat.le_of_succ_le_succ hlen) (by omega)]

/-- The number after the last record listed. -/
def numberAfter (first : Nat) (out : List WlRec) : Nat :=
  match out.getLast? with
  | some r => r.seq + 1
  | none => first

theorem wlReadOp_eq (first maximum : Nat) (fb3 : Bool) (sev : Fin 8) (s : State) : wlReadOp first maximum fb3 sev s =
    let out := fitting fb3 maximum (if fb3 then 8174 else 8176)
      ((readableRecs s).filter fun r => decide (first ≤ r.seq ∧ sev.val ≤ r.severity.val))
    leBytes 1 (if fb3 then 1 else 0) ++ leBytes 2 out.length ++ leBytes 8 (numberAfter first out) ++
      leBytes 4 ((recordBytes fb3 out).length + (if fb3 then 2 else 0)) ++ recordBytes fb3 out ++
      (if fb3 then [0, 0] else []) := by
  have hflag : b2n fb3 = if fb3 then 1 else 0 := by cases fb3 <;> rfl
  have hend : (if fb3 then [0, 0] else [] : List Byte).length = if fb3 then 2 else 0 := by cases fb3 <;> rfl
  dsimp only
  rw [← hflag, ← hend, ← List.length_append, List.append_assoc _ (recordBytes fb3 _)]
  rfl

theorem exec_waterlineRead_served {s : State} {p : Path} (h : Served s p) (first maximum : Nat) (fb3 : Bool) (sev : Fin 8) :
    exec (.waterlineRead p first maximum fb3 sev) s = .next (reply p stOk (wlReadOp first maximum fb3 sev s) s) := by
  obtain ⟨haway, hup, hfrozen, hset, -⟩ := h
  have hgate : wlGate p s = none := by simp [wlGate, gate, hup, hfrozen, hset]
  show execWaterlineRead p first maximum fb3 sev s = _
  unfold execWaterlineRead
  rw [if_neg (by simp [haway]), hgate]

theorem exec_waterlineRead_unreached {s : State} {p : Path} (h : reaches s p = false) (first maximum : Nat) (fb3 : Bool) (sev : Fin 8) :
    exec (.waterlineRead p first maximum fb3 sev) s = .next s := by
  show execWaterlineRead p first maximum fb3 sev s = _
  unfold execWaterlineRead
  rw [if_pos (by simp [turnedAway, h])]
  simp [turnAway, h]

theorem exec_waterlineRead_frozen {s : State} {p : Path} (haway : turnedAway s p = false) (hup : darkOrAux s = false)
    (hfrozen : frozen s = true) (first maximum : Nat) (fb3 : Bool) (sev : Fin 8) :
    exec (.waterlineRead p first maximum fb3 sev) s = .next (reply p stBusy (List.replicate 15 0) s) := by
  have hgate : wlGate p s = some stBusy := by
    have hindex : powerRange 0xC000 = false := by decide
    unfold wlGate gate
    rw [if_neg (by simp [hup]), if_neg (by simp [hup]), if_pos hfrozen]
    cases p <;> simp [hindex]
  show execWaterlineRead p first maximum fb3 sev s = _
  unfold execWaterlineRead
  rw [if_neg (by simp [haway]), hgate]

theorem waterlineReads : WaterlineReads := by
  refine ⟨fun s p first maximum fb3 sev h => ?_, fun s p first maximum fb3 sev h => exec_waterlineRead_unreached h first maximum fb3 sev,
    fun s p first maximum sev h hlen hbytes => ?_,
    fun s p first maximum sev haway hup hfrozen fb3 => exec_waterlineRead_frozen haway hup hfrozen first maximum fb3 sev⟩
  · obtain ⟨hprefix, hlen, hbytes, hnext⟩ := fitting_fits fb3 maximum (if fb3 then 8174 else 8176)
      ((readableRecs s).filter fun r => decide (first ≤ r.seq ∧ sev.val ≤ r.severity.val))
    refine ⟨_, hprefix, hlen, ?_, fun hlt r hr => ?_, ?_⟩
    · cases fb3 <;> simp at hbytes ⊢ <;> omega
    · have hmore := hnext hlt r hr
      cases fb3 <;> simp at hmore ⊢ <;> omega
    · rw [exec_waterlineRead_served h]
      exact congrArg (fun bytes => Host.Outcome.next (reply p stOk bytes s)) (wlReadOp_eq first maximum fb3 sev s)
  · have hall : fitting false maximum 8176 ((readableRecs s).filter fun r => decide (first ≤ r.seq ∧ sev.val ≤ r.severity.val)) =
        (readableRecs s).filter fun r => decide (first ≤ r.seq ∧ sev.val ≤ r.severity.val) := fitting_all false hlen hbytes
    have heq := wlReadOp_eq first maximum false sev s
    simp only [Bool.false_eq_true, if_false, hall, Nat.add_zero, List.append_nil] at heq
    rw [exec_waterlineRead_served h]
    exact congrArg (fun bytes => Host.Outcome.next (reply p stOk bytes s)) heq

/-- Settles O46: its parts are what a log, the ring, the staging area and a read do with records. -/
theorem waterlineKeepsRecords : Obligations.WaterlineKeepsRecords :=
  ⟨waterlineWrites, waterlineWritesElsewhere, stagingWrites, waterlineReads⟩

end Sys2Proof.Machine
end

section
/-! PROOFS. O47 fails in AUX with the ROM of Boathouse mode in charge: the boot-config mirror takes a setting, though the settings
copy is full (R355, R417). O48 fails where a reset is asked for of one crew while the other's copy of its state is still to end (R245, R250, R254):
that copy is abandoned, and the other crew goes back to LOADING. -/

namespace Sys2Proof.Machine
open Sys2Proof

/-! ## A full settings copy (R355, R417) -/

/-- A device in AUX in Boathouse mode, which MGMT reaches, its settings copy full. -/
def mirrorInAux : State :=
  { State.reset with
    seq := { State.reset.seq with st := .aux, vddAon := true }
    boot := { State.reset.boot with inBoathouse := true }
    od := { State.reset.od with used := 262144 }
    bus := { State.reset.bus with mgmt := { State.reset.bus.mgmt with eid := some 8 } } }

/-- Refutes O47: the write is answered OK. -/
theorem not_odReadsAndWrites : ¬ Obligations.OdReadsAndWrites := by
  rintro ⟨-, -, hwrites⟩
  obtain ⟨hentry, -⟩ := hwrites mirrorInAux (.smbus 9) true true ⟨by decide, by decide⟩ ⟨rfl, rfl⟩
  have hfield : odField mirrorInAux (0x3004 : BitVec 16).toNat (0 : BitVec 8).toNat = some (fRws .u8 2) := by decide +kernel
  obtain ⟨-, -, hallowed⟩ := hentry 0x3004 0 (fRws .u8 2) [1] 0 (.inr ⟨by decide, by decide, .inl (by decide)⟩) (by decide) hfield
  obtain ⟨-, -, hsetting, -⟩ := hallowed (.inl rfl) (by decide) (by decide +kernel)
  obtain ⟨-, hrange⟩ := hsetting rfl (by decide) (by decide) (by decide) (by decide) (by decide)
  obtain ⟨t, ht, hn⟩ := (hrange (by decide)).1 (.inr (by decide))
  have hanswered : (match exec (.odWrite (.smbus 9) 0x3004 0 true 0 [1] true) mirrorInAux with
      | .next u => u.out.resp
      | _ => []) = [.od (.smbus 9) stOk [0, 0, 0]] := by decide +kernel
  rw [ht] at hanswered
  have hout : t.out = (reply (.smbus 9) stBusy [0, 0, 0] mirrorInAux).out := hn.only .out (by decide)
  have hbusy : t.out.resp = [.od (.smbus 9) stBusy [0, 0, 0]] := by rw [hout]; rfl
  exact absurd (hbusy.symm.trans hanswered) (by decide)

/-! ## The reset of a crew (R254) -/

/-- `memberCopying`, which MGMT reaches. -/
def resettable : State :=
  { memberCopying with
    seq := { memberCopying.seq with vddAon := true }
    bus := { State.reset.bus with mgmt := { State.reset.bus.mgmt with eid := some 8 } } }

/-- Refutes O48: the other crew is no member any more. -/
theorem not_odSessionsAndRequests : ¬ Obligations.OdSessionsAndRequests := by
  rintro ⟨-, -, -, hrequests, -⟩
  obtain ⟨-, -, -, -, -, hreset, -⟩ := hrequests resettable (.smbus 9) (by decide) (by decide) ⟨rfl, rfl⟩
  obtain ⟨t, ht, -, -, hmember, -⟩ := hreset .bow (by decide) (by decide) (by decide)
  have hlost : (match exec (.crewResetRequest (.smbus 9) 0) resettable with
      | .next u => isMember u .stroke
      | _ => true) = false := by decide +kernel
  rw [ht] at hlost
  exact Bool.false_ne_true (hlost.symm.trans hmember)

end Sys2Proof.Machine
end

section
/-! PROOFS. O51 fails: Clear Poison is a write to its line, and the hypotheses on the channel of the page's map line look at the
line by its address, where a donor of R198 may hold it: the write of `donorInReset` waits for the map line. -/

namespace Sys2Proof.Machine
open Sys2Proof

theorem donorInReset_mailboxServed : MailboxServed donorInReset 0 := by
  refine ⟨?_, ?_, ?_, ?_, ?_⟩ <;> decide +kernel

/-- Clear Poison answers, and its write waits for the map line. -/
theorem donorInReset_clear_waits : ∃ t, exec (.clearPoison 0 4096 7 0) donorInReset = .next t ∧
    t.wb.entries.map (·.phase) = [.mapWait] := by
  have hexec : exec (.clearPoison 0 4096 7 0) donorInReset =
      finish (mbox 0 .success [] (writeAt 0 7 64 0 (BitVec.allOnes 64) false donorInReset)) := by
    have hline : lineOfDpa donorInReset 0 4096 = some 64 := by decide +kernel
    have hreach : reaches donorInReset (.mailbox 0) = true := by decide +kernel
    have hfence : donorInReset.host.fence = false := by decide +kernel
    have hrom : boathouse donorInReset = false := by decide +kernel
    have hserved : notServed donorInReset = false := by decide +kernel
    have hfenced : fenced donorInReset = false := by decide +kernel
    have hroom : ¬ bufferEntries ≤ donorInReset.wb.entries.length := by decide +kernel
    show execClearPoison 0 4096 7 0 donorInReset = _
    simp [execClearPoison, mailboxCmd, hline, hreach, hfence, hrom, hserved, hfenced, hroom]
  obtain ⟨t, ht, hn⟩ := finish_noticed
    (s := mbox 0 .success [] (writeAt 0 7 64 0 (BitVec.allOnes 64) false donorInReset)) ⟨by decide +kernel, by decide +kernel⟩
  refine ⟨t, hexec.trans ht, ?_⟩
  have hwb : t.wb = (mbox 0 .success [] (writeAt 0 7 64 0 (BitVec.allOnes 64) false donorInReset)).wb :=
    hn.only .wb (by decide)
  rw [hwb]
  decide +kernel

/-- Refutes O51: page 1 is DIRTY and its own channel is in service, but the donor that holds its map line is in block reset, so
the write of Clear Poison waits for the line and is not admitted (R53, R90, R198). -/
theorem not_mailboxServesStandardCommands : ¬ Obligations.MailboxServesStandardCommands := by
  rintro ⟨⟨-, hpoison, -⟩, -⟩
  obtain ⟨-, hdirty, -⟩ := hpoison donorInReset 0 4096 64 donorInReset_mailboxServed (by decide +kernel) (by decide +kernel)
    (by decide +kernel) (by decide +kernel)
  obtain ⟨t, ht, hentries, -⟩ := hdirty 7 0 (by decide +kernel) (by decide +kernel) (by decide +kernel) (by decide +kernel)
    (by decide +kernel) (by decide +kernel) (fun x hx => absurd hx List.not_mem_nil) (by decide +kernel)
  obtain ⟨u, hu, hwaits⟩ := donorInReset_clear_waits
  obtain rfl : t = u := by rw [ht] at hu; exact Host.Outcome.next.inj hu
  rw [hentries] at hwaits
  exact absurd hwaits (by decide +kernel)

end Sys2Proof.Machine
end

section
/-! PROOFS. O55 fails: TRST_N can end a freeze in which a page's place in the Lakebed was lost (R461), and a re-drain that finds
the dirty log full is chip fatal (R105, R155), which before memory is ready powers the device down: DRAM holds nothing then, and
`FreezeEnded` says that it holds what it held. -/

namespace Sys2Proof.Machine
open Sys2Proof

/-! ## The chip fatal of a full log while the device climbs (R155, R266, R293) -/

/-- The sequencer in CORE, no rail on. -/
def coreRailless : Seq := { State.reset.seq with st := .core, vddAon := true }

/-- The descent of a device in CORE whose rails are off ends in DARK. -/
theorem descend_railless {s : State} (hst : s.seq.st = .core) (htarget : s.seq.target = .dark)
    (hrails : s.seq.rails = coreRailless.rails) (hcfg : s.seq.railCfg = coreRailless.railCfg)
    (hmask : s.seq.mask = coreRailless.mask) (n : Nat) :
    (descend (n + 2) s).dram.bytes = [] ∧ (descend (n + 2) s).fault.waiting = [] := by
  have hcore : allFallen s = true :=
    (allFallen_congr (s := { State.reset with seq := coreRailless }) hst hrails hcfg hmask).trans (by decide +kernel)
  have haux : allFallen (stateBelow s) = true := by
    refine (allFallen_congr (s := { State.reset with seq := { coreRailless with st := .aux } }) ?_ ?_ ?_ ?_).trans
      (by decide +kernel) <;> unfold stateBelow <;> rw [startStateDown_seq] <;> simp [hst, hrails, hcfg, hmask]
    rfl
  have hnum : (stateBelow s).seq.st = .aux := by
    unfold stateBelow; rw [startStateDown_seq]; simp [hst]; rfl
  have hbelow : descend (n + 2) s = descend (n + 1) (stateBelow s) := by
    rw [descend, if_neg (by simp [hcore]), if_neg (by rw [hst]; decide), if_neg (by simp [htarget])]
    unfold stateBelow
    rw [if_neg (by simp [hst])]
  have hdark : descend (n + 1) (stateBelow s) = enterDark (flushCounts (stateBelow s)) := by
    rw [descend, if_neg (by simp [haux]), if_pos (by rw [hnum]; decide)]
  rw [hbelow, hdark]
  exact ⟨rfl, rfl⟩

theorem powerDownDark_railless {s : State} (hseq : s.seq = coreRailless) :
    (powerDownDark false s).dram.bytes = [] ∧ (powerDownDark false s).fault.waiting = [] := by
  have htrial : (trialTime (s.onSeq fun q => { q with onPending := q.onPending || false })).seq =
      { s.seq with onPending := s.seq.onPending || false } :=
    (trialTime_only (cs := [.upd]) _ (by decide) (.refl _ _)) .seq (by decide)
  rw [hseq] at htrial
  unfold powerDownDark powerDownTo
  apply descend_railless <;> rw [startStateDown_seq] <;> simp only [State.onSeq_seq, htrial] <;> rfl

/-- The log found full while a device without a rail on climbs to CORE: DRAM is lost with the power. -/
theorem overflowCheck_railless {s : State} (hseq : s.seq = coreRailless) (hfull : s.log.overflow = true)
    (hfatal : s.fault.chipFatal = false) (hsaving : saving s = false) (hready : memReady s = false) :
    (overflowCheck s).dram.bytes = [] ∧ (overflowCheck s).fault.waiting = [] := by
  obtain ⟨c, id, hc, hover, hcfatal⟩ : ∃ (c : State) (id : BitVec 32), OnlyChanges [.fault, .log] s c ∧
      overflowCheck s = chipFatal 6 id c ∧ c.fault.chipFatal = false := by
    unfold overflowCheck
    rw [if_pos hfull]
    exact ⟨_, _, State.onLog_only _ _ (by decide) (newCapture_only _ _ _ (by decide) (setCapture_only _ _ _ (by decide)
      (.refl _ s))), rfl, hfatal⟩
  have hnote : OnlyChanges [.fault, .log] s (noteFatal id c) := noteFatal_only _ _ (by decide) hc
  have hflags : OnlyChanges [.host, .cxl, .wl, .fault, .bus, .upd, .out, .log] s (fatalFlags 6 id (noteFatal id c)) :=
    fatalFlags_only _ _ _ (by decide) (hnote.mono (by decide))
  have hfirst : (noteFatal id c).fault.chipFatal = false := (faultsNoted_noteFatal id c).chipFatal.trans hcfatal
  have hsave : (noteFatal id c).save = s.save := hnote .save (by decide)
  have hrst : (fatalFlags 6 id (noteFatal id c)).rst = s.rst := hflags .rst (by decide)
  have hst : (fatalFlags 6 id (noteFatal id c)).seq = coreRailless := (hflags .seq (by decide)).trans hseq
  have hdown : overflowCheck s = powerDownDark false (fatalFlags 6 id (noteFatal id c)) := by
    rw [hover]
    unfold chipFatal
    rw [if_neg (by simp [hfirst]), if_neg (by rw [saving, hsave]; exact Bool.eq_false_iff.mp hsaving),
      if_neg (by rw [memReady, hrst]; simp [show s.rst.ready = false from hready]), if_neg (by rw [darkOrAux, hst]; decide)]
  rw [hdown]
  exact powerDownDark_railless hst

/-! ## The re-drain at the end of a freeze (R105, R461) -/

theorem redrain_full {s : State} {b : Bucket} (page : Nat) (hclean : pageState s page = .clean) (hfence : s.host.fence = false)
    (hb : s.pm.buckets.head? = some b) (hfull : spillEntries ≤ s.log.spill.length) :
    (redrain page s).log.overflow = true := by
  have hold : enterOldest s = (s, b.slot) := by unfold enterOldest; rw [hb]
  unfold redrain
  rw [if_pos (by simp [hclean, hfence]), hold]
  dsimp only
  have hset : OnlyChanges [.pm, .ledger] s (countUp b.slot (residueUp (setPage page
      { state := .dirty, bucket := b.slot, hot := coldTick s } s))) :=
    countUp_only _ _ (by decide) (residueUp_only _ (by decide) (setPage_only _ _ _ (by decide) (.refl _ s)))
  have hlog := hset .log (by decide)
  have hweir := weirCheck_only (cs := [.host, .cxl, .pm, .lake, .weir, .wl, .bus, .out]) 5 (logAppend (.dirty b.slot page)
    (countUp b.slot (residueUp (setPage page { state := .dirty, bucket := b.slot, hot := coldTick s } s)))) (by decide)
    (.refl _ _) .log (by decide)
  rw [show (weirCheck 5 _).log = _ from hweir]
  exact logAppend_full _ (by rw [show (countUp b.slot _).log = s.log from hlog]; exact hfull)

/-- A device that climbs, frozen by HOLD_JTAG, one byte of DRAM not 0; page 0 is to be drained again once the freeze is over, and
the dirty log has spilled the entries `l`. -/
def frozenClimb (l : List LogEntry) : State :=
  { State.reset with
    seq := coreRailless
    frz := { State.reset.frz with frozen := true, jtag := true }
    dram := { bytes := [(0, 1)] }
    pm := { toRedrain := [0], buckets := [{ slot := 0, epoch := 0, openSeq := 0, isOpen := true, pages := 0 }] }
    log := { spill := l } }

/-- `frozenClimb l` with TRST_N asserted. -/
def climbReleased (l : List LogEntry) : State :=
  (((frozenClimb l).onFault fun f => { f with jtagOff := false }).onFrz fun f => { f with ir := 0x01, trst := true }).onFrz
    fun f => { f with jtag := false }

/-- What the end of a freeze does before the rebuilds that waited for it (R461). -/
def thawClocked (s : State) : State :=
  let d := s.tb.now - s.frz.since
  let s := s.onFrz fun f => freezeOver f s.tb.now
  let s := (s.onWeir fun w => { w with pubTime := w.pubTime + d, decayAt := w.decayAt + d }).onLedger fun l =>
    { l with words := [] }
  let s := s.onDram fun m => { m with channels := m.channels.map fun c =>
    if c.state = .selfRefresh then { c with state := .active, refreshes := c.refreshes + 1, postponed := 0 }
    else c }
  let s := s.onHost fun h =>
    { h with head0 := { h.head0 with creditsHeld := false }, head1 := { h.head1 with creditsHeld := false } }
  let s := s.onFault fun f => { f with shadows := f.shadows.map fun x => { x with since := x.since + d } }
  let later (c : CrewUnit) : CrewUnit := { c with copyEnd := c.copyEnd.map (· + d) }
  s.onCrew fun x =>
    { x with bow := later x.bow, stroke := later x.stroke, lagBuf := x.lagBuf.map fun k => (k.1 + d, k.2) }

theorem thaw_eq (s : State) : thaw s = record 0x0F21 2 0x6000 (sat 0xFFFFFFFF ((s.tb.now - s.frz.since) / nsPerMs))
    (if anyMember (rebuildWaiting (thawClocked s)) then moveStaged (rebuildWaiting (thawClocked s))
      else rebuildWaiting (thawClocked s)) := by
  unfold thaw thawClocked
  rfl

/-- One re-drain alone waited, on a device that does not restore. -/
theorem rebuildWaiting_page {s : State} {p : Nat} (hlines : s.pm.toRebuild = []) (hpages : s.pm.toRedrain = [p])
    (hrestoring : restoring s = false) : rebuildWaiting s =
      redrain p (s.onPm fun q => { q with toRebuild := [], toRedrain := [] }) := by
  have hstill : restoring (s.onPm fun q => { q with toRebuild := [], toRedrain := [] }) = false := hrestoring
  unfold rebuildWaiting
  rw [hlines, hpages]
  dsimp only [List.foldl]
  unfold placeLost
  rw [hstill]
  rfl

/-- The end of that freeze overflows the log, and the device is as it was beside. -/
theorem thaw_climbReleased {l : List LogEntry} (hl : spillEntries ≤ l.length) :
    (thaw (climbReleased l)).log.overflow = true ∧ (thaw (climbReleased l)).fault = (climbReleased l).fault ∧
      (thaw (climbReleased l)).rst = (climbReleased l).rst := by
  obtain ⟨x, n, hx, hclean, hfence, hb, hspill, hcrew, hrst, hfault⟩ : ∃ (x : State) (n : Nat),
      thaw (climbReleased l) = record 0x0F21 2 0x6000 n (if anyMember (redrain 0 x) then moveStaged (redrain 0 x) else redrain 0 x) ∧
        pageState x 0 = .clean ∧ x.host.fence = false ∧
        x.pm.buckets.head? = some { slot := 0, epoch := 0, openSeq := 0, isOpen := true, pages := 0 } ∧
        x.log.spill = l ∧ anyMember x = false ∧ x.rst = (climbReleased l).rst ∧ x.fault = (climbReleased l).fault := by
    refine ⟨(thawClocked (climbReleased l)).onPm fun p => { p with toRebuild := [], toRedrain := [] },
      sat 0xFFFFFFFF (((climbReleased l).tb.now - (climbReleased l).frz.since) / nsPerMs), ?_,
      rfl, rfl, rfl, rfl, rfl, rfl, rfl⟩
    rw [thaw_eq, rebuildWaiting_page (p := 0) rfl rfl rfl]
  have hdrain : OnlyChanges [.host, .cxl, .pm, .lake, .log, .weir, .ledger, .wl, .bus, .out] x (redrain 0 x) :=
    redrain_only _ _ (by decide) (.refl _ x)
  have hdcrew : (redrain 0 x).crew = x.crew := hdrain .crew (by decide)
  have halone : anyMember (redrain 0 x) = false := by
    have hany : anyMember (redrain 0 x) = anyMember x := by unfold anyMember isMember crewOf; rw [hdcrew]
    exact hany.trans hcrew
  rw [halone, if_neg Bool.false_ne_true] at hx
  have hkept := record_only (cs := [.host, .cxl, .wl, .bus, .out]) 0x0F21 2 0x6000 n (redrain 0 x) (by decide) (.refl _ _)
  have hlog : (thaw (climbReleased l)).log = (redrain 0 x).log := by rw [hx]; exact hkept .log (by decide)
  have hkfault : (thaw (climbReleased l)).fault = (redrain 0 x).fault := by rw [hx]; exact hkept .fault (by decide)
  have hkrst : (thaw (climbReleased l)).rst = (redrain 0 x).rst := by rw [hx]; exact hkept .rst (by decide)
  have hdfault : (redrain 0 x).fault = x.fault := hdrain .fault (by decide)
  have hdrst : (redrain 0 x).rst = x.rst := hdrain .rst (by decide)
  exact ⟨by rw [hlog]; exact redrain_full 0 hclean hfence hb (by rw [hspill]; exact hl),
    hkfault.trans (hdfault.trans hfault), hkrst.trans (hdrst.trans hrst)⟩

theorem runWaiting_none {s : State} (h : s.fault.waiting = []) : runWaiting s = s.onFault fun f => { f with waiting := [] } := by
  unfold runWaiting
  rw [h]
  rfl

/-- The last hold bit of a frozen device clears (R458, R466). -/
theorem releaseHold_last {s : State} {clear : Freeze → Freeze} (hheld : held (s.onFrz clear) = false)
    (hfrozen : frozen (s.onFrz clear) = true) : releaseHold clear s = startHeld (fanTick (thaw (s.onFrz clear))) := by
  unfold releaseHold
  dsimp only
  rw [if_neg (by rw [hheld]; exact Bool.false_ne_true), if_pos hfrozen]

theorem exec_trstNAssert_climb (l : List LogEntry) :
    exec .trstNAssert (frozenClimb l) = finish (startHeld (fanTick (thaw (climbReleased l)))) := by
  have hlast : releaseHold (fun f => { f with jtag := false }) (((frozenClimb l).onFault fun f =>
      { f with jtagOff := false }).onFrz fun f => { f with ir := 0x01, trst := true }) =
      startHeld (fanTick (thaw (climbReleased l))) := releaseHold_last rfl rfl
  show execTrstNAssert (frozenClimb l) = _
  rw [← hlast]
  rfl

/-- Refutes O55: DRAM is empty after TRST_N. -/
theorem not_jtagAndLedgerAccess : ¬ Obligations.JtagAndLedgerAccess := by
  rintro ⟨⟨-, -, -, -, htrst⟩, -⟩
  have hl : spillEntries ≤ (List.replicate spillEntries (LogEntry.reset 0)).length := by rw [List.length_replicate]
  generalize List.replicate spillEntries (LogEntry.reset 0) = l at hl
  obtain ⟨t, ht, hended, -⟩ := (htrst (frozenClimb l) rfl ⟨rfl, rfl⟩).2.2 rfl rfl rfl rfl
  obtain ⟨-, -, -, -, -, -, hbytes, -⟩ := hended
  obtain ⟨hover, hfault, hrst⟩ := thaw_climbReleased hl
  have hthaw : OnlyChanges [.host, .cxl, .dram, .pm, .lake, .log, .weir, .rst, .ledger, .wl, .fault, .crew, .frz, .bus, .out]
      (climbReleased l) (thaw (climbReleased l)) := thaw_only _ (by decide) (.refl _ _)
  have hfan : OnlyChanges [.free, .crew, .upd] (thaw (climbReleased l)) (fanTick (thaw (climbReleased l))) :=
    fanTick_only _ (by decide) (.refl _ _)
  generalize hu : fanTick (thaw (climbReleased l)) = u at hfan
  have hseq : u.seq = coreRailless := (hfan .seq (by decide)).trans (hthaw .seq (by decide))
  have hsave : u.save = (frozenClimb l).save := (hfan .save (by decide)).trans (hthaw .save (by decide))
  have hulog : u.log = (thaw (climbReleased l)).log := hfan .log (by decide)
  have hufault : u.fault = (climbReleased l).fault := (hfan .fault (by decide)).trans hfault
  have hurst : u.rst = (climbReleased l).rst := (hfan .rst (by decide)).trans hrst
  have huclk : u.clk = (frozenClimb l).clk := (hfan .clk (by decide)).trans (hthaw .clk (by decide))
  have hexec : exec .trstNAssert (frozenClimb l) = finish (startHeld u) := by rw [← hu]; exact exec_trstNAssert_climb l
  have hstart : startHeld u = u := by
    have hcore : coreHeld u = false := by unfold coreHeld; rw [huclk]; rfl
    unfold startHeld; rw [hcore]; rfl
  rw [hstart] at hexec
  obtain ⟨hempty, hwaiting⟩ := overflowCheck_railless hseq (by rw [hulog]; exact hover) (by rw [hufault]; rfl)
    (by rw [saving, hsave]; rfl) (by rw [memReady, hurst]; rfl)
  obtain rfl : notice (runWaiting (overflowCheck u)) = t := Host.Outcome.next.inj (hexec.symm.trans ht)
  have hdram : (notice (runWaiting (overflowCheck u))).dram = (runWaiting (overflowCheck u)).dram :=
    notice_only (cs := [.bus]) _ (by decide) (.refl _ _) .dram (by decide)
  have hrun : (runWaiting (overflowCheck u)).dram = (overflowCheck u).dram := by
    rw [runWaiting_none hwaiting, State.onFault_dram]
  rw [hdram, hrun, hempty] at hbytes
  exact absurd hbytes.symm (List.cons_ne_nil _ _)

end Sys2Proof.Machine
end

section
/-! PROOFS. O57 fails: a plan recomputes the endurance budget (R221, R423), and where its excess ends the causes of Sprint are
evaluated again (R97), which `PlanRan` says no plan moves. -/

namespace Sys2Proof.Machine
open Sys2Proof

/-- With nothing consumed an excess over the budget ends (R221), and the causes of Sprint are evaluated again. -/
theorem budgetCheck_recovers {s : State} (hover : s.flash.budgetOver = true) (hused : consumed s = 0) :
    budgetCheck s = sprintCheck ((noteConsumed s).onFlash fun f => { f with budgetOver := false }) := by
  have hflash : (noteConsumed s).flash.budgetOver = true := hover
  have hstill : consumed (noteConsumed s) = 0 := hused
  have hlife : (1 : Rat) ≤ lifeDays (noteConsumed s) := le_max_left _ _
  have hrate : 0 < budgetRate (noteConsumed s) := by
    unfold budgetRate
    rw [hstill]
    exact div_pos (by norm_num) (by linarith)
  have hbefore : (0 : Rat) ≤ (consumedBefore (noteConsumed s) : Rat) := Nat.cast_nonneg _
  unfold budgetCheck
  dsimp only
  rw [hflash, hstill, if_neg (by simp), if_pos]
  simp only [Bool.true_and, decide_eq_true_eq]
  push_cast
  linarith

/-- A plan that finds no slack read ends at once, and the page map is then as the settings of the plan left it. -/
theorem startPlan_pm {s : State} (n : Nat) (hread : lowest s = none) : (startPlan n s).pm = (planSets s).pm := by
  have htarget : newTarget s = s.plan.target := by unfold newTarget; rw [hread]
  unfold startPlan
  simp only [htarget, if_true]
  split
  · rfl
  · have hend := endPlan_only (cs := [.free, .host, .cxl, .dram, .ledger, .wl, .seq, .bus, .plan, .out])
      ((planSets s).onPlan fun p => { p with running := true, draft := planWords n s (planSets s) }) (by decide) (.refl _ _)
    exact hend .pm (by decide)

/-- A device in service with a plan due, no Ergometer read, at the start threshold of Sprint with no page dirty and no level
published; the endurance budget was exceeded and is so no longer. -/
def budgetRecovered : State :=
  { State.reset with
    seq := { State.reset.seq with st := .online, vddAon := true }
    rst := { ready := true, committed := true }
    crew := { State.reset.crew with bow := { st := .member } }
    flash := { State.reset.flash with budgetOver := true }
    plan := { State.reset.plan with seq := 1 } }

/-- What a plan sets beside the budget (R423, R426, R427). -/
def planTables (s : State) : State :=
  let d := newDerate s
  let table := newTable s
  let s := s.onDram fun m => { m with channels := m.channels.map fun c =>
    if (goesStale s c) = true then { c with recordStale := true } else c }
  let s := s.onFlash fun f =>
    { f with offsets := table, classReads := List.replicate 8 (0, 0), stepReads := List.replicate 8 (List.replicate 6 0) }
  let s := s.onBat fun g =>
    { g with a := { g.a with fadeRate := fadeOf s g.a }, b := { g.b with fadeRate := fadeOf s g.b } }
  s.onPlan fun p => { p with derate := d }

theorem planSets_eq (s : State) : planSets s = budgetCheck (planTables s) := rfl

/-- The settings of its plan start Sprint. -/
theorem planSets_budgetRecovered : (planSets budgetRecovered).pm.sprint = true := by
  rw [planSets_eq, budgetCheck_recovers rfl (by decide +kernel)]
  decide +kernel

/-- Refutes O57: the plan that runs starts Sprint. -/
theorem not_marginPlansRun : ¬ Obligations.MarginPlansRun := by
  rintro ⟨-, ⟨hact, -⟩, -⟩
  obtain ⟨htrig, -⟩ := hact budgetRecovered rfl rfl rfl
  obtain ⟨t, ht, -, -, -, -, -, -, -, -, honly⟩ := (htrig (.timer, 0, 1) (List.mem_cons_self ..) (by decide +kernel)).1
    ⟨by decide +kernel, rfl, rfl, rfl, rfl⟩
  have hexec : exec (.planTrigger .timer) budgetRecovered = finish (startPlan 0 budgetRecovered) := by
    have hholds : trigHolds budgetRecovered .timer = true := by decide +kernel
    show execPlanTrigger .timer budgetRecovered = _
    simp only [execPlanTrigger, hholds]
    rfl
  have hstart : OnlyChanges [.free, .host, .cxl, .dram, .pm, .lake, .flash, .ledger, .wl, .seq, .bat, .bus, .plan, .out]
      budgetRecovered (startPlan 0 budgetRecovered) := startPlan_only _ _ (by decide) (.refl _ _)
  obtain ⟨u, hu, hn⟩ := finish_noticed (s := startPlan 0 budgetRecovered)
    (calm_of_eq ⟨rfl, rfl⟩ (hstart .log (by decide)) (hstart .fault (by decide)))
  obtain rfl : u = t := Host.Outcome.next.inj ((hu.symm.trans hexec.symm).trans ht)
  have hkept : u.pm = budgetRecovered.pm := honly .pm (by decide)
  have hpm : u.pm = (planSets budgetRecovered).pm := (hn.only .pm (by decide)).trans (startPlan_pm 0 (by decide +kernel))
  have hsprint := planSets_budgetRecovered
  rw [← hpm, hkept] at hsprint
  exact Bool.noConfusion hsprint

end Sys2Proof.Machine
end

section
/-! PROOFS. O56 fails: after a fall-back that waited in vain the active slot is another than the one that runs (R416), and an
update whose settings cannot be read has the crew without the seat load the image that runs, not the active slot's (R243, R413). -/

namespace Sys2Proof.Machine
open Sys2Proof

/-- An image of key 1 that passes the checks of R408, its settings not readable. -/
def unreadableSettings : VerifyIn :=
  { magic := 0x544B494D, headerVersion := 1, length := 4096
    sections := [⟨2, 512, 1, true⟩, ⟨3, 513, 1, true⟩, ⟨4, 514, 1, true⟩, ⟨5, 515, 1, true⟩, ⟨0, 0, 0, true⟩, ⟨0, 0, 0, true⟩,
      ⟨0, 0, 0, true⟩, ⟨0, 0, 0, true⟩]
    key := 1, revokes := [], signatureOk := true, digestOk := true, deviceCode := State.reset.cfg.deviceCode
    securityVersion := 0, producedHandover := 0, lowestHandover := 0, highestHandover := 0, schema := 0, version := []
    settingsReadable := false }

/-- Both crews are members on the image of slot B, Stroke with the seat, and slot A is active from the next start on; a Commit
verifies. Nothing is dirty, and the board counts no fixed energy of a save. -/
def activeNotRunning : State :=
  { State.reset with
    cfg := { State.reset.cfg with board := { State.reset.cfg.board with eFixJ := 0 } }
    seq := { State.reset.seq with st := .online, vddAon := true, catchIn := true }
    rst := { ready := true, committed := true }
    weir := { State.reset.weir with bounds := { State.reset.weir.bounds with rPlan := 1 } }
    crew := { State.reset.crew with
      bow := { st := .member, image := 1 }, stroke := { st := .member, image := 1 }, seat := 0xA5 }
    upd := { State.reset.upd with
      stage := .verifying, imageKeys := [(1, false)]
      session := some { id := 1, transport := 0, endpoint := 0, length := 4096, ranges := [], last := 0, secured := none
                        opened := 0, slot := 0 } } }

/-- An image that passes is in the slot of its session, and what follows depends on R409 (R408). -/
theorem verifyDone_passed {s : State} {f : VerifyIn} {u : UpdSession} (hcheck : verifyCheck s f = stOk)
    (hsession : s.upd.session = some u) : verifyDone f s =
      if boathouse (revokeKeys f (putSlot u.slot (some (imageOf f)) s)) then
        boathouseDone u.slot (revokeKeys f (putSlot u.slot (some (imageOf f)) s))
      else if updateRefused (revokeKeys f (putSlot u.slot (some (imageOf f)) s)) then
        endCommit stState (revokeKeys f (putSlot u.slot (some (imageOf f)) s))
      else activate u.slot f.settingsReadable (revokeKeys f (putSlot u.slot (some (imageOf f)) s)) := by
  unfold verifyDone
  dsimp only
  rw [if_neg (not_not.mpr hcheck), hsession]
  rfl

/-- R409 refuses nothing of it: its save needs no energy. -/
theorem updateRefused_activeNotRunning : updateRefused activeNotRunning = false := by
  have hneed : saveNeed activeNotRunning = 0 := by
    have hfix : activeNotRunning.cfg.board.eFixJ = 0 := rfl
    have hresidue : activeNotRunning.pm.residue = 0 := rfl
    simp [saveNeed, hfix, hresidue]
  have henergy : usableEnergy activeNotRunning = 0 := by
    have hweaker : weaker activeNotRunning = none := by decide +kernel
    unfold usableEnergy; rw [hweaker]
  have hplan : rPlanLast activeNotRunning = 1 := rfl
  have hshort : energyShort activeNotRunning = false := by
    unfold energyShort
    rw [hneed, henergy, hplan]
    simp
  unfold updateRefused
  rw [hshort]
  decide +kernel

/-- The crew without the seat loads the image that runs. -/
theorem activate_activeNotRunning : (activate 0 false (revokeKeys unreadableSettings
    (putSlot 0 (some (imageOf unreadableSettings)) activeNotRunning))).crew.bow.image = 1 := by decide +kernel

/-- Refutes O56: Bow loads slot B while slot A is active. -/
theorem not_updatesRunToActivation : ¬ Obligations.UpdatesRunToActivation := by
  rintro ⟨-, ⟨-, -, -, hverify⟩, -, -, -⟩
  have hcheck : verifyCheck activeNotRunning unreadableSettings = stOk := by decide +kernel
  obtain ⟨t, ht, -, -, -, hload, -, -⟩ := ((hverify activeNotRunning unreadableSettings rfl rfl rfl rfl ⟨rfl, rfl⟩ _ rfl).2
    hcheck).2.2 updateRefused_activeNotRunning rfl rfl
  obtain ⟨-, himage, -⟩ := hload .stroke rfl
  generalize hv : revokeKeys unreadableSettings (putSlot 0 (some (imageOf unreadableSettings)) activeNotRunning) = v
  have hrom : boathouse v = false := by rw [← hv]; rfl
  have hkept : updateRefused v = updateRefused activeNotRunning := by rw [← hv]; rfl
  have hexec : exec (.updateVerifyDone unreadableSettings) activeNotRunning = finish (activate 0 false v) := by
    show execUpdateVerifyDone unreadableSettings activeNotRunning = _
    unfold execUpdateVerifyDone
    rw [if_pos ⟨rfl, rfl, rfl⟩, verifyDone_passed hcheck rfl, hv, hrom, hkept, updateRefused_activeNotRunning]
    rfl
  have honly := activate_only (cs := (Part.crew :: updateParts)) 0 false v (by decide) (.refl _ v)
  obtain ⟨u, hu, hn⟩ := finish_noticed (s := activate 0 false v)
    (calm_of_eq (s := v) (by rw [← hv]; exact ⟨rfl, rfl⟩) (honly .log (by decide)) (honly .fault (by decide)))
  obtain rfl : u = t := Host.Outcome.next.inj ((hu.symm.trans hexec.symm).trans ht)
  have hcrew : u.crew = (activate 0 false v).crew := hn.only .crew (by decide)
  have hbow := activate_activeNotRunning
  rw [hv, ← hcrew] at hbow
  exact absurd (hbow.symm.trans himage) (by decide)

end Sys2Proof.Machine
end

section
/-! PROOFS. SPDM (R354, R395 to R397, R404, R417, R420): O50. -/

namespace Sys2Proof.Machine
open Sys2Proof

/-! ## What the steps of an answer do -/

theorem length_leBytes : ∀ n v : Nat, (leBytes n v).length = n
  | 0, _ => rfl
  | n + 1, v => congrArg (· + 1) (length_leBytes n (v / 256))

theorem sessionOf_endSessions (k : Nat) (s : State) : sessionOf (endSessions (fun x => decide (x = k)) s) k = none := by
  refine List.find?_eq_none.mpr fun x hx => ?_
  obtain ⟨-, hkey⟩ := List.mem_filter.mp hx
  simpa using hkey

theorem slotOf_putSlot_self (k : Fin 2) (i : Option ImageInfo) (s : State) : slotOf (putSlot k i s) k = i := by
  unfold slotOf putSlot
  by_cases h : k = 0 <;> simp [h]

theorem releaseSession_none {s : State} {u : UpdSession} (h : s.upd.session = some u) :
    (releaseSession s).upd = (dropSession s).upd ∧ (dropSession s).upd.session = none ∧
      slotOf (dropSession s) u.slot = none ∧ (dropSession s).upd.secured = s.upd.secured := by
  have hdrop : dropSession s = (putSlot u.slot none s).onUpd fun x => { x with session := none } := by
    unfold dropSession; rw [h]
  have hrec : (releaseSession s).upd = (dropSession s).upd := by
    have hkept := record_only (cs := [.host, .cxl, .wl, .bus, .out]) 0x0901 2 0x7000 u.id (dropSession s) (by decide) (.refl _ _)
    unfold releaseSession
    rw [h]
    exact hkept .upd (by decide)
  refine ⟨hrec, by rw [hdrop]; rfl, ?_, ?_⟩
  · rw [hdrop]; exact slotOf_putSlot_self u.slot none s
  · rw [hdrop]; unfold putSlot; by_cases hk : u.slot = 0 <;> simp [hk]

/-! ## Requests -/

theorem exec_spdmRequest {s : State} {p : Path} (r : SpdmReq) (hreach : reaches s p = true) (hserved : spdmServed s = true) :
    exec (.spdmRequest p r) s = finish (spdmOp p r s) := by
  show execSpdmRequest p r s = _
  simp [execSpdmRequest, hreach, hserved]

/-- An answer to which nothing is added. -/
theorem gives_spdm {s : State} {p : Path} {r : SpdmReq} {ok : Bool} {bytes : List Byte} {u : State}
    (hexec : exec (.spdmRequest p r) s = finish (spdmOp p r s)) (hop : spdmOp p r s = spdm p ok bytes u) (hc : Calm u) :
    Gives (.spdmRequest p r) s (Noticed (spdm p ok bytes u)) :=
  gives_noticed (hexec.trans (congrArg finish hop)) ⟨hc.1, hc.2⟩

/-- The end of a secured session that carries no update session. -/
theorem endSecured_idle {s : State} {id : Nat} (h : ∀ u, s.upd.session = some u → u.secured ≠ some id) :
    endSecured id s = (endSessions (fun k => decide (k = 6 + 4 * id)) s).onUpd fun u =>
      { u with secured := u.secured.filter fun x => decide (x.1 ≠ id) } := by
  unfold endSecured
  dsimp only
  split
  · next u hu => rw [if_neg fun hcarries => h u hu hcarries.1]
  · rfl

/-- The end of a secured session that carries an idle update session. -/
theorem endSecured_carries {s : State} {id : Nat} {u : UpdSession} (hu : s.upd.session = some u) (hid : u.secured = some id)
    (hidle : s.upd.stage = .idle) :
    endSecured id s = (releaseSession ((endSessions (fun k => decide (k = 6 + 4 * id)) s).onUpd fun u =>
      { u with secured := u.secured.filter fun x => decide (x.1 ≠ id) })).onUpd fun u =>
        { u with stage := .idle, committer := none } := by
  have hsession : ((endSessions (fun k => decide (k = 6 + 4 * id)) s).onUpd fun u =>
      { u with secured := u.secured.filter fun x => decide (x.1 ≠ id) }).upd.session = some u := hu
  have hstage : ((endSessions (fun k => decide (k = 6 + 4 * id)) s).onUpd fun u =>
      { u with secured := u.secured.filter fun x => decide (x.1 ≠ id) }).upd.stage = .idle := hidle
  unfold endSecured
  dsimp only
  rw [hsession]
  exact if_pos ⟨hid, .inl hstage⟩

theorem spdm_endSession_idle {s : State} {p : Path} {id : Nat} (hreach : reaches s p = true) (hserved : spdmServed s = true)
    (hc : Calm s) (h : ∀ u, s.upd.session = some u → u.secured ≠ some id) :
    Gives (.spdmRequest p (.endSession id)) s fun t =>
      t.upd = { s.upd with secured := s.upd.secured.filter fun x => decide (x.1 ≠ id) } ∧
        sessionOf t (6 + 4 * id) = none ∧ OnlyChanges [.upd, .od, .out, .bus] s t := by
  have hop : spdmOp p (.endSession id) s = spdm p true [] ((endSessions (fun k => decide (k = 6 + 4 * id)) s).onUpd fun u =>
      { u with secured := u.secured.filter fun x => decide (x.1 ≠ id) }) := congrArg (spdm p true []) (endSecured_idle h)
  have honly : OnlyChanges [.upd, .od, .out] s (spdmOp p (.endSession id) s) := by
    rw [hop]
    exact spdm_only _ _ _ _ (by decide) (State.onUpd_only _ _ (by decide) (endSessions_only _ _ (by decide) (.refl _ s)))
  refine gives_finish (exec_spdmRequest _ hreach hserved) (calm_of_onlyChanges honly (by decide) (by decide) hc) fun t hn => ?_
  have hupd : t.upd = (spdmOp p (.endSession id) s).upd := hn.only .upd (by decide)
  have hod : t.od = (spdmOp p (.endSession id) s).od := hn.only .od (by decide)
  refine ⟨by rw [hupd, hop]; rfl, ?_, hn.onlyChanges (by decide) (honly.mono (by decide))⟩
  have hgone : sessionOf t (6 + 4 * id) = sessionOf (endSessions (fun k => decide (k = 6 + 4 * id)) s) (6 + 4 * id) := by
    unfold sessionOf; rw [hod, hop]; rfl
  rw [hgone, sessionOf_endSessions]

theorem spdm_endSession_carries {s : State} {p : Path} {id : Nat} {u : UpdSession} (hreach : reaches s p = true)
    (hserved : spdmServed s = true) (hc : Calm s) (hu : s.upd.session = some u) (hid : u.secured = some id)
    (hidle : s.upd.stage = .idle) :
    Gives (.spdmRequest p (.endSession id)) s fun t =>
      t.upd.secured = (s.upd.secured.filter fun x => decide (x.1 ≠ id)) ∧ t.upd.session = none ∧
        slotOf t u.slot = none ∧ sessionOf t (6 + 4 * id) = none ∧
        OnlyChanges [.upd, .od, .wl, .cxl, .host, .out, .bus] s t := by
  generalize hv : (endSessions (fun k => decide (k = 6 + 4 * id)) s).onUpd (fun u =>
      { u with secured := u.secured.filter fun x => decide (x.1 ≠ id) }) = v
  have hvonly : OnlyChanges [.upd, .od, .wl, .cxl, .host, .out, .bus] s v := by
    rw [← hv]
    exact State.onUpd_only _ _ (by decide) (endSessions_only _ _ (by decide) (.refl _ s))
  have hvu : v.upd.session = some u := by rw [← hv]; exact hu
  have hvsecured : v.upd.secured = s.upd.secured.filter fun x => decide (x.1 ≠ id) := by rw [← hv]; rfl
  have hvgone : sessionOf v (6 + 4 * id) = none := by
    rw [← hv]; exact sessionOf_endSessions (6 + 4 * id) s
  have hop : spdmOp p (.endSession id) s = spdm p true [] ((releaseSession v).onUpd fun u =>
      { u with stage := .idle, committer := none }) := by
    rw [← hv]; exact congrArg (spdm p true []) (endSecured_carries hu hid hidle)
  have hrel : OnlyChanges [.upd, .od, .wl, .cxl, .host, .out, .bus] s (releaseSession v) :=
    releaseSession_only _ (by decide) hvonly
  have honly : OnlyChanges [.upd, .od, .wl, .cxl, .host, .out, .bus] s (spdmOp p (.endSession id) s) := by
    rw [hop]
    exact spdm_only _ _ _ _ (by decide) (State.onUpd_only _ _ (by decide) hrel)
  refine gives_finish (exec_spdmRequest _ hreach hserved) (calm_of_onlyChanges honly (by decide) (by decide) hc) fun t hn => ?_
  obtain ⟨hrec, hsession, hslot, hsecured⟩ := releaseSession_none hvu
  have hupd : t.upd = { (dropSession v).upd with stage := .idle, committer := none } := by
    rw [show t.upd = (spdmOp p (.endSession id) s).upd from hn.only .upd (by decide), hop, ← hrec]
    rfl
  have hod : t.od = v.od := by
    rw [show t.od = (spdmOp p (.endSession id) s).od from hn.only .od (by decide), hop]
    exact releaseSession_only (cs := [.host, .cxl, .wl, .bus, .upd, .out]) v (by decide) (.refl _ v) .od (by decide)
  refine ⟨?_, ?_, ?_, ?_, hn.onlyChanges (by decide) honly⟩
  · rw [hupd]; exact hsecured.trans hvsecured
  · rw [hupd]; exact hsession
  · unfold slotOf at hslot ⊢; rw [hupd]; exact hslot
  · unfold sessionOf at hvgone ⊢; rw [hod]; exact hvgone

/-! ## Measurements (R396, R417) -/

/-- An answer that takes one free value. -/
theorem gives_digest {s : State} {p : Path} {r : SpdmReq} {bytes : List Byte}
    (hexec : exec (.spdmRequest p r) s = finish (spdmOp p r s))
    (hop : spdmOp p r s = spdm p true bytes { s with free := s.free + 1 }) (hc : Calm s) :
    Gives (.spdmRequest p r) s fun t => t.out.resp = .spdm p true bytes :: s.out.resp ∧ OnlyChanges [.free, .out, .bus] s t := by
  have honly : OnlyChanges [.free, .out] s (spdmOp p r s) := by
    rw [hop]
    exact spdm_only _ _ _ _ (by decide) (free_only _ _ (by decide) (.refl _ s))
  refine gives_finish hexec (calm_of_onlyChanges honly (by decide) (by decide) hc) fun t hn => ?_
  have hout : t.out = (spdmOp p r s).out := hn.only .out (by decide)
  exact ⟨by rw [hout, hop]; rfl, hn.onlyChanges (by decide) (honly.mono (by decide))⟩

theorem length_patchBytes (s : State) : (patchBytes s).length = 48 := by
  unfold patchBytes
  split <;> exact length_leBytes 48 _

/-- A block of measurements 2 to 5 is 48 bytes. -/
theorem measureOp_digest {s : State} {i : Nat} (p : Path) (hrom : boathouse s = false) (hlo : 2 ≤ i) (hhi : i ≤ 5) :
    ∃ d, d.length = 48 ∧ measureOp p i s = spdm p true d { s with free := s.free + 1 } := by
  by_cases h2 : i = 2
  · exact ⟨patchBytes s, length_patchBytes s, by simp [measureOp, hrom, h2]⟩
  · refine ⟨digestBytes s, length_leBytes 48 _, ?_⟩
    have h6 : i ≠ 6 := by omega
    have h1 : i ≠ 1 := by omega
    have h3 : 3 ≤ i ∧ i ≤ 5 := by omega
    simp [measureOp, hrom, h6, h1, h2, h3]

theorem measureOp_refused {s : State} {i : Nat} (p : Path) (h : boathouse s = true ∧ i ≠ 1 ∧ i ≠ 6 ∨ i = 0 ∨ 6 < i) :
    measureOp p i s = spdm p false [] s := by
  unfold measureOp
  by_cases hrom : (boathouse s && !decide (i = 1 ∨ i = 6)) = true
  · rw [if_pos hrom]
  · have hout : i = 0 ∨ 6 < i := h.resolve_left fun ⟨hb, h1, h6⟩ => hrom (by simp [hb, h1, h6])
    rw [if_neg hrom, if_neg (by omega), if_neg (by omega), if_neg (by omega), if_neg (by omega)]

theorem measureOp_versions (s : State) (p : Path) : measureOp p 6 s = spdm p true
    (leBytes 4 (match runningImage s with
      | some i => i.security
      | none => 0) ++ leBytes 4 (minVersion s)) s := by
  have hbytes : versionBytes s = leBytes 4 (match runningImage s with
      | some i => i.security
      | none => 0) ++ leBytes 4 (minVersion s) := by
    unfold versionBytes
    cases runningImage s <;> rfl
  rw [← hbytes]
  unfold measureOp
  rw [if_neg (by simp), if_pos rfl]

/-! ## IDE keys (R59) -/

theorem spdm_ideKey {s : State} {p : Path} (hexec : ∀ r, exec (.spdmRequest p r) s = finish (spdmOp p r s)) (hc : Calm s)
    (mem : Bool) (stream key : Nat) {id : Nat} {o bus : Bool} {c : Nat} (hp : p = .secured id o bus c) :
    Gives (.spdmRequest p (.ideKey mem stream key)) s fun t =>
      (mem = true → tabFind stream t.upd.ideMem = some key ∧ t.upd.ideIo = s.upd.ideIo) ∧
        (mem = false → tabFind stream t.upd.ideIo = some key ∧ t.upd.ideMem = s.upd.ideMem) ∧
        t.out.resp = .spdm p true [] :: s.out.resp ∧ OnlyChanges [.upd, .out, .bus] s t := by
  have hop : spdmOp p (.ideKey mem stream key) s = spdm p true [] (s.onUpd fun u =>
      if mem then { u with ideMem := tabIns stream key u.ideMem } else { u with ideIo := tabIns stream key u.ideIo }) := by
    rw [hp]; rfl
  have honly : OnlyChanges [.upd, .out] s (spdmOp p (.ideKey mem stream key) s) := by
    rw [hop]
    exact spdm_only _ _ _ _ (by decide) (State.onUpd_only _ _ (by decide) (.refl _ s))
  refine gives_finish (hexec _) (calm_of_onlyChanges honly (by decide) (by decide) hc) fun t hn => ?_
  have hupd : t.upd = (spdmOp p (.ideKey mem stream key) s).upd := hn.only .upd (by decide)
  have hout : t.out = (spdmOp p (.ideKey mem stream key) s).out := hn.only .out (by decide)
  refine ⟨?_, ?_, by rw [hout, hop]; rfl, hn.onlyChanges (by decide) (honly.mono (by decide))⟩
  · rintro rfl
    rw [hupd, hop]
    exact ⟨tabFind_tabIns_self _ _ _, rfl⟩
  · rintro rfl
    rw [hupd, hop]
    exact ⟨tabFind_tabIns_self _ _ _, rfl⟩

theorem spdmOp_ideKey_open {p : Path} (s : State) (mem : Bool) (stream key : Nat) (hp : ∀ id o bus c, p ≠ .secured id o bus c) :
    spdmOp p (.ideKey mem stream key) s = spdm p false [] s := by
  cases p with
  | secured id o bus c => exact absurd rfl (hp id o bus c)
  | mailbox | doe | vdm | smbus => rfl

theorem spdmRequests : SpdmRequests := by
  refine ⟨fun s p r hreach hserved => ?_, fun s p hreach hserved hc => ?_⟩
  · show execSpdmRequest p r s = _
    simp [execSpdmRequest, hreach, hserved]
  have hexec (r : SpdmReq) : exec (.spdmRequest p r) s = finish (spdmOp p r s) := exec_spdmRequest r hreach hserved
  refine ⟨fun id o => ⟨fun hnew => ?_, fun hold => ?_⟩, fun id h => spdm_endSession_idle hreach hserved hc h,
    fun id u hu hid hidle => spdm_endSession_carries hreach hserved hc hu hid hidle,
    gives_spdm (hexec _) (measureOp_versions s p) hc, ?_, fun hrom i hlo hhi => ?_, fun i hi => ?_,
    fun mem stream key => ⟨fun id o bus c hp => spdm_ideKey hexec hc mem stream key hp,
      fun hp => gives_spdm (hexec _) (spdmOp_ideKey_open s mem stream key hp) hc⟩,
    fun code => gives_spdm (hexec _) rfl hc⟩
  · exact gives_spdm (hexec _) (if_neg (by rw [hnew]; exact Bool.false_ne_true)) hc
  · exact gives_spdm (hexec _) (if_pos hold) hc
  · have hop : spdmOp p (.measurement 1) s = spdm p true (romBytes s) { s with free := s.free + 1 } := by
      show measureOp p 1 s = _
      simp [measureOp]
    obtain ⟨t, ht, hresp, honly⟩ := gives_digest (hexec _) hop hc
    exact ⟨t, ht, ⟨digestBytes s, length_leBytes 48 _, hresp⟩, honly⟩
  · obtain ⟨d, hd, hop⟩ := measureOp_digest p hrom hlo hhi
    obtain ⟨t, ht, hresp, honly⟩ := gives_digest (hexec (.measurement i)) hop hc
    exact ⟨t, ht, ⟨d, hd, hresp⟩, honly⟩
  · exact gives_spdm (hexec _) (measureOp_refused p hi) hc

/-! ## The owner certificate (R397, R420) -/

/-- Slot 7 takes a chain that the requester may write. -/
theorem setCertificate_taken {s : State} {p : Path} {chain : List Byte} (hreach : reaches s p = true)
    (hserved : spdmServed s = true) (hrom : boathouse s = false) (hlen : chain.length ≤ 4028) (hmay : mayCertify s p = true)
    (hsome : chain ≠ [] ∨ s.upd.owner ≠ []) (hc : Calm s) :
    Gives (.setCertificate p 7 chain) s fun t =>
      t.upd = { s.upd with
        owner := chain, bootSeq := s.upd.bootSeq + 1
        secured := if chain.isEmpty then s.upd.secured.map fun x => (x.1, false) else s.upd.secured } ∧
      t.out.resp.head? = some (.spdm p true []) ∧ OnlyChanges [.upd, .wl, .cxl, .host, .out, .bus] s t := by
  have hexec : exec (.setCertificate p 7 chain) s = finish (spdm p true [] (certifyOp chain s)) := by
    have hslot : (chain.isEmpty && s.upd.owner.isEmpty) = false := by
      rcases hsome with h | h <;> simp [h]
    show execSetCertificate p 7 chain s = _
    simp only [execSetCertificate, hreach, hserved, hrom, hmay, hslot, chainBytes, hlen]
    simp
  obtain ⟨v, hv, hvupd, hvonly⟩ : ∃ v, certifyOp chain s = record 0x0909 4 0x7000 (certArg s chain) v ∧
      v.upd = { s.upd with
        owner := chain, bootSeq := s.upd.bootSeq + 1
        secured := if chain.isEmpty then s.upd.secured.map fun x => (x.1, false) else s.upd.secured } ∧
      OnlyChanges [.upd] s v :=
    ⟨_, rfl, rfl, bootWrite_only _ (by decide) (State.onUpd_only _ _ (by decide) (.refl _ s))⟩
  have hrec := record_only (cs := [.host, .cxl, .wl, .bus, .out]) 0x0909 4 0x7000 (certArg s chain) v (by decide) (.refl _ v)
  have honly : OnlyChanges [.upd, .wl, .cxl, .host, .out, .bus] s (spdm p true [] (certifyOp chain s)) := by
    rw [hv]
    exact spdm_only _ _ _ _ (by decide) (record_only _ _ _ _ _ (by decide) (hvonly.mono (by decide)))
  refine gives_finish hexec (calm_of_onlyChanges honly (by decide) (by decide) hc) fun t hn => ?_
  have hupd : t.upd = (certifyOp chain s).upd := hn.only .upd (by decide)
  have hout : t.out = (spdm p true [] (certifyOp chain s)).out := hn.only .out (by decide)
  have hkept : (certifyOp chain s).upd = v.upd := by rw [hv]; exact hrec .upd (by decide)
  exact ⟨hupd.trans (hkept.trans hvupd), by rw [hout]; rfl, hn.onlyChanges (by decide) honly⟩

theorem setCertificate_refused {s : State} {p : Path} {k : Fin 8} {chain : List Byte} (hreach : reaches s p = true)
    (h : (spdmServed s && !boathouse s && decide (k = 7 ∧ chain.length ≤ chainBytes) && mayCertify s p &&
      !(chain.isEmpty && s.upd.owner.isEmpty)) = false) :
    exec (.setCertificate p k chain) s = .next (spdm p false [] s) := by
  show execSetCertificate p k chain s = _
  unfold execSetCertificate
  rw [if_neg (by simp [hreach]), if_neg (by rw [h]; exact Bool.false_ne_true)]

theorem mayCertify_first {s : State} {id c : Nat} {o : Bool} (howner : s.upd.owner = []) :
    mayCertify s (.secured id o true c) = true := by
  unfold mayCertify; rw [howner]; rfl

theorem mayCertify_owned {s : State} (p : Path) (howner : s.upd.owner ≠ []) : mayCertify s p = decide (privilege p = 2) := by
  unfold mayCertify
  rw [if_neg (by simpa using howner)]

theorem mayCertify_open {s : State} {p : Path} (howner : s.upd.owner = []) (hp : ∀ id o c, p ≠ .secured id o true c) :
    mayCertify s p = false := by
  unfold mayCertify
  rw [if_pos (by simp [howner])]
  cases p with
  | secured id o bus c => cases bus with
    | true => exact absurd rfl (hp id o c)
    | false => rfl
  | mailbox | doe | vdm | smbus => rfl

theorem certificateIsSet : CertificateIsSet := by
  refine ⟨fun s p chain hreach hserved hrom hlen hc => ⟨fun hchain hfirst howned => ?_, fun hchain howner hpriv => ?_,
    fun howner hpriv => ?_, fun howner hp => ?_⟩, fun s p k chain hreach h => setCertificate_refused hreach ?_⟩
  · have hmay : mayCertify s p = true := by
      by_cases howner : s.upd.owner = []
      · obtain ⟨id, o, c, rfl⟩ := hfirst howner
        exact mayCertify_first howner
      · rw [mayCertify_owned p howner, howned howner]; rfl
    obtain ⟨t, ht, hupd, hrest⟩ := setCertificate_taken hreach hserved hrom hlen hmay (.inl hchain) hc
    refine ⟨t, ht, ?_, hrest⟩
    rw [hupd, if_neg (by simpa using hchain)]
  · obtain ⟨t, ht, hupd, hrest⟩ := setCertificate_taken (chain := chain) hreach hserved hrom hlen
      (by rw [mayCertify_owned p howner, hpriv]; rfl) (.inr howner) hc
    refine ⟨t, ht, ?_, hrest⟩
    rw [hupd, hchain]
    rfl
  · exact setCertificate_refused hreach (by simp [mayCertify_owned p howner, hpriv])
  · refine setCertificate_refused hreach ?_
    rcases hp with hp | hp
    · simp [mayCertify_open howner hp]
    · simp [howner, hp]
  · rcases h with h | h | h | h
    · simp [h]
    · simp [chainBytes, Nat.not_le.mpr h]
    · simp [h]
    · simp [h]

/-- Settles O50, by the answer of each request. -/
theorem spdmAnswers : Obligations.SpdmAnswers := ⟨spdmRequests, certificateIsSet⟩

end Sys2Proof.Machine
end

section
/-! PROOFS. The crypto erase (R59, R214, R215): O49. -/

namespace Sys2Proof.Machine
open Sys2Proof

/-! ## Sanitize and Secure Erase -/

theorem eraseCmd_served {s : State} {h : Fin 2} (whole : Bool) (hserved : MailboxServed s h) :
    eraseCmd whole h s = finish (if eraseBusy s then mbox h .busy [] s else startErase whole h s) := by
  obtain ⟨hreach, hfence, hrom, -⟩ := hserved
  simp [eraseCmd, mailboxCmd, hreach, hfence, hrom]

theorem mbox_parts (h : Fin 2) (code : MboxCode) (bytes : List Byte) (s : State) :
    OnlyChanges [.host, .out] s (mbox h code bytes s) := mbox_only _ _ _ _ (by decide) (.refl _ s)

theorem mbox_resp (h : Fin 2) (code : MboxCode) (bytes : List Byte) (s : State) :
    (mbox h code bytes s).out.resp = .mailbox h code bytes :: s.out.resp := by
  unfold mbox vectorOn
  split
  · unfold onHead; split <;> rfl
  · rfl

/-- While something else runs the mailbox is Busy. -/
theorem gives_eraseBusy {i : Instr} {s : State} {h : Fin 2} (whole : Bool) (hexec : exec i s = eraseCmd whole h s)
    (hserved : MailboxServed s h) (hbusy : eraseBusy s = true) : Gives i s (MailboxGives h .busy [] s) := by
  refine gives_noticed ?_ (calm_of_onlyChanges (mbox_parts h .busy [] s) (by decide) (by decide) hserved.2.2.2)
  rw [hexec, eraseCmd_served whole hserved, if_pos hbusy]

/-- What the start of a crypto erase does before the causes of Sprint are evaluated again (R215). -/
def eraseBegun (whole : Bool) (h : Fin 2) (s : State) : State :=
  (((s.onRst fun r => { r with sanitizing := some whole, sanitizeHead := some h }).onLake fun l =>
    { l with gcRun := false }).onUpd fun u => { u with drbg := u.drbg + 1 }).onFlash fun f => { f with newKey := some (f.key + 1) }

theorem startErase_eq (whole : Bool) (h : Fin 2) (s : State) : startErase whole h s = sprintCheck (eraseBegun whole h s) := rfl

/-- What a crypto erase that starts leaves. -/
structure EraseStarts (whole : Bool) (s t : State) : Prop where
  sanitizing : t.rst.sanitizing = some whole
  newKey : t.flash.newKey = some (s.flash.key + 1)
  key : t.flash.key = s.flash.key
  gcRun : t.lake.gcRun = false
  pages : t.pm.pages = s.pm.pages
  residue : t.pm.residue = s.pm.residue
  only : OnlyChanges [.rst, .flash, .lake, .pm, .upd, .bus] s t

theorem gives_eraseStarts {i : Instr} {s : State} {h : Fin 2} (whole : Bool) (hexec : exec i s = eraseCmd whole h s)
    (hserved : MailboxServed s h) (hidle : eraseBusy s = false) : Gives i s (EraseStarts whole s) := by
  have hfinish : exec i s = finish (sprintCheck (eraseBegun whole h s)) := by
    rw [hexec, eraseCmd_served whole hserved, if_neg (by simp [hidle]), startErase_eq]
  have hbegun : OnlyChanges [.rst, .flash, .lake, .upd] s (eraseBegun whole h s) :=
    State.onFlash_only _ _ (by decide) (State.onUpd_only _ _ (by decide) (State.onLake_only _ _ (by decide)
      (State.onRst_only _ _ (by decide) (.refl _ s))))
  have hsprint := sprintCheck_parts (eraseBegun whole h s)
  have honly : OnlyChanges [.rst, .flash, .lake, .pm, .upd] s (sprintCheck (eraseBegun whole h s)) :=
    sprintCheck_only _ (by decide) (hbegun.mono (by decide))
  refine gives_finish hfinish (calm_of_onlyChanges honly (by decide) (by decide) hserved.2.2.2) fun t hn => ?_
  have hrst : t.rst = (eraseBegun whole h s).rst := (hn.only .rst (by decide)).trans (hsprint .rst (by decide))
  have hflash : t.flash = (eraseBegun whole h s).flash := (hn.only .flash (by decide)).trans (hsprint .flash (by decide))
  have hpm : t.pm = (sprintCheck (eraseBegun whole h s)).pm := hn.only .pm (by decide)
  have hlake : t.lake = (sprintCheck (eraseBegun whole h s)).lake := hn.only .lake (by decide)
  obtain ⟨-, hpages, hresidue⟩ := sprintCheck_keepsMap (eraseBegun whole h s)
  obtain ⟨b, hstarved⟩ := sprintCheck_lake (eraseBegun whole h s)
  exact ⟨by rw [hrst]; rfl, by rw [hflash]; rfl, by rw [hflash]; rfl, by rw [hlake, hstarved]; rfl, by rw [hpm, hpages]; rfl,
    by rw [hpm, hresidue]; rfl, hn.onlyChanges (by decide) (honly.mono (by decide))⟩

/-! ## SANITIZED -/

/-- What SANITIZED does to the ledger, the keys, the maps and the Basin before the Weir is checked (R214, R215). -/
def erased (key : Nat) (s : State) : State :=
  let s := (storeKey key (commit .sanitized s)).onFlash fun f => { f with key := key, newKey := none }
  (eraseBasin (eraseMaps s)).onRst fun r => { r with sanitizing := none, sanitizeHead := none }

theorem sanitizedOp_eq (key : Nat) {s : State} {h : Fin 2} (hhead : s.rst.sanitizeHead = some h) :
    sanitizedOp key s = mbox h .success [] (retest (weirCheck ordinary (erased key s))) := by
  unfold sanitizedOp
  simp only [hhead]
  rfl

/-- What the erase of the maps leaves of the ledger and of the page map (R153, R215). -/
theorem eraseMaps_ledger (s : State) : ∃ l, (eraseMaps s).ledger = { s.ledger with buckets := l } := by
  have hkept (x : State) : (setCoarsened false x).ledger = x.ledger :=
    setCoarsened_only (cs := [.host, .out]) false x (by decide) (.refl _ x) .ledger (by decide)
  unfold eraseMaps
  simp only [State.onLog_ledger, State.onLake_ledger, State.onLedger_ledger, hkept, State.onPm_ledger]
  exact ⟨_, rfl⟩

theorem eraseMaps_pm (s : State) : (eraseMaps s).pm.buckets = [] ∧ (eraseMaps s).pm.pages = [] ∧ (eraseMaps s).pm.residue = 0 := by
  have hkept (x : State) : (setCoarsened false x).pm = x.pm :=
    setCoarsened_only (cs := [.host, .out]) false x (by decide) (.refl _ x) .pm (by decide)
  unfold eraseMaps
  simp only [State.onLog_pm, State.onLake_pm, State.onLedger_pm, hkept, State.onPm_pm, and_self]

theorem eraseMaps_lake (s : State) : (eraseMaps s).lake.mapping = [] ∧ (eraseMaps s).lake.checkpoint = none := ⟨rfl, rfl⟩

theorem eraseMaps_log (s : State) : (eraseMaps s).log.overflow = s.log.overflow := by
  have hkept (x : State) : (setCoarsened false x).log = x.log :=
    setCoarsened_only (cs := [.host, .out]) false x (by decide) (.refl _ x) .log (by decide)
  unfold eraseMaps
  simp only [State.onLog_log, State.onLake_log, State.onLedger_log, hkept, State.onPm_log]

/-- The parts that hold what an erase leaves are those of `erased`, and the Weir's check moves none of it. -/
structure Erased (k : Nat) (s t : State) : Prop where
  key : t.flash.key = k ∧ t.flash.newKey = none
  sanitizing : t.rst.sanitizing = none
  map : t.pm.buckets = [] ∧ t.pm.pages = [] ∧ t.pm.residue = 0
  lake : t.lake.mapping = [] ∧ t.lake.checkpoint = none
  basin : t.basin.image = none ∧ t.basin.erasedBy = [] ∧ t.basin.reErase = true
  keyRecords : t.ledger.keyRecords = (k, k) ∧ t.ledger.keyCopy = k
  commits : t.ledger.commits = { time := s.tb.now, commit := .sanitized } :: s.ledger.commits

theorem erased_leaves (k : Nat) {s : State} (hled : s.ledger.failed = false) : Erased k s (erased k s) := by
  generalize hv : (storeKey k (commit .sanitized s)).onFlash (fun f => { f with key := k, newKey := none }) = v
  have herased : erased k s = (eraseBasin (eraseMaps v)).onRst fun r => { r with sanitizing := none, sanitizeHead := none } := by
    rw [← hv]; rfl
  have hflash : (erased k s).flash = v.flash := by
    rw [herased]
    exact eraseMaps_only (cs := [.host, .pm, .lake, .log, .ledger, .out]) v (by decide) (.refl _ v) .flash (by decide)
  obtain ⟨l, hl⟩ := eraseMaps_ledger v
  have hledger : (erased k s).ledger = { v.ledger with buckets := l } := by rw [herased, ← hl]; rfl
  have hvflash : v.flash.key = k ∧ v.flash.newKey = none := by rw [← hv]; exact ⟨rfl, rfl⟩
  have hvledger : v.ledger = { s.ledger with
      commits := { time := s.tb.now, commit := .sanitized } :: s.ledger.commits, keyRecords := (k, k), keyCopy := k } := by
    rw [← hv, commit_sound (c := .sanitized) (s := s) rfl hled]
    simp [storeKey, hled]
  refine ⟨by rw [hflash]; exact hvflash, by rw [herased]; rfl, by rw [herased]; exact eraseMaps_pm v,
    by rw [herased]; exact eraseMaps_lake v, by rw [herased]; exact ⟨rfl, rfl, rfl⟩, ?_, ?_⟩
  · rw [hledger, hvledger]; exact ⟨rfl, rfl⟩
  · rw [hledger, hvledger]

/-- The check of the Weir moves nothing of it. -/
theorem weirCheck_erased {k : Nat} {s u : State} (h : Erased k s u) : Erased k s (weirCheck ordinary u) := by
  have honly := weirCheck_only (cs := [.host, .cxl, .pm, .lake, .weir, .wl, .bus, .out]) ordinary u (by decide) (.refl _ u)
  have hflash : (weirCheck ordinary u).flash = u.flash := honly .flash (by decide)
  have hrst : (weirCheck ordinary u).rst = u.rst := honly .rst (by decide)
  have hbasin : (weirCheck ordinary u).basin = u.basin := honly .basin (by decide)
  have hledger : (weirCheck ordinary u).ledger = u.ledger := honly .ledger (by decide)
  obtain ⟨hbuckets, hpages, hresidue⟩ := weirCheck_map ordinary u
  obtain ⟨b, hlake⟩ : ∃ b, (weirCheck ordinary u).lake = { u.lake with starved := b } := by
    have hepisode : (episodeCheck ordinary u).lake = u.lake :=
      episodeCheck_only (cs := [.host, .cxl, .weir, .wl, .bus, .out]) _ _ (by decide) (.refl _ _) .lake (by decide)
    obtain ⟨b, hb⟩ := sprintCheck_lake (episodeCheck ordinary u)
    exact ⟨b, by rw [← hepisode]; exact hb⟩
  exact ⟨by rw [hflash]; exact h.key, by rw [hrst]; exact h.sanitizing, by rw [hbuckets, hpages, hresidue]; exact h.map,
    by rw [hlake]; exact h.lake, by rw [hbasin]; exact h.basin, by rw [hledger]; exact h.keyRecords,
    by rw [hledger]; exact h.commits⟩

/-- Its answer and the end of the command move nothing of it either. -/
theorem Erased.congr {k : Nat} {s u t : State} (h : Erased k s u) (honly : OnlyChanges [.host, .out, .bus] u t) : Erased k s t := by
  have hflash : t.flash = u.flash := honly .flash (by decide)
  have hrst : t.rst = u.rst := honly .rst (by decide)
  have hpm : t.pm = u.pm := honly .pm (by decide)
  have hlake : t.lake = u.lake := honly .lake (by decide)
  have hbasin : t.basin = u.basin := honly .basin (by decide)
  have hledger : t.ledger = u.ledger := honly .ledger (by decide)
  exact ⟨by rw [hflash]; exact h.key, by rw [hrst]; exact h.sanitizing, by rw [hpm]; exact h.map, by rw [hlake]; exact h.lake,
    by rw [hbasin]; exact h.basin, by rw [hledger]; exact h.keyRecords, by rw [hledger]; exact h.commits⟩

/-- Every part but these is as it was when the Weir has been checked. -/
theorem erased_parts (k : Nat) (s : State) : OnlyChanges [.free, .host, .cxl, .pm, .lake, .log, .basin, .flash, .weir, .rst,
    .ledger, .wl, .bus, .out] s (weirCheck ordinary (erased k s)) := by
  have hstored : OnlyChanges [.free, .host, .cxl, .ledger, .wl, .bus, .out, .flash] s
      ((storeKey k (commit .sanitized s)).onFlash fun f => { f with key := k, newKey := none }) :=
    State.onFlash_only _ _ (by decide) (State.onLedger_only _ _ (by decide) (commit_only _ _ (by decide) (.refl _ s)))
  have herased : OnlyChanges [.free, .host, .cxl, .pm, .lake, .log, .basin, .flash, .weir, .rst, .ledger, .wl, .bus, .out] s
      (erased k s) := by
    unfold erased
    exact State.onRst_only _ _ (by decide) (eraseBasin_only _ (by decide) (eraseMaps_only _ (by decide)
      (hstored.mono (by decide))))
  exact weirCheck_only _ _ (by decide) herased

theorem erased_log {k : Nat} {s : State} (hled : s.ledger.failed = false) :
    (weirCheck ordinary (erased k s)).log.overflow = s.log.overflow := by
  have hweir : (weirCheck ordinary (erased k s)).log = (erased k s).log :=
    weirCheck_only (cs := [.host, .cxl, .pm, .lake, .weir, .wl, .bus, .out]) _ _ (by decide) (.refl _ _) .log (by decide)
  rw [hweir]
  refine (eraseMaps_log _).trans ?_
  rw [commit_sound (c := .sanitized) (s := s) rfl hled]
  rfl

/-- SANITIZED of an erase that runs, with every buffered write admitted, so that none is held to be tested again. -/
theorem exec_sanitized {s : State} {w : Bool} {h : Fin 2} {key : Nat} (hsanitizing : s.rst.sanitizing = some w)
    (hhead : s.rst.sanitizeHead = some h) (hkey : s.flash.newKey = some key) (hmember : anyMember s = true)
    (hfrozen : frozen s = false) (hfence : s.host.fence = false)
    (hadmitted : (s.wb.entries.all fun e => decide (e.phase = .admitted)) = true) :
    exec .sanitized s = finish (mbox h .success [] (weirCheck ordinary (erased key s))) := by
  have hwb : (weirCheck ordinary (erased key s)).wb = s.wb := erased_parts key s .wb (by decide)
  have hretest : retest (weirCheck ordinary (erased key s)) = weirCheck ordinary (erased key s) :=
    retest_admitted fun e he => by
      rw [hwb] at he
      simpa using List.all_eq_true.mp hadmitted e he
  rw [← hretest, ← sanitizedOp_eq key hhead]
  show execSanitized s = _
  simp [execSanitized, hkey, hsanitizing, hmember, hfrozen, hfence]

/-- Settles O49: what a start and what the end of a crypto erase leave. -/
theorem cryptoErase : Obligations.CryptoErase := by
  refine ⟨fun s h hserved => ⟨fun hbusy => ⟨gives_eraseBusy true rfl hserved hbusy, gives_eraseBusy false rfl hserved hbusy⟩,
    fun hidle => ⟨?_, ?_⟩⟩, fun s w h key hsanitizing hhead hkey hmember hfrozen hfence hled hadmitted hc => ?_⟩
  · obtain ⟨t, ht, hs, hnew, hk, hgc, hpages, hresidue, honly⟩ := gives_eraseStarts (i := .sanitize h) true rfl hserved hidle
    exact ⟨t, ht, hs, hnew, hk, hgc, hpages, hresidue, honly⟩
  · obtain ⟨t, ht, hs, hnew, -, -, hpages, -, honly⟩ := gives_eraseStarts (i := .secureErase h) false rfl hserved hidle
    exact ⟨t, ht, hs, hnew, hpages, honly⟩
  have honly : OnlyChanges [.host, .out] (weirCheck ordinary (erased key s))
      (mbox h .success [] (weirCheck ordinary (erased key s))) := mbox_parts _ _ _ _
  have hfault : (weirCheck ordinary (erased key s)).fault = s.fault := erased_parts key s .fault (by decide)
  have hcalm : Calm (weirCheck ordinary (erased key s)) :=
    ⟨(erased_log hled).trans hc.1, by rw [hfault]; exact hc.2⟩
  refine gives_finish (exec_sanitized hsanitizing hhead hkey hmember hfrozen hfence hadmitted)
    (calm_of_onlyChanges honly (by decide) (by decide) hcalm) fun t hn => ?_
  obtain ⟨⟨hk, hnone⟩, hover, ⟨hbuckets, hpages, hresidue⟩, ⟨hmapping, hcheckpoint⟩, ⟨himage, hby, hagain⟩, ⟨hrecords, hcopy⟩,
    hcommits⟩ := (weirCheck_erased (erased_leaves key hled)).congr (hn.onlyChanges (by decide) (honly.mono (by decide)))
  have hout : t.out = (mbox h .success [] (weirCheck ordinary (erased key s))).out := hn.only .out (by decide)
  refine ⟨hk, hnone, hover, fun p => ?_, hresidue, hbuckets, hmapping, hcheckpoint, himage, hby, hagain, hrecords, hcopy,
    hcommits, by rw [hout, mbox_resp]; rfl⟩
  unfold pageState pageEntry
  rw [hpages]
  rfl

end Sys2Proof.Machine
end

section
/-! PROOFS. MCTP control messages, and the assembly of packets (R373, R383 to R385): parts of O53. -/

namespace Sys2Proof.Machine
open Sys2Proof

/-! ## Control messages (R384) -/

/-- A message that is not the device's: the port is off, or it names another endpoint. -/
theorem forUs_elsewhere {s : State} {dst : Nat} (h : portOn s .mgmt = false ∨ dst ≠ 0 ∧ s.bus.mgmt.eid ≠ some dst) (control : Bool) :
    forUs s control dst = false := by
  unfold forUs
  rcases h with h | ⟨h0, heid⟩
  · rw [h]; rfl
  · cases he : s.bus.mgmt.eid with
    | none => simp [h0]
    | some e =>
      have hne : dst ≠ e := fun hde => heid (by rw [he, hde])
      simp [h0, hne]

theorem controlCmd_taken {s : State} {dst : Nat} (bytes : State → List Byte) (h : forUs s true dst = true) :
    controlCmd dst bytes s = .next (say (.control (0 :: bytes s)) s) := if_pos h

theorem controlCmd_dropped {s : State} {dst : Nat} (bytes : State → List Byte) (h : forUs s true dst = false) :
    controlCmd dst bytes s = .next s := if_neg (by rw [h]; exact Bool.false_ne_true)

theorem execSetEndpointId_taken {s : State} {dst : Nat} (e : Nat) (h : forUs s true dst = true) :
    execSetEndpointId dst e s = if eidOk e then
      .next (say (.control ([0, 0] ++ leBytes 1 e ++ [0])) (onPort .mgmt (fun b => { b with eid := some e }) s))
    else .next (say (.control [2]) s) := by
  unfold execSetEndpointId
  rw [h]
  rfl

theorem execSetEndpointId_dropped {s : State} {dst : Nat} (e : Nat) (h : forUs s true dst = false) :
    execSetEndpointId dst e s = .next s := by
  unfold execSetEndpointId
  rw [h]
  rfl

theorem exec_getEndpointId (dst : Nat) (s : State) :
    exec (.getEndpointId dst) s = controlCmd dst (fun s => leBytes 1 (s.bus.mgmt.eid.getD 0)) s := rfl

theorem exec_getEndpointUuid (dst : Nat) (s : State) :
    exec (.getEndpointUuid dst) s = controlCmd dst (fun _ => leBytes 16 Config.endpointUuid.toNat) s := rfl

theorem exec_getMctpVersionSupport (dst : Nat) (s : State) :
    exec (.getMctpVersionSupport dst) s = controlCmd dst (fun _ => [1, 0xF1, 0xF3, 0xFF, 0]) s := rfl

theorem exec_getMessageTypeSupport (dst : Nat) (s : State) :
    exec (.getMessageTypeSupport dst) s = controlCmd dst (fun _ => [3, 0x05, 0x06, 0x7E]) s := rfl

theorem exec_getVendorDefinedMessageSupport (dst : Nat) (s : State) : exec (.getVendorDefinedMessageSupport dst) s =
    controlCmd dst (fun s => [0x7E, BitVec.ofNat 8 (s.cfg.vendorId.toNat / 256), BitVec.ofNat 8 s.cfg.vendorId.toNat]) s := rfl

theorem mctpControl : MctpControl := by
  refine ⟨fun s dst h => ⟨fun e hlo hhi => ?_, fun e he => ?_, ?_, ?_, ?_, ?_, ?_⟩, fun s dst e h i hi => ?_⟩
  · refine (execSetEndpointId_taken e h).trans ?_
    rw [if_pos (by simp [eidOk, hlo, hhi])]
    rfl
  · refine (execSetEndpointId_taken e h).trans (if_neg ?_)
    rcases he with rfl | he
    · decide
    · simp [eidOk, Nat.not_lt.mpr he]
  · rw [exec_getEndpointId, controlCmd_taken _ h]; rfl
  · rw [exec_getEndpointUuid, controlCmd_taken _ h]
  · rw [exec_getMctpVersionSupport, controlCmd_taken _ h]
  · rw [exec_getMessageTypeSupport, controlCmd_taken _ h]
  · rw [exec_getVendorDefinedMessageSupport, controlCmd_taken _ h]
  · have hdrop : forUs s true dst = false := forUs_elsewhere h true
    simp only [List.mem_cons, List.not_mem_nil, or_false] at hi
    rcases hi with rfl | rfl | rfl | rfl | rfl | rfl
    · exact execSetEndpointId_dropped e hdrop
    · rw [exec_getEndpointId, controlCmd_dropped _ hdrop]
    · rw [exec_getEndpointUuid, controlCmd_dropped _ hdrop]
    · rw [exec_getMctpVersionSupport, controlCmd_dropped _ hdrop]
    · rw [exec_getMessageTypeSupport, controlCmd_dropped _ hdrop]
    · rw [exec_getVendorDefinedMessageSupport, controlCmd_dropped _ hdrop]

/-! ## What records and the end of a command leave of the ports -/

/-- What assembles, runs, answers and counts on the buses is the same. -/
structure BusKept (s t : State) : Prop where
  assembly : t.bus.assembly = s.bus.assembly
  reqs : t.bus.reqs = s.bus.reqs
  waiting : t.bus.waiting = s.bus.waiting
  peer : t.bus.mgmt.peer = s.bus.mgmt.peer
  errors : t.bus.mgmt.errors = s.bus.mgmt.errors
  lastError : t.bus.mgmt.lastError = s.bus.mgmt.lastError

theorem BusKept.trans {s t u : State} (h : BusKept s t) (h' : BusKept t u) : BusKept s u :=
  ⟨h'.assembly.trans h.assembly, h'.reqs.trans h.reqs, h'.waiting.trans h.waiting, h'.peer.trans h.peer, h'.errors.trans h.errors,
    h'.lastError.trans h.lastError⟩

theorem BusKept.of_reported {s t : State} (h : Reported s t) : BusKept s t := by
  unfold Reported at h
  rw [h]
  exact ⟨rfl, rfl, rfl, rfl, rfl, rfl⟩

theorem BusKept.of_noticed {s t : State} (h : Noticed s t) : BusKept s t := .of_reported h.reported

theorem BusKept.assemblyOf {s t : State} (h : BusKept s t) (src : Nat) : assemblyOf t src = assemblyOf s src := by
  unfold Machine.assemblyOf; rw [h.assembly]

theorem BusKept.targetDone (s : State) : BusKept s (targetDone .mgmt s) := ⟨rfl, rfl, rfl, rfl, rfl, rfl⟩

theorem targetDone_parts (s : State) : OnlyChanges [.bus] s (targetDone .mgmt s) :=
  targetDone_only _ _ (by decide) (.refl _ s)

theorem portOn_targetDone (s : State) : portOn (targetDone .mgmt s) .mgmt = portOn s .mgmt := by
  have hst : ((if s.bus.mgmt.st = .target then PortSt.idle else s.bus.mgmt.st) ≠ .portReset) ↔ s.bus.mgmt.st ≠ .portReset := by
    split
    · next h => simp [h]
    · rfl
  exact congrArg (s.seq.vddAon && ·) (decide_eq_decide.mpr hst)

theorem forUs_targetDone (s : State) (control : Bool) (dst : Nat) : forUs (targetDone .mgmt s) control dst = forUs s control dst := by
  unfold forUs
  rw [portOn_targetDone]
  rfl

/-- A bus error of MGMT is counted with its cause (R378, R389, R391). -/
theorem busErrorOp_counts (cause : Nat) (s : State) :
    (busErrorOp .mgmt cause s).bus.mgmt.errors = satInc 0xFFFFFFFF s.bus.mgmt.errors ∧
      (busErrorOp .mgmt cause s).bus.mgmt.lastError = cause ∧ (busErrorOp .mgmt cause s).bus.assembly = s.bus.assembly ∧
      (busErrorOp .mgmt cause s).bus.reqs = s.bus.reqs := by
  have hkept : BusKept _ (busErrorOp .mgmt cause s) := .of_reported (record_reported _ _ _ _ _)
  exact ⟨hkept.errors, hkept.lastError, hkept.assembly, hkept.reqs⟩

theorem busErrorOp_parts (cause : Nat) (s : State) : OnlyChanges busParts s (busErrorOp .mgmt cause s) :=
  busErrorOp_only _ _ _ (by decide) (.refl _ s)

theorem assemblyOf_noAssembly (src : Nat) (s : State) : assemblyOf (noAssembly src s) src = none :=
  List.find?_eq_none.mpr fun x hx => by
    obtain ⟨-, hne⟩ := List.mem_filter.mp hx
    simpa using hne

theorem discard_leaves (src : Nat) (s : State) : assemblyOf (discard src s) src = none ∧ (discard src s).bus.reqs = s.bus.reqs ∧
    (discard src s).bus.mgmt.errors = satInc 0xFFFFFFFF s.bus.mgmt.errors ∧ (discard src s).bus.mgmt.lastError = 8 ∧
    OnlyChanges busParts s (discard src s) := by
  obtain ⟨herrors, hlast, hassembly, hreqs⟩ := busErrorOp_counts 8 (noAssembly src s)
  refine ⟨?_, hreqs, herrors, hlast, busErrorOp_only _ _ _ (by decide) (State.onBus_only _ _ (by decide) (.refl _ s))⟩
  rw [← assemblyOf_noAssembly src s]
  unfold assemblyOf discard
  rw [hassembly]

/-! ## A packet, from the port to its message (R373, R383, R385) -/

/-- What a packet that joins its message makes of it, the bytes so far and its own being `b` (R385). -/
def joinMessage (m : MctpPkt) (b : List Byte) (s : State) : State :=
  if messageBytes < b.length then discard m.src s
  else if m.eom then takeMessage { src := m.src, addr := m.srcAddr, tag := m.tag, bytes := b } (noAssembly m.src s)
  else
    (noAssembly m.src s).onBus fun x =>
      { x with assembly := x.assembly ++ [{ src := m.src, last := s.tb.now, nextSeq := m.seq + 1, bytes := b }] }

theorem takePacket_joined {s : State} {m : MctpPkt} {b : List Byte} (h : joinedBytes s m = some b) :
    takePacket m s = joinMessage m b s := by
  unfold joinedBytes at h
  unfold takePacket
  split at h
  · next hsom =>
    obtain rfl := Option.some.inj h
    rw [if_pos hsom]
    rfl
  · next hsom =>
    rw [if_neg hsom]
    obtain ⟨a, ha, hb⟩ := Option.bind_eq_some_iff.mp h
    rw [ha]
    dsimp only
    split at hb
    · next hnext =>
      obtain rfl := Option.some.inj hb
      rw [if_neg (fun hbad => hbad.elim (fun hne => hne hnext.1) (fun hlate => absurd hnext.2 (Nat.not_le.mpr hlate)))]
      rfl
    · cases hb

theorem takePacket_outOfOrder {s : State} {m : MctpPkt} (h : joinedBytes s m = none) (ha : (assemblyOf s m.src).isSome = true) :
    takePacket m s = discard m.src s := by
  obtain ⟨a, ha⟩ := Option.isSome_iff_exists.mp ha
  unfold joinedBytes at h
  unfold takePacket
  split at h
  · cases h
  · next hsom =>
    rw [if_neg hsom, ha]
    rw [ha] at h
    dsimp only [Option.bind_some] at h ⊢
    split at h
    · cases h
    · next hbad =>
      rw [if_pos]
      by_contra hgood
      obtain ⟨hseq, htime⟩ := not_or.mp hgood
      exact hbad ⟨not_not.mp hseq, Nat.not_lt.mp htime⟩

theorem takePacket_unknown {s : State} {m : MctpPkt} (hsom : m.som = false) (ha : assemblyOf s m.src = none) :
    takePacket m s = s := by
  unfold takePacket
  rw [if_neg (by rw [hsom]; exact Bool.false_ne_true), ha]

theorem forUs_device {s : State} {m : MctpPkt} (hon : portOn s .mgmt = true) : forUs s false m.dst = true ↔ ForDevice s m := by
  unfold forUs ForDevice
  rw [hon]
  cases s.bus.mgmt.eid with
  | none => simp
  | some e =>
    simp only [Bool.true_and, decide_eq_true_eq, ne_eq, reduceCtorEq, not_false_eq_true, true_and, Option.some.injEq]
    exact or_congr_right eq_comm

/-- A packet that passes the port's checks. -/
theorem exec_mctpPacket {s : State} {m : MctpPkt} (hon : portOn s .mgmt = true) (hlen : m.payload.length ≤ 64)
    (hpec : m.pecOk = true) : exec (.mctpPacket m) s =
      if forUs s false m.dst then finish (takePacket m (targetDone .mgmt s)) else .next (targetDone .mgmt s) := by
  show execMctpPacket m s = _
  unfold execMctpPacket
  rw [if_neg (by simp [hon]), if_neg (Nat.not_lt.mpr hlen), if_neg (by simp [hpec]), ← forUs_targetDone s false m.dst]

/-- The packet's message, after the STOP that ended its transaction. -/
theorem exec_mctpPacket_taken {s : State} {m : MctpPkt} {b : List Byte} (h : PacketTaken s m b) :
    exec (.mctpPacket m) s = finish (joinMessage m b (targetDone .mgmt s)) := by
  obtain ⟨hon, hpec, hlen, hus, hjoin⟩ := h
  have hsame : joinedBytes (targetDone .mgmt s) m = some b := hjoin
  rw [exec_mctpPacket hon hlen hpec, if_pos ((forUs_device hon).mpr hus), takePacket_joined hsame]

/-- A message that goes on is kept for its next packet. -/
theorem joinMessage_goesOn {s : State} {m : MctpPkt} {b : List Byte} (heom : m.eom = false) (hlen : b.length ≤ 8202) :
    assemblyOf (joinMessage m b s) m.src = some { src := m.src, last := s.tb.now, nextSeq := m.seq + 1, bytes := b } ∧
      (joinMessage m b s).bus.reqs = s.bus.reqs ∧ OnlyChanges [.bus] s (joinMessage m b s) := by
  have hjoin : joinMessage m b s = (noAssembly m.src s).onBus fun x =>
      { x with assembly := x.assembly ++ [{ src := m.src, last := s.tb.now, nextSeq := m.seq + 1, bytes := b }] } := by
    unfold joinMessage
    rw [if_neg (show ¬ messageBytes < b.length from Nat.not_lt.mpr hlen), if_neg (by rw [heom]; exact Bool.false_ne_true)]
  rw [hjoin]
  refine ⟨?_, rfl, State.onBus_only _ _ (by decide) (State.onBus_only _ _ (by decide) (.refl _ s))⟩
  have hnone := assemblyOf_noAssembly m.src s
  unfold assemblyOf at hnone ⊢
  simp only [State.onBus_bus, List.find?_append, hnone]
  simp

theorem targetDone_calm {s : State} (hc : Calm s) : Calm (targetDone .mgmt s) := hc

/-- A message that is too long is discarded (R385). -/
theorem gives_discard {i : Instr} {s : State} {src : Nat} (hexec : exec i s = finish (discard src (targetDone .mgmt s)))
    (hc : Calm s) : Gives i s fun t => assemblyOf t src = none ∧ t.bus.reqs = s.bus.reqs ∧
      t.bus.mgmt.errors = satInc 0xFFFFFFFF s.bus.mgmt.errors ∧ t.bus.mgmt.lastError = 8 ∧ OnlyChanges busParts s t := by
  obtain ⟨hnone, hreqs, herrors, hlast, honly⟩ := discard_leaves src (targetDone .mgmt s)
  have hall : OnlyChanges busParts s (discard src (targetDone .mgmt s)) := ((targetDone_parts s).mono (by decide)).trans honly
  refine gives_finish hexec (calm_of_onlyChanges hall (by decide) (by decide) hc) fun t hn => ?_
  have hkept := BusKept.of_noticed hn
  exact ⟨(hkept.assemblyOf src).trans hnone, hkept.reqs.trans hreqs, hkept.errors.trans herrors, hkept.lastError.trans hlast,
    hn.onlyChanges (by decide) hall⟩

/-- A packet that fails a check of the port is a bus error (R373, R378). -/
theorem gives_busError {i : Instr} {s u : State} {cause : Nat} (hexec : exec i s = finish (busErrorOp .mgmt cause u))
    (hu : OnlyChanges [.free] s u) (hc : Calm s) : Gives i s fun t =>
      t.bus.mgmt.errors = satInc 0xFFFFFFFF s.bus.mgmt.errors ∧ t.bus.mgmt.lastError = cause ∧
      t.bus.assembly = s.bus.assembly ∧ t.bus.reqs = s.bus.reqs ∧ OnlyChanges busParts s t := by
  obtain ⟨herrors, hlast, hassembly, hreqs⟩ := busErrorOp_counts cause u
  have hbus : u.bus = s.bus := hu .bus (by decide)
  rw [hbus] at herrors hassembly hreqs
  have hall : OnlyChanges busParts s (busErrorOp .mgmt cause u) := (hu.mono (by decide)).trans (busErrorOp_parts cause u)
  refine gives_finish hexec (calm_of_onlyChanges hall (by decide) (by decide) hc) fun t hn => ?_
  have hkept := BusKept.of_noticed hn
  exact ⟨hkept.errors.trans herrors, hkept.lastError.trans hlast, hkept.assembly.trans hassembly, hkept.reqs.trans hreqs,
    hn.onlyChanges (by decide) hall⟩

/-- A packet that joins nothing leaves the messages as they are. -/
theorem gives_dropped {i : Instr} {s : State}
    (hexec : exec i s = finish (targetDone .mgmt s) ∨ exec i s = .next (targetDone .mgmt s)) (hc : Calm s) :
    Gives i s fun t => t.bus.assembly = s.bus.assembly ∧ t.bus.reqs = s.bus.reqs ∧
      t.bus.mgmt.errors = s.bus.mgmt.errors ∧ OnlyChanges [.bus] s t := by
  have hdone := BusKept.targetDone s
  rcases hexec with h | h
  · refine gives_finish h (targetDone_calm hc) fun t hn => ?_
    have hkept := hdone.trans (.of_noticed hn)
    exact ⟨hkept.assembly, hkept.reqs, hkept.errors, hn.onlyChanges (by decide) (targetDone_parts s)⟩
  · exact ⟨_, h, hdone.assembly, hdone.reqs, hdone.errors, targetDone_parts s⟩

theorem exec_mctpPacket_long {s : State} {m : MctpPkt} (hon : portOn s .mgmt = true) (hlen : 64 < m.payload.length) :
    exec (.mctpPacket m) s = finish (longPacket s) := by
  show execMctpPacket m s = _
  unfold execMctpPacket
  rw [if_neg (by simp [hon]), if_pos hlen]

theorem exec_mctpPacket_pec {s : State} {m : MctpPkt} (hon : portOn s .mgmt = true) (hlen : m.payload.length ≤ 64)
    (hpec : m.pecOk = false) : exec (.mctpPacket m) s = finish (busErrorOp .mgmt 3 s) := by
  show execMctpPacket m s = _
  unfold execMctpPacket
  rw [if_neg (by simp [hon]), if_neg (Nat.not_lt.mpr hlen), if_pos (by simp [hpec])]

/-- A packet that is not the device's, or that belongs to no message, is dropped. -/
theorem exec_mctpPacket_dropped {s : State} {m : MctpPkt} (hon : portOn s .mgmt = true) (hlen : m.payload.length ≤ 64)
    (hpec : m.pecOk = true) (h : ¬ ForDevice s m ∨ m.som = false ∧ assemblyOf s m.src = none) :
    exec (.mctpPacket m) s = finish (targetDone .mgmt s) ∨ exec (.mctpPacket m) s = .next (targetDone .mgmt s) := by
  rw [exec_mctpPacket hon hlen hpec]
  by_cases hus : forUs s false m.dst = true
  · obtain ⟨hsom, ha⟩ := h.resolve_left (not_not.mpr ((forUs_device hon).mp hus))
    have hnone : assemblyOf (targetDone .mgmt s) m.src = none := ha
    rw [if_pos hus, takePacket_unknown hsom hnone]
    exact .inl rfl
  · rw [if_neg hus]
    exact .inr rfl

theorem mctpAssemblyGap_settles {s : State} (src : Nat) (hon : portOn s .mgmt = true) (hc : Calm s) :
    ((assemblyOf s src).isSome = true →
      Gives (.mctpAssemblyGap src) s fun t => assemblyOf t src = none ∧
        t.bus.mgmt.errors = satInc 0xFFFFFFFF s.bus.mgmt.errors ∧ t.bus.mgmt.lastError = 8 ∧ OnlyChanges busParts s t) ∧
      (assemblyOf s src = none → exec (.mctpAssemblyGap src) s = .next s) := by
  refine ⟨fun ha => ?_, fun ha => ?_⟩
  · have hexec : exec (.mctpAssemblyGap src) s = finish (discard src s) := if_pos (by rw [hon, ha]; rfl)
    obtain ⟨hnone, -, herrors, hlast, honly⟩ := discard_leaves src s
    refine gives_finish hexec (calm_of_onlyChanges honly (by decide) (by decide) hc) fun t hn => ?_
    have hkept := BusKept.of_noticed hn
    exact ⟨(hkept.assemblyOf src).trans hnone, hkept.errors.trans herrors, hkept.lastError.trans hlast,
      hn.onlyChanges (by decide) honly⟩
  · exact if_neg (by rw [ha]; simp)

theorem mctpAssembly : MctpAssembly := by
  refine ⟨fun s m b h hc => ⟨fun heom hlen => ?_, fun hlen => ?_⟩, fun s m hon hc => ⟨fun hlen hpec => ?_, fun hlen => ?_,
    fun hlen hpec => ⟨fun hdrop => gives_dropped (exec_mctpPacket_dropped hon hlen hpec hdrop) hc, fun hus ha hbad => ?_⟩⟩,
    fun s src hon hc => mctpAssemblyGap_settles src hon hc, fun s hoff m src => ⟨?_, ?_⟩⟩
  · obtain ⟨hassembly, hreqs, honly⟩ := joinMessage_goesOn (s := targetDone .mgmt s) heom hlen
    have hall : OnlyChanges [.bus] s (joinMessage m b (targetDone .mgmt s)) := (targetDone_parts s).trans honly
    refine gives_finish (exec_mctpPacket_taken h) (calm_of_onlyChanges hall (by decide) (by decide) hc) fun t hn => ?_
    have hkept := BusKept.of_noticed hn
    exact ⟨(hkept.assemblyOf m.src).trans hassembly, hkept.reqs.trans hreqs, hn.onlyChanges (by decide) hall⟩
  · refine gives_discard ((exec_mctpPacket_taken h).trans (congrArg finish ?_)) hc
    exact if_pos hlen
  · obtain ⟨t, ht, herrors, hlast, hassembly, hreqs, honly⟩ :=
      gives_busError (exec_mctpPacket_pec hon hlen hpec) (.refl _ s) hc
    exact ⟨t, ht, herrors, hlast, hassembly, hreqs, honly⟩
  · obtain ⟨t, ht, herrors, -, hassembly, hreqs, honly⟩ :=
      gives_busError (exec_mctpPacket_long hon hlen) (free_only s _ (by decide) (.refl _ s)) hc
    exact ⟨t, ht, herrors, hassembly, hreqs, honly⟩
  · have hgap : (assemblyOf (targetDone .mgmt s) m.src).isSome = true := ha
    have hnone : joinedBytes (targetDone .mgmt s) m = none := hbad
    refine gives_discard ?_ hc
    rw [exec_mctpPacket hon hlen hpec, if_pos ((forUs_device hon).mpr hus), takePacket_outOfOrder hnone hgap]
  · exact if_pos (by simp [hoff])
  · exact if_neg (by simp [hoff])

end Sys2Proof.Machine
end

section
/-! PROOFS. MCTP requests, from the bytes of a message to the answer that is kept for a retry (R61, R361, R362, R383): O53. -/

namespace Sys2Proof.Machine
open Sys2Proof

/-! ## The bytes of a vendor message (R361) -/

/-- The two bytes of a 16-bit number. -/
theorem bytes_word (n : Nat) (h : n < 65536) :
    (BitVec.ofNat 8 (n / 256)).toNat * 256 + (BitVec.ofNat 8 n).toNat = n := by
  simp only [BitVec.toNat_ofNat]
  omega

theorem leBytes_word (lo hi : Byte) : leBytes 2 (lo.toNat + 256 * hi.toNat) = [lo, hi] := by
  have hlo := lo.isLt
  have hhi := hi.isLt
  simp only [leBytes]
  congr 1
  · apply BitVec.eq_of_toNat_eq; simp only [BitVec.toNat_ofNat]; omega
  · congr 1
    apply BitVec.eq_of_toNat_eq; simp only [BitVec.toNat_ofNat]; omega

section
variable {s : State} {n : Fin 32} {v op : Byte × Byte} {l : List Byte}

theorem vendorMessage_instance : (BitVec.ofNat 8 (0x80 + n.val)).toNat = 0x80 + n.val := by
  have := n.isLt
  simp only [BitVec.toNat_ofNat]
  omega

/-- The request that a vendor message spells. -/
def requestOf (m : McMsg) (n : Fin 32) (op : Byte × Byte) : McReq :=
  { src := m.src, inst := n.val, addr := m.addr, tag := m.tag, opcode := op.1.toNat + 256 * op.2.toNat, resp := [] }

theorem parse_vendorMessage {m : McMsg} (h : m.bytes = vendorMessage s n v op l) : parse s m = some (requestOf m n op) := by
  have hvendor := bytes_word s.cfg.vendorId.toNat s.cfg.vendorId.isLt
  have hinst := vendorMessage_instance (n := n)
  have hn := n.isLt
  have hlen : ¬ m.bytes.length < 8 := by rw [h]; simp [vendorMessage]
  have h0 : at' m.bytes 0 1 = 0x7E := by rw [h]; rfl
  have h1 : at' m.bytes 1 1 = (BitVec.ofNat 8 (s.cfg.vendorId.toNat / 256)).toNat := by rw [h]; simp [at', vendorMessage, leNat]
  have h2 : at' m.bytes 2 1 = (BitVec.ofNat 8 s.cfg.vendorId.toNat).toNat := by rw [h]; simp [at', vendorMessage, leNat]
  have h4 : at' m.bytes 4 1 = 0x80 + n.val := by rw [h, ← hinst]; rfl
  have h6 : at' m.bytes 6 2 = op.1.toNat + 256 * op.2.toNat := by rw [h]; simp [at', vendorMessage, leNat]
  unfold parse
  dsimp only
  rw [if_neg, h4, h6]
  · have hmod : (0x80 + n.val) % 32 = n.val := by omega
    rw [hmod]
    rfl
  · rw [h0, h1, h2, h4]
    omega

theorem at'_version {b : List Byte} (h : b = vendorMessage s n v op l) : at' b 3 1 = v.1.toNat := by
  rw [h]; simp [at', vendorMessage, leNat]

theorem drop_vendorMessage {b : List Byte} (h : b = vendorMessage s n v op l) : b.drop 8 = l := by rw [h]; rfl

end

/-- Bytes that spell no vendor request of the device. -/
theorem parse_other {s : State} {m : McMsg}
    (h : m.bytes.length < 8 ∨
      m.bytes.take 3 ≠ [0x7E, BitVec.ofNat 8 (s.cfg.vendorId.toNat / 256), BitVec.ofNat 8 s.cfg.vendorId.toNat] ∨
      ∃ x : Byte, m.bytes[4]? = some x ∧ x.toNat < 128) : parse s m = none := by
  unfold parse
  dsimp only
  refine if_pos ?_
  by_contra hbad
  simp only [not_or, Nat.not_lt, ne_eq, not_not] at hbad
  obtain ⟨hlen, htype, hvendor, hrequest⟩ := hbad
  match hb : m.bytes, hlen with
  | b0 :: b1 :: b2 :: b3 :: b4 :: rest, _ =>
    rw [hb] at h htype hvendor hrequest
    have h0 : at' (b0 :: b1 :: b2 :: b3 :: b4 :: rest) 0 1 = b0.toNat := by simp [at', leNat]
    have h1 : at' (b0 :: b1 :: b2 :: b3 :: b4 :: rest) 1 1 = b1.toNat := by simp [at', leNat]
    have h2 : at' (b0 :: b1 :: b2 :: b3 :: b4 :: rest) 2 1 = b2.toNat := by simp [at', leNat]
    have h4 : at' (b0 :: b1 :: b2 :: b3 :: b4 :: rest) 4 1 = b4.toNat := by simp [at', leNat]
    rw [h0] at htype
    rw [h1, h2] at hvendor
    rw [h4] at hrequest
    have hlt1 := b1.isLt
    have hlt2 := b2.isLt
    rcases h with h | h | ⟨x, hx, hlow⟩
    · rw [hb] at hlen; omega
    · refine h ?_
      have e0 : b0 = 0x7E := BitVec.eq_of_toNat_eq htype
      have e1 : b1 = BitVec.ofNat 8 (s.cfg.vendorId.toNat / 256) := by
        apply BitVec.eq_of_toNat_eq; simp only [BitVec.toNat_ofNat]; omega
      have e2 : b2 = BitVec.ofNat 8 s.cfg.vendorId.toNat := by
        apply BitVec.eq_of_toNat_eq; simp only [BitVec.toNat_ofNat]; omega
      rw [e0, e1, e2]
      rfl
    · obtain rfl := Option.some.inj hx
      omega

theorem parse_congr {s t : State} (h : t.cfg = s.cfg) (m : McMsg) : parse t m = parse s m := by
  unfold parse; rw [h]

/-! ## A request and its answer (R361, R362) -/

/-- Request `q` of an endpoint has been answered by `resp`, which is kept for a retry (R362, R383). -/
structure Answered (q : McReq) (resp : List Byte) (s u : State) : Prop where
  sent : u.out.resp = .mctp q.addr q.src q.tag resp :: s.out.resp
  kept : { q with resp := resp } ∈ u.bus.reqs
  assembly : u.bus.assembly = s.bus.assembly
  waiting : u.bus.waiting = s.bus.waiting
  peer : u.bus.mgmt.peer = s.bus.mgmt.peer
  parts : OnlyChanges [.bus, .free, .out] s u

theorem mctpAnswer_answers (q : McReq) (code : Nat) (payload : List Byte) (s : State) :
    Answered q (mctpFrame s q.inst q.opcode code payload) s (mctpAnswer q code payload s) :=
  ⟨rfl, List.mem_cons_self, rfl, rfl, rfl, mctpAnswer_only _ _ _ _ (by decide) (.refl _ s)⟩

/-- The request is the endpoint's, in the place of the one before it, and has no response yet. -/
def admitted (q : McReq) (s : State) : State :=
  s.onBus fun b => { b with reqs := q :: b.reqs.filter fun x => decide (x.src ≠ q.src) }

theorem Answered.of_admitted {q : McReq} {resp : List Byte} {s u : State} (h : Answered q resp (admitted q s) u) :
    Answered q resp s u :=
  ⟨h.sent, h.kept, h.assembly, h.waiting, h.peer, (State.onBus_only _ _ (by decide) (.refl _ s)).trans h.parts⟩

theorem mctpFrame_empty (s : State) (n : Fin 32) (op : Byte × Byte) (code : Byte) :
    mctpFrame s n.val (op.1.toNat + 256 * op.2.toNat) code.toNat [] = emptyResponse s n op code := by
  have hcode : leBytes 2 code.toNat = [code, 0] := by simpa using leBytes_word code 0
  unfold mctpFrame emptyResponse
  rw [leBytes_word, hcode]
  rfl

section
variable {q : McReq} {s : State} {m : McMsg} {n : Fin 32} {op : Byte × Byte}

/-- An opcode that is no vendor command's, and a protocol version other than 1. -/
theorem runRequest_unsupported (version : Nat) (payload : List Byte)
    (h : (vendorOps.find? fun o => decide (o.1 = q.opcode)) = none ∨ version ≠ 1) :
    runRequest q version payload s = mctpAnswer q rcUnsupported [] (admitted q s) := by
  unfold runRequest
  dsimp only
  split
  · rfl
  · next o ho => exact if_pos (h.resolve_left (by rw [ho]; exact Option.some_ne_none o))

theorem runRequest_short {payload : List Byte} {o : Nat × Nat}
    (ho : (vendorOps.find? fun o => decide (o.1 = q.opcode)) = some o) (hlen : payload.length < o.2) :
    runRequest q 1 payload s = mctpAnswer q rcLength [] (admitted q s) := by
  unfold runRequest
  dsimp only
  rw [ho]
  dsimp only
  rw [if_neg (not_not.mpr rfl), if_pos hlen]
  rfl

theorem runRequest_unsupported_answers {version : Nat} (payload : List Byte)
    (h : (vendorOps.find? fun o => decide (o.1 = (requestOf m n op).opcode)) = none ∨ version ≠ 1) :
    Answered (requestOf m n op) (emptyResponse s n op 3) s (runRequest (requestOf m n op) version payload s) := by
  rw [runRequest_unsupported version payload h, ← mctpFrame_empty s n op 3]
  exact (mctpAnswer_answers _ rcUnsupported [] _).of_admitted

theorem runRequest_short_answers {payload : List Byte} {o : Nat × Nat}
    (ho : (vendorOps.find? fun o => decide (o.1 = (requestOf m n op).opcode)) = some o) (hlen : payload.length < o.2) :
    Answered (requestOf m n op) (emptyResponse s n op 0x16) s (runRequest (requestOf m n op) 1 payload s) := by
  rw [runRequest_short ho hlen, ← mctpFrame_empty s n op 0x16]
  exact (mctpAnswer_answers _ rcLength [] _).of_admitted

end

/-- No vendor command has an opcode with these bytes. -/
theorem vendorOps_unknown {op : Byte × Byte}
    (h : op.2 ≠ 0xC0 ∨ op.1 ∉ ([0x01, 0x02, 0x03, 0x10, 0x11, 0x12, 0x13, 0x20] : List Byte)) :
    (vendorOps.find? fun o => decide (o.1 = op.1.toNat + 256 * op.2.toNat)) = none := by
  refine List.find?_eq_none.mpr fun o ho => ?_
  have hlo := op.1.isLt
  have hhi := op.2.isLt
  have hbytes : ∀ k : Nat, k < 256 → 0xC000 + k = op.1.toNat + 256 * op.2.toNat → op.2 = 0xC0 ∧ op.1 = BitVec.ofNat 8 k := by
    intro k hk he
    refine ⟨BitVec.eq_of_toNat_eq (show op.2.toNat = 192 by omega), BitVec.eq_of_toNat_eq ?_⟩
    rw [BitVec.toNat_ofNat]
    omega
  have hmem : ∃ k : Nat, k < 256 ∧ o.1 = 0xC000 + k ∧
      BitVec.ofNat 8 k ∈ ([0x01, 0x02, 0x03, 0x10, 0x11, 0x12, 0x13, 0x20] : List Byte) := by
    refine ⟨o.1 - 0xC000, ?_⟩
    revert o
    decide
  obtain ⟨k, hk, hok, hlist⟩ := hmem
  rw [decide_eq_true_eq, hok]
  intro he
  obtain ⟨h2, h1⟩ := hbytes k hk he
  rcases h with h | h
  · exact h h2
  · exact h (h1 ▸ hlist)

/-- The fixed part of a vendor command's input. -/
theorem vendorOps_known {op k : Byte}
    (h : (op, k) ∈ ([(0x01, 8), (0x02, 12), (0x03, 6), (0x10, 8), (0x11, 12), (0x12, 4), (0x13, 4), (0x20, 12)] : List (Byte × Byte))) :
    (vendorOps.find? fun o => decide (o.1 = op.toNat + 256 * (0xC0 : Byte).toNat)) =
      some (op.toNat + 256 * (0xC0 : Byte).toNat, k.toNat) := by
  simp only [List.mem_cons, List.not_mem_nil, or_false, Prod.mk.injEq] at h
  rcases h with ⟨rfl, rfl⟩ | ⟨rfl, rfl⟩ | ⟨rfl, rfl⟩ | ⟨rfl, rfl⟩ | ⟨rfl, rfl⟩ | ⟨rfl, rfl⟩ | ⟨rfl, rfl⟩ | ⟨rfl, rfl⟩ <;> decide

/-! ## The residue, read over MCTP (R61, R357) -/

theorem viewHas_noSession {s : State} {p : Path} (h : NoSession s p) (index sub : Nat) : viewHas s (sessionKey p) index sub = none := by
  unfold viewHas; rw [h.1]; rfl

theorem viewed_noSession {s : State} {p : Path} (h : NoSession s p) (index sub : Nat) : viewed s (sessionKey p) index sub = none := by
  unfold viewed; rw [h.1]

theorem ended_noSession {s : State} {p : Path} (h : NoSession s p) (index : Nat) :
    s.od.ended.contains (sessionKey p, index) = false := by
  rw [Bool.eq_false_iff, ne_eq, List.contains_iff_mem]
  intro hmem
  exact List.filter_eq_nil_iff.mp h.2 _ hmem (decide_eq_true rfl)

theorem touch_noSession {s : State} {p : Path} (h : NoSession s p) : touch (sessionKey p) s = s := by
  unfold touch; rw [h.1]

theorem readGate_served {s : State} {p : Path} (h : Served s p) (index : Nat) : readGate index p s = none := by
  obtain ⟨-, hdark, hfrozen, hempty, hboat⟩ := h
  simp [readGate, gate, romServes, hdark, hfrozen, hempty, hboat]

theorem odField_residue (s : State) : odField s 0x2001 0 = some (fRo .u64) := rfl

/-- Every privilege may read the residue. -/
theorem readable_residue (p : Path) : (readNibble (fRo .u64)).testBit (privilege p) = true := by
  have hnibble : readNibble (fRo .u64) = 7 := by decide
  have hthree : privilege p = 0 ∨ privilege p = 1 ∨ privilege p = 2 := by
    cases p with
    | secured i owner bus x => cases owner <;> cases bus <;> simp [privilege]
    | _ => simp [privilege]
  rw [hnibble]
  rcases hthree with h | h | h <;> rw [h] <;> rfl

theorem readOp_residue {s : State} {p : Path} (hs : Served s p) (hn : NoSession s p) : readOp p 0x2001 0 0 s =
    ((stOk, [5, 0, 0, 8, 0, 0, 0, 8, 0, 0, 0] ++ leBytes 8 s.pm.residue), { s with free := s.free + 16 }) := by
  have hfind : findRead p 0x2001 0 0 s = .inr (fRo .u64) := by
    unfold findRead
    rw [viewHas_noSession hn]
    rfl
  have hnibble : (readNibble (fRo .u64)).testBit (privilege p) = true := readable_residue p
  have hbytes : odBytes s 0x2001 0 (fRo .u64).typ = leBytes 8 s.pm.residue := rfl
  have hlen : (leBytes 8 s.pm.residue).length = 8 := length_leBytes 8 _
  have hslice : slice (fRo .u64).typ 0 (leBytes 8 s.pm.residue) = leBytes 8 s.pm.residue := rfl
  unfold readOp
  rw [readGate_served hs]
  dsimp only
  rw [touch_noSession hn, hfind]
  dsimp only
  rw [if_pos hnibble]
  unfold readEntryOp
  rw [ended_noSession hn, Bool.and_false, if_neg Bool.false_ne_true]
  have hview : takeView (sessionKey p) 0x2001 0 0 s = s := rfl
  dsimp only
  rw [hview, viewed_noSession hn, Option.getD_none, hbytes, hslice, hlen, if_neg (Nat.not_lt_zero 8)]
  unfold readOut
  rw [hlen]
  rfl

/-- The payload of the request that reads the residue. -/
def residuePayload : List Byte := [0x01, 0x20, 0, 0, 0, 0, 0, 0]

theorem runOp_residue {s : State} {p : Path} (hs : Served s p) (hn : NoSession s p) : runOp p 0xC001 residuePayload s =
    .next (reply p stOk ([5, 0, 0, 8, 0, 0, 0, 8, 0, 0, 0] ++ leBytes 8 s.pm.residue) { s with free := s.free + 16 }) := by
  have hop : runOp p 0xC001 residuePayload s = execOdRead p 0x2001 0 0 s := rfl
  rw [hop]
  unfold execOdRead
  rw [hs.1, if_neg Bool.false_ne_true]
  show Host.Outcome.next (reply p (readOp p 0x2001 0 0 s).1.1 (readOp p 0x2001 0 0 s).1.2 (readOp p 0x2001 0 0 s).2) = _
  rw [readOp_residue hs hn]

theorem after_next (s t : State) : after s (.next t) = t := rfl

theorem reply_answered {s : State} {e : Nat} {q : McReq} (h : unanswered s e = some q) (status : Nat) (bytes : List Byte) :
    reply (.smbus e) status bytes s = mctpAnswer q 0 (BitVec.ofNat 8 status :: bytes) s := by
  unfold reply
  dsimp only
  rw [h]

theorem unanswered_admitted (q : McReq) (k : Nat) (s : State) (hq : q.resp = []) :
    unanswered { admitted q s with free := k } q.src = some q := by
  show List.find? _ (q :: _) = _
  rw [List.find?_cons_of_pos]
  simp [hq]

theorem runRequest_residue {q : McReq} {s : State} (hop : q.opcode = 0xC001) (hq : q.resp = [])
    (hs : Served s (.smbus q.src)) (hn : NoSession s (.smbus q.src)) :
    runRequest q 1 residuePayload s =
      mctpAnswer q 0 (0 :: ([5, 0, 0, 8, 0, 0, 0, 8, 0, 0, 0] ++ leBytes 8 s.pm.residue))
        { admitted q s with free := s.free + 16 } := by
  have hs' : Served (admitted q s) (.smbus q.src) := hs
  have hn' : NoSession (admitted q s) (.smbus q.src) := hn
  have hfind : (vendorOps.find? fun o => decide (o.1 = q.opcode)) = some (0xC001, 8) := by rw [hop]; rfl
  have hrun : runRequest q 1 residuePayload s = after (admitted q s) (runOp (.smbus q.src) q.opcode residuePayload (admitted q s)) := by
    unfold runRequest
    dsimp only
    rw [hfind]
    rfl
  rw [hrun, hop, runOp_residue hs' hn']
  have hun : unanswered { admitted q s with free := (admitted q s).free + 16 } q.src = some q := unanswered_admitted q _ s hq
  rw [after_next, reply_answered hun]
  rfl

/-- The frame of the residue's answer (R61, R361). -/
theorem mctpFrame_residue (s : State) (n : Fin 32) : mctpFrame s n.val 0xC001 0
    (0 :: ([5, 0, 0, 8, 0, 0, 0, 8, 0, 0, 0] ++ leBytes 8 s.pm.residue)) = residueMessage s n := by
  have hop : leBytes 2 0xC001 = [0x01, 0xC0] := by decide
  have hcode : leBytes 2 0 = [0, 0] := by decide
  unfold mctpFrame
  rw [hop, hcode]
  rfl

theorem runRequest_residue_answers {m : McMsg} {n : Fin 32} {s : State} (hs : Served s (.smbus m.src))
    (hn : NoSession s (.smbus m.src)) :
    Answered (requestOf m n (0x01, 0xC0)) (residueMessage s n) s (runRequest (requestOf m n (0x01, 0xC0)) 1 residuePayload s) := by
  rw [runRequest_residue (q := requestOf m n (0x01, 0xC0)) rfl rfl hs hn, ← mctpFrame_residue s n]
  have hans := mctpAnswer_answers (requestOf m n (0x01, 0xC0)) 0
    (0 :: ([5, 0, 0, 8, 0, 0, 0, 8, 0, 0, 0] ++ leBytes 8 s.pm.residue))
    { admitted (requestOf m n (0x01, 0xC0)) s with free := s.free + 16 }
  have hmid : OnlyChanges [.bus, .free, .out] s { admitted (requestOf m n (0x01, 0xC0)) s with free := s.free + 16 } :=
    free_only _ _ (by decide) (State.onBus_only _ _ (by decide) (.refl _ s))
  exact ⟨hans.sent, hans.kept, hans.assembly, hans.waiting, hans.peer, hmid.trans hans.parts⟩

theorem readResidueMessage_vendor (s : State) (n : Fin 32) :
    readResidueMessage s n = vendorMessage s n (1, 0) (0x01, 0xC0) residuePayload := rfl

end Sys2Proof.Machine
end

section
/-! PROOFS. MCTP packets that end a request, and the requests that waited (R361, R362, R383): O53. -/

namespace Sys2Proof.Machine
open Sys2Proof

/-! ## A whole message -/

/-- The message that packet `m`, its last, ends with the bytes `b`. -/
def wholeMessage (m : MctpPkt) (b : List Byte) : McMsg := { src := m.src, addr := m.srcAddr, tag := m.tag, bytes := b }

/-- The state in which the message of `m` is taken: the packet's transaction has ended, and nothing of `m`'s sender is being
assembled. -/
def arrived (m : MctpPkt) (s : State) : State := noAssembly m.src (targetDone .mgmt s)

/-- The sender of the message is the device's peer, and has been heard (R377, R381). -/
def heard (m : MctpPkt) (s : State) : State :=
  onPort .mgmt (fun b => { b with peer := m.srcAddr, lossRun := 0 }) (arrived m s)

theorem arrived_parts (m : MctpPkt) (s : State) : OnlyChanges [.bus] s (arrived m s) := by
  unfold arrived noAssembly
  exact State.onBus_only _ _ (by decide) (targetDone_parts s)

theorem heard_parts (m : MctpPkt) (s : State) : OnlyChanges [.bus] s (heard m s) :=
  onPort_only _ _ _ (by decide) (arrived_parts m s)

theorem arrived_cfg (m : MctpPkt) (s : State) : (arrived m s).cfg = s.cfg := arrived_parts m s .cfg (by decide)

theorem heard_cfg (m : MctpPkt) (s : State) : (heard m s).cfg = s.cfg := heard_parts m s .cfg (by decide)

theorem exec_mctpPacket_whole {s : State} {m : MctpPkt} {b : List Byte} (h : PacketTaken s m b) (heom : m.eom = true)
    (hlen : b.length ≤ 8202) : exec (.mctpPacket m) s = finish (takeMessage (wholeMessage m b) (arrived m s)) := by
  rw [exec_mctpPacket_taken h]
  unfold joinMessage
  rw [if_neg (show ¬ messageBytes < b.length from Nat.not_lt.mpr hlen), if_pos heom]
  rfl

section
variable {s : State} {m : MctpPkt} {b : List Byte} {q : McReq}

/-- A message that spells no request is dropped. -/
theorem takeMessage_other (h : parse s (wholeMessage m b) = none) :
    takeMessage (wholeMessage m b) (arrived m s) = arrived m s := by
  have harrived : parse (arrived m s) (wholeMessage m b) = none := (parse_congr (arrived_cfg m s) _).trans h
  unfold takeMessage
  rw [harrived]

/-- A request that is the endpoint's last one again is answered as before (R362). -/
theorem takeMessage_retry (h : parse s (wholeMessage m b) = some q) {old : McReq}
    (hold : (s.bus.reqs.find? fun x => decide (x.src = q.src ∧ x.inst = q.inst)) = some old) :
    takeMessage (wholeMessage m b) (arrived m s) = if old.resp.isEmpty then heard m s else mctpSend q old.resp (heard m s) := by
  have harrived : parse (arrived m s) (wholeMessage m b) = some q := (parse_congr (arrived_cfg m s) _).trans h
  have hfind : ((onPort .mgmt (fun x => { x with peer := (wholeMessage m b).addr, lossRun := 0 }) (arrived m s)).bus.reqs.find?
      fun x => decide (x.src = q.src ∧ x.inst = q.inst)) = some old := hold
  unfold takeMessage
  rw [harrived]
  dsimp only
  rw [hfind]
  rfl

theorem takeMessage_new (h : parse s (wholeMessage m b) = some q)
    (hnew : (s.bus.reqs.find? fun x => decide (x.src = q.src ∧ x.inst = q.inst)) = none) :
    takeMessage (wholeMessage m b) (arrived m s) = takeRequest q (wholeMessage m b) (heard m s) := by
  have harrived : parse (arrived m s) (wholeMessage m b) = some q := (parse_congr (arrived_cfg m s) _).trans h
  have hfind : ((onPort .mgmt (fun x => { x with peer := (wholeMessage m b).addr, lossRun := 0 }) (arrived m s)).bus.reqs.find?
      fun x => decide (x.src = q.src ∧ x.inst = q.inst)) = none := hnew
  unfold takeMessage
  rw [harrived]
  dsimp only
  rw [hfind]
  rfl

end

/-! ## Requests of an endpoint that runs none (R362) -/

section
variable {s : State} {m : MctpPkt} {b : List Byte} {n : Fin 32} {v op : Byte × Byte} {l resp : List Byte}

theorem find_noRequest (h : (s.bus.reqs.any fun x => decide (x.src = m.src ∧ x.inst = n.val)) = false) :
    (s.bus.reqs.find? fun x => decide (x.src = m.src ∧ x.inst = n.val)) = none :=
  List.find?_eq_none.mpr fun x hx hp => by
    have hany : (s.bus.reqs.any fun x => decide (x.src = m.src ∧ x.inst = n.val)) = true := List.any_eq_true.mpr ⟨x, hx, hp⟩
    rw [h] at hany
    cases hany

theorem takeRequest_runs {q : McReq} {w : McMsg} (h : s.upd.committer ≠ some (.smbus q.src)) :
    takeRequest q w s = runRequest q (at' w.bytes 3 1) (w.bytes.drop 8) s := if_pos (by simp [endpointBusy, h])

theorem takeRequest_waits {q : McReq} {w : McMsg} (h : s.upd.committer = some (.smbus q.src))
    (hnone : (s.bus.waiting.any fun x => decide (x.src = q.src)) = false) :
    takeRequest q w s = s.onBus fun b => { b with waiting := b.waiting ++ [w] } := by
  unfold takeRequest
  rw [if_neg (by simp [endpointBusy, h]), hnone, if_neg Bool.false_ne_true]

theorem takeRequest_busy {q : McReq} {w : McMsg} (h : s.upd.committer = some (.smbus q.src))
    (hone : (s.bus.waiting.any fun x => decide (x.src = q.src)) = true) :
    takeRequest q w s = mctpSend q (mctpFrame s q.inst q.opcode rcBusy []) s := by
  unfold takeRequest
  rw [if_neg (by simp [endpointBusy, h]), if_pos hone]

theorem emptyResponse_heard (n : Fin 32) (op : Byte × Byte) (code : Byte) :
    emptyResponse (heard m s) n op code = emptyResponse s n op code := by
  unfold emptyResponse
  rw [heard_cfg]

theorem heard_upd (m : MctpPkt) (s : State) : (heard m s).upd = s.upd := heard_parts m s .upd (by decide)

/-- A request of an endpoint that runs none is executed at once. -/
theorem takeMessage_runs (hb : b = vendorMessage s n v op l)
    (hnew : (s.bus.reqs.any fun x => decide (x.src = m.src ∧ x.inst = n.val)) = false)
    (hfree : s.upd.committer ≠ some (.smbus m.src)) : takeMessage (wholeMessage m b) (arrived m s) =
      runRequest (requestOf (wholeMessage m b) n op) v.1.toNat l (heard m s) := by
  have hbusy : (heard m s).upd.committer ≠ some (.smbus (requestOf (wholeMessage m b) n op).src) := by
    rw [heard_upd]; exact hfree
  have hversion : at' (wholeMessage m b).bytes 3 1 = v.1.toNat := at'_version hb
  have hpayload : (wholeMessage m b).bytes.drop 8 = l := drop_vendorMessage hb
  rw [takeMessage_new (parse_vendorMessage hb) (find_noRequest hnew), takeRequest_runs hbusy, hversion, hpayload]

theorem assemblyOf_arrived (m : MctpPkt) (s : State) : assemblyOf (arrived m s) m.src = none := assemblyOf_noAssembly _ _

theorem assemblyOf_congr {s t : State} (h : t.bus.assembly = s.bus.assembly) (src : Nat) : assemblyOf t src = assemblyOf s src := by
  unfold assemblyOf; rw [h]

/-- What a request's answer leaves at the end of its packet's command. -/
theorem gives_answered {u : State} (h : PacketTaken s m b) (heom : m.eom = true) (hlen : b.length ≤ 8202) (hc : Calm s)
    (hrun : takeMessage (wholeMessage m b) (arrived m s) = u)
    (hans : Answered (requestOf (wholeMessage m b) n op) resp (heard m s) u) :
    Gives (.mctpPacket m) s fun t => AnswersRequest s t m n resp := by
  have hall : OnlyChanges [.bus, .free, .out] s u := ((heard_parts m s).mono (by decide)).trans hans.parts
  subst hrun
  refine gives_finish (exec_mctpPacket_whole h heom hlen) (calm_of_onlyChanges hall (by decide) (by decide) hc) fun t hn => ?_
  have hkept := BusKept.of_noticed hn
  refine ⟨?_, hkept.peer.trans hans.peer, ?_, ?_, hn.onlyChanges (by decide) hall⟩
  · rw [hn.reported.resp, hans.sent]
    rfl
  · rw [hkept.assemblyOf, assemblyOf_congr hans.assembly]
    exact assemblyOf_arrived m s
  · rw [hkept.reqs]
    exact ⟨_, hans.kept, rfl, rfl, rfl⟩

theorem portOn_heard (m : MctpPkt) (s : State) : portOn (heard m s) .mgmt = portOn s .mgmt := portOn_targetDone s

/-- A request over MGMT reaches the device where the port works and an endpoint ID is set. -/
theorem turnedAway_smbus (s : State) (e : Nat) : turnedAway s (.smbus e) = !(portOn s .mgmt && s.bus.mgmt.eid.isSome) := by
  unfold turnedAway reaches portOn
  rw [Bool.or_false, Bool.and_right_comm]
  rfl

theorem served_heard (hs : Served s (.smbus m.src)) : Served (heard m s) (.smbus m.src) := by
  have hparts := heard_parts m s
  have hseq : (heard m s).seq = s.seq := hparts .seq (by decide)
  have hfrz : (heard m s).frz = s.frz := hparts .frz (by decide)
  have hcrew : (heard m s).crew = s.crew := hparts .crew (by decide)
  have hboot : (heard m s).boot = s.boot := hparts .boot (by decide)
  have heid : (heard m s).bus.mgmt.eid = s.bus.mgmt.eid := rfl
  obtain ⟨haway, hdark, hfrozen, hempty, hboat⟩ := hs
  refine ⟨?_, ?_, ?_, ?_, ?_⟩
  · rw [turnedAway_smbus] at haway ⊢
    rw [portOn_heard, heid, haway]
  · unfold darkOrAux at hdark ⊢; rw [hseq, hdark]
  · unfold frozen at hfrozen ⊢; rw [hfrz, hfrozen]
  · unfold emptySet anyMember isMember crewOf at hempty ⊢; rw [hcrew, hempty]
  · unfold boathouse at hboat ⊢; rw [hboot, hboat]

theorem noSession_heard (hn : NoSession s (.smbus m.src)) : NoSession (heard m s) (.smbus m.src) := by
  have hod : (heard m s).od = s.od := heard_parts m s .od (by decide)
  unfold NoSession sessionOf at hn ⊢
  rw [hod]
  exact hn

end

/-! ## Retries, requests that wait, and messages that are none -/

section
variable {s : State} {m : MctpPkt} {b : List Byte} {n : Fin 32} {v op : Byte × Byte} {l : List Byte}

theorem mctpSend_parts (q : McReq) (bytes : List Byte) (s : State) : OnlyChanges [.bus, .out] s (mctpSend q bytes s) :=
  mctpSend_only _ _ _ (by decide) (.refl _ s)

/-- A response leaves what is assembled, answered and waiting as it is. -/
theorem mctpSend_keeps (q : McReq) (bytes : List Byte) (s : State) : BusKept s (mctpSend q bytes s) := ⟨rfl, rfl, rfl, rfl, rfl, rfl⟩

theorem mctpSend_resp (q : McReq) (bytes : List Byte) (s : State) :
    (mctpSend q bytes s).out.resp = .mctp q.addr q.src q.tag bytes :: s.out.resp := rfl

theorem heard_out (m : MctpPkt) (s : State) : (heard m s).out = s.out := heard_parts m s .out (by decide)

theorem assemblyOf_heard (m : MctpPkt) (s : State) : assemblyOf (heard m s) m.src = none := assemblyOf_arrived m s

theorem gives_retry (h : PacketTaken s m b) (heom : m.eom = true) (hlen : b.length ≤ 8202) (hc : Calm s)
    (hb : b = vendorMessage s n v op l) {old : McReq}
    (hold : (s.bus.reqs.find? fun x => decide (x.src = m.src ∧ x.inst = n.val)) = some old) :
    Gives (.mctpPacket m) s fun t => t.bus.reqs = s.bus.reqs ∧ assemblyOf t m.src = none ∧
      t.out.resp = (if old.resp = [] then s.out.resp else .mctp m.srcAddr m.src m.tag old.resp :: s.out.resp) ∧
      OnlyChanges [.bus, .out] s t := by
  have hexec := exec_mctpPacket_whole h heom hlen
  rw [takeMessage_retry (parse_vendorMessage hb) hold] at hexec
  have hheard : OnlyChanges [.bus, .out] s (heard m s) := (heard_parts m s).mono (by decide)
  by_cases hresp : old.resp = []
  · rw [if_pos (by rw [hresp]; rfl)] at hexec
    refine gives_finish hexec (calm_of_onlyChanges hheard (by decide) (by decide) hc) fun t hn => ?_
    have hkept := BusKept.of_noticed hn
    rw [if_pos hresp, hn.reported.resp, heard_out, hkept.reqs, hkept.assemblyOf]
    exact ⟨rfl, assemblyOf_heard m s, rfl, hn.onlyChanges (by decide) hheard⟩
  · rw [if_neg (by simpa using hresp)] at hexec
    have hall := hheard.trans (mctpSend_parts (requestOf (wholeMessage m b) n op) old.resp (heard m s))
    refine gives_finish hexec (calm_of_onlyChanges hall (by decide) (by decide) hc) fun t hn => ?_
    have hkept := (mctpSend_keeps (requestOf (wholeMessage m b) n op) old.resp (heard m s)).trans (.of_noticed hn)
    rw [if_neg hresp, hn.reported.resp, hkept.reqs, hkept.assemblyOf]
    exact ⟨rfl, assemblyOf_heard m s, rfl, hn.onlyChanges (by decide) hall⟩

/-- Behind the endpoint's request that runs, one message waits. -/
theorem gives_waits (h : PacketTaken s m b) (heom : m.eom = true) (hlen : b.length ≤ 8202) (hc : Calm s)
    (hb : b = vendorMessage s n v op l) (hnew : (s.bus.reqs.find? fun x => decide (x.src = m.src ∧ x.inst = n.val)) = none)
    (hbusy : s.upd.committer = some (.smbus m.src)) (hnone : (s.bus.waiting.any fun x => decide (x.src = m.src)) = false) :
    Gives (.mctpPacket m) s fun t => t.out = s.out ∧ t.bus.reqs = s.bus.reqs ∧ OnlyChanges [.bus] s t ∧
      t.bus.waiting = s.bus.waiting ++ [{ src := m.src, addr := m.srcAddr, tag := m.tag, bytes := b }] := by
  have hbusy' : (heard m s).upd.committer = some (.smbus (requestOf (wholeMessage m b) n op).src) := by
    rw [heard_upd]; exact hbusy
  have hexec := exec_mctpPacket_whole h heom hlen
  rw [takeMessage_new (parse_vendorMessage hb) hnew, takeRequest_waits hbusy' hnone] at hexec
  have hall : OnlyChanges [.bus] s ((heard m s).onBus fun x => { x with waiting := x.waiting ++ [wholeMessage m b] }) :=
    (heard_parts m s).trans (State.onBus_only (cs := [.bus]) _ _ (by decide) (.refl _ _))
  refine gives_finish hexec (calm_of_onlyChanges hall (by decide) (by decide) hc) fun t hn => ?_
  have hkept := BusKept.of_noticed hn
  have honly := hn.onlyChanges (by decide) hall
  exact ⟨honly .out (by decide), hkept.reqs, honly, hkept.waiting⟩

/-- A further one is answered Busy. -/
theorem gives_busy (h : PacketTaken s m b) (heom : m.eom = true) (hlen : b.length ≤ 8202) (hc : Calm s)
    (hb : b = vendorMessage s n v op l) (hnew : (s.bus.reqs.find? fun x => decide (x.src = m.src ∧ x.inst = n.val)) = none)
    (hbusy : s.upd.committer = some (.smbus m.src)) (hone : (s.bus.waiting.any fun x => decide (x.src = m.src)) = true) :
    Gives (.mctpPacket m) s fun t => t.bus.reqs = s.bus.reqs ∧ t.bus.waiting = s.bus.waiting ∧
      t.out.resp = .mctp m.srcAddr m.src m.tag (emptyResponse s n op 6) :: s.out.resp ∧ OnlyChanges [.bus, .out] s t := by
  have hbusy' : (heard m s).upd.committer = some (.smbus (requestOf (wholeMessage m b) n op).src) := by
    rw [heard_upd]; exact hbusy
  have hexec := exec_mctpPacket_whole h heom hlen
  have hframe : mctpFrame (heard m s) n.val (op.1.toNat + 256 * op.2.toNat) rcBusy [] = emptyResponse s n op 6 :=
    (mctpFrame_empty (heard m s) n op 6).trans (emptyResponse_heard n op 6)
  rw [takeMessage_new (parse_vendorMessage hb) hnew, takeRequest_busy hbusy' hone] at hexec
  have hall : OnlyChanges [.bus, .out] s (mctpSend (requestOf (wholeMessage m b) n op)
      (mctpFrame (heard m s) n.val (op.1.toNat + 256 * op.2.toNat) rcBusy []) (heard m s)) :=
    ((heard_parts m s).mono (by decide)).trans (mctpSend_parts _ _ _)
  refine gives_finish hexec (calm_of_onlyChanges hall (by decide) (by decide) hc) fun t hn => ?_
  have hkept := BusKept.of_noticed hn
  refine ⟨hkept.reqs, hkept.waiting, ?_, hn.onlyChanges (by decide) hall⟩
  rw [hn.reported.resp, ← hframe, mctpSend_resp, heard_out]
  rfl

/-- Bytes that are no request of the device's are dropped. -/
theorem gives_otherMessage (h : PacketTaken s m b) (heom : m.eom = true) (hlen : b.length ≤ 8202) (hc : Calm s)
    (hother : parse s (wholeMessage m b) = none) :
    Gives (.mctpPacket m) s fun t => t.out = s.out ∧ t.bus.reqs = s.bus.reqs ∧ assemblyOf t m.src = none ∧
      OnlyChanges [.bus] s t := by
  have hexec := exec_mctpPacket_whole h heom hlen
  rw [takeMessage_other hother] at hexec
  have hall := arrived_parts m s
  refine gives_finish hexec (calm_of_onlyChanges hall (by decide) (by decide) hc) fun t hn => ?_
  have hkept := BusKept.of_noticed hn
  have honly := hn.onlyChanges (by decide) hall
  exact ⟨honly .out (by decide), hkept.reqs, (hkept.assemblyOf _).trans (assemblyOf_arrived m s), honly⟩

end

theorem mctpRequests : MctpRequests := by
  intro s m b h heom hlen hc
  refine ⟨fun n hnew hfree => ⟨fun hb hs hn => ?_, fun v op l hb hbad => ?_, fun op k r l hb hop hshort => ?_⟩,
    fun n v op l hb => ⟨fun q hq => gives_retry h heom hlen hc hb hq, fun hnew hbusy =>
      ⟨gives_waits h heom hlen hc hb hnew hbusy, gives_busy h heom hlen hc hb hnew hbusy⟩⟩,
    fun hother => gives_otherMessage h heom hlen hc (parse_other hother)⟩
  · rw [readResidueMessage_vendor] at hb
    refine gives_answered (op := (0x01, 0xC0)) h heom hlen hc (takeMessage_runs hb hnew hfree) ?_
    have hresidue : residueMessage (heard m s) n = residueMessage s n := by
      have hpm : (heard m s).pm = s.pm := heard_parts m s .pm (by decide)
      unfold residueMessage
      rw [heard_cfg, hpm]
    rw [← hresidue]
    exact runRequest_residue_answers (served_heard hs) (noSession_heard hn)
  · refine gives_answered (op := op) h heom hlen hc (takeMessage_runs hb hnew hfree) ?_
    rw [← emptyResponse_heard (m := m) (s := s)]
    refine runRequest_unsupported_answers (s := heard m s) l ?_
    rcases hbad with hversion | hopcode
    · exact .inr fun hv => hversion (BitVec.eq_of_toNat_eq hv)
    · exact .inl (vendorOps_unknown hopcode)
  · refine gives_answered (op := (op, 0xC0)) h heom hlen hc (takeMessage_runs hb hnew hfree) ?_
    rw [← emptyResponse_heard (m := m) (s := s)]
    exact runRequest_short_answers (s := heard m s) (vendorOps_known hop) hshort

end Sys2Proof.Machine
end

section
/-! PROOFS. The message that waited, as the last part of the step on an empty queue (R362, log 3): O53. -/

namespace Sys2Proof.Machine
open Sys2Proof

/-! ## What the parts of the idle step before it leave -/

theorem tick_parts (s : State) : OnlyChanges [.tb] s (tick s) := by
  obtain ⟨f, hf, -⟩ := tick_cases s
  rw [hf]
  exact State.onTb_only _ _ (by decide) (.refl _ s)

/-- The step up to the crews' resets moves nothing of the buses, the updates, the heads and the faults. -/
def idleParts : List Part := [.tb, .cxl, .wb, .dram, .pm, .log, .free, .seq, .crew]

/-- The idle step up to the copies that lag. -/
def idleToCrews (s : State) : State := crewStep (sampleStep s.tb.now (settleMarks (idle s)))

theorem idleToCrews_parts (s : State) : OnlyChanges idleParts s (idleToCrews s) := by
  unfold idleToCrews idle
  have htick : OnlyChanges idleParts s (tick s) := (tick_parts s).mono (by decide)
  exact crewStep_only _ (by decide) (sampleStep_only _ _ (by decide) (settleMarks_only _ (by decide)
    (drainOne_only _ (by decide) htick)))

theorem endCopy_lagBuf (c : Crew) (s : State) : (endCopy c s).crew.lagBuf = s.crew.lagBuf := by cases c <;> rfl

theorem crewStep_lagBuf (s : State) : (crewStep s).crew.lagBuf = s.crew.lagBuf := by
  have hended : ∀ (c : Crew) (u : State), (match (crewOf u c).copyEnd with
      | some t => if t ≤ u.tb.now then endCopy c u else u
      | none => u).crew.lagBuf = u.crew.lagBuf := by
    intro c u
    split
    · split
      · exact endCopy_lagBuf c u
      · rfl
    · rfl
  unfold crewStep
  split
  · rfl
  · unfold copyStep
    dsimp only
    exact (hended .bow _).trans (hended .stroke _)

theorem idleToCrews_lagBuf (s : State) : (idleToCrews s).crew.lagBuf = s.crew.lagBuf := by
  have hsame : (sampleStep s.tb.now (settleMarks (idle s))).crew = s.crew := by
    have honly : OnlyChanges [.tb, .cxl, .wb, .dram, .pm, .log, .free, .seq] s (sampleStep s.tb.now (settleMarks (idle s))) :=
      sampleStep_only _ _ (by decide) (settleMarks_only _ (by decide) (drainOne_only _ (by decide) ((tick_parts s).mono (by decide))))
    exact honly .crew (by decide)
  unfold idleToCrews
  rw [crewStep_lagBuf, hsame]

theorem lagStep_none {s : State} (h : s.crew.lagBuf = []) : lagStep s = s := by
  unfold lagStep releaseLagged
  rw [h]
  split <;> rfl

theorem overrunStep_none {s : State} (hshadows : s.fault.shadows = []) (hheads : ∀ h, (headOf s h).retrainBy = none) :
    overrunStep s = s := by
  have hlate : ∀ h, headLate h s = s := fun h => by unfold headLate; rw [hheads h]
  unfold overrunStep
  rw [hshadows]
  split
  · rfl
  · show headLate 0 (headLate 1 s) = s
    rw [hlate, hlate]

theorem decayStep_keeps (s : State) : (decayStep s).bus.waiting = s.bus.waiting ∧
    ∀ h, (headOf (decayStep s) h).retrainBy = (headOf s h).retrainBy := by
  unfold decayStep
  split
  · obtain ⟨w, hr⟩ := episodeCheck_reported 3 s
    have hbus : (weirCheck 3 s).bus = (episodeCheck 3 s).bus := sprintCheck_parts (episodeCheck 3 s) .bus (by decide)
    obtain ⟨p0, p1, hhost⟩ := weirCheck_host 3 s
    refine ⟨?_, fun h => ?_⟩
    · rw [hbus, (BusKept.of_reported hr).waiting]
      rfl
    · unfold headOf
      rw [hhost]
      split <;> rfl
  · exact ⟨rfl, fun _ => rfl⟩

/-- With nothing of its other parts due, the step on an empty queue ends in the messages that wait. -/
theorem idleStep_serves {s : State} (hlag : s.crew.lagBuf = []) (hshadows : s.fault.shadows = [])
    (hheads : ∀ h, (headOf s h).retrainBy = none) : idleStep s = serveWaiting (decayStep (idleToCrews s)) := by
  have hparts := idleToCrews_parts s
  have hnolag : (idleToCrews s).crew.lagBuf = [] := (idleToCrews_lagBuf s).trans hlag
  have hfault : (decayStep (idleToCrews s)).fault = s.fault :=
    (decayStep_only (cs := [.host, .cxl, .pm, .lake, .weir, .wl, .bus, .out]) _ (by decide) (.refl _ _) .fault (by decide)).trans
      (hparts .fault (by decide))
  have hhost : (idleToCrews s).host = s.host := hparts .host (by decide)
  have hheads' : ∀ h, (headOf (decayStep (idleToCrews s)) h).retrainBy = none := fun h => by
    rw [(decayStep_keeps _).2 h]
    unfold headOf at hheads ⊢
    rw [hhost]
    exact hheads h
  have hidle : idleStep s = serveWaiting (overrunStep (decayStep (lagStep (idleToCrews s)))) := rfl
  rw [hidle, lagStep_none hnolag, overrunStep_none (by rw [hfault, hshadows]) hheads']

/-! ## The message that runs -/

theorem serveWaiting_none {s : State} (h : ∀ m ∈ s.bus.waiting, s.upd.committer = some (.smbus m.src)) : serveWaiting s = s := by
  have hfind : (s.bus.waiting.find? fun m => !endpointBusy s m.src) = none :=
    List.find?_eq_none.mpr fun m hm => by simp [endpointBusy, h m hm]
  unfold serveWaiting
  rw [hfind]

/-- No message of `m`'s sender waits. -/
def unqueued (m : McMsg) (s : State) : State :=
  s.onBus fun b => { b with waiting := b.waiting.filter fun x => decide (x.src ≠ m.src) }

theorem unqueued_parts (m : McMsg) (s : State) : OnlyChanges [.bus] s (unqueued m s) := by
  unfold unqueued
  exact State.onBus_only _ _ (by decide) (.refl _ s)

/-- The one message that waits, a vendor request, runs where its endpoint runs none. -/
theorem serveWaiting_one {s : State} {m : McMsg} {n : Fin 32} {v op : Byte × Byte} {l : List Byte} (hw : s.bus.waiting = [m])
    (hfree : s.upd.committer ≠ some (.smbus m.src)) (hb : m.bytes = vendorMessage s n v op l) :
    serveWaiting s = runRequest (requestOf m n op) v.1.toNat l (unqueued m s) := by
  have hfind : (s.bus.waiting.find? fun m => !endpointBusy s m.src) = some m := by
    rw [hw, List.find?_cons_of_pos]
    simp [endpointBusy, hfree]
  have hparse : parse (unqueued m s) m = some (requestOf m n op) :=
    (parse_congr (unqueued_parts m s .cfg (by decide)) m).trans (parse_vendorMessage hb)
  unfold serveWaiting
  rw [hfind]
  show (match parse (unqueued m s) m with
    | none => unqueued m s
    | some q => runRequest q (at' m.bytes 3 1) (m.bytes.drop 8) (unqueued m s)) = _
  rw [hparse, at'_version hb, drop_vendorMessage hb]

theorem waitingMessageRuns : WaitingMessageRuns := by
  refine ⟨fun s hempty hlag hshadows hheads => ?_, fun s h => serveWaiting_none h, ?_⟩
  · refine ⟨decayStep (idleToCrews s), ?_, ?_, ?_⟩
    · unfold step
      rw [hempty]
      exact congrArg Host.Outcome.next (idleStep_serves hlag hshadows hheads)
    · rw [(decayStep_keeps _).1, idleToCrews_parts s .bus (by decide)]
    · exact (decayStep_only (cs := [.host, .cxl, .pm, .lake, .weir, .wl, .bus, .out]) _ (by decide) (.refl _ _) .upd (by decide)).trans
        (idleToCrews_parts s .upd (by decide))
  · rintro s t m n hw hfree hb hs hn - rfl
    rw [readResidueMessage_vendor] at hb
    have hparts := unqueued_parts m s
    have hserved : Served (unqueued m s) (.smbus m.src) := hs
    have hnone : NoSession (unqueued m s) (.smbus m.src) := hn
    have hans := runRequest_residue_answers (n := n) hserved hnone
    have hresidue : residueMessage (unqueued m s) n = residueMessage s n := rfl
    rw [serveWaiting_one hw hfree hb]
    refine ⟨hans.waiting.trans ?_, hans.sent.trans ?_, (hparts.mono (by decide)).trans hans.parts⟩
    · show s.bus.waiting.filter _ = []
      rw [hw]
      simp
    · rw [hresidue, show (unqueued m s).out = s.out from hparts .out (by decide)]
      rfl

/-- Settles O53, from its four parts: control messages, requests, the assembly of packets, and the message that waits. -/
theorem mctpControlAndPackets : Obligations.MctpControlAndPackets :=
  ⟨mctpControl, mctpRequests, mctpAssembly, waitingMessageRuns⟩

end Sys2Proof.Machine
end
